-- ==== Sys2Proof/Word.lean ====
section
/-! DEFINITION. The word types of the device: 32-bit registers and words (R7), bytes, and the plainest arithmetic on them. -/

namespace Sys2Proof

/-- A 32-bit register or data word (R7). -/
abbrev Word := BitVec 32

/-- A byte. -/
abbrev Byte := BitVec 8

/-- The 32-bit word of a natural number, modulo 2^32. -/
abbrev word (n : Nat) : Word := BitVec.ofNat 32 n

/-- The byte of a natural number, modulo 256. -/
abbrev byte (n : Nat) : Byte := BitVec.ofNat 8 n

end Sys2Proof
end

