-- ==== Sys2Proof/Syntax.lean ====
section
/-! DEFINITION. The commands the block takes from outside: one constructor of `Instr` per row of the opcode table, with the
data each carries (the addresses and words of a host transaction, what an analogue circuit or the other side measured or sent). -/

namespace Sys2Proof

/-- One of the sixteen ports P0-P15 (R23, R24). -/
abbrev Port := Fin 16
/-- One of the sixteen lanes L0-L15. -/
abbrev Lane := Fin 16
/-- One of the four huddles H0-H3. -/
abbrev Huddle := Fin 4
/-- One of the sessions S0-S159. -/
abbrev SessId := Fin 160
/-- One of the timers TMR0-TMR7. -/
abbrev TimerId := Fin 8
/-- One of the check-value channels CRC0-CRC3. -/
abbrev Chan := Fin 4

/-- The nineteen blocks of R25. -/
inductive BlockId where
  | GEN | PWR | FLD | RXE | PRO | ACD | KPR | STO | SIL | TMR | QUE | CRC | COX | SAF | CFG | EMU | TRC | TUN | HIF
  deriving DecidableEq, Repr

/-- A place that carries a PROFILE and EXPERT pair (R43): a block, or the page of one port in it. -/
structure ProfAt where
  block : BlockId
  page : Option Port
  deriving DecidableEq, Repr

/-- How the host ends a transaction of the quad-SPI port: after its last whole word; within a further word, which is then partial
(R534); or with `HRDY` low, which discards the words that have not taken effect (R538), here the last word of the list. -/
inductive TxEnd where
  | whole | partialWord | csEarly
  deriving DecidableEq, Repr

/-- One side of the keep-out rules: a free port, or a huddle taken as one unit (R91). -/
inductive TxUnit where
  | port (n : Port)
  | huddle (h : Huddle)
  deriving DecidableEq, Repr

/-- What one direct driver's compensation update senses (R61, R62, R575): temperature in degrees Celsius, supply headroom, a miss of
more than 0.5 dB, dissipation in 10 mW. -/
structure DriverMeas where
  temp : Byte
  headroom : Bool
  missed : Bool
  diss : Nat
  deriving DecidableEq, Repr

/-- The ways in which a reception ends by itself (R146, R151). -/
inductive RxEnd where
  | eof | coding
  deriving DecidableEq, Repr

/-- What the demodulator of a port hands over of a reception: its data and parity bits in the order on air (R173) or, in NFC-A at 106 kbit/s,
the subcarrier energy of the first and the second half of each bit (R145; full scale is 2^60); the mean power in -1/2 dBFS; whether a
sample clipped (R135). -/
structure RxData where
  bits : List Bool
  halves : List (Nat × Nat)
  rssi : Nat
  clip : Bool
  deriving DecidableEq, Repr

/-- One complex sample at a receiver (I in the low half, Q in the high half, 0x4000 is full scale), at the gain in force, with the ports whose
carrier is being keyed at that sample and the amplitude code that each has reached (R136). -/
structure RxSample where
  x : Word
  keyed : List (Port × Nat)
  deriving DecidableEq, Repr

/-- What a receiver sees before a window opens: the peak ADC sample (R134) and the samples (R140) of the last 4 µs, and those of the times since
its last window at which the weights adapt (R138). -/
structure RxOpen where
  peak : Nat
  before : List RxSample
  adapting : List RxSample
  deriving DecidableEq, Repr

/-- A fault of the device's own logic that shows during the command: the decision units disagree (R410), a parity error on decision
data (R413), in the recent-table way that a probe reads (R320), in a session context (R413). -/
inductive HwFault where
  | none | lockstep | parity
  | recent (way : Fin 4)
  | sessParity (sess : SessId)
  deriving DecidableEq, Repr

/-- How one Accord code channel ended on air (R281, R284-R286). -/
inductive ChanEnd where
  | none | noSync | done | length | afc | cut
  deriving DecidableEq, Repr

/-- What one code channel of an Accord window delivered (R286): how it ended, the length byte, payload and check as received, power in
-1/2 dBFS, frozen frequency offset in 10 Hz, first-chip time less 1,236/fc, SINR in 0.25 dB. -/
structure ChanData where
  code : Fin 8
  ending : ChanEnd
  len : Byte
  payload : List Byte
  check : BitVec 16
  power : Byte
  fofs : BitVec 12
  start : Int
  sinr : Byte
  deriving DecidableEq, Repr

/-- What the field monitor of a port has measured for FIELD_FILT (R406, R407): the drive envelope and, on a direct port, the current of the output
stage, each in 1/1000 of the amplitude code that gives it into a matched aerial; that current in µA; the voltage on `PA_VC_n` in µV; the
level on `PA_EN_n`. -/
structure FieldSight where
  drive : Nat
  load : Nat
  current : Nat
  pa : Nat
  en : Bool
  deriving DecidableEq, Repr

/-- How the writing of a retire entry ends (R518, R526): both copies verify, a copy does not, the supply is lost after copy 0 holds the entry, the
supply is lost during a compaction. -/
inductive RetireEnd where
  | verified | unverified | lostAfterCopy0 | lostCompacting
  deriving DecidableEq, Repr

/-- What happens during START beside its tasks (R39): the host writes a word, or a tick of a timer falls due. -/
inductive StartAct where
  | write (addr : BitVec 24) (value : Word)
  | tick (timer : TimerId)
  deriving DecidableEq, Repr

/-- What the START sequence finds (R503, R504): `TEST_EN` high, `STOP_N` low, the us it takes, what the receivers saw of each keying as 256 words of I and Q
(receiver i, port j keyed at 16 i + j), for each tuner what its read frame and the repeat of it returned, the self-test result of each code 1 to 9, a dangerous failure that arises, whether the store answers
its start-up and the grown list in its reserve (R357, R342), the `VDDTX_n` above their thresholds, the levels on `COEX_GRANT` and
the blanks, whether NV writes verify, and for how long the retention cell of the emulated tag had been without supply, in units of time,
and what happens meanwhile: `early` before the image is applied (R506), `acts` after it. -/
structure StartEnv where
  testEn : Bool
  stopLow : Bool
  us : Nat
  matrix : List Word
  tuners : List (Word × Word)
  selfTest : List Bool
  failure : Option (Nat × Nat)
  storeOk : Bool
  grown : List Nat
  vddtx : Nat
  grantHigh : Bool
  blank0High : Bool
  blank1High : Bool
  nvOk : Bool
  away : Nat
  early : List StartAct
  acts : List StartAct
  deriving DecidableEq, Repr

/-- The commands, in the order of the opcode table. -/
inductive Instr where
  /-- `POWER_ON_RESET` (R560): VDD_AON rises through 1.60 V and resets the device, clearing RESETS before it counts this reset. -/
  | powerOnReset
  /-- `PIN_RESET` (R560): RST_N held low for at least 1 µs resets the device. -/
  | pinReset (ns : Nat)
  /-- `CORE_BROWN_OUT` (R560): VDD_CORE below 0.72 V for at least 2 µs resets the device. -/
  | coreBrownOut (ns : Nat)
  /-- `RESET_CMD` (R561): A write of PWR.RESET_CMD with KEY 0x1680 resets the device within 2 µs; any other value is refused and counted. -/
  | resetCmd (value : Word)
  /-- `RESET_RELEASE` (R503): Reset release runs the START sequence: clocks, slot choice, image apply, start tasks and self-test, ending in RUN, SAFE or SAFE BOOT. -/
  | resetRelease (env : StartEnv)
  /-- `PHASE_REQ_RECOVERY` (R41): REQ 0b011 in GEN.PHASE_CTRL moves RUN to RECOVERY with CAUSE 4; in any other phase it is ignored. -/
  | phaseReqRecovery (rlimit : BitVec 8)
  /-- `PHASE_REQ_RUN` (R41): REQ 0b001 in GEN.PHASE_CTRL moves TEST to RECOVERY with CAUSE 9. -/
  | phaseReqRun (rlimit : BitVec 8)
  /-- `RECOVERY_COMPLETE` (R623): Completion of the recovery actions of the cause in force returns the device from RECOVERY to RUN. -/
  | recoveryComplete
  /-- `RLIMIT_EXPIRY` (R37): RLIMIT elapses with recovery incomplete and the device enters SAFE with CAUSE 8. -/
  | rlimitExpiry
  /-- `LOCK_SET` (R12): A write of 1 to a block's lock bit freezes its rw-L fields until reset. -/
  | lockSet (block : BlockId)
  /-- `WRITE` (R535): A host WRITE transaction writes words to registers without a row of their own, or to the SRAM window, under the access codes and refusals. -/
  | write (quad : Bool) (addr : BitVec 24) (data : List Word) (ending : TxEnd) (same : Bool)
  /-- `READ` (R531): A host READ transaction returns words from ascending addresses, popping where the address pops. `bad` says word by word
  whether the memory word read fails its parity (R450, R484); words past its end do not. -/
  | read (quad : Bool) (addr : BitVec 24) (words : Nat) (ending : TxEnd) (bad : List Bool)
  /-- `READ_STATUS` (R542): A host READ_STATUS transaction returns the status word, sampled again for each word. -/
  | readStatus (quad : Bool) (words : Nat) (ending : TxEnd)
  /-- `FRAME_PUSH` (R539): A host FRAME_PUSH transaction pushes each data word to TXQn. -/
  | framePush (quad : Bool) (addr : BitVec 24) (data : List Word) (ending : TxEnd)
  /-- `FRAME_POP` (R539): A host FRAME_POP transaction pops each data word from RXQn; `bad` as in `READ` (R484). -/
  | framePop (quad : Bool) (addr : BitVec 24) (words : Nat) (ending : TxEnd) (bad : List Bool)
  /-- `EVENT_POP` (R540): A host EVENT_POP transaction pops event entries, two words each; `bad` as in `READ` (R484). -/
  | eventPop (quad : Bool) (addr : BitVec 24) (words : Nat) (ending : TxEnd) (bad : List Bool)
  /-- `AUTH` (R541): A host AUTH transaction carries an authenticated command, whose checks begin when HCS_N rises. -/
  | auth (quad : Bool) (addr : BitVec 24) (data : List Word) (ending : TxEnd)
  /-- `HIF_BADCMD` (R533): An unknown opcode or a bad address sets BADCMD, and the transaction is ignored. -/
  | hifBadcmd (opcode : Byte) (addr : BitVec 24)
  /-- `HIF_STALL` (R537): HRDY stays low for 10 ms; the transaction is aborted and STALL is set. -/
  | hifStall (opcode : Byte) (addr : BitVec 24)
  /-- `HIRQ_REEDGE_END` (R543): The 200 ns deassertion pulse of HIRQ_N under REEDGE ends. -/
  | hirqReedgeEnd
  /-- `PROFILE_SELECT` (R44): A write of PROFILE.SEL requests a profile, or is refused with GEN_BAD_PROFILE. -/
  | profileSelect (place : ProfAt) (sel : Byte)
  /-- `PROFILE_APPLY` (R45): A selected profile takes effect at the block's or port's next safe point, and ACTIVE changes. -/
  | profileApply (place : ProfAt)
  /-- `EXPERT_WRITE` (R46): A write of EXPERT_EN: setting it loads the raw fields from the active profile or from reset values. -/
  | expertWrite (place : ProfAt) (value : Word)
  /-- `ROLE_WRITE` (R50): A write of PRO.Pn.ROLE requests a role, and conflicting combinations are judged. -/
  | roleWrite (port : Port) (value : Word)
  /-- `ROLE_CHANGE_APPLY` (R52): A new effective role takes effect at the end of the frame in progress, and EFFECTIVE changes. -/
  | roleChangeApply (port : Port)
  /-- `HUDDLE_WRITE` (R89): A write of FLD.Pn.HUDDLE; membership changes at the huddle's next slot boundary. -/
  | huddleWrite (port : Port) (value : Word)
  /-- `FC_TRIM_WRITE` (R54): A carrier trim write changes the effective trim, clamped to the locked window, and the synthesiser settles. -/
  | fcTrimWrite (value : Word)
  /-- `SYNTH_LOCKED` (R55): The synthesiser reaches lock, SETTLING clears, and held transmit commands proceed. -/
  | synthLocked
  /-- `SYNTH_LOCK_LOST` (R56): Lock is lost in RUN, FLD_LOCK_LOST is posted, and the device enters RECOVERY with CAUSE 1. -/
  | synthLockLost
  /-- `SYNTH_IDLE_STOP` (R565): SYN_IDLE_MS passes with every port OFF or STANDBY; the synthesiser stops and the oscillator drops to low drive. -/
  | synthIdleStop
  /-- `PHASE_AMPL_WRITE` (R60): A write of PHASE or AMPL is recorded for application at the next field-on, in FIELD, or at the end of TX. -/
  | phaseAmplWrite (port : Port) (isAmpl : Bool) (value : Word)
  /-- `PHASE_AMPL_APPLY` (R60): A pending phase or amplitude change is applied as an edge transition and passed to RXE. -/
  | phaseAmplApply (port : Port)
  /-- `COMPENSATION_UPDATE` (R61): Every 100 µs, direct-driver compensation updates from temperature and supply and may set COMP_FAIL. -/
  | compensationUpdate (drivers : List DriverMeas)
  /-- `FIELD_ON_RAMP_START` (R69): A port waiting in STANDBY starts its field-on ramp once amplitude, grant, duty gate, ramp slot and keep-out allow. -/
  | fieldOnRampStart (port : Port)
  /-- `RELAY_BIAS_EXPIRY` (R63): T_BIAS after PA_EN rises, the relay carrier starts and the PA_VC ramp begins. -/
  | relayBiasExpiry (port : Port)
  /-- `FIELD_ON_RAMP_END` (R73): The field-on ramp ends, the port is in FIELD, and GT_ON starts. -/
  | fieldOnRampEnd (port : Port)
  /-- `GUARD_EXPIRY` (R73): GT_ON ends and modulation may start. -/
  | guardExpiry (port : Port)
  /-- `FIELD_OFF_RAMP_END` (R63): A field-off ramp ends and the carrier stops; direct ports enter STANDBY. -/
  | fieldOffRampEnd (port : Port) (before : RxOpen)
  /-- `RELAY_BIAS_OFF_EXPIRY` (R63): T_BIAS after the carrier stops, PA_EN falls and the relay port is in STANDBY. -/
  | relayBiasOffExpiry (port : Port)
  /-- `FIELD_RESET` (R74): A write of FIELD_RESET requests a field reset, started now or at the end of the exchange or ramp. -/
  | fieldReset (port : Port) (value : Word)
  /-- `RESET_OFF_EXPIRY` (R74): RESET_OFF ends and the field-on ramp of the reset may begin. -/
  | resetOffExpiry (port : Port)
  /-- `DUTY_BIN_START` (R77): At each 1 ms bin the duty gate fixes N for the next bin, cuts surplus ports and admits waiting ones. -/
  | dutyBinStart
  /-- `MATRIX_RETRY` (R82): An unmeasured port is keyed for 20 µs at a qualifying idle moment in its refresh interval. -/
  | matrixRetry (port : Port) (column : List Word)
  /-- `NEIGHBOUR_SET_CHANGE` (R85): A changed effective neighbour set takes effect once neither port is in TX or RX, and FLD_NEIGH_CHANGE is posted. -/
  | neighbourSetChange (port : Port) (other : Port)
  /-- `FLD_STARVE` (R91): Deferral reaches STARVE_LIMIT; FLD_STARVE is posted and the port gains precedence. -/
  | fldStarve (side : TxUnit)
  /-- `HUDDLE_SLOT_START` (R201): A huddle slot starts and fixes its member frames and common end. -/
  | huddleSlotStart (huddle : Huddle)
  /-- `FRAME_START` (R183): A frame's modulation starts once every timing, guard, keep-out, grant and blank condition allows it. -/
  | frameStart (port : Port)
  /-- `FRAME_TX_END` (R69): A frame's modulation ends and the receive window opens, or the port goes to its return state. -/
  | frameTxEnd (port : Port) (before : RxOpen)
  /-- `WARMUP_STEP_START` (R94): A warm-up step starts in an idle gap and the port enters CAL. -/
  | warmupStepStart (port : Port) (stepNo : Fin 6)
  /-- `WARMUP_STEP_DONE` (R93): A warm-up step completes, including a column refresh, and the port returns to FIELD. -/
  | warmupStepDone (port : Port) (column : List Word) (samples : List RxSample)
  /-- `FLD_WARM_LATE` (R96): WARM_MAX passes without every enabled step completed; LATE is set. -/
  | fldWarmLate (port : Port)
  /-- `VECTOR_MEASUREMENT` (R103): The loaded-carrier vector is measured and judged against REF for mismatch. -/
  | vectorMeasurement (port : Port) (vec : Word)
  /-- `CAPTURE_REF` (R114): CAPTURE_REF stores the port's next measurement in REF. -/
  | captureRef (port : Port)
  /-- `RETUNE` (R115): RETUNE starts a search on a port in FIELD. -/
  | retune (port : Port)
  /-- `MEASURE` (R131): MEASURE schedules a vector measurement. -/
  | measure (port : Port)
  /-- `SEARCH_MEASUREMENT` (R116): A search measurement completes and the search picks its next code or ends with TUN_RETUNED or TUN_RETUNE_FAIL. -/
  | searchMeasurement (port : Port) (vec : Word)
  /-- `TUNER_CODE_WRITE` (R109): A write of TUN.Pn.CODE sends a tuner frame and may abandon a search. -/
  | tunerCodeWrite (port : Port) (value : Word)
  /-- `TUNER_FRAME_DONE` (R107): A tuner frame ends, with its read verify, a retry, or LINK_FAIL. -/
  | tunerFrameDone (sent : Word)
  /-- `TUNER_SETTLE_EXPIRY` (R109): SETTLE_US after a code change ends and the cancellation update follows. -/
  | tunerSettleExpiry (port : Port) (samples : List RxSample)
  /-- `SNIFF_ROUND_START` (R121): A sniff round starts every INTERVAL_MS. -/
  | sniffRoundStart
  /-- `SNIFF_PING` (R123): A ping is sent or skipped, its vector is judged against the baseline, and it may wake the port. -/
  | sniffPing (port : Port) (vec : Word)
  /-- `SNIFF_CONFIRM_PING` (R124): The confirming ping 2 ms later decides the wake. -/
  | sniffConfirmPing (port : Port) (vec : Word)
  /-- `PREAMBLE_DETECTED` (R147): The receiver detects a preamble and enters SOF_WAIT. -/
  | preambleDetected (port : Port) (power length more : Nat) (fofs : BitVec 12) (tofs : Byte) (codes : Byte)
  /-- `SOF_DETECTED` (R146): A valid SoF begins and the receiver enters FRAME. -/
  | sofDetected (port : Port) (sof : List Bool) (sofT : Nat) (fofs : BitVec 12) (tofs : Byte) (codes : Byte)
  /-- `SOF_WINDOW_EXPIRY` (R150): W_SOF passes without a SoF; FALSE_LOCKS is counted and the receiver re-arms. -/
  | sofWindowExpiry (port : Port)
  /-- `ENERGY_STEP` (R152): An energy step re-arms SOF_WAIT, or overtakes a frame when CAPTURE_EN is 1. -/
  | energyStep (port : Port) (recent before : Nat) (rx : RxData)
  /-- `AFC_RANGE` (R157): The AFC estimate is beyond ±20 kHz and the reception or channel ends. -/
  | afcRange (port : Port) (codes : Byte) (rx : RxData)
  /-- `FRAME_END` (R146): A reception ends at EOF, coding or length; PRO checks it, writes the completion and acts on the reply. -/
  | frameEnd (port : Port) (ending : RxEnd) (rx : RxData) (hw : HwFault)
  /-- `RX_WINDOW_LIMIT` (R87): The window limit passes; the window closes with a timeout or END = WINDOW. -/
  | rxWindowLimit (port : Port) (rx : RxData)
  /-- `NOISE_WINDOW_DONE` (R162): A 64 µs noise window completes and updates LAST, AVG, MIN and MAX. -/
  | noiseWindowDone (port : Port) (powers : List Nat)
  /-- `CLR_COUNTS` (R171): CLR_COUNTS clears FALSE_LOCKS and OVERTAKES. -/
  | clrCounts (port : Port)
  /-- `CLR_NOISE` (R162): CLR_NOISE clears the noise statistics and the Accord noise floor. -/
  | clrNoise (port : Port)
  /-- `TX_PUSH` (R481): A write of QUE.Pn.TX_PUSH pushes a word to TXQn, or stalls while the queue is full. -/
  | txPush (port : Port) (value : Word)
  /-- `RX_POP` (R481): A host read of QUE.Pn.RX_POP pops a word, or sets UNDERRUN when RXQn is empty. -/
  | rxPop (port : Port) (bad : Bool)
  /-- `FLUSH_RX` (R482): FLUSH_RX discards RXQn, including the rest of a partly pushed completion. -/
  | flushRx (port : Port)
  /-- `DESCRIPTOR_TAKE` (R194): At an exchange boundary PRO takes a complete host descriptor and polices it. -/
  | descriptorTake (port : Port) (bad : Bool)
  /-- `COMPLETION_PUSH` (R195): A staged completion is pushed to RXQn once room allows. -/
  | completionPush (port : Port)
  /-- `FLUSH_TX` (R200): FLUSH_TX discards untaken descriptors with RESULT 13 and ends any hold. -/
  | flushTx (port : Port)
  /-- `END_HOLD` (R214): END_HOLD ends a hold in force. -/
  | endHold (port : Port)
  /-- `PRO_HOLD_EXPIRED` (R197): HOLD_MAX passes with no descriptor taken and the hold ends. -/
  | proHoldExpired (port : Port)
  /-- `RFCA_EXPIRY` (R207): The initial collision-avoidance wait ends with the field clear, or restarts up to RFCA_MAX. -/
  | rfcaExpiry (port : Port) (draw : Fin 4)
  /-- `EXTERNAL_FIELD_CHANGE` (R365): The external field level crosses its threshold, affecting RF collision avoidance and the emulated tag's field state. -/
  | externalFieldChange (port : Port) (level : Nat)
  /-- `RESPONSE_RFCA_EXPIRY` (R207): T_ADT ends and the response collision avoidance sends, or waits, or completes with RESULT 14. -/
  | responseRfcaExpiry (port : Port)
  /-- `ARFG_EXPIRY` (R207): T_ARFG after the field-on ramp ends and the next active frame may start. -/
  | arfgExpiry (port : Port)
  /-- `POLL_ENTRY_START` (R216): A port starts its next polling-list entry after running due presence checks. -/
  | pollEntryStart (port : Port) (hw : HwFault)
  /-- `POLL_WAIT_EXPIRY` (R220): A WAIT entry's time ends, with a field-on when FIELD_OFF was set. -/
  | pollWaitExpiry (port : Port)
  /-- `PRESENCE_CHECK_DUE` (R237): QUIET_MS after last-seen, or a bench expiry, makes a session's presence check due. -/
  | presenceCheckDue (sess : SessId)
  /-- `SESS_CLOSE` (R238): CLOSE in PRO.SESS_CMD closes the named session. -/
  | sessClose (value : Word)
  /-- `OVERFLOW_ENTRY_DUE` (R241): OVERFLOW_BENCH after an overflow entry, the tag is woken and handled or halted again. -/
  | overflowEntryDue (place : Nat)
  /-- `ACCORD_DETECT_DEADLINE` (R281): At 2,236/fc, codes without a detected preamble are reported NONE. -/
  | accordDetectDeadline (port : Port)
  /-- `ACCORD_ORDER_POINT` (R282): At 3,220/fc the successive-cancellation order is fixed. -/
  | accordOrderPoint (port : Port) (powers : List (List Nat))
  /-- `ACCORD_WINDOW_CLOSE` (R285): The Accord window closes when every channel has ended or its limit passes. -/
  | accordWindowClose (port : Port)
  /-- `ACCORD_STAGES_DONE` (R285): The last stage finishes; the completion is written, sessions are matched and tags are benched. -/
  | accordStagesDone (port : Port) (chans : List ChanData) (clip : Bool) (hw : HwFault)
  /-- `QUARANTINE_EXPIRY` (R272): CODE_HOLD ends and a quarantined Accord code is free. -/
  | quarantineExpiry (port : Port) (group : Fin 16) (code : Fin 8)
  /-- `STORE_OP_START` (R347): STO starts the next operation on a free die in priority order, suspending a program or erase where allowed. -/
  | storeOpStart
  /-- `STORE_STATUS_POLL` (R621): A status poll every 2.0 µs checks the die's busy bit. -/
  | storeStatusPoll (die : Fin 16)
  /-- `STORE_PAGE_READ_DONE` (R339): A page read completes with ECC status; a shelf read returns to its lookup, and host or ring-head reads complete. -/
  | storePageReadDone (die : Fin 16) (status : Byte) (data : List Byte) (hw : HwFault)
  /-- `STORE_PROGRAM_DONE` (R342): A program completes, or fails and marks the block bad. -/
  | storeProgramDone (die : Fin 16) (status : Byte)
  /-- `STORE_ERASE_DONE` (R342): An erase completes, or fails and marks the block bad. -/
  | storeEraseDone (die : Fin 16) (status : Byte)
  /-- `STO_TIMEOUT` (R340): A store operation overruns its timeout and starts store reinitialisation. -/
  | stoTimeout (die : Fin 16)
  /-- `STORE_REINIT_RETRY` (R358): Once per second while READY is 0, STO repeats its start-up in the background. -/
  | storeReinitRetry (ok : Bool)
  /-- `STO_READ` (R350): An HCMD READ reads LEN bytes of a logical page into the buffer. -/
  | stoRead (value : Word)
  /-- `STO_PROGRAM` (R350): An HCMD PROGRAM writes the buffer to a logical page. -/
  | stoProgram (value : Word)
  /-- `STO_ERASE` (R350): An HCMD ERASE erases the logical block holding PAGE. -/
  | stoErase (value : Word)
  /-- `KPR_COMMIT` (R307): An authenticated KPR_COMMIT is checked and written to NV. -/
  | kprCommit
  /-- `COMMIT_NV_DONE` (R307): The commit's NV write verifies; the named bank becomes active and invalidation starts. -/
  | commitNvDone (ok : Bool)
  /-- `INVALIDATION_PASS_DONE` (R314): The pass clearing every VERDICT ends and INVALIDATING clears. -/
  | invalidationPassDone
  /-- `RECENT_SWEEP_TICK` (R310): Every 1 µs the sweep visits one way and clears VALID if it is older than COUNT_TTL. -/
  | recentSweepTick
  /-- `GO_PULSE_END` (R329): GO_MS elapses and GO_n is deasserted. -/
  | goPulseEnd (lane : Lane)
  /-- `ALERT_PULSE_END` (R330): ALERT_MS elapses and ALERT_n is deasserted. -/
  | alertPulseEnd (lane : Lane)
  /-- `EMU_REQA` (R367): The emulated tag in IDLE answers REQA with ATQA. -/
  | emuReqa
  /-- `EMU_WUPA` (R367): The emulated tag in IDLE or HALT answers WUPA with ATQA. -/
  | emuWupa
  /-- `EMU_SELECT` (R362): Anti-collision and SELECT at levels 1 and 2 bring the tag to ACTIVE. -/
  | emuSelect (frame : List Byte) (lastBits : Nat)
  /-- `EMU_READ` (R366): READ returns a 16-byte block, BUSY or NAK; the first READ of a selection starts a counter 0 increment. -/
  | emuRead (block : Byte)
  /-- `READ_CTR` (R366): READ_CTR returns a counter value or NAK. -/
  | readCtr (index : Byte)
  /-- `EMU_HLTA` (R367): HLTA moves the tag from ACTIVE to HALT. -/
  | emuHlta
  /-- `EMU_ACC_BENCH` (R367): ACC_BENCH with ADDR 0 starts the tag's bench and stores the retention cell. -/
  | emuAccBench (dur : Byte)
  /-- `EMU_ACC_RELEASE` (R367): ACC_RELEASE with ADDR 0 is accepted silently. -/
  | emuAccRelease
  /-- `EMU_ACC_ENROL` (R367): ACC_ENROL is ignored by the emulated tag. -/
  | emuAccEnrol
  /-- `EMU_OTHER_FRAME` (R367): Any other frame is treated as ISO/IEC 14443-3 treats it. -/
  | emuOtherFrame (frame : List Byte) (lastBits : Nat)
  /-- `EMU_FIELD_LOSS_TIMEOUT` (R365): The field is absent for 2 ms and the tag returns to IDLE. -/
  | emuFieldLossTimeout
  /-- `EMU_BENCH_END` (R380): The bench time ends and the tag returns to IDLE. -/
  | emuBenchEnd
  /-- `EMU_DATA_WRITE` (R369): A host write to EMU.DATA takes effect at once or is held while the tag is ACTIVE. -/
  | emuDataWrite (index : Fin 256) (value : Word)
  /-- `EMU_BUSY` (R369): A held data write is discarded after 50 ms, and WR_FAIL is set. -/
  | emuBusy
  /-- `WIRE_LOCK_WRITE` (R370): A write of WIRE_LOCK takes a snapshot or publishes, and may start an automatic sync. -/
  | wireLockWrite (value : Word)
  /-- `SYNC` (R375): SYNC starts a sync of data and identity to the NV slot not in force. -/
  | sync
  /-- `EMU_SYNC_DONE` (R375): A sync completes, or fails with SYNC_FAIL. -/
  | emuSyncDone (ok : Bool)
  /-- `CTR_INC` (R377): CTR_INC requests an increment of counter 1–7. -/
  | ctrInc (value : Word)
  /-- `COUNTER_UPDATE` (R378): A counter increment writes and verifies backup then primary cells. -/
  | counterUpdate (ok : Bool)
  /-- `HARVEST_POWER_UP` (R373): VHARV exceeds 1.65 V; the island recovers its counters and starts the tag.
  `away` is how long the retention cell had been without supply, in units of time. -/
  | harvestPowerUp (away : Nat)
  /-- `HARVEST_POWER_LOSS` (R376): The field falls below 1.5 A/m and the island loses power, with the bench retained. -/
  | harvestPowerLoss
  /-- `VDD_AON_LOSS` (R376): VDD_AON fails during emulation and the island may take over the tag. -/
  | vddAonLoss
  /-- `GRANT_CHANGE` (R387): COEX_GRANT changes; a waiting burst starts, or a frame is cut or finished. -/
  | grantChange (high : Bool)
  /-- `GRANT_WAIT_EXPIRY` (R388): GRANT_WAIT passes without grant and the frame is deferred, or fails on the 8th deferral. -/
  | grantWaitExpiry (port : Port)
  /-- `RETRY_EXPIRY` (R389): RETRY_US after a deferral the retry is planned. -/
  | retryExpiry (port : Port)
  /-- `BLANK_CHANGE` (R393): BLANK0 or BLANK1 changes level and holds or releases modulation. -/
  | blankChange (second : Bool) (high : Bool)
  /-- `BLANK_TAIL_EXPIRY` (R393): BLANK_TAIL_US after the last blank deasserts, modulation may start. -/
  | blankTailExpiry (port : Port)
  /-- `COX_BLANK_STUCK` (R394): A blank held beyond BLANK_MAX_MS is ignored and Bb_STUCK is set. -/
  | coxBlankStuck (second : Bool)
  /-- `COX_REG_LOWER` (R426): An authenticated COX_REG_LOWER is checked and its NV write started. -/
  | coxRegLower
  /-- `REG_LOWER_NV_DONE` (R427): The lowering's NV write verifies and the stricter value takes effect. -/
  | regLowerNvDone (ok : Bool)
  /-- `FIELD_CEILING_FAULT` (R406): A drive above the locked ceiling persisting for FIELD_FILT is a code-1 fault. -/
  | fieldCeilingFault (port : Port) (seen : FieldSight)
  /-- `FIELD_OFF_FAULT` (R407): Drive, PA_VC or PA_EN active while commanded off, persisting for FIELD_FILT, is a code-2 fault. -/
  | fieldOffFault (port : Port) (seen : FieldSight)
  /-- `LANE_READBACK_FAULT` (R409): LANE_FB_n disagrees with GO_n for longer than FB_DELAY; code 3. -/
  | laneReadbackFault (lane : Lane) (fb : Bool) (genuine : Bool)
  /-- `CLK_MON_WINDOW` (R411): At the end of each 192-cycle window MON judges the CLK_CORE count; code 5. -/
  | clkMonWindow (count : Byte) (genuine : Bool)
  /-- `HEARTBEAT_TOGGLE` (R412): Every 250 µs CORE toggles the heartbeat to MON. -/
  | heartbeatToggle
  /-- `HEARTBEAT_TIMEOUT` (R412): 750 µs without a heartbeat toggle is a code-6 fault. -/
  | heartbeatTimeout (genuine : Bool)
  /-- `MON_CLK_WINDOW` (R412): At the end of each 10 µs window CORE judges the MON clock count; code 7. -/
  | monClkWindow (count : Byte) (genuine : Bool)
  /-- `OVERTEMP_FAULT` (R404): Tj above 140 °C is a code-9 fault. -/
  | overtempFault (genuine : Bool)
  /-- `STOP_N` (R417): STOP_N asserted and filtered forces the safe state, with CAUSE 6. -/
  | stopN (low : Bool)
  /-- `CORE_SEES_SAFE_STATE` (R415): CORE sees the fault, moves the phase to SAFE and writes SAF_TRIP or SAF_STOP. -/
  | coreSeesSafeState (rxs : List RxData)
  /-- `SAF_INJECT` (R421): A write of SAF.INJECT in TEST injects a fault into a detector, with or without trip. -/
  | safInject (value : Word)
  /-- `SAF_TEST_ENTER` (R421): The authenticated SAF_TEST_ENTER moves RUN to TEST. -/
  | safTestEnter
  /-- `RING_WRITE` (R442): An accepted record is written to a free or victim ring line and read back. -/
  | ringWrite (good : Bool)
  /-- `FREEZE_WRITE` (R444): A write of FREEZE holds ring writes, or releases the held records in SEQ order. -/
  | freezeWrite (value : Word)
  /-- `SIL_FREEZE_EXPIRED` (R445): FREEZE_MAX passes; FREEZE is cleared and EXPIRED set. -/
  | silFreezeExpired
  /-- `SIL_CLEAR` (R447): The authenticated SIL_CLEAR clears the ring, queue, drops and optionally the vault. -/
  | silClear
  /-- `CLEAR_PASS_DONE` (R447): The clearing pass ends and held records proceed. -/
  | clearPassDone
  /-- `RING_INIT_DONE` (R454): The ring is initialised after reset and READY is set. -/
  | ringInitDone
  /-- `SPILL_FLUSH_EXPIRY` (R452): SPILL_FLUSH after its first record, a staging page is handed to the store. -/
  | spillFlushExpiry
  /-- `RATE_WINDOW_END` (R622): A 1 s rate-limit window ends and posts held occurrences with their count. -/
  | rateWindowEnd (code : Nat) (scope : Nat)
  /-- `TIMER_TICK` (R467): A timer tick advances or wraps the count, matches compares and fires cross-triggers. -/
  | timerTick (timer : TimerId)
  /-- `CAPTURE` (R472): The capture source fires and the count is captured. -/
  | capture (timer : TimerId) (rising : Bool)
  /-- `CAPT_READ` (R472): A host read of Tk_CAPT returns the value and clears CAPT_NEW. -/
  | captRead (timer : TimerId)
  /-- `TIMER_GROUP` (R478): A write of TMR.GROUP starts or stops several timers in one cycle. -/
  | timerGroup (value : Word)
  /-- `WALL_SET` (R465): The authenticated WALL_SET sets the wall offset, KNOWN, invalidation and WALL_STEP. -/
  | wallSet
  /-- `SLOW_RATE_MEASUREMENT` (R461): Every 1,024 SLOW cycles with RATE_AUTO, RATE is remeasured. -/
  | slowRateMeasurement (cycles : Nat)
  /-- `EVQ_INTAKE_MOVE` (R490): An event passes from the intake into EVQ, displacing a lower entry if needed. -/
  | evqIntakeMove
  /-- `EVQ_POP0` (R491): A read of QUE.EVQ_POP0 pops the highest-priority entry and latches word 1. -/
  | evqPop0 (bad0 : Bool) (bad1 : Bool)
  /-- `EVQ_AGE_TICK` (R492): Every 100 µs, aged entries are promoted one priority. -/
  | evqAgeTick
  /-- `START` (R493): START latches a channel's parameters and loads its register. -/
  | start (chan : Chan)
  /-- `DATA8` (R495): DATA8 processes one byte. -/
  | data8 (chan : Chan) (value : Word)
  /-- `DATA16` (R495): DATA16 processes two bytes. -/
  | data16 (chan : Chan) (value : Word)
  /-- `DATA32` (R495): DATA32 processes four bytes. -/
  | data32 (chan : Chan) (value : Word)
  /-- `RANGE_GO` (R495): RANGE_GO starts processing a range of the SRAM window. -/
  | rangeGo (chan : Chan) (bad : Bool)
  /-- `CRC_RANGE_DONE` (R495): A range computation completes and BUSY clears. -/
  | crcRangeDone (chan : Chan)
  /-- `CFG_ROLLBACK` (R519): The authenticated CFG_ROLLBACK starts reading and checking the other slot. -/
  | cfgRollback
  /-- `ROLLBACK_CHECK_DONE` (R519): The other slot passes its check; a retire entry is written and the device restarts. -/
  | rollbackCheckDone (fate : RetireEnd)
  /-- `CFG_KEY_ROTATE` (R525): The authenticated CFG_KEY_ROTATE writes the new key copies and resets the counter. -/
  | cfgKeyRotate (backupOk : Bool) (primaryOk : Bool)
  /-- `AUTH_COUNTER_NV_DONE` (R524): The counter's NV write completes and the command acts, or the command fails with NV_FAIL. -/
  | authCounterNvDone (ok : Bool)
  /-- `BOOT_READ` (R520): BOOT_CMD READ copies 256 bytes from the boot memory. -/
  | bootRead
  /-- `BOOT_PROGRAM` (R520): BOOT_CMD PROGRAM writes and verifies a 256-byte page. -/
  | bootProgram
  /-- `BOOT_ERASE` (R520): BOOT_CMD ERASE erases a 4 KiB sector. -/
  | bootErase
  /-- `BOOT_OP_DONE` (R520): A boot access command ends with its result and sets DONE. -/
  | bootOpDone (us : Nat) (bad : Bool)
  /-- `TRACE_CTRL_WRITE` (R546): A write of TRC.TRACE_CTRL changes trace enables; EN becoming 1 sends SYNC. -/
  | traceCtrlWrite (value : Word)
  /-- `TRACE_SYNC_TIMER` (R546): Every SYNC_MS a SYNC packet is sent. -/
  | traceSyncTimer
  /-- `TRACE_LEVEL_TIMER` (R545): Every LEVEL × 10 µs, LEVEL packets are sent. -/
  | traceLevelTimer
  /-- `SNAP` (R550): SNAP copies all 128 counters. -/
  | snap
  /-- `RELEASE` (R550): RELEASE returns counter reads to live values. -/
  | release
  /-- `CLEAR` (R550): CLEAR zeroes every live counter. -/
  | clear
  /-- `CNT_LO_READ` (R550): A read of TRC.CNTi_LO latches the upper bits of the counter. -/
  | cntLoRead (index : Fin 128)
  /-- `CTX_LOW_READ` (R248): A read of CTX4 or CTX6 latches the upper word of the time. -/
  | ctxLowRead (sess : SessId) (last : Bool)
  /-- `SLEEP_REQUEST` (R569): REQ 1 in PWR.CMD makes a SLEEP request pending. -/
  | sleepRequest
  /-- `SNIFF_REQUEST` (R569): REQ 2 in PWR.CMD makes a SNIFF request pending. -/
  | sniffRequest
  /-- `CANCEL_REQUEST` (R569): REQ 3 in PWR.CMD cancels a pending request. -/
  | cancelRequest
  /-- `AUTO_IDLE_EXPIRY` (R569): With AUTO_EN, IDLE_MS of idle roles makes a SNIFF or SLEEP request pending. -/
  | autoIdleExpiry
  /-- `PWR_SLEEP` (R571): Once every condition holds, the device enters SLEEP or SNIFF and stops CLK_CORE. -/
  | pwrSleep
  /-- `HOST_WAKE` (R572): HCS_N low while asleep wakes the device into RECOVERY with CAUSE 3. -/
  | hostWake
  /-- `WAKE_TIMER_EXPIRY` (R572): The wake timer expires while asleep and wakes the device. -/
  | wakeTimerExpiry
  /-- `PWR_VDDTX_LOW` (R559): VDDTX_n falls below 2.90 V; the field goes off at once and the exchange ends as a duty cut. -/
  | pwrVddtxLow (port : Fin 4) (rx : RxData)
  /-- `VDDTX_RESTORED` (R559): VDDTX_n returns above the threshold and the port may leave STANDBY again. -/
  | vddtxRestored (port : Fin 4)
  /-- `SLOW_XTAL_SWITCH` (R566): The slow crystal runs 1,024 cycles within ±1 % and the SLOW clock changes over to it. -/
  | slowXtalSwitch
  /-- `PWR_SLOW_FAIL` (R566): The slow crystal stops or drifts; the clock returns to the RC and RATE_AUTO is set. -/
  | pwrSlowFail
  /-- `DUTY_CUT_DEADLINE` (R79): An exchange of a surplus port still in progress 64 µs before the end of bin k is cut and reported with DUTY_CUT. -/
  | dutyCutDeadline (port : Port) (rx : RxData)
  /-- `TRANSMIT_CHAIN_BIASED` (R71): With the synthesiser locked, the transmit chain finishes biasing 15–20 µs after leaving OFF, and the port enters STANDBY. -/
  | transmitChainBiased (port : Port)
  deriving DecidableEq, Repr

end Sys2Proof
end

