-- ==== Sys2Proof/Decode.lean ====
section
/-! DEFINITION. The command that a table word spells. No row of the opcode table gives bits to its command (the `fields` of every row
are empty): the spec gives the commands by name and by the host transactions, pins and times that carry them. -/

namespace Sys2Proof

/-- The command that the `nbits` bits `w` of a table word spell: none, since no row of the table has bits. -/
def decodeTableWord (_nbits _w : Nat) : Option Instr := none

end Sys2Proof
end

