-- ==== Sys2Proof/Config.lean ====
section
/-! DEFINITION. What the spec leaves open and the model leaves free: constants without a body, applied to the number of free values
taken so far (`State.free`). -/

namespace Sys2Proof.Config

/-- A 32-bit value that the spec does not state. -/
opaque freeWord : Nat → Word

/-- A choice between two outcomes that the spec does not make. -/
opaque freeBit : Nat → Bool

/-- A byte of the session contexts, frame buffers, queues or store cache as the SRAM window shows it (R27), whose layout there the spec does not
give: by its address, the time, the free values taken, and what a host write in TEST left there. -/
opaque heldByte : Nat → Nat → Nat → Byte → Byte

/-- The value of a received bit both halves of which have the same energy, by its index and that energy (R145). -/
opaque equalHalves : Nat → Nat → Bool

end Sys2Proof.Config
end

