-- ==== Sys2Proof/Machine/RegMap.lean ====
section
/-! DEFINITION. The register map: the address of every register the spec's register tables list (R25, R41-R43, R49, R99, R100,
R130, R131, R170, R171, R213, R214, R246, R249, R293, R294, R336, R361, R383, R401, R431, R432, R457, R478, R479, R500-R502,
R527, R553-R555, R581), the place of every field, and one row for each giving its reset value, its access codes (R10), the
values a write of the field accepts, and whether the block's profile governs it (R46, R47). -/

namespace Sys2Proof.Machine

/-- A bit field of a 32-bit register: its lowest bit and its width (R17, R14). -/
structure Field where
  lo : Nat
  width : Nat
  deriving DecidableEq, Repr

/-- The access codes of R10. -/
inductive Acc where
  | rw | ro | w1c | w1s | wo | rwL | rwA
  deriving DecidableEq, Repr

/-- One field of a register row: its place, its access code and the values a write of it accepts (a write of a value outside
`min`-`max` leaves the field as it is). -/
structure FieldRow where
  f : Field
  acc : Acc
  min : Nat := 0
  max : Nat := 0xFFFFFFFF
  deriving DecidableEq, Repr

/-- One register row: the host byte address of the first register, up to two index ranges (count and stride), the reset value of
R13, whether the profile governs its writable fields, and its fields. -/
structure RegRow where
  base : Nat
  n1 : Nat := 1
  s1 : Nat := 4
  n2 : Nat := 1
  s2 : Nat := 4
  reset : Nat := 0
  gov : Bool := false
  fields : List FieldRow
  deriving DecidableEq, Repr

/-! ### Register addresses (R7, R9, R25); a number of a port, a lane, a timer is taken modulo how many there are -/
namespace Reg

/-- `GEN.PHASE` (R41). -/
abbrev GEN_PHASE : Nat := 0x10
/-- `GEN.PHASE_CTRL` (R41). -/
abbrev GEN_PHASE_CTRL : Nat := 0x14
/-- `GEN.TEST_CTRL` (R42). -/
abbrev GEN_TEST_CTRL : Nat := 0x28
/-- `GEN.TEST_LANE` (R42). -/
abbrev GEN_TEST_LANE : Nat := 0x2C
/-- `PRO.Pn.PROFILE` (R43). -/
abbrev PRO_P_PROFILE (n : Nat) : Nat := 0x41000 + n % 16 * 0x400
/-- `PRO.Pn.EXPERT` (R43). -/
abbrev PRO_P_EXPERT (n : Nat) : Nat := 0x41004 + n % 16 * 0x400
/-- `PRO.Pn.ROLE` (R49). -/
abbrev PRO_P_ROLE (n : Nat) : Nat := 0x41008 + n % 16 * 0x400
/-- `PRO.Pn.MODE_STATUS` (R49). -/
abbrev PRO_P_MODE_STATUS (n : Nat) : Nat := 0x4100C + n % 16 * 0x400
/-- `FLD.LOCK` (R99). -/
abbrev FLD_LOCK : Nat := 0x20004
/-- `FLD.PROFILE` (R99). -/
abbrev FLD_PROFILE : Nat := 0x20008
/-- `FLD.EXPERT` (R99). -/
abbrev FLD_EXPERT : Nat := 0x2000C
/-- `FLD.FC_TRIM` (R99). -/
abbrev FLD_FC_TRIM : Nat := 0x20010
/-- `FLD.SYN_STATUS` (R99). -/
abbrev FLD_SYN_STATUS : Nat := 0x20014
/-- `FLD.RAMP` (R99). -/
abbrev FLD_RAMP : Nat := 0x20020
/-- `FLD.GUARD` (R99). -/
abbrev FLD_GUARD : Nat := 0x20024
/-- `FLD.KEEPOUT` (R99). -/
abbrev FLD_KEEPOUT : Nat := 0x20028
/-- `FLD.DUTY` (R99). -/
abbrev FLD_DUTY : Nat := 0x2002C
/-- `FLD.DUTY_STATUS` (R99). -/
abbrev FLD_DUTY_STATUS : Nat := 0x20030
/-- `FLD.WARMUP` (R99). -/
abbrev FLD_WARMUP : Nat := 0x20040
/-- `FLD.WARMUP_STATUS` (R99). -/
abbrev FLD_WARMUP_STATUS : Nat := 0x20044
/-- `FLD.HUDDLEh_STATUS` (R99). -/
abbrev FLD_HUDDLE_STATUS (n : Nat) : Nat := 0x20050 + n % 4 * 0x4
/-- `FLD.COUPLE_i_j` (R99). -/
abbrev FLD_COUPLE (n : Nat) : Nat := 0x20800 + n % 256 * 0x4
/-- `FLD.Pn.PROFILE` (R100). -/
abbrev FLD_P_PROFILE (n : Nat) : Nat := 0x21000 + n % 16 * 0x400
/-- `FLD.Pn.EXPERT` (R100). -/
abbrev FLD_P_EXPERT (n : Nat) : Nat := 0x21004 + n % 16 * 0x400
/-- `FLD.Pn.CTRL` (R100). -/
abbrev FLD_P_CTRL (n : Nat) : Nat := 0x21008 + n % 16 * 0x400
/-- `FLD.Pn.STATE` (R100). -/
abbrev FLD_P_STATE (n : Nat) : Nat := 0x2100C + n % 16 * 0x400
/-- `FLD.Pn.PHASE` (R100). -/
abbrev FLD_P_PHASE (n : Nat) : Nat := 0x21010 + n % 16 * 0x400
/-- `FLD.Pn.AMPL` (R100). -/
abbrev FLD_P_AMPL (n : Nat) : Nat := 0x21014 + n % 16 * 0x400
/-- `FLD.Pn.HUDDLE` (R100). -/
abbrev FLD_P_HUDDLE (n : Nat) : Nat := 0x21018 + n % 16 * 0x400
/-- `FLD.Pn.NEIGH` (R100). -/
abbrev FLD_P_NEIGH (n : Nat) : Nat := 0x2101C + n % 16 * 0x400
/-- `FLD.Pn.NEIGH_FORCE` (R100). -/
abbrev FLD_P_NEIGH_FORCE (n : Nat) : Nat := 0x21020 + n % 16 * 0x400
/-- `FLD.Pn.RELAY` (R100). -/
abbrev FLD_P_RELAY (n : Nat) : Nat := 0x21024 + n % 16 * 0x400
/-- `FLD.Pn.COMP` (R100). -/
abbrev FLD_P_COMP (n : Nat) : Nat := 0x21028 + n % 16 * 0x400
/-- `TUN.LOCK` (R130). -/
abbrev TUN_LOCK : Nat := 0x110004
/-- `TUN.PROFILE` (R130). -/
abbrev TUN_PROFILE : Nat := 0x110008
/-- `TUN.EXPERT` (R130). -/
abbrev TUN_EXPERT : Nat := 0x11000C
/-- `TUN.LINK` (R130). -/
abbrev TUN_LINK : Nat := 0x110010
/-- `TUN.LINK_STATUS` (R130). -/
abbrev TUN_LINK_STATUS : Nat := 0x110014
/-- `TUN.TPLt_CTRL` (R130). -/
abbrev TUN_TPL_CTRL (n : Nat) : Nat := 0x110020 + n % 4 * 0x10
/-- `TUN.TPLt_FMT` (R130). -/
abbrev TUN_TPL_FMT (n : Nat) : Nat := 0x110024 + n % 4 * 0x10
/-- `TUN.TPLt_CONST` (R130). -/
abbrev TUN_TPL_CONST (n : Nat) : Nat := 0x110028 + n % 4 * 0x10
/-- `TUN.TPLt_CONST_RD` (R130). -/
abbrev TUN_TPL_CONST_RD (n : Nat) : Nat := 0x11002C + n % 4 * 0x10
/-- `TUN.SNIFF` (R130). -/
abbrev TUN_SNIFF : Nat := 0x110060
/-- `TUN.SNIFF_STATUS` (R130). -/
abbrev TUN_SNIFF_STATUS : Nat := 0x110064
/-- `TUN.MISMATCH_STATUS` (R130). -/
abbrev TUN_MISMATCH_STATUS : Nat := 0x110068
/-- `TUN.Pn.PROFILE` (R131). -/
abbrev TUN_P_PROFILE (n : Nat) : Nat := 0x111000 + n % 16 * 0x400
/-- `TUN.Pn.EXPERT` (R131). -/
abbrev TUN_P_EXPERT (n : Nat) : Nat := 0x111004 + n % 16 * 0x400
/-- `TUN.Pn.TUNER` (R131). -/
abbrev TUN_P_TUNER (n : Nat) : Nat := 0x111008 + n % 16 * 0x400
/-- `TUN.Pn.CODE` (R131). -/
abbrev TUN_P_CODE (n : Nat) : Nat := 0x11100C + n % 16 * 0x400
/-- `TUN.Pn.CMD` (R131). -/
abbrev TUN_P_CMD (n : Nat) : Nat := 0x111010 + n % 16 * 0x400
/-- `TUN.Pn.VEC` (R131). -/
abbrev TUN_P_VEC (n : Nat) : Nat := 0x111014 + n % 16 * 0x400
/-- `TUN.Pn.REF` (R131). -/
abbrev TUN_P_REF (n : Nat) : Nat := 0x111018 + n % 16 * 0x400
/-- `TUN.Pn.MISMATCH` (R131). -/
abbrev TUN_P_MISMATCH (n : Nat) : Nat := 0x11101C + n % 16 * 0x400
/-- `TUN.Pn.SEARCH` (R131). -/
abbrev TUN_P_SEARCH (n : Nat) : Nat := 0x111020 + n % 16 * 0x400
/-- `TUN.Pn.STATUS` (R131). -/
abbrev TUN_P_STATUS (n : Nat) : Nat := 0x111024 + n % 16 * 0x400
/-- `TUN.Pn.SNIFF` (R131). -/
abbrev TUN_P_SNIFF (n : Nat) : Nat := 0x111028 + n % 16 * 0x400
/-- `TUN.Pn.SNIFF_THR` (R131). -/
abbrev TUN_P_SNIFF_THR (n : Nat) : Nat := 0x11102C + n % 16 * 0x400
/-- `TUN.Pn.SNIFF_BASE` (R131). -/
abbrev TUN_P_SNIFF_BASE (n : Nat) : Nat := 0x111030 + n % 16 * 0x400
/-- `TUN.Pn.SNIFF_LAST` (R131). -/
abbrev TUN_P_SNIFF_LAST (n : Nat) : Nat := 0x111034 + n % 16 * 0x400
/-- `RXE.LOCK` (R170). -/
abbrev RXE_LOCK : Nat := 0x30004
/-- `RXE.PROFILE` (R170). -/
abbrev RXE_PROFILE : Nat := 0x30008
/-- `RXE.EXPERT` (R170). -/
abbrev RXE_EXPERT : Nat := 0x3000C
/-- `RXE.STATUS` (R170). -/
abbrev RXE_STATUS : Nat := 0x30010
/-- `RXE.Pn.PROFILE` (R171). -/
abbrev RXE_P_PROFILE (n : Nat) : Nat := 0x31000 + n % 16 * 0x400
/-- `RXE.Pn.EXPERT` (R171). -/
abbrev RXE_P_EXPERT (n : Nat) : Nat := 0x31004 + n % 16 * 0x400
/-- `RXE.Pn.CTRL` (R171). -/
abbrev RXE_P_CTRL (n : Nat) : Nat := 0x31008 + n % 16 * 0x400
/-- `RXE.Pn.FRONT` (R171). -/
abbrev RXE_P_FRONT (n : Nat) : Nat := 0x3100C + n % 16 * 0x400
/-- `RXE.Pn.CANCEL` (R171). -/
abbrev RXE_P_CANCEL (n : Nat) : Nat := 0x31010 + n % 16 * 0x400
/-- `RXE.Pn.CANCEL_STATUS` (R171). -/
abbrev RXE_P_CANCEL_STATUS (n : Nat) : Nat := 0x31014 + n % 16 * 0x400
/-- `RXE.Pn.NOISE` (R171). -/
abbrev RXE_P_NOISE (n : Nat) : Nat := 0x31018 + n % 16 * 0x400
/-- `RXE.Pn.NOISE_EXT` (R171). -/
abbrev RXE_P_NOISE_EXT (n : Nat) : Nat := 0x3101C + n % 16 * 0x400
/-- `RXE.Pn.STATE` (R171). -/
abbrev RXE_P_STATE (n : Nat) : Nat := 0x31020 + n % 16 * 0x400
/-- `RXE.Pn.COUNTS` (R171). -/
abbrev RXE_P_COUNTS (n : Nat) : Nat := 0x31024 + n % 16 * 0x400
/-- `RXE.Pn.CMD` (R171). -/
abbrev RXE_P_CMD (n : Nat) : Nat := 0x31028 + n % 16 * 0x400
/-- `RXE.Pn.LAST0` (R171). -/
abbrev RXE_P_LAST0 (n : Nat) : Nat := 0x3102C + n % 16 * 0x400
/-- `RXE.Pn.LAST1` (R171). -/
abbrev RXE_P_LAST1 (n : Nat) : Nat := 0x31030 + n % 16 * 0x400
/-- `RXE.Pn.LAST2` (R171). -/
abbrev RXE_P_LAST2 (n : Nat) : Nat := 0x31034 + n % 16 * 0x400
/-- `RXE.Pn.AFC` (R171). -/
abbrev RXE_P_AFC (n : Nat) : Nat := 0x31038 + n % 16 * 0x400
/-- `PRO.LOCK` (R213). -/
abbrev PRO_LOCK : Nat := 0x40004
/-- `PRO.PROFILE` (R213). -/
abbrev PRO_PROFILE : Nat := 0x40008
/-- `PRO.EXPERT` (R213). -/
abbrev PRO_EXPERT : Nat := 0x4000C
/-- `PRO.FRAMING` (R213). -/
abbrev PRO_FRAMING : Nat := 0x40010
/-- `PRO.ACTIVE` (R213). -/
abbrev PRO_ACTIVE : Nat := 0x40014
/-- `PRO.TECHt_RMIN` (R213). -/
abbrev PRO_TECH_RMIN (t : Nat) : Nat := 0x40100 + t % 8 * 0x10
/-- `PRO.TECHt_TMIN` (R213). -/
abbrev PRO_TECH_TMIN (t : Nat) : Nat := 0x40104 + t % 8 * 0x10
/-- `PRO.TECHt_WDEF` (R213). -/
abbrev PRO_TECH_WDEF (t : Nat) : Nat := 0x40108 + t % 8 * 0x10
/-- `PRO.Pn.HOSTQ` (R214). -/
abbrev PRO_P_HOSTQ (n : Nat) : Nat := 0x41010 + n % 16 * 0x400
/-- `PRO.Pn.CMD` (R214). -/
abbrev PRO_P_CMD (n : Nat) : Nat := 0x41014 + n % 16 * 0x400
/-- `PRO.Pn.STATUS` (R214). -/
abbrev PRO_P_STATUS (n : Nat) : Nat := 0x41018 + n % 16 * 0x400
/-- `PRO.Pn.COUNTS` (R214). -/
abbrev PRO_P_COUNTS (n : Nat) : Nat := 0x4101C + n % 16 * 0x400
/-- `PRO.Pn.LAST_PRS` (R214). -/
abbrev PRO_P_LAST_PRS (n : Nat) : Nat := 0x41020 + n % 16 * 0x400
/-- `PRO.SESSION` (R246). -/
abbrev PRO_SESSION : Nat := 0x40020
/-- `PRO.SESS_STATUS` (R246). -/
abbrev PRO_SESS_STATUS : Nat := 0x40024
/-- `PRO.SESS_CMD` (R246). -/
abbrev PRO_SESS_CMD : Nat := 0x40028
/-- `PRO.SESS_COUNTS` (R246). -/
abbrev PRO_SESS_COUNTS : Nat := 0x4002C
/-- `PRO.SESS_MAPw` (R246). -/
abbrev PRO_SESS_MAP (n : Nat) : Nat := 0x40030 + n % 5 * 0x4
/-- `PRO.POLLl_e` (R246). -/
abbrev PRO_POLLLIST (n k : Nat) : Nat := 0x40200 + n % 16 * 0x40 + k % 16 * 0x4
/-- `PRO.Ss.CTXk` (R246). -/
abbrev PRO_CTX (n k : Nat) : Nat := 0x48000 + n % 160 * 0x20 + k % 8 * 0x4
/-- `PRO.Pn.POLL` (R249). -/
abbrev PRO_P_POLL (n : Nat) : Nat := 0x41024 + n % 16 * 0x400
/-- `PRO.Pn.POLL_STATUS` (R249). -/
abbrev PRO_P_POLL_STATUS (n : Nat) : Nat := 0x41028 + n % 16 * 0x400
/-- `ACD.LOCK` (R293). -/
abbrev ACD_LOCK : Nat := 0x50004
/-- `ACD.PROFILE` (R293). -/
abbrev ACD_PROFILE : Nat := 0x50008
/-- `ACD.EXPERT` (R293). -/
abbrev ACD_EXPERT : Nat := 0x5000C
/-- `ACD.CTRL` (R293). -/
abbrev ACD_CTRL : Nat := 0x50010
/-- `ACD.STATUS` (R293). -/
abbrev ACD_STATUS : Nat := 0x50014
/-- `ACD.COUNTS` (R293). -/
abbrev ACD_COUNTS : Nat := 0x50018
/-- `ACD.Pn.PROFILE` (R294). -/
abbrev ACD_P_PROFILE (n : Nat) : Nat := 0x51000 + n % 16 * 0x400
/-- `ACD.Pn.EXPERT` (R294). -/
abbrev ACD_P_EXPERT (n : Nat) : Nat := 0x51004 + n % 16 * 0x400
/-- `ACD.Pn.SIC` (R294). -/
abbrev ACD_P_SIC (n : Nat) : Nat := 0x51008 + n % 16 * 0x400
/-- `ACD.Pn.ENROL` (R294). -/
abbrev ACD_P_ENROL (n : Nat) : Nat := 0x5100C + n % 16 * 0x400
/-- `ACD.Pn.LAST_POLL` (R294). -/
abbrev ACD_P_LAST_POLL (n : Nat) : Nat := 0x51010 + n % 16 * 0x400
/-- `ACD.Pn.NOISE4` (R294). -/
abbrev ACD_P_NOISE4 (n : Nat) : Nat := 0x51014 + n % 16 * 0x400
/-- `ACD.Pn.USEw` (R294). -/
abbrev ACD_P_USE (n k : Nat) : Nat := 0x51020 + n % 16 * 0x400 + k % 4 * 0x4
/-- `ACD.Pn.HOLDw` (R294). -/
abbrev ACD_P_HOLD (n k : Nat) : Nat := 0x51030 + n % 16 * 0x400 + k % 4 * 0x4
/-- `ACD.Pn.CHc_STAT0` (R294). -/
abbrev ACD_P_CH_STAT0 (n k : Nat) : Nat := 0x51040 + n % 16 * 0x400 + k % 8 * 0x8
/-- `ACD.Pn.CHc_STAT1` (R294). -/
abbrev ACD_P_CH_STAT1 (n k : Nat) : Nat := 0x51044 + n % 16 * 0x400 + k % 8 * 0x8
/-- `KPR.LOCK` (R336). -/
abbrev KPR_LOCK : Nat := 0x60004
/-- `KPR.PROFILE` (R336). -/
abbrev KPR_PROFILE : Nat := 0x60008
/-- `KPR.EXPERT` (R336). -/
abbrev KPR_EXPERT : Nat := 0x6000C
/-- `KPR.CTRL` (R336). -/
abbrev KPR_CTRL : Nat := 0x60010
/-- `KPR.TIMES` (R336). -/
abbrev KPR_TIMES : Nat := 0x60014
/-- `KPR.STATUS` (R336). -/
abbrev KPR_STATUS : Nat := 0x60018
/-- `KPR.OLD_INFLIGHT` (R336). -/
abbrev KPR_OLD_INFLIGHT : Nat := 0x6001C
/-- `KPR.BANKb_VER` (R336). -/
abbrev KPR_BANK_VER (n : Nat) : Nat := 0x60020 + n % 2 * 0x10
/-- `KPR.BANKb_PAGES` (R336). -/
abbrev KPR_BANK_PAGES (n : Nat) : Nat := 0x60024 + n % 2 * 0x10
/-- `KPR.BANKb_TOTAL` (R336). -/
abbrev KPR_BANK_TOTAL (n : Nat) : Nat := 0x60028 + n % 2 * 0x10
/-- `KPR.BANKb_ENTRIES` (R336). -/
abbrev KPR_BANK_ENTRIES (n : Nat) : Nat := 0x6002C + n % 2 * 0x10
/-- `KPR.LAST_DECISION` (R336). -/
abbrev KPR_LAST_DECISION : Nat := 0x60040
/-- `KPR.COUNTS` (R336). -/
abbrev KPR_COUNTS : Nat := 0x60044
/-- `KPR.PORT_MAPw` (R336). -/
abbrev KPR_PORT_MAP (n : Nat) : Nat := 0x60050 + n % 2 * 0x4
/-- `KPR.CLASS_REFERw` (R336). -/
abbrev KPR_CLASS_REFER (n : Nat) : Nat := 0x60060 + n % 8 * 0x4
/-- `KPR.Ll_CFG` (R336). -/
abbrev KPR_L_CFG (n : Nat) : Nat := 0x60100 + n % 16 * 0x10
/-- `KPR.Ll_WIDTH` (R336). -/
abbrev KPR_L_WIDTH (n : Nat) : Nat := 0x60104 + n % 16 * 0x10
/-- `KPR.Ll_STATUS` (R336). -/
abbrev KPR_L_STATUS (n : Nat) : Nat := 0x60108 + n % 16 * 0x10
/-- `STO.LOCK` (R361). -/
abbrev STO_LOCK : Nat := 0x70004
/-- `STO.PROFILE` (R361). -/
abbrev STO_PROFILE : Nat := 0x70008
/-- `STO.EXPERT` (R361). -/
abbrev STO_EXPERT : Nat := 0x7000C
/-- `STO.GEOM` (R361). -/
abbrev STO_GEOM : Nat := 0x70010
/-- `STO.CLOCK` (R361). -/
abbrev STO_CLOCK : Nat := 0x70014
/-- `STO.OPS0` (R361). -/
abbrev STO_OPS0 : Nat := 0x70018
/-- `STO.OPS1` (R361). -/
abbrev STO_OPS1 : Nat := 0x7001C
/-- `STO.OPS2` (R361). -/
abbrev STO_OPS2 : Nat := 0x70020
/-- `STO.ECC` (R361). -/
abbrev STO_ECC : Nat := 0x70024
/-- `STO.STATUS` (R361). -/
abbrev STO_STATUS : Nat := 0x70030
/-- `STO.PAGESr` (R361). -/
abbrev STO_PAGES (n : Nat) : Nat := 0x70034 + n % 3 * 0x4
/-- `STO.HCMD` (R361). -/
abbrev STO_HCMD : Nat := 0x70040
/-- `STO.HCOL` (R361). -/
abbrev STO_HCOL : Nat := 0x70044
/-- `STO.HSTATUS` (R361). -/
abbrev STO_HSTATUS : Nat := 0x70048
/-- `STO.SPILL` (R361). -/
abbrev STO_SPILL : Nat := 0x70050
/-- `STO.SPILL_SEQ` (R361). -/
abbrev STO_SPILL_SEQ : Nat := 0x70054
/-- `STO.COUNTS` (R361). -/
abbrev STO_COUNTS : Nat := 0x70058
/-- `STO.GROWN` (R361). -/
abbrev STO_GROWN : Nat := 0x7005C
/-- `STO.BUF0` (R361). -/
abbrev STO_BUF0 (n : Nat) : Nat := 0x71000 + n % 1024 * 0x4
/-- `STO.BUF1` (R361). -/
abbrev STO_BUF1 (n : Nat) : Nat := 0x72000 + n % 1024 * 0x4
/-- `EMU.LOCK` (R383). -/
abbrev EMU_LOCK : Nat := 0xF0004
/-- `EMU.PROFILE` (R383). -/
abbrev EMU_PROFILE : Nat := 0xF0008
/-- `EMU.EXPERT` (R383). -/
abbrev EMU_EXPERT : Nat := 0xF000C
/-- `EMU.CTRL` (R383). -/
abbrev EMU_CTRL : Nat := 0xF0010
/-- `EMU.UID_LO` (R383). -/
abbrev EMU_UID_LO : Nat := 0xF0014
/-- `EMU.UID_HI` (R383). -/
abbrev EMU_UID_HI : Nat := 0xF0018
/-- `EMU.STATUS` (R383). -/
abbrev EMU_STATUS : Nat := 0xF001C
/-- `EMU.WIRE` (R383). -/
abbrev EMU_WIRE : Nat := 0xF0020
/-- `EMU.CMD` (R383). -/
abbrev EMU_CMD : Nat := 0xF0024
/-- `EMU.FIELD_DET` (R383). -/
abbrev EMU_FIELD_DET : Nat := 0xF0028
/-- `EMU.CTRc` (R383). -/
abbrev EMU_CTR (n : Nat) : Nat := 0xF0040 + n % 8 * 0x4
/-- `EMU.CTR_STATUS` (R383). -/
abbrev EMU_CTR_STATUS : Nat := 0xF0060
/-- `EMU.COUNTS` (R383). -/
abbrev EMU_COUNTS : Nat := 0xF0064
/-- `EMU.DATA` (R383). -/
abbrev EMU_DATA (n : Nat) : Nat := 0xF2000 + n % 256 * 0x4
/-- `COX.LOCK` (R401). -/
abbrev COX_LOCK : Nat := 0xC0004
/-- `COX.PROFILE` (R401). -/
abbrev COX_PROFILE : Nat := 0xC0008
/-- `COX.EXPERT` (R401). -/
abbrev COX_EXPERT : Nat := 0xC000C
/-- `COX.CTRL` (R401). -/
abbrev COX_CTRL : Nat := 0xC0010
/-- `COX.TIMING` (R401). -/
abbrev COX_TIMING : Nat := 0xC0014
/-- `COX.TIMING2` (R401). -/
abbrev COX_TIMING2 : Nat := 0xC0018
/-- `COX.PORT_CFG` (R401). -/
abbrev COX_PORT_CFG : Nat := 0xC001C
/-- `COX.PRIO` (R401). -/
abbrev COX_PRIO : Nat := 0xC0020
/-- `COX.STATUS` (R401). -/
abbrev COX_STATUS : Nat := 0xC0024
/-- `COX.COUNTS` (R401). -/
abbrev COX_COUNTS : Nat := 0xC0028
/-- `SAF.LOCK` (R431). -/
abbrev SAF_LOCK : Nat := 0xD0004
/-- `SAF.PROFILE` (R431). -/
abbrev SAF_PROFILE : Nat := 0xD0008
/-- `SAF.EXPERT` (R431). -/
abbrev SAF_EXPERT : Nat := 0xD000C
/-- `SAF.STATUS` (R431). -/
abbrev SAF_STATUS : Nat := 0xD0010
/-- `SAF.CFG` (R431). -/
abbrev SAF_CFG : Nat := 0xD0014
/-- `SAF.FAULT` (R431). -/
abbrev SAF_FAULT : Nat := 0xD0018
/-- `SAF.FAULT_WHERE` (R431). -/
abbrev SAF_FAULT_WHERE : Nat := 0xD001C
/-- `SAF.FIRST` (R431). -/
abbrev SAF_FIRST : Nat := 0xD0020
/-- `SAF.PREV` (R431). -/
abbrev SAF_PREV : Nat := 0xD0024
/-- `SAF.ALERT_SAFE` (R431). -/
abbrev SAF_ALERT_SAFE : Nat := 0xD0028
/-- `SAF.INJECT` (R431). -/
abbrev SAF_INJECT : Nat := 0xD002C
/-- `SAF.INJ_STATUS` (R431). -/
abbrev SAF_INJ_STATUS : Nat := 0xD0030
/-- `SAF.CLKMON` (R431). -/
abbrev SAF_CLKMON : Nat := 0xD0034
/-- `SAF.NDF` (R431). -/
abbrev SAF_NDF : Nat := 0xD0038
/-- `COX.REG_STATUS` (R432). -/
abbrev COX_REG_STATUS : Nat := 0xC0040
/-- `COX.REG_GLOBAL` (R432). -/
abbrev COX_REG_GLOBAL : Nat := 0xC0044
/-- `COX.REG_TRIM` (R432). -/
abbrev COX_REG_TRIM : Nat := 0xC0048
/-- `COX.REG_CEILn` (R432). -/
abbrev COX_REG_CEIL (n : Nat) : Nat := 0xC0080 + n % 16 * 0x4
/-- `SIL.LOCK` (R457). -/
abbrev SIL_LOCK : Nat := 0x80004
/-- `SIL.PROFILE` (R457). -/
abbrev SIL_PROFILE : Nat := 0x80008
/-- `SIL.EXPERT` (R457). -/
abbrev SIL_EXPERT : Nat := 0x8000C
/-- `SIL.CTRL` (R457). -/
abbrev SIL_CTRL : Nat := 0x80010
/-- `SIL.FREEZE` (R457). -/
abbrev SIL_FREEZE : Nat := 0x80014
/-- `SIL.STATUS` (R457). -/
abbrev SIL_STATUS : Nat := 0x80018
/-- `SIL.SEQ` (R457). -/
abbrev SIL_SEQ : Nat := 0x8001C
/-- `SIL.NOTES` (R457). -/
abbrev SIL_NOTES : Nat := 0x80020
/-- `SIL.DROPS` (R457). -/
abbrev SIL_DROPS : Nat := 0x80024
/-- `SIL.HOLD_DROPS` (R457). -/
abbrev SIL_HOLD_DROPS : Nat := 0x80028
/-- `SIL.RETIRE` (R457). -/
abbrev SIL_RETIRE : Nat := 0x8002C
/-- `SIL.SPILL_STATUS` (R457). -/
abbrev SIL_SPILL_STATUS : Nat := 0x80030
/-- `SIL.VAULT_STATUS` (R457). -/
abbrev SIL_VAULT_STATUS : Nat := 0x80034
/-- `SIL.VAULTv_w` (R457). -/
abbrev SIL_VAULT (n k : Nat) : Nat := 0x81000 + n % 8 * 0x40 + k % 16 * 0x4
/-- `SIL.TRGt_MATCH` (R457). -/
abbrev SIL_TRG_MATCH (n : Nat) : Nat := 0x82000 + n % 64 * 0x40
/-- `SIL.TRGt_CTRL` (R457). -/
abbrev SIL_TRG_CTRL (n : Nat) : Nat := 0x82004 + n % 64 * 0x40
/-- `SIL.TRGt_ADDRk` (R457). -/
abbrev SIL_TRG_ADDR (n k : Nat) : Nat := 0x82010 + n % 64 * 0x40 + k % 8 * 0x4
/-- `TMR.LOCK` (R478). -/
abbrev TMR_LOCK : Nat := 0x90004
/-- `TMR.PROFILE` (R478). -/
abbrev TMR_PROFILE : Nat := 0x90008
/-- `TMR.EXPERT` (R478). -/
abbrev TMR_EXPERT : Nat := 0x9000C
/-- `TMR.DT_LO` (R478). -/
abbrev TMR_DT_LO : Nat := 0x90010
/-- `TMR.DT_HI` (R478). -/
abbrev TMR_DT_HI : Nat := 0x90014
/-- `TMR.WT_LO` (R478). -/
abbrev TMR_WT_LO : Nat := 0x90018
/-- `TMR.WT_HI` (R478). -/
abbrev TMR_WT_HI : Nat := 0x9001C
/-- `TMR.WT_OFS_LO` (R478). -/
abbrev TMR_WT_OFS_LO : Nat := 0x90020
/-- `TMR.WT_OFS_HI` (R478). -/
abbrev TMR_WT_OFS_HI : Nat := 0x90024
/-- `TMR.WALL_STATUS` (R478). -/
abbrev TMR_WALL_STATUS : Nat := 0x90028
/-- `TMR.SLOW_RATE` (R478). -/
abbrev TMR_SLOW_RATE : Nat := 0x9002C
/-- `TMR.SLEEP_LAST` (R478). -/
abbrev TMR_SLEEP_LAST : Nat := 0x90030
/-- `TMR.DT_FRAC` (R478). -/
abbrev TMR_DT_FRAC : Nat := 0x90034
/-- `TMR.GROUP` (R478). -/
abbrev TMR_GROUP : Nat := 0x90038
/-- `TMR.TRIG_STATUS` (R478). -/
abbrev TMR_TRIG_STATUS : Nat := 0x9003C
/-- `TMR.Tk_CTRL` (R479). -/
abbrev TMR_T_CTRL (n : Nat) : Nat := 0x90100 + n % 8 * 0x40
/-- `TMR.Tk_COUNT` (R479). -/
abbrev TMR_T_COUNT (n : Nat) : Nat := 0x90104 + n % 8 * 0x40
/-- `TMR.Tk_RELOAD` (R479). -/
abbrev TMR_T_RELOAD (n : Nat) : Nat := 0x90108 + n % 8 * 0x40
/-- `TMR.Tk_CMP0` (R479). -/
abbrev TMR_T_CMP0 (n : Nat) : Nat := 0x9010C + n % 8 * 0x40
/-- `TMR.Tk_INT0` (R479). -/
abbrev TMR_T_INT0 (n : Nat) : Nat := 0x90110 + n % 8 * 0x40
/-- `TMR.Tk_CMP1` (R479). -/
abbrev TMR_T_CMP1 (n : Nat) : Nat := 0x90114 + n % 8 * 0x40
/-- `TMR.Tk_INT1` (R479). -/
abbrev TMR_T_INT1 (n : Nat) : Nat := 0x90118 + n % 8 * 0x40
/-- `TMR.Tk_CAPT` (R479). -/
abbrev TMR_T_CAPT (n : Nat) : Nat := 0x9011C + n % 8 * 0x40
/-- `TMR.Tk_STATUS` (R479). -/
abbrev TMR_T_STATUS (n : Nat) : Nat := 0x90120 + n % 8 * 0x40
/-- `TMR.Tk_XTRIG` (R479). -/
abbrev TMR_T_XTRIG (n : Nat) : Nat := 0x90124 + n % 8 * 0x40
/-- `TMR.Tk_XSTO` (R479). -/
abbrev TMR_T_XSTO (n : Nat) : Nat := 0x90128 + n % 8 * 0x40
/-- `QUE.LOCK` (R500). -/
abbrev QUE_LOCK : Nat := 0xA0004
/-- `QUE.PROFILE` (R500). -/
abbrev QUE_PROFILE : Nat := 0xA0008
/-- `QUE.EXPERT` (R500). -/
abbrev QUE_EXPERT : Nat := 0xA000C
/-- `QUE.EVQ_CTRL` (R500). -/
abbrev QUE_EVQ_CTRL : Nat := 0xA0010
/-- `QUE.EVQ_MAP` (R500). -/
abbrev QUE_EVQ_MAP : Nat := 0xA0014
/-- `QUE.EVQ_STATUS` (R500). -/
abbrev QUE_EVQ_STATUS : Nat := 0xA0018
/-- `QUE.EVQ_WM` (R500). -/
abbrev QUE_EVQ_WM : Nat := 0xA001C
/-- `QUE.EVQ_LEVEL01` (R500). -/
abbrev QUE_EVQ_LEVEL01 : Nat := 0xA0020
/-- `QUE.EVQ_LEVEL23` (R500). -/
abbrev QUE_EVQ_LEVEL23 : Nat := 0xA0024
/-- `QUE.EVQ_LOST` (R500). -/
abbrev QUE_EVQ_LOST : Nat := 0xA0028
/-- `QUE.EVQ_PROMOTED` (R500). -/
abbrev QUE_EVQ_PROMOTED : Nat := 0xA002C
/-- `QUE.EVQ_POP0` (R500). -/
abbrev QUE_EVQ_POP0 : Nat := 0xA0030
/-- `QUE.EVQ_POP1` (R500). -/
abbrev QUE_EVQ_POP1 : Nat := 0xA0034
/-- `QUE.EVQ_TAG` (R500). -/
abbrev QUE_EVQ_TAG : Nat := 0xA0038
/-- `QUE.POISONS` (R500). -/
abbrev QUE_POISONS : Nat := 0xA003C
/-- `QUE.Pn.TX_PUSH` (R501). -/
abbrev QUE_P_TX_PUSH (n : Nat) : Nat := 0xA1000 + n % 16 * 0x400
/-- `QUE.Pn.RX_POP` (R501). -/
abbrev QUE_P_RX_POP (n : Nat) : Nat := 0xA1004 + n % 16 * 0x400
/-- `QUE.Pn.RX_TAG` (R501). -/
abbrev QUE_P_RX_TAG (n : Nat) : Nat := 0xA1008 + n % 16 * 0x400
/-- `QUE.Pn.LEVEL` (R501). -/
abbrev QUE_P_LEVEL (n : Nat) : Nat := 0xA100C + n % 16 * 0x400
/-- `QUE.Pn.TX_WM` (R501). -/
abbrev QUE_P_TX_WM (n : Nat) : Nat := 0xA1010 + n % 16 * 0x400
/-- `QUE.Pn.RX_WM` (R501). -/
abbrev QUE_P_RX_WM (n : Nat) : Nat := 0xA1014 + n % 16 * 0x400
/-- `QUE.Pn.WM_STATUS` (R501). -/
abbrev QUE_P_WM_STATUS (n : Nat) : Nat := 0xA1018 + n % 16 * 0x400
/-- `QUE.Pn.CMD` (R501). -/
abbrev QUE_P_CMD (n : Nat) : Nat := 0xA101C + n % 16 * 0x400
/-- `QUE.Pn.COUNTS` (R501). -/
abbrev QUE_P_COUNTS (n : Nat) : Nat := 0xA1020 + n % 16 * 0x400
/-- `CRC.LOCK` (R502). -/
abbrev CRC_LOCK : Nat := 0xB0004
/-- `CRC.PROFILE` (R502). -/
abbrev CRC_PROFILE : Nat := 0xB0008
/-- `CRC.EXPERT` (R502). -/
abbrev CRC_EXPERT : Nat := 0xB000C
/-- `CRC.CHc_CFG` (R502). -/
abbrev CRC_CH_CFG (n : Nat) : Nat := 0xB0100 + n % 4 * 0x40
/-- `CRC.CHc_POLY` (R502). -/
abbrev CRC_CH_POLY (n : Nat) : Nat := 0xB0104 + n % 4 * 0x40
/-- `CRC.CHc_INIT` (R502). -/
abbrev CRC_CH_INIT (n : Nat) : Nat := 0xB0108 + n % 4 * 0x40
/-- `CRC.CHc_XOROUT` (R502). -/
abbrev CRC_CH_XOROUT (n : Nat) : Nat := 0xB010C + n % 4 * 0x40
/-- `CRC.CHc_FOLD` (R502). -/
abbrev CRC_CH_FOLD (n : Nat) : Nat := 0xB0110 + n % 4 * 0x40
/-- `CRC.CHc_CMD` (R502). -/
abbrev CRC_CH_CMD (n : Nat) : Nat := 0xB0114 + n % 4 * 0x40
/-- `CRC.CHc_DATA8` (R502). -/
abbrev CRC_CH_DATA8 (n : Nat) : Nat := 0xB0118 + n % 4 * 0x40
/-- `CRC.CHc_DATA16` (R502). -/
abbrev CRC_CH_DATA16 (n : Nat) : Nat := 0xB011C + n % 4 * 0x40
/-- `CRC.CHc_DATA32` (R502). -/
abbrev CRC_CH_DATA32 (n : Nat) : Nat := 0xB0120 + n % 4 * 0x40
/-- `CRC.CHc_RANGE_ADDR` (R502). -/
abbrev CRC_CH_RANGE_ADDR (n : Nat) : Nat := 0xB0124 + n % 4 * 0x40
/-- `CRC.CHc_RANGE_LEN` (R502). -/
abbrev CRC_CH_RANGE_LEN (n : Nat) : Nat := 0xB0128 + n % 4 * 0x40
/-- `CRC.CHc_RESULT` (R502). -/
abbrev CRC_CH_RESULT (n : Nat) : Nat := 0xB012C + n % 4 * 0x40
/-- `CRC.CHc_EXPECT` (R502). -/
abbrev CRC_CH_EXPECT (n : Nat) : Nat := 0xB0130 + n % 4 * 0x40
/-- `CRC.CHc_STATUS` (R502). -/
abbrev CRC_CH_STATUS (n : Nat) : Nat := 0xB0134 + n % 4 * 0x40
/-- `CFG.LOCK` (R527). -/
abbrev CFG_LOCK : Nat := 0xE0004
/-- `CFG.PROFILE` (R527). -/
abbrev CFG_PROFILE : Nat := 0xE0008
/-- `CFG.EXPERT` (R527). -/
abbrev CFG_EXPERT : Nat := 0xE000C
/-- `CFG.BOOT_STATUS` (R527). -/
abbrev CFG_BOOT_STATUS : Nat := 0xE0010
/-- `CFG.IMAGE_VER` (R527). -/
abbrev CFG_IMAGE_VER : Nat := 0xE0014
/-- `CFG.OTHER_VER` (R527). -/
abbrev CFG_OTHER_VER : Nat := 0xE0018
/-- `CFG.BOOT_TIME` (R527). -/
abbrev CFG_BOOT_TIME : Nat := 0xE001C
/-- `CFG.KEY_STATUS` (R527). -/
abbrev CFG_KEY_STATUS : Nat := 0xE0020
/-- `CFG.AUTH_COUNTER` (R527). -/
abbrev CFG_AUTH_COUNTER : Nat := 0xE0024
/-- `CFG.AUTH_STATUS` (R527). -/
abbrev CFG_AUTH_STATUS : Nat := 0xE0028
/-- `CFG.AUTH_FAILS` (R527). -/
abbrev CFG_AUTH_FAILS : Nat := 0xE002C
/-- `CFG.DEVICE_UID_LO` (R527). -/
abbrev CFG_DEVICE_UID_LO : Nat := 0xE0030
/-- `CFG.DEVICE_UID_HI` (R527). -/
abbrev CFG_DEVICE_UID_HI : Nat := 0xE0034
/-- `CFG.BOOT_CMD` (R527). -/
abbrev CFG_BOOT_CMD : Nat := 0xE0040
/-- `CFG.BOOT_ADDR` (R527). -/
abbrev CFG_BOOT_ADDR : Nat := 0xE0044
/-- `CFG.BOOT_BSTATUS` (R527). -/
abbrev CFG_BOOT_BSTATUS : Nat := 0xE0048
/-- `CFG.BOOT_BUF` (R527). -/
abbrev CFG_BOOT_BUF (n : Nat) : Nat := 0xE1000 + n % 64 * 0x4
/-- `GEN.ID` (R553). -/
abbrev GEN_ID : Nat := 0x0
/-- `GEN.LOCK` (R553). -/
abbrev GEN_LOCK : Nat := 0x4
/-- `GEN.IRQ_STATUS` (R553). -/
abbrev GEN_IRQ_STATUS : Nat := 0x18
/-- `GEN.IRQ_ENABLE` (R553). -/
abbrev GEN_IRQ_ENABLE : Nat := 0x1C
/-- `GEN.STATUS` (R553). -/
abbrev GEN_STATUS : Nat := 0x20
/-- `GEN.SCRATCH` (R553). -/
abbrev GEN_SCRATCH : Nat := 0x24
/-- `HIF.LOCK` (R554). -/
abbrev HIF_LOCK : Nat := 0x120004
/-- `HIF.PROFILE` (R554). -/
abbrev HIF_PROFILE : Nat := 0x120008
/-- `HIF.EXPERT` (R554). -/
abbrev HIF_EXPERT : Nat := 0x12000C
/-- `HIF.CFG` (R554). -/
abbrev HIF_CFG : Nat := 0x120010
/-- `HIF.STATUS` (R554). -/
abbrev HIF_STATUS : Nat := 0x120014
/-- `HIF.ERR_COUNTS` (R554). -/
abbrev HIF_ERR_COUNTS : Nat := 0x120018
/-- `HIF.LAST_ERR` (R554). -/
abbrev HIF_LAST_ERR : Nat := 0x12001C
/-- `TRC.TRACE_CTRL` (R555). -/
abbrev TRC_TRACE_CTRL : Nat := 0x100010
/-- `TRC.TRACE_SEL` (R555). -/
abbrev TRC_TRACE_SEL : Nat := 0x100014
/-- `TRC.TRACE_STATUS` (R555). -/
abbrev TRC_TRACE_STATUS : Nat := 0x100018
/-- `TRC.CNT_CMD` (R555). -/
abbrev TRC_CNT_CMD : Nat := 0x10001C
/-- `TRC.CNT_STATUS` (R555). -/
abbrev TRC_CNT_STATUS : Nat := 0x100020
/-- `TRC.CNTi_LO` (R555). -/
abbrev TRC_CNT_LO (n : Nat) : Nat := 0x101000 + n % 128 * 0x8
/-- `TRC.CNTi_HI` (R555). -/
abbrev TRC_CNT_HI (n : Nat) : Nat := 0x101004 + n % 128 * 0x8
/-- `PWR.LOCK` (R581). -/
abbrev PWR_LOCK : Nat := 0x10004
/-- `PWR.PROFILE` (R581). -/
abbrev PWR_PROFILE : Nat := 0x10008
/-- `PWR.EXPERT` (R581). -/
abbrev PWR_EXPERT : Nat := 0x1000C
/-- `PWR.STATE` (R581). -/
abbrev PWR_STATE : Nat := 0x10010
/-- `PWR.CMD` (R581). -/
abbrev PWR_CMD : Nat := 0x10014
/-- `PWR.AUTO` (R581). -/
abbrev PWR_AUTO : Nat := 0x10018
/-- `PWR.WAKE` (R581). -/
abbrev PWR_WAKE : Nat := 0x1001C
/-- `PWR.WAKE_STATUS` (R581). -/
abbrev PWR_WAKE_STATUS : Nat := 0x10020
/-- `PWR.CLK` (R581). -/
abbrev PWR_CLK : Nat := 0x10024
/-- `PWR.CLK_STATUS` (R581). -/
abbrev PWR_CLK_STATUS : Nat := 0x10028
/-- `PWR.THERM` (R581). -/
abbrev PWR_THERM : Nat := 0x10030
/-- `PWR.THERM_STATUS` (R581). -/
abbrev PWR_THERM_STATUS : Nat := 0x10034
/-- `PWR.THERM_DISS` (R581). -/
abbrev PWR_THERM_DISS : Nat := 0x10038
/-- `PWR.SUPPLY` (R581). -/
abbrev PWR_SUPPLY : Nat := 0x1003C
/-- `PWR.RESET_CAUSE` (R581). -/
abbrev PWR_RESET_CAUSE : Nat := 0x10040
/-- `PWR.RESET_CMD` (R581). -/
abbrev PWR_RESET_CMD : Nat := 0x10044

end Reg

/-! ### Fields (R8): bits of each register by their names -/
namespace Fld

abbrev GEN_PHASE_CUR : Field := ⟨0, 3⟩
abbrev GEN_PHASE_SAFE_BOOT : Field := ⟨3, 1⟩
abbrev GEN_PHASE_CAUSE : Field := ⟨8, 4⟩
abbrev GEN_PHASE_CTRL_REQ : Field := ⟨0, 3⟩
abbrev GEN_PHASE_CTRL_RLIMIT : Field := ⟨8, 8⟩
abbrev GEN_TEST_CTRL_FIELDS_EN : Field := ⟨0, 1⟩
abbrev GEN_TEST_CTRL_LISTS_EN : Field := ⟨1, 1⟩
abbrev GEN_TEST_CTRL_LANE_TEST : Field := ⟨2, 1⟩
abbrev GEN_TEST_LANE_GO : Field := ⟨0, 16⟩
abbrev GEN_TEST_LANE_ALERT : Field := ⟨16, 16⟩
abbrev PRO_P_ROLE_ROLE : Field := ⟨0, 3⟩
abbrev PRO_P_MODE_STATUS_EFFECTIVE : Field := ⟨0, 3⟩
abbrev PRO_P_MODE_STATUS_HUDDLE_IGNORED : Field := ⟨8, 1⟩
abbrev PRO_P_MODE_STATUS_HUDDLE_REMOVED : Field := ⟨9, 1⟩
abbrev PRO_P_MODE_STATUS_ROLE_REFUSED : Field := ⟨10, 1⟩
abbrev PRO_P_MODE_STATUS_ACCORD_IGNORED : Field := ⟨11, 1⟩
abbrev PRO_P_MODE_STATUS_SNIFF_WAIT : Field := ⟨12, 1⟩
abbrev PRO_P_MODE_STATUS_EMU_MUTED : Field := ⟨13, 1⟩
abbrev FLD_FC_TRIM_OFFSET : Field := ⟨0, 15⟩
abbrev FLD_SYN_STATUS_LOCKED : Field := ⟨0, 1⟩
abbrev FLD_SYN_STATUS_SETTLING : Field := ⟨1, 1⟩
abbrev FLD_SYN_STATUS_LOCK_LOST : Field := ⟨2, 1⟩
abbrev FLD_SYN_STATUS_EFF_OFFSET : Field := ⟨16, 15⟩
abbrev FLD_RAMP_SHAPE : Field := ⟨0, 1⟩
abbrev FLD_RAMP_RAMP_US : Field := ⟨8, 7⟩
abbrev FLD_RAMP_ASK_EDGE : Field := ⟨16, 4⟩
abbrev FLD_RAMP_RAMP_CONC : Field := ⟨24, 5⟩
abbrev FLD_GUARD_GT_ON : Field := ⟨0, 8⟩
abbrev FLD_GUARD_RESET_OFF : Field := ⟨8, 8⟩
abbrev FLD_KEEPOUT_STARVE_LIMIT : Field := ⟨0, 8⟩
abbrev FLD_KEEPOUT_NEIGH_THR : Field := ⟨8, 8⟩
abbrev FLD_DUTY_CEIL_EFF : Field := ⟨0, 9⟩
abbrev FLD_DUTY_PACE : Field := ⟨16, 1⟩
abbrev FLD_DUTY_STATUS_USED : Field := ⟨0, 14⟩
abbrev FLD_DUTY_STATUS_ALLOWED : Field := ⟨16, 5⟩
abbrev FLD_DUTY_STATUS_CUT : Field := ⟨24, 1⟩
abbrev FLD_WARMUP_REFRESH_S : Field := ⟨0, 8⟩
abbrev FLD_WARMUP_WARM_MAX : Field := ⟨8, 8⟩
abbrev FLD_WARMUP_STEP_EN : Field := ⟨16, 6⟩
abbrev FLD_WARMUP_STATUS_MEASURED : Field := ⟨0, 16⟩
abbrev FLD_WARMUP_STATUS_LATE : Field := ⟨16, 16⟩
abbrev FLD_HUDDLE_STATUS_MEMBERS : Field := ⟨0, 16⟩
abbrev FLD_HUDDLE_STATUS_TX_PHASE : Field := ⟨16, 1⟩
abbrev FLD_HUDDLE_STATUS_LISTEN_PHASE : Field := ⟨17, 1⟩
abbrev FLD_COUPLE_I : Field := ⟨0, 16⟩
abbrev FLD_COUPLE_Q : Field := ⟨16, 16⟩
abbrev FLD_P_CTRL_RETURN : Field := ⟨0, 2⟩
abbrev FLD_P_CTRL_FIELD_RESET : Field := ⟨4, 1⟩
abbrev FLD_P_STATE_STATE : Field := ⟨0, 3⟩
abbrev FLD_P_STATE_IN_GUARD : Field := ⟨4, 1⟩
abbrev FLD_P_STATE_IN_RXWIN : Field := ⟨5, 1⟩
abbrev FLD_P_STATE_DEFER_KEEPOUT : Field := ⟨6, 1⟩
abbrev FLD_P_STATE_DEFER_DUTY : Field := ⟨7, 1⟩
abbrev FLD_P_STATE_WAIT_RAMP : Field := ⟨8, 1⟩
abbrev FLD_P_STATE_WAIT_SYN : Field := ⟨9, 1⟩
abbrev FLD_P_STATE_STARVED : Field := ⟨10, 1⟩
abbrev FLD_P_STATE_DEFER_US : Field := ⟨16, 16⟩
abbrev FLD_P_PHASE_OFFSET : Field := ⟨0, 10⟩
abbrev FLD_P_AMPL_AMPL : Field := ⟨0, 10⟩
abbrev FLD_P_AMPL_EFFECTIVE : Field := ⟨16, 10⟩
abbrev FLD_P_HUDDLE_EN : Field := ⟨0, 1⟩
abbrev FLD_P_HUDDLE_ID : Field := ⟨4, 2⟩
abbrev FLD_P_NEIGH_DERIVED : Field := ⟨0, 16⟩
abbrev FLD_P_NEIGH_EFFECTIVE : Field := ⟨16, 16⟩
abbrev FLD_P_NEIGH_FORCE_ADD : Field := ⟨0, 16⟩
abbrev FLD_P_RELAY_T_BIAS : Field := ⟨0, 8⟩
abbrev FLD_P_RELAY_PA_VC : Field := ⟨16, 10⟩
abbrev FLD_P_COMP_TEMP : Field := ⟨0, 8⟩
abbrev FLD_P_COMP_HEADROOM : Field := ⟨8, 1⟩
abbrev FLD_P_COMP_COMP_FAIL : Field := ⟨16, 1⟩
abbrev TUN_LINK_DIV : Field := ⟨0, 8⟩
abbrev TUN_LINK_CPOL : Field := ⟨8, 1⟩
abbrev TUN_LINK_CPHA : Field := ⟨9, 1⟩
abbrev TUN_LINK_CS_SETUP : Field := ⟨16, 4⟩
abbrev TUN_LINK_CS_HOLD : Field := ⟨20, 4⟩
abbrev TUN_LINK_STATUS_BUSY : Field := ⟨0, 1⟩
abbrev TUN_LINK_STATUS_LINK_FAIL : Field := ⟨1, 1⟩
abbrev TUN_TPL_CTRL_LENGTH : Field := ⟨0, 6⟩
abbrev TUN_TPL_CTRL_LSB_FIRST : Field := ⟨8, 1⟩
abbrev TUN_TPL_CTRL_VERIFY : Field := ⟨9, 1⟩
abbrev TUN_TPL_FMT_ADDR_POS : Field := ⟨0, 5⟩
abbrev TUN_TPL_FMT_ADDR_W : Field := ⟨5, 4⟩
abbrev TUN_TPL_FMT_A_POS : Field := ⟨9, 5⟩
abbrev TUN_TPL_FMT_A_W : Field := ⟨14, 4⟩
abbrev TUN_TPL_FMT_B_POS : Field := ⟨18, 5⟩
abbrev TUN_TPL_FMT_B_W : Field := ⟨23, 4⟩
abbrev TUN_SNIFF_INTERVAL_MS : Field := ⟨0, 11⟩
abbrev TUN_SNIFF_STATUS_WAKE : Field := ⟨0, 16⟩
abbrev TUN_SNIFF_STATUS_SKIPS : Field := ⟨16, 16⟩
abbrev TUN_MISMATCH_STATUS_MISMATCH : Field := ⟨0, 16⟩
abbrev TUN_MISMATCH_STATUS_SEARCHING : Field := ⟨16, 16⟩
abbrev TUN_P_TUNER_NONE : Field := ⟨0, 1⟩
abbrev TUN_P_TUNER_CS : Field := ⟨1, 2⟩
abbrev TUN_P_TUNER_TEMPLATE : Field := ⟨4, 2⟩
abbrev TUN_P_TUNER_ADDR : Field := ⟨8, 8⟩
abbrev TUN_P_CODE_CODE_A : Field := ⟨0, 8⟩
abbrev TUN_P_CODE_CODE_B : Field := ⟨8, 8⟩
abbrev TUN_P_CMD_CAPTURE_REF : Field := ⟨0, 1⟩
abbrev TUN_P_CMD_RETUNE : Field := ⟨1, 1⟩
abbrev TUN_P_CMD_MEASURE : Field := ⟨2, 1⟩
abbrev TUN_P_VEC_I : Field := ⟨0, 16⟩
abbrev TUN_P_VEC_Q : Field := ⟨16, 16⟩
abbrev TUN_P_REF_I : Field := ⟨0, 16⟩
abbrev TUN_P_REF_Q : Field := ⟨16, 16⟩
abbrev TUN_P_MISMATCH_MAG_THR : Field := ⟨0, 8⟩
abbrev TUN_P_MISMATCH_PH_THR : Field := ⟨8, 8⟩
abbrev TUN_P_MISMATCH_MISS_COUNT : Field := ⟨16, 3⟩
abbrev TUN_P_MISMATCH_AUTO_RETUNE : Field := ⟨20, 1⟩
abbrev TUN_P_MISMATCH_PRIORITY : Field := ⟨21, 1⟩
abbrev TUN_P_MISMATCH_MEAS_MS : Field := ⟨24, 8⟩
abbrev TUN_P_SEARCH_STEP_INIT : Field := ⟨0, 8⟩
abbrev TUN_P_SEARCH_SEARCH_MAX : Field := ⟨8, 8⟩
abbrev TUN_P_SEARCH_SETTLE_US : Field := ⟨16, 8⟩
abbrev TUN_P_SEARCH_AXES : Field := ⟨24, 2⟩
abbrev TUN_P_STATUS_DEV_MAG : Field := ⟨0, 8⟩
abbrev TUN_P_STATUS_DEV_PH : Field := ⟨8, 8⟩
abbrev TUN_P_STATUS_MISMATCH : Field := ⟨16, 1⟩
abbrev TUN_P_STATUS_SEARCHING : Field := ⟨17, 1⟩
abbrev TUN_P_STATUS_RETUNE_FAIL : Field := ⟨18, 1⟩
abbrev TUN_P_STATUS_MISS_RUN : Field := ⟨20, 3⟩
abbrev TUN_P_SNIFF_AMPL : Field := ⟨0, 10⟩
abbrev TUN_P_SNIFF_CONFIRM : Field := ⟨12, 1⟩
abbrev TUN_P_SNIFF_WAKE_TO_READER : Field := ⟨16, 1⟩
abbrev TUN_P_SNIFF_THR_THR_I : Field := ⟨0, 16⟩
abbrev TUN_P_SNIFF_THR_THR_Q : Field := ⟨16, 16⟩
abbrev TUN_P_SNIFF_BASE_I : Field := ⟨0, 16⟩
abbrev TUN_P_SNIFF_BASE_Q : Field := ⟨16, 16⟩
abbrev TUN_P_SNIFF_LAST_I : Field := ⟨0, 16⟩
abbrev TUN_P_SNIFF_LAST_Q : Field := ⟨16, 16⟩
abbrev RXE_STATUS_RECEIVING : Field := ⟨0, 16⟩
abbrev RXE_STATUS_WEAK : Field := ⟨16, 16⟩
abbrev RXE_P_CTRL_CAPTURE_EN : Field := ⟨0, 1⟩
abbrev RXE_P_CTRL_CAPTURE_DB : Field := ⟨4, 4⟩
abbrev RXE_P_CTRL_W_SOF : Field := ⟨8, 6⟩
abbrev RXE_P_CTRL_DET_MARGIN : Field := ⟨16, 5⟩
abbrev RXE_P_FRONT_GAIN : Field := ⟨0, 3⟩
abbrev RXE_P_FRONT_AGC_EN : Field := ⟨4, 1⟩
abbrev RXE_P_FRONT_NOISE_BAND : Field := ⟨8, 2⟩
abbrev RXE_P_FRONT_GAIN_USED : Field := ⟨16, 3⟩
abbrev RXE_P_CANCEL_MU : Field := ⟨0, 4⟩
abbrev RXE_P_CANCEL_ADAPT_EN : Field := ⟨4, 1⟩
abbrev RXE_P_CANCEL_RESID_THR : Field := ⟨8, 8⟩
abbrev RXE_P_CANCEL_STATUS_RESIDUAL : Field := ⟨0, 9⟩
abbrev RXE_P_CANCEL_STATUS_WEAK : Field := ⟨16, 1⟩
abbrev RXE_P_CANCEL_STATUS_VALID : Field := ⟨31, 1⟩
abbrev RXE_P_NOISE_LAST : Field := ⟨0, 9⟩
abbrev RXE_P_NOISE_AVG : Field := ⟨16, 9⟩
abbrev RXE_P_NOISE_VALID : Field := ⟨31, 1⟩
abbrev RXE_P_NOISE_EXT_MIN : Field := ⟨0, 9⟩
abbrev RXE_P_NOISE_EXT_MAX : Field := ⟨16, 9⟩
abbrev RXE_P_NOISE_EXT_VALID : Field := ⟨31, 1⟩
abbrev RXE_P_STATE_RXSTATE : Field := ⟨0, 2⟩
abbrev RXE_P_STATE_TECH : Field := ⟨4, 3⟩
abbrev RXE_P_STATE_RATE : Field := ⟨8, 2⟩
abbrev RXE_P_COUNTS_FALSE_LOCKS : Field := ⟨0, 16⟩
abbrev RXE_P_COUNTS_OVERTAKES : Field := ⟨16, 16⟩
abbrev RXE_P_CMD_CLR_COUNTS : Field := ⟨0, 1⟩
abbrev RXE_P_CMD_CLR_NOISE : Field := ⟨1, 1⟩
abbrev RXE_P_AFC_FOFS : Field := ⟨0, 12⟩
abbrev RXE_P_AFC_TOFS : Field := ⟨16, 8⟩
abbrev RXE_P_AFC_FROZEN : Field := ⟨31, 1⟩
abbrev PRO_FRAMING_B_SOF_LOW : Field := ⟨0, 1⟩
abbrev PRO_FRAMING_B_SOF_HIGH : Field := ⟨1, 1⟩
abbrev PRO_FRAMING_B_EOF : Field := ⟨2, 1⟩
abbrev PRO_FRAMING_B_EGT : Field := ⟨4, 3⟩
abbrev PRO_FRAMING_B_INDEX : Field := ⟨8, 4⟩
abbrev PRO_FRAMING_V_DEPTH : Field := ⟨12, 1⟩
abbrev PRO_ACTIVE_T_ADT : Field := ⟨0, 12⟩
abbrev PRO_ACTIVE_RFCA_THR : Field := ⟨16, 8⟩
abbrev PRO_ACTIVE_RFCA_MAX : Field := ⟨24, 4⟩
abbrev PRO_P_HOSTQ_HOST_EN : Field := ⟨0, 1⟩
abbrev PRO_P_HOSTQ_HOST_FIRST : Field := ⟨1, 1⟩
abbrev PRO_P_HOSTQ_HOLD_MAX : Field := ⟨8, 8⟩
abbrev PRO_P_HOSTQ_MIRROR : Field := ⟨16, 1⟩
abbrev PRO_P_CMD_FLUSH_TX : Field := ⟨0, 1⟩
abbrev PRO_P_CMD_END_HOLD : Field := ⟨1, 1⟩
abbrev PRO_P_STATUS_HOST_BUSY : Field := ⟨0, 1⟩
abbrev PRO_P_STATUS_HELD : Field := ⟨1, 1⟩
abbrev PRO_P_STATUS_WAIT_DESC : Field := ⟨2, 1⟩
abbrev PRO_P_STATUS_WAIT_RXQ : Field := ⟨3, 1⟩
abbrev PRO_P_STATUS_RFCA : Field := ⟨4, 1⟩
abbrev PRO_P_STATUS_COX_DEFERS : Field := ⟨8, 4⟩
abbrev PRO_P_COUNTS_DONE : Field := ⟨0, 16⟩
abbrev PRO_P_COUNTS_NOT_OK : Field := ⟨16, 16⟩
abbrev PRO_SESSION_N_GONE : Field := ⟨0, 4⟩
abbrev PRO_SESSION_COLL_PREF : Field := ⟨4, 1⟩
abbrev PRO_SESSION_OVERFLOW_BENCH : Field := ⟨8, 8⟩
abbrev PRO_SESS_STATUS_OPEN : Field := ⟨0, 8⟩
abbrev PRO_SESS_STATUS_OVF : Field := ⟨8, 6⟩
abbrev PRO_SESS_CMD_INDEX : Field := ⟨0, 8⟩
abbrev PRO_SESS_CMD_CLOSE : Field := ⟨8, 1⟩
abbrev PRO_SESS_COUNTS_FULL : Field := ⟨0, 16⟩
abbrev PRO_SESS_COUNTS_LOST : Field := ⟨16, 16⟩
abbrev PRO_P_POLL_LIST : Field := ⟨0, 4⟩
abbrev PRO_P_POLL_END_MODE : Field := ⟨8, 1⟩
abbrev PRO_P_POLL_BENCH : Field := ⟨16, 8⟩
abbrev PRO_P_POLL_QUIET : Field := ⟨24, 8⟩
abbrev PRO_P_POLL_STATUS_ENTRY : Field := ⟨0, 4⟩
abbrev PRO_P_POLL_STATUS_DISCOVERING : Field := ⟨4, 1⟩
abbrev PRO_P_POLL_STATUS_CHECKING : Field := ⟨5, 1⟩
abbrev PRO_P_POLL_STATUS_OPEN : Field := ⟨16, 8⟩
abbrev ACD_CTRL_SCOPE : Field := ⟨0, 1⟩
abbrev ACD_CTRL_CODE_HOLD : Field := ⟨8, 8⟩
abbrev ACD_STATUS_IN_USE : Field := ⟨0, 8⟩
abbrev ACD_STATUS_HELD : Field := ⟨8, 12⟩
abbrev ACD_COUNTS_POLLS : Field := ⟨0, 16⟩
abbrev ACD_COUNTS_SKIPS : Field := ⟨16, 16⟩
abbrev ACD_P_SIC_SIC_STAGES : Field := ⟨0, 4⟩
abbrev ACD_P_ENROL_LEN : Field := ⟨0, 6⟩
abbrev ACD_P_LAST_POLL_GROUP : Field := ⟨0, 4⟩
abbrev ACD_P_LAST_POLL_MASK : Field := ⟨8, 8⟩
abbrev ACD_P_LAST_POLL_SELECTOR : Field := ⟨16, 8⟩
abbrev ACD_P_LAST_POLL_OK_MASK : Field := ⟨24, 8⟩
abbrev ACD_P_NOISE4_LAST : Field := ⟨0, 9⟩
abbrev ACD_P_NOISE4_AVG : Field := ⟨16, 9⟩
abbrev ACD_P_NOISE4_VALID : Field := ⟨31, 1⟩
abbrev ACD_P_USE_G0 : Field := ⟨0, 8⟩
abbrev ACD_P_USE_G1 : Field := ⟨8, 8⟩
abbrev ACD_P_USE_G2 : Field := ⟨16, 8⟩
abbrev ACD_P_USE_G3 : Field := ⟨24, 8⟩
abbrev ACD_P_HOLD_G0 : Field := ⟨0, 8⟩
abbrev ACD_P_HOLD_G1 : Field := ⟨8, 8⟩
abbrev ACD_P_HOLD_G2 : Field := ⟨16, 8⟩
abbrev ACD_P_HOLD_G3 : Field := ⟨24, 8⟩
abbrev KPR_CTRL_UNKNOWN_ACT : Field := ⟨0, 1⟩
abbrev KPR_CTRL_REPEAT_SAME : Field := ⟨1, 1⟩
abbrev KPR_CTRL_CLOSE_DRIVE : Field := ⟨2, 1⟩
abbrev KPR_CTRL_CACHE_EN : Field := ⟨3, 1⟩
abbrev KPR_TIMES_HIT_TTL : Field := ⟨0, 8⟩
abbrev KPR_TIMES_REPEAT_S : Field := ⟨8, 8⟩
abbrev KPR_TIMES_COUNT_TTL : Field := ⟨16, 16⟩
abbrev KPR_STATUS_INFLIGHT : Field := ⟨0, 9⟩
abbrev KPR_STATUS_WAITING : Field := ⟨16, 8⟩
abbrev KPR_STATUS_ACTIVE_BANK : Field := ⟨24, 1⟩
abbrev KPR_STATUS_WALL_KNOWN : Field := ⟨25, 1⟩
abbrev KPR_STATUS_INVALIDATING : Field := ⟨26, 1⟩
abbrev KPR_OLD_INFLIGHT_COUNT : Field := ⟨0, 9⟩
abbrev KPR_COUNTS_CHECK_FAILS : Field := ⟨0, 16⟩
abbrev KPR_COUNTS_COUNT_EVICTS : Field := ⟨16, 16⟩
abbrev KPR_PORT_MAP_LANE_P0 : Field := ⟨0, 4⟩
abbrev KPR_PORT_MAP_LANE_P1 : Field := ⟨4, 4⟩
abbrev KPR_PORT_MAP_LANE_P2 : Field := ⟨8, 4⟩
abbrev KPR_PORT_MAP_LANE_P3 : Field := ⟨12, 4⟩
abbrev KPR_PORT_MAP_LANE_P4 : Field := ⟨16, 4⟩
abbrev KPR_PORT_MAP_LANE_P5 : Field := ⟨20, 4⟩
abbrev KPR_PORT_MAP_LANE_P6 : Field := ⟨24, 4⟩
abbrev KPR_PORT_MAP_LANE_P7 : Field := ⟨28, 4⟩
abbrev KPR_L_CFG_EN : Field := ⟨0, 1⟩
abbrev KPR_L_CFG_ZONE : Field := ⟨4, 4⟩
abbrev KPR_L_CFG_ALERT_POL : Field := ⟨8, 1⟩
abbrev KPR_L_CFG_ALERT_REFUSE : Field := ⟨9, 1⟩
abbrev KPR_L_CFG_ALERT_REFER : Field := ⟨10, 1⟩
abbrev KPR_L_WIDTH_GO_MS : Field := ⟨0, 13⟩
abbrev KPR_L_WIDTH_ALERT_MS : Field := ⟨16, 13⟩
abbrev KPR_L_STATUS_GO : Field := ⟨0, 1⟩
abbrev KPR_L_STATUS_ALERT : Field := ⟨1, 1⟩
abbrev KPR_L_STATUS_FB : Field := ⟨2, 1⟩
abbrev KPR_L_STATUS_LAST : Field := ⟨4, 3⟩
abbrev KPR_L_STATUS_ADMITS : Field := ⟨16, 16⟩
abbrev STO_GEOM_CS_COUNT : Field := ⟨0, 2⟩
abbrev STO_GEOM_CAP : Field := ⟨4, 3⟩
abbrev STO_GEOM_DIES : Field := ⟨8, 2⟩
abbrev STO_GEOM_PPB : Field := ⟨12, 1⟩
abbrev STO_GEOM_SUSPEND : Field := ⟨16, 1⟩
abbrev STO_CLOCK_DIV : Field := ⟨0, 4⟩
abbrev STO_CLOCK_DDR : Field := ⟨4, 1⟩
abbrev STO_CLOCK_DUMMY : Field := ⟨8, 5⟩
abbrev STO_CLOCK_CMD_EXT : Field := ⟨13, 1⟩
abbrev STO_OPS0_PAGE_READ : Field := ⟨0, 8⟩
abbrev STO_OPS0_CACHE_READ : Field := ⟨8, 8⟩
abbrev STO_OPS0_PROG_LOAD : Field := ⟨16, 8⟩
abbrev STO_OPS0_PROG_EXEC : Field := ⟨24, 8⟩
abbrev STO_OPS1_ERASE : Field := ⟨0, 8⟩
abbrev STO_OPS1_GET_FEATURE : Field := ⟨8, 8⟩
abbrev STO_OPS1_WRITE_ENABLE : Field := ⟨16, 8⟩
abbrev STO_OPS1_DIE_SELECT : Field := ⟨24, 8⟩
abbrev STO_OPS2_SUSPEND : Field := ⟨0, 8⟩
abbrev STO_OPS2_RESUME : Field := ⟨8, 8⟩
abbrev STO_OPS2_RESET : Field := ⟨16, 8⟩
abbrev STO_OPS2_SET_FEATURE : Field := ⟨24, 8⟩
abbrev STO_ECC_STAT_ADDR : Field := ⟨0, 8⟩
abbrev STO_ECC_MASK : Field := ⟨8, 8⟩
abbrev STO_ECC_UNCORR : Field := ⟨16, 8⟩
abbrev STO_ECC_BUSY_MASK : Field := ⟨24, 8⟩
abbrev STO_STATUS_QDEPTH : Field := ⟨0, 7⟩
abbrev STO_STATUS_READY : Field := ⟨8, 1⟩
abbrev STO_STATUS_FAIL : Field := ⟨9, 1⟩
abbrev STO_STATUS_DIE_BUSY : Field := ⟨16, 16⟩
abbrev STO_PAGES_PAGES : Field := ⟨0, 19⟩
abbrev STO_PAGES_MAP_CHANGED : Field := ⟨31, 1⟩
abbrev STO_HCMD_PAGE : Field := ⟨0, 19⟩
abbrev STO_HCMD_REGION : Field := ⟨20, 2⟩
abbrev STO_HCMD_BUF : Field := ⟨24, 1⟩
abbrev STO_HCMD_OP : Field := ⟨28, 3⟩
abbrev STO_HCOL_COL : Field := ⟨0, 12⟩
abbrev STO_HCOL_LEN : Field := ⟨16, 13⟩
abbrev STO_HSTATUS_RESULT0 : Field := ⟨0, 4⟩
abbrev STO_HSTATUS_BUSY0 : Field := ⟨4, 1⟩
abbrev STO_HSTATUS_DONE0 : Field := ⟨5, 1⟩
abbrev STO_HSTATUS_RESULT1 : Field := ⟨8, 4⟩
abbrev STO_HSTATUS_BUSY1 : Field := ⟨12, 1⟩
abbrev STO_HSTATUS_DONE1 : Field := ⟨13, 1⟩
abbrev STO_SPILL_HEAD : Field := ⟨0, 18⟩
abbrev STO_SPILL_VALID : Field := ⟨31, 1⟩
abbrev STO_COUNTS_CORRECTED : Field := ⟨0, 16⟩
abbrev STO_COUNTS_UNCORR : Field := ⟨16, 16⟩
abbrev STO_GROWN_COUNT : Field := ⟨0, 16⟩
abbrev STO_GROWN_LAST_LBLOCK : Field := ⟨16, 16⟩
abbrev EMU_CTRL_PORT : Field := ⟨0, 2⟩
abbrev EMU_CTRL_BENCH_EN : Field := ⟨4, 1⟩
abbrev EMU_CTRL_HARV : Field := ⟨5, 1⟩
abbrev EMU_CTRL_AUTO_SYNC : Field := ⟨6, 1⟩
abbrev EMU_STATUS_TAG_STATE : Field := ⟨0, 3⟩
abbrev EMU_STATUS_FIELD : Field := ⟨3, 1⟩
abbrev EMU_STATUS_SNAPSHOT : Field := ⟨4, 1⟩
abbrev EMU_STATUS_PUBLISHING : Field := ⟨5, 1⟩
abbrev EMU_STATUS_SYNC_BUSY : Field := ⟨6, 1⟩
abbrev EMU_STATUS_CTR_BUSY : Field := ⟨7, 1⟩
abbrev EMU_STATUS_HELD_WRITE : Field := ⟨8, 1⟩
abbrev EMU_STATUS_WR_FAIL : Field := ⟨9, 1⟩
abbrev EMU_STATUS_SYNC_FAIL : Field := ⟨10, 1⟩
abbrev EMU_STATUS_IMAGE_VALID : Field := ⟨11, 1⟩
abbrev EMU_STATUS_BENCH_LEFT : Field := ⟨16, 16⟩
abbrev EMU_WIRE_WIRE_LOCK : Field := ⟨0, 1⟩
abbrev EMU_CMD_SYNC : Field := ⟨0, 1⟩
abbrev EMU_CMD_CTR_INC : Field := ⟨1, 1⟩
abbrev EMU_CMD_INDEX : Field := ⟨8, 3⟩
abbrev EMU_FIELD_DET_FIELD_THR : Field := ⟨0, 8⟩
abbrev EMU_CTR_STATUS_BAD : Field := ⟨0, 8⟩
abbrev EMU_CTR_STATUS_SAT : Field := ⟨8, 8⟩
abbrev EMU_CTR_STATUS_REPAIRED : Field := ⟨16, 8⟩
abbrev EMU_CTR_STATUS_CTR_FAIL : Field := ⟨24, 8⟩
abbrev EMU_COUNTS_SELECTIONS : Field := ⟨0, 16⟩
abbrev EMU_COUNTS_BUSY_SENT : Field := ⟨16, 16⟩
abbrev COX_CTRL_REQ_EN : Field := ⟨0, 1⟩
abbrev COX_CTRL_GRANT_EN : Field := ⟨1, 1⟩
abbrev COX_CTRL_GRANT_POL : Field := ⟨2, 1⟩
abbrev COX_CTRL_CUT_FIELD : Field := ⟨3, 1⟩
abbrev COX_CTRL_REQ_SPAN : Field := ⟨4, 1⟩
abbrev COX_CTRL_PRIO_ESC : Field := ⟨8, 4⟩
abbrev COX_CTRL_BLANK0_EN : Field := ⟨16, 1⟩
abbrev COX_CTRL_BLANK1_EN : Field := ⟨17, 1⟩
abbrev COX_CTRL_BLANK0_POL : Field := ⟨18, 1⟩
abbrev COX_CTRL_BLANK1_POL : Field := ⟨19, 1⟩
abbrev COX_TIMING_LEAD_US : Field := ⟨0, 9⟩
abbrev COX_TIMING_GRANT_WAIT : Field := ⟨16, 8⟩
abbrev COX_TIMING_FINISH_US : Field := ⟨24, 8⟩
abbrev COX_TIMING2_RETRY_US : Field := ⟨0, 10⟩
abbrev COX_TIMING2_BLANK_TAIL_US : Field := ⟨16, 8⟩
abbrev COX_TIMING2_BLANK_MAX_MS : Field := ⟨24, 8⟩
abbrev COX_PORT_CFG_B0_MASK : Field := ⟨0, 16⟩
abbrev COX_PORT_CFG_B1_MASK : Field := ⟨16, 16⟩
abbrev COX_PRIO_PRIO_FRAME : Field := ⟨0, 16⟩
abbrev COX_PRIO_PRIO_FIELD : Field := ⟨16, 16⟩
abbrev COX_STATUS_REQ : Field := ⟨0, 1⟩
abbrev COX_STATUS_PRIO : Field := ⟨1, 1⟩
abbrev COX_STATUS_GRANT : Field := ⟨2, 1⟩
abbrev COX_STATUS_BLANK0 : Field := ⟨3, 1⟩
abbrev COX_STATUS_BLANK1 : Field := ⟨4, 1⟩
abbrev COX_STATUS_B0_STUCK : Field := ⟨5, 1⟩
abbrev COX_STATUS_B1_STUCK : Field := ⟨6, 1⟩
abbrev COX_STATUS_WAITING : Field := ⟨16, 16⟩
abbrev COX_COUNTS_DENIED : Field := ⟨0, 16⟩
abbrev COX_COUNTS_CUTS : Field := ⟨16, 16⟩
abbrev SAF_STATUS_SAFE : Field := ⟨0, 1⟩
abbrev SAF_STATUS_STOP_IN : Field := ⟨1, 1⟩
abbrev SAF_STATUS_FAULT_OUT : Field := ⟨2, 1⟩
abbrev SAF_STATUS_MON_OK : Field := ⟨3, 1⟩
abbrev SAF_STATUS_ST_PASS : Field := ⟨16, 9⟩
abbrev SAF_CFG_FIELD_MARGIN : Field := ⟨0, 4⟩
abbrev SAF_CFG_FIELD_FILT : Field := ⟨8, 8⟩
abbrev SAF_CFG_FB_DELAY : Field := ⟨16, 8⟩
abbrev SAF_FAULT_CODES : Field := ⟨0, 9⟩
abbrev SAF_FAULT_STOP : Field := ⟨9, 1⟩
abbrev SAF_FAULT_WHERE_PORTS : Field := ⟨0, 16⟩
abbrev SAF_FAULT_WHERE_LANES : Field := ⟨16, 16⟩
abbrev SAF_FIRST_CODE : Field := ⟨0, 4⟩
abbrev SAF_FIRST_WHERE : Field := ⟨8, 4⟩
abbrev SAF_PREV_CODE : Field := ⟨0, 4⟩
abbrev SAF_PREV_WHERE : Field := ⟨8, 4⟩
abbrev SAF_ALERT_SAFE_ASSERT : Field := ⟨0, 16⟩
abbrev SAF_INJECT_CODE : Field := ⟨0, 4⟩
abbrev SAF_INJECT_TARGET : Field := ⟨8, 4⟩
abbrev SAF_INJECT_TRIP : Field := ⟨16, 1⟩
abbrev SAF_INJ_STATUS_DET_US : Field := ⟨0, 16⟩
abbrev SAF_INJ_STATUS_SEEN : Field := ⟨16, 1⟩
abbrev SAF_CLKMON_COUNT : Field := ⟨0, 8⟩
abbrev SAF_NDF_SESS_PARITY : Field := ⟨0, 1⟩
abbrev SAF_NDF_SESS_PARITY_N : Field := ⟨16, 16⟩
abbrev COX_REG_STATUS_SEALED : Field := ⟨0, 1⟩
abbrev COX_REG_STATUS_NV_BUSY : Field := ⟨1, 1⟩
abbrev COX_REG_STATUS_LOWERS : Field := ⟨16, 16⟩
abbrev COX_REG_GLOBAL_DUTY_CEIL : Field := ⟨0, 9⟩
abbrev COX_REG_GLOBAL_GT_FLOOR : Field := ⟨16, 8⟩
abbrev COX_REG_GLOBAL_ACTIVE_OK : Field := ⟨24, 1⟩
abbrev COX_REG_TRIM_TRIM_MIN : Field := ⟨0, 15⟩
abbrev COX_REG_TRIM_TRIM_MAX : Field := ⟨16, 15⟩
abbrev COX_REG_CEIL_DRIVE_CEIL : Field := ⟨0, 10⟩
abbrev SIL_CTRL_MIN_NOTE : Field := ⟨0, 2⟩
abbrev SIL_CTRL_SPILL_EN : Field := ⟨2, 1⟩
abbrev SIL_CTRL_SPILL_MIN : Field := ⟨4, 2⟩
abbrev SIL_CTRL_SPILL_FLUSH : Field := ⟨8, 8⟩
abbrev SIL_CTRL_FREEZE_MAX : Field := ⟨16, 8⟩
abbrev SIL_FREEZE_FREEZE : Field := ⟨0, 1⟩
abbrev SIL_FREEZE_EXPIRED : Field := ⟨1, 1⟩
abbrev SIL_FREEZE_HELD : Field := ⟨8, 7⟩
abbrev SIL_STATUS_VALID : Field := ⟨0, 15⟩
abbrev SIL_STATUS_RING_STOPPED : Field := ⟨15, 1⟩
abbrev SIL_STATUS_LAST_LINE : Field := ⟨16, 14⟩
abbrev SIL_STATUS_READY : Field := ⟨30, 1⟩
abbrev SIL_NOTES_BASE : Field := ⟨0, 15⟩
abbrev SIL_NOTES_HEART : Field := ⟨16, 15⟩
abbrev SIL_DROPS_HEART : Field := ⟨0, 16⟩
abbrev SIL_DROPS_TOP : Field := ⟨16, 16⟩
abbrev SIL_HOLD_DROPS_HEART : Field := ⟨0, 16⟩
abbrev SIL_HOLD_DROPS_TOP : Field := ⟨16, 16⟩
abbrev SIL_RETIRE_RETIRED : Field := ⟨0, 15⟩
abbrev SIL_SPILL_STATUS_SPILL_LOST : Field := ⟨0, 16⟩
abbrev SIL_SPILL_STATUS_STAGED : Field := ⟨16, 7⟩
abbrev SIL_SPILL_STATUS_WAIT_HEAD : Field := ⟨23, 1⟩
abbrev SIL_VAULT_STATUS_USED : Field := ⟨0, 4⟩
abbrev SIL_VAULT_STATUS_PRIOR : Field := ⟨8, 8⟩
abbrev SIL_VAULT_STATUS_OVERWRITES : Field := ⟨16, 16⟩
abbrev SIL_TRG_MATCH_CODE : Field := ⟨0, 16⟩
abbrev SIL_TRG_MATCH_MASK : Field := ⟨16, 16⟩
abbrev SIL_TRG_CTRL_EN : Field := ⟨0, 1⟩
abbrev SIL_TRG_CTRL_RECORD : Field := ⟨1, 2⟩
abbrev SIL_TRG_CTRL_COUNT : Field := ⟨4, 4⟩
abbrev SIL_TRG_ADDR_ADDR : Field := ⟨0, 24⟩
abbrev TMR_WALL_STATUS_KNOWN : Field := ⟨0, 1⟩
abbrev TMR_WALL_STATUS_SETS : Field := ⟨16, 16⟩
abbrev TMR_SLOW_RATE_RATE : Field := ⟨0, 14⟩
abbrev TMR_SLOW_RATE_RATE_AUTO : Field := ⟨16, 1⟩
abbrev TMR_SLEEP_LAST_N : Field := ⟨0, 24⟩
abbrev TMR_DT_FRAC_F : Field := ⟨0, 14⟩
abbrev TMR_GROUP_START : Field := ⟨0, 8⟩
abbrev TMR_GROUP_STOP : Field := ⟨8, 8⟩
abbrev TMR_TRIG_STATUS_SUPPRESSED : Field := ⟨0, 16⟩
abbrev TMR_TRIG_STATUS_ISSUED : Field := ⟨16, 16⟩
abbrev TMR_T_CTRL_EN : Field := ⟨0, 1⟩
abbrev TMR_T_CTRL_CAPT_EDGE : Field := ⟨4, 2⟩
abbrev TMR_T_CTRL_CAPT_SRC : Field := ⟨6, 6⟩
abbrev TMR_T_CTRL_EVT_CMP0 : Field := ⟨12, 1⟩
abbrev TMR_T_CTRL_EVT_CMP1 : Field := ⟨13, 1⟩
abbrev TMR_T_CTRL_EVT_WRAP : Field := ⟨14, 1⟩
abbrev TMR_T_CTRL_PRESC : Field := ⟨16, 16⟩
abbrev TMR_T_STATUS_HIT0 : Field := ⟨0, 1⟩
abbrev TMR_T_STATUS_HIT1 : Field := ⟨1, 1⟩
abbrev TMR_T_STATUS_WRAP : Field := ⟨2, 1⟩
abbrev TMR_T_STATUS_CAPT_NEW : Field := ⟨3, 1⟩
abbrev TMR_T_STATUS_CAPT_OVR : Field := ⟨4, 1⟩
abbrev TMR_T_STATUS_RUNNING : Field := ⟨5, 1⟩
abbrev TMR_T_XTRIG_SRC : Field := ⟨0, 2⟩
abbrev TMR_T_XTRIG_XEN : Field := ⟨3, 1⟩
abbrev TMR_T_XTRIG_ACTION : Field := ⟨4, 3⟩
abbrev TMR_T_XTRIG_TARGET : Field := ⟨8, 4⟩
abbrev TMR_T_XTRIG_STEP : Field := ⟨12, 3⟩
abbrev TMR_T_XSTO_PAGE : Field := ⟨0, 19⟩
abbrev TMR_T_XSTO_REGION : Field := ⟨20, 2⟩
abbrev TMR_T_XSTO_BUF : Field := ⟨24, 1⟩
abbrev TMR_T_XSTO_OP : Field := ⟨28, 3⟩
abbrev QUE_EVQ_CTRL_AGE_LIMIT : Field := ⟨0, 12⟩
abbrev QUE_EVQ_CTRL_MIN_NOTE : Field := ⟨12, 2⟩
abbrev QUE_EVQ_CTRL_EVQ_EN : Field := ⟨16, 1⟩
abbrev QUE_EVQ_MAP_CLASS_EN : Field := ⟨0, 16⟩
abbrev QUE_EVQ_MAP_LOW_CLASS : Field := ⟨16, 16⟩
abbrev QUE_EVQ_STATUS_LEVEL : Field := ⟨0, 11⟩
abbrev QUE_EVQ_STATUS_LEVEL_ABOVE : Field := ⟨11, 1⟩
abbrev QUE_EVQ_STATUS_WM_HIT : Field := ⟨12, 1⟩
abbrev QUE_EVQ_STATUS_OVF : Field := ⟨13, 1⟩
abbrev QUE_EVQ_STATUS_WM_COUNT : Field := ⟨16, 8⟩
abbrev QUE_EVQ_STATUS_INTAKE : Field := ⟨24, 5⟩
abbrev QUE_EVQ_WM_WM : Field := ⟨0, 10⟩
abbrev QUE_EVQ_WM_DIR : Field := ⟨16, 1⟩
abbrev QUE_EVQ_LOST_P0 : Field := ⟨0, 8⟩
abbrev QUE_EVQ_LOST_P1 : Field := ⟨8, 8⟩
abbrev QUE_EVQ_LOST_P2 : Field := ⟨16, 8⟩
abbrev QUE_EVQ_LOST_P3 : Field := ⟨24, 8⟩
abbrev QUE_EVQ_PROMOTED_PROMOTED : Field := ⟨0, 16⟩
abbrev QUE_EVQ_TAG_POISON0 : Field := ⟨0, 1⟩
abbrev QUE_EVQ_TAG_POISON1 : Field := ⟨1, 1⟩
abbrev QUE_POISONS_COUNT : Field := ⟨0, 16⟩
abbrev QUE_P_RX_TAG_POISON : Field := ⟨0, 1⟩
abbrev QUE_P_TX_WM_WM : Field := ⟨0, 11⟩
abbrev QUE_P_TX_WM_DIR : Field := ⟨16, 1⟩
abbrev QUE_P_RX_WM_WM : Field := ⟨0, 11⟩
abbrev QUE_P_RX_WM_DIR : Field := ⟨16, 1⟩
abbrev QUE_P_WM_STATUS_TX_ABOVE : Field := ⟨0, 1⟩
abbrev QUE_P_WM_STATUS_TX_WM_HIT : Field := ⟨1, 1⟩
abbrev QUE_P_WM_STATUS_RX_ABOVE : Field := ⟨2, 1⟩
abbrev QUE_P_WM_STATUS_RX_WM_HIT : Field := ⟨3, 1⟩
abbrev QUE_P_WM_STATUS_UNDERRUN : Field := ⟨4, 1⟩
abbrev QUE_P_WM_STATUS_TX_WM_COUNT : Field := ⟨8, 8⟩
abbrev QUE_P_WM_STATUS_RX_WM_COUNT : Field := ⟨16, 8⟩
abbrev QUE_P_CMD_FLUSH_RX : Field := ⟨0, 1⟩
abbrev QUE_P_COUNTS_POISONS : Field := ⟨0, 16⟩
abbrev QUE_P_COUNTS_UNDERRUNS : Field := ⟨16, 16⟩
abbrev CRC_CH_CFG_WIDTH : Field := ⟨0, 6⟩
abbrev CRC_CH_CFG_REFIN : Field := ⟨8, 1⟩
abbrev CRC_CH_CFG_REFOUT : Field := ⟨9, 1⟩
abbrev CRC_CH_CFG_FOLD_MODE : Field := ⟨12, 2⟩
abbrev CRC_CH_CMD_START : Field := ⟨0, 1⟩
abbrev CRC_CH_CMD_RANGE_GO : Field := ⟨1, 1⟩
abbrev CRC_CH_STATUS_BUSY : Field := ⟨0, 1⟩
abbrev CRC_CH_STATUS_MATCH : Field := ⟨1, 1⟩
abbrev CRC_CH_STATUS_POISON : Field := ⟨2, 1⟩
abbrev CRC_CH_STATUS_BYTES : Field := ⟨8, 24⟩
abbrev CFG_BOOT_STATUS_SLOT : Field := ⟨0, 1⟩
abbrev CFG_BOOT_STATUS_SAFE_BOOT : Field := ⟨1, 1⟩
abbrev CFG_BOOT_STATUS_FALLBACK : Field := ⟨2, 1⟩
abbrev CFG_BOOT_STATUS_ROLLED : Field := ⟨3, 1⟩
abbrev CFG_BOOT_STATUS_REASON_A : Field := ⟨8, 4⟩
abbrev CFG_BOOT_STATUS_REASON_B : Field := ⟨12, 4⟩
abbrev CFG_BOOT_TIME_US : Field := ⟨0, 16⟩
abbrev CFG_BOOT_TIME_REFUSED : Field := ⟨16, 16⟩
abbrev CFG_KEY_STATUS_KEY_GEN : Field := ⟨0, 16⟩
abbrev CFG_KEY_STATUS_BLANK : Field := ⟨16, 1⟩
abbrev CFG_KEY_STATUS_NV_FAIL : Field := ⟨17, 1⟩
abbrev CFG_AUTH_STATUS_RESULT : Field := ⟨0, 4⟩
abbrev CFG_AUTH_STATUS_BUSY : Field := ⟨4, 1⟩
abbrev CFG_AUTH_STATUS_OPCODE : Field := ⟨8, 8⟩
abbrev CFG_AUTH_STATUS_ACCEPTED : Field := ⟨16, 16⟩
abbrev CFG_AUTH_FAILS_COUNT : Field := ⟨0, 16⟩
abbrev CFG_BOOT_CMD_OP : Field := ⟨0, 2⟩
abbrev CFG_BOOT_BSTATUS_BUSY : Field := ⟨0, 1⟩
abbrev CFG_BOOT_BSTATUS_DONE : Field := ⟨1, 1⟩
abbrev CFG_BOOT_BSTATUS_RESULT : Field := ⟨2, 4⟩
abbrev GEN_IRQ_STATUS_EVQ : Field := ⟨0, 1⟩
abbrev GEN_IRQ_STATUS_RXQ : Field := ⟨1, 1⟩
abbrev GEN_IRQ_STATUS_TXQ : Field := ⟨2, 1⟩
abbrev GEN_IRQ_STATUS_TMR : Field := ⟨3, 1⟩
abbrev GEN_IRQ_STATUS_STO : Field := ⟨4, 1⟩
abbrev GEN_IRQ_STATUS_BOOT : Field := ⟨5, 1⟩
abbrev GEN_IRQ_STATUS_HIF : Field := ⟨6, 1⟩
abbrev GEN_IRQ_STATUS_SIL : Field := ⟨7, 1⟩
abbrev GEN_IRQ_STATUS_PHASE : Field := ⟨8, 1⟩
abbrev GEN_IRQ_STATUS_AUTH : Field := ⟨9, 1⟩
abbrev GEN_IRQ_STATUS_SAFE : Field := ⟨10, 1⟩
abbrev GEN_IRQ_ENABLE_EN : Field := ⟨0, 11⟩
abbrev GEN_STATUS_STO_READY : Field := ⟨0, 1⟩
abbrev GEN_STATUS_SIL_READY : Field := ⟨1, 1⟩
abbrev GEN_STATUS_WALL_KNOWN : Field := ⟨2, 1⟩
abbrev GEN_STATUS_SEALED : Field := ⟨3, 1⟩
abbrev GEN_STATUS_KEY_BLANK : Field := ⟨4, 1⟩
abbrev GEN_STATUS_ROSTER_EMPTY : Field := ⟨5, 1⟩
abbrev GEN_STATUS_FAULT_OUT : Field := ⟨6, 1⟩
abbrev HIF_CFG_DUMMY : Field := ⟨0, 4⟩
abbrev HIF_CFG_IRQ_OD : Field := ⟨4, 1⟩
abbrev HIF_CFG_REEDGE : Field := ⟨5, 1⟩
abbrev HIF_STATUS_STALL : Field := ⟨0, 1⟩
abbrev HIF_STATUS_CS_EARLY : Field := ⟨1, 1⟩
abbrev HIF_STATUS_BADCMD : Field := ⟨2, 1⟩
abbrev HIF_STATUS_PARTIAL : Field := ⟨3, 1⟩
abbrev HIF_ERR_COUNTS_STALLS : Field := ⟨0, 8⟩
abbrev HIF_ERR_COUNTS_CS_EARLYS : Field := ⟨8, 8⟩
abbrev HIF_ERR_COUNTS_BADCMDS : Field := ⟨16, 8⟩
abbrev HIF_ERR_COUNTS_PARTIALS : Field := ⟨24, 8⟩
abbrev HIF_LAST_ERR_OPCODE : Field := ⟨0, 8⟩
abbrev HIF_LAST_ERR_ADDRESS : Field := ⟨8, 24⟩
abbrev TRC_TRACE_CTRL_EN : Field := ⟨0, 1⟩
abbrev TRC_TRACE_CTRL_EVENT_EN : Field := ⟨1, 1⟩
abbrev TRC_TRACE_CTRL_DEC_EN : Field := ⟨2, 1⟩
abbrev TRC_TRACE_CTRL_STATE_EN : Field := ⟨3, 1⟩
abbrev TRC_TRACE_CTRL_LEVEL_EN : Field := ⟨4, 1⟩
abbrev TRC_TRACE_CTRL_MIN_NOTE : Field := ⟨5, 2⟩
abbrev TRC_TRACE_CTRL_SYNC_MS : Field := ⟨8, 8⟩
abbrev TRC_TRACE_CTRL_LEVEL : Field := ⟨16, 10⟩
abbrev TRC_TRACE_SEL_CLASS_EN : Field := ⟨0, 16⟩
abbrev TRC_TRACE_SEL_KIND_EN : Field := ⟨16, 6⟩
abbrev TRC_TRACE_STATUS_SEQ : Field := ⟨0, 4⟩
abbrev TRC_TRACE_STATUS_FILL : Field := ⟨4, 9⟩
abbrev TRC_TRACE_STATUS_LOST : Field := ⟨16, 16⟩
abbrev TRC_CNT_CMD_SNAP : Field := ⟨0, 1⟩
abbrev TRC_CNT_CMD_RELEASE : Field := ⟨1, 1⟩
abbrev TRC_CNT_CMD_CLEAR : Field := ⟨2, 1⟩
abbrev TRC_CNT_STATUS_SNAP_VALID : Field := ⟨0, 1⟩
abbrev PWR_STATE_CUR : Field := ⟨0, 3⟩
abbrev PWR_STATE_PENDING : Field := ⟨4, 2⟩
abbrev PWR_STATE_BLOCK : Field := ⟨8, 9⟩
abbrev PWR_CMD_REQ : Field := ⟨0, 2⟩
abbrev PWR_AUTO_AUTO_EN : Field := ⟨0, 1⟩
abbrev PWR_AUTO_ALLOW_SLEEP : Field := ⟨1, 1⟩
abbrev PWR_AUTO_IDLE_MS : Field := ⟨8, 8⟩
abbrev PWR_WAKE_SNIFF_EN : Field := ⟨0, 1⟩
abbrev PWR_WAKE_HOST_EN : Field := ⟨1, 1⟩
abbrev PWR_WAKE_TIMER_EN : Field := ⟨2, 1⟩
abbrev PWR_WAKE_TIMER_MS : Field := ⟨16, 16⟩
abbrev PWR_WAKE_STATUS_SNIFF : Field := ⟨0, 1⟩
abbrev PWR_WAKE_STATUS_HOST : Field := ⟨1, 1⟩
abbrev PWR_WAKE_STATUS_TIMER : Field := ⟨2, 1⟩
abbrev PWR_WAKE_STATUS_WAKES : Field := ⟨16, 16⟩
abbrev PWR_CLK_SLOW_SRC : Field := ⟨0, 1⟩
abbrev PWR_CLK_SYN_IDLE_MS : Field := ⟨8, 8⟩
abbrev PWR_CLK_STATUS_XO_OK : Field := ⟨0, 1⟩
abbrev PWR_CLK_STATUS_XO_LOW : Field := ⟨1, 1⟩
abbrev PWR_CLK_STATUS_CPLL_LOCK : Field := ⟨2, 1⟩
abbrev PWR_CLK_STATUS_SPLL_LOCK : Field := ⟨3, 1⟩
abbrev PWR_CLK_STATUS_SYN_RUN : Field := ⟨4, 1⟩
abbrev PWR_CLK_STATUS_SLOW_XTAL : Field := ⟨5, 1⟩
abbrev PWR_CLK_STATUS_SLOW_FAIL : Field := ⟨8, 1⟩
abbrev PWR_THERM_BUDGET : Field := ⟨0, 7⟩
abbrev PWR_THERM_HYST : Field := ⟨8, 4⟩
abbrev PWR_THERM_TJ_LIM : Field := ⟨16, 8⟩
abbrev PWR_THERM_STATUS_LIMIT : Field := ⟨0, 10⟩
abbrev PWR_THERM_STATUS_TJ : Field := ⟨16, 8⟩
abbrev PWR_THERM_STATUS_LIMITING : Field := ⟨24, 1⟩
abbrev PWR_THERM_STATUS_LIMITED : Field := ⟨25, 1⟩
abbrev PWR_THERM_DISS_P0 : Field := ⟨0, 8⟩
abbrev PWR_THERM_DISS_P1 : Field := ⟨8, 8⟩
abbrev PWR_THERM_DISS_P2 : Field := ⟨16, 8⟩
abbrev PWR_THERM_DISS_P3 : Field := ⟨24, 8⟩
abbrev PWR_SUPPLY_VDDTX_OK : Field := ⟨0, 4⟩
abbrev PWR_SUPPLY_VDDTX_LOW : Field := ⟨4, 4⟩
abbrev PWR_RESET_CAUSE_CAUSE : Field := ⟨0, 5⟩
abbrev PWR_RESET_CAUSE_RESETS : Field := ⟨16, 16⟩
abbrev PWR_RESET_CMD_KEY : Field := ⟨0, 16⟩
/-- `BLOCK.LOCK` (R43). -/
abbrev LOCK : Field := ⟨0, 1⟩
/-- `BLOCK.PROFILE` (R43). -/
abbrev PROFILE_SEL : Field := ⟨0, 8⟩
abbrev PROFILE_ACTIVE : Field := ⟨8, 8⟩
abbrev PROFILE_COUNT : Field := ⟨16, 8⟩
/-- `BLOCK.EXPERT` (R43). -/
abbrev EXPERT_EN : Field := ⟨0, 1⟩
abbrev EXPERT_CLAMPED : Field := ⟨1, 1⟩
/-- A whole 32-bit register. -/
abbrev WORD : Field := ⟨0, 32⟩

end Fld

/-! ### The rows, block by block (R25) -/

/-- Registers of GEN. -/
def rowsGEN : List RegRow := [
  ⟨0x10, 1, 0x4, 1, 0x4, 0x0, false, [⟨⟨0, 3⟩, .ro, 0, 0xFFFFFFFF⟩, ⟨⟨3, 1⟩, .ro, 0, 0xFFFFFFFF⟩, ⟨⟨8, 4⟩, .ro, 0, 0xFFFFFFFF⟩]⟩,
  ⟨0x14, 1, 0x4, 1, 0x4, 0x1400, false, [⟨⟨0, 3⟩, .wo, 0, 0xFFFFFFFF⟩, ⟨⟨8, 8⟩, .rwL, 1, 255⟩]⟩,
  ⟨0x28, 1, 0x4, 1, 0x4, 0x0, false, [⟨⟨0, 1⟩, .rw, 0, 0xFFFFFFFF⟩, ⟨⟨1, 1⟩, .rw, 0, 0xFFFFFFFF⟩, ⟨⟨2, 1⟩, .rw, 0, 0xFFFFFFFF⟩]⟩,
  ⟨0x2C, 1, 0x4, 1, 0x4, 0x0, false, [⟨⟨0, 16⟩, .rw, 0, 0xFFFFFFFF⟩, ⟨⟨16, 16⟩, .rw, 0, 0xFFFFFFFF⟩]⟩,
  ⟨0x0, 1, 0x4, 1, 0x4, 0x168000B1, false, [⟨⟨0, 32⟩, .ro, 0, 0xFFFFFFFF⟩]⟩,
  ⟨0x4, 1, 0x4, 1, 0x4, 0x0, false, [⟨⟨0, 1⟩, .w1s, 0, 0xFFFFFFFF⟩]⟩,
  ⟨0x18, 1, 0x4, 1, 0x4, 0x0, false, [⟨⟨0, 1⟩, .ro, 0, 0xFFFFFFFF⟩, ⟨⟨1, 1⟩, .ro, 0, 0xFFFFFFFF⟩, ⟨⟨2, 1⟩, .ro, 0, 0xFFFFFFFF⟩, ⟨⟨3, 1⟩, .ro, 0, 0xFFFFFFFF⟩, ⟨⟨4, 1⟩, .ro, 0, 0xFFFFFFFF⟩, ⟨⟨5, 1⟩, .ro, 0, 0xFFFFFFFF⟩, ⟨⟨6, 1⟩, .ro, 0, 0xFFFFFFFF⟩, ⟨⟨7, 1⟩, .ro, 0, 0xFFFFFFFF⟩, ⟨⟨8, 1⟩, .w1c, 0, 0xFFFFFFFF⟩, ⟨⟨9, 1⟩, .w1c, 0, 0xFFFFFFFF⟩, ⟨⟨10, 1⟩, .ro, 0, 0xFFFFFFFF⟩]⟩,
  ⟨0x1C, 1, 0x4, 1, 0x4, 0x0, false, [⟨⟨0, 11⟩, .rw, 0, 0xFFFFFFFF⟩]⟩,
  ⟨0x20, 1, 0x4, 1, 0x4, 0x0, false, [⟨⟨0, 1⟩, .ro, 0, 0xFFFFFFFF⟩, ⟨⟨1, 1⟩, .ro, 0, 0xFFFFFFFF⟩, ⟨⟨2, 1⟩, .ro, 0, 0xFFFFFFFF⟩, ⟨⟨3, 1⟩, .ro, 0, 0xFFFFFFFF⟩, ⟨⟨4, 1⟩, .ro, 0, 0xFFFFFFFF⟩, ⟨⟨5, 1⟩, .ro, 0, 0xFFFFFFFF⟩, ⟨⟨6, 1⟩, .ro, 0, 0xFFFFFFFF⟩]⟩,
  ⟨0x24, 1, 0x4, 1, 0x4, 0x0, false, [⟨⟨0, 32⟩, .rw, 0, 0xFFFFFFFF⟩]⟩]

/-- Registers of PWR. -/
def rowsPWR : List RegRow := [
  ⟨0x10004, 1, 0x4, 1, 0x4, 0x0, false, [⟨⟨0, 1⟩, .w1s, 0, 0xFFFFFFFF⟩]⟩,
  ⟨0x10008, 1, 0x4, 1, 0x4, 0x0, false, [⟨⟨0, 8⟩, .rw, 0, 0xFFFFFFFF⟩, ⟨⟨8, 8⟩, .ro, 0, 0xFFFFFFFF⟩, ⟨⟨16, 8⟩, .ro, 0, 0xFFFFFFFF⟩]⟩,
  ⟨0x1000C, 1, 0x4, 1, 0x4, 0x0, false, [⟨⟨0, 1⟩, .rw, 0, 0xFFFFFFFF⟩, ⟨⟨1, 1⟩, .w1c, 0, 0xFFFFFFFF⟩]⟩,
  ⟨0x10010, 1, 0x4, 1, 0x4, 0x3, false, [⟨⟨0, 3⟩, .ro, 0, 0xFFFFFFFF⟩, ⟨⟨4, 2⟩, .ro, 0, 0xFFFFFFFF⟩, ⟨⟨8, 9⟩, .ro, 0, 0xFFFFFFFF⟩]⟩,
  ⟨0x10014, 1, 0x4, 1, 0x4, 0x0, false, [⟨⟨0, 2⟩, .wo, 0, 0xFFFFFFFF⟩]⟩,
  ⟨0x10018, 1, 0x4, 1, 0x4, 0x6400, true, [⟨⟨0, 1⟩, .rw, 0, 0xFFFFFFFF⟩, ⟨⟨1, 1⟩, .rw, 0, 0xFFFFFFFF⟩, ⟨⟨8, 8⟩, .rw, 1, 255⟩]⟩,
  ⟨0x1001C, 1, 0x4, 1, 0x4, 0x3E80003, true, [⟨⟨0, 1⟩, .rw, 0, 0xFFFFFFFF⟩, ⟨⟨1, 1⟩, .rw, 0, 0xFFFFFFFF⟩, ⟨⟨2, 1⟩, .rw, 0, 0xFFFFFFFF⟩, ⟨⟨16, 16⟩, .rw, 1, 65535⟩]⟩,
  ⟨0x10020, 1, 0x4, 1, 0x4, 0x0, false, [⟨⟨0, 1⟩, .w1c, 0, 0xFFFFFFFF⟩, ⟨⟨1, 1⟩, .w1c, 0, 0xFFFFFFFF⟩, ⟨⟨2, 1⟩, .w1c, 0, 0xFFFFFFFF⟩, ⟨⟨16, 16⟩, .ro, 0, 0xFFFFFFFF⟩]⟩,
  ⟨0x10024, 1, 0x4, 1, 0x4, 0x0, false, [⟨⟨0, 1⟩, .rwL, 0, 0xFFFFFFFF⟩, ⟨⟨8, 8⟩, .rwL, 0, 0xFFFFFFFF⟩]⟩,
  ⟨0x10028, 1, 0x4, 1, 0x4, 0x0, false, [⟨⟨0, 1⟩, .ro, 0, 0xFFFFFFFF⟩, ⟨⟨1, 1⟩, .ro, 0, 0xFFFFFFFF⟩, ⟨⟨2, 1⟩, .ro, 0, 0xFFFFFFFF⟩, ⟨⟨3, 1⟩, .ro, 0, 0xFFFFFFFF⟩, ⟨⟨4, 1⟩, .ro, 0, 0xFFFFFFFF⟩, ⟨⟨5, 1⟩, .ro, 0, 0xFFFFFFFF⟩, ⟨⟨8, 1⟩, .w1c, 0, 0xFFFFFFFF⟩]⟩,
  ⟨0x10030, 1, 0x4, 1, 0x4, 0x73053C, false, [⟨⟨0, 7⟩, .rwL, 10, 60⟩, ⟨⟨8, 4⟩, .rwL, 1, 15⟩, ⟨⟨16, 8⟩, .rwL, 85, 125⟩]⟩,
  ⟨0x10034, 1, 0x4, 1, 0x4, 0x3FF, false, [⟨⟨0, 10⟩, .ro, 0, 0xFFFFFFFF⟩, ⟨⟨16, 8⟩, .ro, 0, 0xFFFFFFFF⟩, ⟨⟨24, 1⟩, .ro, 0, 0xFFFFFFFF⟩, ⟨⟨25, 1⟩, .w1c, 0, 0xFFFFFFFF⟩]⟩,
  ⟨0x10038, 1, 0x4, 1, 0x4, 0x0, false, [⟨⟨0, 8⟩, .ro, 0, 0xFFFFFFFF⟩, ⟨⟨8, 8⟩, .ro, 0, 0xFFFFFFFF⟩, ⟨⟨16, 8⟩, .ro, 0, 0xFFFFFFFF⟩, ⟨⟨24, 8⟩, .ro, 0, 0xFFFFFFFF⟩]⟩,
  ⟨0x1003C, 1, 0x4, 1, 0x4, 0x0, false, [⟨⟨0, 4⟩, .ro, 0, 0xFFFFFFFF⟩, ⟨⟨4, 4⟩, .w1c, 0, 0xFFFFFFFF⟩]⟩,
  ⟨0x10040, 1, 0x4, 1, 0x4, 0x10001, false, [⟨⟨0, 5⟩, .ro, 0, 0xFFFFFFFF⟩, ⟨⟨16, 16⟩, .ro, 0, 0xFFFFFFFF⟩]⟩,
  ⟨0x10044, 1, 0x4, 1, 0x4, 0x0, false, [⟨⟨0, 16⟩, .wo, 0, 0xFFFFFFFF⟩]⟩]

/-- Registers of FLD. -/
def rowsFLD : List RegRow := [
  ⟨0x20004, 1, 0x4, 1, 0x4, 0x0, false, [⟨⟨0, 1⟩, .w1s, 0, 0xFFFFFFFF⟩]⟩,
  ⟨0x20008, 1, 0x4, 1, 0x4, 0x0, false, [⟨⟨0, 8⟩, .rw, 0, 0xFFFFFFFF⟩, ⟨⟨8, 8⟩, .ro, 0, 0xFFFFFFFF⟩, ⟨⟨16, 8⟩, .ro, 0, 0xFFFFFFFF⟩]⟩,
  ⟨0x2000C, 1, 0x4, 1, 0x4, 0x0, false, [⟨⟨0, 1⟩, .rw, 0, 0xFFFFFFFF⟩, ⟨⟨1, 1⟩, .w1c, 0, 0xFFFFFFFF⟩]⟩,
  ⟨0x20010, 1, 0x4, 1, 0x4, 0x0, false, [⟨⟨0, 15⟩, .rwL, 0, 0xFFFFFFFF⟩]⟩,
  ⟨0x20014, 1, 0x4, 1, 0x4, 0x0, false, [⟨⟨0, 1⟩, .ro, 0, 0xFFFFFFFF⟩, ⟨⟨1, 1⟩, .ro, 0, 0xFFFFFFFF⟩, ⟨⟨2, 1⟩, .w1c, 0, 0xFFFFFFFF⟩, ⟨⟨16, 15⟩, .ro, 0, 0xFFFFFFFF⟩]⟩,
  ⟨0x20020, 1, 0x4, 1, 0x4, 0x4041000, true, [⟨⟨0, 1⟩, .rwL, 0, 0xFFFFFFFF⟩, ⟨⟨8, 7⟩, .rwL, 2, 64⟩, ⟨⟨16, 4⟩, .rwL, 1, 8⟩, ⟨⟨24, 5⟩, .rwL, 1, 16⟩]⟩,
  ⟨0x20024, 1, 0x4, 1, 0x4, 0x3232, true, [⟨⟨0, 8⟩, .rwL, 10, 200⟩, ⟨⟨8, 8⟩, .rwL, 50, 150⟩]⟩,
  ⟨0x20028, 1, 0x4, 1, 0x4, 0x3214, true, [⟨⟨0, 8⟩, .rwL, 1, 255⟩, ⟨⟨8, 8⟩, .rwL, 20, 80⟩]⟩,
  ⟨0x2002C, 1, 0x4, 1, 0x4, 0x10100, true, [⟨⟨0, 9⟩, .ro, 0, 0xFFFFFFFF⟩, ⟨⟨16, 1⟩, .rwL, 0, 0xFFFFFFFF⟩]⟩,
  ⟨0x20030, 1, 0x4, 1, 0x4, 0x0, false, [⟨⟨0, 14⟩, .ro, 0, 0xFFFFFFFF⟩, ⟨⟨16, 5⟩, .ro, 0, 0xFFFFFFFF⟩, ⟨⟨24, 1⟩, .w1c, 0, 0xFFFFFFFF⟩]⟩,
  ⟨0x20040, 1, 0x4, 1, 0x4, 0x3F3C0A, true, [⟨⟨0, 8⟩, .rwL, 1, 255⟩, ⟨⟨8, 8⟩, .rwL, 1, 255⟩, ⟨⟨16, 6⟩, .rwL, 0, 0xFFFFFFFF⟩]⟩,
  ⟨0x20044, 1, 0x4, 1, 0x4, 0x0, false, [⟨⟨0, 16⟩, .ro, 0, 0xFFFFFFFF⟩, ⟨⟨16, 16⟩, .w1c, 0, 0xFFFFFFFF⟩]⟩,
  ⟨0x20050, 4, 0x4, 1, 0x4, 0x0, false, [⟨⟨0, 16⟩, .ro, 0, 0xFFFFFFFF⟩, ⟨⟨16, 1⟩, .ro, 0, 0xFFFFFFFF⟩, ⟨⟨17, 1⟩, .ro, 0, 0xFFFFFFFF⟩]⟩,
  ⟨0x20800, 256, 0x4, 1, 0x4, 0x0, false, [⟨⟨0, 16⟩, .ro, 0, 0xFFFFFFFF⟩, ⟨⟨16, 16⟩, .ro, 0, 0xFFFFFFFF⟩]⟩,
  ⟨0x21000, 16, 0x400, 1, 0x4, 0x0, false, [⟨⟨0, 8⟩, .rw, 0, 0xFFFFFFFF⟩, ⟨⟨8, 8⟩, .ro, 0, 0xFFFFFFFF⟩, ⟨⟨16, 8⟩, .ro, 0, 0xFFFFFFFF⟩]⟩,
  ⟨0x21004, 16, 0x400, 1, 0x4, 0x0, false, [⟨⟨0, 1⟩, .rw, 0, 0xFFFFFFFF⟩, ⟨⟨1, 1⟩, .w1c, 0, 0xFFFFFFFF⟩]⟩,
  ⟨0x21008, 16, 0x400, 1, 0x4, 0x0, true, [⟨⟨0, 2⟩, .rw, 0, 2⟩, ⟨⟨4, 1⟩, .wo, 0, 0xFFFFFFFF⟩]⟩,
  ⟨0x2100C, 16, 0x400, 1, 0x4, 0x0, false, [⟨⟨0, 3⟩, .ro, 0, 0xFFFFFFFF⟩, ⟨⟨4, 1⟩, .ro, 0, 0xFFFFFFFF⟩, ⟨⟨5, 1⟩, .ro, 0, 0xFFFFFFFF⟩, ⟨⟨6, 1⟩, .ro, 0, 0xFFFFFFFF⟩, ⟨⟨7, 1⟩, .ro, 0, 0xFFFFFFFF⟩, ⟨⟨8, 1⟩, .ro, 0, 0xFFFFFFFF⟩, ⟨⟨9, 1⟩, .ro, 0, 0xFFFFFFFF⟩, ⟨⟨10, 1⟩, .ro, 0, 0xFFFFFFFF⟩, ⟨⟨16, 16⟩, .ro, 0, 0xFFFFFFFF⟩]⟩,
  ⟨0x21010, 16, 0x400, 1, 0x4, 0x0, true, [⟨⟨0, 10⟩, .rw, 0, 0xFFFFFFFF⟩]⟩,
  ⟨0x21014, 16, 0x400, 1, 0x4, 0x0, true, [⟨⟨0, 10⟩, .rw, 0, 0xFFFFFFFF⟩, ⟨⟨16, 10⟩, .ro, 0, 0xFFFFFFFF⟩]⟩,
  ⟨0x21018, 16, 0x400, 1, 0x4, 0x0, false, [⟨⟨0, 1⟩, .rw, 0, 0xFFFFFFFF⟩, ⟨⟨4, 2⟩, .rw, 0, 0xFFFFFFFF⟩]⟩,
  ⟨0x2101C, 16, 0x400, 1, 0x4, 0x0, false, [⟨⟨0, 16⟩, .ro, 0, 0xFFFFFFFF⟩, ⟨⟨16, 16⟩, .ro, 0, 0xFFFFFFFF⟩]⟩,
  ⟨0x21020, 16, 0x400, 1, 0x4, 0x0, false, [⟨⟨0, 16⟩, .rwL, 0, 0xFFFFFFFF⟩]⟩,
  ⟨0x22024, 12, 0x400, 1, 0x4, 0xA, true, [⟨⟨0, 8⟩, .rw, 1, 255⟩, ⟨⟨16, 10⟩, .rw, 0, 0xFFFFFFFF⟩]⟩,
  ⟨0x21028, 16, 0x400, 1, 0x4, 0x0, false, [⟨⟨0, 8⟩, .ro, 0, 0xFFFFFFFF⟩, ⟨⟨8, 1⟩, .ro, 0, 0xFFFFFFFF⟩, ⟨⟨16, 1⟩, .w1c, 0, 0xFFFFFFFF⟩]⟩]

/-- Registers of RXE. -/
def rowsRXE : List RegRow := [
  ⟨0x30004, 1, 0x4, 1, 0x4, 0x0, false, [⟨⟨0, 1⟩, .w1s, 0, 0xFFFFFFFF⟩]⟩,
  ⟨0x30008, 1, 0x4, 1, 0x4, 0x0, false, [⟨⟨0, 8⟩, .rw, 0, 0xFFFFFFFF⟩, ⟨⟨8, 8⟩, .ro, 0, 0xFFFFFFFF⟩, ⟨⟨16, 8⟩, .ro, 0, 0xFFFFFFFF⟩]⟩,
  ⟨0x3000C, 1, 0x4, 1, 0x4, 0x0, false, [⟨⟨0, 1⟩, .rw, 0, 0xFFFFFFFF⟩, ⟨⟨1, 1⟩, .w1c, 0, 0xFFFFFFFF⟩]⟩,
  ⟨0x30010, 1, 0x4, 1, 0x4, 0x0, false, [⟨⟨0, 16⟩, .ro, 0, 0xFFFFFFFF⟩, ⟨⟨16, 16⟩, .ro, 0, 0xFFFFFFFF⟩]⟩,
  ⟨0x31000, 16, 0x400, 1, 0x4, 0x0, false, [⟨⟨0, 8⟩, .rw, 0, 0xFFFFFFFF⟩, ⟨⟨8, 8⟩, .ro, 0, 0xFFFFFFFF⟩, ⟨⟨16, 8⟩, .ro, 0, 0xFFFFFFFF⟩]⟩,
  ⟨0x31004, 16, 0x400, 1, 0x4, 0x0, false, [⟨⟨0, 1⟩, .rw, 0, 0xFFFFFFFF⟩, ⟨⟨1, 1⟩, .w1c, 0, 0xFFFFFFFF⟩]⟩,
  ⟨0x31008, 16, 0x400, 1, 0x4, 0xA0861, true, [⟨⟨0, 1⟩, .rw, 0, 0xFFFFFFFF⟩, ⟨⟨4, 4⟩, .rw, 3, 15⟩, ⟨⟨8, 6⟩, .rw, 2, 32⟩, ⟨⟨16, 5⟩, .rw, 3, 24⟩]⟩,
  ⟨0x3100C, 16, 0x400, 1, 0x4, 0x13, true, [⟨⟨0, 3⟩, .rw, 0, 0xFFFFFFFF⟩, ⟨⟨4, 1⟩, .rw, 0, 0xFFFFFFFF⟩, ⟨⟨8, 2⟩, .rw, 0, 0xFFFFFFFF⟩, ⟨⟨16, 3⟩, .ro, 0, 0xFFFFFFFF⟩]⟩,
  ⟨0x31010, 16, 0x400, 1, 0x4, 0x3C1A, true, [⟨⟨0, 4⟩, .rw, 4, 15⟩, ⟨⟨4, 1⟩, .rw, 0, 0xFFFFFFFF⟩, ⟨⟨8, 8⟩, .rw, 20, 100⟩]⟩,
  ⟨0x31014, 16, 0x400, 1, 0x4, 0x0, false, [⟨⟨0, 9⟩, .ro, 0, 0xFFFFFFFF⟩, ⟨⟨16, 1⟩, .w1c, 0, 0xFFFFFFFF⟩, ⟨⟨31, 1⟩, .ro, 0, 0xFFFFFFFF⟩]⟩,
  ⟨0x31018, 16, 0x400, 1, 0x4, 0x0, false, [⟨⟨0, 9⟩, .ro, 0, 0xFFFFFFFF⟩, ⟨⟨16, 9⟩, .ro, 0, 0xFFFFFFFF⟩, ⟨⟨31, 1⟩, .ro, 0, 0xFFFFFFFF⟩]⟩,
  ⟨0x3101C, 16, 0x400, 1, 0x4, 0x0, false, [⟨⟨0, 9⟩, .ro, 0, 0xFFFFFFFF⟩, ⟨⟨16, 9⟩, .ro, 0, 0xFFFFFFFF⟩, ⟨⟨31, 1⟩, .ro, 0, 0xFFFFFFFF⟩]⟩,
  ⟨0x31020, 16, 0x400, 1, 0x4, 0x0, false, [⟨⟨0, 2⟩, .ro, 0, 0xFFFFFFFF⟩, ⟨⟨4, 3⟩, .ro, 0, 0xFFFFFFFF⟩, ⟨⟨8, 2⟩, .ro, 0, 0xFFFFFFFF⟩]⟩,
  ⟨0x31024, 16, 0x400, 1, 0x4, 0x0, false, [⟨⟨0, 16⟩, .ro, 0, 0xFFFFFFFF⟩, ⟨⟨16, 16⟩, .ro, 0, 0xFFFFFFFF⟩]⟩,
  ⟨0x31028, 16, 0x400, 1, 0x4, 0x0, false, [⟨⟨0, 1⟩, .wo, 0, 0xFFFFFFFF⟩, ⟨⟨1, 1⟩, .wo, 0, 0xFFFFFFFF⟩]⟩,
  ⟨0x3102C, 16, 0x400, 1, 0x4, 0x0, false, [⟨⟨0, 32⟩, .ro, 0, 0xFFFFFFFF⟩]⟩,
  ⟨0x31030, 16, 0x400, 1, 0x4, 0x0, false, [⟨⟨0, 32⟩, .ro, 0, 0xFFFFFFFF⟩]⟩,
  ⟨0x31034, 16, 0x400, 1, 0x4, 0x0, false, [⟨⟨0, 32⟩, .ro, 0, 0xFFFFFFFF⟩]⟩,
  ⟨0x31038, 16, 0x400, 1, 0x4, 0x0, false, [⟨⟨0, 12⟩, .ro, 0, 0xFFFFFFFF⟩, ⟨⟨16, 8⟩, .ro, 0, 0xFFFFFFFF⟩, ⟨⟨31, 1⟩, .ro, 0, 0xFFFFFFFF⟩]⟩]

/-- Registers of PRO (part). -/
def rowsPRO0 : List RegRow := [
  ⟨0x41000, 16, 0x400, 1, 0x4, 0x0, false, [⟨⟨0, 8⟩, .rw, 0, 0xFFFFFFFF⟩, ⟨⟨8, 8⟩, .ro, 0, 0xFFFFFFFF⟩, ⟨⟨16, 8⟩, .ro, 0, 0xFFFFFFFF⟩]⟩,
  ⟨0x41004, 16, 0x400, 1, 0x4, 0x0, false, [⟨⟨0, 1⟩, .rw, 0, 0xFFFFFFFF⟩, ⟨⟨1, 1⟩, .w1c, 0, 0xFFFFFFFF⟩]⟩,
  ⟨0x41008, 16, 0x400, 1, 0x4, 0x0, false, [⟨⟨0, 3⟩, .rw, 0, 5⟩]⟩,
  ⟨0x4100C, 16, 0x400, 1, 0x4, 0x0, false, [⟨⟨0, 3⟩, .ro, 0, 0xFFFFFFFF⟩, ⟨⟨8, 1⟩, .ro, 0, 0xFFFFFFFF⟩, ⟨⟨9, 1⟩, .w1c, 0, 0xFFFFFFFF⟩, ⟨⟨10, 1⟩, .w1c, 0, 0xFFFFFFFF⟩, ⟨⟨11, 1⟩, .ro, 0, 0xFFFFFFFF⟩, ⟨⟨12, 1⟩, .ro, 0, 0xFFFFFFFF⟩, ⟨⟨13, 1⟩, .ro, 0, 0xFFFFFFFF⟩]⟩,
  ⟨0x40004, 1, 0x4, 1, 0x4, 0x0, false, [⟨⟨0, 1⟩, .w1s, 0, 0xFFFFFFFF⟩]⟩,
  ⟨0x40008, 1, 0x4, 1, 0x4, 0x0, false, [⟨⟨0, 8⟩, .rw, 0, 0xFFFFFFFF⟩, ⟨⟨8, 8⟩, .ro, 0, 0xFFFFFFFF⟩, ⟨⟨16, 8⟩, .ro, 0, 0xFFFFFFFF⟩]⟩,
  ⟨0x4000C, 1, 0x4, 1, 0x4, 0x0, false, [⟨⟨0, 1⟩, .rw, 0, 0xFFFFFFFF⟩, ⟨⟨1, 1⟩, .w1c, 0, 0xFFFFFFFF⟩]⟩,
  ⟨0x40010, 1, 0x4, 1, 0x4, 0xA00, true, [⟨⟨0, 1⟩, .rwL, 0, 0xFFFFFFFF⟩, ⟨⟨1, 1⟩, .rwL, 0, 0xFFFFFFFF⟩, ⟨⟨2, 1⟩, .rwL, 0, 0xFFFFFFFF⟩, ⟨⟨4, 3⟩, .rwL, 0, 6⟩, ⟨⟨8, 4⟩, .rwL, 8, 14⟩, ⟨⟨12, 1⟩, .rwL, 0, 0xFFFFFFFF⟩]⟩,
  ⟨0x40014, 1, 0x4, 1, 0x4, 0x83C0400, true, [⟨⟨0, 12⟩, .rwL, 768, 2559⟩, ⟨⟨16, 8⟩, .rwL, 20, 100⟩, ⟨⟨24, 4⟩, .rwL, 1, 15⟩]⟩,
  ⟨0x40100, 1, 0x4, 1, 0x4, 0x494, true, [⟨⟨0, 20⟩, .rwL, 0, 1048575⟩]⟩,
  ⟨0x40110, 1, 0x4, 1, 0x4, 0x400, true, [⟨⟨0, 20⟩, .rwL, 0, 1048575⟩]⟩,
  ⟨0x40120, 1, 0x4, 1, 0x4, 0x0, true, [⟨⟨0, 20⟩, .rwL, 0, 1048575⟩]⟩,
  ⟨0x40130, 1, 0x4, 1, 0x4, 0x10E0, true, [⟨⟨0, 20⟩, .rwL, 0, 1048575⟩]⟩,
  ⟨0x40160, 1, 0x4, 1, 0x4, 0x4D4, true, [⟨⟨0, 20⟩, .rwL, 0, 1048575⟩]⟩,
  ⟨0x40104, 1, 0x4, 1, 0x4, 0x494, true, [⟨⟨0, 20⟩, .rwL, 1172, 1048575⟩]⟩,
  ⟨0x40114, 1, 0x4, 1, 0x4, 0x700, true, [⟨⟨0, 20⟩, .rwL, 1792, 1048575⟩]⟩,
  ⟨0x40124, 1, 0x4, 1, 0x4, 0x800, true, [⟨⟨0, 20⟩, .rwL, 2048, 1048575⟩]⟩,
  ⟨0x40134, 1, 0x4, 1, 0x4, 0x1060, true, [⟨⟨0, 20⟩, .rwL, 4192, 1048575⟩]⟩,
  ⟨0x40164, 1, 0x4, 1, 0x4, 0x494, true, [⟨⟨0, 20⟩, .rwL, 1172, 1048575⟩]⟩,
  ⟨0x40108, 1, 0x4, 1, 0x4, 0x128A, true, [⟨⟨0, 20⟩, .rwL, 1, 1048575⟩]⟩,
  ⟨0x40118, 1, 0x4, 1, 0x4, 0x8000, true, [⟨⟨0, 20⟩, .rwL, 1, 1048575⟩]⟩,
  ⟨0x40128, 1, 0x4, 1, 0x4, 0x10000, true, [⟨⟨0, 20⟩, .rwL, 1, 1048575⟩]⟩,
  ⟨0x40138, 1, 0x4, 1, 0x4, 0x20000, true, [⟨⟨0, 20⟩, .rwL, 1, 1048575⟩]⟩,
  ⟨0x40158, 1, 0x4, 1, 0x4, 0xFFFFF, true, [⟨⟨0, 20⟩, .rwL, 1, 1048575⟩]⟩,
  ⟨0x40168, 1, 0x4, 1, 0x4, 0x9A80, true, [⟨⟨0, 20⟩, .rwL, 1, 1048575⟩]⟩,
  ⟨0x41010, 16, 0x400, 1, 0x4, 0x3201, true, [⟨⟨0, 1⟩, .rw, 0, 0xFFFFFFFF⟩, ⟨⟨1, 1⟩, .rw, 0, 0xFFFFFFFF⟩, ⟨⟨8, 8⟩, .rw, 1, 255⟩, ⟨⟨16, 1⟩, .rw, 0, 0xFFFFFFFF⟩]⟩,
  ⟨0x41014, 16, 0x400, 1, 0x4, 0x0, false, [⟨⟨0, 1⟩, .wo, 0, 0xFFFFFFFF⟩, ⟨⟨1, 1⟩, .wo, 0, 0xFFFFFFFF⟩]⟩,
  ⟨0x41018, 16, 0x400, 1, 0x4, 0x0, false, [⟨⟨0, 1⟩, .ro, 0, 0xFFFFFFFF⟩, ⟨⟨1, 1⟩, .ro, 0, 0xFFFFFFFF⟩, ⟨⟨2, 1⟩, .ro, 0, 0xFFFFFFFF⟩, ⟨⟨3, 1⟩, .ro, 0, 0xFFFFFFFF⟩, ⟨⟨4, 1⟩, .ro, 0, 0xFFFFFFFF⟩, ⟨⟨8, 4⟩, .ro, 0, 0xFFFFFFFF⟩]⟩,
  ⟨0x4101C, 16, 0x400, 1, 0x4, 0x0, false, [⟨⟨0, 16⟩, .ro, 0, 0xFFFFFFFF⟩, ⟨⟨16, 16⟩, .ro, 0, 0xFFFFFFFF⟩]⟩,
  ⟨0x41020, 16, 0x400, 1, 0x4, 0x0, false, [⟨⟨0, 32⟩, .ro, 0, 0xFFFFFFFF⟩]⟩,
  ⟨0x40020, 1, 0x4, 1, 0x4, 0x313, false, [⟨⟨0, 4⟩, .rwL, 1, 15⟩, ⟨⟨4, 1⟩, .rwL, 0, 0xFFFFFFFF⟩, ⟨⟨8, 8⟩, .rwL, 1, 255⟩]⟩,
  ⟨0x40024, 1, 0x4, 1, 0x4, 0x0, false, [⟨⟨0, 8⟩, .ro, 0, 0xFFFFFFFF⟩, ⟨⟨8, 6⟩, .ro, 0, 0xFFFFFFFF⟩]⟩]

/-- Registers of PRO (part). -/
def rowsPRO1 : List RegRow := [
  ⟨0x40028, 1, 0x4, 1, 0x4, 0x0, false, [⟨⟨0, 8⟩, .wo, 0, 0xFFFFFFFF⟩, ⟨⟨8, 1⟩, .wo, 0, 0xFFFFFFFF⟩]⟩,
  ⟨0x4002C, 1, 0x4, 1, 0x4, 0x0, false, [⟨⟨0, 16⟩, .ro, 0, 0xFFFFFFFF⟩, ⟨⟨16, 16⟩, .ro, 0, 0xFFFFFFFF⟩]⟩,
  ⟨0x40030, 5, 0x4, 1, 0x4, 0x0, false, [⟨⟨0, 32⟩, .ro, 0, 0xFFFFFFFF⟩]⟩,
  ⟨0x40200, 16, 0x40, 16, 0x4, 0x0, false, [⟨⟨0, 32⟩, .rwL, 0, 0xFFFFFFFF⟩]⟩,
  ⟨0x48000, 160, 0x20, 8, 0x4, 0x0, false, [⟨⟨0, 32⟩, .ro, 0, 0xFFFFFFFF⟩]⟩,
  ⟨0x41024, 16, 0x400, 1, 0x4, 0x140A0000, true, [⟨⟨0, 4⟩, .rw, 0, 0xFFFFFFFF⟩, ⟨⟨8, 1⟩, .rw, 0, 0xFFFFFFFF⟩, ⟨⟨16, 8⟩, .rw, 1, 255⟩, ⟨⟨24, 8⟩, .rw, 1, 255⟩]⟩,
  ⟨0x41028, 16, 0x400, 1, 0x4, 0x0, false, [⟨⟨0, 4⟩, .ro, 0, 0xFFFFFFFF⟩, ⟨⟨4, 1⟩, .ro, 0, 0xFFFFFFFF⟩, ⟨⟨5, 1⟩, .ro, 0, 0xFFFFFFFF⟩, ⟨⟨16, 8⟩, .ro, 0, 0xFFFFFFFF⟩]⟩]

/-- Registers of PRO. -/
def rowsPRO : List RegRow := rowsPRO0 ++ rowsPRO1

/-- Registers of ACD. -/
def rowsACD : List RegRow := [
  ⟨0x50004, 1, 0x4, 1, 0x4, 0x0, false, [⟨⟨0, 1⟩, .w1s, 0, 0xFFFFFFFF⟩]⟩,
  ⟨0x50008, 1, 0x4, 1, 0x4, 0x0, false, [⟨⟨0, 8⟩, .rw, 0, 0xFFFFFFFF⟩, ⟨⟨8, 8⟩, .ro, 0, 0xFFFFFFFF⟩, ⟨⟨16, 8⟩, .ro, 0, 0xFFFFFFFF⟩]⟩,
  ⟨0x5000C, 1, 0x4, 1, 0x4, 0x0, false, [⟨⟨0, 1⟩, .rw, 0, 0xFFFFFFFF⟩, ⟨⟨1, 1⟩, .w1c, 0, 0xFFFFFFFF⟩]⟩,
  ⟨0x50010, 1, 0x4, 1, 0x4, 0x2000, true, [⟨⟨0, 1⟩, .rwL, 0, 0xFFFFFFFF⟩, ⟨⟨8, 8⟩, .rwL, 32, 255⟩]⟩,
  ⟨0x50014, 1, 0x4, 1, 0x4, 0x0, false, [⟨⟨0, 8⟩, .ro, 0, 0xFFFFFFFF⟩, ⟨⟨8, 12⟩, .ro, 0, 0xFFFFFFFF⟩]⟩,
  ⟨0x50018, 1, 0x4, 1, 0x4, 0x0, false, [⟨⟨0, 16⟩, .ro, 0, 0xFFFFFFFF⟩, ⟨⟨16, 16⟩, .ro, 0, 0xFFFFFFFF⟩]⟩,
  ⟨0x51000, 16, 0x400, 1, 0x4, 0x0, false, [⟨⟨0, 8⟩, .rw, 0, 0xFFFFFFFF⟩, ⟨⟨8, 8⟩, .ro, 0, 0xFFFFFFFF⟩, ⟨⟨16, 8⟩, .ro, 0, 0xFFFFFFFF⟩]⟩,
  ⟨0x51004, 16, 0x400, 1, 0x4, 0x0, false, [⟨⟨0, 1⟩, .rw, 0, 0xFFFFFFFF⟩, ⟨⟨1, 1⟩, .w1c, 0, 0xFFFFFFFF⟩]⟩,
  ⟨0x51008, 16, 0x400, 1, 0x4, 0x8, true, [⟨⟨0, 4⟩, .rw, 1, 8⟩]⟩,
  ⟨0x5100C, 16, 0x400, 1, 0x4, 0x8, true, [⟨⟨0, 6⟩, .rw, 0, 32⟩]⟩,
  ⟨0x51010, 16, 0x400, 1, 0x4, 0x0, false, [⟨⟨0, 4⟩, .ro, 0, 0xFFFFFFFF⟩, ⟨⟨8, 8⟩, .ro, 0, 0xFFFFFFFF⟩, ⟨⟨16, 8⟩, .ro, 0, 0xFFFFFFFF⟩, ⟨⟨24, 8⟩, .ro, 0, 0xFFFFFFFF⟩]⟩,
  ⟨0x51014, 16, 0x400, 1, 0x4, 0x0, false, [⟨⟨0, 9⟩, .ro, 0, 0xFFFFFFFF⟩, ⟨⟨16, 9⟩, .ro, 0, 0xFFFFFFFF⟩, ⟨⟨31, 1⟩, .ro, 0, 0xFFFFFFFF⟩]⟩,
  ⟨0x51020, 16, 0x400, 4, 0x4, 0x0, false, [⟨⟨0, 8⟩, .ro, 0, 0xFFFFFFFF⟩, ⟨⟨8, 8⟩, .ro, 0, 0xFFFFFFFF⟩, ⟨⟨16, 8⟩, .ro, 0, 0xFFFFFFFF⟩, ⟨⟨24, 8⟩, .ro, 0, 0xFFFFFFFF⟩]⟩,
  ⟨0x51030, 16, 0x400, 4, 0x4, 0x0, false, [⟨⟨0, 8⟩, .ro, 0, 0xFFFFFFFF⟩, ⟨⟨8, 8⟩, .ro, 0, 0xFFFFFFFF⟩, ⟨⟨16, 8⟩, .ro, 0, 0xFFFFFFFF⟩, ⟨⟨24, 8⟩, .ro, 0, 0xFFFFFFFF⟩]⟩,
  ⟨0x51040, 16, 0x400, 8, 0x8, 0x0, false, [⟨⟨0, 32⟩, .ro, 0, 0xFFFFFFFF⟩]⟩,
  ⟨0x51044, 16, 0x400, 8, 0x8, 0x0, false, [⟨⟨0, 32⟩, .ro, 0, 0xFFFFFFFF⟩]⟩]

/-- Registers of KPR. -/
def rowsKPR : List RegRow := [
  ⟨0x60004, 1, 0x4, 1, 0x4, 0x0, false, [⟨⟨0, 1⟩, .w1s, 0, 0xFFFFFFFF⟩]⟩,
  ⟨0x60008, 1, 0x4, 1, 0x4, 0x0, false, [⟨⟨0, 8⟩, .rw, 0, 0xFFFFFFFF⟩, ⟨⟨8, 8⟩, .ro, 0, 0xFFFFFFFF⟩, ⟨⟨16, 8⟩, .ro, 0, 0xFFFFFFFF⟩]⟩,
  ⟨0x6000C, 1, 0x4, 1, 0x4, 0x0, false, [⟨⟨0, 1⟩, .rw, 0, 0xFFFFFFFF⟩, ⟨⟨1, 1⟩, .w1c, 0, 0xFFFFFFFF⟩]⟩,
  ⟨0x60010, 1, 0x4, 1, 0x4, 0xA, true, [⟨⟨0, 1⟩, .rw, 0, 0xFFFFFFFF⟩, ⟨⟨1, 1⟩, .rw, 0, 0xFFFFFFFF⟩, ⟨⟨2, 1⟩, .rw, 0, 0xFFFFFFFF⟩, ⟨⟨3, 1⟩, .rw, 0, 0xFFFFFFFF⟩]⟩,
  ⟨0x60014, 1, 0x4, 1, 0x4, 0x5A0050A, true, [⟨⟨0, 8⟩, .rw, 1, 255⟩, ⟨⟨8, 8⟩, .rw, 0, 0xFFFFFFFF⟩, ⟨⟨16, 16⟩, .rw, 1, 40320⟩]⟩,
  ⟨0x60018, 1, 0x4, 1, 0x4, 0x0, false, [⟨⟨0, 9⟩, .ro, 0, 0xFFFFFFFF⟩, ⟨⟨16, 8⟩, .ro, 0, 0xFFFFFFFF⟩, ⟨⟨24, 1⟩, .ro, 0, 0xFFFFFFFF⟩, ⟨⟨25, 1⟩, .ro, 0, 0xFFFFFFFF⟩, ⟨⟨26, 1⟩, .ro, 0, 0xFFFFFFFF⟩]⟩,
  ⟨0x6001C, 1, 0x4, 1, 0x4, 0x0, false, [⟨⟨0, 9⟩, .ro, 0, 0xFFFFFFFF⟩]⟩,
  ⟨0x60020, 2, 0x10, 1, 0x4, 0x0, false, [⟨⟨0, 32⟩, .rwA, 0, 0xFFFFFFFF⟩]⟩,
  ⟨0x60024, 2, 0x10, 1, 0x4, 0x0, false, [⟨⟨0, 19⟩, .rwA, 0, 0xFFFFFFFF⟩]⟩,
  ⟨0x60028, 2, 0x10, 1, 0x4, 0x0, false, [⟨⟨0, 19⟩, .rwA, 0, 0xFFFFFFFF⟩]⟩,
  ⟨0x6002C, 2, 0x10, 1, 0x4, 0x0, false, [⟨⟨0, 26⟩, .rwA, 0, 0xFFFFFFFF⟩]⟩,
  ⟨0x60040, 1, 0x4, 1, 0x4, 0x0, false, [⟨⟨0, 32⟩, .ro, 0, 0xFFFFFFFF⟩]⟩,
  ⟨0x60044, 1, 0x4, 1, 0x4, 0x0, false, [⟨⟨0, 16⟩, .ro, 0, 0xFFFFFFFF⟩, ⟨⟨16, 16⟩, .ro, 0, 0xFFFFFFFF⟩]⟩,
  ⟨0x60050, 1, 0x4, 1, 0x4, 0x76543210, true, [⟨⟨0, 4⟩, .rw, 0, 0xFFFFFFFF⟩, ⟨⟨4, 4⟩, .rw, 0, 0xFFFFFFFF⟩, ⟨⟨8, 4⟩, .rw, 0, 0xFFFFFFFF⟩, ⟨⟨12, 4⟩, .rw, 0, 0xFFFFFFFF⟩, ⟨⟨16, 4⟩, .rw, 0, 0xFFFFFFFF⟩, ⟨⟨20, 4⟩, .rw, 0, 0xFFFFFFFF⟩, ⟨⟨24, 4⟩, .rw, 0, 0xFFFFFFFF⟩, ⟨⟨28, 4⟩, .rw, 0, 0xFFFFFFFF⟩]⟩,
  ⟨0x60054, 1, 0x4, 1, 0x4, 0xFEDCBA98, true, [⟨⟨0, 4⟩, .rw, 0, 0xFFFFFFFF⟩, ⟨⟨4, 4⟩, .rw, 0, 0xFFFFFFFF⟩, ⟨⟨8, 4⟩, .rw, 0, 0xFFFFFFFF⟩, ⟨⟨12, 4⟩, .rw, 0, 0xFFFFFFFF⟩, ⟨⟨16, 4⟩, .rw, 0, 0xFFFFFFFF⟩, ⟨⟨20, 4⟩, .rw, 0, 0xFFFFFFFF⟩, ⟨⟨24, 4⟩, .rw, 0, 0xFFFFFFFF⟩, ⟨⟨28, 4⟩, .rw, 0, 0xFFFFFFFF⟩]⟩,
  ⟨0x60060, 8, 0x4, 1, 0x4, 0x0, true, [⟨⟨0, 32⟩, .rw, 0, 0xFFFFFFFF⟩]⟩,
  ⟨0x60100, 16, 0x10, 1, 0x4, 0x600, true, [⟨⟨0, 1⟩, .rw, 0, 0xFFFFFFFF⟩, ⟨⟨4, 4⟩, .rw, 0, 0xFFFFFFFF⟩, ⟨⟨8, 1⟩, .rw, 0, 0xFFFFFFFF⟩, ⟨⟨9, 1⟩, .rw, 0, 0xFFFFFFFF⟩, ⟨⟨10, 1⟩, .rw, 0, 0xFFFFFFFF⟩]⟩,
  ⟨0x60104, 16, 0x10, 1, 0x4, 0x7D003E8, true, [⟨⟨0, 13⟩, .rw, 50, 5000⟩, ⟨⟨16, 13⟩, .rw, 50, 5000⟩]⟩,
  ⟨0x60108, 16, 0x10, 1, 0x4, 0x0, false, [⟨⟨0, 1⟩, .ro, 0, 0xFFFFFFFF⟩, ⟨⟨1, 1⟩, .ro, 0, 0xFFFFFFFF⟩, ⟨⟨2, 1⟩, .ro, 0, 0xFFFFFFFF⟩, ⟨⟨4, 3⟩, .ro, 0, 0xFFFFFFFF⟩, ⟨⟨16, 16⟩, .ro, 0, 0xFFFFFFFF⟩]⟩]

/-- Registers of STO. -/
def rowsSTO : List RegRow := [
  ⟨0x70004, 1, 0x4, 1, 0x4, 0x0, false, [⟨⟨0, 1⟩, .w1s, 0, 0xFFFFFFFF⟩]⟩,
  ⟨0x70008, 1, 0x4, 1, 0x4, 0x0, false, [⟨⟨0, 8⟩, .rw, 0, 0xFFFFFFFF⟩, ⟨⟨8, 8⟩, .ro, 0, 0xFFFFFFFF⟩, ⟨⟨16, 8⟩, .ro, 0, 0xFFFFFFFF⟩]⟩,
  ⟨0x7000C, 1, 0x4, 1, 0x4, 0x0, false, [⟨⟨0, 1⟩, .rw, 0, 0xFFFFFFFF⟩, ⟨⟨1, 1⟩, .w1c, 0, 0xFFFFFFFF⟩]⟩,
  ⟨0x70010, 1, 0x4, 1, 0x4, 0x0, false, [⟨⟨0, 2⟩, .rwL, 0, 2⟩, ⟨⟨4, 3⟩, .rwL, 0, 4⟩, ⟨⟨8, 2⟩, .rwL, 0, 0xFFFFFFFF⟩, ⟨⟨12, 1⟩, .rwL, 0, 0xFFFFFFFF⟩, ⟨⟨16, 1⟩, .rwL, 0, 0xFFFFFFFF⟩]⟩,
  ⟨0x70014, 1, 0x4, 1, 0x4, 0x807, true, [⟨⟨0, 4⟩, .rw, 0, 0xFFFFFFFF⟩, ⟨⟨4, 1⟩, .rw, 0, 0xFFFFFFFF⟩, ⟨⟨8, 5⟩, .rw, 0, 0xFFFFFFFF⟩, ⟨⟨13, 1⟩, .rw, 0, 0xFFFFFFFF⟩]⟩,
  ⟨0x70018, 1, 0x4, 1, 0x4, 0x10020B13, false, [⟨⟨0, 8⟩, .rwL, 0, 0xFFFFFFFF⟩, ⟨⟨8, 8⟩, .rwL, 0, 0xFFFFFFFF⟩, ⟨⟨16, 8⟩, .rwL, 0, 0xFFFFFFFF⟩, ⟨⟨24, 8⟩, .rwL, 0, 0xFFFFFFFF⟩]⟩,
  ⟨0x7001C, 1, 0x4, 1, 0x4, 0xC2060FD8, false, [⟨⟨0, 8⟩, .rwL, 0, 0xFFFFFFFF⟩, ⟨⟨8, 8⟩, .rwL, 0, 0xFFFFFFFF⟩, ⟨⟨16, 8⟩, .rwL, 0, 0xFFFFFFFF⟩, ⟨⟨24, 8⟩, .rwL, 0, 0xFFFFFFFF⟩]⟩,
  ⟨0x70020, 1, 0x4, 1, 0x4, 0x1FFF30B0, false, [⟨⟨0, 8⟩, .rwL, 0, 0xFFFFFFFF⟩, ⟨⟨8, 8⟩, .rwL, 0, 0xFFFFFFFF⟩, ⟨⟨16, 8⟩, .rwL, 0, 0xFFFFFFFF⟩, ⟨⟨24, 8⟩, .rwL, 0, 0xFFFFFFFF⟩]⟩,
  ⟨0x70024, 1, 0x4, 1, 0x4, 0x12030C0, false, [⟨⟨0, 8⟩, .rwL, 0, 0xFFFFFFFF⟩, ⟨⟨8, 8⟩, .rwL, 0, 0xFFFFFFFF⟩, ⟨⟨16, 8⟩, .rwL, 0, 0xFFFFFFFF⟩, ⟨⟨24, 8⟩, .rwL, 0, 0xFFFFFFFF⟩]⟩,
  ⟨0x70030, 1, 0x4, 1, 0x4, 0x0, false, [⟨⟨0, 7⟩, .ro, 0, 0xFFFFFFFF⟩, ⟨⟨8, 1⟩, .ro, 0, 0xFFFFFFFF⟩, ⟨⟨9, 1⟩, .ro, 0, 0xFFFFFFFF⟩, ⟨⟨16, 16⟩, .ro, 0, 0xFFFFFFFF⟩]⟩,
  ⟨0x70034, 3, 0x4, 1, 0x4, 0x0, false, [⟨⟨0, 19⟩, .ro, 0, 0xFFFFFFFF⟩, ⟨⟨31, 1⟩, .ro, 0, 0xFFFFFFFF⟩]⟩,
  ⟨0x70040, 1, 0x4, 1, 0x4, 0x0, false, [⟨⟨0, 19⟩, .wo, 0, 0xFFFFFFFF⟩, ⟨⟨20, 2⟩, .wo, 0, 0xFFFFFFFF⟩, ⟨⟨24, 1⟩, .wo, 0, 0xFFFFFFFF⟩, ⟨⟨28, 3⟩, .wo, 0, 0xFFFFFFFF⟩]⟩,
  ⟨0x70044, 1, 0x4, 1, 0x4, 0x10000000, false, [⟨⟨0, 12⟩, .rw, 0, 0xFFFFFFFF⟩, ⟨⟨16, 13⟩, .rw, 0, 8191⟩]⟩,
  ⟨0x70048, 1, 0x4, 1, 0x4, 0x0, false, [⟨⟨0, 4⟩, .ro, 0, 0xFFFFFFFF⟩, ⟨⟨4, 1⟩, .ro, 0, 0xFFFFFFFF⟩, ⟨⟨5, 1⟩, .w1c, 0, 0xFFFFFFFF⟩, ⟨⟨8, 4⟩, .ro, 0, 0xFFFFFFFF⟩, ⟨⟨12, 1⟩, .ro, 0, 0xFFFFFFFF⟩, ⟨⟨13, 1⟩, .w1c, 0, 0xFFFFFFFF⟩]⟩,
  ⟨0x70050, 1, 0x4, 1, 0x4, 0x0, false, [⟨⟨0, 18⟩, .ro, 0, 0xFFFFFFFF⟩, ⟨⟨31, 1⟩, .ro, 0, 0xFFFFFFFF⟩]⟩,
  ⟨0x70054, 1, 0x4, 1, 0x4, 0x0, false, [⟨⟨0, 32⟩, .ro, 0, 0xFFFFFFFF⟩]⟩,
  ⟨0x70058, 1, 0x4, 1, 0x4, 0x0, false, [⟨⟨0, 16⟩, .ro, 0, 0xFFFFFFFF⟩, ⟨⟨16, 16⟩, .ro, 0, 0xFFFFFFFF⟩]⟩,
  ⟨0x7005C, 1, 0x4, 1, 0x4, 0x0, false, [⟨⟨0, 16⟩, .ro, 0, 0xFFFFFFFF⟩, ⟨⟨16, 16⟩, .ro, 0, 0xFFFFFFFF⟩]⟩,
  ⟨0x71000, 1024, 0x4, 1, 0x4, 0x0, false, [⟨⟨0, 32⟩, .rw, 0, 0xFFFFFFFF⟩]⟩,
  ⟨0x72000, 1024, 0x4, 1, 0x4, 0x0, false, [⟨⟨0, 32⟩, .rw, 0, 0xFFFFFFFF⟩]⟩]

/-- Registers of SIL. -/
def rowsSIL : List RegRow := [
  ⟨0x80004, 1, 0x4, 1, 0x4, 0x0, false, [⟨⟨0, 1⟩, .w1s, 0, 0xFFFFFFFF⟩]⟩,
  ⟨0x80008, 1, 0x4, 1, 0x4, 0x0, false, [⟨⟨0, 8⟩, .rw, 0, 0xFFFFFFFF⟩, ⟨⟨8, 8⟩, .ro, 0, 0xFFFFFFFF⟩, ⟨⟨16, 8⟩, .ro, 0, 0xFFFFFFFF⟩]⟩,
  ⟨0x8000C, 1, 0x4, 1, 0x4, 0x0, false, [⟨⟨0, 1⟩, .rw, 0, 0xFFFFFFFF⟩, ⟨⟨1, 1⟩, .w1c, 0, 0xFFFFFFFF⟩]⟩,
  ⟨0x80010, 1, 0x4, 1, 0x4, 0x646422, true, [⟨⟨0, 2⟩, .rw, 0, 2⟩, ⟨⟨2, 1⟩, .rw, 0, 0xFFFFFFFF⟩, ⟨⟨4, 2⟩, .rw, 0, 2⟩, ⟨⟨8, 8⟩, .rw, 1, 255⟩, ⟨⟨16, 8⟩, .rw, 1, 255⟩]⟩,
  ⟨0x80014, 1, 0x4, 1, 0x4, 0x0, false, [⟨⟨0, 1⟩, .rw, 0, 0xFFFFFFFF⟩, ⟨⟨1, 1⟩, .w1c, 0, 0xFFFFFFFF⟩, ⟨⟨8, 7⟩, .ro, 0, 0xFFFFFFFF⟩]⟩,
  ⟨0x80018, 1, 0x4, 1, 0x4, 0x0, false, [⟨⟨0, 15⟩, .ro, 0, 0xFFFFFFFF⟩, ⟨⟨15, 1⟩, .ro, 0, 0xFFFFFFFF⟩, ⟨⟨16, 14⟩, .ro, 0, 0xFFFFFFFF⟩, ⟨⟨30, 1⟩, .ro, 0, 0xFFFFFFFF⟩]⟩,
  ⟨0x8001C, 1, 0x4, 1, 0x4, 0x0, false, [⟨⟨0, 32⟩, .ro, 0, 0xFFFFFFFF⟩]⟩,
  ⟨0x80020, 1, 0x4, 1, 0x4, 0x0, false, [⟨⟨0, 15⟩, .ro, 0, 0xFFFFFFFF⟩, ⟨⟨16, 15⟩, .ro, 0, 0xFFFFFFFF⟩]⟩,
  ⟨0x80024, 1, 0x4, 1, 0x4, 0x0, false, [⟨⟨0, 16⟩, .ro, 0, 0xFFFFFFFF⟩, ⟨⟨16, 16⟩, .ro, 0, 0xFFFFFFFF⟩]⟩,
  ⟨0x80028, 1, 0x4, 1, 0x4, 0x0, false, [⟨⟨0, 16⟩, .ro, 0, 0xFFFFFFFF⟩, ⟨⟨16, 16⟩, .ro, 0, 0xFFFFFFFF⟩]⟩,
  ⟨0x8002C, 1, 0x4, 1, 0x4, 0x0, false, [⟨⟨0, 15⟩, .ro, 0, 0xFFFFFFFF⟩]⟩,
  ⟨0x80030, 1, 0x4, 1, 0x4, 0x0, false, [⟨⟨0, 16⟩, .ro, 0, 0xFFFFFFFF⟩, ⟨⟨16, 7⟩, .ro, 0, 0xFFFFFFFF⟩, ⟨⟨23, 1⟩, .ro, 0, 0xFFFFFFFF⟩]⟩,
  ⟨0x80034, 1, 0x4, 1, 0x4, 0x0, false, [⟨⟨0, 4⟩, .ro, 0, 0xFFFFFFFF⟩, ⟨⟨8, 8⟩, .ro, 0, 0xFFFFFFFF⟩, ⟨⟨16, 16⟩, .ro, 0, 0xFFFFFFFF⟩]⟩,
  ⟨0x81000, 8, 0x40, 16, 0x4, 0x0, false, [⟨⟨0, 32⟩, .ro, 0, 0xFFFFFFFF⟩]⟩,
  ⟨0x82000, 64, 0x40, 1, 0x4, 0x0, false, [⟨⟨0, 16⟩, .rwL, 0, 0xFFFFFFFF⟩, ⟨⟨16, 16⟩, .rwL, 0, 0xFFFFFFFF⟩]⟩,
  ⟨0x82004, 64, 0x40, 1, 0x4, 0x0, false, [⟨⟨0, 1⟩, .rwL, 0, 0xFFFFFFFF⟩, ⟨⟨1, 2⟩, .rwL, 0, 0xFFFFFFFF⟩, ⟨⟨4, 4⟩, .rwL, 0, 8⟩]⟩,
  ⟨0x82010, 64, 0x40, 8, 0x4, 0x0, false, [⟨⟨0, 24⟩, .rwL, 0, 0xFFFFFFFF⟩]⟩]

/-- Registers of TMR. -/
def rowsTMR : List RegRow := [
  ⟨0x90004, 1, 0x4, 1, 0x4, 0x0, false, [⟨⟨0, 1⟩, .w1s, 0, 0xFFFFFFFF⟩]⟩,
  ⟨0x90008, 1, 0x4, 1, 0x4, 0x0, false, [⟨⟨0, 8⟩, .rw, 0, 0xFFFFFFFF⟩, ⟨⟨8, 8⟩, .ro, 0, 0xFFFFFFFF⟩, ⟨⟨16, 8⟩, .ro, 0, 0xFFFFFFFF⟩]⟩,
  ⟨0x9000C, 1, 0x4, 1, 0x4, 0x0, false, [⟨⟨0, 1⟩, .rw, 0, 0xFFFFFFFF⟩, ⟨⟨1, 1⟩, .w1c, 0, 0xFFFFFFFF⟩]⟩,
  ⟨0x90010, 1, 0x4, 1, 0x4, 0x0, false, [⟨⟨0, 32⟩, .ro, 0, 0xFFFFFFFF⟩]⟩,
  ⟨0x90014, 1, 0x4, 1, 0x4, 0x0, false, [⟨⟨0, 32⟩, .ro, 0, 0xFFFFFFFF⟩]⟩,
  ⟨0x90018, 1, 0x4, 1, 0x4, 0x0, false, [⟨⟨0, 32⟩, .ro, 0, 0xFFFFFFFF⟩]⟩,
  ⟨0x9001C, 1, 0x4, 1, 0x4, 0x0, false, [⟨⟨0, 32⟩, .ro, 0, 0xFFFFFFFF⟩]⟩,
  ⟨0x90020, 1, 0x4, 1, 0x4, 0x0, false, [⟨⟨0, 32⟩, .rwA, 0, 0xFFFFFFFF⟩]⟩,
  ⟨0x90024, 1, 0x4, 1, 0x4, 0x0, false, [⟨⟨0, 32⟩, .rwA, 0, 0xFFFFFFFF⟩]⟩,
  ⟨0x90028, 1, 0x4, 1, 0x4, 0x0, false, [⟨⟨0, 1⟩, .ro, 0, 0xFFFFFFFF⟩, ⟨⟨16, 16⟩, .ro, 0, 0xFFFFFFFF⟩]⟩,
  ⟨0x9002C, 1, 0x4, 1, 0x4, 0x3D09, false, [⟨⟨0, 14⟩, .rwL, 15000, 16250⟩, ⟨⟨16, 1⟩, .rwL, 0, 0xFFFFFFFF⟩]⟩,
  ⟨0x90030, 1, 0x4, 1, 0x4, 0x0, false, [⟨⟨0, 24⟩, .ro, 0, 0xFFFFFFFF⟩]⟩,
  ⟨0x90034, 1, 0x4, 1, 0x4, 0x0, false, [⟨⟨0, 14⟩, .ro, 0, 0xFFFFFFFF⟩]⟩,
  ⟨0x90038, 1, 0x4, 1, 0x4, 0x0, false, [⟨⟨0, 8⟩, .wo, 0, 0xFFFFFFFF⟩, ⟨⟨8, 8⟩, .wo, 0, 0xFFFFFFFF⟩]⟩,
  ⟨0x9003C, 1, 0x4, 1, 0x4, 0x0, false, [⟨⟨0, 16⟩, .ro, 0, 0xFFFFFFFF⟩, ⟨⟨16, 16⟩, .ro, 0, 0xFFFFFFFF⟩]⟩,
  ⟨0x90100, 8, 0x40, 1, 0x4, 0x0, false, [⟨⟨0, 1⟩, .rw, 0, 0xFFFFFFFF⟩, ⟨⟨4, 2⟩, .rw, 0, 0xFFFFFFFF⟩, ⟨⟨6, 6⟩, .rw, 0, 59⟩, ⟨⟨12, 1⟩, .rw, 0, 0xFFFFFFFF⟩, ⟨⟨13, 1⟩, .rw, 0, 0xFFFFFFFF⟩, ⟨⟨14, 1⟩, .rw, 0, 0xFFFFFFFF⟩, ⟨⟨16, 16⟩, .rw, 0, 0xFFFFFFFF⟩]⟩,
  ⟨0x90104, 8, 0x40, 1, 0x4, 0x0, false, [⟨⟨0, 32⟩, .rw, 0, 0xFFFFFFFF⟩]⟩,
  ⟨0x90108, 8, 0x40, 1, 0x4, 0xFFFFFFFF, false, [⟨⟨0, 32⟩, .rw, 0, 0xFFFFFFFF⟩]⟩,
  ⟨0x9010C, 8, 0x40, 1, 0x4, 0x0, false, [⟨⟨0, 32⟩, .rw, 0, 0xFFFFFFFF⟩]⟩,
  ⟨0x90110, 8, 0x40, 1, 0x4, 0x0, false, [⟨⟨0, 32⟩, .rw, 0, 0xFFFFFFFF⟩]⟩,
  ⟨0x90114, 8, 0x40, 1, 0x4, 0x0, false, [⟨⟨0, 32⟩, .rw, 0, 0xFFFFFFFF⟩]⟩,
  ⟨0x90118, 8, 0x40, 1, 0x4, 0x0, false, [⟨⟨0, 32⟩, .rw, 0, 0xFFFFFFFF⟩]⟩,
  ⟨0x9011C, 8, 0x40, 1, 0x4, 0x0, false, [⟨⟨0, 32⟩, .ro, 0, 0xFFFFFFFF⟩]⟩,
  ⟨0x90120, 8, 0x40, 1, 0x4, 0x0, false, [⟨⟨0, 1⟩, .w1c, 0, 0xFFFFFFFF⟩, ⟨⟨1, 1⟩, .w1c, 0, 0xFFFFFFFF⟩, ⟨⟨2, 1⟩, .w1c, 0, 0xFFFFFFFF⟩, ⟨⟨3, 1⟩, .ro, 0, 0xFFFFFFFF⟩, ⟨⟨4, 1⟩, .w1c, 0, 0xFFFFFFFF⟩, ⟨⟨5, 1⟩, .ro, 0, 0xFFFFFFFF⟩]⟩,
  ⟨0x90124, 8, 0x40, 1, 0x4, 0x0, true, [⟨⟨0, 2⟩, .rw, 0, 2⟩, ⟨⟨3, 1⟩, .rw, 0, 0xFFFFFFFF⟩, ⟨⟨4, 3⟩, .rw, 0, 6⟩, ⟨⟨8, 4⟩, .rw, 0, 0xFFFFFFFF⟩, ⟨⟨12, 3⟩, .rw, 0, 5⟩]⟩,
  ⟨0x90128, 8, 0x40, 1, 0x4, 0x0, true, [⟨⟨0, 19⟩, .rw, 0, 0xFFFFFFFF⟩, ⟨⟨20, 2⟩, .rw, 0, 0xFFFFFFFF⟩, ⟨⟨24, 1⟩, .rw, 0, 0xFFFFFFFF⟩, ⟨⟨28, 3⟩, .rw, 0, 0xFFFFFFFF⟩]⟩]

/-- Registers of QUE. -/
def rowsQUE : List RegRow := [
  ⟨0xA0004, 1, 0x4, 1, 0x4, 0x0, false, [⟨⟨0, 1⟩, .w1s, 0, 0xFFFFFFFF⟩]⟩,
  ⟨0xA0008, 1, 0x4, 1, 0x4, 0x0, false, [⟨⟨0, 8⟩, .rw, 0, 0xFFFFFFFF⟩, ⟨⟨8, 8⟩, .ro, 0, 0xFFFFFFFF⟩, ⟨⟨16, 8⟩, .ro, 0, 0xFFFFFFFF⟩]⟩,
  ⟨0xA000C, 1, 0x4, 1, 0x4, 0x0, false, [⟨⟨0, 1⟩, .rw, 0, 0xFFFFFFFF⟩, ⟨⟨1, 1⟩, .w1c, 0, 0xFFFFFFFF⟩]⟩,
  ⟨0xA0010, 1, 0x4, 1, 0x4, 0x12064, true, [⟨⟨0, 12⟩, .rw, 1, 4095⟩, ⟨⟨12, 2⟩, .rw, 0, 2⟩, ⟨⟨16, 1⟩, .rw, 0, 0xFFFFFFFF⟩]⟩,
  ⟨0xA0014, 1, 0x4, 1, 0x4, 0xFFFF, true, [⟨⟨0, 16⟩, .rw, 0, 0xFFFFFFFF⟩, ⟨⟨16, 16⟩, .rw, 0, 0xFFFFFFFF⟩]⟩,
  ⟨0xA0018, 1, 0x4, 1, 0x4, 0x0, false, [⟨⟨0, 11⟩, .ro, 0, 0xFFFFFFFF⟩, ⟨⟨11, 1⟩, .ro, 0, 0xFFFFFFFF⟩, ⟨⟨12, 1⟩, .w1c, 0, 0xFFFFFFFF⟩, ⟨⟨13, 1⟩, .w1c, 0, 0xFFFFFFFF⟩, ⟨⟨16, 8⟩, .ro, 0, 0xFFFFFFFF⟩, ⟨⟨24, 5⟩, .ro, 0, 0xFFFFFFFF⟩]⟩,
  ⟨0xA001C, 1, 0x4, 1, 0x4, 0x0, false, [⟨⟨0, 10⟩, .rw, 0, 0xFFFFFFFF⟩, ⟨⟨16, 1⟩, .rw, 0, 0xFFFFFFFF⟩]⟩,
  ⟨0xA0020, 1, 0x4, 1, 0x4, 0x0, false, [⟨⟨0, 32⟩, .ro, 0, 0xFFFFFFFF⟩]⟩,
  ⟨0xA0024, 1, 0x4, 1, 0x4, 0x0, false, [⟨⟨0, 32⟩, .ro, 0, 0xFFFFFFFF⟩]⟩,
  ⟨0xA0028, 1, 0x4, 1, 0x4, 0x0, false, [⟨⟨0, 8⟩, .ro, 0, 0xFFFFFFFF⟩, ⟨⟨8, 8⟩, .ro, 0, 0xFFFFFFFF⟩, ⟨⟨16, 8⟩, .ro, 0, 0xFFFFFFFF⟩, ⟨⟨24, 8⟩, .ro, 0, 0xFFFFFFFF⟩]⟩,
  ⟨0xA002C, 1, 0x4, 1, 0x4, 0x0, false, [⟨⟨0, 16⟩, .ro, 0, 0xFFFFFFFF⟩]⟩,
  ⟨0xA0030, 1, 0x4, 1, 0x4, 0x0, false, [⟨⟨0, 32⟩, .ro, 0, 0xFFFFFFFF⟩]⟩,
  ⟨0xA0034, 1, 0x4, 1, 0x4, 0x0, false, [⟨⟨0, 32⟩, .ro, 0, 0xFFFFFFFF⟩]⟩,
  ⟨0xA0038, 1, 0x4, 1, 0x4, 0x0, false, [⟨⟨0, 1⟩, .ro, 0, 0xFFFFFFFF⟩, ⟨⟨1, 1⟩, .ro, 0, 0xFFFFFFFF⟩]⟩,
  ⟨0xA003C, 1, 0x4, 1, 0x4, 0x0, false, [⟨⟨0, 16⟩, .ro, 0, 0xFFFFFFFF⟩]⟩,
  ⟨0xA1000, 16, 0x400, 1, 0x4, 0x0, false, [⟨⟨0, 32⟩, .wo, 0, 0xFFFFFFFF⟩]⟩,
  ⟨0xA1004, 16, 0x400, 1, 0x4, 0x0, false, [⟨⟨0, 32⟩, .ro, 0, 0xFFFFFFFF⟩]⟩,
  ⟨0xA1008, 16, 0x400, 1, 0x4, 0x0, false, [⟨⟨0, 1⟩, .ro, 0, 0xFFFFFFFF⟩]⟩,
  ⟨0xA100C, 16, 0x400, 1, 0x4, 0x0, false, [⟨⟨0, 32⟩, .ro, 0, 0xFFFFFFFF⟩]⟩,
  ⟨0xA1010, 16, 0x400, 1, 0x4, 0x103FD, false, [⟨⟨0, 11⟩, .rw, 0, 0xFFFFFFFF⟩, ⟨⟨16, 1⟩, .rw, 0, 0xFFFFFFFF⟩]⟩,
  ⟨0xA1014, 16, 0x400, 1, 0x4, 0x0, false, [⟨⟨0, 11⟩, .rw, 0, 0xFFFFFFFF⟩, ⟨⟨16, 1⟩, .rw, 0, 0xFFFFFFFF⟩]⟩,
  ⟨0xA1018, 16, 0x400, 1, 0x4, 0x0, false, [⟨⟨0, 1⟩, .ro, 0, 0xFFFFFFFF⟩, ⟨⟨1, 1⟩, .w1c, 0, 0xFFFFFFFF⟩, ⟨⟨2, 1⟩, .ro, 0, 0xFFFFFFFF⟩, ⟨⟨3, 1⟩, .w1c, 0, 0xFFFFFFFF⟩, ⟨⟨4, 1⟩, .w1c, 0, 0xFFFFFFFF⟩, ⟨⟨8, 8⟩, .ro, 0, 0xFFFFFFFF⟩, ⟨⟨16, 8⟩, .ro, 0, 0xFFFFFFFF⟩]⟩,
  ⟨0xA101C, 16, 0x400, 1, 0x4, 0x0, false, [⟨⟨0, 1⟩, .wo, 0, 0xFFFFFFFF⟩]⟩,
  ⟨0xA1020, 16, 0x400, 1, 0x4, 0x0, false, [⟨⟨0, 16⟩, .ro, 0, 0xFFFFFFFF⟩, ⟨⟨16, 16⟩, .ro, 0, 0xFFFFFFFF⟩]⟩]

/-- Registers of CRC. -/
def rowsCRC : List RegRow := [
  ⟨0xB0004, 1, 0x4, 1, 0x4, 0x0, false, [⟨⟨0, 1⟩, .w1s, 0, 0xFFFFFFFF⟩]⟩,
  ⟨0xB0008, 1, 0x4, 1, 0x4, 0x0, false, [⟨⟨0, 8⟩, .rw, 0, 0xFFFFFFFF⟩, ⟨⟨8, 8⟩, .ro, 0, 0xFFFFFFFF⟩, ⟨⟨16, 8⟩, .ro, 0, 0xFFFFFFFF⟩]⟩,
  ⟨0xB000C, 1, 0x4, 1, 0x4, 0x0, false, [⟨⟨0, 1⟩, .rw, 0, 0xFFFFFFFF⟩, ⟨⟨1, 1⟩, .w1c, 0, 0xFFFFFFFF⟩]⟩,
  ⟨0xB0100, 4, 0x40, 1, 0x4, 0x320, true, [⟨⟨0, 6⟩, .rw, 3, 32⟩, ⟨⟨8, 1⟩, .rw, 0, 0xFFFFFFFF⟩, ⟨⟨9, 1⟩, .rw, 0, 0xFFFFFFFF⟩, ⟨⟨12, 2⟩, .rw, 0, 2⟩]⟩,
  ⟨0xB0104, 4, 0x40, 1, 0x4, 0x1EDC6F41, true, [⟨⟨0, 32⟩, .rw, 0, 0xFFFFFFFF⟩]⟩,
  ⟨0xB0108, 4, 0x40, 1, 0x4, 0xFFFFFFFF, true, [⟨⟨0, 32⟩, .rw, 0, 0xFFFFFFFF⟩]⟩,
  ⟨0xB010C, 4, 0x40, 1, 0x4, 0xFFFFFFFF, true, [⟨⟨0, 32⟩, .rw, 0, 0xFFFFFFFF⟩]⟩,
  ⟨0xB0110, 4, 0x40, 1, 0x4, 0x0, false, [⟨⟨0, 32⟩, .rw, 0, 0xFFFFFFFF⟩]⟩,
  ⟨0xB0114, 4, 0x40, 1, 0x4, 0x0, false, [⟨⟨0, 1⟩, .wo, 0, 0xFFFFFFFF⟩, ⟨⟨1, 1⟩, .wo, 0, 0xFFFFFFFF⟩]⟩,
  ⟨0xB0118, 4, 0x40, 1, 0x4, 0x0, false, [⟨⟨0, 8⟩, .wo, 0, 0xFFFFFFFF⟩]⟩,
  ⟨0xB011C, 4, 0x40, 1, 0x4, 0x0, false, [⟨⟨0, 16⟩, .wo, 0, 0xFFFFFFFF⟩]⟩,
  ⟨0xB0120, 4, 0x40, 1, 0x4, 0x0, false, [⟨⟨0, 32⟩, .wo, 0, 0xFFFFFFFF⟩]⟩,
  ⟨0xB0124, 4, 0x40, 1, 0x4, 0x200000, false, [⟨⟨0, 24⟩, .rw, 0, 0xFFFFFFFF⟩]⟩,
  ⟨0xB0128, 4, 0x40, 1, 0x4, 0x0, false, [⟨⟨0, 24⟩, .rw, 0, 0xFFFFFFFF⟩]⟩,
  ⟨0xB012C, 4, 0x40, 1, 0x4, 0x0, false, [⟨⟨0, 32⟩, .ro, 0, 0xFFFFFFFF⟩]⟩,
  ⟨0xB0130, 4, 0x40, 1, 0x4, 0x0, false, [⟨⟨0, 32⟩, .rw, 0, 0xFFFFFFFF⟩]⟩,
  ⟨0xB0134, 4, 0x40, 1, 0x4, 0x0, false, [⟨⟨0, 1⟩, .ro, 0, 0xFFFFFFFF⟩, ⟨⟨1, 1⟩, .ro, 0, 0xFFFFFFFF⟩, ⟨⟨2, 1⟩, .w1c, 0, 0xFFFFFFFF⟩, ⟨⟨8, 24⟩, .ro, 0, 0xFFFFFFFF⟩]⟩]

/-- Registers of COX. -/
def rowsCOX : List RegRow := [
  ⟨0xC0004, 1, 0x4, 1, 0x4, 0x0, false, [⟨⟨0, 1⟩, .w1s, 0, 0xFFFFFFFF⟩]⟩,
  ⟨0xC0008, 1, 0x4, 1, 0x4, 0x0, false, [⟨⟨0, 8⟩, .rw, 0, 0xFFFFFFFF⟩, ⟨⟨8, 8⟩, .ro, 0, 0xFFFFFFFF⟩, ⟨⟨16, 8⟩, .ro, 0, 0xFFFFFFFF⟩]⟩,
  ⟨0xC000C, 1, 0x4, 1, 0x4, 0x0, false, [⟨⟨0, 1⟩, .rw, 0, 0xFFFFFFFF⟩, ⟨⟨1, 1⟩, .w1c, 0, 0xFFFFFFFF⟩]⟩,
  ⟨0xC0010, 1, 0x4, 1, 0x4, 0x400, true, [⟨⟨0, 1⟩, .rwL, 0, 0xFFFFFFFF⟩, ⟨⟨1, 1⟩, .rwL, 0, 0xFFFFFFFF⟩, ⟨⟨2, 1⟩, .rwL, 0, 0xFFFFFFFF⟩, ⟨⟨3, 1⟩, .rwL, 0, 0xFFFFFFFF⟩, ⟨⟨4, 1⟩, .rwL, 0, 0xFFFFFFFF⟩, ⟨⟨8, 4⟩, .rwL, 0, 8⟩, ⟨⟨16, 1⟩, .rwL, 0, 0xFFFFFFFF⟩, ⟨⟨17, 1⟩, .rwL, 0, 0xFFFFFFFF⟩, ⟨⟨18, 1⟩, .rwL, 0, 0xFFFFFFFF⟩, ⟨⟨19, 1⟩, .rwL, 0, 0xFFFFFFFF⟩]⟩,
  ⟨0xC0014, 1, 0x4, 1, 0x4, 0x10140032, true, [⟨⟨0, 9⟩, .rwL, 0, 500⟩, ⟨⟨16, 8⟩, .rwL, 0, 0xFFFFFFFF⟩, ⟨⟨24, 8⟩, .rwL, 0, 0xFFFFFFFF⟩]⟩,
  ⟨0xC0018, 1, 0x4, 1, 0x4, 0x64000064, true, [⟨⟨0, 10⟩, .rwL, 1, 1000⟩, ⟨⟨16, 8⟩, .rwL, 0, 0xFFFFFFFF⟩, ⟨⟨24, 8⟩, .rwL, 1, 255⟩]⟩,
  ⟨0xC001C, 1, 0x4, 1, 0x4, 0xFFFFFFFF, true, [⟨⟨0, 16⟩, .rwL, 0, 0xFFFFFFFF⟩, ⟨⟨16, 16⟩, .rwL, 0, 0xFFFFFFFF⟩]⟩,
  ⟨0xC0020, 1, 0x4, 1, 0x4, 0x0, true, [⟨⟨0, 16⟩, .rwL, 0, 0xFFFFFFFF⟩, ⟨⟨16, 16⟩, .rwL, 0, 0xFFFFFFFF⟩]⟩,
  ⟨0xC0024, 1, 0x4, 1, 0x4, 0x0, false, [⟨⟨0, 1⟩, .ro, 0, 0xFFFFFFFF⟩, ⟨⟨1, 1⟩, .ro, 0, 0xFFFFFFFF⟩, ⟨⟨2, 1⟩, .ro, 0, 0xFFFFFFFF⟩, ⟨⟨3, 1⟩, .ro, 0, 0xFFFFFFFF⟩, ⟨⟨4, 1⟩, .ro, 0, 0xFFFFFFFF⟩, ⟨⟨5, 1⟩, .ro, 0, 0xFFFFFFFF⟩, ⟨⟨6, 1⟩, .ro, 0, 0xFFFFFFFF⟩, ⟨⟨16, 16⟩, .ro, 0, 0xFFFFFFFF⟩]⟩,
  ⟨0xC0028, 1, 0x4, 1, 0x4, 0x0, false, [⟨⟨0, 16⟩, .ro, 0, 0xFFFFFFFF⟩, ⟨⟨16, 16⟩, .ro, 0, 0xFFFFFFFF⟩]⟩,
  ⟨0xC0040, 1, 0x4, 1, 0x4, 0x0, false, [⟨⟨0, 1⟩, .ro, 0, 0xFFFFFFFF⟩, ⟨⟨1, 1⟩, .ro, 0, 0xFFFFFFFF⟩, ⟨⟨16, 16⟩, .ro, 0, 0xFFFFFFFF⟩]⟩,
  ⟨0xC0044, 1, 0x4, 1, 0x4, 0xA0100, false, [⟨⟨0, 9⟩, .rwA, 0, 0xFFFFFFFF⟩, ⟨⟨16, 8⟩, .rwA, 0, 0xFFFFFFFF⟩, ⟨⟨24, 1⟩, .rwA, 0, 0xFFFFFFFF⟩]⟩,
  ⟨0xC0048, 1, 0x4, 1, 0x4, 0x1B5864A8, false, [⟨⟨0, 15⟩, .rwA, 0, 0xFFFFFFFF⟩, ⟨⟨16, 15⟩, .rwA, 0, 0xFFFFFFFF⟩]⟩,
  ⟨0xC0080, 16, 0x4, 1, 0x4, 0x3FF, false, [⟨⟨0, 10⟩, .rwA, 0, 0xFFFFFFFF⟩]⟩]

/-- Registers of SAF. -/
def rowsSAF : List RegRow := [
  ⟨0xD0004, 1, 0x4, 1, 0x4, 0x0, false, [⟨⟨0, 1⟩, .w1s, 0, 0xFFFFFFFF⟩]⟩,
  ⟨0xD0008, 1, 0x4, 1, 0x4, 0x0, false, [⟨⟨0, 8⟩, .rw, 0, 0xFFFFFFFF⟩, ⟨⟨8, 8⟩, .ro, 0, 0xFFFFFFFF⟩, ⟨⟨16, 8⟩, .ro, 0, 0xFFFFFFFF⟩]⟩,
  ⟨0xD000C, 1, 0x4, 1, 0x4, 0x0, false, [⟨⟨0, 1⟩, .rw, 0, 0xFFFFFFFF⟩, ⟨⟨1, 1⟩, .w1c, 0, 0xFFFFFFFF⟩]⟩,
  ⟨0xD0010, 1, 0x4, 1, 0x4, 0x0, false, [⟨⟨0, 1⟩, .ro, 0, 0xFFFFFFFF⟩, ⟨⟨1, 1⟩, .ro, 0, 0xFFFFFFFF⟩, ⟨⟨2, 1⟩, .ro, 0, 0xFFFFFFFF⟩, ⟨⟨3, 1⟩, .ro, 0, 0xFFFFFFFF⟩, ⟨⟨16, 9⟩, .ro, 0, 0xFFFFFFFF⟩]⟩,
  ⟨0xD0014, 1, 0x4, 1, 0x4, 0x321904, false, [⟨⟨0, 4⟩, .rwL, 2, 12⟩, ⟨⟨8, 8⟩, .rwL, 8, 100⟩, ⟨⟨16, 8⟩, .rwL, 10, 150⟩]⟩,
  ⟨0xD0018, 1, 0x4, 1, 0x4, 0x0, false, [⟨⟨0, 9⟩, .ro, 0, 0xFFFFFFFF⟩, ⟨⟨9, 1⟩, .ro, 0, 0xFFFFFFFF⟩]⟩,
  ⟨0xD001C, 1, 0x4, 1, 0x4, 0x0, false, [⟨⟨0, 16⟩, .ro, 0, 0xFFFFFFFF⟩, ⟨⟨16, 16⟩, .ro, 0, 0xFFFFFFFF⟩]⟩,
  ⟨0xD0020, 1, 0x4, 1, 0x4, 0x0, false, [⟨⟨0, 4⟩, .ro, 0, 0xFFFFFFFF⟩, ⟨⟨8, 4⟩, .ro, 0, 0xFFFFFFFF⟩]⟩,
  ⟨0xD0024, 1, 0x4, 1, 0x4, 0x0, false, [⟨⟨0, 4⟩, .ro, 0, 0xFFFFFFFF⟩, ⟨⟨8, 4⟩, .ro, 0, 0xFFFFFFFF⟩]⟩,
  ⟨0xD0028, 1, 0x4, 1, 0x4, 0xFFFF, false, [⟨⟨0, 16⟩, .rwL, 0, 0xFFFFFFFF⟩]⟩,
  ⟨0xD002C, 1, 0x4, 1, 0x4, 0x0, false, [⟨⟨0, 4⟩, .wo, 0, 0xFFFFFFFF⟩, ⟨⟨8, 4⟩, .wo, 0, 0xFFFFFFFF⟩, ⟨⟨16, 1⟩, .wo, 0, 0xFFFFFFFF⟩]⟩,
  ⟨0xD0030, 1, 0x4, 1, 0x4, 0x0, false, [⟨⟨0, 16⟩, .ro, 0, 0xFFFFFFFF⟩, ⟨⟨16, 1⟩, .w1c, 0, 0xFFFFFFFF⟩]⟩,
  ⟨0xD0034, 1, 0x4, 1, 0x4, 0x0, false, [⟨⟨0, 8⟩, .ro, 0, 0xFFFFFFFF⟩]⟩,
  ⟨0xD0038, 1, 0x4, 1, 0x4, 0x0, false, [⟨⟨0, 1⟩, .w1c, 0, 0xFFFFFFFF⟩, ⟨⟨16, 16⟩, .ro, 0, 0xFFFFFFFF⟩]⟩]

/-- Registers of CFG. -/
def rowsCFG : List RegRow := [
  ⟨0xE0004, 1, 0x4, 1, 0x4, 0x0, false, [⟨⟨0, 1⟩, .w1s, 0, 0xFFFFFFFF⟩]⟩,
  ⟨0xE0008, 1, 0x4, 1, 0x4, 0x0, false, [⟨⟨0, 8⟩, .rw, 0, 0xFFFFFFFF⟩, ⟨⟨8, 8⟩, .ro, 0, 0xFFFFFFFF⟩, ⟨⟨16, 8⟩, .ro, 0, 0xFFFFFFFF⟩]⟩,
  ⟨0xE000C, 1, 0x4, 1, 0x4, 0x0, false, [⟨⟨0, 1⟩, .rw, 0, 0xFFFFFFFF⟩, ⟨⟨1, 1⟩, .w1c, 0, 0xFFFFFFFF⟩]⟩,
  ⟨0xE0010, 1, 0x4, 1, 0x4, 0x0, false, [⟨⟨0, 1⟩, .ro, 0, 0xFFFFFFFF⟩, ⟨⟨1, 1⟩, .ro, 0, 0xFFFFFFFF⟩, ⟨⟨2, 1⟩, .ro, 0, 0xFFFFFFFF⟩, ⟨⟨3, 1⟩, .ro, 0, 0xFFFFFFFF⟩, ⟨⟨8, 4⟩, .ro, 0, 0xFFFFFFFF⟩, ⟨⟨12, 4⟩, .ro, 0, 0xFFFFFFFF⟩]⟩,
  ⟨0xE0014, 1, 0x4, 1, 0x4, 0x0, false, [⟨⟨0, 32⟩, .ro, 0, 0xFFFFFFFF⟩]⟩,
  ⟨0xE0018, 1, 0x4, 1, 0x4, 0x0, false, [⟨⟨0, 32⟩, .ro, 0, 0xFFFFFFFF⟩]⟩,
  ⟨0xE001C, 1, 0x4, 1, 0x4, 0x0, false, [⟨⟨0, 16⟩, .ro, 0, 0xFFFFFFFF⟩, ⟨⟨16, 16⟩, .ro, 0, 0xFFFFFFFF⟩]⟩,
  ⟨0xE0020, 1, 0x4, 1, 0x4, 0x0, false, [⟨⟨0, 16⟩, .ro, 0, 0xFFFFFFFF⟩, ⟨⟨16, 1⟩, .ro, 0, 0xFFFFFFFF⟩, ⟨⟨17, 1⟩, .ro, 0, 0xFFFFFFFF⟩]⟩,
  ⟨0xE0024, 1, 0x4, 1, 0x4, 0x0, false, [⟨⟨0, 32⟩, .ro, 0, 0xFFFFFFFF⟩]⟩,
  ⟨0xE0028, 1, 0x4, 1, 0x4, 0x0, false, [⟨⟨0, 4⟩, .ro, 0, 0xFFFFFFFF⟩, ⟨⟨4, 1⟩, .ro, 0, 0xFFFFFFFF⟩, ⟨⟨8, 8⟩, .ro, 0, 0xFFFFFFFF⟩, ⟨⟨16, 16⟩, .ro, 0, 0xFFFFFFFF⟩]⟩,
  ⟨0xE002C, 1, 0x4, 1, 0x4, 0x0, false, [⟨⟨0, 16⟩, .ro, 0, 0xFFFFFFFF⟩]⟩,
  ⟨0xE0030, 1, 0x4, 1, 0x4, 0x0, false, [⟨⟨0, 32⟩, .ro, 0, 0xFFFFFFFF⟩]⟩,
  ⟨0xE0034, 1, 0x4, 1, 0x4, 0x0, false, [⟨⟨0, 32⟩, .ro, 0, 0xFFFFFFFF⟩]⟩,
  ⟨0xE0040, 1, 0x4, 1, 0x4, 0x0, false, [⟨⟨0, 2⟩, .wo, 0, 0xFFFFFFFF⟩]⟩,
  ⟨0xE0044, 1, 0x4, 1, 0x4, 0x10000, false, [⟨⟨0, 24⟩, .rw, 0, 0xFFFFFFFF⟩]⟩,
  ⟨0xE0048, 1, 0x4, 1, 0x4, 0x0, false, [⟨⟨0, 1⟩, .ro, 0, 0xFFFFFFFF⟩, ⟨⟨1, 1⟩, .w1c, 0, 0xFFFFFFFF⟩, ⟨⟨2, 4⟩, .ro, 0, 0xFFFFFFFF⟩]⟩,
  ⟨0xE1000, 64, 0x4, 1, 0x4, 0x0, false, [⟨⟨0, 32⟩, .rw, 0, 0xFFFFFFFF⟩]⟩]

/-- Registers of EMU. -/
def rowsEMU : List RegRow := [
  ⟨0xF0004, 1, 0x4, 1, 0x4, 0x0, false, [⟨⟨0, 1⟩, .w1s, 0, 0xFFFFFFFF⟩]⟩,
  ⟨0xF0008, 1, 0x4, 1, 0x4, 0x0, false, [⟨⟨0, 8⟩, .rw, 0, 0xFFFFFFFF⟩, ⟨⟨8, 8⟩, .ro, 0, 0xFFFFFFFF⟩, ⟨⟨16, 8⟩, .ro, 0, 0xFFFFFFFF⟩]⟩,
  ⟨0xF000C, 1, 0x4, 1, 0x4, 0x0, false, [⟨⟨0, 1⟩, .rw, 0, 0xFFFFFFFF⟩, ⟨⟨1, 1⟩, .w1c, 0, 0xFFFFFFFF⟩]⟩,
  ⟨0xF0010, 1, 0x4, 1, 0x4, 0x40, false, [⟨⟨0, 2⟩, .rwL, 0, 0xFFFFFFFF⟩, ⟨⟨4, 1⟩, .rwL, 0, 0xFFFFFFFF⟩, ⟨⟨5, 1⟩, .rwL, 0, 0xFFFFFFFF⟩, ⟨⟨6, 1⟩, .rwL, 0, 0xFFFFFFFF⟩]⟩,
  ⟨0xF0014, 1, 0x4, 1, 0x4, 0x0, false, [⟨⟨0, 32⟩, .rwL, 0, 0xFFFFFFFF⟩]⟩,
  ⟨0xF0018, 1, 0x4, 1, 0x4, 0x0, false, [⟨⟨0, 24⟩, .rwL, 0, 0xFFFFFFFF⟩]⟩,
  ⟨0xF001C, 1, 0x4, 1, 0x4, 0x0, false, [⟨⟨0, 3⟩, .ro, 0, 0xFFFFFFFF⟩, ⟨⟨3, 1⟩, .ro, 0, 0xFFFFFFFF⟩, ⟨⟨4, 1⟩, .ro, 0, 0xFFFFFFFF⟩, ⟨⟨5, 1⟩, .ro, 0, 0xFFFFFFFF⟩, ⟨⟨6, 1⟩, .ro, 0, 0xFFFFFFFF⟩, ⟨⟨7, 1⟩, .ro, 0, 0xFFFFFFFF⟩, ⟨⟨8, 1⟩, .ro, 0, 0xFFFFFFFF⟩, ⟨⟨9, 1⟩, .w1c, 0, 0xFFFFFFFF⟩, ⟨⟨10, 1⟩, .w1c, 0, 0xFFFFFFFF⟩, ⟨⟨11, 1⟩, .ro, 0, 0xFFFFFFFF⟩, ⟨⟨16, 16⟩, .ro, 0, 0xFFFFFFFF⟩]⟩,
  ⟨0xF0020, 1, 0x4, 1, 0x4, 0x0, false, [⟨⟨0, 1⟩, .rw, 0, 0xFFFFFFFF⟩]⟩,
  ⟨0xF0024, 1, 0x4, 1, 0x4, 0x0, false, [⟨⟨0, 1⟩, .wo, 0, 0xFFFFFFFF⟩, ⟨⟨1, 1⟩, .wo, 0, 0xFFFFFFFF⟩, ⟨⟨8, 3⟩, .wo, 0, 0xFFFFFFFF⟩]⟩,
  ⟨0xF0028, 1, 0x4, 1, 0x4, 0x28, true, [⟨⟨0, 8⟩, .rw, 20, 100⟩]⟩,
  ⟨0xF0040, 8, 0x4, 1, 0x4, 0x0, false, [⟨⟨0, 32⟩, .ro, 0, 0xFFFFFFFF⟩]⟩,
  ⟨0xF0060, 1, 0x4, 1, 0x4, 0x0, false, [⟨⟨0, 8⟩, .ro, 0, 0xFFFFFFFF⟩, ⟨⟨8, 8⟩, .ro, 0, 0xFFFFFFFF⟩, ⟨⟨16, 8⟩, .w1c, 0, 0xFFFFFFFF⟩, ⟨⟨24, 8⟩, .w1c, 0, 0xFFFFFFFF⟩]⟩,
  ⟨0xF0064, 1, 0x4, 1, 0x4, 0x0, false, [⟨⟨0, 16⟩, .ro, 0, 0xFFFFFFFF⟩, ⟨⟨16, 16⟩, .ro, 0, 0xFFFFFFFF⟩]⟩,
  ⟨0xF2000, 256, 0x4, 1, 0x4, 0x0, false, [⟨⟨0, 32⟩, .rw, 0, 0xFFFFFFFF⟩]⟩]

/-- Registers of TRC. -/
def rowsTRC : List RegRow := [
  ⟨0x100010, 1, 0x4, 1, 0x4, 0x640A4E, false, [⟨⟨0, 1⟩, .rw, 0, 0xFFFFFFFF⟩, ⟨⟨1, 1⟩, .rw, 0, 0xFFFFFFFF⟩, ⟨⟨2, 1⟩, .rw, 0, 0xFFFFFFFF⟩, ⟨⟨3, 1⟩, .rw, 0, 0xFFFFFFFF⟩, ⟨⟨4, 1⟩, .rw, 0, 0xFFFFFFFF⟩, ⟨⟨5, 2⟩, .rw, 0, 2⟩, ⟨⟨8, 8⟩, .rw, 1, 65⟩, ⟨⟨16, 10⟩, .rw, 1, 1000⟩]⟩,
  ⟨0x100014, 1, 0x4, 1, 0x4, 0x3FFFFF, false, [⟨⟨0, 16⟩, .rw, 0, 0xFFFFFFFF⟩, ⟨⟨16, 6⟩, .rw, 0, 0xFFFFFFFF⟩]⟩,
  ⟨0x100018, 1, 0x4, 1, 0x4, 0x0, false, [⟨⟨0, 4⟩, .ro, 0, 0xFFFFFFFF⟩, ⟨⟨4, 9⟩, .ro, 0, 0xFFFFFFFF⟩, ⟨⟨16, 16⟩, .ro, 0, 0xFFFFFFFF⟩]⟩,
  ⟨0x10001C, 1, 0x4, 1, 0x4, 0x0, false, [⟨⟨0, 1⟩, .wo, 0, 0xFFFFFFFF⟩, ⟨⟨1, 1⟩, .wo, 0, 0xFFFFFFFF⟩, ⟨⟨2, 1⟩, .wo, 0, 0xFFFFFFFF⟩]⟩,
  ⟨0x100020, 1, 0x4, 1, 0x4, 0x0, false, [⟨⟨0, 1⟩, .ro, 0, 0xFFFFFFFF⟩]⟩,
  ⟨0x101000, 128, 0x8, 1, 0x4, 0x0, false, [⟨⟨0, 32⟩, .ro, 0, 0xFFFFFFFF⟩]⟩,
  ⟨0x101004, 128, 0x8, 1, 0x4, 0x0, false, [⟨⟨0, 32⟩, .ro, 0, 0xFFFFFFFF⟩]⟩]

/-- Registers of TUN. -/
def rowsTUN : List RegRow := [
  ⟨0x110004, 1, 0x4, 1, 0x4, 0x0, false, [⟨⟨0, 1⟩, .w1s, 0, 0xFFFFFFFF⟩]⟩,
  ⟨0x110008, 1, 0x4, 1, 0x4, 0x0, false, [⟨⟨0, 8⟩, .rw, 0, 0xFFFFFFFF⟩, ⟨⟨8, 8⟩, .ro, 0, 0xFFFFFFFF⟩, ⟨⟨16, 8⟩, .ro, 0, 0xFFFFFFFF⟩]⟩,
  ⟨0x11000C, 1, 0x4, 1, 0x4, 0x0, false, [⟨⟨0, 1⟩, .rw, 0, 0xFFFFFFFF⟩, ⟨⟨1, 1⟩, .w1c, 0, 0xFFFFFFFF⟩]⟩,
  ⟨0x110010, 1, 0x4, 1, 0x4, 0x110009, true, [⟨⟨0, 8⟩, .rwL, 3, 99⟩, ⟨⟨8, 1⟩, .rwL, 0, 0xFFFFFFFF⟩, ⟨⟨9, 1⟩, .rwL, 0, 0xFFFFFFFF⟩, ⟨⟨16, 4⟩, .rwL, 1, 15⟩, ⟨⟨20, 4⟩, .rwL, 1, 15⟩]⟩,
  ⟨0x110014, 1, 0x4, 1, 0x4, 0x0, false, [⟨⟨0, 1⟩, .ro, 0, 0xFFFFFFFF⟩, ⟨⟨1, 1⟩, .w1c, 0, 0xFFFFFFFF⟩]⟩,
  ⟨0x110020, 4, 0x10, 1, 0x4, 0x18, true, [⟨⟨0, 6⟩, .rwL, 0, 0xFFFFFFFF⟩, ⟨⟨8, 1⟩, .rwL, 0, 0xFFFFFFFF⟩, ⟨⟨9, 1⟩, .rwL, 0, 0xFFFFFFFF⟩]⟩,
  ⟨0x110024, 4, 0x10, 1, 0x4, 0x20108, true, [⟨⟨0, 5⟩, .rwL, 0, 0xFFFFFFFF⟩, ⟨⟨5, 4⟩, .rwL, 0, 0xFFFFFFFF⟩, ⟨⟨9, 5⟩, .rwL, 0, 0xFFFFFFFF⟩, ⟨⟨14, 4⟩, .rwL, 0, 0xFFFFFFFF⟩, ⟨⟨18, 5⟩, .rwL, 0, 0xFFFFFFFF⟩, ⟨⟨23, 4⟩, .rwL, 0, 0xFFFFFFFF⟩]⟩,
  ⟨0x110028, 4, 0x10, 1, 0x4, 0x0, true, [⟨⟨0, 32⟩, .rwL, 0, 0xFFFFFFFF⟩]⟩,
  ⟨0x11002C, 4, 0x10, 1, 0x4, 0x0, true, [⟨⟨0, 32⟩, .rwL, 0, 0xFFFFFFFF⟩]⟩,
  ⟨0x110060, 1, 0x4, 1, 0x4, 0xFA, true, [⟨⟨0, 11⟩, .rwL, 50, 2000⟩]⟩,
  ⟨0x110064, 1, 0x4, 1, 0x4, 0x0, false, [⟨⟨0, 16⟩, .w1c, 0, 0xFFFFFFFF⟩, ⟨⟨16, 16⟩, .ro, 0, 0xFFFFFFFF⟩]⟩,
  ⟨0x110068, 1, 0x4, 1, 0x4, 0x0, false, [⟨⟨0, 16⟩, .w1c, 0, 0xFFFFFFFF⟩, ⟨⟨16, 16⟩, .ro, 0, 0xFFFFFFFF⟩]⟩,
  ⟨0x111000, 16, 0x400, 1, 0x4, 0x0, false, [⟨⟨0, 8⟩, .rw, 0, 0xFFFFFFFF⟩, ⟨⟨8, 8⟩, .ro, 0, 0xFFFFFFFF⟩, ⟨⟨16, 8⟩, .ro, 0, 0xFFFFFFFF⟩]⟩,
  ⟨0x111004, 16, 0x400, 1, 0x4, 0x0, false, [⟨⟨0, 1⟩, .rw, 0, 0xFFFFFFFF⟩, ⟨⟨1, 1⟩, .w1c, 0, 0xFFFFFFFF⟩]⟩,
  ⟨0x111008, 16, 0x400, 1, 0x4, 0x1, true, [⟨⟨0, 1⟩, .rwL, 0, 0xFFFFFFFF⟩, ⟨⟨1, 2⟩, .rwL, 0, 0xFFFFFFFF⟩, ⟨⟨4, 2⟩, .rwL, 0, 0xFFFFFFFF⟩, ⟨⟨8, 8⟩, .rwL, 0, 0xFFFFFFFF⟩]⟩,
  ⟨0x11100C, 16, 0x400, 1, 0x4, 0x0, false, [⟨⟨0, 8⟩, .rw, 0, 0xFFFFFFFF⟩, ⟨⟨8, 8⟩, .rw, 0, 0xFFFFFFFF⟩]⟩,
  ⟨0x111010, 16, 0x400, 1, 0x4, 0x0, false, [⟨⟨0, 1⟩, .wo, 0, 0xFFFFFFFF⟩, ⟨⟨1, 1⟩, .wo, 0, 0xFFFFFFFF⟩, ⟨⟨2, 1⟩, .wo, 0, 0xFFFFFFFF⟩]⟩,
  ⟨0x111014, 16, 0x400, 1, 0x4, 0x0, false, [⟨⟨0, 16⟩, .ro, 0, 0xFFFFFFFF⟩, ⟨⟨16, 16⟩, .ro, 0, 0xFFFFFFFF⟩]⟩,
  ⟨0x111018, 16, 0x400, 1, 0x4, 0x0, false, [⟨⟨0, 16⟩, .rwL, 0, 0xFFFFFFFF⟩, ⟨⟨16, 16⟩, .rwL, 0, 0xFFFFFFFF⟩]⟩,
  ⟨0x11101C, 16, 0x400, 1, 0x4, 0x64020A0A, true, [⟨⟨0, 8⟩, .rwL, 1, 255⟩, ⟨⟨8, 8⟩, .rwL, 1, 180⟩, ⟨⟨16, 3⟩, .rwL, 1, 7⟩, ⟨⟨20, 1⟩, .rwL, 0, 0xFFFFFFFF⟩, ⟨⟨21, 1⟩, .rwL, 0, 0xFFFFFFFF⟩, ⟨⟨24, 8⟩, .rwL, 1, 255⟩]⟩,
  ⟨0x111020, 16, 0x400, 1, 0x4, 0x3144010, true, [⟨⟨0, 8⟩, .rwL, 1, 128⟩, ⟨⟨8, 8⟩, .rwL, 4, 255⟩, ⟨⟨16, 8⟩, .rwL, 1, 255⟩, ⟨⟨24, 2⟩, .rwL, 1, 3⟩]⟩,
  ⟨0x111024, 16, 0x400, 1, 0x4, 0x0, false, [⟨⟨0, 8⟩, .ro, 0, 0xFFFFFFFF⟩, ⟨⟨8, 8⟩, .ro, 0, 0xFFFFFFFF⟩, ⟨⟨16, 1⟩, .ro, 0, 0xFFFFFFFF⟩, ⟨⟨17, 1⟩, .ro, 0, 0xFFFFFFFF⟩, ⟨⟨18, 1⟩, .w1c, 0, 0xFFFFFFFF⟩, ⟨⟨20, 3⟩, .ro, 0, 0xFFFFFFFF⟩]⟩,
  ⟨0x111028, 16, 0x400, 1, 0x4, 0x80, true, [⟨⟨0, 10⟩, .rwL, 1, 1023⟩, ⟨⟨12, 1⟩, .rwL, 0, 0xFFFFFFFF⟩, ⟨⟨16, 1⟩, .rwL, 0, 0xFFFFFFFF⟩]⟩,
  ⟨0x11102C, 16, 0x400, 1, 0x4, 0x1000100, true, [⟨⟨0, 16⟩, .rwL, 1, 16383⟩, ⟨⟨16, 16⟩, .rwL, 1, 16383⟩]⟩,
  ⟨0x111030, 16, 0x400, 1, 0x4, 0x0, false, [⟨⟨0, 16⟩, .ro, 0, 0xFFFFFFFF⟩, ⟨⟨16, 16⟩, .ro, 0, 0xFFFFFFFF⟩]⟩,
  ⟨0x111034, 16, 0x400, 1, 0x4, 0x0, false, [⟨⟨0, 16⟩, .ro, 0, 0xFFFFFFFF⟩, ⟨⟨16, 16⟩, .ro, 0, 0xFFFFFFFF⟩]⟩]

/-- Registers of HIF. -/
def rowsHIF : List RegRow := [
  ⟨0x120004, 1, 0x4, 1, 0x4, 0x0, false, [⟨⟨0, 1⟩, .w1s, 0, 0xFFFFFFFF⟩]⟩,
  ⟨0x120008, 1, 0x4, 1, 0x4, 0x0, false, [⟨⟨0, 8⟩, .rw, 0, 0xFFFFFFFF⟩, ⟨⟨8, 8⟩, .ro, 0, 0xFFFFFFFF⟩, ⟨⟨16, 8⟩, .ro, 0, 0xFFFFFFFF⟩]⟩,
  ⟨0x12000C, 1, 0x4, 1, 0x4, 0x0, false, [⟨⟨0, 1⟩, .rw, 0, 0xFFFFFFFF⟩, ⟨⟨1, 1⟩, .w1c, 0, 0xFFFFFFFF⟩]⟩,
  ⟨0x120010, 1, 0x4, 1, 0x4, 0x8, false, [⟨⟨0, 4⟩, .rwL, 4, 15⟩, ⟨⟨4, 1⟩, .rwL, 0, 0xFFFFFFFF⟩, ⟨⟨5, 1⟩, .rwL, 0, 0xFFFFFFFF⟩]⟩,
  ⟨0x120014, 1, 0x4, 1, 0x4, 0x0, false, [⟨⟨0, 1⟩, .w1c, 0, 0xFFFFFFFF⟩, ⟨⟨1, 1⟩, .w1c, 0, 0xFFFFFFFF⟩, ⟨⟨2, 1⟩, .w1c, 0, 0xFFFFFFFF⟩, ⟨⟨3, 1⟩, .w1c, 0, 0xFFFFFFFF⟩]⟩,
  ⟨0x120018, 1, 0x4, 1, 0x4, 0x0, false, [⟨⟨0, 8⟩, .ro, 0, 0xFFFFFFFF⟩, ⟨⟨8, 8⟩, .ro, 0, 0xFFFFFFFF⟩, ⟨⟨16, 8⟩, .ro, 0, 0xFFFFFFFF⟩, ⟨⟨24, 8⟩, .ro, 0, 0xFFFFFFFF⟩]⟩,
  ⟨0x12001C, 1, 0x4, 1, 0x4, 0x0, false, [⟨⟨0, 8⟩, .ro, 0, 0xFFFFFFFF⟩, ⟨⟨8, 24⟩, .ro, 0, 0xFFFFFFFF⟩]⟩]

/-- The rows of the block whose base has bits [23:16] equal to `b` (R25). -/
def blockRows (b : Nat) : List RegRow :=
  match b with
  | 0x0 => rowsGEN
  | 0x1 => rowsPWR
  | 0x2 => rowsFLD
  | 0x3 => rowsRXE
  | 0x4 => rowsPRO
  | 0x5 => rowsACD
  | 0x6 => rowsKPR
  | 0x7 => rowsSTO
  | 0x8 => rowsSIL
  | 0x9 => rowsTMR
  | 0xA => rowsQUE
  | 0xB => rowsCRC
  | 0xC => rowsCOX
  | 0xD => rowsSAF
  | 0xE => rowsCFG
  | 0xF => rowsEMU
  | 0x10 => rowsTRC
  | 0x11 => rowsTUN
  | 0x12 => rowsHIF
  | _ => []

/-- Whether row `r` holds the register at byte address `a` (R7, R9). -/
def RegRow.covers (r : RegRow) (a : Nat) : Bool :=
  decide (r.base ≤ a) &&
    (let o := a - r.base
     let q := o % r.s1
     decide (o / r.s1 < r.n1) && decide (q / r.s2 < r.n2) && decide (q % r.s2 = 0))

/-- The row of the register at byte address `a`, if one is there (R29: an address of a block without one is reserved). -/
def findRow (a : Nat) : Option RegRow :=
  (blockRows (a / 0x10000)).find? fun r => r.covers a

/-- The reset value of the register at `a` (R13), 0 where no register stands. -/
def resetWord (a : Nat) : Word :=
  match findRow a with
  | some r => BitVec.ofNat 32 r.reset
  | none => 0

end Sys2Proof.Machine
end

