-- ==== Sys2Proof/Machine/State.lean ====
section
/-! DEFINITION. The state of the device as plain data: one structure per block for what the spec names beside the registers, the
register file, the memories, the queue of waiting commands, and the state after reset. -/

namespace Sys2Proof.Machine

/-- Reasons a step stops with a fault. No command of the table raises one; the constructor is kept for a state no run reaches
(safe: the machine stops). -/
inductive Fault where
  /-- Raised by nothing in this model. Safe. -/
  | impossible
  deriving DecidableEq, Repr

/-- Reasons a command is refused. -/
inductive Refusal where
  /-- The command has no meaning yet; raised by `exec` alone, by the command's mnemonic. Safe: nothing happens. -/
  | notModelled (mnemonic : String)
  deriving DecidableEq, Repr

/-! ### Events and the recorder (R22, R433-R457) -/

/-- Severity notes (R23): base is fault, heart is warning, top is information. -/
inductive Note where
  | base | heart | top
  deriving DecidableEq, Repr

/-- An event as a block posts it (R22): code, note, argument (R439), and the snapshot words that the recorder itself supplies
(`WALL_STEP`, R448). -/
structure Event where
  code : Nat
  note : Note
  arg : Word
  own : List Word
  deriving DecidableEq, Repr

/-- How the argument of a rate-limited event is formed (R622). -/
inductive ArgForm where
  /-- The argument of the latest occurrence. -/
  | plain
  /-- The number of occurrences since the previous posting. -/
  | count
  /-- `TMR_CMP` (R473): the low byte names timer and source, bits [15:8] count the matches. -/
  | timer
  deriving DecidableEq, Repr

/-- An open rate-limit window (R622): the event, its scope, when it ends, how long it is, the occurrences held back in it. -/
structure Window where
  code : Nat
  scope : Nat
  note : Note
  form : ArgForm
  arg : Word
  ends : Nat
  length : Nat
  held : Nat
  deriving DecidableEq, Repr

/-- A Sillage record (R439); CHECK is computed from it (R440). -/
structure Rec where
  code : Nat
  note : Note
  snaps : Nat
  vault : Bool
  trigger : Nat
  isMatched : Bool
  held : Bool
  seq : Nat
  dt : Nat
  wt : Nat
  arg : Word
  snap : List Word
  deriving DecidableEq, Repr

/-- An occupied line of the ring: its number, and the note and SEQ of its record. -/
structure RingLine where
  line : Nat
  note : Note
  seq : Nat
  deriving DecidableEq, Repr

/-- A staging page of the spill (R452): its records, when the first arrived, whether it waits for the store port. -/
structure Stage where
  recs : List Rec
  since : Nat
  handed : Bool
  deriving DecidableEq, Repr

/-- Sillage: the sequence counter, the intake, the holding queue, the ring's bookkeeping, the vault and the staging pages. -/
structure SilSt where
  seq : Nat
  intake : List Rec
  hold : List Rec
  /-- Occupied lines, oldest record first (the age order of R442). -/
  lines : List RingLine
  retired : List Nat
  stopped : Bool
  lastLine : Nat
  ready : Bool
  /-- The clearing pass of SIL_CLEAR runs (R447). -/
  clearing : Bool
  vault : List Rec
  prior : List Bool
  overwrites : Nat
  dropHeart : Nat
  dropTop : Nat
  holdHeart : Nat
  holdTop : Nat
  stages : List Stage
  spillLost : Nat
  /-- When the freeze in force reaches FREEZE_MAX (R445). -/
  freezeEnd : Option Nat
  deriving DecidableEq, Repr

/-- An entry of the event queue (R489): code, notes, priorities, argument, the ms of entry, since when it has its priority, and
whether each word is poisoned (R484). -/
structure EvqEntry where
  code : Nat
  note : Note
  prio : Nat
  prioIn : Nat
  ms : Nat
  arg : Word
  since : Nat
  deriving DecidableEq, Repr

/-- The event queue (R488-R492). -/
structure EvqSt where
  /-- Entries in the order in which they entered EVQ. -/
  entries : List EvqEntry
  intake : List EvqEntry
  pop1 : Word
  wmHit : Bool
  wmCount : Nat
  ovf : Bool
  lost : Vector Nat 4
  promoted : Nat
  deriving DecidableEq, Repr

/-- The crossing flags of a port's two frame queues (R487). -/
structure PortWm where
  txHit : Bool
  txCount : Nat
  rxHit : Bool
  rxCount : Nat
  deriving DecidableEq, Repr

/-- The capture registers of a timer (R472). -/
structure Capt where
  value : Word
  isNew : Bool
  ovr : Bool
  deriving DecidableEq, Repr

/-- The trace port and the counters (R544-R550). -/
structure TrcSt where
  /-- The live counters that are not 0, by number. -/
  counters : List (Nat × Nat)
  snap : Option (List (Nat × Nat))
  /-- Upper bits latched by a read of `TRC.CNTi_LO` (R550). -/
  latched : List (Nat × Nat)
  buf : List Byte
  /-- The lengths of the packets in the buffer, of the first what is still to be sent. -/
  sizes : List Nat
  /-- Up to when the buffer's draining at one byte per 10 ns is accounted for (R544). -/
  bufAt : Nat
  seq : Nat
  lost : Nat
  /-- Packets dropped since the previous LOSS packet (R545). -/
  lossRun : Nat
  syncAt : Option Nat
  levelAt : Option Nat
  /-- DECISION packets due in this cycle: argument and LAT (R545). -/
  decisions : List (Word × Nat)
  deriving DecidableEq, Repr

/-- `HIRQ_N` (R543): asserted, and the end of a REEDGE pulse. -/
structure IrqSt where
  asserted : Bool
  pulseEnd : Option Nat
  deriving DecidableEq, Repr

/-- The w1c bits that hardware has set in one CLK_CORE cycle (R13): the number of the cycle, and the bits by register address. -/
structure Fresh where
  cyc : Nat
  bits : List (Nat × Word)
  deriving DecidableEq, Repr

/-- What the device records and reports about itself: the parts that the end of every command brings up to date. -/
structure Obs where
  posted : List Event
  windows : List Window
  sil : SilSt
  evq : EvqSt
  wm : Vector PortWm 16
  capt : Vector Capt 8
  trc : TrcSt
  irq : IrqSt
  /-- The w1c bits set in the cycle in which hardware last set any (R13). -/
  fresh : Fresh
  /-- While `COEX_REQ` is asserted: LEAD_US, as it stood then, after it rose (R385, R400). -/
  leadAt : Option Nat
  /-- Since when every effective role has been off, off or sniff with a port in sniff (R569), and every radio state OFF or STANDBY
  (R565). -/
  offSince : Option Nat
  idleSince : Option Nat
  synIdleSince : Option Nat
  deriving DecidableEq, Repr

/-! ### Phases (R37-R42, R623) -/

/-- The operating phases (R37). -/
inductive Phase where
  | start | run | test | recovery | safe
  deriving DecidableEq, Repr

/-- GEN: the phase, the cause of the last entry to RECOVERY or SAFE, SAFE BOOT, the recovery limit's end, and whether a RECOVERY
has turned the fields off until RUN (R623). -/
structure GenSt where
  phase : Phase
  cause : Nat
  safeBoot : Bool
  rlimitEnd : Option Nat
  fieldsOff : Bool
  deriving DecidableEq, Repr

/-- A profile of the applied image (R512): the block (base bits [23:16]), the page it holds for (none: block-wide), its index and
its pairs of offset and value. -/
structure Profile where
  block : Nat
  page : Option Nat
  index : Nat
  pairs : List (Nat × Word)
  deriving DecidableEq, Repr

/-! ### Timers (R466-R475) -/

/-- A general timer: when it ticks next (none: stopped). -/
structure TimerSt where
  nextTick : Option Nat
  deriving DecidableEq, Repr

/-! ### Queues and check values (R480-R497) -/

/-- A word in a frame queue with its POISON tag (R484). -/
structure QWord where
  w : Word
  poison : Bool
  deriving DecidableEq, Repr

/-- A port's frame queues. -/
structure PortQ where
  tx : List QWord
  rx : List QWord
  /-- When TXQn was last pushed to, and how many words were in that cycle (R194). -/
  pushedAt : Nat
  newWords : Nat
  deriving DecidableEq, Repr

/-- A check-value channel (R493-R496): the parameters latched by START, the running register, the bytes since START. -/
structure CrcSt where
  width : Nat
  poly : Nat
  xorOut : Nat
  refIn : Bool
  refOut : Bool
  foldMode : Nat
  fold : Word
  reg : Nat
  bytes : Nat
  /-- The range being processed: its address and length, and the earliest time at which it can be over (R495). -/
  range : Option (Nat × Nat)
  rangeEnd : Nat
  deriving DecidableEq, Repr

/-! ### Configuration and commands (R503-R528) -/

/-- An authenticated command in progress (R523): opcode, counter and payload. -/
structure AuthCmd where
  opcode : Nat
  counter : Nat
  payload : List Byte
  /-- The counter's NV write has verified (R524): the command acts next. -/
  stored : Bool
  deriving DecidableEq, Repr

/-- A copy of the configuration key (R525): the key, its generation, and whether its CRC-32C holds. -/
structure KeyCopy where
  key : List Byte
  gen : Nat
  valid : Bool
  deriving DecidableEq, Repr

/-- A boot access command in progress (R520). -/
inductive BootOp where
  | read | program | erase
  deriving DecidableEq, Repr

/-- CFG: the boot memory (bytes unlike 0xFF), the key copies, the stored counter, the device number, what is in progress. -/
structure CfgSt where
  boot : List (Nat × Byte)
  keys : List KeyCopy
  counter : Nat
  uidLo : Word
  uidHi : Word
  auth : Option AuthCmd
  /-- The boot access command in progress and the address it was given. -/
  bootOp : Option (BootOp × Nat)
  /-- The bytes that the command in progress programs. -/
  bootData : List Byte
  /-- A rollback check is running (R519). -/
  rollback : Bool
  /-- The restart of a rollback comes next (R519, R560). -/
  rolled : Bool
  /-- The counter that the NV write of a key rotation is replacing by 0 (R525, R526). -/
  zeroing : Option Nat
  /-- The command bytes that the last boot access command placed on the bus of the boot memory, transfer by transfer (R505, R507). -/
  wire : List (List Byte)
  deriving DecidableEq, Repr

/-- The host port: the words that the last transaction returned in its data phase (R531), and a push that waits for room with `HRDY`
low (R483): the port, the words not yet pushed, since when. -/
structure HifSt where
  out : List Word
  waiting : Option (Nat × List Word × Nat)
  /-- Upper words of session times latched and not yet read, by address (R248). -/
  ctxHeld : List (Nat × Word)
  deriving DecidableEq, Repr

/-! ### Power (R556-R576) -/

/-- Where the device stands between running and asleep (R568-R573). -/
inductive Awake where
  | reset | running | sleep | sniff
  deriving DecidableEq, Repr

/-- A request for a power state (R569). -/
inductive PwrReq where
  | sleep | sniff
  deriving DecidableEq, Repr

/-- PWR: whether CLK_CORE runs, the pending request, the request under which an entry is past step 1 of R571, and the SLOW edge E0 at
which CLK_CORE stopped. -/
structure PwrSt where
  awake : Awake
  pending : Option PwrReq
  entering : Option PwrReq
  sleepAt : Nat
  /-- The slow crystal has failed while CLK_CORE was stopped (R566). -/
  slowFailed : Bool
  deriving DecidableEq, Repr

/-! ### Field engine (R53-R96) -/

/-- Radio states (R69, R100). -/
inductive Radio where
  | off | standby | field | tx | rx | cal
  deriving DecidableEq, Repr

/-- Where a port's field ramp stands (R63, R66, R68), each with the time at which it ends. `biasOn` and `biasOff` are the T_BIAS
intervals of a relay port; `down` says whether the ramp holds a ramp slot. -/
inductive Ramp where
  | none
  | biasOn (ends : Nat)
  | up (ends : Nat)
  | down (ends : Nat) (slot : Bool)
  | biasOff (ends : Nat)
  deriving DecidableEq, Repr

/-- A port of the field engine. -/
structure PortF where
  radio : Radio
  ramp : Ramp
  /-- The carrier runs (R63, R66), ramps included. -/
  carrier : Bool
  /-- When the port left OFF, while its transmit chain biases (R71). -/
  biasFrom : Option Nat
  /-- Field-on requested, since when (R68, R80). -/
  wantOn : Option Nat
  /-- Field-off requested and waiting for a ramp slot or for keep-out, since when (R68, R86). -/
  wantOff : Option Nat
  /-- The first and the last of the bins for which the duty gate has admitted the port (R80). -/
  admitted : Option (Nat × Nat)
  guardEnd : Option Nat
  /-- A field reset has been asked for (R74); the end of its RESET_OFF. -/
  resetAsked : Bool
  resetEnd : Option Nat
  /-- No field-on ramp starts before this time (R74), and when the last field-off ramp ended. -/
  notBefore : Nat
  offAt : Nat
  onSince : Option Nat
  /-- The modulation committed or in progress: its start and end, and the limit of the receive window that follows it, 0 for none
  (R87, R88). -/
  txFrom : Nat
  txEnd : Option Nat
  winLen : Nat
  /-- The limit of the receive window that is open (R87). -/
  window : Option Nat
  /-- A modulation is due since, and the deferral has reached STARVE_LIMIT (R91). -/
  dueSince : Option Nat
  starved : Bool
  /-- Phase and amplitude codes in force, and whether a change waits to be applied (R60). -/
  phase : Nat
  ampl : Nat
  pend : Bool
  /-- The end of a PHASE or AMPL transition in FIELD (R60). -/
  paEnd : Option Nat
  /-- What `txFrom` and `txEnd` commit to a slot is a ramp (R89). -/
  rampDue : Bool
  /-- The thermal limit (R576) and the locked drive ceiling (R427) in force. -/
  limit : Nat
  ceil : Nat
  /-- The warm-up step in progress and its end (R93), and when each step last completed (R96). -/
  step : Option (Nat × Nat)
  stepDone : List Nat
  /-- Steps asked for out of turn, by bit: by RXE (R140), by a cross-trigger (R474) or rescheduled after an abort (R95). -/
  stepAsked : Nat
  /-- When the matrix retry of an unmeasured port falls due (R82). -/
  retryAt : Nat
  /-- Since when the port has neither modulated nor been in CAL (R160). -/
  quietFrom : Nat
  deriving DecidableEq, Repr

/-- A huddle's timeline (R89): its members, the common end of the transmit phase in progress, the listen phase, since when a slot
is due, starved (R91). -/
structure HuddleSt where
  members : Nat
  txEnd : Option Nat
  listening : Bool
  dueSince : Option Nat
  starved : Bool
  deriving DecidableEq, Repr

/-- The field engine as a whole: the synthesiser, the duty gate's history (port-ms of past bins, newest first), the bin in
progress, which ports have been on in it, N for it and for the next, and the neighbour sets in force. -/
structure FldSt where
  synRun : Bool
  settleEnd : Option Nat
  bins : List Nat
  bin : Nat
  onInBin : Nat
  nNow : Nat
  nNext : Nat
  /-- Ports chosen as surplus for the end of the bin in progress (R79). -/
  victims : Nat
  neigh : Vector Nat 16
  huddles : Vector HuddleSt 4
  ports : Vector PortF 16
  deriving DecidableEq, Repr

/-! ### Tuning and sniff (R101-R126) -/

/-- A frame of the tuner link waiting or in progress (R107, R108): when it was requested, the port and the codes as requested, whether it is
the read frame of a verify, whether the pair is being sent for the second time, and for the frame in progress its end. -/
structure LinkReq where
  asked : Nat
  port : Nat
  code : Word
  isRead : Bool
  again : Bool
  ends : Option Nat
  deriving DecidableEq, Repr

/-- A search in progress (R115, R116): the axis (0 CODE_A, 1 CODE_B) and whether CODE_B follows, the step size, the code in force on
the axis, its D squared once measured, the codes measured on this axis with their D squared, the count of measurements, the code
being measured, and the vector last measured. -/
structure Search where
  axis : Nat
  both : Bool
  step : Nat
  code : Nat
  known : List (Nat × Nat)
  count : Nat
  trying : Option Nat
  /-- The iteration in progress has had a candidate measured and not yet been judged. -/
  mid : Bool
  lastI : Int
  lastQ : Int
  deriving DecidableEq, Repr

/-- The burst of a sniff ping (R119, R120): its amplitude code, the PA_VC code of a relay port, when `PA_EN` rose, when the carrier ran from and
to, and when `PA_EN` fell. -/
structure Burst where
  ampl : Nat
  paVc : Nat
  starts : Nat
  carrierOn : Nat
  carrierOff : Nat
  ends : Nat
  deriving DecidableEq, Repr

/-- A port of TUN. -/
structure PortT where
  /-- A code change waits for SETTLE_US and the cancellation update (R109). -/
  settleEnd : Option Nat
  /-- The end of the operation of R109 in progress on a port with its field on. -/
  opEnd : Option Nat
  /-- CAPTURE_REF takes the next measurement (R114). -/
  refNext : Bool
  /-- A measurement is scheduled (R103, MEASURE), and when the last one was made. -/
  measNext : Bool
  measAt : Nat
  search : Option Search
  /-- Sniff baseline (R123) with 6 fractional bits, and the pings summed so far towards the mean of four. -/
  baseI : Int
  baseQ : Int
  baseCount : Nat
  /-- The confirming ping's time (R124). -/
  confirmAt : Option Nat
  /-- The last ping sent (R119, R120). -/
  burst : Option Burst
  deriving DecidableEq, Repr

/-- TUN: the link's requests in order (the head is in progress), the ports, the sniff rounds (start of the last, the ports still to be
pinged in it). -/
structure TunSt where
  link : List LinkReq
  /-- The frame last sent on `TSDO` (R105, R107). -/
  sent : Word
  lastRound : Nat
  todo : List Nat
  /-- The round in progress was asked for by a cross-trigger (R474, R475). -/
  crossed : Bool
  ports : Vector PortT 16
  deriving DecidableEq, Repr

/-! ### Receive engine (R132-R167) -/

/-- Receiver states (R146). -/
inductive RxState where
  | idle | armed | sofWait | frame
  deriving DecidableEq, Repr

/-- The receiver of a port: its state, the window's technology and rate, whether the next frame follows a re-arm,
SOF_T and FOFS of the frame in progress, the marks collected for RXS0, the noise average with 4 fractional bits. -/
structure PortR where
  state : RxState
  tech : Nat
  rate : Nat
  captured : Bool
  sofT : Nat
  fofs : Nat
  blanked : Bool
  weakAtOpen : Bool
  /-- When the window opened, and when the modulation before it ended. -/
  openAt : Nat
  modEnd : Nat
  /-- Listening for an external reader or initiator (R146): no modulation opened the window. -/
  listening : Bool
  avg : Nat
  /-- The sixteen canceller weights, in 2^-16 of the unit of a sample (R136), and the changes of matrix entries that they take up at the next
  window opening (R137). -/
  weights : List (Int × Int)
  diffs : List (Nat × Int × Int)
  /-- Until when the signal conforms to the preamble (R149), and since when P_r is measured (R152). -/
  preEnd : Nat
  refAt : Nat
  /-- Since when the port itself has let a noise window run (R160, R163). -/
  calmFrom : Nat
  deriving DecidableEq, Repr

/-! ### Protocol engine (R172-R245) -/

/-- What a profile frame is for (R196, R223-R241); `host` marks a frame of a host descriptor. -/
inductive Purpose where
  | host
  /-- REQA/WUPA, anti-collision, SELECT and HLTA of NFC-A (R223, R226). -/
  | reqa | anticoll | select | hlta
  /-- ACC_ENROL, ACC_BENCH of the selected tag, ACC_POLL (R221, R228, R234). -/
  | enrol | bench | accPoll
  /-- ACC_RELEASE of the selected tag and of a group, ACC_BENCH of a group (R271, R273, R290). -/
  | relSel | relGroup | benchGroup
  /-- REQB/WUPB, slot markers, HLTB of NFC-B (R229). -/
  | reqb | slotMark | hltb
  /-- SENSF_REQ (R229). -/
  | sensf
  /-- Inventory, the EOF of the next slot, Stay Quiet and Reset to Ready of NFC-V (R229, R236). -/
  | invent | invSlot | stayQuiet | resetReady
  deriving DecidableEq, Repr

/-- A frame: the fields of a descriptor (R188, R189) and what it is for. -/
structure Frame where
  tech : Nat
  rate : Nat
  rtech : Nat
  rrate : Nat
  crcTx : Bool
  crcRx : Bool
  resp : Bool
  anticoll : Bool
  hold : Bool
  len : Nat
  lastBits : Nat
  tag : Nat
  win : Nat
  scale : Nat
  delay : Nat
  /-- The window limit that PRO sets for a profile poll, in 1/fc; 0 leaves it to WIN (R277). -/
  limit : Nat
  data : List Byte
  purpose : Purpose
  deriving DecidableEq, Repr

/-- A frame planned on a port: since when it is taken (R192), when it may start for the deferral of its grant (R389), whether the
start was held for the synthesiser and since when. -/
structure Plan where
  frame : Frame
  takenAt : Nat
  /-- A word of the descriptor was poisoned (R194) or the descriptor is refused (R198): the result it completes with. -/
  notBefore : Nat
  synSince : Option Nat
  synWait : Nat
  heldSyn : Bool
  deriving DecidableEq, Repr

/-- A reception as delivered: bytes after alignment, bits of the last byte, and the three status words (R164, R190). -/
structure Delivered where
  bytes : List Byte
  lastBits : Nat
  rxs0 : Word
  rxs1 : Word
  rxs2 : Word
  result : Nat
  early : Bool
  deriving DecidableEq, Repr

/-- The exchange in progress: its frame, when its modulation started, whether the frame went out to its end, and a reception
delivered with OVERTAKEN or AFC_RANGE that a later one may replace (R193). -/
structure Exchange where
  plan : Plan
  startAt : Nat
  txDone : Bool
  earlier : Option Delivered
  deriving DecidableEq, Repr

/-- What a port's profile does at present: nothing, a discovery of a list entry, a presence check of a session, or the waking of an
overflow entry (R217, R223, R229, R236, R241). -/
inductive Work where
  | idle
  | discover
  | check (sess : Nat)
  | overflow (index : Nat)
  /-- An Accord group poll: group and selector (R221, R276). -/
  | accord (group selector : Nat)
  /-- A halt or bench owed to a session (R233), or a release owed to a group (R273). -/
  | owed
  deriving DecidableEq, Repr

/-- Progress of an NFC-A selection (R223, R224): the cascade level, the bits known, the identifier's bytes so far, the level's four
bytes once known. -/
structure SelA where
  level : Nat
  known : List Bool
  uid : List Byte
  lvl : List Byte
  sak : Nat
  deriving DecidableEq, Repr

/-- The job of a port: what it does, its technology, the frame to send next, tags identified in the entry, rounds abandoned in
succession, NFC-A selection; NFC-B and NFC-F slots (N, the slot, collided, tags found, rounds at the limit); NFC-V masks; the
tag just identified waiting for its acceptance (R233); PUPIs still to be halted. -/
structure Job where
  work : Work
  /-- The list entry that a discovery or poll runs. -/
  entry : Nat
  tech : Nat
  next : Option Purpose
  wake : Bool
  found : Nat
  abandoned : Nat
  sel : SelA
  slots : Nat
  slot : Nat
  collided : Bool
  fresh : Bool
  rounds : Nat
  masks : List (List Bool)
  mask : List Bool
  /-- The session whose tag is selected at present and is to be halted or benched. -/
  sess : Option Nat
  /-- A tag selected with no session FREE (R240). -/
  surplus : Bool
  ident : List Byte
  accord : Bool
  code : Option Nat
  /-- Identifiers (PUPI or UID) of the tags still to be halted or quietened. -/
  quiet : List (List Byte)
  /-- Identifiers of sessions closed during the check, whose replies are ignored (R245). -/
  ignored : List (List Byte)
  /-- The identifier of the overflow entry that is woken (R241). -/
  woken : List Byte
  /-- Codes that the Accord frame to send next names, and its group. -/
  codes : Nat
  group : Nat
  deriving DecidableEq, Repr

/-- RF collision avoidance of an active-mode port (R207-R210): the wait in progress and how often it has restarted. -/
inductive Rfca where
  | none
  /-- Initial avoidance: since when the external field has been clear (none: it is present), and the restarts so far. -/
  | initial (since : Option Nat) (restarts : Nat)
  /-- Response avoidance: since when T_ADT runs (none: until the field drops), and the restarts so far. -/
  | response (since : Option Nat) (restarts : Nat)
  /-- T_ARFG after the ramp. -/
  | arfg (ends : Nat)
  /-- The next frame's field may come on, or is on with T_ARFG over. -/
  | ready
  /-- An initiator's exchange has ended with the target's field still on (R207 step 7). -/
  | chain
  deriving DecidableEq, Repr

/-- A port of the protocol engine. -/
structure PortP where
  plan : Option Plan
  xch : Option Exchange
  /-- The end of a hold in force (R197). -/
  holdEnd : Option Nat
  /-- Completions waiting to be pushed, and the words of the one being pushed that remain (R195). -/
  staged : List (List Word)
  /-- Words of the first staged completion are in RXQn already (R482). -/
  pushing : Bool
  /-- An incomplete descriptor to be discarded once its last word is in (R200). -/
  flushing : Bool
  /-- End of the previous exchange and its technology (R183). -/
  lastEnd : Nat
  lastTech : Nat
  /-- The place in the polling list and the list it is a place in; the job; a WAIT in progress. -/
  entry : Nat
  list : Nat
  job : Option Job
  /-- A discovery that waits while a presence check runs between its rounds (R217). -/
  paused : Option Job
  waitEnd : Option Nat
  /-- The WAIT in progress, or just ended, takes the field off meanwhile (R220). -/
  offWait : Bool
  /-- Sessions whose halt or bench is owed (R233), oldest first. -/
  owed : List Nat
  rfca : Rfca
  /-- The carrier power of others at the aerial, v meaning -v dBFS (R142). -/
  extLevel : Nat
  deriving DecidableEq, Repr

/-- Session states (R231). -/
inductive SessState where
  | free | open_ | quiet | check | closing
  deriving DecidableEq, Repr

/-- A session context (R231, R247). -/
structure Session where
  state : SessState
  port : Nat
  tech : Nat
  ident : List Byte
  accord : Bool
  enrol : Option (Nat × Nat)
  /-- The group and code held for an enrolment in progress (R270). -/
  assigned : Option (Nat × Nat)
  firstSeen : Nat
  lastSeen : Nat
  misses : Nat
  benchEnd : Option Nat
  /-- When the next presence check falls due (R236, R237). -/
  dueAt : Option Nat
  /-- KEEPER of R247. -/
  decision : Nat
  /-- The reply length that ACD has recorded (R271). -/
  replyLen : Nat
  /-- A parity error has closed it: a decision still due is made with DRIVEN 0 (R413). -/
  undriven : Bool
  deriving DecidableEq, Repr

/-- An entry of the overflow list (R240, R241). -/
structure OvfEntry where
  port : Nat
  tech : Nat
  ident : List Byte
  dueAt : Nat
  deriving DecidableEq, Repr

/-! ### Accord (R250-R292) -/

/-- A code in quarantine (R272): port, group, code, and until when. -/
structure Quar where
  port : Nat
  group : Nat
  code : Nat
  ends : Nat
  deriving DecidableEq, Repr

/-- One code channel of an Accord poll as measured: RESULT (R286), EARLY, length byte, STAGE, POWER, FOFS, START, SINR and the
payload. -/
structure ChanRes where
  code : Nat
  early : Bool
  result : Nat
  n : Nat
  stage : Nat
  power : Nat
  fofs : Nat
  start : Nat
  sinr : Nat
  payload : List Byte
  deriving DecidableEq, Repr

/-- A group poll in progress on a port (R276-R289). -/
structure AccPoll where
  group : Nat
  mask : Nat
  selector : Nat
  /-- Codes whose preamble has been detected, and codes whose sync word has begun. -/
  detected : Nat
  synced : Nat
  /-- The cancellation order, once fixed (R282). -/
  order : Option (List Nat)
  /-- Codes ended by AFC_RANGE (R157, R284). -/
  ranged : Nat
  /-- SIC_STAGES as it stood when the poll was sent (R282, R292). -/
  stages : Nat
  /-- When the window closed (R285). -/
  closed : Option Nat
  /-- The RESULT that a cut gives the exchange (R192, R292). -/
  cut : Option Nat
  /-- BLANKED as the window closed (R165). -/
  blanked : Bool
  deriving DecidableEq, Repr

/-- Accord on a port: the poll in progress, releases owed at the next exchange boundary (group, mask; R273), the noise average of the
fc/4 filter with 4 fractional bits (R281), the reply length of each session by number, tries of the enrolment in progress. -/
structure PortA where
  poll : Option AccPoll
  releases : List (Nat × Nat)
  avg : Nat
  enrolTries : Nat
  deriving DecidableEq, Repr

/-! ### Keeper (R295-R336) -/

/-- A lookup slot (R321): the sessions joined to it in order of submission, h and H2, the bank, P and T of that bank, the page and
shelf being read, the hop, the STALE mark, whether the shelf read has been handed to the store, and when the final byte was
accepted (R549 counter 110). -/
structure Lookup where
  slot : Nat
  sess : List Nat
  h : Nat
  h2 : Nat
  bank : Nat
  page : Nat
  shelf : Nat
  hop : Nat
  stale : Bool
  since : Nat
  deriving DecidableEq, Repr

/-- A lane (R329, R330): the ends of the running pulses. -/
structure LaneSt where
  goEnd : Option Nat
  alertEnd : Option Nat
  deriving DecidableEq, Repr

/-- Values of a roster bank in NV (R303), and its map signature (R345). -/
structure BankVals where
  ver : Nat
  p : Nat
  t : Nat
  entries : Nat
  sig : Nat
  deriving DecidableEq, Repr

/-- Keeper: the slots in flight, the identifiers waiting for a slot oldest first (session and when submitted), the next way of the
sweep (none before the first RUN), when the invalidation pass in progress started, the values of a commit being written to
NV, the banks and the active bank in NV, the lanes. -/
structure KprSt where
  slots : List Lookup
  waiting : List (Nat × Nat)
  sweep : Option Nat
  pass : Option Nat
  commit : Option (Nat × BankVals)
  nvBanks : List BankVals
  nvActive : Nat
  lanes : Vector LaneSt 16
  deriving DecidableEq, Repr

/-! ### Store port (R337-R361) -/

/-- What a store operation is for (R346, R347). -/
inductive StoKind where
  /-- A shelf read of a lookup slot (R323). -/
  | shelf (slot : Nat)
  /-- Host commands on a buffer (R350): read with its column and length, program, erase. -/
  | hostRead (buf col len : Nat)
  | hostProgram (buf : Nat)
  | hostErase (buf : Nat)
  /-- Reads of the head search (R356). -/
  | headRead
  /-- The erase before a spill page in a new block, and the program of a staging page (R355). -/
  | spillErase
  | spillProgram
  /-- Writing a copy of the grown list (R342). -/
  | grownWrite
  deriving DecidableEq, Repr

/-- An item that STO places on the bus of a chip select (R337, R621): GET_FEATURE with its address, a read from cache with its length. -/
inductive BusItem where
  | dieSelect | pageRead
  | getFeature (addr : Nat)
  | cacheRead (len : Nat)
  | writeEnable | progLoad | progExec | erase | suspend | resume | reset
  deriving DecidableEq, Repr

/-- A store operation: what for, region (0 A, 1 B, 2 log, 3 reserve) and logical page (for the reserve: the part), the die it runs on
and the physical block it touches once it has started, since when it runs, how often it has been suspended, and whether it is
suspended now. -/
structure StoOp where
  kind : StoKind
  region : Nat
  page : Nat
  die : Nat
  block : Nat
  started : Option Nat
  suspends : Nat
  suspended : Bool
  deriving DecidableEq, Repr

/-- The search for the ring head (R356): bisecting blocks or pages, the bounds, the best sequence seen. -/
inductive HeadSearch where
  /-- Not started, since no RUN has been entered or the store is not ready. -/
  | waiting
  | blocks (lo hi : Nat) (best : Option (Nat × Nat))
  | pages (block lo hi : Nat) (best : Nat × Nat)
  /-- Found: the next page to write and its PAGE_SEQ, and whether the page's block is to be erased first. -/
  | found
  deriving DecidableEq, Repr

/-- Store port: the queue (oldest first, operations in progress included), the bad blocks of the image, the grown list as STO holds it
and as the reserve of the store holds it (R341, R342), the host buffers' bytes unlike 0, the head search, the PAGE_SEQ of the next
page, the retry of the start-up, the bytes last loaded into the store for a program (R354). -/
structure StoSt where
  queue : List StoOp
  badTable : List Nat
  grown : List Nat
  reserve : List Nat
  buf0 : List (Nat × Byte)
  buf1 : List (Nat × Byte)
  search : HeadSearch
  /-- The block of the page at HEAD has been erased for this pass (R355). -/
  erased : Bool
  spillSeq : Nat
  retryAt : Nat
  loaded : List Byte
  /-- The items last placed on a bus with their command bytes, and the die last addressed on each chip select (R337, R621). -/
  wire : List (BusItem × List Byte)
  addressed : List (Option Nat)
  deriving DecidableEq, Repr

/-! ### Tag emulation (R362-R383) -/

/-- States of the emulated tag (R367), READY with the cascade level reached. -/
inductive TagState where
  | off | idle | ready | active | halt | bench
  deriving DecidableEq, Repr

/-- An update of a counter in progress (R378): the counter, the value it came from, the step (1 to 4), whether that step is being
repeated. -/
structure CtrUpd where
  ctr : Nat
  value : Nat
  seq : Nat
  step : Nat
  again : Bool
  deriving DecidableEq, Repr

/-- A sync in progress (R375): the bytes it writes, and the end it must reach. -/
structure SyncRun where
  slot : Nat
  bytes : List Byte
  deriving DecidableEq, Repr

/-- Tag emulation: the tag, what its selection reads, the data area (bytes unlike 0), the island's NV area (bytes unlike 0xFF), the
counter updates waiting and in progress, the sync, the held host write, the bench and its retention cell. -/
structure EmuSt where
  tag : TagState
  /-- The cascade level of READY; READY* and ACTIVE* of ISO/IEC 14443-3 (woken from HALT). -/
  level : Nat
  fromHalt : Bool
  /-- The tag is served by the harvest island (R373). -/
  harvest : Bool
  /-- The selection entered ACTIVE while WIRE_LOCK was 1 (R370). -/
  lockedSel : Bool
  /-- The snapshot a selection reads (R370): the data area as it stood. -/
  snapshot : Option (List (Nat × Byte))
  publishing : Bool
  /-- The first READ with data of the selection has been answered (R377). -/
  counted : Bool
  data : List (Nat × Byte)
  nv : List (Nat × Byte)
  updates : List CtrUpd
  sync : Option SyncRun
  /-- A second sync follows (R382). -/
  syncAgain : Bool
  /-- Held host writes (R369): the word number in `EMU.DATA` of the first, the words in order, and when the hold of the first began. -/
  heldWrite : Option (Nat × List Word × Nat)
  benchEnd : Option Nat
  /-- The retention cell (R380): remaining bench in units of time. -/
  cell : Option Nat
  /-- The cell has been without supply since it was last read. -/
  dark : Bool
  /-- The external field at the emulation port, and since when it has been absent (R365). -/
  field : Bool
  absentSince : Option Nat
  /-- The last answer sent by the tag: its bytes (an empty list: none), bits of the last byte. -/
  answer : List Byte
  answerBits : Nat
  answers : Nat
  /-- The data and parity bits of that answer as sent, and when it starts (R363, R366). -/
  answerAir : List Bool
  answerAt : Nat
  deriving DecidableEq, Repr

/-! ### Coexistence (R384-R400) -/

/-- A port's burst before COX: waiting for grant until (R388), deferrals of the frame (R389), when the retry is planned, and whether
the end of a blank's tail holds it. -/
structure PortX where
  waitEnd : Option Nat
  deferrals : Nat
  retryAt : Option Nat
  deriving DecidableEq, Repr

/-- COX: the inputs as seen, since when each blank has been asserted and whether it is ignored, when the
last blank deasserted (R393), and a lowering being written to NV. -/
structure CoxSt where
  grant : Bool
  blank0 : Bool
  blank1 : Bool
  since0 : Option Nat
  since1 : Option Nat
  stuck0 : Bool
  stuck1 : Bool
  ended0 : Option Nat
  ended1 : Option Nat
  ports : Vector PortX 16
  /-- The lowering accepted and not yet in force (R426). -/
  lower : Option (List Byte)
  /-- The regulatory values in NV, once sealed (R423): `COX.REG_GLOBAL`, `COX.REG_TRIM` and the sixteen `COX.REG_CEILn`. -/
  sealed : Option (List Word)
  deriving DecidableEq, Repr

/-! ### Safety (R402-R431) -/

/-- An injection waiting for its detector (R421). -/
structure Inject where
  code : Nat
  target : Nat
  trip : Bool
  since : Nat
  deriving DecidableEq, Repr

/-- The safety monitor: whether it holds the safe state (R414, R416), the cause that CORE has not seen yet (code, port or lane; R415),
whether CLK_CORE has stopped under code 5, MON's copies of the lanes' EN and ALERT_POL and when the readback of each lane starts
(R409), the last toggle of the heartbeat (R412), the injection in progress, whether RUN has been entered since reset (R418). -/
structure SafSt where
  safe : Bool
  unseen : Option (Nat × Nat)
  clkLost : Bool
  enCopy : Nat
  polCopy : Nat
  fbFrom : Vector Nat 16
  beatAt : Nat
  inject : Option Inject
  /-- When the safe state was latched (R430). -/
  tripAt : Nat
  hasRun : Bool
  deriving DecidableEq, Repr

/-- Input pins whose level no register or other part of the state shows: `HCS_N` low, `TEST_EN` high, `RST_N` low, `LANE_FB_n`, and
whether `VDD_AON` is present (R589). -/
structure PinSt where
  hcsLow : Bool
  testEn : Bool
  rstLow : Bool
  laneFb : Nat
  aon : Bool
  deriving DecidableEq, Repr

/-! ### The machine -/

--STATE-BEGIN
/-- The whole device. -/
structure State where
  /-- Device time since reset release, in 1/12,800 µs (R458): the integer count times 12,800 plus the fraction. -/
  time : Nat
  /-- Registers that differ from their reset values, by host byte address. -/
  regs : List (Nat × Word)
  profiles : List Profile
  /-- The SRAM window, bytes that differ from 0 by host byte address (R27). -/
  sram : List (Nat × Byte)
  gen : GenSt
  pwr : PwrSt
  tmr : Vector TimerSt 8
  que : Vector PortQ 16
  crc : Vector CrcSt 4
  cfg : CfgSt
  hif : HifSt
  field : FldSt
  tun : TunSt
  rxe : Vector PortR 16
  pro : Vector PortP 16
  /-- The session contexts that are not FREE, by number (R231). -/
  sess : List (Nat × Session)
  /-- The overflow list (R240). -/
  overflow : List OvfEntry
  acd : Vector PortA 16
  /-- The quarantine list (R272). -/
  quar : List Quar
  kpr : KprSt
  sto : StoSt
  emu : EmuSt
  cox : CoxSt
  saf : SafSt
  pins : PinSt
  /-- How many free values have been taken: the model's own field, no state of the device. -/
  free : Nat
  obs : Obs
  /-- Commands that wait, first in first out. -/
  pending : List Instr
  deriving DecidableEq, Repr
--STATE-END

/-! ### Reset -/

def SilSt.reset : SilSt :=
  { seq := 0, intake := [], hold := [], lines := [], retired := [], stopped := false,
    lastLine := 0, ready := false, clearing := false, vault := [], prior := [], overwrites := 0, dropHeart := 0, dropTop := 0,
    holdHeart := 0, holdTop := 0, stages := [], spillLost := 0, freezeEnd := none }

def EvqSt.reset : EvqSt :=
  { entries := [], intake := [], pop1 := 0, wmHit := false, wmCount := 0, ovf := false, lost := Vector.replicate 4 0,
    promoted := 0 }

def TrcSt.reset : TrcSt :=
  { counters := [], snap := none, latched := [], buf := [], sizes := [], bufAt := 0, seq := 0, lost := 0, lossRun := 0, syncAt := none,
    levelAt := none, decisions := [] }

def Obs.reset : Obs :=
  { posted := [], windows := [], sil := SilSt.reset, evq := EvqSt.reset,
    wm := Vector.replicate 16 { txHit := false, txCount := 0, rxHit := false, rxCount := 0 },
    capt := Vector.replicate 8 { value := 0, isNew := false, ovr := false }, trc := TrcSt.reset,
    irq := { asserted := false, pulseEnd := none }, fresh := { cyc := 0, bits := [] }, leadAt := none, offSince := none, idleSince := none, synIdleSince := none }

def CrcSt.reset : CrcSt :=
  { width := 32, poly := 0x1EDC6F41, xorOut := 0xFFFFFFFF, refIn := true, refOut := true, foldMode := 0, fold := 0,
    reg := 0xFFFFFFFF, bytes := 0, range := none, rangeEnd := 0 }

def GenSt.reset : GenSt :=
  { phase := .start, cause := 0, safeBoot := false, rlimitEnd := none, fieldsOff := false }

def PwrSt.reset : PwrSt :=
  { awake := .reset, pending := none, entering := none, sleepAt := 0, slowFailed := false }

def CfgSt.reset : CfgSt :=
  { boot := [], keys := [{ key := List.replicate 16 0, gen := 0, valid := true }, { key := List.replicate 16 0, gen := 0, valid := true }],
    counter := 0, uidLo := 0, uidHi := 0, auth := none, bootOp := none, bootData := [], rollback := false, rolled := false, zeroing := none, wire := [] }

def PortF.reset : PortF :=
  { radio := .off, ramp := .none, carrier := false, biasFrom := none, wantOn := none, wantOff := none, admitted := none,
    guardEnd := none, resetAsked := false, resetEnd := none, notBefore := 0, offAt := 0, onSince := none, txFrom := 0,
    txEnd := none, winLen := 0, window := none, dueSince := none, starved := false, phase := 0, ampl := 0, pend := false, paEnd := none, rampDue := false, limit := 1023, ceil := 1023,
    step := none, stepDone := List.replicate 6 0, stepAsked := 0, retryAt := 0, quietFrom := 0 }

def FldSt.reset : FldSt :=
  { synRun := false, settleEnd := none, bins := [], bin := 0, onInBin := 0, nNow := 0, nNext := 0, victims := 0,
    neigh := Vector.replicate 16 0,
    huddles := Vector.replicate 4 { members := 0, txEnd := none, listening := false, dueSince := none, starved := false },
    ports := Vector.replicate 16 PortF.reset }

def PortT.reset : PortT :=
  { settleEnd := none, opEnd := none, refNext := false, measNext := false, measAt := 0, search := none, baseI := 0, baseQ := 0, baseCount := 0,
    confirmAt := none, burst := none }

def TunSt.reset : TunSt :=
  { link := [], sent := 0, lastRound := 0, todo := [], crossed := false, ports := Vector.replicate 16 PortT.reset }

def PortR.reset : PortR :=
  { state := .idle, tech := 0, rate := 0, captured := false, sofT := 0, fofs := 0, blanked := false,
    weakAtOpen := false, openAt := 0, modEnd := 0, listening := false, avg := 0, weights := List.replicate 16 (0, 0), diffs := [],
    preEnd := 0, refAt := 0, calmFrom := 0 }

def PortP.reset : PortP :=
  { plan := none, xch := none, holdEnd := none, staged := [], pushing := false, flushing := false, lastEnd := 0, lastTech := 0, entry := 0, list := 0,
    job := none, paused := none, waitEnd := none, offWait := false, owed := [], rfca := .none, extLevel := 255 }

def PortA.reset : PortA := { poll := none, releases := [], avg := 0, enrolTries := 0 }

def KprSt.reset : KprSt :=
  { slots := [], waiting := [], sweep := none, pass := none, commit := none,
    nvBanks := [{ ver := 0, p := 0, t := 0, entries := 0, sig := 0 }, { ver := 0, p := 0, t := 0, entries := 0, sig := 0 }], nvActive := 0,
    lanes := Vector.replicate 16 { goEnd := none, alertEnd := none } }

def StoSt.reset : StoSt :=
  { queue := [], badTable := [], grown := [], reserve := [], buf0 := [], buf1 := [], search := .waiting, erased := false,
    spillSeq := 0, retryAt := 0, loaded := [], wire := [], addressed := [none, none] }

/-- The counter cells of R374 at value 0 with SEQ 0, cells 0 to 7. -/
def cells0Low : List (Nat × Byte) :=
  [(0, 0), (1, 0), (2, 0), (3, 0), (4, 0), (5, 0), (6, 39), (7, 135),
   (8, 0), (9, 0), (10, 0), (11, 0), (12, 0), (13, 0), (14, 242), (15, 24),
   (16, 0), (17, 0), (18, 0), (19, 0), (20, 0), (21, 1), (22, 21), (23, 161),
   (24, 0), (25, 0), (26, 0), (27, 0), (28, 0), (29, 1), (30, 192), (31, 62),
   (32, 0), (33, 0), (34, 0), (35, 0), (36, 0), (37, 2), (38, 67), (39, 203),
   (40, 0), (41, 0), (42, 0), (43, 0), (44, 0), (45, 2), (46, 150), (47, 84),
   (48, 0), (49, 0), (50, 0), (51, 0), (52, 0), (53, 3), (54, 113), (55, 237),
   (56, 0), (57, 0), (58, 0), (59, 0), (60, 0), (61, 3), (62, 164), (63, 114)]

/-- The counter cells of R374 at value 0 with SEQ 0, cells 8 to 15. -/
def cells0High : List (Nat × Byte) :=
  [(64, 0), (65, 0), (66, 0), (67, 0), (68, 0), (69, 4), (70, 239), (71, 31),
   (72, 0), (73, 0), (74, 0), (75, 0), (76, 0), (77, 4), (78, 58), (79, 128),
   (80, 0), (81, 0), (82, 0), (83, 0), (84, 0), (85, 5), (86, 221), (87, 57),
   (88, 0), (89, 0), (90, 0), (91, 0), (92, 0), (93, 5), (94, 8), (95, 166),
   (96, 0), (97, 0), (98, 0), (99, 0), (100, 0), (101, 6), (102, 139), (103, 83),
   (104, 0), (105, 0), (106, 0), (107, 0), (108, 0), (109, 6), (110, 94), (111, 204),
   (112, 0), (113, 0), (114, 0), (115, 0), (116, 0), (117, 7), (118, 185), (119, 117),
   (120, 0), (121, 0), (122, 0), (123, 0), (124, 0), (125, 7), (126, 108), (127, 234)]

def EmuSt.reset : EmuSt :=
  { tag := .off, level := 0, fromHalt := false, harvest := false, lockedSel := false, snapshot := none, publishing := false,
    counted := false, data := [], nv := cells0Low ++ cells0High, updates := [], sync := none, syncAgain := false, heldWrite := none, benchEnd := none,
    cell := none, dark := false, field := false, absentSince := none, answer := [], answerBits := 0, answers := 0, answerAir := [], answerAt := 0 }

def CoxSt.reset : CoxSt :=
  { grant := false, blank0 := false, blank1 := false, since0 := none, since1 := none, stuck0 := false,
    stuck1 := false, ended0 := none, ended1 := none,
    ports := Vector.replicate 16 { waitEnd := none, deferrals := 0, retryAt := none }, lower := none, sealed := none }

def SafSt.reset : SafSt :=
  { safe := false, unseen := none, clkLost := false, enCopy := 0, polCopy := 0, fbFrom := Vector.replicate 16 0, beatAt := 0, tripAt := 0,
    inject := none, hasRun := false }

def PinSt.reset : PinSt := { hcsLow := false, testEn := false, rstLow := false, laneFb := 0, aon := true }

/-- The machine right after reset. -/
def State.reset : State :=
  { time := 0, regs := [], profiles := [], sram := [], gen := GenSt.reset, pwr := PwrSt.reset,
    tmr := Vector.replicate 8 { nextTick := none },
    que := Vector.replicate 16 { tx := [], rx := [], pushedAt := 0, newWords := 0 }, crc := Vector.replicate 4 CrcSt.reset, cfg := CfgSt.reset, hif := { out := [], waiting := none, ctxHeld := [] },
    field := FldSt.reset, tun := TunSt.reset, rxe := Vector.replicate 16 PortR.reset, pro := Vector.replicate 16 PortP.reset,
    sess := [], overflow := [], acd := Vector.replicate 16 PortA.reset, quar := [], kpr := KprSt.reset, sto := StoSt.reset,
    emu := EmuSt.reset, cox := CoxSt.reset, saf := SafSt.reset, pins := PinSt.reset, free := 0,
    obs := Obs.reset, pending := [] }

end Sys2Proof.Machine
end

