-- ==== Sys2Proof/Machine/Operands.lean ====
section
/-! DEFINITION. Operand forms: bit fields of words, signed fields, bytes of words, host addresses and port pages, sparse tables
(the one form in which registers, the SRAM window, the boot memory and NV bytes are held). -/

namespace Sys2Proof.Machine

/-! ### Bit fields (R14, R17) -/

/-- The value of field `f` in `w`. -/
def Field.get (f : Field) (w : Word) : Nat := (w.toNat >>> f.lo) % 2 ^ f.width

/-- The mask of field `f`. -/
def Field.mask (f : Field) : Word := BitVec.ofNat 32 ((2 ^ f.width - 1) <<< f.lo)

/-- `w` with field `f` set to `v` modulo its width. -/
def Field.set (f : Field) (w : Word) (v : Nat) : Word :=
  (w &&& ~~~f.mask) ||| BitVec.ofNat 32 ((v % 2 ^ f.width) <<< f.lo)

/-- Whether bit `i` of `n` is 1. -/
def bit (n i : Nat) : Bool := n.testBit i

/-- `n` with bit `i` set to `b`. -/
def setBit (n i : Nat) (b : Bool) : Nat :=
  if n.testBit i = b then n else if b then n + 2 ^ i else n - 2 ^ i

/-- 1 for true, 0 for false. -/
def bnat (b : Bool) : Nat := if b then 1 else 0

/-- The signed value of an unsigned `n` of `w` bits in two's complement. -/
def signed (w n : Nat) : Int := if 2 * (n % 2 ^ w) < 2 ^ w then (n % 2 ^ w : Nat) else (n % 2 ^ w : Nat) - (2 ^ w : Nat)

/-- The two's complement form of `i` in `w` bits. -/
def unsigned (w : Nat) (i : Int) : Nat := (i % (2 ^ w : Nat)).toNat

/-- Saturating addition. -/
def satAdd (limit a b : Nat) : Nat := if limit < a + b then limit else a + b

/-! ### Bytes and words (R7: little-endian) -/

/-- Byte `i` of a word. -/
def wbyte (w : Word) (i : Nat) : Byte := BitVec.ofNat 8 (w.toNat >>> (8 * i))

/-- The four bytes of a word, least significant first. -/
def wordBytes (w : Word) : List Byte := [wbyte w 0, wbyte w 1, wbyte w 2, wbyte w 3]

/-- `n` bytes of a number, least significant first. -/
def leBytes : Nat → Nat → List Byte
  | 0, _ => []
  | k + 1, v => BitVec.ofNat 8 v :: leBytes k (v / 256)

/-- The number whose bytes, least significant first, are given. -/
def leNat : List Byte → Nat
  | [] => 0
  | b :: t => b.toNat + 256 * leNat t

/-- The word of four bytes, least significant first. -/
def ofBytes (b : List Byte) : Word := BitVec.ofNat 32 (leNat (b.take 4))

/-- The words of a byte list, four bytes each; a short last group is padded with zeros. -/
def packWords : List Byte → List Word
  | a :: b :: c :: d :: t => ofBytes [a, b, c, d] :: packWords t
  | [] => []
  | t => [ofBytes t]

/-- The bytes of a word list. -/
def unpackWords : List Word → List Byte
  | [] => []
  | w :: t => wordBytes w ++ unpackWords t

/-! ### Sparse tables -/

namespace Sparse

/-- The value at key `k`, `d` where none is listed. -/
def get {α : Type} : List (Nat × α) → α → Nat → α
  | [], d, _ => d
  | (k', v) :: t, d, k => if k' = k then v else get t d k

/-- The table with `v` at `k`, keys rising. -/
def insert {α : Type} : List (Nat × α) → Nat → α → List (Nat × α)
  | [], k, v => [(k, v)]
  | (k', v') :: t, k, v =>
    if k < k' then (k, v) :: (k', v') :: t
    else if k = k' then (k, v) :: t
    else (k', v') :: insert t k v

/-- The table without key `k`. -/
def erase {α : Type} : List (Nat × α) → Nat → List (Nat × α)
  | [], _ => []
  | (k', v') :: t, k => if k' = k then erase t k else (k', v') :: erase t k

/-- The table with `v` at `k`, where an unlisted key reads `d`: an entry equal to `d` is not listed. -/
def put {α : Type} [DecidableEq α] (m : List (Nat × α)) (d : α) (k : Nat) (v : α) : List (Nat × α) :=
  if v = d then erase m k else insert m k v

/-- The canonical form: keys strictly rising, and no entry equal to what its key reads as when unlisted. -/
def wf {α : Type} [DecidableEq α] (d : Nat → α) : List (Nat × α) → Bool
  | [] => true
  | [(k, v)] => decide (v ≠ d k)
  | (k, v) :: (k', v') :: t => decide (v ≠ d k) && decide (k < k') && wf d ((k', v') :: t)

/-- `n` values from key `k` upwards. -/
def read {α : Type} (m : List (Nat × α)) (d : α) : Nat → Nat → List α
  | _, 0 => []
  | k, n + 1 => get m d k :: read m d (k + 1) n

/-- The table with a run of values written from key `k` upwards. -/
def write {α : Type} [DecidableEq α] (m : List (Nat × α)) (d : α) (k : Nat) : List α → List (Nat × α)
  | [] => m
  | v :: t => write (put m d k v) d (k + 1) t

end Sparse

/-! ### Host addresses (R7, R9, R25, R27) -/

/-- The word-aligned host address of a transaction address (R532 ignores bits [1:0]). -/
def wordAddr (a : Nat) : Nat := (a % 0x1000000) / 4 * 4

/-- The host address after `a` (R532: wraps from 0xFF_FFFC to 0). -/
def nextAddr (a : Nat) : Nat := (a + 4) % 0x1000000

/-- Whether an address lies in the SRAM window (R27). -/
def inSram (a : Nat) : Bool := decide (0x200000 ≤ a) && decide (a < 0xA00000)

/-- Whether an address lies in some block's 64 KiB (R25). -/
def inBlock (a : Nat) : Bool := decide (a < 0x130000)

/-- The number of a block: bits [23:16] of its base (R25). -/
def blockNum : BlockId → Nat
  | .GEN => 0x00 | .PWR => 0x01 | .FLD => 0x02 | .RXE => 0x03 | .PRO => 0x04 | .ACD => 0x05 | .KPR => 0x06 | .STO => 0x07
  | .SIL => 0x08 | .TMR => 0x09 | .QUE => 0x0A | .CRC => 0x0B | .COX => 0x0C | .SAF => 0x0D | .CFG => 0x0E | .EMU => 0x0F
  | .TRC => 0x10 | .TUN => 0x11 | .HIF => 0x12

/-- Whether a block has the header of R43 (GEN has LOCK only, TRC nothing). -/
def hasHeader : BlockId → Bool
  | .GEN => false | .TRC => false | _ => true

/-- Whether the port pages of a block carry a PROFILE and EXPERT pair (R43). -/
def hasPages : BlockId → Bool
  | .FLD => true | .TUN => true | .RXE => true | .PRO => true | .ACD => true | _ => false

/-- Address of the PROFILE register of a block (`page` none) or of a port page (R43). -/
def profileAddr (block : Nat) (page : Option Nat) : Nat :=
  match page with
  | none => block * 0x10000 + 0x8
  | some n => block * 0x10000 + 0x1000 + n % 16 * 0x400

/-- Address of the EXPERT register beside it. -/
def expertAddr (block : Nat) (page : Option Nat) : Nat := profileAddr block page + 4

/-- The page of a register address, where its block's pages carry a pair of their own (R43). -/
def pageOf (a : Nat) : Option Nat :=
  let b := a / 0x10000
  let o := a % 0x10000
  if (b = 0x02 ∨ b = 0x11 ∨ b = 0x03 ∨ b = 0x04 ∨ b = 0x05) ∧ 0x1000 ≤ o ∧ o < 0x5000 then some ((o - 0x1000) / 0x400) else none

end Sys2Proof.Machine
end

