-- ==== Sys2Proof/Machine/Crc.lean ====
section
/-! DEFINITION. Check values: the parameterised CRC of R493, the air CRCs of R177, CRC-32C and its folding (R298), CRC-8 of the
trace port (R545). -/

namespace Sys2Proof.Machine

/-- The low `w` bits of `n` in reverse order. -/
def reflect : Nat → Nat → Nat
  | 0, _ => 0
  | w + 1, n => 2 ^ w * (n % 2) + reflect w (n / 2)

/-- One bit of the reflected algorithm of R493: register `r`, reflected polynomial `q`, data bit `b`. -/
def crcBitR (q r b : Nat) : Nat :=
  if (r ^^^ b) % 2 = 1 then (r / 2) ^^^ q else r / 2

/-- One bit of the direct algorithm of R493 at width `w`. -/
def crcBitD (w poly r b : Nat) : Nat :=
  if ((r >>> (w - 1)) ^^^ b) % 2 = 1 then ((r * 2) % 2 ^ w) ^^^ (poly % 2 ^ w) else (r * 2) % 2 ^ w

/-- The bits of a byte, least significant first, through the reflected algorithm. -/
def crcStepsR (q : Nat) : Nat → Nat → Nat → Nat
  | 0, r, _ => r
  | k + 1, r, b => crcStepsR q k (crcBitR q r (b % 2)) (b / 2)

/-- The bits of a byte, most significant first, through the direct algorithm. -/
def crcStepsD (w poly : Nat) : Nat → Nat → Nat → Nat
  | 0, r, _ => r
  | k + 1, r, b => crcStepsD w poly k (crcBitD w poly r ((b >>> k) % 2)) b

/-- One byte of data (R493, `process`). -/
def crcByte (w poly : Nat) (refIn : Bool) (r : Nat) (b : Byte) : Nat :=
  if refIn then crcStepsR (reflect w poly) 8 r b.toNat else crcStepsD w poly 8 r b.toNat

/-- A run of bytes. -/
def crcBytes (w poly : Nat) (refIn : Bool) (r : Nat) : List Byte → Nat
  | [] => r
  | b :: t => crcBytes w poly refIn (crcByte w poly refIn r b) t

/-- The result shown for a register (R493). -/
def crcFinal (w xorOut : Nat) (refIn refOut : Bool) (r : Nat) : Nat :=
  (if refIn = refOut then r else reflect w r) ^^^ (xorOut % 2 ^ w)

/-- A whole CRC with reflected input and output. -/
def crcReflected (w poly init xorOut : Nat) (l : List Byte) : Nat :=
  crcFinal w xorOut true true (crcBytes w poly true init l)

/-- CRC-32C (R298) over bytes. -/
def crc32c (l : List Byte) : Nat := crcReflected 32 0x1EDC6F41 0xFFFFFFFF 0xFFFFFFFF l

/-- CRC-32C with a 4-byte little-endian prefix (R298). -/
def crc32cFold (v : Nat) (l : List Byte) : Nat := crc32c (leBytes 4 v ++ l)

/-- CRC-8 of a trace packet (R545). -/
def crc8 (l : List Byte) : Nat := crcBytes 8 0x07 false 0 l

/-- CRC_A (R177). -/
def crcA (l : List Byte) : Nat := crcReflected 16 0x1021 0x6363 0 l

/-- CRC_B (R177), used by NFC-B and NFC-V. -/
def crcB (l : List Byte) : Nat := crcReflected 16 0x1021 0xFFFF 0xFFFF l

/-- CRC_F (R177). -/
def crcF (l : List Byte) : Nat := crcBytes 16 0x1021 false 0 l

end Sys2Proof.Machine
end

