-- ==== Sys2Proof/Machine/Ops.lean ====
section
/-! DEFINITION. The named operations over the state: registers and their fields, the SRAM window, device time, counters,
posting events and rate limits. -/

namespace Sys2Proof.Machine

/-! ### Registers -/

/-- The word held for the register at byte address `a`. -/
def State.reg (s : State) (a : Nat) : Word := Sparse.get s.regs (resetWord a) a

/-- The state with the register at `a` holding `w`. -/
def State.setReg (s : State) (a : Nat) (w : Word) : State :=
  { s with regs := Sparse.put s.regs (resetWord a) a w }

/-- A field of the register at `a`. -/
def State.fld (s : State) (a : Nat) (f : Field) : Nat := f.get (s.reg a)

/-- Whether a one-bit field is 1. -/
def State.flag (s : State) (a : Nat) (f : Field) : Bool := decide (s.fld a f ≠ 0)

/-- The state with a field of the register at `a` set. -/
def State.setFld (s : State) (a : Nat) (f : Field) (v : Nat) : State := s.setReg a (f.set (s.reg a) v)

/-! ### The SRAM window (R27) -/

/-- A byte of the SRAM window. -/
def State.sramByte (s : State) (a : Nat) : Byte := Sparse.get s.sram 0 a

/-- `n` bytes of the window. -/
def State.sramRead (s : State) (a n : Nat) : List Byte := Sparse.read s.sram 0 a n

/-- The state with bytes written into the window. -/
def State.sramWrite (s : State) (a : Nat) (b : List Byte) : State := { s with sram := Sparse.write s.sram 0 a b }

/-! ### Device time (R20, R458) and the carrier (R18) -/

/-- Units of time in a microsecond. -/
abbrev usec : Nat := 12800
/-- Units of time in a CLK_CORE cycle (R458). -/
abbrev cycle : Nat := 64
/-- Units of time in a millisecond. -/
abbrev msec : Nat := 12800000
/-- Units of time in a second. -/
abbrev second : Nat := 12800000000

/-- A byte of the recent table as a pass of R314 in progress leaves it: one set a cycle, VERDICT 0 in the sets already cleared. -/
def State.passByte (s : State) (a : Nat) (v : Byte) : Byte :=
  match s.kpr.pass with
  | some t =>
    if 0x200000 ≤ a ∧ a < 0x600000 ∧ a % 16 = 13 ∧ (a - 0x200000) / 64 < (s.time - t) / cycle then v &&& 0xF8 else v
  | none => v

/-- Whether a byte of the window belongs to session contexts, frame buffers, queues or store cache (R27). -/
def heldPart (a : Nat) : Bool := decide (0x600000 ≤ a ∧ a < 0x780000) || decide (0x880000 ≤ a ∧ a < 0xA00000)

/-- `n` bytes of the window as a read shows them. How the structures of R27 lie in their partitions is not stated: those bytes are free. -/
def State.sramSeen (s : State) (a n : Nat) : List Byte := (s.sramRead a n).mapIdx fun i v =>
  if heldPart (a + i) then Config.heldByte (a + i) s.time s.free v else s.passByte (a + i) v

/-- Device time in 1/12,800 µs (R458, R459): it stands still from the SLOW edge at which CLK_CORE stops until the catch-up on wake,
while `time` goes on to pace what runs without CORE. -/
def State.devTime (s : State) : Nat :=
  match s.pwr.awake with
  | .sleep | .sniff => s.pwr.sleepAt
  | .reset | .running => s.time

/-- Device time in µs. -/
def State.dt (s : State) : Nat := s.devTime / usec

/-- Wall time in µs (R463). -/
def State.wt (s : State) : Nat :=
  (s.dt + (s.reg Reg.TMR_WT_OFS_LO).toNat + 0x100000000 * (s.reg Reg.TMR_WT_OFS_HI).toNat) % 2 ^ 64

/-- The carrier frequency in Hz: nominal plus the effective trim (R18, R54). -/
def State.carrier (s : State) : Nat :=
  (13560000 + signed 15 (s.fld Reg.FLD_SYN_STATUS Fld.FLD_SYN_STATUS_EFF_OFFSET)).toNat

/-- The time of `n` carrier cycles (R18), rounded up to a unit. -/
def State.fc (s : State) (n : Nat) : Nat := (n * 12800000000 + s.carrier - 1) / s.carrier

/-! ### Counters of TRC (R549) -/

/-- Counter `i`. -/
def State.counter (s : State) (i : Nat) : Nat := Sparse.get s.obs.trc.counters 0 i

/-- Counter `i` advanced by `n`, saturating at 2^48 - 1. -/
def State.countBy (s : State) (i n : Nat) : State :=
  { s with obs := { s.obs with trc := { s.obs.trc with
      counters := Sparse.put s.obs.trc.counters 0 i (satAdd (2 ^ 48 - 1) (s.counter i) n) } } }

/-- Counter `i` advanced by one. -/
def State.count (s : State) (i : Nat) : State := s.countBy i 1

/-- A write refused by the block numbered `b` (R12, R549). -/
def State.refuse (s : State) (b : Nat) : State := s.count b

/-! ### Coincidence with the host (R13) -/

/-- The w1c bits of the register at `a` that hardware has set in the CLK_CORE cycle in progress (R13). -/
def State.setNow (s : State) (a : Nat) : Word :=
  if s.obs.fresh.cyc = s.time / cycle then
    s.obs.fresh.bits.foldl (fun w p => if p.1 = a then w ||| p.2 else w) 0
  else 0

/-- w1c bits noted as set by hardware in the cycle in progress (R13). -/
def State.noteSet (s : State) (a : Nat) (w : Word) : State :=
  let c := s.time / cycle
  let l := if s.obs.fresh.cyc = c then s.obs.fresh.bits else []
  { s with obs := { s.obs with fresh := { cyc := c, bits := l ++ [(a, w)] } } }

/-! ### Posting events (R22, R433, R488) -/

/-- Post an event, offered to the recorder, EVQ and the trace port at the end of the command. -/
def State.postEvent (s : State) (e : Event) : State :=
  { s with obs := { s.obs with posted := s.obs.posted ++ [e] } }

/-- Post an event with an argument. -/
def State.post (s : State) (code : Nat) (note : Note) (arg : Nat) : State :=
  s.postEvent { code := code, note := note, arg := word arg, own := [] }

/-- The argument of a posting that reports `n` occurrences. -/
def ArgForm.make (f : ArgForm) (arg : Word) (n : Nat) : Word :=
  match f with
  | .plain => arg
  | .count => word n
  | .timer => word (arg.toNat % 256 + 256 * min n 255)

/-- The posting of `n` occurrences of a rate-limited event. -/
def State.postCount (s : State) (w : Window) (n : Nat) : State :=
  s.postEvent { code := w.code, note := w.note, arg := w.form.make w.arg n, own := [] }

/-- The open window of an event and scope. -/
def findWin : List Window → Nat → Nat → Option Window
  | [], _, _ => none
  | w :: t, c, sc => if w.code = c ∧ w.scope = sc then some w else findWin t c sc

/-- The windows without that of an event and scope. -/
def dropWin : List Window → Nat → Nat → List Window
  | [], _, _ => []
  | w :: t, c, sc => if w.code = c ∧ w.scope = sc then dropWin t c sc else w :: dropWin t c sc

/-- The state with its list of windows changed. -/
def State.setWins (s : State) (l : List Window) : State := { s with obs := { s.obs with windows := l } }

/-- The end of a window (R622): held occurrences are posted with their count, and that posting opens the next window at the
window's end; with none held the window closes. -/
def State.closeWin (s : State) (w : Window) : State :=
  let s1 := s.setWins (dropWin s.obs.windows w.code w.scope)
  if w.held = 0 then s1
  else
    (s1.setWins (s1.obs.windows ++ [{ w with ends := w.ends + w.length, held := 0 }])).postCount w w.held

/-- One occurrence of a rate-limited event (R622): posted at once where no window is open, which opens one of `length`; else held
back. A window that has ended by now is closed first. -/
def State.postLimited (s : State) (code scope : Nat) (note : Note) (form : ArgForm) (arg : Word) (length : Nat) : State :=
  let s0 := match findWin s.obs.windows code scope with
    | some w => if w.ends ≤ s.time then s.closeWin w else s
    | none => s
  let fresh : Window := { code := code, scope := scope, note := note, form := form, arg := arg, ends := s.time + length,
                          length := length, held := 0 }
  match findWin s0.obs.windows code scope with
  | some w =>
    if s.time < w.ends then
      s0.setWins (s0.obs.windows.map fun x =>
        if x.code = code ∧ x.scope = scope then { x with held := x.held + 1, arg := arg } else x)
    else
      (s0.setWins (dropWin s0.obs.windows code scope ++ [fresh])).postCount fresh 1
  | none => (s0.setWins (s0.obs.windows ++ [fresh])).postCount fresh 1

/-- One occurrence of an event posted at most once per second, with a plain argument. -/
def State.postSec (s : State) (code scope : Nat) (note : Note) (arg : Nat) : State :=
  s.postLimited code scope note .plain (word arg) second

/-- One occurrence of an event posted at most once per second, its argument the count. -/
def State.postSecCount (s : State) (code scope : Nat) (note : Note) : State :=
  s.postLimited code scope note .count 0 second

/-! ### Answers -/

/-- The outcome of every meaning: the next state. -/
abbrev Out := Host.Outcome State Fault Refusal

end Sys2Proof.Machine
end

