-- ==== Sys2Proof/Machine/Flags.lean ====
section
/-! DEFINITION. Flags and counts: packing the fields of a status word, sticky bits and saturating counts held in registers, the
levels and thresholds of watermarks. -/

namespace Sys2Proof.Machine

/-- A word made of fields. -/
def packF : List (Field × Nat) → Word
  | [] => 0
  | (f, v) :: t => f.set (packF t) v

/-- `w` with some of its fields replaced. -/
def overF (w : Word) : List (Field × Nat) → Word
  | [] => w
  | (f, v) :: t => f.set (overF w t) v

/-- A sticky bit set by hardware (w1c bits, R10, R13). -/
def State.stick (s : State) (a : Nat) (f : Field) : State := (s.setFld a f 1).noteSet a f.mask

/-- A count field advanced by `n`, saturating at its width. -/
def State.bumpBy (s : State) (a : Nat) (f : Field) (n : Nat) : State :=
  s.setFld a f (satAdd (2 ^ f.width - 1) (s.fld a f) n)

/-- A count field advanced by one, saturating. -/
def State.bump (s : State) (a : Nat) (f : Field) : State := s.bumpBy a f 1

/-- A bit of a 16-bit field, bit `i` of it set to `b`. -/
def State.setFldBit (s : State) (a : Nat) (f : Field) (i : Nat) (b : Bool) : State :=
  s.setFld a f (setBit (s.fld a f) i b)

/-- Bit `i` of a field of sticky bits set by hardware (R10, R13). -/
def State.stickBit (s : State) (a : Nat) (f : Field) (i : Nat) : State :=
  (s.setFldBit a f i true).noteSet a (BitVec.ofNat 32 (2 ^ (f.lo + i)))

/-- Whether bit `i` of a field is 1. -/
def State.fldBit (s : State) (a : Nat) (f : Field) (i : Nat) : Bool := (s.fld a f).testBit i

/-- The mask whose bit `i` is `p i`, for `i` below `n`. -/
def maskOf (p : Nat → Bool) : Nat → Nat
  | 0 => 0
  | n + 1 => maskOf p n + (if p n then 2 ^ n else 0)

/-- Whether `p` holds of some number below `n`. -/
def anyBelow (p : Nat → Bool) : Nat → Bool
  | 0 => false
  | n + 1 => anyBelow p n || p n

/-- Whether `p` holds of all numbers below `n`. -/
def allBelow (p : Nat → Bool) : Nat → Bool
  | 0 => true
  | n + 1 => allBelow p n && p n

/-- The smallest number from `k` on, within `n` of it, that `p` holds of. -/
def firstFrom (p : Nat → Bool) : Nat → Nat → Option Nat
  | _, 0 => none
  | k, n + 1 => if p k then some k else firstFrom p (k + 1) n

/-- `f` applied to the state once for each number below `n`, lowest first. -/
def State.each (f : Nat → State → State) : Nat → State → State
  | 0, s => s
  | n + 1, s => f n (State.each f n s)

/-- LEVEL_ABOVE of a watermark (R486). -/
def levelAbove (level wm : Nat) : Bool := decide (wm < level)

/-- A crossing of a watermark (R486): LEVEL_ABOVE rises with DIR 0, falls with DIR 1. -/
def crossing (dir : Nat) (before after : Bool) : Bool := if dir = 0 then !before && after else before && !after

/-- The rank of a note: base above heart above top (R434, R488). -/
def Note.rank : Note → Nat
  | .base => 0 | .heart => 1 | .top => 2

/-- The number of an operating phase in `GEN.PHASE.CUR` (R41). -/
def Phase.num : Phase → Nat
  | .start => 0 | .run => 1 | .test => 2 | .recovery => 3 | .safe => 4

end Sys2Proof.Machine
end

