-- ==== Sys2Proof/Machine/Rotor.lean ====
section
/-! DEFINITION. Complex vectors as RXE, FLD and TUN measure them: turning by a phase offset (R57), scaling to full amplitude and phase offset 0
(R81, R102), the words that hold them (0x4000 is receiver full scale, R99). -/

namespace Sys2Proof.Machine

/-- A complex vector: in-phase and quadrature part. -/
abbrev Vec := Int × Int

/-- cos(2π·k/1024) × 2^30 for k from 0 to 63. -/
def cosQ0 : List Nat :=
  [1073741824, 1073721611, 1073660973, 1073559913, 1073418433, 1073236540, 1073014240, 1072751542, 1072448455, 1072104991,
   1071721163, 1071296985, 1070832474, 1070327646, 1069782521, 1069197120, 1068571464, 1067905576, 1067199483,
   1066453210, 1065666786, 1064840240, 1063973603, 1063066909, 1062120190, 1061133483, 1060106826, 1059040255,
   1057933813, 1056787540, 1055601479, 1054375676, 1053110176, 1051805027, 1050460278, 1049075980, 1047652185,
   1046188946, 1044686319, 1043144360, 1041563127, 1039942680, 1038283080, 1036584389, 1034846671, 1033069992,
   1031254418, 1029400018, 1027506862, 1025575020, 1023604567, 1021595575, 1019548121, 1017462281, 1015338134,
   1013175761, 1010975242, 1008736660, 1006460100, 1004145648, 1001793390, 999403415, 996975812, 994510675]

/-- cos(2π·k/1024) × 2^30 for k from 64 to 127. -/
def cosQ1 : List Nat :=
  [992008094, 989468165, 986890984, 984276646, 981625251, 978936898, 976211688, 973449725, 970651112, 967815955,
   964944360, 962036435, 959092290, 956112036, 953095785, 950043650, 946955747, 943832191, 940673101, 937478595,
   934248793, 930983817, 927683790, 924348837, 920979082, 917574653, 914135678, 910662286, 907154608, 903612776,
   900036924, 896427186, 892783698, 889106597, 885396022, 881652112, 877875009, 874064853, 870221790, 866345964,
   862437520, 858496606, 854523370, 850517961, 846480531, 842411232, 838310216, 834177638, 830013654, 825818421,
   821592095, 817334838, 813046808, 808728167, 804379079, 799999706, 795590213, 791150767, 786681534, 782182683,
   777654384, 773096806, 768510122, 763894504]

/-- cos(2π·k/1024) × 2^30 for k from 128 to 191. -/
def cosQ2 : List Nat :=
  [759250125, 754577161, 749875788, 745146182, 740388522, 735602987, 730789757, 725949013, 721080937, 716185713,
   711263525, 706314559, 701339000, 696337036, 691308855, 686254647, 681174602, 676068911, 670937767, 665781362,
   660599890, 655393548, 650162530, 644907034, 639627258, 634323400, 628995660, 623644239, 618269338, 612871159,
   607449906, 602005783, 596538995, 591049748, 585538248, 580004702, 574449320, 568872310, 563273883, 557654248,
   552013618, 546352205, 540670223, 534967884, 529245404, 523502998, 517740883, 511959275, 506158392, 500338453,
   494499676, 488642281, 482766489, 476872522, 470960600, 465030947, 459083786, 453119340, 447137835, 441139496,
   435124548, 429093217, 423045732, 416982319]

/-- cos(2π·k/1024) × 2^30 for k from 192 to 255. -/
def cosQ3 : List Nat :=
  [410903207, 404808624, 398698801, 392573967, 386434353, 380280190, 374111709, 367929144, 361732726, 355522689,
   349299266, 343062693, 336813204, 330551034, 324276419, 317989595, 311690799, 305380268, 299058239, 292724951,
   286380643, 280025552, 273659918, 267283981, 260897982, 254502159, 248096755, 241682010, 235258165, 228825464,
   222384147, 215934457, 209476638, 203010932, 196537583, 190056834, 183568930, 177074115, 170572633, 164064728,
   157550647, 151030634, 144504935, 137973796, 131437462, 124896179, 118350194, 111799753, 105245103, 98686491,
   92124163, 85558366, 78989349, 72417357, 65842639, 59265442, 52686014, 46104602, 39521455, 32936819, 26350943,
   19764076, 13176464, 6588356]

/-- cos(2π·k/1024) × 2^30 in the first quadrant, to the nearest integer. -/
def cosQuarter (k : Nat) : Nat :=
  if k < 64 then (cosQ0[k]?).getD 0
  else if k < 128 then (cosQ1[k - 64]?).getD 0
  else if k < 192 then (cosQ2[k - 128]?).getD 0
  else (cosQ3[k - 192]?).getD 0

/-- cos(2π·k/1024) × 2^30. -/
def cosTurn (k : Nat) : Int :=
  let m := k % 1024
  if m ≤ 256 then cosQuarter m
  else if m ≤ 512 then -(cosQuarter (512 - m) : Int)
  else if m ≤ 768 then -(cosQuarter (m - 512) : Int)
  else cosQuarter (1024 - m)

/-- A vector turned by `k` steps of 360/1024 degrees (R57), times 2^30. -/
def rotate (k : Nat) (v : Vec) : Vec :=
  let c := cosTurn k
  let z := cosTurn (k + 768)
  (v.1 * c - v.2 * z, v.1 * z + v.2 * c)

/-- A quotient to the nearest integer, a half upwards. -/
def roundDiv (a : Int) (b : Nat) : Int := (2 * a + b) / (2 * b : Nat)

/-- A part saturated to a signed 16-bit field. -/
def sat16 (i : Int) : Int := max (-32768) (min 32767 i)

/-- The word of a vector: I in the low half, Q in the high half (R99). -/
def vecWord (v : Vec) : Word :=
  packF [(⟨0, 16⟩, unsigned 16 (sat16 v.1)), (⟨16, 16⟩, unsigned 16 (sat16 v.2))]

/-- The vector that a word holds. -/
def wordVec (w : Word) : Vec :=
  (signed 16 ((⟨0, 16⟩ : Field).get w), signed 16 ((⟨16, 16⟩ : Field).get w))

/-- The sum of vectors. -/
def vecSum (l : List Vec) : Vec := l.foldl (fun a v => (a.1 + v.1, a.2 + v.2)) (0, 0)

/-- A vector measured while a carrier of amplitude `a` and phase offset `k` ran, less those of other carriers (in units of 1/1023 × 2^-30),
scaled to amplitude code 1023 and phase offset 0 (R81, R102). Rounding to the nearest step is the model's choice. -/
def fullScale (a k : Nat) (raw others : Vec) : Vec :=
  let d := (raw.1 * 1023 * 2 ^ 30 - others.1, raw.2 * 1023 * 2 ^ 30 - others.2)
  let t := rotate (1024 - k % 1024) d
  (roundDiv t.1 (a * 2 ^ 60), roundDiv t.2 (a * 2 ^ 60))

/-- The matrix entry that a change of amplitude by 1 dB below code `a` shows (R83): the change is 1 − 10^(−1/20) of the carrier's part. -/
def dipScale (a k : Nat) (change : Vec) : Vec :=
  let t := rotate (1024 - k % 1024) (change.1 * 1023 * 10 ^ 10, change.2 * 1023 * 10 ^ 10)
  (roundDiv t.1 (a * 2 ^ 30 * 1087490619), roundDiv t.2 (a * 2 ^ 30 * 1087490619))

end Sys2Proof.Machine
end

