-- ==== Sys2Proof/Machine/View.lean ====
section
/-! DEFINITION. What the registers read as: the views that are computed from the state rather than held, block by block, and
`State.peek`, the value of any host address without side effects (the reading of a snapshot, R438, or of the trace port). -/

namespace Sys2Proof.Machine

/-! ### Queues (R480, R489, R500, R501) -/

/-- The frame queues of port `n`. -/
def State.pq (s : State) (n : Nat) : PortQ := (s.que[n]?).getD { tx := [], rx := [], pushedAt := 0, newWords := 0 }

/-- The state with the frame queues of port `n` replaced. -/
def State.setPq (s : State) (n : Nat) (q : PortQ) : State := { s with que := s.que.setIfInBounds n q }

/-- The crossing flags of port `n`. -/
def State.wmOf (s : State) (n : Nat) : PortWm :=
  (s.obs.wm[n]?).getD { txHit := false, txCount := 0, rxHit := false, rxCount := 0 }

/-- LEVEL_ABOVE of TXQn. -/
def State.txAbove (s : State) (n : Nat) : Bool :=
  levelAbove (s.pq n).tx.length (s.fld (Reg.QUE_P_TX_WM n) Fld.QUE_P_TX_WM_WM)

/-- LEVEL_ABOVE of RXQn. -/
def State.rxAbove (s : State) (n : Nat) : Bool :=
  levelAbove (s.pq n).rx.length (s.fld (Reg.QUE_P_RX_WM n) Fld.QUE_P_RX_WM_WM)

/-- LEVEL_ABOVE of EVQ. -/
def State.evqAbove (s : State) : Bool :=
  levelAbove s.obs.evq.entries.length (s.fld Reg.QUE_EVQ_WM Fld.QUE_EVQ_WM_WM)

/-- How many entries EVQ holds at a priority. -/
def State.evqAt (s : State) (p : Nat) : Nat := (s.obs.evq.entries.filter fun e => e.prio = p).length

/-- The lowest priority number present in EVQ. -/
def minPrio : List EvqEntry → Option Nat
  | [] => none
  | e :: t => match minPrio t with
    | none => some e.prio
    | some p => some (min e.prio p)

/-- The first entry at a priority. -/
def firstAt (p : Nat) : List EvqEntry → Option EvqEntry
  | [] => none
  | e :: t => if e.prio = p then some e else firstAt p t

/-- The list without the first entry at a priority. -/
def dropFirstAt (p : Nat) : List EvqEntry → List EvqEntry
  | [] => []
  | e :: t => if e.prio = p then t else e :: dropFirstAt p t

/-- The entry the next pop returns (R491). -/
def State.evqHead (s : State) : Option EvqEntry :=
  match minPrio s.obs.evq.entries with
  | none => none
  | some p => firstAt p s.obs.evq.entries

/-- Word 0 of an entry (R489). -/
def EvqEntry.word0 (e : EvqEntry) : Word :=
  packF [(⟨0, 16⟩, e.code), (⟨16, 2⟩, e.note.rank), (⟨18, 2⟩, e.prio), (⟨20, 2⟩, e.prioIn), (⟨22, 10⟩, e.ms)]

/-- Reads of QUE that are computed. -/
def viewQue (s : State) (o : Nat) : Option Word :=
  if o = 0x18 then
    some (packF [(Fld.QUE_EVQ_STATUS_LEVEL, s.obs.evq.entries.length), (Fld.QUE_EVQ_STATUS_LEVEL_ABOVE, bnat s.evqAbove),
      (Fld.QUE_EVQ_STATUS_WM_HIT, bnat s.obs.evq.wmHit), (Fld.QUE_EVQ_STATUS_OVF, bnat s.obs.evq.ovf),
      (Fld.QUE_EVQ_STATUS_WM_COUNT, s.obs.evq.wmCount), (Fld.QUE_EVQ_STATUS_INTAKE, s.obs.evq.intake.length)])
  else if o = 0x20 then some (packF [(⟨0, 11⟩, s.evqAt 0), (⟨16, 11⟩, s.evqAt 1)])
  else if o = 0x24 then some (packF [(⟨0, 11⟩, s.evqAt 2), (⟨16, 11⟩, s.evqAt 3)])
  else if o = 0x28 then
    some (packF [(Fld.QUE_EVQ_LOST_P0, s.obs.evq.lost[0]), (Fld.QUE_EVQ_LOST_P1, s.obs.evq.lost[1]),
      (Fld.QUE_EVQ_LOST_P2, s.obs.evq.lost[2]), (Fld.QUE_EVQ_LOST_P3, s.obs.evq.lost[3])])
  else if o = 0x2C then some (word s.obs.evq.promoted)
  else if o = 0x30 then
    some (match s.evqHead with
      | some e => e.word0
      | none => 0)
  else if o = 0x34 then some s.obs.evq.pop1
  else if 0x1000 ≤ o ∧ o < 0x5000 then
    let n := (o - 0x1000) / 0x400
    let p := (o - 0x1000) % 0x400
    let q := s.pq n
    if p = 0x4 then
      some (match q.rx with
        | x :: _ => x.w
        | [] => 0)
    else if p = 0xC then some (packF [(⟨0, 12⟩, q.tx.length), (⟨16, 12⟩, q.rx.length)])
    else if p = 0x18 then
      let m := s.wmOf n
      some (overF (s.reg (Reg.QUE_P_WM_STATUS n))
        [(Fld.QUE_P_WM_STATUS_TX_ABOVE, bnat (s.txAbove n)), (Fld.QUE_P_WM_STATUS_TX_WM_HIT, bnat m.txHit),
         (Fld.QUE_P_WM_STATUS_RX_ABOVE, bnat (s.rxAbove n)), (Fld.QUE_P_WM_STATUS_RX_WM_HIT, bnat m.rxHit),
         (Fld.QUE_P_WM_STATUS_TX_WM_COUNT, m.txCount), (Fld.QUE_P_WM_STATUS_RX_WM_COUNT, m.rxCount)])
    else none
  else none

/-! ### Check values (R493-R497, R502) -/

/-- Channel `c`. -/
def State.chan (s : State) (c : Nat) : CrcSt := (s.crc[c]?).getD CrcSt.reset

/-- The state with channel `c` replaced. -/
def State.setChan (s : State) (c : Nat) (x : CrcSt) : State := { s with crc := s.crc.setIfInBounds c x }

/-- RESULT (R493, R494): the register, through the suffix where FOLD_MODE is 2, in its final form. -/
def CrcSt.result (x : CrcSt) : Nat :=
  let r := if x.foldMode = 2 then crcBytes x.width x.poly x.refIn x.reg (wordBytes x.fold) else x.reg
  crcFinal x.width x.xorOut x.refIn x.refOut r

/-- MATCH (R497): the low W bits of RESULT and EXPECT are equal. -/
def CrcSt.isMatch (x : CrcSt) (expect : Word) : Bool := decide (x.result % 2 ^ x.width = expect.toNat % 2 ^ x.width)

/-- Reads of CRC that are computed. -/
def viewCrc (s : State) (o : Nat) : Option Word :=
  if 0x100 ≤ o ∧ o < 0x200 then
    let c := (o - 0x100) / 0x40
    let p := (o - 0x100) % 0x40
    let x := s.chan c
    if p = 0x2C then some (word x.result)
    else if p = 0x34 then
      some (overF (s.reg (Reg.CRC_CH_STATUS c))
        [(Fld.CRC_CH_STATUS_BUSY, bnat x.range.isSome),
         (Fld.CRC_CH_STATUS_MATCH, bnat (x.isMatch (s.reg (Reg.CRC_CH_EXPECT c)))), (Fld.CRC_CH_STATUS_BYTES, x.bytes)])
    else none
  else none

/-! ### Timers (R458, R463, R472, R478, R479) -/

/-- The capture registers of timer `k`. -/
def State.captOf (s : State) (k : Nat) : Capt := (s.obs.capt[k]?).getD { value := 0, isNew := false, ovr := false }

/-- Timer `k`. -/
def State.timer (s : State) (k : Nat) : TimerSt := (s.tmr[k]?).getD { nextTick := none }

/-- The state with timer `k` replaced. -/
def State.setTimer (s : State) (k : Nat) (x : TimerSt) : State := { s with tmr := s.tmr.setIfInBounds k x }

/-- Reads of TMR that are computed. -/
def viewTmr (s : State) (o : Nat) : Option Word :=
  if o = 0x10 then some (word s.dt)
  else if o = 0x14 then some (word (s.dt / 2 ^ 32))
  else if o = 0x18 then some (word s.wt)
  else if o = 0x1C then some (word (s.wt / 2 ^ 32))
  else if o = 0x34 then some (word (s.devTime % usec))
  else if 0x100 ≤ o ∧ o < 0x300 then
    let k := (o - 0x100) / 0x40
    let p := (o - 0x100) % 0x40
    if p = 0x1C then some (s.captOf k).value
    else if p = 0x20 then
      some (overF (s.reg (Reg.TMR_T_STATUS k))
        [(Fld.TMR_T_STATUS_CAPT_NEW, bnat (s.captOf k).isNew), (Fld.TMR_T_STATUS_CAPT_OVR, bnat (s.captOf k).ovr),
         (Fld.TMR_T_STATUS_RUNNING, bnat (s.timer k).nextTick.isSome)])
    else none
  else none

/-! ### Sillage (R439, R440, R457) -/

/-- The bytes of a record before its check (R439), as given. -/
def Rec.body (r : Rec) (vault held : Bool) : List Byte :=
  leBytes 2 r.code
    ++ [byte (r.note.rank + 4 * r.snaps + 64 * bnat vault), byte (r.trigger + 64 * bnat r.isMatched + 128 * bnat held)]
    ++ leBytes 4 r.seq ++ leBytes 8 r.dt ++ leBytes 8 r.wt ++ wordBytes r.arg
    ++ (unpackWords (r.snap ++ List.replicate (8 - r.snap.length) 0)).take 32

/-- CHECK (R440): over SEQ and bytes 0-59 with the VAULT and HELD bits taken as 0. -/
def Rec.check (r : Rec) : Nat := crc32cFold r.seq (r.body false false)

/-- The 64 bytes of a record (R439). -/
def Rec.bytes (r : Rec) : List Byte := r.body r.vault r.held ++ leBytes 4 r.check

/-- How many lines hold records of a note. -/
def noteLines (l : List RingLine) (n : Note) : Nat := (l.filter fun x => x.note = n).length

/-- Records in staging (R457). -/
def SilSt.staged (x : SilSt) : Nat := (x.stages.map fun p => p.recs.length).sum

/-- Reads of SIL that are computed. -/
def viewSil (s : State) (o : Nat) : Option Word :=
  let x := s.obs.sil
  if o = 0x14 then some (overF (s.reg Reg.SIL_FREEZE) [(Fld.SIL_FREEZE_HELD, x.hold.length)])
  else if o = 0x18 then
    some (packF [(Fld.SIL_STATUS_VALID, x.lines.length), (Fld.SIL_STATUS_RING_STOPPED, bnat x.stopped),
      (Fld.SIL_STATUS_LAST_LINE, x.lastLine), (Fld.SIL_STATUS_READY, bnat x.ready)])
  else if o = 0x1C then some (word x.seq)
  else if o = 0x20 then
    some (packF [(Fld.SIL_NOTES_BASE, noteLines x.lines .base), (Fld.SIL_NOTES_HEART, noteLines x.lines .heart)])
  else if o = 0x24 then some (packF [(Fld.SIL_DROPS_HEART, x.dropHeart), (Fld.SIL_DROPS_TOP, x.dropTop)])
  else if o = 0x28 then some (packF [(Fld.SIL_HOLD_DROPS_HEART, x.holdHeart), (Fld.SIL_HOLD_DROPS_TOP, x.holdTop)])
  else if o = 0x2C then some (word x.retired.length)
  else if o = 0x30 then
    some (overF (s.reg Reg.SIL_SPILL_STATUS)
      [(Fld.SIL_SPILL_STATUS_SPILL_LOST, x.spillLost), (Fld.SIL_SPILL_STATUS_STAGED, x.staged),
       (Fld.SIL_SPILL_STATUS_WAIT_HEAD, bnat (s.flag Reg.SIL_CTRL Fld.SIL_CTRL_SPILL_EN && decide (s.sto.search ≠ .found)))])
  else if o = 0x34 then
    some (packF [(Fld.SIL_VAULT_STATUS_USED, x.vault.length),
      (Fld.SIL_VAULT_STATUS_PRIOR, maskOf (fun v => (x.prior[v]?).getD false) 8), (Fld.SIL_VAULT_STATUS_OVERWRITES, x.overwrites)])
  else if 0x1000 ≤ o ∧ o < 0x1200 then
    let v := (o - 0x1000) / 0x40
    let w := (o - 0x1000) % 0x40 / 4
    some (match x.vault[v]? with
      | some r => ((packWords r.bytes)[w]?).getD 0
      | none => 0)
  else none

/-! ### Trace and counters (R550, R555) -/

/-- The value a read of counter `i` refers to: the copy between SNAP and RELEASE, else the live value (R550). -/
def State.counterRead (s : State) (i : Nat) : Nat :=
  match s.obs.trc.snap with
  | some m => Sparse.get m 0 i
  | none => s.counter i

/-- Reads of TRC that are computed. -/
def viewTrc (s : State) (o : Nat) : Option Word :=
  let x := s.obs.trc
  if o = 0x18 then
    some (packF [(Fld.TRC_TRACE_STATUS_SEQ, x.seq), (Fld.TRC_TRACE_STATUS_FILL, x.buf.length), (Fld.TRC_TRACE_STATUS_LOST, x.lost)])
  else if o = 0x20 then some (word (bnat x.snap.isSome))
  else if 0x1000 ≤ o ∧ o < 0x1400 then
    let i := (o - 0x1000) / 8
    if (o - 0x1000) % 8 = 0 then some (word (s.counterRead i))
    else some (word (Sparse.get x.latched (s.counterRead i / 2 ^ 32) i))
  else none

/-! ### GEN (R41, R553) -/

/-- Whether a timer reports an interrupt: a flag whose event enable is 1 (R553). -/
def State.timerIrq (s : State) (k : Nat) : Bool :=
  let c := s.reg (Reg.TMR_T_CTRL k)
  let t := s.reg (Reg.TMR_T_STATUS k)
  (Fld.TMR_T_STATUS_HIT0.get t ≠ 0 && Fld.TMR_T_CTRL_EVT_CMP0.get c ≠ 0)
    || (Fld.TMR_T_STATUS_HIT1.get t ≠ 0 && Fld.TMR_T_CTRL_EVT_CMP1.get c ≠ 0)
    || (Fld.TMR_T_STATUS_WRAP.get t ≠ 0 && Fld.TMR_T_CTRL_EVT_WRAP.get c ≠ 0)

/-- `GEN.IRQ_STATUS` (R553). -/
def State.irqStatus (s : State) : Word :=
  overF (s.reg Reg.GEN_IRQ_STATUS)
    [(Fld.GEN_IRQ_STATUS_EVQ, bnat s.obs.evq.wmHit), (Fld.GEN_IRQ_STATUS_RXQ, bnat (anyBelow (fun n => (s.wmOf n).rxHit) 16)),
     (Fld.GEN_IRQ_STATUS_TXQ, bnat (anyBelow (fun n => (s.wmOf n).txHit) 16)),
     (Fld.GEN_IRQ_STATUS_TMR, bnat (anyBelow s.timerIrq 8)),
     (Fld.GEN_IRQ_STATUS_STO,
       bnat (s.flag Reg.STO_HSTATUS Fld.STO_HSTATUS_DONE0 || s.flag Reg.STO_HSTATUS Fld.STO_HSTATUS_DONE1)),
     (Fld.GEN_IRQ_STATUS_BOOT, s.fld Reg.CFG_BOOT_BSTATUS Fld.CFG_BOOT_BSTATUS_DONE),
     (Fld.GEN_IRQ_STATUS_HIF, bnat (s.reg Reg.HIF_STATUS ≠ 0)), (Fld.GEN_IRQ_STATUS_SIL, s.fld Reg.SIL_FREEZE Fld.SIL_FREEZE_EXPIRED),
     (Fld.GEN_IRQ_STATUS_SAFE, s.fld Reg.SAF_STATUS Fld.SAF_STATUS_SAFE)]

/-- The active roster bank (R304). -/
def State.activeBank (s : State) : Nat := s.fld Reg.KPR_STATUS Fld.KPR_STATUS_ACTIVE_BANK

/-- Whether the active bank holds no entries (R304). -/
def State.rosterEmpty (s : State) : Bool := decide (s.reg (Reg.KPR_BANK_ENTRIES s.activeBank) = 0)

/-- Reads of GEN that are computed. -/
def viewGen (s : State) (o : Nat) : Option Word :=
  if o = 0x10 then
    some (packF [(Fld.GEN_PHASE_CUR, s.gen.phase.num), (Fld.GEN_PHASE_SAFE_BOOT, bnat s.gen.safeBoot),
      (Fld.GEN_PHASE_CAUSE, s.gen.cause)])
  else if o = 0x18 then some s.irqStatus
  else if o = 0x20 then
    some (packF [(Fld.GEN_STATUS_STO_READY, s.fld Reg.STO_STATUS Fld.STO_STATUS_READY), (Fld.GEN_STATUS_SIL_READY, bnat s.obs.sil.ready),
      (Fld.GEN_STATUS_WALL_KNOWN, s.fld Reg.TMR_WALL_STATUS Fld.TMR_WALL_STATUS_KNOWN),
      (Fld.GEN_STATUS_SEALED, s.fld Reg.COX_REG_STATUS Fld.COX_REG_STATUS_SEALED),
      (Fld.GEN_STATUS_KEY_BLANK, s.fld Reg.CFG_KEY_STATUS Fld.CFG_KEY_STATUS_BLANK),
      (Fld.GEN_STATUS_ROSTER_EMPTY, bnat s.rosterEmpty), (Fld.GEN_STATUS_FAULT_OUT, s.fld Reg.SAF_STATUS Fld.SAF_STATUS_FAULT_OUT)])
  else if o = 0x28 ∨ o = 0x2C then (if s.gen.phase = .test then none else some 0)
  else none

end Sys2Proof.Machine
end

