-- ==== Sys2Proof/Machine/Ports.lean ====
section
/-! DEFINITION. Ports, sessions and lanes: reading and changing the parts of State that stand per port, the roles (R49-R52), the
neighbour sets (R84, R90), and the register views of FLD, RXE, PRO, ACD, KPR and COX that are computed from them. -/

namespace Sys2Proof.Machine

/-- The element of a vector at a number, a default beyond its end. -/
def vget {α : Type} {k : Nat} (v : Vector α k) (d : α) (n : Nat) : α := (v[n]?).getD d

/-- The vector with the element at a number changed. -/
def vmod {α : Type} {k : Nat} (v : Vector α k) (d : α) (n : Nat) (f : α → α) : Vector α k := v.setIfInBounds n (f (vget v d n))

/-! ### Parts of the state by port -/

/-- Field engine of port `n`. -/
def State.pf (s : State) (n : Nat) : PortF := vget s.field.ports PortF.reset n
/-- The state with the field engine of port `n` changed. -/
def State.modF (s : State) (n : Nat) (f : PortF → PortF) : State :=
  { s with field := { s.field with ports := vmod s.field.ports PortF.reset n f } }
/-- Receiver of port `n`. -/
def State.pr (s : State) (n : Nat) : PortR := vget s.rxe PortR.reset n
/-- The state with the receiver of port `n` changed. -/
def State.modR (s : State) (n : Nat) (f : PortR → PortR) : State := { s with rxe := vmod s.rxe PortR.reset n f }
/-- Protocol engine of port `n`. -/
def State.pp (s : State) (n : Nat) : PortP := vget s.pro PortP.reset n
/-- The state with the protocol engine of port `n` changed. -/
def State.modP (s : State) (n : Nat) (f : PortP → PortP) : State := { s with pro := vmod s.pro PortP.reset n f }
/-- Accord on port `n`. -/
def State.pa (s : State) (n : Nat) : PortA := vget s.acd PortA.reset n
/-- The state with Accord on port `n` changed. -/
def State.modA (s : State) (n : Nat) (f : PortA → PortA) : State := { s with acd := vmod s.acd PortA.reset n f }
/-- TUN on port `n`. -/
def State.pt (s : State) (n : Nat) : PortT := vget s.tun.ports PortT.reset n
/-- The state with TUN on port `n` changed. -/
def State.modT (s : State) (n : Nat) (f : PortT → PortT) : State :=
  { s with tun := { s.tun with ports := vmod s.tun.ports PortT.reset n f } }
/-- A port of COX as reset leaves it. -/
def PortX.reset : PortX := { waitEnd := none, deferrals := 0, retryAt := none }
/-- COX on port `n`. -/
def State.px (s : State) (n : Nat) : PortX := vget s.cox.ports PortX.reset n
/-- The state with COX on port `n` changed. -/
def State.modX (s : State) (n : Nat) (f : PortX → PortX) : State :=
  { s with cox := { s.cox with ports := vmod s.cox.ports PortX.reset n f } }
/-- A huddle as reset leaves it. -/
def HuddleSt.reset : HuddleSt := { members := 0, txEnd := none, listening := false, dueSince := none, starved := false }
/-- Huddle `h`. -/
def State.hud (s : State) (h : Nat) : HuddleSt := vget s.field.huddles HuddleSt.reset h
/-- The state with huddle `h` changed. -/
def State.modH (s : State) (h : Nat) (f : HuddleSt → HuddleSt) : State :=
  { s with field := { s.field with huddles := vmod s.field.huddles HuddleSt.reset h f } }
/-- A lane as reset leaves it. -/
def LaneSt.reset : LaneSt := { goEnd := none, alertEnd := none }
/-- Lane `l`. -/
def State.lane (s : State) (l : Nat) : LaneSt := vget s.kpr.lanes LaneSt.reset l
/-- The state with lane `l` changed. -/
def State.modL (s : State) (l : Nat) (f : LaneSt → LaneSt) : State :=
  { s with kpr := { s.kpr with lanes := vmod s.kpr.lanes LaneSt.reset l f } }

/-! ### Sessions (R231) -/

/-- The session context `k`, none where it is FREE. -/
def State.session (s : State) (k : Nat) : Option Session := (s.sess.find? fun x => x.1 = k).map fun x => x.2

/-- The state with session `k` stored. -/
def State.putSess (s : State) (k : Nat) (x : Session) : State := { s with sess := Sparse.insert s.sess k x }

/-- The state with session `k` changed where it is not FREE; in SAFE the contexts are frozen (R239). -/
def State.modSess (s : State) (k : Nat) (f : Session → Session) : State :=
  match s.session k with
  | some x => if s.gen.phase = .safe then s else s.putSess k (f x)
  | none => s

/-- The state with session `k` FREE. -/
def State.freeSess (s : State) (k : Nat) : State := { s with sess := Sparse.erase s.sess k }

/-- The lowest-numbered FREE session (R232). -/
def State.lowestFree (s : State) : Option Nat := firstFrom (fun k => (s.session k).isNone) 0 160

/-- Whether a session is in OPEN, QUIET or CHECK. -/
def Session.live (x : Session) : Bool :=
  match x.state with
  | .open_ | .quiet | .check => true
  | .free | .closing => false

/-- STATE as R231 numbers it. -/
def SessState.num : SessState → Nat
  | .free => 0 | .open_ => 1 | .quiet => 2 | .check => 3 | .closing => 4

/-! ### Roles (R49, R50) -/

/-- The effective role of port `n`. -/
def State.role (s : State) (n : Nat) : Nat := s.fld (Reg.PRO_P_MODE_STATUS n) Fld.PRO_P_MODE_STATUS_EFFECTIVE

/-- The requested role of port `n`. -/
def State.roleAsked (s : State) (n : Nat) : Nat := s.fld (Reg.PRO_P_ROLE n) Fld.PRO_P_ROLE_ROLE

/-- Whether warm-up has measured port `n` (R81, R82). -/
def State.measured (s : State) (n : Nat) : Bool := s.fldBit Reg.FLD_WARMUP_STATUS Fld.FLD_WARMUP_STATUS_MEASURED n

/-- Whether the regulatory lock permits active mode (R50, R424). -/
def State.activeOk (s : State) : Bool := s.flag Reg.COX_REG_GLOBAL Fld.COX_REG_GLOBAL_ACTIVE_OK

/-- The port that the EMU configuration names (R50, R595). -/
def State.emuPort (s : State) : Nat := s.fld Reg.EMU_CTRL Fld.EMU_CTRL_PORT

/-- Whether R50 replaces the requested role of port `n` by off with ROLE_REFUSED. -/
def State.roleRefused (s : State) (n : Nat) : Bool :=
  ((s.roleAsked n = 3 || s.roleAsked n = 4) && !s.activeOk) || (s.roleAsked n = 5 && (decide (4 ≤ n) || decide (n ≠ s.emuPort)))

/-- The role that R50 gives port `n`, before it takes effect under R52. -/
def State.roleDue (s : State) (n : Nat) : Nat := if s.roleRefused n || !s.measured n then 0 else s.roleAsked n

/-- A conflict of R50 reported: `MODE_CONFLICT`, its ARG as R211 gives it, and counter 23. -/
def State.modeConflict (s : State) (n : Nat) : State := (s.post 0x5006 .top (n + 0x100 * s.roleAsked n)).count 23

/-- Emulation and huddle membership of port `n` judged under R50: hardware clears HUDDLE.EN. -/
def State.judgeHuddle (s : State) (n : Nat) : State :=
  if s.roleAsked n = 5 && s.flag (Reg.FLD_P_HUDDLE n) Fld.FLD_P_HUDDLE_EN then
    ((s.setFld (Reg.FLD_P_HUDDLE n) Fld.FLD_P_HUDDLE_EN 0).stick (Reg.PRO_P_MODE_STATUS n)
      Fld.PRO_P_MODE_STATUS_HUDDLE_REMOVED).modeConflict n
  else s

/-- The settings of port `n` judged under R50. -/
def State.judgeRole (s : State) (n : Nat) : State :=
  let s1 := if s.roleRefused n then
      (s.stick (Reg.PRO_P_MODE_STATUS n) Fld.PRO_P_MODE_STATUS_ROLE_REFUSED).modeConflict n
    else s
  s1.judgeHuddle n

/-- Whether a port is a relay port (P4-P15). -/
def isRelay (n : Nat) : Bool := decide (4 ≤ n)

/-! ### Neighbours and huddles (R84, R85, R89, R90) -/

/-- The effective neighbour set of port `n` in force. -/
def State.neigh (s : State) (n : Nat) : Nat := vget s.field.neigh 0 n

/-- Whether two ports are neighbours in force. -/
def State.areNeigh (s : State) (n m : Nat) : Bool := (s.neigh n).testBit m

/-- The huddle whose timeline port `n` follows: membership in force. -/
def State.huddleOf (s : State) (n : Nat) : Option Nat := firstFrom (fun h => (s.hud h).members.testBit n) 0 4

/-- Whether port `n` acts as a huddled reader: a member in reader role (R49, R50). -/
def State.huddled (s : State) (n : Nat) : Option Nat := if s.role n = 2 then s.huddleOf n else none

/-- Whether two ports keep out of each other's windows: neighbours that are not members of one huddle (R52 K, U and L). -/
def State.keepOut (s : State) (n m : Nat) : Bool :=
  decide (n ≠ m) && (match s.huddled n with
    | some h =>
      if s.huddled m = some h then false
      else anyBelow (fun k => s.huddled k = some h && s.areNeigh k m) 16
        || (match s.huddled m with
          | some g => anyBelow (fun k => s.huddled k = some h && anyBelow (fun j => s.huddled j = some g && s.areNeigh k j) 16) 16
          | none => false)
    | none => match s.huddled m with
      | some g => anyBelow (fun j => s.huddled j = some g && s.areNeigh n j) 16
      | none => s.areNeigh n m)

/-- The effective neighbour set that the registers give port `n` (R84). -/
def State.neighDue (s : State) (n : Nat) : Nat :=
  maskOf (fun m => decide (m ≠ n) && (s.fldBit (Reg.FLD_P_NEIGH n) Fld.FLD_P_NEIGH_DERIVED m
    || s.fldBit (Reg.FLD_P_NEIGH_FORCE n) Fld.FLD_P_NEIGH_FORCE_ADD m
    || s.fldBit (Reg.FLD_P_NEIGH_FORCE m) Fld.FLD_P_NEIGH_FORCE_ADD n)) 16

/-! ### Levels of COX (R385-R387, R393) -/

/-- Whether the grant counts as present (R387). -/
def State.granted (s : State) : Bool := !s.flag Reg.COX_CTRL Fld.COX_CTRL_GRANT_EN || s.cox.grant

/-- Whether a blank that applies to port `n` is asserted and not ignored (R393, R394). -/
def State.blankOn (s : State) (n : Nat) : Bool :=
  (s.cox.blank0 && !s.cox.stuck0 && s.flag Reg.COX_CTRL Fld.COX_CTRL_BLANK0_EN
      && s.fldBit Reg.COX_PORT_CFG Fld.COX_PORT_CFG_B0_MASK n)
    || (s.cox.blank1 && !s.cox.stuck1 && s.flag Reg.COX_CTRL Fld.COX_CTRL_BLANK1_EN
      && s.fldBit Reg.COX_PORT_CFG Fld.COX_PORT_CFG_B1_MASK n)

/-- Until when the tail of a blank holds port `n` (R393). -/
def State.blankTail (s : State) (n : Nat) : Nat :=
  let tail := s.fld Reg.COX_TIMING2 Fld.COX_TIMING2_BLANK_TAIL_US * usec
  max
    (if s.flag Reg.COX_CTRL Fld.COX_CTRL_BLANK0_EN && s.fldBit Reg.COX_PORT_CFG Fld.COX_PORT_CFG_B0_MASK n then
      (s.cox.ended0.map fun t => t + tail).getD 0 else 0)
    (if s.flag Reg.COX_CTRL Fld.COX_CTRL_BLANK1_EN && s.fldBit Reg.COX_PORT_CFG Fld.COX_PORT_CFG_B1_MASK n then
      (s.cox.ended1.map fun t => t + tail).getD 0 else 0)

/-- Whether a blank or its tail holds modulations of port `n` now. -/
def State.blanked (s : State) (n : Nat) : Bool := s.blankOn n || decide (s.time < s.blankTail n)

/-- Whether port `n` has a frame that is planned, waiting or on air, its window included under REQ_SPAN (R384). -/
def State.frameBurst (s : State) (n : Nat) : Bool :=
  (s.pp n).plan.isSome || (s.pf n).txEnd.isSome || ((s.pf n).window.isSome && s.flag Reg.COX_CTRL Fld.COX_CTRL_REQ_SPAN)

/-- LEAD_US from now (R385). -/
def State.leadFrom (s : State) : Nat := s.time + s.fld Reg.COX_TIMING Fld.COX_TIMING_LEAD_US * usec

/-- Whether port `n` has a modulation beside its frame and its field-on ramp planned, waiting or in progress (R86, R384): a field-off ramp in a ramp
slot, a PHASE or AMPL transition, a coupling dip. -/
def State.modBurst (s : State) (n : Nat) : Bool :=
  let x := s.pf n
  x.wantOff.isSome || (x.pend && x.carrier) || (x.paEnd.any fun e => decide (s.time < e))
    || (match x.ramp with
      | .down _ true => true
      | _ => false)
    || (x.step.any fun p => p.1 = 5)

/-- Whether port `n` has a field-on burst planned or in progress, a ping that is due (R121, R124), or its field on under CUT_FIELD (R384). -/
def State.fieldBurst (s : State) (n : Nat) : Bool :=
  (s.pf n).wantOn.isSome || (match (s.pf n).ramp with
    | .biasOn _ | .up _ => true
    | _ => false) || s.tun.todo.contains n || (s.pt n).confirmAt.isSome || ((s.pf n).carrier && s.flag Reg.COX_CTRL Fld.COX_CTRL_CUT_FIELD)

/-- The level on `COEX_REQ` (R385, R398). -/
def State.coexReq (s : State) : Bool :=
  s.flag Reg.COX_CTRL Fld.COX_CTRL_REQ_EN && !s.saf.safe && anyBelow (fun n => s.frameBurst n || s.fieldBurst n || s.modBurst n) 16

/-- The level on `COEX_PRIO` (R386). -/
def State.coexPrio (s : State) : Bool :=
  s.coexReq && anyBelow (fun n =>
    (s.frameBurst n && (s.fldBit Reg.COX_PRIO Fld.COX_PRIO_PRIO_FRAME n
      || ((s.pf n).carrier && decide (s.fld Reg.COX_CTRL Fld.COX_CTRL_PRIO_ESC ≠ 0)
        && decide (s.fld Reg.COX_CTRL Fld.COX_CTRL_PRIO_ESC ≤ (s.px n).deferrals))))
    || (s.fieldBurst n && s.fldBit Reg.COX_PRIO Fld.COX_PRIO_PRIO_FIELD n)) 16

/-! ### Views of FLD (R99, R100) -/

/-- The locked drive ceiling of port `n` (R424). -/
def State.ceil (s : State) (n : Nat) : Nat := s.fld (Reg.COX_REG_CEIL n) Fld.COX_REG_CEIL_DRIVE_CEIL

/-- Whether `VDDTX_n` is above its threshold; relay ports have none (R559). -/
def State.vddtxOk (s : State) (n : Nat) : Bool := isRelay n || s.fldBit Reg.PWR_SUPPLY Fld.PWR_SUPPLY_VDDTX_OK n

/-- The effective amplitude that a commanded code gives port `n` under a thermal limit and a drive ceiling (R59, R559, R575). -/
def State.effOf (s : State) (n code limit ceil : Nat) : Nat :=
  let lim := if isRelay n then 1023 else if s.vddtxOk n then limit else 0
  min code (min ceil lim)

/-- The effective amplitude of port `n` (R59): of the code, limit and ceiling in force while the field is on, else of those commanded. -/
def State.effAmpl (s : State) (n : Nat) : Nat :=
  if (s.pf n).carrier then s.effOf n (s.pf n).ampl (s.pf n).limit (s.pf n).ceil
  else s.effOf n (s.fld (Reg.FLD_P_AMPL n) Fld.FLD_P_AMPL_AMPL) (s.fld Reg.PWR_THERM_STATUS Fld.PWR_THERM_STATUS_LIMIT) (s.ceil n)

/-! ### Views of RXE (R170, R171) -/

/-- RXSTATE of R171. -/
def RxState.num : RxState → Nat
  | .idle => 0 | .armed => 1 | .sofWait => 2 | .frame => 3

/-- Reads of RXE that are computed. While no window is open, TECH and RATE of STATE keep the last window's values (R171 gives them of the
open window only: DESIGN CHOICE, log 74). -/
def viewRxe (s : State) (o : Nat) : Option Word :=
  if o = 0x10 then
    some (packF [(Fld.RXE_STATUS_RECEIVING, maskOf (fun n => decide ((s.pr n).state ≠ .idle)) 16),
      (Fld.RXE_STATUS_WEAK, maskOf (fun n => s.flag (Reg.RXE_P_CANCEL_STATUS n) Fld.RXE_P_CANCEL_STATUS_WEAK) 16)])
  else if 0x1000 ≤ o ∧ o < 0x5000 ∧ (o - 0x1000) % 0x400 = 0x20 then
    let x := s.pr ((o - 0x1000) / 0x400)
    some (packF [(Fld.RXE_P_STATE_RXSTATE, x.state.num), (Fld.RXE_P_STATE_TECH, x.tech), (Fld.RXE_P_STATE_RATE, x.rate)])
  else none

/-! ### Views of PRO (R49, R214, R246, R247, R249) -/

/-- Whether a session is of port `n`. -/
def Session.ofPort (x : Session) (n : Nat) : Bool := decide (x.port = n)

/-- The words of a session context (R247). -/
def Session.ctx (x : Session) (w : Nat) : Word :=
  match w with
  | 0 => packF [(⟨0, 3⟩, x.state.num), (⟨4, 4⟩, x.port), (⟨8, 3⟩, x.tech), (⟨12, 4⟩, x.ident.length), (⟨16, 1⟩, bnat x.accord),
      (⟨17, 1⟩, bnat x.enrol.isSome), (⟨18, 1⟩, bnat x.benchEnd.isSome), (⟨20, 3⟩, (x.enrol.map fun e => e.2).getD 0),
      (⟨24, 4⟩, (x.enrol.map fun e => e.1).getD 0), (⟨28, 4⟩, x.misses)]
  | 1 => word (leNat (x.ident.take 4))
  | 2 => word (leNat ((x.ident.drop 4).take 4))
  | 3 => packF [(⟨0, 16⟩, leNat ((x.ident.drop 8).take 2)), (⟨16, 3⟩, x.decision)]
  | 4 => word (x.firstSeen / usec)
  | 5 => word (x.firstSeen / usec / 2 ^ 32)
  | 6 => word (x.lastSeen / usec)
  | _ => word (x.lastSeen / usec / 2 ^ 32)

/-- Whether port `n` has the entry kind of its list at `e`. -/
def State.pollEntry (s : State) (n e : Nat) : Nat :=
  (s.reg (Reg.PRO_POLLLIST (s.fld (Reg.PRO_P_POLL n) Fld.PRO_P_POLL_LIST) e)).toNat

/-- Whether the list of port `n` holds an Accord entry (R50). -/
def State.hasAccord (s : State) (n : Nat) : Bool := anyBelow (fun e => s.pollEntry n e % 16 = 5) 16

/-- Whether every member of the huddle of port `n` has effective role sniff (R50). -/
def State.allSniff (s : State) (n : Nat) : Bool :=
  match s.huddleOf n with
  | some h => allBelow (fun m => !(s.hud h).members.testBit m || decide (s.role m = 1)) 16
  | none => true

/-- Whether the emulation port is muted (R52 M). -/
def State.emuMuted (s : State) (n : Nat) : Bool :=
  decide (s.role n = 5) && anyBelow (fun m => s.areNeigh n m && (s.pf m).carrier) 16

/-- `PRO.Pn.MODE_STATUS` (R49). -/
def State.viewMode (s : State) (n : Nat) : Word :=
  let r := s.role n
  let en := s.flag (Reg.FLD_P_HUDDLE n) Fld.FLD_P_HUDDLE_EN
  overF (s.reg (Reg.PRO_P_MODE_STATUS n))
    [(Fld.PRO_P_MODE_STATUS_HUDDLE_IGNORED, bnat (en && (r = 3 || r = 4))),
     (Fld.PRO_P_MODE_STATUS_ACCORD_IGNORED, bnat (decide (r ≠ 2) && s.hasAccord n)),
     (Fld.PRO_P_MODE_STATUS_SNIFF_WAIT, bnat (decide (r = 1) && en && !s.allSniff n)),
     (Fld.PRO_P_MODE_STATUS_EMU_MUTED, bnat (s.emuMuted n))]

/-- How many words a host descriptor takes, from its TXH0 (R187, R194). -/
def descWords (txh0 : Nat) : Nat :=
  let len := txh0 / 0x10000 % 0x2000
  if 4096 < len then 3 else 3 + (len + 3) / 4

/-- Whether the first `k` words of the transmit queue of port `n` hold a whole descriptor (R194). -/
def State.headWithin (s : State) (n k : Nat) : Bool :=
  match (s.pq n).tx with
  | w :: _ => decide (descWords w.w.toNat ≤ k)
  | [] => false

/-- Whether the transmit queue of port `n` holds a whole descriptor at its head. -/
def State.headFull (s : State) (n : Nat) : Bool := s.headWithin n (s.pq n).tx.length

/-- The same for the words that PRO treats as present: from the cycle after their push (R194). -/
def State.headWhole (s : State) (n : Nat) : Bool :=
  let q := s.pq n
  s.headWithin n (q.tx.length - if q.pushedAt / cycle = s.time / cycle then q.newWords else 0)

/-- Whether an identifier of port `n` waits in the Keeper's intake: the port sends nothing meanwhile (R321). -/
def State.intakeWaits (s : State) (n : Nat) : Bool := s.kpr.waiting.any fun w => (s.session w.1).any fun x => x.port = n

/-- Sessions of port `n` that are not FREE. -/
def State.portSess (s : State) (n : Nat) : Nat := (s.sess.filter fun x => x.2.port = n).length

/-- Reads of PRO that are computed. -/
def viewPro (s : State) (o : Nat) : Option Word :=
  if o = 0x24 then some (packF [(Fld.PRO_SESS_STATUS_OPEN, s.sess.length), (Fld.PRO_SESS_STATUS_OVF, s.overflow.length)])
  else if 0x30 ≤ o ∧ o < 0x44 then some (word (maskOf (fun b => (s.session (32 * ((o - 0x30) / 4) + b)).isSome) 32))
  else if 0x8000 ≤ o ∧ o < 0x8000 + 160 * 0x20 then
    match s.hif.ctxHeld.find? fun p => p.1 = 0x40000 + o with
    | some p => some p.2
    | none => some (((s.session ((o - 0x8000) / 0x20)).map fun x => x.ctx ((o - 0x8000) % 0x20 / 4)).getD 0)
  else if 0x1000 ≤ o ∧ o < 0x5000 then
    let n := (o - 0x1000) / 0x400
    let p := (o - 0x1000) % 0x400
    let x := s.pp n
    if p = 0xC then some (s.viewMode n)
    else if p = 0x18 then
      some (packF [(Fld.PRO_P_STATUS_HOST_BUSY, bnat (x.xch.any fun c => c.plan.frame.purpose = .host)),
        (Fld.PRO_P_STATUS_HELD, bnat x.holdEnd.isSome),
        (Fld.PRO_P_STATUS_WAIT_DESC, bnat (x.flushing || (decide ((s.pq n).tx ≠ []) && !s.headWhole n))),
        (Fld.PRO_P_STATUS_WAIT_RXQ, bnat (decide (x.staged ≠ []))),
        (Fld.PRO_P_STATUS_RFCA, bnat (match x.rfca with
          | .initial _ _ | .response _ _ => true
          | _ => false)),
        (Fld.PRO_P_STATUS_COX_DEFERS, if x.plan.isSome && (s.pf n).carrier then (s.px n).deferrals else 0)])
    else if p = 0x28 then
      some (packF [(Fld.PRO_P_POLL_STATUS_ENTRY, x.entry),
        (Fld.PRO_P_POLL_STATUS_DISCOVERING, bnat (x.job.any fun j => j.work = .discover)),
        (Fld.PRO_P_POLL_STATUS_CHECKING, bnat (x.job.any fun j => match j.work with
          | .check _ => true
          | .accord _ _ => decide (j.entry = 0)
          | _ => false)),
        (Fld.PRO_P_POLL_STATUS_OPEN, s.portSess n)])
    else none
  else none

/-! ### Views of ACD (R293, R294) -/

/-- Whether a session of port `n` holds code `c` of group `g` (R270). -/
def State.codeHeld (s : State) (n g c : Nat) : Bool := s.sess.any fun x => x.2.port = n && (x.2.enrol = some (g, c) || x.2.assigned = some (g, c))

/-- Whether a quarantine lasts: it has ended for what is asked in the cycle in which it ends (R292). -/
def State.quarLasts (s : State) (q : Quar) : Bool := decide (s.time / cycle < q.ends / cycle)

/-- Whether code `c` of group `g` is in quarantine on port `n` (R272). -/
def State.codeQuar (s : State) (n g c : Nat) : Bool := s.quar.any fun q => q.port = n && q.group = g && q.code = c && s.quarLasts q

/-- Reads of ACD that are computed. -/
def viewAcd (s : State) (o : Nat) : Option Word :=
  if o = 0x14 then
    some (packF [(Fld.ACD_STATUS_IN_USE, (s.sess.filter fun x => x.2.enrol.isSome || x.2.assigned.isSome).length), (Fld.ACD_STATUS_HELD, (s.quar.filter s.quarLasts).length)])
  else if 0x1000 ≤ o ∧ o < 0x5000 then
    let n := (o - 0x1000) / 0x400
    let p := (o - 0x1000) % 0x400
    if 0x20 ≤ p ∧ p < 0x30 then
      some (word (maskOf (fun b => s.codeHeld n (4 * ((p - 0x20) / 4) + b / 8) (b % 8)) 32))
    else if 0x30 ≤ p ∧ p < 0x40 then
      some (word (maskOf (fun b => s.codeQuar n (4 * ((p - 0x30) / 4) + b / 8) (b % 8)) 32))
    else none
  else none

/-! ### Views of KPR (R336) and COX (R401) -/

/-- Whether lane `l` is enabled (R332). -/
def State.laneEn (s : State) (l : Nat) : Bool := s.flag (Reg.KPR_L_CFG l) Fld.KPR_L_CFG_EN

/-- Whether the lanes follow `GEN.TEST_LANE` (R42). -/
def State.laneTest (s : State) : Bool :=
  decide (s.gen.phase = .test) && s.flag Reg.GEN_TEST_CTRL Fld.GEN_TEST_CTRL_LANE_TEST

/-- The commanded level of `GO_l` (R329, R331, R332, R414). -/
def State.goLevel (s : State) (l : Nat) : Bool :=
  s.laneEn l && !s.saf.safe && (match s.gen.phase with
    | .run | .recovery => (s.lane l).goEnd.isSome
    | .test => s.laneTest && s.fldBit Reg.GEN_TEST_LANE Fld.GEN_TEST_LANE_GO l
    | _ => false)

/-- Whether `ALERT_l` is commanded active, whatever its polarity (R330-R332, R414). -/
def State.alertLevel (s : State) (l : Nat) : Bool :=
  if s.saf.safe then s.saf.enCopy.testBit l && s.fldBit Reg.SAF_ALERT_SAFE Fld.SAF_ALERT_SAFE_ASSERT l
  else s.laneEn l && (match s.gen.phase with
    | .run | .recovery => (s.lane l).alertEnd.isSome
    | .test => s.laneTest && s.fldBit Reg.GEN_TEST_LANE Fld.GEN_TEST_LANE_ALERT l
    | _ => false)

/-- The level that CORE's views show: those of the safe state only once CORE has seen it (R414). -/
def State.coreSafe (s : State) : State := if s.saf.unseen.isSome then { s with saf := { s.saf with safe := false } } else s

/-- Reads of KPR that are computed. -/
def viewKpr (s : State) (o : Nat) : Option Word :=
  if o = 0x18 then
    some (overF (s.reg Reg.KPR_STATUS) [(Fld.KPR_STATUS_INFLIGHT, s.kpr.slots.length), (Fld.KPR_STATUS_WAITING, s.kpr.waiting.length),
      (Fld.KPR_STATUS_WALL_KNOWN, s.fld Reg.TMR_WALL_STATUS Fld.TMR_WALL_STATUS_KNOWN),
      (Fld.KPR_STATUS_INVALIDATING, bnat s.kpr.pass.isSome)])
  else if o = 0x1C then
    some (packF [(Fld.KPR_OLD_INFLIGHT_COUNT,
      (s.kpr.slots.filter fun x => x.bank ≠ s.fld Reg.KPR_STATUS Fld.KPR_STATUS_ACTIVE_BANK).length)])
  else if 0x100 ≤ o ∧ o < 0x200 ∧ o % 0x10 = 8 then
    let l := (o - 0x100) / 0x10
    let c := s.coreSafe
    some (overF (s.reg (Reg.KPR_L_STATUS l)) [(Fld.KPR_L_STATUS_GO, bnat (c.goLevel l)), (Fld.KPR_L_STATUS_ALERT, bnat (c.alertLevel l)),
      (Fld.KPR_L_STATUS_FB, bnat (s.pins.laneFb.testBit l))])
  else none

/-- Reads of COX that are computed. -/
def viewCox (s : State) (o : Nat) : Option Word :=
  if o = 0x24 then
    some (packF [(Fld.COX_STATUS_REQ, bnat s.coexReq), (Fld.COX_STATUS_PRIO, bnat s.coexPrio), (Fld.COX_STATUS_GRANT, bnat s.cox.grant),
      (Fld.COX_STATUS_BLANK0, bnat s.cox.blank0), (Fld.COX_STATUS_BLANK1, bnat s.cox.blank1),
      (Fld.COX_STATUS_B0_STUCK, bnat s.cox.stuck0), (Fld.COX_STATUS_B1_STUCK, bnat s.cox.stuck1),
      (Fld.COX_STATUS_WAITING, maskOf (fun n => (s.px n).waitEnd.isSome) 16)])
  else none

end Sys2Proof.Machine
end

