-- ==== Sys2Proof/Machine/Keepout.lean ====
section
/-! DEFINITION. What holds a modulation: when frames may run, how long frames and ramps last, the keep-out test (R86-R92), the ramp slots
(R63, R68), what a port has due, and the views of FLD (R99, R100) that show it. -/

namespace Sys2Proof.Machine

/-! ### Phases (R39, R42, R199, R222) -/

/-- Whether frames and field-on ramps may start. -/
def State.framesRun (s : State) : Bool :=
  !s.saf.safe && !s.gen.fieldsOff && (match s.gen.phase with
    | .run => true
    | .test => s.flag Reg.GEN_TEST_CTRL Fld.GEN_TEST_CTRL_FIELDS_EN
    | _ => false)

/-- Whether polling lists and presence checks run. -/
def State.listsRun (s : State) : Bool :=
  s.framesRun && (decide (s.gen.phase = .run) || s.flag Reg.GEN_TEST_CTRL Fld.GEN_TEST_CTRL_LISTS_EN)

/-! ### Frames (R172-R185, R202) -/

/-- Whether a frame carries a check value (R178, R179). -/
def Frame.checked (f : Frame) : Bool := f.crcTx && decide (f.lastBits = 0) && decide (f.len ≠ 0)

/-- Whether a technology and rate is framed as NFC-F: TECH 2, and TECH 5 at 212 and 424 kbit/s (R172). -/
def framedF (tech rate : Nat) : Bool := decide (tech = 2) || (decide (tech = 5) && decide (rate ≠ 0))

/-- One etu at a rate, in 1/fc. -/
def etu (rate : Nat) : Nat := 128 / 2 ^ rate

/-- RMIN, TMIN and WDEF of a technology (R180). -/
def State.rmin (s : State) (t : Nat) : Nat := (s.reg (Reg.PRO_TECH_RMIN t)).toNat
def State.tmin (s : State) (t : Nat) : Nat := (s.reg (Reg.PRO_TECH_TMIN t)).toNat
def State.wdef (s : State) (t : Nat) : Nat := (s.reg (Reg.PRO_TECH_WDEF t)).toNat

/-- The window limit of a frame in 1/fc (R185, R277). -/
def State.winFc (s : State) (f : Frame) : Nat := if f.limit ≠ 0 then f.limit else if f.win = 0 then s.wdef f.tech else f.win * 128 * 16 ^ f.scale

/-- Bits of an NFC-A frame between its start bit and the end of communication (R172, R174). -/
def Frame.bitsA (f : Frame) : Nat :=
  if f.len = 1 ∧ f.lastBits = 7 ∧ ¬ f.anticoll then 7
  else if f.lastBits = 0 then 9 * (f.len + if f.checked then 2 else 0)
  else 9 * (f.len - 1) + f.lastBits

/-- How many bytes a frame has on air, and how many bits its last byte lacks (R178, R188). -/
def Frame.airLen (f : Frame) : Nat := f.len + if f.checked then 2 else 0
def Frame.lacks (f : Frame) : Nat := if f.lastBits = 0 then 0 else 8 - f.lastBits

/-- How long a frame's modulation lasts, in 1/fc (R202): its bits, and in NFC-V its pulses, two bits or a byte each. -/
def State.frameFc (s : State) (f : Frame) : Nat :=
  let n := f.airLen
  let b := s.reg Reg.PRO_FRAMING
  if framedF f.tech f.rate then etu f.rate * (48 + 16 + (8 * n - f.lacks))
  else if f.tech = 1 then
    etu f.rate * (10 + Fld.PRO_FRAMING_B_SOF_LOW.get b + 2 + Fld.PRO_FRAMING_B_SOF_HIGH.get b
      + (n * (10 + Fld.PRO_FRAMING_B_EGT.get b) - f.lacks) + 10 + Fld.PRO_FRAMING_B_EOF.get b)
  else if f.tech = 3 then
    if n = 0 then 512 else 1024 + (if f.rate = 0 then (8 * n - f.lacks + 1) / 2 * 1024 else n * 65536) + 512
  else etu f.rate * (1 + f.bitsA + 1)

/-- How long a frame modulates and its window is, as times. -/
def State.frameSpan (s : State) (f : Frame) : Nat := s.fc (s.frameFc f)
def State.frameWin (s : State) (f : Frame) : Nat := if f.resp then s.fc (s.winFc f) else 0

/-! ### Ramps and the synthesiser (R55, R63, R66, R69, R71, R78) -/

/-- RAMP_US and T_BIAS as times. -/
def State.rampTime (s : State) : Nat := s.fld Reg.FLD_RAMP Fld.FLD_RAMP_RAMP_US * usec
def State.biasTime (s : State) (n : Nat) : Nat := s.fld (Reg.FLD_P_RELAY n) Fld.FLD_P_RELAY_T_BIAS * usec

/-- The time up to which a ramp of port `n` started now is a modulation: `PA_EN` to the ramp's end (R63). -/
def State.rampSpan (s : State) (n : Nat) : Nat := s.rampTime + if isRelay n then s.biasTime n else 0

/-- Whether the field of port `n` is on or coming on: the port counts as on (R76, R80). -/
def State.fieldOn (s : State) (n : Nat) : Bool :=
  (s.pf n).carrier || (match (s.pf n).ramp with
    | .none | .biasOff _ => false
    | _ => true)

/-- Whether the duty gate has admitted a port for bin `k` (R80). -/
def PortF.admittedTo (x : PortF) (k : Nat) : Bool := x.admitted.any fun p => decide (p.1 ≤ k) && decide (k ≤ p.2)

/-- Whether the duty gate admits port `n` now (R78). -/
def State.dutyAdmits (s : State) (n : Nat) : Bool :=
  decide (s.fld Reg.FLD_DUTY Fld.FLD_DUTY_CEIL_EFF = 256) || (s.pf n).admittedTo s.field.bin

/-- Whether a ramp leads to the field being on, or off. -/
def Ramp.goesOn : Ramp → Bool
  | .biasOn _ | .up _ => true
  | _ => false
def Ramp.goesOff : Ramp → Bool
  | .down _ _ | .biasOff _ => true
  | _ => false

/-- Whether a role carries a field (R69, R72): reader and the active roles. -/
def carriesField (role : Nat) : Bool := decide (2 ≤ role) && decide (role ≤ 4)

/-- Whether the bound of a settling has passed (R55, R71): lock has been reached by then at the latest. -/
def State.settlePast (s : State) : Bool :=
  s.field.synRun && s.flag Reg.FLD_SYN_STATUS Fld.FLD_SYN_STATUS_SETTLING && s.field.settleEnd.any fun e => decide (e ≤ s.time)

/-- Whether the synthesiser is locked and settled. -/
def State.locked (s : State) : Bool :=
  (s.flag Reg.FLD_SYN_STATUS Fld.FLD_SYN_STATUS_LOCKED && !s.flag Reg.FLD_SYN_STATUS Fld.FLD_SYN_STATUS_SETTLING) || s.settlePast

/-- Until when a settling has lasted by now (R55). -/
def State.settledBy (s : State) : Nat := min s.time (s.field.settleEnd.getD s.time)

/-! ### Windows and modulations (R86-R88) -/

/-- When the receive window of a modulation of port `m` that is committed or has ended will open: at the modulation's end, for an active
initiator at the end of its field-off ramp (R207). -/
def State.windowOpens (s : State) (m : Nat) : Option Nat :=
  let x := s.pf m
  if x.winLen = 0 then none
  else match x.txEnd with
    | some e => some (if s.role m = 3 then e + s.rampTime else e)
    | none =>
      if decide (s.role m = 3) && x.window.isNone && ((s.pp m).xch.any fun c => c.txDone) then
        match x.ramp with
        | .down e _ => some e
        | _ => some (s.time + s.rampTime)
      else none

/-- The receive windows of port `m`, open or to open, as intervals that run to their limits (R87). -/
def State.windows (s : State) (m : Nat) : List (Nat × Nat) :=
  (match (s.pf m).window with
    | some l => [(s.time, l)]
    | none => [])
    ++ (match s.windowOpens m with
      | some o => [(o, o + (s.pf m).winLen)]
      | none => [])

/-- The modulations of port `m` that are committed or in progress, as intervals (R86, R88): its frame or the ramp committed to a slot, its
ramp, a PHASE or AMPL transition, a coupling dip, a tuner code change (R109). The keying of R82 lasts no longer than its command. -/
def State.modulations (s : State) (m : Nat) : List (Nat × Nat) :=
  let x := s.pf m
  (match x.txEnd with
    | some e => [(x.txFrom, e)]
    | none => [])
    ++ (match x.ramp with
      | .up e => [(s.time, e)]
      | .biasOn e => [(s.time, e + s.rampTime)]
      | .down e true => [(s.time, e)]
      | _ => [])
    ++ (match x.paEnd with
      | some e => if s.time < e then [(s.time, e)] else []
      | none => [])
    ++ (match x.step with
      | some (5, e) => [(s.time, e)]
      | _ => [])
    ++ (match (s.pt m).opEnd with
      | some e => [(s.time, e)]
      | none => [])

/-- Whether a window of port `m` is open or will open by `te` (R88 a; an end that meets a window's opening counts, as the worked example
of the huddle shows). -/
def State.windowBefore (s : State) (m te : Nat) : Bool :=
  (s.pf m).window.isSome || ((s.windowOpens m).any fun o => decide (o ≤ te))

/-- R88 for a modulation of port `n` over [`t`, `te`] with a window of length `win` after it. -/
def State.clearOf (s : State) (n te win : Nat) : Bool :=
  allBelow (fun m => !s.keepOut n m || (!s.windowBefore m te && (decide (win = 0)
    || (s.modulations m).all fun i => decide (i.2 < te) || decide (te + win < i.1)))) 16

/-- Whether huddle `h` has a slot in progress. -/
def State.slotOpen (s : State) (h : Nat) : Bool := (s.hud h).txEnd.isSome || (s.hud h).listening

/-- Whether the timeline of the huddle of which port `n` is a member lets it modulate up to `te` (R89): not in the listen phase, not beyond
the common end. -/
def State.timelineFree (s : State) (n te : Nat) : Bool :=
  match s.huddleOf n with
  | some h => !(s.hud h).listening && ((s.hud h).txEnd.all fun e => decide (te ≤ e))
  | none => true

/-! ### What a port has due (R69, R89, R91, R201) -/

/-- Everything that a field-on of port `n` needs beside lock, slot, keep-out, grant and blank (R69, R74, R78). -/
def State.onDue (s : State) (n : Nat) : Bool :=
  let x := s.pf n
  s.framesRun && x.wantOn.isSome && decide (x.radio = .standby) && decide (x.ramp = .none) && x.biasFrom.isNone && x.resetEnd.isNone
    && decide (0 < s.effAmpl n) && s.dutyAdmits n && carriesField (s.role n)
    && (match (s.pp n).rfca with
      | .initial _ _ | .response _ _ => false
      | _ => true)

/-- Whether a field-off asked of port `n` could start but for slot, lock, keep-out, grant and blank (R68, R69). -/
def State.offDue (s : State) (n : Nat) : Bool :=
  let x := s.pf n
  x.wantOff.isSome && (decide (x.radio = .field) || decide (x.radio = .cal)) && decide (x.ramp = .none) && x.txEnd.isNone

/-- Whether a PHASE or AMPL change of port `n` could be applied but for lock, keep-out, grant and blank (R60, R73): in FIELD with no guard
running. One written in RX waits for FIELD. -/
def State.changeDue (s : State) (n : Nat) : Bool :=
  let x := s.pf n
  x.pend && (decide (x.radio = .field) || decide (x.radio = .cal)) && decide (x.ramp = .none) && x.txEnd.isNone && x.guardEnd.isNone
    && (x.paEnd.all fun e => decide (e ≤ s.time))

/-- Whether nothing but time, keep-out, grant, blanks and the synthesiser holds a frame of port `n` (R69, R73-R75, R195, R198, R199, R207, R321). -/
def State.frameReady (s : State) (n : Nat) (p : Plan) : Bool :=
  let x := s.pf n
  let r := s.role n
  (if p.frame.purpose = .host then s.framesRun && decide (2 ≤ r) && decide (r ≤ 4) && decide ((s.pp n).staged = []) else s.listsRun && decide (r = 2))
    && (decide (x.radio = .field) || decide (x.radio = .cal)) && x.carrier && decide (x.ramp = .none) && x.guardEnd.isNone
    && x.resetEnd.isNone && !x.resetAsked && x.wantOff.isNone && x.txEnd.isNone && (s.pp n).xch.isNone
    && (s.px n).waitEnd.isNone && (s.px n).retryAt.isNone && (s.pt n).opEnd.isNone && !s.intakeWaits n
    && !((s.pt n).search.isSome && s.flag (Reg.TUN_P_MISMATCH n) Fld.TUN_P_MISMATCH_PRIORITY)
    && (match (s.pp n).rfca with
      | .none | .ready => true
      | _ => false)

/-- The earliest start of a frame of port `n` under R183, and after a PHASE or AMPL transition of its own. -/
def State.frameDue (s : State) (n : Nat) (p : Plan) : Nat :=
  let x := s.pp n
  max (max p.notBefore ((s.pf n).paEnd.getD 0))
    (if x.lastEnd = 0 then 0 else max (x.lastEnd + s.fc (s.tmin x.lastTech)) (x.lastEnd + s.fc p.frame.delay))

/-- A member's part in a slot: its port, from when it is due, how long it modulates, its window, and whether it is
a ramp. -/
structure Part where
  port : Nat
  due : Nat
  span : Nat
  win : Nat
  ramp : Bool
  deriving DecidableEq, Repr

/-- What port `n` would start next, with every wait but lock, slot, keep-out, grant, blanks and time over (R89, R201). -/
def State.partOf (s : State) (n : Nat) : Option Part :=
  if (s.pf n).wantOff.isSome then
    (if s.offDue n then some { port := n, due := s.time, span := s.rampTime, win := 0, ramp := true } else none)
  else if s.onDue n then some { port := n, due := (s.pf n).notBefore, span := s.rampSpan n, win := 0, ramp := true }
  else match (s.pp n).plan with
    | some p =>
      if s.frameReady n p then
        some { port := n, due := s.frameDue n p, span := s.frameSpan p.frame, win := s.frameWin p.frame, ramp := false }
      else none
    | none => none

/-- What port `n` could start now (R91): a part that is due, and has no modulation begun, or a PHASE or AMPL change. -/
def State.partNow (s : State) (n : Nat) : Option Part :=
  match (s.partOf n).filter fun p => decide (p.due ≤ s.time) && (s.pf n).txEnd.isNone && (s.px n).waitEnd.isNone && (s.px n).retryAt.isNone with
  | some p => some p
  | none =>
    if s.changeDue n then
      some { port := n, due := s.time, span := s.fld Reg.FLD_RAMP Fld.FLD_RAMP_ASK_EDGE * 3200, win := 0, ramp := false }
    else none

/-- A modulation that is due: since when it has been held, how long it modulates, its window. -/
structure Due where
  since : Nat
  span : Nat
  win : Nat
  deriving DecidableEq, Repr

/-- The slot of huddle `h` as a modulation that is due (R90, R91): none while one is in progress. -/
def State.slotDue (s : State) (h : Nat) : Option Due :=
  if s.slotOpen h then none
  else match ((List.range 16).filter fun n => s.huddled n = some h).filterMap s.partNow with
    | [] => none
    | l => some { since := (s.hud h).dueSince.getD s.time, span := l.foldl (fun m (p : Part) => max m p.span) 0,
                  win := l.foldl (fun m (p : Part) => max m p.win) 0 }

/-- The modulation that port `n`, or the huddle whose timeline it follows, has due (R91). -/
def State.dueOf (s : State) (n : Nat) : Option Due :=
  match s.huddled n with
  | some h => s.slotDue h
  | none => (s.partNow n).map fun p => { since := (s.pf n).dueSince.getD s.time, span := p.span, win := p.win }

/-! ### Precedence (R52, R91, R92) -/

/-- A start moved past one window or modulation that R88 forbids a modulation of length `d` with a window `w` to meet. -/
def pushPast (d w : Nat) (wins mods : List (Nat × Nat)) (t : Nat) : Nat :=
  match wins.find? fun i => decide (i.1 ≤ t + d) && decide (t < i.2) with
  | some i => i.2
  | none => match mods.find? fun i => decide (0 < w) && decide (i.1 ≤ t + d + w) && decide (t + d ≤ i.2) with
    | some i => i.2 + 1 - d
    | none => t

/-- The earliest start from `t` on, moved past at most `k` windows and modulations. -/
def earliestFrom (d w : Nat) (wins mods : List (Nat × Nat)) : Nat → Nat → Nat
  | 0, t => t
  | k + 1, t => earliestFrom d w wins mods k (pushPast d w wins mods t)

/-- The earliest permitted start of a modulation of port `m` (R88, R90, R91) among the windows and modulations of every port but `n`, and
those given beside them. -/
def State.earliest (s : State) (n m d w : Nat) (wins mods : List (Nat × Nat)) : Nat :=
  let ks := (List.range 16).filter fun k => decide (k ≠ n) && s.keepOut m k
  let ws := wins ++ ks.flatMap s.windows
  let ms := mods ++ ks.flatMap s.modulations
  earliestFrom d w ws ms (ws.length + ms.length) s.time

/-- Whether port `n` or its huddle has reached STARVE_LIMIT (R91). -/
def State.isStarved (s : State) (n : Nat) : Bool :=
  (s.pf n).starved || (match s.huddled n with
    | some h => (s.hud h).starved
    | none => false)

/-- Since when a modulation of port `n`, or of its huddle, has been held. -/
def State.dueFrom (s : State) (n : Nat) : Option Nat :=
  match s.huddled n with
  | some h => (s.hud h).dueSince
  | none => (s.pf n).dueSince

/-- The order of R92 among those due: longer deferral first, a huddle before a free port, lower number first. -/
def State.dueKey (s : State) (n : Nat) (since : Nat) : Nat :=
  since * 64 + (match s.huddled n with
    | some h => h
    | none => 16 + n)

/-- Whether port `m` could start what it has due but for keep-out: lock, grant, blank, and a ramp slot. -/
def State.startable (s : State) (m : Nat) : Bool := s.locked && s.granted && !s.blanked m

/-- Whether R91 and R92 let port `n` start a modulation that ends at `te` with a window `win`, due since `since`: it makes no starved
neighbour later, and no neighbour later that is due in the same cycle and comes first. -/
def State.turnOf (s : State) (n te win since : Nat) : Bool :=
  allBelow (fun m => !s.keepOut n m || (match s.dueOf m with
    | none => true
    | some q =>
      let alone := s.earliest n m q.span q.win [] []
      let after := s.earliest n m q.span q.win (if win = 0 then [] else [(te, te + win)]) [(s.time, te)]
      decide (after ≤ alone)
        || (let first := decide (s.dueKey m q.since < s.dueKey n since)
            !(s.isStarved m && (!s.isStarved n || first)) && !(first && decide (alone ≤ s.time) && s.startable m)))) 16

/-- Whether keep-out, the huddle's timeline and precedence let port `n` modulate from now to `te` (R52, R88-R92). -/
def State.keepClear (s : State) (n te win : Nat) : Bool :=
  s.clearOf n te win && s.timelineFree n te && s.turnOf n te win ((s.dueFrom n).getD s.time)

/-- Whether port `n` may start a modulation now as far as lock and keep-out go (R55, R88-R92). -/
def State.mayModulate (s : State) (n te win : Nat) : Bool := s.locked && s.keepClear n te win

/-- Whether nothing holds a modulation of port `n` that runs from now to `te` (R55, R69, R86, R384, R393). -/
def State.airFree (s : State) (n te win : Nat) : Bool := s.mayModulate n te win && s.granted && !s.blanked n

/-- The same for a field-off ramp of its own; those by which RECOVERY turns the fields off do not wait for lock (R623). -/
def State.offFree (s : State) (n : Nat) : Bool :=
  (s.locked || s.gen.fieldsOff) && s.keepClear n (s.time + s.rampTime) 0 && s.granted && !s.blanked n

/-! ### Ramp slots (R63, R68) -/

/-- How many ports hold a ramp slot (R63, R68); a ramp committed to a huddle's slot has its own set aside. -/
def State.rampSlots (s : State) : Nat :=
  ((List.range 16).filter fun n => match (s.pf n).ramp with
    | .biasOn _ | .up _ | .down _ true => true
    | .none => (s.pf n).rampDue && (s.pf n).txEnd.isSome
    | _ => false).length

/-- How many ramp slots are free (R68). -/
def State.freeSlots (s : State) : Nat := s.fld Reg.FLD_RAMP Fld.FLD_RAMP_RAMP_CONC - s.rampSlots

/-- Since when a free port has waited for a ramp slot, and for nothing else (R68). -/
def State.slotAsk (s : State) (m : Nat) : Option Nat :=
  let x := s.pf m
  if (s.huddled m).isSome then none
  else if x.wantOff.isSome then (if s.offDue m && s.offFree m then x.wantOff else none)
  else if s.onDue m && decide (x.notBefore ≤ s.time) && (s.px m).waitEnd.isNone && (s.px m).retryAt.isNone
      && s.airFree m (s.time + s.rampSpan m) 0 then x.wantOn
  else none

/-- How many free ports that wait for a ramp slot come before a request of port `n` made at `since` (R68, R98). -/
def State.slotsBefore (s : State) (n since : Nat) : Nat :=
  ((List.range 16).filter fun m => decide (m ≠ n) && ((s.slotAsk m).any fun t => decide (t * 16 + m < since * 16 + n))).length

/-- Whether a ramp slot is granted to a request of port `n` made at `since` (R68). -/
def State.slotFor (s : State) (n since : Nat) : Bool := decide (s.slotsBefore n since < s.freeSlots)

/-! ### COX: the lead of a burst (R385) -/

/-- The earliest instant of a burst of this command (R385). -/
def State.leadEnd (s : State) : Nat :=
  if s.flag Reg.COX_CTRL Fld.COX_CTRL_REQ_EN then s.obs.leadAt.getD s.leadFrom else 0

/-! ### Views of FLD (R99, R100) -/

/-- STATE of R100. -/
def Radio.num : Radio → Nat
  | .off => 0 | .standby => 1 | .field => 2 | .tx => 3 | .rx => 4 | .cal => 5

/-- The accumulated deferral of port `n`, its huddle's for a member (R91). -/
def State.deferral (s : State) (n : Nat) : Nat :=
  match (match s.huddled n with
    | some h => (s.hud h).dueSince
    | none => (s.pf n).dueSince) with
  | some t => s.time - t
  | none => 0

/-- Whether keep-out or its huddle's timeline holds what port `n` has due (R100). -/
def State.heldOut (s : State) (n : Nat) : Bool :=
  match s.huddled n with
  | some h => (s.partNow n).any fun p => s.slotOpen h || !s.keepClear n (s.time + p.span) p.win
  | none => (s.partNow n).any fun p => !s.keepClear n (s.time + p.span) p.win

/-- Whether port `n` waits for a ramp slot (R100). -/
def State.waitsRamp (s : State) (n : Nat) : Bool :=
  match s.huddled n with
  | some _ => ((s.partNow n).any fun p => p.ramp) && decide (s.freeSlots = 0)
  | none => (s.slotAsk n).any fun t => !s.slotFor n t

/-- `FLD.Pn.STATE` (R100). -/
def State.viewState (s : State) (n : Nat) : Word :=
  let x := s.pf n
  packF [(Fld.FLD_P_STATE_STATE, x.radio.num), (Fld.FLD_P_STATE_IN_GUARD, bnat (x.guardEnd.isSome || x.resetEnd.isSome)),
    (Fld.FLD_P_STATE_IN_RXWIN, bnat x.window.isSome), (Fld.FLD_P_STATE_DEFER_KEEPOUT, bnat (s.heldOut n)),
    (Fld.FLD_P_STATE_DEFER_DUTY, bnat (x.wantOn.isSome && !x.admittedTo s.field.bin && decide (s.fld Reg.FLD_DUTY Fld.FLD_DUTY_CEIL_EFF ≠ 256))),
    (Fld.FLD_P_STATE_WAIT_RAMP, bnat (s.waitsRamp n)),
    (Fld.FLD_P_STATE_WAIT_SYN, bnat (!s.locked && (s.partNow n).isSome)),
    (Fld.FLD_P_STATE_STARVED, bnat (x.starved || (match s.huddled n with
      | some h => (s.hud h).starved
      | none => false))),
    (Fld.FLD_P_STATE_DEFER_US, min 65535 (s.deferral n / usec))]

/-- Reads of FLD that are computed. -/
def viewFld (s : State) (o : Nat) : Option Word :=
  if o = 0x14 then
    some (if s.settlePast then overF (s.reg Reg.FLD_SYN_STATUS) [(Fld.FLD_SYN_STATUS_LOCKED, 1), (Fld.FLD_SYN_STATUS_SETTLING, 0)]
      else s.reg Reg.FLD_SYN_STATUS)
  else if 0x50 ≤ o ∧ o < 0x60 then
    let h := (o - 0x50) / 4
    some (packF [(Fld.FLD_HUDDLE_STATUS_MEMBERS, (s.hud h).members), (Fld.FLD_HUDDLE_STATUS_TX_PHASE, bnat (s.hud h).txEnd.isSome),
      (Fld.FLD_HUDDLE_STATUS_LISTEN_PHASE, bnat (s.hud h).listening)])
  else if 0x1000 ≤ o ∧ o < 0x5000 then
    let n := (o - 0x1000) / 0x400
    let p := (o - 0x1000) % 0x400
    if p = 0xC then some (s.viewState n)
    else if p = 0x14 then some (overF (s.reg (Reg.FLD_P_AMPL n)) [(Fld.FLD_P_AMPL_EFFECTIVE, s.effAmpl n)])
    else if p = 0x1C then some (overF (s.reg (Reg.FLD_P_NEIGH n)) [(Fld.FLD_P_NEIGH_EFFECTIVE, s.neigh n)])
    else if p = 0x28 ∧ 4 ≤ n then some 0
    else none
  else none

/-! ### Frames of the tuner link (R104, R105) -/

/-- The template of port `n`. -/
def State.tplOf (s : State) (n : Nat) : Nat := s.fld (Reg.TUN_P_TUNER n) Fld.TUN_P_TUNER_TEMPLATE

/-- A field of a frame: its position and width, as TPLt_FMT gives them. -/
def State.tplField (s : State) (t : Nat) (pos width : Field) : Field :=
  ⟨s.fld (Reg.TUN_TPL_FMT t) pos, s.fld (Reg.TUN_TPL_FMT t) width⟩

/-- The fields of CODE_A and CODE_B in a frame of template `t`. -/
def State.fieldA (s : State) (t : Nat) : Field := s.tplField t Fld.TUN_TPL_FMT_A_POS Fld.TUN_TPL_FMT_A_W
def State.fieldB (s : State) (t : Nat) : Field := s.tplField t Fld.TUN_TPL_FMT_B_POS Fld.TUN_TPL_FMT_B_W

/-- LENGTH of a template. -/
def State.tplLength (s : State) (t : Nat) : Nat := s.fld (Reg.TUN_TPL_CTRL t) Fld.TUN_TPL_CTRL_LENGTH

/-- The frame of port `n` for codes `a` (R105, R107), bit 0 as numbered there. -/
def State.tunerFrame (s : State) (n : Nat) (isRead : Bool) (a : Word) : Word :=
  let t := s.tplOf n
  let base := word ((s.reg (if isRead then Reg.TUN_TPL_CONST_RD t else Reg.TUN_TPL_CONST t)).toNat % 2 ^ s.tplLength t)
  let w1 := (s.tplField t Fld.TUN_TPL_FMT_ADDR_POS Fld.TUN_TPL_FMT_ADDR_W).set base (s.fld (Reg.TUN_P_TUNER n) Fld.TUN_P_TUNER_ADDR)
  (s.fieldB t).set ((s.fieldA t).set w1 (Fld.TUN_P_CODE_CODE_A.get a)) (Fld.TUN_P_CODE_CODE_B.get a)

/-- A half-period of `TSCK` (R104). -/
def State.linkHalf (s : State) : Nat := (s.fld Reg.TUN_LINK Fld.TUN_LINK_DIV + 1) * cycle

/-- How long a frame of port `n` takes (R104). -/
def State.linkTime (s : State) (n : Nat) : Nat :=
  (s.fld Reg.TUN_LINK Fld.TUN_LINK_CS_SETUP + 2 * s.tplLength (s.tplOf n) + s.fld Reg.TUN_LINK Fld.TUN_LINK_CS_HOLD)
    * s.linkHalf

end Sys2Proof.Machine
end

