-- ==== Sys2Proof/Machine/Peek.lean ====
section
/-! DEFINITION. The remaining computed register views (PWR, STO, EMU, TUN), the output pins (R589), and `State.peek`, the value of any
host address without side effects (the reading of a snapshot, R438, or of the trace port, R548). -/

namespace Sys2Proof.Machine

/-! ### PWR (R568, R570, R581) -/

/-- Whether a port's radio state is neither OFF nor STANDBY (R568). -/
def State.radiating (s : State) (n : Nat) : Bool :=
  match (s.pf n).radio with
  | .off | .standby => false
  | _ => true

/-- Whether every radio state is OFF or STANDBY. -/
def State.allQuiet (s : State) : Bool := allBelow (fun n => !s.radiating n) 16

/-- Whether every effective role is off, or off or sniff (R570). -/
def State.rolesIdle (s : State) (sniff : Bool) : Bool :=
  allBelow (fun n => decide (s.role n = 0) || (sniff && decide (s.role n = 1))) 16

/-- Whether a lane pulse runs. -/
def State.pulsing (s : State) : Bool := anyBelow (fun l => (s.lane l).goEnd.isSome || (s.lane l).alertEnd.isSome) 16

/-- Whether staging pages wait for a store that can write them (R452, R571). -/
def State.spillOwes (s : State) : Bool :=
  s.flag Reg.STO_STATUS Fld.STO_STATUS_READY && decide (s.fld (Reg.STO_PAGES 2) Fld.STO_PAGES_PAGES ≠ 0) && s.obs.sil.stages.any fun p => p.handed

/-- The conditions of R570 not met, bit 0 for BLOCK bit 8 and so on. -/
def State.pwrBlock (s : State) (r : PwrReq) : Nat :=
  bnat (decide (s.gen.phase ≠ .run)) + 2 * bnat (!(s.rolesIdle (r = .sniff) && s.allQuiet)) + 4 * bnat (decide (s.sess ≠ []))
    + 8 * bnat (decide (s.kpr.slots ≠ []) || decide (s.kpr.waiting ≠ [])) + 16 * bnat s.pulsing
    + 32 * bnat (decide (s.sto.queue ≠ []) || s.spillOwes || s.flag Reg.STO_HSTATUS Fld.STO_HSTATUS_BUSY0
        || s.flag Reg.STO_HSTATUS Fld.STO_HSTATUS_BUSY1)
    + 64 * bnat (decide (s.emu.updates ≠ []) || s.emu.sync.isSome || s.cox.lower.isSome || s.kpr.commit.isSome || s.cfg.auth.isSome
        || s.cfg.zeroing.isSome)
    + 128 * bnat s.pins.hcsLow
    + 256 * bnat (decide (s.obs.sil.intake ≠ []) || decide (s.obs.sil.hold ≠ []) || s.flag Reg.SIL_FREEZE Fld.SIL_FREEZE_FREEZE)

/-- Reads of PWR that are computed. -/
def viewPwr (s : State) (o : Nat) : Option Word :=
  if o = 0x10 then
    some (packF [(Fld.PWR_STATE_CUR, if s.allQuiet then 3 else 4),
      (Fld.PWR_STATE_PENDING, match s.pwr.pending with
        | none => 0
        | some .sleep => 1
        | some .sniff => 2),
      (Fld.PWR_STATE_BLOCK, match s.pwr.pending with
        | none => 0
        | some r => s.pwrBlock r)])
  else if o = 0x28 then some (overF (s.reg Reg.PWR_CLK_STATUS) [(Fld.PWR_CLK_STATUS_SYN_RUN, bnat s.field.synRun)])
  else none

/-! ### STO (R361) -/

/-- Reads of STO that are computed. -/
def viewSto (s : State) (o : Nat) : Option Word :=
  if o = 0x30 then
    some (overF (s.reg Reg.STO_STATUS) [(Fld.STO_STATUS_QDEPTH, min 64 s.sto.queue.length),
      (Fld.STO_STATUS_DIE_BUSY, maskOf (fun d => s.sto.queue.any fun q => q.started.isSome && !q.suspended && q.die = d) 16)])
  else if 0x1000 ≤ o ∧ o < 0x2000 then some (ofBytes (Sparse.read s.sto.buf0 0 (o - 0x1000) 4))
  else if 0x2000 ≤ o ∧ o < 0x3000 then some (ofBytes (Sparse.read s.sto.buf1 0 (o - 0x2000) 4))
  else none

/-! ### CFG (R527) -/

/-- Reads of CFG that are computed. -/
def viewCfg (s : State) (o : Nat) : Option Word :=
  if o = 0x28 then some (overF (s.reg Reg.CFG_AUTH_STATUS) [(Fld.CFG_AUTH_STATUS_BUSY, bnat s.cfg.auth.isSome)])
  else none

/-! ### EMU (R383) -/

/-- TAG_STATE of R383. -/
def TagState.num : TagState → Nat
  | .off => 0 | .idle => 1 | .ready => 2 | .active => 3 | .halt => 4 | .bench => 5

/-- Reads of EMU that are computed. -/
def viewEmu (s : State) (o : Nat) : Option Word :=
  let x := s.emu
  if o = 0x1C then
    some (overF (s.reg Reg.EMU_STATUS)
      [(Fld.EMU_STATUS_TAG_STATE, x.tag.num), (Fld.EMU_STATUS_FIELD, bnat x.field),
       (Fld.EMU_STATUS_SNAPSHOT, bnat (x.snapshot.isSome && !x.lockedSel && decide (x.tag = .active))),
       (Fld.EMU_STATUS_PUBLISHING, bnat x.publishing), (Fld.EMU_STATUS_SYNC_BUSY, bnat x.sync.isSome),
       (Fld.EMU_STATUS_CTR_BUSY, bnat (decide (x.updates ≠ []))), (Fld.EMU_STATUS_HELD_WRITE, bnat x.heldWrite.isSome),
       (Fld.EMU_STATUS_BENCH_LEFT, match x.benchEnd with
         | some e => (e - s.time) / (10 * msec)
         | none => 0)])
  else if 0x2000 ≤ o ∧ o < 0x2400 then some (ofBytes (Sparse.read x.data 0 (o - 0x2000) 4))
  else none

/-! ### TUN (R130) -/

/-- Reads of TUN that are computed. -/
def viewTun (s : State) (o : Nat) : Option Word :=
  if o = 0x14 then
    some (overF (s.reg Reg.TUN_LINK_STATUS) [(Fld.TUN_LINK_STATUS_BUSY, bnat (s.tun.link.any fun q => q.ends.isSome))])
  else if o = 0x68 then
    some (overF (s.reg Reg.TUN_MISMATCH_STATUS)
      [(Fld.TUN_MISMATCH_STATUS_SEARCHING, maskOf (fun n => (s.pt n).search.isSome) 16)])
  else none

/-! ### Any address -/

/-- The word at a host address without side effects: the SRAM window (R27), a computed view, a held register, and 0 where no
register stands (R29). -/
def State.peek (s : State) (a : Nat) : Word :=
  if inSram a then ofBytes (s.sramSeen a 4)
  else if inBlock a then
    let o := a % 0x10000
    let v := match a / 0x10000 with
      | 0x00 => viewGen s o
      | 0x01 => viewPwr s o
      | 0x02 => viewFld s o
      | 0x03 => viewRxe s o
      | 0x04 => viewPro s o
      | 0x05 => viewAcd s o
      | 0x06 => viewKpr s o
      | 0x07 => viewSto s o
      | 0x08 => viewSil s o
      | 0x09 => viewTmr s o
      | 0x0A => viewQue s o
      | 0x0B => viewCrc s o
      | 0x0C => viewCox s o
      | 0x0E => viewCfg s o
      | 0x0F => viewEmu s o
      | 0x10 => viewTrc s o
      | 0x11 => viewTun s o
      | _ => none
    match v with
    | some w => w
    | none => s.reg a
  else 0

/-! ### Output pins (R589) -/

/-- The output pins that carry a logic level. -/
structure OutPins where
  paEn : List Bool
  go : List Bool
  alert : List Bool
  faultN : Bool
  hirqN : Bool
  hrdy : Bool
  coexReq : Bool
  coexPrio : Bool
  /-- The level of `PA_VC_n` as a code (R65). -/
  paVc : List Nat
  tsck : Bool
  tcsN : List Bool
  /-- `TSDO` while a frame is sent. -/
  tsdo : Option Bool
  /-- Whether `TRACE_CLK` runs, and the byte that `TRACE_D` carries in its period: 0 between packets and while it does not run (R544). -/
  traceClk : Bool
  traceD : Byte
  deriving DecidableEq, Repr

/-- `PA_EN_n` as commanded (R63, R414). -/
def State.paEn (s : State) (n : Nat) : Bool :=
  isRelay n && !s.saf.safe && (match (s.pf n).ramp with
    | .biasOn _ | .up _ | .down _ _ | .biasOff _ => true
    | .none => (s.pf n).carrier)

/-- The PA_VC code of relay port `n` in force (R65): clamped to the locked drive ceiling. -/
def State.paVcCode (s : State) (n : Nat) : Nat := min (s.fld (Reg.FLD_P_RELAY n) Fld.FLD_P_RELAY_PA_VC) (s.ceil n)

/-- What a field-on ramp to `a` has reached after `t` of its time `d` (R66): raised-cosine, or linear with SHAPE 1. -/
def rampLevel (linear : Bool) (a t d : Nat) : Nat :=
  if d ≤ t then a
  else if linear then a * t / d
  else ((a : Int) * (2 ^ 30 - cosTurn (512 * t / d)) / 2 ^ 31).toNat

/-- The level of port `n` on the way to the target `a` (R63, R66): on direct ports of the driver amplitude, on relay ports of `PA_VC`. -/
def State.rampedTo (s : State) (n a : Nat) : Nat :=
  let lin := s.flag Reg.FLD_RAMP Fld.FLD_RAMP_SHAPE
  match (s.pf n).ramp with
  | .up e => rampLevel lin a (s.time + s.rampTime - e) s.rampTime
  | .down e _ => rampLevel lin a (e - s.time) s.rampTime
  | .none => if (s.pf n).carrier then a else 0
  | .biasOn _ | .biasOff _ => 0

/-- The amplitude code on the output of port `n` (R58, R63, R66): of a direct port's driver, or of the carrier on `TXO_n`. -/
def State.driveLevel (s : State) (n : Nat) : Nat :=
  if s.saf.safe then 0
  else if isRelay n then (if (s.pf n).carrier then s.effAmpl n else 0) else s.rampedTo n (s.effAmpl n)

/-- `PA_VC_n` as a code (R63, R65, R66): held at its target throughout FIELD, TX and RX (R64). -/
def State.paVc (s : State) (n : Nat) : Nat := if isRelay n && !s.saf.safe then s.rampedTo n (s.paVcCode n) else 0

/-- The half-period of the frame in progress on the tuner link, from the assertion of its chip select, with its port (R104). -/
def State.linkPhase (s : State) : Option (LinkReq × Nat) :=
  match s.tun.link with
  | q :: _ => q.ends.bind fun e => if s.time < e then some (q, (s.time + s.linkTime q.port - e) / s.linkHalf) else none
  | [] => none

/-- Whether the pins of the tuner link are low between frames: in reset and in the safe state (R589). -/
def State.linkLow (s : State) : Bool := s.saf.safe || decide (s.pwr.awake = .reset)

/-- `TSCK` (R104, R589): at CPOL, with 2 × LENGTH edges from CS_SETUP half-periods after the chip select on. -/
def State.tsck (s : State) : Bool :=
  let idle := s.flag Reg.TUN_LINK Fld.TUN_LINK_CPOL
  match s.linkPhase with
  | some (q, h) =>
    let first := s.fld Reg.TUN_LINK Fld.TUN_LINK_CS_SETUP
    if first ≤ h ∧ h < first + 2 * s.tplLength (s.tplOf q.port) ∧ (h - first) % 2 = 0 then !idle else idle
  | none => idle && !s.linkLow

/-- `TSDO` (R104, R105): the bits of the frame, bit LENGTH − 1 first unless LSB_FIRST; with CPHA 0 a bit stands from half a period before its
leading edge, with CPHA 1 from that edge. -/
def State.tsdo (s : State) : Option Bool :=
  match s.linkPhase with
  | some (q, h) =>
    let t := s.tplOf q.port
    let len := s.tplLength t
    let first := s.fld Reg.TUN_LINK Fld.TUN_LINK_CS_SETUP
    let k := min (len - 1) ((h + (if s.flag Reg.TUN_LINK Fld.TUN_LINK_CPHA then 0 else 1) - first) / 2)
    some (s.tun.sent.toNat.testBit (if s.flag (Reg.TUN_TPL_CTRL t) Fld.TUN_TPL_CTRL_LSB_FIRST then k else len - 1 - k))
  | none => if s.linkLow then some false else none

/-- `TCSk_N` (R104, R105): low while a frame of a port that names chip select `k` is sent. -/
def State.tcsN (s : State) (k : Nat) : Bool :=
  match s.linkPhase with
  | some (q, _) => decide (s.fld (Reg.TUN_P_TUNER q.port) Fld.TUN_P_TUNER_CS ≠ k)
  | none => true

/-- The levels on the output pins. `FAULT_N` is low in reset too (R418); `ALERT_n` is inverted by ALERT_POL, in the safe state by MON's copy of it (R330, R414). -/
def State.outPins (s : State) : OutPins :=
  { paEn := (List.range 16).map s.paEn
    go := (List.range 16).map s.goLevel
    alert := (List.range 16).map fun l =>
      (s.alertLevel l) != (if s.saf.safe then s.saf.polCopy.testBit l else s.flag (Reg.KPR_L_CFG l) Fld.KPR_L_CFG_ALERT_POL)
    faultN := !(s.flag Reg.SAF_STATUS Fld.SAF_STATUS_FAULT_OUT || decide (s.pwr.awake = .reset))
    hirqN := !s.obs.irq.asserted || s.obs.irq.pulseEnd.isSome
    hrdy := decide (s.pwr.awake = .running) && s.emu.heldWrite.isNone && s.hif.waiting.isNone
    coexReq := s.coexReq
    coexPrio := s.coexPrio
    paVc := (List.range 16).map s.paVc
    tsck := s.tsck
    tcsN := (List.range 4).map s.tcsN
    tsdo := s.tsdo
    traceClk := s.flag Reg.TRC_TRACE_CTRL Fld.TRC_TRACE_CTRL_EN || decide (s.obs.trc.buf ≠ [])
    traceD := s.obs.trc.buf.headD 0 }

end Sys2Proof.Machine
end

