-- ==== Sys2Proof/Machine/Log.lean ====
section
/-! DEFINITION. What every posted event goes through (the recorder's acceptance and ring, R433-R453; the event queue's intake,
R488-R492; the trace port, R545-R547), and the bookkeeping that closes a command: captures, watermarks, `HIRQ_N`. -/

namespace Sys2Proof.Machine

/-- The state with Sillage changed. -/
def State.setSil (s : State) (x : SilSt) : State := { s with obs := { s.obs with sil := x } }

/-- The state with the event queue changed. -/
def State.setEvq (s : State) (x : EvqSt) : State := { s with obs := { s.obs with evq := x } }

/-- The state with the trace port changed. -/
def State.setTrc (s : State) (x : TrcSt) : State := { s with obs := { s.obs with trc := x } }

/-! ### The trace port (R544-R547) -/

/-- A packet: header, payload, CRC-8 (R545). -/
def tracePacket (type seq : Nat) (payload : List Byte) : List Byte :=
  let l := byte (16 * type + seq % 16) :: payload
  l ++ [byte (crc8 l)]

/-- The payload of a LOSS packet (R545). -/
def State.lossPayload (s : State) : List Byte := leBytes 2 (s.dt % 65536) ++ leBytes 2 (min s.obs.trc.lossRun 65535)

/-- A packet due: it enters the 256-byte buffer whole, preceded by LOSS after drops, or is dropped and counted (R547). -/
def State.trace (s : State) (type : Nat) (payload : List Byte) : State :=
  if s.flag Reg.TRC_TRACE_CTRL Fld.TRC_TRACE_CTRL_EN then
    let x := s.obs.trc
    let loss := if x.lossRun = 0 then [] else tracePacket 6 x.seq s.lossPayload
    let n := if x.lossRun = 0 then 0 else 1
    let p := tracePacket type (x.seq + n) payload
    if x.buf.length + loss.length + p.length ≤ 256 then
      (s.setTrc { x with buf := x.buf ++ loss ++ p, sizes := x.sizes ++ (if n = 0 then [] else [loss.length]) ++ [p.length], seq := (x.seq + n + 1) % 16, lossRun := 0 }).countBy 108 (n + 1)
    else
      (s.setTrc { x with lost := satAdd 65535 x.lost 1, lossRun := satAdd 65535 x.lossRun 1 }).count 109
  else s

/-- An EVENT packet, where the event passes CLASS_EN and MIN_NOTE (R546). -/
def State.traceEvent (s : State) (e : Event) : State :=
  if s.flag Reg.TRC_TRACE_CTRL Fld.TRC_TRACE_CTRL_EVENT_EN
      && s.fldBit Reg.TRC_TRACE_SEL Fld.TRC_TRACE_SEL_CLASS_EN (e.code / 0x1000)
      && decide (e.note.rank ≤ s.fld Reg.TRC_TRACE_CTRL Fld.TRC_TRACE_CTRL_MIN_NOTE) then
    s.trace 2 (leBytes 2 (s.dt % 65536) ++ leBytes 2 e.code ++ wordBytes e.arg)
  else s

/-- A STATE packet of KIND `k` (R545, R546), where the value has changed. -/
def State.traceState (k index old new : Nat) (s : State) : State :=
  if old ≠ new && s.flag Reg.TRC_TRACE_CTRL Fld.TRC_TRACE_CTRL_STATE_EN && s.fldBit Reg.TRC_TRACE_SEL Fld.TRC_TRACE_SEL_KIND_EN k then
    s.trace 4 (leBytes 2 (s.dt % 65536) ++ [byte k, byte index, byte old, byte new])
  else s

/-- The DECISION packets due (R545, R546). -/
def State.traceDecisions (s : State) : State :=
  let l := s.obs.trc.decisions
  let s1 := s.setTrc { s.obs.trc with decisions := [] }
  if s.flag Reg.TRC_TRACE_CTRL Fld.TRC_TRACE_CTRL_DEC_EN then
    l.foldl (fun t d => t.trace 3 (leBytes 2 (t.dt % 65536) ++ wordBytes d.1 ++ leBytes 2 d.2)) s1
  else s1

/-- Whether the trace port sends STATE packets at all. -/
def State.tracing (s : State) : Bool :=
  s.flag Reg.TRC_TRACE_CTRL Fld.TRC_TRACE_CTRL_EN && s.flag Reg.TRC_TRACE_CTRL Fld.TRC_TRACE_CTRL_STATE_EN

/-! ### The vault (R449) -/

/-- Whether vault record `i` is older than record `j`: a record of an earlier reset first, then by SEQ. -/
def SilSt.older (x : SilSt) (i j : Nat) : Bool :=
  let pi := (x.prior[i]?).getD false
  let pj := (x.prior[j]?).getD false
  match x.vault[i]?, x.vault[j]? with
  | some a, some b => (pi && !pj) || (decide (pi = pj) && decide (a.seq < b.seq))
  | _, _ => false

/-- The oldest vault record of a note. -/
def SilSt.oldestOf (x : SilSt) (n : Note) : Option Nat :=
  (List.range x.vault.length).foldl (fun best i =>
    if (x.vault[i]?).map (fun r => r.note) = some n then
      match best with
      | none => some i
      | some b => if x.older i b then some i else some b
    else best) none

/-- The notes a new record of a note may displace, in order (R442). -/
def Note.victims : Note → List Note
  | .top => [.top]
  | .heart => [.top, .heart]
  | .base => [.top, .heart, .base]

/-- The first of several options that is there. -/
def firstSome {α β : Type} (f : α → Option β) : List α → Option β
  | [] => none
  | a :: t => match f a with
    | some b => some b
    | none => firstSome f t

/-- A dropped record counted by its note (R436, R442); `SIL_DROPPED` at most once per second (R455). -/
def State.silDrop (s : State) (n : Note) : State :=
  match n with
  | .base => s
  | .heart => (s.setSil { s.obs.sil with dropHeart := satAdd 65535 s.obs.sil.dropHeart 1 }).postSec 0xC006 0 .top 0
  | .top => (s.setSil { s.obs.sil with dropTop := satAdd 65535 s.obs.sil.dropTop 1 }).postSec 0xC006 0 .top 0

/-- A record placed in the vault under the rule of R442 with eight lines (R449). -/
def State.vaultPut (s : State) (r0 : Rec) : State :=
  let r := { r0 with vault := true }
  let x := s.obs.sil
  if x.vault.length < 8 then s.setSil { x with vault := x.vault ++ [r], prior := x.prior ++ [false] }
  else
    match firstSome x.oldestOf r.note.victims with
    | some i => s.setSil { x with vault := x.vault.set i r, prior := x.prior.set i false, overwrites := satAdd 65535 x.overwrites 1 }
    | none => (s.silDrop r.note).count 21

/-! ### Spill staging (R452, R453) -/

/-- A record that is not spilled (R435, R453). -/
def State.spillLose (s : State) : State :=
  (s.setSil { s.obs.sil with spillLost := satAdd 65535 s.obs.sil.spillLost 1 }).postSec 0xC005 0 .heart 0

/-- A record copied into staging, or counted as lost. -/
def State.stage (s : State) (r : Rec) : State :=
  let x := s.obs.sil
  match x.stages.reverse with
  | p :: rest =>
    if p.handed then
      if x.stages.length < 2 then s.setSil { x with stages := x.stages ++ [{ recs := [r], since := s.time, handed := false }] }
      else s.spillLose
    else
      let q := { p with recs := p.recs ++ [r], handed := decide (p.recs.length + 1 = 63) }
      s.setSil { x with stages := rest.reverse ++ [q] }
  | [] => s.setSil { x with stages := [{ recs := [r], since := s.time, handed := false }] }

/-! ### Acceptance (R433-R438) -/

/-- Whether trigger `t` matches a code (R433). -/
def State.trigMatches (s : State) (code t : Nat) : Bool :=
  s.flag (Reg.SIL_TRG_CTRL t) Fld.SIL_TRG_CTRL_EN &&
    (let m := s.fld (Reg.SIL_TRG_MATCH t) Fld.SIL_TRG_MATCH_MASK
     decide (code &&& m = s.fld (Reg.SIL_TRG_MATCH t) Fld.SIL_TRG_MATCH_CODE &&& m))

/-- The lowest-numbered enabled trigger that matches (R433). -/
def State.trigger (s : State) (code : Nat) : Option Nat := firstFrom (s.trigMatches code) 0 64

/-- The snapshot words a trigger supplies, at most `limit` of them (R438). -/
def State.snapWords (s : State) (t limit : Nat) : List Word :=
  (List.range (min limit (s.fld (Reg.SIL_TRG_CTRL t) Fld.SIL_TRG_CTRL_COUNT))).map fun k =>
    s.peek (s.fld (Reg.SIL_TRG_ADDR t k) Fld.SIL_TRG_ADDR_ADDR)

/-- What the recorder does with an offered event. -/
inductive Verdict where
  | discard | accept | spillOnly
  deriving DecidableEq, Repr

/-- R434 and R435: the verdict on an event, given its matching trigger. `SIL_DROPPED` is never recorded (R455). -/
def State.silVerdict (s : State) (e : Event) (t : Option Nat) : Verdict :=
  let mode := match t with
    | some k => s.fld (Reg.SIL_TRG_CTRL k) Fld.SIL_TRG_CTRL_RECORD
    | none => 0
  if e.code = 0xC006 then .discard
  else if e.code = 0xC002 ∨ e.code = 0xC003 then .accept
  else if mode = 1 then .accept
  else if mode = 2 then .discard
  else if mode = 3 then (if s.flag Reg.SIL_CTRL Fld.SIL_CTRL_SPILL_EN then .spillOnly else .discard)
  else if e.note.rank ≤ s.fld Reg.SIL_CTRL Fld.SIL_CTRL_MIN_NOTE then .accept
  else .discard

/-- The record of an accepted event (R437, R438, R439). -/
def State.makeRec (s : State) (e : Event) (t : Option Nat) : Rec :=
  let own := e.own
  let snap := match t with
    | some k => own ++ s.snapWords k (8 - own.length)
    | none => own
  { code := e.code, note := e.note, snaps := snap.length, vault := false, trigger := t.getD 0, isMatched := t.isSome,
    held := false, seq := s.obs.sil.seq, dt := s.dt, wt := s.wt, arg := e.arg, snap := snap }

/-- A SEQ taken (R437), and the record counted (R549). -/
def State.takeSeq (s : State) : State :=
  (s.setSil { s.obs.sil with seq := (s.obs.sil.seq + 1) % 2 ^ 32 }).count 107

/-- Whether ring writes wait in the holding queue: during a freeze, before READY, and during the clearing pass (R444, R447,
R454). -/
def State.silBlocked (s : State) : Bool :=
  s.flag Reg.SIL_FREEZE Fld.SIL_FREEZE_FREEZE || !s.obs.sil.ready || s.obs.sil.clearing

/-- An event offered to the recorder (R433-R438, R449, R452). -/
def State.silOffer (s : State) (e : Event) : State :=
  let t := s.trigger e.code
  let r := s.makeRec e t
  match s.silVerdict e t with
  | .discard => s
  | .spillOnly => if 32 ≤ s.obs.sil.intake.length then s.spillLose else (s.takeSeq).stage r
  | .accept =>
    let toVault := e.code = 0xC001 || s.obs.sil.stopped
    if !toVault && decide (32 ≤ s.obs.sil.intake.length) && e.note ≠ .base then s.silDrop e.note
    else
      let s1 := s.takeSeq
      let s2 := if s.flag Reg.SIL_CTRL Fld.SIL_CTRL_SPILL_EN
          && decide (e.note.rank ≤ s.fld Reg.SIL_CTRL Fld.SIL_CTRL_SPILL_MIN) then s1.stage r else s1
      if toVault || decide (32 ≤ s.obs.sil.intake.length) then s2.vaultPut r
      else s2.setSil { s2.obs.sil with intake := s2.obs.sil.intake ++ [r] }

/-! ### The ring (R441, R442, R450, R451) -/

/-- The host address of a ring line, of which there are 16,384 (R441). -/
def lineAddr (l : Nat) : Nat := 0x780000 + l % 16384 * 64

/-- Whether a line is free: it holds no record and is not retired (R441). -/
def SilSt.lineFree (x : SilSt) (l : Nat) : Bool :=
  !(x.lines.any fun y => y.line = l) && !(x.retired.any fun y => y = l)

/-- The oldest line of a note. -/
def oldestLine (l : List RingLine) (n : Note) : Option Nat := (l.find? fun y => y.note = n).map fun y => y.line

/-- The line a new record of a note goes to (R442). -/
def SilSt.chooseLine (x : SilSt) (n : Note) : Option Nat :=
  match firstFrom x.lineFree 0 (if x.lines.length + x.retired.length < 16384 then x.lines.length + x.retired.length + 1 else 0) with
  | some l => some l
  | none => firstSome (oldestLine x.lines) n.victims

/-- A record written to its ring line, or dropped and counted. -/
def State.ringPut (s : State) (r : Rec) : State :=
  match s.obs.sil.chooseLine r.note with
  | some l =>
    let x := s.obs.sil
    (s.setSil { x with lines := (x.lines.filter fun y => y.line ≠ l) ++ [{ line := l, note := r.note, seq := r.seq }],
                       lastLine := l }).sramWrite (lineAddr l) r.bytes
  | none => (s.silDrop r.note).count 21

/-- A retired line (R450, R451): never used again until reset; `LOG_MEM_FAIL` with its number for the first, which opens the window
of R622, then at most once per second with the count since the previous one; past 4,096 lines the ring stops. -/
def State.retireLine (s : State) (l : Nat) : State :=
  let x := s.obs.sil
  let x1 := { x with retired := x.retired ++ [l], lines := x.lines.filter fun y => y.line ≠ l }
  let s1 := s.setSil x1
  let s2 :=
    if x.retired = [] then
      (s1.setWins (s1.obs.windows ++ [{ code := 0xC001, scope := 0, note := .base, form := .count, arg := 0, ends := s.time + second,
                                        length := second, held := 0 }])).post 0xC001 .base l
    else s1.postSecCount 0xC001 0 .base
  if 4096 < x1.retired.length ∧ x1.stopped = false then
    (s2.setSil { s2.obs.sil with stopped := true }).post 0xC001 .base 0xFFFFFFFF
  else s2

/-- A record put into the holding queue, or counted or sent to the vault where the queue is full (R444). -/
def State.holdPut (s : State) (r : Rec) : State :=
  let x := s.obs.sil
  if x.hold.length < 64 then s.setSil { x with hold := x.hold ++ [{ r with held := true }] }
  else match r.note with
    | .base => s.vaultPut r
    | .heart => ((s.setSil { x with holdHeart := satAdd 65535 x.holdHeart 1 }).postSec 0xC006 0 .top 0).count 21
    | .top => ((s.setSil { x with holdTop := satAdd 65535 x.holdTop 1 }).postSec 0xC006 0 .top 0).count 21

/-- One record moved on: from the intake to the holding queue while ring writes wait, else the oldest held record, else the head
of the intake, to the ring; to the vault once the ring has stopped (R441, R444, R445, R451). -/
def State.ringMove (s : State) : State :=
  let x := s.obs.sil
  if s.silBlocked then
    match x.intake with
    | r :: t => (s.setSil { x with intake := t }).holdPut r
    | [] => s
  else
    match x.hold, x.intake with
    | r :: t, _ =>
      let s1 := s.setSil { x with hold := t }
      if x.stopped then s1.vaultPut r else s1.ringPut r
    | [], r :: t =>
      let s1 := s.setSil { x with intake := t }
      if x.stopped then s1.vaultPut r else s1.ringPut r
    | [], [] => s

/-! ### The event queue (R488-R490) -/

/-- The priority at which an event enters (R488). -/
def State.evqPrio (s : State) (e : Event) : Nat :=
  match e.note with
  | .base => 0
  | .heart => 1
  | .top => if s.fldBit Reg.QUE_EVQ_MAP Fld.QUE_EVQ_MAP_LOW_CLASS (e.code / 0x1000) then 3 else 2

/-- Whether an event is queued at all (R488). -/
def State.evqTakes (s : State) (e : Event) : Bool :=
  s.flag Reg.QUE_EVQ_CTRL Fld.QUE_EVQ_CTRL_EVQ_EN
    && s.fldBit Reg.QUE_EVQ_MAP Fld.QUE_EVQ_MAP_CLASS_EN (e.code / 0x1000)
    && decide (e.note.rank ≤ s.fld Reg.QUE_EVQ_CTRL Fld.QUE_EVQ_CTRL_MIN_NOTE)

/-- A loss counted by priority (R490): the first after the counts were zero sets OVF and posts `QUE_EVQ_LOST`. -/
def State.evqLose (s : State) (p : Nat) : State :=
  let x := s.obs.evq
  let first := x.lost.toList.all fun n => n = 0
  let x1 := { x with lost := x.lost.setIfInBounds p (satAdd 255 ((x.lost[p]?).getD 0) 1), ovf := x.ovf || first }
  let s1 := (s.setEvq x1).count 20
  if first then (s1.noteSet Reg.QUE_EVQ_STATUS Fld.QUE_EVQ_STATUS_OVF.mask).post 0xD402 .heart 0 else s1

/-- An event offered to EVQ: into the intake of 16 places, or lost (R490). -/
def State.evqOffer (s : State) (e : Event) : State :=
  if s.evqTakes e then
    let p := s.evqPrio e
    let x := s.obs.evq
    if x.intake.length < 16 then
      s.setEvq { x with intake := x.intake ++
        [{ code := e.code, note := e.note, prio := p, prioIn := p, ms := 0, arg := e.arg, since := 0 }] }
    else s.evqLose p
  else s

/-- The list without the newest entry at a priority. -/
def dropNewestAt (p : Nat) (l : List EvqEntry) : List EvqEntry := (dropFirstAt p l.reverse).reverse

/-- The priority whose newest entry makes room for a priority-0 event (R490). -/
def State.evqVictim (s : State) : Option Nat :=
  firstSome (fun p => if s.evqAt p = 0 then none else some p) [3, 2, 1]

/-- The event queue changed, a crossing of its watermark counted (R486, R487). -/
def State.setEvqX (s : State) (x : EvqSt) : State :=
  let s1 := s.setEvq x
  if crossing (s.fld Reg.QUE_EVQ_WM Fld.QUE_EVQ_WM_DIR) s.evqAbove s1.evqAbove then
    (s1.setEvq { x with wmHit := true, wmCount := satAdd 255 x.wmCount 1 }).noteSet Reg.QUE_EVQ_STATUS Fld.QUE_EVQ_STATUS_WM_HIT.mask
  else s1

/-- The head of the intake passed into EVQ (R490): where there is room, or by displacement for a head of priority 0. -/
def State.evqMove (s : State) : State :=
  let x := s.obs.evq
  match x.intake with
  | [] => s
  | h :: t =>
    let e := { h with ms := s.dt / 1000 % 1024, since := s.time }
    if x.entries.length < 1024 then s.setEvqX { x with intake := t, entries := x.entries ++ [e] }
    else if h.prio = 0 then
      match s.evqVictim with
      | some p => (s.setEvqX { x with intake := t, entries := dropNewestAt p x.entries ++ [e] }).evqLose p
      | none => s
    else s

/-- The pop of R491: the state after it and the entry. -/
def State.evqPop (s : State) : State × Option EvqEntry :=
  match s.evqHead with
  | some e =>
    (s.setEvqX { s.obs.evq with entries := dropFirstAt e.prio s.obs.evq.entries, pop1 := e.arg }, some e)
  | none => (s.setEvqX { s.obs.evq with pop1 := 0 }, none)

/-! ### Offering what was posted (R436, R490, R546) -/

/-- A list with an element inserted behind those whose key is not greater. -/
def insertBy {α : Type} (key : α → Nat) (a : α) : List α → List α
  | [] => [a]
  | b :: t => if key b ≤ key a then b :: insertBy key a t else a :: b :: t

/-- A list sorted by a key, elements of one key in their order. -/
def sortBy {α : Type} (key : α → Nat) (l : List α) : List α := l.foldl (fun acc a => insertBy key a acc) []

/-- The order of R436: `WALL_STEP` and `LOG_CLEARED` first (R447, R448), then by note, then by code. -/
def Event.recKey (e : Event) : Nat :=
  if e.code = 0xC002 ∨ e.code = 0xC003 then 0 else 0x10000 * (e.note.rank + 1) + e.code

/-- The order of R490: by priority, then by code. -/
def State.evqKey (s : State) (e : Event) : Nat := 0x10000 * s.evqPrio e + e.code

/-- Every posted event offered to the recorder, to EVQ and to the trace port, and counted (R549 counter 106). What the offering
itself posts is offered in the next cycle. -/
def State.flush (s : State) : State :=
  let l := s.obs.posted
  let s1 := { s with obs := { s.obs with posted := [] } }
  let s2 := (sortBy Event.recKey l).foldl (fun t e => t.silOffer e) s1
  let s3 := (sortBy s.evqKey l).foldl (fun t e => t.evqOffer e) s2
  let s4 := (sortBy (fun e => e.code) l).foldl (fun t e => t.traceEvent e) s3.traceDecisions
  s4.countBy 106 l.length

/-! ### Time (R458) -/

/-- `n` cycles of moving records and entries on. -/
def State.moves : Nat → State → State
  | 0, s => s
  | n + 1, s => State.moves n (s.ringMove.evqMove)

/-- How many moves the waiting records and entries need. -/
def State.waiting (s : State) : Nat :=
  s.obs.sil.intake.length + s.obs.sil.hold.length + s.obs.evq.intake.length

/-- What `k` bytes sent leave of packets of the given lengths. -/
def sentOff : Nat → List Nat → List Nat
  | _, [] => []
  | k, n :: t => if k < n then (n - k) :: t else sentOff (k - n) t

/-- The trace buffer drained at one byte per 10 ns up to now (R544). -/
def State.drainTrace (s : State) : State :=
  let x := s.obs.trc
  let k := (s.time - x.bufAt) / 128
  s.setTrc { x with buf := x.buf.drop k, sizes := sentOff k x.sizes, bufAt := x.bufAt + 128 * k }

/-- What an earlier cycle posted, offered one cycle on. -/
def State.settle (s : State) : State :=
  if s.obs.posted = [] then s else (State.moves 1 { s with time := s.time + cycle }).flush

/-- Device time moved on to `t`; the intakes pass one event per cycle meanwhile (R436, R490). Nothing where `t` is not later. -/
def State.advance (s : State) (t : Nat) : State :=
  if t ≤ s.time then s
  else
    let s1 := if s.time + cycle ≤ t then s.settle else s
    let k := min ((t - s1.time) / cycle) s1.waiting
    (State.moves k { s1 with time := t }).drainTrace

end Sys2Proof.Machine
end

