-- ==== Sys2Proof/Machine/Close.lean ====
section
/-! DEFINITION. What closes every command: the STATE packets of what it changed (R545), the offering of what it posted (R436, R490,
R546), `HIRQ_N` (R543) and the rise of `COEX_REQ` (R385). All of it lies in the part `obs` of the state. -/

namespace Sys2Proof.Machine

/-- Bit 0 GO and bit 1 ALERT of a lane as CORE sees them (R545 KIND 5). -/
def State.laneBits (s : State) (l : Nat) : Nat := bnat (s.coreSafe.goLevel l) + 2 * bnat (s.coreSafe.alertLevel l)

/-- The radio state of a port as CORE sees it (R545 KIND 1). -/
def State.radioNum (s : State) (n : Nat) : Nat := (s.pf n).radio.num

/-- The state of session `k` as R231 numbers it (R545 KIND 3). -/
def State.sessNum (s : State) (k : Nat) : Nat :=
  match s.session k with
  | some x => x.state.num
  | none => 0

/-- STATE packets for all that differs between two states (R545), by KIND and then INDEX (R547). -/
def State.traceChanges (s0 s : State) : State :=
  let a := s.traceState 0 0 s0.gen.phase.num s.gen.phase.num
  let b := (List.range 16).foldl (fun t n => t.traceState 1 n (s0.radioNum n) (s.radioNum n)) a
  let c := (List.range 16).foldl (fun t n => t.traceState 2 n (s0.pr n).state.num (s.pr n).state.num) b
  let d := (List.range 160).foldl (fun t k => t.traceState 3 k (s0.sessNum k) (s.sessNum k)) c
  let e := d.traceState 4 0 s0.emu.tag.num s.emu.tag.num
  (List.range 16).foldl (fun t l => t.traceState 5 l (s0.laneBits l) (s.laneBits l)) e

/-- The enabled bits of `GEN.IRQ_STATUS`. -/
def State.irqOn (s : State) : Word := s.irqStatus &&& s.reg Reg.GEN_IRQ_ENABLE

/-- `HIRQ_N` brought up to date (R543): asserted while an enabled bit is 1; with REEDGE, a bit that becomes 1 while the pin is already
asserted starts the pulse of 200 ns. -/
def State.setIrq (s0 s : State) : State :=
  let on := s.irqOn ≠ 0
  let fresh := (s.irqStatus &&& ~~~s0.irqStatus &&& s.reg Reg.GEN_IRQ_ENABLE) ≠ 0
  let pulse := s.flag Reg.HIF_CFG Fld.HIF_CFG_REEDGE && s0.obs.irq.asserted && decide on && decide fresh
  { s with obs := { s.obs with irq :=
      { asserted := decide on, pulseEnd := if pulse then some (s.time + 2560) else if on then s.obs.irq.pulseEnd else none } } }

/-- The earliest start of a burst brought up to date as `COEX_REQ` rises and falls (R385). -/
def State.setLead (s : State) : State :=
  { s with obs := { s.obs with leadAt := if s.coexReq then some (s.obs.leadAt.getD s.leadFrom) else none } }

/-- Since when a condition has held. -/
def since (prev : Option Nat) (now : Nat) (holds : Bool) : Option Nat := if holds then some (prev.getD now) else none

/-- The idle times of R565 and R569 brought up to date. -/
def State.setIdle (s : State) : State :=
  let o := s.obs
  { s with obs := { o with
      offSince := since o.offSince s.time (s.rolesIdle false)
      idleSince := since o.idleSince s.time (s.rolesIdle true && anyBelow (fun n => decide (s.role n = 1)) 16)
      synIdleSince := since o.synIdleSince s.time s.allQuiet } }

/-- What a command has posted, offered. What the offering in the same cycle before it posted waits for the next cycle. -/
def State.offer (s0 s : State) : State :=
  let old := if s.time = s0.time ∧ s0.obs.posted.isPrefixOf s.obs.posted then s0.obs.posted else []
  let t := { s with obs := { s.obs with posted := s.obs.posted.drop old.length } }.flush
  { t with obs := { t.obs with posted := old ++ t.obs.posted } }

/-- What closes every command. -/
def finish (s0 s : State) : State :=
  let s1 := if s.tracing then State.traceChanges s0 s else s
  (State.setIrq s0 (State.offer s0 s1)).setLead.setIdle

/-- The outcome of a command whose effect leaves `s`. -/
def done (s0 s : State) : Out := .next (finish s0 s)

/-- Whether CORE is clocked (R503, R571, R411): commands that need it have no effect while it is not. -/
def State.live (s : State) : Bool := decide (s.pwr.awake = .running) && !s.saf.clkLost

/-- A command of a block that runs in SAFE BOOT too (R517: GEN, HIF, CFG, SIL, QUE, TRC): `f` while CLK_CORE runs, nothing otherwise. -/
def State.coreAll (s : State) (f : State → State) : Out := done s (if s.live then f s else s)

/-- A command of CORE: `f` while CLK_CORE runs outside SAFE BOOT (R517), nothing otherwise. -/
def State.core (s : State) (f : State → State) : Out := done s (if s.live && !s.gen.safeBoot then f s else s)

end Sys2Proof.Machine
end

