-- ==== Sys2Proof/Machine/Queue.lean ====
section
/-! DEFINITION. Frame queues and the event queue (R480-R492): pushes and pops with their watermarks, parity tags and back-pressure, and
the commands on them. -/

namespace Sys2Proof.Machine

/-- The words a frame queue holds (R480). -/
abbrev queueDepth : Nat := 2048

/-- The crossing flags of port `n` changed. -/
def State.modWm (s : State) (n : Nat) (f : PortWm → PortWm) : State :=
  { s with obs := { s.obs with wm := vmod s.obs.wm { txHit := false, txCount := 0, rxHit := false, rxCount := 0 } n f } }

/-- Crossings of the watermarks of port `n` between two states counted (R486, R487). -/
def State.crossWm (s0 s : State) (n : Nat) : State :=
  let s1 := if crossing (s.fld (Reg.QUE_P_TX_WM n) Fld.QUE_P_TX_WM_DIR) (s0.txAbove n) (s.txAbove n) then
      (s.modWm n fun x => { x with txHit := true, txCount := satAdd 255 x.txCount 1 }).noteSet (Reg.QUE_P_WM_STATUS n)
        Fld.QUE_P_WM_STATUS_TX_WM_HIT.mask
    else s
  if crossing (s.fld (Reg.QUE_P_RX_WM n) Fld.QUE_P_RX_WM_DIR) (s0.rxAbove n) (s.rxAbove n) then
    (s1.modWm n fun x => { x with rxHit := true, rxCount := satAdd 255 x.rxCount 1 }).noteSet (Reg.QUE_P_WM_STATUS n)
      Fld.QUE_P_WM_STATUS_RX_WM_HIT.mask
  else s1

/-- The frame queues of port `n` changed, crossings counted. -/
def State.setPqX (s : State) (n : Nat) (q : PortQ) : State := State.crossWm s (s.setPq n q) n

/-- Whether TXQn has room. -/
def State.txRoom (s : State) (n : Nat) : Bool := decide ((s.pq n).tx.length < queueDepth)

/-- Whether RXQn has room. -/
def State.rxRoom (s : State) (n : Nat) : Bool := decide ((s.pq n).rx.length < queueDepth)

/-- A word pushed to TXQn, which has room (R481). -/
def State.pushTx (s : State) (n : Nat) (w : Word) : State :=
  let q := s.pq n
  s.setPqX n { q with tx := q.tx ++ [{ w := w, poison := false }], pushedAt := s.time,
                      newWords := if q.pushedAt / cycle = s.time / cycle then q.newWords + 1 else 1 }

/-- Words pushed to TXQn in order while room lasts; the rest waits with `HRDY` low (R483). -/
def State.pushTxs (s : State) (n : Nat) : List Word → State
  | [] => s
  | w :: t =>
    if s.txRoom n then State.pushTxs (s.pushTx n w) n t
    else { s with hif := { s.hif with waiting := some (n, w :: t, s.time) } }

/-- Words that waited for room pushed now that TXQn has some (R483). -/
def State.resumePush (s : State) (n : Nat) : State :=
  match s.hif.waiting with
  | some (m, l, _) => if m = n then State.pushTxs { s with hif := { s.hif with waiting := none } } n l else s
  | none => s

/-- Words pushed to RXQn in order while room lasts (R195): the state and the words left over. -/
def State.pushRxs (s : State) (n : Nat) : List Word → State × List Word
  | [] => (s, [])
  | w :: t =>
    if s.rxRoom n then State.pushRxs (s.setPqX n { s.pq n with rx := (s.pq n).rx ++ [{ w := w, poison := false }] }) n t
    else (s, w :: t)

/-- A poisoned word delivered from a queue of port `n` (R484); `scope` names the queue for the rate limit. -/
def State.poisoned (s : State) (n scope : Nat) : State :=
  ((s.bump Reg.QUE_POISONS Fld.QUE_POISONS_COUNT).bump (Reg.QUE_P_COUNTS n) Fld.QUE_P_COUNTS_POISONS).postSecCount 0xD401 scope .heart

/-- A pop of RXQn by the host (R481): the state and the word returned; `bad` says that a byte of the word fails its parity (R484). -/
def State.popRx (s : State) (n : Nat) (bad : Bool) : State × Word :=
  match (s.pq n).rx with
  | x :: t =>
    let s1 := s.setPqX n { s.pq n with rx := t }
    let p := x.poison || bad
    let s2 := s1.setFld (Reg.QUE_P_RX_TAG n) Fld.QUE_P_RX_TAG_POISON (bnat p)
    (if p then s2.poisoned n (16 + n) else s2, x.w)
  | [] =>
    ((s.stick (Reg.QUE_P_WM_STATUS n) Fld.QUE_P_WM_STATUS_UNDERRUN).bump (Reg.QUE_P_COUNTS n) Fld.QUE_P_COUNTS_UNDERRUNS, 0)

/-- RXQn emptied (R482): the rest of a completion that PRO has pushed in part goes with it. -/
def State.flushRx (s : State) (n : Nat) : State :=
  (s.setPqX n { s.pq n with rx := [] }).modP n fun x =>
    if x.pushing then { x with staged := x.staged.tail, pushing := false } else x

/-- The pop of EVQ by the host (R491) with the tags of both words (R484): the state and word 0. -/
def State.popEvq (s : State) (bad0 bad1 : Bool) : State × Word :=
  match s.evqHead with
  | some e =>
    let s1 := s.evqPop.1
    let s2 := (s1.setFld Reg.QUE_EVQ_TAG Fld.QUE_EVQ_TAG_POISON0 (bnat bad0)).setFld Reg.QUE_EVQ_TAG Fld.QUE_EVQ_TAG_POISON1 (bnat bad1)
    let k := bnat bad0 + bnat bad1
    let s3 := if k = 0 then s2 else
      let s4 := s2.bumpBy Reg.QUE_POISONS Fld.QUE_POISONS_COUNT k
      if k = 1 then s4.postSecCount 0xD401 32 .heart else (s4.postSecCount 0xD401 32 .heart).postSecCount 0xD401 32 .heart
    (s3, e.word0)
  | none => (s.evqPop.1.setReg Reg.QUE_EVQ_TAG 0, 0)

/-- The host's read data of a command of one word. -/
def State.setOut (s : State) (l : List Word) : State := { s with hif := { s.hif with out := l } }

/-! ### Commands -/

/-- `RX_POP` (R481). -/
def execRxPop (port : Port) (bad : Bool) (s : State) : Out :=
  s.coreAll fun s => (s.popRx port bad).1.setOut [(s.popRx port bad).2]

/-- `FLUSH_RX` (R482). -/
def execFlushRx (port : Port) (s : State) : Out := s.coreAll fun s => s.flushRx port

/-- `EVQ_INTAKE_MOVE` (R490). -/
def execEvqIntakeMove (s : State) : Out := s.coreAll fun s => s.evqMove

/-- `EVQ_POP0` (R491). -/
def execEvqPop0 (bad0 bad1 : Bool) (s : State) : Out :=
  s.coreAll fun s => (s.popEvq bad0 bad1).1.setOut [(s.popEvq bad0 bad1).2]

/-- An entry promoted where its time at its priority has reached AGE_LIMIT (R492). -/
def EvqEntry.age (limit now : Nat) (e : EvqEntry) : EvqEntry :=
  if 0 < e.prio ∧ limit * msec ≤ now - e.since then { e with prio := e.prio - 1, since := now } else e

/-- `EVQ_AGE_TICK` (R492): at the next multiple of 100 µs, aged entries are promoted one priority and counted. -/
def execEvqAgeTick (s : State) : Out := s.coreAll fun s =>
  let t := s.advance ((s.time / (100 * usec) + 1) * (100 * usec))
  let lim := t.fld Reg.QUE_EVQ_CTRL Fld.QUE_EVQ_CTRL_AGE_LIMIT
  let x := t.obs.evq
  let n := (x.entries.filter fun e => 0 < e.prio ∧ lim * msec ≤ t.time - e.since).length
  t.setEvq { x with entries := x.entries.map (EvqEntry.age lim t.time), promoted := satAdd 65535 x.promoted n }

end Sys2Proof.Machine
end

