-- ==== Sys2Proof/Machine/Monitor.lean ====
section
/-! DEFINITION. Operations that many blocks share: the safety monitor's latch (R414-R417), the outcome of authenticated commands (R523),
free values. -/

namespace Sys2Proof.Machine

/-! ### Free values -/

/-- The next free word, and the state that has taken it. -/
def State.takeFreeWord (s : State) : State × Word := ({ s with free := s.free + 1 }, Config.freeWord s.free)

/-- The next free choice, and the state that has taken it. -/
def State.takeFreeBit (s : State) : State × Bool := ({ s with free := s.free + 1 }, Config.freeBit s.free)

/-! ### The safe state (R414-R418, R430) -/

/-- Whether a new cause replaces `SAF.FIRST` (R416, R430): nothing recorded yet, or both seen in one MON cycle and the new one is a fault
beside `STOP_N`, a lower code, or an equal code on a lower port or lane. -/
def State.firstReplaced (s : State) (code wher : Nat) : Bool :=
  let c := s.fld Reg.SAF_FIRST Fld.SAF_FIRST_CODE
  decide (c = 0) || (s.saf.unseen.isSome && decide (s.time < s.saf.tripAt + 1600)
    && (decide (code < c) || (decide (code = c) && decide (wher < s.fld Reg.SAF_FIRST Fld.SAF_FIRST_WHERE))))

/-- MON declares a dangerous failure (codes 1-9) or sees `STOP_N` (10): the safe state is in force on the pins and latched
(R414, R416); `FAULT_N` is low (R418). CORE sees it later (R415). -/
def State.trip (s : State) (code wher : Nat) : State :=
  let w := if code ≤ 3 then wher else 0
  let s1 := if code = 10 then s.setFld Reg.SAF_FAULT Fld.SAF_FAULT_STOP 1 else s.setFldBit Reg.SAF_FAULT Fld.SAF_FAULT_CODES (code - 1) true
  let s2 :=
    if code = 1 ∨ code = 2 then s1.setFldBit Reg.SAF_FAULT_WHERE Fld.SAF_FAULT_WHERE_PORTS w true
    else if code = 3 then s1.setFldBit Reg.SAF_FAULT_WHERE Fld.SAF_FAULT_WHERE_LANES w true
    else s1
  let rep := s.firstReplaced code w
  let s3 := if rep then s2.setReg Reg.SAF_FIRST (packF [(Fld.SAF_FIRST_CODE, code), (Fld.SAF_FIRST_WHERE, w)]) else s2
  let s4 := s3.setFld Reg.SAF_STATUS Fld.SAF_STATUS_FAULT_OUT 1
  { s4 with saf := { s4.saf with
      safe := true
      unseen := if rep then some (code, w) else s.saf.unseen
      tripAt := if s.saf.safe then s.saf.tripAt else s.time } }

/-! ### Authenticated commands (R523) -/

/-- RESULT of `CFG.AUTH_STATUS` written, which sets AUTH in `GEN.IRQ_STATUS` (R523, R553). -/
def State.authResult (s : State) (r : Nat) : State :=
  (s.setFld Reg.CFG_AUTH_STATUS Fld.CFG_AUTH_STATUS_RESULT r).stick Reg.GEN_IRQ_STATUS Fld.GEN_IRQ_STATUS_AUTH

/-- No authenticated command in progress any more. -/
def State.authEnd (s : State) : State := { s with cfg := { s.cfg with auth := none } }

/-- The command in progress refused by its own checks (R523 check 7): its counter is used up. -/
def State.authRefused (s : State) : State := s.authEnd.authResult 6

/-- The command in progress accepted (R523): `CFG_AUTH_OK` with its COUNTER. -/
def State.authAccepted (s : State) : State :=
  let c := match s.cfg.auth with
    | some a => a.counter
    | none => 0
  ((s.authResult 1).bump Reg.CFG_AUTH_STATUS Fld.CFG_AUTH_STATUS_ACCEPTED).post 0xE005 .top c

/-- The payload of the command in progress, where it has this opcode and its counter is stored (R524): it acts now. -/
def State.authActs (s : State) (opcode : Nat) : Option (List Byte) :=
  match s.cfg.auth with
  | some a => if a.opcode = opcode ∧ a.stored then some a.payload else none
  | none => none

/-- The little-endian number in `n` bytes of a list from byte `i`. -/
def leAt (l : List Byte) (i n : Nat) : Nat := leNat ((l.drop i).take n)

end Sys2Proof.Machine
end

