-- ==== Sys2Proof/Machine/Geometry.lean ====
section
/-! DEFINITION. The store's geometry (R338, R341-R345): dies, regions, bad blocks, the logical block list, the logical page counts and
the map signature. -/

namespace Sys2Proof.Machine

/-- How a store is laid out: chip selects, dies of each, blocks in all, pages per block, and its bad blocks in ascending order. -/
structure Geom where
  cs : Nat
  dies : Nat
  blocks : Nat
  ppb : Nat
  bad : List Nat
  deriving DecidableEq, Repr

/-- Bytes of one chip select at a value of CAP (R361). -/
def capBytes (cap : Nat) : Nat := if cap = 0 then 0 else 2 ^ (28 + cap)

/-- A number put into an ascending list, once. -/
def insertAsc (a : Nat) : List Nat → List Nat
  | [] => [a]
  | b :: t => if a = b then b :: t else if a < b then a :: b :: t else b :: insertAsc a t

/-- An ascending list of the numbers of two lists. -/
def unionAsc (l m : List Nat) : List Nat := (l ++ m).foldl (fun acc a => insertAsc a acc) []

/-- The geometry that `STO.GEOM`, the image's bad-block table and the grown list give (R338, R342). -/
def State.geom (s : State) : Geom :=
  let cs := s.fld Reg.STO_GEOM Fld.STO_GEOM_CS_COUNT
  let ppb := if s.flag Reg.STO_GEOM Fld.STO_GEOM_PPB then 128 else 64
  { cs := cs, dies := 2 ^ s.fld Reg.STO_GEOM Fld.STO_GEOM_DIES
    blocks := cs * capBytes (s.fld Reg.STO_GEOM Fld.STO_GEOM_CAP) / (4096 * ppb), ppb := ppb
    bad := unionAsc s.sto.badTable s.sto.grown }

/-- The block ranges of a region, in address order (R341). -/
def Geom.parts (g : Geom) (region : Nat) : List (Nat × Nat) :=
  let n := g.blocks
  match region with
  | 0 => [(0, 3 * n / 8)]
  | 1 => [(n / 2, 7 * n / 8)]
  | 2 => [(3 * n / 8, 15 * n / 32), (7 * n / 8, 31 * n / 32)]
  | _ => [(15 * n / 32, n / 2), (31 * n / 32, n)]

/-- Bad blocks within a range. -/
def Geom.badIn (g : Geom) (r : Nat × Nat) : List Nat := g.bad.filter fun b => decide (r.1 ≤ b) && decide (b < r.2)

/-- How many good blocks ranges hold. -/
def Geom.goodIn (g : Geom) (l : List (Nat × Nat)) : Nat := (l.map fun r => (r.2 - r.1) - (g.badIn r).length).sum

/-- The `k`-th good block from `c` on, past bad blocks in ascending order. -/
def skipBad (c : Nat) : List Nat → Nat
  | [] => c
  | b :: t => if b ≤ c then skipBad (c + 1) t else c

/-- The `k`-th good block of ranges in address order. -/
def Geom.kthGood (g : Geom) (k : Nat) : List (Nat × Nat) → Option Nat
  | [] => none
  | r :: t =>
    let n := g.goodIn [r]
    if k < n then some (skipBad (r.1 + k) (g.badIn r)) else g.kthGood (k - n) t

/-- The blocks of each die. -/
def Geom.dieSize (g : Geom) : Nat := g.blocks / (g.cs * g.dies)

/-- The ranges of a region that lie on die `i`, dies counted in address order. -/
def Geom.onDie (g : Geom) (region i : Nat) : List (Nat × Nat) :=
  ((g.parts region).map fun r => (max r.1 (i * g.dieSize), min r.2 ((i + 1) * g.dieSize))).filter fun r => decide (r.1 < r.2)

/-- The dies with good blocks of a region, each with how many. -/
def Geom.stock (g : Geom) (region : Nat) : List (Nat × Nat) :=
  ((List.range (g.cs * g.dies)).map fun i => (i, g.goodIn (g.onDie region i))).filter fun x => decide (0 < x.2)

/-- The least second component. -/
def leastOf : List (Nat × Nat) → Nat
  | [] => 0
  | [x] => x.2
  | x :: t => min x.2 (leastOf t)

/-- Entry `q` of the list taken die by die in turn (R343): the die and which of its good blocks; `base` rounds have passed. Every
call uses up a die, so `fuel` is the number of dies. -/
def turnOf (fuel base q : Nat) (l : List (Nat × Nat)) : Option (Nat × Nat) :=
  match fuel with
  | 0 => none
  | f + 1 =>
    let m := leastOf l
    if q < m * l.length then (l[q % l.length]?).map fun x => (x.1, base + q / l.length)
    else turnOf f (base + m) (q - m * l.length) ((l.map fun x => (x.1, x.2 - m)).filter fun x => decide (0 < x.2))

/-- The physical block of logical block `q` of a region (R343). -/
def Geom.blockAt (g : Geom) (region q : Nat) : Option Nat :=
  (turnOf 17 0 q (g.stock region)).bind fun x => g.kthGood x.2 (g.onDie region x.1)

/-- The die of a physical block as `STO.STATUS` numbers it: 8 for each chip select (R341, R361). -/
def Geom.dieOf (g : Geom) (block : Nat) : Nat :=
  let i := block / g.dieSize
  8 * (i / g.dies) + i % g.dies

/-- The logical pages of a region (R344). -/
def Geom.pages (g : Geom) (region : Nat) : Nat := g.goodIn (g.parts region) * g.ppb

/-- The bad blocks of a bank, as the map signature covers them (R345). -/
def Geom.signature (g : Geom) (bank : Nat) : Nat :=
  crc32c (((g.parts bank).map fun r => g.badIn r).flatten.flatMap fun b => leBytes 4 b)

/-- The first good block of a part of the reserve (R341). -/
def Geom.reserveBlock (g : Geom) (part : Nat) : Option Nat := ((g.parts 3)[part]?).bind fun r => g.kthGood 0 [r]

/-- `STO.PAGESr` recomputed for the three regions (R344). -/
def State.setPages (s : State) : State :=
  let g := s.geom
  State.each (fun r t => t.setFld (Reg.STO_PAGES r) Fld.STO_PAGES_PAGES (g.pages r)) 3 s

/-- Logical pages of a region as reported (R344). -/
def State.pagesOf (s : State) (region : Nat) : Nat := s.fld (Reg.STO_PAGES region) Fld.STO_PAGES_PAGES

end Sys2Proof.Machine
end

