-- ==== Sys2Proof/Machine/Keeper.lean ====
section
/-! DEFINITION. The Keeper (R295-R336): the recent table, probes, decisions, lanes, lookups in flight, shelves, commit and the
invalidation pass, and the commands on them. -/

namespace Sys2Proof.Machine

/-! ### Identifiers (R300, R309) -/

/-- h (R300). -/
def keyH (ident : List Byte) : Nat := crc32c ident

/-- H2 (R309): CRC-32 over the TECH byte, the IDLEN byte and the ID bytes. -/
def keyH2 (tech : Nat) (ident : List Byte) : Nat :=
  crcReflected 32 0x04C11DB7 0xFFFFFFFF 0xFFFFFFFF (byte tech :: byte ident.length :: ident)

/-! ### The recent table (R309-R314) -/

/-- A way of the recent table (R309). -/
structure Way where
  h : Nat
  h2 : Nat
  last : Nat
  count : Nat
  limit : Nat
  verdict : Nat
  lastAdmit : Bool
  zone : Nat
  lane : Nat
  valid : Bool
  deriving DecidableEq, Repr

/-- The host address of way `w` of set `set` (R309). -/
def wayAddr (set w : Nat) : Nat := 0x200000 + set % 65536 * 64 + w % 4 * 16

/-- The way held in 16 bytes. -/
def Way.ofBytes (b : List Byte) : Way :=
  let d := leAt b 13 1
  let e := leAt b 14 1
  { h := leAt b 0 4, h2 := leAt b 4 4, last := leAt b 8 3, count := leAt b 11 1, limit := leAt b 12 1,
    verdict := d % 8, lastAdmit := d.testBit 3, zone := d / 16 % 16, lane := e % 16, valid := e.testBit 4 }

/-- The 16 bytes of a way. -/
def Way.toBytes (w : Way) : List Byte :=
  leBytes 4 w.h ++ leBytes 4 w.h2 ++ leBytes 3 w.last
    ++ [byte w.count, byte w.limit, byte (w.verdict % 8 + 8 * bnat w.lastAdmit + 16 * (w.zone % 16)),
        byte (w.lane % 16 + 16 * bnat w.valid), 0]

/-- Way `w` of a set. -/
def State.way (s : State) (set w : Nat) : Way := Way.ofBytes (s.sramRead (wayAddr set w) 16)

/-- The state with a way written. -/
def State.putWay (s : State) (set w : Nat) (x : Way) : State := s.sramWrite (wayAddr set w) x.toBytes

/-- Device time in whole seconds, modulo 2^24 (R310). -/
def State.secs (s : State) : Nat := s.devTime / second % 2 ^ 24

/-- The age of a way in seconds (R310). -/
def State.age (s : State) (x : Way) : Nat := (s.secs + 2 ^ 24 - x.last) % 2 ^ 24

/-- COUNT_TTL in seconds. -/
def State.countTtl (s : State) : Nat := s.fld Reg.KPR_TIMES Fld.KPR_TIMES_COUNT_TTL * 60

/-- The way of a set that an identifier matches (R309). -/
def State.matchWay (s : State) (h h2 : Nat) : Option Nat :=
  firstFrom (fun w => let x := s.way (h % 65536) w; x.valid && decide (x.h = h) && decide (x.h2 = h2)) 0 4

/-- The oldest of the ways of a set that meet a condition; equal ages go to the lower number (R311). -/
def State.oldestWay (s : State) (set : Nat) (p : Way → Bool) : Option Nat :=
  (List.range 4).foldl (fun best w =>
    if p (s.way set w) then
      match best with
      | none => some w
      | some b => if s.age (s.way set b) < s.age (s.way set w) then some w else some b
    else best) none

/-- The way allocated to an identifier without one (R311). -/
def State.allocWay (s : State) (set : Nat) : Nat :=
  match firstFrom (fun w => !(s.way set w).valid) 0 4 with
  | some w => w
  | none =>
    match s.oldestWay set (fun x => decide (s.countTtl < s.age x)) with
    | some w => w
    | none =>
      match s.oldestWay set (fun x => x.count = 0) with
      | some w => w
      | none => (s.oldestWay set (fun _ => true)).getD 0

/-! ### Lanes (R328-R332) -/

/-- The lane that port `p` drives (R328). -/
def State.laneOf (s : State) (p : Nat) : Nat := (s.reg (Reg.KPR_PORT_MAP (p / 8))).toNat / 16 ^ (p % 8) % 16

/-- The zone of a lane. -/
def State.zoneOf (s : State) (l : Nat) : Nat := s.fld (Reg.KPR_L_CFG l) Fld.KPR_L_CFG_ZONE

/-- How a decision acts on a lane: ADMIT, REFUSE or REFER, UNKNOWN as UNKNOWN_ACT says (R316). -/
def State.actsAs (s : State) (decision : Nat) : Nat :=
  if decision = 5 then (if s.flag Reg.KPR_CTRL Fld.KPR_CTRL_UNKNOWN_ACT then 4 else 3) else decision

/-- A driven decision at its lane controller (R329, R330). -/
def State.driveLane (s : State) (l decision : Nat) : State :=
  let a := s.actsAs decision
  if a = 2 then
    (s.modL l fun x => { x with goEnd := some (s.time + s.fld (Reg.KPR_L_WIDTH l) Fld.KPR_L_WIDTH_GO_MS * msec) }).bump
      (Reg.KPR_L_STATUS l) Fld.KPR_L_STATUS_ADMITS
  else if (a = 3 ∧ s.flag (Reg.KPR_L_CFG l) Fld.KPR_L_CFG_ALERT_REFUSE) ∨ (a = 4 ∧ s.flag (Reg.KPR_L_CFG l) Fld.KPR_L_CFG_ALERT_REFER) then
    s.modL l fun x => { x with alertEnd := some (s.time + s.fld (Reg.KPR_L_WIDTH l) Fld.KPR_L_WIDTH_ALERT_MS * msec) }
  else s

/-! ### Decisions (R315-R320) -/

/-- A roster entry as far as a decision uses it (R296). -/
structure RosterEntry where
  zones : Nat
  validFrom : Nat
  validUntil : Nat
  cls : Nat
  limit : Nat
  flags : Nat
  deriving DecidableEq, Repr

/-- What a decision is made from: a hit's verdict, a lookup's failure, an identifier that is not in the roster, or its entry. -/
inductive Source where
  | hit (verdict : Nat)
  | check | chain | storeErr | notFound
  | entry (e : RosterEntry)
  deriving DecidableEq, Repr

/-- A decision: DECISION, REASON, whether it is a repeat (R317), the verdict that its row writes where R314 lets it, and whether that
needs the entry's window. -/
structure Verdict4 where
  decision : Nat
  reason : Nat
  repeated : Bool
  verdict : Nat
  deriving DecidableEq, Repr

/-- Rows 10-12 of R315 for a way (none: no matching way). -/
def State.rows10 (s : State) (w : Option Way) (limit : Nat) : Verdict4 :=
  match w with
  | some x =>
    if x.lastAdmit ∧ s.age x < s.fld Reg.KPR_TIMES Fld.KPR_TIMES_REPEAT_S then ⟨2, 12, true, 1⟩
    else if limit ≠ 0 ∧ limit ≤ x.count then ⟨3, 13, false, 1⟩
    else ⟨2, 0, false, 1⟩
  | none => ⟨2, 0, false, 1⟩

/-- Whether wall time is known (R32). -/
def State.wallKnown (s : State) : Bool := s.flag Reg.TMR_WALL_STATUS Fld.TMR_WALL_STATUS_KNOWN

/-- The wall minute (R299). -/
def State.wallMinute (s : State) : Nat := s.wt / 60000000

/-- The decision of R315 (and R312 for a hit) for a port's lane. -/
def State.judge (s : State) (lane : Nat) (w : Option Way) (src : Source) : Verdict4 :=
  match src with
  | .check => ⟨3, 2, false, 0⟩
  | .chain => ⟨3, 3, false, 0⟩
  | .storeErr => ⟨3, 4, false, 0⟩
  | .notFound => ⟨5, 1, false, 4⟩
  | .hit v =>
    if v = 1 then s.rows10 w ((w.map fun x => x.limit).getD 0)
    else if v = 2 then ⟨4, 10, false, 2⟩
    else if v = 3 then ⟨4, 11, false, 3⟩
    else if v = 4 then ⟨5, 1, false, 4⟩
    else if v = 5 then ⟨3, 6, false, 5⟩
    else ⟨3, 9, false, 6⟩
  | .entry e =>
    if ¬ s.wallKnown ∧ ¬ (e.validFrom = 0 ∧ e.validUntil = 0xFFFFFFFF) then ⟨4, 5, false, 0⟩
    else if e.flags.testBit 1 then ⟨3, 6, false, 5⟩
    else if s.wallKnown ∧ s.wallMinute < e.validFrom then ⟨3, 7, false, 0⟩
    else if s.wallKnown ∧ e.validUntil < s.wallMinute then ⟨3, 8, false, 0⟩
    else if ¬ e.zones.testBit (s.zoneOf lane) then ⟨3, 9, false, 6⟩
    else if e.flags.testBit 0 then ⟨4, 10, false, 2⟩
    else if (s.reg (Reg.KPR_CLASS_REFER (e.cls / 32))).toNat.testBit (e.cls % 32) then ⟨4, 11, false, 3⟩
    else s.rows10 w e.limit

/-- The verdict that a store decision writes (R314). -/
def State.verdictFor (s : State) (stale : Bool) (src : Source) (v : Verdict4) : Nat :=
  if stale ∨ ¬ s.wallKnown then 0
  else if v.verdict = 4 ∨ v.verdict = 5 then v.verdict
  else match src with
    | .entry e =>
      if e.validFrom ≤ s.wallMinute ∧ s.wallMinute + s.fld Reg.KPR_TIMES Fld.KPR_TIMES_HIT_TTL + 1 ≤ e.validUntil then v.verdict else 0
    | _ => 0

/-- The argument of `KPR_DECISION` (R334). -/
def decisionArg (k port lane : Nat) (v : Verdict4) (driven hit : Bool) (bank : Nat) (dup orphan : Bool) : Word :=
  packF [(⟨0, 8⟩, k), (⟨8, 4⟩, port), (⟨12, 4⟩, lane), (⟨16, 3⟩, v.decision), (⟨19, 1⟩, bnat driven), (⟨20, 4⟩, v.reason),
    (⟨24, 1⟩, bnat hit), (⟨25, 1⟩, bank), (⟨26, 1⟩, bnat dup), (⟨27, 1⟩, bnat orphan)]

/-- LAT of a DECISION packet (R545). -/
def latency (driven hit : Bool) (dt : Nat) : Nat :=
  if !driven then 0
  else if hit then 0x17
  else if dt / cycle < 0x8000 then dt / cycle
  else 0x8000 + min 32767 (dt / usec)

/-- The way written by a decision (R311, R318): the matching way or one allocated. -/
def State.writeRecent (s : State) (h h2 lane : Nat) (v : Verdict4) (driven : Bool) (store : Option (Nat × Nat)) : State :=
  let set := h % 65536
  let found := s.matchWay h h2
  let w := found.getD (s.allocWay set)
  let old := s.way set w
  let base : Way := match found with
    | some _ => old
    | none => { h := h, h2 := h2, last := 0, count := 0, limit := 0, verdict := 0, lastAdmit := false, zone := 0, lane := 0, valid := true }
  let s1 := if found.isNone && old.valid then
      let s2 := s.count 111
      if 0 < old.count then (s2.bump Reg.KPR_COUNTS Fld.KPR_COUNTS_COUNT_EVICTS).postSec 0x7007 0 .top 0 else s2
    else s
  let upd : Way := { base with
    last := s.secs, lane := lane
    lastAdmit := if driven then decide (v.decision = 2) else base.lastAdmit
    count := if driven && decide (v.decision = 2) && decide (v.reason = 0) then satAdd 255 base.count 1 else base.count }
  let upd2 : Way := match store with
    | some (verdict, limit) => { upd with verdict := verdict, limit := limit, zone := s.zoneOf lane }
    | none => upd
  s1.putWay set w upd2

/-- Whether a Keeper lookup is in flight or waiting for session `k` (R238). -/
def State.inFlight (s : State) (k : Nat) : Bool :=
  (s.kpr.slots.any fun x => x.sess.any fun j => j = k) || s.kpr.waiting.any fun x => x.1 = k

/-- The code of a session withdrawn into quarantine (R272). -/
def State.quarantine (s : State) (port group code : Nat) (benchEnd : Option Nat) : State :=
  let ends := max s.time (benchEnd.getD 0) + s.fld Reg.ACD_CTRL Fld.ACD_CTRL_CODE_HOLD * second
  { s with quar := (s.quar.filter fun q => !(q.port = port && q.group = group && q.code = code))
                    ++ [{ port := port, group := group, code := code, ends := ends }] }

/-- A session that becomes FREE (R238): ACD takes its code into quarantine (R272). -/
def State.dropSess (s : State) (k : Nat) : State :=
  match s.session k with
  | some x =>
    let s1 := match x.enrol with
      | some (g, c) => s.quarantine x.port g c x.benchEnd
      | none => s
    let s2 := match x.assigned with
      | some (g, c) => s1.quarantine x.port g c x.benchEnd
      | none => s1
    s2.freeSess k
  | none => s

/-- A session whose last lookup has finished becomes FREE where it is CLOSING (R238, R324). -/
def State.settleSess (s : State) (k : Nat) : State :=
  match s.session k with
  | some x => if x.state = .closing ∧ ¬ s.inFlight k ∧ s.gen.phase ≠ .safe then s.dropSess k else s
  | none => s

/-- A decision made for session `k` (R315-R324): reported, written to the recent table, delivered to its lane where R324 lets it. A
mismatch of the decision units or a parity error on decision data withholds it (R410, R413). -/
def State.decide4 (s : State) (k : Nat) (src : Source) (store : Bool) (stale : Bool) (bank since : Nat) (hw : HwFault) : State :=
  match s.session k with
  | none => s
  | some x =>
    match hw with
    | .lockstep => s.trip 4 0
    | .parity => s.trip 8 0
    | _ =>
      let h := keyH x.ident
      let h2 := keyH2 x.tech x.ident
      let lane := s.laneOf x.port
      let w := (s.matchWay h h2).map fun i => s.way (h % 65536) i
      let v := s.judge lane w src
      let dup := v.repeated && decide ((w.map fun y => y.lane) ≠ some lane)
      let orphan := !x.live
      let driven := !x.undriven && !(orphan && !s.flag Reg.KPR_CTRL Fld.KPR_CTRL_CLOSE_DRIVE) && !(dup && s.flag Reg.KPR_CTRL Fld.KPR_CTRL_REPEAT_SAME)
        && s.laneEn lane && (decide (s.gen.phase = .run) || decide (s.gen.phase = .recovery))
      let hit := match src with
        | .hit _ => true
        | _ => false
      let arg := decisionArg k x.port lane v driven hit bank dup orphan
      let limit := match src with
        | .entry e => e.limit
        | _ => 0
      let s1 := s.writeRecent h h2 lane v driven
        (if hit then none else some (if store then s.verdictFor stale src v else 0, limit))
      let s2 := if driven then (s1.driveLane lane v.decision).count (72 + lane) else s1
      let s3 := ((s2.setFld (Reg.KPR_L_STATUS lane) Fld.KPR_L_STATUS_LAST v.decision).setReg Reg.KPR_LAST_DECISION arg).count 91
      let s4 := if hit then s3.count 88 else s3
      let s5 := if v.reason = 2 then (s4.bump Reg.KPR_COUNTS Fld.KPR_COUNTS_CHECK_FAILS).post 0x7002 .heart 0
        else if v.reason = 3 then s4.post 0x7003 .heart 0
        else if v.reason = 4 then s4.post 0x7004 .heart 0
        else s4
      let s6 := if 2 * msec < s.time - since then s5.count 110 else s5
      let s7 := (s6.post 0x7001 .top arg.toNat).modSess k fun y => { y with decision := v.decision }
      s7.setTrc { s7.obs.trc with decisions := s7.obs.trc.decisions ++ [(arg, latency driven hit (s.time - since))] }

/-- Decisions for sessions joined to one lookup, one after another (R322), each since its own submission, with which the session began. -/
def State.decideAll (s : State) (src : Source) (stale : Bool) (bank since : Nat) (hw : HwFault) : List Nat → State
  | [] => s
  | k :: t =>
    let own := ((s.session k).map fun x => x.firstSeen).getD since
    State.decideAll (s.decide4 k src true stale bank own hw) src stale bank since hw t

/-! ### Probes and lookups in flight (R304, R313, R320-R323) -/

/-- Whether a probe of a matching way is a hit for a lane (R313). -/
def State.isHit (s : State) (x : Way) (lane : Nat) : Bool :=
  decide (1 ≤ x.verdict) && decide (x.verdict ≤ 6)
    && decide (s.age x ≤ s.fld Reg.KPR_TIMES Fld.KPR_TIMES_HIT_TTL * 60)
    && (decide (x.zone = s.zoneOf lane) || decide (x.verdict = 4))
    && s.flag Reg.KPR_CTRL Fld.KPR_CTRL_CACHE_EN && s.kpr.pass.isNone

/-- The page and shelf where an identifier's home lies (R300). -/
def homeOf (h p : Nat) : Nat × Nat := (h % p, h / p % 8)

/-- A store operation queued (R346). -/
def State.queueOp (s : State) (k : StoKind) (region page : Nat) : State :=
  { s with sto := { s.sto with queue := s.sto.queue ++
      [{ kind := k, region := region, page := page, die := 0, block := 0, started := none, suspends := 0, suspended := false }] } }

/-- A lookup slot taken for session `k` and its shelf read issued (R321). -/
def State.takeSlot (s : State) (k h h2 since : Nat) : State :=
  let b := s.activeBank
  let p := (s.reg (Reg.KPR_BANK_PAGES b)).toNat
  let home := homeOf h p
  let n := (firstFrom (fun n => !(s.kpr.slots.any fun x => x.slot = n)) 0 256).getD 0
  let l : Lookup := { slot := n, sess := [k], h := h, h2 := h2, bank := b, page := home.1, shelf := home.2, hop := 0,
                      stale := s.kpr.pass.isSome, since := since }
  (({ s with kpr := { s.kpr with slots := s.kpr.slots ++ [l] } }).queueOp (.shelf n) b home.1).count 89

/-- A lookup issued for session `k`: joined to one in flight, given a slot, or made to wait (R321, R322). -/
def State.issue (s : State) (k h h2 since : Nat) : State :=
  if s.kpr.slots.any fun x => x.h = h && x.h2 = h2 then
    { s with kpr := { s.kpr with slots := s.kpr.slots.map fun x => if x.h = h ∧ x.h2 = h2 then { x with sess := x.sess ++ [k] } else x } }
  else if s.kpr.slots.length < 256 then s.takeSlot k h h2 since
  else ({ s with kpr := { s.kpr with waiting := s.kpr.waiting ++ [(k, since)] } }).postSec 0x7009 0 .top 0

/-- A recent-table parity error on a probe (R320): the way is cleared. -/
def State.recentParity (s : State) (set w : Nat) : State :=
  (s.putWay set w { s.way set w with valid := false }).post 0x7008 .heart 0

/-- A session's identifier handed to the Keeper (R313, R321, R326): decided on a hit or for an empty roster 23 cycles later, else a
lookup is issued. In SAFE and START nothing is decided (R39, R325). -/
def State.submit (s : State) (k : Nat) (hw : HwFault) : State :=
  match s.session k with
  | none => s
  | some x =>
    let h := keyH x.ident
    let h2 := keyH2 x.tech x.ident
    let s0 := s.modSess k fun y => { y with decision := 1 }
    let s1 := match hw with
      | .recent w => s0.recentParity (h % 65536) w
      | _ => s0
    let lane := s1.laneOf x.port
    if s.rosterEmpty then
      let t := s1.advance (s1.time + 23 * cycle)
      t.decide4 k .notFound false false t.activeBank s1.time hw
    else
      match (s1.matchWay h h2).map fun i => s1.way (h % 65536) i with
      | some w =>
        if s1.isHit w lane then
          let t := s1.advance (s1.time + 23 * cycle)
          t.decide4 k (.hit w.verdict) false false t.activeBank s1.time hw
        else s1.issue k h h2 s1.time
      | none => s1.issue k h h2 s1.time

/-- Whether the Keeper has accepted the identifier of session `k` (R233): decided, or its lookup issued. -/
def State.accepted (s : State) (k : Nat) : Bool := !(s.kpr.waiting.any fun x => x.1 = k)

/-- Waiting identifiers whose turn comes while the active bank is empty are decided UNKNOWN without a store read (R32, R326). -/
def State.decideWaiting : List (Nat × Nat) → State → State
  | [], s => s
  | (k, since) :: t, s =>
    let u := s.advance (s.time + 23 * cycle)
    State.decideWaiting t (if (u.session k).isSome then u.decide4 k .notFound false false u.activeBank since .none else u)

/-- A slot freed: the oldest waiting identifier takes it (R321, R335); sessions whose last lookup has finished settle (R324). -/
def State.freeSlot (s : State) (n : Nat) : State :=
  let l := s.kpr.slots.filter fun x => x.slot = n
  let s1 := { s with kpr := { s.kpr with slots := s.kpr.slots.filter fun x => x.slot ≠ n } }
  let s2 := l.foldl (fun t x => x.sess.foldl (fun u k => u.settleSess k) t) s1
  if s2.rosterEmpty then
    State.decideWaiting s2.kpr.waiting { s2 with kpr := { s2.kpr with waiting := [] } }
  else match s2.kpr.waiting with
  | (k, since) :: t =>
    let s3 := { s2 with kpr := { s2.kpr with waiting := t } }
    match s3.session k with
    | some x => s3.issue k (keyH x.ident) (keyH2 x.tech x.ident) since
    | none => s3
  | [] => s2

/-! ### Shelves (R295-R301) -/

/-- Whether a 32-byte slot passes its check with a fold value (R298). -/
def slotOk (b : List Byte) (fold : Nat) : Bool := decide (crc32cFold fold (b.take 28) = leAt b 28 4)

/-- The roster entry in a 32-byte slot (R296). -/
def rosterEntry (b : List Byte) : RosterEntry :=
  { zones := leAt b 12 2, validFrom := leAt b 14 4, validUntil := leAt b 18 4, cls := leAt b 22 1, limit := leAt b 23 1,
    flags := leAt b 24 1 }

/-- Whether a slot holds an identifier (R301). -/
def slotIs (b ident : List Byte) (tech : Nat) : Bool :=
  decide (leAt b 0 1 = ident.length) && decide ((b.drop 1).take ident.length = ident)
    && (decide (leAt b 11 1 = tech) || decide (leAt b 11 1 = 0xFF))

/-- What a shelf of 512 bytes gives a lookup (R301): a result, or the overflow shelf to read next. -/
inductive Walk where
  | result (x : Source)
  | next (shelf : Nat)
  deriving DecidableEq, Repr

/-- Whether slots 1 to `n` of a shelf pass their checks. -/
def slotsOk (data : List Byte) (fold0 : Nat) : Nat → Bool
  | 0 => true
  | n + 1 => slotsOk data fold0 n && slotOk ((data.drop (32 * (n + 1))).take 32) (fold0 + n + 1)

/-- The walk of one shelf (R301), for bank total `total`. -/
def walkShelf (data ident : List Byte) (tech page shelf hop total : Nat) : Walk :=
  let fold0 := page * 128 + shelf * 16
  let fill := leAt data 4 1
  let nxt := leAt data 0 4
  if ¬ slotOk (data.take 32) fold0 ∨ 15 < fill then .result .check
  else if ¬ slotsOk data fold0 fill then .result .check
  else match firstFrom (fun i => slotIs ((data.drop (32 * i)).take 32) ident tech) 1 fill with
    | some i => .result (.entry (rosterEntry ((data.drop (32 * i)).take 32)))
    | none =>
      if nxt = 0xFFFFFFFF then .result .notFound
      else if total * 8 ≤ nxt then .result .check
      else if 4 ≤ hop then .result .chain
      else .next nxt

/-- How long the header and entry checks of a shelf take (R327), in CLK_CORE cycles: 320 ns. The crossing before them, of at most 25 ns, is not
modelled. -/
abbrev shelfCycles : Nat := 64

/-- A shelf that has come back to lookup slot `n` (R301, R323, R327): a decision for its sessions, or the next overflow hop. The
values of the lookup's own bank apply (R307). -/
def State.shelfDone (s : State) (n : Nat) (data : Option (List Byte)) (hw : HwFault) : State :=
  match s.kpr.slots.find? fun x => x.slot = n with
  | none => s
  | some l =>
    let s0 := s.count 92
    let who := match l.sess with
      | k :: _ => s0.session k
      | [] => none
    match data, who with
    | none, _ =>
      ((s0.decideAll .storeErr l.stale l.bank l.since hw l.sess).freeSlot n)
    | some d, some x =>
      match walkShelf d x.ident x.tech l.page l.shelf l.hop (s.reg (Reg.KPR_BANK_TOTAL l.bank)).toNat with
      | .result r =>
        let t := s0.advance (s0.time + (shelfCycles + 13) * cycle)
        ((t.decideAll r l.stale l.bank l.since hw l.sess).freeSlot n)
      | .next nx =>
        let s1 := { s0 with kpr := { s0.kpr with slots := s0.kpr.slots.map fun (y : Lookup) =>
          if y.slot = n then { y with page := nx / 8, shelf := nx % 8, hop := y.hop + 1 } else y } }
        ((s1.advance (s1.time + shelfCycles * cycle)).queueOp (.shelf n) l.bank (nx / 8)).count 90
    | some _, none => s0.freeSlot n

/-- Every lookup abandoned (R325); sessions of them stay as they are. -/
def State.abandonLookups (s : State) : State := { s with kpr := { s.kpr with slots := [], waiting := [] } }

/-! ### Invalidation and commit (R303-R308, R314) -/

/-- A pass started or restarted: INVALIDATING, and every lookup in flight STALE (R314). -/
def State.invalidate (s : State) : State :=
  { s with kpr := { s.kpr with pass := some s.time, slots := s.kpr.slots.map fun x => { x with stale := true } } }

/-- The SRAM window with VERDICT 0 in every way of the recent table (R314). -/
def clearVerdicts : List (Nat × Byte) → List (Nat × Byte)
  | [] => []
  | (a, v) :: t =>
    if 0x200000 ≤ a ∧ a < 0x600000 ∧ a % 16 = 13 then
      if v &&& 0xF8 = 0 then clearVerdicts t else (a, v &&& 0xF8) :: clearVerdicts t
    else (a, v) :: clearVerdicts t

/-- The values of a KPR_COMMIT payload (R305), with a map signature (R345). -/
def commitVals (p : List Byte) (sig : Nat) : BankVals :=
  { ver := leAt p 4 4, p := leAt p 8 4, t := leAt p 12 4, entries := leAt p 16 4, sig := sig }

/-- Whether R306 refuses a KPR_COMMIT. -/
def State.commitBad (s : State) (p : List Byte) : Bool :=
  let b := leAt p 0 1
  let v := commitVals p 0
  decide (1 < b) || decide (leAt p 1 3 ≠ 0) || decide (b = s.activeBank) || decide (v.t < v.p)
    || decide (s.fld (Reg.STO_PAGES b) Fld.STO_PAGES_PAGES < v.t) || (decide (v.p = 0) && decide (0 < v.entries))
    || decide (v.t * 120 < v.entries) || decide (33554432 < v.entries)
    || s.sto.queue.any fun q => decide (q.region = b) && (match q.kind with
      | .hostProgram _ | .hostErase _ => true
      | _ => false)

/-- `KPR_COMMIT` (R305-R307): the authenticated command's own checks; accepted, its values go to NV. -/
def execKprCommit (s : State) : Out := s.core fun s =>
  match s.authActs 3 with
  | none => s
  | some p =>
    if s.commitBad p then s.authRefused.post 0x7006 .heart 0
    else { s.authAccepted with kpr := { s.kpr with commit := some (leAt p 0 1, commitVals p (s.geom.signature (leAt p 0 1))) } }

/-- The registers of a bank (R303). -/
def State.setBank (s : State) (b : Nat) (v : BankVals) : State :=
  (((s.setReg (Reg.KPR_BANK_VER b) (word v.ver)).setReg (Reg.KPR_BANK_PAGES b) (word v.p)).setReg (Reg.KPR_BANK_TOTAL b) (word v.t)).setReg
    (Reg.KPR_BANK_ENTRIES b) (word v.entries)

/-- `COMMIT_NV_DONE` (R307): the named bank becomes active and an invalidation pass starts; a write that does not verify changes
nothing. -/
def execCommitNvDone (ok : Bool) (s : State) : Out := s.core fun s =>
  match s.kpr.commit with
  | none => s
  | some (b, v) =>
    let s0 := { s.authEnd with kpr := { s.kpr with commit := none } }
    if ok then
      let s1 := { s0 with kpr := { s0.kpr with nvBanks := s0.kpr.nvBanks.set b v, nvActive := b } }
      (((s1.setBank b v).setFld Reg.KPR_STATUS Fld.KPR_STATUS_ACTIVE_BANK b).post 0x7005 .top 0).invalidate
    else s0

/-- `INVALIDATION_PASS_DONE` (R314): one set per cycle, 65,536 of them. -/
def execInvalidationPassDone (s : State) : Out := s.core fun s =>
  match s.kpr.pass with
  | none => s
  | some since =>
    let t := s.advance (since + 65536 * cycle)
    { t with sram := clearVerdicts t.sram, kpr := { t.kpr with pass := none } }

/-- `RECENT_SWEEP_TICK` (R310): 1 µs on, the next way is visited and cleared where it is older than COUNT_TTL. -/
def execRecentSweepTick (s : State) : Out := s.core fun s =>
  match s.kpr.sweep with
  | none => s
  | some i =>
    let runs := match s.gen.phase with
      | .run | .recovery | .test => true
      | _ => false
    if runs then
      let t := s.advance ((s.time / usec + 1) * usec)
      let x := t.way (i / 4) (i % 4)
      let t1 := if x.valid && decide (t.countTtl < t.age x) then t.putWay (i / 4) (i % 4) { x with valid := false } else t
      { t1 with kpr := { t1.kpr with sweep := some ((i + 1) % 262144) } }
    else s

/-- `GO_PULSE_END` (R329). -/
def execGoPulseEnd (lane : Lane) (s : State) : Out := s.core fun s =>
  match (s.lane lane).goEnd with
  | none => s
  | some e => (s.advance e).modL lane fun x => { x with goEnd := none }

/-- `ALERT_PULSE_END` (R330). -/
def execAlertPulseEnd (lane : Lane) (s : State) : Out := s.core fun s =>
  match (s.lane lane).alertEnd with
  | none => s
  | some e => (s.advance e).modL lane fun x => { x with alertEnd := none }

end Sys2Proof.Machine
end

