-- ==== Sys2Proof/Machine/Canceller.lean ====
section
/-! DEFINITION. The canceller of a receive chain (R134-R142): input gain, weights and their adaptation, transmit references, residual. -/

namespace Sys2Proof.Machine

/-! ### Gain and power (R132, R134, R140) -/

/-- 10^(3·g/20) × 2^30: the input gain of a step, relative to step 0 (R132). -/
def gainFactor (g : Nat) : Nat :=
  (([1073741824, 1516700640, 2142396597, 3026215629, 4274643195, 6038094002, 8529034476, 12047581417] : List Nat)[g]?).getD (2 ^ 30)

/-- 10^(k/40) × 2^30 for k from 0 to 39. -/
def quarterDbs : List Nat :=
  [1073741824, 1137365027, 1204758142, 1276144550, 1351760868, 1431857735, 1516700640, 1606570803, 1701766107, 1802602089, 1909412977,
   2022552809, 2142396597, 2269341577, 2403808519, 2546243128, 2697117519, 2856931779, 3026215629, 3205530179, 3395469783, 3596664016,
   3809779757, 4035523400, 4274643195, 4527931728, 4796228550, 5080422958, 5381456944, 5700328315, 6038094002, 6395873565, 6774852899,
   7176288171, 7601509978, 8051927761, 8529034476, 9034411541, 9569734080, 10136776473]

/-- 10^(v/40) × 2^30: a power ratio of `v` quarters of a dB. -/
def dbPow (v : Nat) : Nat := (quarterDbs[v % 40]?).getD 0 * 10 ^ (v / 40)

/-- The field value v, of at most 9 bits, of a power `p` relative to `full`, v meaning -v/4 dBFS (R140, R162), rounded down: the largest that
leaves the power at or below full scale when it is raised by v quarters of a dB. -/
def quarterDb (p full : Nat) : Nat :=
  [256, 128, 64, 32, 16, 8, 4, 2, 1].foldl (fun v b => if p * dbPow (v + b) ≤ full * 2 ^ 30 then v + b else v) 0

/-- The input gain step in force on port `n`: that of its most recent receive window (R134). -/
def State.gainUsed (s : State) (n : Nat) : Nat := s.fld (Reg.RXE_P_FRONT n) Fld.RXE_P_FRONT_GAIN_USED

/-- The step that the AGC picks (R134): the highest at which a peak sample of 12 bits, taken at step `cur`, stays at or below -6 dBFS; step 0
where none does. -/
def agcStep (cur peak : Nat) : Nat :=
  (((List.range 8).filter fun g => decide (peak * gainFactor g * 10 ^ 12 ≤ 2048 * 501187233627 * gainFactor cur)).getLast?).getD 0

/-! ### Weights and references (R136-R141) -/

/-- The product of two vectors. -/
def vecMul (a b : Vec) : Vec := (a.1 * b.1 - a.2 * b.2, a.1 * b.2 + a.2 * b.1)

/-- A vector mirrored on the in-phase axis. -/
def conj (v : Vec) : Vec := (v.1, -v.2)

/-- A vector divided, each part to the nearest integer. -/
def vecDiv (v : Vec) (k : Nat) : Vec := (roundDiv v.1 k, roundDiv v.2 k)

/-- What amplitude code 1023 at phase offset 0 measures in the units of `State.txRef`: a reference of 1 (R136). -/
def refOne : Nat := 1023 * 2 ^ 30

/-- The transmit reference s_j of port `j` at a sample (R136): its amplitude as generated, from the state or, while it is keyed, as the
sample gives it, turned by its phase offset; 0 with the field off. -/
def State.txRef (s : State) (x : RxSample) (j : Nat) : Vec :=
  rotate (s.pf j).phase ((((x.keyed.find? fun k => k.1.val = j).map fun k => k.2).getD (s.driveLevel j) : Nat), 0)

/-- r[k] (R136), in 2^-16 of the unit of x: the sample less the weighted references of all sixteen ports. -/
def cancelled (w refs : List Vec) (x : Word) : Vec :=
  let v := wordVec x
  let c := vecDiv (vecSum (List.zipWith vecMul w refs)) refOne
  (v.1 * 2 ^ 16 - c.1, v.2 * 2 ^ 16 - c.2)

/-- One step of the adaptation (R138): w[n][j] + 2^-mu · r · conj(s_j). -/
def adaptStep (mu : Nat) (w refs : List Vec) (x : Word) : List Vec :=
  let r := cancelled w refs x
  List.zipWith (fun v t =>
    let d := vecDiv (vecMul r (conj t)) (refOne * 2 ^ mu)
    (v.1 + d.1, v.2 + d.2)) w refs

/-- The adaptation over samples from number `k` on, each with its own step size. -/
def State.adaptFrom (s : State) (mu : Nat → Nat) : Nat → List RxSample → List Vec → List Vec
  | _, [], w => w
  | k, x :: t, w => State.adaptFrom s mu (k + 1) t (adaptStep (mu k) w ((List.range 16).map (s.txRef x)) x.x)

/-- The weights of port `n` adapted over samples at carrier rate (R138), while ADAPT_EN is 1. In warm-up step 1 the first 12 µs take the
larger step. -/
def State.adapt (s : State) (n : Nat) (warm : Bool) (l : List RxSample) : State :=
  if s.flag (Reg.RXE_P_CANCEL n) Fld.RXE_P_CANCEL_ADAPT_EN then
    let mu := s.fld (Reg.RXE_P_CANCEL n) Fld.RXE_P_CANCEL_MU
    s.modR n fun y => { y with weights := s.adaptFrom (fun k => if warm && decide (s.fc k < 12 * usec) then mu - 4 else mu) 0 l y.weights }
  else s

/-- The mean power of r[k] over samples, as RESIDUAL gives it (R140). -/
def State.residual (s : State) (n : Nat) (l : List RxSample) : Nat :=
  let p := l.foldl (fun a x =>
    let r := cancelled (s.pr n).weights ((List.range 16).map (s.txRef x)) x.x
    a + (r.1 * r.1 + r.2 * r.2).toNat) 0
  quarterDb p (l.length * 2 ^ 60)

/-- Entry M[i][j] as its two signed parts. -/
def State.coupling (s : State) (i j : Nat) : Int × Int :=
  let w := s.reg (Reg.FLD_COUPLE (16 * i + j))
  (signed 16 (Fld.FLD_COUPLE_I.get w), signed 16 (Fld.FLD_COUPLE_Q.get w))

/-- A matrix entry as a weight at the gain in force (R137). -/
def weightOf (g : Nat) (m : Vec) : Vec := vecDiv (m.1 * gainFactor g, m.2 * gainFactor g) (2 ^ 14)

/-- The weights of port `n` as its row of the coupling matrix gives them, when warm-up first measures it (R137). -/
def State.firstWeights (s : State) (n : Nat) : State :=
  s.modR n fun y => { y with diffs := [], weights := (List.range 16).map fun j => weightOf (s.gainUsed n) (s.coupling n j) }

/-- The differences of replaced columns added to the weights of port `n` (R137). -/
def State.takeDiffs (s : State) (n : Nat) : State :=
  s.modR n fun y => { y with
    diffs := []
    weights := y.diffs.foldl (fun l d =>
      let v := (l[d.1]?).getD (0, 0)
      let c := weightOf (s.gainUsed n) (d.2.1, d.2.2)
      l.set d.1 (v.1 + c.1, v.2 + c.2)) y.weights }

/-- Entry `j` of the row of port `n` has changed by `d` (R137): its weight follows at once, or, while a receive window is open, at the next
opening (R139). -/
def State.entryMoved (s : State) (n j : Nat) (d : Vec) : State :=
  let t := s.modR n fun y => { y with diffs := y.diffs ++ [(j, d.1, d.2)] }
  if (t.pr n).state = .idle then t.takeDiffs n else t

/-- The input gain of port `n` set for a window (R134), every weight scaled with it (R141). -/
def State.setGain (s : State) (n g : Nat) : State :=
  let scaled := fun (w : Vec) => vecDiv (w.1 * gainFactor g, w.2 * gainFactor g) (gainFactor (s.gainUsed n))
  (s.modR n fun y => { y with weights := y.weights.map scaled }).setFld (Reg.RXE_P_FRONT n) Fld.RXE_P_FRONT_GAIN_USED g

/-! ### A window opens (R134, R137, R140) -/

/-- The residual measured in the 4 µs before a window opens (R140), in -1/4 dBFS: above -RESID_THR, WEAK, its event and warm-up step 1. -/
def State.noteResidual (s : State) (n v : Nat) : State :=
  let st := Reg.RXE_P_CANCEL_STATUS n
  let s1 := (s.setFld st Fld.RXE_P_CANCEL_STATUS_RESIDUAL v).setFld st Fld.RXE_P_CANCEL_STATUS_VALID 1
  if v < 4 * s.fld (Reg.RXE_P_CANCEL n) Fld.RXE_P_CANCEL_RESID_THR then
    let s2 := s1.modF n fun x => { x with stepAsked := setBit x.stepAsked 1 true }
    if s.flag st Fld.RXE_P_CANCEL_STATUS_WEAK then s2 else (s2.stick st Fld.RXE_P_CANCEL_STATUS_WEAK).post 0x4004 .heart 0
  else s1

/-- The gain step for a window (R134): the AGC's, or that of GAIN. -/
def State.gainFor (s : State) (n agc : Nat) : Nat :=
  if s.flag (Reg.RXE_P_FRONT n) Fld.RXE_P_FRONT_AGC_EN then agc else s.fld (Reg.RXE_P_FRONT n) Fld.RXE_P_FRONT_GAIN

/-- The receiver of port `n` set for the window of its exchange (R134, R137, R138, R140): adaptation up to now, residual, gain, columns. -/
def State.armRx (s : State) (n : Nat) (x : RxOpen) : State :=
  let t := s.adapt n false x.adapting
  ((t.noteResidual n (t.residual n x.before)).setGain n (t.gainFor n (agcStep (t.gainUsed n) x.peak))).takeDiffs n

/-- The same for a listen window (R146). What the receiver sees in the 4 µs before it is not given: the AGC's step and the residual are free. -/
def State.armListen (s : State) (n : Nat) : State :=
  let f := s.takeFreeWord
  ((f.1.noteResidual n (f.2.toNat / 8 % 512)).setGain n (s.gainFor n (f.2.toNat % 8))).takeDiffs n

end Sys2Proof.Machine
end

