-- ==== Sys2Proof/Machine/Air.lean ====
section
/-! DEFINITION. What the field, receive and protocol engines share: frames on air (R172-R180), completions (R190-R195), deferral (R91), ramps
and field-on requests (R63-R80). -/

namespace Sys2Proof.Machine

/-! ### Frames -/

/-- The check value of a technology over bytes, in the order on air (R177). -/
def airCheck (tech rate : Nat) (l : List Byte) : List Byte :=
  if framedF tech rate then (leBytes 2 (crcF l)).reverse
  else if tech = 1 ∨ tech = 3 then leBytes 2 (crcB l)
  else leBytes 2 (crcA l)

/-- Whether the last two bytes are the check value of the others (R178). -/
def checkOk (tech rate : Nat) (l : List Byte) : Bool :=
  decide (2 ≤ l.length) && decide (airCheck tech rate (l.take (l.length - 2)) = l.drop (l.length - 2))

/-- The odd parity bit of a byte (R172, R175). -/
def oddParity (b : Byte) : Bool := ((List.range 8).filter fun i => b.toNat.testBit i).length % 2 = 0

/-- The bytes on air (R172): the data, and the check value. -/
def Frame.airBytes (f : Frame) : List Byte := if f.checked then f.data ++ airCheck f.tech f.rate f.data else f.data

/-- The lowest `k` bits of a byte in the order on air (R173). -/
def airBits (msb : Bool) (k : Nat) (b : Byte) : List Bool :=
  let l := (List.range k).map b.toNat.testBit
  if msb then l.reverse else l

/-- The characters of a frame: each byte through `char`, which is given how many of its bits are sent; a partial last byte sends its lowest
LAST_BITS. -/
def Frame.chars (f : Frame) (char : Nat → Byte → List Bool) : List Bool :=
  (f.airBytes.zipIdx.map fun c => char (if c.2 + 1 = f.airLen then 8 - f.lacks else 8) c.1).flatten

/-- The bits that PRO sends for a frame (R172-R174, R178): preamble, sync word, SOF, start and stop bits, parity, EGT and EOF as its
technology frames it. In NFC-V the SOF and EOF of ISO/IEC 15693-2 are no bits, and in NFC-A the end of communication is none. -/
def State.sentBits (s : State) (f : Frame) : List Bool :=
  let b := s.reg Reg.PRO_FRAMING
  if framedF f.tech f.rate then
    List.replicate 48 false ++ (List.range 16).map (fun i => (0xB24D : Nat).testBit (15 - i)) ++ f.chars (airBits true)
  else if f.tech = 1 then
    List.replicate (10 + Fld.PRO_FRAMING_B_SOF_LOW.get b) false ++ List.replicate (2 + Fld.PRO_FRAMING_B_SOF_HIGH.get b) true
      ++ f.chars (fun k c => false :: airBits false k c ++ true :: List.replicate (Fld.PRO_FRAMING_B_EGT.get b) true)
      ++ List.replicate (10 + Fld.PRO_FRAMING_B_EOF.get b) false
  else if f.tech = 3 then f.chars (airBits false)
  else false :: f.chars fun k c => airBits false k c ++ if k = 8 then [oddParity c] else []

/-- The bits of the frame that port `n` modulates. -/
def State.onAir (s : State) (n : Nat) : Option (List Bool) :=
  if (s.pf n).txEnd.isSome && decide ((s.pf n).txFrom ≤ s.time) then (s.pp n).xch.map fun x => s.sentBits x.plan.frame else none

/-! ### Completions (R190-R196) -/

/-- PRS (R192). -/
def prsWord (result : Nat) (txDone early heldSyn : Bool) (synWait waitUs : Nat) : Word :=
  packF [(⟨0, 4⟩, result), (⟨4, 1⟩, bnat txDone), (⟨5, 1⟩, bnat early), (⟨6, 1⟩, bnat heldSyn), (⟨8, 8⟩, min synWait 255),
    (⟨16, 16⟩, min waitUs 65535)]

/-- The words of a completion (R190, R191). -/
def complWords (tag : Nat) (bytes : List Byte) (lastBits : Nat) (prs rxs0 rxs1 rxs2 : Word) : List Word :=
  packF [(⟨0, 13⟩, bytes.length), (⟨13, 3⟩, lastBits), (⟨16, 16⟩, tag)] :: (packWords bytes ++ [prs, rxs0, rxs1, rxs2])

/-- Staged completions pushed in order while room lasts (R195); `part` says that some words of the first are in RXQn already. -/
def State.drainStaged (s : State) (n : Nat) (part : Bool) : List (List Word) → State
  | [] => s.modP n fun x => { x with staged := [], pushing := false }
  | ws :: t =>
    let r := s.pushRxs n ws
    if r.2 = [] then State.drainStaged r.1 n false t
    else r.1.modP n fun x => { x with staged := r.2 :: t, pushing := part || decide (r.2.length < ws.length) }

/-- What waits to be pushed, pushed as far as room allows (R195). -/
def State.pushStaged (s : State) (n : Nat) : State := s.drainStaged n (s.pp n).pushing (s.pp n).staged

/-- A completion written for port `n`: staged, counted, and pushed as room allows (R190, R195, R214, R549). -/
def State.complete (s : State) (n tag : Nat) (bytes : List Byte) (lastBits result : Nat) (prs rxs0 rxs1 rxs2 : Word) : State :=
  let s1 := s.bump (Reg.PRO_P_COUNTS n) Fld.PRO_P_COUNTS_DONE
  let s2 := if result = 0 then s1 else s1.bump (Reg.PRO_P_COUNTS n) Fld.PRO_P_COUNTS_NOT_OK
  let s3 := if 2 ≤ result ∧ result ≤ 4 then s2.count (56 + n) else s2
  let s4 := (s3.setReg (Reg.PRO_P_LAST_PRS n) prs).modP n fun x =>
    { x with staged := x.staged ++ [complWords tag bytes lastBits prs rxs0 rxs1 rxs2] }
  s4.pushStaged n

/-- A completion without a reception for a descriptor whose modulation never started. Its WAIT_US, a time up to the start of the
modulation, is not stated by the spec: a free value. -/
def State.completeUnsent (s : State) (n tag result synWait : Nat) (heldSyn : Bool) : State :=
  let f := s.takeFreeWord
  f.1.complete n tag [] 0 result (prsWord result false false heldSyn synWait (f.2.toNat % 65536)) 0 0 0

/-- Time held for the synthesiser so far, in µs (R192). -/
def Plan.synUs (p : Plan) (now : Nat) : Nat :=
  p.synWait + (match p.synSince with
    | some t => (now - t) / usec
    | none => 0)

/-- PRS of an exchange whose modulation started. -/
def Exchange.prs (x : Exchange) (result : Nat) (early : Bool) : Word :=
  prsWord result x.txDone early x.plan.heldSyn x.plan.synWait ((x.startAt - x.plan.takenAt) / usec)

/-! ### Deferral (R91) -/

/-- Deferral of port `n` ended: its modulation starts (R91); counter 112 + n takes the µs. -/
def State.endDeferral (s : State) (n : Nat) : State :=
  match (s.pf n).dueSince with
  | some t => (s.countBy (112 + n) ((s.time - t) / usec)).modF n fun x => { x with dueSince := none, starved := false }
  | none => s

/-- A modulation of port `n` is due and held (R91). -/
def State.defer (s : State) (n : Nat) : State :=
  if (s.pf n).dueSince.isSome then s else s.modF n fun x => { x with dueSince := some s.time }

/-- What was due on port `n` is not due any more. -/
def State.undue (s : State) (n : Nat) : State := s.modF n fun x => { x with dueSince := none, starved := false }

/-! ### Ramps (R63, R66, R68) -/

/-- The synthesiser started where it stands still (R69): SETTLING until lock, 1.2 ms at most from OFF to STANDBY (R71). -/
def State.startSyn (s : State) : State :=
  if s.field.synRun then s
  else ({ s with field := { s.field with synRun := true, settleEnd := some (s.time + 1200 * usec) } }).setFld
    Reg.FLD_SYN_STATUS Fld.FLD_SYN_STATUS_SETTLING 1

/-- A field-on requested (R68, R69, R80), where the role of the port carries a field: a synthesiser that stands still is started. -/
def State.askOn (s : State) (n : Nat) : State :=
  let x := s.pf n
  if carriesField (s.role n) && x.wantOn.isNone && !x.ramp.goesOn && !(x.carrier && !x.ramp.goesOff) then
    s.startSyn.modF n fun y => { y with wantOn := some s.time, wantOff := none }
  else s

/-- A port leaves CAL with its step aborted and rescheduled (R95). -/
def State.abortStep (s : State) (n : Nat) : State :=
  match (s.pf n).step with
  | some (i, _) =>
    s.modF n fun x =>
      { x with step := none, stepAsked := setBit x.stepAsked i true, quietFrom := s.time, radio := if x.radio = .cal then .field else x.radio }
  | none => s

/-- The field-off ramp of port `n` starts; `slot` says whether it holds a ramp slot. One that was due has been waited for (R91); one that
the duty gate, the safe state or COX orders takes the place of whatever the port had committed or due. -/
def State.startOff (s : State) (n : Nat) (slot : Bool) : State :=
  ((if slot then s.endDeferral n else s.undue n).abortStep n).modF n fun x =>
    { x with ramp := .down (s.time + s.rampTime) slot, wantOff := none, guardEnd := none, radio := .field, txEnd := none, rampDue := false,
             paEnd := none }

/-- Whether port `n` may start a field-off ramp of its own, asked for at `since`: a slot, lock, keep-out, no blank, and the grant (R55, R68,
R86, R384, R393). That of a huddle's member is scheduled as a frame of a slot (R89). -/
def State.canOff (s : State) (n since : Nat) : Bool :=
  (s.huddled n).isNone && s.offDue n && s.offFree n && s.slotFor n since

/-- A field-off requested (R69, R70, R74): started where nothing holds it, else it waits; held on a free port in FIELD, it is a modulation
that is due (R91). -/
def State.askOff (s : State) (n : Nat) : State :=
  let x := s.pf n
  let s1 := s.modF n fun y => { y with wantOn := none, admitted := none }
  match x.ramp with
  | .down _ _ | .biasOff _ => s1
  | _ =>
    if x.carrier ∨ x.ramp ≠ .none then
      let s2 := s1.modF n fun y => { y with wantOff := some (x.wantOff.getD s.time) }
      if s2.canOff n (x.wantOff.getD s.time) then s2.startOff n true
      else if s2.offDue n && (s2.huddled n).isNone then s2.defer n else s2
    else s1

/-- The ports that wait for a field-off ramp, in the order of their requests. -/
def State.offWaiting (s : State) : List (Nat × Nat) :=
  sortBy (fun p => p.2 * 16 + p.1) ((List.range 16).filterMap fun n => (s.pf n).wantOff.map fun t => (n, t))

/-- Waiting field-off ramps started where nothing holds them any more (R68). -/
def State.tryOffs (s : State) : State :=
  s.offWaiting.foldl (fun t p =>
    if t.canOff p.1 p.2 then t.startOff p.1 true else if t.offDue p.1 && (t.huddled p.1).isNone then t.defer p.1 else t) s

/-! ### Phase and amplitude (R57-R60) -/

/-- The phase and amplitude codes of port `n` taken from its registers (R60). -/
def State.applyPA (s : State) (n : Nat) : State :=
  s.modF n fun x => { x with phase := s.fld (Reg.FLD_P_PHASE n) Fld.FLD_P_PHASE_OFFSET,
                             ampl := s.fld (Reg.FLD_P_AMPL n) Fld.FLD_P_AMPL_AMPL, pend := false,
                             limit := s.fld Reg.PWR_THERM_STATUS Fld.PWR_THERM_STATUS_LIMIT, ceil := s.ceil n }

/-! ### The receive chain (R133, R142, R146) -/

/-- Whether a role keeps a receive chain running in STANDBY (R133). -/
def listensInStandby (role : Nat) : Bool := decide (3 ≤ role) && decide (role ≤ 5)

/-- Whether the receive chain of port `n` runs (R133). A sniff ping powers it for the ping alone. -/
def State.chainOn (s : State) (n : Nat) : Bool :=
  match (s.pf n).radio with
  | .off => false
  | .standby => listensInStandby (s.role n)
  | _ => true

/-- Whether the external field that the chain of port `n` supplies is at or above RFCA_THR (R142, R207). -/
def State.extField (s : State) (n : Nat) : Bool :=
  s.chainOn n && decide ((s.pp n).extLevel ≤ s.fld Reg.PRO_ACTIVE Fld.PRO_ACTIVE_RFCA_THR)

/-- The receiver of port `n` IDLE: its window is closed, AFC thawed (R171), columns held back are taken up at the next opening. -/
def State.rxIdle (s : State) (n : Nat) : State :=
  (s.modR n fun x => { x with state := .idle, captured := false, blanked := false, listening := false, calmFrom := s.time }).setFld
    (Reg.RXE_P_AFC n) Fld.RXE_P_AFC_FROZEN 0

/-- The receiver of port `n` ARMED again in the window that stays open (R146): what is acquired next is a new frame. -/
def State.rearm (s : State) (n : Nat) (isCapture : Bool) : State :=
  s.modR n fun x => { x with state := .armed, captured := isCapture, blanked := false, calmFrom := s.time }

/-- The receiver of a port that listens without a modulation of its own (R146): active target, and emulation. -/
def State.listen (s : State) (n tech rate : Nat) : State :=
  let t := s.armListen n
  t.modR n fun x => { x with
    state := .armed, tech := tech, rate := rate, listening := true, captured := false, sofT := 0, fofs := 0,
    blanked := false, weakAtOpen := t.flag (Reg.RXE_P_CANCEL_STATUS n) Fld.RXE_P_CANCEL_STATUS_WEAK,
    openAt := s.time, modEnd := s.time }

/-- An active target listens (R208). The rate at which it does is not stated: a free choice among 106, 212 and 424 kbit/s. -/
def State.listenTarget (s : State) (n : Nat) : State :=
  let f := s.takeFreeWord
  f.1.listen n 5 (f.2.toNat % 3)

/-- The receive window of the exchange of port `n` opens at `e`, the end of its last modulation (R87, R146, R185). -/
def State.openWindow (s : State) (n e : Nat) : State :=
  match (s.pp n).xch with
  | none => s
  | some x =>
    let f := x.plan.frame
    (s.modF n fun y => { y with radio := .rx, txEnd := none, window := some (e + y.winLen), quietFrom := e }).modR n fun y =>
      { y with state := .armed, tech := f.rtech, rate := f.rrate, captured := false, sofT := 0, fofs := 0,
               blanked := false, weakAtOpen := s.flag (Reg.RXE_P_CANCEL_STATUS n) Fld.RXE_P_CANCEL_STATUS_WEAK,
               openAt := e, modEnd := e, listening := false }

end Sys2Proof.Machine
end

