-- ==== Sys2Proof/Machine/Sessions.lean ====
section
/-! DEFINITION. Sessions (R231-R243, R269-R275), the frames of the polling profile (R221-R229, R236, R252), the huddle's slot boundary (R89),
and what every exchange does when it ends (R70, R184, R197). -/

namespace Sys2Proof.Machine

/-! ### Opening, closing, quietening (R232-R238) -/

/-- The session of port `n` that an identification matches (R232). -/
def State.matchSess (s : State) (n tech : Nat) (ident : List Byte) : Option Nat :=
  (s.sess.find? fun x => x.2.port = n && x.2.tech = tech && decide (x.2.ident = ident) && x.2.live).map fun x => x.1

/-- Session `k` opened (R232). -/
def State.openSess (s : State) (k n tech : Nat) (ident : List Byte) (accord : Bool) : State :=
  ((s.putSess k { state := .open_, port := n, tech := tech, ident := ident, accord := accord, enrol := none, assigned := none,
                  firstSeen := s.time, lastSeen := s.time, misses := 0, benchEnd := none, dueAt := none, decision := 0,
                  replyLen := 0, undriven := false }).count 98).post 0x5010 .top 0

/-- Whether a profile frame quietens the tag of session `k` for the job of its port (R226, R229, R233, R234). -/
def Purpose.quietens : Purpose → Bool
  | .hlta | .bench | .hltb | .stayQuiet => true
  | _ => false

/-- What port `n` makes of the close of its session `k` (R233, R245): a halt or bench that is planned is not sent, and the replies of a check in
progress are ignored. -/
def State.forgetSess (s : State) (n k : Nat) (x : Session) : State :=
  s.modP n fun p =>
    let dead := p.job.any fun j => decide (j.sess = some k)
    { p with plan := p.plan.filter fun q => !(dead && q.frame.purpose.quietens)
             job := p.job.map fun j => if x.state = .check then { j with ignored := j.ignored ++ [x.ident] } else j }

/-- Session `k` leaves OPEN, QUIET or CHECK (R238): its code is to be released (R273), and it becomes FREE, or CLOSING while a lookup
of it is in flight. -/
def State.leaveSess (s : State) (k : Nat) : State :=
  match s.session k with
  | some x =>
    if x.live && decide (s.gen.phase ≠ .safe) then
      let s1 := ((s.forgetSess x.port k x).modSess k fun y => { y with state := .closing }).count 99
      let s2 := s1.post 0x5011 .top 0
      let s3 := match x.enrol with
        | some (g, c) =>
          if s.role x.port = 2 then s2.modA x.port fun a => { a with releases := a.releases ++ [(g, c)] } else s2
        | none => s2
      s3.settleSess k
    else s
  | none => s

/-- A parity error in the context of session `k` (R413). -/
def State.sessParity (s : State) (k : Nat) : State :=
  match s.session k with
  | some _ =>
    ((((s.modSess k fun y => { y with undriven := true }).leaveSess k).stick Reg.SAF_NDF Fld.SAF_NDF_SESS_PARITY).bump Reg.SAF_NDF
      Fld.SAF_NDF_SESS_PARITY_N).post 0xB003 .heart 0
  | none => s

/-- QUIET_MS of port `n`. -/
def State.quietTime (s : State) (n : Nat) : Nat := s.fld (Reg.PRO_P_POLL n) Fld.PRO_P_POLL_QUIET * 10 * msec

/-- How long a bench of DUR is recorded for (R275): 1.125 × DUR × 100 ms + 0.2 s. -/
def benchTime (dur : Nat) : Nat := dur * 1440000000 + 2560000000

/-- Session `k` has been seen (R236): its next check is due QUIET_MS later, unless a bench that follows says otherwise. -/
def State.seen (s : State) (k : Nat) : State :=
  s.modSess k fun x => { x with lastSeen := s.time, misses := 0, dueAt := some (s.time + s.quietTime x.port) }

/-- Session `k` quietened, its next check due (R233, R235, R236). -/
def State.quieted (s : State) (k : Nat) (bench : Option Nat) : State :=
  match s.session k with
  | some x =>
    let s1 := s.modSess k fun y =>
      { y with benchEnd := bench, state := if y.live then .quiet else y.state, dueAt := some (bench.getD (y.lastSeen + s.quietTime y.port)) }
    if x.live && s.flag (Reg.PRO_P_POLL x.port) Fld.PRO_P_POLL_END_MODE && decide (x.state = .open_) then s1.leaveSess k else s1
  | none => s

/-- Whether the list of port `n` holds an Accord entry for a group. -/
def State.listsGroup (s : State) (n g : Nat) : Bool :=
  anyBelow (fun e => decide (s.pollEntry n e % 16 = 5) && decide (s.pollEntry n e / 16 % 16 = g)) 16

/-- A presence check of session `k` without success (R237): the next is due QUIET_MS after this one was due (its example), or at the next
group poll where the port's list holds one for an enrolled session (R278). -/
def State.missed (s : State) (k : Nat) : State :=
  match s.session k with
  | some x =>
    if x.live then
      let m := x.misses + 1
      let s1 := s.modSess k fun y => { y with misses := min m 15, state := .quiet, dueAt := some (if y.enrol.any fun e => s.listsGroup y.port e.1 then s.time else y.dueAt.getD s.time + s.quietTime y.port) }
      if s.fld Reg.PRO_SESSION Fld.PRO_SESSION_N_GONE ≤ m then s1.leaveSess k else s1
    else s
  | none => s

/-! ### Codes (R269-R273) -/

/-- The lowest-numbered free code of a group on port `n` (R270). -/
def State.freeCode (s : State) (n g : Nat) : Option Nat :=
  if s.flag (Reg.PRO_P_POLL n) Fld.PRO_P_POLL_END_MODE then none
  else firstFrom (fun c => allBelow (fun m =>
    !(decide (m = n) || (s.flag Reg.ACD_CTRL Fld.ACD_CTRL_SCOPE && s.areNeigh n m)) || (!s.codeHeld m g c && !s.codeQuar m g c)) 16) 0 8

/-- The code of a session that stays open withdrawn: into quarantine (R272). -/
def State.withdraw (s : State) (k : Nat) : State :=
  match s.session k with
  | some x =>
    let s1 := match (match x.enrol with
        | some gc => some gc
        | none => x.assigned) with
      | some (g, c) => s.quarantine x.port g c x.benchEnd
      | none => s
    s1.modSess k fun y => { y with enrol := none, assigned := none }
  | none => s

/-- MASK of a group poll of port `n` (R276). -/
def State.pollMask (s : State) (n g : Nat) : Nat :=
  maskOf (fun c => s.sess.any fun x => x.2.port = n && x.2.live && decide (x.2.enrol = some (g, c))) 8

/-- Lmax of a group poll (R277). -/
def State.pollLmax (s : State) (n g sel : Nat) : Nat :=
  if sel = 0 then 11
  else s.sess.foldl (fun m (x : Nat × Session) => if x.2.port = n && x.2.live && (x.2.enrol.any fun e => e.1 = g) then max m x.2.replyLen else m) 0

/-! ### Profile frames -/

/-- A profile frame. -/
def profFrame (tech rate : Nat) (data : List Byte) (lastBits : Nat) (crc resp anticoll : Bool) (p : Purpose) : Frame :=
  { tech := tech, rate := rate, rtech := tech, rrate := rate, crcTx := crc, crcRx := crc && resp, resp := resp, anticoll := anticoll,
    hold := false, len := data.length, lastBits := lastBits, tag := 0xFFFF, win := 0, scale := 0, delay := 0, limit := 0, data := data,
    purpose := p }

/-- SEL of a cascade level (R223). -/
def selByte (level : Nat) : Byte := if level = 1 then 0x93 else if level = 2 then 0x95 else 0x97

/-- A number from bits, least significant first. -/
def ofBits : List Bool → Nat
  | [] => 0
  | b :: t => bnat b + 2 * ofBits t

/-- Bytes of a bit list, least significant first; a short last group fills the low bits. -/
def bitBytes : Nat → List Bool → List Byte
  | 0, _ => []
  | k + 1, l => if l = [] then [] else byte (ofBits (l.take 8)) :: bitBytes k (l.drop 8)

/-- The eight bits of a byte, least significant first. -/
def byteBits (b : Byte) : List Bool := (List.range 8).map fun i => b.toNat.testBit i

/-- The exclusive or of bytes: BCC (R223). -/
def bcc (l : List Byte) : Byte := l.foldl (fun a b => a ^^^ b) 0

/-- The four bytes of a cascade level of an identifier (R224). -/
def levelBytes (ident : List Byte) (level : Nat) : List Byte :=
  let rest := ident.drop (3 * (level - 1))
  if rest.length ≤ 4 then rest.take 4 else (0x88 : Byte) :: rest.take 3

/-- An identifier's bytes that a cascade level adds (R224). -/
def levelAdds (lvl : List Byte) (more : Bool) : List Byte := if more then lvl.drop 1 else lvl

/-- The list entry that port `n` runs. -/
def State.entryWord (s : State) (n : Nat) : Nat :=
  match (s.pp n).job with
  | some j => j.entry
  | none => 0

/-- The list that the registers name for port `n`. -/
def State.listAsked (s : State) (n : Nat) : Nat := s.fld (Reg.PRO_P_POLL n) Fld.PRO_P_POLL_LIST

/-- The frame of a purpose for the job of port `n` (R223, R229, R236, R252). -/
def State.jobFrame (s : State) (n : Nat) (j : Job) (p : Purpose) : Frame :=
  let afi := match j.work with
    | .discover => j.entry / 0x100000 % 256
    | _ => 0
  let code := match j.sess with
    | some k => match s.session k with
      | some x => match x.enrol with
        | some gc => gc
        | none => x.assigned.getD (0, 0)
      | none => (0, 0)
    | none => (0, 0)
  match p with
  | .reqa => profFrame 0 0 [if j.wake then 0x52 else 0x26] 7 false true false p
  | .anticoll =>
    let k := j.sel.known.length
    profFrame 0 0 ([selByte j.sel.level, byte ((2 + k / 8) * 16 + k % 8)] ++ bitBytes 5 j.sel.known) (k % 8) false true true p
  | .select => profFrame 0 0 ([selByte j.sel.level, 0x70] ++ j.sel.lvl ++ [bcc j.sel.lvl]) 0 true true false p
  | .hlta => profFrame 0 0 [0x50, 0x00] 0 true false false p
  | .enrol =>
    { profFrame 6 0 [0xAC, byte (code.1 % 16 + 16 * (code.2 % 8)), byte (s.fld (Reg.ACD_P_ENROL n) Fld.ACD_P_ENROL_LEN)] 0 true true false p
      with rtech := 0 }
  | .bench =>
    profFrame 6 0 [0xAE, 0, 0, byte (if j.surplus then s.fld Reg.PRO_SESSION Fld.PRO_SESSION_OVERFLOW_BENCH
      else s.fld (Reg.PRO_P_POLL n) Fld.PRO_P_POLL_BENCH)] 0 true false false p
  | .accPoll =>
    let sel := match j.work with
      | .accord _ x => x
      | _ => 0
    { profFrame 6 0 [0xAD, byte j.group, byte j.codes, byte sel] 0 true true false p with
      limit := 1236 + (53 + 8 * s.pollLmax n j.group sel + 1) * 124 }
  | .relSel => profFrame 6 0 [0xAF, 0, 0] 0 true false false p
  | .relGroup => profFrame 6 0 [0xAF, byte (j.group % 16 + 128), byte j.codes] 0 true false false p
  | .benchGroup =>
    profFrame 6 0 [0xAE, byte (j.group % 16 + 128), byte j.codes, byte (s.fld (Reg.PRO_P_POLL n) Fld.PRO_P_POLL_BENCH)] 0 true false false p
  | .reqb =>
    let nc := if j.slots = 16 then 4 else if j.slots = 8 then 3 else if j.slots = 4 then 2 else if j.slots = 2 then 1 else 0
    profFrame 1 0 [0x05, byte afi, byte (nc + if j.wake then 8 else 0)] 0 true true false p
  | .slotMark => profFrame 1 0 [byte (16 * (j.slot - 1) + 5)] 0 true true false p
  | .hltb => profFrame 1 0 ((0x50 : Byte) :: j.ident) 0 true true false p
  | .sensf => profFrame 2 1 [6, 0, 0xFF, 0xFF, 0, byte j.slots] 0 true true false p
  | .invent =>
    let m := j.mask
    profFrame 3 0 ([byte (0x06 + (if j.slots = 1 then 0x20 else 0) + if afi = 0 then 0 else 0x10), 0x01]
      ++ (if afi = 0 then [] else [byte afi]) ++ [byte m.length] ++ bitBytes 8 m) 0 true true false p
  | .invSlot => profFrame 3 0 [] 0 false true false p
  | .stayQuiet => profFrame 3 0 ([0x22, 0x02] ++ j.ident) 0 true false false p
  | .resetReady => profFrame 3 0 ([0x22, 0x26] ++ j.ident) 0 true true false p
  | .host => profFrame 0 0 [] 0 false false false p

/-- A job as it begins. -/
def Job.fresh0 (w : Work) (tech : Nat) : Job :=
  { work := w, entry := 0, tech := tech, next := none, wake := false, found := 0, abandoned := 0,
    sel := { level := 1, known := [], uid := [], lvl := [], sak := 0 }, slots := 1, slot := 1, collided := false, fresh := false,
    rounds := 0, masks := [], mask := [], sess := none, surplus := false, ident := [], accord := false, code := none, quiet := [], ignored := [],
    woken := [],
    codes := 0, group := 0 }

/-- The state with the job of port `n` set. -/
def State.setJob (s : State) (n : Nat) (j : Option Job) : State := s.modP n fun x => { x with job := j }

/-- Whether session `k` is in OPEN, QUIET or CHECK. -/
def State.sessLive (s : State) (k : Nat) : Bool := (s.session k).any fun x => x.live

/-- The profile frame that is next on port `n` (R197): its purpose, held until the Keeper has accepted the identifier (R233). -/
def State.nextPurpose (s : State) (n : Nat) : Option Purpose :=
  match (s.pp n).job with
  | some j => match j.next with
    | some p => if p.quietens && (j.sess.any fun k => s.sessLive k && !s.accepted k) then none else some p
    | none => none
  | none => none

/-! ### Due checks (R217, R236, R278) -/

/-- Sessions of port `n` whose check is due, oldest first. -/
def State.dueChecks (s : State) (n : Nat) : List Nat :=
  (sortBy (fun x => (x.2.dueAt.getD 0)) (s.sess.filter fun x => x.2.port = n && decide (x.2.state = .quiet)
    && (x.2.dueAt.any fun t => decide (t ≤ s.time)) && !(x.2.enrol.any fun e => s.listsGroup n e.1))).map fun x => x.1

/-- The check of session `k` begun on port `n` (R236). -/
def State.startCheck (s : State) (n k : Nat) : State :=
  match s.session k with
  | none => s
  | some x =>
    match x.enrol with
    | some (g, _) =>
      s.setJob n (some { Job.fresh0 (.accord g 0) 6 with next := some .accPoll, group := g, codes := s.pollMask n g })
    | none =>
      let j := { Job.fresh0 (.check k) x.tech with wake := true, sess := some k, ident := x.ident, accord := x.accord }
      if x.tech = 1 ∨ x.tech = 2 then
        let s1 := (s.dueChecks n).foldl (fun t i => t.modSess i fun y => if y.tech = x.tech then { y with state := .check } else y) s
        s1.setJob n (some { j with next := some (if x.tech = 1 then .reqb else .sensf), slots := if x.tech = 1 then 16 else 15, sess := none })
      else
        (s.modSess k fun y => { y with state := .check }).setJob n
          (some { j with next := some (if x.tech = 3 then .resetReady else .reqa) })

/-- The list of port `n` begun anew at entry 0, as its registers name it (R222). -/
def State.newList (s : State) (n : Nat) : State :=
  s.modP n fun x => { x with job := none, paused := none, entry := 0, list := s.listAsked n }

/-- The job of port `n` has ended: a paused discovery goes on unless a further check is due (R217) or LIST has changed (R222). -/
def State.resumeJob (s : State) (n : Nat) : State :=
  match (s.pp n).paused with
  | none => s.setJob n none
  | some j =>
    match s.dueChecks n with
    | k :: _ => s.startCheck n k
    | [] => if s.listAsked n ≠ (s.pp n).list then s.newList n else s.modP n fun x => { x with job := some j, paused := none }

/-- The job of port `n` ends; a list entry that it ran has been completed (R216). -/
def State.endJob (s : State) (n : Nat) : State :=
  match (s.pp n).job with
  | none => s
  | some j =>
    match j.work with
    | .discover => s.modP n fun x => { x with job := none, paused := none, entry := (x.entry + 1) % 16 }
    | .accord _ _ =>
      if j.entry = 0 then s.resumeJob n else s.modP n fun x => { x with job := none, paused := none, entry := (x.entry + 1) % 16 }
    | _ => s.resumeJob n

/-- A discovery goes to its next round; checks that are due come first (R217). A change of LIST ends it (R222, R245). -/
def State.newRound (s : State) (n : Nat) (j : Job) : State :=
  if decide (j.work = .discover) && decide (s.listAsked n ≠ (s.pp n).list) then s.newList n
  else match j.work, s.dueChecks n with
  | .discover, k :: _ => (s.modP n fun x => { x with paused := some j }).startCheck n k
  | _, _ => s.setJob n (some j)

/-- The job of port `n` dropped: its frames are held or failed (R233, R237). A halt or bench that was due stays owed, a check stays
due; `skip` ends the list entry (R390). -/
def State.dropJob (s : State) (n : Nat) (skip : Bool) : State :=
  match (s.pp n).job with
  | none => s
  | some j =>
    let owes := (match j.sess with
        | some k => [k]
        | none => []) ++ j.quiet.filterMap fun i => s.matchSess n j.tech i
    let owed := owes.filter fun k => match s.session k with
      | some x => decide (x.state = .open_)
      | none => false
    let back := s.sess.foldl (fun t (x : Nat × Session) => if x.2.port = n ∧ x.2.state = .check then
        t.modSess x.1 (fun y => { y with state := .quiet, dueAt := some (y.dueAt.getD s.time) }) else t) s
    let disc := match j.work with
      | .discover => true
      | .accord _ _ => decide (j.entry ≠ 0)
      | _ => false
    let mine := (s.pp n).plan.any fun p => decide (p.frame.purpose ≠ .host)
    (back.modP n fun x => { x with job := none, paused := none, plan := x.plan.filter (fun p => decide (p.frame.purpose = .host)), owed := x.owed ++ (owed.filter fun k => !x.owed.contains k),
                                   entry := if skip && disc then (x.entry + 1) % 16 else x.entry }).modX n fun x =>
      if mine then { x with waitEnd := none, deferrals := 0, retryAt := none } else x

/-! ### Identification (R226-R234, R240-R243, R274) -/

/-- A tag identified on port `n` with no session FREE (R240-R243): counted; one that is not benched enters the overflow list. -/
def State.surplusTag (s : State) (n tech : Nat) (ident : List Byte) (accord : Bool) : State :=
  let s1 := (s.bump Reg.PRO_SESS_COUNTS Fld.PRO_SESS_COUNTS_FULL).postSecCount 0x5012 0 .heart
  if accord then s1
  else if s1.overflow.length < 32 then
    let due := s.time + s.fld Reg.PRO_SESSION Fld.PRO_SESSION_OVERFLOW_BENCH * 100 * msec
    { s1 with overflow := s1.overflow ++ [{ port := n, tech := tech, ident := ident, dueAt := due }] }
  else s1.bump Reg.PRO_SESS_COUNTS Fld.PRO_SESS_COUNTS_LOST

/-- An identifier yielded on port `n` (R232): presence of a session, a session opened and submitted to the Keeper, or a surplus tag.
The answer names the session. -/
def State.identify (s : State) (n tech : Nat) (ident : List Byte) (accord : Bool) (hw : HwFault) : State × Option Nat :=
  let s0 := match hw with
    | .sessParity k => s.sessParity k
    | _ => s
  match s0.matchSess n tech ident with
  | some k => (s0.seen k, some k)
  | none =>
    match s0.lowestFree with
    | some k => ((s0.openSess k n tech ident accord).submit k hw, some k)
    | none => (s0.surplusTag n tech ident accord, none)

/-- Whether the entry that port `n` runs enrols, and its group (R218, R228). -/
def State.entryEnrols (s : State) (n : Nat) : Bool := (s.entryWord n).testBit 5
def State.entryGroup (s : State) (n : Nat) : Nat := s.entryWord n / 0x10000000 % 16

/-- What follows the final SAK of an NFC-A tag of a discovery (R226, R228, R234, R240, R270, R274). -/
def State.afterSelect (s : State) (n : Nat) (j : Job) (k : Option Nat) (accord : Bool) : State :=
  let j1 := { j with sess := k, surplus := k.isNone, abandoned := 0 }
  let put := fun (t : State) (p : Purpose) => t.setJob n (some { j1 with next := some p })
  if !accord then put s .hlta
  else match k with
    | none => put s .bench
    | some i =>
      match s.session i with
      | none => put s .bench
      | some x =>
        let disc := decide (j.work = .discover)
        let s1 := s.modA n fun a => { a with enrolTries := 0 }
        if x.enrol.isSome then
          if !disc then put s .bench
          else if s.entryEnrols n then put s1 .enrol
          else put (s.withdraw i) .relSel
        else if disc && s.entryEnrols n then
          match s.freeCode n (s.entryGroup n) with
          | some c => put (s1.modSess i fun y => { y with assigned := some (s.entryGroup n, c) }) .enrol
          | none => put (s.postSec 0x6002 n .top 0) .bench
        else put s .bench

/-- A selected tag of the NFC-A job of port `n`: its identifier is complete (R226, R232, R236, R241). -/
def State.selected (s : State) (n : Nat) (j : Job) (ident : List Byte) (sak : Nat) (hw : HwFault) : State :=
  let accord := sak.testBit 1
  match j.work with
  | .check k =>
    let s1 := match hw with
      | .sessParity q => s.sessParity q
      | _ => s
    match s1.session k with
    | some x =>
      if x.live then (s1.seen k).setJob n (some { j with next := some (if x.benchEnd.isSome then .bench else .hlta) }) else s1.endJob n
    | none => s1.endJob n
  | .overflow _ =>
    if s.lowestFree.isSome then
      let s1 := { s with overflow := s.overflow.filter fun o => !(o.port = n && decide (o.ident = ident)) }
      let r := s1.identify n 0 ident accord hw
      r.1.afterSelect n j r.2 accord
    else
      let s1 := { s with overflow := s.overflow.map fun (o : OvfEntry) => if o.port = n ∧ o.ident = ident then
        { o with dueAt := s.time + s.fld Reg.PRO_SESSION Fld.PRO_SESSION_OVERFLOW_BENCH * 100 * msec } else o }
      s1.setJob n (some { j with next := some .hlta, sess := none })
  | _ =>
    let r := s.identify n 0 ident accord hw
    r.1.afterSelect n j r.2 accord

/-- The job of port `n` fails its check, or its overflow entry does not answer (R237, R241). -/
def State.jobMissed (s : State) (n : Nat) (j : Job) : State :=
  let s1 := match j.work with
    | .check k => s.missed k
    | .overflow _ => { s with overflow := s.overflow.filter fun o => !(o.port = n && decide (o.ident = j.ident)) }
    | _ => s
  s1.endJob n

/-- An NFC-A round abandoned (R225): three in succession end the entry. -/
def State.abandonRound (s : State) (n : Nat) (j : Job) : State :=
  match j.work with
  | .discover =>
    if 3 ≤ j.abandoned + 1 then (s.postSec 0x5013 n .top 0).endJob n
    else s.newRound n { j with abandoned := j.abandoned + 1, next := some .reqa, sess := none }
  | _ => s.jobMissed n j

/-- MAXT of the entry that port `n` runs. -/
def State.maxTags (s : State) (n : Nat) : Nat := s.entryWord n / 0x100 % 256

/-- Whether MAXT has been reached by `found` tags (R218). -/
def State.maxReached (s : State) (n found : Nat) : Bool := decide (0 < s.maxTags n) && decide (s.maxTags n ≤ found)

/-- The tag of the NFC-A job of port `n` has been quietened: the next round, or the end of the job (R223, R236). -/
def State.tagDone (s : State) (n : Nat) (j : Job) : State :=
  match j.work with
  | .discover =>
    if s.maxReached n (j.found + 1) then s.endJob n
    else s.newRound n { j with found := j.found + 1, next := some .reqa, sess := none, surplus := false }
  | _ => s.endJob n

/-! ### NFC-A (R223-R228, R271) -/

/-- The bits of a level as known after a reply: those sent and those received up to bit `k` (R174). -/
def mergeBits (known : List Bool) (reply : List Byte) (k : Nat) : List Bool :=
  let base := known.length / 8 * 8
  let got := (reply.map byteBits).flatten
  (List.range k).map fun i => if h : i < known.length then known[i] else (got[i - base]?).getD false

/-- The reply to an anti-collision frame (R223, R224, R225). -/
def State.anticollReply (s : State) (n : Nat) (j : Job) (res : Nat) (d : Option Delivered) (coll : Option Nat) : State :=
  let known := j.sel.known
  match d with
  | some r =>
    if res = 5 then
      match coll with
      | some c =>
        let k := known.length / 8 * 8 + c
        if 40 ≤ k then s.abandonRound n j
        else s.setJob n (some { j with next := some .anticoll, sel := { j.sel with
          known := mergeBits known r.bytes k ++ [s.flag Reg.PRO_SESSION Fld.PRO_SESSION_COLL_PREF] } })
      | none => s.abandonRound n j
    else if res = 0 then
      let l := bitBytes 5 (mergeBits known r.bytes 40)
      if r.bytes.length + known.length / 8 = 5 ∧ bcc (l.take 4) = (l[4]?).getD 0 then
        s.setJob n (some { j with next := some .select, sel := { j.sel with lvl := l.take 4 } })
      else s.abandonRound n j
    else s.abandonRound n j
  | none => s.abandonRound n j

/-- The SAK (R223, R224): a further cascade level, or the identifier is complete. -/
def State.sakReply (s : State) (n : Nat) (j : Job) (res : Nat) (d : Option Delivered) (hw : HwFault) : State :=
  match d with
  | some r =>
    match res, r.bytes with
    | 0, [b] =>
      let more := b.toNat.testBit 2
      let uid := j.sel.uid ++ levelAdds j.sel.lvl more
      if more then
        if 3 ≤ j.sel.level then s.abandonRound n j
        else
          let lv := j.sel.level + 1
          match j.work with
          | .discover | .idle | .owed | .accord _ _ =>
            s.setJob n (some { j with next := some .anticoll, sel := { j.sel with level := lv, known := [], uid := uid } })
          | _ => s.setJob n (some { j with next := some .select, sel := { j.sel with level := lv, uid := uid, lvl := levelBytes j.ident lv } })
      else s.selected n j uid b.toNat hw
    | _, _ => s.abandonRound n j
  | none => s.abandonRound n j

/-- The ENROL_ACK, or none, to an ACC_ENROL that carried `offered` as LEN (R254, R271, R292). -/
def State.enrolReply (s : State) (n : Nat) (j : Job) (offered res : Nat) (d : Option Delivered) : State :=
  match j.sess with
  | none => s.setJob n (some { j with next := some .bench })
  | some k =>
    let live := match s.session k with
      | some x => x.live
      | none => false
    if !live then s.setJob n (some { j with next := some .relSel })
    else
      let ack := match d with
        | some r => match res, r.bytes with
          | 0, [a, b] => if a = 0xAC ∧ b.toNat ≤ 32 then some b.toNat else none
          | _, _ => none
        | none => none
      match ack with
      | some cap =>
        (s.modSess k fun x => { x with enrol := x.assigned.or x.enrol, assigned := none, replyLen := min offered cap }).setJob n
          (some { j with next := some .bench })
      | none =>
        if (s.pa n).enrolTries = 0 then
          (s.modA n fun a => { a with enrolTries := 1 }).setJob n (some { j with next := some .enrol })
        else ((s.withdraw k).post 0x6001 .top 0).setJob n (some { j with next := some .relSel })

/-! ### NFC-B, NFC-F, NFC-V (R229, R230, R236) -/

/-- A tag found in a round on port `n`: identified, and kept to be quietened; `new` where no session matched (R229, R232). In a check
the session that it matches has been seen. -/
def State.foundTag (s : State) (n : Nat) (j : Job) (ident : List Byte) (quiet : Bool) (hw : HwFault) : State × Job :=
  if j.ignored.contains ident then (s, j)
  else
  let isNew := (s.matchSess n j.tech ident).isNone
  let again := isNew && s.lowestFree.isNone && (match j.work with
    | .overflow _ => s.overflow.any fun o => o.port = n && decide (o.ident = ident)
    | _ => false)
  if again then
    ({ s with overflow := s.overflow.map fun (o : OvfEntry) => if o.port = n ∧ o.ident = ident then
        { o with dueAt := s.time + s.fld Reg.PRO_SESSION Fld.PRO_SESSION_OVERFLOW_BENCH * 100 * msec } else o },
      { j with found := j.found + 1, quiet := if quiet then j.quiet ++ [ident] else j.quiet })
  else
  let s1 := match j.work with
    | .overflow _ => { s with overflow := s.overflow.filter fun o => !(o.port = n && decide (o.ident = ident)) }
    | _ => s
  let r := s1.identify n j.tech ident false hw
  let t := match r.2 with
    | some k => if j.tech = 2 ∧ r.1.accepted k then r.1.quieted k none else r.1
    | none => r.1
  (t, { j with found := j.found + 1, fresh := j.fresh || isNew, quiet := if quiet then j.quiet ++ [ident] else j.quiet })

/-- The tags still to be quietened come next; with none left, `after` (R229). -/
def State.quietNext (s : State) (n : Nat) (j : Job) (p : Purpose) (after : State → Job → State) : State :=
  match j.quiet with
  | i :: _ => s.setJob n (some { j with next := some p, ident := i, sess := s.matchSess n j.tech i })
  | [] => after s { j with sess := none }

/-- The sessions of a batched check that did not answer have missed it (R236, R237); an overflow entry whose tag did not answer, and which
therefore has not been taken out or started again, is removed (R241). -/
def State.endCheck (s : State) (n : Nat) (j : Job) : State :=
  let s1 := match j.work with
    | .check _ => s.sess.foldl (fun (t : State) (x : Nat × Session) =>
        if x.2.port = n ∧ x.2.tech = j.tech ∧ x.2.state = SessState.check then t.missed x.1 else t) s
    | .overflow _ => { s with overflow := s.overflow.filter fun o => !(o.port = n && decide (o.ident = j.woken) && decide (o.dueAt ≤ s.time)) }
    | _ => s
  s1.endJob n

/-- An NFC-B round is over, its tags quietened (R229): the next round with N doubled after collided slots, or the end. -/
def State.roundDoneB (s : State) (n : Nat) (j : Job) : State :=
  match j.work with
  | .discover =>
    if s.maxReached n j.found then s.endJob n
    else if !j.collided then s.endJob n
    else
      let rounds := if j.slots = 16 then j.rounds + 1 else 0
      if 4 ≤ rounds then s.endJob n
      else s.newRound n { j with slots := min 16 (2 * j.slots), slot := 1, collided := false, rounds := rounds, next := some .reqb }
  | _ => s.endCheck n j

/-- The reply of an NFC-B slot, or none (R229): the next slot marker, or the halts of the round. -/
def State.slotReplyB (s : State) (n : Nat) (j : Job) (res : Nat) (d : Option Delivered) (hw : HwFault) : State :=
  let r := match d with
    | some x =>
      if res = 0 ∧ (x.bytes[0]?).getD 0 = 0x50 ∧ 5 ≤ x.bytes.length then s.foundTag n j ((x.bytes.drop 1).take 4) true hw
      else (s, { j with collided := j.collided || decide (res = 2) || decide (res = 4) })
    | none => (s, j)
  if r.2.slot < r.2.slots ∧ !(decide (j.work = .discover) && r.1.maxReached n r.2.found) then
    r.1.setJob n (some { r.2 with slot := r.2.slot + 1, next := some .slotMark })
  else r.1.quietNext n r.2 .hltb (fun t q => t.roundDoneB n q)

/-- A reply of an NFC-F round (R229). -/
def State.replyF (s : State) (n : Nat) (j : Job) (res : Nat) (d : Option Delivered) (hw : HwFault) : State :=
  match d with
  | some x =>
    if res = 0 ∧ (x.bytes[1]?).getD 0 = 0x01 ∧ 10 ≤ x.bytes.length then
      let r := s.foundTag n j ((x.bytes.drop 2).take 8) false hw
      r.1.setJob n (some r.2)
    else if res = 2 ∨ res = 4 then s.setJob n (some { j with collided := true })
    else s
  | none => s

/-- An NFC-F round is over (R229). -/
def State.roundDoneF (s : State) (n : Nat) (j : Job) : State :=
  match j.work with
  | .discover =>
    let rounds := j.rounds + 1
    if s.maxReached n j.found || (!j.fresh && !j.collided) || decide (4 ≤ rounds) then s.endJob n
    else s.newRound n { j with rounds := rounds, fresh := false, collided := false, next := some .sensf }
  | _ => s.endCheck n j

/-- Masks pushed on the stack of a port, the first of them on top; a collision that would make it hold more than 16 is not followed (R230). -/
def State.pushMasks (s : State) (n : Nat) (j : Job) (l : List (List Bool)) : State × Job :=
  if l.length + j.masks.length ≤ 16 then (s, { j with masks := l ++ j.masks }) else (s.postSec 0x5013 n .top 0, j)

/-- The next mask of an NFC-V inventory, or the end of the entry (R229). -/
def State.nextMask (s : State) (n : Nat) (j : Job) : State :=
  match j.work with
  | .discover =>
    if s.maxReached n j.found then s.endJob n
    else match j.masks with
      | m :: t => s.newRound n { j with mask := m, masks := t, slot := 1, next := some .invent }
      | [] => s.endJob n
  | _ => s.endCheck n j

/-- The reply of an NFC-V slot, or none (R145, R229, R230): a UID, or a collision, seen as CRC or END = CODING, whose mask is inventoried later. -/
def State.slotReplyV (s : State) (n : Nat) (j : Job) (res : Nat) (d : Option Delivered) (hw : HwFault) : State :=
  let pref := s.flag Reg.PRO_SESSION Fld.PRO_SESSION_COLL_PREF
  let r := match d with
    | some x =>
      if res = 0 ∧ 10 ≤ x.bytes.length then s.foundTag n j ((x.bytes.drop 2).take 8) true hw
      else if res = 2 ∨ (res = 4 ∧ x.rxs0.toNat % 16 = 3) then
        if j.slots = 16 then s.pushMasks n j [j.mask ++ (List.range 4).map fun i => (j.slot - 1).testBit i]
        else s.pushMasks n j [j.mask ++ [pref], j.mask ++ [!pref]]
      else (s, j)
    | none => (s, j)
  if r.2.slot < r.2.slots then r.1.setJob n (some { r.2 with slot := r.2.slot + 1, next := some .invSlot })
  else r.1.quietNext n r.2 .stayQuiet (fun t q => t.nextMask n q)

/-! ### Replies to profile frames -/

/-- What the job of port `n` does after its frame `f` (R223-R241): `res` is RESULT, `coll` the collided data bit. A check whose session
has been closed takes no notice of the result and ends (R245). A bench is recorded for the DUR that the frame carried (R234, R275). -/
def State.jobReply (s : State) (n : Nat) (f : Frame) (res : Nat) (d : Option Delivered) (coll : Option Nat) (hw : HwFault) : State :=
  match (s.pp n).job with
  | none => s
  | some j0 =>
    let j := { j0 with next := none }
    let gone := match j.work with
      | .check k => (decide (j.tech = 0) || decide (j.tech = 3)) && (match s.session k with
        | some x => decide (x.state ≠ SessState.check)
        | none => true)
      | _ => false
    if gone then s.endJob n
    else if res = 9 ∨ res = 10 then s.dropJob n true
    else if res = 11 ∨ res = 12 then s.dropJob n false
    else match f.purpose with
      | .reqa =>
        if res = 0 ∨ res = 5 then
          match j.work with
          | .discover =>
            s.setJob n (some { j with next := some .anticoll, sel := { level := 1, known := [], uid := [], lvl := [], sak := 0 } })
          | _ =>
            let sel : SelA := { level := 1, known := [], uid := [], lvl := levelBytes j.ident 1, sak := 0 }
            s.setJob n (some { j with next := some .select, sel := sel })
        else match j.work with
          | .discover => if res = 1 then s.endJob n else s.abandonRound n j
          | _ => s.jobMissed n j
      | .anticoll => s.anticollReply n j res d coll
      | .select => s.sakReply n j res d hw
      | .hlta =>
        let s1 := match j.sess with
          | some k => s.quieted k none
          | none => s
        s1.tagDone n j
      | .bench =>
        let s1 := match j.sess with
          | some k => s.quieted k (some (s.time + benchTime (leAt f.data 3 1)))
          | none => s
        s1.tagDone n j
      | .enrol => s.enrolReply n j (leAt f.data 2 1) res d
      | .relSel =>
        let live := match j.sess with
          | some k => match s.session k with
            | some x => x.live
            | none => false
          | none => true
        s.setJob n (some (if live then { j with next := some .bench } else { j with next := some .hlta, sess := none }))
      | .relGroup => if decide (j0.next = some .relGroup) && decide (j.group + 128 = leAt f.data 1 1) && decide (j.codes = leAt f.data 2 1) then s.endJob n else s
      | .benchGroup =>
        let e := s.time + benchTime (leAt f.data 3 1)
        let s1 := s.sess.foldl (fun t (x : Nat × Session) => if x.2.port = n && x.2.live && (x.2.enrol.any fun g => g.1 = j.group && j.codes.testBit g.2)
          then t.quieted x.1 (some e) else t) s
        s1.endJob n
      | .accPoll => s
      | .reqb | .slotMark => s.slotReplyB n j res d hw
      | .hltb =>
        let s1 := match j.sess with
          | some k => s.quieted k none
          | none => s
        s1.quietNext n { j with quiet := j.quiet.tail } .hltb (fun t q => t.roundDoneB n q)
      | .sensf => if d.isSome then s.replyF n { j with next := some .sensf } res d hw else s.roundDoneF n j
      | .invent | .invSlot => s.slotReplyV n j res d hw
      | .resetReady =>
        match d with
        | some _ =>
          if res = 0 then
            match j.work with
            | .check k => (s.seen k).setJob n (some { j with next := some .stayQuiet, quiet := [j.ident] })
            | _ =>
              let r := s.foundTag n j j.ident true hw
              r.1.quietNext n r.2 .stayQuiet (fun t q => t.nextMask n q)
          else s.jobMissed n j
        | none => s.jobMissed n j
      | .stayQuiet =>
        let s1 := match j.sess with
          | some k => s.quieted k none
          | none => s
        s1.quietNext n { j with quiet := j.quiet.tail } .stayQuiet (fun t q => t.nextMask n q)
      | .host => s

/-! ### Huddles (R89) -/

/-- The huddle that the registers ask for port `n`. -/
def State.huddleAsked (s : State) (n : Nat) : Option Nat :=
  if s.flag (Reg.FLD_P_HUDDLE n) Fld.FLD_P_HUDDLE_EN then some (s.fld (Reg.FLD_P_HUDDLE n) Fld.FLD_P_HUDDLE_ID) else none

/-- Membership of port `n` brought up to date where its old and its new huddle stand at a slot boundary (R89); `at_` is a huddle that does
so although its slot state says otherwise. -/
def State.syncMember (s : State) (n : Nat) (at_ : Option Nat) : State :=
  let closed := fun (h : Option Nat) => match h with
    | none => true
    | some h => !s.slotOpen h || decide (at_ = some h)
  let cur := s.huddleOf n
  let new := s.huddleAsked n
  if decide (cur = new) || !closed cur || !closed new then s
  else
    let s1 := match cur with
      | some h => s.modH h fun x => { x with members := setBit x.members n false }
      | none => s
    match new with
    | some h => s1.modH h fun x => { x with members := setBit x.members n true }
    | none => s1

/-- Memberships of all ports brought up to date. -/
def State.syncHuddles (s : State) (at_ : Option Nat) : State := State.each (fun n t => t.syncMember n at_) 16 s

/-- Whether some member of huddle `h` still modulates, is committed to, or listens (R89). -/
def State.slotBusy (s : State) (h : Nat) : Bool :=
  anyBelow (fun m => (s.hud h).members.testBit m && ((s.pf m).window.isSome || (s.pf m).txEnd.isSome || (match (s.pf m).ramp with
    | .none | .down _ false | .biasOff _ => false
    | _ => true))) 16

/-- The slot of huddle `h` is over once its common end has passed and its last window has closed (R89). -/
def State.endSlot (s : State) (h : Nat) : State :=
  if s.slotOpen h && !s.slotBusy h && ((s.hud h).txEnd.all fun e => decide (e ≤ s.time)) then
    (s.modH h fun y => { y with txEnd := none, listening := false }).syncHuddles none
  else s

/-- The same for the huddle of port `n`. -/
def State.endListen (s : State) (n : Nat) : State :=
  match s.huddleOf n with
  | none => s
  | some h => s.endSlot h

/-! ### The end of an exchange (R70, R74, R79, R184, R197) -/

/-- Whether the field of port `n` follows a grant that is absent (R392). -/
def State.cutField (s : State) : Bool := s.flag Reg.COX_CTRL Fld.COX_CTRL_CUT_FIELD && !s.granted

/-- The return state of port `n` after a packet (R70), a field reset or a cut that waited for the end (R74, R79, R392). Under
NEXTQ any word queued, of an incomplete descriptor too, keeps the field on (R70 speaks of a frame: DESIGN CHOICE, log 74). -/
def State.returnState (s : State) (n : Nat) : State :=
  let x := s.pf n
  if !x.carrier then s.modF n fun y => { y with radio := if y.radio = .off then .off else .standby }
  else
    let s1 := s.modF n fun y => { y with radio := .field }
    if x.ramp.goesOff then s1
    else if s.field.victims.testBit n || s.cutField then s1.startOff n false
    else if x.resetAsked || x.wantOff.isSome then s1.askOff n
    else if s.role n = 3 || s.role n = 4 then s1.askOff n
    else
      let r := s.fld (Reg.FLD_P_CTRL n) Fld.FLD_P_CTRL_RETURN
      if r = 1 ∨ (r = 2 ∧ (s.pq n).tx = []) then s1.askOff n else s1

/-- The exchange of port `n` closed: its window, its receiver, its modulation; the frame's deferrals are over (R87, R184). -/
def State.closeExchange (s : State) (n tech : Nat) : State :=
  (((s.rxIdle n).modF n fun x => { x with txEnd := none, window := none, winLen := 0, quietFrom := if x.txEnd.isSome then s.time else x.quietFrom }).modP n fun x =>
    { x with xch := none, lastEnd := s.time, lastTech := tech,
             rfca := if s.role n = 3 && s.extField n then .chain else .none }).modX n fun x => { x with deferrals := 0, waitEnd := none, retryAt := none }

/-- A hold begun or ended by the end of a host exchange (R197). -/
def State.holdAfter (s : State) (n : Nat) (hold : Bool) : State :=
  s.modP n fun x => { x with holdEnd := if hold then some (s.time + s.fld (Reg.PRO_P_HOSTQ n) Fld.PRO_P_HOSTQ_HOLD_MAX * msec) else none }

/-- The codes that an ACC_RELEASE of port `n` named, once it has been sent, are no longer to be released (R273). -/
def State.released (s : State) (n : Nat) (f : Frame) (res : Nat) : State :=
  if f.purpose = .relGroup ∧ ¬ (9 ≤ res ∧ res ≤ 12) then
    s.modA n fun a => { a with releases := a.releases.filter fun r => !(decide (r.1 + 128 = leAt f.data 1 1) && (leAt f.data 2 1).testBit r.2) }
  else s

/-- The exchange in progress on port `n` ends with a result and, where one was delivered, a reception (R184, R190, R192, R196). -/
def State.endExchange (s : State) (n result : Nat) (d : Option Delivered) (coll : Option Nat) (hw : HwFault) : State :=
  match (s.pp n).xch with
  | none => s
  | some x =>
    let f := x.plan.frame
    let early := match d with
      | some r => r.early
      | none => false
    let prs := x.prs result early
    let s1 := s.closeExchange n f.tech
    let fill := fun (t : State) (tag : Nat) => match d with
      | some r => t.complete n tag r.bytes r.lastBits result prs r.rxs0 r.rxs1 r.rxs2
      | none => t.complete n tag [] 0 result prs 0 0 0
    let s2 :=
      if f.purpose = .host then (fill s1 f.tag).holdAfter n f.hold
      else
        let s3 := if d.isSome && s.flag (Reg.PRO_P_HOSTQ n) Fld.PRO_P_HOSTQ_MIRROR then fill s1 0xFFFF else s1
        (s3.released n f result).jobReply n f result d coll hw
    ((s2.returnState n).endListen n).tryOffs

/-! ### What is next on a port (R194, R197, R216) -/

/-- Whether a host descriptor can be taken on port `n` now (R194, R195, R197, R199), the order among frames apart. -/
def State.hostReady (s : State) (n : Nat) : Bool :=
  let x := s.pp n
  s.framesRun && s.flag (Reg.PRO_P_HOSTQ n) Fld.PRO_P_HOSTQ_HOST_EN && s.headWhole n && decide (x.staged = []) && !x.flushing
    && x.plan.isNone && x.xch.isNone

/-- The entry that port `n` runs next: END, the end of the list and a change of LIST return to entry 0 (R216, R222). -/
def State.nextEntry (s : State) (n : Nat) : Nat :=
  let e := (s.pp n).entry
  if s.pollEntry n e % 16 = 0 || decide (s.listAsked n ≠ (s.pp n).list) then 0 else e

/-- Whether the list entry that is next on port `n` has a frame to send. -/
def State.entryDue (s : State) (n : Nat) : Bool :=
  let w := s.pollEntry n (s.nextEntry n)
  match w % 16 with
  | 1 | 2 | 3 | 4 => true
  | 5 => decide (s.pollMask n (w / 16 % 16) ≠ 0)
  | _ => false

/-- Whether the profile of port `n` has a step due (R197, R217). -/
def State.profileDue (s : State) (n : Nat) : Bool :=
  let x := s.pp n
  s.listsRun && decide (s.role n = 2) &&
    ((s.nextPurpose n).isSome || decide ((s.pa n).releases ≠ []) || (x.job.isNone && x.waitEnd.isNone
      && (decide (x.owed ≠ []) || decide (s.dueChecks n ≠ []) || s.entryDue n)))

/-- The order of R197 at an exchange boundary: whether the next frame is to be a host frame. -/
def State.hostNext (s : State) (n : Nat) : Bool :=
  s.hostReady n && ((s.pp n).holdEnd.isSome || s.flag (Reg.PRO_P_HOSTQ n) Fld.PRO_P_HOSTQ_HOST_FIRST || !s.profileDue n)

/-- A halt or bench of the job of port `n` whose session has closed is not sent (R233): the job goes on as after it. -/
def State.skipHalt (s : State) (n : Nat) : State :=
  match (s.pp n).job with
  | none => s
  | some j =>
    if (j.next.any Purpose.quietens) && (j.sess.any fun k => !s.sessLive k) then
      let q := { j with next := none, quiet := j.quiet.tail, sess := none }
      match j.next with
      | some .hltb => s.quietNext n q .hltb (fun t i => t.roundDoneB n i)
      | some .stayQuiet => s.quietNext n q .stayQuiet (fun t i => t.nextMask n i)
      | _ => s.tagDone n { q with quiet := j.quiet }
    else s

/-- A job with the group and the codes of a release of port `n` (R273): the releases of one group share a frame. -/
def State.releaseOf (s : State) (n : Nat) (j : Job) (g : Nat) : Job :=
  { j with group := g, codes := maskOf (fun c => (s.pa n).releases.any fun r => r.1 = g && r.2 = c) 8 }

/-- The frame due next on port `n` chosen, where none is yet: the profile's (R197), a release that is due first (R273). A host frame is chosen by taking its descriptor. -/
def State.pickPlan (s0 : State) (n : Nat) : State :=
  let x0 := s0.pp n
  if x0.plan.isSome || x0.xch.isSome || x0.holdEnd.isSome || s0.hostNext n || !s0.listsRun || decide (s0.role n ≠ 2) then s0
  else
    let s := s0.skipHalt n
    let plan := fun (f : Frame) =>
      let q : Plan := { frame := f, takenAt := s.time, notBefore := 0, synSince := none, synWait := 0, heldSyn := false }
      s.modP n fun y => { y with plan := some q }
    match (s.pp n).job, (s.pa n).releases, s.nextPurpose n with
    | some j, (g, _) :: _, _ => plan (s.jobFrame n (s.releaseOf n j g) .relGroup)
    | some j, [], some p => plan (s.jobFrame n j p)
    | _, _, _ => s

/-! ### What is scheduled (R82, R94) -/

/-- The SLOW cycles of a sniff round as time (R121). -/
def State.roundTime (s : State) : Nat := ((s.fld Reg.TUN_SNIFF Fld.TUN_SNIFF_INTERVAL_MS * 32768 + 500) / 1000) * 390625

/-- The earlier of two times, where there are any. -/
def sooner (a b : Option Nat) : Option Nat :=
  match a, b with
  | some x, some y => some (min x y)
  | some x, none => some x
  | none, y => y

/-- When the next modulation or receive window of port `n` is scheduled (R82, R94), as far as what the port has planned, what its profile owes
and what its timers say determines it: a frame no earlier than its guard, its delay and its retry allow, a field-on no earlier than R74
and the next bin allow, a ping of a port in sniff role. -/
def State.nextSched (s : State) (n : Nat) : Option Nat :=
  let x := s.pf n
  let p := s.pp n
  let rest := max s.time (max (x.guardEnd.getD 0) (x.resetEnd.getD 0))
  let on := max s.time (max x.notBefore (if s.dutyAdmits n then 0 else (s.field.bin + 1) * msec))
  let polls := s.listsRun && decide (s.role n = 2)
  let checks := s.sess.filterMap fun q => if q.2.port = n ∧ q.2.state = .quiet then q.2.dueAt else none
  let woken := s.overflow.filterMap fun o => if o.port = n then some o.dueAt else none
  [ p.plan.map fun q => max rest (max (s.frameDue n q) ((s.px n).retryAt.getD 0)),
    if x.txEnd.isSome && p.xch.isNone then some (max s.time x.txFrom) else none,
    x.wantOff.map fun _ => s.time,
    x.wantOn.map fun _ => on,
    x.resetEnd.map (max s.time),
    if x.pend && x.carrier then some rest else none,
    if p.plan.isNone && p.xch.isNone && (s.profileDue n || s.hostReady n) then some rest else none,
    if polls then p.waitEnd.map (max s.time) else none,
    if polls then (checks ++ woken).foldl (fun (m : Option Nat) t => sooner m (some (max s.time t))) none else none,
    if s.role n = 1 then some (if s.tun.todo.contains n then s.time else max s.time (s.tun.lastRound + s.roundTime)) else none,
    (s.pt n).confirmAt.map (max s.time) ].foldl sooner none

/-- Whether port `n` would modulate or enter a receive window by `te`. -/
def State.actsBy (s : State) (n te : Nat) : Bool :=
  s.windowBefore n te || ((s.nextSched n).any fun t => decide (t ≤ te)) || ((s.modulations n).any fun i => decide (i.1 ≤ te))

/-- Whether an idle gap of `d` lies ahead on port `n` (R94): no exchange, ramp, transition or code change in progress, and nothing
scheduled within it. -/
def State.gapAhead (s : State) (n d : Nat) : Bool :=
  (s.pp n).xch.isNone && !s.actsBy n (s.time + d - 1) && decide ((s.pf n).ramp = .none)

end Sys2Proof.Machine
end

