-- ==== Sys2Proof/Machine/Access.lean ====
section
/-! DEFINITION. What a host write does to the fields of a register (R10-R14, R43-R48, R54): access codes, locks, governed fields, values
out of range, the clamp marks. -/

namespace Sys2Proof.Machine

/-- Whether the lock bit of block `b` is set (R12, R43). -/
def State.lockedBlock (s : State) (b : Nat) : Bool := decide (b ≠ 0x10) && s.flag (b * 0x10000 + 4) Fld.LOCK

/-- Whether EXPERT_EN is 1 where the register at `a` belongs (R43, R46). -/
def State.expertOn (s : State) (a : Nat) : Bool := s.flag (expertAddr (a / 0x10000) (pageOf a)) Fld.EXPERT_EN

/-- What a write of `v` makes of one field of the word `w`: by its access code (R10), kept where it is locked (R12), governed by a
profile (R46, R47), or the value is not accepted. -/
def FieldRow.write (isLocked gov : Bool) (v w : Word) (f : FieldRow) : Word :=
  let x := f.f.get v
  match f.acc with
  | .ro | .wo | .rwA => w
  | .w1c => w &&& ~~~(v &&& f.f.mask)
  | .w1s => w ||| (v &&& f.f.mask)
  | .rw => if gov || decide (x < f.min) || decide (f.max < x) then w else f.f.set w x
  | .rwL => if isLocked || gov || decide (x < f.min) || decide (f.max < x) then w else f.f.set w x

/-- A register's word after a write. -/
def RegRow.write (r : RegRow) (isLocked gov : Bool) (w v : Word) : Word := r.fields.foldl (fun t f => f.write isLocked gov v t) w

/-- Whether a write is refused and counted (R12): to a locked rw-L field or an rw-A field. -/
def RegRow.refuses (r : RegRow) (isLocked : Bool) : Bool :=
  r.fields.any fun f => match f.acc with
    | .rwA => true
    | .rwL => isLocked
    | _ => false

/-- Whether the values written together are refused beyond their fields' own ranges: a carrier trim outside ±7,000 Hz (R54). -/
def valueRefused (a : Nat) (v : Word) : Bool :=
  if a = Reg.FLD_FC_TRIM then
    let t := signed 15 (Fld.FLD_FC_TRIM_OFFSET.get v)
    decide (t < -7000) || decide (7000 < t)
  else false

/-- The state with CLAMPED set where the register at `a` belongs (R48). -/
def State.clampMark (s : State) (a : Nat) : State :=
  s.stick (expertAddr (a / 0x10000 % 32) (pageOf a)) Fld.EXPERT_CLAMPED

/-- CLAMPED set where the value now in the register at `a` lies beyond the regulatory lock (R48, R54, R59, R65, R73). -/
def State.clampCheck (s : State) (a : Nat) : State :=
  let beyond :=
    if a = Reg.FLD_FC_TRIM then
      let t := signed 15 (s.fld a Fld.FLD_FC_TRIM_OFFSET)
      decide (t < signed 15 (s.fld Reg.COX_REG_TRIM Fld.COX_REG_TRIM_TRIM_MIN))
        || decide (signed 15 (s.fld Reg.COX_REG_TRIM Fld.COX_REG_TRIM_TRIM_MAX) < t)
    else if a = Reg.FLD_GUARD then
      decide (s.fld a Fld.FLD_GUARD_GT_ON < s.fld Reg.COX_REG_GLOBAL Fld.COX_REG_GLOBAL_GT_FLOOR)
    else match pageOf a with
      | some n =>
        (decide (a = Reg.FLD_P_AMPL n) && decide (s.ceil n < s.fld a Fld.FLD_P_AMPL_AMPL))
          || (decide (a = Reg.TUN_P_SNIFF n) && decide (s.ceil n < s.fld a Fld.TUN_P_SNIFF_AMPL))
          || (decide (a = Reg.FLD_P_RELAY n) && isRelay n && decide (s.ceil n < s.fld a Fld.FLD_P_RELAY_PA_VC))
      | none => false
  if beyond then s.clampMark a else s

/-- Whether a field of a register would keep its value for being out of range. -/
def RegRow.badValue (r : RegRow) (gov : Bool) (v : Word) : Bool :=
  !gov && r.fields.any fun f => match f.acc with
    | .rw | .rwL => decide (f.f.get v < f.min) || decide (f.max < f.f.get v)
    | _ => false

/-- A write of `v` to the fields of the register at `a`: the held word, the count of refused writes, the clamp marks. A write that is
refused, or that the profile in force keeps out, changes nothing beside the count (R12, R47). -/
def State.writeReg (s : State) (a : Nat) (v : Word) : State :=
  match findRow a with
  | none => s
  | some r =>
    let b := a / 0x10000
    let isLocked := s.lockedBlock b
    let s1 := if r.refuses isLocked then s.refuse b else s
    let gov := r.gov && !s.expertOn a
    let w := r.write isLocked gov (s.reg a) v
    if valueRefused a v then s1
    else if r.refuses isLocked || gov || (r.badValue gov v && decide (w = s.reg a)) then s1.setReg a w
    else (s1.setReg a w).clampCheck a

/-- Whether a write would be refused by a lock (R12): for registers whose write has an effect beyond its fields. -/
def State.writeRefused (s : State) (a : Nat) : Bool :=
  match findRow a with
  | some r => r.refuses (s.lockedBlock (a / 0x10000))
  | none => true

end Sys2Proof.Machine
end

