-- ==== Sys2Proof/Machine/Tag.lean ====
section
/-! DEFINITION. What the emulated tag shares with the rest (R362-R380): the NV image and the counter cells, syncs, leaving ACTIVE, and
starting and stopping with the phase and the role of its port. -/

namespace Sys2Proof.Machine

/-- The state with EMU changed. -/
def State.modE (s : State) (f : EmuSt → EmuSt) : State := { s with emu := f s.emu }

/-! ### The NV area (R374) -/

/-- `n` bytes of the NV area. -/
def State.nvRead (s : State) (a n : Nat) : List Byte := Sparse.read s.emu.nv 0xFF a n

/-- The state with bytes written into the NV area. -/
def State.nvWrite (s : State) (a : Nat) (b : List Byte) : State := s.modE fun x => { x with nv := Sparse.write x.nv 0xFF a b }

/-- Where image slot X (0) or Y (1) begins. -/
def slotBase (k : Nat) : Nat := if k = 0 then 0x100 else 0x600

/-- CHECK of an image of 1,088 bytes (R374). -/
def imageCheck (k : Nat) (b : List Byte) : Nat := crc32cFold k (b.take 60 ++ (b.drop 64).take 1024)

/-- Whether slot `k` is valid. -/
def State.imageOk (s : State) (k : Nat) : Bool :=
  let b := s.nvRead (slotBase k) 1088
  decide (b.take 4 = [0x4B, 0x59, 0x45, 0x4D]) && decide (leAt b 60 4 = imageCheck k b)

/-- IMG_SEQ of slot `k`. -/
def State.imageSeq (s : State) (k : Nat) : Nat := leAt (s.nvRead (slotBase k) 8) 4 4

/-- The slot in force: the valid one with the higher IMG_SEQ. -/
def State.imageInForce (s : State) : Option Nat :=
  match s.imageOk 0, s.imageOk 1 with
  | true, true => if s.imageSeq 0 < s.imageSeq 1 then some 1 else some 0
  | true, false => some 0
  | false, true => some 1
  | false, false => none

/-- An image as a sync writes it (R374, R375). -/
def makeImage (k seq : Nat) (uid : List Byte) (flags : Nat) (data : List Byte) : List Byte :=
  let h := [0x4B, 0x59, 0x45, 0x4D] ++ leBytes 4 seq ++ uid ++ [byte flags] ++ List.replicate 44 0
  h ++ leBytes 4 (crc32cFold k (h ++ data)) ++ data

/-- The seven bytes of the UID (R362). -/
def State.emuUid (s : State) : List Byte := wordBytes (s.reg Reg.EMU_UID_LO) ++ (wordBytes (s.reg Reg.EMU_UID_HI)).take 3

/-- BENCH_EN in force: the register's, in harvest the image's (R373). -/
def State.benchEn (s : State) : Bool :=
  if s.emu.harvest then
    match s.imageInForce with
    | some k => (leAt (s.nvRead (slotBase k) 16) 15 1).testBit 0
    | none => false
  else s.flag Reg.EMU_CTRL Fld.EMU_CTRL_BENCH_EN

/-- A sync started (R375): to the slot not in force, with IMG_SEQ one above. With no slot in force the spec states neither: free. -/
def State.beginSync (s : State) : State :=
  let f := s.takeFreeWord
  let flags := bnat (s.flag Reg.EMU_CTRL Fld.EMU_CTRL_BENCH_EN) + 2 * bnat (s.flag Reg.EMU_CTRL Fld.EMU_CTRL_HARV)
  let data := Sparse.read s.emu.data 0 0 1024
  match s.imageInForce with
  | some k => s.modE fun x => { x with sync := some { slot := 1 - k, bytes := makeImage (1 - k) ((s.imageSeq k + 1) % 2 ^ 32) s.emuUid flags data } }
  | none =>
    let k := f.2.toNat % 2
    f.1.modE fun x => { x with sync := some { slot := k, bytes := makeImage k (f.2.toNat / 2) s.emuUid flags data } }

/-- A sync asked for: now, or after the one that runs (R375, R382). -/
def State.askSync (s : State) : State := if s.emu.sync.isSome then s.modE fun x => { x with syncAgain := true } else s.beginSync

/-- The automatic sync of R375. -/
def State.autoSync (s : State) : State := if s.flag Reg.EMU_CTRL Fld.EMU_CTRL_AUTO_SYNC then s.askSync else s

/-! ### Counter cells (R374, R378, R379) -/

/-- A counter cell (R374): cell number `k`. -/
def makeCell (k value seq : Nat) : List Byte :=
  let b := leBytes 4 value ++ [byte seq, byte (k / 2)]
  b ++ leBytes 2 (crcA (byte k :: b))

/-- Whether cell `k` is valid. -/
def State.cellOk (s : State) (k : Nat) : Bool :=
  let b := s.nvRead (8 * k) 8
  decide (leAt b 6 2 = crcA (byte k :: b.take 6)) && decide (leAt b 5 1 = k / 2)

/-- VALUE and SEQ of cell `k`. -/
def State.cellVal (s : State) (k : Nat) : Nat × Nat := let b := s.nvRead (8 * k) 8; (leAt b 0 4, leAt b 4 1)

/-- The cell whose value counter `c` recovers (R379), none where neither is valid. -/
def State.ctrCell (s : State) (c : Nat) : Option Nat :=
  match s.cellOk (2 * c), s.cellOk (2 * c + 1) with
  | true, true => if (s.cellVal (2 * c)).1 < (s.cellVal (2 * c + 1)).1 then some (2 * c + 1) else some (2 * c)
  | true, false => some (2 * c)
  | false, true => some (2 * c + 1)
  | false, false => none

/-- VALUE and SEQ of counter `c` in force. -/
def State.ctrVal (s : State) (c : Nat) : Option (Nat × Nat) := (s.ctrCell c).map s.cellVal

/-- SAT of counter `c` set where it has reached its limit, posted once (R379). -/
def State.markSat (s : State) (c v : Nat) : State :=
  if v = 0xFFFFFFFF && !s.fldBit Reg.EMU_CTR_STATUS Fld.EMU_CTR_STATUS_SAT c then
    (s.setFldBit Reg.EMU_CTR_STATUS Fld.EMU_CTR_STATUS_SAT c true).post 0x9005 .heart 0
  else s

/-- Counter `c` recovered from its cells (R379): the losing cell rewritten. `byCore` says that CORE does it, in START. -/
def State.recoverCtr (byCore : Bool) (c : Nat) (s : State) : State :=
  match s.ctrCell c with
  | none =>
    if byCore then (s.setFldBit Reg.EMU_CTR_STATUS Fld.EMU_CTR_STATUS_BAD c true).post 0x9003 .heart 0 else s
  | some k =>
    let o := if k % 2 = 0 then k + 1 else k - 1
    let v := s.cellVal k
    let good := s.cellOk o && decide ((s.cellVal o).1 = v.1)
    let s1 := if good then s else s.nvWrite (8 * o) (makeCell o v.1 v.2)
    if byCore then
      let s2 := s1.setReg (Reg.EMU_CTR c) (word v.1)
      let s3 := if good then s2 else (s2.stickBit Reg.EMU_CTR_STATUS Fld.EMU_CTR_STATUS_REPAIRED c).post 0x9004 .top 0
      s3.markSat c v.1
    else s1

/-- Whether counter `c` can never be incremented (R379). -/
def State.ctrStuck (s : State) (c : Nat) : Bool :=
  match s.ctrVal c with
  | none => true
  | some v => decide (v.1 = 0xFFFFFFFF)

/-- An update queued (R377, R378). -/
def State.queueInc (s : State) (c : Nat) : State :=
  s.modE fun x => { x with updates := x.updates ++ [{ ctr := c, value := 0, seq := 0, step := 0, again := false }] }

/-! ### The data area (R368-R371) -/

/-- A word written into the data area, by its number. -/
def State.putData (s : State) (i : Nat) (w : Word) : State :=
  s.modE fun x => { x with data := Sparse.write x.data 0 (4 * i) (wordBytes w) }

/-- Words written from a word number upwards; `EMU.DATA` ends at word 255. -/
def State.putDatas (s : State) (i : Nat) : List Word → State
  | [] => s
  | w :: t => State.putDatas (if i < 256 then s.putData i w else s) (i + 1) t

/-- Held host writes take effect, and `HRDY` rises (R369, R382). -/
def State.releaseHeld (s : State) : State :=
  match s.emu.heldWrite with
  | some (i, ws, _) => (s.putDatas i ws).modE fun x => { x with heldWrite := none }
  | none => s

/-- A selection leaves ACTIVE for a state (R369-R371, R375). -/
def State.leaveActive (s : State) (t : TagState) : State :=
  let wasPub := s.emu.publishing
  let s1 := s.modE fun x => { x with tag := t, lockedSel := false, snapshot := none, counted := false, publishing := false }
  let s2 := s1.releaseHeld
  if wasPub then s2.autoSync else s2

/-- The tag in a state other than ACTIVE, out of whatever it was in. -/
def State.tagTo (s : State) (t : TagState) : State :=
  if s.emu.tag = .active then s.leaveActive t else s.modE fun x => { x with tag := t }

/-! ### Starting and stopping (R364, R367, R376, R380) -/

/-- Whether the main-powered tag runs (R364). -/
def State.emuDue (s : State) : Bool :=
  decide (s.gen.phase = .run) && !s.saf.safe && decide (s.role s.emuPort = 5)

/-- The tag starts from OFF (R367, R380): BENCH where a bench is retained. -/
def State.emuStart (s : State) : State :=
  let held := match s.emu.benchEnd with
    | some e => decide (s.time < e)
    | none => false
  s.modE fun x => { x with tag := if held then .bench else .idle, level := 1, fromHalt := false, harvest := false,
                           benchEnd := if held then x.benchEnd else none, cell := if held then x.cell else none }

/-- The external field at the emulation port, as the receive chain supplies it (R133, R142, R365). -/
def State.emuLevel (s : State) (n : Nat) : State :=
  if n = s.emuPort then
    let now := s.chainOn n && decide ((s.pp n).extLevel < s.fld Reg.EMU_FIELD_DET Fld.EMU_FIELD_DET_FIELD_THR)
    s.modE fun x => { x with field := now, absentSince := if now then none else some (x.absentSince.getD s.time) }
  else s

/-- The tag started or stopped with the phase and the role of its port; its receiver listens meanwhile (R146, R364). -/
def State.syncEmu (s : State) : State :=
  if s.emu.harvest then s
  else if s.emuDue && decide (s.emu.tag = .off) then (s.emuStart.emuLevel s.emuPort).listen s.emuPort 5 0
  else if !s.emuDue && decide (s.emu.tag ≠ .off) then
    (List.range 4).foldl (fun t n => if (t.pr n).listening && decide (t.role n ≠ 4) then t.rxIdle n else t) (s.tagTo .off)
  else s

end Sys2Proof.Machine
end

