-- ==== Sys2Proof/Machine/Phases.lean ====
section
/-! DEFINITION. Operating phases (R37-R40, R623): entering a phase, starting a recovery, ending it, and the safe state as CORE sees it
(R415). -/

namespace Sys2Proof.Machine

/-- The note of `PHASE_CHANGE` (R38). -/
def Phase.note : Phase → Note
  | .safe => .base
  | .recovery => .heart
  | _ => .top

/-- The test registers cleared, at each entry to TEST and when it is left (R42). -/
def State.clearTest (s : State) (p : Phase) : State :=
  if p = .test ∨ s.gen.phase = .test then (s.setReg Reg.GEN_TEST_CTRL 0).setReg Reg.GEN_TEST_LANE 0 else s

/-- A pending power request cancelled as RUN is left (R569). -/
def State.dropPower (s : State) (p : Phase) : State :=
  if p = .run then s else { s with pwr := { s.pwr with pending := none, entering := none } }

/-- The phase changed (R38): its record, and PHASE in `GEN.IRQ_STATUS`. -/
def State.toPhase (s0 : State) (p : Phase) : State :=
  let s := (s0.clearTest p).dropPower p
  ((({ s with gen := { s.gen with phase := p } }).post 0x0001 p.note 0).stick Reg.GEN_IRQ_STATUS Fld.GEN_IRQ_STATUS_PHASE).syncEmu

/-- Every port's list back at entry 0 with its frames held (R222). -/
def State.parkLists (s : State) : State :=
  State.each (fun n t => (t.dropJob n false).modP n fun x => { x with entry := 0, waitEnd := none, offWait := false }) 16 s

/-- Every field asked off (R623). -/
def State.allOff (s : State) : State := State.each (fun n t => if t.fieldOn n then t.askOff n else t.modF n fun x => { x with wantOn := none }) 16 s

/-- RLIMIT as a time. -/
def State.rlimit (s : State) : Nat := s.fld Reg.GEN_PHASE_CTRL Fld.GEN_PHASE_CTRL_RLIMIT * msec

/-- RECOVERY entered with a cause, or its cause replaced (R37, R40, R623). The fields are off for lock loss and for a wake. -/
def State.recover (s : State) (cause : Nat) : State :=
  let s1 := if s.gen.phase = .recovery then s else (s.toPhase .recovery).parkLists
  let off := decide (cause = 1) || decide (cause = 3)
  let s2 := { s1 with gen := { s1.gen with cause := cause, rlimitEnd := some (s1.time + s1.rlimit), fieldsOff := s1.gen.fieldsOff || off } }
  if off then s2.allOff else s2

/-- RUN entered (R37, R222, R418, R431, R623): fields may come on again where a frame needs one, `FAULT_N` is released and SAF
locked at the first entry, and the recent-table sweep starts (R310). -/
def State.toRun (s : State) : State :=
  let s1 := s.toPhase .run
  let s2 := { s1 with gen := { s1.gen with rlimitEnd := none, fieldsOff := false }
                      saf := { s1.saf with hasRun := true }
                      kpr := { s1.kpr with sweep := some (s1.kpr.sweep.getD 0) } }
  let s3 := if s.saf.hasRun || s.saf.safe then s2
    else (s2.setFld Reg.SAF_STATUS Fld.SAF_STATUS_FAULT_OUT 0).setFld Reg.SAF_LOCK Fld.LOCK 1
  s3.parkLists

/-- SAFE entered with a cause (R37): the recovery limit is over. -/
def State.toSafe (s : State) (cause : Nat) : State :=
  let s1 := s.toPhase .safe
  { s1 with gen := { s1.gen with cause := cause, rlimitEnd := none } }

end Sys2Proof.Machine
end

