-- ==== Sys2Proof/Machine/Tuner.lean ====
section
/-! DEFINITION. The tuner link (R104-R111), the deviation of a measured vector from its reference (R112, R113), and the search for the best
code (R115-R118). -/

namespace Sys2Proof.Machine

/-! ### The link (R104-R108) -/

/-- Whether a template verifies. -/
def State.verifies (s : State) (n : Nat) : Bool := s.flag (Reg.TUN_TPL_CTRL (s.tplOf n)) Fld.TUN_TPL_CTRL_VERIFY

/-- SETTLE_US of port `n`. -/
def State.settleTime (s : State) (n : Nat) : Nat := s.fld (Reg.TUN_P_SEARCH n) Fld.TUN_P_SEARCH_SETTLE_US * usec

/-- The end of an operation of R109 begun now on port `n`. -/
def State.opEndOf (s : State) (n : Nat) : Nat :=
  s.time + (if s.verifies n then 2 * s.linkTime n else s.linkTime n) + s.settleTime n + 20 * usec

/-- Whether a measurement of a search on port `n` whose code change runs to `te` finds its idle gap (R94, R117): with PRIORITY 1 none is
needed, since PRO starts no frame. -/
def State.searchGap (s : State) (n te : Nat) : Bool :=
  (s.pt n).search.isNone || s.flag (Reg.TUN_P_MISMATCH n) Fld.TUN_P_MISMATCH_PRIORITY
    || s.gapAhead n (max (30 * usec) (te - s.time + 5 * usec))

/-- Whether the frame of port `n` may be sent now (R109): at once with the field off, else as a modulation under lock, a guard, keep-out, grant
and blank (R55, R73, R86), in an idle gap where a search asks for it. -/
def State.codeReady (s : State) (n : Nat) : Bool :=
  let x := s.pf n
  !x.carrier || (s.pt n).opEnd.isSome
    || (decide (x.radio = .field) && decide (x.ramp = .none) && x.txEnd.isNone && x.window.isNone && x.guardEnd.isNone && (s.pp n).xch.isNone
      && s.airFree n (s.opEndOf n) 0 && s.searchGap n (s.opEndOf n))

/-- The head of the link's queue started where it waits and may start (R108, R111). -/
def State.kickLink (s : State) : State :=
  match s.tun.link with
  | [] => s
  | q :: t =>
    if q.ends.isSome || s.saf.safe || !s.codeReady q.port then s
    else
      let s1 := { s with tun := { s.tun with link := { q with ends := some (s.time + s.linkTime q.port) } :: t
                                             sent := s.tunerFrame q.port q.isRead q.code } }
      if (s.pf q.port).carrier && (s.pt q.port).opEnd.isNone then
        (((s1.endDeferral q.port).modF q.port fun x => { x with radio := .cal }).modT q.port fun x =>
          { x with opEnd := some (s.opEndOf q.port) })
      else s1

/-- A request put in its place (R108): in the order in which they were made, those of one cycle lower port first. -/
def putReq (q : LinkReq) : List LinkReq → List LinkReq
  | [] => [q]
  | x :: t =>
    if x.ends.isNone ∧ x.asked / cycle = q.asked / cycle ∧ q.port < x.port then q :: x :: t else x :: putReq q t

/-- A frame that has begun in this very cycle put back for one of a lower port requested in it (R108). -/
def State.yieldLink (s : State) (n : Nat) : State :=
  match s.tun.link with
  | q :: t =>
    if q.ends = some (s.time + s.linkTime q.port) ∧ q.asked / cycle = s.time / cycle ∧ n < q.port then
      let s1 := { s with tun := { s.tun with link := { q with ends := none } :: t } }
      if (s.pt q.port).opEnd.isSome then
        (s1.modT q.port fun x => { x with opEnd := none }).modF q.port fun x =>
          { x with radio := if x.radio = .cal then .field else x.radio, quietFrom := s.time }
      else s1
    else s
  | [] => s

/-- The code of port `n` is to be sent (R105, R108). -/
def State.sendCode (s : State) (n : Nat) : State :=
  if s.flag (Reg.TUN_P_TUNER n) Fld.TUN_P_TUNER_NONE then s
  else
    let s1 := s.yieldLink n
    let q : LinkReq := { asked := s.time, port := n, code := s.reg (Reg.TUN_P_CODE n), isRead := false, again := false, ends := none }
    ({ s1 with tun := { s1.tun with link := putReq q s1.tun.link } }).kickLink

/-- The frames of the head's port are sent: SETTLE_US runs (R109), the next request is served. -/
def State.linkDone (s : State) (n : Nat) : State :=
  (({ s with tun := { s.tun with link := s.tun.link.tail } }).modT n fun x =>
    { x with settleEnd := some (s.time + s.settleTime n) }).kickLink

/-- Whether the code bits that a tuner returned are those of the frame (R107). -/
def State.codesAgree (s : State) (n : Nat) (code got : Word) : Bool :=
  let t := s.tplOf n
  let w := s.tunerFrame n false code
  decide ((s.fieldA t).get got = (s.fieldA t).get w) && decide ((s.fieldB t).get got = (s.fieldB t).get w)

/-! ### Deviation (R112, R113) -/

/-- The two signed parts of a vector register. -/
def vecI (w : Word) : Int := signed 16 (Fld.TUN_P_VEC_I.get w)
def vecQ (w : Word) : Int := signed 16 (Fld.TUN_P_VEC_Q.get w)

/-- The square of the magnitude of a vector. -/
def vecSq (w : Word) : Nat := (vecI w * vecI w + vecQ w * vecQ w).toNat

/-- Whether one vector exceeds another, given by the squares of their magnitudes, by more than `thr` tenths of a dB:
20·log10(|V| / |R|) > thr / 10, that is (|V|²)^100 > (|R|²)^100 × 10^thr. -/
def above (a b thr : Nat) : Bool := decide (b ^ 100 * 10 ^ thr < a ^ 100)

/-- The deviation of magnitude in tenths of a dB, to the nearest, for a vector above its reference; at most 127. -/
def tenthsAbove (a b : Nat) : Nat :=
  let p := a ^ 200
  let q := b ^ 200
  ((List.range 127).filter fun j => decide (q * 10 ^ (2 * j + 1) ≤ p)).length

/-- Cosine and sine of `k` half degrees, times 10^60. -/
def halfDegrees : Nat → Int × Int
  | 0 => (10 ^ 60, 0)
  | k + 1 =>
    let v := halfDegrees k
    let c : Int := 999961923064171288737355164826983327055083217249295874267596
    let d : Int := 8726535498373934964888213973584423034027667688047014652532
    ((v.1 * c - v.2 * d) / 10 ^ 60, (v.2 * c + v.1 * d) / 10 ^ 60)

/-- V times the conjugate of R: its argument is the phase deviation. -/
def turn (v r : Word) : Int × Int := (vecI v * vecI r + vecQ v * vecQ r, vecQ v * vecI r - vecI v * vecQ r)

/-- Whether the absolute argument of a vector exceeds `k` half degrees. Differences below 10^-55 of the vector count as none. -/
def beyondHalf (t : Int × Int) (k : Nat) : Bool :=
  let h := halfDegrees k
  decide (((t.1.natAbs + t.2.natAbs) * 10 ^ 5 : Nat) < (t.2.natAbs : Int) * h.1 - t.1 * h.2)

/-- The absolute argument in degrees, to the nearest, at most 127. -/
def degrees (t : Int × Int) : Nat := ((List.range 127).filter fun j => beyondHalf t (2 * j + 1)).length

/-- Whether REF of port `n` is set (R112). -/
def State.hasRef (s : State) (n : Nat) : Bool := decide (s.reg (Reg.TUN_P_REF n) ≠ 0)

/-- Whether a measurement of port `n` is beyond threshold (R113). -/
def State.beyond (s : State) (n : Nat) (v : Word) : Bool :=
  let r := s.reg (Reg.TUN_P_REF n)
  let m := s.fld (Reg.TUN_P_MISMATCH n) Fld.TUN_P_MISMATCH_MAG_THR
  s.hasRef n && (above (vecSq v) (vecSq r) m || above (vecSq r) (vecSq v) m
    || beyondHalf (turn v r) (2 * s.fld (Reg.TUN_P_MISMATCH n) Fld.TUN_P_MISMATCH_PH_THR))

/-- DEV_MAG and DEV_PH of a measurement (R131). The argument of a vector of 0 is not stated: a free value. -/
def State.putDev (s : State) (n : Nat) (v : Word) : State :=
  let r := s.reg (Reg.TUN_P_REF n)
  let a := vecSq v
  let b := vecSq r
  let mag : Int := if b ≤ a then tenthsAbove a b else -(tenthsAbove b a : Nat)
  let t := turn v r
  let f := s.takeFreeWord
  let ph := if a = 0 then f.2.toNat else unsigned 8 (if t.2 < 0 then -(degrees t : Nat) else degrees t)
  let s1 := if a = 0 then f.1 else s
  (s1.setFld (Reg.TUN_P_STATUS n) Fld.TUN_P_STATUS_DEV_MAG (unsigned 8 mag)).setFld (Reg.TUN_P_STATUS n) Fld.TUN_P_STATUS_DEV_PH ph

/-! ### Searches (R115-R118) -/

/-- The square of |V - REF| (R115). -/
def distance (v r : Word) : Nat := ((vecI v - vecI r) * (vecI v - vecI r) + (vecQ v - vecQ r) * (vecQ v - vecQ r)).toNat

/-- D squared of a code already measured. -/
def Search.dOf (x : Search) (c : Nat) : Option Nat := (x.known.find? fun p => p.1 = c).map fun p => p.2

/-- One iteration judged (R115): a move to the better of the candidates that are measured, or the step halved. -/
def Search.judge (x : Search) (w : Nat) : Search :=
  let up := if x.code + x.step < 2 ^ w then (x.dOf (x.code + x.step)).map fun d => (x.code + x.step, d) else none
  let dn := if x.step ≤ x.code then (x.dOf (x.code - x.step)).map fun d => (x.code - x.step, d) else none
  let best := match up, dn with
    | some u, some d => if u.2 < d.2 then some u else some d
    | some u, none => some u
    | none, d => d
  match best, x.dOf x.code with
  | some b, some d => if b.2 < d then { x with code := b.1, mid := false } else { x with step := x.step / 2, mid := false }
  | _, _ => { x with step := x.step / 2, mid := false }

/-- The search of an axis of width `w` carried on to the next code to be measured, `trying`, or to its end, `trying` none (R115, R116). -/
def Search.pick : Nat → Nat → Nat → Search → Search
  | 0, _, _, x => { x with trying := none }
  | k + 1, w, limit, x =>
    if x.step = 0 then { x with trying := none }
    else if limit ≤ x.count then (if x.mid then { x.judge w with trying := none } else { x with trying := none })
    else if decide (x.code + x.step < 2 ^ w) && (x.dOf (x.code + x.step)).isNone then { x with trying := some (x.code + x.step), mid := true }
    else if decide (x.step ≤ x.code) && (x.dOf (x.code - x.step)).isNone then { x with trying := some (x.code - x.step), mid := true }
    else Search.pick k w limit (x.judge w)

/-- The code field of an axis. -/
def axisField (axis : Nat) : Field := if axis = 0 then Fld.TUN_P_CODE_CODE_A else Fld.TUN_P_CODE_CODE_B

/-- The width of an axis on port `n`. -/
def State.axisWidth (s : State) (n axis : Nat) : Nat := if axis = 0 then (s.fieldA (s.tplOf n)).width else (s.fieldB (s.tplOf n)).width

/-- A code of one axis brought into force on port `n` (R109). -/
def State.tryCode (s : State) (n axis c : Nat) : State := (s.setFld (Reg.TUN_P_CODE n) (axisField axis) c).sendCode n

/-- The search of port `n` begun (R115): the code in force is measured first. On a port with TUNER.NONE 1, on which R115 is silent, it runs
without a frame and its moves stand in CODE alone (DESIGN CHOICE, log 74). -/
def State.beginSearch (s : State) (n : Nat) : State :=
  if (s.pt n).search.isSome || !((decide ((s.pf n).radio = .field)) || decide ((s.pf n).radio = .cal)) then s
  else
    let axes := s.fld (Reg.TUN_P_SEARCH n) Fld.TUN_P_SEARCH_AXES
    let axis := if axes = 2 then 1 else 0
    let c := s.fld (Reg.TUN_P_CODE n) (axisField axis)
    let x : Search := { axis := axis, both := decide (axes = 3), step := s.fld (Reg.TUN_P_SEARCH n) Fld.TUN_P_SEARCH_STEP_INIT, code := c, known := [],
                        count := 0, trying := some c, mid := false, lastI := 0, lastQ := 0 }
    ((s.setFld (Reg.TUN_P_STATUS n) Fld.TUN_P_STATUS_SEARCHING 1).modT n fun y => { y with search := some x }).sendCode n

/-- The search of port `n` is over; the best code so far is in force. -/
def State.closeSearch (s : State) (n : Nat) (x : Search) : State :=
  let s1 := (s.setFld (Reg.TUN_P_STATUS n) Fld.TUN_P_STATUS_SEARCHING 0).modT n fun y => { y with search := none }
  if s1.fld (Reg.TUN_P_CODE n) (axisField x.axis) = x.code then s1 else s1.tryCode n x.axis x.code

/-- The best code of the axis measured so far (R129): that in force unless one is nearer to REF. -/
def Search.best (x : Search) : Nat :=
  match x.dOf x.code with
  | none => x.code
  | some d => (x.known.foldl (fun (b : Nat × Nat) p => if p.2 < b.2 then p else b) (x.code, d)).1

/-- A search abandoned as its port leaves the reader role (R129): with the best code so far in force. -/
def State.abandonSearch (s : State) (n : Nat) : State :=
  match (s.pt n).search with
  | some x => (s.closeSearch n { x with code := x.best }).post 0x3004 .top 0
  | none => s

/-- What the end of a search reports (R118). -/
def State.endSearch (t : State) (n : Nat) (z : Search) : State :=
  let v : Word := packF [(Fld.TUN_P_VEC_I, unsigned 16 z.lastI), (Fld.TUN_P_VEC_Q, unsigned 16 z.lastQ)]
  if t.beyond n v then (t.stick (Reg.TUN_P_STATUS n) Fld.TUN_P_STATUS_RETUNE_FAIL).post 0x3003 .heart 0
  else t.post 0x3002 .top 0

/-- The search of port `n` carried on after a measurement (R115-R118). -/
def State.searchOn (s : State) (n : Nat) (x : Search) : State :=
  let limit := s.fld (Reg.TUN_P_SEARCH n) Fld.TUN_P_SEARCH_SEARCH_MAX
  let y := x.pick 1024 (s.axisWidth n x.axis) limit
  match y.trying with
  | some c => (s.modT n fun t => { t with search := some y }).tryCode n y.axis c
  | none =>
    if y.both && decide (y.axis = 0) then
      let b := s.fld (Reg.TUN_P_CODE n) Fld.TUN_P_CODE_CODE_B
      let z := { y with axis := 1, both := false, code := b, known := ((y.dOf y.code).map fun d => (b, d)).toList, mid := false
                        step := s.fld (Reg.TUN_P_SEARCH n) Fld.TUN_P_SEARCH_STEP_INIT }
      let u := z.pick 1024 (s.axisWidth n 1) limit
      let s1 := s.setFld (Reg.TUN_P_CODE n) Fld.TUN_P_CODE_CODE_A y.code
      match u.trying with
      | some c => (s1.modT n fun t => { t with search := some u }).tryCode n 1 c
      | none => ((s1.closeSearch n u).sendCode n).endSearch n u
    else (s.closeSearch n y).endSearch n y

/-! ### Measurements (R102, R113-R115) -/

/-- A measured vector of port `n` (R102, R113, R114): reported, stored as REF where asked for, judged. A mismatch may start a search, at the
moment at which it is set and not later, when AUTO_RETUNE is set or RETUNE_FAIL cleared (DESIGN CHOICE, log 74). -/
def State.measuredVec (s : State) (n : Nat) (v : Word) : State :=
  let ref := (s.pt n).refNext
  let s0 := (s.setReg (Reg.TUN_P_VEC n) v).modT n fun x => { x with refNext := false, measNext := false, measAt := s.time }
  let s1 := if ref then s0.setReg (Reg.TUN_P_REF n) v else s0
  if !s1.hasRef n then s1
  else
    let a := Reg.TUN_P_STATUS n
    let s2 := s1.putDev n v
    if s2.beyond n v then
      let k := min 7 (s2.fld a Fld.TUN_P_STATUS_MISS_RUN + 1)
      let s3 := s2.setFld a Fld.TUN_P_STATUS_MISS_RUN k
      if s3.fld (Reg.TUN_P_MISMATCH n) Fld.TUN_P_MISMATCH_MISS_COUNT ≤ k ∧ s3.fld a Fld.TUN_P_STATUS_MISMATCH = 0 then
        let s4 := ((s3.setFld a Fld.TUN_P_STATUS_MISMATCH 1).stickBit Reg.TUN_MISMATCH_STATUS Fld.TUN_MISMATCH_STATUS_MISMATCH n).post
          0x3001 .heart 0
        if s4.flag (Reg.TUN_P_MISMATCH n) Fld.TUN_P_MISMATCH_AUTO_RETUNE && !s4.flag a Fld.TUN_P_STATUS_RETUNE_FAIL then s4.beginSearch n else s4
      else s3
    else (s2.setFld a Fld.TUN_P_STATUS_MISS_RUN 0).setFld a Fld.TUN_P_STATUS_MISMATCH 0

end Sys2Proof.Machine
end

