-- ==== Sys2Proof/Machine/Field.lean ====
section
/-! DEFINITION. Field engine commands (R53-R98): carrier trim and synthesiser, phase and amplitude, compensation and the thermal limiter,
ramps, guards, field reset, duty gate, matrix retry, neighbours, keep-out precedence, warm-up, and the roles as they take effect. -/

namespace Sys2Proof.Machine

/-! ### The synthesiser (R54-R56, R564, R565) -/

/-- The effective trim: OFFSET clamped to the locked window (R48, R54). -/
def State.trimDue (s : State) : Int :=
  let t := signed 15 (s.fld Reg.FLD_FC_TRIM Fld.FLD_FC_TRIM_OFFSET)
  max (signed 15 (s.fld Reg.COX_REG_TRIM Fld.COX_REG_TRIM_TRIM_MIN)) (min (signed 15 (s.fld Reg.COX_REG_TRIM Fld.COX_REG_TRIM_TRIM_MAX)) t)

/-- Lock reached (R55), at the bound of the settling at the latest: SETTLING clears; frames held for it proceed, with the wait reported
(R192). -/
def State.lockSyn (s : State) : State :=
  let s1 := (s.setFld Reg.FLD_SYN_STATUS Fld.FLD_SYN_STATUS_SETTLING 0).setFld Reg.FLD_SYN_STATUS Fld.FLD_SYN_STATUS_LOCKED 1
  let s2 := { s1 with field := { s1.field with settleEnd := none } }
  State.each (fun n t => t.modP n fun x => { x with plan := x.plan.map fun p =>
    { p with synWait := p.synUs s.settledBy, synSince := none } }) 16 s2

/-- Lock taken note of where the bound of a settling has passed (R55, R71). -/
def State.lockPast (s : State) : State := if s.settlePast then s.lockSyn else s

/-- The effective trim brought up to date: a change settles the synthesiser again, in 60 µs at most (R55). -/
def State.retrim (s : State) : State :=
  let e := unsigned 15 s.trimDue
  if s.fld Reg.FLD_SYN_STATUS Fld.FLD_SYN_STATUS_EFF_OFFSET = e then s
  else
    let s0 := s.lockPast
    let s1 := s0.setFld Reg.FLD_SYN_STATUS Fld.FLD_SYN_STATUS_EFF_OFFSET e
    if s.field.synRun then
      let s2 := (s1.setFld Reg.FLD_SYN_STATUS Fld.FLD_SYN_STATUS_SETTLING 1).setFld Reg.FLD_SYN_STATUS Fld.FLD_SYN_STATUS_LOCKED 0
      let ends := s.time + 60 * usec
      { s2 with field := { s2.field with settleEnd := if s0.locked then some ends else s0.field.settleEnd.map (max ends) } }
    else s1

/-- A write of `FLD.FC_TRIM` (R54). -/
def State.writeTrim (s : State) (v : Word) : State := (s.writeReg Reg.FLD_FC_TRIM v).retrim

/-- `FC_TRIM_WRITE` (R54). -/
def execFcTrimWrite (value : Word) (s : State) : Out := s.core fun s => s.writeTrim value

/-- `SYNTH_LOCKED` (R55): no later than the bound of its settling. -/
def execSynthLocked (s : State) : Out := s.core fun s =>
  if s.field.synRun && s.flag Reg.FLD_SYN_STATUS Fld.FLD_SYN_STATUS_SETTLING then s.lockSyn else s

/-- `SYNTH_LOCK_LOST` (R56): in RUN, the event and RECOVERY with CAUSE 1; in RECOVERY a newer cause (R40). -/
def execSynthLockLost (s : State) : Out := s.core fun s =>
  if s.locked then
    let s0 := s.lockPast
    let s1 := (s0.setFld Reg.FLD_SYN_STATUS Fld.FLD_SYN_STATUS_LOCKED 0).setFld Reg.FLD_SYN_STATUS Fld.FLD_SYN_STATUS_SETTLING 1
    match s.gen.phase with
    | .run | .recovery =>
      (((s1.stick Reg.FLD_SYN_STATUS Fld.FLD_SYN_STATUS_LOCK_LOST).post 0x2001 .heart 0)).recover 1
    | _ => s1
  else s

/-- Whether the synthesiser may stop (R565). -/
def State.synIdle (s : State) : Bool := s.allQuiet && allBelow (fun n => !listensInStandby (s.role n)) 16

/-- `SYNTH_IDLE_STOP` (R565): SYN_IDLE_MS after every port went to OFF or STANDBY, the synthesiser stops and the oscillator drops to low
drive. -/
def execSynthIdleStop (s : State) : Out := s.core fun s =>
  let ms := s.fld Reg.PWR_CLK Fld.PWR_CLK_SYN_IDLE_MS
  if s.field.synRun && s.synIdle && decide (0 < ms) then
    let t := s.advance ((s.obs.synIdleSince.getD s.time) + ms * msec)
    let t1 := (t.setFld Reg.FLD_SYN_STATUS Fld.FLD_SYN_STATUS_LOCKED 0).setFld Reg.FLD_SYN_STATUS Fld.FLD_SYN_STATUS_SETTLING 0
    { t1 with field := { t1.field with synRun := false, settleEnd := none } }
  else s

/-! ### Phase and amplitude (R57-R60) -/

/-- A write of PHASE or AMPL recorded for its application (R60): at once where it changes nothing on air. -/
def State.writePA (s : State) (n : Nat) (isAmpl : Bool) (v : Word) : State :=
  let a := if isAmpl then Reg.FLD_P_AMPL n else Reg.FLD_P_PHASE n
  let t := s.writeReg a v
  if t.fieldOn n && decide (t.reg a ≠ s.reg a) then t.modF n fun x => { x with pend := true } else t

/-- `PHASE_AMPL_WRITE` (R60). -/
def execPhaseAmplWrite (port : Port) (isAmpl : Bool) (value : Word) (s : State) : Out := s.core fun s => s.writePA port isAmpl value

/-- `PHASE_AMPL_APPLY` (R60): in FIELD, as a transition over the ASK edge time, a modulation that lock, a guard, keep-out, grant and blanks
may hold (R55, R73, R86); the codes are in force from its start. A change written in RX, which R60 does not name, is held until the port
is back in FIELD (DESIGN CHOICE, log 74). -/
def execPhaseAmplApply (port : Port) (s : State) : Out := s.core fun s =>
  let te := s.time + s.fld Reg.FLD_RAMP Fld.FLD_RAMP_ASK_EDGE * 3200
  if s.changeDue port then
    if s.airFree port te 0 then
      (((s.endDeferral port).abortStep port).applyPA port).modF port fun x => { x with paEnd := some te }
    else s.defer port
  else s

/-! ### Compensation and the thermal limiter (R61, R62, R575, R576) -/

/-- What one direct driver's update reports (R61, R62). -/
def State.compensate (s : State) (n : Nat) (m : DriverMeas) : State :=
  let a := Reg.FLD_P_COMP n
  let s1 := (s.setFld a Fld.FLD_P_COMP_TEMP m.temp.toNat).setFld a Fld.FLD_P_COMP_HEADROOM (bnat m.headroom)
  if m.missed && !m.headroom && !s.flag a Fld.FLD_P_COMP_COMP_FAIL then (s1.stick a Fld.FLD_P_COMP_COMP_FAIL).post 0x2005 .heart 0 else s1

/-- LIMIT changed (R575, R576): a fall is in force on a port in its next RF cycle, a rise as an AMPL write is. -/
def State.setLimit (s : State) (lim : Nat) : State :=
  let old := s.fld Reg.PWR_THERM_STATUS Fld.PWR_THERM_STATUS_LIMIT
  let s1 := (s.setFld Reg.PWR_THERM_STATUS Fld.PWR_THERM_STATUS_LIMIT lim).setFld Reg.PWR_THERM_STATUS Fld.PWR_THERM_STATUS_LIMITING
    (bnat (decide (lim < 1023)))
  let s2 := State.each (fun n t =>
    if t.fieldOn n && decide ((t.pf n).limit < lim) then t.modF n fun x => { x with pend := true }
    else t.modF n fun x => { x with limit := lim }) 4 s1
  if lim < old then (s2.stick Reg.PWR_THERM_STATUS Fld.PWR_THERM_STATUS_LIMITED).postSec 0x1003 0 .heart 0 else s2

/-- The dissipation of direct port `n` in 10 mW, 0 with its field off (R575). -/
def State.dissOf (s : State) (ms : List DriverMeas) (n : Nat) : Nat :=
  if s.fieldOn n then ((ms[n]?).map fun (m : DriverMeas) => m.diss).getD 0 else 0

/-- The thermal limiter's step (R575); BUDGET and HYST are in 0.05 W. -/
def State.thermal (s : State) (ms : List DriverMeas) : State :=
  let d := ((List.range 4).map (s.dissOf ms)).sum
  let temps := ms.map fun m => signed 8 m.temp.toNat
  let hot := temps.foldl max (-128)
  let s1 := (s.setReg Reg.PWR_THERM_DISS (word (leNat ((List.range 4).map fun n => byte (min 255 (s.dissOf ms n)))))).setFld
    Reg.PWR_THERM_STATUS Fld.PWR_THERM_STATUS_TJ (unsigned 8 hot)
  let tj : Int := s.fld Reg.PWR_THERM Fld.PWR_THERM_TJ_LIM
  let budget := 5 * s.fld Reg.PWR_THERM Fld.PWR_THERM_BUDGET
  let lim := s.fld Reg.PWR_THERM_STATUS Fld.PWR_THERM_STATUS_LIMIT
  if decide (budget < d) || decide (tj < hot) then s1.setLimit (lim - 16)
  else if decide (d + 5 * s.fld Reg.PWR_THERM Fld.PWR_THERM_HYST < budget) && decide (hot < tj - 5) then
    s1.setLimit (min 1023 (lim + 4))
  else s1

/-- `COMPENSATION_UPDATE` (R61, R575): at the next multiple of 100 µs. -/
def execCompensationUpdate (drivers : List DriverMeas) (s : State) : Out := s.core fun s =>
  let t := s.advance ((s.time / (100 * usec) + 1) * (100 * usec))
  let t1 := (List.range 4).foldl (fun u n => match drivers[n]? with
    | some m => u.compensate n m
    | none => u) t
  t1.thermal (drivers.take 4)

/-! ### Field-on (R63, R66, R68, R69, R73, R78, R80, R388) -/

/-- Time moved on to the earliest instant of a burst, with the request risen by then. -/
def State.atLead (s : State) (from_ : Nat) : State :=
  let on := s.flag Reg.COX_CTRL Fld.COX_CTRL_REQ_EN
  let s1 := if on then { s with obs := { s.obs with leadAt := some (s.obs.leadAt.getD s.leadFrom) } } else s
  s1.advance (max from_ s.leadEnd)

/-- The field of port `n` begins to come on (R63, R66): PA_EN on a relay port, the ramp on a direct port. -/
def State.beginOn (s : State) (n : Nat) : State :=
  let s1 := (s.endDeferral n).applyPA n
  let s2 := s1.modF n fun x =>
    { x with wantOn := none, admitted := none, txEnd := none, onSince := some s.time,
             carrier := !isRelay n, ramp := if isRelay n then .biasOn (s.time + s.biasTime n) else .up (s.time + s.rampTime) }
  ({ s2 with field := { s2.field with onInBin := setBit s2.field.onInBin n true } }).modX n fun x =>
    { x with waitEnd := none, deferrals := 0, retryAt := none }

/-- A burst of port `n` denied for want of grant (R388-R390): deferred, or failed at the 8th time. A huddle member is not kept waiting. -/
def State.coxDefer (s : State) (n : Nat) (fail : State → State) : State :=
  let k := (s.px n).deferrals + 1
  let s1 := s.count 100
  if 8 ≤ k then
    fail (((s1.bump Reg.COX_COUNTS Fld.COX_COUNTS_DENIED).post 0xA001 .heart 0).modX n fun x => { x with waitEnd := none, deferrals := 0, retryAt := none })
  else s1.modX n fun x =>
    { x with waitEnd := none, deferrals := k, retryAt := if (s.huddled n).isSome then none
                else some (s.time + s.fld Reg.COX_TIMING2 Fld.COX_TIMING2_RETRY_US * usec) }

/-- A burst of port `n` meets an absent grant at its planned start (R388). -/
def State.noGrant (s : State) (n : Nat) (fail : State → State) : State :=
  if (s.huddled n).isSome then s.coxDefer n fail
  else s.modX n fun x => { x with waitEnd := some (s.time + s.fld Reg.COX_TIMING Fld.COX_TIMING_GRANT_WAIT * usec) }

/-- A field-on of a huddled reader at its place in the slot to which it is committed (R89, R203): without the grant or under a blank it
loses its place. -/
def State.memberOn (s : State) (n : Nat) : State :=
  let x := s.pf n
  match x.txEnd with
  | some _ =>
    if (s.pp n).xch.isNone && s.onDue n then
      let t := s.atLead x.txFrom
      if t.blanked n || !t.locked then (t.modF n fun y => { y with txEnd := none }).endListen n
      else if !t.granted then ((t.modF n fun y => { y with txEnd := none }).noGrant n (fun u => u.modF n fun y => { y with wantOn := none })).endListen n
      else t.beginOn n
    else s
  | none => s

/-- A field-on of port `n` attempted now (R69): it starts, waits for the grant, or is held. -/
def State.tryOn (s : State) (n : Nat) : State :=
  let x := s.pf n
  match x.wantOn with
  | none => s
  | some since =>
    if (s.huddled n).isSome then s.memberOn n
    else if s.onDue n && (s.px n).waitEnd.isNone && (s.px n).retryAt.isNone then
      let t := (s.startSyn.atLead x.notBefore).lockPast
      if t.blanked n || !t.mayModulate n (t.time + t.rampSpan n) 0 then t.defer n
      else if !t.slotFor n since then t
      else if !t.granted then (t.defer n).noGrant n (fun u => u.modF n fun y => { y with wantOn := none })
      else t.beginOn n
    else s

/-- `FIELD_ON_RAMP_START` (R69). -/
def execFieldOnRampStart (port : Port) (s : State) : Out := s.core fun s => s.tryOn port

/-- `RELAY_BIAS_EXPIRY` (R63 step 2): the carrier starts with PA_VC at 0 V, and the ramp begins. -/
def execRelayBiasExpiry (port : Port) (s : State) : Out := s.core fun s =>
  match (s.pf port).ramp with
  | .biasOn e =>
    let t := s.advance e
    t.modF port fun x => { x with carrier := true, ramp := .up (t.time + t.rampTime) }
  | _ => s

/-- GT_ON in force, never below the locked floor (R73), and 5.0 ms at least for an active role (R207). -/
def State.guardTime (s : State) (n : Nat) : Nat :=
  let g := max (s.fld Reg.FLD_GUARD Fld.FLD_GUARD_GT_ON) (s.fld Reg.COX_REG_GLOBAL Fld.COX_REG_GLOBAL_GT_FLOOR)
  (if s.role n = 3 ∨ s.role n = 4 then max g 50 else g) * (100 * usec)

/-- `FIELD_ON_RAMP_END` (R73): the port is in FIELD and its guard runs; in an active exchange T_ARFG instead (R207). A reset, a cut or a
field-off asked for meanwhile begins now. -/
def execFieldOnRampEnd (port : Port) (s : State) : Out := s.core fun s =>
  match (s.pf port).ramp with
  | .up e =>
    let t := s.advance e
    let t1 := t.modF port fun x => { x with radio := .field, ramp := .none, quietFrom := t.time }
    let t2 := match (t.pp port).rfca with
      | .arfg _ => t1.modP port fun x => { x with rfca := .arfg (t.time + t.fc 1152) }
      | _ => (t1.modF port fun x => { x with guardEnd := some (t.time + t.guardTime port) }).modP port fun x => { x with rfca := .none }
    let t3 := if t2.cutField || t2.field.victims.testBit port then t2.startOff port false
      else if (t2.pf port).resetAsked || (t2.pf port).wantOff.isSome then t2.askOff port else t2
    (t3.endListen port).tryOffs
  | _ => s

/-- `GUARD_EXPIRY` (R73, R75). -/
def execGuardExpiry (port : Port) (s : State) : Out := s.core fun s =>
  match (s.pf port).guardEnd with
  | some e => (s.advance e).modF port fun x => { x with guardEnd := none }
  | none => s

/-- RESET_OFF as a time (R74). -/
def State.restTime (s : State) : Nat := s.fld Reg.FLD_GUARD Fld.FLD_GUARD_RESET_OFF * (100 * usec)

/-- The field of port `n` is off (R63, R69, R74): STANDBY, or OFF where the role is off; RESET_OFF begins where a reset was asked for. An
active target listens again (R208). -/
def State.fieldGone (s : State) (n : Nat) : State :=
  let isOff := decide (s.role n = 0)
  let reset := (s.pf n).resetAsked
  let restEnd := (s.pf n).offAt + s.restTime
  let s1 := s.modF n fun x =>
    { x with radio := if x.window.isSome then .rx else if isOff then .off else .standby, ramp := .none, quietFrom := s.time,
             resetAsked := false, resetEnd := if reset && !isOff then some restEnd else none,
             notBefore := if reset then max x.notBefore restEnd else x.notBefore, biasFrom := none }
  let s2 := { s1 with field := { s1.field with victims := setBit s1.field.victims n false } }
  let s3 := if s.role n = 4 then s2.listenTarget n else s2
  (s3.endListen n).tryOffs

/-- The carrier of port `n` stops at the end `e` of its field-off ramp (R63); a relay port keeps PA_EN for T_BIAS; the receive window of an
active initiator opens (R207). -/
def State.rampedOff (s : State) (n e : Nat) (before : RxOpen) : State :=
  let t := s.advance e
  let t0 := t.modF n fun x => { x with carrier := false, guardEnd := none, onSince := none, offAt := t.time, quietFrom := t.time }
  let t1 := if t.role n = 3 && ((t.pp n).xch.any fun x => x.txDone) && (t.pf n).window.isNone then (t0.armRx n before).openWindow n t.time
    else t0
  if isRelay n then
    (t1.modF n fun x => { x with ramp := .biasOff (t.time + t.biasTime n), radio := if x.window.isSome then .rx else x.radio }).endListen n
  else t1.fieldGone n

/-- The field-off ramp of a huddled reader at its place in the slot to which it is committed (R66, R89): it starts RAMP_US before the common
end and ends there; without lock or grant, or under a blank, it loses its place (R203, R206). -/
def State.memberOff (s : State) (n : Nat) (before : RxOpen) : State :=
  let t := s.advance (s.pf n).txFrom
  if t.blanked n || !t.granted || !(t.locked || t.gen.fieldsOff) then (t.modF n fun x => { x with txEnd := none }).endListen n
  else
    let u := t.startOff n true
    u.rampedOff n (t.time + t.rampTime) before

/-- `FIELD_OFF_RAMP_END` (R63): that of the ramp in progress, or of the one committed to a slot, which starts by itself. -/
def execFieldOffRampEnd (port : Port) (before : RxOpen) (s : State) : Out := s.core fun s =>
  let x := s.pf port
  match x.ramp with
  | .down e _ => s.rampedOff port e before
  | .none => if x.rampDue && x.txEnd.isSome && x.wantOff.isSome then s.memberOff port before else s
  | _ => s

/-- `RELAY_BIAS_OFF_EXPIRY` (R63 step 6). -/
def execRelayBiasOffExpiry (port : Port) (s : State) : Out := s.core fun s =>
  match (s.pf port).ramp with
  | .biasOff e => (s.advance e).fieldGone port
  | _ => s

/-! ### Field reset (R74) -/

/-- A field reset demanded (R74). -/
def State.fieldReset (s : State) (n : Nat) : State :=
  let x := s.pf n
  if x.radio = .off ∨ x.resetEnd.isSome then s
  else if s.fieldOn n && !x.ramp.goesOff then
    let s1 := s.modF n fun y => { y with resetAsked := true }
    if (decide (x.radio = .field) || decide (x.radio = .cal)) && decide (x.ramp = .none) && (s.pp n).xch.isNone then s1.askOff n else s1
  else
    let offEnd := match x.ramp with
      | .down e _ => e
      | _ => x.offAt
    s.modF n fun y => { y with notBefore := max y.notBefore (offEnd + s.restTime) }

/-- A write of `FLD.Pn.CTRL` (R74, R100). -/
def State.writeFldCtrl (s : State) (n : Nat) (v : Word) : State :=
  let t := s.writeReg (Reg.FLD_P_CTRL n) v
  if Fld.FLD_P_CTRL_FIELD_RESET.get v = 1 then t.fieldReset n else t

/-- `FIELD_RESET` (R74). -/
def execFieldReset (port : Port) (value : Word) (s : State) : Out := s.core fun s => s.writeFldCtrl port value

/-- `RESET_OFF_EXPIRY` (R74): the field comes on again. -/
def execResetOffExpiry (port : Port) (s : State) : Out := s.core fun s =>
  match (s.pf port).resetEnd with
  | some e => ((s.advance e).modF port fun x => { x with resetEnd := none }).askOn port
  | none => s

/-! ### The duty gate (R76-R80) -/

/-- How many of the low 16 bits of a mask are 1. -/
def popCount (m : Nat) : Nat := ((List.range 16).filter fun i => m.testBit i).length

/-- The ports that count as on. -/
def State.onMask (s : State) : Nat := maskOf s.fieldOn 16

/-- N for bin k + 1, from S (R77). -/
def State.dutyN (s : State) (used : Nat) : Nat :=
  let c := s.fld Reg.FLD_DUTY Fld.FLD_DUTY_CEIL_EFF
  let n := min 16 (c * 125 / 2 - used)
  if s.flag Reg.FLD_DUTY Fld.FLD_DUTY_PACE then min n ((c * 125 + 1999) / 2000) else n

/-- The order in which R79 takes victims: idle ports in FIELD with an empty queue first, then the longest on, counted in whole bins as the
example of R80 counts it, then the higher number. Among the idle ports of the first group, for which R79 gives only the tie rule, the
longest on goes first too (DESIGN CHOICE, log 74). -/
def State.victimKey (s : State) (n : Nat) : Nat :=
  let x := s.pf n
  let idle := decide (x.radio = .field) && decide ((s.pq n).tx = []) && (s.pp n).xch.isNone
  (if idle then 0 else 2 ^ 80) + (x.onSince.getD s.time) / msec * 16 + (15 - n)

/-- One surplus port chosen (R79): off at once where no exchange runs on it, a frame committed to a slot and not yet begun given up. -/
def State.cutPort (s : State) (n : Nat) : State :=
  let s1 := ((s.post 0x2002 .heart 0).count 102).stick Reg.FLD_DUTY_STATUS Fld.FLD_DUTY_STATUS_CUT
  let s2 := { s1 with field := { s1.field with victims := setBit s1.field.victims n true } }
  let x := s.pf n
  if (s.pp n).xch.isNone && !x.ramp.goesOff && x.carrier then ((s2.startOff n false).askOn n).endListen n else s2

/-- Since when port `n` waits for a field-on in bin `k` + 1 (R80): one asked for, or a ping or its repeat due by the end of that bin (R119, R124). -/
def State.onAskedAt (s : State) (n k : Nat) : Option Nat :=
  if s.role n = 1 then
    if s.tun.todo.contains n then some s.tun.lastRound
    else if ((s.pt n).confirmAt.any fun e => decide (e < (k + 2) * msec)) then (s.pt n).confirmAt
    else if s.tun.lastRound + s.roundTime < (k + 2) * msec then some (s.tun.lastRound + s.roundTime) else none
  else (s.pf n).wantOn.filter fun t => decide (t < k * msec)

/-- The ports that wait for admission to the next bin (R80): those admitted to bin `k` and not yet on first, then the longest wait. A request
made in the boundary's own cycle counts for the bin after next (R98). -/
def State.admitOrder (s : State) (k : Nat) : List Nat :=
  (sortBy (fun p => p.2) ((List.range 16).filterMap fun n =>
    (s.onAskedAt n k).map fun t => (n, (if (s.pf n).admittedTo k then 0 else 2 ^ 80) + t * 16 + n))).map fun p => p.1

/-- The number of the bin in which device time stands (R76): asleep, device time as the catch-up on wake will have it (R459). -/
def State.binNow (s : State) : Nat :=
  match s.pwr.awake with
  | .sleep | .sniff =>
    (s.pwr.sleepAt + (s.time - s.pwr.sleepAt) / 390625 * s.fld Reg.TMR_SLOW_RATE Fld.TMR_SLOW_RATE_RATE * 25) / msec
  | .reset | .running => s.field.bin

/-- The duty gate's history brought to the bin in which device time stands (R76): no port was on in the bins between. -/
def State.binsTo (s : State) : State :=
  let k := s.binNow
  if k ≤ s.field.bin then s
  else { s with field := { s.field with
      bins := (List.replicate (min 1000 (k - s.field.bin - 1)) 0 ++ popCount s.field.onInBin :: s.field.bins).take 1000
      bin := k, onInBin := 0 } }

/-- `DUTY_BIN_START` (R76-R80). -/
def execDutyBinStart (s : State) : Out := s.core fun s =>
  let k := s.field.bin + 1
  let t := s.advance (k * msec)
  let hist := (popCount s.field.onInBin :: s.field.bins).take 1000
  let onNow := t.onMask
  let adm := maskOf (fun n => (t.pf n).admittedTo k && !t.fieldOn n) 16
  let binK := popCount onNow + popCount adm
  let n := t.dutyN ((hist.take 998).sum + binK)
  let t1 := { t with field := { t.field with bins := hist, bin := k, onInBin := onNow, nNow := t.field.nNext, nNext := n } }
  let t2 := (t1.setFld Reg.FLD_DUTY_STATUS Fld.FLD_DUTY_STATUS_USED hist.sum).setFld Reg.FLD_DUTY_STATUS Fld.FLD_DUTY_STATUS_ALLOWED n
  let victims := ((sortBy (fun m => t2.victimKey m) ((List.range 16).filter fun m => onNow.testBit m)).take (popCount onNow - n))
  let t3 := victims.foldl (fun u m => u.cutPort m) t2
  if t.fld Reg.FLD_DUTY Fld.FLD_DUTY_CEIL_EFF = 256 then t3
  else
    let room := n - popCount onNow
    let chosen := (t2.admitOrder k).take room
    State.each (fun m u => u.modF m fun x =>
      { x with admitted :=
          if chosen.contains m then some (if x.admittedTo k then k else k + 1, k + 1) else if x.admittedTo k then some (k, k) else none }) 16 t3

/-! ### The coupling matrix and the neighbours (R81-R85) -/

/-- The square of the magnitude of M[i][j]; full scale is 0x4000. -/
def State.couplingSq (s : State) (i j : Nat) : Nat :=
  let m := s.coupling i j
  (m.1 * m.1 + m.2 * m.2).toNat

/-- The part of the other ports' carriers in the vector at receiver `i` while port `j` is measured (R82, R101): each field-on port's entry of
the matrix, scaled by its amplitude and turned by its phase offset, in units of 1/1023 × 2^-30. -/
def State.carriersAt (s : State) (i j : Nat) : Vec :=
  vecSum (((List.range 16).filter fun m => decide (m ≠ j) && (s.pf m).carrier).map fun m =>
    let v := rotate (s.pf m).phase (s.coupling i m)
    (v.1 * s.effAmpl m, v.2 * s.effAmpl m))

/-- Column `j` from the vectors seen by the sixteen receivers while port `j` is keyed at code 256 (R81, R82). -/
def State.keyedColumn (s : State) (j : Nat) (raw : List Word) : List Word :=
  (List.range 16).map fun i =>
    vecWord (fullScale 256 (s.fld (Reg.FLD_P_PHASE j) Fld.FLD_P_PHASE_OFFSET) (wordVec ((raw[i]?).getD 0)) (s.carriersAt i j))

/-- Column `j` from the changes that a dip of 1 dB makes at the sixteen receivers (R83). -/
def State.dippedColumn (s : State) (j : Nat) (raw : List Word) : List Word :=
  (List.range 16).map fun i => vecWord (dipScale (s.effAmpl j) (s.pf j).phase (wordVec ((raw[i]?).getD 0)))

/-- Column `j` replaced whole (R83): word `i` is M[i][j]; the weights of the measured ports follow (R137). -/
def State.setColumn (s : State) (j : Nat) (col : List Word) : State :=
  State.each (fun i t => match col[i]? with
    | some w =>
      let old := t.coupling i j
      let t1 := t.setReg (Reg.FLD_COUPLE (16 * i + j)) w
      let new := t1.coupling i j
      if t.measured i then t1.entryMoved i j (new.1 - old.1, new.2 - old.2) else t1
    | none => t) 16 s

/-- Whether row `i`, of a measured port, names port `j` as a derived neighbour (R84): 20·log10(|M[i][j]| / |M[i][i]|) ≥ −NEIGH_THR, that is
(|M[i][j]|²)^10 × 10^NEIGH_THR ≥ (|M[i][i]|²)^10. -/
def State.rowNames (s : State) (i j : Nat) : Bool :=
  let thr := s.fld Reg.FLD_KEEPOUT Fld.FLD_KEEPOUT_NEIGH_THR
  s.measured i && decide (s.couplingSq i i ^ 10 ≤ s.couplingSq i j ^ 10 * 10 ^ thr)

/-- The derived neighbour sets brought up to date (R84). -/
def State.deriveNeigh (s : State) : State :=
  State.each (fun i t => t.setFld (Reg.FLD_P_NEIGH i) Fld.FLD_P_NEIGH_DERIVED
    (maskOf (fun j => decide (i ≠ j) && (s.rowNames i j || s.rowNames j i)) 16)) 16 s

/-- Whether the own entry of port `n` is large enough (R82): at least 1/64 of full scale. -/
def State.ownEntryOk (s : State) (n : Nat) : Bool := decide (256 * 256 ≤ s.couplingSq n n)

/-- Port `n` judged measured or not from its own entry (R82); its canceller weights are set when it first is (R137). -/
def State.judgeMeasured (s : State) (n : Nat) : State :=
  if s.ownEntryOk n then
    (if s.measured n then s else s.firstWeights n).setFldBit Reg.FLD_WARMUP_STATUS Fld.FLD_WARMUP_STATUS_MEASURED n true
  else (s.setFldBit Reg.FLD_WARMUP_STATUS Fld.FLD_WARMUP_STATUS_MEASURED n false).post 0x2007 .heart 0

/-- REFRESH_S as a time. -/
def State.refreshTime (s : State) : Nat := s.fld Reg.FLD_WARMUP Fld.FLD_WARMUP_REFRESH_S * second

/-- Whether the air is idle up to `te` for the keying of port `n` (R82): no port modulates or is in a window, and no other is scheduled to. -/
def State.airIdle (s : State) (n te : Nat) : Bool :=
  allBelow (fun m => (s.modulations m).isEmpty && (s.windows m).isEmpty && (decide (m = n) || !s.actsBy m te)) 16

/-- The start of the refresh interval in which the retry of port `n` is due (R82): one that found no moment is abandoned with its interval. -/
def State.retryFrom (s : State) (n : Nat) : Nat :=
  (s.pf n).retryAt + (s.time - (s.pf n).retryAt) / s.refreshTime * s.refreshTime

/-- `MATRIX_RETRY` (R69, R82, R86): once in each interval of REFRESH_S, at a moment at which the air is idle and nothing holds a modulation, an
unmeasured port leaves OFF for STANDBY, its transmit chain biased in 15 µs, is keyed at code 256 for 20 µs and is in OFF again. A
synthesiser that stands still is started first. `column` holds what the sixteen receivers saw. -/
def execMatrixRetry (port : Port) (column : List Word) (s : State) : Out := s.core fun s =>
  let x := s.pf port
  if decide (s.gen.phase = .run) && !s.measured port && !x.carrier && decide (x.ramp = .none) then
    if !s.field.synRun then s.startSyn
    else
      let due := s.retryFrom port
      let t := s.advance (max s.time due + if x.radio = .off then 15 * usec else 0)
      let te := t.time + 20 * usec
      if t.airIdle port te && t.airFree port te 0 && decide (te ≤ due + s.refreshTime) then
        let u := (t.advance te).modF port fun y => { y with retryAt := due + s.refreshTime, quietFrom := te }
        let u1 := { u with field := { u.field with onInBin := setBit u.field.onInBin port true } }
        ((u1.setColumn port (t.keyedColumn port column)).judgeMeasured port).deriveNeigh
      else s
  else s

/-- Whether a port is in neither TX nor RX. -/
def State.outOfAir (s : State) (n : Nat) : Bool :=
  match (s.pf n).radio with
  | .tx | .rx => false
  | _ => true

/-- `NEIGHBOUR_SET_CHANGE` (R85): the membership of a pair that the registers give takes effect while neither is in TX or RX. -/
def execNeighbourSetChange (port other : Port) (s : State) : Out := s.core fun s =>
  let want := (s.neighDue port).testBit other
  if decide (port ≠ other) && decide (want ≠ s.areNeigh port other) && s.outOfAir port && s.outOfAir other then
    let v := vmod (vmod s.field.neigh 0 port (fun m => setBit m other want)) 0 other (fun m => setBit m port want)
    ({ s with field := { s.field with neigh := v } }).post 0x2004 .top 0
  else s

/-! ### Precedence (R91) -/

/-- STARVE_LIMIT as a time. -/
def State.starveLimit (s : State) : Nat := s.fld Reg.FLD_KEEPOUT Fld.FLD_KEEPOUT_STARVE_LIMIT * (100 * usec)

/-- `FLD_STARVE` (R91): the deferral reaches STARVE_LIMIT. -/
def execFldStarve (side : TxUnit) (s : State) : Out := s.core fun s =>
  match side with
  | .port n =>
    match (s.pf n).dueSince with
    | some t =>
      if (s.pf n).starved then s
      else (((s.advance (t + s.starveLimit)).modF n fun x => { x with starved := true }).post 0x2003 .top 0)
    | none => s
  | .huddle h =>
    match (s.hud h).dueSince with
    | some t =>
      if (s.hud h).starved then s
      else (((s.advance (t + s.starveLimit)).modH h fun x => { x with starved := true }).post 0x2003 .top 0)
    | none => s

/-! ### Warm-up (R93-R96) -/

/-- The duration of a warm-up step in µs (R93). -/
def stepUs (i : Nat) : Nat :=
  match i with
  | 0 => 8 | 1 => 20 | 2 => 16 | 3 => 4 | 4 => 12 | _ => 16

/-- Whether a step runs in STANDBY too (R93). -/
def stepInStandby (i : Nat) : Bool := decide (i = 0) || decide (i = 2)

/-- Whether step `i` may run on port `n` in the phase (R39, R475, R623): in RUN and TEST in an idle gap of max(30 µs, its duration + 1 µs); in
RECOVERY the steps of its cause, and those that a cross-trigger asks for, without that condition, since no frame starts. -/
def State.stepPhase (s : State) (n i : Nat) : Bool :=
  match s.gen.phase with
  | .run | .test => s.gapAhead n (max 30 (stepUs i + 1) * usec)
  | .recovery =>
    decide ((s.pf n).ramp = .none) && ((s.pf n).stepAsked.testBit i || (match s.gen.cause with
      | 1 => decide (i = 0) || decide (i = 2)
      | 2 | 3 => false
      | _ => true))
  | _ => false

/-- Whether the air lets step `i` run on port `n` up to `te` (R73, R83, R86, R94, R393): steps 1 and 5 need neighbours that begin no modulation and
enter no window meanwhile; a coupling dip is a modulation, and is due once per REFRESH_S, at the latest per WARM_MAX. -/
def State.stepAir (s : State) (n i te : Nat) : Bool :=
  let x := s.pf n
  let calm := allBelow (fun m => !s.areNeigh n m || !(((s.windowOpens m).any fun o => decide (o ≤ te))
    || ((s.nextSched m).any fun t => decide (t ≤ te)))) 16
  let period := min s.refreshTime (s.fld Reg.FLD_WARMUP Fld.FLD_WARMUP_WARM_MAX * second)
  if i = 1 then calm
  else if i = 5 then
    calm && x.guardEnd.isNone && decide (0 < s.effAmpl n) && s.airFree n te 0
      && (x.stepAsked.testBit 5 || decide (s.gen.phase = .recovery) || decide ((x.stepDone[5]?).getD 0 + period ≤ s.time))
  else true

/-- `WARMUP_STEP_START` (R94): an enabled step, on a port in FIELD or STANDBY as R93 lists it. -/
def execWarmupStepStart (port : Port) (stepNo : Fin 6) (s : State) : Out := s.core fun s =>
  let x := s.pf port
  let i := stepNo.val
  let te := s.time + stepUs i * usec
  if s.fldBit Reg.FLD_WARMUP Fld.FLD_WARMUP_STEP_EN i && (decide (i ≠ 3) || !isRelay port) && x.step.isNone
      && (decide (x.radio = .field) || (stepInStandby i && decide (x.radio = .standby))) && s.stepPhase port i && s.stepAir port i te then
    s.modF port fun y => { y with step := some (i, te), radio := if y.radio = .field then .cal else y.radio, stepAsked := setBit y.stepAsked i false }
  else s

/-- `WARMUP_STEP_DONE` (R83, R93, R138): the step ends; a coupling refresh replaces its column by what the dip changed at the sixteen receivers,
and step 1 adapts the weights over the samples of its 20 µs. -/
def execWarmupStepDone (port : Port) (column : List Word) (samples : List RxSample) (s : State) : Out := s.core fun s =>
  match (s.pf port).step with
  | some (i, e) =>
    let t := s.advance e
    let t1 := t.modF port fun x =>
      { x with step := none, radio := if x.radio = .cal then .field else x.radio, stepDone := x.stepDone.set i t.time, quietFrom := t.time }
    if i = 5 then (t1.setColumn port (t1.dippedColumn port column)).deriveNeigh
    else if i = 1 then t1.adapt port true samples
    else t1
  | none => s

/-- Whether port `n` has an enabled step that is older than WARM_MAX (R96). The time counts from START or the last completion, time spent in
OFF included (DESIGN CHOICE, log 74). -/
def State.stepLate (s : State) (n : Nat) : Bool :=
  anyBelow (fun i => s.fldBit Reg.FLD_WARMUP Fld.FLD_WARMUP_STEP_EN i && (decide (i ≠ 3) || !isRelay n)
    && decide (((s.pf n).stepDone[i]?).getD 0 + s.fld Reg.FLD_WARMUP Fld.FLD_WARMUP_WARM_MAX * second ≤ s.time)) 6

/-- `FLD_WARM_LATE` (R96): WARM_MAX has passed on a port in FIELD or STANDBY without an enabled step completed. -/
def execFldWarmLate (port : Port) (s : State) : Out := s.core fun s =>
  let bit := s.fldBit Reg.FLD_WARMUP_STATUS Fld.FLD_WARMUP_STATUS_LATE port
  if !bit && s.stepLate port && decide ((s.pf port).radio ≠ .off) then
    (s.stickBit Reg.FLD_WARMUP_STATUS Fld.FLD_WARMUP_STATUS_LATE port).post 0x2006 .heart 0
  else s

end Sys2Proof.Machine
end

