-- ==== Sys2Proof/Machine/Reception.lean ====
section
/-! DEFINITION. Receptions: bits into bytes (R173-R176), collision marks (R145), the status words (R164-R167), parity, check value and result
(R175-R178, R186, R192), and the end of whatever a port is receiving (R146, R151). -/

namespace Sys2Proof.Machine

/-! ### Bits (R145, R173-R176) -/

/-- END codes of R165 that a receiver gives by itself. -/
def rxEndNum : RxEnd → Nat
  | .eof => 0 | .coding => 3

/-- AVG of port `n` in -1/4 dBFS, -70 dBFS until it is valid (R148). -/
def State.noiseAvg (s : State) (n : Nat) : Nat :=
  if s.flag (Reg.RXE_P_NOISE n) Fld.RXE_P_NOISE_VALID then s.fld (Reg.RXE_P_NOISE n) Fld.RXE_P_NOISE_AVG else 280

/-- The floor that detection on port `n` uses, in -1/4 dBFS (R148, R281). -/
def State.detectFloor (s : State) (n : Nat) : Nat :=
  if (s.pr n).tech = 6 then
    (if s.flag (Reg.ACD_P_NOISE4 n) Fld.ACD_P_NOISE4_VALID then s.fld (Reg.ACD_P_NOISE4 n) Fld.ACD_P_NOISE4_AVG else 280)
  else s.noiseAvg n

/-- Whether a power in -1/4 dBFS is at least DET_MARGIN above the floor of port `n` (R148). -/
def State.detects (s : State) (n power : Nat) : Bool :=
  decide (power + 4 * s.fld (Reg.RXE_P_CTRL n) Fld.RXE_P_CTRL_DET_MARGIN ≤ s.detectFloor n)

/-- Whether RXE marks collisions on port `n`: NFC-A at 106 kbit/s (R145). -/
def PortR.marks (x : PortR) : Bool := decide (x.tech = 0) && decide (x.rate = 0)

/-- Whether the energy of a half-bit (full scale is 2^60) exceeds the detection threshold of port `n` (R145, R148). -/
def State.halfHeard (s : State) (n e : Nat) : Bool :=
  decide (2 ^ 90 < e * dbPow (s.noiseAvg n - 4 * s.fld (Reg.RXE_P_CTRL n) Fld.RXE_P_CTRL_DET_MARGIN))

/-- Whether a bit is marked as collided (R145): each half has at least a quarter of the other's energy, and both are heard. -/
def State.collided (s : State) (n : Nat) (h : Nat × Nat) : Bool :=
  decide (h.1 ≤ 4 * h.2) && decide (h.2 ≤ 4 * h.1) && s.halfHeard n h.1 && s.halfHeard n h.2

/-- The bits that half-bit energies give (R145): a bit is 1 where its first half has more energy (PRESUMED, ISO/IEC 14443-2, log 75); equal
energies leave it free. `k` numbers the first. -/
def halfBits : Nat → List (Nat × Nat) → List Bool
  | _, [] => []
  | k, h :: t => (if h.1 = h.2 then Config.equalHalves k h.1 else decide (h.2 < h.1)) :: halfBits (k + 1) t

/-- Whether parity follows each byte on air (R172, R175): NFC-A, and active mode at 106 kbit/s. -/
def hasParity (rtech rrate : Nat) : Bool := decide (rtech = 0) || (decide (rtech = 5) && decide (rrate = 0))

/-- A run of bits cut into one group of `first` bits and groups of `rest`. -/
def groups (first rest : Nat) : Nat → List Bool → List (List Bool)
  | 0, _ => []
  | _, [] => []
  | k + 1, l => l.take first :: groups rest rest k (l.drop first)

/-- The value of bits, the first of them lowest. -/
def bitsNat : List Bool → Nat
  | [] => 0
  | b :: t => bnat b + 2 * bitsNat t

/-- A byte from at most 8 - `k` bits in the order of the technology (R173): lowest first from bit `k` on (R174), or highest first. -/
def airByteOf (msb : Bool) (k : Nat) (l : List Bool) : Byte :=
  let d := l.take (8 - k)
  byte (if msb then bitsNat d.reverse * 2 ^ (8 - d.length) else bitsNat d * 2 ^ k)

/-- What PRO makes of the bits of a reception (R173-R176): bytes, the bits of the last of them (0 means 8), the parity bits, how many data bits and
how many bits in all, the first collided data bit, and the END that the length gives. -/
structure Received where
  bytes : List Byte
  lastBits : Nat
  parity : List Bool
  dataBits : Nat
  bits : Nat
  coll : Option Nat
  limit : Option Nat
  deriving DecidableEq, Repr

/-- How many data bits stand before bit `i` of a reception whose first byte lacks `k` bits; parity bits do not count (R175). -/
def dataIndex (par : Bool) (k i : Nat) : Nat :=
  if !par then i else if i ≤ 8 - k then i else (8 - k) + (i - (9 - k)) / 9 * 8 + min ((i - (9 - k)) % 9) 8

/-- The reception of port `n` assembled (R145, R151, R173-R176); `k` bits of byte 0 were those of the frame that was sent (R174). In the
framing of NFC-F the length byte ends it; no other is longer than 4,104 bytes. -/
def State.assemble (s : State) (n k : Nat) (rx : RxData) : Received :=
  let y := s.pr n
  let par := hasParity y.tech y.rate
  let f := framedF y.tech y.rate
  let all := if y.marks then halfBits 0 rx.halves else rx.bits
  let cs := groups (8 - k + bnat par) (8 + bnat par) all.length all
  let len := match cs with
    | c :: _ => if f && decide (8 ≤ c.length) then some ((airByteOf true 0 c).toNat + 2) else none
    | [] => none
  let used := cs.take (len.getD 4104)
  let bytes := match used with
    | c :: t => airByteOf f k c :: t.map (airByteOf f 0)
    | [] => []
  let room := fun (i : Nat) => if i = 0 then 8 - k else 8
  let ds := used.zipIdx.map fun c => min c.1.length (room c.2)
  { bytes := bytes
    lastBits := match ds.getLast? with
      | some m => ((if ds.length = 1 then k else 0) + m) % 8
      | none => 0
    parity := (used.zipIdx.filterMap fun c => if par then c.1[room c.2]? else none)
    dataBits := ds.sum
    bits := (used.map List.length).sum
    coll := if y.marks then (rx.halves.findIdx? (s.collided n)).map (dataIndex par k) else none
    limit := match len with
      | some l => if used.length = l && ds.getLast? = some 8 then some 0 else none
      | none => if 4104 < cs.length then some 5 else none }

/-! ### The status words (R164-R167) -/

/-- RXS0 (R165). -/
def State.rxs0 (s : State) (n ending : Nat) (r : Received) (clip : Bool) : Word :=
  let y := s.pr n
  packF [(⟨0, 4⟩, ending), (⟨4, 3⟩, y.tech), (⟨7, 3⟩, y.rate), (⟨10, 1⟩, bnat (y.blanked || s.blankOn n)), (⟨11, 1⟩, bnat clip),
    (⟨12, 1⟩, bnat y.captured), (⟨13, 1⟩, bnat r.coll.isSome), (⟨14, 1⟩, bnat y.weakAtOpen), (⟨16, 16⟩, min r.bits 65535)]

/-- RXS1 (R166). -/
def State.rxs1 (s : State) (n : Nat) (rx : RxData) : Word :=
  packF [(⟨0, 20⟩, min (s.pr n).sofT 0xFFFFF), (⟨20, 8⟩, min rx.rssi 255)]

/-- RXS2 (R167): SNR is RSSI less AVG. -/
def State.rxs2 (s : State) (n : Nat) (r : Received) (rx : RxData) : Word :=
  packF [(⟨0, 12⟩, min (r.coll.getD 0xFFF) 0xFFF), (⟨12, 12⟩, (s.pr n).fofs), (⟨24, 8⟩, min (s.noiseAvg n - 2 * min rx.rssi 255) 255)]

/-! ### Checks (R174-R178) -/

/-- How many bits of byte 0 a split reply leaves to the frame that was sent (R174). -/
def Frame.splitBits (f : Frame) : Nat := if f.anticoll && decide (f.rtech = 0) then f.lastBits else 0

/-- The bytes with the lowest `k` bits of the first replaced. -/
def withLow (k low : Nat) : List Byte → List Byte
  | [] => []
  | b :: t => byte (b.toNat / 2 ^ k * 2 ^ k + low % 2 ^ k) :: t

/-- Whether every complete byte came with odd parity. -/
def parityGood : List Byte → List Bool → Bool
  | [], _ => true
  | b :: t, p :: q => decide (p = oddParity b) && parityGood t q
  | _ :: _, [] => false

/-- The complete bytes of a reception. -/
def Received.whole (r : Received) : List Byte := if r.lastBits = 0 then r.bytes else r.bytes.dropLast

/-- A reception as PRO delivers it to a frame's exchange (R174-R178, R186, R190): result, bytes and status words. -/
def State.deliver (s : State) (n : Nat) (f : Frame) (ending : Nat) (rx : RxData) : Delivered :=
  let r := s.assemble n f.splitBits rx
  let tests := r.coll.isNone && decide (8 ≤ r.dataBits) && decide (ending < 6)
  let sent := (f.data.getLast?.map fun b => b.toNat).getD 0
  let parityOk := !hasParity f.rtech f.rrate || parityGood (withLow f.splitBits sent r.whole) r.parity
  let tech := if f.rtech = 4 then f.tech else f.rtech
  let crc := tests && f.crcRx
  let crcOk := !crc || (decide (r.lastBits = 0) && checkOk tech f.rrate r.bytes)
  let cut := crc && decide (2 ≤ r.whole.length)
  let res :=
    if ending = 6 then 11
    else if ending = 7 then 12
    else if r.coll.isSome then 5
    else if ending ≠ 0 then 4
    else if tests && !parityOk then 3
    else if !crcOk then 2
    else 0
  { bytes := if cut then r.bytes.take (r.bytes.length - 2) else r.bytes
    lastBits := if cut then 0 else r.lastBits
    rxs0 := s.rxs0 n ending r rx.clip, rxs1 := s.rxs1 n rx, rxs2 := s.rxs2 n r rx
    result := res, early := decide ((s.pr n).sofT < s.rmin f.tech) }

/-- The END of a reception that has ended by itself (R151, R176). -/
def State.rxEnding (s : State) (n k : Nat) (ending : RxEnd) (rx : RxData) : Nat := ((s.assemble n k rx).limit).getD (rxEndNum ending)

/-- RXE's own records of a delivered reception (R135, R164, R549): LAST0-LAST2, the count of frames, CLIP. -/
def State.noteRx (s : State) (n ending : Nat) (clip : Bool) (rxs0 rxs1 rxs2 : Word) : State :=
  let s1 := ((s.setReg (Reg.RXE_P_LAST0 n) rxs0).setReg (Reg.RXE_P_LAST1 n) rxs1).setReg (Reg.RXE_P_LAST2 n) rxs2
  let s2 := if ending = 0 then s1.count (40 + n) else s1
  if clip then s2.postSec 0x4005 n .top 0 else s2

/-- The records of what PRO delivers. -/
def State.noteDelivered (s : State) (n ending : Nat) (rx : RxData) (d : Delivered) : State := s.noteRx n ending rx.clip d.rxs0 d.rxs1 d.rxs2

/-- Whether a reception is in progress on port `n`. -/
def State.inFrame (s : State) (n : Nat) : Bool := decide ((s.pr n).state = .frame)

/-- A false lock (R150). -/
def State.falseLock (s : State) (n : Nat) : State :=
  (s.bump (Reg.RXE_P_COUNTS n) Fld.RXE_P_COUNTS_FALSE_LOCKS).postSecCount 0x4001 n .top

/-! ### Listening ports (R146, R196, R208) -/

/-- The frame that a listening port stands in for where no descriptor opened the window (R196): its check value is not tested. -/
def listenFrame (tech rate : Nat) : Frame :=
  { tech := tech, rate := rate, rtech := tech, rrate := rate, crcTx := false, crcRx := false, resp := true, anticoll := false, hold := false,
    len := 0, lastBits := 0, tag := 0xFFFE, win := 0, scale := 0, delay := 0, limit := 0, data := [], purpose := .host }

/-- A reception of a listening port delivered (R164, R196): to the host with TAG 0xFFFE from an active target, to the emulated tag otherwise. -/
def State.deliverListen (s : State) (n ending : Nat) (rx : RxData) : State :=
  let d := s.deliver n (listenFrame (s.pr n).tech (s.pr n).rate) ending rx
  let s1 := s.noteDelivered n ending rx d
  if s.role n = 4 then
    s1.complete n 0xFFFE d.bytes d.lastBits d.result (prsWord d.result false d.early false 0 0) d.rxs0 d.rxs1 d.rxs2
  else s1

/-- A listening port's frame has ended (R146): its window closes, and it listens again. -/
def State.listenOn (s : State) (n : Nat) : State :=
  let t := s.rxIdle n
  if s.role n = 4 then t.listenTarget n else t.listen n 5 0

/-! ### Windows cut and closed (R79, R146, R285) -/

/-- The poll of port `n` changed. -/
def State.modPoll (s : State) (n : Nat) (f : AccPoll → AccPoll) : State := s.modA n fun a => { a with poll := a.poll.map f }

/-- The Accord window of port `n` closed (R285): the result stages go on, and the exchange ends with them. A SOF_WAIT that ends with it is a
false lock, unless it is cut (R150, R169). -/
def State.closeAccord (s : State) (n : Nat) : State :=
  let wait := decide ((s.pr n).state = .sofWait) && (s.pa n).poll.any fun p => p.cut.isNone
  let s0 := if wait then s.falseLock n else s
  let s1 := (s0.modPoll n fun p => { p with closed := some (p.closed.getD s.time), blanked := (s.pr n).blanked || s.blankOn n }).rxIdle n
  (((s1.modF n fun x => { x with window := none }).returnState n).endListen n).tryOffs

/-- The exchange of port `n` ended from outside with a result, what was being received delivered with an END (R79, R146, R190); an Accord
window closes with its channels cut (R292); with nothing received by then, a reception kept from before is what the window delivered (R193). A
listening port delivers what it was receiving. -/
def State.cutExchange (s : State) (n result ending : Nat) (rx : RxData) : State :=
  match (s.pp n).xch with
  | none => if (s.pr n).listening && s.inFrame n then (s.deliverListen n ending rx).rxIdle n else s
  | some x =>
    if (s.pa n).poll.isSome then (s.modPoll n fun p => { p with cut := p.cut.or (some result) }).closeAccord n
    else if s.inFrame n then
      let d := s.deliver n x.plan.frame ending rx
      (s.noteDelivered n ending rx d).endExchange n result (some d) none .none
    else s.endExchange n result x.earlier none .none

end Sys2Proof.Machine
end

