-- ==== Sys2Proof/Machine/Transmit.lean ====
section
/-! DEFINITION. Roles (R49-R52, R199), huddles and their slots (R89, R201-R203), and the frames that a port transmits: choosing, starting
and ending them (R69, R79, R183-R185, R197), with the commands on them. -/

namespace Sys2Proof.Machine

/-! ### Starting a frame (R69, R183, R388) -/

/-- The frame planned on port `n` fails before it starts (R204, R390): a host frame completes with RESULT 9, a profile frame is not sent. -/
def State.failPlan (n : Nat) (s : State) : State :=
  match (s.pp n).plan with
  | none => s
  | some p =>
    let s1 := (s.modP n fun x => { x with plan := none }).undue n
    if p.frame.purpose = .host then
      ((((s1.completeUnsent n p.frame.tag 9 (p.synUs s.settledBy) p.heldSyn).closeExchange n p.frame.tech).holdAfter n p.frame.hold).returnState n).endListen n
    else s1.dropJob n true

/-- Modulation of the planned frame of port `n` begins; it started at `start` and ends at `te` (R69). -/
def State.beginTx (s : State) (n : Nat) (p : Plan) (start te : Nat) : State :=
  ((((s.endDeferral n).modF n fun x =>
      { x with radio := .tx, txFrom := start, txEnd := some te, winLen := s.frameWin p.frame }).modP n fun x =>
    { x with plan := none, xch := some { plan := p, startAt := start, txDone := false, earlier := none } }).modX n fun x =>
    { x with waitEnd := none, retryAt := none })

/-- The frame planned on port `n` held for the synthesiser (R55). -/
def State.holdSyn (s : State) (n : Nat) : State :=
  s.modP n fun x => { x with plan := x.plan.map fun p => { p with heldSyn := true, synSince := some (p.synSince.getD s.time) } }

/-- The warm-up steps of ports in CAL aborted at their next safe point, within 1 µs (R95); when exactly is free. -/
def State.leaveCal (s : State) (l : List Nat) : State :=
  let f := s.takeFreeWord
  (l.foldl State.abortStep f.1).advance (s.time + f.2.toNat % (usec + 1))

/-- A frame of a free port attempted now: it starts, or what holds it takes effect (R55, R88-R92, R206, R388). -/
def State.tryFrame (s : State) (n : Nat) (p : Plan) : State :=
  let t := (s.atLead (s.frameDue n p)).lockPast
  let p := ((t.pp n).plan).getD p
  if !t.locked then (t.defer n).holdSyn n
  else
    let cal := decide ((t.pf n).radio = .cal)
    let te := t.time + t.frameSpan p.frame
    if t.blanked n || !t.mayModulate n (if cal then te + usec else te) (t.frameWin p.frame) then t.defer n
    else if !t.granted then (t.defer n).noGrant n (State.failPlan n)
    else
      let u := if cal then t.leaveCal [n] else t
      u.beginTx n p u.time (u.time + u.frameSpan p.frame)

/-- A huddle member's frame at its place in the slot (R201-R203): without the grant, under a blank, in a phase that lets no frame start (R199),
or, from the host, with a completion that waits (R195) it loses its place. -/
def State.memberFrame (s : State) (n : Nat) (p : Plan) (e : Nat) : State :=
  let t := s.advance (s.pf n).txFrom
  let lost := t.modF n fun x => { x with txEnd := none, winLen := 0 }
  let runs := if p.frame.purpose = .host then t.framesRun && decide ((t.pp n).staged = []) else t.listsRun
  if t.blanked n || !t.locked || !runs || t.intakeWaits n then lost.endListen n
  else if !t.granted then (lost.noGrant n (State.failPlan n)).endListen n
  else t.beginTx n p (s.pf n).txFrom e

/-- A field asked for where a reader has a frame due and its field is off (R69, R70), or collision avoidance begun where an initiator
has (R207). -/
def State.needField (s : State) (n : Nat) : State :=
  let x := s.pf n
  if (s.pp n).plan.isSome && !x.carrier && decide (x.radio = .standby) && x.wantOn.isNone && decide (x.ramp = .none) && (s.pp n).xch.isNone then
    if s.role n = 2 then s.askOn n
    else if s.role n = 3 then
      match (s.pp n).rfca with
      | .none => s.modP n fun y => { y with rfca := .initial (if s.extField n then none else some s.time) 0 }
      | .ready | .arfg _ => s.askOn n
      | _ => s
    else s
  else s

/-- `FRAME_START` (R183). The neighbours' frames due at the same boundary are chosen with it, so that R92 can order them. -/
def execFrameStart (port : Port) (s : State) : Out := s.core fun s =>
  let t := State.each (fun m u => if m = port ∨ s.keepOut port m then u.pickPlan m else u) 16 s
  match (t.pp port).plan with
  | none => t
  | some p =>
    match t.huddled port with
    | some _ =>
      match (t.pf port).txEnd with
      | some e => if (t.pp port).xch.isNone then t.memberFrame port p e else t
      | none => t.needField port
    | none => if t.frameReady port p then t.tryFrame port p else t.needField port

/-! ### The end of a frame (R69, R87, R184, R207) -/

/-- The group, mask and selector of an Accord poll that has gone out (R276, R279, R293, R294). -/
def State.pollSent (s : State) (n : Nat) (f : Frame) : State :=
  if f.tech = 6 ∧ f.data.head? = some 0xAD then
    let g := leAt f.data 1 1 % 16
    let m := leAt f.data 2 1
    let sel := leAt f.data 3 1
    let s1 := (s.bump Reg.ACD_COUNTS Fld.ACD_COUNTS_POLLS).setReg (Reg.ACD_P_LAST_POLL n)
      (packF [(Fld.ACD_P_LAST_POLL_GROUP, g), (Fld.ACD_P_LAST_POLL_MASK, m), (Fld.ACD_P_LAST_POLL_SELECTOR, sel)])
    if f.rtech = 6 ∧ f.resp then
      s1.modA n fun a => { a with poll := some { group := g, mask := m, selector := sel, detected := 0, synced := 0, order := none, blanked := false,
                                                 ranged := 0, stages := s1.fld (Reg.ACD_P_SIC n) Fld.ACD_P_SIC_SIC_STAGES,
                                                 closed := none, cut := none } }
    else s1
  else s

/-- The listen phase of a huddle begins at the common end (R89). -/
def State.beginListen (s : State) (n : Nat) : State :=
  match s.huddled n with
  | some h => s.modH h fun x => { x with txEnd := none, listening := true }
  | none => s

/-- `FRAME_TX_END` (R69): the modulation ends, and the window opens where a reply is expected; an active initiator first takes its field
off, and its window opens at the end of the ramp (R207). A target's frame opens no window (R208). -/
def execFrameTxEnd (port : Port) (before : RxOpen) (s : State) : Out := s.core fun s =>
  match (s.pp port).xch, (s.pf port).txEnd with
  | some x, some e =>
    let f := x.plan.frame
    let t := s.advance e
    let t1 := (if (t.pf port).pend then t.applyPA port else t).count (24 + port)
    let t2 := ((t1.modP port fun y => { y with xch := some { x with txDone := true } }).beginListen port).pollSent port f
    if f.resp ∧ t.role port ≠ 4 then
      if t.role port = 3 then (t2.modF port fun y => { y with radio := .field, txEnd := none, quietFrom := t.time }).askOff port
      else (t2.armRx port before).openWindow port e
    else t2.endExchange port 0 none none .none
  | _, _ => s

/-- `DUTY_CUT_DEADLINE` (R79, R146): 64 µs before the end of the bin, what a chosen port still exchanges is cut. -/
def execDutyCutDeadline (port : Port) (rx : RxData) (s : State) : Out := s.core fun s =>
  if s.field.victims.testBit port && (s.pp port).xch.isSome then
    (s.advance ((s.field.bin + 1) * msec - 64 * usec)).cutExchange port 11 6 rx
  else s

/-! ### Roles (R49-R52, R71, R199, R238) -/

/-- What R198 refuses in a frame for the role of its port. -/
def roleRefuses (role tech : Nat) : Bool :=
  decide (role ≤ 1) || decide (4 < role) || (decide (role = 2) && decide (tech = 5)) || ((decide (role = 3) || decide (role = 4)) && decide (tech ≠ 5))

/-- A write of `PRO.Pn.ROLE` (R49, R50, R52): judged at once; 6 and 7 are ignored. -/
def State.writeRole (s : State) (n : Nat) (v : Word) : State :=
  if Fld.PRO_P_ROLE_ROLE.get v < 6 then (s.writeReg (Reg.PRO_P_ROLE n) v).judgeRole n else s

/-- `ROLE_WRITE` (R50). -/
def execRoleWrite (port : Port) (value : Word) (s : State) : Out := s.core fun s => s.writeRole port value

/-- A descriptor taken and not started judged again under a new role (R199). -/
def State.rejudge (s : State) (n : Nat) : State :=
  match (s.pp n).plan with
  | some p =>
    if roleRefuses (s.role n) p.frame.tech then
      ((((s.modP n fun x => { x with plan := none }).undue n).modX n fun x => { x with deferrals := 0 }).completeUnsent n p.frame.tag 7
        (p.synUs s.settledBy) p.heldSyn).postSec 0x5002 n .top 0
    else s
  | none => s

/-- Port `n` leaves the reader role (R199, R238): its sessions close, its profile stops. -/
def State.leaveReader (s : State) (n : Nat) : State :=
  let s1 := (s.dropJob n false).modP n fun x => { x with entry := 0, waitEnd := none, offWait := false, owed := [] }
  (s1.sess.foldl (fun (t : State) (x : Nat × Session) => if x.2.port = n then t.leaveSess x.1 else t) s1).modA n fun a => { a with releases := [] }

/-- The radio of port `n` follows its new role (R69, R71, R72). -/
def State.radioFollows (s : State) (n : Nat) : State :=
  let r := s.role n
  let x := s.pf n
  let isOn := s.fieldOn n
  if r = 0 then
    if isOn || x.ramp.goesOff then s.askOff n
    else s.modF n fun y => { y with radio := .off, biasFrom := none, wantOn := none, resetEnd := none, guardEnd := none }
  else if x.radio = .off ∧ x.ramp = .none then (s.startSyn).modF n fun y => { y with biasFrom := some s.time }
  else
    let s1 := if isOn && decide (r ≠ 2) then s.askOff n else s.modF n fun y => { y with wantOn := none }
    if r = 4 && !isOn then s1.listenTarget n
    else s1

/-- `ROLE_CHANGE_APPLY` (R52): the role that the settings give takes effect where no frame is in progress. -/
def execRoleChangeApply (port : Port) (s : State) : Out := s.core fun s =>
  let old := s.role port
  let new := s.roleDue port
  if decide (old = new) || (s.pp port).xch.isSome then s
  else
    let s1 := s.setFld (Reg.PRO_P_MODE_STATUS port) Fld.PRO_P_MODE_STATUS_EFFECTIVE new
    let s2 := if old = 2 then (s1.leaveReader port).abandonSearch port else s1
    let s2 := if new = 1 then s2.modT port fun x => { x with baseCount := 0 } else s2
    let s3 := (s2.modP port fun x => { x with holdEnd := none, rfca := .none }).modX port fun x => { x with waitEnd := none, retryAt := none }
    let s4 := if (s3.pr port).listening then s3.rxIdle port else s3
    let s5 := s4.modF port fun x => if (s4.pp port).xch.isNone then { x with txEnd := none } else x
    ((((s5.rejudge port).radioFollows port).syncEmu).endListen port).tryOffs

/-- `TRANSMIT_CHAIN_BIASED` (R71): 15 µs after the port left OFF, with the synthesiser locked, it is in STANDBY; an
active target listens. A reader's field comes on when a list entry or a frame needs it (R69). -/
def execTransmitChainBiased (port : Port) (s : State) : Out := s.core fun s =>
  match (s.pf port).biasFrom with
  | some b =>
    if s.locked then
      let t := s.advance (b + 15 * usec)
      let t1 := t.modF port fun x => { x with biasFrom := none, radio := .standby }
      if t.role port = 4 then t1.listenTarget port
      else t1
    else s
  | none => s

/-! ### Huddles (R89, R201-R203) -/

/-- A write of `FLD.Pn.HUDDLE` (R50, R89): a membership changes where the huddles it concerns stand at a slot boundary. -/
def State.writeHuddle (s : State) (n : Nat) (v : Word) : State := ((s.writeReg (Reg.FLD_P_HUDDLE n) v).judgeHuddle n).syncMember n none

/-- `HUDDLE_WRITE` (R89). -/
def execHuddleWrite (port : Port) (value : Word) (s : State) : Out := s.core fun s => s.writeHuddle port value

/-- Since when the ramp of a part has been asked for. -/
def State.rampAsked (s : State) (p : Part) : Nat :=
  let x := s.pf p.port
  (x.wantOff.getD (x.wantOn.getD s.time)) * 16 + p.port

/-- Whether a part of a slot has its ramp slot, where it is a ramp, in the order of the requests (R68). -/
def State.partSlot (s : State) (l : List Part) (p : Part) : Bool :=
  !p.ramp || decide (s.slotsBefore p.port (s.rampAsked p / 16)
    + (l.filter fun q => q.ramp && decide (s.rampAsked q < s.rampAsked p)).length < s.freeSlots)

/-- A part committed to the slot that ends at `te` (R88, R202): its start follows from its own length. -/
def State.commitPart (te : Nat) (s : State) (p : Part) : State :=
  let s1 := match (s.hud ((s.huddled p.port).getD 0)).dueSince with
    | some t => s.countBy (112 + p.port) ((s.time - t) / usec)
    | none => s
  s1.modF p.port fun x => { x with txFrom := te - p.span, txEnd := some te, winLen := p.win, rampDue := p.ramp }

/-- `HUDDLE_SLOT_START` (R201): the frames of the slot are fixed, with their common end. -/
def execHuddleSlotStart (huddle : Huddle) (s : State) : Out := s.core fun s =>
  let h := huddle.val
  let s0 := s.endSlot h
  if s0.slotOpen h then s0
  else
    let s1 := s0.syncHuddles (some h)
    let members := (List.range 16).filter fun n => s1.huddled n = some h
    let s2 := members.foldl (fun (t : State) n => (t.pickPlan n).needField n) s1
    let parts := members.filterMap s2.partOf
    match parts with
    | [] => s2.modH h fun x => { x with dueSince := none, starved := false }
    | p0 :: rest =>
      let t := (s2.atLead (rest.foldl (fun m (p : Part) => min m p.due) p0.due)).lockPast
      let held := fun (u : State) => u.modH h fun x => { x with dueSince := some (x.dueSince.getD t.time) }
      if !t.locked && !t.gen.fieldsOff then members.foldl State.holdSyn (held t)
      else
        let due := parts.filter fun p => decide (p.due ≤ t.time)
        let mine := due.filter (t.partSlot due)
        let cals := (mine.map fun p => p.port).filter fun n => decide ((t.pf n).radio = .cal)
        let span := mine.foldl (fun m (p : Part) => max m p.span) 0
        let win := mine.foldl (fun m (p : Part) => max m p.win) 0
        if mine = [] then t
        else if t.keepClear p0.port (t.time + span + if cals = [] then 0 else usec) win then
          let u := if cals = [] then t else t.leaveCal cals
          let te := u.time + span
          (mine.foldl (State.commitPart te) u).modH h fun x => { x with txEnd := some te, listening := false, dueSince := none, starved := false }
        else held t

end Sys2Proof.Machine
end

