-- ==== Sys2Proof/Machine/Receive.lean ====
section
/-! DEFINITION. Receive engine commands (R132-R171): preambles, frame starts, false locks, energy steps, AFC, the ends of receptions and
windows, and the noise floor. -/

namespace Sys2Proof.Machine

/-! ### Preamble and SoF (R147-R149, R156-R159) -/

/-- Whether RXE runs AFC in the window of a port (R156): active mode at 212 and 424 kbit/s, and Accord. -/
def PortR.hasAfc (x : PortR) : Bool := decide (x.tech = 6) || (decide (x.tech = 5) && decide (x.rate ≠ 0))

/-- A bit, or an Accord symbol, of a technology and rate in 1/fc (R143, R165). A VHBR symbol is taken as one bit (PRESUMED, log 75). -/
def bitFc (tech rate : Nat) : Nat :=
  match tech with
  | 3 => match rate with
    | 0 => 512 | 1 => 2048 | 2 => 508 | _ => 2032
  | 4 => if rate = 0 then 8 else 4
  | 6 => 124
  | _ => etu rate

/-- The length of conforming signal that the detector needs before it declares a preamble, in 1/fc (R147); the first burst of an NFC-V SoF on two
subcarriers is taken at fc/28 (PRESUMED, ISO/IEC 15693-2, log 75). -/
def preambleMin (tech rate : Nat) : Nat :=
  if framedF tech rate then 8 * bitFc tech rate
  else match tech with
    | 0 | 1 => 4 * 16
    | 3 => 8 * (if rate < 2 then 32 else 28)
    | 4 => 4 * bitFc tech rate
    | 6 => 4 * 124
    | _ => 0

/-- The bits of a SoF as far as this spec gives them (R147, R172, R261): the sync word 0xB24D and the Barker word. -/
def sofWord (tech rate : Nat) : Option (List Bool) :=
  if framedF tech rate then some ((List.range 16).map fun i => (0xB24D : Nat).testBit (15 - i))
  else if tech = 6 then some ([1, 1, 1, 1, 1, 0, 0, 1, 1, 0, 1, 0, 1].map fun (b : Nat) => decide (b = 1))
  else none

/-- The AFC estimates of a port shown (R159, R171). -/
def State.showAfc (s : State) (n fofs tofs frozen : Nat) : State :=
  s.setReg (Reg.RXE_P_AFC n) (packF [(Fld.RXE_P_AFC_FOFS, fofs), (Fld.RXE_P_AFC_TOFS, tofs), (Fld.RXE_P_AFC_FROZEN, frozen)])

/-- `PREAMBLE_DETECTED` (R147, R148, R159): a signal of `power` (-1/4 dBFS) at least DET_MARGIN above the floor that conforms for `length` and goes
on conforming for `more` (1/fc), with the estimates of AFC; in Accord on the code channels named. -/
def execPreambleDetected (port : Port) (power length more : Nat) (fofs : BitVec 12) (tofs : Byte) (codes : Byte) (s : State) : Out := s.core fun s =>
  let x := s.pr port
  if s.detects port power && decide (preambleMin x.tech x.rate ≤ length) then
    let begin_ := fun (t : State) =>
      if x.state = .armed then
        let u := t.modR port fun y => { y with state := .sofWait, blanked := s.blankOn port, preEnd := s.time + s.fc more, refAt := s.time }
        if x.hasAfc && (decide (x.tech ≠ 6) || codes.toNat.testBit 0) then u.showAfc port fofs.toNat tofs.toNat 0 else u
      else t
    if x.tech = 6 then
      if (x.state ≠ .idle) && ((s.pa port).poll.any fun p => p.order.isNone && p.closed.isNone)
          && decide (s.time < x.modEnd + s.fc 2236) then
        (begin_ s).modPoll port fun p => { p with detected := p.detected ||| (codes.toNat &&& p.mask) }
      else s
    else begin_ s
  else s

/-- The end of the SoF search on port `n` (R149): W_SOF bit times, or symbols, after the preamble has stopped. -/
def State.sofEnd (s : State) (n : Nat) : Nat :=
  let x := s.pr n
  x.preEnd + s.fc (s.fld (Reg.RXE_P_CTRL n) Fld.RXE_P_CTRL_W_SOF * bitFc x.tech x.rate)

/-- `SOF_WINDOW_EXPIRY` (R149, R150). -/
def execSofWindowExpiry (port : Port) (s : State) : Out := s.core fun s =>
  if (s.pr port).state = .sofWait then ((s.advance (s.sofEnd port)).rearm port (s.pr port).captured).falseLock port else s

/-! ### Receptions that leave the window open (R151-R157, R193) -/

/-- A reception that leaves the window open (R151, R193): kept until a later one replaces it or the window closes; the receiver is
re-armed. -/
def State.deliverOpen (s : State) (n ending : Nat) (rx : RxData) (isCapture : Bool) : State :=
  match (s.pp n).xch with
  | some x =>
    let d := s.deliver n x.plan.frame ending rx
    ((s.noteDelivered n ending rx d).modP n fun y => { y with xch := some { x with earlier := some d } }).rearm n isCapture
  | none => if (s.pr n).listening then (s.deliverListen n ending rx).rearm n isCapture else s

/-- Whether an AFC estimate lies beyond ±20 kHz (R157). -/
def beyondAfc (fofs : BitVec 12) : Bool := decide (2000 < (signed 12 fofs.toNat).natAbs)

/-- The AFC of a reception out of range (R157): the reception ends, in Accord that of the named code channels alone. -/
def State.outOfRange (s : State) (n : Nat) (codes : Byte) (rx : RxData) : State :=
  let s1 := if (s.pr n).tech = 6 then s.modPoll n fun p => { p with ranged := p.ranged ||| (codes.toNat &&& p.detected) }
    else s.deliverOpen n 2 rx false
  s1.post 0x4003 .top 0

/-- Nothing received. -/
def RxData.none : RxData := { bits := [], halves := [], rssi := 0, clip := false }

/-- `SOF_DETECTED` (R146, R149, R156-R159): the SoF begins within W_SOF; bits are delivered from here, and AFC is frozen where R156 applies. In
Accord the named code channels begin their sync words. Later than W_SOF the search has ended. -/
def execSofDetected (port : Port) (sof : List Bool) (sofT : Nat) (fofs : BitVec 12) (tofs : Byte) (codes : Byte) (s : State) : Out := s.core fun s =>
  let x := s.pr port
  let good := (sofWord x.tech x.rate).all fun l => decide (sof = l)
  if x.state = .sofWait ∧ x.tech ≠ 6 ∧ s.sofEnd port < s.time then (s.rearm port x.captured).falseLock port
  else if good && (decide (x.state = .sofWait) || (decide (x.state = .frame) && decide (x.tech = 6)))
      && (decide (x.tech ≠ 6) || decide (s.time ≤ s.sofEnd port)) then
    let f := if x.hasAfc then fofs.toNat else 0
    let s1 := if x.state = .sofWait then s.modR port fun y => { y with state := .frame, sofT := sofT, fofs := f } else s
    let s2 := if x.hasAfc && (decide (x.tech ≠ 6) || codes.toNat.testBit 0) then s1.showAfc port f tofs.toNat 1 else s1
    let s3 := if x.tech = 6 then s2.modPoll port fun p => { p with synced := p.synced ||| (codes.toNat &&& p.detected) } else s2
    if x.hasAfc && beyondAfc fofs then s3.outOfRange port codes RxData.none else s3
  else s

/-- Whether the energy of port `n` has stepped (R152): the mean power over STEP_WIN, the last 2 bit times and 2 µs at least, is CAPTURE_DB or more
above the mean power before it, which spans 2 bit times at least. -/
def State.stepped (s : State) (n recent before : Nat) : Bool :=
  let x := s.pr n
  let bits := s.fc (2 * bitFc x.tech x.rate)
  decide (x.refAt + max bits (2 * usec) + bits ≤ s.time)
    && decide (before * dbPow (4 * s.fld (Reg.RXE_P_CTRL n) Fld.RXE_P_CTRL_CAPTURE_DB) ≤ recent * 2 ^ 30)

/-- `ENERGY_STEP` (R152-R155, R280): `recent` is P_s and `before` is P_r, in one linear unit. -/
def execEnergyStep (port : Port) (recent before : Nat) (rx : RxData) (s : State) : Out := s.core fun s =>
  let x := s.pr port
  if decide (x.tech = 6) || !s.stepped port recent before then s
  else match x.state with
    | .sofWait => s.rearm port true
    | .frame =>
      if s.flag (Reg.RXE_P_CTRL port) Fld.RXE_P_CTRL_CAPTURE_EN then
        ((s.deliverOpen port 1 rx true).bump (Reg.RXE_P_COUNTS port) Fld.RXE_P_COUNTS_OVERTAKES).post 0x4002 .top 0
      else s
    | _ => s

/-- `AFC_RANGE` (R157): the estimator reaches its limit during the preamble, or the offset leaves the range. -/
def execAfcRange (port : Port) (codes : Byte) (rx : RxData) (s : State) : Out := s.core fun s =>
  let x := s.pr port
  if !x.hasAfc || (decide (x.state ≠ .sofWait) && decide (x.state ≠ .frame)) then s else s.outOfRange port codes rx

/-! ### Receptions and limits that close the window (R87, R146, R184, R229) -/

/-- A SENSF_RES, or another frame of an NFC-F round (R229): the job takes it, and the slots that follow are still received, up to the limit
(DEDUCED, log 76). A reception kept from before is discarded (R193). -/
def State.roundReply (s : State) (n ending : Nat) (x : Exchange) (rx : RxData) (hw : HwFault) : State :=
  let f := x.plan.frame
  let d := s.deliver n f ending rx
  let s1 := ((s.noteDelivered n ending rx d).modP n fun y => { y with xch := some { x with earlier := none } }).rearm n false
  let s2 := if s.flag (Reg.PRO_P_HOSTQ n) Fld.PRO_P_HOSTQ_MIRROR then
      s1.complete n 0xFFFF d.bytes d.lastBits d.result (x.prs d.result d.early) d.rxs0 d.rxs1 d.rxs2 else s1
  s2.jobReply n f d.result (some d) none hw

/-- A reception that closes the window (R87, R146, R184): PRO checks it, writes the completion and acts on the reply. -/
def State.deliverClose (s : State) (n ending : Nat) (x : Exchange) (rx : RxData) (hw : HwFault) : State :=
  let f := x.plan.frame
  let d := s.deliver n f ending rx
  (s.noteDelivered n ending rx d).endExchange n d.result (some d) (((s.assemble n f.splitBits rx).coll).map fun c => f.splitBits + c) hw

/-- `FRAME_END` (R146, R151, R176): at EOF, at a coding violation, or at the length that the frame or R151 gives. -/
def execFrameEnd (port : Port) (ending : RxEnd) (rx : RxData) (hw : HwFault) (s : State) : Out := s.core fun s =>
  let y := s.pr port
  if decide (y.state ≠ .frame) || decide (y.tech = 6) then s
  else match (s.pp port).xch with
    | some x =>
      let e := s.rxEnding port x.plan.frame.splitBits ending rx
      if x.plan.frame.purpose = .sensf then s.roundReply port e x rx hw else s.deliverClose port e x rx hw
    | none => if y.listening then (s.deliverListen port (s.rxEnding port 0 ending rx) rx).listenOn port else s

/-- `RX_WINDOW_LIMIT` (R87, R146, R150, R193): the window closes, with a timeout, an earlier reception, or END = WINDOW. -/
def execRxWindowLimit (port : Port) (rx : RxData) (s : State) : Out := s.core fun s =>
  match (s.pf port).window, (s.pp port).xch with
  | some w, some x =>
    let t := s.advance w
    let y := t.pr port
    if (t.pa port).poll.isSome then t.closeAccord port
    else if y.state = .frame then
      if x.plan.frame.purpose = .sensf then (t.roundReply port 4 x rx .none).endExchange port 1 none none .none
      else t.deliverClose port 4 x rx .none
    else
      let t1 := if y.state = .sofWait then t.falseLock port else t
      match x.earlier with
      | some d => t1.endExchange port d.result (some d) none .none
      | none => t1.endExchange port 1 none none .none
  | _, _ => s

/-! ### The noise floor (R160-R163, R281) -/

/-- Whether port `m` modulates or is in CAL (R86, R160). -/
def State.noisy (s : State) (m : Nat) : Bool :=
  decide ((s.pf m).radio = .cal) || (s.modulations m).any fun i => decide (i.1 ≤ s.time) && decide (s.time < i.2)

/-- Whether the conditions of R160 hold on port `n` now. -/
def State.noiseOk (s : State) (n : Nat) : Bool :=
  decide ((s.pf n).radio = .field) && decide ((s.pf n).ramp = .none) && (s.pf n).step.isNone
    && decide ((s.pr n).state ≠ .sofWait) && decide ((s.pr n).state ≠ .frame)
    && allBelow (fun m => !s.areNeigh n m || !s.noisy m) 16

/-- Since when the noise window in progress on port `n` has run (R160): since the port itself, and every neighbour, let it. -/
def State.noiseFrom (s : State) (n : Nat) : Nat :=
  (List.range 16).foldl (fun t m => if m = n ∨ s.areNeigh n m then max t (max (s.pf m).quietFrom ((s.pf m).paEnd.getD 0)) else t)
    (s.pr n).calmFrom

/-- The filter through which port `n` measures its noise (R161), as a place in the powers of NOISE_WINDOW_DONE: fc/16, NFC-V and fc/4 sidebands,
then that of each technology and rate; the most recent window's with NOISE_BAND 0. -/
def State.noiseFilter (s : State) (n : Nat) : Nat :=
  match s.fld (Reg.RXE_P_FRONT n) Fld.RXE_P_FRONT_NOISE_BAND with
  | 0 => 3 + 4 * (s.pr n).tech + (s.pr n).rate
  | k + 1 => k

/-- A noise average with 4 fractional bits moved on by a window (R162), in 1/16 of its step of 0.25 dB; the register shows the whole steps. Both
are the model's reading of 'with 4 fractional bits' (DESIGN CHOICE, log 74), as is the rounding, downward. -/
def nextAvg (valid : Bool) (avg last : Nat) : Nat :=
  if valid then ((avg : Int) + ((16 * last : Nat) - (avg : Int)) / 16).toNat else 16 * last

/-- The statistics of a noise window on port `n` (R162, R281): `v` through the filter of NOISE_BAND, `v4` through that of fc/4. -/
def State.noiseStats (s : State) (n v v4 : Nat) : State :=
  let a := Reg.RXE_P_NOISE n
  let e := Reg.RXE_P_NOISE_EXT n
  let q := Reg.ACD_P_NOISE4 n
  let avg := nextAvg (s.flag a Fld.RXE_P_NOISE_VALID) (s.pr n).avg v
  let avg4 := nextAvg (s.flag q Fld.ACD_P_NOISE4_VALID) (s.pa n).avg v4
  let s1 := s.setReg a (packF [(Fld.RXE_P_NOISE_LAST, v), (Fld.RXE_P_NOISE_AVG, avg / 16), (Fld.RXE_P_NOISE_VALID, 1)])
  let lo := if s.flag e Fld.RXE_P_NOISE_EXT_VALID then max v (s.fld e Fld.RXE_P_NOISE_EXT_MIN) else v
  let hi := if s.flag e Fld.RXE_P_NOISE_EXT_VALID then min v (s.fld e Fld.RXE_P_NOISE_EXT_MAX) else v
  let s2 := s1.setReg e (packF [(Fld.RXE_P_NOISE_EXT_MIN, lo), (Fld.RXE_P_NOISE_EXT_MAX, hi), (Fld.RXE_P_NOISE_EXT_VALID, 1)])
  let s3 := s2.setReg q (packF [(Fld.ACD_P_NOISE4_LAST, v4), (Fld.ACD_P_NOISE4_AVG, avg4 / 16), (Fld.ACD_P_NOISE4_VALID, 1)])
  (s3.modR n fun x => { x with avg := avg }).modA n fun x => { x with avg := avg4 }

/-- `NOISE_WINDOW_DONE` (R160-R162, R281): 64 µs over which the conditions have held; the next window begins. `powers` are the mean powers of r[k]
through the filters of `State.noiseFilter`, in -1/4 dBFS. -/
def execNoiseWindowDone (port : Port) (powers : List Nat) (s : State) : Out := s.core fun s =>
  if s.noiseOk port then
    let t := s.advance (s.noiseFrom port + 64 * usec)
    if t.noiseOk port then
      (t.noiseStats port (min ((powers[t.noiseFilter port]?).getD 511) 511) (min ((powers[2]?).getD 511) 511)).modR port fun x =>
        { x with calmFrom := t.time }
    else s
  else s

/-- Both counts of port `n` cleared (R171). -/
def State.clearCounts (s : State) (n : Nat) : State := s.setReg (Reg.RXE_P_COUNTS n) 0

/-- The noise statistics of port `n` and its Accord floor cleared (R162, R281). -/
def State.clearNoise (s : State) (n : Nat) : State :=
  ((s.setFld (Reg.RXE_P_NOISE n) Fld.RXE_P_NOISE_VALID 0).setFld (Reg.RXE_P_NOISE_EXT n) Fld.RXE_P_NOISE_EXT_VALID 0).setFld
    (Reg.ACD_P_NOISE4 n) Fld.ACD_P_NOISE4_VALID 0

/-- `CLR_COUNTS` (R171). -/
def execClrCounts (port : Port) (s : State) : Out := s.core fun s => s.clearCounts port

/-- `CLR_NOISE` (R162). -/
def execClrNoise (port : Port) (s : State) : Out := s.core fun s => s.clearNoise port

end Sys2Proof.Machine
end

