-- ==== Sys2Proof/Machine/Protocol.lean ====
section
/-! DEFINITION. Host descriptors (R187-R200, R279), holds, completions, and the active mode's RF collision avoidance (R207-R210). -/

namespace Sys2Proof.Machine

/-! ### Descriptors (R187-R189, R194, R198) -/


/-- The frame that a descriptor's words describe (R187-R189). -/
def descFrame (ws : List Word) : Frame :=
  let h0 := (ws[0]?).getD 0
  let h1 := (ws[1]?).getD 0
  let h2 := (ws[2]?).getD 0
  let len := (h0.toNat >>> 16) % 2 ^ 13
  { tech := h0.toNat % 8, rate := (h0.toNat >>> 3) % 4, rtech := (h0.toNat >>> 5) % 8, rrate := (h0.toNat >>> 8) % 4
    crcTx := h0.toNat.testBit 10, crcRx := h0.toNat.testBit 11, resp := h0.toNat.testBit 12, anticoll := h0.toNat.testBit 13
    hold := h0.toNat.testBit 14, len := len, lastBits := h0.toNat >>> 29, tag := h1.toNat % 65536
    win := (h1.toNat >>> 16) % 2 ^ 14, scale := h1.toNat >>> 30, delay := h2.toNat % 2 ^ 20, limit := 0
    data := (unpackWords (ws.drop 3)).take len, purpose := .host }

/-- Whether R188 allows a RATE for a TECH. -/
def rateOk (tech rate : Nat) : Bool :=
  match tech with
  | 0 | 1 => true
  | 2 => decide (rate = 1) || decide (rate = 2)
  | 3 => decide (rate ≤ 1)
  | 5 => decide (rate ≤ 2)
  | 6 => decide (rate = 0)
  | _ => false

/-- Whether R188 allows an RRATE for an RTECH. -/
def rrateOk (rtech rrate : Nat) : Bool :=
  match rtech with
  | 0 | 1 | 3 => true
  | 2 => decide (rrate = 1) || decide (rrate = 2)
  | 4 => decide (rrate ≤ 1)
  | 5 => decide (rrate ≤ 2)
  | 6 => decide (rrate = 0)
  | _ => false

/-- Whether a descriptor is refused with RESULT 7 under a role (R198, R279). -/
def descRefused (role : Nat) (f : Frame) : Bool :=
  roleRefuses role f.tech || !rateOk f.tech f.rate || !rrateOk f.rtech f.rrate || (decide (f.rtech = 4) && decide (1 < f.tech))
    || decide (f.scale = 3) || decide (4096 < f.len) || (decide (f.tech = 6) && decide (f.data.head? = some 0xAC))
    || (decide (f.rtech = 6) && decide (f.data.head? ≠ some 0xAD))

/-- The words of the descriptor at the head of TXQn. -/
def State.headWords (s : State) (n : Nat) : List QWord :=
  match (s.pq n).tx with
  | w :: _ => (s.pq n).tx.take (descWords w.w.toNat)
  | [] => []

/-- The head descriptor popped (R194, R484): its words, and how many of them are poisoned; `bad` says that one more fails its parity. -/
def State.popDesc (s : State) (n : Nat) (bad : Bool) : State × List Word × Nat :=
  let ws := s.headWords n
  let k := (ws.filter fun w => w.poison).length + bnat bad
  let s1 := s.setPqX n { s.pq n with tx := (s.pq n).tx.drop ws.length }
  ((List.range k).foldl (fun (t : State) _ => t.poisoned n n) s1, ws.map fun w => w.w, k)

/-- A descriptor with a poisoned word discarded (R194). -/
def State.poisonDesc (s : State) (n : Nat) : State := (s.completeUnsent n 0 8 0 false).post 0x5003 .heart 0

/-- The head descriptor of port `n` taken and policed (R194, R198). -/
def State.takeDesc (s : State) (n : Nat) (bad : Bool) : State :=
  let r := s.popDesc n bad
  let f := descFrame r.2.1
  let t := r.1.modP n fun x => { x with holdEnd := x.holdEnd.map fun _ => s.time + s.fld (Reg.PRO_P_HOSTQ n) Fld.PRO_P_HOSTQ_HOLD_MAX * msec }
  let t1 :=
    if r.2.2 ≠ 0 then t.poisonDesc n
    else if descRefused (s.role n) f then (t.completeUnsent n f.tag 7 0 false).postSec 0x5002 n .top 0
    else if f.len = 0 ∧ f.lastBits = 0 ∧ f.tech ≠ 3 then (t.completeUnsent n f.tag 6 0 false).post 0x5001 .top 0
    else (t.modP n fun x => { x with plan := some { frame := f, takenAt := s.time, notBefore := 0, synSince := none, synWait := 0,
                                                    heldSyn := false } }).needField n
  t1.resumePush n

/-- `DESCRIPTOR_TAKE` (R194, R197, R198): at an exchange boundary at which a host frame is next, in the cycle after the push that completed the
descriptor at the earliest. -/
def execDescriptorTake (port : Port) (bad : Bool) (s : State) : Out := s.core fun s =>
  let t := if s.headFull port && !s.headWhole port then s.advance (s.time / cycle * cycle + cycle) else s
  if t.hostNext port then t.takeDesc port bad else s

/-- `COMPLETION_PUSH` (R195). -/
def execCompletionPush (port : Port) (s : State) : Out := s.core fun s => s.pushStaged port

/-! ### Flushing and holds (R197, R200) -/

/-- One whole descriptor at the head of TXQn discarded (R200). -/
def State.dropDesc (s : State) (n : Nat) : State :=
  let r := s.popDesc n false
  if r.2.2 ≠ 0 then r.1.poisonDesc n else r.1.completeUnsent n (descFrame r.2.1).tag 13 0 false

/-- Whole descriptors discarded while there are any; an incomplete one waits for its last word (R200). -/
def State.flushDescs (n : Nat) : Nat → State → State
  | 0, s => s
  | k + 1, s =>
    if s.headFull n then State.flushDescs n k (s.dropDesc n)
    else s.modP n fun x => { x with flushing := decide ((s.pq n).tx ≠ []) }

/-- TXQn flushed (R200): untaken descriptors discarded, a hold ended. -/
def State.flushTx (s : State) (n : Nat) : State :=
  ((State.flushDescs n ((s.pq n).tx.length + 1) s).modP n fun x => { x with holdEnd := none }).resumePush n

/-- After a push to TXQn: a descriptor that was being flushed is discarded once its last word is in (R200). -/
def State.afterPush (s : State) (n : Nat) : State :=
  if (s.pp n).flushing && s.headFull n then ((s.dropDesc n).modP n fun x => { x with flushing := false }).resumePush n else s

/-- Words pushed to TXQn by the host (R481, R483). -/
def State.hostPush (s : State) (n : Nat) (ws : List Word) : State := if s.hif.waiting.isSome then s else (s.pushTxs n ws).afterPush n

/-- `TX_PUSH` (R481, R483). -/
def execTxPush (port : Port) (value : Word) (s : State) : Out := s.coreAll fun s => s.hostPush port [value]

/-- `FLUSH_TX` (R200). -/
def execFlushTx (port : Port) (s : State) : Out := s.core fun s => s.flushTx port

/-- A hold ended by END_HOLD (R214). -/
def State.endHold (s : State) (n : Nat) : State := s.modP n fun x => { x with holdEnd := none }

/-- `END_HOLD` (R214). -/
def execEndHold (port : Port) (s : State) : Out := s.core fun s => s.endHold port

/-- `PRO_HOLD_EXPIRED` (R197, R212): HOLD_MAX has passed with no descriptor taken; one that is present by then is taken instead. -/
def execProHoldExpired (port : Port) (s : State) : Out := s.core fun s =>
  match (s.pp port).holdEnd with
  | some e =>
    if (s.pp port).xch.isNone && (s.pp port).plan.isNone then
      let t := s.advance e
      if t.hostNext port then t.takeDesc port false else (t.endHold port).post 0x5005 .top 0
    else s
  | none => s

/-! ### RF collision avoidance (R142, R207-R210) -/

/-- RFCA_MAX and T_ADT. -/
def State.rfcaMax (s : State) : Nat := s.fld Reg.PRO_ACTIVE Fld.PRO_ACTIVE_RFCA_MAX
def State.tAdt (s : State) : Nat := s.fc (s.fld Reg.PRO_ACTIVE Fld.PRO_ACTIVE_T_ADT)

/-- The descriptor of port `n` completed with RESULT 14 (R209, R210). -/
def State.rfcaBusy (s : State) (n : Nat) : State :=
  let s1 := (s.modP n fun x => { x with rfca := .none, plan := none }).undue n
  match (s.pp n).plan with
  | some p => s1.completeUnsent n p.frame.tag 14 (p.synUs s.settledBy) p.heldSyn
  | none => s1

/-- `RFCA_EXPIRY` (R207 step 1): the field has been clear for T_IDT and `draw` times T_RFW. -/
def execRfcaExpiry (port : Port) (draw : Fin 4) (s : State) : Out := s.core fun s =>
  match (s.pp port).rfca with
  | .initial (some t0) _ =>
    ((s.advance (t0 + s.fc (4096 + 512 * draw.val))).modP port fun x => { x with rfca := .ready }).askOn port
  | _ => s

/-- The external field of port `n` has come up (R207): initial avoidance waits until it drops. -/
def State.extRose (s : State) (n : Nat) : State :=
  s.modP n fun x => { x with rfca := match x.rfca with
    | .initial (some _) r => .initial none r
    | r => r }

/-- The external field of port `n` has dropped (R207-R209): avoidance restarts, or response avoidance begins where a descriptor is queued. -/
def State.extDropped (s : State) (n : Nat) : State :=
  let reply := fun (t : State) =>
    let t1 := if t.hostNext n then t.takeDesc n false else t
    if (t1.pp n).plan.isSome && (t1.pp n).xch.isNone then t1.modP n fun x => { x with rfca := .response (some t.time) 0 }
    else t1.modP n fun x => { x with rfca := .none }
  match (s.pp n).rfca with
  | .initial none r =>
    if s.rfcaMax ≤ r + 1 then (s.rfcaBusy n).post 0x5004 .top 0 else s.modP n fun x => { x with rfca := .initial (some s.time) (r + 1) }
  | .response _ r => s.modP n fun x => { x with rfca := .response (some s.time) r }
  | .chain => reply s
  | .none => if s.role n = 4 then reply s else s
  | _ => s

/-- `EXTERNAL_FIELD_CHANGE` (R142, R207, R365): the level on a port, `level` meaning -level dBFS. -/
def execExternalFieldChange (port : Port) (level : Nat) (s : State) : Out := s.core fun s =>
  let old := s.extField port
  let s1 := (s.modP port fun x => { x with extLevel := level }).emuLevel port
  let new := s1.extField port
  if s.role port = 3 ∨ s.role port = 4 then
    (if new && !old then s1.extRose port else if old && !new then s1.extDropped port else s1)
  else s1

/-- `RESPONSE_RFCA_EXPIRY` (R207 step 7, R209, R210): at the end of T_ADT the field comes on, or the field found present makes an initiator
wait again and a target give up. -/
def execResponseRfcaExpiry (port : Port) (s : State) : Out := s.core fun s =>
  match (s.pp port).rfca with
  | .response (some t0) r =>
    let t := s.advance (t0 + s.tAdt)
    if t.extField port then
      if t.role port = 4 then t.rfcaBusy port
      else if t.rfcaMax ≤ r then (t.rfcaBusy port).post 0x5004 .top 0
      else t.modP port fun x => { x with rfca := .response none (r + 1) }
    else
      let t1 := if (t.pr port).listening then t.rxIdle port else t
      (t1.modP port fun x => { x with rfca := .arfg 0 }).askOn port
  | _ => s

/-- `ARFG_EXPIRY` (R207 step 8). -/
def execArfgExpiry (port : Port) (s : State) : Out := s.core fun s =>
  match (s.pp port).rfca with
  | .arfg e =>
    if (s.pf port).radio = .field ∧ (s.pf port).ramp = .none then (s.advance e).modP port fun x => { x with rfca := .ready } else s
  | _ => s

end Sys2Proof.Machine
end

