-- ==== Sys2Proof/Machine/Poll.lean ====
section
/-! DEFINITION. Polling lists, presence checks, closing, the overflow list (R215-R243): the commands on them. -/

namespace Sys2Proof.Machine

/-- Whether port `n` stands at a list-entry boundary at which its profile may go on (R197, R217, R222): after a WAIT that took the field off, once
the field is on again and its guard is over (R220). -/
def State.atEntry (s : State) (n : Nat) : Bool :=
  let x := s.pp n
  s.listsRun && decide (s.role n = 2) && decide ((s.pf n).radio ≠ .off) && x.xch.isNone && x.plan.isNone && x.holdEnd.isNone && x.job.isNone && x.waitEnd.isNone && !s.hostNext n
    && (!x.offWait || ((s.pf n).carrier && decide ((s.pf n).ramp = .none) && (s.pf n).guardEnd.isNone))

/-- A job begun on port `n`, its field asked for where it is off (R69). -/
def State.beginJob (s : State) (n : Nat) (j : Job) : State :=
  let s1 := s.setJob n (some j)
  if (s1.pf n).carrier then s1 else s1.askOn n

/-- The halt or bench owed to session `k` (R233). -/
def State.owedJob (s : State) (n k : Nat) : State :=
  let s1 := s.modP n fun x => { x with owed := x.owed.filter fun i => i ≠ k }
  match s1.session k with
  | some x =>
    if x.state = .open_ then
      s1.beginJob n { Job.fresh0 .owed x.tech with
        sess := some k, ident := x.ident, quiet := [x.ident], accord := x.accord
        next := some (if x.accord then .bench else if x.tech = 1 then .hltb else if x.tech = 3 then .stayQuiet else .hlta) }
    else s1
  | none => s1

/-- The releases of one group sent in one frame (R273). -/
def State.releaseJob (s : State) (n g : Nat) : State :=
  let j := s.releaseOf n { Job.fresh0 .owed 6 with next := some .relGroup } g
  (s.modA n fun a => { a with releases := a.releases.filter fun r => r.1 ≠ g }).beginJob n j

/-- The place of port `n` in its list moved on. -/
def State.entryAfter (s : State) (n : Nat) : State := s.modP n fun x => { x with entry := (x.entry + 1) % 16 }

/-- The list entry `w` of port `n` begun (R218-R221, R223, R229, R276). -/
def State.runEntry (s : State) (n w : Nat) : State :=
  let slots := w / 0x10000 % 16
  let wake := w.testBit 4
  let disc := fun (tech : Nat) (p : Purpose) (k : Nat) =>
    s.beginJob n { Job.fresh0 .discover tech with entry := w, next := some p, wake := wake, slots := k }
  match w % 16 with
  | 1 => disc 0 .reqa 1
  | 2 => disc 1 .reqb (2 ^ slots)
  | 3 => disc 2 .sensf slots
  | 4 => disc 3 .invent (if slots = 1 then 1 else 16)
  | 5 =>
    let g := w / 16 % 16
    let m := s.pollMask n g
    if m = 0 then ((s.entryAfter n).bump Reg.ACD_COUNTS Fld.ACD_COUNTS_SKIPS).postSec 0x6004 n .top 0
    else s.beginJob n { Job.fresh0 (.accord g (w / 0x100 % 256)) 6 with entry := w, next := some .accPoll, group := g, codes := m }
  | 6 =>
    let s1 := s.modP n fun x => { x with waitEnd := some (s.time + w / 16 % 2 ^ 24 * usec), offWait := w.testBit 28 }
    if w.testBit 28 then s1.askOff n else s1
  | _ => s

/-- `POLL_ENTRY_START` (R216, R217): what is owed comes first, then releases, then the checks that are due, then the list entry. -/
def execPollEntryStart (port : Port) (hw : HwFault) (s : State) : Out := s.core fun s0 =>
  let s := match hw with
    | .sessParity k => s0.sessParity k
    | _ => s0
  let n := port.val
  if !s.atEntry n then s
  else
  let s := s.modP n fun x => { x with offWait := false }
  match (s.pp n).owed, (s.pa n).releases, s.dueChecks n with
    | k :: _, _, _ => s.owedJob n k
    | [], (g, _) :: _, _ => s.releaseJob n g
    | [], [], k :: _ =>
      let s1 := s.startCheck n k
      if (s1.pf n).carrier then s1 else s1.askOn n
    | [], [], [] =>
      let e := s.nextEntry n
      let s1 := s.modP n fun x => { x with entry := e, list := s.listAsked n }
      s1.runEntry n (s1.pollEntry n e)

/-- `POLL_WAIT_EXPIRY` (R220): with FIELD_OFF the field comes on again. -/
def execPollWaitExpiry (port : Port) (s : State) : Out := s.core fun s =>
  match (s.pp port).waitEnd with
  | some e =>
    let t := ((s.advance e).modP port fun x => { x with waitEnd := none }).entryAfter port
    if (s.pp port).offWait then t.askOn port else t
  | none => s

/-- `PRESENCE_CHECK_DUE` (R236, R237): the instant at which a check of the session falls due has come. -/
def execPresenceCheckDue (sess : SessId) (s : State) : Out := s.core fun s =>
  match s.session sess with
  | some x =>
    match x.dueAt with
    | some t => if x.state = .quiet then s.advance t else s
    | none => s
  | none => s

/-- A write of `PRO.SESS_CMD` (R238, R246); in SAFE the contexts are frozen (R239). -/
def State.writeSessCmd (s : State) (v : Word) : State :=
  if v.toNat.testBit 8 && decide (v.toNat % 256 < 160) && decide (s.gen.phase ≠ .safe) then s.leaveSess (v.toNat % 256) else s

/-- `SESS_CLOSE` (R238). -/
def execSessClose (value : Word) (s : State) : Out := s.core fun s => s.writeSessCmd value

/-- `OVERFLOW_ENTRY_DUE` (R241): the tag of the entry at a place of the list is woken, at a list-entry boundary of its port. -/
def execOverflowEntryDue (place : Nat) (s : State) : Out := s.core fun s =>
  match s.overflow[place]? with
  | some o =>
    if s.atEntry o.port then
      let t := s.advance o.dueAt
      let j := { Job.fresh0 (.overflow place) o.tech with wake := true, ident := o.ident, woken := o.ident }
      t.beginJob o.port (match o.tech with
        | 1 => { j with next := some .reqb, slots := 16 }
        | 2 => { j with next := some .sensf, slots := 15 }
        | 3 => { j with next := some .resetReady }
        | _ => { j with next := some .reqa })
    else s
  | none => s

end Sys2Proof.Machine
end

