-- ==== Sys2Proof/Machine/Accord.lean ====
section
/-! DEFINITION. Accord windows (R276-R292): the detection deadline, the cancellation order, the close of the window, the reports and the
completion of a poll, and the codes that leave quarantine. -/

namespace Sys2Proof.Machine

/-- `ACCORD_DETECT_DEADLINE` (R281): at 2,236/fc, codes without a detected preamble are NONE; with none detected the window closes. -/
def execAccordDetectDeadline (port : Port) (s : State) : Out := s.core fun s =>
  match (s.pa port).poll with
  | some p =>
    if p.closed.isNone && (s.pf port).window.isSome then
      let t := s.advance ((s.pr port).modEnd + s.fc 2236)
      if p.detected = 0 then t.closeAccord port else t
    else s
  | none => s

/-! ### The cancellation order (R282) -/

/-- The strongest of some codes on a residual whose powers are given by code in -1/4 dBFS; equal powers go to the lower code. -/
def strongest (powers : List Nat) : List Nat → Option Nat
  | [] => none
  | c :: t => match strongest powers t with
    | none => some c
    | some d => if (powers[d]?).getD 511 < (powers[c]?).getD 511 then some d else some c

/-- The order of R282: stage by stage over the residuals' powers, up to the weakest power that is detected. -/
def cancelOrder (weakest : Nat) : Nat → List (List Nat) → List Nat → List Nat
  | 0, _, _ => []
  | _, [], _ => []
  | k + 1, powers :: rest, remaining =>
    match strongest powers remaining with
    | none => []
    | some c =>
      if weakest < (powers[c]?).getD 511 then [] else c :: cancelOrder weakest k rest (remaining.filter fun d => d ≠ c)

/-- `ACCORD_ORDER_POINT` (R282): at 3,220/fc the order is fixed; `powers` holds for each stage the correlators' powers on its residual. -/
def execAccordOrderPoint (port : Port) (powers : List (List Nat)) (s : State) : Out := s.core fun s =>
  match (s.pa port).poll with
  | some p =>
    if p.closed.isNone && p.order.isNone && (s.pf port).window.isSome then
      let t := s.advance ((s.pr port).modEnd + s.fc 3220)
      let weakest := t.detectFloor port - 4 * t.fld (Reg.RXE_P_CTRL port) Fld.RXE_P_CTRL_DET_MARGIN
      let found := (List.range 8).filter fun c => p.detected.testBit c
      t.modPoll port fun q => { q with order := some (cancelOrder weakest q.stages powers found) }
    else s
  | none => s

/-- `ACCORD_WINDOW_CLOSE` (R285): every channel has ended. -/
def execAccordWindowClose (port : Port) (s : State) : Out := s.core fun s =>
  if ((s.pa port).poll.any fun p => p.closed.isNone) && (s.pf port).window.isSome then s.closeAccord port else s

/-! ### The reports (R286-R288) -/

/-- The cancellation stage of a code, 0 for none (R282). -/
def AccPoll.stageOf (p : AccPoll) (c : Nat) : Nat :=
  match p.order with
  | some l => if l.contains c then l.idxOf c + 1 else 0
  | none => 0

/-- RESULT of a detected code channel before its session is looked at (R262, R281, R284, R286). -/
def AccPoll.chanResult (p : AccPoll) (c : Nat) (x : Option ChanData) : Nat :=
  if p.ranged.testBit c then 5
  else match x with
    | none => if p.synced.testBit c then 6 else 2
    | some d =>
      match d.ending with
      | .none | .noSync => 2
      | .length => 4
      | .afc => 5
      | .cut => 6
      | .done =>
        if 32 < d.len.toNat then 4
        else if d.payload.length = d.len.toNat ∧ crcA (byte p.group :: d.len :: d.payload) = d.check.toNat then 0
        else 3

/-- The report of a code channel (R286). -/
def AccPoll.chan (p : AccPoll) (chans : List ChanData) (c : Nat) : ChanRes :=
  let x := chans.find? fun d => d.code.val = c
  if p.detected.testBit c then
    let r := p.chanResult c x
    let st := (x.map fun d => d.start).getD 0
    { code := c, early := decide (st < -8), result := r, n := if r = 0 ∨ r = 3 then (x.map fun d => d.len.toNat).getD 0 else 0
      stage := p.stageOf c, power := (x.map fun d => d.power.toNat).getD 0, fofs := (x.map fun d => d.fofs.toNat).getD 0
      start := unsigned 8 (max (-128) (min 127 st)), sinr := (x.map fun d => d.sinr.toNat).getD 0
      payload := if r = 0 then (x.map fun d => d.payload).getD [] else [] }
  else { code := c, early := false, result := 1, n := 0, stage := 0, power := 0, fofs := 0, start := 0, sinr := 0, payload := [] }

/-- ACS0 (R286). -/
def ChanRes.acs0 (r : ChanRes) : Word :=
  packF [(⟨0, 3⟩, r.code), (⟨3, 1⟩, bnat r.early), (⟨4, 4⟩, r.result), (⟨8, 8⟩, r.n), (⟨16, 4⟩, r.stage), (⟨24, 8⟩, r.power)]

/-- ACS1 (R286). -/
def ChanRes.acs1 (r : ChanRes) : Word := packF [(⟨0, 12⟩, r.fofs), (⟨12, 8⟩, r.start), (⟨20, 8⟩, r.sinr)]

/-- The words of one channel in a completion (R287). -/
def ChanRes.words (r : ChanRes) : List Word := r.acs0 :: r.acs1 :: (if r.result = 0 ∨ r.result = 7 then packWords r.payload else [])

/-- The channels with free values where the spec states none: ACS1 of a channel that reports NONE. -/
def State.freeNone (s : State) : List ChanRes → State × List ChanRes
  | [] => (s, [])
  | r :: t =>
    if r.result = 1 then
      let f := s.takeFreeWord
      let v := f.2.toNat
      let u := State.freeNone f.1 t
      (u.1, { r with fofs := v % 4096, start := v / 4096 % 256, sinr := v / 2 ^ 20 % 256 } :: u.2)
    else
      let u := State.freeNone s t
      (u.1, r :: u.2)

/-- PRS.RESULT of an Accord poll (R288). -/
def accordResult (cut : Option Nat) (l : List ChanRes) : Nat :=
  match cut with
  | some r => r
  | none => if l.any fun r => r.result = 0 then 0 else if l.all fun r => r.result = 1 then 1 else 4

/-- SOF_T of a channel (R166): its sync word begins 16 symbols after its first chip. -/
def ChanRes.sofT (r : ChanRes) : Nat := (3220 + signed 8 r.start).toNat

/-- Whether the reply of a channel is early (R186): its sync word begins before RMIN of TECH 6. -/
def State.chanEarly (s : State) (r : ChanRes) : Bool :=
  (decide (r.result = 0) || decide (r.result = 3) || decide (r.result = 4) || decide (6 ≤ r.result)) && decide (r.sofT < s.rmin 6)

/-- RXS0-RXS2 of the stage-1 channel of a poll (R287), 0 where none took stage 1; END of a channel that was cut is that of the cut (R146, R165).
END of a channel that found no sync or a length byte above 32 is not stated: a free value. -/
def State.accordRxs (s : State) (n : Nat) (p : AccPoll) (clip : Bool) (free : Nat) (l : List ChanRes) : Word × Word × Word :=
  match l.find? fun r => r.stage = 1 with
  | none => (0, 0, 0)
  | some r =>
    let y := s.pr n
    let e := match r.result with
      | 0 | 3 | 7 => 0
      | 5 => 2
      | 6 => match p.cut with
        | some 11 => 6
        | some 12 => 7
        | _ => 4
      | _ => free % 16
    let bits := match r.result with
      | 0 | 3 | 7 => 24 + 8 * r.n
      | 2 => 0
      | 4 => 8
      | _ => free / 16 % 65536
    (packF [(⟨0, 4⟩, e), (⟨4, 3⟩, 6), (⟨10, 1⟩, bnat p.blanked), (⟨11, 1⟩, bnat clip), (⟨14, 1⟩, bnat y.weakAtOpen), (⟨16, 16⟩, bits)],
      packF [(⟨0, 20⟩, r.sofT), (⟨20, 8⟩, r.power)],
      packF [(⟨0, 12⟩, 0xFFF), (⟨12, 12⟩, r.fofs), (⟨24, 8⟩, min (s.noiseAvg n - 2 * r.power) 255)])

/-! ### Sessions (R289, R290) -/

/-- The session of port `n` that holds a code. -/
def State.codeSess (s : State) (n g c : Nat) : Option Nat :=
  (s.sess.find? fun x => x.2.port = n && x.2.live && decide (x.2.enrol = some (g, c))).map fun x => x.1

/-- The identity that a reply to SELECTOR 0 must carry (R263, R289). -/
def State.sameIdent (s : State) (k : Nat) (payload : List Byte) : Bool :=
  match s.session k with
  | some x => decide (payload = byte x.ident.length :: x.ident)
  | none => false

/-- A channel with RESULT 0 matched to its session (R289): presence, or ID_MISMATCH with a miss, a release and a withdrawal. -/
def State.matchChan (s : State) (n : Nat) (p : AccPoll) (r : ChanRes) : State × ChanRes :=
  if r.result ≠ 0 then (s, r)
  else match s.codeSess n p.group r.code with
    | none => (s, r)
    | some k =>
      if p.selector = 0 && !s.sameIdent k r.payload then
        let s1 := (s.post 0x6003 .heart 0).modA n fun a => { a with releases := a.releases ++ [(p.group, r.code)] }
        ((s1.withdraw k).missed k, { r with result := 7 })
      else (s.seen k, r)

/-- Every channel matched, in ascending order. -/
def State.matchChans (s : State) (n : Nat) (p : AccPoll) : List ChanRes → State × List ChanRes
  | [] => (s, [])
  | r :: t =>
    let a := s.matchChan n p r
    let b := State.matchChans a.1 n p t
    (b.1, a.2 :: b.2)

/-- The sessions whose check fell due before the poll and whose channel did not answer have missed it (R236, R237, R292). -/
def State.missChans (s : State) (n : Nat) (p : AccPoll) (start : Nat) (l : List ChanRes) : State :=
  l.foldl (fun t r =>
    if r.result = 0 ∨ r.result = 7 then t
    else match t.codeSess n p.group r.code with
      | some k => if (t.session k).any fun x => x.dueAt.any fun d => decide (d ≤ start) then t.missed k else t
      | none => t) s

/-- The reports of a poll in the registers (R286, R294, R549). -/
def State.reportChans (s : State) (n : Nat) (l : List ChanRes) : State :=
  let word01 := fun (c : Nat) => l.find? fun r => r.code = c
  let s1 := (List.range 8).foldl (fun (t : State) c =>
    (t.setReg (Reg.ACD_P_CH_STAT0 n c) (((word01 c).map fun r => r.acs0).getD 0)).setReg (Reg.ACD_P_CH_STAT1 n c)
      (((word01 c).map fun r => r.acs1).getD 0)) s
  let ok := maskOf (fun c => (word01 c).any fun r => r.result = 0) 8
  (s1.setFld (Reg.ACD_P_LAST_POLL n) Fld.ACD_P_LAST_POLL_OK_MASK ok).countBy 97 (l.filter fun r => r.result = 0).length

/-- What the profile of port `n` does after its poll (R290): the bench of the codes that answered, or the end of the poll. -/
def State.afterPoll (s : State) (n : Nat) (l : List ChanRes) : State :=
  match (s.pp n).job with
  | none => s
  | some j =>
    match j.work with
    | .accord _ _ =>
      let ok := maskOf (fun c => l.any fun r => r.code = c && r.result = 0) 8
      if ok = 0 then s.endJob n else s.setJob n (some { j with next := some .benchGroup, codes := ok })
    | _ => s

/-- When the symbols on air of a code channel ended, in 1/fc after the poll: what its result says of it (R261, R284), the close of the window at
the latest. -/
def State.chanEnd (s : State) (n close : Nat) (x : ChanRes) : Nat :=
  let symbols := match x.result with
    | 0 | 3 | 7 => some (53 + 8 * x.n)
    | 4 => some 37
    | 2 => some (16 + s.fld (Reg.RXE_P_CTRL n) Fld.RXE_P_CTRL_W_SOF)
    | _ => none
  match symbols with
  | some k => min close ((s.pr n).modEnd + s.fc ((1236 + signed 8 x.start + k * 124).toNat))
  | none => close

/-- When the last cancellation stage finishes (R285): stage k is complete (k - 1) symbols after its channel's last one on air. -/
def State.stagesEnd (s : State) (n close : Nat) (l : List ChanRes) : Nat :=
  l.foldl (fun m x => max m (s.chanEnd n close x + s.fc ((x.stage - 1) * 124))) close

/-- `ACCORD_STAGES_DONE` (R285-R290): the last stage has finished; reports, sessions, completion, the bench that follows. -/
def execAccordStagesDone (port : Port) (chans : List ChanData) (clip : Bool) (hw : HwFault) (s : State) : Out := s.core fun s0 =>
  let s := match hw with
    | .sessParity k => s0.sessParity k
    | _ => s0
  match (s.pa port).poll, (s.pp port).xch with
  | some p, some x =>
    match p.closed with
    | none => s
    | some tc =>
      let mask := (List.range 8).filter fun c => p.mask.testBit c
      let t := s.advance (s.stagesEnd port tc (mask.map (p.chan chans)))
      let m := t.matchChans port p (mask.map (p.chan chans))
      let m1 := if p.cut.isSome then m.1 else m.1.missChans port p x.startAt m.2
      let f := m1.takeFreeWord
      let g := f.1.freeNone m.2
      let res := accordResult p.cut g.2
      let rxs := g.1.accordRxs port p clip f.2.toNat g.2
      let d : Delivered := { bytes := unpackWords (g.2.map ChanRes.words).flatten, lastBits := 0, rxs0 := rxs.1, rxs1 := rxs.2.1,
                             rxs2 := rxs.2.2, result := res, early := g.2.any g.1.chanEarly }
      let l := g.1.noteRx port 8 clip rxs.1 rxs.2.1 rxs.2.2
      let r := (l.reportChans port g.2).modA port fun a => { a with poll := none }
      let u := (r.endExchange port res (some d) none .none).modP port fun y => { y with lastEnd := tc }
      if x.plan.frame.purpose = .accPoll && p.cut.isNone then u.afterPoll port g.2 else u
  | _, _ => s

/-- `QUARANTINE_EXPIRY` (R272): CODE_HOLD has passed; the code is free. -/
def execQuarantineExpiry (port : Port) (group : Fin 16) (code : Fin 8) (s : State) : Out := s.core fun s =>
  let mine := fun (q : Quar) => decide (q.port = port.val) && decide (q.group = group.val) && decide (q.code = code.val)
  match s.quar.find? mine with
  | some q =>
    let t := s.advance q.ends
    { t with quar := t.quar.filter fun y => !mine y }
  | none => s

end Sys2Proof.Machine
end

