-- ==== Sys2Proof/Machine/Aes.lean ====
section
/-! DEFINITION. AES-128 and its CMAC (R509, R521, R525): the cipher of FIPS 197 and the CMAC of NIST SP 800-38B, which the spec names. -/

namespace Sys2Proof.Machine

/-- The S-box of FIPS 197, 32 bytes a number, the entry for the lowest byte in the lowest bits (PRESUMED: FIPS 197). -/
def sboxRows : List Nat :=
  [0xC072A49CAFA2D4ADF04759FA7DC982CA76ABD7FE2B670130C56F6BF27B777C63,
   0x75B227EBE28012079A059618C323C7041531D871F1E5A534CCF73F362693FDB7,
   0xCF584C4A39BECB6A5BB1FC20ED00D153842FE329B3D63B52A05A6E1B1A2C8309,
   0xD2F3FF1021DAB6BCF5389D928F40A351A89F3C507F02F94585334D43FBAAEFD0,
   0xDB0B5EDE14B8EE4688902A22DC4F816073195D643D7EA7C41744975FEC130CCD,
   0x08AE7A65EAF4566CA94ED58D6D37C8E779E4959162ACD3C25C2406490A3A32E0,
   0x9E1DC186B95735610EF6034866B53E708A8BBD4B1F74DDE8C6B4A61C2E2578BA,
   0x16BB54B00F2D99416842E6BF0D89A18CDF2855CEE9871E9B948ED9691198F8E1]

/-- The inverse S-box. -/
def invSboxRows : List Nat :=
  [0xCBE9DEC444438E3487FF2F9B8239E37CFBD7F3819EA340BF38A53630D56A0952,
   0x25D18B6D49A25B76B224D92866A12E084EC3FA420B954CEE3D23C2A632947B54,
   0x849D8DA75746155EDAB9EDFD5048706C92B6655DCC5CA4D41698688664F6F872,
   0x6B8A130103BDAFC1020F3FCA8F1E2CD00645B3B80558E4F70AD3BC8C00ABD890,
   0x6EDF751CE837F9E28535ADE72274AC9673E6B4F0CECFF297EADC674F4111913A,
   0xF45ACD78FEC0DB9A2079D2C64B3E56FC1BBE18AA0E62B76F89C5291D711AF147,
   0xEF9CC9939F7AE52D0D4AB519A97F51605FEC8027591012B131C7078833A8DD1F,
   0x7D0C2155631469E126D677BA7E042B17619953833CBBEBC8B0F52AAE4D3BE0A0]

/-- The entry of a table for a byte. -/
def aesLook (rows : List Nat) (b : Nat) : Nat := ((rows[b / 32]?).getD 0) >>> (8 * (b % 32)) % 256

/-- SubBytes of one byte. -/
def aesSub (b : Nat) : Nat := aesLook sboxRows b

/-- Its inverse. -/
def aesUnsub (b : Nat) : Nat := aesLook invSboxRows b

/-- Multiplication by x in the field of FIPS 197. -/
def aesDbl (b : Nat) : Nat := (b * 2) % 256 ^^^ (if 128 ≤ b then 0x1B else 0)

/-- Two lists of bytes added. -/
def xorList (a b : List Nat) : List Nat := List.zipWith (fun x y => x ^^^ y) a b

/-- The next round key. -/
def aesNextKey (k : List Nat) (rcon : Nat) : List Nat :=
  let t := match k.drop 12 with
    | a :: b :: c :: d :: _ => [aesSub b ^^^ rcon, aesSub c, aesSub d, aesSub a]
    | _ => []
  let w0 := xorList (k.take 4) t
  let w1 := xorList ((k.drop 4).take 4) w0
  let w2 := xorList ((k.drop 8).take 4) w1
  let w3 := xorList (k.drop 12) w2
  w0 ++ w1 ++ w2 ++ w3

/-- The round keys that follow a round key. -/
def aesKeys : List Nat → Nat → Nat → List (List Nat)
  | _, _, 0 => []
  | k, rcon, n + 1 => aesNextKey k rcon :: aesKeys (aesNextKey k rcon) (aesDbl rcon) n

/-- The bytes of a block at given places. -/
def aesPick (l : List Nat) (p : List Nat) : List Nat := p.map fun i => (l[i]?).getD 0

/-- ShiftRows. -/
def aesShift (l : List Nat) : List Nat := aesPick l [0, 5, 10, 15, 4, 9, 14, 3, 8, 13, 2, 7, 12, 1, 6, 11]

/-- Its inverse. -/
def aesUnshift (l : List Nat) : List Nat := aesPick l [0, 13, 10, 7, 4, 1, 14, 11, 8, 5, 2, 15, 12, 9, 6, 3]

/-- MixColumns. -/
def aesMix : List Nat → List Nat
  | a :: b :: c :: d :: t =>
    let s := a ^^^ b ^^^ c ^^^ d
    (a ^^^ s ^^^ aesDbl (a ^^^ b)) :: (b ^^^ s ^^^ aesDbl (b ^^^ c)) :: (c ^^^ s ^^^ aesDbl (c ^^^ d)) :: (d ^^^ s ^^^ aesDbl (d ^^^ a))
      :: aesMix t
  | l => l

/-- Its inverse. -/
def aesUnmix : List Nat → List Nat
  | a :: b :: c :: d :: t =>
    let u := aesDbl (aesDbl (a ^^^ c))
    let v := aesDbl (aesDbl (b ^^^ d))
    aesMix [a ^^^ u, b ^^^ v, c ^^^ u, d ^^^ v] ++ aesUnmix t
  | l => l

/-- The rounds of the cipher over the round keys; the last one leaves MixColumns out. -/
def aesRounds (x : List Nat) : List (List Nat) → List Nat
  | [] => x
  | [k] => xorList (aesShift (x.map aesSub)) k
  | k :: t => aesRounds (xorList (aesMix (aesShift (x.map aesSub))) k) t

/-- The bytes of a list as numbers. -/
def toNats (l : List Byte) : List Nat := l.map fun b => b.toNat

/-- Numbers as bytes. -/
def toBytes (l : List Nat) : List Byte := l.map fun n => byte n

/-- AES-128 of a block of 16 bytes under a key of 16 bytes. -/
def aesEncrypt (key block : List Byte) : List Byte :=
  toBytes (aesRounds (xorList (toNats block) (toNats key)) (aesKeys (toNats key) 1 10))

/-- The inverse cipher, by the round keys in reverse order. -/
def aesDecrypt (key block : List Byte) : List Byte :=
  match (aesKeys (toNats key) 1 10).reverse with
  | last :: rest =>
    let x := (aesUnshift (xorList (toNats block) last)).map aesUnsub
    toBytes (xorList (rest.foldl (fun y r => (aesUnshift (aesUnmix (xorList y r))).map aesUnsub) x) (toNats key))
  | [] => []

/-- A subkey of CMAC doubled: the block as a big-endian number, times x. -/
def cmacDbl (l : List Nat) : List Nat :=
  let n := l.foldl (fun a b => 256 * a + b) 0
  let d := (n * 2) % 2 ^ 128 ^^^ (if 2 ^ 127 ≤ n then 0x87 else 0)
  (List.range 16).map fun i => d >>> (8 * (15 - i)) % 256

/-- The blocks of a message chained (SP 800-38B): `k1` and `k2` are the subkeys for a whole and for a padded last block; the first number
bounds the blocks. -/
def cmacRun (enc : List Nat → List Nat) (k1 k2 : List Nat) : Nat → List Nat → List Nat → List Nat
  | 0, x, _ => x
  | n + 1, x, m =>
    if 16 < m.length then cmacRun enc k1 k2 n (enc (xorList x (m.take 16))) (m.drop 16)
    else if m.length = 16 then enc (xorList x (xorList m k1))
    else enc (xorList x (xorList (m ++ 0x80 :: List.replicate (15 - m.length) 0) k2))

/-- The CMAC of a message (SP 800-38B): 16 bytes. -/
def cmac (key msg : List Byte) : List Byte :=
  let k := toNats key
  let keys := aesKeys k 1 10
  let enc := fun x => aesRounds (xorList x k) keys
  let k1 := cmacDbl (enc (List.replicate 16 0))
  toBytes (cmacRun enc k1 (cmacDbl k1) (msg.length / 16 + 1) (List.replicate 16 0) (toNats msg))

/-- TAG of R509: the 8 leftmost bytes of the CMAC. -/
def authTag (key msg : List Byte) : List Byte := (cmac key msg).take 8

end Sys2Proof.Machine
end

