-- ==== Sys2Proof/Machine/StoreBus.lean ====
section
/-! DEFINITION. What STO places on the bus of a chip select (R337, R339, R621): the items of an operation, their command bytes, and how many
`SSCK` clocks each takes. -/

namespace Sys2Proof.Machine

/-- The state with the store port changed. -/
def State.setSto (s : State) (x : StoSt) : State := { s with sto := x }

/-- A clock of `SSCK` (R361). -/
def State.ssck (s : State) : Nat := (s.fld Reg.STO_CLOCK Fld.STO_CLOCK_DIV + 1) * cycle

/-- Whether the bus runs 8D-8D-8D (R337). -/
def State.octalDdr (s : State) : Bool := s.flag Reg.STO_CLOCK Fld.STO_CLOCK_DDR

/-- The opcode of an item (R337, R361). -/
def State.opcodeOf (s : State) : BusItem → Nat
  | .dieSelect => s.fld Reg.STO_OPS1 Fld.STO_OPS1_DIE_SELECT
  | .pageRead => s.fld Reg.STO_OPS0 Fld.STO_OPS0_PAGE_READ
  | .cacheRead _ => s.fld Reg.STO_OPS0 Fld.STO_OPS0_CACHE_READ
  | .getFeature _ => s.fld Reg.STO_OPS1 Fld.STO_OPS1_GET_FEATURE
  | .writeEnable => s.fld Reg.STO_OPS1 Fld.STO_OPS1_WRITE_ENABLE
  | .progLoad => s.fld Reg.STO_OPS0 Fld.STO_OPS0_PROG_LOAD
  | .progExec => s.fld Reg.STO_OPS0 Fld.STO_OPS0_PROG_EXEC
  | .erase => s.fld Reg.STO_OPS1 Fld.STO_OPS1_ERASE
  | .suspend => s.fld Reg.STO_OPS2 Fld.STO_OPS2_SUSPEND
  | .resume => s.fld Reg.STO_OPS2 Fld.STO_OPS2_RESUME
  | .reset => s.fld Reg.STO_OPS2 Fld.STO_OPS2_RESET

/-- The command bytes of an item (R337): in 8D-8D-8D the opcode is followed by its inverse, or by its repeat where CMD_EXT is 1. -/
def State.busCmd (s : State) (i : BusItem) : BusItem × List Byte :=
  let b := byte (s.opcodeOf i)
  (i, if s.octalDdr then [b, if s.flag Reg.STO_CLOCK Fld.STO_CLOCK_CMD_EXT then b else ~~~b] else [b])

/-- The clocks of an item (R621); the spec counts those of reads only. -/
def State.busClocks (s : State) (i : BusItem) : Nat :=
  let dummy := s.fld Reg.STO_CLOCK Fld.STO_CLOCK_DUMMY
  match i with
  | .dieSelect => 2
  | .pageRead => if s.octalDdr then 3 else 5
  | .getFeature _ => if s.octalDdr then 4 + dummy else 6 + dummy
  | .cacheRead len => if s.octalDdr then 3 + dummy + (len + 1) / 2 else 5 + dummy + len
  | _ => 0

/-- How long items take on the bus one after another, with at least 4 clocks between any two (R621). -/
def State.busTime (s : State) (l : List BusItem) : Nat :=
  ((l.map s.busClocks).foldl (· + ·) 0 + 4 * (l.length - 1)) * s.ssck

/-- Items placed on the bus. -/
def State.placeItems (s : State) (l : List BusItem) : State := s.setSto { s.sto with wire := l.map s.busCmd }

/-- Whether a die other than the one last addressed on its chip select is addressed (R621). -/
def State.newDie (s : State) (die : Nat) : Bool := decide (s.sto.addressed[die / 8]? ≠ some (some die))

/-- The items with which an operation begins (R337, R621): the die selected where it changes, then the operation's own commands. What a program
and an erase place is that of the family's NAND (PRESUMED, log 78). -/
def State.firstItems (s : State) (k : StoKind) (die : Nat) : List BusItem :=
  (if s.newDie die then [BusItem.dieSelect] else []) ++
    match k with
    | .shelf _ | .hostRead _ _ _ | .headRead => [BusItem.pageRead]
    | .hostProgram _ | .spillProgram | .grownWrite => [.writeEnable, .progLoad, .progExec]
    | .hostErase _ | .spillErase => [.writeEnable, .erase]

/-- The bytes that an operation reads from cache (R323, R350, R356). -/
def StoKind.readLen : StoKind → Nat
  | .shelf _ => 512
  | .hostRead _ _ len => len
  | _ => 4096

/-- GET_FEATURE of the status register (R339, R621). -/
def State.statusPoll (s : State) : BusItem := .getFeature (s.fld Reg.STO_ECC Fld.STO_ECC_STAT_ADDR)

/-- The items that end a read (R339, R621): the poll that sees it ready, the read from cache, the ECC status. -/
def State.lastItems (s : State) (k : StoKind) : List BusItem := [s.statusPoll, .cacheRead k.readLen, s.statusPoll]

/-- The first poll at or after `t` of an operation that started at `t0` (R621): 2.0 µs after it, then every 2.0 µs. -/
def pollAt (t0 t : Nat) : Nat := t0 + max 1 ((t - t0 + 2 * usec - 1) / (2 * usec)) * (2 * usec)

/-- Whether a status byte says that the die is still busy (R339). -/
def State.stillBusy (s : State) (status : Byte) : Bool := decide (status.toNat &&& s.fld Reg.STO_ECC Fld.STO_ECC_BUSY_MASK ≠ 0)

end Sys2Proof.Machine
end

