-- ==== Sys2Proof/Machine/Store.lean ====
section
/-! DEFINITION. The store port (R337-R361): the queue and its scheduling, page reads, programs and erases, grown bad blocks, the ring head
and spill pages, host commands, timeouts and the start-up, and the commands on them. -/

namespace Sys2Proof.Machine

/-- The first `n` elements of a list, made up to `n` with a filler. -/
def padTo {α : Type} (fill : α) (n : Nat) (l : List α) : List α := l.take n ++ List.replicate (n - l.length) fill

/-- `STO.STATUS.READY`. -/
def State.stoReady (s : State) : Bool := s.flag Reg.STO_STATUS Fld.STO_STATUS_READY

/-- Whether a store is attached at all (R358). -/
def State.stoThere (s : State) : Bool := decide (s.fld Reg.STO_GEOM Fld.STO_GEOM_CS_COUNT ≠ 0)

/-! ### Host buffers and commands (R350, R351) -/

/-- RESULTk. -/
def hResult (k : Nat) : Field := ⟨8 * k, 4⟩
/-- BUSYk. -/
def hBusy (k : Nat) : Field := ⟨8 * k + 4, 1⟩
/-- DONEk. -/
def hDone (k : Nat) : Field := ⟨8 * k + 5, 1⟩

/-- Buffer `k`'s bytes unlike 0. -/
def State.stoBuf (s : State) (k : Nat) : List (Nat × Byte) := if k = 0 then s.sto.buf0 else s.sto.buf1

/-- The state with bytes written into buffer `k` from offset `o` on. -/
def State.writeBuf (s : State) (k o : Nat) (b : List Byte) : State :=
  let m := Sparse.write (s.stoBuf k) 0 o b
  s.setSto (if k = 0 then { s.sto with buf0 := m } else { s.sto with buf1 := m })

/-- A host command on buffer `k` completed with a RESULT. -/
def State.hostEnd (s : State) (k result : Nat) : State :=
  ((s.setFld Reg.STO_HSTATUS (hResult k) result).setFld Reg.STO_HSTATUS (hBusy k) 0).stick Reg.STO_HSTATUS (hDone k)

/-- Whether R351 refuses a host command. -/
def State.hcmdBad (s : State) (op region page col len buf : Nat) : Bool :=
  s.flag Reg.STO_HSTATUS (hBusy buf) || decide (region = 3) || decide (s.pagesOf region ≤ page)
    || (decide (op ≠ 1) && (decide (region = s.activeBank) || decide (region = 2))) || decide (4096 < col + len)

/-- A write of `STO.HCMD` (R350, R351, R358, R357). A refused command leaves a busy buffer's command in progress. -/
def State.writeHcmd (s : State) (v : Word) : State :=
  let op := Fld.STO_HCMD_OP.get v
  let region := Fld.STO_HCMD_REGION.get v
  let page := Fld.STO_HCMD_PAGE.get v
  let buf := Fld.STO_HCMD_BUF.get v
  let col := s.fld Reg.STO_HCOL Fld.STO_HCOL_COL
  let len := s.fld Reg.STO_HCOL Fld.STO_HCOL_LEN
  if op = 0 ∨ 3 < op then s
  else if s.hcmdBad op region page col len buf && (s.stoReady || s.flag Reg.STO_HSTATUS (hBusy buf)) then
    let s1 := s.post 0x8006 .top 0
    if s.flag Reg.STO_HSTATUS (hBusy buf) then s1.setFld Reg.STO_HSTATUS (hResult buf) 5 else s1.hostEnd buf 5
  else if s.gen.phase = .safe then s.hostEnd buf 8
  else if !s.stoReady then s.hostEnd buf 7
  else if op = 1 ∧ len = 0 then s.hostEnd buf 6
  else
    (s.queueOp (if op = 1 then .hostRead buf col len else if op = 2 then .hostProgram buf else .hostErase buf) region page).setFld
      Reg.STO_HSTATUS (hBusy buf) 1

/-! ### Spill pages and the ring head (R354-R356) -/

/-- The 60 bytes of a spill page's header before its check (R354). -/
def spillHeader (seq count : Nat) : List Byte :=
  [0x4B, 0x59, 0x4C, 0x47] ++ leBytes 4 seq ++ [byte count] ++ List.replicate 51 0

/-- The 4,096 bytes of a spill page (R354). -/
def spillPage (page seq : Nat) (recs : List Rec) : List Byte :=
  let h := spillHeader seq recs.length
  let body := padTo 0 4032 (recs.flatMap Rec.bytes)
  h ++ leBytes 4 (crc32cFold page (h ++ body)) ++ body

/-- PAGE_SEQ of a page of the log region, none where it fails MAGIC or CHECK (R356). -/
def spillSeqOf (page : Nat) (data : List Byte) : Option Nat :=
  if data.take 4 = [0x4B, 0x59, 0x4C, 0x47] ∧ leAt data 60 4 = crc32cFold page (data.take 60 ++ (data.drop 64).take 4032) then
    some (leAt data 4 4)
  else none

/-- Whether a found sequence is higher than the best so far; no valid page is lower than any (R356). -/
def seqAbove (found best : Option Nat) : Bool :=
  match found, best with
  | some a, some b => decide (b < a)
  | some _, none => true
  | none, _ => false

/-- The ring head found: the next page to write, and its PAGE_SEQ (R356). A head within a block finds it erased for this pass. -/
def State.headFound (s : State) (head seq : Nat) (last : Option Nat) : State :=
  let n := s.pagesOf 2
  let h := if n ≤ head then 0 else head
  let s1 := (s.setReg Reg.STO_SPILL (packF [(Fld.STO_SPILL_HEAD, h), (Fld.STO_SPILL_VALID, 1)])).setSto
    { s.sto with search := .found, spillSeq := seq, erased := decide (h % s.geom.ppb ≠ 0) }
  match last with
  | some q => s1.setReg Reg.STO_SPILL_SEQ (word q)
  | none => s1

/-- A search brought to where its next read, or its end, is known: blocks within one go over to pages, pages within one are the end. -/
def State.headSettle (s : State) : State :=
  match s.sto.search with
  | .blocks lo hi best =>
    if hi ≤ lo + 1 then
      match best with
      | some (b, q) => s.setSto { s.sto with search := .pages b 0 s.geom.ppb (b * s.geom.ppb, q) }
      | none => s.headFound 0 0 none
    else s
  | _ => s

/-- The page that the search reads next (R356): the first of the blocks, then the middle of the bounds. -/
def State.headPage (s : State) : Option Nat :=
  let ppb := s.geom.ppb
  match s.sto.search with
  | .waiting => some 0
  | .blocks lo hi _ => some ((lo + hi) / 2 * ppb)
  | .pages b lo hi _ => some (b * ppb + (lo + hi) / 2)
  | .found => none

/-- A read of the search taken up (R356): the sequence found in the page, none where it does not count. -/
def State.headSeen (s : State) (page : Nat) (found : Option Nat) : State :=
  let ppb := s.geom.ppb
  match s.sto.search with
  | .waiting =>
    (s.setSto { s.sto with search := .blocks 0 (s.pagesOf 2 / ppb) (found.map fun q => (0, q)) }).headSettle
  | .blocks lo hi best =>
    let mid := (lo + hi) / 2
    let x := if seqAbove found (best.map fun b => b.2) then HeadSearch.blocks mid hi (found.map fun q => (mid, q))
      else HeadSearch.blocks lo mid best
    (s.setSto { s.sto with search := x }).headSettle
  | .pages b lo hi best =>
    let mid := (lo + hi) / 2
    let up := seqAbove found (some best.2)
    let lo1 := if up then mid else lo
    let hi1 := if up then hi else mid
    let best1 := if up then (page, found.getD 0) else best
    if hi1 ≤ lo1 + 1 then s.headFound (best1.1 + 1) ((best1.2 + 1) % 2 ^ 32) (some best1.2)
    else s.setSto { s.sto with search := .pages b lo1 hi1 best1 }
  | .found => s

/-- Whether an operation belongs to the spill (R346). -/
def StoKind.ofSpill : StoKind → Bool
  | .headRead | .spillErase | .spillProgram => true
  | _ => false

/-- The next operation of the spill queued where none waits (R355, R356): a read of the head search from the first RUN on, then for a page
handed over the erase of its block and its program. -/
def State.pumpSpill (s : State) : State :=
  if !s.saf.hasRun || !s.stoReady || decide (s.pagesOf 2 = 0) || s.sto.queue.any (fun q => q.kind.ofSpill) then s
  else
    let head := s.fld Reg.STO_SPILL Fld.STO_SPILL_HEAD
    match s.headPage with
    | some p => s.queueOp .headRead 2 p
    | none =>
      if s.obs.sil.stages.any fun p => p.handed then
        if head % s.geom.ppb = 0 ∧ ¬ s.sto.erased then s.queueOp .spillErase 2 head else s.queueOp .spillProgram 2 head
      else s

/-! ### Scheduling (R346-R348) -/

/-- The order in which a die's operations start (R347): the ring-head reads and the writing of the grown list stand with the spill. -/
def StoKind.rank : StoKind → Nat
  | .shelf _ => 0
  | .hostRead _ _ _ => 1
  | .headRead | .spillErase | .spillProgram | .grownWrite => 2
  | .hostProgram _ | .hostErase _ => 3

/-- Whether an operation is a program or an erase. -/
def StoKind.writes : StoKind → Bool
  | .shelf _ | .hostRead _ _ _ | .headRead => false
  | _ => true

/-- Whether an operation is a shelf read. -/
def StoKind.isShelf : StoKind → Bool
  | .shelf _ => true
  | _ => false

/-- Whether an operation is a host program or erase. -/
def StoKind.hostWrites : StoKind → Bool
  | .hostProgram _ | .hostErase _ => true
  | _ => false

/-- The physical block of an operation (R341, R343). -/
def State.opBlock (s : State) (q : StoOp) : Option Nat :=
  if q.region = 3 then s.geom.reserveBlock q.page else s.geom.blockAt q.region (q.page / s.geom.ppb)

/-- The die of an operation, in progress or to be. -/
def State.opDie (s : State) (q : StoOp) : Option Nat :=
  if q.started.isSome then some q.die else (s.opBlock q).map s.geom.dieOf

/-- Whether an operation runs on a die now. -/
def StoOp.runsOn (q : StoOp) (d : Nat) : Bool := q.started.isSome && !q.suspended && decide (q.die = d)

/-- Whether a shelf read gives uncorrectable without a read (R345, R358), or because the region no longer has its page. -/
def State.shelfFails (s : State) (q : StoOp) : Bool :=
  !s.stoReady || !s.stoThere || s.flag (Reg.STO_PAGES q.region) Fld.STO_PAGES_MAP_CHANGED || (s.opBlock q).isNone

/-- The shelf reads that have a place in the queue of 64 (R346): the oldest, beside all other commands. -/
def State.queuedShelves (s : State) : List StoOp :=
  (s.sto.queue.filter fun q => q.kind.isShelf).take (64 - (s.sto.queue.filter fun q => !q.kind.isShelf).length)

/-- Whether the die of a program or erase has to itself all that it needs (R348): nothing running or suspended, no shelf read queued. -/
def State.dieClear (s : State) (d : Nat) : Bool :=
  s.sto.queue.all fun q => !(decide (q.started.isSome) && decide (q.die = d)) && !(q.kind.isShelf && decide (s.opDie q = some d))

/-- Whether STO may start an operation now (R347, R348, R352). -/
def State.mayStart (s : State) (q : StoOp) : Bool :=
  q.started.isNone &&
    (match s.opBlock q with
    | none => true
    | some b =>
      let d := s.geom.dieOf b
      if q.kind.isShelf then
        s.queuedShelves.any (fun x => x = q) &&
          (s.shelfFails q || !(s.sto.queue.any fun x => x.runsOn d && !(x.kind.writes && s.flag Reg.STO_GEOM Fld.STO_GEOM_SUSPEND
            && decide (x.suspends < 8))))
      else if q.kind.writes then
        s.dieClear d && !(q.kind.hostWrites && s.kpr.slots.any fun x => x.bank ≠ s.activeBank)
      else !(s.sto.queue.any fun x => x.started.isSome && decide (x.die = d)))

/-- The place in the queue of the operation to start: the lowest rank, the oldest of it. -/
def State.nextOp (s : State) : Option Nat :=
  firstSome (fun r => s.sto.queue.findIdx? fun q => decide (q.kind.rank = r) && s.mayStart q) [0, 1, 2, 3]

/-- The state without the operation at a place of the queue. -/
def State.dropOp (s : State) (i : Nat) : State := s.setSto { s.sto with queue := s.sto.queue.eraseIdx i }

/-- What a program loads into the store (R350, R354). -/
def State.opData (s : State) (q : StoOp) : List Byte :=
  match q.kind with
  | .hostProgram k => Sparse.read (s.stoBuf k) 0 0 4096
  | .spillProgram =>
    match s.obs.sil.stages with
    | p :: _ => spillPage q.page s.sto.spillSeq p.recs
    | [] => s.sto.loaded
  | _ => s.sto.loaded

/-- The operation at place `i` started on its die, once its first items are on the bus (R621): a program or erase running there is suspended
(R348). -/
def State.startOp (s : State) (i : Nat) (q : StoOp) (block : Nat) : State :=
  let d := s.geom.dieOf block
  let l := s.sto.queue.map fun (x : StoOp) => if x.runsOn d then { x with suspended := true, suspends := x.suspends + 1 } else x
  let items := (if s.sto.queue.any fun x => x.runsOn d then [BusItem.suspend] else []) ++ s.firstItems q.kind d
  (s.placeItems items).setSto { (s.placeItems items).sto with
    queue := l.set i { q with die := d, block := block, started := some (s.time + s.busTime items) }
    loaded := s.opData q, addressed := s.sto.addressed.set (d / 8) (some d) }

/-- The operation at place `i` started, or ended at once where it has nothing to run on: a shelf read as uncorrectable (R345, R358), a
host command as refused because its page is no longer there, an operation of the spill to be queued anew. -/
def State.beginOp (s : State) (i : Nat) (q : StoOp) : State :=
  match q.kind, s.opBlock q with
  | .shelf n, b =>
    if s.shelfFails q then (s.dropOp i).shelfDone n none .none
    else match b with
      | some k => s.startOp i q k
      | none => s
  | .hostRead k _ _, none => (s.dropOp i).hostEnd k 5
  | .hostProgram k, none => (s.dropOp i).hostEnd k 5
  | .hostErase k, none => (s.dropOp i).hostEnd k 5
  | _, none => s.dropOp i
  | _, some k => s.startOp i q k

/-- `STORE_OP_START` (R347): nothing starts in SAFE (R357) or while the store is being reset (R340). -/
def execStoreOpStart (s : State) : Out := s.core fun s =>
  if s.gen.phase = .safe ∨ s.gen.phase = .start ∨ (s.stoReady && s.flag Reg.STO_STATUS Fld.STO_STATUS_FAIL) = true then s
  else
    let t := s.pumpSpill
    match t.nextOp with
    | some i =>
      match t.sto.queue[i]? with
      | some q => t.beginOp i q
      | none => t
    | none => t

/-! ### Completions (R339, R342, R353, R355) -/

/-- The place in the queue of what runs on a die, where it passes a test. -/
def State.running (s : State) (die : Nat) (p : StoKind → Bool) : Option (Nat × StoOp) :=
  match s.sto.queue.findIdx? fun q => q.runsOn die && p q.kind with
  | some i => (s.sto.queue[i]?).map fun q => (i, q)
  | none => none

/-- The operation at a place taken out of the queue as it completes: one it had suspended on its die resumes (R348). -/
def State.endOp (s : State) (i : Nat) (q : StoOp) : State :=
  let t := s.dropOp i
  let t1 := if t.sto.queue.any fun x => x.die = q.die && x.suspended then t.placeItems [.resume] else t
  t1.setSto { t1.sto with queue := t1.sto.queue.map fun (x : StoOp) => if x.die = q.die ∧ x.suspended then { x with suspended := false } else x }

/-- ECC outcomes of a page read (R339). -/
inductive Ecc where
  | ok | corrected | uncorrectable
  deriving DecidableEq, Repr

/-- The outcome that a status byte says (R339). -/
def State.eccOf (s : State) (status : Byte) : Ecc :=
  let b := status.toNat &&& s.fld Reg.STO_ECC Fld.STO_ECC_MASK
  if b = s.fld Reg.STO_ECC Fld.STO_ECC_UNCORR then .uncorrectable else if b ≠ 0 then .corrected else .ok

/-- A read counted by its outcome (R339, R359). -/
def State.countEcc (s : State) (e : Ecc) : State :=
  match e with
  | .ok => s
  | .corrected => s.bump Reg.STO_COUNTS Fld.STO_COUNTS_CORRECTED
  | .uncorrectable => (s.bump Reg.STO_COUNTS Fld.STO_COUNTS_UNCORR).postSec 0x8001 0 .heart 0

/-- RESULT of a host read (R361). -/
def Ecc.result : Ecc → Nat
  | .ok => 0 | .corrected => 1 | .uncorrectable => 2

/-- The status register of the die of an operation read (R339, R621): at the first poll that comes. -/
def State.pollDie (s : State) (q : StoOp) : State := (s.advance (pollAt (q.started.getD s.time) s.time)).placeItems [s.statusPoll]

/-- `STORE_STATUS_POLL` (R621): the next poll finds the die still busy. One that finds it ready comes with the command that completes the
operation. -/
def execStoreStatusPoll (die : Fin 16) (s : State) : Out := s.core fun s =>
  match s.running die fun _ => true with
  | some (_, q) => (s.advance (pollAt (q.started.getD s.time) (s.time + 1))).placeItems [s.statusPoll]
  | none => s

/-- `STORE_PAGE_READ_DONE` (R339, R323, R350, R356, R621): a poll finds the page in the cache, from which it is then read; `status` is the
status register. -/
def execStorePageReadDone (die : Fin 16) (status : Byte) (data : List Byte) (hw : HwFault) (s : State) : Out := s.core fun s =>
  match s.running die fun k => !k.writes with
  | some (i, q) =>
    if s.stillBusy status then s.pollDie q
    else
    let e := s.eccOf status
    let read := s.pollDie q
    let t := (((read.advance (read.time + read.busTime (read.lastItems q.kind))).placeItems (read.lastItems q.kind)).endOp i q).countEcc e
    match q.kind with
    | .shelf n => t.shelfDone n (if e = .uncorrectable then none else some (padTo 0 512 data)) hw
    | .hostRead k col len => (t.writeBuf k col (padTo 0 len data)).hostEnd k e.result
    | .headRead => t.headSeen q.page (if e = .uncorrectable then none else spillSeqOf q.page (padTo 0 4096 data))
    | _ => t
  | none => s

/-- Whether a copy of the grown list already waits to be written to a part of the reserve. -/
def State.grownWaits (s : State) (part : Nat) : Bool :=
  s.sto.queue.any fun q => decide (q.kind = .grownWrite) && decide (q.page = part) && q.started.isNone

/-- A block that has failed a program or an erase (R342, R344, R353): it joins the grown list, both copies of the list are to be written,
the page counts follow. -/
def State.blockFailed (s : State) (q : StoOp) (code : Nat) : State :=
  let t := (s.setSto { s.sto with grown := insertAsc q.block s.sto.grown }).setPages
  let t1 := (t.setReg Reg.STO_GROWN (packF [(Fld.STO_GROWN_COUNT, t.sto.grown.length),
    (Fld.STO_GROWN_LAST_LBLOCK, if q.region = 3 then 0 else q.page / t.geom.ppb)])).post code .heart 0
  let t2 := if t1.grownWaits 0 then t1 else t1.queueOp .grownWrite 3 0
  if t2.grownWaits 1 then t2 else t2.queueOp .grownWrite 3 1

/-- HEAD moved to a page of the log region, past the last to page 0 (R355). -/
def State.setHead (s : State) (page : Nat) : State :=
  let h := if s.pagesOf 2 ≤ page then 0 else page
  (s.setFld Reg.STO_SPILL Fld.STO_SPILL_HEAD h).setSto { s.sto with erased := if h % s.geom.ppb = 0 then false else s.sto.erased }

/-- A spill page written (R355): the stage is free again. -/
def State.spillWritten (s : State) : State :=
  let t := (s.setSil { s.obs.sil with stages := s.obs.sil.stages.tail }).setReg Reg.STO_SPILL_SEQ (word s.sto.spillSeq)
  (t.setSto { t.sto with spillSeq := (t.sto.spillSeq + 1) % 2 ^ 32 }).setHead (t.fld Reg.STO_SPILL Fld.STO_SPILL_HEAD + 1)

/-- The spill after its block has failed (R355): the page goes to the start of the next logical block, which is the one that the list,
now shorter, has at this place. -/
def State.spillMoved (s : State) (page : Nat) : State :=
  let t := s.setHead (page / s.geom.ppb * s.geom.ppb)
  t.setSto { t.sto with erased := false }

/-- `STORE_PROGRAM_DONE` (R339, R342): the program fail bit is bit 3 of the status. -/
def execStoreProgramDone (die : Fin 16) (status : Byte) (s : State) : Out := s.core fun s =>
  match s.running die fun k => match k with
    | .hostProgram _ | .spillProgram | .grownWrite => true
    | _ => false with
  | some (i, q) =>
    if s.stillBusy status then s.pollDie q
    else
    let bad := status.toNat.testBit 3
    let t := s.endOp i q
    let t1 := if bad then t.blockFailed q 0x8002 else t.count 93
    match q.kind with
    | .hostProgram k => t1.hostEnd k (if bad then 3 else 0)
    | .spillProgram => if bad then t1.spillMoved q.page else t1.spillWritten
    | .grownWrite => if bad then t1 else t1.setSto { t1.sto with reserve := t1.sto.grown }
    | _ => t1
  | none => s

/-- `STORE_ERASE_DONE` (R339, R342): the erase fail bit is bit 2 of the status. -/
def execStoreEraseDone (die : Fin 16) (status : Byte) (s : State) : Out := s.core fun s =>
  match s.running die fun k => match k with
    | .hostErase _ | .spillErase => true
    | _ => false with
  | some (i, q) =>
    if s.stillBusy status then s.pollDie q
    else
    let bad := status.toNat.testBit 2
    let t := s.endOp i q
    let t1 := if bad then t.blockFailed q 0x8003 else t.count 94
    match q.kind with
    | .hostErase k => t1.hostEnd k (if bad then 4 else 0)
    | .spillErase => if bad then t1.spillMoved q.page else t1.setSto { t1.sto with erased := true }
    | _ => t1
  | none => s

/-! ### Timeouts and the start-up (R340, R357, R358) -/

/-- The timeout of an operation (R340). -/
def StoKind.timeout : StoKind → Nat
  | .shelf _ | .hostRead _ _ _ | .headRead => msec
  | .hostProgram _ | .spillProgram | .grownWrite => 5 * msec
  | .hostErase _ | .spillErase => 50 * msec

/-- The buffer of a host command. -/
def StoKind.buffer : StoKind → Option Nat
  | .hostRead k _ _ => some k
  | .hostProgram k => some k
  | .hostErase k => some k
  | _ => none

/-- Every chip select reset (R340): host commands in progress end with RESULT 7, all else that was in progress is issued again. -/
def State.resetStore (s : State) : State :=
  let gone := s.sto.queue.filter fun q => q.started.isSome && q.kind.buffer.isSome
  let rest := s.sto.queue.filter fun q => !(q.started.isSome && q.kind.buffer.isSome)
  let t := (s.setSto { s.sto with queue := rest.map fun (q : StoOp) => { q with started := none, suspends := 0, suspended := false } }).placeItems
    [.reset]
  gone.foldl (fun u q => match q.kind.buffer with
    | some k => u.hostEnd k 7
    | none => u) t

/-- `STO_TIMEOUT` (R340): in RUN and RECOVERY the store's reinitialisation is a recovery action with CAUSE 2; in TEST it takes place at
once. -/
def execStoTimeout (die : Fin 16) (s : State) : Out := s.core fun s =>
  match s.running die fun _ => true with
  | some (_, q) =>
    let t := s.advance ((q.started.getD s.time) + q.kind.timeout)
    let t1 := ((t.setFld Reg.STO_STATUS Fld.STO_STATUS_FAIL 1).post 0x8004 .heart 0).resetStore
    match t1.gen.phase with
    | .run | .recovery => t1.recover 2
    | .test => t1.setFld Reg.STO_STATUS Fld.STO_STATUS_FAIL 0
    | _ => t1
  | none => s

/-- The map signature of the active bank checked against NV (R345). -/
def State.mapCheck (s : State) : State :=
  let b := s.activeBank
  let sig := ((s.kpr.nvBanks[b]?).map fun v => v.sig).getD 0
  let differs := decide (s.geom.signature b ≠ sig)
  let t := s.setFld (Reg.STO_PAGES b) Fld.STO_PAGES_MAP_CHANGED (bnat differs)
  if differs then t.post 0x8005 .heart 0 else t

/-- R357 completed: the grown list as the reserve holds it, the page counts, the signature, READY. -/
def State.storeUp (s : State) : State :=
  let g := unionAsc s.sto.reserve []
  let t := (s.setSto { s.sto with grown := g }).setPages
  let t1 := (t.setFld Reg.STO_GROWN Fld.STO_GROWN_COUNT g.length).mapCheck
  (t1.setFld Reg.STO_STATUS Fld.STO_STATUS_READY 1).setFld Reg.STO_STATUS Fld.STO_STATUS_FAIL 0

/-- R357 in START: with no store READY comes at once with every page count 0; a store that fails leaves READY at 0 (R358). -/
def State.storeStart (s : State) (ok : Bool) : State :=
  if !s.stoThere then s.setFld Reg.STO_STATUS Fld.STO_STATUS_READY 1
  else if ok then s.storeUp
  else (s.setFld Reg.STO_STATUS Fld.STO_STATUS_FAIL 1).postSec 0x8004 0 .heart 0

/-- `STORE_REINIT_RETRY` (R358): once per second from RUN while READY is 0. -/
def execStoreReinitRetry (ok : Bool) (s : State) : Out := s.core fun s =>
  if s.saf.hasRun && !s.stoReady && s.stoThere && decide (s.gen.phase ≠ .safe) then
    let t := s.advance s.sto.retryAt
    let t1 := t.setSto { t.sto with retryAt := t.sto.retryAt + second }
    if ok then t1.storeUp else t1.postSec 0x8004 0 .heart 0
  else s

/-- The store in SAFE (R357): what is on the wire may complete, shelf reads are abandoned, queued host commands end with RESULT 8. -/
def State.storeSafe (s : State) : State :=
  let gone := s.sto.queue.filter fun q => q.started.isNone && q.kind.buffer.isSome
  let rest := s.sto.queue.filter fun q => q.started.isSome
  let t := s.setSto { s.sto with queue := rest }
  gone.foldl (fun u q => match q.kind.buffer with
    | some k => u.hostEnd k 8
    | none => u) t

/-! ### Host commands -/

/-- `STO_READ` (R350): a write of HCMD with OP 1. -/
def execStoRead (value : Word) (s : State) : Out := s.core fun s => if Fld.STO_HCMD_OP.get value = 1 then s.writeHcmd value else s

/-- `STO_PROGRAM` (R350): a write of HCMD with OP 2. -/
def execStoProgram (value : Word) (s : State) : Out := s.core fun s => if Fld.STO_HCMD_OP.get value = 2 then s.writeHcmd value else s

/-- `STO_ERASE` (R350): a write of HCMD with OP 3. -/
def execStoErase (value : Word) (s : State) : Out := s.core fun s => if Fld.STO_HCMD_OP.get value = 3 then s.writeHcmd value else s

end Sys2Proof.Machine
end

