-- ==== Sys2Proof/Machine/Sillage.lean ====
section
/-! DEFINITION. Sillage's commands (R441-R454, R622): ring writes and their read-back, freeze, clearing, the start of the ring, the flush
of spill staging, and the end of a rate-limit window. -/

namespace Sys2Proof.Machine

/-- The record that the next cycle writes to the ring, and whether it comes from the holding queue (R445). -/
def State.ringNext (s : State) : Option (Rec × Bool) :=
  let x := s.obs.sil
  if s.silBlocked || x.stopped then none
  else match x.hold, x.intake with
    | r :: _, _ => some (r, true)
    | [], r :: _ => some (r, false)
    | [], [] => none

/-- A ring line that has not kept what was written: its 64 bytes are free values. -/
def State.spoilLine (s : State) (l : Nat) : State :=
  let w := (List.range 16).map fun i => Config.freeWord (s.free + i)
  { s with free := s.free + 16 }.sramWrite (lineAddr l) (unpackWords w)

/-- A record back at the head of the queue it came from (R450). -/
def State.putBack (s : State) (r : Rec) (fromHold : Bool) : State :=
  let x := s.obs.sil
  s.setSil (if fromHold then { x with hold := r :: x.hold } else { x with intake := r :: x.intake })

/-- `RING_WRITE` (R441, R442, R444, R450): one record moved on; where its line reads back other than written, the line is retired and the
record waits to be written again. -/
def execRingWrite (good : Bool) (s : State) : Out := s.coreAll fun s =>
  match s.ringNext with
  | some (r, held) =>
    match s.obs.sil.chooseLine r.note with
    | some l =>
      let t := s.ringMove
      if good then t else ((t.retireLine l).spoilLine l).putBack r held
    | none => s.ringMove
  | none => s.ringMove

/-- A write of `SIL.FREEZE` (R444, R445). -/
def State.writeFreeze (s : State) (v : Word) : State :=
  let t := s.writeReg Reg.SIL_FREEZE v
  let was := s.flag Reg.SIL_FREEZE Fld.SIL_FREEZE_FREEZE
  let is := t.flag Reg.SIL_FREEZE Fld.SIL_FREEZE_FREEZE
  if is && !was then
    t.setSil { t.obs.sil with freezeEnd := some (t.time + t.fld Reg.SIL_CTRL Fld.SIL_CTRL_FREEZE_MAX * 10 * msec) }
  else if is then t
  else t.setSil { t.obs.sil with freezeEnd := none }

/-- `FREEZE_WRITE` (R444). -/
def execFreezeWrite (value : Word) (s : State) : Out := s.coreAll fun s => s.writeFreeze value

/-- `SIL_FREEZE_EXPIRED` (R445). -/
def execSilFreezeExpired (s : State) : Out := s.coreAll fun s =>
  match s.obs.sil.freezeEnd with
  | some e =>
    let t := s.advance e
    let t1 := (t.setFld Reg.SIL_FREEZE Fld.SIL_FREEZE_FREEZE 0).stick Reg.SIL_FREEZE Fld.SIL_FREEZE_EXPIRED
    (t1.setSil { t1.obs.sil with freezeEnd := none }).post 0xC004 .top 0
  | none => s

/-- The SRAM window with CODE 0 in every ring line that is not retired (R447). -/
def clearLines (retired : List Nat) : List (Nat × Byte) → List (Nat × Byte)
  | [] => []
  | (a, v) :: t =>
    if 0x780000 ≤ a ∧ a < 0x880000 ∧ (a - 0x780000) % 64 < 2 ∧ ¬ (retired.any fun l => l = (a - 0x780000) / 64) then clearLines retired t
    else (a, v) :: clearLines retired t

/-- An accepted SIL_CLEAR (R447): `counter` is the counter of the command. -/
def State.clearLog (s : State) (vault : Bool) (counter : Nat) : State :=
  let x := s.obs.sil
  let t := (s.setReg Reg.SIL_FREEZE (Fld.SIL_FREEZE_FREEZE.set (s.reg Reg.SIL_FREEZE) 0)).setSil
    { x with lines := [], hold := [], dropHeart := 0, dropTop := 0, holdHeart := 0, holdTop := 0, freezeEnd := none, clearing := true,
             vault := if vault then [] else x.vault, prior := if vault then [] else x.prior }
  { t with sram := clearLines x.retired t.sram }.post 0xC002 .base counter

/-- `SIL_CLEAR` (R446, R447). -/
def execSilClear (s : State) : Out := s.coreAll fun s =>
  match s.authActs 4 with
  | none => s
  | some p =>
    if 1 < leAt p 0 4 then s.authRefused.post 0xC007 .heart 0
    else
      let c := (s.cfg.auth.map fun a => a.counter).getD 0
      (s.authAccepted.authEnd).clearLog (decide (leAt p 0 4 = 1)) c

/-- `CLEAR_PASS_DONE` (R447). -/
def execClearPassDone (s : State) : Out := s.coreAll fun s => s.setSil { s.obs.sil with clearing := false }

/-- `RING_INIT_DONE` (R454). -/
def execRingInitDone (s : State) : Out := s.coreAll fun s => s.setSil { s.obs.sil with ready := true }

/-- `SPILL_FLUSH_EXPIRY` (R452): the staging page that still fills is handed to the store port. -/
def execSpillFlushExpiry (s : State) : Out := s.coreAll fun s =>
  match s.obs.sil.stages.find? fun p => !p.handed with
  | some p =>
    let t := s.advance (p.since + s.fld Reg.SIL_CTRL Fld.SIL_CTRL_SPILL_FLUSH * 10 * msec)
    t.setSil { t.obs.sil with stages := t.obs.sil.stages.map fun (q : Stage) => { q with handed := true } }
  | none => s

/-- `RATE_WINDOW_END` (R622). -/
def execRateWindowEnd (code scope : Nat) (s : State) : Out := s.coreAll fun s =>
  match findWin s.obs.windows code scope with
  | some w =>
    let t := s.advance w.ends
    match findWin t.obs.windows code scope with
    | some x => if x.ends ≤ t.time then t.closeWin x else t
    | none => t
  | none => s

end Sys2Proof.Machine
end

