-- ==== Sys2Proof/Machine/Monitors.lean ====
section
/-! DEFINITION. Safety (R402-R421, R430): the detectors of the monitor and of CORE, fault injection, `STOP_N`, and the safe state as CORE
sees and reports it. -/

namespace Sys2Proof.Machine

/-- A command of the MON domain, which runs whether or not CLK_CORE does (R403): nothing while the device is held in reset
or in SAFE BOOT (R517). -/
def State.mon (s : State) (f : State → State) : Out := done s (if s.pwr.awake = .reset ∨ s.gen.safeBoot then s else f s)

/-- The state with SAF changed. -/
def State.setSaf (s : State) (x : SafSt) : State := { s with saf := x }

/-! ### Injection and detection (R404, R421) -/

/-- Whether the injection in progress is of a code, on this port or lane for codes 1-3. -/
def Inject.covers (x : Inject) (code wher : Nat) : Bool := decide (x.code = code) && (decide (3 < code) || decide (x.target = wher))

/-- The injection in progress, where a detector of this code and place sees it now. -/
def State.injected (s : State) (code wher : Nat) : Option Inject :=
  match s.saf.inject with
  | some x => if x.covers code wher then some x else none
  | none => none

/-- How long an injected condition must persist before its detector declares it (R406-R409, R412). -/
def State.filterTime (s : State) (code : Nat) : Nat :=
  if code = 1 ∨ code = 2 then s.fld Reg.SAF_CFG Fld.SAF_CFG_FIELD_FILT * 4 * usec
  else if code = 3 then s.fld Reg.SAF_CFG Fld.SAF_CFG_FB_DELAY * usec
  else if code = 6 then 750 * usec
  else 0

/-- A detector has seen the injected fault (R421): the time since the injection recorded, and with TRIP the real safe state. -/
def State.seeInjected (s : State) (x : Inject) (code wher : Nat) : State :=
  let s1 := (s.setReg Reg.SAF_INJ_STATUS (packF [(Fld.SAF_INJ_STATUS_DET_US, min 65535 ((s.time - x.since) / usec)),
    (Fld.SAF_INJ_STATUS_SEEN, 1)])).setSaf { s.saf with inject := none }
  if x.trip then s1.trip code wher else s1

/-- A detector's condition: an injection of its code is recorded, a genuine failure trips, both where both are there (R430). -/
def State.detect (s : State) (code wher : Nat) (genuine : Bool) : State :=
  let s1 := match s.injected code wher with
    | some x => (s.advance (x.since + s.filterTime code)).seeInjected x code wher
    | none => s
  if genuine then s1.trip code wher else s1

/-- Whether a level in 1/1000 of an amplitude code is above the locked ceiling in force raised by FIELD_MARGIN (R406, R427). -/
def State.beyondCeil (s : State) (n x : Nat) : Bool :=
  decide ((1000 * (s.pf n).ceil) ^ 2 * dbPow (s.fld Reg.SAF_CFG Fld.SAF_CFG_FIELD_MARGIN) < x ^ 2 * 2 ^ 30)

/-- Whether `PA_VC_n` at `v` µV is above 1.2 V × ceiling / 1023 + 30 mV (R406). -/
def State.beyondPa (s : State) (n v : Nat) : Bool := decide (1200000 * (s.pf n).ceil + 30000 * 1023 < 1023 * v)

/-- Whether what MON has measured on port `n` is a code-1 fault (R406): on a direct port drive or current, on a relay port drive or `PA_VC_n`. -/
def State.aboveCeiling (s : State) (n : Nat) (x : FieldSight) : Bool :=
  s.beyondCeil n x.drive || (if isRelay n then s.beyondPa n x.pa else s.beyondCeil n x.load)

/-- From when port `n` has been commanded off (R407): 2 µs after the end of its field-off ramp. -/
def State.offFrom (s : State) (n : Nat) : Option Nat := if (s.pf n).carrier then none else some ((s.pf n).offAt + 2 * usec)

/-- Whether what MON has measured on port `n` is a code-2 fault (R407): with the port commanded off a drive above code 32, more than 20 mA on a
direct port, more than 50 mV on `PA_VC_n`; at any time `PA_EN_n` high against its commanded level. -/
def State.activeOff (s : State) (n : Nat) (x : FieldSight) : Bool :=
  ((s.offFrom n).isSome && (decide (32000 < x.drive) || (!isRelay n && decide (20000 < x.current)) || decide (50000 < x.pa)))
    || (isRelay n && x.en && !s.paEn n)

/-- `FIELD_CEILING_FAULT` (R406, R408): what has persisted for FIELD_FILT is judged against the locked ceiling. -/
def execFieldCeilingFault (port : Port) (seen : FieldSight) (s : State) : Out := s.mon fun s => s.detect 1 port (s.aboveCeiling port seen)

/-- `FIELD_OFF_FAULT` (R407, R408): what has persisted for FIELD_FILT while the port was commanded off. -/
def execFieldOffFault (port : Port) (seen : FieldSight) (s : State) : Out := s.mon fun s =>
  let t := match s.offFrom port with
    | some e => s.advance (e + s.filterTime 2)
    | none => s
  t.detect 2 port (s.activeOff port seen)

/-- The level on `LANE_FB_n`. -/
def State.setFb (s : State) (l : Nat) (fb : Bool) : State := { s with pins := { s.pins with laneFb := setBit s.pins.laneFb l fb } }

/-- `LANE_READBACK_FAULT` (R409): `LANE_FB_n` at a level that disagrees with the commanded `GO_n` for longer than FB_DELAY, on a lane whose
EN copy is 1 and whose readback has started; in SAFE it only sets the lane's bit. -/
def execLaneReadbackFault (lane : Lane) (fb : Bool) (genuine : Bool) (s : State) : Out := s.mon fun s =>
  if genuine then
    let t := s.setFb lane fb
    if s.saf.enCopy.testBit lane && decide (fb ≠ s.goLevel lane) then
      let from_ := max s.time (vget s.saf.fbFrom 0 lane)
      let u := t.advance (from_ + s.fld Reg.SAF_CFG Fld.SAF_CFG_FB_DELAY * usec)
      if s.saf.safe then u.setFldBit Reg.SAF_FAULT_WHERE Fld.SAF_FAULT_WHERE_LANES lane true else u.detect 3 lane true
    else t
  else s.detect 3 lane false

/-- `CLK_MON_WINDOW` (R411): the end of a window of 24.0 µs; a count outside 94 to 98 is code 5. It is suspended while the device is
asleep (R574). A count of 0 is a CLK_CORE that has stopped. -/
def execClkMonWindow (count : Byte) (genuine : Bool) (s : State) : Out := s.mon fun s =>
  if s.pwr.awake = .running then
    let t := (s.advance ((s.time / (24 * usec) + 1) * (24 * usec))).setReg Reg.SAF_CLKMON (word count.toNat)
    if count.toNat < 94 ∨ 98 < count.toNat then
      let u := t.detect 5 0 genuine
      if genuine && decide (count = 0) then u.setSaf { u.saf with clkLost := true } else u
    else t
  else s

/-- MON's copies of the lanes' EN and ALERT_POL brought up to date (R409): readback of a lane just enabled starts FB_DELAY later; the pulses
of a lane whose EN in force is 0 are over (R332). -/
def State.refreshMon (s : State) : State :=
  let en := maskOf s.laneEn 16
  let start := s.time + s.fld Reg.SAF_CFG Fld.SAF_CFG_FB_DELAY * usec
  let from_ := (List.range 16).foldl (fun v l => if en.testBit l && !s.saf.enCopy.testBit l then v.setIfInBounds l start else v) s.saf.fbFrom
  let t := s.setSaf { s.saf with enCopy := en, fbFrom := from_
                                 polCopy := maskOf (fun l => s.flag (Reg.KPR_L_CFG l) Fld.KPR_L_CFG_ALERT_POL) 16 }
  State.each (fun l u => if en.testBit l then u else u.modL l fun _ => LaneSt.reset) 16 t

/-- `HEARTBEAT_TOGGLE` (R412): every 250 µs. -/
def execHeartbeatToggle (s : State) : Out := s.core fun s =>
  let t := s.advance (s.saf.beatAt + 250 * usec)
  t.setSaf { t.saf with beatAt := t.time }

/-- `HEARTBEAT_TIMEOUT` (R412): no toggle for 750 µs. -/
def execHeartbeatTimeout (genuine : Bool) (s : State) : Out := s.mon fun s =>
  if s.pwr.awake = .running then
    if genuine then (s.advance (s.saf.beatAt + 750 * usec)).detect 6 0 true else s.detect 6 0 false
  else s

/-- `MON_CLK_WINDOW` (R412): the end of a window of 10 µs in which CORE counts MON cycles; a count outside 72 to 88 is code 7. -/
def execMonClkWindow (count : Byte) (genuine : Bool) (s : State) : Out := s.core fun s =>
  let bad := decide (count.toNat < 72) || decide (88 < count.toNat)
  let t := (s.advance ((s.time / (10 * usec) + 1) * (10 * usec))).setFld Reg.SAF_STATUS Fld.SAF_STATUS_MON_OK (bnat !bad)
  if bad then t.detect 7 0 genuine else t

/-- `OVERTEMP_FAULT` (R404 code 9). -/
def execOvertempFault (genuine : Bool) (s : State) : Out := s.mon fun s => s.detect 9 0 genuine

/-- `STOP_N` (R417): asserted (`low`) and past its glitch filter of 1 µs it forces the safe state, and holds it. -/
def execStopN (low : Bool) (s : State) : Out := s.mon fun s =>
  let t := s.setFld Reg.SAF_STATUS Fld.SAF_STATUS_STOP_IN (bnat low)
  if low then (t.advance (t.time + usec)).trip 10 0 else t

/-! ### The safe state as CORE sees it (R40, R69, R325, R357, R398, R414, R415) -/

/-- A port in the safe state (R69): OFF at once, nothing due, nothing received. -/
def State.portSafe (s : State) (n : Nat) : State :=
  let s1 := ((s.endDeferral n).rxIdle n).modF n fun x =>
    { PortF.reset with phase := x.phase, ampl := x.ampl, limit := x.limit, ceil := x.ceil, stepDone := x.stepDone, stepAsked := x.stepAsked,
                       retryAt := x.retryAt, offAt := s.time, quietFrom := s.time, notBefore := x.notBefore }
  let s2 := s1.modX n fun x => { x with waitEnd := none, retryAt := none }
  (s2.modP n fun x => { x with rfca := .none, holdEnd := none }).modT n fun x => { x with opEnd := none, settleEnd := none }

/-- A lane's pulses ended. -/
def State.endPulses (s : State) : State := State.each (fun l t => t.modL l fun _ => LaneSt.reset) 16 s

/-- The exchanges in progress end with RESULT 12 and END SAFE (R146, R199). -/
def State.cutAll (s : State) (rxs : List RxData) : State :=
  let none_ : RxData := { bits := [], halves := [], rssi := 0, clip := false }
  (List.range 16).foldl (fun t n => t.cutExchange n 12 7 ((rxs[n]?).getD none_)) s

/-- What CORE ends in the safe state: every list, exchange, port, lane pulse, huddle slot, lookup, store operation and tuner frame that
waits. -/
def State.shutDown (s : State) (rxs : List RxData) : State :=
  let s3 := State.each (fun n t => t.portSafe n) 16 (s.parkLists.cutAll rxs)
  let s4 := State.each (fun h t => t.modH h fun x => { HuddleSt.reset with members := x.members }) 4 s3.endPulses
  { s4.abandonLookups.storeSafe with tun := { s4.tun with link := s4.tun.link.filter fun q => q.ends.isSome, todo := [] } }

/-- The safe state taken up by CORE with the cause it sees: CODE and WHERE (R415). -/
def State.coreSees (s : State) (code wher : Nat) (rxs : List RxData) : State :=
  let s1 := (s.setSaf { s.saf with unseen := none }).toSafe (if code = 10 then 6 else 5)
  let s2 := (s1.setFld Reg.SAF_STATUS Fld.SAF_STATUS_SAFE 1).post (if code = 10 then 0xB002 else 0xB001) .base
    (packF [(Fld.SAF_FIRST_CODE, code), (Fld.SAF_FIRST_WHERE, wher)]).toNat
  s2.shutDown rxs

/-- `SAF.FIRST` and the safe state after a self-test that failed (R416, R420, R431): CODE 11 where nothing was recorded before. -/
def State.firstSelfTest (s : State) : State :=
  if s.fld Reg.SAF_FIRST Fld.SAF_FIRST_CODE = 0 then s.setReg Reg.SAF_FIRST (packF [(Fld.SAF_FIRST_CODE, 11)]) else s

/-- SAFE entered by CORE itself (R37: self-test failure, recovery limit): the outputs go to the safe state (R39), with no fault code. -/
def State.enterSafe (s : State) (cause : Nat) : State :=
  let s1 := (s.setSaf { s.saf with safe := true, tripAt := if s.saf.safe then s.saf.tripAt else s.time }).toSafe cause
  ((s1.setFld Reg.SAF_STATUS Fld.SAF_STATUS_SAFE 1).setFld Reg.SAF_STATUS Fld.SAF_STATUS_FAULT_OUT 1).shutDown []

/-- `CORE_SEES_SAFE_STATE` (R415): CORE moves the phase to SAFE and reports the cause. -/
def execCoreSeesSafeState (rxs : List RxData) (s : State) : Out := s.core fun s =>
  match s.saf.unseen with
  | some (code, wher) => s.coreSees code wher rxs
  | none => s

/-! ### TEST (R42, R421) -/

/-- A write of `SAF.INJECT` (R421): refused outside TEST; codes 4 and 8 are seen at once. -/
def State.writeInject (s : State) (v : Word) : State :=
  let code := Fld.SAF_INJECT_CODE.get v
  if s.gen.phase ≠ .test then s.refuse 0x0D
  else if code = 0 ∨ 9 < code then s
  else
    let t := s.setSaf { s.saf with inject := some { code := code, target := Fld.SAF_INJECT_TARGET.get v,
                                                    trip := decide (Fld.SAF_INJECT_TRIP.get v = 1), since := s.time } }
    if code = 4 ∨ code = 8 then t.detect code 0 false else t

/-- `SAF_INJECT` (R421). -/
def execSafInject (value : Word) (s : State) : Out := s.core fun s => s.writeInject value

/-- TEST entered (R37, R42): fields off, lists parked, lanes inactive. -/
def State.enterTest (s : State) : State := ((s.toPhase .test).parkLists.endPulses).allOff

/-- `SAF_TEST_ENTER` (R421): refused outside RUN. -/
def execSafTestEnter (s : State) : Out := s.core fun s =>
  match s.authActs 7 with
  | none => s
  | some _ => if s.gen.phase = .run then (s.authAccepted.authEnd).enterTest else s.authRefused

end Sys2Proof.Machine
end

