-- ==== Sys2Proof/Machine/Power.lean ====
section
/-! DEFINITION. Supplies, clocks and power states (R556-R580): requests, entry, wake sources, the `VDDTX_n` monitors, the SLOW clock. -/

namespace Sys2Proof.Machine

/-- Units of time in a SLOW cycle: 1/32,768 s. -/
abbrev slowCycle : Nat := 390625

/-- The next SLOW edge after now. -/
def State.slowEdge (s : State) : Nat := (s.time / slowCycle + 1) * slowCycle

/-- Whether CLK_CORE is stopped for SLEEP or SNIFF. -/
def State.asleep (s : State) : Bool := decide (s.pwr.awake = .sleep) || decide (s.pwr.awake = .sniff)

/-- `PWR.CLK_STATUS` with the oscillator's drive and the locks of the two PLLs of CORE and the store. -/
def State.setClocks (s : State) (on : Bool) : State :=
  ((s.setFld Reg.PWR_CLK_STATUS Fld.PWR_CLK_STATUS_XO_LOW (bnat !on)).setFld Reg.PWR_CLK_STATUS Fld.PWR_CLK_STATUS_CPLL_LOCK (bnat on)).setFld
    Reg.PWR_CLK_STATUS Fld.PWR_CLK_STATUS_SPLL_LOCK (bnat on)

/-! ### Requests (R569, R570) -/

/-- Whether a wake source of R572 would be enabled in a state. -/
def State.wakeable (s : State) (r : PwrReq) : Bool :=
  s.flag Reg.PWR_WAKE Fld.PWR_WAKE_HOST_EN || s.flag Reg.PWR_WAKE Fld.PWR_WAKE_TIMER_EN
    || (decide (r = .sniff) && s.flag Reg.PWR_WAKE Fld.PWR_WAKE_SNIFF_EN)

/-- A request made (R569, R570, R580): pending, or refused for want of a wake source. An entry in progress goes on under the same state
only. -/
def State.askPower (s : State) (r : PwrReq) : State :=
  if s.wakeable r then { s with pwr := { s.pwr with pending := some r, entering := if s.pwr.entering = some r then some r else none } }
  else s.post 0x1004 .top 0

/-- A request cancelled (R569). -/
def State.cancelPower (s : State) : State := { s with pwr := { s.pwr with pending := none, entering := none } }

/-- A write of `PWR.CMD` (R569). -/
def State.writePwrCmd (s : State) (v : Word) : State :=
  match Fld.PWR_CMD_REQ.get v with
  | 1 => s.askPower .sleep
  | 2 => s.askPower .sniff
  | 3 => s.cancelPower
  | _ => s

/-- `SLEEP_REQUEST` (R569). -/
def execSleepRequest (s : State) : Out := s.core fun s => s.askPower .sleep

/-- `SNIFF_REQUEST` (R569). -/
def execSniffRequest (s : State) : Out := s.core fun s => s.askPower .sniff

/-- `CANCEL_REQUEST` (R569). -/
def execCancelRequest (s : State) : Out := s.core fun s => s.cancelPower

/-- `AUTO_IDLE_EXPIRY` (R569): IDLE_MS of idle roles with AUTO_EN make a request where none is pending. -/
def execAutoIdleExpiry (s : State) : Out := s.core fun s =>
  let idle := s.fld Reg.PWR_AUTO Fld.PWR_AUTO_IDLE_MS * msec
  if s.flag Reg.PWR_AUTO Fld.PWR_AUTO_AUTO_EN && s.pwr.pending.isNone then
    match s.obs.idleSince, s.obs.offSince with
    | some t, _ => (s.advance (t + idle)).askPower .sniff
    | none, some t => if s.flag Reg.PWR_AUTO Fld.PWR_AUTO_ALLOW_SLEEP then (s.advance (t + idle)).askPower .sleep else s
    | none, none => s
  else s

/-! ### Entry (R571) -/

/-- Every staging page handed to the store (R571 step 1). -/
def State.handStages (s : State) : State :=
  s.setSil { s.obs.sil with stages := s.obs.sil.stages.map fun (p : Stage) => { p with handed := true } }

/-- Steps 3 and 4 of R571: at a SLOW edge CLK_CORE stops, the synthesiser stops, the oscillator goes to low drive. -/
def State.fallAsleep (s : State) (r : PwrReq) : State :=
  let t := s.advance s.slowEdge
  let t1 := ((t.setFld Reg.FLD_SYN_STATUS Fld.FLD_SYN_STATUS_LOCKED 0).setFld Reg.FLD_SYN_STATUS Fld.FLD_SYN_STATUS_SETTLING 0).setClocks false
  { t1 with field := { t1.field with synRun := false, settleEnd := none }
            pwr := { awake := if r = .sleep then .sleep else .sniff, pending := none, entering := none, sleepAt := t.time, slowFailed := false } }

/-- `PWR_SLEEP` (R571): with every condition of R570 met the event is posted and spill staging handed over; once its pages are written the
device is asleep. -/
def execPwrSleep (s : State) : Out := s.core fun s =>
  match s.pwr.pending with
  | none => s
  | some r =>
    if s.pwrBlock r ≠ 0 then s
    else
      let s1 := if s.pwr.entering = some r then s
        else
          let t := (s.post 0x1005 .top (if r = .sleep then 1 else 2)).handStages
          { t with pwr := { t.pwr with entering := some r } }
      if s1.spillOwes then s1 else s1.fallAsleep r

/-! ### Wake (R572, R573) -/

/-- The catch-up of device time on wake (R459): the stop, counted in SLOW cycles, at RATE; the timers stood still meanwhile (R466). -/
def State.catchUp (s : State) : State :=
  let n := (s.time - s.pwr.sleepAt) / slowCycle
  let stop := n * s.fld Reg.TMR_SLOW_RATE Fld.TMR_SLOW_RATE_RATE * 25
  let t := s.binsTo.setReg Reg.TMR_SLEEP_LAST (word (n % 2 ^ 24))
  { t with time := s.pwr.sleepAt + stop
           tun := { t.tun with lastRound := s.pwr.sleepAt + stop - (s.time - s.tun.lastRound) }
           tmr := s.tmr.map fun (x : TimerSt) => { x with nextTick := x.nextTick.map fun e => e + stop } }

/-- Awake with CLK_CORE running: RECOVERY with CAUSE 3, or SAFE where the safe state came about meanwhile (R572). -/
def State.wakeInto (s : State) : State :=
  match s.saf.unseen with
  | some (code, wher) => s.coreSees code wher []
  | none => (s.recover 3).startSyn

/-- When the wake timer expires: round(TIMER_MS × 32.768) SLOW cycles after E0 (R572). -/
def State.wakeTimerAt (s : State) : Nat :=
  s.pwr.sleepAt + (s.fld Reg.PWR_WAKE Fld.PWR_WAKE_TIMER_MS * 32768 + 500) / 1000 * slowCycle

/-- The wake timer's bit set too where it expires at the edge of another source (R580). -/
def State.alsoTimer (s : State) (edge : Nat) : State :=
  if s.flag Reg.PWR_WAKE Fld.PWR_WAKE_TIMER_EN && decide (s.wakeTimerAt = edge) then s.stick Reg.PWR_WAKE_STATUS Fld.PWR_WAKE_STATUS_TIMER else s

/-- `PWR_SLOW_FAIL` posted for a failure that fell into the sleep (R566). -/
def State.slowPost (s : State) : State :=
  if s.pwr.slowFailed then { s with pwr := { s.pwr with slowFailed := false } }.post 0x1002 .heart 0 else s

/-- A wake by the source whose bit of `PWR.WAKE_STATUS` is given, seen at the next SLOW edge: CLK_CORE runs again (R572). -/
def State.wake (s : State) (f : Field) : State :=
  let t := ((s.advance s.slowEdge).alsoTimer s.slowEdge).catchUp
  let t1 := ((t.stick Reg.PWR_WAKE_STATUS f).bump Reg.PWR_WAKE_STATUS Fld.PWR_WAKE_STATUS_WAKES).setClocks true
  ({ t1 with pwr := { t1.pwr with awake := .running }, saf := { t1.saf with beatAt := t1.time } }.slowPost).wakeInto

/-- The host port selected (R572): asleep with HOST_EN it wakes the device, before step 4 of R571 it abandons an entry. -/
def execHostWake (s : State) : Out := s.mon fun s =>
  let t := { s with pins := { s.pins with hcsLow := true } }
  if s.asleep then (if s.flag Reg.PWR_WAKE Fld.PWR_WAKE_HOST_EN then t.wake Fld.PWR_WAKE_STATUS_HOST else t)
  else { t with pwr := { t.pwr with entering := none } }

/-- `WAKE_TIMER_EXPIRY` (R572): round(TIMER_MS × 32.768) SLOW cycles after E0. -/
def execWakeTimerExpiry (s : State) : Out := s.mon fun s =>
  if s.asleep && s.flag Reg.PWR_WAKE Fld.PWR_WAKE_TIMER_EN then
    (s.advance (s.wakeTimerAt - 1)).wake Fld.PWR_WAKE_STATUS_TIMER
  else s

/-! ### Supplies (R559) -/

/-- The field of direct port `n` off at once, without a ramp (R559). -/
def State.fieldDrop (s : State) (n : Nat) : State :=
  let s1 := ((s.abortStep n).endDeferral n).modF n fun x =>
    { x with carrier := false, ramp := .none, wantOff := none, guardEnd := none, onSince := none, txEnd := none, window := none, pend := false,
             offAt := s.time, quietFrom := s.time }
  ((s1.rxIdle n).fieldGone n).askOn n

/-- `PWR_VDDTX_LOW` (R559): `VDDTX_n` crosses its threshold downward. -/
def execPwrVddtxLow (port : Fin 4) (rx : RxData) (s : State) : Out := s.mon fun s =>
  if s.fldBit Reg.PWR_SUPPLY Fld.PWR_SUPPLY_VDDTX_OK port then
    let s1 := (s.setFldBit Reg.PWR_SUPPLY Fld.PWR_SUPPLY_VDDTX_OK port false).stickBit Reg.PWR_SUPPLY Fld.PWR_SUPPLY_VDDTX_LOW port
    if s.live && !s.gen.safeBoot then
      let s2 := s1.post 0x1001 .heart 0
      if s.fieldOn port || (s.pf port).ramp.goesOff then (s2.cutExchange port 11 6 rx).fieldDrop port else s2
    else s1
  else s

/-- `VDDTX_RESTORED` (R559). -/
def execVddtxRestored (port : Fin 4) (s : State) : Out := s.mon fun s =>
  s.setFldBit Reg.PWR_SUPPLY Fld.PWR_SUPPLY_VDDTX_OK port true

/-! ### The SLOW clock (R566) -/

/-- A command about the SLOW clock, which runs while CLK_CORE is stopped too. -/
def State.slow (s : State) (f : State → State) : Out := done s (if (s.live || s.asleep) && !s.gen.safeBoot then f s else s)

/-- `SLOW_XTAL_SWITCH` (R566): at a SLOW edge, with SLOW_SRC 1. -/
def execSlowXtalSwitch (s : State) : Out := s.slow fun s =>
  if s.flag Reg.PWR_CLK Fld.PWR_CLK_SLOW_SRC && !s.flag Reg.PWR_CLK_STATUS Fld.PWR_CLK_STATUS_SLOW_XTAL then
    (s.advance s.slowEdge).setFld Reg.PWR_CLK_STATUS Fld.PWR_CLK_STATUS_SLOW_XTAL 1
  else s

/-- `PWR_SLOW_FAIL` (R566): the crystal in use stops or drifts; the RC is back, and RATE_AUTO is set whatever `TMR.LOCK` holds. Where CLK_CORE
is stopped the event is posted at the wake. -/
def execPwrSlowFail (s : State) : Out := s.slow fun s =>
  if s.flag Reg.PWR_CLK_STATUS Fld.PWR_CLK_STATUS_SLOW_XTAL then
    let t := ((s.setFld Reg.PWR_CLK_STATUS Fld.PWR_CLK_STATUS_SLOW_XTAL 0).stick Reg.PWR_CLK_STATUS Fld.PWR_CLK_STATUS_SLOW_FAIL).setFld
      Reg.TMR_SLOW_RATE Fld.TMR_SLOW_RATE_RATE_AUTO 1
    if s.asleep then { t with pwr := { t.pwr with slowFailed := true } } else t.post 0x1002 .heart 0
  else s

/-- A write of `PWR.CLK` (R566): the SLOW clock is the RC's while SLOW_SRC is 0. -/
def State.writePwrClk (s : State) (v : Word) : State :=
  let t := s.writeReg Reg.PWR_CLK v
  if t.flag Reg.PWR_CLK Fld.PWR_CLK_SLOW_SRC then t else t.setFld Reg.PWR_CLK_STATUS Fld.PWR_CLK_STATUS_SLOW_XTAL 0

end Sys2Proof.Machine
end

