-- ==== Sys2Proof/Machine/Tune.lean ====
section
/-! DEFINITION. The commands of TUN (R101-R126): measurements, searches, the tuner link, and sniff. -/

namespace Sys2Proof.Machine

/-! ### Measurements and searches (R102, R103, R113-R118) -/

/-- The loaded-carrier vector of port `n` from the mean complex sample at its receiver (R101, R102): the other ports' carriers removed, scaled to
amplitude code 1023 and phase offset 0. With no amplitude to scale by, the result is not stated: a free value. -/
def State.loadedVec (s : State) (n : Nat) (raw : Word) : State × Word :=
  if s.effAmpl n = 0 then s.takeFreeWord
  else (s, vecWord (fullScale (s.effAmpl n) (s.pf n).phase (wordVec raw) (s.carriersAt n n)))

/-- The vector measured on port `n` over 4 µs and judged (R101-R103). -/
def State.measureVec (s : State) (n : Nat) (raw : Word) : State :=
  let r := s.loadedVec n raw
  r.1.measuredVec n r.2

/-- Whether a vector may be measured on port `n` beside warm-up step 4 (R103): in FIELD, with no ramp and no guard against R94. -/
def State.mayMeasure (s : State) (n : Nat) : Bool := decide ((s.pf n).ramp = .none) && decide ((s.pf n).radio = .field)

/-- `VECTOR_MEASUREMENT` (R103): in warm-up step 4; else, as MEASURE scheduled it or MEAS_MS after the last, as a step 4 of its own in an idle gap
(R94). In RECOVERY, where no frame starts, no gap is needed (R623). -/
def execVectorMeasurement (port : Port) (vec : Word) (s : State) : Out := s.core fun s =>
  match (s.pf port).step with
  | some (4, _) => (s.advance (s.time + 4 * usec)).measureVec port vec
  | some _ => s
  | none =>
    let x := s.pt port
    let t := if x.measNext then s else s.advance (x.measAt + s.fld (Reg.TUN_P_MISMATCH port) Fld.TUN_P_MISMATCH_MEAS_MS * 10 * msec)
    let gap := match t.gen.phase with
      | .run | .test => t.gapAhead port (30 * usec)
      | .recovery => true
      | _ => false
    if t.mayMeasure port && gap then
      ((t.advance (t.time + stepUs 4 * usec)).measureVec port vec).modF port fun y => { y with stepDone := y.stepDone.set 4 (t.time + stepUs 4 * usec) }
    else s

/-- CAPTURE_REF written (R114): refused once TUN is locked. -/
def State.captureRef (s : State) (n : Nat) : State :=
  if s.lockedBlock 0x11 then s.refuse 0x11 else s.modT n fun x => { x with refNext := true }

/-- `CAPTURE_REF` (R114). -/
def execCaptureRef (port : Port) (s : State) : Out := s.core fun s => s.captureRef port

/-- RETUNE written (R115): on a port in FIELD. -/
def State.retune (s : State) (n : Nat) : State := if (s.pf n).radio = .field then s.beginSearch n else s

/-- `RETUNE` (R115). -/
def execRetune (port : Port) (s : State) : Out := s.core fun s => s.retune port

/-- MEASURE written (R131). -/
def State.askMeasure (s : State) (n : Nat) : State := s.modT n fun x => { x with measNext := true }

/-- `MEASURE` (R131). -/
def execMeasure (port : Port) (s : State) : Out := s.core fun s => s.askMeasure port

/-- A write of `TUN.Pn.CMD` (R131). -/
def State.writeTunCmd (s : State) (n : Nat) (v : Word) : State :=
  let s1 := if Fld.TUN_P_CMD_CAPTURE_REF.get v = 1 then s.captureRef n else s
  let s2 := if Fld.TUN_P_CMD_RETUNE.get v = 1 then s1.retune n else s1
  if Fld.TUN_P_CMD_MEASURE.get v = 1 then s2.askMeasure n else s2

/-- Whether the code of port `n` has been sent and has settled (R109). -/
def State.codeSettled (s : State) (n : Nat) : Bool :=
  !(s.tun.link.any fun q => q.port = n) && (s.pt n).settleEnd.isNone && (s.pt n).opEnd.isNone

/-- `SEARCH_MEASUREMENT` (R115, R116): the vector at the code being tried, 4 µs after it has settled; the search goes on from it. -/
def execSearchMeasurement (port : Port) (vec : Word) (s : State) : Out := s.core fun s =>
  match (s.pt port).search with
  | some x =>
    match x.trying with
    | some c =>
      if s.codeSettled port && s.mayMeasure port
          && (!s.flag (Reg.TUN_P_TUNER port) Fld.TUN_P_TUNER_NONE || s.searchGap port s.time) then
        let t := (s.advance (s.time + 4 * usec)).measureVec port vec
        let v := t.reg (Reg.TUN_P_VEC port)
        let d := distance v (t.reg (Reg.TUN_P_REF port))
        t.searchOn port { x with known := x.known ++ [(c, d)], count := x.count + 1, trying := none, lastI := vecI v, lastQ := vecQ v }
      else s
    | none => s
  | none => s

/-! ### The tuner link (R105-R111) -/

/-- A write of `TUN.Pn.CODE` (R109, R129): a search on the port is abandoned, the codes are sent. -/
def State.writeTunCode (s : State) (n : Nat) (v : Word) : State :=
  let s1 := if (s.pt n).search.isSome then
      ((s.setFld (Reg.TUN_P_STATUS n) Fld.TUN_P_STATUS_SEARCHING 0).modT n fun y => { y with search := none }).post 0x3004 .top 0
    else s
  (s1.writeReg (Reg.TUN_P_CODE n) v).sendCode n

/-- `TUNER_CODE_WRITE` (R109). -/
def execTunerCodeWrite (port : Port) (value : Word) (s : State) : Out := s.core fun s => s.writeTunCode port value

/-- The head of the link's queue replaced by the next frame of its operation. -/
def State.linkNext (s : State) (q : LinkReq) : State := ({ s with tun := { s.tun with link := q :: s.tun.link.tail } }).kickLink

/-- `TUNER_FRAME_DONE` (R107): the frame ends; `sent` is what the tuner has sent on `TSDI` in a read frame. -/
def execTunerFrameDone (sent : Word) (s : State) : Out := s.core fun s0 =>
  let s := s0.kickLink
  match s.tun.link with
  | q :: _ =>
    match q.ends with
    | some e =>
      let t := s.advance e
      if q.isRead then
        if t.codesAgree q.port q.code sent then t.linkDone q.port
        else if q.again then
          ((t.stick Reg.TUN_LINK_STATUS Fld.TUN_LINK_STATUS_LINK_FAIL).post 0x3007 .heart 0).linkDone q.port
        else t.linkNext { q with isRead := false, again := true, ends := none }
      else if t.verifies q.port then t.linkNext { q with isRead := true, ends := none }
      else t.linkDone q.port
    | none => s
  | [] => s

/-- `TUNER_SETTLE_EXPIRY` (R109, R138): on a port with its field on, the cancellation update of 20 µs follows, over the samples given, and the
operation ends; the coupling column refresh is due. -/
def execTunerSettleExpiry (port : Port) (samples : List RxSample) (s : State) : Out := s.core fun s =>
  match (s.pt port).settleEnd with
  | some e =>
    let t := (s.advance e).modT port fun x => { x with settleEnd := none }
    if (t.pt port).opEnd.isSome then
      let u := t.advance (t.time + 20 * usec)
      let v := (u.modT port fun x => { x with opEnd := none }).modF port fun x =>
        { x with radio := if x.radio = .cal then .field else x.radio, stepDone := x.stepDone.set 1 u.time, stepAsked := setBit x.stepAsked 5 true,
                 quietFrom := u.time }
      (v.adapt port true samples).kickLink.tryOffs
    else t.kickLink
  | none => s

/-! ### Sniff (R119-R126) -/

/-- A command of the sniff sequencer, which runs while CORE does and in the SNIFF power state (R126). -/
def State.sniffing (s : State) (f : State → State) : Out :=
  done s (if (s.live && !s.gen.safeBoot) || decide (s.pwr.awake = .sniff) then f s else s)

/-- Whether pings run at all: as fields do, asleep in SNIFF, and in RECOVERY as a cross-trigger asked for them (R32, R475). -/
def State.pingsRun (s : State) : Bool :=
  (s.framesRun || decide (s.pwr.awake = .sniff) || (decide (s.gen.phase = .recovery) && s.tun.crossed)) && !s.saf.safe

/-- The synthesiser started for the pings of a round (R69, R126): asleep in SNIFF it is ready for the first of them at most 150 µs later,
when exactly is free. -/
def State.roundSyn (s : State) : State :=
  if s.field.synRun then s
  else if s.pwr.awake = .sniff then
    let f := s.takeFreeWord
    { f.1.startSyn with field := { f.1.startSyn.field with settleEnd := some (s.time + f.2.toNat % (150 * usec + 1)) } }
  else s.startSyn

/-- The synthesiser of the SNIFF power state stopped after the last ping of a round (R126). -/
def State.roundOver (s : State) : State :=
  if decide (s.pwr.awake = .sniff) && decide (s.tun.todo = []) && allBelow (fun n => (s.pt n).confirmAt.isNone) 16 then
    let t := (s.setFld Reg.FLD_SYN_STATUS Fld.FLD_SYN_STATUS_LOCKED 0).setFld Reg.FLD_SYN_STATUS Fld.FLD_SYN_STATUS_SETTLING 0
    { t with field := { t.field with synRun := false, settleEnd := none }, tun := { t.tun with crossed := false } }
  else if s.tun.todo = [] then { s with tun := { s.tun with crossed := false } }
  else s

/-- Whether port `n` takes part in a round (R50, R121). -/
def State.inRound (s : State) (n : Nat) : Bool :=
  decide (s.role n = 1) && (!s.flag (Reg.FLD_P_HUDDLE n) Fld.FLD_P_HUDDLE_EN || s.allSniff n)

/-- A ping skipped (R122). -/
def State.skipPing (s : State) : State :=
  (s.bump Reg.TUN_SNIFF_STATUS Fld.TUN_SNIFF_STATUS_SKIPS).postSec 0x3006 0 .top 0

/-- `SNIFF_ROUND_START` (R121): INTERVAL_MS after the start of the round before; pings still held then are skipped (R122). -/
def execSniffRoundStart (s : State) : Out := s.sniffing fun s =>
  let members := (List.range 16).filter s.inRound
  if s.pingsRun && decide (members ≠ []) then
    let t := s.advance (s.tun.lastRound + s.roundTime)
    let u := t.tun.todo.foldl (fun v _ => v.skipPing) t
    { u with tun := { u.tun with lastRound := t.time, todo := members } }.roundSyn
  else s

/-- Whether the synthesiser, the pairwise rule P, or the tuner link holds a ping of port `n` (R52, R55, R129). -/
def State.pingHeld (s : State) (n : Nat) : Bool :=
  !s.locked || !s.codeSettled n || anyBelow (fun m => s.areNeigh n m && decide (s.role m ≠ 1)
    && ((s.pf m).window.isSome || (s.modulations m).any fun i => decide (i.1 ≤ s.time) && decide (s.time < i.2))) 16

/-- Whether the grant and the duty gate let port `n` ping (R122); the duty gate stands still while CORE sleeps. -/
def State.pingAllowed (s : State) (n : Nat) : Bool := s.granted && (decide (s.pwr.awake = .sniff) || s.dutyAdmits n)

/-- The port no longer waits for its ping of this round. -/
def State.pinged (s : State) (n : Nat) : State := { s with tun := { s.tun with todo := s.tun.todo.filter fun m => m ≠ n } }

/-- The amplitude code of a ping of port `n` (R48, R119): SNIFF.AMPL, clamped to the locked drive ceiling. -/
def State.pingAmpl (s : State) (n : Nat) : Nat := min (s.fld (Reg.TUN_P_SNIFF n) Fld.TUN_P_SNIFF_AMPL) (s.ceil n)

/-- The burst of a ping of port `n` that begins now (R119, R120): 8 µs of carrier; on a relay port `PA_EN` rises T_BIAS before and falls T_BIAS
after it, and `PA_VC` steps to the port's code meanwhile. -/
def State.burstOf (s : State) (n : Nat) : Burst :=
  let on := s.time + if isRelay n then s.biasTime n else 0
  { ampl := s.pingAmpl n, paVc := if isRelay n then s.paVcCode n else 0, starts := s.time, carrierOn := on, carrierOff := on + 8 * usec,
    ends := on + 8 * usec + if isRelay n then s.biasTime n else 0 }

/-- A ping of port `n` sent (R119, R120): it serves no guard and counts as a field-on of the bin of device time in which it falls (R76). -/
def State.ping (s : State) (n : Nat) (vec : Word) : State :=
  let b := s.burstOf n
  let t := ((s.advance b.ends).binsTo.modT n fun x => { x with burst := some b }).modF n fun x => { x with quietFrom := b.ends }
  let t1 := (t.setReg (Reg.TUN_P_SNIFF_LAST n) vec).count 95
  { t1 with field := { t1.field with onInBin := setBit t1.field.onInBin n true } }

/-- Whether a ping vector steps away from the baseline (R123). -/
def State.steps (s : State) (n : Nat) (vec : Word) : Bool :=
  let x := s.pt n
  let thr := Reg.TUN_P_SNIFF_THR n
  decide (64 * s.fld thr Fld.TUN_P_SNIFF_THR_THR_I < (64 * vecI vec - x.baseI).natAbs)
    || decide (64 * s.fld thr Fld.TUN_P_SNIFF_THR_THR_Q < (64 * vecQ vec - x.baseQ).natAbs)

/-- The integer part of the baseline shown (R123): of a negative baseline the integer at or below it (DESIGN CHOICE, log 74). -/
def State.showBase (s : State) (n : Nat) : State :=
  let x := s.pt n
  s.setReg (Reg.TUN_P_SNIFF_BASE n) (packF [(Fld.TUN_P_SNIFF_BASE_I, unsigned 16 (x.baseI / 64)), (Fld.TUN_P_SNIFF_BASE_Q, unsigned 16 (x.baseQ / 64))])

/-- One of the four pings whose mean is the baseline (R123): their sum until the fourth, then the mean with 6 fractional bits. -/
def State.sumBase (s : State) (n : Nat) (vec : Word) : State :=
  let t := s.modT n fun x =>
    let k := x.baseCount
    let i := (if k = 0 then 0 else x.baseI) + vecI vec
    let q := (if k = 0 then 0 else x.baseQ) + vecQ vec
    { x with baseCount := k + 1, baseI := if k = 3 then 16 * i else i, baseQ := if k = 3 then 16 * q else q }
  if (t.pt n).baseCount = 4 then t.showBase n else t

/-- A sixty-fourth of a difference, rounded to an integer: how is not stated, so which neighbour it takes is free. -/
def roundFree (up : Bool) (d : Int) : Int := d / 64 + (if up ∧ d % 64 ≠ 0 then 1 else 0)

/-- B + (V - B) / 64 (R123), with 6 fractional bits. -/
def State.trackBase (s : State) (n : Nat) (vec : Word) : State :=
  let f := s.takeFreeBit
  let g := f.1.takeFreeBit
  (g.1.modT n fun x => { x with baseI := x.baseI + roundFree f.2 (64 * vecI vec - x.baseI)
                                baseQ := x.baseQ + roundFree g.2 (64 * vecQ vec - x.baseQ) }).showBase n

/-- The role of a port written as reader by hardware (R125). -/
def State.toReader (s : State) (n : Nat) : State := (s.setFld (Reg.PRO_P_ROLE n) Fld.PRO_P_ROLE_ROLE 2).judgeRole n

/-- Port `n` wakes (R125, R126). -/
def State.sniffWake (s : State) (n : Nat) : State :=
  let s1 := (((s.stickBit Reg.TUN_SNIFF_STATUS Fld.TUN_SNIFF_STATUS_WAKE n).post 0x3005 .top 0).count 96).modT n fun x => { x with baseCount := 0 }
  let s2 := if s1.flag (Reg.TUN_P_SNIFF n) Fld.TUN_P_SNIFF_WAKE_TO_READER then
      match s1.huddleOf n with
      | some h => (List.range 16).foldl (fun t m => if (t.hud h).members.testBit m then t.toReader m else t) s1
      | none => s1.toReader n
    else s1
  if s2.pwr.awake = .sniff ∧ s2.flag Reg.PWR_WAKE Fld.PWR_WAKE_SNIFF_EN then s2.wake Fld.PWR_WAKE_STATUS_SNIFF else s2

/-- Time moved on to the instant at which the synthesiser of a round in SNIFF is ready (R126). -/
def State.roundReady (s : State) : State :=
  if s.pwr.awake = .sniff then (s.advance (s.field.settleEnd.getD s.time)).lockPast else s.lockPast

/-- `SNIFF_PING` (R122-R125): the ping of the port whose turn it is in the round. -/
def execSniffPing (port : Port) (vec : Word) (s : State) : Out := s.sniffing fun s =>
  match s.tun.todo with
  | n :: _ =>
    let s := s.roundReady
    if n ≠ port.val ∨ ¬ s.pingsRun then s
    else if !s.inRound n || !s.vddtxOk n then (s.pinged n).roundOver
    else if s.pingHeld n then (if s.tun.lastRound + s.roundTime ≤ s.time then (s.pinged n).skipPing.roundOver else s)
    else if !s.pingAllowed n then (s.pinged n).skipPing.roundOver
    else State.roundOver <|
      let t := (s.ping n vec).pinged n
      if (t.pt n).baseCount < 4 then t.sumBase n vec
      else if t.steps n vec then
        if t.flag (Reg.TUN_P_SNIFF n) Fld.TUN_P_SNIFF_CONFIRM then t.modT n fun x => { x with confirmAt := some (s.time + 2 * msec) }
        else t.sniffWake n
      else t.trackBase n vec
  | [] => s

/-- `SNIFF_CONFIRM_PING` (R124): 2 ms after the ping that stepped away, against the same baseline. While it is held it waits, up to one full
interval (R122, R129). A repeat that is skipped gives neither a wake nor a rejected wake (DESIGN CHOICE, log 74). One that meets a baseline to
be taken anew counts towards its mean (R123). -/
def execSniffConfirmPing (port : Port) (vec : Word) (s : State) : Out := s.sniffing fun s =>
  match (s.pt port).confirmAt with
  | some e =>
    let s1 := (s.advance e).roundReady
    let t := s1.modT port fun x => { x with confirmAt := none }
    if !t.pingsRun || !t.inRound port || !t.vddtxOk port then t.roundOver
    else if t.pingHeld port then (if e + s.roundTime ≤ t.time then t.skipPing.roundOver else s1)
    else if !t.pingAllowed port then t.skipPing.roundOver
    else
      let u := t.ping port vec
      if (u.pt port).baseCount < 4 then (u.sumBase port vec).roundOver
      else if u.steps port vec then (u.sniffWake port).roundOver
      else (u.count 19).roundOver
  | none => s

/-- A write of `TUN.Pn.SNIFF` or SNIFF_THR (R123): a change of AMPL or of a threshold takes the baseline anew. -/
def State.writeSniff (s : State) (n a : Nat) (v : Word) : State :=
  let t := s.writeReg a v
  let same := if a = Reg.TUN_P_SNIFF n then decide (t.fld a Fld.TUN_P_SNIFF_AMPL = s.fld a Fld.TUN_P_SNIFF_AMPL) else decide (t.reg a = s.reg a)
  if same then t else t.modT n fun x => { x with baseCount := 0 }

end Sys2Proof.Machine
end

