-- ==== Sys2Proof/Machine/Coex.lean ====
section
/-! DEFINITION. Coexistence (R384-R400): the grant and its withdrawal, waits and retries, blanks; and the regulatory lock's lowering
(R425-R427). -/

namespace Sys2Proof.Machine

/-- The state with COX changed. -/
def State.setCox (s : State) (x : CoxSt) : State := { s with cox := x }

/-! ### Waiting bursts (R388, R389, R393) -/

/-- What port `n` has due attempted now: its planned frame, else a field-on (R388). -/
def State.attempt (s : State) (n : Nat) : State :=
  match (s.pp n).plan with
  | some p =>
    if (s.huddled n).isSome then s
    else if s.frameReady n p then s.tryFrame n p
    else s.tryOn n
  | none => s.tryOn n

/-- The burst of port `n` no longer waits for the grant or its retry. -/
def State.unwait (s : State) (n : Nat) : State := s.modX n fun x => { x with waitEnd := none, retryAt := none }

/-- A change on a pin that COX synchronises is seen 2 or 3 CLK_CORE cycles later (R387): which is free. -/
def State.seenLater (s : State) : State :=
  let f := s.takeFreeBit
  f.1.advance (f.1.time + (2 + bnat f.2) * cycle)

/-- Time moved on to the next RF cycle, whose phase is free (R388). -/
def State.toRfCycle (s : State) : State :=
  let f := s.takeFreeWord
  f.1.advance (f.1.time + f.2.toNat % (s.fc 1 + 1))

/-- Bursts that wait for the grant start in the first RF cycle after it is seen, retries with them (R388, R389). -/
def State.grantSeen (s0 : State) : State :=
  let s := if anyBelow (fun n => (s0.px n).waitEnd.isSome || (s0.px n).retryAt.isSome) 16 then s0.toRfCycle else s0
  ((List.range 16).foldl (fun t n => if (t.px n).waitEnd.isSome || (t.px n).retryAt.isSome then (t.unwait n).attempt n else t) s).tryOffs

/-- One bit of a frame, in 1/fc (R173-R176). -/
def Frame.bitFc (f : Frame) : Nat := if f.tech = 3 then (if f.rate = 0 then 512 else 8192) else etu f.rate

/-- A burst cut for loss of grant (R391, R392): counted, reported at most once per second for each port. -/
def State.noteCut (s : State) (n : Nat) : State :=
  ((s.bump Reg.COX_COUNTS Fld.COX_COUNTS_CUTS).count 101).postLimited 0xA002 n .top .count 0 second

/-- When the frame on port `n` is cut by a withdrawal now (R391): the next bit boundary, none where it completes, as one in its last bit
does (R212). -/
def State.cutTime (s : State) (n : Nat) : Option Nat :=
  match (s.pp n).xch, (s.pf n).txEnd with
  | some x, some e =>
    let b := s.fc x.plan.frame.bitFc
    if x.txDone ∨ s.time < x.startAt ∨ e < s.time + s.fld Reg.COX_TIMING Fld.COX_TIMING_FINISH_US * usec ∨ e ≤ s.time + b then none
    else
      some (x.startAt + ((s.time - x.startAt) / b + 1) * b)
  | _, _ => none

/-- A frame cut with RESULT 10 (R205, R391). -/
def State.cutFrame (s : State) (n : Nat) : State :=
  (s.noteCut n).cutExchange n 10 0 { bits := [], halves := [], rssi := 0, clip := false }

/-- The field of port `n` follows the withdrawn grant (R392, CUT_FIELD 1): a field-on ramp is reversed from the present amplitude, FIELD and
CAL ramp off at once; TX and RX follow at their end. -/
def State.cutOn (s : State) (n : Nat) : State :=
  let x := s.pf n
  match x.ramp with
  | .biasOn _ => (s.noteCut n).modF n fun y => { y with ramp := .down s.time false, wantOff := none }
  | .up e => (s.noteCut n).modF n fun y => { y with ramp := .down (s.time + (s.rampTime - (e - s.time))) false, wantOff := none }
  | .none =>
    if x.carrier && (decide (x.radio = .field) || decide (x.radio = .cal)) && (s.pp n).xch.isNone then (s.noteCut n).startOff n false else s
  | _ => s

/-- The grant seen withdrawn (R391, R392): each frame judged against its own end. -/
def State.grantLost (s : State) : State :=
  let cuts := sortBy (fun p => p.2) ((List.range 16).filterMap fun n => (s.cutTime n).map fun t => (n, t))
  let s1 := if s.flag Reg.COX_CTRL Fld.COX_CTRL_CUT_FIELD then (List.range 16).foldl (fun t n => t.cutOn n) s else s
  cuts.foldl (fun t p => (t.advance p.2).cutFrame p.1) s1

/-- What a change between two states of whether the grant counts as present brings about (R387, R388, R391). -/
def State.grantMoved (s0 s : State) : State :=
  if s.granted && !s0.granted then s.grantSeen else if s0.granted && !s.granted then s.grantLost else s

/-- `GRANT_CHANGE` (R387): the level on the pin. While CLK_CORE is stopped only the level changes. -/
def execGrantChange (high : Bool) (s : State) : Out := s.mon fun s0 =>
  let runs := s0.live && !s0.gen.safeBoot
  let s := if runs then s0.seenLater else s0
  let t := s.setCox { s.cox with grant := high != s.flag Reg.COX_CTRL Fld.COX_CTRL_GRANT_POL }
  if runs then State.grantMoved s t else t

/-- `GRANT_WAIT_EXPIRY` (R388): GRANT_WAIT has passed without the grant; the burst is deferred, or fails the 8th time (R390). -/
def execGrantWaitExpiry (port : Port) (s : State) : Out := s.core fun s =>
  match (s.px port).waitEnd with
  | some e =>
    let t := s.advance e
    let isFrame := (t.pp port).plan.isSome && (t.pf port).carrier
    t.coxDefer port (if isFrame then State.failPlan port else fun u => u.modF port fun y => { y with wantOn := none })
  | none => s

/-- `RETRY_EXPIRY` (R389). -/
def execRetryExpiry (port : Port) (s : State) : Out := s.core fun s =>
  match (s.px port).retryAt with
  | some e => ((s.advance e).unwait port).attempt port
  | none => s

/-! ### Blanks (R393-R395) -/

/-- Whether a blank of port `n`, BLANK1 or BLANK0, is enabled for it. -/
def State.blankFor (s : State) (second : Bool) (n : Nat) : Bool :=
  if second then s.flag Reg.COX_CTRL Fld.COX_CTRL_BLANK1_EN && s.fldBit Reg.COX_PORT_CFG Fld.COX_PORT_CFG_B1_MASK n
  else s.flag Reg.COX_CTRL Fld.COX_CTRL_BLANK0_EN && s.fldBit Reg.COX_PORT_CFG Fld.COX_PORT_CFG_B0_MASK n

/-- The level of a blank, after polarity, as CORE sees it: asserted since now, or ended now; a blank that was ignored ends with no tail. -/
def CoxSt.setBlank (x : CoxSt) (second on : Bool) (now : Nat) : CoxSt :=
  if second then
    if on = x.blank1 then x
    else { x with blank1 := on, since1 := if on then some now else none, ended1 := if on || x.stuck1 then x.ended1 else some now, stuck1 := false }
  else
    if on = x.blank0 then x
    else { x with blank0 := on, since0 := if on then some now else none, ended0 := if on || x.stuck0 then x.ended0 else some now, stuck0 := false }

/-- Receptions in progress under a blank that applies to their port are marked BLANKED (R395). -/
def State.markBlanked (s : State) : State :=
  State.each (fun n t =>
    if t.blankOn n && (decide ((t.pr n).state = .sofWait) || decide ((t.pr n).state = .frame)) then t.modR n fun x => { x with blanked := true } else t) 16 s

/-- `BLANK_CHANGE` (R387, R393): the level on `BLANK1` (`second`) or `BLANK0`. -/
def execBlankChange (second high : Bool) (s : State) : Out := s.mon fun s0 =>
  let runs := s0.live && !s0.gen.safeBoot
  let s := if runs then s0.seenLater else s0
  let pol := s.flag Reg.COX_CTRL (if second then Fld.COX_CTRL_BLANK1_POL else Fld.COX_CTRL_BLANK0_POL)
  let t := s.setCox (s.cox.setBlank second (high != pol) s.time)
  if runs then t.markBlanked.tryOffs else t

/-- `BLANK_TAIL_EXPIRY` (R393): BLANK_TAIL_US after the last blank that applies to the port has deasserted, what it held may start. -/
def execBlankTailExpiry (port : Port) (s : State) : Out := s.core fun s =>
  if s.blankOn port then s else ((s.advance (s.blankTail port)).attempt port).tryOffs

/-- `COX_BLANK_STUCK` (R394): a blank asserted for BLANK_MAX_MS is ignored from then on. -/
def execCoxBlankStuck (second : Bool) (s : State) : Out := s.core fun s =>
  let x := s.cox
  let en := s.flag Reg.COX_CTRL (if second then Fld.COX_CTRL_BLANK1_EN else Fld.COX_CTRL_BLANK0_EN)
  let stuck := if second then x.stuck1 else x.stuck0
  match (if second then x.since1 else x.since0) with
  | some t0 =>
    if en && !stuck then
      let t := s.advance (t0 + s.fld Reg.COX_TIMING2 Fld.COX_TIMING2_BLANK_MAX_MS * msec)
      ((t.setCox (if second then { t.cox with stuck1 := true } else { t.cox with stuck0 := true })).post 0xA003 .heart 0).tryOffs
    else s
  | none => s

/-- A write of `COX.CTRL` (R387, R400): a change of polarity or of GRANT_EN counts as a change of what is seen. -/
def State.writeCoxCtrl (s : State) (v : Word) : State :=
  let t := s.writeReg Reg.COX_CTRL v
  let flip := fun (f : Field) => s.flag Reg.COX_CTRL f != t.flag Reg.COX_CTRL f
  let g := s.cox.grant != flip Fld.COX_CTRL_GRANT_POL
  let x1 := ({ s.cox with grant := g }).setBlank false (s.cox.blank0 != flip Fld.COX_CTRL_BLANK0_POL) s.time
  let x2 := x1.setBlank true (s.cox.blank1 != flip Fld.COX_CTRL_BLANK1_POL) s.time
  (State.grantMoved s (t.setCox x2)).markBlanked.tryOffs

/-! ### The regulatory lock (R422-R427) -/

/-- The words of the regulatory lock in force: GLOBAL, TRIM, and the sixteen ceilings. -/
def State.regWords (s : State) : List Word :=
  s.reg Reg.COX_REG_GLOBAL :: s.reg Reg.COX_REG_TRIM :: (List.range 16).map fun n => s.reg (Reg.COX_REG_CEIL n)

/-- The registers of the regulatory lock loaded (R432). -/
def State.loadReg (s : State) (l : List Word) : State :=
  let s1 := (s.setReg Reg.COX_REG_GLOBAL ((l[0]?).getD 0)).setReg Reg.COX_REG_TRIM ((l[1]?).getD 0)
  State.each (fun n t => t.setReg (Reg.COX_REG_CEIL n) ((l[n + 2]?).getD 0)) 16 s1

/-- A lowering (R425): KIND, PORT, VALUE of its payload. -/
def lowerKind (p : List Byte) : Nat := leAt p 0 1
def lowerPort (p : List Byte) : Nat := leAt p 1 1
def lowerValue (p : List Byte) : Nat := leAt p 4 4

/-- The value that a lowering's VALUE concerns, as the payload would give it (R425). -/
def State.lowerNow (s : State) (p : List Byte) : Nat :=
  match lowerKind p with
  | 0 => s.ceil (lowerPort p)
  | 1 => s.fld Reg.COX_REG_GLOBAL Fld.COX_REG_GLOBAL_DUTY_CEIL
  | 2 => (s.reg Reg.COX_REG_TRIM).toNat
  | 3 => s.fld Reg.COX_REG_GLOBAL Fld.COX_REG_GLOBAL_GT_FLOOR
  | _ => s.fld Reg.COX_REG_GLOBAL Fld.COX_REG_GLOBAL_ACTIVE_OK

/-- Whether R426 refuses a lowering for its form or its range. -/
def lowerBad (p : List Byte) : Bool :=
  let k := lowerKind p
  let v := lowerValue p
  decide (4 < k) || decide (leAt p 2 2 ≠ 0) || (if k = 0 then decide (15 < lowerPort p) else decide (lowerPort p ≠ 0))
    || (match k with
      | 0 => decide (1023 < v)
      | 1 => decide (v = 0) || decide (256 < v)
      | 2 => v.testBit 15 || v.testBit 31
      | 3 => decide (v < 10) || decide (200 < v)
      | _ => decide (v ≠ 0))

/-- Whether a lowering would make its value less strict (R426). -/
def State.lowerLoosens (s : State) (p : List Byte) : Bool :=
  let v := lowerValue p
  let now := s.lowerNow p
  match lowerKind p with
  | 0 => decide (now < v)
  | 1 => decide (now < v)
  | 2 =>
    let mn := signed 15 (v % 2 ^ 15)
    let mx := signed 15 (v / 2 ^ 16 % 2 ^ 15)
    decide (mn < signed 15 (s.fld Reg.COX_REG_TRIM Fld.COX_REG_TRIM_TRIM_MIN)) || decide (signed 15 (s.fld Reg.COX_REG_TRIM Fld.COX_REG_TRIM_TRIM_MAX) < mx)
      || decide (mx < mn)
  | 3 => decide (v < now)
  | _ => false

/-- `COX_REG_LOWER` (R425, R426): refused, accepted with nothing to change, or accepted with its NV write started. -/
def execCoxRegLower (s : State) : Out := s.core fun s =>
  match s.authActs 6 with
  | none => s
  | some p =>
    if !s.flag Reg.COX_REG_STATUS Fld.COX_REG_STATUS_SEALED || lowerBad p || s.lowerLoosens p then s.authRefused.post 0xA012 .heart 0
    else if s.lowerNow p = lowerValue p then s.authAccepted.authEnd
    else
      let t := s.authAccepted.setFld Reg.COX_REG_STATUS Fld.COX_REG_STATUS_NV_BUSY 1
      t.setCox { t.cox with lower := some p }

/-- A lowered drive ceiling in force on its port (R427): at the end of its frame in progress, else at once. -/
def State.lowerCeil (s : State) (n : Nat) : State :=
  let x := s.pf n
  if x.txEnd.isSome || x.ramp.goesOn then s.modF n fun y => { y with pend := true } else s.modF n fun y => { y with ceil := s.ceil n }

/-- The stricter value in force (R427, R48). -/
def State.applyLower (s : State) (p : List Byte) : State :=
  let v := lowerValue p
  match lowerKind p with
  | 0 =>
    let n := lowerPort p
    ((((s.setFld (Reg.COX_REG_CEIL n) Fld.COX_REG_CEIL_DRIVE_CEIL v).lowerCeil n).clampCheck (Reg.FLD_P_AMPL n)).clampCheck (Reg.FLD_P_RELAY n)).clampCheck
      (Reg.TUN_P_SNIFF n)
  | 1 => (s.setFld Reg.COX_REG_GLOBAL Fld.COX_REG_GLOBAL_DUTY_CEIL v).setFld Reg.FLD_DUTY Fld.FLD_DUTY_CEIL_EFF v
  | 2 =>
    (((s.setFld Reg.COX_REG_TRIM Fld.COX_REG_TRIM_TRIM_MIN (v % 2 ^ 15)).setFld Reg.COX_REG_TRIM Fld.COX_REG_TRIM_TRIM_MAX (v / 2 ^ 16)).retrim).clampCheck
      Reg.FLD_FC_TRIM
  | 3 => (s.setFld Reg.COX_REG_GLOBAL Fld.COX_REG_GLOBAL_GT_FLOOR v).clampCheck Reg.FLD_GUARD
  | _ =>
    State.each (fun n t => if t.roleAsked n = 3 ∨ t.roleAsked n = 4 then t.judgeRole n else t) 16
      (s.setFld Reg.COX_REG_GLOBAL Fld.COX_REG_GLOBAL_ACTIVE_OK 0)

/-- `REG_LOWER_NV_DONE` (R427): the write verified, and the value acts from the next cycle; a write that does not verify changes
nothing. -/
def execRegLowerNvDone (ok : Bool) (s : State) : Out := s.core fun s =>
  match s.cox.lower with
  | none => s
  | some p =>
    let s1 := (s.authEnd.setFld Reg.COX_REG_STATUS Fld.COX_REG_STATUS_NV_BUSY 0).setCox { s.cox with lower := none }
    if ok then
      let t := (s1.applyLower p).bump Reg.COX_REG_STATUS Fld.COX_REG_STATUS_LOWERS
      (t.setCox { t.cox with sealed := some t.regWords }).post 0xA011 .top 0
    else s1

end Sys2Proof.Machine
end

