-- ==== Sys2Proof/Machine/Emu.lean ====
section
/-! DEFINITION. Tag emulation and the harvest island (R362-R383): the frames the emulated tag serves, its data area and locks, syncs, the
counters, the bench, and the island's power. -/

namespace Sys2Proof.Machine

/-! ### Answers (R362, R363, R366) -/

/-- Whether the tag may begin a response (R52 M, R364): nothing mutes it in harvest. -/
def State.tagSpeaks (s : State) : Bool := s.emu.harvest || !s.emuMuted s.emuPort

/-- The frame delay time of the tag in 1/fc, by the last bit of the command (R363). -/
def frameDelay (last : Bool) : Nat := if last then 1236 else 1172

/-- The last bit of a frame whose last byte has `bits` of them. -/
def lastBit (frame : List Byte) (bits : Nat) : Bool := ((frame.getLast?).getD 0).toNat.testBit (bits - 1)

/-- The last bit of a command of whole bytes that ends with CRC_A (R177, R363). -/
def lastBitCrc (b : List Byte) : Bool := lastBit (leBytes 2 (crcA b)) 8

/-- Whole bytes as the tag sends them: least significant bit first, each with its odd parity bit (R366). -/
def tagBits (b : List Byte) : List Bool := b.flatMap fun x => byteBits x ++ [oddParity x]

/-- A response of the tag to a command with last bit `last`: its bytes, the bits of the last one, and its bits as sent; unless the port is
muted. -/
def State.respond (s : State) (last : Bool) (b : List Byte) (bits : Nat) (air : List Bool) : State :=
  if s.tagSpeaks then
    s.modE fun x => { x with answer := b, answerBits := bits, answers := x.answers + 1, answerAir := air
                             answerAt := s.time + s.fc (frameDelay last) }
  else s

/-- A response of whole bytes with CRC_A (R366, R177). -/
def State.respondCrc (s : State) (last : Bool) (b : List Byte) : State :=
  let f := b ++ leBytes 2 (crcA b)
  s.respond last f 8 (tagBits f)

/-- NAK and BUSY (R366): 4-bit responses, sent as short frames. -/
def State.respondNak (s : State) (last : Bool) : State := s.respond last [0] 4 [false, false, false, false]
def State.respondBusy (s : State) (last : Bool) : State := s.respond last [5] 4 [true, false, true, false]

/-- A frame as the tag receives it (R367, R378, R382): nothing while it is not served, in the safe state, or during a counter update. -/
def State.tagFrame (s : State) (f : State → State) : Out :=
  done s (if (s.emu.harvest || (s.live && !s.gen.safeBoot && !s.saf.safe)) && decide (s.emu.updates = []) then f s else s)

/-- A frame that the state of the tag does not serve (R367): from READY and ACTIVE back to IDLE, or to HALT where it was woken from there
(PRESUMED, ISO/IEC 14443-3); the other states stay as they are. -/
def State.tagReject (s : State) : State :=
  if s.emu.tag = .ready ∨ s.emu.tag = .active then s.tagTo (if s.emu.fromHalt then .halt else .idle) else s

/-- ATQA sent, READY at cascade level 1 (R362, R367). -/
def State.tagWake (s : State) (last halted : Bool) : State :=
  (s.modE fun x => { x with tag := .ready, level := 1, fromHalt := halted }).respond last [0x44, 0x00] 8 (tagBits [0x44, 0x00])

/-- `EMU_REQA` (R367): its short frame 0x26 ends with a bit 0. -/
def execEmuReqa (s : State) : Out := s.tagFrame fun s => if s.emu.tag = .idle then s.tagWake (lastBit [0x26] 7) false else s.tagReject

/-- `EMU_WUPA` (R367): its short frame 0x52 ends with a bit 1. -/
def execEmuWupa (s : State) : Out := s.tagFrame fun s =>
  let last := lastBit [0x52] 7
  if s.emu.tag = .idle then s.tagWake last false else if s.emu.tag = .halt then s.tagWake last true else s.tagReject

/-! ### Selection (R362, R367) -/

/-- The UID the tag answers with (R362, R373). -/
def State.tagUid (s : State) : List Byte :=
  if s.emu.harvest then
    match s.imageInForce with
    | some k => s.nvRead (slotBase k + 8) 7
    | none => []
  else s.emuUid

/-- The five bytes of a cascade level (R362). -/
def State.tagLevel (s : State) (level : Nat) : List Byte :=
  let u := s.tagUid
  let b := if level = 1 then 0x88 :: u.take 3 else u.drop 3
  b ++ [b.foldl (fun x y => x ^^^ y) 0]

/-- ACTIVE entered (R367, R370): locked where WIRE_LOCK is 1; main-powered selections are counted (R383). -/
def State.tagSelect (s : State) : State :=
  let lock := !s.emu.harvest && s.flag Reg.EMU_WIRE Fld.EMU_WIRE_WIRE_LOCK
  let s1 := s.modE fun x => { x with tag := .active, lockedSel := lock, snapshot := none, counted := false, publishing := false }
  if s.emu.harvest then s1 else s1.bump Reg.EMU_COUNTS Fld.EMU_COUNTS_SELECTIONS

/-- The final SAK (R362). -/
def State.finalSak (s : State) : Byte := if s.benchEn then 0x02 else 0x00

/-- The bits that answer an anti-collision frame with `n` bits known (R362): what is left of a split byte without a parity bit, which no rule
gives, then whole bytes. -/
def restBits (own : List Byte) (n : Nat) : List Bool :=
  if n % 8 = 0 then tagBits (own.drop (n / 8)) else (byteBits ((own[n / 8]?).getD 0)).drop (n % 8) ++ tagBits (own.drop (n / 8 + 1))

/-- An anti-collision or SELECT frame in READY (R362, R367): `frame` is SEL, NVB and what follows. A frame of another level or another
UID returns the tag to IDLE or HALT (PRESUMED, ISO/IEC 14443-3). -/
def State.tagSel (s : State) (frame : List Byte) (lastBits : Nat) : State :=
  let own := s.tagLevel s.emu.level
  let sel : Byte := if s.emu.level = 1 then 0x93 else 0x95
  let last := lastBit frame lastBits
  match frame with
  | c :: nvb :: rest =>
    if c ≠ sel then s.tagReject
    else if nvb = 0x70 then
      if rest.take 5 = own ∧ leAt rest 5 2 = crcA (frame.take 7) ∧ rest.length = 7 then
        if s.emu.level = 1 then (s.modE fun x => { x with level := 2 }).respondCrc last [0x04]
        else s.tagSelect.respondCrc last [s.finalSak]
      else s.tagReject
    else
      let n := 8 * (nvb.toNat / 16 - 2) + nvb.toNat % 16
      let known := (rest.flatMap byteBits).take n
      let bits := own.flatMap byteBits
      if 2 ≤ nvb.toNat / 16 ∧ n < 40 ∧ known = bits.take n
          ∧ rest.length = (n + 7) / 8 ∧ (rest = [] ∨ lastBits = if n % 8 = 0 then 8 else n % 8) then
        let left := bits.drop n
        s.respond last (bitBytes ((left.length + 7) / 8) left) (if left.length % 8 = 0 then 8 else left.length % 8) (restBits own n)
      else s.tagReject
  | _ => s.tagReject

/-- `EMU_SELECT` (R362, R367). -/
def execEmuSelect (frame : List Byte) (lastBits : Nat) (s : State) : Out := s.tagFrame fun s =>
  if s.emu.tag = .ready then s.tagSel frame lastBits else s.tagReject

/-! ### What ACTIVE serves (R366, R367, R370-R372, R377) -/

/-- Whether the tag is in ACTIVE. -/
def State.tagActive (s : State) : Bool := decide (s.emu.tag = .active)

/-- The sixteen bytes of a block as the selection reads them (R370, R371, R373). -/
def State.tagBlock (s : State) (b : Nat) : List Byte :=
  if s.emu.harvest then
    match s.imageInForce with
    | some k => s.nvRead (slotBase k + 64 + 16 * b) 16
    | none => []
  else
    match s.emu.snapshot with
    | some m => Sparse.read m 0 (16 * b) 16
    | none => Sparse.read s.emu.data 0 (16 * b) 16

/-- BUSY sent (R370, R372). -/
def State.sendBusy (s : State) (last : Bool) : State :=
  if s.tagSpeaks then
    ((s.respondBusy last).bump Reg.EMU_COUNTS Fld.EMU_COUNTS_BUSY_SENT).postSec 0x9002 0 .top 0
  else s

/-- Whether counter `c` is marked BAD (R379). -/
def State.ctrBad (s : State) (c : Nat) : Bool :=
  if s.emu.harvest then (s.ctrCell c).isNone else s.fldBit Reg.EMU_CTR_STATUS Fld.EMU_CTR_STATUS_BAD c

/-- An increment of counter `c` asked for (R377, R379): refused for a counter that can take none, unless updates that run before it are
still to decide that. -/
def State.askInc (s : State) (c : Nat) : State := if s.emu.updates = [] && s.ctrStuck c then s else s.queueInc c

/-- A READ answered with data (R366): the first of its selection increments counter 0 (R377). -/
def State.sendBlock (s : State) (last : Bool) (b : Nat) : State :=
  let s1 := s.respondCrc last (s.tagBlock b)
  if !s.tagSpeaks || s.emu.counted then s1 else (s1.modE fun x => { x with counted := true }).askInc 0

/-- `EMU_READ` (R366, R370). -/
def execEmuRead (block : Byte) (s : State) : Out := s.tagFrame fun s =>
  let last := lastBitCrc [0x30, block]
  if s.tagActive then
    (if s.emu.lockedSel then s.sendBusy last else if 63 < block.toNat then s.respondNak last else s.sendBlock last block.toNat)
  else s.tagReject

/-- The four bytes of counter `c` (R366). -/
def State.ctrBytes (s : State) (c : Nat) : List Byte :=
  if s.emu.harvest then leBytes 4 (((s.ctrVal c).map fun v => v.1).getD 0) else wordBytes (s.reg (Reg.EMU_CTR c))

/-- `READ_CTR` (R366, R379). -/
def execReadCtr (index : Byte) (s : State) : Out := s.tagFrame fun s =>
  let last := lastBitCrc [0x39, index]
  if s.tagActive then
    (if 7 < index.toNat || s.ctrBad index.toNat then s.respondNak last else s.respondCrc last (s.ctrBytes index.toNat))
  else s.tagReject

/-- `EMU_HLTA` (R367). -/
def execEmuHlta (s : State) : Out := s.tagFrame fun s => if s.tagActive then s.leaveActive .halt else s.tagReject

/-- A bench begun (R367, R380): BENCH, and the remaining time stored in the retention cell. -/
def State.benchTag (s : State) (dur : Nat) : State :=
  let d := dur * 100 * msec
  (s.leaveActive .bench).modE fun x => { x with benchEnd := some (s.time + d), cell := some d }

/-- `EMU_ACC_BENCH` with ADDR 0 (R367, R255): DUR 0 and BENCH_EN 0 make it an unrecognised frame. -/
def execEmuAccBench (dur : Byte) (s : State) : Out := s.tagFrame fun s =>
  if s.tagActive && s.benchEn && decide (dur ≠ 0) then s.benchTag dur.toNat else s.tagReject

/-- `EMU_ACC_RELEASE` with ADDR 0 (R367): nothing in ACTIVE with BENCH_EN 1. -/
def execEmuAccRelease (s : State) : Out := s.tagFrame fun s => if s.tagActive && s.benchEn then s else s.tagReject

/-- `EMU_ACC_ENROL` (R367): nothing in ACTIVE with BENCH_EN 1. -/
def execEmuAccEnrol (s : State) : Out := s.tagFrame fun s => if s.tagActive && s.benchEn then s else s.tagReject

/-- `EMU_OTHER_FRAME` (R367, R255): any frame that no state serves. -/
def execEmuOtherFrame (_frame : List Byte) (_lastBits : Nat) (s : State) : Out := s.tagFrame fun s => s.tagReject

/-- `EMU_FIELD_LOSS_TIMEOUT` (R365): the field has been absent for 2 ms. -/
def execEmuFieldLossTimeout (s : State) : Out := s.core fun s =>
  match s.emu.absentSince with
  | some t =>
    if s.emu.harvest ∨ s.emu.tag = .off ∨ s.emu.tag = .bench then s else (s.advance (t + 2 * msec)).tagTo .idle
  | none => s

/-- `EMU_BENCH_END` (R380): the bench ends between D and D + 1 ms after the ACC_BENCH, when is free. -/
def execEmuBenchEnd (s : State) : Out :=
  done s (if s.emu.harvest || (s.live && !s.gen.safeBoot) then
    (match s.emu.tag, s.emu.benchEnd with
     | .bench, some e =>
       let f := s.takeFreeWord
       (f.1.advance (e + f.2.toNat % (msec + 1))).modE fun x => { x with tag := .idle, benchEnd := none, cell := none }
     | _, _ => s)
    else s)

/-! ### The data area and WIRE_LOCK (R368-R371, R382) -/

/-- Words that the host writes to the data area from word `i` on (R369, R370): held while ACTIVE owns it. -/
def State.writeEmuData (s : State) (i : Nat) (ws : List Word) : State :=
  if s.tagActive && !s.flag Reg.EMU_WIRE Fld.EMU_WIRE_WIRE_LOCK then s.modE fun x => { x with heldWrite := some (i, ws, s.time) }
  else s.putDatas i ws

/-- `EMU_DATA_WRITE` (R369): nothing while an earlier write holds `HRDY` low. -/
def execEmuDataWrite (index : Fin 256) (value : Word) (s : State) : Out := s.core fun s =>
  if s.emu.heldWrite.isSome then s else s.writeEmuData index [value]

/-- `EMU_BUSY` (R369): a write held for 50 ms is discarded. -/
def execEmuBusy (s : State) : Out := s.core fun s =>
  match s.emu.heldWrite with
  | some (_, _, t) =>
    (((s.advance (t + 50 * msec)).modE fun x => { x with heldWrite := none }).stick Reg.EMU_STATUS Fld.EMU_STATUS_WR_FAIL).post 0x9001 .heart 0
  | none => s

/-- A write of `EMU.WIRE` (R370, R371, R375, R382). -/
def State.writeWire (s : State) (v : Word) : State :=
  let old := s.flag Reg.EMU_WIRE Fld.EMU_WIRE_WIRE_LOCK
  let s1 := s.writeReg Reg.EMU_WIRE v
  let new := s1.flag Reg.EMU_WIRE Fld.EMU_WIRE_WIRE_LOCK
  if new && !old then
    (if s.tagActive then s1.modE fun x => { x with snapshot := some (x.snapshot.getD x.data) } else s1).releaseHeld
  else if old && !new then
    let s2 := s1.modE fun x => { x with lockedSel := false }
    if s2.emu.snapshot.isSome then s2.modE fun x => { x with publishing := true } else s2.autoSync
  else s1

/-- `WIRE_LOCK_WRITE` (R370, R371). -/
def execWireLockWrite (value : Word) (s : State) : Out := s.core fun s => s.writeWire value

/-! ### Settings -/

/-- A write of `EMU.CTRL` (R50, R364, R383): the ports asked to emulate are judged again. -/
def State.writeEmuCtrl (s : State) (v : Word) : State :=
  (State.each (fun n t => if t.roleAsked n = 5 && decide (s.emuPort ≠ t.emuPort) then t.judgeRole n else t) 16 (s.writeReg Reg.EMU_CTRL v)).syncEmu

/-- A write of `EMU.UID_LO` (R383): refused where byte 0 or byte 3 would be 0x88. -/
def State.writeUidLo (s : State) (v : Word) : State :=
  if !s.writeRefused Reg.EMU_UID_LO && (decide (wbyte v 0 = 0x88) || decide (wbyte v 3 = 0x88)) then s
  else s.writeReg Reg.EMU_UID_LO v

/-! ### Syncs (R375, R382) -/

/-- A counter increment asked for by the host (R377): counter 0 is ignored. -/
def State.ctrInc (s : State) (c : Nat) : State := if c = 0 then s else s.askInc c

/-- A write of `EMU.CMD` (R375, R377). -/
def State.writeEmuCmd (s : State) (v : Word) : State :=
  let s1 := if Fld.EMU_CMD_SYNC.get v = 1 then s.askSync else s
  if Fld.EMU_CMD_CTR_INC.get v = 1 then s1.ctrInc (Fld.EMU_CMD_INDEX.get v) else s1

/-- `SYNC` (R375): SYNC written in `EMU.CMD`. -/
def execSync (s : State) : Out := s.core fun s => s.writeEmuCmd 1

/-- An image whose CHECK fails: free but for that (R375). -/
def State.spoilImage (s : State) (r : SyncRun) : State :=
  let f := s.takeFreeWord
  let good := leAt r.bytes 60 4
  let c := if f.2.toNat = good then (good + 1) % 2 ^ 32 else f.2.toNat
  f.1.nvWrite (slotBase r.slot) (r.bytes.take 60 ++ leBytes 4 c ++ r.bytes.drop 64)

/-- The sync that follows, where one was asked for meanwhile (R382). -/
def State.nextSync (s : State) : State :=
  let again := s.emu.syncAgain
  let s1 := s.modE fun x => { x with sync := none, syncAgain := false }
  if again then s1.beginSync else s1

/-- `EMU_SYNC_DONE` (R375): the slot verifies, or SYNC_FAIL. -/
def execEmuSyncDone (ok : Bool) (s : State) : Out := s.core fun s =>
  match s.emu.sync with
  | some r =>
    if ok then ((s.nvWrite (slotBase r.slot) r.bytes).setFld Reg.EMU_STATUS Fld.EMU_STATUS_IMAGE_VALID 1).nextSync
    else (((s.spoilImage r).stick Reg.EMU_STATUS Fld.EMU_STATUS_SYNC_FAIL).post 0x9006 .heart 0).nextSync
  | none => s

/-! ### Counters (R377-R379) -/

/-- `CTR_INC` (R377). -/
def execCtrInc (value : Word) (s : State) : Out := s.core fun s => s.writeEmuCmd (Fld.EMU_CMD_SYNC.set value 0)

/-- Updates at the head of the queue that can take no increment dropped (R379). -/
def State.dropStuck : Nat → State → State
  | 0, s => s
  | k + 1, s =>
    match s.emu.updates with
    | u :: t => if u.step = 0 && s.ctrStuck u.ctr then State.dropStuck k (s.modE fun x => { x with updates := t }) else s
    | [] => s

/-- The update at the head ended. -/
def State.endUpdate (s : State) : State :=
  State.dropStuck s.emu.updates.length (s.modE fun x => { x with updates := x.updates.tail })

/-- The update at the head replaced. -/
def State.setUpdate (s : State) (u : CtrUpd) : State := s.modE fun x => { x with updates := u :: x.updates.tail }

/-- A cell that fails its verify (R378): its CHECK is free but for being wrong. -/
def State.spoilCell (s : State) (k : Nat) (cell : List Byte) : State :=
  let f := s.takeFreeWord
  let c := f.2.toNat % 2 ^ 16
  f.1.nvWrite (8 * k) (cell.take 6 ++ leBytes 2 (if c = leAt cell 6 2 then c ^^^ 1 else c))

/-- The new value of a counter in force and shown (R378, R379). -/
def State.showCtr (s : State) (c v : Nat) : State :=
  if s.emu.harvest then s else (s.setReg (Reg.EMU_CTR c) (word v)).markSat c v

/-- CTR_FAIL (R378); in harvest nothing is recorded (R373). -/
def State.ctrFail (s : State) (c : Nat) : State :=
  if s.emu.harvest then s
  else (s.stickBit Reg.EMU_CTR_STATUS Fld.EMU_CTR_STATUS_CTR_FAIL c).post 0x9003 .heart 0

/-- The cell that an update writes: the backup first, then the primary (R378). -/
def CtrUpd.cell (u : CtrUpd) : Nat := if u.step = 3 then 2 * u.ctr else 2 * u.ctr + 1

/-- What an update writes into its cells (R378). -/
def CtrUpd.bytes (u : CtrUpd) (k : Nat) : List Byte := makeCell k (u.value + 1) ((u.seq + 1) % 256)

/-- The update at the head with VALUE and SEQ latched as it begins (R378). -/
def State.latchUpdate (s : State) (u : CtrUpd) : CtrUpd :=
  if u.step = 0 then
    let v := (s.ctrVal u.ctr).getD (0, 0)
    { u with value := v.1, seq := v.2, step := 1 }
  else u

/-- One cell written and verified (R378): a verify that fails is repeated once. -/
def State.runUpdate (s : State) (u : CtrUpd) (ok : Bool) : State :=
  let b := u.bytes u.cell
  if ok then
    let s1 := s.nvWrite (8 * u.cell) b
    if u.step = 3 then (s1.showCtr u.ctr (u.value + 1)).endUpdate else s1.setUpdate { u with step := 3, again := false }
  else
    let s1 := s.spoilCell u.cell b
    if !u.again then s1.setUpdate { u with again := true }
    else if u.step = 3 then ((s1.showCtr u.ctr (u.value + 1)).ctrFail u.ctr).endUpdate
    else (s1.ctrFail u.ctr).endUpdate

/-- The time that a cell takes to be written and verified (R378): free up to 1.02 ms, and 10 µs more before the first. -/
def State.cellTime (s : State) (u : CtrUpd) : State :=
  let f := s.takeFreeWord
  f.1.advance (f.1.time + f.2.toNat % ((if u.step = 0 then 1030 else 1020) * usec + 1))

/-- `COUNTER_UPDATE` (R378): the cell the update at the head has come to is written, and verifies or does not. It runs in the island's part
of EMU, in the safe state and in harvest too (R376, R382). -/
def execCounterUpdate (ok : Bool) (s : State) : Out :=
  done s (if s.emu.harvest || (s.live && !s.gen.safeBoot) then
    (match s.emu.updates with
     | u :: _ => (s.cellTime u).runUpdate (s.latchUpdate u) ok
     | [] => s)
    else s)

/-! ### Supplies (R373, R376, R379, R380) -/

/-- An update cut by a collapse (R379): which of its points it had reached is not stated. Free: nothing written, the cell it was writing
spoiled, that cell written, or all of it. -/
def State.collapseUpdate (s : State) : State :=
  match s.emu.updates with
  | [] => s
  | u0 :: _ =>
    let u := s.latchUpdate u0
    let f := s.takeFreeWord
    let s1 := f.1
    let s2 := match f.2.toNat % 4 with
      | 0 => s1
      | 1 => s1.spoilCell u.cell (u.bytes u.cell)
      | 2 => s1.nvWrite (8 * u.cell) (u.bytes u.cell)
      | _ => (s1.nvWrite (8 * (2 * u.ctr + 1)) (u.bytes (2 * u.ctr + 1))).nvWrite (8 * (2 * u.ctr)) (u.bytes (2 * u.ctr))
    s2.modE fun x => { x with updates := [] }

/-- A sync cut (R375, R382): the earlier image stays in force, unless the header was written, which is free where the device was reset. -/
def State.collapseSync (s : State) (isReset : Bool) : State :=
  match s.emu.sync with
  | none => s
  | some r =>
    let f := s.takeFreeBit
    let s1 := if isReset && f.2 then f.1.nvWrite (slotBase r.slot) r.bytes else f.1.spoilImage r
    s1.modE fun x => { x with sync := none, syncAgain := false }

/-- What the retention cell holds as the tag stops for want of supply or reset (R380): the remaining bench. -/
def State.retainBench (s : State) : State :=
  let c := match s.emu.benchEnd with
    | some e => if s.time < e then some (e - s.time) else none
    | none => s.emu.cell
  s.modE fun x => { x with cell := c, benchEnd := none }

/-- The island and the tag as power or a reset takes them down. -/
def State.emuDown (s : State) (isReset : Bool) : State :=
  ((s.collapseUpdate).collapseSync isReset).retainBench.modE fun x =>
    { EmuSt.reset with nv := x.nv, cell := x.cell, dark := x.dark || !isReset }

/-- Whether the retention cell still holds its content after `away` without supply (R266, R268, R380): up to 2 s it does, after 3 s it does
not, between them is free. -/
def State.cellHolds (s : State) (away : Nat) : State × Bool :=
  if away ≤ 2000 * msec then (s, true) else if 3000 * msec ≤ away then (s, false) else s.takeFreeBit

/-- The bench that the cell retains, as the tag is started again after `away` without supply (R380): the remaining time is less by the
cell's estimate of that, which is free from nine tenths of it to all of it. A cell that was supplied throughout measures none. -/
def State.takeCell (s : State) (away : Nat) : State :=
  match s.emu.cell with
  | some r =>
    let a := if s.emu.dark then away else 0
    let h := s.cellHolds a
    let f := h.1.takeFreeWord
    let est := a - f.2.toNat % (a / 10 + 1)
    f.1.modE fun x =>
      if h.2 then { x with benchEnd := some (s.time + (r - min r est)), dark := false } else { x with cell := none, dark := false }
  | none => s.modE fun x => { x with dark := false }

/-- `HARVEST_POWER_UP` (R373, R379): the island recovers its counters and starts the tag. -/
def execHarvestPowerUp (away : Nat) (s : State) : Out :=
  done s (if s.pins.aon || s.emu.harvest then s
    else match s.imageInForce with
      | some k =>
        if (leAt (s.nvRead (slotBase k) 16) 15 1).testBit 1 then
          let t := ((State.each (State.recoverCtr false) 8 s).takeCell away).emuStart
          t.modE fun x => { x with harvest := true, field := true, absentSince := none }
        else s
      | none => s)

/-- `HARVEST_POWER_LOSS` (R376, R380): the field falls below 1.5 A/m. -/
def execHarvestPowerLoss (s : State) : Out := done s (if s.emu.harvest then s.emuDown false else s)

end Sys2Proof.Machine
end

