-- ==== Sys2Proof/Machine/Reset.lean ====
section
/-! DEFINITION. Resets (R557-R562, R519): the sources, what survives each of them, and what becomes of writes that a reset or a loss of
supply cuts short. -/

namespace Sys2Proof.Machine

/-! ### Writes cut short -/

/-- `n` free bytes, four of each free word. -/
def State.takeFreeBytes : Nat → State → State × List Byte
  | 0, s => (s, [])
  | n + 1, s =>
    let f := s.takeFreeWord
    let r := State.takeFreeBytes n f.1
    (r.1, wordBytes f.2 ++ r.2)

/-- Bytes written into the boot memory. -/
def State.bootWrite (s : State) (a : Nat) (b : List Byte) : State := { s with cfg := { s.cfg with boot := Sparse.write s.cfg.boot 0xFF a b } }

/-- A page or sector of the boot memory left with bytes that the spec does not state. -/
def State.bootSpoil (s : State) (op : BootOp) (a : Nat) : State :=
  match op with
  | .read => s
  | .program => let f := State.takeFreeBytes 64 s; f.1.bootWrite a f.2
  | .erase => let f := State.takeFreeBytes 1024 s; f.1.bootWrite a f.2

/-- A boot access command cut (R520): what it was writing is free. -/
def State.cutBoot (s : State) : State :=
  match s.cfg.bootOp with
  | some (op, a) => s.bootSpoil op a
  | none => s

/-- The NV write of the counter cut (R524): of an authenticated command, or after a key rotation (R526). The counter is the old or the new
one, which is free. -/
def State.cutAuth (s : State) : State :=
  let f := s.takeFreeBit
  match s.cfg.auth with
  | some a => if !a.stored && f.2 then { f.1 with cfg := { f.1.cfg with counter := a.counter } } else f.1
  | none => match s.cfg.zeroing with
    | some old => if f.2 then { f.1 with cfg := { f.1.cfg with counter := old } } else f.1
    | none => s

/-- The NV write of a roster bank cut (R307): it is wholly in NV or not at all; which is free. -/
def State.cutCommit (s : State) : State :=
  let f := s.takeFreeBit
  match s.kpr.commit with
  | some (b, v) => if f.2 then { f.1 with kpr := { f.1.kpr with nvBanks := f.1.kpr.nvBanks.set b v, nvActive := b } } else f.1
  | none => s

/-- The NV write of a lowering cut (R427): it is wholly in NV or not at all; which is free. -/
def State.cutLower (s : State) : State :=
  let f := s.takeFreeBit
  match s.cox.lower with
  | some p => if f.2 then f.1.setCox { f.1.cox with sealed := some (f.1.applyLower p).regWords } else f.1
  | none => s

/-- NV writes in progress cut: of the counter (R524), of a roster bank (R307), of a lowering (R427). -/
def State.cutNv (s : State) : State := s.cutAuth.cutCommit.cutLower

/-! ### Restarting (R560, R562) -/

/-- RESET_CAUSE after a reset by the source of bit `b` (R562). A source that acts while another holds the device in reset acts together with
it (DEDUCED, log 34): the bits of both are set, and it is one reset. -/
def State.nextCause (s : State) (b : Nat) : Word :=
  let resets := s.fld Reg.PWR_RESET_CAUSE Fld.PWR_RESET_CAUSE_RESETS
  if b = 0 then packF [(Fld.PWR_RESET_CAUSE_CAUSE, 1), (Fld.PWR_RESET_CAUSE_RESETS, 1)]
  else if s.pwr.awake = .reset then
    packF [(Fld.PWR_RESET_CAUSE_CAUSE, s.fld Reg.PWR_RESET_CAUSE Fld.PWR_RESET_CAUSE_CAUSE ||| 2 ^ b), (Fld.PWR_RESET_CAUSE_RESETS, resets)]
  else packF [(Fld.PWR_RESET_CAUSE_CAUSE, 2 ^ b), (Fld.PWR_RESET_CAUSE_RESETS, satAdd 65535 resets 1)]

/-- What a reset leaves (R560): all at its reset values but for non-volatile memory, the boot memory, what `VDD_AON` keeps (R558, R416,
R449), the levels on the pins, and the queue of commands. `keeps` says that `VDD_AON` stayed present, `b` the source. -/
def State.afterReset (s : State) (keeps : Bool) (b : Nat) : State :=
  let r := State.reset
  let c : CfgSt := { CfgSt.reset with boot := s.cfg.boot, keys := s.cfg.keys, counter := s.cfg.counter, uidLo := s.cfg.uidLo,
                                      uidHi := s.cfg.uidHi, rolled := decide (b = 4) }
  let log : SilSt :=
    if keeps then { SilSt.reset with vault := s.obs.sil.vault, prior := s.obs.sil.vault.map fun (_ : Rec) => true } else SilSt.reset
  let t : State :=
    { r with cfg := c
             kpr := { KprSt.reset with nvBanks := s.kpr.nvBanks, nvActive := s.kpr.nvActive }
             sto := { StoSt.reset with reserve := s.sto.reserve }
             emu := s.emu
             cox := { CoxSt.reset with sealed := s.cox.sealed }
             pins := s.pins
             free := s.free
             obs := { Obs.reset with sil := log }
             pending := s.pending }
  let t1 := t.setReg Reg.PWR_RESET_CAUSE (s.nextCause b)
  if keeps then t1.setReg Reg.SAF_PREV (s.reg Reg.SAF_FIRST) else t1

/-- A reset of the running device by the source of bit `b` (R560): it is held in reset until released (R503). -/
def State.restart (s : State) (b : Nat) : State := ((s.cutBoot.cutNv).emuDown true).afterReset true b

/-- `POWER_ON_RESET` (R560, R562): `VDD_AON` has risen. An island that serves goes on until reset is released (R376). -/
def execPowerOnReset (s : State) : Out :=
  let s1 := s.cutBoot.cutNv
  let s2 := if s.emu.harvest then s1 else (s1.emuDown true).modE fun x => { x with dark := true }
  let t := s2.afterReset false 0
  done s { t with pins := { t.pins with aon := true } }

/-- `PIN_RESET` (R560): a pulse on `RST_N` of `ns` nanoseconds. From 200 ns to 1 µs the spec leaves open whether it resets: a free choice. -/
def execPinReset (ns : Nat) (s : State) : Out :=
  done s (if !s.pins.aon || decide (ns < 200) then s
    else if 1000 ≤ ns then s.restart 1
    else let f := s.takeFreeBit; if f.2 then f.1.restart 1 else f.1)

/-- `CORE_BROWN_OUT` (R560): `VDD_CORE` low for `ns` nanoseconds. -/
def execCoreBrownOut (ns : Nat) (s : State) : Out :=
  done s (if s.pins.aon && decide (2000 ≤ ns) then s.restart 2 else s)

/-- A write of `PWR.RESET_CMD` (R561): any value but KEY alone is refused and counted. -/
def State.writeResetCmd (s : State) (v : Word) : State := if v = 0x1680 then s.restart 3 else s.refuse 0x01

/-- `RESET_CMD` (R561). -/
def execResetCmd (value : Word) (s : State) : Out := s.coreAll fun s => s.writeResetCmd value

/-- The device without its supplies (R376, R557): all is lost but non-volatile memory and what the retention cell holds; the tag is off until the
island has power. -/
def State.aonLost (s : State) : State :=
  let t := ((s.cutBoot.cutNv).emuDown false).afterReset false 0
  { t with pins := { t.pins with aon := false } }

/-- `VDD_AON_LOSS` (R376, R557). -/
def execVddAonLoss (s : State) : Out := done s s.aonLost

end Sys2Proof.Machine
end

