-- ==== Sys2Proof/Machine/Boot.lean ====
section
/-! DEFINITION. The boot memory (R507) and the host's access to it (R520), with the queue of CFG's own registers. -/

namespace Sys2Proof.Machine

/-- `n` bytes of the boot memory (R507). -/
def State.bootBytes (s : State) (a n : Nat) : List Byte := Sparse.read s.cfg.boot 0xFF a n

/-- Where slot `k` begins (R507): 0 slot A, 1 slot B. -/
def slotStart (k : Nat) : Nat := if k = 0 then 0x10000 else 0x410000

/-- The bytes a slot takes up (R507). -/
abbrev slotSize : Nat := 0x400000

/-- The slot in force (R527). -/
def State.slotNow (s : State) : Nat := s.fld Reg.CFG_BOOT_STATUS Fld.CFG_BOOT_STATUS_SLOT

/-- Whether an address lies in a slot. -/
def inSlot (k a : Nat) : Bool := decide (slotStart k ≤ a) && decide (a < slotStart k + slotSize)

/-- Whether an address is aligned as a command needs it (R520). -/
def bootAligned (op : BootOp) (a : Nat) : Bool :=
  match op with
  | .read => decide (a % 4 = 0)
  | .program => decide (a % 256 = 0)
  | .erase => decide (a % 4096 = 0)

/-- Whether R520 refuses a boot access command. -/
def State.bootBad (s : State) (op : BootOp) (a : Nat) : Bool :=
  s.cfg.bootOp.isSome || s.cfg.rollback || !bootAligned op a
    || (decide (op ≠ .read) && (!(inSlot 0 a || inSlot 1 a) || (!s.gen.safeBoot && inSlot s.slotNow a)))

/-- `CFG.BOOT_BUF` as bytes. -/
def State.bootBuf (s : State) : List Byte := unpackWords ((List.range 64).map fun i => s.reg (Reg.CFG_BOOT_BUF i))

/-- `CFG.BOOT_BUF` filled from a list of words. -/
def State.setBootBuf (s : State) (ws : List Word) : State := State.each (fun i t => t.setReg (Reg.CFG_BOOT_BUF i) ((ws[i]?).getD 0)) 64 s

/-- A boot access command ended with a result (R520, R527). -/
def State.bootEnd (s : State) (result : Nat) : State :=
  (s.setFld Reg.CFG_BOOT_BSTATUS Fld.CFG_BOOT_BSTATUS_RESULT result).stick Reg.CFG_BOOT_BSTATUS Fld.CFG_BOOT_BSTATUS_DONE

/-- What a boot access command places on the bus (R505, R507, R520): reads by 0x6B, page programs by 0x02 and sector erases by 0x20 after write
enable, the status polled, and a programmed page read back. -/
def bootWire (op : BootOp) (a : Nat) : List (List Byte) :=
  let at_ := fun (o : Byte) => [o, byte (a / 0x10000), byte (a / 0x100), byte a]
  match op with
  | .read => [at_ 0x6B]
  | .program => [[0x06], at_ 0x02, [0x05], at_ 0x6B]
  | .erase => [[0x06], at_ 0x20, [0x05]]

/-- A boot access command taken up, or refused with RESULT 1 (R520). -/
def State.bootStart (s : State) (op : BootOp) : State :=
  let a := (s.reg Reg.CFG_BOOT_ADDR).toNat
  if s.bootBad op a then s.bootEnd 1
  else
    let t := s.setFld Reg.CFG_BOOT_BSTATUS Fld.CFG_BOOT_BSTATUS_BUSY 1
    { t with cfg := { t.cfg with bootOp := some (op, a), bootData := s.bootBuf, wire := bootWire op a } }

/-- A write of `CFG.BOOT_CMD` (R520, R527). -/
def State.writeBootCmd (s : State) (v : Word) : State :=
  match Fld.CFG_BOOT_CMD_OP.get v with
  | 1 => s.bootStart .read
  | 2 => s.bootStart .program
  | 3 => s.bootStart .erase
  | _ => s

/-- `BOOT_READ` (R520). -/
def execBootRead (s : State) : Out := s.coreAll fun s => s.writeBootCmd 1

/-- `BOOT_PROGRAM` (R520). -/
def execBootProgram (s : State) : Out := s.coreAll fun s => s.writeBootCmd 2

/-- `BOOT_ERASE` (R520). -/
def execBootErase (s : State) : Out := s.coreAll fun s => s.writeBootCmd 3

/-- The 256 bytes that a READ copies; those past the end of the 24-bit address range are free. -/
def State.bootTake (s : State) (a : Nat) : State :=
  if a + 256 ≤ 0x1000000 then s.setBootBuf (packWords (s.bootBytes a 256))
  else
    let n := 0x1000000 - a
    let f := State.takeFreeBytes 64 s
    f.1.setBootBuf (packWords (s.bootBytes a n ++ f.2.take (256 - n)))

/-- A page programmed (R507, R520): bits of a NOR memory only fall. The result is 3 where the page then differs from the buffer. -/
def State.bootProgram (s : State) (a : Nat) (l : List Byte) : State × Nat :=
  let now := List.zipWith (fun x y => x &&& y) (s.bootBytes a 256) l
  (s.bootWrite a now, if now = l then 0 else 3)

/-- `BOOT_OP_DONE` (R520): the command in progress ends after `us` microseconds; `bad` says that the memory did not take what it was
given, which then holds bytes that the spec does not state, as it does after a timeout. -/
def execBootOpDone (us : Nat) (bad : Bool) (s : State) : Out := s.coreAll fun s =>
  match s.cfg.bootOp with
  | none => s
  | some (op, a) =>
    let l := s.cfg.bootData
    let t := ({ s with cfg := { s.cfg with bootOp := none, bootData := [] } }).setFld Reg.CFG_BOOT_BSTATUS Fld.CFG_BOOT_BSTATUS_BUSY 0
    match op with
    | .read => (t.bootTake a).bootEnd 0
    | .program =>
      if 5000 < us then (t.bootSpoil op a).bootEnd 2
      else if bad then (t.bootSpoil op a).bootEnd 3
      else (t.bootProgram a l).1.bootEnd (t.bootProgram a l).2
    | .erase =>
      if 400000 < us then (t.bootSpoil op a).bootEnd 2
      else if bad then (t.bootSpoil op a).bootEnd 0
      else (t.bootWrite a (List.replicate 4096 0xFF)).bootEnd 0

end Sys2Proof.Machine
end

