-- ==== Sys2Proof/Machine/Image.lean ====
section
/-! DEFINITION. Configuration images (R508-R513), slot state and retirement (R514, R515, R518), the configuration key in force (R525). -/

namespace Sys2Proof.Machine

/-! ### The key in force (R525) -/

/-- The copy of the key in force: of the valid ones that with the higher generation, the primary on a tie. -/
def State.keyNow (s : State) : Option KeyCopy :=
  (s.cfg.keys.filter fun k => k.valid).foldl (fun best k => match best with
    | none => some k
    | some b => if b.gen < k.gen then some k else some b) none

/-- The tag of a message under the key in force (R509); none without a valid key. -/
def State.tagNow (s : State) (msg : List Byte) : Option (List Byte) := s.keyNow.map fun k => authTag k.key msg

/-! ### The header (R508) -/

/-- The header of slot `k`. -/
def State.header (s : State) (k : Nat) : List Byte := s.bootBytes (slotStart k) 64

/-- Fields of a header. -/
def hdrVer (h : List Byte) : Nat := leAt h 8 4
def hdrLength (h : List Byte) : Nat := leAt h 12 4
def hdrRecords (h : List Byte) : Nat := leAt h 16 4
def hdrKeyGen (h : List Byte) : Nat := leAt h 24 2

/-- Whether a header bears the MAGIC. -/
def hdrMagic (h : List Byte) : Bool := decide (h.take 4 = [0x4B, 0x59, 0x43, 0x46])

/-- Whether a header meets R508. -/
def hdrOk (h : List Byte) : Bool :=
  hdrMagic h && decide (leAt h 4 2 = 1) && decide (leAt h 6 2 = 0) && decide (hdrLength h % 4 = 0) && decide (64 ≤ hdrLength h)
    && decide (hdrLength h ≤ slotSize) && decide (leAt h 20 2 = 0x1680) && decide (leAt h 22 1 = 0xB1) && decide (leAt h 23 1 = 0)
    && decide (leAt h 26 26 = 0) && decide (leAt h 52 4 = crc32c (h.take 52))

/-! ### Slot state (R514, R515) -/

/-- The 16 bytes of entry `i` of slot-state copy `c`. -/
def State.slotEntry (s : State) (c i : Nat) : List Byte := s.bootBytes (c * 0x1000 + 16 * i) 16

/-- The CHECK of an entry (R514). -/
def entryCheck (c i : Nat) (body : List Byte) : Nat := crc32cFold (c * 256 + i) body

/-- Whether an entry's CHECK holds. -/
def entryOk (c i : Nat) (e : List Byte) : Bool := decide (leAt e 12 4 = entryCheck c i (e.take 12))

/-- Whether a copy's header holds (R514). -/
def State.copyOk (s : State) (c : Nat) : Bool :=
  let e := s.slotEntry c 0
  entryOk c 0 e && decide (e.take 4 = [0x4B, 0x59, 0x53, 0x53]) && decide (leAt e 8 4 = 0)

/-- The compaction generation of a copy, 0 where its header fails. -/
def State.copyGen (s : State) (c : Nat) : Nat := if s.copyOk c then leAt (s.slotEntry c 0) 4 4 else 0

/-- Whether entry `i` of copy `c` is a valid retire entry. -/
def retireOk (c i : Nat) (e : List Byte) : Bool :=
  entryOk c i e && decide (leAt e 0 1 = 1) && decide (leAt e 1 1 ≤ 1) && decide (leAt e 2 2 = 0)

/-- The bodies (SLOT, IMAGE_VER, counter) of the valid retire entries of a copy; none where its header fails. -/
def State.retires (s : State) (c : Nat) : List (List Byte) :=
  if s.copyOk c then
    (List.range 255).filterMap fun i =>
      let e := s.slotEntry c (i + 1)
      if retireOk c (i + 1) e then some (e.take 12) else none
  else []

/-- Whether a retire body names a slot with the IMAGE_VER that its header carries now (R515). -/
def State.stillRetires (s : State) (e : List Byte) : Bool := decide (leAt e 4 4 = hdrVer (s.header (leAt e 1 1)))

/-- Whether slot `k` is retired (R515). -/
def State.isRetired (s : State) (k : Nat) : Bool :=
  (s.retires 0 ++ s.retires 1).any fun e => decide (leAt e 1 1 = k) && s.stillRetires e

/-! ### Records (R510, R511) -/

/-- A record: its type and its value. -/
structure ImgRec where
  type : Nat
  value : List Byte
  deriving DecidableEq, Repr

/-- `n` records numbered from `i` that exactly fill a byte list, each with its CHECK (R510); none where they do not. -/
def parseRecs : Nat → Nat → List Byte → Option (List ImgRec)
  | 0, _, [] => some []
  | 0, _, _ :: _ => none
  | n + 1, i, b =>
    let l := leAt b 2 2
    let body := 4 + (l + 3) / 4 * 4
    if b.length < body + 4 ∨ 65520 < l then none
    else if leAt b body 4 ≠ crc32cFold i (b.take body) ∨ ((b.take body).drop (4 + l)).any (fun x => decide (x ≠ 0)) then none
    else match parseRecs n (i + 1) (b.drop (body + 4)) with
      | some t => some ({ type := leAt b 0 2, value := (b.drop 4).take l } :: t)
      | none => none

/-- The pairs of address or offset and value in a byte list. -/
def pairsOf : List Byte → List (Nat × Word)
  | a :: b :: c :: d :: e :: f :: g :: h :: t => (leNat [a, b, c, d], ofBytes [e, f, g, h]) :: pairsOf t
  | _ => []

/-- The pages of a PROFILE record's SCOPE (R511): none block-wide. -/
def scopePages (scope : Nat) : List (Option Nat) :=
  if scope = 0xFF then [none] else if scope = 0xFE then (List.range 16).map some else [some scope]

/-- Whether the port pages of block `b` carry a PROFILE and EXPERT pair (R43). -/
def pagedBlock (b : Nat) : Bool := decide (b = 0x02 ∨ b = 0x11 ∨ b = 0x03 ∨ b = 0x04 ∨ b = 0x05)

/-- The host address that an OFFSET of a profile names (R511). -/
def profAddr (b : Nat) (page : Option Nat) (ofs : Nat) : Nat :=
  match page with
  | none => b * 0x10000 + ofs
  | some n => b * 0x10000 + 0x1000 + n * 0x400 + ofs

/-- Whether an offset names a register that the profile of this place governs (R513). -/
def isGoverned (b : Nat) (page : Option Nat) (ofs : Nat) : Bool :=
  let a := profAddr b page ofs
  decide (ofs < if page.isSome then 0x400 else 0x10000) && decide (pageOf a = page)
    && (match findRow a with
      | some r => r.gov
      | none => false)

/-- Whether a PROFILE record meets R511 and R513 by itself; an offset under SCOPE 0xFE must name a governed register of some page. -/
def profileOk (v : List Byte) : Bool :=
  let b := leAt v 0 1
  let scope := leAt v 1 1
  let pages := scopePages scope
  decide (4 ≤ v.length) && decide (v.length % 8 = 4) && decide (leAt v 2 1 ≤ 15) && decide (leAt v 3 1 = 0)
    && decide (b < 0x13) && decide (b ≠ 0 ∧ b ≠ 0x10 ∧ b ≠ 0x0D ∧ b ≠ 0x0E)
    && (decide (scope = 0xFF) || (pagedBlock b && decide (scope = 0xFE ∨ scope < 16)))
    && (pairsOf (v.drop 4)).all fun p => pages.any fun g => isGoverned b g p.1

/-- Whether a REGULATORY value meets R511. -/
def regulatoryOk (v : List Byte) : Bool :=
  let duty := leAt v 0 2
  let gt := leAt v 2 1
  let tmin := signed 16 (leAt v 4 2)
  let tmax := signed 16 (leAt v 6 2)
  decide (v.length = 40) && decide (1 ≤ duty) && decide (duty ≤ 256) && decide (10 ≤ gt) && decide (gt ≤ 200) && decide (leAt v 3 1 ≤ 1)
    && decide (-7000 ≤ tmin) && decide (tmax ≤ 7000) && decide (tmin ≤ tmax) && allBelow (fun n => decide (leAt v (8 + 2 * n) 2 ≤ 1023)) 16

/-- The block numbers of a BAD_BLOCKS value. -/
def badBlocks (v : List Byte) : List Nat := (packWords v).map fun w => w.toNat

/-- Whether a list rises. -/
def rising : List Nat → Bool
  | a :: b :: t => decide (a < b) && rising (b :: t)
  | _ => true

/-- Whether a record meets R511 by itself. -/
def ImgRec.ok (r : ImgRec) : Bool :=
  match r.type with
  | 1 => decide (r.value ≠ []) && decide (r.value.length % 8 = 0) && (pairsOf r.value).all fun p => decide (p.1 < 0x1000000)
  | 2 => profileOk r.value
  | 3 => regulatoryOk r.value
  | 4 => decide (r.value.length % 4 = 0) && rising (badBlocks r.value)
  | t => decide (0x8000 ≤ t)

/-- The profiles that a record stores: one for each page of its SCOPE, with the pairs that the page has. -/
def ImgRec.profiles (r : ImgRec) : List Profile :=
  if r.type = 2 then
    let b := leAt r.value 0 1
    (scopePages (leAt r.value 1 1)).map fun g =>
      { block := b, page := g, index := leAt r.value 2 1, pairs := (pairsOf (r.value.drop 4)).filter fun p => isGoverned b g p.1 }
  else []

/-- The places of a list of profiles, each once. -/
def profilePlaces : List Profile → List (Nat × Option Nat)
  | [] => []
  | p :: t => let l := profilePlaces t; if l.contains (p.block, p.page) then l else (p.block, p.page) :: l

/-- Whether the indexes stored for every place run from 0 without gap or repeat, at most 16 (R513). -/
def indexesOk (l : List Profile) : Bool :=
  (profilePlaces l).all fun pl =>
    let ix := (l.filter fun p => p.block = pl.1 ∧ p.page = pl.2).map fun p => p.index
    decide (ix.length ≤ 16) && allBelow (fun i => ix.contains i) ix.length

/-- Whether the records of an image meet R511 and R513 together. -/
def recsOk (l : List ImgRec) : Bool :=
  l.all ImgRec.ok && indexesOk (l.flatMap ImgRec.profiles)
    && decide (((l.filter fun r => r.type = 2).map fun r => (r.value.length - 4) / 8).sum ≤ 8192)
    && decide ((l.filter fun r => r.type = 4).length ≤ 1)

/-! ### Whether a slot may be used (R513, R516) -/

/-- The REASON of slot `k` from its header and the slot state (R516, R527): 8 where it is a candidate. -/
def State.slotReason (s : State) (k : Nat) : Nat :=
  let h := s.header k
  if !hdrMagic h then 2
  else if !hdrOk h then 3
  else if hdrKeyGen h ≠ s.fld Reg.CFG_KEY_STATUS Fld.CFG_KEY_STATUS_KEY_GEN then 4
  else if s.isRetired k then 7
  else 8

/-- The records of slot `k`, whose header has passed: none with the REASON 5 or 6 where it fails R513. -/
def State.slotRecords (s : State) (k : Nat) : Nat × Option (List ImgRec) :=
  let h := s.header k
  let body := s.bootBytes (slotStart k + 64) (hdrLength h - 64)
  if s.tagNow (h.take 56 ++ body) ≠ some (h.drop 56) then (5, none)
  else match parseRecs (hdrRecords h) 0 body with
    | some l => if recsOk l then (1, some l) else (6, none)
    | none => (6, none)

/-- The REASON of slot `k` after all of R513. -/
def State.slotCheck (s : State) (k : Nat) : Nat := if s.slotReason k = 8 then (s.slotRecords k).1 else s.slotReason k

/-! ### Writing retire entries (R518) -/

/-- An entry with its CHECK for a place. -/
def sealEntry (c i : Nat) (body : List Byte) : List Byte := body ++ leBytes 4 (entryCheck c i body)

/-- The lowest free entry of copy 0; none where its header fails. -/
def State.freeEntry (s : State) : Option Nat :=
  if s.copyOk 0 then firstFrom (fun i => decide (s.slotEntry 0 i = List.replicate 16 0xFF)) 1 255 else none

/-- A copy erased and written with a header and bodies (R518). -/
def State.writeCopy (s : State) (c gen : Nat) (bodies : List (List Byte)) : State :=
  let hdr := sealEntry c 0 ([0x4B, 0x59, 0x53, 0x53] ++ leBytes 4 gen ++ leBytes 4 0)
  let all := hdr ++ (bodies.zipIdx.map fun p => sealEntry c (p.2 + 1) p.1).flatten
  (s.bootWrite (c * 0x1000) (List.replicate 4096 0xFF)).bootWrite (c * 0x1000) all

/-- The retire entries that still retire a slot, each once. -/
def State.keptRetires (s : State) : List (List Byte) := ((s.retires 0 ++ s.retires 1).filter s.stillRetires).eraseDups

/-- A compaction that the loss of the supply cuts (R526): copy 1 or, after it, copy 0 holds a free number of the bytes it was to hold. -/
def State.compactCut (s : State) : State :=
  let gen := (max (s.copyGen 0) (s.copyGen 1) + 1) % 2 ^ 32
  let l := s.keptRetires
  let f := s.takeFreeWord
  let c := 1 - f.2.toNat % 2
  let t := if c = 1 then f.1 else f.1.writeCopy 1 gen l
  let whole := (t.writeCopy c gen l).bootBytes (c * 0x1000) 4096
  (t.bootWrite (c * 0x1000) (List.replicate 4096 0xFF)).bootWrite (c * 0x1000) (whole.take (f.2.toNat / 2 % 4097))

/-- The slot state compacted (R518): copy 1 first. -/
def State.compact (s : State) : State :=
  let gen := (max (s.copyGen 0) (s.copyGen 1) + 1) % 2 ^ 32
  let l := s.keptRetires
  (s.writeCopy 1 gen l).writeCopy 0 gen l

/-- Where the next retire entry goes: the state, compacted where no entry is free, and the entry (R518). -/
def State.retirePlace (s : State) : State × Nat :=
  let t := if s.freeEntry.isSome then s else s.compact
  (t, t.freeEntry.getD 1)

/-- The body of a retire entry for slot `k` with an image version and a counter (R514). -/
def retireBody (k ver counter : Nat) : List Byte := [1, byte k, 0, 0] ++ leBytes 4 ver ++ leBytes 4 counter

/-- A retire entry written to copy 0, the first of the two (R518). -/
def State.retireFirst (s : State) (k ver counter : Nat) : State :=
  s.retirePlace.1.bootWrite (16 * s.retirePlace.2) (sealEntry 0 s.retirePlace.2 (retireBody k ver counter))

/-- A retire entry written to both copies (R514, R518); with `good` false a copy does not verify, and what the entry holds in either copy
is free. -/
def State.retire (s : State) (k ver counter : Nat) (good : Bool) : State :=
  let i := s.retirePlace.2
  if good then (s.retireFirst k ver counter).bootWrite (0x1000 + 16 * i) (sealEntry 1 i (retireBody k ver counter))
  else
    let f := State.takeFreeBytes 4 s.retirePlace.1
    let g := State.takeFreeBytes 4 f.1
    (((g.1.bootWrite (16 * i) f.2).bootWrite (0x1000 + 16 * i) g.2).setFld Reg.CFG_KEY_STATUS Fld.CFG_KEY_STATUS_NV_FAIL 1).post 0xE008 .heart 0

end Sys2Proof.Machine
end

