-- ==== Sys2Proof/Machine/Auth.lean ====
section
/-! DEFINITION. Authenticated commands (R521-R525): the checks of R523, the counter's NV write, rollback (R519) and key rotation (R525). -/

namespace Sys2Proof.Machine

/-- The PLEN of an OPCODE (R522); none where it is unknown. -/
def authPlen (opcode : Nat) : Option Nat :=
  match opcode with
  | 1 => some 4 | 2 => some 20 | 3 => some 20 | 4 => some 4 | 5 => some 8 | 6 => some 8 | 7 => some 0
  | _ => none

/-- Whether the byte sequence of an AUTH transaction has the form of R521 and R522 (R541). -/
def authForm (l : List Byte) : Bool :=
  match authPlen (leAt l 0 1) with
  | some n => decide (leAt l 1 1 = n) && decide (leAt l 2 2 = 0) && decide (l.length = 16 + n)
  | none => false

/-- The message under the TAG of R521. -/
def State.authMessage (s : State) (l : List Byte) : List Byte :=
  [0x4B, 0x59, 0x41, 0x43] ++ leBytes 4 s.cfg.uidLo.toNat ++ leBytes 4 s.cfg.uidHi.toNat ++ l.take (l.length - 8)

/-- Whether the phase lets authenticated commands act (R523 check 2). -/
def State.authPhase (s : State) : Bool := decide (s.gen.phase = .run) || decide (s.gen.phase = .test) || decide (s.gen.phase = .recovery)

/-- A failure at checks 3 to 5 (R523). -/
def State.authFail (s : State) (result : Nat) : State :=
  (((s.authResult result).bump Reg.CFG_AUTH_FAILS Fld.CFG_AUTH_FAILS_COUNT).count 22).postSecCount 0xE006 0 .heart

/-- A byte sequence put to the checks of R523; where all of 1 to 5 pass, the counter's NV write begins (R524). -/
def State.authCheck (s0 : State) (l : List Byte) : State :=
  let s := s0.setFld Reg.CFG_AUTH_STATUS Fld.CFG_AUTH_STATUS_OPCODE (leAt l 0 1)
  if s.cfg.auth.isSome then s.authResult 2
  else if !s.authPhase then s.authResult 7
  else if !authForm l then s.authFail 3
  else if s.tagNow (s.authMessage l) ≠ some (l.drop (l.length - 8)) then s.authFail 4
  else if leAt l 4 4 ≤ s.cfg.counter then s.authFail 5
  else { s with cfg := { s.cfg with auth := some { opcode := leAt l 0 1, counter := leAt l 4 4,
                                                    payload := (l.drop 8).take (leAt l 1 1), stored := false }, zeroing := none } }

/-- The stored counter changed, and shown (R524). -/
def State.setCounter (s : State) (n : Nat) : State :=
  ({ s with cfg := { s.cfg with counter := n } }).setReg Reg.CFG_AUTH_COUNTER (word n)

/-- The counter of 0 after a key rotation written to NV (R525), or not: then the stored one is the old one or 0, which is free. -/
def State.zeroed (s : State) (ok : Bool) : State :=
  match s.cfg.zeroing with
  | some old =>
    let t := { s with cfg := { s.cfg with zeroing := none } }
    if ok then t
    else
      let f := t.takeFreeBit
      ((if f.2 then f.1.setCounter old else f.1).setFld Reg.CFG_KEY_STATUS Fld.CFG_KEY_STATUS_NV_FAIL 1).post 0xE008 .heart 0
  | none => s

/-- `AUTH_COUNTER_NV_DONE` (R523 check 6, R524): the counter's write ends; the command acts next, or fails. The counter stored after a
failed write is the old or the new one, a free choice. -/
def execAuthCounterNvDone (ok : Bool) (s : State) : Out := s.core fun s =>
  match s.cfg.auth with
  | some a =>
    if a.stored then s
    else if ok then
      let t := s.setCounter a.counter
      { t with cfg := { t.cfg with auth := some { a with stored := true } } }
    else
      let f := s.takeFreeBit
      let t := if f.2 then f.1.setCounter a.counter else f.1
      (t.authEnd.authResult 8).post 0xE008 .heart 0
  | none => s.zeroed ok

/-! ### Rollback (R519) -/

/-- `CFG_ROLLBACK` (R519): the check of the other slot starts, or the command is refused since boot access is busy. -/
def execCfgRollback (s : State) : Out := s.core fun s =>
  match s.authActs 1 with
  | none => s
  | some _ =>
    if s.cfg.rollback then s
    else if s.cfg.bootOp.isSome then s.authRefused
    else { s with cfg := { s.cfg with rollback := true } }

/-- The slot other than that in force. -/
def State.slotOther (s : State) : Nat := 1 - s.slotNow

/-- `ROLLBACK_CHECK_DONE` (R519): the other slot has been read and checked; the slot in force is retired and the device restarts, or the
command is refused. `fate` says how the retire entry is written. -/
def execRollbackCheckDone (fate : RetireEnd) (s : State) : Out := s.core fun s =>
  match s.authActs 1 with
  | none => s
  | some p =>
    if !s.cfg.rollback then s
    else
      let k := s.slotOther
      let t := { s with cfg := { s.cfg with rollback := false } }
      if s.slotCheck k ≠ 1 ∨ hdrVer (s.header k) ≠ leAt p 0 4 then t.authRefused
      else
        let c := match s.cfg.auth with
          | some a => a.counter
          | none => 0
        let u := t.authAccepted.authEnd
        let ver := (s.reg Reg.CFG_IMAGE_VER).toNat
        match fate with
        | .verified => (u.retire s.slotNow ver c true).restart 4
        | .unverified => (u.retire s.slotNow ver c false).restart 4
        | .lostAfterCopy0 => (u.retireFirst s.slotNow ver c).aonLost
        | .lostCompacting => (if u.freeEntry.isSome then u else u.compactCut).aonLost

/-! ### Key rotation (R525) -/

/-- The key registers brought up to date with the key in force (R527). -/
def State.showKey (s : State) : State :=
  match s.keyNow with
  | some k =>
    (s.setFld Reg.CFG_KEY_STATUS Fld.CFG_KEY_STATUS_KEY_GEN k.gen).setFld Reg.CFG_KEY_STATUS Fld.CFG_KEY_STATUS_BLANK
      (bnat (decide (k.key = List.replicate 16 0)))
  | none => s.setFld Reg.CFG_KEY_STATUS Fld.CFG_KEY_STATUS_NV_FAIL 1

/-- A copy of the key that has not verified. -/
def State.nvFail (s : State) : State := (s.setFld Reg.CFG_KEY_STATUS Fld.CFG_KEY_STATUS_NV_FAIL 1).post 0xE008 .heart 0

/-- The copies of the key replaced: the primary and the backup. -/
def State.setKeys (s : State) (primary backup : KeyCopy) : State := { s with cfg := { s.cfg with keys := [primary, backup] } }

/-- `CFG_KEY_ROTATE` (R525): the backup copy is written first, then the primary; each may fail to verify. The new key is in force from the
first copy that verifies. -/
def execCfgKeyRotate (backupOk : Bool) (primaryOk : Bool) (s : State) : Out := s.core fun s =>
  match s.authActs 2 with
  | none => s
  | some p =>
    let cur := s.keyNow.getD { key := [], gen := 0, valid := false }
    let new : KeyCopy := { key := aesDecrypt cur.key (p.take 16), gen := leAt p 16 2, valid := true }
    if new.gen ≠ cur.gen + 1 ∨ new.key = List.replicate 16 0 then s.authRefused
    else
      let t := s.authAccepted.authEnd
      let old := (s.cfg.keys[0]?).getD cur
      if !backupOk then (t.setKeys old { new with valid := false }).showKey.nvFail
      else
        let u := (t.setKeys { new with valid := primaryOk } new).showKey
        let v := { u with cfg := { u.cfg with zeroing := some u.cfg.counter } }
        ((if primaryOk then v else v.nvFail).setCounter 0).post 0xE007 .heart 0

end Sys2Proof.Machine
end

