-- ==== Sys2Proof/Machine/Check.lean ====
section
/-! DEFINITION. The check-value unit (R493-R497): START, data by writes, ranges of the SRAM window. -/

namespace Sys2Proof.Machine

/-- The bytes of a list processed by a channel's register (R493). -/
def CrcSt.run (x : CrcSt) (l : List Byte) : Nat := crcBytes x.width x.poly x.refIn x.reg l

/-- Channel `c` with its parameters latched and its register loaded (R493, R494). -/
def State.crcStart (s : State) (c : Nat) : State :=
  let cfg := Reg.CRC_CH_CFG c
  let w := s.fld cfg Fld.CRC_CH_CFG_WIDTH
  let x : CrcSt :=
    { width := w, poly := (s.reg (Reg.CRC_CH_POLY c)).toNat, xorOut := (s.reg (Reg.CRC_CH_XOROUT c)).toNat,
      refIn := s.flag cfg Fld.CRC_CH_CFG_REFIN, refOut := s.flag cfg Fld.CRC_CH_CFG_REFOUT,
      foldMode := s.fld cfg Fld.CRC_CH_CFG_FOLD_MODE, fold := s.reg (Reg.CRC_CH_FOLD c),
      reg := (s.reg (Reg.CRC_CH_INIT c)).toNat % 2 ^ w, bytes := 0, range := none, rangeEnd := 0 }
  s.setChan c (if x.foldMode = 1 then { x with reg := x.run (wordBytes x.fold) } else x)

/-- Data bytes processed by channel `c`, and counted (R502). -/
def State.crcData (s : State) (c : Nat) (l : List Byte) : State :=
  let x := s.chan c
  s.setChan c { x with reg := x.run l, bytes := satAdd 16777215 x.bytes l.length }

/-- Whether channel `c` runs a range (R495). -/
def State.crcBusy (s : State) (c : Nat) : Bool := (s.chan c).range.isSome

/-- Whether a range lies in the SRAM window (R495). -/
def rangeOk (a n : Nat) : Bool := inSram a && decide (a + n ≤ 0xA00000)

/-- A range taken up (R495): at most four bytes a cycle; `bad` says that a word of it fails its parity (R496). -/
def State.crcRange (s : State) (c : Nat) (bad : Bool) : State :=
  let a := (s.reg (Reg.CRC_CH_RANGE_ADDR c)).toNat
  let n := (s.reg (Reg.CRC_CH_RANGE_LEN c)).toNat
  if !rangeOk a n then s
  else if n = 0 then s
  else
    let t := s.setChan c { s.chan c with range := some (a, n), rangeEnd := s.time + (n + 3) / 4 * cycle }
    if bad then (t.stick (Reg.CRC_CH_STATUS c) Fld.CRC_CH_STATUS_POISON).post 0xD801 .heart 0 else t

/-- A write of `CRC.CHc_CMD` (R495, R502): refused and counted while BUSY; START first, then RANGE_GO. -/
def State.writeCrcCmd (s : State) (c : Nat) (v : Word) (bad : Bool) : State :=
  let starts := Fld.CRC_CH_CMD_START.get v = 1
  let goes := Fld.CRC_CH_CMD_RANGE_GO.get v = 1
  if s.crcBusy c then (if starts ∨ goes then s.refuse 0x0B else s)
  else
    let t := if starts then s.crcStart c else s
    if goes then t.crcRange c bad else t

/-- A write of data (R495): refused and counted while BUSY. -/
def State.writeCrcData (s : State) (c n : Nat) (v : Word) : State :=
  if s.crcBusy c then s.refuse 0x0B else s.crcData c ((wordBytes v).take n)

/-- `START` (R493). -/
def execStart (chan : Chan) (s : State) : Out := s.core fun s => s.writeCrcCmd chan 1 false

/-- `DATA8` (R495). -/
def execData8 (chan : Chan) (value : Word) (s : State) : Out := s.core fun s => s.writeCrcData chan 1 value

/-- `DATA16` (R495). -/
def execData16 (chan : Chan) (value : Word) (s : State) : Out := s.core fun s => s.writeCrcData chan 2 value

/-- `DATA32` (R495). -/
def execData32 (chan : Chan) (value : Word) (s : State) : Out := s.core fun s => s.writeCrcData chan 4 value

/-- `RANGE_GO` (R495, R496). -/
def execRangeGo (chan : Chan) (bad : Bool) (s : State) : Out := s.core fun s => s.writeCrcCmd chan 2 bad

/-- `CRC_RANGE_DONE` (R495): the range has been processed, and BUSY clears. -/
def execCrcRangeDone (chan : Chan) (s : State) : Out := s.core fun s =>
  match (s.chan chan).range with
  | some (a, n) =>
    let t := (s.advance (s.chan chan).rangeEnd).crcData chan (s.sramSeen a n)
    t.setChan chan { t.chan chan with range := none }
  | none => s

end Sys2Proof.Machine
end

