-- ==== Sys2Proof/Machine/Timer.lean ====
section
/-! DEFINITION. Timers and wall time (R461, R464-R479): ticks, compares, captures, cross-triggers, and the authenticated WALL_SET. -/

namespace Sys2Proof.Machine

/-! ### Running (R466) -/

/-- Timer `k` started where it stands still: its first tick comes PRESC + 1 cycles later. -/
def State.runTimer (s : State) (k : Nat) : State :=
  s.setTimer k { nextTick := some (s.time + (s.fld (Reg.TMR_T_CTRL k) Fld.TMR_T_CTRL_PRESC + 1) * cycle) }

/-- EN of timer `k` brought in force: the prescaler is reset while it is 0. -/
def State.syncTimer (s : State) (k : Nat) : State :=
  if s.flag (Reg.TMR_T_CTRL k) Fld.TMR_T_CTRL_EN then (if (s.timer k).nextTick.isSome then s else s.runTimer k)
  else s.setTimer k { nextTick := none }

/-- EN of timer `k` written by hardware. -/
def State.enTimer (s : State) (k : Nat) (on : Bool) : State := (s.setFld (Reg.TMR_T_CTRL k) Fld.TMR_T_CTRL_EN (bnat on)).syncTimer k

/-- A write of `TMR.GROUP` (R478, R477): a timer named to start and to stop stops. -/
def State.writeGroup (s : State) (v : Word) : State :=
  State.each (fun k t =>
    if (Fld.TMR_GROUP_STOP.get v).testBit k then t.enTimer k false
    else if (Fld.TMR_GROUP_START.get v).testBit k then t.enTimer k true else t) 8 s

/-- `TIMER_GROUP` (R478). -/
def execTimerGroup (value : Word) (s : State) : Out := s.core fun s => s.writeGroup value

/-! ### Writes of a timer's registers (R468, R472, R479) -/

/-- A write of `TMR.Tk_COUNT` (R468): refused above RELOAD. -/
def State.writeCount (s : State) (k : Nat) (v : Word) : State :=
  if s.reg (Reg.TMR_T_RELOAD k) < v then s else s.writeReg (Reg.TMR_T_COUNT k) v

/-- A write of `TMR.Tk_STATUS` (R479): CAPT_OVR stands with the capture. -/
def State.writeTimerStatus (s : State) (k : Nat) (v : Word) : State :=
  let t := s.writeReg (Reg.TMR_T_STATUS k) v
  if Fld.TMR_T_STATUS_CAPT_OVR.get v = 1 then
    { t with obs := { t.obs with capt := vmod t.obs.capt { value := 0, isNew := false, ovr := false } k fun x => { x with ovr := false } } }
  else t

/-- A write of `TMR.Tk_XTRIG` (R479): a target above timer 7 is refused for ACTION 1 and 2. -/
def State.writeXtrig (s : State) (k : Nat) (v : Word) : State :=
  let a := Reg.TMR_T_XTRIG k
  let t := s.writeReg a v
  let act := t.fld a Fld.TMR_T_XTRIG_ACTION
  if (act = 1 ∨ act = 2) ∧ 7 < t.fld a Fld.TMR_T_XTRIG_TARGET then
    t.setFld a Fld.TMR_T_XTRIG_TARGET (s.fld a Fld.TMR_T_XTRIG_TARGET)
  else t

/-! ### Cross-triggers (R474, R475) -/

/-- The action of the cross-trigger of timer `k` requested of its owning block (R474). -/
def State.crossAct (s : State) (k : Nat) : State :=
  let a := Reg.TMR_T_XTRIG k
  let target := s.fld a Fld.TMR_T_XTRIG_TARGET
  match s.fld a Fld.TMR_T_XTRIG_ACTION with
  | 1 => if target < 8 then (s.setFld (Reg.TMR_T_CTRL target) Fld.TMR_T_CTRL_EN 1).runTimer target else s
  | 2 => if target < 8 then s.enTimer target false else s
  | 3 => s.modF target fun x => { x with stepAsked := setBit x.stepAsked (s.fld a Fld.TMR_T_XTRIG_STEP) true }
  | 4 => s.askMeasure target
  | 5 => if s.saf.safe then s
    else { s with tun := { s.tun with crossed := true, todo := s.tun.todo ++ (List.range 16).filter fun n => s.inRound n && !s.tun.todo.contains n } }.roundSyn
  | 6 => s.writeHcmd (s.reg (Reg.TMR_T_XSTO k))
  | _ => s

/-- The source event of timer `k`'s cross-trigger (R475): requested, or suppressed in RUN and SAFE. -/
def State.crossTrigger (s : State) (k : Nat) : State :=
  let a := Reg.TMR_T_XTRIG k
  if s.flag a Fld.TMR_T_XTRIG_XEN && decide (s.fld a Fld.TMR_T_XTRIG_ACTION ≠ 0) then
    if s.gen.phase = .run ∨ s.gen.phase = .safe then
      (s.bump Reg.TMR_TRIG_STATUS Fld.TMR_TRIG_STATUS_SUPPRESSED).postSec 0xD003 0 .top 0
    else (s.bump Reg.TMR_TRIG_STATUS Fld.TMR_TRIG_STATUS_ISSUED).crossAct k
  else s

/-! ### Ticks (R467, R469, R473) -/

/-- A match or wrap of timer `k` (source 0 CMP0, 1 CMP1, 2 WRAP): its flag, and its event where enabled (R473). -/
def State.timerHit (s : State) (k src : Nat) : State :=
  let flagF := if src = 0 then Fld.TMR_T_STATUS_HIT0 else if src = 1 then Fld.TMR_T_STATUS_HIT1 else Fld.TMR_T_STATUS_WRAP
  let en := if src = 0 then Fld.TMR_T_CTRL_EVT_CMP0 else if src = 1 then Fld.TMR_T_CTRL_EVT_CMP1 else Fld.TMR_T_CTRL_EVT_WRAP
  let t := s.stick (Reg.TMR_T_STATUS k) flagF
  if t.flag (Reg.TMR_T_CTRL k) en then t.postLimited 0xD001 (4 * k + src) .top .timer (word (k + 8 * src)) (100 * usec) else t

/-- A match of a compare (R469): the hit, then the automatic addition. -/
def State.compareHit (s : State) (k src cmp int : Nat) : State :=
  let t := s.timerHit k src
  t.setReg cmp (word (((t.reg cmp).toNat + (t.reg int).toNat) % ((t.reg (Reg.TMR_T_RELOAD k)).toNat + 1)))

/-- A tick of timer `k` (R467, R469). -/
def State.tick (s : State) (k : Nat) : State :=
  let c := (s.reg (Reg.TMR_T_COUNT k)).toNat
  let wraps := decide ((s.reg (Reg.TMR_T_RELOAD k)).toNat ≤ c)
  let n := if wraps then 0 else c + 1
  let hit0 := decide ((s.reg (Reg.TMR_T_CMP0 k)).toNat = n)
  let hit1 := decide ((s.reg (Reg.TMR_T_CMP1 k)).toNat = n)
  let s1 := s.setReg (Reg.TMR_T_COUNT k) (word n)
  let s2 := if hit0 then s1.compareHit k 0 (Reg.TMR_T_CMP0 k) (Reg.TMR_T_INT0 k) else s1
  let s3 := if hit1 then s2.compareHit k 1 (Reg.TMR_T_CMP1 k) (Reg.TMR_T_INT1 k) else s2
  let s4 := if wraps then s3.timerHit k 2 else s3
  let src := s.fld (Reg.TMR_T_XTRIG k) Fld.TMR_T_XTRIG_SRC
  if (src = 0 ∧ hit0) ∨ (src = 1 ∧ hit1) ∨ (src = 2 ∧ wraps) then s4.crossTrigger k else s4

/-- The next tick of timer `k` (R466, R467) as it falls due; the one after it counts PRESC + 1 cycles from there. -/
def State.tickDue (s : State) (k : Nat) : State :=
  match (s.timer k).nextTick with
  | some e => ((s.advance e).setTimer k { nextTick := some (e + (s.fld (Reg.TMR_T_CTRL k) Fld.TMR_T_CTRL_PRESC + 1) * cycle) }).tick k
  | none => s

/-- `TIMER_TICK` (R466, R467): the next tick falls due. -/
def execTimerTick (timer : TimerId) (s : State) : Out := s.core fun s => s.tickDue timer

/-! ### Capture (R471, R472) -/

/-- The capture registers of timer `k` changed. -/
def State.modCapt (s : State) (k : Nat) (f : Capt → Capt) : State :=
  { s with obs := { s.obs with capt := vmod s.obs.capt { value := 0, isNew := false, ovr := false } k f } }

/-- Whether the capture input of timer `k` takes its source now (R471): a level source on the edges selected, an event source always. -/
def State.captures (s : State) (k : Nat) (rising : Bool) : Bool :=
  let e := s.fld (Reg.TMR_T_CTRL k) Fld.TMR_T_CTRL_CAPT_EDGE
  let src := s.fld (Reg.TMR_T_CTRL k) Fld.TMR_T_CTRL_CAPT_SRC
  if 32 ≤ src ∧ src < 52 then e.testBit (if rising then 0 else 1) else decide (e ≠ 0)

/-- `CAPTURE` (R471, R472): the source of timer `timer` is seen, for a level source with its edge. -/
def execCapture (timer : TimerId) (rising : Bool) (s : State) : Out := s.core fun s =>
  if s.captures timer rising then
    let unread := (s.captOf timer).isNew
    let t := s.modCapt timer fun x => { value := s.reg (Reg.TMR_T_COUNT timer), isNew := true, ovr := x.ovr || unread }
    if unread then (t.noteSet (Reg.TMR_T_STATUS timer) Fld.TMR_T_STATUS_CAPT_OVR.mask).post 0xD002 .top 0 else t
  else s

/-- A host read of `TMR.Tk_CAPT` (R472): the state after it; the value is that of the state before. -/
def State.readCapt (s : State) (k : Nat) : State := s.modCapt k fun x => { x with isNew := false }

/-- `CAPT_READ` (R472). -/
def execCaptRead (timer : TimerId) (s : State) : Out := s.core fun s => (s.readCapt timer).setOut [(s.captOf timer).value]

/-! ### Wall time and the slow clock (R461, R464, R465) -/

/-- The first wall time that WALL_SET refuses (R464). -/
abbrev wallLimit : Nat := 2 ^ 32 * 60000000

/-- Wall time set (R465): the offset, KNOWN, SETS, the invalidation pass, and `WALL_STEP` with the old and the new wall time. -/
def State.setWall (s : State) (v : Nat) : State :=
  let ofs := (v + 2 ^ 64 - s.dt % 2 ^ 64) % 2 ^ 64
  let t := (s.setReg Reg.TMR_WT_OFS_LO (word ofs)).setReg Reg.TMR_WT_OFS_HI (word (ofs / 2 ^ 32))
  let t1 := (t.setFld Reg.TMR_WALL_STATUS Fld.TMR_WALL_STATUS_KNOWN 1).setFld Reg.KPR_STATUS Fld.KPR_STATUS_WALL_KNOWN 1
  (t1.bump Reg.TMR_WALL_STATUS Fld.TMR_WALL_STATUS_SETS).invalidate.postEvent
    { code := 0xC003, note := .heart, arg := 0, own := [word s.wt, word (s.wt / 2 ^ 32), word v, word (v / 2 ^ 32)] }

/-- `WALL_SET` (R464, R465). -/
def execWallSet (s : State) : Out := s.core fun s =>
  match s.authActs 5 with
  | none => s
  | some p =>
    let v := leAt p 0 8
    if wallLimit ≤ v then s.authRefused.post 0xD004 .heart 0 else s.authAccepted.authEnd.setWall v

/-- `SLOW_RATE_MEASUREMENT` (R461): `cycles` CLK_CORE cycles were counted over 1,024 SLOW cycles. -/
def execSlowRateMeasurement (cycles : Nat) (s : State) : Out := s.core fun s =>
  let rate := (cycles + 200) / 400
  if s.flag Reg.TMR_SLOW_RATE Fld.TMR_SLOW_RATE_RATE_AUTO then
    (if rate < 15000 ∨ 16250 < rate then s.post 0xD005 .heart 0 else s.setFld Reg.TMR_SLOW_RATE Fld.TMR_SLOW_RATE_RATE rate)
  else s

end Sys2Proof.Machine
end

