-- ==== Sys2Proof/Machine/Trace.lean ====
section
/-! DEFINITION. The trace port's enables and timers and the counters' commands (R544-R550, R555), and the reads that latch (R248, R550). -/

namespace Sys2Proof.Machine

/-- A SYNC packet (R545). -/
def State.traceSync (s : State) : State := s.trace 1 ([0x4B, 0x59, 0x54, 0x52] ++ leBytes 8 s.dt)

/-- SYNC_MS and LEVEL as times. -/
def State.syncPeriod (s : State) : Nat := s.fld Reg.TRC_TRACE_CTRL Fld.TRC_TRACE_CTRL_SYNC_MS * msec

/-- LEVEL as a time (R545). -/
def State.levelPeriod (s : State) : Nat := s.fld Reg.TRC_TRACE_CTRL Fld.TRC_TRACE_CTRL_LEVEL * 10 * usec

/-- A write of `TRC.TRACE_CTRL` (R544, R546): EN becoming 1 sends SYNC and starts the periods, EN becoming 0 lets the
packet being sent complete (R552), and what else the buffer holds is not sent (DESIGN CHOICE, log 68). -/
def State.writeTraceCtrl (s : State) (v : Word) : State :=
  let old := s.flag Reg.TRC_TRACE_CTRL Fld.TRC_TRACE_CTRL_EN
  let t := s.writeReg Reg.TRC_TRACE_CTRL v
  let on := t.flag Reg.TRC_TRACE_CTRL Fld.TRC_TRACE_CTRL_EN
  let lev := on && t.flag Reg.TRC_TRACE_CTRL Fld.TRC_TRACE_CTRL_LEVEL_EN
  let x := t.obs.trc
  let t1 := t.setTrc { x with levelAt := if lev then some (x.levelAt.getD (t.time + t.levelPeriod)) else none,
                              syncAt := if on then some (x.syncAt.getD (t.time + t.syncPeriod)) else none,
                              buf := if on then x.buf else x.buf.take (x.sizes.headD 0),
                              sizes := if on then x.sizes else x.sizes.take 1 }
  if on && !old then t1.traceSync else t1

/-- `TRACE_CTRL_WRITE` (R546). -/
def execTraceCtrlWrite (value : Word) (s : State) : Out := s.coreAll fun s => s.writeTraceCtrl value

/-- `TRACE_SYNC_TIMER` (R546). -/
def execTraceSyncTimer (s : State) : Out := s.coreAll fun s =>
  match s.obs.trc.syncAt with
  | some e =>
    let t := s.advance e
    (t.setTrc { t.obs.trc with syncAt := some (e + t.syncPeriod) }).traceSync
  | none => s

/-- The levels that LEVEL packets name, QUEUE 0 to 32 (R545). -/
def State.queueLevel (s : State) (q : Nat) : Nat :=
  if q < 16 then (s.pq q).tx.length else if q < 32 then (s.pq (q - 16)).rx.length else s.obs.evq.entries.length

/-- `TRACE_LEVEL_TIMER` (R545): a LEVEL packet for each queue. -/
def execTraceLevelTimer (s : State) : Out := s.coreAll fun s =>
  match s.obs.trc.levelAt with
  | some e =>
    let t := s.advance e
    let u := t.setTrc { t.obs.trc with levelAt := some (e + t.levelPeriod) }
    (List.range 33).foldl (fun x q => x.trace 5 (leBytes 2 (x.dt % 65536) ++ [byte q, 0] ++ leBytes 2 (x.queueLevel q))) u
  | none => s

/-- A write of `TRC.CNT_CMD` (R550, R555): the copy first, then its release, then CLEAR. -/
def State.writeCntCmd (s : State) (v : Word) : State :=
  let x := s.obs.trc
  let x1 := if Fld.TRC_CNT_CMD_SNAP.get v = 1 then { x with snap := some x.counters } else x
  let x2 := if Fld.TRC_CNT_CMD_RELEASE.get v = 1 then { x1 with snap := none } else x1
  s.setTrc (if Fld.TRC_CNT_CMD_CLEAR.get v = 1 then { x2 with counters := [] } else x2)

/-- `SNAP` (R550). -/
def execSnap (s : State) : Out := s.coreAll fun s => s.writeCntCmd 1

/-- `RELEASE` (R550). -/
def execRelease (s : State) : Out := s.coreAll fun s => s.writeCntCmd 2

/-- `CLEAR` (R550). -/
def execClear (s : State) : Out := s.coreAll fun s => s.writeCntCmd 4

/-- A host read of `TRC.CNTi_LO` (R550): bits [47:32] latched. -/
def State.readCntLo (s : State) (i : Nat) : State :=
  s.setTrc { s.obs.trc with latched := Sparse.insert s.obs.trc.latched i (s.counterRead i / 2 ^ 32) }

/-- A host read of `TRC.CNTi_HI` (R550): what was latched is given once. -/
def State.readCntHi (s : State) (i : Nat) : State := s.setTrc { s.obs.trc with latched := Sparse.erase s.obs.trc.latched i }

/-- `CNT_LO_READ` (R550). -/
def execCntLoRead (index : Fin 128) (s : State) : Out := s.coreAll fun s => (s.readCntLo index).setOut [word (s.counterRead index)]

/-- A host read of CTX4 or CTX6 of session `k` (R248): the word above it latched for the next read of CTX5 or CTX7. -/
def State.readCtxLow (s : State) (k : Nat) (isLast : Bool) : State :=
  let w := if isLast then 7 else 5
  let v := ((s.session k).map fun x => x.ctx w).getD 0
  { s with hif := { s.hif with ctxHeld := Sparse.insert s.hif.ctxHeld (Reg.PRO_CTX k w) v } }

/-- A host read of CTX5 or CTX7 (R248): what was latched is given once. -/
def State.readCtxHigh (s : State) (a : Nat) : State := { s with hif := { s.hif with ctxHeld := Sparse.erase s.hif.ctxHeld a } }

/-- `CTX_LOW_READ` (R248). -/
def execCtxLowRead (sess : SessId) (last : Bool) (s : State) : Out := s.coreAll fun s =>
  (s.readCtxLow sess last).setOut [s.peek (0x48000 + sess * 0x20 + 4 * if last then 6 else 4)]

end Sys2Proof.Machine
end

