-- ==== Sys2Proof/Machine/Writes.lean ====
section
/-! DEFINITION. Host writes (R10-R12, R28, R29, R41-R48): which register a word goes to, what its write does, and the profiles, the expert
switches and the locks of the blocks. -/

namespace Sys2Proof.Machine

/-! ### Values refused as a whole -/

/-- The word a plain write of `v` would leave at `a`. -/
def State.wordAfter (s : State) (a : Nat) (v : Word) : Word :=
  match findRow a with
  | some r => r.write (s.lockedBlock (a / 0x10000)) (r.gov && !s.expertOn a) (s.reg a) v
  | none => s.reg a

/-- The fields of a template's format that have a width, as (lowest bit, width) (R105, R106). -/
def tplFields (fmt : Word) : List (Nat × Nat) :=
  [(Fld.TUN_TPL_FMT_ADDR_POS.get fmt, Fld.TUN_TPL_FMT_ADDR_W.get fmt), (Fld.TUN_TPL_FMT_A_POS.get fmt, Fld.TUN_TPL_FMT_A_W.get fmt),
   (Fld.TUN_TPL_FMT_B_POS.get fmt, Fld.TUN_TPL_FMT_B_W.get fmt)].filter fun p => 0 < p.2

/-- Whether no two of a list of fields overlap. -/
def disjointFields : List (Nat × Nat) → Bool
  | [] => true
  | p :: t => (t.all fun q => decide (p.1 + p.2 ≤ q.1) || decide (q.1 + q.2 ≤ p.1)) && disjointFields t

/-- Whether a format stands with a frame length (R106). -/
def tplOk (fmt : Word) (len : Nat) : Bool :=
  decide (8 ≤ len) && decide (len ≤ 32) && ((tplFields fmt).all fun p => decide (p.2 ≤ 8) && decide (p.1 + p.2 ≤ len)) && disjointFields (tplFields fmt)

/-- The bits that a polling entry's kind uses (R218). -/
def entryMask (kind : Nat) : Nat :=
  match kind with
  | 0 => 0xF | 1 => 0xF000FF3F | 2 => 0x0FFFFF1F | 3 => 0x000FFF0F | 4 => 0x0FFFFF0F | 5 => 0xFFFF | _ => 0x1FFFFFFF

/-- Whether R219 refuses a polling entry. -/
def pollRefused (v : Word) : Bool :=
  let n := v.toNat
  let slots := n / 0x10000 % 16
  match n % 16 with
  | 0 | 1 | 5 => false
  | 2 => decide (4 < slots)
  | 3 => !(decide (slots = 0 ∨ slots = 1 ∨ slots = 3 ∨ slots = 7 ∨ slots = 15))
  | 4 => decide (1 < slots)
  | 6 => decide (n / 16 % 2 ^ 24 = 0)
  | _ => true

/-- Whether a `STO.GEOM` value is refused as a whole (R361). -/
def geomRefused (w : Word) : Bool :=
  let cs := Fld.STO_GEOM_CS_COUNT.get w
  let cap := Fld.STO_GEOM_CAP.get w
  (decide (cs = 2) && decide (cap = 4)) || (decide (cs ≠ 0) && decide (cap = 0))

/-- Whether a `STO.CLOCK` value is refused as a whole (R361). -/
def clockRefused (w : Word) : Bool := decide (Fld.STO_CLOCK_DIV.get w = 0) && decide (Fld.STO_CLOCK_DDR.get w = 0)

/-- Whether an address is that of a polling entry (R246). -/
def isPoll (a : Nat) : Bool := decide (0x40200 ≤ a) && decide (a < 0x40600)

/-- Whether an address is that of a trigger's snapshot source (R457). -/
def isTrgAddr (a : Nat) : Bool := decide (0x82000 ≤ a) && decide (a < 0x83000) && decide (0x10 ≤ a % 0x40) && decide (a % 0x40 < 0x30)

/-- Whether an address is that of a template's format (R130). -/
def isTplFmt (a : Nat) : Bool := decide (0x110020 ≤ a) && decide (a < 0x110060) && decide (a % 0x10 = 4)

/-- Whether a write of `v` to the register at `a` is refused as a whole for the value it gives or would leave. -/
def State.wholeRefused (s : State) (a : Nat) (v : Word) : Bool :=
  if isPoll a then pollRefused v
  else if isTrgAddr a then decide (v.toNat % 4 ≠ 0) || inSram (v.toNat % 0x1000000)
  else if isTplFmt a then !tplOk (s.wordAfter a v) (s.fld (a - 4) Fld.TUN_TPL_CTRL_LENGTH)
  else if a = Reg.STO_GEOM then geomRefused (s.wordAfter a v)
  else if a = Reg.STO_CLOCK then clockRefused (s.wordAfter a v)
  else if a = Reg.EMU_UID_LO then decide (wbyte v 0 = 0x88) || decide (wbyte v 3 = 0x88)
  else if 0x90100 ≤ a ∧ a < 0x90300 ∧ a % 0x40 = 4 then decide (s.reg (a + 4) < v)
  else valueRefused a v

/-! ### What the write of a register does, block by block -/

/-- A write of `GEN.PHASE_CTRL` (R40, R41): the recovery limit, then the request. -/
def State.writePhaseCtrl (s : State) (v : Word) : State :=
  let t := s.writeReg Reg.GEN_PHASE_CTRL v
  match Fld.GEN_PHASE_CTRL_REQ.get v with
  | 1 => if t.gen.phase = .test then t.recover 9 else t
  | 3 => if t.gen.phase = .run then t.recover 4 else t
  | _ => t

/-- A write of `GEN.TEST_CTRL` (R42): fields go off with FIELDS_EN. -/
def State.writeTestCtrl (s : State) (v : Word) : State :=
  let t := s.writeReg Reg.GEN_TEST_CTRL v
  let was := s.flag Reg.GEN_TEST_CTRL Fld.GEN_TEST_CTRL_FIELDS_EN
  let is := t.flag Reg.GEN_TEST_CTRL Fld.GEN_TEST_CTRL_FIELDS_EN
  if was && !is then t.parkLists.allOff else t

/-- A write to GEN. -/
def State.writeGen (s : State) (a : Nat) (v : Word) : State :=
  if a = Reg.GEN_PHASE_CTRL then s.writePhaseCtrl v
  else if a = Reg.GEN_TEST_CTRL ∨ a = Reg.GEN_TEST_LANE then
    if s.gen.phase ≠ .test then s.refuse 0 else if a = Reg.GEN_TEST_CTRL then s.writeTestCtrl v else s.writeReg a v
  else s.writeReg a v

/-- A write to PWR. -/
def State.writePwr (s : State) (a : Nat) (v : Word) : State :=
  if a = Reg.PWR_CMD then s.writePwrCmd v
  else if a = Reg.PWR_CLK then s.writePwrClk v
  else if a = Reg.PWR_RESET_CMD then s.writeResetCmd v
  else s.writeReg a v

/-- A write to FLD; a new NEIGH_THR derives the neighbour sets again (R84). -/
def State.writeFld (s : State) (a : Nat) (v : Word) : State :=
  match pageOf a with
  | none =>
    if a = Reg.FLD_FC_TRIM then s.writeTrim v
    else if a = Reg.FLD_KEEPOUT then (s.writeReg a v).deriveNeigh
    else s.writeReg a v
  | some n =>
    if a = Reg.FLD_P_CTRL n then s.writeFldCtrl n v
    else if a = Reg.FLD_P_PHASE n then s.writePA n false v
    else if a = Reg.FLD_P_AMPL n then s.writePA n true v
    else if a = Reg.FLD_P_HUDDLE n then s.writeHuddle n v
    else s.writeReg a v

/-- A write of `RXE.Pn.CMD` (R171). -/
def State.writeRxeCmd (s : State) (n : Nat) (v : Word) : State :=
  let t := if Fld.RXE_P_CMD_CLR_COUNTS.get v = 1 then s.clearCounts n else s
  if Fld.RXE_P_CMD_CLR_NOISE.get v = 1 then t.clearNoise n else t

/-- A write to RXE: a change of NOISE_BAND discards the noise window in progress (R163). -/
def State.writeRxe (s : State) (a : Nat) (v : Word) : State :=
  match pageOf a with
  | none => s.writeReg a v
  | some n =>
    if a = Reg.RXE_P_CMD n then s.writeRxeCmd n v
    else
      let t := s.writeReg a v
      let band := Fld.RXE_P_FRONT_NOISE_BAND
      if a = Reg.RXE_P_FRONT n ∧ t.fld a band ≠ s.fld a band then t.modR n fun x => { x with calmFrom := s.time } else t

/-- A write of `PRO.Pn.CMD` (R200, R214). -/
def State.writeProCmd (s : State) (n : Nat) (v : Word) : State :=
  let t := if Fld.PRO_P_CMD_FLUSH_TX.get v = 1 then s.flushTx n else s
  if Fld.PRO_P_CMD_END_HOLD.get v = 1 then t.endHold n else t

/-- A write to PRO. -/
def State.writePro (s : State) (a : Nat) (v : Word) : State :=
  match pageOf a with
  | none =>
    if a = Reg.PRO_SESS_CMD then s.writeSessCmd v
    else if isPoll a then s.writeReg a (v &&& word (entryMask (v.toNat % 16)))
    else s.writeReg a v
  | some n =>
    if a = Reg.PRO_P_ROLE n then s.writeRole n v
    else if a = Reg.PRO_P_CMD n then s.writeProCmd n v
    else s.writeReg a v

/-- A write to KPR: MON takes its copies of a lane's settings (R409). -/
def State.writeKpr (s : State) (a : Nat) (v : Word) : State :=
  let t := s.writeReg a v
  if 0x60100 ≤ a ∧ a < 0x60200 then t.refreshMon else t

/-- A write to STO: its buffers (R350, R351), its command, its geometry (R344). -/
def State.writeSto (s : State) (a : Nat) (v : Word) : State :=
  if 0x71000 ≤ a ∧ a < 0x73000 then
    let k := (a - 0x71000) / 0x1000
    if s.flag Reg.STO_HSTATUS (hBusy k) then s.refuse 0x07 else s.writeBuf k (a % 0x1000) (wordBytes v)
  else if a = Reg.STO_HCMD then s.writeHcmd v
  else if a = Reg.STO_GEOM ∧ s.stoReady then (s.writeReg a v).setPages
  else s.writeReg a v

/-- A write to TMR. -/
def State.writeTmr (s : State) (a : Nat) (v : Word) : State :=
  if a = Reg.TMR_GROUP then s.writeGroup v
  else if 0x90100 ≤ a ∧ a < 0x90300 then
    let k := (a - 0x90100) / 0x40
    match a % 0x40 with
    | 0x00 => (s.writeReg a v).syncTimer k
    | 0x04 => s.writeCount k v
    | 0x20 => s.writeTimerStatus k v
    | 0x24 => s.writeXtrig k v
    | _ => s.writeReg a v
  else s.writeReg a v

/-- A write of `QUE.EVQ_STATUS` (R487, R490): WM_HIT clears with WM_COUNT, OVF with the counts of lost events. -/
def State.writeEvqStatus (s : State) (v : Word) : State :=
  let x := s.obs.evq
  let x1 := if Fld.QUE_EVQ_STATUS_WM_HIT.get v = 1 then { x with wmHit := false, wmCount := 0 } else x
  s.setEvq (if Fld.QUE_EVQ_STATUS_OVF.get v = 1 then { x1 with ovf := false, lost := Vector.replicate 4 0 } else x1)

/-- A write of `QUE.EVQ_WM` (R486): a change of LEVEL_ABOVE by it counts as a crossing. -/
def State.writeEvqWm (s : State) (v : Word) : State :=
  let t := s.writeReg Reg.QUE_EVQ_WM v
  if crossing (t.fld Reg.QUE_EVQ_WM Fld.QUE_EVQ_WM_DIR) s.evqAbove t.evqAbove then
    t.setEvq { t.obs.evq with wmHit := true, wmCount := satAdd 255 t.obs.evq.wmCount 1 }
  else t

/-- A write of `QUE.Pn.WM_STATUS` (R487, R501). -/
def State.writeWmStatus (s : State) (n : Nat) (v : Word) : State :=
  let t := s.writeReg (Reg.QUE_P_WM_STATUS n) v
  let t1 := if Fld.QUE_P_WM_STATUS_TX_WM_HIT.get v = 1 then t.modWm n fun x => { x with txHit := false, txCount := 0 } else t
  if Fld.QUE_P_WM_STATUS_RX_WM_HIT.get v = 1 then t1.modWm n fun x => { x with rxHit := false, rxCount := 0 } else t1

/-- A write to QUE. -/
def State.writeQue (s : State) (a : Nat) (v : Word) : State :=
  if a = Reg.QUE_EVQ_STATUS then s.writeEvqStatus v
  else if a = Reg.QUE_EVQ_WM then s.writeEvqWm v
  else if 0xA1000 ≤ a ∧ a < 0xA5000 then
    let n := (a - 0xA1000) / 0x400
    match a % 0x400 with
    | 0x00 => s.hostPush n [v]
    | 0x10 | 0x14 => State.crossWm s (s.writeReg a v) n
    | 0x18 => s.writeWmStatus n v
    | 0x1C => if v.toNat % 2 = 1 then s.flushRx n else s
    | _ => s.writeReg a v
  else s.writeReg a v

/-- A write to CRC. -/
def State.writeCrc (s : State) (a : Nat) (v : Word) : State :=
  if 0xB0100 ≤ a ∧ a < 0xB0200 then
    let c := (a - 0xB0100) / 0x40
    match a % 0x40 with
    | 0x14 => s.writeCrcCmd c v false
    | 0x18 => s.writeCrcData c 1 v
    | 0x1C => s.writeCrcData c 2 v
    | 0x20 => s.writeCrcData c 4 v
    | _ => s.writeReg a v
  else s.writeReg a v

/-- A write to EMU. -/
def State.writeEmu (s : State) (a : Nat) (v : Word) : State :=
  if a = Reg.EMU_CTRL then s.writeEmuCtrl v
  else if a = Reg.EMU_UID_LO then s.writeUidLo v
  else if a = Reg.EMU_WIRE then s.writeWire v
  else if a = Reg.EMU_CMD then s.writeEmuCmd v
  else if 0xF2000 ≤ a ∧ a < 0xF2400 then s.writeEmuData ((a - 0xF2000) / 4) [v]
  else s.writeReg a v

/-- A write of `TUN.TPLt_CTRL` (R106): a LENGTH that the format does not fit is refused, the other fields stand. -/
def State.writeTplCtrl (s : State) (a : Nat) (v : Word) : State :=
  let t := s.writeReg a v
  if tplOk (s.reg (a + 4)) (t.fld a Fld.TUN_TPL_CTRL_LENGTH) then t
  else t.setFld a Fld.TUN_TPL_CTRL_LENGTH (s.fld a Fld.TUN_TPL_CTRL_LENGTH)

/-- A write to TUN. -/
def State.writeTun (s : State) (a : Nat) (v : Word) : State :=
  match pageOf a with
  | none => if 0x110020 ≤ a ∧ a < 0x110060 ∧ a % 0x10 = 0 then s.writeTplCtrl a v else s.writeReg a v
  | some n =>
    if a = Reg.TUN_P_CODE n then s.writeTunCode n v
    else if a = Reg.TUN_P_CMD n then s.writeTunCmd n v
    else if a = Reg.TUN_P_SNIFF n ∨ a = Reg.TUN_P_SNIFF_THR n then s.writeSniff n a v
    else s.writeReg a v

/-- A write of `v` to the register at `a` that is no lock, profile or expert register. -/
def State.writePlain (s : State) (a : Nat) (v : Word) : State :=
  if s.wholeRefused a v then (if s.writeRefused a then s.refuse (a / 0x10000) else s)
  else match a / 0x10000 with
    | 0x00 => s.writeGen a v
    | 0x01 => s.writePwr a v
    | 0x02 => s.writeFld a v
    | 0x03 => s.writeRxe a v
    | 0x04 => s.writePro a v
    | 0x06 => s.writeKpr a v
    | 0x07 => s.writeSto a v
    | 0x08 => if a = Reg.SIL_FREEZE then s.writeFreeze v else s.writeReg a v
    | 0x09 => s.writeTmr a v
    | 0x0A => s.writeQue a v
    | 0x0B => s.writeCrc a v
    | 0x0C => if a = Reg.COX_CTRL then s.writeCoxCtrl v else s.writeReg a v
    | 0x0D => if a = Reg.SAF_INJECT then s.writeInject v else s.writeReg a v
    | 0x0E => if a = Reg.CFG_BOOT_CMD then s.writeBootCmd v else s.writeReg a v
    | 0x0F => s.writeEmu a v
    | 0x10 => if a = Reg.TRC_TRACE_CTRL then s.writeTraceCtrl v else if a = Reg.TRC_CNT_CMD then s.writeCntCmd v else s.writeReg a v
    | 0x11 => s.writeTun a v
    | _ => s.writeReg a v

/-! ### Profiles (R43-R48) -/

/-- The addresses that a register row covers. -/
def RegRow.addrs (r : RegRow) : List Nat :=
  (List.range r.n1).flatMap fun i => (List.range r.n2).map fun j => r.base + i * r.s1 + j * r.s2

/-- The registers that the profile of a place governs. -/
def govAddrs (b : Nat) (page : Option Nat) : List Nat :=
  (blockRows b).flatMap fun r => if r.gov then r.addrs.filter fun a => decide (pageOf a = page) else []

/-- The profile of a place in force: that of ACTIVE, none while COUNT is 0 (R47). -/
def State.profileNow (s : State) (b : Nat) (page : Option Nat) : Option Profile :=
  s.profiles.find? fun p => p.block = b ∧ p.page = page ∧ p.index = s.fld (profileAddr b page) Fld.PROFILE_ACTIVE

/-- The value that a profile gives the register at `a`: its last pair there, else the reset value (R512). -/
def Profile.value (p : Profile) (a : Nat) : Word :=
  (p.pairs.reverse.find? fun q => decide (profAddr p.block p.page q.1 = a)).elim (resetWord a) fun q => q.2

/-- A profile's value in its fields' ranges: a field whose value a write would refuse takes its reset value (DESIGN CHOICE); a CLOCK with
DIV 0 and DDR 0 takes DIV 1 (R361); a timer target above 7 is 0. -/
def profileWord (a : Nat) (v : Word) : Word :=
  let w := match findRow a with
    | some r => r.write false false (resetWord a) v
    | none => 0
  if a = Reg.STO_CLOCK ∧ clockRefused w then Fld.STO_CLOCK_DIV.set w 1
  else if a / 0x10000 = 0x09 ∧ a % 0x40 = 0x24 ∧ (Fld.TMR_T_XTRIG_ACTION.get w = 1 ∨ Fld.TMR_T_XTRIG_ACTION.get w = 2)
      ∧ 7 < Fld.TMR_T_XTRIG_TARGET.get w then Fld.TMR_T_XTRIG_TARGET.set w 0
  else w

/-- The value in force at `a` under the profile of a place. -/
def State.governedDue (s : State) (b : Nat) (page : Option Nat) (a : Nat) : Word :=
  match s.profileNow b page with
  | some p => p.value a
  | none => resetWord a

/-- Whether an address is one of a tuner template. -/
def isTpl (a : Nat) : Bool := decide (0x110020 ≤ a) && decide (a < 0x110060)

/-- One governed register brought to the value in force: with the effects of its write where the value changes. -/
def State.loadOne (b : Nat) (page : Option Nat) (s : State) (a : Nat) : State :=
  let due := s.governedDue b page a
  let v := profileWord a due
  let s1 := if a = Reg.STO_CLOCK ∧ clockRefused due then s.clampMark a else s
  if isTpl a then s1.setReg a v
  else if s1.wordAfter a v = s1.reg a then s1.clampCheck a
  else s1.writePlain a v

/-- Templates whose format and length do not stand together take their reset values (R106). -/
def State.mendTpl (s : State) : State :=
  State.each (fun t u =>
    if tplOk (u.reg (Reg.TUN_TPL_FMT t)) (u.fld (Reg.TUN_TPL_CTRL t) Fld.TUN_TPL_CTRL_LENGTH) then u
    else (u.setReg (Reg.TUN_TPL_FMT t) (resetWord (Reg.TUN_TPL_FMT t))).setReg (Reg.TUN_TPL_CTRL t) (resetWord (Reg.TUN_TPL_CTRL t))) 4 s

/-- Every governed register of a place brought to the value in force (R45, R47), whatever the lock and EXPERT_EN hold meanwhile. -/
def State.loadGov (s : State) (b : Nat) (page : Option Nat) : State :=
  let lk := b * 0x10000 + 4
  let ex := expertAddr b page
  let s1 := (s.setFld lk Fld.LOCK 0).setFld ex Fld.EXPERT_EN 1
  let s2 := (govAddrs b page).foldl (State.loadOne b page) s1
  let s3 := if b = 0x11 ∧ page = none then s2.mendTpl else s2
  (s3.setFld lk Fld.LOCK (s.fld lk Fld.LOCK)).setFld ex Fld.EXPERT_EN (s.fld ex Fld.EXPERT_EN)

/-- Whether port `n` has a frame in progress, for the safe point of R45: the exchange whole, its receive window included (DESIGN CHOICE,
log 74). -/
def State.frameBusy (s : State) (n : Nat) : Bool := (s.pf n).txEnd.isSome || (s.pf n).window.isSome || (s.pp n).xch.isSome

/-- Whether an operation of block `b` is in progress (R45). The spec does not list what counts as one: the set of each block is the model's
(DESIGN CHOICE, log 74). -/
def State.blockBusy (s : State) (b : Nat) : Bool :=
  match b with
  | 0x01 => s.pwr.entering.isSome
  | 0x02 => anyBelow (fun n => decide ((s.pf n).ramp ≠ .none) || s.frameBusy n || decide ((s.pf n).radio = .cal)) 16
  | 0x03 => anyBelow (fun n => decide ((s.pr n).state ≠ .idle)) 16
  | 0x04 => anyBelow (fun n => (s.pp n).xch.isSome) 16
  | 0x05 => anyBelow (fun n => (s.pa n).poll.isSome) 16
  | 0x06 => decide (s.kpr.slots ≠ []) || s.kpr.commit.isSome
  | 0x07 => s.sto.queue.any fun q => q.started.isSome
  | 0x08 => s.obs.sil.clearing
  | 0x0B => anyBelow (fun c => s.crcBusy c) 4
  | 0x0C => s.cox.lower.isSome
  | 0x0F => s.emu.sync.isSome || decide (s.emu.updates ≠ [])
  | 0x11 => decide (s.tun.link ≠ []) || anyBelow (fun n => (s.pt n).search.isSome) 16
  | _ => false

/-- Whether a place is at its safe point (R45). -/
def State.safePoint (s : State) (b : Nat) (page : Option Nat) : Bool :=
  match page with
  | some n => !s.frameBusy n
  | none => !s.blockBusy b

/-- The selection of a place in force (R45, R46): ACTIVE takes SEL, and the governed fields their values. Nothing while EXPERT_EN is 1 or
before the safe point. -/
def State.applySel (s : State) (b : Nat) (page : Option Nat) : State :=
  let p := profileAddr b page
  if s.flag (expertAddr b page) Fld.EXPERT_EN || !s.safePoint b page then s
  else
    (if s.fld p Fld.PROFILE_COUNT = 0 then s else s.setFld p Fld.PROFILE_ACTIVE (s.fld p Fld.PROFILE_SEL)).loadGov b page

/-- A write of PROFILE (R44, R45). -/
def State.writeSel (s : State) (b : Nat) (page : Option Nat) (v : Word) : State :=
  let p := profileAddr b page
  let sel := Fld.PROFILE_SEL.get v
  if s.fld p Fld.PROFILE_COUNT ≤ sel then s.post 0x0002 .top 0
  else (s.setFld p Fld.PROFILE_SEL sel).applySel b page

/-- A write of EXPERT (R43, R46): the fields in force are the raw fields from then on; at its return to 0 the profile governs again at the
safe point. -/
def State.writeExpert (s : State) (b : Nat) (page : Option Nat) (v : Word) : State :=
  let e := expertAddr b page
  let t := s.writeReg e v
  if s.flag e Fld.EXPERT_EN && !t.flag e Fld.EXPERT_EN then t.applySel b page else t

/-! ### Any host address -/

/-- Whether block `b` has the header of R43. -/
def headBlock (b : Nat) : Bool := decide (b ≠ 0) && decide (b ≠ 0x10) && decide (b < 0x13)

/-- The place whose PROFILE (false) or EXPERT (true) stands at an address. -/
def profPlace (a : Nat) : Option (Nat × Option Nat × Bool) :=
  let b := a / 0x10000
  let o := a % 0x10000
  if headBlock b && decide (o = 8) then some (b, none, false)
  else if headBlock b && decide (o = 0xC) then some (b, none, true)
  else match pageOf a with
    | some n =>
      if (o - 0x1000) % 0x400 = 0 then some (b, some n, false)
      else if (o - 0x1000) % 0x400 = 4 then some (b, some n, true)
      else none
    | none => none

/-- Whether block `b` runs: in SAFE BOOT only GEN, HIF, CFG, SIL, QUE and TRC do (R517). -/
def State.blockRuns (s : State) (b : Nat) : Bool :=
  !s.gen.safeBoot || decide (b = 0x00 ∨ b = 0x12 ∨ b = 0x0E ∨ b = 0x08 ∨ b = 0x0A ∨ b = 0x10)

/-- One word written to a host address (R535): the SRAM window in TEST only (R28), the registers by their codes, nothing elsewhere (R29).
In SAFE BOOT only a reset reaches a block that does not run. -/
def State.writeWord (s : State) (a : Nat) (v : Word) : State :=
  if inSram a then (if s.gen.phase = .test then s.sramWrite a (wordBytes v) else s.refuse 0)
  else if inBlock a then
    if !s.blockRuns (a / 0x10000) then (if a = Reg.PWR_RESET_CMD then s.writePlain a v else s)
    else match profPlace a with
      | some (b, g, false) => s.writeSel b g v
      | some (b, g, true) => s.writeExpert b g v
      | none => s.writePlain a v
  else s

/-! ### Writes refused in an image (R512) -/

/-- Whether a write of the configuration image is refused (R512): to CFG, to no register, to the SRAM window, by R12, R44, or the value. -/
def State.imageRefuses (s : State) (a : Nat) (v : Word) : Bool :=
  decide (a / 0x10000 = 0x0E) || (match profPlace a with
    | some (b, g, false) => decide (s.fld (profileAddr b g) Fld.PROFILE_COUNT ≤ Fld.PROFILE_SEL.get v)
    | some (_, _, true) => false
    | none =>
      match findRow a with
      | none => true
      | some r =>
        r.refuses (s.lockedBlock (a / 0x10000)) || r.badValue (r.gov && !s.expertOn a) v || s.wholeRefused a v
          || decide (a = Reg.GEN_TEST_CTRL) || decide (a = Reg.GEN_TEST_LANE) || decide (a = Reg.SAF_INJECT)
          || (decide (a = Reg.PWR_RESET_CMD) && decide (v ≠ 0x1680)))

/-! ### Commands -/

/-- `PHASE_REQ_RECOVERY` (R41). -/
def execPhaseReqRecovery (rlimit : BitVec 8) (s : State) : Out := s.coreAll fun s => s.writePhaseCtrl (word (3 + 0x100 * rlimit.toNat))

/-- `PHASE_REQ_RUN` (R41). -/
def execPhaseReqRun (rlimit : BitVec 8) (s : State) : Out := s.coreAll fun s => s.writePhaseCtrl (word (1 + 0x100 * rlimit.toNat))

/-- The port page of a place. -/
def placePage (p : ProfAt) : Option Nat := p.page.map fun n => n.val

/-- Whether a place carries a PROFILE and EXPERT pair (R43). -/
def placeReal (p : ProfAt) : Bool := if p.page.isSome then hasPages p.block else hasHeader p.block

/-- A command about the profile of a place, where the place exists and its block runs. -/
def State.onPlace (s : State) (p : ProfAt) (f : State → State) : Out :=
  s.coreAll fun s => if placeReal p && s.blockRuns (blockNum p.block) then f s else s

/-- `LOCK_SET` (R12, R43): TRC has no lock. -/
def execLockSet (block : BlockId) (s : State) : Out :=
  s.coreAll fun s => if s.blockRuns (blockNum block) then s.writeReg (blockNum block * 0x10000 + 4) 1 else s

/-- `PROFILE_SELECT` (R44, R45). -/
def execProfileSelect (place : ProfAt) (sel : Byte) (s : State) : Out :=
  s.onPlace place fun s => s.writeSel (blockNum place.block) (placePage place) (word sel.toNat)

/-- `PROFILE_APPLY` (R45, R46). -/
def execProfileApply (place : ProfAt) (s : State) : Out := s.onPlace place fun s => s.applySel (blockNum place.block) (placePage place)

/-- `EXPERT_WRITE` (R46, R47). -/
def execExpertWrite (place : ProfAt) (value : Word) (s : State) : Out :=
  s.onPlace place fun s => s.writeExpert (blockNum place.block) (placePage place) value

end Sys2Proof.Machine
end

