-- ==== Sys2Proof/Machine/Host.lean ====
section
/-! DEFINITION. The host port (R529-R543): its transactions, what ends them, its errors, the status word and the interrupt pin's pulse. -/

namespace Sys2Proof.Machine

/-! ### Errors (R533, R534, R537, R538, R554) -/

/-- An error of the port: its bit, its count, its event, and the transaction that made it. -/
def State.hifError (s : State) (bit cnt : Field) (code : Nat) (note : Note) (op addr : Nat) : State :=
  (((s.stick Reg.HIF_STATUS bit).bump Reg.HIF_ERR_COUNTS cnt).setReg Reg.HIF_LAST_ERR
    (packF [(Fld.HIF_LAST_ERR_OPCODE, op), (Fld.HIF_LAST_ERR_ADDRESS, addr)])).post code note 0

/-- A transaction's end (R549): `HCS_N` rises. -/
def State.hostEnded (s : State) : State := { s.count 103 with pins := { s.pins with hcsLow := false } }

/-- The opcodes of R531. -/
def hostOpcodes : List Nat := [0x0B, 0xEB, 0x02, 0x38, 0x05, 0x65, 0x42, 0x4A, 0x4B, 0xCB, 0x4D, 0xCD, 0xA2, 0xAA]

/-- Whether R533 makes the port ignore an opcode with an address. -/
def badCommand (op addr : Nat) : Bool :=
  !hostOpcodes.contains op || (decide (op = 0x42 ∨ op = 0x4A ∨ op = 0x4B ∨ op = 0xCB) && decide (16 ≤ addr))
    || (decide (op = 0x4D ∨ op = 0xCD ∨ op = 0xA2 ∨ op = 0xAA) && decide (addr ≠ 0))

/-- A transaction ignored with BADCMD (R533). -/
def State.badCmd (s : State) (op addr : Nat) : State :=
  (s.hifError Fld.HIF_STATUS_BADCMD Fld.HIF_ERR_COUNTS_BADCMDS 0xF004 .top op addr).hostEnded

/-- Whether the port takes a transaction: none is held up with `HRDY` low. -/
def State.hostFree (s : State) : Bool := s.hif.waiting.isNone && s.emu.heldWrite.isNone

/-- A host transaction: nothing while an earlier one waits. -/
def State.host (s : State) (f : State → State) : Out := s.coreAll fun s => if s.hostFree then f s else s

/-- Words that have not taken effect discarded (R538). -/
def State.dropWaiting (s : State) : State :=
  { s with hif := { s.hif with waiting := none }, emu := { s.emu with heldWrite := none } }

/-- How a transaction ends (R534, R538); a reset during it has ended it already (R552). -/
def State.hostEnding (s : State) (ending : TxEnd) (op addr : Nat) : State :=
  if !s.live then s
  else match ending with
    | .whole => s.hostEnded
    | .partialWord => (s.hifError Fld.HIF_STATUS_PARTIAL Fld.HIF_ERR_COUNTS_PARTIALS 0xF005 .top op addr).hostEnded
    | .csEarly => (s.dropWaiting.hifError Fld.HIF_STATUS_CS_EARLY Fld.HIF_ERR_COUNTS_CS_EARLYS 0xF003 .heart op addr).hostEnded

/-- The words of a write that take effect or wait to: all but the last of one that ends early (R538). -/
def sentWords (ending : TxEnd) (l : List Word) : List Word := if ending = .csEarly then l.dropLast else l

/-- How many words of a read are fetched: a partial word is fetched, one that the device has not yet given is not (R534, R538). -/
def fetched (ending : TxEnd) (n : Nat) : Nat :=
  match ending with
  | .whole => n
  | .partialWord => n + 1
  | .csEarly => n - 1

/-- How many words of a read the host has whole. -/
def received (ending : TxEnd) (n : Nat) : Nat := if ending = .csEarly then n - 1 else n

/-- Whether an address lies in no block and outside the SRAM window (R29). -/
def unmapped (a : Nat) : Bool := !inSram a && !inBlock a

/-- Whether one of `n` words from an address on is unmapped. -/
def touchesUnmapped : Nat → Nat → Bool
  | 0, _ => false
  | n + 1, a => unmapped a || touchesUnmapped n (nextAddr a)

/-- `HIF_UNMAPPED`, once for a transaction that touches an unmapped address (R29). -/
def State.noteUnmapped (s : State) (n a : Nat) : State := if s.live && touchesUnmapped n a then s.post 0xF001 .top 0 else s

/-! ### WRITE (R532, R535) -/

/-- One word of a WRITE; a word that follows a held one of the data area waits behind it (R369). -/
def State.hostWrite (s : State) (a : Nat) (v : Word) : State :=
  if !s.live then s
  else match s.emu.heldWrite with
    | some (i, ws, t) =>
      if a = 0xF2000 + 4 * (i + ws.length) ∧ a < 0xF2400 then { s with emu := { s.emu with heldWrite := some (i, ws ++ [v], t) } } else s
    | none => s.writeWord a v

/-- Words written to ascending addresses. -/
def State.hostWrites : List Word → Nat → State → State
  | [], _, s => s
  | v :: t, a, s => State.hostWrites t (nextAddr a) (s.hostWrite a v)

/-- The words of a WRITE whose effect falls in the CLK_CORE cycle in which hardware last acted: a w1c bit that hardware sets in it stays
set (R13). A w1s bit that hardware clears in it, and a field that hardware updates in it, take the host's value after it, as queue order
gives. -/
def State.coincident (s : State) : List Word → Nat → List Word
  | [], _ => []
  | v :: t, a => (v &&& ~~~s.setNow a) :: s.coincident t (nextAddr a)

/-- `WRITE` (R531, R532, R535). -/
def execWrite (quad : Bool) (addr : BitVec 24) (data : List Word) (ending : TxEnd) (same : Bool) (s : State) : Out := s.host fun s =>
  let a := wordAddr addr.toNat
  let sent := sentWords ending data
  let l := if same then s.coincident sent a else sent
  let t := (State.hostWrites l a (s.countBy 104 (4 * l.length))).noteUnmapped l.length a
  t.hostEnding ending (if quad then 0x38 else 0x02) addr.toNat

/-! ### READ (R532, R535) -/

/-- What a host read of an address changes beyond popping: the capture flag (R472), the latches of upper words (R248, R550). -/
def State.readSide (s : State) (a : Nat) : State :=
  if 0x90100 ≤ a ∧ a < 0x90300 ∧ a % 0x40 = 0x1C then s.readCapt ((a - 0x90100) / 0x40)
  else if 0x101000 ≤ a ∧ a < 0x101400 then
    (if a % 8 = 0 then s.readCntLo ((a - 0x101000) / 8) else s.readCntHi ((a - 0x101000) / 8))
  else if 0x48000 ≤ a ∧ a < 0x49400 ∧ (a % 0x20 = 0x10 ∨ a % 0x20 = 0x18) then s.readCtxLow ((a - 0x48000) / 0x20) (decide (a % 0x20 = 0x18))
  else if 0x48000 ≤ a ∧ a < 0x49400 ∧ (a % 0x20 = 0x14 ∨ a % 0x20 = 0x1C) then s.readCtxHigh a
  else s

/-- A ring line of which a word read by the host fails its parity (R450). -/
def State.spoiltRead (s : State) (a : Nat) : State :=
  if 0x780000 ≤ a ∧ a < 0x880000 ∧ ¬ (s.obs.sil.retired.any fun l => l = (a - 0x780000) / 64) then s.retireLine ((a - 0x780000) / 64)
  else s

/-- One word of a READ: the state after it and the word; `bad` are the parity failures from this word on. -/
def State.hostRead (bad : List Bool) (s : State) (a : Nat) : State × Word :=
  if 0xA1000 ≤ a ∧ a < 0xA5000 ∧ a % 0x400 = 4 then s.popRx ((a - 0xA1000) / 0x400) (bad.headD false)
  else if a = Reg.QUE_EVQ_POP0 then s.popEvq (bad.headD false) (bad.tail.headD false)
  else if bad.headD false then (s.spoiltRead a, s.peek a)
  else (s.readSide a, s.peek a)

/-- `n` words read from ascending addresses. -/
def State.hostReads : Nat → List Bool → Nat → State → State × List Word
  | 0, _, _, s => (s, [])
  | n + 1, bad, a, s =>
    let r := s.hostRead bad a
    let t := State.hostReads n bad.tail (nextAddr a) r.1
    (t.1, r.2 :: t.2)

/-- What a read returns to the host: the words it has whole. -/
def State.returned (r : State × List Word) (ending : TxEnd) (n : Nat) : State :=
  let k := received ending n
  (r.1.countBy 105 (4 * k)).setOut (r.2.take k)

/-- `READ` (R531, R532, R535). -/
def execRead (quad : Bool) (addr : BitVec 24) (words : Nat) (ending : TxEnd) (bad : List Bool) (s : State) : Out := s.host fun s =>
  let a := wordAddr addr.toNat
  let n := fetched ending words
  ((State.returned (State.hostReads n bad a s) ending words).noteUnmapped n a).hostEnding ending (if quad then 0xEB else 0x0B) addr.toNat

/-- The status word (R542). -/
def State.statusWord (s : State) : Word :=
  packF [(⟨0, 3⟩, s.gen.phase.num), (⟨3, 1⟩, bnat s.gen.safeBoot), (⟨4, 1⟩, bnat (s.obs.irq.asserted && s.obs.irq.pulseEnd.isNone)),
    (⟨5, 1⟩, bnat (decide (s.obs.evq.entries ≠ []))), (⟨6, 1⟩, bnat s.cfg.auth.isSome),
    (⟨7, 1⟩, bnat (decide ((s.reg Reg.HIF_STATUS).toNat % 16 ≠ 0))), (⟨16, 16⟩, maskOf (fun n => decide ((s.pq n).rx ≠ [])) 16)]

/-- `READ_STATUS` (R531, R542): the word, sampled again for each word. -/
def execReadStatus (quad : Bool) (words : Nat) (ending : TxEnd) (s : State) : Out := s.host fun s =>
  let k := received ending words
  ((s.countBy 105 (4 * k)).setOut (List.replicate k s.statusWord)).hostEnding ending (if quad then 0x65 else 0x05) 0

/-! ### Frames and events (R539, R540) -/

/-- `FRAME_PUSH` (R539, R481, R483). -/
def execFramePush (quad : Bool) (addr : BitVec 24) (data : List Word) (ending : TxEnd) (s : State) : Out := s.host fun s =>
  let op := if quad then 0x4A else 0x42
  if badCommand op addr.toNat then s.badCmd op addr.toNat
  else
    let l := sentWords ending data
    ((s.countBy 104 (4 * l.length)).hostPush addr.toNat l).hostEnding ending op addr.toNat

/-- `n` words popped from RXQ of a port. -/
def State.popsRx (port : Nat) : Nat → List Bool → State → State × List Word
  | 0, _, s => (s, [])
  | n + 1, bad, s =>
    let r := s.popRx port (bad.headD false)
    let t := State.popsRx port n bad.tail r.1
    (t.1, r.2 :: t.2)

/-- `FRAME_POP` (R539, R481). -/
def execFramePop (quad : Bool) (addr : BitVec 24) (words : Nat) (ending : TxEnd) (bad : List Bool) (s : State) : Out := s.host fun s =>
  let op := if quad then 0xCB else 0x4B
  if badCommand op addr.toNat then s.badCmd op addr.toNat
  else (State.returned (State.popsRx addr.toNat (fetched ending words) bad s) ending words).hostEnding ending op addr.toNat

/-- `n` words of event entries (R540): word 0 pops, word 1 is what the pop latched; the flag says that word 1 is next. The intake's head
takes the room that a pop makes before the next word (R490). -/
def State.popsEvq : Nat → List Bool → Bool → State → State × List Word
  | 0, _, _, s => (s, [])
  | n + 1, bad, false, s =>
    let r := s.popEvq (bad.headD false) (bad.tail.headD false)
    let t := State.popsEvq n bad.tail true r.1.evqMove
    (t.1, r.2 :: t.2)
  | n + 1, bad, true, s =>
    let t := State.popsEvq n bad.tail false s
    (t.1, s.obs.evq.pop1 :: t.2)

/-- `EVENT_POP` (R540, R491). -/
def execEventPop (quad : Bool) (addr : BitVec 24) (words : Nat) (ending : TxEnd) (bad : List Bool) (s : State) : Out := s.host fun s =>
  let op := if quad then 0xCD else 0x4D
  if badCommand op addr.toNat then s.badCmd op addr.toNat
  else (State.returned (State.popsEvq (fetched ending words) bad false s) ending words).hostEnding ending op addr.toNat

/-! ### AUTH (R541) -/

/-- `AUTH` (R541, R523): the checks begin when `HCS_N` rises; without a data phase there is no effect (R534). -/
def execAuth (quad : Bool) (addr : BitVec 24) (data : List Word) (ending : TxEnd) (s : State) : Out := s.host fun s =>
  let op := if quad then 0xAA else 0xA2
  if badCommand op addr.toNat then s.badCmd op addr.toNat
  else
    let l := sentWords ending data
    let t := (s.countBy 104 (4 * l.length)).hostEnding ending op addr.toNat
    if data = [] ∧ ending = .whole then t else t.authCheck (unpackWords l)

/-! ### Transactions that go wrong -/

/-- `HIF_BADCMD` (R533): 0x00 and 0xFF are counted nowhere. -/
def execHifBadcmd (opcode : Byte) (addr : BitVec 24) (s : State) : Out := s.host fun s =>
  if opcode = 0x00 ∨ opcode = 0xFF then { s with pins := { s.pins with hcsLow := false } }
  else if badCommand opcode.toNat addr.toNat then s.badCmd opcode.toNat addr.toNat
  else s

/-- `HIF_STALL` (R537): a push has waited for room for 10 ms; its words that have not been pushed are lost. -/
def execHifStall (opcode : Byte) (addr : BitVec 24) (s : State) : Out := s.coreAll fun s =>
  match s.hif.waiting with
  | some (_, _, t) =>
    ((s.advance (t + 10 * msec)).dropWaiting.hifError Fld.HIF_STATUS_STALL Fld.HIF_ERR_COUNTS_STALLS 0xF002 .heart opcode.toNat addr.toNat).hostEnded
  | none => s

/-- `HIRQ_REEDGE_END` (R543): the pulse of 200 ns is over. -/
def execHirqReedgeEnd (s : State) : Out := s.coreAll fun s =>
  match s.obs.irq.pulseEnd with
  | some e =>
    let t := s.advance e
    { t with obs := { t.obs with irq := { t.obs.irq with pulseEnd := none } } }
  | none => s

/-! ### The lines (R529-R531) -/

/-- The dummy cycles of a command by its opcode (R531). -/
def State.dummyCycles (s : State) (op : Nat) : Nat :=
  if op = 0x65 then 2
  else if op = 0x0B ∨ op = 0xEB ∨ op = 0x4B ∨ op = 0xCB ∨ op = 0x4D ∨ op = 0xCD then s.fld Reg.HIF_CFG Fld.HIF_CFG_DUMMY
  else 0

/-- Bytes on `HIO0` to `HIO3`, in that order at each rising edge of `HSCK` (R529, R530), `none` where a line is not driven: on one line each byte
most significant bit first, over four its high nibble first, with `HIO3` carrying the most significant bit of a nibble. -/
def lineEdges (quad : Bool) (line : Nat) (l : List Byte) : List (List (Option Bool)) :=
  l.flatMap fun b =>
    if quad then [4, 0].map fun k => (List.range 4).map fun i => some (b.getLsbD (k + i))
    else (List.range 8).map fun k => (List.range 4).map fun i => if i = line then some (b.getLsbD (7 - k)) else none

/-- A transaction on the lines (R529-R531): the command byte on `HIO0`, the address where the command has one, the dummy cycles, and the words from
the host on `HIO0` or from the device on `HIO1`, or over all four. -/
def State.transactionEdges (s : State) (quad fromDevice : Bool) (op : Byte) (addr : Option (BitVec 24)) (words : List Word) :
    List (List (Option Bool)) :=
  let a := match addr with
    | some x => [byte (x.toNat / 65536), byte (x.toNat / 256), byte x.toNat]
    | none => []
  lineEdges false 0 [op] ++ lineEdges quad 0 a ++ List.replicate (s.dummyCycles op.toNat) [none, none, none, none]
    ++ lineEdges quad (bnat fromDevice) (unpackWords words)

end Sys2Proof.Machine
end

