-- ==== Sys2Proof/Machine/Start.lean ====
section
/-! DEFINITION. START (R503-R517): from reset release through slot choice, the image, the start tasks and the self-test to RUN, SAFE or SAFE
BOOT; and the ends of RECOVERY (R37, R623). -/

namespace Sys2Proof.Machine

/-! ### Steps 1 to 4 (R503): clocks, non-volatile values, slot choice -/

/-- The device released from reset: device time 0, clocks running, the input pins as they stand, `FAULT_N` low (R418, R458). -/
def State.startPins (s : State) (env : StartEnv) : State :=
  let s1 := if s.emu.harvest then s.emuDown true else s
  let t : State := { s1 with time := 0, pwr := { PwrSt.reset with awake := .running }, pins := { s1.pins with testEn := env.testEn, rstLow := false } }
  let t1 := (((t.setClocks true).setFld Reg.SAF_STATUS Fld.SAF_STATUS_FAULT_OUT 1).setFld Reg.SAF_STATUS Fld.SAF_STATUS_MON_OK 1).setFld
    Reg.PWR_SUPPLY Fld.PWR_SUPPLY_VDDTX_OK (env.vddtx % 16)
  let x := (({ t1.cox with grant := env.grantHigh }).setBlank false env.blank0High 0).setBlank true env.blank1High 0
  (t1.setCox x).setFld Reg.SAF_STATUS Fld.SAF_STATUS_STOP_IN (bnat env.stopLow)

/-- CFG's registers loaded from NV (R525, R527); the mark of a rollback (R519). -/
def State.loadCfg (s : State) : State :=
  let t := ((s.setReg Reg.CFG_DEVICE_UID_LO s.cfg.uidLo).setReg Reg.CFG_DEVICE_UID_HI s.cfg.uidHi).showKey
  let t1 := if s.keyNow.isSome then t else t.post 0xE008 .heart 0
  let t2 := t1.setCounter s.cfg.counter
  let t3 := if s.cfg.rolled then (t2.setFld Reg.CFG_BOOT_STATUS Fld.CFG_BOOT_STATUS_ROLLED 1).post 0xE004 .top 0 else t2
  { t3 with cfg := { t3.cfg with rolled := false } }

/-- The REASON of slot `k` shown. -/
def State.setReason (s : State) (k reason : Nat) : State :=
  s.setFld Reg.CFG_BOOT_STATUS (if k = 0 then Fld.CFG_BOOT_STATUS_REASON_A else Fld.CFG_BOOT_STATUS_REASON_B) reason

/-- The candidates in their order (R516): the higher IMAGE_VER first, A on a tie. -/
def State.candidates (s : State) : List Nat :=
  let a := decide (s.slotReason 0 = 8)
  let b := decide (s.slotReason 1 = 8)
  if a && b then (if hdrVer (s.header 0) < hdrVer (s.header 1) then [1, 0] else [0, 1])
  else if a then [0] else if b then [1] else []

/-- Candidates read and checked until one passes (R516): the state, and the slot with its records. -/
def State.trySlots : List Nat → State → State × Option (Nat × List ImgRec)
  | [], s => (s, none)
  | k :: t, s =>
    let r := s.slotRecords k
    let s1 := s.setReason k r.1
    match r.2 with
    | some l => (s1, some (k, l))
    | none =>
      let s2 := s1.post 0xE002 .heart (k + 0x100 * r.1)
      State.trySlots t (if t = [] then s2 else (s2.setFld Reg.CFG_BOOT_STATUS Fld.CFG_BOOT_STATUS_FALLBACK 1).post 0xE003 .heart 0)

/-- SAFE BOOT (R517). -/
def State.safeBootIn (s : State) : State :=
  let t := { s with gen := { s.gen with safeBoot := true } }
  (t.setFld Reg.CFG_BOOT_STATUS Fld.CFG_BOOT_STATUS_SAFE_BOOT 1).post 0xE001 .base 0

/-- The slot in force shown (R527), and its image in the recent-table partition (R503 step 5). -/
def State.takeSlot_ (s : State) (k : Nat) : State :=
  let h := s.header k
  let o := s.header (1 - k)
  let t := ((s.setFld Reg.CFG_BOOT_STATUS Fld.CFG_BOOT_STATUS_SLOT k).setReg Reg.CFG_IMAGE_VER (word (hdrVer h))).setReg Reg.CFG_OTHER_VER
    (word (if hdrOk o then hdrVer o else 0))
  t.sramWrite 0x200000 (s.bootBytes (slotStart k) (hdrLength h))

/-! ### Step 6: the image applied (R512) -/

/-- What applying an image has come to: the state, the writes refused, the first refused address, the regulatory record. -/
structure Applied where
  s : State
  refused : Nat
  first : Nat
  regulatory : Option (List Byte)

/-- A write of the image (R512). -/
def Applied.write (x : Applied) (p : Nat × Word) : Applied :=
  if !x.s.live then x
  else
    let a := wordAddr p.1
    let bad := unmappedReg a || x.s.imageRefuses a p.2
    let t := if unmappedReg a || decide (a / 0x10000 = 0x0E) then x.s else x.s.writeWord a p.2
    { x with s := t, refused := x.refused + bnat bad, first := if bad && decide (x.refused = 0) then p.1 else x.first }
where
  /-- Whether no register stands at an address: the SRAM window, a gap, a reserved register (R29). -/
  unmappedReg (a : Nat) : Bool := inSram a || !inBlock a || (findRow a).isNone

/-- A profile stored (R512): COUNT rises, and where its index is ACTIVE it is in force at once. -/
def State.storeProfile (s : State) (p : Profile) : State :=
  if p.block = 0x12 then s
  else
    let a := profileAddr p.block p.page
    let t := { s with profiles := s.profiles ++ [p] }
    let t1 := t.setFld a Fld.PROFILE_COUNT (t.fld a Fld.PROFILE_COUNT + 1)
    if p.index = t1.fld a Fld.PROFILE_ACTIVE then t1.loadGov p.block p.page else t1

/-- A record applied (R512). -/
def Applied.record (x : Applied) (r : ImgRec) : Applied :=
  if !x.s.live then x
  else match r.type with
    | 1 => (pairsOf r.value).foldl Applied.write x
    | 2 => { x with s := r.profiles.foldl State.storeProfile x.s }
    | 3 => { x with regulatory := if x.regulatory.isSome then x.regulatory else some r.value }
    | 4 => { x with s := x.s.setSto { x.s.sto with badTable := badBlocks r.value } }
    | _ => x

/-- The records of an image applied in order; refused writes are counted and reported once. -/
def State.applyImage (s : State) (l : List ImgRec) : State × Option (List Byte) :=
  let x := l.foldl Applied.record { s := s, refused := 0, first := 0, regulatory := none }
  let t := x.s.setFld Reg.CFG_BOOT_TIME Fld.CFG_BOOT_TIME_REFUSED (min 65535 x.refused)
  (if x.s.live then (if x.refused = 0 then t else t.post 0xE009 .top x.first) else x.s, x.regulatory)

/-! ### Step 7: the start tasks (R504) -/

/-- The regulatory values of a record as register words (R432, R511). -/
def regulatoryWords (v : List Byte) : List Word :=
  packF [(Fld.COX_REG_GLOBAL_DUTY_CEIL, leAt v 0 2), (Fld.COX_REG_GLOBAL_GT_FLOOR, leAt v 2 1), (Fld.COX_REG_GLOBAL_ACTIVE_OK, leAt v 3 1)]
    :: packF [(Fld.COX_REG_TRIM_TRIM_MIN, leAt v 4 2), (Fld.COX_REG_TRIM_TRIM_MAX, leAt v 6 2)]
    :: (List.range 16).map fun n => word (leAt v (8 + 2 * n) 2)

/-- The regulatory lock in force from NV (R422, R424). -/
def State.lockInForce (s : State) (l : List Word) : State :=
  let t := (s.loadReg l).setFld Reg.COX_REG_STATUS Fld.COX_REG_STATUS_SEALED 1
  let t1 := (t.setFld Reg.FLD_DUTY Fld.FLD_DUTY_CEIL_EFF (t.fld Reg.COX_REG_GLOBAL Fld.COX_REG_GLOBAL_DUTY_CEIL)).retrim
  let t2 := (t1.clampCheck Reg.FLD_FC_TRIM).clampCheck Reg.FLD_GUARD
  State.each (fun n u =>
    let u1 := (u.modF n fun x => { x with ceil := u.ceil n }).clampCheck (Reg.FLD_P_AMPL n)
    let u2 := if isRelay n then u1.clampCheck (Reg.FLD_P_RELAY n) else u1
    u2.clampCheck (Reg.TUN_P_SNIFF n)) 16 t2

/-- Task (a): a regulatory record seals the lock where it is not sealed yet (R423); an NV write that does not verify seals nothing. -/
def State.sealLock (s : State) (record : Option (List Byte)) (nvOk : Bool) : State :=
  match s.cox.sealed, record with
  | none, some v =>
    if nvOk then
      let l := regulatoryWords v
      ((s.setCox { s.cox with sealed := some l }).lockInForce l).post 0xA010 .top 0
    else s
  | _, _ => s

/-- The SRAM window with VALID 0 in every way of the recent table (R504). -/
def clearValid : List (Nat × Byte) → List (Nat × Byte)
  | [] => []
  | (a, v) :: t =>
    if 0x200000 ≤ a ∧ a < 0x600000 ∧ a % 16 = 14 then
      if v &&& 0xEF = 0 then clearValid t else (a, v &&& 0xEF) :: clearValid t
    else (a, v) :: clearValid t

/-- Task (b): the roster banks from NV, the counters of EMU, the store, the recent table. -/
def State.loadBlocks (s : State) (env : StartEnv) : State :=
  let t := (List.range 2).foldl (fun u b => match u.kpr.nvBanks[b]? with
    | some v => u.setBank b v
    | none => u) s
  let t1 := t.setFld Reg.KPR_STATUS Fld.KPR_STATUS_ACTIVE_BANK t.kpr.nvActive
  let t2 := (State.each (State.recoverCtr true) 8 t1).setFld Reg.EMU_STATUS Fld.EMU_STATUS_IMAGE_VALID (bnat s.imageInForce.isSome)
  let t3 := ((t2.takeCell env.away).setSto { t2.sto with reserve := unionAsc t2.sto.reserve env.grown }).storeStart env.storeOk
  { t3 with sram := clearValid t3.sram }

/-- The code of port `n` sent in START (R107, R110): where VERIFY is 1 a read frame follows, to which the tuner returns what `back` names first;
where that differs both frames are sent once more, and `back` names what comes back then. -/
def State.sendStart (s : State) (n : Nat) (back : Word × Word) : State :=
  if s.flag (Reg.TUN_P_TUNER n) Fld.TUN_P_TUNER_NONE then s
  else
    let code := s.reg (Reg.TUN_P_CODE n)
    let t := { s with tun := { s.tun with sent := s.tunerFrame n (s.verifies n) code } }
    if !s.verifies n || s.codesAgree n code back.1 || s.codesAgree n code back.2 then t
    else (t.stick Reg.TUN_LINK_STATUS Fld.TUN_LINK_STATUS_LINK_FAIL).post 0x3007 .heart 0

/-- The tuners' codes sent, every port in turn (R110). -/
def State.sendCodes (s : State) (back : List (Word × Word)) : State :=
  (List.range 16).foldl (fun t n => t.sendStart n ((back[n]?).getD (0, 0))) s

/-- Neighbours in force as START finds them (R84, R85): the pairs in ascending order. -/
def State.meetNeighbours (s : State) : State :=
  State.each (fun i t => State.each (fun j u =>
    if i < j ∧ (u.neighDue i).testBit j ≠ u.areNeigh i j then
      let want := (u.neighDue i).testBit j
      let v := vmod (vmod u.field.neigh 0 i (fun m => setBit m j want)) 0 j (fun m => setBit m i want)
      ({ u with field := { u.field with neigh := v } }).post 0x2004 .top 0
    else u) 16 t) 16 s

/-- Task (c): tuner codes (R110), the coupling matrix (R81, R82), the first warm-up pass (R39). The synthesiser runs and is locked. -/
def State.prepareAerials (s : State) (env : StartEnv) : State :=
  let t := ((s.sendCodes env.tuners).setFld Reg.FLD_SYN_STATUS Fld.FLD_SYN_STATUS_LOCKED 1).setFld Reg.FLD_SYN_STATUS Fld.FLD_SYN_STATUS_SETTLING 0
  let t1 : State := { t with field := { t.field with synRun := true, settleEnd := none } }
  let t2 := State.each (fun j u => u.setColumn j (u.keyedColumn j ((List.range 16).map fun i => (env.matrix[16 * i + j]?).getD 0))) 16 t1
  let t3 := (State.each (fun n u => u.judgeMeasured n) 16 t2).deriveNeigh.meetNeighbours
  State.each (fun n u => u.modF n fun x => { x with stepDone := List.replicate 6 u.time, retryAt := u.time + u.refreshTime }) 16 t3

/-- What happens during START (R39): host writes are accepted, and timers tick, their cross-triggers live. A tick after `limit` is not of
START. -/
def State.startAct (limit : Nat) (s : State) : StartAct → State
  | .write a v =>
    let o := wordAddr a.toNat
    if s.live then (State.hostWrites [v] o (s.countBy 104 4)).noteUnmapped 1 o else s
  | .tick k => if (s.timer k).nextTick.any fun e => decide (e ≤ limit) then s.tickDue k else s

/-- Task (d): the self-test (R420): a bit for every code that passed. -/
def State.selfTest (s : State) (env : StartEnv) : State :=
  s.setFld Reg.SAF_STATUS Fld.SAF_STATUS_ST_PASS (maskOf (fun i => (env.selfTest[i]?).getD false) 9)

/-- Whether every detector passed. -/
def selfTestOk (env : StartEnv) : Bool := allBelow (fun i => (env.selfTest[i]?).getD false) 9

/-- The roles that the settings give in force (R50), with the radios of their ports in STANDBY (R503); readback of the lanes starts
(R409). -/
def State.rolesIn (s : State) : State :=
  let t := State.each (fun n u =>
    let r := u.roleDue n
    let u1 := u.setFld (Reg.PRO_P_MODE_STATUS n) Fld.PRO_P_MODE_STATUS_EFFECTIVE r
    if r = 0 then u1 else u1.modF n fun x => { x with radio := .standby, biasFrom := none }) 16 (State.each (fun n u => u.modF n fun x => { x with biasFrom := none }) 16 s)
  let start := t.time + t.fld Reg.SAF_CFG Fld.SAF_CFG_FB_DELAY * usec
  t.setSaf { t.saf with fbFrom := Vector.replicate 16 start, beatAt := t.time }

/-- RUN entered from START (R503 step 8): the duty gate goes on from the bin that has begun (R76), active targets listen. -/
def State.startRun (s : State) (env : StartEnv) : State :=
  let t := ({ s with field := { s.field with bin := s.time / msec } }.setFld Reg.CFG_BOOT_TIME Fld.CFG_BOOT_TIME_US (min 65535 env.us)).toRun
  State.each (fun n u => if u.role n = 4 then u.listenTarget n else u) 16 t

/-! ### START as a whole -/

/-- A failure that START meets (R516, R526): `STOP_N`, or a dangerous failure. -/
def startFault (env : StartEnv) : Option (Nat × Nat) :=
  if env.stopLow then some (10, 0)
  else match env.failure with
    | some (c, w) => if 1 ≤ c ∧ c ≤ 9 then some (c, w % 16) else none
    | none => none

/-- Steps 5 to 8 with the slot chosen: RUN, or SAFE. With a failure the image may be applied in part (R526): how many of its records are is
free. -/
def State.startSlot (s : State) (env : StartEnv) (k : Nat) (l : List ImgRec) : State :=
  let s1 := env.early.foldl (State.startAct (env.us * usec)) (s.takeSlot_ k)
  if !s1.live || decide (s1.gen.phase ≠ .start) then s1
  else match startFault env with
  | some (c, w) =>
    let f := s1.takeFreeWord
    let t := (f.1.applyImage (l.take (f.2.toNat % (l.length + 1)))).1
    if t.live then ((t.advance (env.us * usec)).trip c w).coreSees c w [] else t
  | none =>
    let x := s1.applyImage l
    if !x.1.live then x.1
    else
      let t := ((x.1.sealLock x.2 env.nvOk).loadBlocks env).prepareAerials env
      let t1 := env.acts.foldl (State.startAct (env.us * usec)) t
      if !t1.live || decide (t1.gen.phase ≠ .start) then t1
      else
        let t2 := ((t1.advance (env.us * usec)).selfTest env).rolesIn
        if selfTestOk env then t2.startRun env else ((t2.post 0xB004 .base 0).firstSelfTest).enterSafe 7

/-- START from reset release (R503). -/
def State.startUp (s : State) (env : StartEnv) : State :=
  let t0 := (s.startPins env).loadCfg
  let t := match t0.cox.sealed with
    | some l => t0.lockInForce l
    | none => t0
  let t1 := (t.setReason 0 (t.slotReason 0)).setReason 1 (t.slotReason 1)
  let r := State.trySlots t.candidates t1
  match r.2 with
  | some (k, l) => r.1.startSlot env k l
  | none =>
    match startFault env with
    | some (c, w) => ((r.1.advance (env.us * usec)).trip c w).coreSees c w []
    | none => (r.1.advance (env.us * usec)).safeBootIn

/-- `RESET_RELEASE` (R503): the reset of a device with supplies is released. With `TEST_EN` high the device stays in START with every port
off and does nothing that the manual describes (R592). -/
def execResetRelease (env : StartEnv) (s : State) : Out :=
  done s (if s.pwr.awake = .reset ∧ s.pins.aon then
    (if env.testEn then { s with pins := { s.pins with testEn := true } } else s.startUp env)
  else s)

/-! ### The ends of RECOVERY (R37, R623) -/

/-- The columns of the ports in FIELD measured again (R83, R623): what is measured is free. -/
def State.freeColumns (s : State) : State :=
  (State.each (fun n t =>
    if (t.pf n).radio = .field ∧ t.measured n then
      let f := State.takeFreeBytes 16 t
      f.1.setColumn n (packWords f.2)
    else t) 16 s).deriveNeigh

/-- The vector of every port in FIELD measured in step 4 (R101, R623): what its receiver saw is free. -/
def State.freeVectors (s : State) : State :=
  State.each (fun n t =>
    if (t.pf n).radio = .field then
      let f := t.takeFreeWord
      f.1.measureVec n f.2
    else t) 16 s

/-- The weights of every port in FIELD adapted in step 1 (R138, R623) over samples that are free: whatever they come to. -/
def State.freeWeights (s : State) : State :=
  State.each (fun n t =>
    if (t.pf n).radio = .field ∧ t.flag (Reg.RXE_P_CANCEL n) Fld.RXE_P_CANCEL_ADAPT_EN then
      let f := State.takeFreeBytes 32 t
      let w := (packWords f.2).map BitVec.toInt
      f.1.modR n fun y => { y with weights := (List.range 16).map fun j => ((w[2 * j]?).getD 0, (w[2 * j + 1]?).getD 0) }
    else t) 16 s

/-- Steps completed on a port now: those of `steps` for which its state is fit (R93, R623). -/
def State.warm (s : State) (n steps : Nat) : State :=
  s.modF n fun x =>
    { x with stepDone := x.stepDone.zipIdx.map fun p =>
        if steps.testBit p.2 && (decide (p.2 ≠ 3) || !isRelay n) && (decide (x.radio = .field) || (stepInStandby p.2 && decide (x.radio = .standby)))
        then s.time else p.1 }

/-- The recovery actions of the cause in force complete (R623). Every chip select was reset and the shelf reads were reissued as the timeout was
found, so FAIL ends with the first RECOVERY that ends after it, though a newer cause has taken its place (R340; DEDUCED, log 77). -/
def State.recovered (s0 : State) : State :=
  let s := s0.setFld Reg.STO_STATUS Fld.STO_STATUS_FAIL 0
  match s.gen.cause with
  | 1 | 3 => State.each (fun n t => t.warm n 5) 16 (s.advance (s.time + 24 * usec))
  | 2 => s
  | _ =>
    let en := s.fld Reg.FLD_WARMUP Fld.FLD_WARMUP_STEP_EN
    let t := State.each (fun n u => u.warm n en) 16 s
    let t1 := if en.testBit 1 then t.freeWeights else t
    let t2 := if en.testBit 4 then t1.freeVectors else t1
    if en.testBit 5 then t2.freeColumns else t2

/-- Whether the actions of the cause in force can be complete: after lock loss and a wake the synthesiser must have locked (R573, R623). -/
def State.canRecover (s : State) : Bool :=
  decide (s.gen.phase = .recovery) && (s.locked || decide (s.gen.cause ≠ 1 ∧ s.gen.cause ≠ 3))
    && (match s.gen.rlimitEnd with
      | some e => decide (s.time ≤ e)
      | none => true)

/-- `RECOVERY_COMPLETE` (R623, R37): back to RUN. -/
def execRecoveryComplete (s : State) : Out := s.core fun s => if s.canRecover then s.recovered.toRun else s

/-- `RLIMIT_EXPIRY` (R37): SAFE with CAUSE 8. -/
def execRlimitExpiry (s : State) : Out := s.core fun s =>
  match s.gen.rlimitEnd with
  | some e => if s.gen.phase = .recovery then (s.advance e).enterSafe 8 else s
  | none => s

end Sys2Proof.Machine
end

