-- ==== Sys2Proof/Machine/Dispatch.lean ====
section
/-! DEFINITION. The dispatch: one arm per command, each a direct call of its meaning. -/

namespace Sys2Proof.Machine

def exec (i : Instr) (s : State) : Host.Outcome State Fault Refusal :=
  match i with
  | .powerOnReset => Sys2Proof.Machine.execPowerOnReset s
  | .pinReset ns => Sys2Proof.Machine.execPinReset ns s
  | .coreBrownOut ns => Sys2Proof.Machine.execCoreBrownOut ns s
  | .resetCmd value => Sys2Proof.Machine.execResetCmd value s
  | .resetRelease env => Sys2Proof.Machine.execResetRelease env s
  | .phaseReqRecovery rlimit => Sys2Proof.Machine.execPhaseReqRecovery rlimit s
  | .phaseReqRun rlimit => Sys2Proof.Machine.execPhaseReqRun rlimit s
  | .recoveryComplete => Sys2Proof.Machine.execRecoveryComplete s
  | .rlimitExpiry => Sys2Proof.Machine.execRlimitExpiry s
  | .lockSet block => Sys2Proof.Machine.execLockSet block s
  | .write quad addr data ending same => Sys2Proof.Machine.execWrite quad addr data ending same s
  | .read quad addr words ending bad => Sys2Proof.Machine.execRead quad addr words ending bad s
  | .readStatus quad words ending => Sys2Proof.Machine.execReadStatus quad words ending s
  | .framePush quad addr data ending => Sys2Proof.Machine.execFramePush quad addr data ending s
  | .framePop quad addr words ending bad => Sys2Proof.Machine.execFramePop quad addr words ending bad s
  | .eventPop quad addr words ending bad => Sys2Proof.Machine.execEventPop quad addr words ending bad s
  | .auth quad addr data ending => Sys2Proof.Machine.execAuth quad addr data ending s
  | .hifBadcmd opcode addr => Sys2Proof.Machine.execHifBadcmd opcode addr s
  | .hifStall opcode addr => Sys2Proof.Machine.execHifStall opcode addr s
  | .hirqReedgeEnd => Sys2Proof.Machine.execHirqReedgeEnd s
  | .profileSelect place sel => Sys2Proof.Machine.execProfileSelect place sel s
  | .profileApply place => Sys2Proof.Machine.execProfileApply place s
  | .expertWrite place value => Sys2Proof.Machine.execExpertWrite place value s
  | .roleWrite port value => Sys2Proof.Machine.execRoleWrite port value s
  | .roleChangeApply port => Sys2Proof.Machine.execRoleChangeApply port s
  | .huddleWrite port value => Sys2Proof.Machine.execHuddleWrite port value s
  | .fcTrimWrite value => Sys2Proof.Machine.execFcTrimWrite value s
  | .synthLocked => Sys2Proof.Machine.execSynthLocked s
  | .synthLockLost => Sys2Proof.Machine.execSynthLockLost s
  | .synthIdleStop => Sys2Proof.Machine.execSynthIdleStop s
  | .phaseAmplWrite port isAmpl value => Sys2Proof.Machine.execPhaseAmplWrite port isAmpl value s
  | .phaseAmplApply port => Sys2Proof.Machine.execPhaseAmplApply port s
  | .compensationUpdate drivers => Sys2Proof.Machine.execCompensationUpdate drivers s
  | .fieldOnRampStart port => Sys2Proof.Machine.execFieldOnRampStart port s
  | .relayBiasExpiry port => Sys2Proof.Machine.execRelayBiasExpiry port s
  | .fieldOnRampEnd port => Sys2Proof.Machine.execFieldOnRampEnd port s
  | .guardExpiry port => Sys2Proof.Machine.execGuardExpiry port s
  | .fieldOffRampEnd port before => Sys2Proof.Machine.execFieldOffRampEnd port before s
  | .relayBiasOffExpiry port => Sys2Proof.Machine.execRelayBiasOffExpiry port s
  | .fieldReset port value => Sys2Proof.Machine.execFieldReset port value s
  | .resetOffExpiry port => Sys2Proof.Machine.execResetOffExpiry port s
  | .dutyBinStart => Sys2Proof.Machine.execDutyBinStart s
  | .matrixRetry port column => Sys2Proof.Machine.execMatrixRetry port column s
  | .neighbourSetChange port other => Sys2Proof.Machine.execNeighbourSetChange port other s
  | .fldStarve side => Sys2Proof.Machine.execFldStarve side s
  | .huddleSlotStart huddle => Sys2Proof.Machine.execHuddleSlotStart huddle s
  | .frameStart port => Sys2Proof.Machine.execFrameStart port s
  | .frameTxEnd port before => Sys2Proof.Machine.execFrameTxEnd port before s
  | .warmupStepStart port stepNo => Sys2Proof.Machine.execWarmupStepStart port stepNo s
  | .warmupStepDone port column samples => Sys2Proof.Machine.execWarmupStepDone port column samples s
  | .fldWarmLate port => Sys2Proof.Machine.execFldWarmLate port s
  | .vectorMeasurement port vec => Sys2Proof.Machine.execVectorMeasurement port vec s
  | .captureRef port => Sys2Proof.Machine.execCaptureRef port s
  | .retune port => Sys2Proof.Machine.execRetune port s
  | .measure port => Sys2Proof.Machine.execMeasure port s
  | .searchMeasurement port vec => Sys2Proof.Machine.execSearchMeasurement port vec s
  | .tunerCodeWrite port value => Sys2Proof.Machine.execTunerCodeWrite port value s
  | .tunerFrameDone sent => Sys2Proof.Machine.execTunerFrameDone sent s
  | .tunerSettleExpiry port samples => Sys2Proof.Machine.execTunerSettleExpiry port samples s
  | .sniffRoundStart => Sys2Proof.Machine.execSniffRoundStart s
  | .sniffPing port vec => Sys2Proof.Machine.execSniffPing port vec s
  | .sniffConfirmPing port vec => Sys2Proof.Machine.execSniffConfirmPing port vec s
  | .preambleDetected port power length more fofs tofs codes => Sys2Proof.Machine.execPreambleDetected port power length more fofs tofs codes s
  | .sofDetected port sof sofT fofs tofs codes => Sys2Proof.Machine.execSofDetected port sof sofT fofs tofs codes s
  | .sofWindowExpiry port => Sys2Proof.Machine.execSofWindowExpiry port s
  | .energyStep port recent before rx => Sys2Proof.Machine.execEnergyStep port recent before rx s
  | .afcRange port codes rx => Sys2Proof.Machine.execAfcRange port codes rx s
  | .frameEnd port ending rx hw => Sys2Proof.Machine.execFrameEnd port ending rx hw s
  | .rxWindowLimit port rx => Sys2Proof.Machine.execRxWindowLimit port rx s
  | .noiseWindowDone port powers => Sys2Proof.Machine.execNoiseWindowDone port powers s
  | .clrCounts port => Sys2Proof.Machine.execClrCounts port s
  | .clrNoise port => Sys2Proof.Machine.execClrNoise port s
  | .txPush port value => Sys2Proof.Machine.execTxPush port value s
  | .rxPop port bad => Sys2Proof.Machine.execRxPop port bad s
  | .flushRx port => Sys2Proof.Machine.execFlushRx port s
  | .descriptorTake port bad => Sys2Proof.Machine.execDescriptorTake port bad s
  | .completionPush port => Sys2Proof.Machine.execCompletionPush port s
  | .flushTx port => Sys2Proof.Machine.execFlushTx port s
  | .endHold port => Sys2Proof.Machine.execEndHold port s
  | .proHoldExpired port => Sys2Proof.Machine.execProHoldExpired port s
  | .rfcaExpiry port draw => Sys2Proof.Machine.execRfcaExpiry port draw s
  | .externalFieldChange port level => Sys2Proof.Machine.execExternalFieldChange port level s
  | .responseRfcaExpiry port => Sys2Proof.Machine.execResponseRfcaExpiry port s
  | .arfgExpiry port => Sys2Proof.Machine.execArfgExpiry port s
  | .pollEntryStart port hw => Sys2Proof.Machine.execPollEntryStart port hw s
  | .pollWaitExpiry port => Sys2Proof.Machine.execPollWaitExpiry port s
  | .presenceCheckDue sess => Sys2Proof.Machine.execPresenceCheckDue sess s
  | .sessClose value => Sys2Proof.Machine.execSessClose value s
  | .overflowEntryDue place => Sys2Proof.Machine.execOverflowEntryDue place s
  | .accordDetectDeadline port => Sys2Proof.Machine.execAccordDetectDeadline port s
  | .accordOrderPoint port powers => Sys2Proof.Machine.execAccordOrderPoint port powers s
  | .accordWindowClose port => Sys2Proof.Machine.execAccordWindowClose port s
  | .accordStagesDone port chans clip hw => Sys2Proof.Machine.execAccordStagesDone port chans clip hw s
  | .quarantineExpiry port group code => Sys2Proof.Machine.execQuarantineExpiry port group code s
  | .storeOpStart => Sys2Proof.Machine.execStoreOpStart s
  | .storeStatusPoll die => Sys2Proof.Machine.execStoreStatusPoll die s
  | .storePageReadDone die status data hw => Sys2Proof.Machine.execStorePageReadDone die status data hw s
  | .storeProgramDone die status => Sys2Proof.Machine.execStoreProgramDone die status s
  | .storeEraseDone die status => Sys2Proof.Machine.execStoreEraseDone die status s
  | .stoTimeout die => Sys2Proof.Machine.execStoTimeout die s
  | .storeReinitRetry ok => Sys2Proof.Machine.execStoreReinitRetry ok s
  | .stoRead value => Sys2Proof.Machine.execStoRead value s
  | .stoProgram value => Sys2Proof.Machine.execStoProgram value s
  | .stoErase value => Sys2Proof.Machine.execStoErase value s
  | .kprCommit => Sys2Proof.Machine.execKprCommit s
  | .commitNvDone ok => Sys2Proof.Machine.execCommitNvDone ok s
  | .invalidationPassDone => Sys2Proof.Machine.execInvalidationPassDone s
  | .recentSweepTick => Sys2Proof.Machine.execRecentSweepTick s
  | .goPulseEnd lane => Sys2Proof.Machine.execGoPulseEnd lane s
  | .alertPulseEnd lane => Sys2Proof.Machine.execAlertPulseEnd lane s
  | .emuReqa => Sys2Proof.Machine.execEmuReqa s
  | .emuWupa => Sys2Proof.Machine.execEmuWupa s
  | .emuSelect frame lastBits => Sys2Proof.Machine.execEmuSelect frame lastBits s
  | .emuRead block => Sys2Proof.Machine.execEmuRead block s
  | .readCtr index => Sys2Proof.Machine.execReadCtr index s
  | .emuHlta => Sys2Proof.Machine.execEmuHlta s
  | .emuAccBench dur => Sys2Proof.Machine.execEmuAccBench dur s
  | .emuAccRelease => Sys2Proof.Machine.execEmuAccRelease s
  | .emuAccEnrol => Sys2Proof.Machine.execEmuAccEnrol s
  | .emuOtherFrame frame lastBits => Sys2Proof.Machine.execEmuOtherFrame frame lastBits s
  | .emuFieldLossTimeout => Sys2Proof.Machine.execEmuFieldLossTimeout s
  | .emuBenchEnd => Sys2Proof.Machine.execEmuBenchEnd s
  | .emuDataWrite index value => Sys2Proof.Machine.execEmuDataWrite index value s
  | .emuBusy => Sys2Proof.Machine.execEmuBusy s
  | .wireLockWrite value => Sys2Proof.Machine.execWireLockWrite value s
  | .sync => Sys2Proof.Machine.execSync s
  | .emuSyncDone ok => Sys2Proof.Machine.execEmuSyncDone ok s
  | .ctrInc value => Sys2Proof.Machine.execCtrInc value s
  | .counterUpdate ok => Sys2Proof.Machine.execCounterUpdate ok s
  | .harvestPowerUp away => Sys2Proof.Machine.execHarvestPowerUp away s
  | .harvestPowerLoss => Sys2Proof.Machine.execHarvestPowerLoss s
  | .vddAonLoss => Sys2Proof.Machine.execVddAonLoss s
  | .grantChange high => Sys2Proof.Machine.execGrantChange high s
  | .grantWaitExpiry port => Sys2Proof.Machine.execGrantWaitExpiry port s
  | .retryExpiry port => Sys2Proof.Machine.execRetryExpiry port s
  | .blankChange second high => Sys2Proof.Machine.execBlankChange second high s
  | .blankTailExpiry port => Sys2Proof.Machine.execBlankTailExpiry port s
  | .coxBlankStuck second => Sys2Proof.Machine.execCoxBlankStuck second s
  | .coxRegLower => Sys2Proof.Machine.execCoxRegLower s
  | .regLowerNvDone ok => Sys2Proof.Machine.execRegLowerNvDone ok s
  | .fieldCeilingFault port seen => Sys2Proof.Machine.execFieldCeilingFault port seen s
  | .fieldOffFault port seen => Sys2Proof.Machine.execFieldOffFault port seen s
  | .laneReadbackFault lane fb genuine => Sys2Proof.Machine.execLaneReadbackFault lane fb genuine s
  | .clkMonWindow count genuine => Sys2Proof.Machine.execClkMonWindow count genuine s
  | .heartbeatToggle => Sys2Proof.Machine.execHeartbeatToggle s
  | .heartbeatTimeout genuine => Sys2Proof.Machine.execHeartbeatTimeout genuine s
  | .monClkWindow count genuine => Sys2Proof.Machine.execMonClkWindow count genuine s
  | .overtempFault genuine => Sys2Proof.Machine.execOvertempFault genuine s
  | .stopN low => Sys2Proof.Machine.execStopN low s
  | .coreSeesSafeState rxs => Sys2Proof.Machine.execCoreSeesSafeState rxs s
  | .safInject value => Sys2Proof.Machine.execSafInject value s
  | .safTestEnter => Sys2Proof.Machine.execSafTestEnter s
  | .ringWrite good => Sys2Proof.Machine.execRingWrite good s
  | .freezeWrite value => Sys2Proof.Machine.execFreezeWrite value s
  | .silFreezeExpired => Sys2Proof.Machine.execSilFreezeExpired s
  | .silClear => Sys2Proof.Machine.execSilClear s
  | .clearPassDone => Sys2Proof.Machine.execClearPassDone s
  | .ringInitDone => Sys2Proof.Machine.execRingInitDone s
  | .spillFlushExpiry => Sys2Proof.Machine.execSpillFlushExpiry s
  | .rateWindowEnd code scope => Sys2Proof.Machine.execRateWindowEnd code scope s
  | .timerTick timer => Sys2Proof.Machine.execTimerTick timer s
  | .capture timer rising => Sys2Proof.Machine.execCapture timer rising s
  | .captRead timer => Sys2Proof.Machine.execCaptRead timer s
  | .timerGroup value => Sys2Proof.Machine.execTimerGroup value s
  | .wallSet => Sys2Proof.Machine.execWallSet s
  | .slowRateMeasurement rate => Sys2Proof.Machine.execSlowRateMeasurement rate s
  | .evqIntakeMove => Sys2Proof.Machine.execEvqIntakeMove s
  | .evqPop0 bad0 bad1 => Sys2Proof.Machine.execEvqPop0 bad0 bad1 s
  | .evqAgeTick => Sys2Proof.Machine.execEvqAgeTick s
  | .start chan => Sys2Proof.Machine.execStart chan s
  | .data8 chan value => Sys2Proof.Machine.execData8 chan value s
  | .data16 chan value => Sys2Proof.Machine.execData16 chan value s
  | .data32 chan value => Sys2Proof.Machine.execData32 chan value s
  | .rangeGo chan bad => Sys2Proof.Machine.execRangeGo chan bad s
  | .crcRangeDone chan => Sys2Proof.Machine.execCrcRangeDone chan s
  | .cfgRollback => Sys2Proof.Machine.execCfgRollback s
  | .rollbackCheckDone fate => Sys2Proof.Machine.execRollbackCheckDone fate s
  | .cfgKeyRotate backupOk primaryOk => Sys2Proof.Machine.execCfgKeyRotate backupOk primaryOk s
  | .authCounterNvDone ok => Sys2Proof.Machine.execAuthCounterNvDone ok s
  | .bootRead => Sys2Proof.Machine.execBootRead s
  | .bootProgram => Sys2Proof.Machine.execBootProgram s
  | .bootErase => Sys2Proof.Machine.execBootErase s
  | .bootOpDone us bad => Sys2Proof.Machine.execBootOpDone us bad s
  | .traceCtrlWrite value => Sys2Proof.Machine.execTraceCtrlWrite value s
  | .traceSyncTimer => Sys2Proof.Machine.execTraceSyncTimer s
  | .traceLevelTimer => Sys2Proof.Machine.execTraceLevelTimer s
  | .snap => Sys2Proof.Machine.execSnap s
  | .release => Sys2Proof.Machine.execRelease s
  | .clear => Sys2Proof.Machine.execClear s
  | .cntLoRead index => Sys2Proof.Machine.execCntLoRead index s
  | .ctxLowRead sess last => Sys2Proof.Machine.execCtxLowRead sess last s
  | .sleepRequest => Sys2Proof.Machine.execSleepRequest s
  | .sniffRequest => Sys2Proof.Machine.execSniffRequest s
  | .cancelRequest => Sys2Proof.Machine.execCancelRequest s
  | .autoIdleExpiry => Sys2Proof.Machine.execAutoIdleExpiry s
  | .pwrSleep => Sys2Proof.Machine.execPwrSleep s
  | .hostWake => Sys2Proof.Machine.execHostWake s
  | .wakeTimerExpiry => Sys2Proof.Machine.execWakeTimerExpiry s
  | .pwrVddtxLow port rx => Sys2Proof.Machine.execPwrVddtxLow port rx s
  | .vddtxRestored port => Sys2Proof.Machine.execVddtxRestored port s
  | .slowXtalSwitch => Sys2Proof.Machine.execSlowXtalSwitch s
  | .pwrSlowFail => Sys2Proof.Machine.execPwrSlowFail s
  | .dutyCutDeadline port rx => Sys2Proof.Machine.execDutyCutDeadline port rx s
  | .transmitChainBiased port => Sys2Proof.Machine.execTransmitChainBiased port s

end Sys2Proof.Machine
end

