-- ==== Sys2Proof/Machine/Step.lean ====
section
/-! DEFINITION. One step: the command at the front of the queue of waiting commands. -/

namespace Sys2Proof.Machine

/-- Nothing commanded: device time goes on by one CLK_CORE cycle (R458), unless the device is held in reset, where it stands still. -/
def State.idle (s : State) : State :=
  if s.pwr.awake = .reset then s else finish s (s.advance (s.time + cycle))

/-- The command at the front, run with the queue's rest; with nothing waiting, a cycle passes. -/
def step (s : State) : Host.Outcome State Fault Refusal :=
  match s.pending with
  | [] => .next s.idle
  | c :: t => exec c { s with pending := t }

/-- The state with the command that a table word spells at the front of its queue. -/
def State.withFetchWord (s : State) (nbits w : Nat) : State :=
  match Sys2Proof.decodeTableWord nbits w with
  | some c => { s with pending := c :: s.pending }
  | none => s

end Sys2Proof.Machine
end

