-- ==== Sys2Proof/WellFormed.lean ====
section
/-! DEFINITION. Which commands a device and its surroundings can give: the operands that the types alone do not bound. The machine gives
every command a meaning, well-formed or not; these are the operands that stand for something. -/

namespace Sys2Proof

/-- A reception ends with the byte that follows 4,104 bytes (R151), of nine bits at most with its parity bit. -/
def RxData.wf (x : RxData) : Bool := decide (x.bits.length ≤ 9 * 4105) && decide (x.halves.length ≤ 9 * 4105)

/-- A sample of an ADC of 12 bits (R132); 54 samples at carrier rate in 4 µs. -/
def RxOpen.wf (x : RxOpen) : Bool := decide (x.peak ≤ 2048) && decide (x.before.length ≤ 55)

/-- A code channel's payload is as long as its length byte says, where it ended whole (R286). -/
def ChanData.wf (x : ChanData) : Bool := decide (x.ending ≠ .done) || decide (x.payload.length = x.len.toNat)

/-- A START finds 256 elements of the matrix (R81), nine results of the self-test (R420), four supplies and codes 1 to 9 (R404). -/
def StartEnv.wf (x : StartEnv) : Bool :=
  decide (x.matrix.length = 256) && decide (x.selfTest.length = 9) && decide (x.vddtx < 16)
    && x.failure.all fun f => decide (1 ≤ f.1) && decide (f.1 ≤ 9) && decide (f.2 < 16)

/-- A place that carries a PROFILE and EXPERT pair (R43). -/
def ProfAt.wf (p : ProfAt) : Bool :=
  match p.page, p.block with
  | some _, .FLD | some _, .TUN | some _, .RXE | some _, .PRO | some _, .ACD => true
  | some _, _ => false
  | none, .GEN | none, .TRC => false
  | none, _ => true

/-- The well-formed commands. -/
def Instr.wf : Instr → Bool
  | .resetRelease env => env.wf
  | .lockSet block => decide (block ≠ .TRC)
  | .profileSelect place _ | .profileApply place | .expertWrite place _ => place.wf
  | .compensationUpdate drivers => decide (drivers.length = 4)
  | .matrixRetry _ column => decide (column.length = 16)
  | .warmupStepDone _ column _ => decide (column.length = 0 ∨ column.length = 16)
  | .fieldOffRampEnd _ before | .frameTxEnd _ before => before.wf
  | .noiseWindowDone _ powers => decide (3 ≤ powers.length)
  | .energyStep _ _ _ rx | .afcRange _ _ rx | .rxWindowLimit _ rx | .frameEnd _ _ rx _ | .pwrVddtxLow _ rx | .dutyCutDeadline _ rx => rx.wf
  | .overflowEntryDue place => decide (place < 32)
  | .accordOrderPoint _ powers => decide (powers.length ≤ 8)
  | .accordStagesDone _ chans _ _ => decide (chans.length ≤ 8) && chans.all ChanData.wf && decide ((chans.map fun c => c.code).Nodup)
  | .storePageReadDone _ _ data _ => decide (data.length ≤ 4096)
  | .emuSelect _ lastBits | .emuOtherFrame _ lastBits => decide (lastBits < 8)
  | .coreSeesSafeState rxs => decide (rxs.length ≤ 16) && rxs.all RxData.wf
  | _ => true

end Sys2Proof
end

