-- ==== Sys2Proof/Safety.lean ====
section
/-! DEFINITION. The terms in which claims are made: what a command answers, what it leaves as it was, what every state of the device
satisfies, and when the device can take commands. -/

namespace Sys2Proof.Machine

/-! ### Answers -/

/-- The command `c` in the state `s` answers a next state: `s` changed into a state of which `P` holds, and closed. Closing (`finish`) hands
what the command posted, `obs.posted`, to the recorder, the event queue and the trace port, and sets the interrupt line; it changes
nothing but `obs`. -/
def Does (c : Instr) (s : State) (P : State → Prop) : Prop := ∃ t, exec c s = .next (finish s t) ∧ P t

/-- An event of a code, with its note and argument, is among those posted. -/
def Posted (code : Nat) (note : Note) (arg : Nat) (t : State) : Prop :=
  ({ code := code, note := note, arg := word arg, own := [] } : Event) ∈ t.obs.posted

/-! ### When the device takes commands -/

/-- CLK_CORE runs, outside SAFE BOOT: every block of CORE works (R503, R517, R571). -/
def Running (s : State) : Prop := s.live = true ∧ s.gen.safeBoot = false

/-- CLK_CORE runs, in SAFE BOOT or not: GEN, HIF, CFG, SIL, QUE and TRC work (R517). -/
def Clocked (s : State) : Prop := s.live = true

/-- MON and the inputs work: the device is neither in reset nor in SAFE BOOT (R402, R517). -/
def Monitored (s : State) : Prop := s.pwr.awake ≠ .reset ∧ s.gen.safeBoot = false

/-- The host port takes a transaction: CLK_CORE runs and no earlier transaction holds `HRDY` low (R536). -/
def HostReady (s : State) : Prop := s.live = true ∧ s.hostFree = true

/-! ### What is left as it was -/

/-- The parts of the state. -/
inductive StatePart where
  | time | regs | profiles | sram | gen | pwr | tmr | que | crc | cfg | hif | field | tun | rxe | pro | sess | overflow | acd | quar
  | kpr | sto | emu | cox | saf | pins | free | obs | pending
  deriving DecidableEq, Repr

/-- Two states agree on a part. -/
def StatePart.Same (s t : State) : StatePart → Prop
  | .time => t.time = s.time
  | .regs => t.regs = s.regs
  | .profiles => t.profiles = s.profiles
  | .sram => t.sram = s.sram
  | .gen => t.gen = s.gen
  | .pwr => t.pwr = s.pwr
  | .tmr => t.tmr = s.tmr
  | .que => t.que = s.que
  | .crc => t.crc = s.crc
  | .cfg => t.cfg = s.cfg
  | .hif => t.hif = s.hif
  | .field => t.field = s.field
  | .tun => t.tun = s.tun
  | .rxe => t.rxe = s.rxe
  | .pro => t.pro = s.pro
  | .sess => t.sess = s.sess
  | .overflow => t.overflow = s.overflow
  | .acd => t.acd = s.acd
  | .quar => t.quar = s.quar
  | .kpr => t.kpr = s.kpr
  | .sto => t.sto = s.sto
  | .emu => t.emu = s.emu
  | .cox => t.cox = s.cox
  | .saf => t.saf = s.saf
  | .pins => t.pins = s.pins
  | .free => t.free = s.free
  | .obs => t.obs = s.obs
  | .pending => t.pending = s.pending

/-- `t` differs from `s` in the listed parts at most. -/
def Keeps (changed : List StatePart) (s t : State) : Prop := ∀ p : StatePart, p ∉ changed → p.Same s t

/-- The registers other than those at the listed addresses are as they were. -/
def RegsBut (l : List Nat) (s t : State) : Prop := ∀ a, a ∉ l → t.reg a = s.reg a

/-- Every byte of the SRAM window is as it was. -/
def SramKept (s t : State) : Prop := ∀ a, t.sramByte a = s.sramByte a

/-- Every byte of the SRAM window outside the lines of the Sillage ring is as it was (R441). -/
def RingOnly (s t : State) : Prop := ∀ a, a < 0x780000 ∨ 0x880000 ≤ a → t.sramByte a = s.sramByte a

/-- Device time has moved on to `e`, where that is later, and records meanwhile to their ring lines; beside that the listed parts differ
at most. -/
def Passes (e : Nat) (changed : List StatePart) (s t : State) : Prop :=
  t.time = max s.time e ∧ RingOnly s t ∧ Keeps (.time :: .obs :: .sram :: changed) s t

/-- Of the field engine, port `n` differs at most. -/
def FieldOf (n : Nat) (s t : State) : Prop := t.field = { s.field with ports := t.field.ports } ∧ ∀ m, m ≠ n → t.pf m = s.pf m

/-- Of the protocol engine, port `n` differs at most. -/
def ProOf (n : Nat) (s t : State) : Prop := ∀ m, m ≠ n → t.pp m = s.pp m

/-- Of the receivers, that of port `n` differs at most. -/
def RxeOf (n : Nat) (s t : State) : Prop := ∀ m, m ≠ n → t.pr m = s.pr m

/-- Of Accord, port `n` differs at most. -/
def AcdOf (n : Nat) (s t : State) : Prop := ∀ m, m ≠ n → t.pa m = s.pa m

/-- Of the tuner, port `n` differs at most. -/
def TunOf (n : Nat) (s t : State) : Prop := t.tun = { s.tun with ports := t.tun.ports } ∧ ∀ m, m ≠ n → t.pt m = s.pt m

/-- Of coexistence, port `n` differs at most. -/
def CoxOf (n : Nat) (s t : State) : Prop := t.cox = { s.cox with ports := t.cox.ports } ∧ ∀ m, m ≠ n → t.px m = s.px m

/-- Of the keeper, lane `n` differs at most. -/
def LaneOf (n : Nat) (s t : State) : Prop := t.kpr = { s.kpr with lanes := t.kpr.lanes } ∧ ∀ m, m ≠ n → t.lane m = s.lane m

/-- Of the timers, timer `k` differs at most. -/
def TimerOf (k : Nat) (s t : State) : Prop := ∀ m, m ≠ k → t.timer m = s.timer m

/-- Of the check-value channels, channel `c` differs at most. -/
def ChanOf (c : Nat) (s t : State) : Prop := ∀ m, m ≠ c → t.chan m = s.chan m

/-- Of the frame queues, those of port `n` differ at most. -/
def QueuesOf (n : Nat) (s t : State) : Prop := ∀ m, m ≠ n → t.pq m = s.pq m

/-- The fields of a register other than the bits of `f` are as they were. -/
def BitsBut (a : Nat) (f : Field) (s t : State) : Prop := t.reg a &&& ~~~f.mask = s.reg a &&& ~~~f.mask

/-! ### How an authenticated command ends (R523, R524) -/

/-- The command in progress is accepted: RESULT 1, ACCEPTED one more up to 65,535, AUTH set in `GEN.IRQ_STATUS`. -/
def AuthAccepted (s t : State) : Prop :=
  t.fld Reg.CFG_AUTH_STATUS Fld.CFG_AUTH_STATUS_RESULT = 1 ∧
  t.fld Reg.CFG_AUTH_STATUS Fld.CFG_AUTH_STATUS_ACCEPTED = satAdd 65535 (s.fld Reg.CFG_AUTH_STATUS Fld.CFG_AUTH_STATUS_ACCEPTED) 1 ∧
  t.flag Reg.GEN_IRQ_STATUS Fld.GEN_IRQ_STATUS_AUTH = true

/-- The command in progress is refused by its own checks and over: RESULT 6, ACCEPTED as it was, AUTH set in `GEN.IRQ_STATUS`. -/
def AuthRefused (s t : State) : Prop :=
  t.fld Reg.CFG_AUTH_STATUS Fld.CFG_AUTH_STATUS_RESULT = 6 ∧
  t.fld Reg.CFG_AUTH_STATUS Fld.CFG_AUTH_STATUS_ACCEPTED = s.fld Reg.CFG_AUTH_STATUS Fld.CFG_AUTH_STATUS_ACCEPTED ∧
  t.flag Reg.GEN_IRQ_STATUS Fld.GEN_IRQ_STATUS_AUTH = true ∧ t.cfg = { s.cfg with auth := none }

/-! ### What a command may touch at most -/

/-- A single register, as an entry of a `Scope`: first address, distance, how many. -/
def one (a : Nat) : Nat × Nat × Nat := (a, 0, 1)

/-- The registers of one name that the `k` ports, lanes or timers have one each of, as an entry of a `Scope`. -/
def each (f : Nat → Nat) (k : Nat) : Nat × Nat × Nat := (f 0, f 1 - f 0, k)

/-- The EXPERT registers (R43), whose CLAMPED bit a write of a governed register may set (R48), as entries of a `Scope`. -/
def experts : List (Nat × Nat × Nat) :=
  [each (fun n => n * 0x10000 + 0xC) 32, each (fun n => expertAddr 0x02 (some n)) 16, each (fun n => expertAddr 0x11 (some n)) 16,
   each (fun n => expertAddr 0x03 (some n)) 16, each (fun n => expertAddr 0x04 (some n)) 16, each (fun n => expertAddr 0x05 (some n)) 16]

/-- Parts of the state, registers, and ranges of the SRAM window from a first address up to a last one excluded. -/
structure Scope where
  parts : List StatePart
  regs : List (Nat × Nat × Nat)
  bytes : List (Nat × Nat)

/-- The lines of the Sillage ring (R441). -/
def ringBytes : Nat × Nat := (0x780000, 0x880000)

/-- The sets of the recent table (R309). -/
def tableBytes : Nat × Nat := (0x200000, 0x600000)

/-- `t` differs from `s` in what a scope names at most. -/
structure Within (c : Scope) (s t : State) : Prop where
  parts : Keeps c.parts s t
  regs : ∀ a, (∀ r ∈ c.regs, ∀ n, n < r.2.2 → a ≠ r.1 + n * r.2.1) → t.reg a = s.reg a
  bytes : ∀ a, (∀ m ∈ c.bytes, a < m.1 ∨ m.2 ≤ a) → t.sramByte a = s.sramByte a

/-! ### What every state of the device satisfies -/

/-- Every memory and table that is held sparsely is in its canonical form: the registers, the SRAM window, the boot memory, the data and
NV areas of EMU, the two host buffers of the store port, the counters. -/
structure Canonical (s : State) : Prop where
  regs : Sparse.wf resetWord s.regs = true
  sram : Sparse.wf (fun _ => 0) s.sram = true
  boot : Sparse.wf (fun _ => 0xFF) s.cfg.boot = true
  data : Sparse.wf (fun _ => 0) s.emu.data = true
  nv : Sparse.wf (fun _ => 0xFF) s.emu.nv = true
  buf0 : Sparse.wf (fun _ => 0) s.sto.buf0 = true
  buf1 : Sparse.wf (fun _ => 0) s.sto.buf1 = true
  counters : Sparse.wf (fun _ => 0) s.obs.trc.counters = true

/-- No queue holds more than the spec gives it: 2,048 words (R480), 1,024 events and 16 in their intake (R488, R490), 64 records held
(R444), 8 in the vault (R449). -/
structure Bounded (s : State) : Prop where
  tx : ∀ n, (s.pq n).tx.length ≤ 2048
  rx : ∀ n, (s.pq n).rx.length ≤ 2048
  evq : s.obs.evq.entries.length ≤ 1024
  intake : s.obs.evq.intake.length ≤ 16
  hold : s.obs.sil.hold.length ≤ 64
  vault : s.obs.sil.vault.length ≤ 8

/-- What every state of the device satisfies: sparse tables in canonical form, queues within their sizes. -/
structure Sound (s : State) : Prop where
  canonical : Canonical s
  bounded : Bounded s

/-- A step goes on: it neither faults nor is refused. -/
def Safe (o : Host.Outcome State Fault Refusal) : Prop := ∃ t, o = .next t

end Sys2Proof.Machine
end

