-- ==== Sys2Proof/Machine/Touch.lean ====
section
/-! DEFINITION. What each command may change at most, as a `Scope`: the parts of the state, the registers, the ranges of the SRAM window. The
commands that reach any register (a host WRITE, a profile, a reset, START) and the two that go through a whole area of the SRAM window have
none; statements of their own say what they change. -/

namespace Sys2Proof.Machine

/-- The registers that the end of an exchange may write. -/
def endingRegs : List (Nat × Nat × Nat) := [one Reg.KPR_COUNTS, one Reg.KPR_LAST_DECISION, each Reg.KPR_L_STATUS 16, each Reg.PRO_P_COUNTS
   16, each Reg.PRO_P_LAST_PRS 16, one Reg.PRO_SESS_COUNTS, one Reg.SAF_FAULT, one Reg.SAF_FAULT_WHERE, one Reg.SAF_FIRST, one
   Reg.SAF_NDF, one Reg.SAF_STATUS, each Reg.RXE_P_AFC 16]

/-- The registers that a decision may write. -/
def decisionRegs : List (Nat × Nat × Nat) := [one Reg.KPR_COUNTS, one Reg.KPR_LAST_DECISION, each Reg.KPR_L_STATUS 16, one Reg.SAF_FAULT,
   one Reg.SAF_FAULT_WHERE, one Reg.SAF_FIRST, one Reg.SAF_STATUS]

/-- The registers that leaving RUN or TEST may write. -/
def phaseRegs : List (Nat × Nat × Nat) := [one Reg.GEN_IRQ_STATUS, one Reg.GEN_TEST_CTRL, one Reg.GEN_TEST_LANE, each Reg.RXE_P_AFC 16]

/-- The registers that a fault writes. -/
def faultRegs : List (Nat × Nat × Nat) := [one Reg.SAF_FAULT, one Reg.SAF_FAULT_WHERE, one Reg.SAF_FIRST, one Reg.SAF_STATUS]

/-- The registers that hold the last reception of a port. -/
def lastRegs : List (Nat × Nat × Nat) := [each Reg.RXE_P_LAST0 16, each Reg.RXE_P_LAST1 16, each Reg.RXE_P_LAST2 16]

/-- The registers that the end of a transmission may write. -/
def exchangeRegs : List (Nat × Nat × Nat) := [each Reg.PRO_P_COUNTS 16, each Reg.PRO_P_LAST_PRS 16]

/-- The registers that the take of a descriptor may write. -/
def queueRegs : List (Nat × Nat × Nat) := [one Reg.QUE_POISONS, each Reg.QUE_P_COUNTS 16]

/-- The registers that the end of an AUTH command writes. -/
def authRegs : List (Nat × Nat × Nat) := [one Reg.CFG_AUTH_STATUS, one Reg.GEN_IRQ_STATUS]

/-- The registers that a host transaction error writes. -/
def hostErrRegs : List (Nat × Nat × Nat) := [one Reg.HIF_ERR_COUNTS, one Reg.HIF_LAST_ERR, one Reg.HIF_STATUS]

/-- The parts that a wake-up may change. -/
def wakingParts : List StatePart := [.time, .regs, .sram, .gen, .pwr, .tmr, .que, .field, .tun, .rxe, .pro, .sess, .overflow, .acd, .quar,
   .kpr, .sto, .emu, .cox, .saf, .free, .obs]

/-- The parts that the end of an exchange may change. -/
def endingParts : List StatePart := [.time, .regs, .sram, .que, .field, .rxe, .pro, .sess, .overflow, .acd, .quar, .kpr, .sto, .cox, .saf,
   .obs]

/-- The parts that change while device time passes. -/
def passing : List StatePart := [.time, .sram, .obs]

/-- What the commands of the host port, the phases, the locks, the boot memory and the AUTH commands may change at most; `none` for the others. -/
def touchHost : Instr → Option Scope
  | .read .. => some ⟨[.regs, .que, .hif, .emu, .pins, .obs], [one Reg.QUE_EVQ_TAG, each Reg.QUE_P_RX_TAG 16, each Reg.QUE_P_WM_STATUS 16]
      ++ queueRegs ++ hostErrRegs, []⟩
  | .readStatus .. => some ⟨[.regs, .hif, .emu, .pins, .obs], hostErrRegs, []⟩
  | .framePush .. => some ⟨[.regs, .que, .hif, .pro, .emu, .pins, .free, .obs], exchangeRegs ++ queueRegs ++ hostErrRegs, []⟩
  | .framePop .. => some ⟨[.regs, .que, .hif, .emu, .pins, .obs], [each Reg.QUE_P_RX_TAG 16, each Reg.QUE_P_WM_STATUS 16] ++ queueRegs ++
      hostErrRegs, []⟩
  | .eventPop .. => some ⟨[.regs, .hif, .emu, .pins, .obs], [one Reg.QUE_EVQ_TAG, one Reg.QUE_POISONS] ++ hostErrRegs, []⟩
  | .auth .. => some ⟨[.regs, .cfg, .hif, .emu, .pins, .obs], [one Reg.CFG_AUTH_FAILS] ++ authRegs ++ hostErrRegs, []⟩
  | .hifBadcmd .. => some ⟨[.regs, .pins, .obs], hostErrRegs, []⟩
  | .hifStall .. => some ⟨[.regs, .hif, .emu, .pins] ++ passing, hostErrRegs, [ringBytes]⟩
  | .hirqReedgeEnd => some ⟨passing, [], [ringBytes]⟩
  | .phaseReqRecovery .. | .phaseReqRun .. => some ⟨[.regs, .gen, .pwr, .field, .rxe, .pro, .sess, .emu, .cox, .free, .obs],
      [one Reg.GEN_PHASE_CTRL, each Reg.RXE_P_CANCEL_STATUS 16, each Reg.RXE_P_FRONT 16] ++ phaseRegs, []⟩
  | .recoveryComplete => some ⟨[.regs, .gen, .pwr, .field, .tun, .rxe, .pro, .sess, .kpr, .emu, .cox, .saf, .free] ++ passing,
      [each Reg.FLD_COUPLE 256, each Reg.FLD_P_NEIGH 16, each Reg.RXE_P_CANCEL_STATUS 16, each Reg.RXE_P_FRONT 16, one Reg.SAF_LOCK,
      one Reg.SAF_STATUS, one Reg.STO_STATUS, one Reg.TUN_MISMATCH_STATUS, each Reg.TUN_P_REF 16, each Reg.TUN_P_STATUS 16,
      each Reg.TUN_P_VEC 16] ++ phaseRegs, [ringBytes]⟩
  | .rlimitExpiry => some ⟨[.gen, .pwr, .tun, .emu, .free] ++ endingParts, [one Reg.GEN_IRQ_STATUS, one Reg.GEN_TEST_CTRL,
      one Reg.GEN_TEST_LANE, each Reg.RXE_P_CANCEL_STATUS 16, each Reg.RXE_P_COUNTS 16, each Reg.RXE_P_FRONT 16, one Reg.STO_HSTATUS] ++
      endingRegs ++ lastRegs, [ringBytes, tableBytes]⟩
  | .lockSet block => some ⟨[.regs, .obs], [one (blockNum block * 0x10000 + 4)], []⟩
  | .cfgRollback => some ⟨[.regs, .cfg, .obs], authRegs, []⟩
  | .cfgKeyRotate .. => some ⟨[.regs, .cfg, .obs], [one Reg.CFG_AUTH_COUNTER, one Reg.CFG_KEY_STATUS] ++ authRegs, []⟩
  | .authCounterNvDone .. => some ⟨[.regs, .cfg, .free, .obs], [one Reg.CFG_AUTH_COUNTER, one Reg.CFG_KEY_STATUS] ++ authRegs, []⟩
  | .bootRead | .bootProgram | .bootErase => some ⟨[.regs, .cfg, .obs], [one Reg.CFG_BOOT_BSTATUS], []⟩
  | .bootOpDone .. => some ⟨[.regs, .cfg, .free, .obs], [one Reg.CFG_BOOT_BSTATUS, each Reg.CFG_BOOT_BUF 64], []⟩
  | _ => none

/-- What the commands of the field engine may change at most; `none` for the others. -/
def touchField : Instr → Option Scope
  | .fcTrimWrite .. => some ⟨[.regs, .field, .pro, .obs], [one Reg.FLD_FC_TRIM, one Reg.FLD_SYN_STATUS] ++ experts, []⟩
  | .synthLocked => some ⟨[.regs, .field, .pro], [one Reg.FLD_SYN_STATUS], []⟩
  | .synthLockLost => some ⟨[.regs, .gen, .pwr, .field, .rxe, .pro, .sess, .emu, .cox, .free, .obs], [one Reg.FLD_SYN_STATUS,
      each Reg.RXE_P_CANCEL_STATUS 16, each Reg.RXE_P_FRONT 16] ++ phaseRegs, []⟩
  | .synthIdleStop | .resetOffExpiry .. => some ⟨[.regs, .field] ++ passing, [one Reg.FLD_SYN_STATUS], [ringBytes]⟩
  | .phaseAmplWrite .. => some ⟨[.regs, .field, .obs], [each Reg.FLD_P_AMPL 16, each Reg.FLD_P_PHASE 16] ++ experts, []⟩
  | .phaseAmplApply .. | .neighbourSetChange .. => some ⟨[.field, .obs], [], []⟩
  | .compensationUpdate .. => some ⟨[.regs, .field] ++ passing, [each Reg.FLD_P_COMP 16, one Reg.PWR_THERM_DISS,
      one Reg.PWR_THERM_STATUS], [ringBytes]⟩
  | .fieldOnRampStart .. => some ⟨[.regs, .field, .pro, .cox] ++ passing, [one Reg.COX_COUNTS, one Reg.FLD_SYN_STATUS], [ringBytes]⟩
  | .relayBiasExpiry .. | .guardExpiry .. | .fldStarve .. => some ⟨[.field] ++ passing, [], [ringBytes]⟩
  | .fieldOnRampEnd .. => some ⟨[.field, .pro] ++ passing, [], [ringBytes]⟩
  | .fieldOffRampEnd .. | .relayBiasOffExpiry .. | .transmitChainBiased .. => some ⟨[.regs, .field, .rxe, .free] ++ passing,
      [each Reg.RXE_P_CANCEL_STATUS 16, each Reg.RXE_P_FRONT 16], [ringBytes]⟩
  | .fieldReset .. => some ⟨[.regs, .field, .obs], [each Reg.FLD_P_CTRL 16], []⟩
  | .dutyBinStart => some ⟨[.regs, .field] ++ passing, [one Reg.FLD_DUTY_STATUS, one Reg.FLD_SYN_STATUS], [ringBytes]⟩
  | .matrixRetry .. => some ⟨[.regs, .field, .rxe] ++ passing, [each Reg.FLD_COUPLE 256, each Reg.FLD_P_NEIGH 16, one Reg.FLD_SYN_STATUS,
      one Reg.FLD_WARMUP_STATUS], [ringBytes]⟩
  | .huddleWrite .. => some ⟨[.regs, .field, .obs], [each Reg.FLD_P_HUDDLE 16, each Reg.PRO_P_MODE_STATUS 16], []⟩
  | .huddleSlotStart .. => some ⟨[.regs, .field, .pro, .sess, .overflow, .acd, .quar, .free] ++ passing, [one Reg.FLD_SYN_STATUS],
      [ringBytes]⟩
  | .frameStart .. => some ⟨[.regs, .que, .field, .rxe, .pro, .sess, .overflow, .acd, .quar, .cox, .free] ++ passing, [one Reg.COX_COUNTS,
      one Reg.FLD_SYN_STATUS, each Reg.RXE_P_AFC 16] ++ exchangeRegs, [ringBytes]⟩
  | .frameTxEnd .. => some ⟨endingParts, [one Reg.ACD_COUNTS, each Reg.ACD_P_LAST_POLL 16, each Reg.RXE_P_CANCEL_STATUS 16,
      each Reg.RXE_P_FRONT 16] ++ endingRegs, [ringBytes, tableBytes]⟩
  | .warmupStepStart .. => some ⟨[.field], [], []⟩
  | .warmupStepDone .. => some ⟨[.regs, .field, .rxe] ++ passing, [each Reg.FLD_COUPLE 256, each Reg.FLD_P_NEIGH 16], [ringBytes]⟩
  | .fldWarmLate .. => some ⟨[.regs, .obs], [one Reg.FLD_WARMUP_STATUS], []⟩
  | .dutyCutDeadline .. => some ⟨endingParts, [each Reg.RXE_P_COUNTS 16] ++ endingRegs ++ lastRegs, [ringBytes, tableBytes]⟩
  | _ => none

/-- What the commands of the tuner and the sniff sequencer may change at most; `none` for the others. -/
def touchTuner : Instr → Option Scope
  | .vectorMeasurement .. => some ⟨[.regs, .field, .tun, .free] ++ passing, [one Reg.TUN_MISMATCH_STATUS, each Reg.TUN_P_REF 16,
      each Reg.TUN_P_STATUS 16, each Reg.TUN_P_VEC 16], [ringBytes]⟩
  | .captureRef .. => some ⟨[.tun, .obs], [], []⟩
  | .retune .. => some ⟨[.regs, .field, .tun, .obs], [each Reg.TUN_P_STATUS 16], []⟩
  | .measure .. => some ⟨[.tun], [], []⟩
  | .searchMeasurement .. => some ⟨[.regs, .field, .tun, .free] ++ passing, [one Reg.TUN_MISMATCH_STATUS, each Reg.TUN_P_CODE 16,
      each Reg.TUN_P_REF 16, each Reg.TUN_P_STATUS 16, each Reg.TUN_P_VEC 16], [ringBytes]⟩
  | .tunerCodeWrite .. => some ⟨[.regs, .field, .tun, .obs], [each Reg.TUN_P_CODE 16, each Reg.TUN_P_STATUS 16], []⟩
  | .tunerFrameDone .. => some ⟨[.regs, .field, .tun] ++ passing, [one Reg.TUN_LINK_STATUS], [ringBytes]⟩
  | .tunerSettleExpiry .. => some ⟨[.field, .tun, .rxe] ++ passing, [], [ringBytes]⟩
  | .sniffRoundStart => some ⟨[.regs, .field, .tun, .free] ++ passing, [one Reg.FLD_SYN_STATUS, one Reg.TUN_SNIFF_STATUS], [ringBytes]⟩
  | .sniffPing .. | .sniffConfirmPing .. => some ⟨wakingParts, [each Reg.FLD_P_HUDDLE 16, one Reg.FLD_SYN_STATUS, one Reg.GEN_IRQ_STATUS,
      one Reg.GEN_TEST_CTRL, one Reg.GEN_TEST_LANE, each Reg.PRO_P_MODE_STATUS 16, each Reg.PRO_P_ROLE 16, one Reg.PWR_CLK_STATUS,
      one Reg.PWR_WAKE_STATUS, each Reg.RXE_P_CANCEL_STATUS 16, each Reg.RXE_P_COUNTS 16, each Reg.RXE_P_FRONT 16, one Reg.STO_HSTATUS,
      one Reg.TMR_SLEEP_LAST, each Reg.TUN_P_SNIFF_BASE 16, each Reg.TUN_P_SNIFF_LAST 16, one Reg.TUN_SNIFF_STATUS] ++ endingRegs ++
      lastRegs, [ringBytes, tableBytes]⟩
  | _ => none

/-- What the commands of the receivers may change at most; `none` for the others. -/
def touchReceiver : Instr → Option Scope
  | .preambleDetected .. => some ⟨[.regs, .rxe, .acd], [each Reg.RXE_P_AFC 16], []⟩
  | .sofDetected .. => some ⟨[.regs, .que, .rxe, .pro, .acd, .obs], [each Reg.RXE_P_AFC 16, each Reg.RXE_P_COUNTS 16] ++ lastRegs ++
      exchangeRegs, []⟩
  | .sofWindowExpiry .. => some ⟨[.regs, .rxe] ++ passing, [each Reg.RXE_P_COUNTS 16], [ringBytes]⟩
  | .energyStep .. => some ⟨[.regs, .que, .rxe, .pro, .obs], [each Reg.RXE_P_COUNTS 16] ++ lastRegs ++ exchangeRegs, []⟩
  | .afcRange .. => some ⟨[.regs, .que, .rxe, .pro, .acd, .obs], lastRegs ++ exchangeRegs, []⟩
  | .frameEnd .. => some ⟨[.free] ++ endingParts, [each Reg.RXE_P_CANCEL_STATUS 16, each Reg.RXE_P_FRONT 16] ++ endingRegs ++ lastRegs,
      [ringBytes, tableBytes]⟩
  | .rxWindowLimit .. => some ⟨endingParts, [each Reg.RXE_P_COUNTS 16] ++ endingRegs ++ lastRegs, [ringBytes, tableBytes]⟩
  | .noiseWindowDone .. => some ⟨[.regs, .rxe, .acd] ++ passing, [each Reg.ACD_P_NOISE4 16, each Reg.RXE_P_NOISE 16,
      each Reg.RXE_P_NOISE_EXT 16], [ringBytes]⟩
  | .clrCounts .. => some ⟨[.regs], [each Reg.RXE_P_COUNTS 16], []⟩
  | .clrNoise .. => some ⟨[.regs], [each Reg.ACD_P_NOISE4 16, each Reg.RXE_P_NOISE 16, each Reg.RXE_P_NOISE_EXT 16], []⟩
  | _ => none

/-- What the commands of the frame queues and the protocol engine may change at most; `none` for the others. -/
def touchProtocol : Instr → Option Scope
  | .txPush .. | .flushTx .. => some ⟨[.regs, .que, .hif, .pro, .free, .obs], exchangeRegs ++ queueRegs, []⟩
  | .rxPop .. => some ⟨[.regs, .que, .hif, .obs], [each Reg.QUE_P_RX_TAG 16, each Reg.QUE_P_WM_STATUS 16] ++ queueRegs, []⟩
  | .flushRx .. | .completionPush .. => some ⟨[.que, .pro, .obs], [], []⟩
  | .descriptorTake .. | .proHoldExpired .. => some ⟨[.regs, .que, .hif, .field, .pro, .free] ++ passing, [one Reg.FLD_SYN_STATUS] ++
      exchangeRegs ++ queueRegs, [ringBytes]⟩
  | .endHold .. => some ⟨[.pro], [], []⟩
  | .rfcaExpiry .. | .pollWaitExpiry .. | .overflowEntryDue .. => some ⟨[.regs, .field, .pro] ++ passing, [one Reg.FLD_SYN_STATUS],
      [ringBytes]⟩
  | .externalFieldChange .. => some ⟨[.regs, .que, .hif, .field, .pro, .emu, .free, .obs], [one Reg.FLD_SYN_STATUS] ++ exchangeRegs ++
      queueRegs, []⟩
  | .responseRfcaExpiry .. => some ⟨[.regs, .que, .field, .rxe, .pro, .free] ++ passing, [one Reg.FLD_SYN_STATUS, each Reg.RXE_P_AFC 16]
      ++ exchangeRegs, [ringBytes]⟩
  | .arfgExpiry .. => some ⟨[.pro] ++ passing, [], [ringBytes]⟩
  | .pollEntryStart .. => some ⟨[.regs, .field, .pro, .sess, .acd, .quar, .obs], [one Reg.ACD_COUNTS, one Reg.FLD_SYN_STATUS,
      one Reg.SAF_NDF], []⟩
  | .presenceCheckDue .. => some ⟨passing, [], [ringBytes]⟩
  | .sessClose .. => some ⟨[.pro, .sess, .acd, .quar, .obs], [], []⟩
  | .roleWrite .. => some ⟨[.regs, .obs], [each Reg.FLD_P_HUDDLE 16, each Reg.PRO_P_MODE_STATUS 16, each Reg.PRO_P_ROLE 16], []⟩
  | .roleChangeApply .. => some ⟨[.regs, .que, .field, .tun, .rxe, .pro, .sess, .acd, .quar, .emu, .cox, .free, .obs],
      [one Reg.FLD_SYN_STATUS, each Reg.PRO_P_MODE_STATUS 16, each Reg.RXE_P_AFC 16, each Reg.RXE_P_CANCEL_STATUS 16,
      each Reg.RXE_P_FRONT 16, each Reg.TUN_P_CODE 16, each Reg.TUN_P_STATUS 16] ++ exchangeRegs, []⟩
  | _ => none

/-- What the commands of Accord and the quarantine may change at most; `none` for the others. -/
def touchAccord : Instr → Option Scope
  | .accordDetectDeadline .. => some ⟨[.regs, .field, .rxe, .acd] ++ passing, [each Reg.RXE_P_AFC 16, each Reg.RXE_P_COUNTS 16],
      [ringBytes]⟩
  | .accordOrderPoint .. => some ⟨[.acd] ++ passing, [], [ringBytes]⟩
  | .accordWindowClose .. => some ⟨[.regs, .field, .rxe, .acd, .obs], [each Reg.RXE_P_AFC 16, each Reg.RXE_P_COUNTS 16], []⟩
  | .accordStagesDone .. => some ⟨[.free] ++ endingParts, [each (fun n => Reg.ACD_P_CH_STAT0 n 0) 16, each (fun n => Reg.ACD_P_CH_STAT0 n
      1) 16, each (fun n => Reg.ACD_P_CH_STAT0 n 2) 16, each (fun n => Reg.ACD_P_CH_STAT0 n 3) 16, each (fun n => Reg.ACD_P_CH_STAT0 n
      4) 16, each (fun n => Reg.ACD_P_CH_STAT0 n 5) 16, each (fun n => Reg.ACD_P_CH_STAT0 n 6) 16, each (fun n => Reg.ACD_P_CH_STAT0 n
      7) 16, each (fun n => Reg.ACD_P_CH_STAT1 n 0) 16, each (fun n => Reg.ACD_P_CH_STAT1 n 1) 16, each (fun n => Reg.ACD_P_CH_STAT1 n
      2) 16, each (fun n => Reg.ACD_P_CH_STAT1 n 3) 16, each (fun n => Reg.ACD_P_CH_STAT1 n 4) 16, each (fun n => Reg.ACD_P_CH_STAT1 n
      5) 16, each (fun n => Reg.ACD_P_CH_STAT1 n 6) 16, each (fun n => Reg.ACD_P_CH_STAT1 n 7) 16, each Reg.ACD_P_LAST_POLL 16] ++
      endingRegs ++ lastRegs, [ringBytes, tableBytes]⟩
  | .quarantineExpiry .. => some ⟨[.quar] ++ passing, [], [ringBytes]⟩
  | _ => none

/-- What the commands of the store port and the keeper may change at most; `none` for the others. -/
def touchKeeper : Instr → Option Scope
  | .storeOpStart => some ⟨[.regs, .sess, .quar, .kpr, .sto, .saf] ++ passing, [one Reg.STO_HSTATUS] ++ decisionRegs, [ringBytes,
      tableBytes]⟩
  | .storeStatusPoll .. => some ⟨[.sto] ++ passing, [], [ringBytes]⟩
  | .storePageReadDone .. => some ⟨[.regs, .sess, .quar, .kpr, .sto, .saf] ++ passing, [one Reg.STO_COUNTS, one Reg.STO_HSTATUS,
      one Reg.STO_SPILL, one Reg.STO_SPILL_SEQ] ++ decisionRegs, [ringBytes, tableBytes]⟩
  | .storeProgramDone .. => some ⟨[.regs, .sto] ++ passing, [one Reg.STO_GROWN, one Reg.STO_HSTATUS, each Reg.STO_PAGES 3,
      one Reg.STO_SPILL, one Reg.STO_SPILL_SEQ], [ringBytes]⟩
  | .storeEraseDone .. => some ⟨[.regs, .sto] ++ passing, [one Reg.STO_GROWN, one Reg.STO_HSTATUS, each Reg.STO_PAGES 3,
      one Reg.STO_SPILL], [ringBytes]⟩
  | .stoTimeout .. => some ⟨[.regs, .gen, .pwr, .field, .rxe, .pro, .sess, .sto, .emu, .cox, .free] ++ passing,
      [each Reg.RXE_P_CANCEL_STATUS 16, each Reg.RXE_P_FRONT 16, one Reg.STO_HSTATUS, one Reg.STO_STATUS] ++ phaseRegs, [ringBytes]⟩
  | .storeReinitRetry .. => some ⟨[.regs, .sto] ++ passing, [one Reg.STO_GROWN, each Reg.STO_PAGES 3, one Reg.STO_STATUS], [ringBytes]⟩
  | .stoRead .. | .stoProgram .. | .stoErase .. => some ⟨[.regs, .sto, .obs], [one Reg.STO_HSTATUS], []⟩
  | .kprCommit => some ⟨[.regs, .cfg, .kpr, .obs], authRegs, []⟩
  | .commitNvDone .. => some ⟨[.regs, .cfg, .kpr, .obs], [each Reg.KPR_BANK_ENTRIES 2, each Reg.KPR_BANK_PAGES 2, each Reg.KPR_BANK_TOTAL
      2, each Reg.KPR_BANK_VER 2, one Reg.KPR_STATUS], []⟩
  | .recentSweepTick => some ⟨[.kpr] ++ passing, [], [ringBytes, tableBytes]⟩
  | .goPulseEnd .. | .alertPulseEnd .. => some ⟨[.kpr] ++ passing, [], [ringBytes]⟩
  | _ => none

/-- What the commands of the emulated tag may change at most; `none` for the others. -/
def touchTag : Instr → Option Scope
  | .emuReqa | .emuWupa | .readCtr .. | .emuHlta | .emuAccBench .. | .emuAccRelease | .emuAccEnrol | .emuOtherFrame .. | .sync | .ctrInc
      .. | .harvestPowerLoss => some ⟨[.emu, .free], [], []⟩
  | .emuSelect .. => some ⟨[.regs, .emu, .free], [one Reg.EMU_COUNTS], []⟩
  | .emuRead .. => some ⟨[.regs, .emu, .free, .obs], [one Reg.EMU_COUNTS], []⟩
  | .emuFieldLossTimeout | .emuBenchEnd => some ⟨[.emu, .free] ++ passing, [], [ringBytes]⟩
  | .emuDataWrite .. => some ⟨[.emu], [], []⟩
  | .emuBusy => some ⟨[.regs, .emu] ++ passing, [one Reg.EMU_STATUS], [ringBytes]⟩
  | .wireLockWrite .. => some ⟨[.regs, .emu, .free, .obs], [one Reg.EMU_WIRE], []⟩
  | .emuSyncDone .. => some ⟨[.regs, .emu, .free, .obs], [one Reg.EMU_STATUS], []⟩
  | .counterUpdate .. => some ⟨[.regs, .emu, .free] ++ passing, [each Reg.EMU_CTR 8, one Reg.EMU_CTR_STATUS], [ringBytes]⟩
  | .harvestPowerUp .. => some ⟨[.regs, .emu, .free, .obs], [each Reg.EMU_CTR 8, one Reg.EMU_CTR_STATUS], []⟩
  | _ => none

/-- What the commands of coexistence may change at most; `none` for the others. -/
def touchCoex : Instr → Option Scope
  | .grantChange .. => some ⟨[.free] ++ endingParts, [one Reg.COX_COUNTS, one Reg.FLD_SYN_STATUS, each Reg.RXE_P_COUNTS 16] ++ endingRegs
      ++ lastRegs, [ringBytes, tableBytes]⟩
  | .grantWaitExpiry .. => some ⟨[.regs, .que, .field, .rxe, .pro, .sess, .cox, .free] ++ passing, [one Reg.COX_COUNTS,
      each Reg.RXE_P_AFC 16] ++ exchangeRegs, [ringBytes]⟩
  | .retryExpiry .. | .blankTailExpiry .. => some ⟨[.regs, .que, .field, .rxe, .pro, .sess, .cox, .free] ++ passing, [one Reg.COX_COUNTS,
      one Reg.FLD_SYN_STATUS, each Reg.RXE_P_AFC 16] ++ exchangeRegs, [ringBytes]⟩
  | .blankChange .. => some ⟨[.field, .rxe, .cox, .free] ++ passing, [], [ringBytes]⟩
  | .coxBlankStuck .. => some ⟨[.field, .cox] ++ passing, [], [ringBytes]⟩
  | .coxRegLower => some ⟨[.regs, .cfg, .cox, .obs], [one Reg.COX_REG_STATUS] ++ authRegs, []⟩
  | .regLowerNvDone .. => some ⟨[.regs, .cfg, .field, .pro, .cox, .obs], [each Reg.COX_REG_CEIL 16, one Reg.COX_REG_GLOBAL,
      one Reg.COX_REG_STATUS, one Reg.COX_REG_TRIM, one Reg.FLD_DUTY, one Reg.FLD_FC_TRIM, one Reg.FLD_GUARD, each Reg.FLD_P_AMPL 16,
      each Reg.FLD_P_HUDDLE 16, each Reg.FLD_P_RELAY 16, one Reg.FLD_SYN_STATUS, each Reg.PRO_P_MODE_STATUS 16, each Reg.TUN_P_SNIFF 16]
      ++ experts, []⟩
  | _ => none

/-- What the commands of the safety monitors may change at most; `none` for the others. -/
def touchMonitor : Instr → Option Scope
  | .fieldCeilingFault .. | .fieldOffFault .. | .heartbeatTimeout .. | .monClkWindow .. | .overtempFault .. | .safInject .. => some
      ⟨[.regs, .saf] ++ passing, [one Reg.SAF_INJ_STATUS] ++ faultRegs, [ringBytes]⟩
  | .laneReadbackFault .. => some ⟨[.regs, .saf, .pins] ++ passing, [one Reg.SAF_INJ_STATUS] ++ faultRegs, [ringBytes]⟩
  | .clkMonWindow .. => some ⟨[.regs, .saf] ++ passing, [one Reg.SAF_CLKMON, one Reg.SAF_INJ_STATUS] ++ faultRegs, [ringBytes]⟩
  | .heartbeatToggle => some ⟨[.saf] ++ passing, [], [ringBytes]⟩
  | .stopN .. => some ⟨[.regs, .saf] ++ passing, faultRegs, [ringBytes]⟩
  | .coreSeesSafeState .. => some ⟨[.gen, .pwr, .tun, .emu, .free] ++ endingParts, [one Reg.GEN_IRQ_STATUS, one Reg.GEN_TEST_CTRL,
      one Reg.GEN_TEST_LANE, each Reg.RXE_P_CANCEL_STATUS 16, each Reg.RXE_P_COUNTS 16, each Reg.RXE_P_FRONT 16, one Reg.STO_HSTATUS] ++
      endingRegs ++ lastRegs, [ringBytes, tableBytes]⟩
  | .safTestEnter => some ⟨[.regs, .gen, .pwr, .cfg, .field, .rxe, .pro, .sess, .kpr, .emu, .cox, .free, .obs], [one Reg.CFG_AUTH_STATUS,
      each Reg.RXE_P_CANCEL_STATUS 16, each Reg.RXE_P_FRONT 16] ++ phaseRegs, []⟩
  | _ => none

/-- What the commands of the recorder, the event queue, the timers, the check values and the trace port may change at most; `none` for the others. -/
def touchRecords : Instr → Option Scope
  | .ringWrite .. => some ⟨[.sram, .free, .obs], [], [ringBytes]⟩
  | .freezeWrite .. => some ⟨[.regs, .obs], [one Reg.SIL_FREEZE], []⟩
  | .silFreezeExpired => some ⟨[.regs] ++ passing, [one Reg.SIL_FREEZE], [ringBytes]⟩
  | .clearPassDone | .ringInitDone | .capture .. | .evqIntakeMove | .snap | .release | .clear => some ⟨[.obs], [], []⟩
  | .spillFlushExpiry | .rateWindowEnd .. | .evqAgeTick | .traceSyncTimer | .traceLevelTimer => some ⟨passing, [], [ringBytes]⟩
  | .timerTick .. => some ⟨[.regs, .tmr, .field, .tun, .sto, .free] ++ passing, [one Reg.FLD_SYN_STATUS, one Reg.STO_HSTATUS,
      one Reg.TMR_TRIG_STATUS, each Reg.TMR_T_CMP0 8, each Reg.TMR_T_CMP1 8, each Reg.TMR_T_COUNT 8, each Reg.TMR_T_CTRL 8,
      each Reg.TMR_T_STATUS 8], [ringBytes]⟩
  | .captRead .. | .cntLoRead .. => some ⟨[.hif, .obs], [], []⟩
  | .timerGroup .. => some ⟨[.regs, .tmr], [each Reg.TMR_T_CTRL 8], []⟩
  | .wallSet => some ⟨[.regs, .cfg, .kpr, .obs], [one Reg.KPR_STATUS, one Reg.TMR_WALL_STATUS, one Reg.TMR_WT_OFS_HI,
      one Reg.TMR_WT_OFS_LO] ++ authRegs, []⟩
  | .slowRateMeasurement .. => some ⟨[.regs, .obs], [one Reg.TMR_SLOW_RATE], []⟩
  | .evqPop0 .. => some ⟨[.regs, .hif, .obs], [one Reg.QUE_EVQ_TAG, one Reg.QUE_POISONS], []⟩
  | .start .. | .rangeGo .. => some ⟨[.regs, .crc, .obs], [each Reg.CRC_CH_STATUS 4], []⟩
  | .data8 .. | .data16 .. | .data32 .. => some ⟨[.crc, .obs], [], []⟩
  | .crcRangeDone .. => some ⟨[.crc] ++ passing, [], [ringBytes]⟩
  | .traceCtrlWrite .. => some ⟨[.regs, .obs], [one Reg.TRC_TRACE_CTRL], []⟩
  | .ctxLowRead .. => some ⟨[.hif], [], []⟩
  | _ => none

/-- What the commands of power may change at most; `none` for the others. -/
def touchPower : Instr → Option Scope
  | .sleepRequest | .sniffRequest => some ⟨[.pwr, .obs], [], []⟩
  | .cancelRequest => some ⟨[.pwr], [], []⟩
  | .autoIdleExpiry => some ⟨[.pwr] ++ passing, [], [ringBytes]⟩
  | .pwrSleep => some ⟨[.regs, .pwr, .field] ++ passing, [one Reg.FLD_SYN_STATUS, one Reg.PWR_CLK_STATUS], [ringBytes]⟩
  | .hostWake => some ⟨[.pins] ++ wakingParts, [one Reg.FLD_SYN_STATUS, one Reg.GEN_IRQ_STATUS, one Reg.GEN_TEST_CTRL,
      one Reg.GEN_TEST_LANE, one Reg.PWR_CLK_STATUS, one Reg.PWR_WAKE_STATUS, each Reg.RXE_P_CANCEL_STATUS 16, each Reg.RXE_P_COUNTS 16,
      each Reg.RXE_P_FRONT 16, one Reg.STO_HSTATUS, one Reg.TMR_SLEEP_LAST] ++ endingRegs ++ lastRegs, [ringBytes, tableBytes]⟩
  | .wakeTimerExpiry => some ⟨wakingParts, [one Reg.FLD_SYN_STATUS, one Reg.GEN_IRQ_STATUS, one Reg.GEN_TEST_CTRL, one Reg.GEN_TEST_LANE,
      one Reg.PWR_CLK_STATUS, one Reg.PWR_WAKE_STATUS, each Reg.RXE_P_CANCEL_STATUS 16, each Reg.RXE_P_COUNTS 16, each Reg.RXE_P_FRONT 16,
      one Reg.STO_HSTATUS, one Reg.TMR_SLEEP_LAST] ++ endingRegs ++ lastRegs, [ringBytes, tableBytes]⟩
  | .pwrVddtxLow .. => some ⟨[.free] ++ endingParts, [one Reg.FLD_SYN_STATUS, one Reg.PWR_SUPPLY, each Reg.RXE_P_CANCEL_STATUS 16,
      each Reg.RXE_P_COUNTS 16, each Reg.RXE_P_FRONT 16] ++ endingRegs ++ lastRegs, [ringBytes, tableBytes]⟩
  | .vddtxRestored .. => some ⟨[.regs], [one Reg.PWR_SUPPLY], []⟩
  | .slowXtalSwitch => some ⟨[.regs] ++ passing, [one Reg.PWR_CLK_STATUS], [ringBytes]⟩
  | .pwrSlowFail => some ⟨[.regs, .pwr, .obs], [one Reg.PWR_CLK_STATUS, one Reg.TMR_SLOW_RATE], []⟩
  | _ => none

/-- The commands of the blocks that neither SAFE BOOT nor a stopped CLK_CORE leaves running (R503, R517, R571). -/
def needsCore : Instr → Bool
  | .recoveryComplete | .rlimitExpiry | .roleWrite .. | .roleChangeApply .. | .huddleWrite .. | .fcTrimWrite .. | .synthLocked |
    .synthLockLost | .synthIdleStop | .phaseAmplWrite .. | .phaseAmplApply .. | .compensationUpdate .. | .fieldOnRampStart .. |
    .relayBiasExpiry .. | .fieldOnRampEnd .. | .guardExpiry .. | .fieldOffRampEnd .. | .relayBiasOffExpiry .. | .fieldReset .. |
    .resetOffExpiry .. | .dutyBinStart | .matrixRetry .. | .neighbourSetChange .. | .fldStarve .. | .huddleSlotStart .. | .frameStart .. |
    .frameTxEnd .. | .warmupStepStart .. | .warmupStepDone .. | .fldWarmLate .. | .vectorMeasurement .. | .captureRef .. | .retune .. |
    .measure .. | .searchMeasurement .. | .tunerCodeWrite .. | .tunerFrameDone .. | .tunerSettleExpiry .. | .preambleDetected .. |
    .sofDetected .. | .sofWindowExpiry .. | .energyStep .. | .afcRange .. | .frameEnd .. | .rxWindowLimit .. | .noiseWindowDone .. |
    .clrCounts .. | .clrNoise .. | .descriptorTake .. | .completionPush .. | .flushTx .. | .endHold .. | .proHoldExpired .. | .rfcaExpiry
    .. | .externalFieldChange .. | .responseRfcaExpiry .. | .arfgExpiry .. | .pollEntryStart .. | .pollWaitExpiry .. | .presenceCheckDue
    .. | .sessClose .. | .overflowEntryDue .. | .accordDetectDeadline .. | .accordOrderPoint .. | .accordWindowClose .. |
    .accordStagesDone .. | .quarantineExpiry .. | .storeOpStart | .storeStatusPoll .. | .storePageReadDone .. | .storeProgramDone .. |
    .storeEraseDone .. | .stoTimeout .. | .storeReinitRetry .. | .stoRead .. | .stoProgram .. | .stoErase .. | .kprCommit | .commitNvDone
    .. | .invalidationPassDone | .recentSweepTick | .goPulseEnd .. | .alertPulseEnd .. | .emuFieldLossTimeout | .emuDataWrite .. |
    .emuBusy | .wireLockWrite .. | .sync | .emuSyncDone .. | .ctrInc .. | .grantWaitExpiry .. | .retryExpiry .. | .blankTailExpiry .. |
    .coxBlankStuck .. | .coxRegLower | .regLowerNvDone .. | .heartbeatToggle | .monClkWindow .. | .coreSeesSafeState .. | .safInject .. |
    .safTestEnter | .timerTick .. | .capture .. | .captRead .. | .timerGroup .. | .wallSet | .slowRateMeasurement .. | .start .. | .data8
    .. | .data16 .. | .data32 .. | .rangeGo .. | .crcRangeDone .. | .cfgRollback | .rollbackCheckDone .. | .cfgKeyRotate .. |
    .authCounterNvDone .. | .sleepRequest | .sniffRequest | .cancelRequest | .autoIdleExpiry | .pwrSleep | .dutyCutDeadline .. |
    .transmitChainBiased .. => true
  | _ => false

/-- The commands of GEN, HIF, CFG, SIL, QUE and TRC, which work in SAFE BOOT as well but need CLK_CORE (R517). -/
def needsClock : Instr → Bool
  | .resetCmd .. | .phaseReqRecovery .. | .phaseReqRun .. | .lockSet .. | .hifStall .. | .hirqReedgeEnd | .txPush .. | .rxPop .. |
    .flushRx .. | .ringWrite .. | .freezeWrite .. | .silFreezeExpired | .silClear | .clearPassDone | .ringInitDone | .spillFlushExpiry |
    .rateWindowEnd .. | .evqIntakeMove | .evqPop0 .. | .evqAgeTick | .bootRead | .bootProgram | .bootErase | .bootOpDone .. |
    .traceCtrlWrite .. | .traceSyncTimer | .traceLevelTimer | .snap | .release | .clear | .cntLoRead .. | .ctxLowRead .. => true
  | _ => false

end Sys2Proof.Machine
end

