-- ==== Sys2Proof/Certificates/Slice0/Obligations.lean ====
section
/-! DEFINITION. The statements for the provers: the step and the queue, what each command may change at most, and what each command does
where its block runs, by the rules of the spec. -/

section

open Sys2Proof Sys2Proof.Machine

/-- A step takes the command at the front of the queue and runs it with the queue's rest. -/
def Obligations.StepRunsTheFront : Prop :=
  ∀ (c : Instr) (l : List Instr) (s : State), step { s with pending := c :: l } = exec c { s with pending := l }

/-- Every command answers a next state, its own effect closed, and leaves the queue of the waiting commands as it was. -/
def Obligations.EveryCommandGoesOn : Prop :=
  ∀ (c : Instr) (s : State), Does c s fun t => t.pending = s.pending

/-- R458, and log entry 2: with nothing waiting a cycle of CLK_CORE passes, in which the recorder and the trace port may act and nothing
else does; in reset time stands still. The step with nothing to do is the model's choice. -/
def Obligations.IdleStepPassesACycle : Prop :=
  (∀ s : State, s.pending = [] → s.pwr.awake ≠ .reset → ∃ t, step s = .next (finish s t) ∧ Passes (s.time + cycle) [] s t) ∧
  (∀ s : State, s.pending = [] → s.pwr.awake = .reset → step s = .next s)

/-- Every step goes on, and keeps the sparse memories and tables in canonical form and the queues within the sizes of R444, R449, R480, R488
and R490. -/
def Obligations.StepKeepsSound : Prop :=
  ∀ s : State, Sound s → ∃ t, step s = .next t ∧ Sound t

/-- The state after reset has its sparse memories in canonical form and its queues within their sizes. -/
def Obligations.ResetIsSound : Prop := Sound State.reset

/-- R503, R517, R566, R571, R411: while CLK_CORE is stopped, or in SAFE BOOT, a command of a block that then does not run changes nothing;
one of GEN, HIF, CFG, SIL, QUE or TRC changes nothing while CLK_CORE is stopped; one about the SLOW crystal changes nothing where the device
is neither live nor asleep, or in SAFE BOOT. -/
def Obligations.StoppedBlocksDoNothing : Prop :=
  (∀ (c : Instr) (s : State), needsCore c = true → ¬ Running s → exec c s = .next (finish s s)) ∧
  (∀ (c : Instr) (s : State), needsClock c = true → ¬ Clocked s → exec c s = .next (finish s s)) ∧
  (∀ s : State, (s.live = false ∧ s.asleep = false) ∨ s.gen.safeBoot = true →
    exec .slowXtalSwitch s = .next (finish s s) ∧ exec .pwrSlowFail s = .next (finish s s))

/-- What each command of the host port, the phases, the locks, the boot memory and the AUTH commands changes at most. -/
def Obligations.HostCommandsFrame : Prop :=
  ∀ (c : Instr) (s : State) (k : Scope), touchHost c = some k → Does c s (Within k s)

/-- What each command of the field engine changes at most. -/
def Obligations.FieldCommandsFrame : Prop :=
  ∀ (c : Instr) (s : State) (k : Scope), touchField c = some k → Does c s (Within k s)

/-- What each command of the tuner and the sniff sequencer changes at most. -/
def Obligations.TunerCommandsFrame : Prop :=
  ∀ (c : Instr) (s : State) (k : Scope), touchTuner c = some k → Does c s (Within k s)

/-- What each command of the receivers changes at most. -/
def Obligations.ReceiverCommandsFrame : Prop :=
  ∀ (c : Instr) (s : State) (k : Scope), touchReceiver c = some k → Does c s (Within k s)

/-- What each command of the frame queues and the protocol engine changes at most. -/
def Obligations.ProtocolCommandsFrame : Prop :=
  ∀ (c : Instr) (s : State) (k : Scope), touchProtocol c = some k → Does c s (Within k s)

/-- What each command of Accord and the quarantine changes at most. -/
def Obligations.AccordCommandsFrame : Prop :=
  ∀ (c : Instr) (s : State) (k : Scope), touchAccord c = some k → Does c s (Within k s)

/-- What each command of the store port and the keeper changes at most. -/
def Obligations.KeeperCommandsFrame : Prop :=
  ∀ (c : Instr) (s : State) (k : Scope), touchKeeper c = some k → Does c s (Within k s)

/-- What each command of the emulated tag changes at most. -/
def Obligations.TagCommandsFrame : Prop :=
  ∀ (c : Instr) (s : State) (k : Scope), touchTag c = some k → Does c s (Within k s)

/-- What each command of coexistence changes at most. -/
def Obligations.CoexCommandsFrame : Prop :=
  ∀ (c : Instr) (s : State) (k : Scope), touchCoex c = some k → Does c s (Within k s)

/-- What each command of the safety monitors changes at most. -/
def Obligations.MonitorCommandsFrame : Prop :=
  ∀ (c : Instr) (s : State) (k : Scope), touchMonitor c = some k → Does c s (Within k s)

/-- What each command of the recorder, the event queue, the timers, the check values and the trace port changes at most. -/
def Obligations.RecordCommandsFrame : Prop :=
  ∀ (c : Instr) (s : State) (k : Scope), touchRecords c = some k → Does c s (Within k s)

/-- What each command of power changes at most. -/
def Obligations.PowerCommandsFrame : Prop :=
  ∀ (c : Instr) (s : State) (k : Scope), touchPower c = some k → Does c s (Within k s)

/-- Closing a command changes nothing but what the device records and reports about itself: the intakes, the event queue's entries, the
trace buffer, the interrupt line and the times of `obs`. -/
def Obligations.ClosingReportsOnly : Prop :=
  ∀ s t : State, Keeps [.obs] t (finish s t)

/-- R329, R330: GO_MS and ALERT_MS after its start a pulse ends; the other pulses go on. -/
def Obligations.LanePulsesEnd : Prop :=
  (∀ (s : State) (lane : Lane) (e : Nat), Running s → (s.lane lane).goEnd = some e →
    Does (.goPulseEnd lane) s fun t =>
      t.lane lane = { s.lane lane with goEnd := none } ∧ LaneOf lane s t ∧ Passes e [.kpr] s t) ∧
  (∀ (s : State) (lane : Lane) (e : Nat), Running s → (s.lane lane).alertEnd = some e →
    Does (.alertPulseEnd lane) s fun t =>
      t.lane lane = { s.lane lane with alertEnd := none } ∧ LaneOf lane s t ∧ Passes e [.kpr] s t)

/-- R305-R307: a KPR_COMMIT that passes the checks of R306 is accepted, and its values are on their way to NV; one that does not is refused.
Once the write verifies, the registers of the bank hold the new values, the bank is the active one and every verdict of the recent table is
being cleared (R314); a write that does not verify leaves the roster as it was. -/
def Obligations.RosterCommit : Prop :=
  (∀ (s : State) (p : List Byte), Running s → s.authActs 3 = some p → s.commitBad p = false →
    Does .kprCommit s fun t =>
      t.kpr = { s.kpr with commit := some (leAt p 0 1, commitVals p (s.geom.signature (leAt p 0 1))) } ∧
      AuthAccepted s t ∧ Posted 0xE005 .top ((s.cfg.auth.map (·.counter)).getD 0) t ∧
      RegsBut [Reg.CFG_AUTH_STATUS, Reg.GEN_IRQ_STATUS] s t ∧ Keeps [.regs, .kpr, .obs] s t) ∧
  (∀ (s : State) (p : List Byte), Running s → s.authActs 3 = some p → s.commitBad p = true →
    Does .kprCommit s fun t =>
      AuthRefused s t ∧ Posted 0x7006 .heart 0 t ∧
      RegsBut [Reg.CFG_AUTH_STATUS, Reg.GEN_IRQ_STATUS] s t ∧ Keeps [.regs, .cfg, .obs] s t) ∧
  (∀ (s : State) (b : Nat) (v : BankVals), Running s → s.kpr.commit = some (b, v) → b < 2 →
    Does (.commitNvDone true) s fun t =>
      t.reg (Reg.KPR_BANK_VER b) = word v.ver ∧ t.reg (Reg.KPR_BANK_PAGES b) = word v.p ∧ t.reg (Reg.KPR_BANK_TOTAL b) = word v.t ∧
      t.reg (Reg.KPR_BANK_ENTRIES b) = word v.entries ∧ t.fld Reg.KPR_STATUS Fld.KPR_STATUS_ACTIVE_BANK = b ∧
      t.kpr.nvActive = b ∧ t.kpr.nvBanks = s.kpr.nvBanks.set b v ∧ t.kpr.commit = none ∧ t.kpr.pass = some s.time ∧
      (∀ x ∈ t.kpr.slots, x.stale = true) ∧ t.cfg = { s.cfg with auth := none } ∧ Posted 0x7005 .top 0 t ∧
      RegsBut [Reg.KPR_BANK_VER b, Reg.KPR_BANK_PAGES b, Reg.KPR_BANK_TOTAL b, Reg.KPR_BANK_ENTRIES b, Reg.KPR_STATUS] s t ∧
      Keeps [.regs, .cfg, .kpr, .obs] s t) ∧
  (∀ (s : State) (b : Nat) (v : BankVals), Running s → s.kpr.commit = some (b, v) →
    Does (.commitNvDone false) s fun t =>
      t.kpr = { s.kpr with commit := none } ∧ t.cfg = { s.cfg with auth := none } ∧ Keeps [.cfg, .kpr] s t)

/-- R314: an invalidation pass takes one cycle for each of the 65,536 sets; at its end no way holds a verdict, and nothing else of the
recent table has changed. -/
def Obligations.InvalidationClearsVerdicts : Prop :=
  ∀ (s : State) (since : Nat), Sound s → Running s → s.kpr.pass = some since →
    Does .invalidationPassDone s fun t =>
      t.kpr = { s.kpr with pass := none } ∧ t.time = max s.time (since + 65536 * cycle) ∧
      (∀ a, 0x200000 ≤ a → a < 0x600000 → t.sramByte a = if a % 16 = 13 then s.sramByte a &&& 0xF8 else s.sramByte a) ∧
      (∀ a, a < 0x200000 ∨ (0x600000 ≤ a ∧ a < 0x780000) ∨ 0x880000 ≤ a → t.sramByte a = s.sramByte a) ∧
      Keeps [.time, .obs, .sram, .kpr] s t

/-- R310: on each microsecond the sweep visits the next way; a valid way that has not been seen for longer than COUNT_TTL is cleared. -/
def Obligations.RecentSweepAgesWays : Prop :=
  ∀ (s : State) (i : Nat), Running s → s.kpr.sweep = some i → i < 262144 → (s.gen.phase = .run ∨ s.gen.phase = .recovery ∨ s.gen.phase = .test) →
    Does .recentSweepTick s fun t =>
      t.kpr = { s.kpr with sweep := some ((i + 1) % 262144) } ∧ t.time = (s.time / usec + 1) * usec ∧
      (let u := s.advance ((s.time / usec + 1) * usec)
       let x := u.way (i / 4) (i % 4)
       (x.valid = true ∧ u.countTtl < u.age x → t.way (i / 4) (i % 4) = { x with valid := false }) ∧
       (¬ (x.valid = true ∧ u.countTtl < u.age x) → t.way (i / 4) (i % 4) = x)) ∧
      (∀ a, a < 0x780000 ∨ 0x880000 ≤ a → a < 0x200000 + i * 16 ∨ 0x200000 + i * 16 + 16 ≤ a → t.sramByte a = s.sramByte a) ∧
      Keeps [.time, .obs, .sram, .kpr] s t

/-- R147-R152, R156-R159: the receiver of a port outside Accord. A preamble of the technology's length and at least DET_MARGIN above the
floor takes an armed receiver to the wait for the start of frame, and shows the estimates of AFC; a weaker or shorter signal does nothing. A
start of frame within W_SOF, with the sync word where R172 gives one, takes the receiver on and notes its time; with an AFC offset beyond
±20 kHz it ends as R157 says. Without one the search ends at W_SOF, or when the late one comes: the receiver is armed again and the false
lock counted. A step of CAPTURE_DB in the energy while it waits arms it again. No other receiver changes. The lengths of a VHBR symbol and
of the NFC-V burst on two subcarriers are the model's choice (log entry 75). -/
def Obligations.ReceiverFollowsTheSignal : Prop :=
  (∀ (s : State) (p : Port) (power length more : Nat) (fofs : BitVec 12) (tofs codes : Byte), Running s → (s.pr p).tech ≠ 6 →
    (s.pr p).state = .armed → power + 4 * s.fld (Reg.RXE_P_CTRL p) Fld.RXE_P_CTRL_DET_MARGIN ≤ s.detectFloor p →
    preambleMin (s.pr p).tech (s.pr p).rate ≤ length →
    Does (.preambleDetected p power length more fofs tofs codes) s fun t =>
      t.pr p = { s.pr p with state := .sofWait, blanked := s.blankOn p, preEnd := s.time + s.fc more, refAt := s.time } ∧
      ((s.pr p).hasAfc = true →
        t.fld (Reg.RXE_P_AFC p) Fld.RXE_P_AFC_FOFS = fofs.toNat ∧ t.fld (Reg.RXE_P_AFC p) Fld.RXE_P_AFC_TOFS = tofs.toNat ∧
        t.fld (Reg.RXE_P_AFC p) Fld.RXE_P_AFC_FROZEN = 0) ∧
      ((s.pr p).hasAfc = false → t.reg (Reg.RXE_P_AFC p) = s.reg (Reg.RXE_P_AFC p)) ∧
      RegsBut [Reg.RXE_P_AFC p] s t ∧ RxeOf p s t ∧ Keeps [.regs, .rxe] s t) ∧
  (∀ (s : State) (p : Port) (power length more : Nat) (fofs : BitVec 12) (tofs codes : Byte), Running s →
    (s.detectFloor p < power + 4 * s.fld (Reg.RXE_P_CTRL p) Fld.RXE_P_CTRL_DET_MARGIN ∨ length < preambleMin (s.pr p).tech (s.pr p).rate) →
    Does (.preambleDetected p power length more fofs tofs codes) s fun t => t = s) ∧
  (∀ (s : State) (p : Port) (sof : List Bool) (sofT : Nat) (fofs : BitVec 12) (tofs codes : Byte), Running s → (s.pr p).tech ≠ 6 →
    (s.pr p).state = .sofWait → s.time ≤ s.sofEnd p → (sofWord (s.pr p).tech (s.pr p).rate).all (fun w => decide (sof = w)) = true →
    ((s.pr p).hasAfc = true → beyondAfc fofs = false) →
    Does (.sofDetected p sof sofT fofs tofs codes) s fun t =>
      (t.pr p).state = .frame ∧ (t.pr p).sofT = sofT ∧ (t.pr p).fofs = (if (s.pr p).hasAfc then fofs.toNat else 0) ∧
      ((s.pr p).hasAfc = true →
        t.fld (Reg.RXE_P_AFC p) Fld.RXE_P_AFC_FOFS = fofs.toNat ∧ t.fld (Reg.RXE_P_AFC p) Fld.RXE_P_AFC_TOFS = tofs.toNat ∧
        t.fld (Reg.RXE_P_AFC p) Fld.RXE_P_AFC_FROZEN = 1) ∧
      ((s.pr p).hasAfc = false → t.reg (Reg.RXE_P_AFC p) = s.reg (Reg.RXE_P_AFC p)) ∧
      RegsBut [Reg.RXE_P_AFC p] s t ∧ RxeOf p s t ∧ Keeps [.regs, .rxe] s t) ∧
  (∀ (s : State) (p : Port) (sof : List Bool) (sofT : Nat) (fofs : BitVec 12) (tofs codes : Byte), Running s → (s.pr p).tech ≠ 6 →
    (s.pr p).state = .sofWait → s.time ≤ s.sofEnd p → (sofWord (s.pr p).tech (s.pr p).rate).all (fun w => decide (sof = w)) = true →
    (s.pr p).hasAfc = true → beyondAfc fofs = true →
    Does (.sofDetected p sof sofT fofs tofs codes) s fun t =>
      (∀ x, (s.pp p).xch = some x → (t.pr p).state = .armed) ∧ RxeOf p s t ∧ Posted 0x4003 .top 0 t) ∧
  (∀ (s : State) (p : Port) (sof : List Bool) (sofT : Nat) (fofs : BitVec 12) (tofs codes : Byte), Running s → (s.pr p).tech ≠ 6 →
    (s.pr p).state = .sofWait → s.sofEnd p < s.time →
    Does (.sofDetected p sof sofT fofs tofs codes) s fun t =>
      t.pr p = { s.pr p with state := .armed, blanked := false, calmFrom := s.time } ∧
      t.fld (Reg.RXE_P_COUNTS p) Fld.RXE_P_COUNTS_FALSE_LOCKS = satAdd 65535 (s.fld (Reg.RXE_P_COUNTS p) Fld.RXE_P_COUNTS_FALSE_LOCKS) 1 ∧
      BitsBut (Reg.RXE_P_COUNTS p) Fld.RXE_P_COUNTS_FALSE_LOCKS s t ∧ RegsBut [Reg.RXE_P_COUNTS p] s t ∧ RxeOf p s t ∧
      Keeps [.regs, .rxe, .obs] s t) ∧
  (∀ (s : State) (p : Port), Running s → (s.pr p).state = .sofWait →
    Does (.sofWindowExpiry p) s fun t =>
      t.pr p = { s.pr p with state := .armed, blanked := false, calmFrom := max s.time (s.sofEnd p) } ∧
      t.fld (Reg.RXE_P_COUNTS p) Fld.RXE_P_COUNTS_FALSE_LOCKS = satAdd 65535 (s.fld (Reg.RXE_P_COUNTS p) Fld.RXE_P_COUNTS_FALSE_LOCKS) 1 ∧
      BitsBut (Reg.RXE_P_COUNTS p) Fld.RXE_P_COUNTS_FALSE_LOCKS s t ∧ RegsBut [Reg.RXE_P_COUNTS p] s t ∧ RxeOf p s t ∧
      Passes (s.sofEnd p) [.regs, .rxe] s t) ∧
  (∀ (s : State) (p : Port) (recent before : Nat) (rx : RxData), Running s → (s.pr p).tech ≠ 6 → (s.pr p).state = .sofWait →
    s.stepped p recent before = true →
    Does (.energyStep p recent before rx) s fun t =>
      t.pr p = { s.pr p with state := .armed, captured := true, blanked := false, calmFrom := s.time } ∧ RxeOf p s t ∧ Keeps [.rxe] s t)

/-- R146, R151-R157, R184, R190, R193: how a reception ends. One overtaken by a stronger signal (with CAPTURE_EN) or left by AFC is kept as
the exchange's earlier reception while the window stays open and the receiver is armed again, with its status words in LAST0 to LAST2; in
Accord AFC ends the code channels named among those detected. A frame that ends, by itself or at the length that the frame gives, closes the
window of a host frame's exchange, with its status words in LAST0 to LAST2 and one more completion counted; at the limit of the window, with
nothing received, the exchange ends as well with RESULT 1, counted as a completion and as one that is not OK. The order of half-bits that
assembling a reception uses is the model's choice (log entry 75). -/
def Obligations.ReceptionsEnd : Prop :=
  (∀ (s : State) (p : Port) (recent before : Nat) (rx : RxData) (x : Exchange), Running s → (s.pr p).tech ≠ 6 → (s.pr p).state = .frame →
    (s.pp p).xch = some x → s.flag (Reg.RXE_P_CTRL p) Fld.RXE_P_CTRL_CAPTURE_EN = true → s.stepped p recent before = true →
    Does (.energyStep p recent before rx) s fun t =>
      (t.pp p).xch = some { x with earlier := some (s.deliver p x.plan.frame 1 rx) } ∧ (t.pr p).state = .armed ∧ (t.pr p).captured = true ∧
      t.reg (Reg.RXE_P_LAST0 p) = s.rxs0 p 1 (s.assemble p x.plan.frame.splitBits rx) rx.clip ∧
      t.reg (Reg.RXE_P_LAST1 p) = s.rxs1 p rx ∧ t.reg (Reg.RXE_P_LAST2 p) = s.rxs2 p (s.assemble p x.plan.frame.splitBits rx) rx ∧
      t.fld (Reg.RXE_P_COUNTS p) Fld.RXE_P_COUNTS_OVERTAKES = satAdd 65535 (s.fld (Reg.RXE_P_COUNTS p) Fld.RXE_P_COUNTS_OVERTAKES) 1 ∧
      Posted 0x4002 .top 0 t ∧
      RegsBut [Reg.RXE_P_LAST0 p, Reg.RXE_P_LAST1 p, Reg.RXE_P_LAST2 p, Reg.RXE_P_COUNTS p] s t ∧ RxeOf p s t ∧ ProOf p s t ∧
      Keeps [.regs, .rxe, .pro, .obs] s t) ∧
  (∀ (s : State) (p : Port) (codes : Byte) (rx : RxData) (x : Exchange), Running s → (s.pr p).tech = 5 → (s.pr p).rate ≠ 0 →
    ((s.pr p).state = .sofWait ∨ (s.pr p).state = .frame) → (s.pp p).xch = some x →
    Does (.afcRange p codes rx) s fun t =>
      (t.pp p).xch = some { x with earlier := some (s.deliver p x.plan.frame 2 rx) } ∧ (t.pr p).state = .armed ∧
      (t.pr p).captured = false ∧ t.reg (Reg.RXE_P_LAST0 p) = s.rxs0 p 2 (s.assemble p x.plan.frame.splitBits rx) rx.clip ∧ Posted 0x4003 .top 0 t ∧
      RegsBut [Reg.RXE_P_LAST0 p, Reg.RXE_P_LAST1 p, Reg.RXE_P_LAST2 p] s t ∧ RxeOf p s t ∧ ProOf p s t ∧ Keeps [.regs, .rxe, .pro, .obs] s t) ∧
  (∀ (s : State) (p : Port) (codes : Byte) (rx : RxData) (q : AccPoll), Running s → (s.pr p).tech = 6 →
    ((s.pr p).state = .sofWait ∨ (s.pr p).state = .frame) → (s.pa p).poll = some q →
    Does (.afcRange p codes rx) s fun t =>
      (t.pa p).poll = some { q with ranged := q.ranged ||| (codes.toNat &&& q.detected) } ∧ Posted 0x4003 .top 0 t ∧ AcdOf p s t ∧
      Keeps [.acd, .obs] s t) ∧
  (∀ (s : State) (p : Port) (ending : RxEnd) (rx : RxData) (hw : HwFault) (x : Exchange), Running s → (s.pr p).tech ≠ 6 →
    (s.pr p).state = .frame → (s.pp p).xch = some x → x.plan.frame.purpose = .host →
    Does (.frameEnd p ending rx hw) s fun t =>
      let e := s.rxEnding p x.plan.frame.splitBits ending rx
      let d := s.deliver p x.plan.frame e rx
      (t.pp p).xch = none ∧ (t.pr p).state = .idle ∧
      t.reg (Reg.RXE_P_LAST0 p) = s.rxs0 p e (s.assemble p x.plan.frame.splitBits rx) rx.clip ∧
      t.reg (Reg.RXE_P_LAST1 p) = s.rxs1 p rx ∧ t.reg (Reg.RXE_P_LAST2 p) = s.rxs2 p (s.assemble p x.plan.frame.splitBits rx) rx ∧
      t.reg (Reg.PRO_P_LAST_PRS p) = x.prs d.result d.early ∧
      t.fld (Reg.PRO_P_COUNTS p) Fld.PRO_P_COUNTS_DONE = satAdd 65535 (s.fld (Reg.PRO_P_COUNTS p) Fld.PRO_P_COUNTS_DONE) 1 ∧
      RxeOf p s t ∧ ProOf p s t ∧ Keeps [.regs, .que, .field, .rxe, .pro, .cox, .obs] s t) ∧
  (∀ (s : State) (p : Port) (rx : RxData) (x : Exchange) (w : Nat), Running s → (s.pf p).window = some w → (s.pp p).xch = some x →
    (s.pa p).poll = none → (s.pr p).state = .armed → x.earlier = none → x.plan.frame.purpose = .host →
    Does (.rxWindowLimit p rx) s fun t =>
      t.time = max s.time w ∧ (t.pp p).xch = none ∧ (t.pr p).state = .idle ∧ t.reg (Reg.PRO_P_LAST_PRS p) = x.prs 1 false ∧
      t.fld (Reg.PRO_P_COUNTS p) Fld.PRO_P_COUNTS_DONE = satAdd 65535 (s.fld (Reg.PRO_P_COUNTS p) Fld.PRO_P_COUNTS_DONE) 1 ∧
      t.fld (Reg.PRO_P_COUNTS p) Fld.PRO_P_COUNTS_NOT_OK = satAdd 65535 (s.fld (Reg.PRO_P_COUNTS p) Fld.PRO_P_COUNTS_NOT_OK) 1 ∧
      RxeOf p s t ∧ ProOf p s t ∧ RingOnly s t ∧ Keeps [.time, .sram, .regs, .que, .field, .rxe, .pro, .cox, .obs] s t)

/-- R160-R163, R171, R281: a noise window of 64 µs, where the conditions of R160 hold from its start to its end, sets LAST from the power
through the filter of NOISE_BAND, and that of ACD's floor from the filter at fc/4; the first one since a clear sets AVG to LAST as well, a
later one moves AVG on (its fractional bits and their rounding are the model's choice, log entry 74); MIN and MAX follow LAST, as the
weakest and the strongest. The next window begins at its end. Where the conditions do not hold nothing changes. CLR_NOISE clears the three
VALID bits and CLR_COUNTS both counts. -/
def Obligations.NoiseStatisticsFollowWindows : Prop :=
  (∀ (s : State) (p : Port) (powers : List Nat), Running s → s.noiseOk p = true →
    (s.advance (s.noiseFrom p + 64 * usec)).noiseOk p = true →
    Does (.noiseWindowDone p powers) s fun t =>
      let v := min ((powers[s.noiseFilter p]?).getD 511) 511
      let v4 := min ((powers[2]?).getD 511) 511
      t.fld (Reg.RXE_P_NOISE p) Fld.RXE_P_NOISE_LAST = v ∧ t.flag (Reg.RXE_P_NOISE p) Fld.RXE_P_NOISE_VALID = true ∧
      (s.flag (Reg.RXE_P_NOISE p) Fld.RXE_P_NOISE_VALID = false → t.fld (Reg.RXE_P_NOISE p) Fld.RXE_P_NOISE_AVG = v) ∧
      (t.pr p).avg = nextAvg (s.flag (Reg.RXE_P_NOISE p) Fld.RXE_P_NOISE_VALID) (s.pr p).avg v ∧
      (s.flag (Reg.RXE_P_NOISE_EXT p) Fld.RXE_P_NOISE_EXT_VALID = false →
        t.fld (Reg.RXE_P_NOISE_EXT p) Fld.RXE_P_NOISE_EXT_MIN = v ∧ t.fld (Reg.RXE_P_NOISE_EXT p) Fld.RXE_P_NOISE_EXT_MAX = v) ∧
      (s.flag (Reg.RXE_P_NOISE_EXT p) Fld.RXE_P_NOISE_EXT_VALID = true →
        t.fld (Reg.RXE_P_NOISE_EXT p) Fld.RXE_P_NOISE_EXT_MIN = max v (s.fld (Reg.RXE_P_NOISE_EXT p) Fld.RXE_P_NOISE_EXT_MIN) ∧
        t.fld (Reg.RXE_P_NOISE_EXT p) Fld.RXE_P_NOISE_EXT_MAX = min v (s.fld (Reg.RXE_P_NOISE_EXT p) Fld.RXE_P_NOISE_EXT_MAX)) ∧
      t.fld (Reg.ACD_P_NOISE4 p) Fld.ACD_P_NOISE4_LAST = v4 ∧ t.flag (Reg.ACD_P_NOISE4 p) Fld.ACD_P_NOISE4_VALID = true ∧
      (s.flag (Reg.ACD_P_NOISE4 p) Fld.ACD_P_NOISE4_VALID = false → t.fld (Reg.ACD_P_NOISE4 p) Fld.ACD_P_NOISE4_AVG = v4) ∧
      (t.pr p).calmFrom = max s.time (s.noiseFrom p + 64 * usec) ∧
      RegsBut [Reg.RXE_P_NOISE p, Reg.RXE_P_NOISE_EXT p, Reg.ACD_P_NOISE4 p] s t ∧ RxeOf p s t ∧ AcdOf p s t ∧
      Passes (s.noiseFrom p + 64 * usec) [.regs, .rxe, .acd] s t) ∧
  (∀ (s : State) (p : Port) (powers : List Nat), Running s →
    (s.noiseOk p = false ∨ (s.advance (s.noiseFrom p + 64 * usec)).noiseOk p = false) →
    Does (.noiseWindowDone p powers) s fun t => t = s) ∧
  (∀ (s : State) (p : Port), Running s →
    Does (.clrNoise p) s fun t =>
      t.flag (Reg.RXE_P_NOISE p) Fld.RXE_P_NOISE_VALID = false ∧ t.flag (Reg.RXE_P_NOISE_EXT p) Fld.RXE_P_NOISE_EXT_VALID = false ∧
      t.flag (Reg.ACD_P_NOISE4 p) Fld.ACD_P_NOISE4_VALID = false ∧
      RegsBut [Reg.RXE_P_NOISE p, Reg.RXE_P_NOISE_EXT p, Reg.ACD_P_NOISE4 p] s t ∧ Keeps [.regs] s t) ∧
  (∀ (s : State) (p : Port), Running s →
    Does (.clrCounts p) s fun t =>
      t.reg (Reg.RXE_P_COUNTS p) = 0 ∧ RegsBut [Reg.RXE_P_COUNTS p] s t ∧ Keeps [.regs] s t)

/-- R481-R484: the host's side of the frame queues of a port. A word pushed to TXQn goes behind the others; with TXQn full it waits. A pop
returns the oldest word of RXQn with its POISON tag, or 0 and an underrun where there is none. Flushing RXQn empties it. -/
def Obligations.FrameQueuesMove : Prop :=
  (∀ (s : State) (p : Port) (w : Word), Clocked s → s.hif.waiting = none → (s.pp p).flushing = false → (s.pq p).tx.length < 2048 →
    Does (.txPush p w) s fun t =>
      (t.pq p).tx = (s.pq p).tx ++ [{ w := w, poison := false }] ∧ (t.pq p).rx = (s.pq p).rx ∧ (t.pq p).pushedAt = s.time ∧ QueuesOf p s t ∧
      Keeps [.que, .obs] s t) ∧
  (∀ (s : State) (p : Port) (w : Word), Clocked s → s.hif.waiting = none → (s.pp p).flushing = false → 2048 ≤ (s.pq p).tx.length →
    Does (.txPush p w) s fun t => t.hif = { s.hif with waiting := some (p.val, [w], s.time) } ∧ Keeps [.hif] s t) ∧
  (∀ (s : State) (p : Port) (bad : Bool) (x : QWord) (l : List QWord), Clocked s → (s.pq p).rx = x :: l →
    Does (.rxPop p bad) s fun t =>
      t.hif.out = [x.w] ∧ t.pq p = { s.pq p with rx := l } ∧
      t.flag (Reg.QUE_P_RX_TAG p) Fld.QUE_P_RX_TAG_POISON = (x.poison || bad) ∧ QueuesOf p s t ∧ Keeps [.regs, .que, .hif, .obs] s t) ∧
  (∀ (s : State) (p : Port) (bad : Bool), Clocked s → (s.pq p).rx = [] →
    Does (.rxPop p bad) s fun t =>
      t.hif.out = [0] ∧ t.flag (Reg.QUE_P_WM_STATUS p) Fld.QUE_P_WM_STATUS_UNDERRUN = true ∧
      RegsBut [Reg.QUE_P_WM_STATUS p, Reg.QUE_P_COUNTS p] s t ∧ Keeps [.regs, .hif, .obs] s t) ∧
  (∀ (s : State) (p : Port), Clocked s →
    Does (.flushRx p) s fun t =>
      t.pq p = { s.pq p with rx := [] } ∧ (t.pp p).pushing = false ∧
      (t.pp p).staged = (if (s.pp p).pushing then (s.pp p).staged.tail else (s.pp p).staged) ∧
      QueuesOf p s t ∧ ProOf p s t ∧ Keeps [.que, .pro, .obs] s t)

/-- R187-R189, R194, R195, R197, R200, R214: the protocol engine's side. At an exchange boundary at which a host frame is next, the words of
the head descriptor leave TXQn and describe the frame that is planned; a poisoned descriptor is discarded with PRO_DESC_POISON. A completion
goes to RXQn whole, or as far as there is room. FLUSH_TX discards the whole descriptors and the hold; a hold ends at HOLD_MAX or by
END_HOLD. -/
def Obligations.DescriptorsAndCompletions : Prop :=
  (∀ (s : State) (p : Port) (f : Frame), Running s → s.hif.waiting = none → s.hostNext p = true → (s.headWords p).all (fun x => !x.poison) = true →
    f = descFrame ((s.headWords p).map fun x => x.w) → descRefused (s.role p) f = false → (f.len ≠ 0 ∨ f.lastBits ≠ 0 ∨ f.tech = 3) →
    Does (.descriptorTake p false) s fun t =>
      (t.pp p).plan = some { frame := f, takenAt := s.time, notBefore := 0, synSince := none, synWait := 0, heldSyn := false } ∧
      t.pq p = { s.pq p with tx := (s.pq p).tx.drop (s.headWords p).length } ∧ QueuesOf p s t ∧ ProOf p s t) ∧
  (∀ (s : State) (p : Port), Running s → s.hif.waiting = none → s.hostNext p = true →
    Does (.descriptorTake p true) s fun t =>
      (t.pq p).tx = (s.pq p).tx.drop (s.headWords p).length ∧ (t.pp p).plan = none ∧ Posted 0x5003 .heart 0 t ∧ QueuesOf p s t ∧
      ProOf p s t) ∧
  (∀ (s : State) (p : Port) (l : List Word), Running s → (s.pp p).staged = [l] → (s.pq p).rx.length + l.length ≤ 2048 →
    Does (.completionPush p) s fun t =>
      t.pq p = { s.pq p with rx := (s.pq p).rx ++ l.map fun w => { w := w, poison := false } } ∧
      t.pp p = { s.pp p with staged := [], pushing := false } ∧ QueuesOf p s t ∧ ProOf p s t ∧ Keeps [.que, .pro, .obs] s t) ∧
  (∀ (s : State) (p : Port) (l : List Word) (r : List (List Word)) (k : Nat), Running s → (s.pp p).staged = l :: r → k < l.length →
    (s.pq p).rx.length + k = 2048 →
    Does (.completionPush p) s fun t =>
      t.pq p = { s.pq p with rx := (s.pq p).rx ++ (l.take k).map fun w => { w := w, poison := false } } ∧
      t.pp p = { s.pp p with staged := l.drop k :: r, pushing := (s.pp p).pushing || decide (0 < k) } ∧
      QueuesOf p s t ∧ ProOf p s t ∧ Keeps [.que, .pro, .obs] s t) ∧
  (∀ (s : State) (p : Port), Running s → s.hif.waiting = none →
    Does (.flushTx p) s fun t =>
      t.headFull p = false ∧ (t.pp p).holdEnd = none ∧ (t.pp p).flushing = decide ((t.pq p).tx ≠ []) ∧ QueuesOf p s t ∧ ProOf p s t) ∧
  (∀ (s : State) (p : Port), Running s →
    Does (.endHold p) s fun t => t.pp p = { s.pp p with holdEnd := none } ∧ ProOf p s t ∧ Keeps [.pro] s t) ∧
  (∀ (s : State) (p : Port) (e : Nat), Running s → (s.pp p).holdEnd = some e → (s.pp p).xch = none → (s.pp p).plan = none →
    (s.advance e).hostNext p = false →
    Does (.proHoldExpired p) s fun t =>
      t.pp p = { s.pp p with holdEnd := none } ∧ Posted 0x5005 .top 0 t ∧ ProOf p s t ∧ Passes e [.pro] s t)

/-- R133, R142, R207-R210, R365: RF collision avoidance of an active-mode port. The level of the external field is recorded on every port,
and is the tag's field on the emulation port, below FIELD_THR and only while that chain runs; on an active-mode port the field is present at
RFCA_THR or above. Initial avoidance of an initiator waits for it to drop and starts again when it does, below RFCA_MAX; it ends after T_IDT
and the drawn number of T_RFW, and then asks for the field. Response avoidance ends after T_ADT where the field is away; where it is there
an initiator waits again, up to RFCA_MAX. A synthesiser that stands still is started with the request for the field. T_ARFG ends with the
field on. -/
def Obligations.CollisionAvoidance : Prop :=
  (∀ (s : State) (p : Port) (draw : Fin 4) (t0 r : Nat), Running s → (s.pp p).rfca = .initial (some t0) r → s.role p = 3 →
    (s.pf p).wantOn = none → (s.pf p).ramp = .none → (s.pf p).carrier = false →
    Does (.rfcaExpiry p draw) s fun t =>
      t.pp p = { s.pp p with rfca := .ready } ∧ (t.pf p).wantOn = some t.time ∧ t.field.synRun = true ∧ ProOf p s t ∧
      (∀ m, m ≠ p.val → t.pf m = s.pf m) ∧ RegsBut [Reg.FLD_SYN_STATUS] s t ∧ Passes (t0 + s.fc (4096 + 512 * draw.val)) [.regs, .field, .pro] s t) ∧
  (∀ (s : State) (p : Port) (level : Nat), Running s → s.role p ≠ 3 → s.role p ≠ 4 → p.val ≠ s.emuPort →
    Does (.externalFieldChange p level) s fun t =>
      t.pp p = { s.pp p with extLevel := level } ∧ ProOf p s t ∧ Keeps [.pro] s t) ∧
  (∀ (s : State) (p : Port) (level t0 r : Nat), Running s → s.role p = 3 → (s.pp p).rfca = .initial (some t0) r → s.extField p = false →
    level ≤ s.fld Reg.PRO_ACTIVE Fld.PRO_ACTIVE_RFCA_THR →
    Does (.externalFieldChange p level) s fun t => t.pp p = { s.pp p with extLevel := level, rfca := .initial none r } ∧ ProOf p s t) ∧
  (∀ (s : State) (p : Port) (level r : Nat), Running s → s.role p = 3 → (s.pp p).rfca = .initial none r → s.extField p = true →
    s.fld Reg.PRO_ACTIVE Fld.PRO_ACTIVE_RFCA_THR < level → r + 1 < s.rfcaMax →
    Does (.externalFieldChange p level) s fun t =>
      t.pp p = { s.pp p with extLevel := level, rfca := .initial (some s.time) (r + 1) } ∧ ProOf p s t) ∧
  (∀ (s : State) (level : Nat) (p : Port), Running s → p.val = s.emuPort → s.role p ≠ 3 → s.role p ≠ 4 →
    Does (.externalFieldChange p level) s fun t =>
      t.emu.field = (s.chainOn p && decide (level < s.fld Reg.EMU_FIELD_DET Fld.EMU_FIELD_DET_FIELD_THR)) ∧
      t.pp p = { s.pp p with extLevel := level } ∧ ProOf p s t ∧ Keeps [.emu, .pro] s t) ∧
  (∀ (s : State) (p : Port) (t0 r : Nat), Running s → (s.pp p).rfca = .response (some t0) r → s.extField p = false →
    Does (.responseRfcaExpiry p) s fun t =>
      t.pp p = { s.pp p with rfca := .arfg 0 } ∧ ProOf p s t ∧ (∀ m, m ≠ p.val → t.pf m = s.pf m) ∧
      Passes (t0 + s.tAdt) [.regs, .field, .rxe, .pro] s t) ∧
  (∀ (s : State) (p : Port) (t0 r : Nat), Running s → (s.pp p).rfca = .response (some t0) r → s.extField p = true → s.role p = 3 →
    r < s.rfcaMax →
    Does (.responseRfcaExpiry p) s fun t => t.pp p = { s.pp p with rfca := .response none (r + 1) } ∧ ProOf p s t ∧
      Passes (t0 + s.tAdt) [.pro] s t) ∧
  (∀ (s : State) (p : Port) (e : Nat), Running s → (s.pp p).rfca = .arfg e → (s.pf p).radio = .field → (s.pf p).ramp = .none →
    Does (.arfgExpiry p) s fun t => t.pp p = { s.pp p with rfca := .ready } ∧ ProOf p s t ∧ Passes e [.pro] s t)

/-- R215-R222, R233, R236-R238, R241: a reader's port at a list-entry boundary with nothing owed and no check due runs the next entry of its
list: a WAIT entry that leaves the field on waits, an NFC-A entry begins a discovery with REQA or WUPA, an Accord entry of a group without
enrolled sessions is skipped and counted; a halt that is owed to an open NFC-A session comes first, with HLTA. A WAIT that is over moves the
port on to the entry after it, and asks for the field again where it was taken off. A presence check falls due at its time. SESS_CMD with
CLOSE frees a session without a lookup in flight. An overflow entry's NFC-A tag is woken at its time. A synthesiser that stands still is
started with the request for the field. -/
def Obligations.PollingRunsItsList : Prop :=
  (∀ (s : State) (p : Port) (w : Nat), Running s → s.atEntry p = true → (s.pp p).owed = [] → (s.pa p).releases = [] → s.dueChecks p = [] →
    s.pollEntry p (s.nextEntry p) = w → w % 16 = 6 → w.testBit 28 = false →
    Does (.pollEntryStart p .none) s fun t =>
      t.pp p = { s.pp p with offWait := false, waitEnd := some (s.time + w / 16 % 2 ^ 24 * usec), entry := s.nextEntry p, list := s.listAsked p } ∧
      ProOf p s t ∧ Keeps [.pro] s t) ∧
  (∀ (s : State) (p : Port) (w : Nat), Running s → s.atEntry p = true → (s.pp p).owed = [] → (s.pa p).releases = [] → s.dueChecks p = [] →
    s.pollEntry p (s.nextEntry p) = w → w % 16 = 1 →
    Does (.pollEntryStart p .none) s fun t =>
      t.pp p = { s.pp p with job := some { Job.fresh0 .discover 0 with entry := w, next := some .reqa, wake := w.testBit 4, slots := 1 },
                             offWait := false, entry := s.nextEntry p, list := s.listAsked p } ∧
      ProOf p s t ∧ (∀ m, m ≠ p.val → t.pf m = s.pf m) ∧ RegsBut [Reg.FLD_SYN_STATUS] s t ∧ Keeps [.regs, .field, .pro] s t) ∧
  (∀ (s : State) (p : Port) (w : Nat), Running s → s.atEntry p = true → (s.pp p).owed = [] → (s.pa p).releases = [] → s.dueChecks p = [] →
    s.pollEntry p (s.nextEntry p) = w → w % 16 = 5 → s.pollMask p (w / 16 % 16) = 0 →
    Does (.pollEntryStart p .none) s fun t =>
      t.pp p = { s.pp p with offWait := false, entry := (s.nextEntry p + 1) % 16, list := s.listAsked p } ∧
      t.fld Reg.ACD_COUNTS Fld.ACD_COUNTS_SKIPS = satAdd 65535 (s.fld Reg.ACD_COUNTS Fld.ACD_COUNTS_SKIPS) 1 ∧
      RegsBut [Reg.ACD_COUNTS] s t ∧ ProOf p s t ∧ Keeps [.regs, .pro, .obs] s t) ∧
  (∀ (s : State) (p : Port) (k : Nat) (l : List Nat) (x : Session), Running s → s.atEntry p = true → (s.pp p).owed = k :: l →
    s.session k = some x → x.state = .open_ → x.accord = false → x.tech = 0 →
    Does (.pollEntryStart p .none) s fun t =>
      (t.pp p).owed = (s.pp p).owed.filter (fun i => i ≠ k) ∧
      (t.pp p).job = some { Job.fresh0 .owed 0 with sess := some k, ident := x.ident, quiet := [x.ident], next := some .hlta } ∧
      ProOf p s t ∧ (∀ m, m ≠ p.val → t.pf m = s.pf m) ∧ RegsBut [Reg.FLD_SYN_STATUS] s t ∧ Keeps [.regs, .field, .pro] s t) ∧
  (∀ (s : State) (p : Port) (e : Nat), Running s → (s.pp p).waitEnd = some e → (s.pp p).offWait = false →
    Does (.pollWaitExpiry p) s fun t =>
      t.pp p = { s.pp p with waitEnd := none, entry := ((s.pp p).entry + 1) % 16 } ∧ ProOf p s t ∧ Passes e [.pro] s t) ∧
  (∀ (s : State) (p : Port) (e : Nat), Running s → (s.pp p).waitEnd = some e → (s.pp p).offWait = true →
    Does (.pollWaitExpiry p) s fun t =>
      t.pp p = { s.pp p with waitEnd := none, entry := ((s.pp p).entry + 1) % 16 } ∧
      (s.role p = 2 → (s.pf p).wantOn = none → (s.pf p).ramp = .none → (s.pf p).carrier = false → (t.pf p).wantOn = some t.time) ∧
      ProOf p s t ∧ (∀ m, m ≠ p.val → t.pf m = s.pf m) ∧ RegsBut [Reg.FLD_SYN_STATUS] s t ∧ Passes e [.regs, .field, .pro] s t) ∧
  (∀ (s : State) (k : SessId) (x : Session) (e : Nat), Running s → s.session k = some x → x.dueAt = some e → x.state = .quiet →
    Does (.presenceCheckDue k) s fun t => Passes e [] s t) ∧
  (∀ (s : State) (k : SessId) (x : Session), Running s → s.session k = some x → x.live = true → s.gen.phase ≠ .safe → s.inFlight k = false →
    Does (.sessClose (word (k.val + 0x100))) s fun t => t.session k = none ∧ Posted 0x5011 .top 0 t) ∧
  (∀ (s : State) (i : Nat) (x : OvfEntry), Running s → s.overflow[i]? = some x → s.atEntry x.port = true → x.tech = 0 → x.port < 16 →
    Does (.overflowEntryDue i) s fun t =>
      (t.pp x.port).job = some { Job.fresh0 (.overflow i) 0 with wake := true, ident := x.ident, woken := x.ident, next := some .reqa } ∧
      ProOf x.port s t ∧ (∀ m, m ≠ x.port → t.pf m = s.pf m) ∧ RegsBut [Reg.FLD_SYN_STATUS] s t ∧
      Passes x.dueAt [.regs, .field, .pro] s t)

/-- R165, R272, R281, R282, R285: the window of an Accord poll. With no preamble detected by 2,236/fc it closes, else it stays open; the
cancellation order is fixed at 3,220/fc, from the detected codes; the window closes when every channel has ended, and the port's receiver
with it, BLANKED noted; when the last stage has finished the poll and its exchange are over, at the end of the window, and no code is in
OK_MASK where none was heard. A code leaves the quarantine when its time there ends. -/
def Obligations.AccordPollEnds : Prop :=
  (∀ (s : State) (p : Port) (q : AccPoll) (w : Nat), Running s → (s.pa p).poll = some q → q.closed = none → (s.pf p).window = some w →
    q.detected = 0 →
    Does (.accordDetectDeadline p) s fun t =>
      t.time = max s.time ((s.pr p).modEnd + s.fc 2236) ∧ (t.pa p).poll = some { q with closed := some t.time, blanked := (s.pr p).blanked || s.blankOn p } ∧
      (t.pr p).state = .idle ∧ (t.pf p).window = none ∧ AcdOf p s t ∧ RxeOf p s t) ∧
  (∀ (s : State) (p : Port) (q : AccPoll) (w : Nat), Running s → (s.pa p).poll = some q → q.closed = none → (s.pf p).window = some w →
    q.detected ≠ 0 →
    Does (.accordDetectDeadline p) s fun t => Passes ((s.pr p).modEnd + s.fc 2236) [] s t) ∧
  (∀ (s : State) (p : Port) (powers : List (List Nat)) (q : AccPoll) (w : Nat), Running s → (s.pa p).poll = some q → q.closed = none →
    q.order = none → (s.pf p).window = some w →
    Does (.accordOrderPoint p powers) s fun t =>
      (t.pa p).poll = some { q with order := some (cancelOrder (s.detectFloor p - 4 * s.fld (Reg.RXE_P_CTRL p) Fld.RXE_P_CTRL_DET_MARGIN)
        q.stages powers ((List.range 8).filter fun c => q.detected.testBit c)) } ∧
      AcdOf p s t ∧ Passes ((s.pr p).modEnd + s.fc 3220) [.acd] s t) ∧
  (∀ (s : State) (p : Port) (q : AccPoll) (w : Nat), Running s → (s.pa p).poll = some q → q.closed = none → (s.pf p).window = some w →
    Does (.accordWindowClose p) s fun t =>
      (t.pa p).poll = some { q with closed := some s.time, blanked := (s.pr p).blanked || s.blankOn p } ∧ (t.pr p).state = .idle ∧
      (t.pf p).window = none ∧ AcdOf p s t ∧ RxeOf p s t ∧
      Keeps [.regs, .field, .rxe, .acd, .obs] s t) ∧
  (∀ (s : State) (p : Port) (chans : List ChanData) (clip : Bool) (q : AccPoll) (x : Exchange) (e : Nat), Running s → (s.pa p).poll = some q →
    (s.pp p).xch = some x → q.closed = some e →
    Does (.accordStagesDone p chans clip .none) s fun t =>
      t.time = max s.time (s.stagesEnd p e (((List.range 8).filter fun c => q.mask.testBit c).map (q.chan chans))) ∧
      (t.pa p).poll = none ∧ (t.pp p).xch = none ∧ (t.pp p).lastEnd = e ∧
      (chans = [] → t.fld (Reg.ACD_P_LAST_POLL p) Fld.ACD_P_LAST_POLL_OK_MASK = 0)) ∧
  (∀ (s : State) (p : Port) (g : Fin 16) (c : Fin 8) (q : Quar), Running s →
    s.quar.find? (fun y => decide (y.port = p.val) && decide (y.group = g.val) && decide (y.code = c.val)) = some q →
    Does (.quarantineExpiry p g c) s fun t =>
      t.quar = s.quar.filter (fun y => !(decide (y.port = p.val) && decide (y.group = g.val) && decide (y.code = c.val))) ∧
      Passes q.ends [.quar] s t)

/-- R49-R52, R71, R89, R201: roles and huddles. A write of ROLE 0, 1 or 2 is kept; ROLE 5 on a port that R50 refuses it is marked,
MODE_CONFLICT posted, and no role is due. With no exchange in progress the role that is due takes effect, a hold and collision avoidance
end, and a port that leaves reader gives its job up; else nothing happens. A write of HUDDLE sets EN. A huddle's slot in progress is left
alone; a slot that starts leaves no wait behind; where the huddle's only member has a frame due, with nothing in its way, the slot starts at
once with that frame and its length. 15 µs after it left OFF, with the synthesiser locked, a port that is no active target is in STANDBY. -/
def Obligations.RolesTakeEffect : Prop :=
  (∀ (s : State) (p : Port) (r : Fin 3), Running s → s.lockedBlock 0x04 = false →
    Does (.roleWrite p (word r.val)) s fun t => t.fld (Reg.PRO_P_ROLE p) Fld.PRO_P_ROLE_ROLE = r.val ∧ Keeps [.regs, .obs] s t) ∧
  (∀ (s : State) (p : Port), Running s → s.lockedBlock 0x04 = false → 4 ≤ p.val →
    Does (.roleWrite p 5) s fun t =>
      t.flag (Reg.PRO_P_MODE_STATUS p) Fld.PRO_P_MODE_STATUS_ROLE_REFUSED = true ∧ Posted 0x5006 .top (p.val + 0x500) t ∧ t.roleDue p = 0) ∧
  (∀ (s : State) (p : Port), Running s → s.role p ≠ s.roleDue p → (s.pp p).xch = none →
    Does (.roleChangeApply p) s fun t =>
      t.role p = s.roleDue p ∧ (t.pp p).holdEnd = none ∧ (t.pp p).rfca = .none ∧ (s.role p = 2 → (t.pp p).job = none ∧ (t.pp p).owed = [])) ∧
  (∀ (s : State) (p : Port), Running s → (s.role p = s.roleDue p ∨ (s.pp p).xch ≠ none) →
    Does (.roleChangeApply p) s fun t => t = s) ∧
  (∀ (s : State) (p : Port) (v : Word), Running s → s.lockedBlock 0x02 = false → s.roleAsked p ≠ 5 →
    Does (.huddleWrite p v) s fun t =>
      t.fld (Reg.FLD_P_HUDDLE p) Fld.FLD_P_HUDDLE_EN = v.toNat % 2 ∧ Keeps [.regs, .field, .obs] s t) ∧
  (∀ (s : State) (h : Huddle), Running s → s.slotOpen h = true → s.slotBusy h = true →
    Does (.huddleSlotStart h) s fun t => t = s) ∧
  (∀ (s : State) (h : Huddle), Running s → s.slotOpen h = false →
    Does (.huddleSlotStart h) s fun t =>
      (t.hud h).listening = false ∧ ((t.hud h).txEnd ≠ none → (t.hud h).dueSince = none ∧ (t.hud h).starved = false)) ∧
  (∀ (s : State) (h : Huddle) (p : Port) (f : Plan), Running s → s.slotOpen h = false → s.syncHuddles (some h.val) = s →
    (List.range 16).filter (fun n => decide (s.huddled n = some h.val)) = [p.val] → (s.pp p).plan = some f → (s.pf p).carrier = true →
    (s.pf p).radio = .field → s.flag Reg.COX_CTRL Fld.COX_CTRL_REQ_EN = false → s.locked = true → s.settlePast = false →
    s.partOf p = some { port := p, due := s.frameDue p f, span := s.frameSpan f.frame, win := s.frameWin f.frame, ramp := false } →
    s.frameDue p f ≤ s.time → s.keepClear p (s.time + s.frameSpan f.frame) (s.frameWin f.frame) = true →
    Does (.huddleSlotStart h) s fun t =>
      (t.hud h).txEnd = some (s.time + s.frameSpan f.frame) ∧ (t.hud h).listening = false ∧ (t.hud h).dueSince = none ∧
      (t.hud h).starved = false ∧
      t.pf p = { s.pf p with txFrom := s.time, txEnd := some (s.time + s.frameSpan f.frame), winLen := s.frameWin f.frame, rampDue := false } ∧
      (∀ m, m ≠ p.val → t.pf m = s.pf m) ∧ Keeps [.field, .obs] s t) ∧
  (∀ (s : State) (p : Port) (b : Nat), Running s → (s.pf p).biasFrom = some b → s.locked = true → s.role p ≠ 4 →
    Does (.transmitChainBiased p) s fun t =>
      t.pf p = { s.pf p with biasFrom := none, radio := .standby } ∧ FieldOf p s t ∧ Passes (b + 15 * usec) [.field] s t)

/-- R54-R56, R192, R565: the synthesiser. A write of FC_TRIM is kept as the register takes it and brings the effective offset to the trim
that is due; where that changes it the running synthesiser settles again, a locked one within 60 µs. At lock SETTLING clears, LOCKED is set,
and frames held for it have their wait. If the synthesiser loses lock in RUN, LOCK_LOST is set, FLD_LOCK_LOST posted, and RECOVERY entered
with CAUSE 1 and the fields off (R56). With SYN_IDLE_MS not 0 it stops that long after the ports went idle. -/
def Obligations.SynthesiserSettlesAndStops : Prop :=
  (∀ (s : State) (v : Word), Running s →
    Does (.fcTrimWrite v) s fun t =>
      t.reg Reg.FLD_FC_TRIM = (s.writeReg Reg.FLD_FC_TRIM v).reg Reg.FLD_FC_TRIM ∧
      t.fld Reg.FLD_SYN_STATUS Fld.FLD_SYN_STATUS_EFF_OFFSET = unsigned 15 t.trimDue ∧
      (s.field.synRun = true → t.fld Reg.FLD_SYN_STATUS Fld.FLD_SYN_STATUS_EFF_OFFSET ≠ s.fld Reg.FLD_SYN_STATUS Fld.FLD_SYN_STATUS_EFF_OFFSET →
        t.field.synRun = true ∧ (s.locked = true → t.field = { s.field with settleEnd := some (s.time + 60 * usec) }) ∧
        t.flag Reg.FLD_SYN_STATUS Fld.FLD_SYN_STATUS_SETTLING = true ∧ t.flag Reg.FLD_SYN_STATUS Fld.FLD_SYN_STATUS_LOCKED = false)) ∧
  (∀ (s : State), Running s → s.field.synRun = true → s.flag Reg.FLD_SYN_STATUS Fld.FLD_SYN_STATUS_SETTLING = true →
    Does .synthLocked s fun t =>
      t.flag Reg.FLD_SYN_STATUS Fld.FLD_SYN_STATUS_SETTLING = false ∧ t.flag Reg.FLD_SYN_STATUS Fld.FLD_SYN_STATUS_LOCKED = true ∧
      t.field = { s.field with settleEnd := none } ∧
      (∀ p : Port, t.pp p = { s.pp p with plan := (s.pp p).plan.map fun x => { x with synWait := x.synUs s.settledBy, synSince := none } }) ∧
      RegsBut [Reg.FLD_SYN_STATUS] s t ∧ Keeps [.regs, .field, .pro] s t) ∧
  (∀ (s : State), Running s → s.locked = true → s.gen.phase = .run →
    Does .synthLockLost s fun t =>
      t.flag Reg.FLD_SYN_STATUS Fld.FLD_SYN_STATUS_LOCKED = false ∧ t.flag Reg.FLD_SYN_STATUS Fld.FLD_SYN_STATUS_SETTLING = true ∧
      t.flag Reg.FLD_SYN_STATUS Fld.FLD_SYN_STATUS_LOCK_LOST = true ∧ Posted 0x2001 .heart 0 t ∧
      t.gen = { s.gen with phase := .recovery, cause := 1, rlimitEnd := some (s.time + s.rlimit), fieldsOff := true }) ∧
  (∀ (s : State), Running s → s.field.synRun = true → s.synIdle = true → 0 < s.fld Reg.PWR_CLK Fld.PWR_CLK_SYN_IDLE_MS →
    Does .synthIdleStop s fun t =>
      t.flag Reg.FLD_SYN_STATUS Fld.FLD_SYN_STATUS_LOCKED = false ∧ t.flag Reg.FLD_SYN_STATUS Fld.FLD_SYN_STATUS_SETTLING = false ∧
      t.field = { s.field with synRun := false, settleEnd := none } ∧ RegsBut [Reg.FLD_SYN_STATUS] s t ∧
      Passes (s.obs.synIdleSince.getD s.time + s.fld Reg.PWR_CLK Fld.PWR_CLK_SYN_IDLE_MS * msec) [.regs, .field] s t)

/-- R63, R66, R68, R69, R73-R75, R207: the field of a port. With everything it needs a field-on begins, by the driver bias of T_BIAS on a
relay port and with the ramp on a direct one, with the codes of PHASE and AMPL; a relay port's ramp follows its bias; at the ramp's end the
port is in FIELD and its guard runs, or T_ARFG of an active exchange; the guard ends. A field-off ramp ends with the carrier off, on a relay
port with T_BIAS more. A field reset with the field on is noted until the field goes; with the field off no field-on starts before
RESET_OFF; RESET_OFF is counted from the end of the ramp, and at its end a reader's field is asked for again, a synthesiser that stands
still started. -/
def Obligations.FieldRamps : Prop :=
  (∀ (s : State) (p : Port) (since : Nat), Running s → (s.pf p).wantOn = some since → s.huddled p = none → s.onDue p = true →
    (s.px p).waitEnd = none → (s.px p).retryAt = none → s.flag Reg.COX_CTRL Fld.COX_CTRL_REQ_EN = false → (s.pf p).notBefore ≤ s.time →
    s.leadEnd ≤ s.time → s.field.synRun = true → s.settlePast = false → s.slotFor p since = true → s.blanked p = false →
    s.mayModulate p (s.time + s.rampSpan p) 0 = true → s.granted = true →
    Does (.fieldOnRampStart p) s fun t =>
      (t.pf p).carrier = !isRelay p ∧ (t.pf p).ramp = (if isRelay p then .biasOn (s.time + s.biasTime p) else .up (s.time + s.rampTime)) ∧
      (t.pf p).wantOn = none ∧ (t.pf p).onSince = some s.time ∧ (t.pf p).phase = s.fld (Reg.FLD_P_PHASE p) Fld.FLD_P_PHASE_OFFSET ∧
      (t.pf p).ampl = s.fld (Reg.FLD_P_AMPL p) Fld.FLD_P_AMPL_AMPL ∧ (t.px p).deferrals = 0 ∧ CoxOf p s t ∧
      (∀ m, m ≠ p.val → t.pf m = s.pf m) ∧ Keeps [.field, .cox, .obs] s t) ∧
  (∀ (s : State) (p : Port) (e : Nat), Running s → (s.pf p).ramp = .biasOn e →
    Does (.relayBiasExpiry p) s fun t =>
      t.pf p = { s.pf p with carrier := true, ramp := .up (max s.time e + s.rampTime) } ∧ FieldOf p s t ∧ Passes e [.field] s t) ∧
  (∀ (s : State) (p : Port) (e : Nat), Running s → (s.pf p).ramp = .up e → (s.pp p).rfca = .ready → s.cutField = false →
    s.field.victims.testBit p = false → (s.pf p).resetAsked = false → (s.pf p).wantOff = none →
    Does (.fieldOnRampEnd p) s fun t =>
      t.pf p = { s.pf p with radio := .field, ramp := .none, quietFrom := max s.time e, guardEnd := some (max s.time e + s.guardTime p) } ∧
      t.pp p = { s.pp p with rfca := .none } ∧ ProOf p s t ∧ Passes e [.field, .pro] s t) ∧
  (∀ (s : State) (p : Port) (e r : Nat), Running s → (s.pf p).ramp = .up e → (s.pp p).rfca = .arfg r →
    Does (.fieldOnRampEnd p) s fun t =>
      t.pp p = { s.pp p with rfca := .arfg (max s.time e + s.fc 1152) } ∧ (t.pf p).radio = .field ∧ ProOf p s t ∧
      Passes e [.field, .pro] s t) ∧
  (∀ (s : State) (p : Port) (e : Nat), Running s → (s.pf p).guardEnd = some e →
    Does (.guardExpiry p) s fun t => t.pf p = { s.pf p with guardEnd := none } ∧ FieldOf p s t ∧ Passes e [.field] s t) ∧
  (∀ (s : State) (p : Port) (e : Nat) (b : Bool) (before : RxOpen), Running s → (s.pf p).ramp = .down e b → p.val < 4 → s.role p ≠ 3 →
    s.role p ≠ 4 → (s.pf p).window = none → (s.pf p).resetAsked = false →
    Does (.fieldOffRampEnd p before) s fun t =>
      t.pf p = { s.pf p with carrier := false, guardEnd := none, onSince := none, offAt := max s.time e, quietFrom := max s.time e,
                             radio := if s.role p = 0 then .off else .standby, ramp := .none, resetEnd := none, biasFrom := none } ∧
      Passes e [.field, .rxe, .free] s t) ∧
  (∀ (s : State) (p : Port) (e : Nat) (b : Bool) (before : RxOpen), Running s → (s.pf p).ramp = .down e b → 4 ≤ p.val → s.role p ≠ 3 →
    Does (.fieldOffRampEnd p before) s fun t =>
      (t.pf p).carrier = false ∧ (t.pf p).ramp = .biasOff (max s.time e + s.biasTime p) ∧ (t.pf p).offAt = max s.time e ∧
      (t.pf p).onSince = none ∧ FieldOf p s t ∧ RegsBut [Reg.RXE_P_FRONT p, Reg.RXE_P_CANCEL_STATUS p] s t ∧
      Passes e [.regs, .field, .rxe, .free] s t) ∧
  (∀ (s : State) (p : Port) (e : Nat), Running s → (s.pf p).ramp = .biasOff e → s.role p ≠ 0 → s.role p ≠ 4 → (s.pf p).resetAsked = true →
    Does (.relayBiasOffExpiry p) s fun t =>
      (t.pf p).ramp = .none ∧ (t.pf p).resetAsked = false ∧
      (t.pf p).resetEnd = some ((s.pf p).offAt + s.fld Reg.FLD_GUARD Fld.FLD_GUARD_RESET_OFF * (100 * usec)) ∧
      Passes e [.field, .rxe, .free] s t) ∧
  (∀ (s : State) (p : Port), Running s → (s.pf p).radio = .tx → (s.pf p).resetEnd = none → (s.pf p).carrier = true → (s.pf p).ramp = .none →
    Does (.fieldReset p 0x10) s fun t =>
      t.pf p = { s.pf p with resetAsked := true } ∧ FieldOf p s t ∧ Keeps [.regs, .field, .obs] s t) ∧
  (∀ (s : State) (p : Port), Running s → (s.pf p).radio = .standby → (s.pf p).resetEnd = none → (s.pf p).carrier = false →
    (s.pf p).ramp = .none →
    Does (.fieldReset p 0x10) s fun t =>
      t.pf p = { s.pf p with notBefore := max (s.pf p).notBefore ((s.pf p).offAt +
        s.fld Reg.FLD_GUARD Fld.FLD_GUARD_RESET_OFF * (100 * usec)) } ∧ FieldOf p s t ∧ Keeps [.regs, .field, .obs] s t) ∧
  (∀ (s : State) (p : Port) (e : Nat), Running s → (s.pf p).resetEnd = some e → s.role p = 2 → (s.pf p).wantOn = none →
    (s.pf p).ramp = .none → (s.pf p).carrier = false →
    Does (.resetOffExpiry p) s fun t =>
      t.pf p = { s.pf p with resetEnd := none, wantOn := some (max s.time e), wantOff := none } ∧ t.field.synRun = true ∧
      (∀ m, m ≠ p.val → t.pf m = s.pf m) ∧ RegsBut [Reg.FLD_SYN_STATUS] s t ∧ Passes e [.regs, .field] s t)

/-- R60-R62, R575, R576: phase, amplitude and compensation. A write of PHASE or AMPL goes to the register, and one that changes it with the
field on waits to be applied; applied in FIELD over the ASK edge, the codes, the thermal limit and the locked ceiling in force are those of
the registers; under a blank the change is due from then on. A compensation update, at the next multiple of 100 µs, reports temperature and
headroom, COMP_FAIL for a missed set-point without headroom, and lowers LIMIT by 16 with more dissipation than the budget. -/
def Obligations.PhaseAmplitudeAndLimits : Prop :=
  (∀ (s : State) (p : Port) (isAmpl : Bool) (v : Word), Running s → s.fieldOn p = true →
    Does (.phaseAmplWrite p isAmpl v) s fun t =>
      (∀ a, a = (if isAmpl then Reg.FLD_P_AMPL p else Reg.FLD_P_PHASE p) → t.reg a = (s.writeReg a v).reg a ∧
        (t.reg a ≠ s.reg a → t.pf p = { s.pf p with pend := true }) ∧ (t.reg a = s.reg a → t.pf p = s.pf p)) ∧ FieldOf p s t) ∧
  (∀ (s : State) (p : Port) (isAmpl : Bool) (v : Word), Running s → s.fieldOn p = false →
    Does (.phaseAmplWrite p isAmpl v) s fun t =>
      (∀ a, a = (if isAmpl then Reg.FLD_P_AMPL p else Reg.FLD_P_PHASE p) → t.reg a = (s.writeReg a v).reg a) ∧ Keeps [.regs, .obs] s t) ∧
  (∀ (s : State) (p : Port), Running s → (s.pf p).pend = true → (s.pf p).radio = .field → (s.pf p).ramp = .none → (s.pf p).txEnd = none →
    (s.pf p).guardEnd = none → (s.pf p).paEnd = none → s.airFree p (s.time + s.fld Reg.FLD_RAMP Fld.FLD_RAMP_ASK_EDGE * 3200) 0 = true →
    Does (.phaseAmplApply p) s fun t =>
      (t.pf p).phase = s.fld (Reg.FLD_P_PHASE p) Fld.FLD_P_PHASE_OFFSET ∧ (t.pf p).ampl = s.fld (Reg.FLD_P_AMPL p) Fld.FLD_P_AMPL_AMPL ∧
      (t.pf p).limit = s.fld Reg.PWR_THERM_STATUS Fld.PWR_THERM_STATUS_LIMIT ∧ (t.pf p).ceil = s.ceil p ∧ (t.pf p).pend = false ∧
      (t.pf p).paEnd = some (s.time + s.fld Reg.FLD_RAMP Fld.FLD_RAMP_ASK_EDGE * 3200) ∧ (t.pf p).dueSince = none ∧
      (∀ m, m ≠ p.val → t.pf m = s.pf m) ∧ Keeps [.field, .obs] s t) ∧
  (∀ (s : State) (p : Port), Running s → (s.pf p).pend = true → (s.pf p).radio = .field → (s.pf p).ramp = .none → (s.pf p).txEnd = none →
    (s.pf p).guardEnd = none → (s.pf p).paEnd = none → s.blanked p = true →
    Does (.phaseAmplApply p) s fun t =>
      t.pf p = { s.pf p with dueSince := some ((s.pf p).dueSince.getD s.time) } ∧ FieldOf p s t ∧ Keeps [.field] s t) ∧
  (∀ (s : State) (l : List DriverMeas) (n : Fin 4) (m : DriverMeas), Running s → l[n.val]? = some m →
    Does (.compensationUpdate l) s fun t =>
      t.time = (s.time / (100 * usec) + 1) * (100 * usec) ∧ t.fld (Reg.FLD_P_COMP n) Fld.FLD_P_COMP_TEMP = m.temp.toNat ∧
      t.flag (Reg.FLD_P_COMP n) Fld.FLD_P_COMP_HEADROOM = m.headroom ∧
      (m.missed = true → m.headroom = false → t.flag (Reg.FLD_P_COMP n) Fld.FLD_P_COMP_COMP_FAIL = true)) ∧
  (∀ (s : State) (l : List DriverMeas), Running s →
    5 * s.fld Reg.PWR_THERM Fld.PWR_THERM_BUDGET < ((List.range 4).map (s.dissOf (l.take 4))).sum →
    16 ≤ s.fld Reg.PWR_THERM_STATUS Fld.PWR_THERM_STATUS_LIMIT →
    Does (.compensationUpdate l) s fun t =>
      t.fld Reg.PWR_THERM_STATUS Fld.PWR_THERM_STATUS_LIMIT = s.fld Reg.PWR_THERM_STATUS Fld.PWR_THERM_STATUS_LIMIT - 16 ∧
      t.flag Reg.PWR_THERM_STATUS Fld.PWR_THERM_STATUS_LIMITED = true)

/-- R76-R80: the duty gate. At the start of a bin, a millisecond after the last, the port-ms of the bin that ends joins the history of 1,000
bins, the number fixed for the new bin comes into force, and the register shows the use of the last 1,000 bins. With no field on no port
counts for the new bin and nothing else moves; with the ceiling at 256 no port is changed then. -/
def Obligations.DutyBinsMoveOn : Prop :=
  (∀ (s : State), Running s →
    Does .dutyBinStart s fun t =>
      t.time = max s.time ((s.field.bin + 1) * msec) ∧ t.field.bin = s.field.bin + 1 ∧
      t.field.bins = (popCount s.field.onInBin :: s.field.bins).take 1000 ∧ t.field.nNow = s.field.nNext) ∧
  (∀ (s : State), Running s → s.onMask = 0 →
    Does .dutyBinStart s fun t =>
      t.time = max s.time ((s.field.bin + 1) * msec) ∧ t.field.bin = s.field.bin + 1 ∧
      t.field.bins = (popCount s.field.onInBin :: s.field.bins).take 1000 ∧ t.field.onInBin = 0 ∧ t.field.nNow = s.field.nNext ∧
      t.field.victims = s.field.victims ∧ RegsBut [Reg.FLD_DUTY_STATUS] s t ∧ Keeps [.time, .sram, .regs, .field, .obs] s t) ∧
  (∀ (s : State), Running s → s.fld Reg.FLD_DUTY Fld.FLD_DUTY_CEIL_EFF = 256 → s.onMask = 0 →
    Does .dutyBinStart s fun t => ∀ p : Port, t.pf p = s.pf p) ∧
  (∀ (s : State), Running s → s.field.bins.length = 999 → (s.field.bins.sum + popCount s.field.onInBin) < 16384 →
    Does .dutyBinStart s fun t =>
      t.fld Reg.FLD_DUTY_STATUS Fld.FLD_DUTY_STATUS_USED = s.field.bins.sum + popCount s.field.onInBin)

/-- R69, R81-R83, R85: the coupling matrix. Once in each interval of REFRESH_S, with the air idle and nothing in the way of a modulation, an
unmeasured port is keyed alone for 20 µs, after 15 µs of biasing where it was in OFF, and its column is replaced by what was seen, referred
to code 1023 and phase offset 0 with the other fields taken out, and judged; a synthesiser that stands still is started instead. A change of
a pair's membership takes effect, in both ports' sets at once, while neither is in TX or RX; while the first is, nothing changes. That the
biasing and the keying are one command is the model's choice (log entry 79). -/
def Obligations.CouplingIsKeptUpToDate : Prop :=
  (∀ (s : State) (p : Port) (l : List Word) (e : Nat), Running s → s.gen.phase = .run → s.measured p = false →
    (s.pf p).carrier = false → (s.pf p).ramp = .none → s.field.synRun = true →
    e = max s.time (s.retryFrom p) + (if (s.pf p).radio = .off then 15 * usec else 0) →
    (s.advance e).airIdle p (e + 20 * usec) = true → (s.advance e).airFree p (e + 20 * usec) 0 = true →
    e + 20 * usec ≤ s.retryFrom p + s.refreshTime →
    Does (.matrixRetry p l) s fun t =>
      t.time = e + 20 * usec ∧ (t.pf p).retryAt = s.retryFrom p + s.refreshTime ∧
      (∀ i : Port, t.reg (Reg.FLD_COUPLE (16 * i.val + p.val)) = (((s.advance e).keyedColumn p l)[i.val]?).getD 0) ∧
      t.measured p = t.ownEntryOk p ∧ (∀ m, m ≠ p.val → t.pf m = s.pf m)) ∧
  (∀ (s : State) (p : Port) (l : List Word), Running s → s.gen.phase = .run → s.measured p = false →
    (s.pf p).carrier = false → (s.pf p).ramp = .none → s.field.synRun = false →
    Does (.matrixRetry p l) s fun t => t = s.startSyn ∧ t.field.synRun = true) ∧
  (∀ (s : State) (p q : Port), Running s → p ≠ q → (s.neighDue p).testBit q ≠ s.areNeigh p q → s.outOfAir p = true → s.outOfAir q = true →
    Does (.neighbourSetChange p q) s fun t =>
      t.areNeigh p q = (s.neighDue p).testBit q ∧ t.areNeigh q p = (s.neighDue p).testBit q ∧ Posted 0x2004 .top 0 t ∧
      (∀ n m : Port, (n ≠ p ∨ m ≠ q) → (n ≠ q ∨ m ≠ p) → t.areNeigh n m = s.areNeigh n m) ∧ Keeps [.field, .obs] s t) ∧
  (∀ (s : State) (p q : Port), Running s → s.outOfAir p = false →
    Does (.neighbourSetChange p q) s fun t => t = s)

/-- R83, R91, R93-R96, R138: deferral and warm-up. A deferral that reaches STARVE_LIMIT gives its port or huddle precedence, with
FLD_STARVE. An enabled warm-up step starts on a port in FIELD where phase and air let it and lasts its time, in CAL; at its end it has been
done and the port is in FIELD again; the coupling refresh replaces the port's column by what the dip gives, and step 1 adapts no other
port's weights. A port without an enabled step for WARM_MAX is late; that the time counts in OFF as well is the model's choice (log entry
74). -/
def Obligations.StarvedAndWarm : Prop :=
  (∀ (s : State) (p : Port) (d : Nat), Running s → (s.pf p).dueSince = some d → (s.pf p).starved = false →
    Does (.fldStarve (.port p)) s fun t =>
      t.pf p = { s.pf p with starved := true } ∧ Posted 0x2003 .top 0 t ∧ FieldOf p s t ∧ Passes (d + s.starveLimit) [.field] s t) ∧
  (∀ (s : State) (h : Huddle) (d : Nat), Running s → (s.hud h).dueSince = some d → (s.hud h).starved = false →
    Does (.fldStarve (.huddle h)) s fun t =>
      t.hud h = { s.hud h with starved := true } ∧ Posted 0x2003 .top 0 t ∧ Passes (d + s.starveLimit) [.field] s t) ∧
  (∀ (s : State) (p : Port) (i : Fin 6), Running s → s.fldBit Reg.FLD_WARMUP Fld.FLD_WARMUP_STEP_EN i = true → (i.val ≠ 3 ∨ p.val < 4) →
    (s.pf p).step = none → (s.pf p).radio = .field → s.stepPhase p i = true → s.stepAir p i (s.time + stepUs i * usec) = true →
    Does (.warmupStepStart p i) s fun t =>
      t.pf p = { s.pf p with step := some (i.val, s.time + stepUs i * usec), radio := .cal, stepAsked := setBit (s.pf p).stepAsked i false } ∧
      FieldOf p s t ∧ Keeps [.field] s t) ∧
  (∀ (s : State) (p : Port) (i e : Nat) (l : List Word) (samples : List RxSample), Running s → (s.pf p).step = some (i, e) → i ≠ 5 →
    Does (.warmupStepDone p l samples) s fun t =>
      t.pf p = { s.pf p with step := none, radio := if (s.pf p).radio = .cal then .field else (s.pf p).radio,
                             stepDone := (s.pf p).stepDone.set i (max s.time e), quietFrom := max s.time e } ∧
      (i ≠ 1 → t.pr p = s.pr p) ∧ RxeOf p s t ∧ FieldOf p s t ∧ Passes e [.field, .rxe] s t) ∧
  (∀ (s : State) (p : Port) (e : Nat) (l : List Word) (samples : List RxSample), Running s → (s.pf p).step = some (5, e) →
    Does (.warmupStepDone p l samples) s fun t =>
      t.pf p = { s.pf p with step := none, radio := if (s.pf p).radio = .cal then .field else (s.pf p).radio,
                             stepDone := (s.pf p).stepDone.set 5 (max s.time e), quietFrom := max s.time e } ∧
      ∀ i : Port, t.reg (Reg.FLD_COUPLE (16 * i.val + p.val)) = ((s.dippedColumn p l)[i.val]?).getD 0) ∧
  (∀ (s : State) (p : Port), Running s → s.fldBit Reg.FLD_WARMUP_STATUS Fld.FLD_WARMUP_STATUS_LATE p = false → s.stepLate p = true →
    (s.pf p).radio ≠ .off →
    Does (.fldWarmLate p) s fun t =>
      t.fldBit Reg.FLD_WARMUP_STATUS Fld.FLD_WARMUP_STATUS_LATE p = true ∧ Posted 0x2006 .heart 0 t ∧
      RegsBut [Reg.FLD_WARMUP_STATUS] s t ∧ Keeps [.regs, .obs] s t)

/-- R55, R69, R79, R87, R146, R183, R184, R192: a frame on a free port, the frames of its neighbours due at the boundary chosen with it.
With nothing left that holds it, its modulation starts, lasts its length and fixes the window's; without lock it is held, marked so and due.
At its end a reader's window opens for the time fixed, with the receiver armed for the reply's technology, where a reply is expected; where
none is, a host frame's exchange is over with RESULT 0. What a surplus port exchanges is cut 64 µs before the end of the bin, with RESULT 11
where nothing was being received. -/
def Obligations.FramesOnAir : Prop :=
  (∀ (s : State) (p : Port) (x : Plan), Running s → (s.pp p).plan = some x → s.huddled p = none → s.frameReady p x = true →
    (s.pf p).radio = .field → s.flag Reg.COX_CTRL Fld.COX_CTRL_REQ_EN = false → s.frameDue p x ≤ s.time → s.locked = true →
    s.settlePast = false → s.blanked p = false → s.granted = true →
    (State.each (fun m u => if m = p.val ∨ s.keepOut p m then u.pickPlan m else u) 16 s).mayModulate p (s.time + s.frameSpan x.frame)
      (s.frameWin x.frame) = true →
    Does (.frameStart p) s fun t =>
      (t.pf p).radio = .tx ∧ (t.pf p).txFrom = s.time ∧ (t.pf p).txEnd = some (s.time + s.frameSpan x.frame) ∧
      (t.pf p).winLen = s.frameWin x.frame ∧ (t.pf p).dueSince = none ∧
      t.pp p = { s.pp p with plan := none, xch := some { plan := x, startAt := s.time, txDone := false, earlier := none } } ∧
      (∀ m, m ≠ p.val → t.pf m = s.pf m) ∧ CoxOf p s t ∧
      ((∀ m : Port, m ≠ p → s.keepOut p m = false) → ProOf p s t ∧ Keeps [.field, .pro, .cox, .obs] s t)) ∧
  (∀ (s : State) (p : Port) (x : Plan), Running s → (s.pp p).plan = some x → s.huddled p = none → s.frameReady p x = true →
    (s.pf p).radio = .field → s.flag Reg.COX_CTRL Fld.COX_CTRL_REQ_EN = false → s.frameDue p x ≤ s.time → s.locked = false →
    Does (.frameStart p) s fun t =>
      t.pp p = { s.pp p with plan := some { x with heldSyn := true, synSince := some (x.synSince.getD s.time) } } ∧
      t.pf p = { s.pf p with dueSince := some ((s.pf p).dueSince.getD s.time) } ∧ (∀ m, m ≠ p.val → t.pf m = s.pf m)) ∧
  (∀ (s : State) (p : Port) (before : RxOpen) (e : Nat) (x : Exchange), Running s → (s.pp p).xch = some x → (s.pf p).txEnd = some e →
    x.plan.frame.purpose = .host → x.plan.frame.resp = false → x.plan.frame.tech ≠ 6 →
    Does (.frameTxEnd p before) s fun t =>
      t.time = max s.time e ∧ (t.pp p).xch = none ∧ (t.pp p).lastEnd = max s.time e ∧ (t.pp p).lastTech = x.plan.frame.tech ∧
      t.reg (Reg.PRO_P_LAST_PRS p) = { x with txDone := true }.prs 0 false ∧
      t.fld (Reg.PRO_P_COUNTS p) Fld.PRO_P_COUNTS_DONE = satAdd 65535 (s.fld (Reg.PRO_P_COUNTS p) Fld.PRO_P_COUNTS_DONE) 1 ∧
      (t.pr p).state = .idle ∧ ProOf p s t ∧ RxeOf p s t) ∧
  (∀ (s : State) (p : Port) (before : RxOpen) (e : Nat) (x : Exchange), Running s → (s.pp p).xch = some x → (s.pf p).txEnd = some e →
    x.plan.frame.resp = true → s.role p = 2 → x.plan.frame.tech ≠ 6 →
    Does (.frameTxEnd p before) s fun t =>
      t.time = max s.time e ∧ (t.pf p).radio = .rx ∧ (t.pf p).txEnd = none ∧ (t.pf p).window = some (e + (s.pf p).winLen) ∧
      (t.pr p).state = .armed ∧ (t.pr p).tech = x.plan.frame.rtech ∧ (t.pr p).rate = x.plan.frame.rrate ∧ (t.pr p).modEnd = e ∧
      t.pp p = { s.pp p with xch := some { x with txDone := true } } ∧ ProOf p s t ∧ RxeOf p s t) ∧
  (∀ (s : State) (p : Port) (rx : RxData) (x : Exchange), Running s → s.field.victims.testBit p = true → (s.pp p).xch = some x →
    (s.pa p).poll = none → s.inFrame p = false → x.plan.frame.purpose = .host →
    Does (.dutyCutDeadline p rx) s fun t =>
      t.time = max s.time ((s.field.bin + 1) * msec - 64 * usec) ∧ (t.pp p).xch = none ∧
      t.reg (Reg.PRO_P_LAST_PRS p) = x.prs 11 false ∧
      t.fld (Reg.PRO_P_COUNTS p) Fld.PRO_P_COUNTS_NOT_OK = satAdd 65535 (s.fld (Reg.PRO_P_COUNTS p) Fld.PRO_P_COUNTS_NOT_OK) 1 ∧
      ProOf p s t)

/-- R93, R94, R101-R103, R107-R109, R114-R116, R131: the tuner. A measurement that MEASURE has scheduled runs in an idle gap, as a step 4 of
its own; one in warm-up step 4 takes 4 µs; the vector, referred to code 1023 and phase offset 0 with the other fields taken out, is
reported, as REF too where CAPTURE_REF asked for it. RETUNE in FIELD begins a search with the code in force; a search measurement is
reported and the search goes on with a further code or ends. A code written joins the link's frames behind the one in progress; a frame
done, the code settles for SETTLE_US, or has been read back; a first disagreement sends the pair again, a second is a link failure; settled,
with the field on, the operation ends 20 µs later with the coupling refresh due. -/
def Obligations.TunerMeasuresAndSends : Prop :=
  (∀ (s : State) (p : Port) (v : Word), Running s → s.gen.phase = .run → s.mayMeasure p = true → (s.pf p).step = none →
    (s.pt p).measNext = true → s.gapAhead p (30 * usec) = true →
    Does (.vectorMeasurement p v) s fun t =>
      let w := ((s.advance (s.time + 12 * usec)).loadedVec p v).2
      t.time = s.time + 12 * usec ∧ t.reg (Reg.TUN_P_VEC p) = w ∧
      t.reg (Reg.TUN_P_REF p) = (if (s.pt p).refNext then w else s.reg (Reg.TUN_P_REF p)) ∧ (t.pt p).refNext = false ∧
      (t.pt p).measNext = false ∧ (t.pt p).measAt = s.time + 12 * usec ∧
      (t.pf p).stepDone = (s.pf p).stepDone.set 4 (s.time + 12 * usec)) ∧
  (∀ (s : State) (p : Port) (v : Word) (e : Nat), Running s → (s.pf p).step = some (4, e) →
    Does (.vectorMeasurement p v) s fun t =>
      let w := ((s.advance (s.time + 4 * usec)).loadedVec p v).2
      t.time = s.time + 4 * usec ∧ t.reg (Reg.TUN_P_VEC p) = w ∧
      t.reg (Reg.TUN_P_REF p) = (if (s.pt p).refNext then w else s.reg (Reg.TUN_P_REF p)) ∧ (t.pt p).refNext = false ∧
      (t.pt p).measAt = s.time + 4 * usec) ∧
  (∀ (s : State) (p : Port), Running s → s.lockedBlock 0x11 = false →
    Does (.captureRef p) s fun t => t.pt p = { s.pt p with refNext := true } ∧ TunOf p s t ∧ Keeps [.tun] s t) ∧
  (∀ (s : State) (p : Port), Running s → (s.pf p).radio = .field → (s.pt p).search = none →
    Does (.retune p) s fun t =>
      t.flag (Reg.TUN_P_STATUS p) Fld.TUN_P_STATUS_SEARCHING = true ∧ RegsBut [Reg.TUN_P_STATUS p] s t ∧
      ((t.pt p).search.any fun x => decide (x.trying = some x.code) && decide (x.code = s.fld (Reg.TUN_P_CODE p) (axisField x.axis)) &&
        decide (x.step = s.fld (Reg.TUN_P_SEARCH p) Fld.TUN_P_SEARCH_STEP_INIT)) = true) ∧
  (∀ (s : State) (p : Port), Running s →
    Does (.measure p) s fun t => t.pt p = { s.pt p with measNext := true } ∧ TunOf p s t ∧ Keeps [.tun] s t) ∧
  (∀ (s : State) (p : Port) (v : Word) (x : Search) (c : Nat), Running s → (s.pt p).search = some x → x.trying = some c →
    s.codeSettled p = true → s.mayMeasure p = true →
    (s.flag (Reg.TUN_P_TUNER p) Fld.TUN_P_TUNER_NONE = false ∨ s.searchGap p s.time = true) →
    Does (.searchMeasurement p v) s fun t =>
      t.time = s.time + 4 * usec ∧ t.reg (Reg.TUN_P_VEC p) = ((s.advance (s.time + 4 * usec)).loadedVec p v).2 ∧
      (t.pt p).measAt = s.time + 4 * usec ∧
      ((t.pt p).search = none ∨ ((t.pt p).search.any fun y => y.trying.isSome) = true)) ∧
  (∀ (s : State) (p : Port) (v : Word), Running s → (s.pt p).search = none → s.flag (Reg.TUN_P_TUNER p) Fld.TUN_P_TUNER_NONE = false →
    s.tun.link.head?.any (fun q => q.ends.isSome) = true →
    Does (.tunerCodeWrite p v) s fun t =>
      t.reg (Reg.TUN_P_CODE p) = (s.writeReg (Reg.TUN_P_CODE p) v).reg (Reg.TUN_P_CODE p) ∧
      t.tun.link.length = s.tun.link.length + 1 ∧
      t.tun.link.any (fun q => decide (q.port = p.val ∧ q.code = t.reg (Reg.TUN_P_CODE p) ∧ q.isRead = false ∧ q.asked = s.time)) = true) ∧
  (∀ (s : State) (v : Word) (q : LinkReq) (e : Nat), Running s → s.tun.link = [q] → q.ends = some e → q.port < 16 → q.isRead = false →
    s.verifies q.port = false →
    Does (.tunerFrameDone v) s fun t =>
      t.tun.link = [] ∧ (t.pt q.port).settleEnd = some (max s.time e + s.settleTime q.port) ∧ Passes e [.tun] s t) ∧
  (∀ (s : State) (v : Word) (q : LinkReq) (e : Nat), Running s → s.tun.link = [q] → q.ends = some e → q.port < 16 → q.isRead = true →
    s.codesAgree q.port q.code v = false → q.again = true →
    Does (.tunerFrameDone v) s fun t =>
      t.flag Reg.TUN_LINK_STATUS Fld.TUN_LINK_STATUS_LINK_FAIL = true ∧ Posted 0x3007 .heart 0 t ∧ t.tun.link = [] ∧
      (t.pt q.port).settleEnd = some (max s.time e + s.settleTime q.port) ∧ Passes e [.regs, .tun] s t) ∧
  (∀ (s : State) (v : Word) (q : LinkReq) (e : Nat), Running s → s.tun.link = [q] → q.ends = some e → q.port < 16 → q.isRead = true →
    s.codesAgree q.port q.code v = false → q.again = false →
    Does (.tunerFrameDone v) s fun t =>
      (t.tun.link.map fun r => (r.port, r.code, r.isRead, r.again)) = [(q.port, q.code, false, true)]) ∧
  (∀ (s : State) (p : Port) (e : Nat) (samples : List RxSample), Running s → (s.pt p).settleEnd = some e →
    (s.pt p).opEnd = none → s.tun.link = [] →
    Does (.tunerSettleExpiry p samples) s fun t => t.pt p = { s.pt p with settleEnd := none } ∧ TunOf p s t ∧ Passes e [.tun] s t) ∧
  (∀ (s : State) (p : Port) (e o : Nat) (samples : List RxSample), Running s → (s.pt p).settleEnd = some e →
    (s.pt p).opEnd = some o → s.tun.link = [] →
    Does (.tunerSettleExpiry p samples) s fun t =>
      t.time = max s.time e + 20 * usec ∧ (t.pt p).settleEnd = none ∧ (t.pt p).opEnd = none ∧ (t.pf p).stepAsked.testBit 5 = true ∧
      RxeOf p s t)

/-- R119-R126: sniff. A round starts INTERVAL_MS after the one before with the pings of all members to come, what was left of that one
skipped and counted; a synthesiser that stands still is started, asleep in SNIFF ready within 150 µs. With the synthesiser locked and
nothing in its way a ping takes 8 µs, with T_BIAS before and after on a relay port, marks the port in the bin, and reports its vector; the
first goes into the baseline; with the baseline of four, one that steps away sets WAKE and posts the event, or is confirmed 2 ms later where
CONFIRM is 1. The repeat that is held waits, and is skipped after a full interval; sent, it counts towards a baseline that is being taken
anew, wakes where it steps away, and else leaves the baseline. That a skipped repeat gives no wake is the model's choice (log entry 74). -/
def Obligations.SniffRounds : Prop :=
  (∀ (s : State), Running s → s.pingsRun = true → ((List.range 16).filter s.inRound) ≠ [] → s.tun.todo = [] →
    Does .sniffRoundStart s fun t =>
      t.tun = { s.tun with lastRound := max s.time (s.tun.lastRound + s.roundTime), todo := (List.range 16).filter s.inRound } ∧
      t.field.synRun = true ∧ RegsBut [Reg.FLD_SYN_STATUS] s t ∧ Passes (s.tun.lastRound + s.roundTime) [.regs, .field, .tun] s t) ∧
  (∀ (s : State), s.pwr.awake = .sniff → s.pingsRun = true → ((List.range 16).filter s.inRound) ≠ [] → s.tun.todo = [] →
    Does .sniffRoundStart s fun t =>
      t.tun = { s.tun with lastRound := max s.time (s.tun.lastRound + s.roundTime), todo := (List.range 16).filter s.inRound } ∧
      t.field.synRun = true ∧ (s.field.synRun = false → t.field.settleEnd.any (fun e => decide (e ≤ t.time + 150 * usec)) = true) ∧
      RegsBut [Reg.FLD_SYN_STATUS] s t ∧ Passes (s.tun.lastRound + s.roundTime) [.regs, .field, .tun, .free] s t) ∧
  (∀ (s : State), Running s → s.pingsRun = true → ((List.range 16).filter s.inRound) ≠ [] →
    Does .sniffRoundStart s fun t =>
      t.fld Reg.TUN_SNIFF_STATUS Fld.TUN_SNIFF_STATUS_SKIPS =
        min 65535 (s.fld Reg.TUN_SNIFF_STATUS Fld.TUN_SNIFF_STATUS_SKIPS + s.tun.todo.length) ∧
      RegsBut [Reg.TUN_SNIFF_STATUS, Reg.FLD_SYN_STATUS] s t) ∧
  (∀ (s : State) (p : Port) (v : Word) (l : List Nat), Running s → s.tun.todo = p.val :: l → s.pingsRun = true → s.inRound p = true →
    s.vddtxOk p = true → s.settlePast = false → s.pingHeld p = false → s.pingAllowed p = true → (s.pt p).baseCount = 0 →
    Does (.sniffPing p v) s fun t =>
      t.time = s.time + 8 * usec + (if isRelay p then 2 * s.biasTime p else 0) ∧ t.reg (Reg.TUN_P_SNIFF_LAST p) = v ∧
      t.pt p = { s.pt p with baseCount := 1, baseI := vecI v, baseQ := vecQ v, burst := some (s.burstOf p) } ∧
      t.tun.todo = l.filter (fun m => m ≠ p.val) ∧ t.field.onInBin.testBit p = true ∧ RegsBut [Reg.TUN_P_SNIFF_LAST p] s t) ∧
  (∀ (s : State) (p : Port) (v : Word) (l : List Nat), Running s → s.tun.todo = p.val :: l → s.pingsRun = true → s.inRound p = true →
    s.vddtxOk p = true → s.settlePast = false → s.pingHeld p = false → s.pingAllowed p = true → (s.pt p).baseCount = 4 →
    s.steps p v = true → s.flag (Reg.TUN_P_SNIFF p) Fld.TUN_P_SNIFF_CONFIRM = true →
    Does (.sniffPing p v) s fun t =>
      t.reg (Reg.TUN_P_SNIFF_LAST p) = v ∧ t.pt p = { s.pt p with confirmAt := some (s.time + 2 * msec), burst := some (s.burstOf p) } ∧
      RegsBut [Reg.TUN_P_SNIFF_LAST p] s t) ∧
  (∀ (s : State) (p : Port) (v : Word) (l : List Nat), Running s → s.tun.todo = p.val :: l → s.pingsRun = true → s.inRound p = true →
    s.vddtxOk p = true → s.settlePast = false → s.pingHeld p = false → s.pingAllowed p = true → (s.pt p).baseCount = 4 →
    s.steps p v = true → s.flag (Reg.TUN_P_SNIFF p) Fld.TUN_P_SNIFF_CONFIRM = false →
    Does (.sniffPing p v) s fun t =>
      t.reg (Reg.TUN_P_SNIFF_LAST p) = v ∧ t.fldBit Reg.TUN_SNIFF_STATUS Fld.TUN_SNIFF_STATUS_WAKE p = true ∧ (t.pt p).baseCount = 0 ∧
      Posted 0x3005 .top 0 t) ∧
  (∀ (s : State) (p : Port) (v : Word) (e : Nat), Running s → (s.pt p).confirmAt = some e → s.pingsRun = true → s.inRound p = true →
    s.vddtxOk p = true → s.settlePast = false → s.pingHeld p = true → e ≤ s.time → s.time < e + s.roundTime →
    Does (.sniffConfirmPing p v) s fun t => t = s) ∧
  (∀ (s : State) (p : Port) (v : Word) (e : Nat), Running s → (s.pt p).confirmAt = some e → s.pingsRun = true → s.inRound p = true →
    s.vddtxOk p = true → s.settlePast = false → s.pingHeld p = true → e + s.roundTime ≤ s.time →
    Does (.sniffConfirmPing p v) s fun t =>
      t.pt p = { s.pt p with confirmAt := none } ∧
      t.fld Reg.TUN_SNIFF_STATUS Fld.TUN_SNIFF_STATUS_SKIPS = satAdd 65535 (s.fld Reg.TUN_SNIFF_STATUS Fld.TUN_SNIFF_STATUS_SKIPS) 1 ∧
      RegsBut [Reg.TUN_SNIFF_STATUS] s t) ∧
  (∀ (s : State) (p : Port) (v : Word) (e : Nat), Running s → (s.pt p).confirmAt = some e → s.pingsRun = true → s.inRound p = true →
    s.vddtxOk p = true → s.settlePast = false → s.pingHeld p = false → s.pingAllowed p = true → e ≤ s.time →
    Does (.sniffConfirmPing p v) s fun t =>
      (t.pt p).confirmAt = none ∧ t.reg (Reg.TUN_P_SNIFF_LAST p) = v ∧
      ((s.pt p).baseCount < 4 → (t.pt p).baseCount = (s.pt p).baseCount + 1) ∧
      (4 ≤ (s.pt p).baseCount → s.steps p v = true → Posted 0x3005 .top 0 t ∧ (t.pt p).baseCount = 0) ∧
      (4 ≤ (s.pt p).baseCount → s.steps p v = false →
        t.time = s.time + 8 * usec + (if isRelay p then 2 * s.biasTime p else 0) ∧ (t.pt p).baseCount = (s.pt p).baseCount))

/-- R339-R342, R347, R350, R351, R353, R357, R358, R621: the store port. A host READ, PROGRAM or ERASE that R351 does not refuse joins the
queue with its buffer busy; an ERASE that it refuses ends with RESULT 5 and an event. An operation that may start is marked started on its
block; a status poll that finds the die busy is sent at the next time of R621 and changes nothing of the operation; with the die ready, a
host read ends by its status with its bytes in the buffer, a host program well where its status says so, a host erase that failed with
RESULT 4 and its block on the grown list. An operation that overruns its timeout enters RECOVERY with CAUSE 2 and nothing runs on; the
start-up is tried again once per second, and one that succeeds clears FAIL. -/
def Obligations.StoreOperations : Prop :=
  (∀ (s : State) (v : Word), Running s → Fld.STO_HCMD_OP.get v = 1 → s.stoReady = true → s.gen.phase ≠ .safe →
    s.fld Reg.STO_HCOL Fld.STO_HCOL_LEN ≠ 0 →
    s.hcmdBad 1 (Fld.STO_HCMD_REGION.get v) (Fld.STO_HCMD_PAGE.get v) (s.fld Reg.STO_HCOL Fld.STO_HCOL_COL)
      (s.fld Reg.STO_HCOL Fld.STO_HCOL_LEN) (Fld.STO_HCMD_BUF.get v) = false →
    Does (.stoRead v) s fun t =>
      (t.sto.queue.map fun q => (q.kind, q.region, q.page, q.started)) = (s.sto.queue.map fun q => (q.kind, q.region, q.page, q.started)) ++
        [(.hostRead (Fld.STO_HCMD_BUF.get v) (s.fld Reg.STO_HCOL Fld.STO_HCOL_COL) (s.fld Reg.STO_HCOL Fld.STO_HCOL_LEN),
          Fld.STO_HCMD_REGION.get v, Fld.STO_HCMD_PAGE.get v, none)] ∧
      t.flag Reg.STO_HSTATUS (hBusy (Fld.STO_HCMD_BUF.get v)) = true ∧ RegsBut [Reg.STO_HSTATUS] s t) ∧
  (∀ (s : State) (v : Word), Running s → Fld.STO_HCMD_OP.get v = 2 → s.stoReady = true → s.gen.phase ≠ .safe →
    s.hcmdBad 2 (Fld.STO_HCMD_REGION.get v) (Fld.STO_HCMD_PAGE.get v) (s.fld Reg.STO_HCOL Fld.STO_HCOL_COL)
      (s.fld Reg.STO_HCOL Fld.STO_HCOL_LEN) (Fld.STO_HCMD_BUF.get v) = false →
    Does (.stoProgram v) s fun t =>
      (t.sto.queue.map fun q => (q.kind, q.region, q.page, q.started)) = (s.sto.queue.map fun q => (q.kind, q.region, q.page, q.started)) ++
        [(.hostProgram (Fld.STO_HCMD_BUF.get v), Fld.STO_HCMD_REGION.get v, Fld.STO_HCMD_PAGE.get v, none)] ∧
      t.flag Reg.STO_HSTATUS (hBusy (Fld.STO_HCMD_BUF.get v)) = true ∧ RegsBut [Reg.STO_HSTATUS] s t) ∧
  (∀ (s : State) (v : Word), Running s → Fld.STO_HCMD_OP.get v = 3 → s.stoReady = true → s.gen.phase ≠ .safe →
    s.hcmdBad 3 (Fld.STO_HCMD_REGION.get v) (Fld.STO_HCMD_PAGE.get v) (s.fld Reg.STO_HCOL Fld.STO_HCOL_COL)
      (s.fld Reg.STO_HCOL Fld.STO_HCOL_LEN) (Fld.STO_HCMD_BUF.get v) = false →
    Does (.stoErase v) s fun t =>
      (t.sto.queue.map fun q => (q.kind, q.region, q.page, q.started)) = (s.sto.queue.map fun q => (q.kind, q.region, q.page, q.started)) ++
        [(.hostErase (Fld.STO_HCMD_BUF.get v), Fld.STO_HCMD_REGION.get v, Fld.STO_HCMD_PAGE.get v, none)] ∧
      t.flag Reg.STO_HSTATUS (hBusy (Fld.STO_HCMD_BUF.get v)) = true ∧ RegsBut [Reg.STO_HSTATUS] s t) ∧
  (∀ (s : State) (v : Word), Running s → Fld.STO_HCMD_OP.get v = 3 → s.stoReady = true →
    s.flag Reg.STO_HSTATUS (hBusy (Fld.STO_HCMD_BUF.get v)) = false →
    s.hcmdBad 3 (Fld.STO_HCMD_REGION.get v) (Fld.STO_HCMD_PAGE.get v) (s.fld Reg.STO_HCOL Fld.STO_HCOL_COL)
      (s.fld Reg.STO_HCOL Fld.STO_HCOL_LEN) (Fld.STO_HCMD_BUF.get v) = true →
    Does (.stoErase v) s fun t =>
      t.fld Reg.STO_HSTATUS (hResult (Fld.STO_HCMD_BUF.get v)) = 5 ∧ t.flag Reg.STO_HSTATUS (hDone (Fld.STO_HCMD_BUF.get v)) = true ∧
      Posted 0x8006 .top 0 t ∧ RegsBut [Reg.STO_HSTATUS] s t ∧ Keeps [.regs, .obs] s t) ∧
  (∀ (s : State) (i k b : Nat) (q : StoOp), Running s → s.gen.phase = .run → s.saf.hasRun = false →
    s.flag Reg.STO_STATUS Fld.STO_STATUS_FAIL = false → s.nextOp = some i → s.sto.queue[i]? = some q → q.kind = .hostProgram k →
    s.opBlock q = some b →
    Does .storeOpStart s fun t =>
      ((t.sto.queue[i]?).any fun r => decide (r.kind = q.kind) && decide (r.block = b) && r.started.isSome && !r.suspended) = true ∧
      t.regs = s.regs) ∧
  (∀ (s : State) (d : Fin 16) (i : Nat) (q : StoOp) (t0 : Nat), Running s → s.running d (fun _ => true) = some (i, q) →
    q.started = some t0 →
    Does (.storeStatusPoll d) s fun t => t.sto.queue = s.sto.queue ∧ t.regs = s.regs ∧ Passes (pollAt t0 (s.time + 1)) [.sto] s t) ∧
  (∀ (s : State) (d : Fin 16) (status : Byte) (l : List Byte) (q : StoOp) (col len : Nat), Running s → s.sto.queue = [q] →
    q.runsOn d = true → q.kind = .hostRead 0 col len → s.stillBusy status = false →
    Does (.storePageReadDone d status l .none) s fun t =>
      t.sto.queue = [] ∧ t.sto.buf0 = Sparse.write s.sto.buf0 0 col (padTo 0 len l) ∧ t.sto.buf1 = s.sto.buf1 ∧
      t.fld Reg.STO_HSTATUS Fld.STO_HSTATUS_RESULT0 = (s.eccOf status).result ∧
      t.flag Reg.STO_HSTATUS Fld.STO_HSTATUS_BUSY0 = false ∧ t.flag Reg.STO_HSTATUS Fld.STO_HSTATUS_DONE0 = true) ∧
  (∀ (s : State) (d : Fin 16) (status : Byte) (q : StoOp), Running s → s.sto.queue = [q] → q.runsOn d = true → q.kind = .hostProgram 1 →
    s.stillBusy status = false → status.toNat.testBit 3 = false →
    Does (.storeProgramDone d status) s fun t =>
      t.sto.queue = [] ∧ t.fld Reg.STO_HSTATUS Fld.STO_HSTATUS_RESULT1 = 0 ∧ t.flag Reg.STO_HSTATUS Fld.STO_HSTATUS_BUSY1 = false ∧
      t.flag Reg.STO_HSTATUS Fld.STO_HSTATUS_DONE1 = true ∧ RegsBut [Reg.STO_HSTATUS] s t) ∧
  (∀ (s : State) (d : Fin 16) (status : Byte) (q : StoOp), Running s → s.sto.queue = [q] → q.runsOn d = true → q.kind = .hostErase 0 →
    s.stillBusy status = false → status.toNat.testBit 2 = true →
    Does (.storeEraseDone d status) s fun t =>
      t.sto.grown = insertAsc q.block s.sto.grown ∧ t.fld Reg.STO_HSTATUS Fld.STO_HSTATUS_RESULT0 = 4 ∧
      t.flag Reg.STO_HSTATUS Fld.STO_HSTATUS_DONE0 = true ∧ Posted 0x8003 .heart 0 t) ∧
  (∀ (s : State) (d : Fin 16) (i : Nat) (q : StoOp) (t0 : Nat), Running s → s.running d (fun _ => true) = some (i, q) →
    q.started = some t0 → s.gen.phase = .run →
    Does (.stoTimeout d) s fun t =>
      t.time = max s.time (t0 + q.kind.timeout) ∧ t.flag Reg.STO_STATUS Fld.STO_STATUS_FAIL = true ∧ Posted 0x8004 .heart 0 t ∧
      t.gen.phase = .recovery ∧ t.gen.cause = 2 ∧ (t.sto.queue.all fun r => r.started.isNone) = true) ∧
  (∀ (s : State), Running s → s.saf.hasRun = true → s.stoReady = false → s.stoThere = true → s.gen.phase ≠ .safe →
    Does (.storeReinitRetry true) s fun t =>
      t.time = max s.time s.sto.retryAt ∧ t.sto.retryAt = s.sto.retryAt + second ∧ t.stoReady = true ∧
      t.flag Reg.STO_STATUS Fld.STO_STATUS_FAIL = false ∧ t.sto.grown = unionAsc s.sto.reserve [])

/-- R362, R363, R366, R367, R370, R377: the frames of a reader that the emulated tag serves. REQA in IDLE and WUPA in IDLE or HALT are
answered by ATQA 1,172/fc and 1,236/fc after the frame; SELECT of its own UID by SAK, at level 2 into ACTIVE; there READ is answered by the
block with CRC_A, or by NAK past block 63, or by BUSY where the selection found WIRE_LOCK set, each at the delay that the frame's last bit
gives; READ_CTR by the counter; HLTA ends the selection. REQA in HALT is not answered. -/
def Obligations.TagAnswersReaders : Prop :=
  (∀ (s : State), Running s → s.saf.safe = false → s.emu.updates = [] → s.tagSpeaks = true → s.emu.tag = .idle →
    Does .emuReqa s fun t =>
      t.emu = { s.emu with tag := .ready, level := 1, fromHalt := false, answer := [0x44, 0x00], answerBits := 8,
                           answers := s.emu.answers + 1, answerAir := t.emu.answerAir, answerAt := s.time + s.fc 1172 } ∧ Keeps [.emu] s t) ∧
  (∀ (s : State), Running s → s.saf.safe = false → s.emu.updates = [] → s.emu.tag = .halt → Does .emuReqa s fun t => t = s) ∧
  (∀ (s : State), Running s → s.saf.safe = false → s.emu.updates = [] → s.tagSpeaks = true → (s.emu.tag = .idle ∨ s.emu.tag = .halt) →
    Does .emuWupa s fun t =>
      t.emu = { s.emu with tag := .ready, level := 1, fromHalt := decide (s.emu.tag = .halt), answer := [0x44, 0x00], answerBits := 8,
                           answers := s.emu.answers + 1, answerAir := t.emu.answerAir, answerAt := s.time + s.fc 1236 } ∧ Keeps [.emu] s t) ∧
  (∀ (s : State) (l : List Byte), Running s → s.saf.safe = false → s.emu.updates = [] → s.tagSpeaks = true → s.emu.tag = .ready →
    s.emu.level = 1 → s.tagLevel 1 = l → l.length = 5 →
    Does (.emuSelect (0x93 :: 0x70 :: (l ++ leBytes 2 (crcA (0x93 :: 0x70 :: l)))) 0) s fun t =>
      t.emu = { s.emu with level := 2, answer := 0x04 :: leBytes 2 (crcA [0x04]), answerBits := 8, answers := s.emu.answers + 1,
                           answerAir := t.emu.answerAir, answerAt := t.emu.answerAt } ∧
      Keeps [.emu] s t) ∧
  (∀ (s : State) (l : List Byte), Running s → s.saf.safe = false → s.emu.updates = [] → s.tagSpeaks = true → s.emu.tag = .ready →
    s.emu.level = 2 → s.emu.harvest = false → s.tagLevel 2 = l → l.length = 5 →
    Does (.emuSelect (0x95 :: 0x70 :: (l ++ leBytes 2 (crcA (0x95 :: 0x70 :: l)))) 0) s fun t =>
      t.emu.tag = .active ∧ t.emu.lockedSel = s.flag Reg.EMU_WIRE Fld.EMU_WIRE_WIRE_LOCK ∧ t.emu.snapshot = none ∧
      t.emu.counted = false ∧ t.emu.answer = s.finalSak :: leBytes 2 (crcA [s.finalSak]) ∧
      t.fld Reg.EMU_COUNTS Fld.EMU_COUNTS_SELECTIONS = satAdd 65535 (s.fld Reg.EMU_COUNTS Fld.EMU_COUNTS_SELECTIONS) 1 ∧
      RegsBut [Reg.EMU_COUNTS] s t ∧ Keeps [.regs, .emu] s t) ∧
  (∀ (s : State) (b : Byte), Running s → s.saf.safe = false → s.emu.updates = [] → s.tagSpeaks = true → s.emu.tag = .active →
    s.emu.lockedSel = false → b.toNat ≤ 63 →
    Does (.emuRead b) s fun t =>
      t.emu.answer = s.tagBlock b.toNat ++ leBytes 2 (crcA (s.tagBlock b.toNat)) ∧ t.emu.answerBits = 8 ∧ t.emu.counted = true ∧
      t.emu.answerAt = s.time + s.fc (frameDelay (lastBitCrc [0x30, b])) ∧
      t.emu.tag = .active) ∧
  (∀ (s : State) (b : Byte), Running s → s.saf.safe = false → s.emu.updates = [] → s.tagSpeaks = true → s.emu.tag = .active →
    s.emu.lockedSel = false → 63 < b.toNat →
    Does (.emuRead b) s fun t =>
      t.emu = { s.emu with answer := [0], answerBits := 4, answers := s.emu.answers + 1,
                           answerAir := t.emu.answerAir, answerAt := s.time + s.fc (frameDelay (lastBitCrc [0x30, b])) } ∧ Keeps [.emu] s t) ∧
  (∀ (s : State) (b : Byte), Running s → s.saf.safe = false → s.emu.updates = [] → s.tagSpeaks = true → s.emu.tag = .active →
    s.emu.lockedSel = true →
    Does (.emuRead b) s fun t =>
      t.emu = { s.emu with answer := [5], answerBits := 4, answers := s.emu.answers + 1,
                           answerAir := t.emu.answerAir, answerAt := s.time + s.fc (frameDelay (lastBitCrc [0x30, b])) } ∧
      t.fld Reg.EMU_COUNTS Fld.EMU_COUNTS_BUSY_SENT = satAdd 65535 (s.fld Reg.EMU_COUNTS Fld.EMU_COUNTS_BUSY_SENT) 1) ∧
  (∀ (s : State) (i : Byte), Running s → s.saf.safe = false → s.emu.updates = [] → s.tagSpeaks = true → s.emu.tag = .active →
    i.toNat ≤ 7 → s.ctrBad i.toNat = false →
    Does (.readCtr i) s fun t =>
      t.emu = { s.emu with answer := s.ctrBytes i.toNat ++ leBytes 2 (crcA (s.ctrBytes i.toNat)), answerBits := 8,
                           answers := s.emu.answers + 1, answerAir := t.emu.answerAir, answerAt := t.emu.answerAt } ∧
      Keeps [.emu] s t) ∧
  (∀ (s : State), Running s → s.saf.safe = false → s.emu.updates = [] → s.emu.tag = .active → s.emu.heldWrite = none →
    s.emu.publishing = false →
    Does .emuHlta s fun t =>
      t.emu = { s.emu with tag := .halt, lockedSel := false, snapshot := none, counted := false } ∧ Keeps [.emu] s t)

/-- R255, R365, R367, R380: Accord commands with ADDR 0, other frames and the ends of a selection. ACC_BENCH in ACTIVE with BENCH_EN 1
begins a bench that the retention cell holds too; ACC_RELEASE and ACC_ENROL then change nothing; any other frame returns READY to IDLE, or
to HALT where the tag was woken from there, and leaves IDLE as it is. A bench ends at its time or within 1 ms after it; 2 ms without field
return the tag from READY to IDLE. -/
def Obligations.TagBenchesAndFallsBack : Prop :=
  (∀ (s : State) (dur : Byte), Running s → s.saf.safe = false → s.emu.updates = [] → s.emu.tag = .active → s.benchEn = true → dur ≠ 0 →
    Does (.emuAccBench dur) s fun t =>
      t.emu.tag = .bench ∧ t.emu.benchEnd = some (s.time + dur.toNat * 100 * msec) ∧ t.emu.cell = some (dur.toNat * 100 * msec) ∧
      Keeps [.emu, .free] s t) ∧
  (∀ (s : State), Running s → s.saf.safe = false → s.emu.updates = [] → s.emu.tag = .active → s.benchEn = true →
    Does .emuAccRelease s fun t => t = s) ∧
  (∀ (s : State), Running s → s.saf.safe = false → s.emu.updates = [] → s.emu.tag = .active → s.benchEn = true →
    Does .emuAccEnrol s fun t => t = s) ∧
  (∀ (s : State) (l : List Byte) (b : Nat), Running s → s.saf.safe = false → s.emu.updates = [] → s.emu.tag = .ready →
    Does (.emuOtherFrame l b) s fun t =>
      t.emu = { s.emu with tag := if s.emu.fromHalt then .halt else .idle } ∧ Keeps [.emu] s t) ∧
  (∀ (s : State) (l : List Byte) (b : Nat), Running s → s.saf.safe = false → s.emu.updates = [] → s.emu.tag = .idle →
    Does (.emuOtherFrame l b) s fun t => t = s) ∧
  (∀ (s : State) (e : Nat), Running s → s.emu.absentSince = some e → s.emu.harvest = false → s.emu.tag = .ready →
    Does .emuFieldLossTimeout s fun t => t.emu = { s.emu with tag := .idle } ∧ Passes (e + 2 * msec) [.emu] s t) ∧
  (∀ (s : State) (e : Nat), Running s → s.emu.tag = .bench → s.emu.benchEnd = some e →
    Does .emuBenchEnd s fun t =>
      t.emu = { s.emu with tag := .idle, benchEnd := none, cell := none } ∧ max s.time e ≤ t.time ∧ t.time ≤ max s.time (e + msec) ∧
      RingOnly s t ∧ Keeps [.time, .sram, .emu, .free, .obs] s t)

/-- R368-R371, R375, R382: the data area. A host write takes effect at once where the tag is not ACTIVE, and is held where it is with
WIRE_LOCK 0; a write held for 50 ms is given up with WR_FAIL and an event. Setting WIRE_LOCK during a selection takes its snapshot; clearing
it lets what was written be published. SYNC begins to write the image to the slot not in force, and asked for again during one is noted; a
sync that verifies leaves its bytes there and sets IMAGE_VALID, one that does not sets SYNC_FAIL with an event. -/
def Obligations.TagDataAndImages : Prop :=
  (∀ (s : State) (i : Fin 256) (v : Word), Running s → Sparse.wf (fun _ => (0 : Byte)) s.emu.data = true → s.emu.heldWrite = none →
    s.emu.tag ≠ .active →
    Does (.emuDataWrite i v) s fun t => Sparse.read t.emu.data 0 (4 * i.val) 4 = wordBytes v ∧ Keeps [.emu] s t) ∧
  (∀ (s : State) (i : Fin 256) (v : Word), Running s → s.emu.heldWrite = none → s.emu.tag = .active →
    s.flag Reg.EMU_WIRE Fld.EMU_WIRE_WIRE_LOCK = false →
    Does (.emuDataWrite i v) s fun t => t.emu = { s.emu with heldWrite := some (i.val, [v], s.time) } ∧ Keeps [.emu] s t) ∧
  (∀ (s : State) (i e : Nat) (l : List Word), Running s → s.emu.heldWrite = some (i, l, e) →
    Does .emuBusy s fun t =>
      t.emu = { s.emu with heldWrite := none } ∧ t.flag Reg.EMU_STATUS Fld.EMU_STATUS_WR_FAIL = true ∧ Posted 0x9001 .heart 0 t ∧
      RegsBut [Reg.EMU_STATUS] s t ∧ Passes (e + 50 * msec) [.regs, .emu] s t) ∧
  (∀ (s : State), Running s → s.lockedBlock 0x0F = false → s.flag Reg.EMU_WIRE Fld.EMU_WIRE_WIRE_LOCK = false → s.emu.tag = .active →
    s.emu.heldWrite = none →
    Does (.wireLockWrite 1) s fun t =>
      t.flag Reg.EMU_WIRE Fld.EMU_WIRE_WIRE_LOCK = true ∧ t.emu = { s.emu with snapshot := some (s.emu.snapshot.getD s.emu.data) }) ∧
  (∀ (s : State) (m : List (Nat × Byte)), Running s → s.lockedBlock 0x0F = false → s.flag Reg.EMU_WIRE Fld.EMU_WIRE_WIRE_LOCK = true →
    s.emu.snapshot = some m →
    Does (.wireLockWrite 0) s fun t =>
      t.flag Reg.EMU_WIRE Fld.EMU_WIRE_WIRE_LOCK = false ∧ t.emu = { s.emu with lockedSel := false, publishing := true }) ∧
  (∀ (s : State) (k : Nat), Running s → s.emu.sync = none → s.imageInForce = some k →
    Does .sync s fun t =>
      t.emu = { s.emu with sync := (some (SyncRun.mk (1 - k) (makeImage (1 - k) ((s.imageSeq k + 1) % 2 ^ 32) s.emuUid
        (bnat (s.flag Reg.EMU_CTRL Fld.EMU_CTRL_BENCH_EN) + 2 * bnat (s.flag Reg.EMU_CTRL Fld.EMU_CTRL_HARV))
        (Sparse.read s.emu.data 0 0 1024)))) }) ∧
  (∀ (s : State) (r : SyncRun), Running s → s.emu.sync = some r →
    Does .sync s fun t => t.emu = { s.emu with syncAgain := true } ∧ Keeps [.emu] s t) ∧
  (∀ (s : State) (r : SyncRun), Running s → s.emu.sync = some r → s.emu.syncAgain = false →
    Does (.emuSyncDone true) s fun t =>
      t.emu = { s.emu with sync := none, nv := Sparse.write s.emu.nv 0xFF (slotBase r.slot) r.bytes } ∧
      t.flag Reg.EMU_STATUS Fld.EMU_STATUS_IMAGE_VALID = true ∧ RegsBut [Reg.EMU_STATUS] s t ∧ Keeps [.regs, .emu] s t) ∧
  (∀ (s : State) (r : SyncRun), Running s → s.emu.sync = some r → s.emu.syncAgain = false →
    Does (.emuSyncDone false) s fun t =>
      t.emu.sync = none ∧ t.flag Reg.EMU_STATUS Fld.EMU_STATUS_SYNC_FAIL = true ∧ Posted 0x9006 .heart 0 t ∧
      RegsBut [Reg.EMU_STATUS] s t ∧ Keeps [.regs, .emu, .free, .obs] s t)

/-- R373-R380: the counters and the supplies. CTR_INC asks for an increment of counter 1 to 7, counter 0 cannot be asked for. An update
writes the backup cell and then the primary with the new value, one cell for each command, each within 1.02 ms (how long exactly is free);
after the primary the counter shows it; a verify that fails has its cell written again, and a second time sets CTR_FAIL with an event. With
the supply off and HARV in the image in force the island serves the tag; where its field goes it is off, its NV area and the retained bench
stay. -/
def Obligations.TagCountersAndHarvest : Prop :=
  (∀ (s : State) (i : Fin 8), Running s → i.val ≠ 0 → s.emu.updates = [] → s.ctrStuck i = false →
    Does (.ctrInc (word (2 + 256 * i.val))) s fun t => (t.emu.updates.map fun u => (u.ctr, u.step)) = [(i.val, 0)] ∧ Keeps [.emu, .free] s t) ∧
  (∀ (s : State), Running s → Does (.ctrInc 2) s fun t => t = s) ∧
  (∀ (s : State) (u : CtrUpd) (l : List CtrUpd), Running s → s.emu.updates = u :: l → u.step = 1 →
    Does (.counterUpdate true) s fun t =>
      t.emu = { s.emu with updates := { u with step := 3, again := false } :: l,
                           nv := Sparse.write s.emu.nv 0xFF (8 * (2 * u.ctr + 1)) (makeCell (2 * u.ctr + 1) (u.value + 1) ((u.seq + 1) % 256)) } ∧
      s.time ≤ t.time ∧ t.time ≤ s.time + 1020 * usec ∧ Keeps [.time, .sram, .emu, .free, .obs] s t) ∧
  (∀ (s : State) (u : CtrUpd), Running s → s.emu.updates = [u] → u.step = 3 → s.emu.harvest = false →
    Does (.counterUpdate true) s fun t =>
      t.emu.updates = [] ∧ t.reg (Reg.EMU_CTR u.ctr) = word (u.value + 1) ∧
      t.emu.nv = Sparse.write s.emu.nv 0xFF (8 * (2 * u.ctr)) (makeCell (2 * u.ctr) (u.value + 1) ((u.seq + 1) % 256))) ∧
  (∀ (s : State) (u : CtrUpd) (l : List CtrUpd), Running s → s.emu.updates = u :: l → u.step = 1 → u.again = false →
    Does (.counterUpdate false) s fun t => t.emu.updates = { u with again := true } :: l ∧ Keeps [.time, .sram, .emu, .free, .obs] s t) ∧
  (∀ (s : State) (u : CtrUpd), Running s → s.emu.updates = [u] → u.step = 1 → u.again = true → s.emu.harvest = false → u.ctr < 8 →
    Does (.counterUpdate false) s fun t =>
      t.emu.updates = [] ∧ t.fldBit Reg.EMU_CTR_STATUS Fld.EMU_CTR_STATUS_CTR_FAIL u.ctr = true ∧ Posted 0x9003 .heart 0 t) ∧
  (∀ (s : State) (k away : Nat), s.pins.aon = false → s.emu.harvest = false → s.imageInForce = some k →
    (leAt (s.nvRead (slotBase k) 16) 15 1).testBit 1 = true → s.emu.cell = none → s.emu.benchEnd = none →
    Does (.harvestPowerUp away) s fun t =>
      t.emu.harvest = true ∧ t.emu.tag = .idle ∧ t.emu.field = true ∧ t.emu.absentSince = none ∧ Keeps [.emu, .free, .regs, .obs] s t) ∧
  (∀ (s : State), s.emu.harvest = true → s.emu.updates = [] → s.emu.sync = none →
    Does .harvestPowerLoss s fun t =>
      t.emu = { EmuSt.reset with nv := s.emu.nv, cell := s.retainBench.emu.cell, dark := true } ∧ Keeps [.emu] s t)

/-- R387-R390, R393-R395: what the coexistence inputs do. The grant is kept after polarity, and acts 2 or 3 cycles later (which is free)
where CLK_CORE runs; a field-on that waits for it then starts. When GRANT_WAIT has passed a burst is deferred, a free port's for RETRY_US,
and the 8th deferral of a field-on fails it, with COX_DENIED counted and an event; at RETRY_US a field-on starts. A blank is seen 2 or 3
cycles later too and marks receptions in progress under it as BLANKED; one that ends begins its tail, at whose end a field-on that it held
starts; one asserted for BLANK_MAX_MS is ignored from then on. -/
def Obligations.CoexistenceInputs : Prop :=
  (∀ (s : State) (b : Bool), Monitored s → s.live = false →
    Does (.grantChange b) s fun t =>
      t.cox = { s.cox with grant := b != s.flag Reg.COX_CTRL Fld.COX_CTRL_GRANT_POL } ∧ Keeps [.cox] s t) ∧
  (∀ (s : State) (b : Bool) (p : Port) (since : Nat), Monitored s → Running s → s.flag Reg.COX_CTRL Fld.COX_CTRL_GRANT_EN = true →
    b = !s.flag Reg.COX_CTRL Fld.COX_CTRL_GRANT_POL → s.cox.grant = false → (s.px p).waitEnd.isSome = true → (s.pp p).plan = none →
    (s.pf p).wantOn = some since → s.huddled p = none → s.onDue p = true → s.flag Reg.COX_CTRL Fld.COX_CTRL_REQ_EN = false →
    (s.pf p).notBefore ≤ s.time → s.leadEnd ≤ s.time → s.field.synRun = true → s.slotFor p since = true →
    (∀ k : Fin 2, (s.advance (s.time + (2 + k.val) * cycle)).settlePast = false ∧ (s.advance (s.time + (2 + k.val) * cycle)).blanked p = false ∧
      (s.advance (s.time + (2 + k.val) * cycle)).mayModulate p (s.time + (2 + k.val) * cycle + s.rampSpan p) 0 = true) →
    (∀ m : Fin 16, m ≠ p → (s.px m).waitEnd.isSome = false ∧ (s.px m).retryAt.isSome = false) → s.offWaiting = [] →
    Does (.grantChange b) s fun t =>
      t.cox.grant = true ∧ (t.px p).waitEnd = none ∧ (t.px p).deferrals = 0 ∧ (t.pf p).wantOn = none ∧ (t.pf p).onSince = some t.time ∧
      (t.pf p).carrier = !isRelay p ∧ s.time + 2 * cycle ≤ t.time ∧ t.time ≤ s.time + 3 * cycle) ∧
  (∀ (s : State) (b : Bool), Monitored s → Running s → s.flag Reg.COX_CTRL Fld.COX_CTRL_GRANT_EN = true →
    s.flag Reg.COX_CTRL Fld.COX_CTRL_CUT_FIELD = false → b = s.flag Reg.COX_CTRL Fld.COX_CTRL_GRANT_POL →
    (∀ m : Fin 16, (s.pf m).txEnd = none) →
    Does (.grantChange b) s fun t =>
      t.cox = { s.cox with grant := false } ∧ s.time + 2 * cycle ≤ t.time ∧ t.time ≤ s.time + 3 * cycle ∧
      Keeps [.time, .sram, .cox, .free, .obs] s t) ∧
  (∀ (s : State) (p : Port) (e : Nat), Running s → (s.px p).waitEnd = some e → (s.px p).deferrals < 7 →
    Does (.grantWaitExpiry p) s fun t =>
      (t.px p).waitEnd = none ∧ (t.px p).deferrals = (s.px p).deferrals + 1 ∧
      ((s.huddled p).isSome = false → (t.px p).retryAt = some (max s.time e + s.fld Reg.COX_TIMING2 Fld.COX_TIMING2_RETRY_US * usec)) ∧
      CoxOf p s t ∧ Passes e [.cox] s t) ∧
  (∀ (s : State) (p : Port) (e : Nat), Running s → (s.px p).waitEnd = some e → 7 ≤ (s.px p).deferrals → (s.pp p).plan = none →
    Does (.grantWaitExpiry p) s fun t =>
      t.px p = { s.px p with waitEnd := none, deferrals := 0, retryAt := none } ∧ (t.pf p).wantOn = none ∧ Posted 0xA001 .heart 0 t ∧
      t.fld Reg.COX_COUNTS Fld.COX_COUNTS_DENIED = satAdd 65535 (s.fld Reg.COX_COUNTS Fld.COX_COUNTS_DENIED) 1 ∧
      RegsBut [Reg.COX_COUNTS] s t ∧ CoxOf p s t ∧ FieldOf p s t ∧ Passes e [.regs, .cox, .field] s t) ∧
  (∀ (s : State) (p : Port) (since : Nat), Running s → (s.px p).retryAt = some s.time → (s.pp p).plan = none →
    (s.pf p).wantOn = some since → s.huddled p = none → s.onDue p = true → s.flag Reg.COX_CTRL Fld.COX_CTRL_REQ_EN = false →
    (s.pf p).notBefore ≤ s.time → s.leadEnd ≤ s.time → s.field.synRun = true → s.settlePast = false → s.slotFor p since = true →
    s.blanked p = false →
    s.mayModulate p (s.time + s.rampSpan p) 0 = true → s.granted = true →
    Does (.retryExpiry p) s fun t =>
      t.px p = { waitEnd := none, deferrals := 0, retryAt := none } ∧ (t.pf p).wantOn = none ∧ (t.pf p).onSince = some s.time ∧
      (t.pf p).carrier = !isRelay p ∧ Keeps [.field, .cox, .obs] s t) ∧
  (∀ (s : State) (b : Bool), Monitored s → Running s → s.cox.blank0 = false → b = !s.flag Reg.COX_CTRL Fld.COX_CTRL_BLANK0_POL →
    s.offWaiting = [] →
    Does (.blankChange false b) s fun t =>
      t.cox = { s.cox with blank0 := true, since0 := some t.time, stuck0 := false } ∧ s.time + 2 * cycle ≤ t.time ∧
      t.time ≤ s.time + 3 * cycle ∧
      (∀ m : Fin 16, t.blankOn m = true → ((s.pr m).state = .sofWait ∨ (s.pr m).state = .frame) → (t.pr m).blanked = true) ∧
      Keeps [.time, .sram, .cox, .rxe, .free, .obs] s t) ∧
  (∀ (s : State) (b : Bool), Monitored s → s.live = false → s.cox.blank1 = true → s.cox.stuck1 = false →
    b = s.flag Reg.COX_CTRL Fld.COX_CTRL_BLANK1_POL →
    Does (.blankChange true b) s fun t =>
      t.cox = { s.cox with blank1 := false, since1 := none, ended1 := some s.time } ∧ Keeps [.cox] s t) ∧
  (∀ (s : State) (p : Port) (since : Nat), Running s → s.blankOn p = false → s.blankTail p ≤ s.time → (s.px p).retryAt = none →
    (s.px p).waitEnd = none → (s.pp p).plan = none →
    (s.pf p).wantOn = some since → s.huddled p = none → s.onDue p = true → s.flag Reg.COX_CTRL Fld.COX_CTRL_REQ_EN = false →
    (s.pf p).notBefore ≤ s.time → s.leadEnd ≤ s.time → s.field.synRun = true → s.settlePast = false → s.slotFor p since = true →
    s.blanked p = false →
    s.mayModulate p (s.time + s.rampSpan p) 0 = true → s.granted = true → s.offWaiting = [] →
    Does (.blankTailExpiry p) s fun t =>
      (t.pf p).wantOn = none ∧ (t.pf p).onSince = some s.time ∧ (t.pf p).carrier = !isRelay p ∧ Keeps [.field, .cox, .obs] s t) ∧
  (∀ (s : State) (t0 : Nat), Running s → s.cox.since0 = some t0 → s.flag Reg.COX_CTRL Fld.COX_CTRL_BLANK0_EN = true →
    s.cox.stuck0 = false → s.offWaiting = [] →
    Does (.coxBlankStuck false) s fun t =>
      t.cox = { s.cox with stuck0 := true } ∧ Posted 0xA003 .heart 0 t ∧
      Passes (t0 + s.fld Reg.COX_TIMING2 Fld.COX_TIMING2_BLANK_MAX_MS * msec) [.cox] s t)

/-- R425-R427: COX_REG_LOWER. One before the lock is sealed, one of a bad form and one that would loosen its value are refused with
COX_REG_REFUSED; one whose value is in force is accepted and over, and changes nothing more; any other is accepted and its NV write begins.
The write's end puts a drive ceiling or a duty ceiling in force, counts it in LOWERS and posts COX_REG_LOWERED; one that does not verify
leaves the values as they are. -/
def Obligations.RegulatoryLowerings : Prop :=
  (∀ (s : State) (p : List Byte), Running s → s.authActs 6 = some p →
    (s.flag Reg.COX_REG_STATUS Fld.COX_REG_STATUS_SEALED = false ∨ lowerBad p = true ∨ s.lowerLoosens p = true) →
    Does .coxRegLower s fun t =>
      AuthRefused s t ∧ Posted 0xA012 .heart 0 t ∧ RegsBut [Reg.CFG_AUTH_STATUS, Reg.GEN_IRQ_STATUS] s t ∧ Keeps [.regs, .cfg, .obs] s t) ∧
  (∀ (s : State) (p : List Byte), Running s → s.authActs 6 = some p → s.flag Reg.COX_REG_STATUS Fld.COX_REG_STATUS_SEALED = true →
    lowerBad p = false → s.lowerLoosens p = false → s.lowerNow p = lowerValue p →
    Does .coxRegLower s fun t =>
      AuthAccepted s t ∧ t.cfg = { s.cfg with auth := none } ∧
      t.obs.posted = s.obs.posted ++ [{ code := 0xE005, note := .top, arg := word ((s.cfg.auth.map fun a => a.counter).getD 0), own := [] }] ∧
      RegsBut [Reg.CFG_AUTH_STATUS, Reg.GEN_IRQ_STATUS] s t ∧ Keeps [.regs, .cfg, .obs] s t) ∧
  (∀ (s : State) (p : List Byte), Running s → s.authActs 6 = some p → s.flag Reg.COX_REG_STATUS Fld.COX_REG_STATUS_SEALED = true →
    lowerBad p = false → s.lowerLoosens p = false → s.lowerNow p ≠ lowerValue p →
    Does .coxRegLower s fun t =>
      AuthAccepted s t ∧ t.flag Reg.COX_REG_STATUS Fld.COX_REG_STATUS_NV_BUSY = true ∧ t.cox = { s.cox with lower := some p } ∧
      RegsBut [Reg.CFG_AUTH_STATUS, Reg.GEN_IRQ_STATUS, Reg.COX_REG_STATUS] s t ∧ Keeps [.regs, .cox, .obs] s t) ∧
  (∀ (s : State) (p : List Byte), Running s → s.cox.lower = some p →
    Does (.regLowerNvDone false) s fun t =>
      t.flag Reg.COX_REG_STATUS Fld.COX_REG_STATUS_NV_BUSY = false ∧ t.cox = { s.cox with lower := none } ∧
      t.cfg = { s.cfg with auth := none } ∧ RegsBut [Reg.COX_REG_STATUS] s t ∧ Keeps [.regs, .cox, .cfg] s t) ∧
  (∀ (s : State) (p : List Byte), Running s → s.cox.lower = some p → lowerKind p = 0 → lowerBad p = false → (s.pf (lowerPort p)).txEnd = none →
    (s.pf (lowerPort p)).ramp = .none →
    Does (.regLowerNvDone true) s fun t =>
      t.fld (Reg.COX_REG_CEIL (lowerPort p)) Fld.COX_REG_CEIL_DRIVE_CEIL = lowerValue p ∧ (t.pf (lowerPort p)).ceil = lowerValue p ∧
      t.fld Reg.COX_REG_STATUS Fld.COX_REG_STATUS_LOWERS = satAdd 65535 (s.fld Reg.COX_REG_STATUS Fld.COX_REG_STATUS_LOWERS) 1 ∧
      t.flag Reg.COX_REG_STATUS Fld.COX_REG_STATUS_NV_BUSY = false ∧ t.cox = { s.cox with lower := none, sealed := some t.regWords } ∧
      Posted 0xA011 .top 0 t ∧ FieldOf (lowerPort p) s t) ∧
  (∀ (s : State) (p : List Byte), Running s → s.cox.lower = some p → lowerKind p = 1 → lowerBad p = false →
    Does (.regLowerNvDone true) s fun t =>
      t.fld Reg.COX_REG_GLOBAL Fld.COX_REG_GLOBAL_DUTY_CEIL = lowerValue p ∧ t.fld Reg.FLD_DUTY Fld.FLD_DUTY_CEIL_EFF = lowerValue p ∧
      t.cox = { s.cox with lower := none, sealed := some t.regWords } ∧ Posted 0xA011 .top 0 t ∧
      RegsBut [Reg.COX_REG_STATUS, Reg.COX_REG_GLOBAL, Reg.FLD_DUTY] s t ∧ Keeps [.regs, .cox, .cfg, .obs] s t)

/-- R404-R412, R415-R417, R421: each detector. A failure trips: the safe state is in force, with its code and place in FAULT, FAULT_WHERE
and FIRST and `FAULT_N` low; a field below the ceiling does nothing; an injection without TRIP is recorded with the time to its detection; a
lane that reads back wrong in the safe state is noted in FAULT_WHERE. The good windows of both clock monitors and the heartbeat. STOP_N
trips with code 10. CORE then takes up SAFE with CAUSE 5 or 6, its lanes idle, and reports it. An injection in TEST waits for its detection,
or is seen at once for codes 4 and 8. SAF_TEST_ENTER acts in RUN and is refused elsewhere. -/
def Obligations.SafetyMonitors : Prop :=
  (∀ (s : State) (p : Port) (seen : FieldSight), Monitored s → s.saf.safe = false → s.fld Reg.SAF_FIRST Fld.SAF_FIRST_CODE = 0 →
    s.injected 1 p = none → s.aboveCeiling p seen = true →
    Does (.fieldCeilingFault p seen) s fun t =>
      t.saf = { s.saf with safe := true, unseen := some (1, p.val), tripAt := s.time } ∧
      t.fldBit Reg.SAF_FAULT Fld.SAF_FAULT_CODES 0 = true ∧
      t.fldBit Reg.SAF_FAULT_WHERE Fld.SAF_FAULT_WHERE_PORTS p.val = true ∧
      t.reg Reg.SAF_FIRST = packF [(Fld.SAF_FIRST_CODE, 1), (Fld.SAF_FIRST_WHERE, p.val)] ∧
      t.flag Reg.SAF_STATUS Fld.SAF_STATUS_FAULT_OUT = true ∧
      RegsBut [Reg.SAF_FAULT, Reg.SAF_FAULT_WHERE, Reg.SAF_FIRST, Reg.SAF_STATUS] s t ∧
      Keeps [.regs, .saf] s t) ∧
  (∀ (s : State) (p : Port) (seen : FieldSight), Monitored s → s.injected 1 p = none → s.aboveCeiling p seen = false →
    Does (.fieldCeilingFault p seen) s fun t => t = s) ∧
  (∀ (s : State) (p : Port) (seen : FieldSight) (e : Nat), Monitored s → s.saf.safe = false → s.fld Reg.SAF_FIRST Fld.SAF_FIRST_CODE = 0 →
    s.injected 2 p = none → s.offFrom p = some e → (s.advance (e + s.filterTime 2)).activeOff p seen = true →
    Does (.fieldOffFault p seen) s fun t =>
      t.saf = { s.saf with safe := true, unseen := some (2, p.val), tripAt := t.time } ∧
      t.fldBit Reg.SAF_FAULT Fld.SAF_FAULT_CODES 1 = true ∧
      t.fldBit Reg.SAF_FAULT_WHERE Fld.SAF_FAULT_WHERE_PORTS p.val = true ∧
      t.reg Reg.SAF_FIRST = packF [(Fld.SAF_FIRST_CODE, 2), (Fld.SAF_FIRST_WHERE, p.val)] ∧
      t.flag Reg.SAF_STATUS Fld.SAF_STATUS_FAULT_OUT = true ∧
      RegsBut [Reg.SAF_FAULT, Reg.SAF_FAULT_WHERE, Reg.SAF_FIRST, Reg.SAF_STATUS] s t ∧
      Passes (e + s.filterTime 2) [.regs, .saf] s t) ∧
  (∀ (s : State) (p : Port) (seen : FieldSight) (x : Inject), Monitored s → s.injected 2 p = some x → x.trip = false → s.offFrom p = none →
    s.activeOff p seen = false →
    Does (.fieldOffFault p seen) s fun t =>
      t.saf = { s.saf with inject := none } ∧ t.flag Reg.SAF_INJ_STATUS Fld.SAF_INJ_STATUS_SEEN = true ∧
      t.fld Reg.SAF_INJ_STATUS Fld.SAF_INJ_STATUS_DET_US = min 65535 ((max s.time (x.since + s.filterTime 2) - x.since) / usec) ∧
      RegsBut [Reg.SAF_INJ_STATUS] s t ∧ Passes (x.since + s.filterTime 2) [.regs, .saf] s t) ∧
  (∀ (s : State) (l : Lane) (b : Bool), Monitored s → s.saf.safe = false → s.fld Reg.SAF_FIRST Fld.SAF_FIRST_CODE = 0 → s.injected 3 l = none →
    s.saf.enCopy.testBit l = true → b = !s.goLevel l →
    Does (.laneReadbackFault l b true) s fun t =>
      t.saf.safe = true ∧ t.saf.unseen = some (3, l.val) ∧ t.fldBit Reg.SAF_FAULT Fld.SAF_FAULT_CODES 2 = true ∧
      t.fldBit Reg.SAF_FAULT_WHERE Fld.SAF_FAULT_WHERE_LANES l = true ∧ t.flag Reg.SAF_STATUS Fld.SAF_STATUS_FAULT_OUT = true ∧
      t.pins = { s.pins with laneFb := setBit s.pins.laneFb l b } ∧
      Passes (max s.time (vget s.saf.fbFrom 0 l) + s.fld Reg.SAF_CFG Fld.SAF_CFG_FB_DELAY * usec) [.regs, .saf, .pins] s t) ∧
  (∀ (s : State) (l : Lane) (b : Bool), Monitored s → s.saf.safe = true → s.saf.enCopy.testBit l = true → b = true →
    Does (.laneReadbackFault l b true) s fun t =>
      t.saf = s.saf ∧ t.fldBit Reg.SAF_FAULT_WHERE Fld.SAF_FAULT_WHERE_LANES l = true ∧ RegsBut [Reg.SAF_FAULT_WHERE] s t) ∧
  (∀ (s : State) (n : Byte) (b : Bool), Monitored s → s.pwr.awake = .running → 94 ≤ n.toNat → n.toNat ≤ 98 →
    Does (.clkMonWindow n b) s fun t =>
      t.reg Reg.SAF_CLKMON = word n.toNat ∧ RegsBut [Reg.SAF_CLKMON] s t ∧ Passes ((s.time / (24 * usec) + 1) * (24 * usec)) [.regs] s t) ∧
  (∀ (s : State) (n : Byte), Monitored s → s.pwr.awake = .running → s.saf.safe = false → s.fld Reg.SAF_FIRST Fld.SAF_FIRST_CODE = 0 →
    s.injected 5 0 = none →
    (n.toNat < 94 ∨ 98 < n.toNat) →
    Does (.clkMonWindow n true) s fun t =>
      t.reg Reg.SAF_CLKMON = word n.toNat ∧ t.saf.safe = true ∧ t.saf.unseen = some (5, 0) ∧ (n.toNat = 0 → t.saf.clkLost = true) ∧
      t.fldBit Reg.SAF_FAULT Fld.SAF_FAULT_CODES 4 = true ∧ t.fld Reg.SAF_FIRST Fld.SAF_FIRST_CODE = 5) ∧
  (∀ (s : State), Running s →
    Does .heartbeatToggle s fun t =>
      t.saf = { s.saf with beatAt := t.time } ∧ Passes (s.saf.beatAt + 250 * usec) [.saf] s t) ∧
  (∀ (s : State), Monitored s → s.pwr.awake = .running → s.saf.safe = false → s.fld Reg.SAF_FIRST Fld.SAF_FIRST_CODE = 0 → s.injected 6 0 = none →
    Does (.heartbeatTimeout true) s fun t =>
      t.saf = { s.saf with safe := true, unseen := some (6, 0), tripAt := t.time } ∧
      t.fldBit Reg.SAF_FAULT Fld.SAF_FAULT_CODES 5 = true ∧
      t.reg Reg.SAF_FIRST = packF [(Fld.SAF_FIRST_CODE, 6), (Fld.SAF_FIRST_WHERE, 0)] ∧
      t.flag Reg.SAF_STATUS Fld.SAF_STATUS_FAULT_OUT = true ∧
      RegsBut [Reg.SAF_FAULT, Reg.SAF_FIRST, Reg.SAF_STATUS] s t ∧
      Passes (s.saf.beatAt + 750 * usec) [.regs, .saf] s t) ∧
  (∀ (s : State) (n : Byte) (b : Bool), Running s → 72 ≤ n.toNat → n.toNat ≤ 88 →
    Does (.monClkWindow n b) s fun t =>
      t.flag Reg.SAF_STATUS Fld.SAF_STATUS_MON_OK = true ∧ t.saf = s.saf ∧ RegsBut [Reg.SAF_STATUS] s t ∧
      Passes ((s.time / (10 * usec) + 1) * (10 * usec)) [.regs] s t) ∧
  (∀ (s : State) (n : Byte), Running s → s.saf.safe = false → s.fld Reg.SAF_FIRST Fld.SAF_FIRST_CODE = 0 → s.injected 7 0 = none →
    (n.toNat < 72 ∨ 88 < n.toNat) →
    Does (.monClkWindow n true) s fun t =>
      t.flag Reg.SAF_STATUS Fld.SAF_STATUS_MON_OK = false ∧
      t.saf = { s.saf with safe := true, unseen := some (7, 0), tripAt := t.time } ∧
      t.fldBit Reg.SAF_FAULT Fld.SAF_FAULT_CODES 6 = true ∧
      t.reg Reg.SAF_FIRST = packF [(Fld.SAF_FIRST_CODE, 7), (Fld.SAF_FIRST_WHERE, 0)] ∧
      t.flag Reg.SAF_STATUS Fld.SAF_STATUS_FAULT_OUT = true ∧
      RegsBut [Reg.SAF_FAULT, Reg.SAF_FIRST, Reg.SAF_STATUS] s t ∧
      Passes ((s.time / (10 * usec) + 1) * (10 * usec)) [.regs, .saf] s t) ∧
  (∀ (s : State), Monitored s → s.saf.safe = false → s.fld Reg.SAF_FIRST Fld.SAF_FIRST_CODE = 0 → s.injected 9 0 = none →
    Does (.overtempFault true) s fun t =>
      t.saf = { s.saf with safe := true, unseen := some (9, 0), tripAt := s.time } ∧
      t.fldBit Reg.SAF_FAULT Fld.SAF_FAULT_CODES 8 = true ∧
      t.reg Reg.SAF_FIRST = packF [(Fld.SAF_FIRST_CODE, 9), (Fld.SAF_FIRST_WHERE, 0)] ∧
      t.flag Reg.SAF_STATUS Fld.SAF_STATUS_FAULT_OUT = true ∧
      RegsBut [Reg.SAF_FAULT, Reg.SAF_FIRST, Reg.SAF_STATUS] s t ∧
      Keeps [.regs, .saf] s t) ∧
  (∀ (s : State), Monitored s → s.saf.safe = false → s.fld Reg.SAF_FIRST Fld.SAF_FIRST_CODE = 0 →
    Does (.stopN true) s fun t =>
      t.saf = { s.saf with safe := true, unseen := some (10, 0), tripAt := t.time } ∧ t.flag Reg.SAF_STATUS Fld.SAF_STATUS_STOP_IN = true ∧
      t.flag Reg.SAF_FAULT Fld.SAF_FAULT_STOP = true ∧ t.fld Reg.SAF_FIRST Fld.SAF_FIRST_CODE = 10 ∧
      Passes (s.time + usec) [.regs, .saf] s t) ∧
  (∀ (s : State), Monitored s →
    Does (.stopN false) s fun t =>
      t.flag Reg.SAF_STATUS Fld.SAF_STATUS_STOP_IN = false ∧ RegsBut [Reg.SAF_STATUS] s t ∧ Keeps [.regs] s t) ∧
  (∀ (s : State) (rxs : List RxData) (c w : Nat), Running s → s.saf.unseen = some (c, w) →
    Does (.coreSeesSafeState rxs) s fun t =>
      t.gen.phase = .safe ∧ t.gen.cause = (if c = 10 then 6 else 5) ∧ t.gen.rlimitEnd = none ∧ t.saf.unseen = none ∧
      t.flag Reg.SAF_STATUS Fld.SAF_STATUS_SAFE = true ∧ (∀ l : Lane, (t.lane l).goEnd = none ∧ (t.lane l).alertEnd = none) ∧
      Posted (if c = 10 then 0xB002 else 0xB001) .base (packF [(Fld.SAF_FIRST_CODE, c), (Fld.SAF_FIRST_WHERE, w)]).toNat t) ∧
  (∀ (s : State) (v : Word), Running s → s.gen.phase = .test → 1 ≤ Fld.SAF_INJECT_CODE.get v → Fld.SAF_INJECT_CODE.get v ≤ 9 →
    Fld.SAF_INJECT_CODE.get v ≠ 4 → Fld.SAF_INJECT_CODE.get v ≠ 8 →
    Does (.safInject v) s fun t =>
      t.saf = { s.saf with inject := some { code := Fld.SAF_INJECT_CODE.get v, target := Fld.SAF_INJECT_TARGET.get v,
                                            trip := decide (Fld.SAF_INJECT_TRIP.get v = 1), since := s.time } } ∧ Keeps [.saf] s t) ∧
  (∀ (s : State) (v : Word), Running s → s.gen.phase = .test → (Fld.SAF_INJECT_CODE.get v = 4 ∨ Fld.SAF_INJECT_CODE.get v = 8) →
    Fld.SAF_INJECT_TRIP.get v = 0 →
    Does (.safInject v) s fun t =>
      t.saf = { s.saf with inject := none } ∧ t.reg Reg.SAF_INJ_STATUS = packF [(Fld.SAF_INJ_STATUS_SEEN, 1)] ∧
      RegsBut [Reg.SAF_INJ_STATUS] s t ∧ Keeps [.regs, .saf] s t) ∧
  (∀ (s : State) (p : List Byte), Running s → s.authActs 7 = some p → s.gen.phase = .run →
    Does .safTestEnter s fun t =>
      AuthAccepted s t ∧ t.cfg = { s.cfg with auth := none } ∧ t.gen.phase = .test ∧ (∀ l : Lane, t.lane l = LaneSt.reset) ∧
      (∀ n : Port, (t.pp n).entry = 0)) ∧
  (∀ (s : State) (p : List Byte), Running s → s.authActs 7 = some p → s.gen.phase ≠ .run →
    Does .safTestEnter s fun t =>
      AuthRefused s t ∧ RegsBut [Reg.CFG_AUTH_STATUS, Reg.GEN_IRQ_STATUS] s t ∧ Keeps [.regs, .cfg, .obs] s t)

/-- R441-R447, R450, R452, R454, R622: the recorder. The record at the head of the intake goes to the line that R442 chooses, or is held
while ring writes wait; the first line that does not read back is retired, opens the one-second window of its event, and the record stays at
the head, its bytes in the ring free. A write of FREEZE 1 starts FREEZE_MAX, a write of 0 ends the freeze, and so does FREEZE_MAX, which
sets EXPIRED. SIL_CLEAR with a flag above 1 is refused and changes nothing of the recorder; otherwise it empties ring lines, holding queue
and counts, with flag 1 the vault too. The end of the clear, and of the ring's start, is noted. An only staging page is handed over
SPILL_FLUSH after it was begun, with its records. A rate-limit window that held nothing back is closed; one that did posts what it held back
and runs on. -/
def Obligations.RecorderRing : Prop :=
  (∀ (s : State) (r : Rec) (rest : List Rec) (l : Nat), Clocked s → s.silBlocked = false → s.obs.sil.stopped = false → s.obs.sil.hold = [] →
    s.obs.sil.intake = r :: rest → s.obs.sil.chooseLine r.note = some l →
    Does (.ringWrite true) s fun t =>
      t.obs.sil = { s.obs.sil with intake := rest, lastLine := l,
                                   lines := (s.obs.sil.lines.filter fun y => y.line ≠ l) ++ [{ line := l, note := r.note, seq := r.seq }] } ∧
      (∀ i : Fin 64, t.sramByte (lineAddr l + i) = (r.bytes[i.val]?).getD 0) ∧
      (∀ a : Nat, (a < lineAddr l ∨ lineAddr l + 64 ≤ a) → t.sramByte a = s.sramByte a) ∧ Keeps [.sram, .obs] s t) ∧
  (∀ (s : State) (b : Bool) (r : Rec) (rest : List Rec), Clocked s → s.silBlocked = true → s.obs.sil.hold.length < 64 →
    s.obs.sil.intake = r :: rest →
    Does (.ringWrite b) s fun t =>
      t.obs.sil = { s.obs.sil with intake := rest, hold := s.obs.sil.hold ++ [{ r with held := true }] } ∧ Keeps [.obs] s t) ∧
  (∀ (s : State) (r : Rec) (rest : List Rec) (l : Nat), Clocked s → s.silBlocked = false → s.obs.sil.stopped = false → s.obs.sil.hold = [] →
    s.obs.sil.intake = r :: rest → s.obs.sil.chooseLine r.note = some l → s.obs.sil.retired = [] →
    Does (.ringWrite false) s fun t =>
      t.obs.sil = { s.obs.sil with lastLine := l, lines := s.obs.sil.lines.filter fun y => y.line ≠ l,
                                   retired := [l] } ∧
      t.obs.windows = s.obs.windows ++ [{ code := 0xC001, scope := 0, note := .base, form := .count, arg := 0, ends := s.time + second,
                                          length := second, held := 0 }] ∧
      Posted 0xC001 .base l t ∧ (∀ a : Nat, (a < lineAddr l ∨ lineAddr l + 64 ≤ a) → t.sramByte a = s.sramByte a) ∧
      Keeps [.sram, .obs, .free] s t) ∧
  (∀ (s : State) (v : Word), Clocked s → s.flag Reg.SIL_FREEZE Fld.SIL_FREEZE_FREEZE = false → v = 1 →
    Does (.freezeWrite v) s fun t =>
      t.flag Reg.SIL_FREEZE Fld.SIL_FREEZE_FREEZE = true ∧
      t.obs.sil = { s.obs.sil with freezeEnd := some (s.time + s.fld Reg.SIL_CTRL Fld.SIL_CTRL_FREEZE_MAX * 10 * msec) } ∧
      RegsBut [Reg.SIL_FREEZE] s t ∧ Keeps [.regs, .obs] s t) ∧
  (∀ (s : State) (v : Word), Clocked s → v = 0 →
    Does (.freezeWrite v) s fun t =>
      t.flag Reg.SIL_FREEZE Fld.SIL_FREEZE_FREEZE = false ∧ t.obs.sil = { s.obs.sil with freezeEnd := none } ∧
      RegsBut [Reg.SIL_FREEZE] s t ∧ Keeps [.regs, .obs] s t) ∧
  (∀ (s : State) (e : Nat), Clocked s → s.obs.sil.freezeEnd = some e →
    Does .silFreezeExpired s fun t =>
      t.flag Reg.SIL_FREEZE Fld.SIL_FREEZE_FREEZE = false ∧ t.flag Reg.SIL_FREEZE Fld.SIL_FREEZE_EXPIRED = true ∧
      t.obs.sil.freezeEnd = none ∧ Posted 0xC004 .top 0 t ∧ RegsBut [Reg.SIL_FREEZE] s t ∧ Passes e [.regs] s t) ∧
  (∀ (s : State) (p : List Byte), Clocked s → s.authActs 4 = some p → 1 < leAt p 0 4 →
    Does .silClear s fun t =>
      AuthRefused s t ∧ Posted 0xC007 .heart 0 t ∧ t.obs.sil = s.obs.sil ∧ RegsBut [Reg.CFG_AUTH_STATUS, Reg.GEN_IRQ_STATUS] s t ∧
      Keeps [.regs, .cfg, .obs] s t) ∧
  (∀ (s : State) (p : List Byte), Clocked s → s.authActs 4 = some p → leAt p 0 4 ≤ 1 →
    Does .silClear s fun t =>
      AuthAccepted s t ∧ t.flag Reg.SIL_FREEZE Fld.SIL_FREEZE_FREEZE = false ∧
      t.obs.sil.lines = [] ∧ t.obs.sil.hold = [] ∧ t.obs.sil.dropHeart = 0 ∧ t.obs.sil.dropTop = 0 ∧ t.obs.sil.holdHeart = 0 ∧
      t.obs.sil.holdTop = 0 ∧ t.obs.sil.clearing = true ∧ t.obs.sil.vault = (if leAt p 0 4 = 1 then [] else s.obs.sil.vault) ∧
      t.obs.sil.retired = s.obs.sil.retired ∧ t.obs.sil.seq = s.obs.sil.seq ∧
      Posted 0xC002 .base ((s.cfg.auth.map fun a => a.counter).getD 0) t ∧ RingOnly s t ∧
      RegsBut [Reg.CFG_AUTH_STATUS, Reg.GEN_IRQ_STATUS, Reg.SIL_FREEZE] s t ∧ Keeps [.regs, .cfg, .sram, .obs] s t) ∧
  (∀ (s : State), Clocked s →
    Does .clearPassDone s fun t => t.obs.sil = { s.obs.sil with clearing := false } ∧ Keeps [.obs] s t) ∧
  (∀ (s : State), Clocked s →
    Does .ringInitDone s fun t => t.obs.sil = { s.obs.sil with ready := true } ∧ Keeps [.obs] s t) ∧
  (∀ (s : State) (g : Stage), Clocked s → s.obs.sil.stages = [g] → g.handed = false →
    Does .spillFlushExpiry s fun t =>
      ((t.obs.sil.stages.head?).any fun p =>
        p.handed && decide (p.since = g.since) && decide (p.recs.take g.recs.length = g.recs)) = true ∧
      Passes (g.since + s.fld Reg.SIL_CTRL Fld.SIL_CTRL_SPILL_FLUSH * 10 * msec) [] s t) ∧
  (∀ (s : State) (c k : Nat) (w : Window), Clocked s → s.obs.windows = [w] → w.code = c → w.scope = k → w.held = 0 → w.ends ≤ s.time →
    Does (.rateWindowEnd c k) s fun t => t.obs.windows = [] ∧ Keeps [.obs] s t) ∧
  (∀ (s : State) (c k : Nat) (w : Window), Clocked s → s.obs.windows = [w] → w.code = c → w.scope = k → 0 < w.held → w.ends ≤ s.time →
    Does (.rateWindowEnd c k) s fun t =>
      t.obs.windows = [{ w with ends := w.ends + w.length, held := 0 }] ∧
      t.obs.posted = s.obs.posted ++ [{ code := c, note := w.note, arg := w.form.make w.arg w.held, own := [] }] ∧ Keeps [.obs] s t)

/-- R464 (the refusal and the new wall time), R467, R469 (the tick, whole, in the last clause, whatever the other registers hold), with
parts of R461, R465, R466 and R472. A tick wraps the count at RELOAD or above and else adds one; a compare that the count reaches sets HIT
and adds INT; with no cross-trigger and no event asked for, nothing else changes and the next tick is due PRESC + 1 cycles later. A capture
takes the count, over an unread one with CAPT_OVR and its event; a read of it returns the value and clears CAPT_NEW. TMR.GROUP stops and
starts, a timer that is in both fields being stopped. WALL_SET is refused from the limit on, else sets wall time, KNOWN, SETS and the
invalidation pass, and Sillage accepts `WALL_STEP`. A measured SLOW rate is taken over from 15,000 to 16,250; one outside posts its event
and changes nothing. -/
def Obligations.TimersAndWallTime : Prop :=
  (∀ (s : State) (k : TimerId) (e n : Nat), Running s → (s.timer k).nextTick = some e →
    s.flag (Reg.TMR_T_XTRIG k) Fld.TMR_T_XTRIG_XEN = false → s.flag (Reg.TMR_T_CTRL k) Fld.TMR_T_CTRL_EVT_CMP0 = false →
    s.flag (Reg.TMR_T_CTRL k) Fld.TMR_T_CTRL_EVT_CMP1 = false → s.flag (Reg.TMR_T_CTRL k) Fld.TMR_T_CTRL_EVT_WRAP = false →
    n = (if (s.reg (Reg.TMR_T_RELOAD k)).toNat ≤ (s.reg (Reg.TMR_T_COUNT k)).toNat then 0 else (s.reg (Reg.TMR_T_COUNT k)).toNat + 1) →
    Does (.timerTick k) s fun t =>
      t.timer k = { nextTick := some (e + (s.fld (Reg.TMR_T_CTRL k) Fld.TMR_T_CTRL_PRESC + 1) * cycle) } ∧ TimerOf k s t ∧
      t.reg (Reg.TMR_T_COUNT k) = word n ∧
      t.reg (Reg.TMR_T_CMP0 k) = (if (s.reg (Reg.TMR_T_CMP0 k)).toNat = n then
        word ((n + (s.reg (Reg.TMR_T_INT0 k)).toNat) % ((s.reg (Reg.TMR_T_RELOAD k)).toNat + 1)) else s.reg (Reg.TMR_T_CMP0 k)) ∧
      t.reg (Reg.TMR_T_CMP1 k) = (if (s.reg (Reg.TMR_T_CMP1 k)).toNat = n then
        word ((n + (s.reg (Reg.TMR_T_INT1 k)).toNat) % ((s.reg (Reg.TMR_T_RELOAD k)).toNat + 1)) else s.reg (Reg.TMR_T_CMP1 k)) ∧
      t.flag (Reg.TMR_T_STATUS k) Fld.TMR_T_STATUS_HIT0 =
        (s.flag (Reg.TMR_T_STATUS k) Fld.TMR_T_STATUS_HIT0 || decide ((s.reg (Reg.TMR_T_CMP0 k)).toNat = n)) ∧
      t.flag (Reg.TMR_T_STATUS k) Fld.TMR_T_STATUS_HIT1 =
        (s.flag (Reg.TMR_T_STATUS k) Fld.TMR_T_STATUS_HIT1 || decide ((s.reg (Reg.TMR_T_CMP1 k)).toNat = n)) ∧
      t.flag (Reg.TMR_T_STATUS k) Fld.TMR_T_STATUS_WRAP =
        (s.flag (Reg.TMR_T_STATUS k) Fld.TMR_T_STATUS_WRAP ||
          decide ((s.reg (Reg.TMR_T_RELOAD k)).toNat ≤ (s.reg (Reg.TMR_T_COUNT k)).toNat)) ∧
      RegsBut [Reg.TMR_T_COUNT k, Reg.TMR_T_CMP0 k, Reg.TMR_T_CMP1 k, Reg.TMR_T_STATUS k] s t ∧ Passes e [.regs, .tmr] s t) ∧
  (∀ (s : State) (k : TimerId) (b : Bool), Running s → s.captures k b = true → (s.captOf k).isNew = false →
    Does (.capture k b) s fun t =>
      t.captOf k = { value := s.reg (Reg.TMR_T_COUNT k), isNew := true, ovr := (s.captOf k).ovr } ∧
      (∀ m : Fin 8, m ≠ k → t.captOf m = s.captOf m) ∧ t.obs.posted = s.obs.posted ∧ Keeps [.obs] s t) ∧
  (∀ (s : State) (k : TimerId) (b : Bool), Running s → s.captures k b = true → (s.captOf k).isNew = true →
    Does (.capture k b) s fun t =>
      t.captOf k = { value := s.reg (Reg.TMR_T_COUNT k), isNew := true, ovr := true } ∧
      (∀ m : Fin 8, m ≠ k → t.captOf m = s.captOf m) ∧ Posted 0xD002 .top 0 t ∧ Keeps [.obs] s t) ∧
  (∀ (s : State) (k : TimerId), Running s →
    Does (.captRead k) s fun t =>
      t.hif.out = [(s.captOf k).value] ∧ t.captOf k = { s.captOf k with isNew := false } ∧
      (∀ m : Fin 8, m ≠ k → t.captOf m = s.captOf m) ∧ Keeps [.obs, .hif] s t) ∧
  (∀ (s : State) (v : Word), Running s →
    Does (.timerGroup v) s fun t =>
      (∀ k : Fin 8, (Fld.TMR_GROUP_STOP.get v).testBit k = true →
        t.flag (Reg.TMR_T_CTRL k) Fld.TMR_T_CTRL_EN = false ∧ (t.timer k).nextTick = none) ∧
      (∀ k : Fin 8, (Fld.TMR_GROUP_STOP.get v).testBit k = false → (Fld.TMR_GROUP_START.get v).testBit k = true →
        t.flag (Reg.TMR_T_CTRL k) Fld.TMR_T_CTRL_EN = true ∧
        (t.timer k).nextTick = some ((s.timer k).nextTick.getD (s.time + (s.fld (Reg.TMR_T_CTRL k) Fld.TMR_T_CTRL_PRESC + 1) * cycle))) ∧
      (∀ k : Fin 8, (Fld.TMR_GROUP_STOP.get v).testBit k = false → (Fld.TMR_GROUP_START.get v).testBit k = false →
        t.reg (Reg.TMR_T_CTRL k) = s.reg (Reg.TMR_T_CTRL k) ∧ t.timer k = s.timer k) ∧ Keeps [.regs, .tmr] s t) ∧
  (∀ (s : State) (p : List Byte), Running s → s.authActs 5 = some p → wallLimit ≤ leAt p 0 8 →
    Does .wallSet s fun t =>
      AuthRefused s t ∧ Posted 0xD004 .heart 0 t ∧ RegsBut [Reg.CFG_AUTH_STATUS, Reg.GEN_IRQ_STATUS] s t ∧ Keeps [.regs, .cfg, .obs] s t) ∧
  (∀ (s : State) (p : List Byte), Running s → s.authActs 5 = some p → leAt p 0 8 < wallLimit → s.dt < 2 ^ 63 →
    Does .wallSet s fun t =>
      AuthAccepted s t ∧ t.cfg = { s.cfg with auth := none } ∧ t.wt = leAt p 0 8 ∧
      t.flag Reg.TMR_WALL_STATUS Fld.TMR_WALL_STATUS_KNOWN = true ∧ t.flag Reg.KPR_STATUS Fld.KPR_STATUS_WALL_KNOWN = true ∧
      t.fld Reg.TMR_WALL_STATUS Fld.TMR_WALL_STATUS_SETS = satAdd 65535 (s.fld Reg.TMR_WALL_STATUS Fld.TMR_WALL_STATUS_SETS) 1 ∧
      t.kpr = { s.kpr with pass := some s.time, slots := s.kpr.slots.map fun x => { x with stale := true } } ∧
      RegsBut [Reg.CFG_AUTH_STATUS, Reg.GEN_IRQ_STATUS, Reg.TMR_WT_OFS_LO, Reg.TMR_WT_OFS_HI, Reg.TMR_WALL_STATUS, Reg.KPR_STATUS] s t ∧
      ({ code := 0xC003, note := .heart, arg := 0,
         own := [word s.wt, word (s.wt / 2 ^ 32), word (leAt p 0 8), word (leAt p 0 8 / 2 ^ 32)] } : Event) ∈ t.obs.posted ∧
      Keeps [.regs, .cfg, .kpr, .obs] s t) ∧
  (∀ (s : State) (n : Nat), Running s → s.flag Reg.TMR_SLOW_RATE Fld.TMR_SLOW_RATE_RATE_AUTO = true → 15000 ≤ (n + 200) / 400 →
    (n + 200) / 400 ≤ 16250 →
    Does (.slowRateMeasurement n) s fun t =>
      t.fld Reg.TMR_SLOW_RATE Fld.TMR_SLOW_RATE_RATE = (n + 200) / 400 ∧ RegsBut [Reg.TMR_SLOW_RATE] s t ∧ Keeps [.regs] s t) ∧
  (∀ (s : State) (n : Nat), Running s → s.flag Reg.TMR_SLOW_RATE Fld.TMR_SLOW_RATE_RATE_AUTO = true →
    ((n + 200) / 400 < 15000 ∨ 16250 < (n + 200) / 400) →
    Does (.slowRateMeasurement n) s fun t => Posted 0xD005 .heart 0 t ∧ Keeps [.obs] s t) ∧
  (∀ (s : State) (k : TimerId) (e n : Nat), Running s → (s.timer k).nextTick = some e →
    n = (if (s.reg (Reg.TMR_T_RELOAD k)).toNat ≤ (s.reg (Reg.TMR_T_COUNT k)).toNat then 0 else (s.reg (Reg.TMR_T_COUNT k)).toNat + 1) →
    Does (.timerTick k) s fun t =>
      t.reg (Reg.TMR_T_COUNT k) = word n ∧
      t.flag (Reg.TMR_T_STATUS k) Fld.TMR_T_STATUS_WRAP =
        (s.flag (Reg.TMR_T_STATUS k) Fld.TMR_T_STATUS_WRAP ||
          decide ((s.reg (Reg.TMR_T_RELOAD k)).toNat ≤ (s.reg (Reg.TMR_T_COUNT k)).toNat)) ∧
      t.flag (Reg.TMR_T_STATUS k) Fld.TMR_T_STATUS_HIT0 =
        (s.flag (Reg.TMR_T_STATUS k) Fld.TMR_T_STATUS_HIT0 || decide ((s.reg (Reg.TMR_T_CMP0 k)).toNat = n)) ∧
      t.flag (Reg.TMR_T_STATUS k) Fld.TMR_T_STATUS_HIT1 =
        (s.flag (Reg.TMR_T_STATUS k) Fld.TMR_T_STATUS_HIT1 || decide ((s.reg (Reg.TMR_T_CMP1 k)).toNat = n)) ∧
      t.reg (Reg.TMR_T_CMP0 k) = (if (s.reg (Reg.TMR_T_CMP0 k)).toNat = n then
        word ((n + (s.reg (Reg.TMR_T_INT0 k)).toNat) % ((s.reg (Reg.TMR_T_RELOAD k)).toNat + 1)) else s.reg (Reg.TMR_T_CMP0 k)) ∧
      t.reg (Reg.TMR_T_CMP1 k) = (if (s.reg (Reg.TMR_T_CMP1 k)).toNat = n then
        word ((n + (s.reg (Reg.TMR_T_INT1 k)).toNat) % ((s.reg (Reg.TMR_T_RELOAD k)).toNat + 1)) else s.reg (Reg.TMR_T_CMP1 k)))

/-- R488-R492, in part: the event queue. The head of the intake enters where there is room; at a full queue one of priority 0 displaces the
newest entry of the lowest priority held, which is counted lost, and any other waits. A pop returns word 0 of the first entry of the lowest
priority number and keeps its argument for the read of word 1; on an empty queue both are 0. The memory-parity marks of the two words that a
pop reads, the command's operands, are shown as their POISON bits. With the intakes empty, a 100 µs tick moves each entry whose time at its
priority has reached AGE_LIMIT up one priority, and PROMOTED counts these. -/
def Obligations.EventQueueMoves : Prop :=
  (∀ (s : State) (h : EvqEntry) (rest : List EvqEntry), Clocked s → s.obs.evq.intake = h :: rest → s.obs.evq.entries.length < 1024 →
    Does .evqIntakeMove s fun t =>
      t.obs.evq.intake = rest ∧ t.obs.evq.entries = s.obs.evq.entries ++ [{ h with ms := s.dt / 1000 % 1024, since := s.time }] ∧
      t.obs.evq.lost = s.obs.evq.lost ∧ t.obs.evq.promoted = s.obs.evq.promoted ∧ t.obs.evq.pop1 = s.obs.evq.pop1 ∧ Keeps [.obs] s t) ∧
  (∀ (s : State) (h : EvqEntry) (rest : List EvqEntry), Clocked s → s.obs.evq.intake = h :: rest → 1024 ≤ s.obs.evq.entries.length →
    h.prio ≠ 0 →
    Does .evqIntakeMove s fun t => t = s) ∧
  (∀ (s : State) (h : EvqEntry) (rest : List EvqEntry) (p : Nat), Clocked s → s.obs.evq.intake = h :: rest →
    1024 ≤ s.obs.evq.entries.length → h.prio = 0 → p < 4 →
    (p = 3 ∨ (p = 2 ∧ s.evqAt 3 = 0) ∨ (p = 1 ∧ s.evqAt 3 = 0 ∧ s.evqAt 2 = 0)) → s.evqAt p ≠ 0 →
    Does .evqIntakeMove s fun t =>
      t.obs.evq.intake = rest ∧
      t.obs.evq.entries = dropNewestAt p s.obs.evq.entries ++ [{ h with ms := s.dt / 1000 % 1024, since := s.time }] ∧
      (t.obs.evq.lost[p]?).getD 0 = satAdd 255 ((s.obs.evq.lost[p]?).getD 0) 1 ∧ Keeps [.obs] s t) ∧
  (∀ (s : State) (b0 b1 : Bool) (e : EvqEntry), Clocked s → s.evqHead = some e →
    Does (.evqPop0 b0 b1) s fun t =>
      t.hif.out = [e.word0] ∧ t.obs.evq.pop1 = e.arg ∧ t.obs.evq.entries = dropFirstAt e.prio s.obs.evq.entries ∧
      (∀ x : Fin s.obs.evq.entries.length, e.prio ≤ (s.obs.evq.entries[x]).prio) ∧
      t.flag Reg.QUE_EVQ_TAG Fld.QUE_EVQ_TAG_POISON0 = b0 ∧ t.flag Reg.QUE_EVQ_TAG Fld.QUE_EVQ_TAG_POISON1 = b1 ∧
      RegsBut [Reg.QUE_EVQ_TAG, Reg.QUE_POISONS] s t ∧ Keeps [.regs, .obs, .hif] s t) ∧
  (∀ (s : State) (b0 b1 : Bool), Clocked s → s.obs.evq.entries = [] →
    Does (.evqPop0 b0 b1) s fun t =>
      t.hif.out = [0] ∧ t.obs.evq.pop1 = 0 ∧ t.obs.evq.entries = [] ∧ t.reg Reg.QUE_EVQ_TAG = 0 ∧
      RegsBut [Reg.QUE_EVQ_TAG] s t ∧ Keeps [.regs, .obs, .hif] s t) ∧
  (∀ (s : State) (n : Nat), Clocked s → s.obs.evq.intake = [] → s.obs.sil.intake = [] → s.obs.sil.hold = [] → s.obs.posted = [] →
    n = (s.obs.evq.entries.filter fun e => decide (0 < e.prio) &&
      decide (s.fld Reg.QUE_EVQ_CTRL Fld.QUE_EVQ_CTRL_AGE_LIMIT * msec ≤ (s.time / (100 * usec) + 1) * (100 * usec) - e.since)).length →
    Does .evqAgeTick s fun t =>
      t.obs.evq.entries = s.obs.evq.entries.map (fun e =>
        if 0 < e.prio ∧ s.fld Reg.QUE_EVQ_CTRL Fld.QUE_EVQ_CTRL_AGE_LIMIT * msec ≤ t.time - e.since
        then { e with prio := e.prio - 1, since := t.time } else e) ∧
      t.obs.evq.promoted = satAdd 65535 s.obs.evq.promoted n ∧ Passes ((s.time / (100 * usec) + 1) * (100 * usec)) [] s t)

/-- R493-R496, in part: the check-value channels, while CLK_CORE runs. START latches the parameters and loads the register, with FOLD_MODE 1
run over FOLD. A write of DATA8, DATA16 or DATA32 runs its bytes from the lowest upwards and counts them; while a range runs, such a write,
a START and a RANGE_GO leave every channel as it is. RANGE_GO takes up a range that lies in the window, with POISON and its event where the
command's operand says that a byte of the range fails its check; the range is due one cycle for each four bytes, and at its end its bytes
have been run in ascending order and counted. -/
def Obligations.CheckChannels : Prop :=
  (∀ (s : State) (c : Chan), Running s → s.crcBusy c = false → s.fld (Reg.CRC_CH_CFG c) Fld.CRC_CH_CFG_FOLD_MODE ≠ 1 →
    Does (.start c) s fun t =>
      t.chan c = { width := s.fld (Reg.CRC_CH_CFG c) Fld.CRC_CH_CFG_WIDTH, poly := (s.reg (Reg.CRC_CH_POLY c)).toNat,
                   xorOut := (s.reg (Reg.CRC_CH_XOROUT c)).toNat, refIn := s.flag (Reg.CRC_CH_CFG c) Fld.CRC_CH_CFG_REFIN,
                   refOut := s.flag (Reg.CRC_CH_CFG c) Fld.CRC_CH_CFG_REFOUT,
                   foldMode := s.fld (Reg.CRC_CH_CFG c) Fld.CRC_CH_CFG_FOLD_MODE, fold := s.reg (Reg.CRC_CH_FOLD c),
                   reg := (s.reg (Reg.CRC_CH_INIT c)).toNat % 2 ^ s.fld (Reg.CRC_CH_CFG c) Fld.CRC_CH_CFG_WIDTH,
                   bytes := 0, range := none, rangeEnd := 0 } ∧
      ChanOf c s t ∧ Keeps [.crc] s t) ∧
  (∀ (s : State) (c : Chan), Running s → s.crcBusy c = false → s.fld (Reg.CRC_CH_CFG c) Fld.CRC_CH_CFG_FOLD_MODE = 1 →
    Does (.start c) s fun t =>
      (t.chan c).reg = { t.chan c with reg := (s.reg (Reg.CRC_CH_INIT c)).toNat % 2 ^ s.fld (Reg.CRC_CH_CFG c) Fld.CRC_CH_CFG_WIDTH }.run
        (wordBytes (s.reg (Reg.CRC_CH_FOLD c))) ∧
      (t.chan c).width = s.fld (Reg.CRC_CH_CFG c) Fld.CRC_CH_CFG_WIDTH ∧ (t.chan c).poly = (s.reg (Reg.CRC_CH_POLY c)).toNat ∧
      (t.chan c).bytes = 0 ∧ ChanOf c s t ∧ Keeps [.crc] s t) ∧
  (∀ (s : State) (c : Chan) (v : Word), Running s → s.crcBusy c = false →
    Does (.data8 c v) s fun t =>
      t.chan c = { s.chan c with reg := (s.chan c).run [byte v.toNat], bytes := satAdd 16777215 (s.chan c).bytes 1 } ∧ ChanOf c s t ∧
      Keeps [.crc] s t) ∧
  (∀ (s : State) (c : Chan) (v : Word), Running s → s.crcBusy c = false →
    Does (.data16 c v) s fun t =>
      t.chan c = { s.chan c with reg := (s.chan c).run [byte v.toNat, byte (v.toNat / 256)],
                                 bytes := satAdd 16777215 (s.chan c).bytes 2 } ∧ ChanOf c s t ∧ Keeps [.crc] s t) ∧
  (∀ (s : State) (c : Chan) (v : Word), Running s → s.crcBusy c = false →
    Does (.data32 c v) s fun t =>
      t.chan c = { s.chan c with reg := (s.chan c).run [byte v.toNat, byte (v.toNat / 256), byte (v.toNat / 65536), byte (v.toNat / 16777216)],
                                 bytes := satAdd 16777215 (s.chan c).bytes 4 } ∧ ChanOf c s t ∧ Keeps [.crc] s t) ∧
  (∀ (s : State) (c : Chan) (v : Word) (b : Bool) (i : Instr), Running s → s.crcBusy c = true →
    i ∈ [.start c, .data8 c v, .data16 c v, .data32 c v, .rangeGo c b] → Does i s fun t => t.crc = s.crc ∧ Keeps [.obs] s t) ∧
  (∀ (s : State) (c : Chan) (b : Bool), Running s → s.crcBusy c = false → 0x600000 ≤ (s.reg (Reg.CRC_CH_RANGE_ADDR c)).toNat →
    (s.reg (Reg.CRC_CH_RANGE_ADDR c)).toNat + (s.reg (Reg.CRC_CH_RANGE_LEN c)).toNat ≤ 0xA00000 → 0 < (s.reg (Reg.CRC_CH_RANGE_LEN c)).toNat →
    Does (.rangeGo c b) s fun t =>
      t.chan c = { s.chan c with range := some ((s.reg (Reg.CRC_CH_RANGE_ADDR c)).toNat, (s.reg (Reg.CRC_CH_RANGE_LEN c)).toNat),
                                 rangeEnd := s.time + ((s.reg (Reg.CRC_CH_RANGE_LEN c)).toNat + 3) / 4 * cycle } ∧
      ChanOf c s t ∧ (b = true → t.flag (Reg.CRC_CH_STATUS c) Fld.CRC_CH_STATUS_POISON = true ∧ Posted 0xD801 .heart 0 t) ∧
      RegsBut [Reg.CRC_CH_STATUS c] s t ∧ Keeps [.regs, .crc, .obs] s t) ∧
  (∀ (s : State) (c : Chan) (a n : Nat), Running s → (s.chan c).range = some (a, n) → (s.chan c).rangeEnd ≤ s.time →
    Does (.crcRangeDone c) s fun t =>
      t.chan c = { s.chan c with reg := (s.chan c).run (s.sramSeen a n), bytes := satAdd 16777215 (s.chan c).bytes n, range := none } ∧
      ChanOf c s t ∧ Keeps [.crc] s t) ∧
  (∀ (s : State) (c : Chan) (a n : Nat), Running s → (s.chan c).range = some (a, n) →
    Does (.crcRangeDone c) s fun t =>
      t.crcBusy c = false ∧ ChanOf c s t ∧ Passes (s.chan c).rangeEnd [.crc] s t)

/-- R519, R521-R525, R541, in part: authenticated commands. A misspelt opcode address gives BADCMD alone, no data nothing. A byte sequence
is put to the checks of R523 in their order, each with its RESULT, the counter unchanged; one that passes the first five waits for the NV
write of its counter, and is marked as stored when that verifies; a write that fails gives RESULT 8, the counter the old or the new one.
CFG_ROLLBACK starts the check of the other slot, or is refused while boot access is busy; the check ends with a refusal, or with a restart,
which the loss of the supply that the command's operand tells makes a loss of power. CFG_KEY_ROTATE is refused, or with both copies verified
puts the new key in force and shows the counter 0, whose own NV write then ends, or fails with NV_FAIL and the old counter or 0. -/
def Obligations.AuthenticatedCommands : Prop :=
  (∀ (s : State) (b : Bool) (a : BitVec 24) (l : List Word) (e : TxEnd), HostReady s → a ≠ 0 →
    Does (.auth b a l e) s fun t =>
      t.cfg = s.cfg ∧ t.flag Reg.HIF_STATUS Fld.HIF_STATUS_BADCMD = true ∧
      t.fld Reg.CFG_AUTH_STATUS Fld.CFG_AUTH_STATUS_RESULT = s.fld Reg.CFG_AUTH_STATUS Fld.CFG_AUTH_STATUS_RESULT) ∧
  (∀ (s : State) (b : Bool), HostReady s →
    Does (.auth b 0 [] .whole) s fun t => t.cfg = s.cfg ∧ t.regs = s.regs ∧ Keeps [.pins, .obs] s t) ∧
  (∀ (s : State) (b : Bool) (l : List Word), HostReady s → l ≠ [] → s.cfg.auth.isSome = true →
    Does (.auth b 0 l .whole) s fun t =>
      t.fld Reg.CFG_AUTH_STATUS Fld.CFG_AUTH_STATUS_RESULT = 2 ∧ t.cfg = s.cfg ∧ t.flag Reg.GEN_IRQ_STATUS Fld.GEN_IRQ_STATUS_AUTH = true ∧
      RegsBut [Reg.CFG_AUTH_STATUS, Reg.GEN_IRQ_STATUS] s t ∧ Keeps [.regs, .pins, .obs] s t) ∧
  (∀ (s : State) (b : Bool) (l : List Word), HostReady s → l ≠ [] → s.cfg.auth = none →
    s.gen.phase ≠ .run → s.gen.phase ≠ .test → s.gen.phase ≠ .recovery →
    Does (.auth b 0 l .whole) s fun t =>
      t.fld Reg.CFG_AUTH_STATUS Fld.CFG_AUTH_STATUS_RESULT = 7 ∧ t.cfg = s.cfg ∧
      RegsBut [Reg.CFG_AUTH_STATUS, Reg.GEN_IRQ_STATUS] s t ∧ Keeps [.regs, .pins, .obs] s t) ∧
  (∀ (s : State) (b : Bool) (l : List Word) (r : Nat), HostReady s → l ≠ [] → s.cfg.auth = none →
    (s.gen.phase = .run ∨ s.gen.phase = .test ∨ s.gen.phase = .recovery) →
    r = (if authForm (unpackWords l) = false then 3
         else if s.tagNow (s.authMessage (unpackWords l)) ≠ some ((unpackWords l).drop ((unpackWords l).length - 8)) then 4
         else if leAt (unpackWords l) 4 4 ≤ s.cfg.counter then 5 else 0) → r ≠ 0 →
    Does (.auth b 0 l .whole) s fun t =>
      t.fld Reg.CFG_AUTH_STATUS Fld.CFG_AUTH_STATUS_RESULT = r ∧ t.cfg = s.cfg ∧
      t.fld Reg.CFG_AUTH_FAILS Fld.CFG_AUTH_FAILS_COUNT = satAdd 65535 (s.fld Reg.CFG_AUTH_FAILS Fld.CFG_AUTH_FAILS_COUNT) 1 ∧
      RegsBut [Reg.CFG_AUTH_STATUS, Reg.CFG_AUTH_FAILS, Reg.GEN_IRQ_STATUS] s t ∧ Keeps [.regs, .pins, .obs] s t) ∧
  (∀ (s : State) (b : Bool) (l : List Word), HostReady s → l ≠ [] → s.cfg.auth = none →
    (s.gen.phase = .run ∨ s.gen.phase = .test ∨ s.gen.phase = .recovery) → authForm (unpackWords l) = true →
    s.tagNow (s.authMessage (unpackWords l)) = some ((unpackWords l).drop ((unpackWords l).length - 8)) →
    s.cfg.counter < leAt (unpackWords l) 4 4 →
    Does (.auth b 0 l .whole) s fun t =>
      t.cfg = { s.cfg with zeroing := none,
                           auth := some { opcode := leAt (unpackWords l) 0 1, counter := leAt (unpackWords l) 4 4,
                                          payload := ((unpackWords l).drop 8).take (leAt (unpackWords l) 1 1), stored := false } } ∧
      t.fld Reg.CFG_AUTH_STATUS Fld.CFG_AUTH_STATUS_OPCODE = leAt (unpackWords l) 0 1 ∧
      RegsBut [Reg.CFG_AUTH_STATUS] s t ∧ Keeps [.regs, .cfg, .pins, .obs] s t) ∧
  (∀ (s : State) (a : AuthCmd), Running s → s.cfg.auth = some a → a.stored = false →
    Does (.authCounterNvDone true) s fun t =>
      t.cfg = { s.cfg with counter := a.counter, auth := some { a with stored := true } } ∧ t.reg Reg.CFG_AUTH_COUNTER = word a.counter ∧
      RegsBut [Reg.CFG_AUTH_COUNTER] s t ∧ Keeps [.regs, .cfg] s t) ∧
  (∀ (s : State) (a : AuthCmd), Running s → s.cfg.auth = some a → a.stored = false →
    Does (.authCounterNvDone false) s fun t =>
      t.fld Reg.CFG_AUTH_STATUS Fld.CFG_AUTH_STATUS_RESULT = 8 ∧ t.cfg.auth = none ∧
      (t.cfg.counter = s.cfg.counter ∨ t.cfg.counter = a.counter) ∧ t.cfg.keys = s.cfg.keys ∧ Posted 0xE008 .heart 0 t ∧
      RegsBut [Reg.CFG_AUTH_STATUS, Reg.CFG_AUTH_COUNTER, Reg.GEN_IRQ_STATUS] s t ∧ Keeps [.regs, .cfg, .free, .obs] s t) ∧
  (∀ (s : State) (p : List Byte), Running s → s.authActs 1 = some p → s.cfg.rollback = false → s.cfg.bootOp = none →
    Does .cfgRollback s fun t => t.cfg = { s.cfg with rollback := true } ∧ Keeps [.cfg] s t) ∧
  (∀ (s : State) (p : List Byte), Running s → s.authActs 1 = some p → s.cfg.rollback = false → s.cfg.bootOp.isSome = true →
    Does .cfgRollback s fun t =>
      AuthRefused s t ∧ RegsBut [Reg.CFG_AUTH_STATUS, Reg.GEN_IRQ_STATUS] s t ∧ Keeps [.regs, .cfg, .obs] s t) ∧
  (∀ (s : State) (p : List Byte) (e : RetireEnd), Running s → s.authActs 1 = some p → s.cfg.rollback = true →
    (s.slotCheck s.slotOther ≠ 1 ∨ hdrVer (s.header s.slotOther) ≠ leAt p 0 4) →
    Does (.rollbackCheckDone e) s fun t =>
      t.fld Reg.CFG_AUTH_STATUS Fld.CFG_AUTH_STATUS_RESULT = 6 ∧ t.cfg = { s.cfg with auth := none, rollback := false } ∧
      RegsBut [Reg.CFG_AUTH_STATUS, Reg.GEN_IRQ_STATUS] s t ∧ Keeps [.regs, .cfg, .obs] s t) ∧
  (∀ (s : State) (p : List Byte) (e : RetireEnd), Running s → s.authActs 1 = some p → s.cfg.rollback = true → s.cfg.zeroing = none →
    s.slotCheck s.slotOther = 1 → hdrVer (s.header s.slotOther) = leAt p 0 4 → (e = .verified ∨ e = .unverified) →
    Does (.rollbackCheckDone e) s fun t =>
      t.pwr.awake = .reset ∧ t.cfg.rolled = true ∧ t.cfg.auth = none ∧ t.cfg.rollback = false ∧ t.cfg.keys = s.cfg.keys ∧
      t.cfg.counter = s.cfg.counter ∧ t.reg Reg.SAF_PREV = s.reg Reg.SAF_FIRST ∧ t.pins.aon = s.pins.aon ∧ t.pending = s.pending) ∧
  (∀ (s : State) (p : List Byte) (e : RetireEnd), Running s → s.authActs 1 = some p → s.cfg.rollback = true → s.cfg.zeroing = none →
    s.slotCheck s.slotOther = 1 → hdrVer (s.header s.slotOther) = leAt p 0 4 → (e = .lostAfterCopy0 ∨ e = .lostCompacting) →
    Does (.rollbackCheckDone e) s fun t =>
      t.pwr.awake = .reset ∧ t.cfg.auth = none ∧ t.cfg.rollback = false ∧ t.cfg.keys = s.cfg.keys ∧ t.cfg.counter = s.cfg.counter ∧
      t.pins.aon = false ∧ t.pending = s.pending) ∧
  (∀ (s : State) (p : List Byte) (x : KeyCopy) (b0 b1 : Bool), Running s → s.authActs 2 = some p → s.keyNow = some x →
    (leAt p 16 2 ≠ x.gen + 1 ∨ aesDecrypt x.key (p.take 16) = List.replicate 16 0) →
    Does (.cfgKeyRotate b0 b1) s fun t =>
      AuthRefused s t ∧ RegsBut [Reg.CFG_AUTH_STATUS, Reg.GEN_IRQ_STATUS] s t ∧ Keeps [.regs, .cfg, .obs] s t) ∧
  (∀ (s : State) (p : List Byte) (x y : KeyCopy), Running s → s.authActs 2 = some p → s.keyNow = some x → leAt p 16 2 = x.gen + 1 →
    aesDecrypt x.key (p.take 16) ≠ List.replicate 16 0 → y = { key := aesDecrypt x.key (p.take 16), gen := x.gen + 1, valid := true } →
    Does (.cfgKeyRotate true true) s fun t =>
      t.cfg = { s.cfg with keys := [y, y], counter := 0, auth := none, zeroing := some s.cfg.counter } ∧
      t.fld Reg.CFG_AUTH_STATUS Fld.CFG_AUTH_STATUS_RESULT = 1 ∧
      t.fld Reg.CFG_KEY_STATUS Fld.CFG_KEY_STATUS_KEY_GEN = x.gen + 1 ∧ t.flag Reg.CFG_KEY_STATUS Fld.CFG_KEY_STATUS_BLANK = false ∧
      t.reg Reg.CFG_AUTH_COUNTER = 0 ∧ Posted 0xE007 .heart 0 t ∧
      RegsBut [Reg.CFG_AUTH_STATUS, Reg.CFG_AUTH_COUNTER, Reg.CFG_KEY_STATUS, Reg.GEN_IRQ_STATUS] s t ∧ Keeps [.regs, .cfg, .obs] s t) ∧
  (∀ (s : State) (c : Nat), Running s → s.cfg.auth = none → s.cfg.zeroing = some c →
    Does (.authCounterNvDone true) s fun t => t.cfg = { s.cfg with zeroing := none } ∧ Keeps [.cfg] s t) ∧
  (∀ (s : State) (c : Nat), Running s → s.cfg.auth = none → s.cfg.zeroing = some c →
    Does (.authCounterNvDone false) s fun t =>
      t.cfg.zeroing = none ∧ (t.cfg.counter = s.cfg.counter ∨ t.cfg.counter = c) ∧ t.cfg.keys = s.cfg.keys ∧
      t.flag Reg.CFG_KEY_STATUS Fld.CFG_KEY_STATUS_NV_FAIL = true ∧ Posted 0xE008 .heart 0 t ∧
      RegsBut [Reg.CFG_KEY_STATUS, Reg.CFG_AUTH_COUNTER] s t ∧ Keeps [.regs, .cfg, .free, .obs] s t)

/-- R507, R520, in part: boot access. A command is taken up and places its transfers on the bus, or is refused with RESULT 1 and nothing
done. READ copies 256 bytes of the 24-bit range into the buffer. PROGRAM lets bits of a page fall only, with RESULT 3 where the page then
differs from the buffer; ERASE leaves the sector at 0xFF: both where the memory takes what it is given, as the command's operand says. A
program past 5 ms and an erase past 400 ms give RESULT 2, and no byte outside the page or sector has changed. -/
def Obligations.BootAccess : Prop :=
  (∀ (s : State) (a : Nat), Clocked s → a = (s.reg Reg.CFG_BOOT_ADDR).toNat → s.cfg.bootOp = none → s.cfg.rollback = false → a % 4 = 0 →
    Does .bootRead s fun t =>
      t.cfg = { s.cfg with bootOp := some (.read, a), bootData := s.bootBuf,
                           wire := [[0x6B, byte (a / 0x10000), byte (a / 0x100), byte a]] } ∧
      t.flag Reg.CFG_BOOT_BSTATUS Fld.CFG_BOOT_BSTATUS_BUSY = true ∧ RegsBut [Reg.CFG_BOOT_BSTATUS] s t ∧ Keeps [.regs, .cfg] s t) ∧
  (∀ (s : State), Clocked s → ((s.reg Reg.CFG_BOOT_ADDR).toNat % 4 ≠ 0 ∨ s.cfg.bootOp.isSome = true ∨ s.cfg.rollback = true) →
    Does .bootRead s fun t =>
      t.fld Reg.CFG_BOOT_BSTATUS Fld.CFG_BOOT_BSTATUS_RESULT = 1 ∧ RegsBut [Reg.CFG_BOOT_BSTATUS] s t ∧ Keeps [.regs, .obs] s t) ∧
  (∀ (s : State) (a : Nat), Clocked s → a = (s.reg Reg.CFG_BOOT_ADDR).toNat → s.cfg.bootOp = none → s.cfg.rollback = false → a % 256 = 0 →
    ((0x10000 ≤ a ∧ a < 0x410000 ∧ (s.gen.safeBoot = true ∨ s.slotNow ≠ 0)) ∨
      (0x410000 ≤ a ∧ a < 0x810000 ∧ (s.gen.safeBoot = true ∨ s.slotNow = 0))) →
    Does .bootProgram s fun t =>
      t.cfg = { s.cfg with bootOp := some (.program, a), bootData := s.bootBuf,
                           wire := [[0x06], [0x02, byte (a / 0x10000), byte (a / 0x100), byte a], [0x05],
                                    [0x6B, byte (a / 0x10000), byte (a / 0x100), byte a]] } ∧
      t.flag Reg.CFG_BOOT_BSTATUS Fld.CFG_BOOT_BSTATUS_BUSY = true ∧ RegsBut [Reg.CFG_BOOT_BSTATUS] s t ∧ Keeps [.regs, .cfg] s t) ∧
  (∀ (s : State) (a : Nat), Clocked s → a = (s.reg Reg.CFG_BOOT_ADDR).toNat →
    (a % 256 ≠ 0 ∨ a < 0x10000 ∨ 0x810000 ≤ a ∨ (s.gen.safeBoot = false ∧ s.slotNow = 0 ∧ a < 0x410000) ∨
      (s.gen.safeBoot = false ∧ s.slotNow = 1 ∧ 0x410000 ≤ a) ∨ s.cfg.bootOp.isSome = true ∨ s.cfg.rollback = true) →
    Does .bootProgram s fun t =>
      t.fld Reg.CFG_BOOT_BSTATUS Fld.CFG_BOOT_BSTATUS_RESULT = 1 ∧ RegsBut [Reg.CFG_BOOT_BSTATUS] s t ∧ Keeps [.regs, .obs] s t) ∧
  (∀ (s : State) (a : Nat), Clocked s → a = (s.reg Reg.CFG_BOOT_ADDR).toNat → s.cfg.bootOp = none → s.cfg.rollback = false → a % 4096 = 0 →
    ((0x10000 ≤ a ∧ a < 0x410000 ∧ (s.gen.safeBoot = true ∨ s.slotNow ≠ 0)) ∨
      (0x410000 ≤ a ∧ a < 0x810000 ∧ (s.gen.safeBoot = true ∨ s.slotNow = 0))) →
    Does .bootErase s fun t =>
      t.cfg = { s.cfg with bootOp := some (.erase, a), bootData := s.bootBuf,
                           wire := [[0x06], [0x20, byte (a / 0x10000), byte (a / 0x100), byte a], [0x05]] } ∧
      t.flag Reg.CFG_BOOT_BSTATUS Fld.CFG_BOOT_BSTATUS_BUSY = true ∧ RegsBut [Reg.CFG_BOOT_BSTATUS] s t ∧ Keeps [.regs, .cfg] s t) ∧
  (∀ (s : State) (n a : Nat) (b : Bool), Clocked s → s.cfg.bootOp = some (.read, a) → a + 256 ≤ 0x1000000 →
    Does (.bootOpDone n b) s fun t =>
      t.bootBuf = s.bootBytes a 256 ∧ t.cfg = { s.cfg with bootOp := none, bootData := [] } ∧
      t.flag Reg.CFG_BOOT_BSTATUS Fld.CFG_BOOT_BSTATUS_BUSY = false ∧ t.flag Reg.CFG_BOOT_BSTATUS Fld.CFG_BOOT_BSTATUS_DONE = true ∧
      t.fld Reg.CFG_BOOT_BSTATUS Fld.CFG_BOOT_BSTATUS_RESULT = 0 ∧ Keeps [.regs, .cfg, .obs] s t) ∧
  (∀ (s : State) (n a : Nat), Clocked s → s.cfg.bootOp = some (.program, a) → n ≤ 5000 → s.cfg.bootData.length = 256 →
    Does (.bootOpDone n false) s fun t =>
      t.bootBytes a 256 = List.zipWith (fun x y => x &&& y) (s.bootBytes a 256) s.cfg.bootData ∧
      (∀ x : Nat, (x < a ∨ a + 256 ≤ x) → t.bootBytes x 1 = s.bootBytes x 1) ∧ t.cfg.bootOp = none ∧
      t.fld Reg.CFG_BOOT_BSTATUS Fld.CFG_BOOT_BSTATUS_RESULT = (if t.bootBytes a 256 = s.cfg.bootData then 0 else 3) ∧
      RegsBut [Reg.CFG_BOOT_BSTATUS] s t ∧ Keeps [.regs, .cfg, .obs] s t) ∧
  (∀ (s : State) (n a : Nat) (b : Bool), Clocked s → s.cfg.bootOp = some (.program, a) → 5000 < n →
    Does (.bootOpDone n b) s fun t =>
      t.fld Reg.CFG_BOOT_BSTATUS Fld.CFG_BOOT_BSTATUS_RESULT = 2 ∧ (∀ x : Nat, (x < a ∨ a + 256 ≤ x) → t.bootBytes x 1 = s.bootBytes x 1) ∧
      RegsBut [Reg.CFG_BOOT_BSTATUS] s t ∧ Keeps [.regs, .cfg, .free, .obs] s t) ∧
  (∀ (s : State) (n a : Nat), Clocked s → s.cfg.bootOp = some (.erase, a) → n ≤ 400000 →
    Does (.bootOpDone n false) s fun t =>
      (∀ x : Nat, a ≤ x → x < a + 4096 → t.bootBytes x 1 = [0xFF]) ∧
      (∀ x : Nat, (x < a ∨ a + 4096 ≤ x) → t.bootBytes x 1 = s.bootBytes x 1) ∧ t.cfg.bootOp = none ∧
      t.fld Reg.CFG_BOOT_BSTATUS Fld.CFG_BOOT_BSTATUS_RESULT = 0 ∧ RegsBut [Reg.CFG_BOOT_BSTATUS] s t ∧ Keeps [.regs, .cfg, .obs] s t) ∧
  (∀ (s : State) (n a : Nat) (b : Bool), Clocked s → s.cfg.bootOp = some (.erase, a) → 400000 < n →
    Does (.bootOpDone n b) s fun t =>
      t.fld Reg.CFG_BOOT_BSTATUS Fld.CFG_BOOT_BSTATUS_RESULT = 2 ∧ (∀ x : Nat, (x < a ∨ a + 4096 ≤ x) → t.bootBytes x 1 = s.bootBytes x 1) ∧
      RegsBut [Reg.CFG_BOOT_BSTATUS] s t ∧ Keeps [.regs, .cfg, .free, .obs] s t) ∧
  (∀ (s : State) (a : Nat), Clocked s → a = (s.reg Reg.CFG_BOOT_ADDR).toNat →
    (a % 4096 ≠ 0 ∨ a < 0x10000 ∨ 0x810000 ≤ a ∨ (s.gen.safeBoot = false ∧ s.slotNow = 0 ∧ a < 0x410000) ∨
      (s.gen.safeBoot = false ∧ s.slotNow = 1 ∧ 0x410000 ≤ a) ∨ s.cfg.bootOp.isSome = true ∨ s.cfg.rollback = true) →
    Does .bootErase s fun t =>
      t.fld Reg.CFG_BOOT_BSTATUS Fld.CFG_BOOT_BSTATUS_RESULT = 1 ∧ RegsBut [Reg.CFG_BOOT_BSTATUS] s t ∧ Keeps [.regs, .obs] s t)

/-- R248, R544-R547, R550, in part: the trace port and the counters. EN becoming 0 ends the periods and lets the packet being sent complete,
and the rest of the buffer is not sent (the model's choice, log entry 68); EN becoming 1 with SYNC_MS 5 sends a SYNC packet and starts its
period. SYNC and, with its first two packets and the loss of those that do not fit, LEVEL come at their periods. SNAP copies the counters,
RELEASE lets the live ones be read, CLEAR zeroes the live ones; a read of CNTi_LO latches the upper bits of that counter, a read of CTX4 or
CTX6 the word above it. -/
def Obligations.TraceAndCounters : Prop :=
  (∀ (s : State) (v : Word), Clocked s → v.toNat % 2 = 0 →
    Does (.traceCtrlWrite v) s fun t =>
      t.flag Reg.TRC_TRACE_CTRL Fld.TRC_TRACE_CTRL_EN = false ∧
      t.obs.trc = { s.obs.trc with levelAt := none, syncAt := none, buf := s.obs.trc.buf.take (s.obs.trc.sizes.headD 0),
                                   sizes := s.obs.trc.sizes.take 1 } ∧ RegsBut [Reg.TRC_TRACE_CTRL] s t ∧
      Keeps [.regs, .obs] s t) ∧
  (∀ (s : State) (v : Word), Clocked s → v = 0x501 → s.flag Reg.TRC_TRACE_CTRL Fld.TRC_TRACE_CTRL_EN = false → s.obs.trc.buf = [] →
    s.obs.trc.syncAt = none → s.obs.trc.lossRun = 0 →
    Does (.traceCtrlWrite v) s fun t =>
      t.flag Reg.TRC_TRACE_CTRL Fld.TRC_TRACE_CTRL_EN = true ∧ t.obs.trc.syncAt = some (s.time + 5 * msec) ∧ t.obs.trc.levelAt = none ∧
      t.obs.trc.buf = tracePacket 1 s.obs.trc.seq ([0x4B, 0x59, 0x54, 0x52] ++ leBytes 8 s.dt) ∧
      t.obs.trc.seq = (s.obs.trc.seq + 1) % 16 ∧ RegsBut [Reg.TRC_TRACE_CTRL] s t ∧ Keeps [.regs, .obs] s t) ∧
  (∀ (s : State) (e : Nat), Clocked s → s.obs.trc.syncAt = some e → e ≤ s.time → s.flag Reg.TRC_TRACE_CTRL Fld.TRC_TRACE_CTRL_EN = true →
    s.obs.trc.buf = [] → s.obs.trc.lossRun = 0 →
    Does .traceSyncTimer s fun t =>
      t.obs.trc.syncAt = some (e + s.fld Reg.TRC_TRACE_CTRL Fld.TRC_TRACE_CTRL_SYNC_MS * msec) ∧
      t.obs.trc.buf = tracePacket 1 s.obs.trc.seq ([0x4B, 0x59, 0x54, 0x52] ++ leBytes 8 s.dt) ∧ Keeps [.obs] s t) ∧
  (∀ (s : State) (e : Nat), Clocked s → s.obs.trc.levelAt = some e → e ≤ s.time → s.flag Reg.TRC_TRACE_CTRL Fld.TRC_TRACE_CTRL_EN = true →
    s.obs.trc.buf = [] → s.obs.trc.lossRun = 0 →
    Does .traceLevelTimer s fun t =>
      t.obs.trc.levelAt = some (e + s.fld Reg.TRC_TRACE_CTRL Fld.TRC_TRACE_CTRL_LEVEL * 10 * usec) ∧
      t.obs.trc.buf.take 16 =
        tracePacket 5 s.obs.trc.seq (leBytes 2 (s.dt % 65536) ++ [0, 0] ++ leBytes 2 (s.pq 0).tx.length) ++
        tracePacket 5 (s.obs.trc.seq + 1) (leBytes 2 (s.dt % 65536) ++ [1, 0] ++ leBytes 2 (s.pq 1).tx.length) ∧
      t.obs.trc.buf.length = 256 ∧ t.obs.trc.lost = satAdd 65535 s.obs.trc.lost 1 ∧ Keeps [.obs] s t) ∧
  (∀ (s : State) (m : List (Nat × Nat)), Clocked s → m = s.obs.trc.counters →
    Does .snap s fun t => t.obs.trc = { s.obs.trc with snap := some m } ∧ (∀ i : Fin 128, t.counterRead i = s.counter i) ∧ Keeps [.obs] s t) ∧
  (∀ (s : State), Clocked s →
    Does .release s fun t =>
      t.obs.trc = { s.obs.trc with snap := none } ∧ (∀ i : Fin 128, t.counterRead i = s.counter i) ∧ Keeps [.obs] s t) ∧
  (∀ (s : State), Clocked s →
    Does .clear s fun t =>
      (∀ i : Fin 128, t.counter i = 0) ∧ t.obs.trc = { s.obs.trc with counters := [] } ∧ Keeps [.obs] s t) ∧
  (∀ (s : State) (i : Fin 128), Clocked s →
    Does (.cntLoRead i) s fun t =>
      t.hif.out = [word (s.counterRead i)] ∧ Sparse.get t.obs.trc.latched 0 i = s.counterRead i / 2 ^ 32 ∧
      (∀ j : Fin 128, j ≠ i → Sparse.get t.obs.trc.latched 0 j = Sparse.get s.obs.trc.latched 0 j) ∧ Keeps [.obs, .hif] s t) ∧
  (∀ (s : State) (k : SessId) (b : Bool), Clocked s →
    Does (.ctxLowRead k b) s fun t =>
      t.hif.out = [((s.session k).map fun x => x.ctx (if b then 6 else 4)).getD 0] ∧
      t.peek (Reg.PRO_CTX k (if b then 7 else 5)) = ((s.session k).map fun x => x.ctx (if b then 7 else 5)).getD 0 ∧
      (∀ p ∈ s.hif.ctxHeld, p.1 ≠ Reg.PRO_CTX k (if b then 7 else 5) → p ∈ t.hif.ctxHeld) ∧ Keeps [.hif] s t)

/-- R559, R566, R569-R573, in part: power. A request becomes pending, is cancelled, or is refused with its event where no wake source is
enabled; the automatic ones come IDLE_MS after the device became idle. With nothing of R570 in the way CLK_CORE stops at the next SLOW edge;
else the command waits. The fall of HCS_N gives up an entry, and wakes a sleeping device into RECOVERY with CAUSE 3 at its next SLOW edge,
as the wake timer does. A direct port's supply goes, with it a field that is on and, where CLK_CORE runs, its event, and comes back. The
change to the SLOW crystal, and its failure, whose event waits for the wake while CLK_CORE is stopped. -/
def Obligations.PowerStates : Prop :=
  (∀ (s : State), Running s → s.wakeable .sleep = true → s.pwr.entering = none →
    Does .sleepRequest s fun t => t.pwr = { s.pwr with pending := some .sleep } ∧ Keeps [.pwr] s t) ∧
  (∀ (s : State), Running s → s.wakeable .sleep = false →
    Does .sleepRequest s fun t => Posted 0x1004 .top 0 t ∧ Keeps [.obs] s t) ∧
  (∀ (s : State), Running s → s.wakeable .sniff = true → s.pwr.entering = none →
    Does .sniffRequest s fun t => t.pwr = { s.pwr with pending := some .sniff } ∧ Keeps [.pwr] s t) ∧
  (∀ (s : State), Running s →
    Does .cancelRequest s fun t => t.pwr = { s.pwr with pending := none, entering := none } ∧ Keeps [.pwr] s t) ∧
  (∀ (s : State) (t0 : Nat), Running s → s.flag Reg.PWR_AUTO Fld.PWR_AUTO_AUTO_EN = true → s.pwr.pending = none → s.pwr.entering = none →
    s.obs.idleSince = some t0 → s.wakeable .sniff = true →
    Does .autoIdleExpiry s fun t =>
      t.pwr = { s.pwr with pending := some .sniff } ∧ Passes (t0 + s.fld Reg.PWR_AUTO Fld.PWR_AUTO_IDLE_MS * msec) [.pwr] s t) ∧
  (∀ (s : State) (t0 : Nat), Running s → s.flag Reg.PWR_AUTO Fld.PWR_AUTO_AUTO_EN = true → s.pwr.pending = none → s.pwr.entering = none →
    s.obs.idleSince = none → s.obs.offSince = some t0 → s.flag Reg.PWR_AUTO Fld.PWR_AUTO_ALLOW_SLEEP = true → s.wakeable .sleep = true →
    Does .autoIdleExpiry s fun t =>
      t.pwr = { s.pwr with pending := some .sleep } ∧ Passes (t0 + s.fld Reg.PWR_AUTO Fld.PWR_AUTO_IDLE_MS * msec) [.pwr] s t) ∧
  (∀ (s : State) (r : PwrReq), Running s → s.pwr.pending = some r → s.pwrBlock r = 0 → s.obs.sil.stages = [] →
    Does .pwrSleep s fun t =>
      t.pwr = { awake := if r = .sleep then .sleep else .sniff, pending := none, entering := none, sleepAt := t.time, slowFailed := false } ∧
      t.time = (s.time / slowCycle + 1) * slowCycle ∧ t.field = { s.field with synRun := false, settleEnd := none } ∧
      t.flag Reg.PWR_CLK_STATUS Fld.PWR_CLK_STATUS_XO_LOW = true ∧ t.flag Reg.PWR_CLK_STATUS Fld.PWR_CLK_STATUS_CPLL_LOCK = false ∧
      RegsBut [Reg.FLD_SYN_STATUS, Reg.PWR_CLK_STATUS] s t) ∧
  (∀ (s : State) (r : PwrReq), Running s → s.pwr.pending = some r → s.pwrBlock r ≠ 0 →
    Does .pwrSleep s fun t => t = s) ∧
  (∀ (s : State), Monitored s → s.asleep = false →
    Does .hostWake s fun t =>
      t.pins = { s.pins with hcsLow := true } ∧ t.pwr = { s.pwr with entering := none } ∧ Keeps [.pins, .pwr] s t) ∧
  (∀ (s : State) (n : Nat), Monitored s → s.asleep = true → s.flag Reg.PWR_WAKE Fld.PWR_WAKE_HOST_EN = true → s.saf.unseen = none →
    s.gen.phase ≠ .safe → n = (s.slowEdge - s.pwr.sleepAt) / slowCycle → s.obs.sil.intake = [] → s.obs.sil.hold = [] →
    Does .hostWake s fun t =>
      t.pwr.awake = .running ∧ t.pins.hcsLow = true ∧ t.gen.phase = .recovery ∧ t.gen.cause = 3 ∧
      t.gen.fieldsOff = true ∧ t.flag Reg.PWR_WAKE_STATUS Fld.PWR_WAKE_STATUS_HOST = true ∧
      t.fld Reg.PWR_WAKE_STATUS Fld.PWR_WAKE_STATUS_WAKES = satAdd 65535 (s.fld Reg.PWR_WAKE_STATUS Fld.PWR_WAKE_STATUS_WAKES) 1 ∧
      t.time = s.pwr.sleepAt + n * s.fld Reg.TMR_SLOW_RATE Fld.TMR_SLOW_RATE_RATE * 25 ∧ t.reg Reg.TMR_SLEEP_LAST = word (n % 2 ^ 24)) ∧
  (∀ (s : State), Monitored s → s.asleep = true → s.flag Reg.PWR_WAKE Fld.PWR_WAKE_TIMER_EN = true → s.saf.unseen = none →
    s.gen.phase ≠ .safe →
    Does .wakeTimerExpiry s fun t =>
      t.pwr.awake = .running ∧ t.gen.phase = .recovery ∧ t.gen.cause = 3 ∧
      t.flag Reg.PWR_WAKE_STATUS Fld.PWR_WAKE_STATUS_TIMER = true) ∧
  (∀ (s : State) (p : Fin 4) (x : RxData), Monitored s → s.live = false →
    Does (.pwrVddtxLow p x) s fun t =>
      t.fldBit Reg.PWR_SUPPLY Fld.PWR_SUPPLY_VDDTX_OK p = false ∧
      (s.fldBit Reg.PWR_SUPPLY Fld.PWR_SUPPLY_VDDTX_OK p = true → t.fldBit Reg.PWR_SUPPLY Fld.PWR_SUPPLY_VDDTX_LOW p = true) ∧
      RegsBut [Reg.PWR_SUPPLY] s t ∧ Keeps [.regs, .obs] s t) ∧
  (∀ (s : State) (p : Fin 4) (x : RxData), Monitored s → Running s → s.fldBit Reg.PWR_SUPPLY Fld.PWR_SUPPLY_VDDTX_OK p = true →
    s.fieldOn p = true → (s.pp p).xch = none →
    Does (.pwrVddtxLow p x) s fun t =>
      t.fldBit Reg.PWR_SUPPLY Fld.PWR_SUPPLY_VDDTX_OK p = false ∧ t.fldBit Reg.PWR_SUPPLY Fld.PWR_SUPPLY_VDDTX_LOW p = true ∧
      Posted 0x1001 .heart 0 t ∧ (t.pf p).carrier = false ∧ (t.pf p).offAt = s.time ∧ (t.pf p).ramp = .none) ∧
  (∀ (s : State) (p : Fin 4), Monitored s →
    Does (.vddtxRestored p) s fun t =>
      t.fldBit Reg.PWR_SUPPLY Fld.PWR_SUPPLY_VDDTX_OK p = true ∧
      (∀ m : Fin 4, m ≠ p → t.fldBit Reg.PWR_SUPPLY Fld.PWR_SUPPLY_VDDTX_OK m = s.fldBit Reg.PWR_SUPPLY Fld.PWR_SUPPLY_VDDTX_OK m) ∧
      t.fld Reg.PWR_SUPPLY Fld.PWR_SUPPLY_VDDTX_LOW = s.fld Reg.PWR_SUPPLY Fld.PWR_SUPPLY_VDDTX_LOW ∧
      RegsBut [Reg.PWR_SUPPLY] s t ∧ Keeps [.regs] s t) ∧
  (∀ (s : State), Running s → s.flag Reg.PWR_CLK Fld.PWR_CLK_SLOW_SRC = true →
    s.flag Reg.PWR_CLK_STATUS Fld.PWR_CLK_STATUS_SLOW_XTAL = false →
    Does .slowXtalSwitch s fun t =>
      t.flag Reg.PWR_CLK_STATUS Fld.PWR_CLK_STATUS_SLOW_XTAL = true ∧ RegsBut [Reg.PWR_CLK_STATUS] s t ∧
      Passes ((s.time / slowCycle + 1) * slowCycle) [.regs] s t) ∧
  (∀ (s : State), Running s → s.flag Reg.PWR_CLK_STATUS Fld.PWR_CLK_STATUS_SLOW_XTAL = true →
    Does .pwrSlowFail s fun t =>
      t.flag Reg.PWR_CLK_STATUS Fld.PWR_CLK_STATUS_SLOW_XTAL = false ∧ t.flag Reg.PWR_CLK_STATUS Fld.PWR_CLK_STATUS_SLOW_FAIL = true ∧
      t.flag Reg.TMR_SLOW_RATE Fld.TMR_SLOW_RATE_RATE_AUTO = true ∧ Posted 0x1002 .heart 0 t ∧
      RegsBut [Reg.PWR_CLK_STATUS, Reg.TMR_SLOW_RATE] s t ∧ Keeps [.regs, .obs] s t) ∧
  (∀ (s : State), s.asleep = true → s.gen.safeBoot = false → s.flag Reg.PWR_CLK_STATUS Fld.PWR_CLK_STATUS_SLOW_XTAL = true →
    Does .pwrSlowFail s fun t =>
      t.flag Reg.PWR_CLK_STATUS Fld.PWR_CLK_STATUS_SLOW_XTAL = false ∧ t.flag Reg.PWR_CLK_STATUS Fld.PWR_CLK_STATUS_SLOW_FAIL = true ∧
      t.flag Reg.TMR_SLOW_RATE Fld.TMR_SLOW_RATE_RATE_AUTO = true ∧ t.pwr = { s.pwr with slowFailed := true } ∧
      RegsBut [Reg.PWR_CLK_STATUS, Reg.TMR_SLOW_RATE] s t ∧ Keeps [.regs, .pwr, .obs] s t)

/-- R416, R449, R503, R517, R557, R558, R560-R562, R592, in part: resets. Each source puts every register to its reset value but
RESET_CAUSE, which names it, and SAF.PREV where VDD_AON stayed; keys and stored counter stay where no write is cut. A pulse on RST_N under
200 ns does nothing, from 1 µs on it resets, and in between it resets or only uses up a free value; VDD_CORE under 2 µs does nothing,
RESET_CMD without its key counts as refused. A further source while the device is held in reset adds its bit, and no reset is counted (the
model's reading, log entry 34). Released with TEST_EN high the device stays as it is; with an empty boot memory it comes to SAFE BOOT; with
an empty image in slot A alone, every self-test passed and nothing happening meanwhile it comes to RUN. -/
def Obligations.ResetsAndStart : Prop :=
  (∀ (s : State), s.cfg.bootOp = none → s.cfg.auth = none →
    Does .powerOnReset s fun t =>
      t.pwr = State.reset.pwr ∧ t.gen = State.reset.gen ∧ t.saf = State.reset.saf ∧ t.field = State.reset.field ∧ t.sess = [] ∧ t.time = 0 ∧
      t.pins.aon = true ∧ t.obs.sil.vault = [] ∧ t.cfg.keys = s.cfg.keys ∧ t.cfg.counter = s.cfg.counter ∧ t.cfg.boot = s.cfg.boot ∧
      t.reg Reg.PWR_RESET_CAUSE = packF [(Fld.PWR_RESET_CAUSE_CAUSE, 1), (Fld.PWR_RESET_CAUSE_RESETS, 1)] ∧
      (∀ a : Nat, a ≠ Reg.PWR_RESET_CAUSE → t.reg a = State.reset.reg a) ∧ t.pending = s.pending) ∧
  (∀ (s : State) (n : Nat), s.pins.aon = true → n < 200 → Does (.pinReset n) s fun t => t = s) ∧
  (∀ (s : State) (n : Nat), s.pins.aon = true → s.pwr.awake ≠ .reset → 200 ≤ n → n < 1000 →
    Does (.pinReset n) s fun t => (t = { s with free := s.free + 1 } ∨ (t.pwr = State.reset.pwr ∧ t.gen = State.reset.gen ∧
      t.fld Reg.PWR_RESET_CAUSE Fld.PWR_RESET_CAUSE_CAUSE = 2))) ∧
  (∀ (s : State) (n : Nat), s.pins.aon = true → s.pwr.awake ≠ .reset → 1000 ≤ n →
    Does (.pinReset n) s fun t =>
      t.pwr = State.reset.pwr ∧ t.gen = State.reset.gen ∧ t.saf = State.reset.saf ∧ t.time = 0 ∧ t.cfg.keys = s.cfg.keys ∧
      t.obs.sil.vault = s.obs.sil.vault ∧ t.obs.sil.lines = [] ∧
      t.reg Reg.PWR_RESET_CAUSE = packF [(Fld.PWR_RESET_CAUSE_CAUSE, 2),
        (Fld.PWR_RESET_CAUSE_RESETS, satAdd 65535 (s.fld Reg.PWR_RESET_CAUSE Fld.PWR_RESET_CAUSE_RESETS) 1)] ∧
      t.reg Reg.SAF_PREV = s.reg Reg.SAF_FIRST ∧
      (∀ a : Nat, a ≠ Reg.PWR_RESET_CAUSE → a ≠ Reg.SAF_PREV → t.reg a = State.reset.reg a) ∧ t.pending = s.pending) ∧
  (∀ (s : State) (n : Nat), s.pins.aon = true → s.pwr.awake ≠ .reset → 2000 ≤ n →
    Does (.coreBrownOut n) s fun t =>
      t.pwr = State.reset.pwr ∧ t.gen = State.reset.gen ∧ t.saf = State.reset.saf ∧
      t.fld Reg.PWR_RESET_CAUSE Fld.PWR_RESET_CAUSE_CAUSE = 4 ∧ t.reg Reg.SAF_PREV = s.reg Reg.SAF_FIRST ∧
      (∀ a : Nat, a ≠ Reg.PWR_RESET_CAUSE → a ≠ Reg.SAF_PREV → t.reg a = State.reset.reg a)) ∧
  (∀ (s : State) (n : Nat), n < 2000 → Does (.coreBrownOut n) s fun t => t = s) ∧
  (∀ (s : State), Clocked s →
    Does (.resetCmd 0x1680) s fun t =>
      t.pwr = State.reset.pwr ∧ t.gen = State.reset.gen ∧ t.saf = State.reset.saf ∧
      t.fld Reg.PWR_RESET_CAUSE Fld.PWR_RESET_CAUSE_CAUSE = 8 ∧ t.reg Reg.SAF_PREV = s.reg Reg.SAF_FIRST ∧
      (∀ a : Nat, a ≠ Reg.PWR_RESET_CAUSE → a ≠ Reg.SAF_PREV → t.reg a = State.reset.reg a)) ∧
  (∀ (s : State) (v : Word), Clocked s → v ≠ 0x1680 →
    Does (.resetCmd v) s fun t => t = s.count 1 ∧ Keeps [.obs] s t) ∧
  (∀ (s : State), s.cfg.bootOp = none → s.cfg.auth = none →
    Does .vddAonLoss s fun t =>
      t.pins.aon = false ∧ t.pwr = State.reset.pwr ∧ t.gen = State.reset.gen ∧ t.saf = State.reset.saf ∧ t.obs.sil.vault = [] ∧
      t.cfg.keys = s.cfg.keys ∧ t.cfg.counter = s.cfg.counter ∧ t.cfg.boot = s.cfg.boot ∧ t.emu.tag = State.reset.emu.tag ∧
      (∀ a : Nat, a ≠ Reg.PWR_RESET_CAUSE → t.reg a = State.reset.reg a)) ∧
  (∀ (s : State) (v : StartEnv), s.pwr.awake = .reset → s.pins.aon = true → v.testEn = true →
    Does (.resetRelease v) s fun t => t.pins = { s.pins with testEn := true } ∧ Keeps [.pins] s t) ∧
  (∀ (s : State) (v : StartEnv), s.pwr.awake = .reset → s.pins.aon = true → v.testEn = false → v.stopLow = false → v.failure = none →
    s.cfg.boot = [] →
    Does (.resetRelease v) s fun t =>
      t.pwr.awake = .running ∧ t.gen.safeBoot = true ∧ t.gen.phase = s.gen.phase ∧ t.time = v.us * usec ∧
      t.flag Reg.CFG_BOOT_STATUS Fld.CFG_BOOT_STATUS_SAFE_BOOT = true ∧ t.fld Reg.CFG_BOOT_STATUS Fld.CFG_BOOT_STATUS_REASON_A = 2 ∧
      t.fld Reg.CFG_BOOT_STATUS Fld.CFG_BOOT_STATUS_REASON_B = 2 ∧ Posted 0xE001 .base 0 t ∧ t.cfg.keys = s.cfg.keys) ∧
  (∀ (s : State) (v : StartEnv), s.pwr.awake = .reset → s.pins.aon = true → v.testEn = false → v.stopLow = false → v.failure = none →
    v.early = [] → v.acts = [] → s.gen.phase = .start →
    s.saf.clkLost = false → s.cox.sealed = none → ((s.startPins v).loadCfg).candidates = [0] →
    ((s.startPins v).loadCfg).slotRecords 0 = (1, some []) →
    (∀ i : Fin 9, (v.selfTest[i.val]?).getD false = true) → v.us < 65536 →
    Does (.resetRelease v) s fun t =>
      t.pwr.awake = .running ∧ t.gen.phase = .run ∧ t.gen.safeBoot = s.gen.safeBoot ∧ t.saf.hasRun = true ∧
      t.fld Reg.CFG_BOOT_STATUS Fld.CFG_BOOT_STATUS_SLOT = 0 ∧ t.fld Reg.CFG_BOOT_STATUS Fld.CFG_BOOT_STATUS_REASON_A = 1 ∧
      t.time = v.us * usec ∧ t.fld Reg.CFG_BOOT_TIME Fld.CFG_BOOT_TIME_US = v.us) ∧
  (∀ (s : State) (n : Nat), s.pins.aon = true → s.pwr.awake = .reset → 1000 ≤ n →
    Does (.pinReset n) s fun t =>
      t.pwr = State.reset.pwr ∧ t.gen = State.reset.gen ∧
      t.reg Reg.PWR_RESET_CAUSE = packF [(Fld.PWR_RESET_CAUSE_CAUSE, s.fld Reg.PWR_RESET_CAUSE Fld.PWR_RESET_CAUSE_CAUSE ||| 2),
        (Fld.PWR_RESET_CAUSE_RESETS, s.fld Reg.PWR_RESET_CAUSE Fld.PWR_RESET_CAUSE_RESETS)] ∧
      t.reg Reg.SAF_PREV = s.reg Reg.SAF_FIRST) ∧
  (∀ (s : State) (n : Nat), s.pins.aon = true → s.pwr.awake = .reset → 2000 ≤ n →
    Does (.coreBrownOut n) s fun t =>
      t.pwr = State.reset.pwr ∧ t.gen = State.reset.gen ∧
      t.reg Reg.PWR_RESET_CAUSE = packF [(Fld.PWR_RESET_CAUSE_CAUSE, s.fld Reg.PWR_RESET_CAUSE Fld.PWR_RESET_CAUSE_CAUSE ||| 4),
        (Fld.PWR_RESET_CAUSE_RESETS, s.fld Reg.PWR_RESET_CAUSE Fld.PWR_RESET_CAUSE_RESETS)] ∧
      t.reg Reg.SAF_PREV = s.reg Reg.SAF_FIRST)

/-- R28, R29, R483, R528-R543, in part: transactions of the host port that end whole, and a WRITE that ends in a partial word. In TEST two
words written reach the SRAM window; outside TEST nothing written there does. A timer's RELOAD takes what is written and is read back; a
write past the last block only posts its event. READ returns the words of the SRAM window from ascending addresses where none fails its
parity. READ_STATUS returns the status word each time; FRAME_PUSH adds its words to TXQ where they fit; FRAME_POP and EVENT_POP take the
front of RXQ and the first event, or read 0 where there is none. A partial word sets PARTIAL and writes nothing. A bad opcode other than
0x00 and 0xFF sets BADCMD, with its count, LAST_ERR and event. A push that has waited 10 ms is given up with STALL, its count and its event.
A pulse of HIRQ_N ends at its time. -/
def Obligations.HostTransactions : Prop :=
  (∀ (s : State) (b : Bool) (a : BitVec 24) (v w : Word) (m : Bool), HostReady s → s.gen.phase = .test → a.toNat % 4 = 0 → 0x200000 ≤ a.toNat →
    a.toNat + 8 ≤ 0xA00000 →
    Does (.write b a [v, w] .whole m) s fun t =>
      t.sramRead a.toNat 8 = wordBytes v ++ wordBytes w ∧
      (∀ x : Nat, (x < a.toNat ∨ a.toNat + 8 ≤ x) → t.sramByte x = s.sramByte x) ∧ Keeps [.sram, .pins, .obs] s t) ∧
  (∀ (s : State) (b : Bool) (a : BitVec 24) (l : List Word) (m : Bool), HostReady s → s.gen.phase ≠ .test → 0x200000 ≤ a.toNat →
    a.toNat + 4 * l.length ≤ 0xA00000 →
    Does (.write b a l .whole m) s fun t => Keeps [.pins, .obs] s t) ∧
  (∀ (s : State) (b : Bool) (k : TimerId) (a : BitVec 24) (v : Word) (m : Bool), HostReady s → s.gen.safeBoot = false →
    a.toNat = Reg.TMR_T_RELOAD k →
    Does (.write b a [v] .whole m) s fun t =>
      t.reg (Reg.TMR_T_RELOAD k) = v ∧ RegsBut [Reg.TMR_T_RELOAD k] s t ∧ Keeps [.regs, .pins, .obs] s t) ∧
  (∀ (s : State) (b : Bool) (a : BitVec 24) (v : Word) (m : Bool), HostReady s → 0xA00000 ≤ a.toNat →
    Does (.write b a [v] .whole m) s fun t => Posted 0xF001 .top 0 t ∧ Keeps [.pins, .obs] s t) ∧
  (∀ (s : State) (b : Bool) (a : BitVec 24) (m : Bool), HostReady s → 0x200000 ≤ a.toNat → a.toNat < 0xA00000 →
    Does (.write b a [] .partialWord m) s fun t =>
      t.flag Reg.HIF_STATUS Fld.HIF_STATUS_PARTIAL = true ∧ Posted 0xF005 .top 0 t ∧ SramKept s t ∧
      RegsBut [Reg.HIF_STATUS, Reg.HIF_ERR_COUNTS, Reg.HIF_LAST_ERR] s t ∧ Keeps [.regs, .pins, .obs] s t) ∧
  (∀ (s : State) (b : Bool) (a : BitVec 24) (n : Nat) (g : List Bool), HostReady s → g.any id = false → a.toNat % 4 = 0 → 0x200000 ≤ a.toNat →
    a.toNat + 4 * n ≤ 0xA00000 →
    Does (.read b a n .whole g) s fun t =>
      t.hif.out = (List.range n).map (fun i => ofBytes (s.sramSeen (a.toNat + 4 * i) 4)) ∧ Keeps [.hif, .pins, .obs] s t) ∧
  (∀ (s : State) (b : Bool) (k : TimerId) (a : BitVec 24) (g : List Bool), HostReady s → a.toNat = Reg.TMR_T_RELOAD k →
    Does (.read b a 1 .whole g) s fun t => t.hif.out = [s.reg (Reg.TMR_T_RELOAD k)] ∧ Keeps [.hif, .pins, .obs] s t) ∧
  (∀ (s : State) (b : Bool) (n : Nat), HostReady s →
    Does (.readStatus b n .whole) s fun t =>
      t.hif.out = List.replicate n (packF [(⟨0, 3⟩, s.gen.phase.num), (⟨3, 1⟩, bnat s.gen.safeBoot),
        (⟨4, 1⟩, bnat (s.obs.irq.asserted && s.obs.irq.pulseEnd.isNone)), (⟨5, 1⟩, bnat (decide (s.obs.evq.entries ≠ []))),
        (⟨6, 1⟩, bnat s.cfg.auth.isSome), (⟨7, 1⟩, bnat (decide ((s.reg Reg.HIF_STATUS).toNat % 16 ≠ 0))),
        (⟨16, 16⟩, maskOf (fun p => decide ((s.pq p).rx ≠ [])) 16)]) ∧ Keeps [.hif, .pins, .obs] s t) ∧
  (∀ (s : State) (b : Bool) (p : Port) (a : BitVec 24) (l : List Word), HostReady s → a.toNat = p.val → (s.pp p).flushing = false →
    (s.pq p).tx.length + l.length ≤ 2048 →
    Does (.framePush b a l .whole) s fun t =>
      (t.pq p).tx = (s.pq p).tx ++ (l.map fun w => { w := w, poison := false }) ∧ (t.pq p).rx = (s.pq p).rx ∧ QueuesOf p s t ∧
      t.hif.waiting = none ∧ Keeps [.que, .pins, .obs] s t) ∧
  (∀ (s : State) (b : Bool) (p : Port) (a : BitVec 24) (x y : QWord) (l : List QWord) (g : List Bool), HostReady s → g.any id = false →
    a.toNat = p.val →
    (s.pq p).rx = x :: y :: l →
    Does (.framePop b a 2 .whole g) s fun t =>
      t.hif.out = [x.w, y.w] ∧ (t.pq p).rx = l ∧ (t.pq p).tx = (s.pq p).tx ∧ QueuesOf p s t) ∧
  (∀ (s : State) (b : Bool) (e : EvqEntry) (g : List Bool), HostReady s → g.any id = false → s.evqHead = some e → s.obs.evq.intake = [] →
    Does (.eventPop b 0 2 .whole g) s fun t =>
      t.hif.out = [e.word0, e.arg] ∧ t.obs.evq.entries = dropFirstAt e.prio s.obs.evq.entries ∧ RegsBut [Reg.QUE_EVQ_TAG] s t) ∧
  (∀ (s : State) (b : Bool) (g : List Bool), HostReady s → s.obs.evq.entries = [] → s.obs.evq.intake = [] →
    Does (.eventPop b 0 2 .whole g) s fun t => t.hif.out = [0, 0] ∧ t.obs.evq.entries = []) ∧
  (∀ (s : State) (o : Byte) (a : BitVec 24), HostReady s → hostOpcodes.contains o.toNat = false → o ≠ 0x00 → o ≠ 0xFF →
    Does (.hifBadcmd o a) s fun t =>
      t.flag Reg.HIF_STATUS Fld.HIF_STATUS_BADCMD = true ∧
      t.fld Reg.HIF_ERR_COUNTS Fld.HIF_ERR_COUNTS_BADCMDS = satAdd 255 (s.fld Reg.HIF_ERR_COUNTS Fld.HIF_ERR_COUNTS_BADCMDS) 1 ∧
      t.reg Reg.HIF_LAST_ERR = packF [(Fld.HIF_LAST_ERR_OPCODE, o.toNat), (Fld.HIF_LAST_ERR_ADDRESS, a.toNat)] ∧ Posted 0xF004 .top 0 t ∧
      RegsBut [Reg.HIF_STATUS, Reg.HIF_ERR_COUNTS, Reg.HIF_LAST_ERR] s t ∧ Keeps [.regs, .pins, .obs] s t) ∧
  (∀ (s : State) (o : Byte) (a : BitVec 24), HostReady s → (o = 0x00 ∨ o = 0xFF) →
    Does (.hifBadcmd o a) s fun t => t.pins = { s.pins with hcsLow := false } ∧ Keeps [.pins] s t) ∧
  (∀ (s : State) (o : Byte) (a : BitVec 24) (n : Nat) (l : List Word) (t0 : Nat), Clocked s → s.hif.waiting = some (n, l, t0) →
    s.emu.heldWrite = none →
    Does (.hifStall o a) s fun t =>
      t.hif = { s.hif with waiting := none } ∧ t.flag Reg.HIF_STATUS Fld.HIF_STATUS_STALL = true ∧
      t.fld Reg.HIF_ERR_COUNTS Fld.HIF_ERR_COUNTS_STALLS = satAdd 255 (s.fld Reg.HIF_ERR_COUNTS Fld.HIF_ERR_COUNTS_STALLS) 1 ∧
      t.que = s.que ∧ Posted 0xF002 .heart 0 t ∧ RegsBut [Reg.HIF_STATUS, Reg.HIF_ERR_COUNTS, Reg.HIF_LAST_ERR] s t ∧
      Passes (t0 + 10 * msec) [.regs, .hif, .pins] s t) ∧
  (∀ (s : State) (e : Nat), Clocked s → s.obs.irq.pulseEnd = some e →
    Does .hirqReedgeEnd s fun t => t.obs.irq.pulseEnd = none ∧ Passes e [] s t)

/-- R44 (whole), with parts of R12, R37-R43, R45, R46 and R623: phases, locks and profiles. The host asks RUN for RECOVERY and TEST for RUN
by way of RECOVERY, with the limit it writes unless that is 0 or GEN is locked; asked in another phase, the limit alone is written. RECOVERY
ends in RUN where its limit is not over and, after lock loss and a wake, the synthesiser has locked; before that lock a completion does
nothing; at the limit the device goes to SAFE with CAUSE 8. A block's lock bit is set; TRC has none. SEL below COUNT is shown and at the
safe point in force while EXPERT_EN is 0; at or beyond COUNT nothing is written and the event is posted. SEL comes into force at the safe
point, not before it nor while EXPERT_EN is 1, and when EXPERT_EN goes back to 0. -/
def Obligations.PhasesLocksAndProfiles : Prop :=
  (∀ (s : State) (r : BitVec 8) (n : Nat), Clocked s → s.gen.phase = .run →
    n = (if s.lockedBlock 0 = true ∨ r = 0 then s.fld Reg.GEN_PHASE_CTRL Fld.GEN_PHASE_CTRL_RLIMIT else r.toNat) →
    Does (.phaseReqRecovery r) s fun t =>
      t.gen.phase = .recovery ∧ t.gen.cause = 4 ∧ t.gen.rlimitEnd = some (s.time + n * msec) ∧
      t.fld Reg.GEN_PHASE_CTRL Fld.GEN_PHASE_CTRL_RLIMIT = n ∧ t.flag Reg.GEN_IRQ_STATUS Fld.GEN_IRQ_STATUS_PHASE = true ∧
      (∀ p : Port, (t.pp p).entry = 0) ∧ t.pwr.pending = none) ∧
  (∀ (s : State) (r : BitVec 8) (n : Nat), Clocked s → s.gen.phase ≠ .run →
    n = (if s.lockedBlock 0 = true ∨ r = 0 then s.fld Reg.GEN_PHASE_CTRL Fld.GEN_PHASE_CTRL_RLIMIT else r.toNat) →
    Does (.phaseReqRecovery r) s fun t =>
      t.gen = s.gen ∧ t.fld Reg.GEN_PHASE_CTRL Fld.GEN_PHASE_CTRL_RLIMIT = n ∧ RegsBut [Reg.GEN_PHASE_CTRL] s t ∧ Keeps [.regs, .obs] s t) ∧
  (∀ (s : State) (r : BitVec 8) (n : Nat), Clocked s → s.gen.phase = .test →
    n = (if s.lockedBlock 0 = true ∨ r = 0 then s.fld Reg.GEN_PHASE_CTRL Fld.GEN_PHASE_CTRL_RLIMIT else r.toNat) →
    Does (.phaseReqRun r) s fun t =>
      t.gen.phase = .recovery ∧ t.gen.cause = 9 ∧ t.gen.rlimitEnd = some (s.time + n * msec) ∧ t.reg Reg.GEN_TEST_CTRL = 0 ∧
      t.reg Reg.GEN_TEST_LANE = 0) ∧
  (∀ (s : State), Running s → s.gen.phase = .recovery → (s.gen.rlimitEnd.all fun x => decide (s.time ≤ x)) = true →
    s.gen.cause = 2 →
    Does .recoveryComplete s fun t =>
      t.gen.phase = .run ∧ t.gen.rlimitEnd = none ∧ t.gen.fieldsOff = false ∧ t.saf.hasRun = true ∧ t.time = s.time ∧
      t.flag Reg.STO_STATUS Fld.STO_STATUS_FAIL = false ∧ (∀ p : Port, (t.pp p).entry = 0)) ∧
  (∀ (s : State), Running s → s.gen.phase = .recovery → s.gen.cause = 1 → s.locked = false →
    Does .recoveryComplete s fun t => t = s) ∧
  (∀ (s : State) (e : Nat), Running s → s.gen.phase = .recovery → s.gen.rlimitEnd = some e →
    Does .rlimitExpiry s fun t =>
      t.gen.phase = .safe ∧ t.gen.cause = 8 ∧ t.gen.rlimitEnd = none ∧ t.saf.safe = true ∧
      t.flag Reg.SAF_STATUS Fld.SAF_STATUS_SAFE = true ∧ t.flag Reg.SAF_STATUS Fld.SAF_STATUS_FAULT_OUT = true ∧ t.time = max s.time e ∧
      (∀ l : Lane, (t.lane l).goEnd = none ∧ (t.lane l).alertEnd = none)) ∧
  (∀ (s : State) (b : BlockId), Clocked s → b ≠ .TRC → s.blockRuns (blockNum b) = true →
    Does (.lockSet b) s fun t =>
      t.flag (blockNum b * 0x10000 + 4) Fld.LOCK = true ∧ RegsBut [blockNum b * 0x10000 + 4] s t ∧ Keeps [.regs, .obs] s t) ∧
  (∀ (s : State) (a : ProfAt) (n : Byte), Clocked s → placeReal a = true → s.blockRuns (blockNum a.block) = true →
    n.toNat < s.fld (profileAddr (blockNum a.block) (placePage a)) Fld.PROFILE_COUNT →
    s.flag (expertAddr (blockNum a.block) (placePage a)) Fld.EXPERT_EN = false → s.safePoint (blockNum a.block) (placePage a) = true →
    Does (.profileSelect a n) s fun t =>
      t.fld (profileAddr (blockNum a.block) (placePage a)) Fld.PROFILE_SEL = n.toNat ∧
      t.fld (profileAddr (blockNum a.block) (placePage a)) Fld.PROFILE_ACTIVE = n.toNat) ∧
  (∀ (s : State) (a : ProfAt) (n : Byte), Clocked s → placeReal a = true → s.blockRuns (blockNum a.block) = true →
    s.fld (profileAddr (blockNum a.block) (placePage a)) Fld.PROFILE_COUNT ≤ n.toNat →
    Does (.profileSelect a n) s fun t => Posted 0x0002 .top 0 t ∧ Keeps [.obs] s t) ∧
  (∀ (s : State) (a : ProfAt), Clocked s → placeReal a = true → s.blockRuns (blockNum a.block) = true →
    0 < s.fld (profileAddr (blockNum a.block) (placePage a)) Fld.PROFILE_COUNT →
    s.flag (expertAddr (blockNum a.block) (placePage a)) Fld.EXPERT_EN = false → s.safePoint (blockNum a.block) (placePage a) = true →
    Does (.profileApply a) s fun t =>
      t.fld (profileAddr (blockNum a.block) (placePage a)) Fld.PROFILE_ACTIVE =
        s.fld (profileAddr (blockNum a.block) (placePage a)) Fld.PROFILE_SEL) ∧
  (∀ (s : State) (a : ProfAt), Clocked s → placeReal a = true → s.blockRuns (blockNum a.block) = true →
    (s.flag (expertAddr (blockNum a.block) (placePage a)) Fld.EXPERT_EN = true ∨ s.safePoint (blockNum a.block) (placePage a) = false) →
    Does (.profileApply a) s fun t => t = s) ∧
  (∀ (s : State) (a : ProfAt), Clocked s → placeReal a = true → s.blockRuns (blockNum a.block) = true →
    s.lockedBlock (blockNum a.block) = false →
    Does (.expertWrite a 1) s fun t =>
      t.flag (expertAddr (blockNum a.block) (placePage a)) Fld.EXPERT_EN = true ∧
      RegsBut [expertAddr (blockNum a.block) (placePage a)] s t ∧ Keeps [.regs] s t) ∧
  (∀ (s : State) (a : ProfAt), Clocked s → placeReal a = true → s.blockRuns (blockNum a.block) = true →
    s.lockedBlock (blockNum a.block) = false → s.flag (expertAddr (blockNum a.block) (placePage a)) Fld.EXPERT_EN = true →
    0 < s.fld (profileAddr (blockNum a.block) (placePage a)) Fld.PROFILE_COUNT → s.safePoint (blockNum a.block) (placePage a) = true →
    Does (.expertWrite a 0) s fun t =>
      t.flag (expertAddr (blockNum a.block) (placePage a)) Fld.EXPERT_EN = false ∧
      t.fld (profileAddr (blockNum a.block) (placePage a)) Fld.PROFILE_ACTIVE =
        s.fld (profileAddr (blockNum a.block) (placePage a)) Fld.PROFILE_SEL) ∧
  (∀ (s : State) (r : BitVec 8) (n : Nat), Clocked s → s.gen.phase ≠ .test →
    n = (if s.lockedBlock 0 = true ∨ r = 0 then s.fld Reg.GEN_PHASE_CTRL Fld.GEN_PHASE_CTRL_RLIMIT else r.toNat) →
    Does (.phaseReqRun r) s fun t =>
      t.gen = s.gen ∧ t.fld Reg.GEN_PHASE_CTRL Fld.GEN_PHASE_CTRL_RLIMIT = n ∧ RegsBut [Reg.GEN_PHASE_CTRL] s t ∧
      Keeps [.regs, .obs] s t) ∧
  (∀ (s : State), Running s → s.gen.phase = .recovery → (s.gen.rlimitEnd.all fun x => decide (s.time ≤ x)) = true →
    (s.locked = true ∨ (s.gen.cause ≠ 1 ∧ s.gen.cause ≠ 3)) →
    Does .recoveryComplete s fun t =>
      t.gen.phase = .run ∧ t.gen.rlimitEnd = none ∧ t.gen.fieldsOff = false ∧ t.saf.hasRun = true ∧
      t.flag Reg.STO_STATUS Fld.STO_STATUS_FAIL = false ∧ (∀ p : Port, (t.pp p).entry = 0)) ∧
  (∀ (s : State), Clocked s → s.gen.safeBoot = false → Does (.lockSet .TRC) s fun t => Keeps [.obs] s t)

end
end

