-- ==== Sys2Proof/Laws/Sparse.lean ====
section
/-! SUPPORT. Sparse tables: reading after writing, and that every operation keeps the canonical form. -/

namespace Sys2Proof.Machine

variable {α : Type}

theorem Sparse.get_cons (k v : Nat) (x : α) (t : List (Nat × α)) (d : α) :
    Sparse.get ((k, x) :: t) d v = if k = v then x else Sparse.get t d v := rfl

theorem Sparse.get_insert_same (m : List (Nat × α)) (d : α) (k : Nat) (v : α) : Sparse.get (Sparse.insert m k v) d k = v := by
  induction m with
  | nil => simp [Sparse.insert, Sparse.get]
  | cons h t ih =>
    obtain ⟨k', v'⟩ := h
    simp only [Sparse.insert]
    split
    · simp [Sparse.get]
    · split
      · simp [Sparse.get]
      · rename_i h1 h2
        simp [Sparse.get, Ne.symm h2, ih]

theorem Sparse.get_insert_ne (m : List (Nat × α)) (d : α) (k j : Nat) (v : α) (h : j ≠ k) :
    Sparse.get (Sparse.insert m k v) d j = Sparse.get m d j := by
  induction m with
  | nil => simp [Sparse.insert, Sparse.get, Ne.symm h]
  | cons x t ih =>
    obtain ⟨k', v'⟩ := x
    simp only [Sparse.insert]
    split
    · simp [Sparse.get, Ne.symm h]
    · split
      · rename_i h1 h2
        subst h2
        simp [Sparse.get, Ne.symm h]
      · simp [Sparse.get, ih]

theorem Sparse.get_erase_same (m : List (Nat × α)) (d : α) (k : Nat) : Sparse.get (Sparse.erase m k) d k = d := by
  induction m with
  | nil => rfl
  | cons x t ih =>
    obtain ⟨k', v'⟩ := x
    simp only [Sparse.erase]
    split
    · exact ih
    · rename_i h1
      simp [Sparse.get, h1, ih]

theorem Sparse.get_erase_ne (m : List (Nat × α)) (d : α) (k j : Nat) (h : j ≠ k) :
    Sparse.get (Sparse.erase m k) d j = Sparse.get m d j := by
  induction m with
  | nil => rfl
  | cons x t ih =>
    obtain ⟨k', v'⟩ := x
    simp only [Sparse.erase]
    split
    · rename_i h1
      subst h1
      simp [Sparse.get, Ne.symm h, ih]
    · simp [Sparse.get, ih]

/-- A written key reads as written. -/
theorem Sparse.get_put_same [DecidableEq α] (m : List (Nat × α)) (d : α) (k : Nat) (v : α) : Sparse.get (Sparse.put m d k v) d k = v := by
  unfold Sparse.put
  split
  · rename_i h
    rw [Sparse.get_erase_same, h]
  · exact Sparse.get_insert_same m d k v

/-- A write leaves every other key alone, whatever an unlisted key reads as. -/
theorem Sparse.get_put_ne [DecidableEq α] (m : List (Nat × α)) (d e : α) (k j : Nat) (v : α) (h : j ≠ k) :
    Sparse.get (Sparse.put m d k v) e j = Sparse.get m e j := by
  unfold Sparse.put
  split
  · exact Sparse.get_erase_ne m e k j h
  · exact Sparse.get_insert_ne m e k j v h

/-- A run of written values leaves the keys outside it alone. -/
theorem Sparse.get_write_ne [DecidableEq α] (m : List (Nat × α)) (d : α) (k j : Nat) (l : List α) (h : j < k ∨ k + l.length ≤ j) :
    Sparse.get (Sparse.write m d k l) d j = Sparse.get m d j := by
  induction l generalizing m k with
  | nil => rfl
  | cons v t ih =>
    simp only [List.length_cons] at h
    rw [Sparse.write, ih _ _ (by omega), Sparse.get_put_ne _ _ _ _ _ _ (by omega)]

/-! ### The canonical form -/

/-- The first key of a table is above `k`, where there is one. -/
def Sparse.above (k : Nat) : List (Nat × α) → Prop
  | [] => True
  | x :: _ => k < x.1

variable [DecidableEq α]

theorem Sparse.wf_cons (d : Nat → α) (k : Nat) (v : α) (t : List (Nat × α)) :
    Sparse.wf d ((k, v) :: t) = true ↔ v ≠ d k ∧ Sparse.above k t ∧ Sparse.wf d t = true := by
  cases t with
  | nil => simp [Sparse.wf, Sparse.above]
  | cons x t =>
    obtain ⟨k', v'⟩ := x
    simp [Sparse.wf, Sparse.above, and_assoc]

theorem Sparse.above_mono (k j : Nat) (m : List (Nat × α)) (h : k ≤ j) (hm : Sparse.above j m) : Sparse.above k m := by
  cases m with
  | nil => trivial
  | cons x t => exact Nat.lt_of_le_of_lt h hm

theorem Sparse.above_erase (d : Nat → α) (j k : Nat) (m : List (Nat × α)) (hw : Sparse.wf d m = true) (h : Sparse.above j m) :
    Sparse.above j (Sparse.erase m k) := by
  induction m generalizing j with
  | nil => trivial
  | cons x t ih =>
    obtain ⟨k', v'⟩ := x
    have w := (Sparse.wf_cons d k' v' t).mp hw
    simp only [Sparse.erase]
    split
    · exact ih j w.2.2 (Sparse.above_mono _ _ _ (Nat.le_of_lt h) w.2.1)
    · exact h

/-- Taking out a key keeps the canonical form. -/
theorem Sparse.wf_erase (d : Nat → α) (m : List (Nat × α)) (k : Nat) (h : Sparse.wf d m = true) : Sparse.wf d (Sparse.erase m k) = true := by
  induction m with
  | nil => rfl
  | cons x t ih =>
    obtain ⟨k', v'⟩ := x
    have w := (Sparse.wf_cons d k' v' t).mp h
    simp only [Sparse.erase]
    split
    · exact ih w.2.2
    · exact (Sparse.wf_cons _ _ _ _).mpr ⟨w.1, Sparse.above_erase d _ _ _ w.2.2 w.2.1, ih w.2.2⟩

/-- Entering a value other than the default keeps the canonical form. -/
theorem Sparse.wf_insert (d : Nat → α) (m : List (Nat × α)) (k : Nat) (v : α) (hv : v ≠ d k) (h : Sparse.wf d m = true) :
    Sparse.wf d (Sparse.insert m k v) = true ∧ ∀ j, j < k → Sparse.above j m → Sparse.above j (Sparse.insert m k v) := by
  induction m with
  | nil => exact ⟨by simp [Sparse.insert, Sparse.wf, hv], fun j hj _ => hj⟩
  | cons x t ih =>
    obtain ⟨k', v'⟩ := x
    have w := (Sparse.wf_cons d k' v' t).mp h
    simp only [Sparse.insert]
    split
    · rename_i h1
      exact ⟨(Sparse.wf_cons _ _ _ _).mpr ⟨hv, h1, h⟩, fun j hj _ => hj⟩
    · split
      · rename_i h1 h2
        subst h2
        exact ⟨(Sparse.wf_cons _ _ _ _).mpr ⟨hv, w.2.1, w.2.2⟩, fun j hj _ => hj⟩
      · rename_i h1 h2
        have i := ih w.2.2
        exact ⟨(Sparse.wf_cons _ _ _ _).mpr ⟨w.1, i.2 k' (by omega) w.2.1, i.1⟩, fun j _ hj => hj⟩

/-- A write keeps the canonical form. -/
theorem Sparse.wf_put (d : Nat → α) (m : List (Nat × α)) (k : Nat) (v : α) (h : Sparse.wf d m = true) :
    Sparse.wf d (Sparse.put m (d k) k v) = true := by
  unfold Sparse.put
  split
  · exact Sparse.wf_erase d m k h
  · rename_i hv
    exact (Sparse.wf_insert d m k v hv h).1

/-- A run of writes keeps the canonical form of a table whose unlisted keys all read alike. -/
theorem Sparse.wf_write (e : α) (m : List (Nat × α)) (k : Nat) (l : List α) (h : Sparse.wf (fun _ => e) m = true) :
    Sparse.wf (fun _ => e) (Sparse.write m e k l) = true := by
  induction l generalizing m k with
  | nil => exact h
  | cons v t ih => exact ih _ _ (Sparse.wf_put (fun _ => e) m k v h)

/-- What is left of a table after some entries are dropped is canonical. -/
theorem Sparse.wf_filter (d : Nat → α) (p : Nat × α → Bool) (m : List (Nat × α)) (h : Sparse.wf d m = true) :
    Sparse.wf d (m.filter p) = true ∧ ∀ j, Sparse.above j m → Sparse.above j (m.filter p) := by
  induction m with
  | nil => exact ⟨rfl, fun _ h => h⟩
  | cons x t ih =>
    obtain ⟨k', v'⟩ := x
    have w := (Sparse.wf_cons d k' v' t).mp h
    have i := ih w.2.2
    rw [List.filter_cons]
    split
    · exact ⟨(Sparse.wf_cons _ _ _ _).mpr ⟨w.1, i.2 k' w.2.1, i.1⟩, fun j hj => hj⟩
    · exact ⟨i.1, fun j hj => i.2 j (Sparse.above_mono _ _ _ (Nat.le_of_lt hj) w.2.1)⟩

end Sys2Proof.Machine
end

