-- ==== Sys2Proof/Laws/State.lean ====
section
/-! SUPPORT. The state record: for each operation that updates it, what it leaves of every other field, each true by rfl. -/

namespace Sys2Proof.Machine

variable (s : State)

@[simp] theorem setReg_keeps (a : Nat) (w : Word) :
    (s.setReg a w).time = s.time ∧ (s.setReg a w).profiles = s.profiles ∧ (s.setReg a w).sram = s.sram ∧ (s.setReg a w).gen = s.gen ∧
    (s.setReg a w).pwr = s.pwr ∧ (s.setReg a w).tmr = s.tmr ∧ (s.setReg a w).que = s.que ∧ (s.setReg a w).crc = s.crc ∧
    (s.setReg a w).cfg = s.cfg ∧ (s.setReg a w).hif = s.hif ∧ (s.setReg a w).field = s.field ∧ (s.setReg a w).tun = s.tun ∧
    (s.setReg a w).rxe = s.rxe ∧ (s.setReg a w).pro = s.pro ∧ (s.setReg a w).sess = s.sess ∧ (s.setReg a w).overflow = s.overflow ∧
    (s.setReg a w).acd = s.acd ∧ (s.setReg a w).quar = s.quar ∧ (s.setReg a w).kpr = s.kpr ∧ (s.setReg a w).sto = s.sto ∧
    (s.setReg a w).emu = s.emu ∧ (s.setReg a w).cox = s.cox ∧ (s.setReg a w).saf = s.saf ∧ (s.setReg a w).pins = s.pins ∧
    (s.setReg a w).free = s.free ∧ (s.setReg a w).obs = s.obs ∧ (s.setReg a w).pending = s.pending :=
  ⟨rfl, rfl, rfl, rfl, rfl, rfl, rfl, rfl, rfl, rfl, rfl, rfl, rfl, rfl, rfl, rfl, rfl, rfl, rfl, rfl, rfl, rfl, rfl, rfl, rfl, rfl, rfl⟩

@[simp] theorem setFld_keeps (a : Nat) (f : Field) (v : Nat) :
    (s.setFld a f v).time = s.time ∧ (s.setFld a f v).profiles = s.profiles ∧ (s.setFld a f v).sram = s.sram ∧ (s.setFld a f v).gen = s.gen ∧
    (s.setFld a f v).pwr = s.pwr ∧ (s.setFld a f v).tmr = s.tmr ∧ (s.setFld a f v).que = s.que ∧ (s.setFld a f v).crc = s.crc ∧
    (s.setFld a f v).cfg = s.cfg ∧ (s.setFld a f v).hif = s.hif ∧ (s.setFld a f v).field = s.field ∧ (s.setFld a f v).tun = s.tun ∧
    (s.setFld a f v).rxe = s.rxe ∧ (s.setFld a f v).pro = s.pro ∧ (s.setFld a f v).sess = s.sess ∧ (s.setFld a f v).overflow = s.overflow ∧
    (s.setFld a f v).acd = s.acd ∧ (s.setFld a f v).quar = s.quar ∧ (s.setFld a f v).kpr = s.kpr ∧ (s.setFld a f v).sto = s.sto ∧
    (s.setFld a f v).emu = s.emu ∧ (s.setFld a f v).cox = s.cox ∧ (s.setFld a f v).saf = s.saf ∧ (s.setFld a f v).pins = s.pins ∧
    (s.setFld a f v).free = s.free ∧ (s.setFld a f v).obs = s.obs ∧ (s.setFld a f v).pending = s.pending :=
  ⟨rfl, rfl, rfl, rfl, rfl, rfl, rfl, rfl, rfl, rfl, rfl, rfl, rfl, rfl, rfl, rfl, rfl, rfl, rfl, rfl, rfl, rfl, rfl, rfl, rfl, rfl, rfl⟩

@[simp] theorem stick_keeps (a : Nat) (f : Field) :
    (s.stick a f).time = s.time ∧ (s.stick a f).profiles = s.profiles ∧ (s.stick a f).sram = s.sram ∧ (s.stick a f).gen = s.gen ∧
    (s.stick a f).pwr = s.pwr ∧ (s.stick a f).tmr = s.tmr ∧ (s.stick a f).que = s.que ∧ (s.stick a f).crc = s.crc ∧
    (s.stick a f).cfg = s.cfg ∧ (s.stick a f).hif = s.hif ∧ (s.stick a f).field = s.field ∧ (s.stick a f).tun = s.tun ∧
    (s.stick a f).rxe = s.rxe ∧ (s.stick a f).pro = s.pro ∧ (s.stick a f).sess = s.sess ∧ (s.stick a f).overflow = s.overflow ∧
    (s.stick a f).acd = s.acd ∧ (s.stick a f).quar = s.quar ∧ (s.stick a f).kpr = s.kpr ∧ (s.stick a f).sto = s.sto ∧
    (s.stick a f).emu = s.emu ∧ (s.stick a f).cox = s.cox ∧ (s.stick a f).saf = s.saf ∧ (s.stick a f).pins = s.pins ∧
    (s.stick a f).free = s.free ∧ (s.stick a f).pending = s.pending :=
  ⟨rfl, rfl, rfl, rfl, rfl, rfl, rfl, rfl, rfl, rfl, rfl, rfl, rfl, rfl, rfl, rfl, rfl, rfl, rfl, rfl, rfl, rfl, rfl, rfl, rfl, rfl⟩

@[simp] theorem noteSet_keeps (a : Nat) (w : Word) :
    (s.noteSet a w).time = s.time ∧ (s.noteSet a w).regs = s.regs ∧ (s.noteSet a w).profiles = s.profiles ∧ (s.noteSet a w).sram = s.sram ∧
    (s.noteSet a w).gen = s.gen ∧ (s.noteSet a w).pwr = s.pwr ∧ (s.noteSet a w).tmr = s.tmr ∧ (s.noteSet a w).que = s.que ∧
    (s.noteSet a w).crc = s.crc ∧ (s.noteSet a w).cfg = s.cfg ∧ (s.noteSet a w).hif = s.hif ∧ (s.noteSet a w).field = s.field ∧
    (s.noteSet a w).tun = s.tun ∧ (s.noteSet a w).rxe = s.rxe ∧ (s.noteSet a w).pro = s.pro ∧ (s.noteSet a w).sess = s.sess ∧
    (s.noteSet a w).overflow = s.overflow ∧ (s.noteSet a w).acd = s.acd ∧ (s.noteSet a w).quar = s.quar ∧ (s.noteSet a w).kpr = s.kpr ∧
    (s.noteSet a w).sto = s.sto ∧ (s.noteSet a w).emu = s.emu ∧ (s.noteSet a w).cox = s.cox ∧ (s.noteSet a w).saf = s.saf ∧
    (s.noteSet a w).pins = s.pins ∧ (s.noteSet a w).free = s.free ∧ (s.noteSet a w).pending = s.pending :=
  ⟨rfl, rfl, rfl, rfl, rfl, rfl, rfl, rfl, rfl, rfl, rfl, rfl, rfl, rfl, rfl, rfl, rfl, rfl, rfl, rfl, rfl, rfl, rfl, rfl, rfl, rfl, rfl⟩

@[simp] theorem stickBit_keeps (a : Nat) (f : Field) (i : Nat) :
    (s.stickBit a f i).time = s.time ∧ (s.stickBit a f i).profiles = s.profiles ∧ (s.stickBit a f i).sram = s.sram ∧ (s.stickBit a f i).gen = s.gen ∧
    (s.stickBit a f i).pwr = s.pwr ∧ (s.stickBit a f i).tmr = s.tmr ∧ (s.stickBit a f i).que = s.que ∧ (s.stickBit a f i).crc = s.crc ∧
    (s.stickBit a f i).cfg = s.cfg ∧ (s.stickBit a f i).hif = s.hif ∧ (s.stickBit a f i).field = s.field ∧ (s.stickBit a f i).tun = s.tun ∧
    (s.stickBit a f i).rxe = s.rxe ∧ (s.stickBit a f i).pro = s.pro ∧ (s.stickBit a f i).sess = s.sess ∧ (s.stickBit a f i).overflow = s.overflow ∧
    (s.stickBit a f i).acd = s.acd ∧ (s.stickBit a f i).quar = s.quar ∧ (s.stickBit a f i).kpr = s.kpr ∧ (s.stickBit a f i).sto = s.sto ∧
    (s.stickBit a f i).emu = s.emu ∧ (s.stickBit a f i).cox = s.cox ∧ (s.stickBit a f i).saf = s.saf ∧ (s.stickBit a f i).pins = s.pins ∧
    (s.stickBit a f i).free = s.free ∧ (s.stickBit a f i).pending = s.pending :=
  ⟨rfl, rfl, rfl, rfl, rfl, rfl, rfl, rfl, rfl, rfl, rfl, rfl, rfl, rfl, rfl, rfl, rfl, rfl, rfl, rfl, rfl, rfl, rfl, rfl, rfl, rfl⟩

@[simp] theorem bumpBy_keeps (a : Nat) (f : Field) (n : Nat) :
    (s.bumpBy a f n).time = s.time ∧ (s.bumpBy a f n).profiles = s.profiles ∧ (s.bumpBy a f n).sram = s.sram ∧ (s.bumpBy a f n).gen = s.gen ∧
    (s.bumpBy a f n).pwr = s.pwr ∧ (s.bumpBy a f n).tmr = s.tmr ∧ (s.bumpBy a f n).que = s.que ∧ (s.bumpBy a f n).crc = s.crc ∧
    (s.bumpBy a f n).cfg = s.cfg ∧ (s.bumpBy a f n).hif = s.hif ∧ (s.bumpBy a f n).field = s.field ∧ (s.bumpBy a f n).tun = s.tun ∧
    (s.bumpBy a f n).rxe = s.rxe ∧ (s.bumpBy a f n).pro = s.pro ∧ (s.bumpBy a f n).sess = s.sess ∧ (s.bumpBy a f n).overflow = s.overflow ∧
    (s.bumpBy a f n).acd = s.acd ∧ (s.bumpBy a f n).quar = s.quar ∧ (s.bumpBy a f n).kpr = s.kpr ∧ (s.bumpBy a f n).sto = s.sto ∧
    (s.bumpBy a f n).emu = s.emu ∧ (s.bumpBy a f n).cox = s.cox ∧ (s.bumpBy a f n).saf = s.saf ∧ (s.bumpBy a f n).pins = s.pins ∧
    (s.bumpBy a f n).free = s.free ∧ (s.bumpBy a f n).obs = s.obs ∧ (s.bumpBy a f n).pending = s.pending :=
  ⟨rfl, rfl, rfl, rfl, rfl, rfl, rfl, rfl, rfl, rfl, rfl, rfl, rfl, rfl, rfl, rfl, rfl, rfl, rfl, rfl, rfl, rfl, rfl, rfl, rfl, rfl, rfl⟩

@[simp] theorem bump_keeps (a : Nat) (f : Field) :
    (s.bump a f).time = s.time ∧ (s.bump a f).profiles = s.profiles ∧ (s.bump a f).sram = s.sram ∧ (s.bump a f).gen = s.gen ∧
    (s.bump a f).pwr = s.pwr ∧ (s.bump a f).tmr = s.tmr ∧ (s.bump a f).que = s.que ∧ (s.bump a f).crc = s.crc ∧
    (s.bump a f).cfg = s.cfg ∧ (s.bump a f).hif = s.hif ∧ (s.bump a f).field = s.field ∧ (s.bump a f).tun = s.tun ∧
    (s.bump a f).rxe = s.rxe ∧ (s.bump a f).pro = s.pro ∧ (s.bump a f).sess = s.sess ∧ (s.bump a f).overflow = s.overflow ∧
    (s.bump a f).acd = s.acd ∧ (s.bump a f).quar = s.quar ∧ (s.bump a f).kpr = s.kpr ∧ (s.bump a f).sto = s.sto ∧
    (s.bump a f).emu = s.emu ∧ (s.bump a f).cox = s.cox ∧ (s.bump a f).saf = s.saf ∧ (s.bump a f).pins = s.pins ∧
    (s.bump a f).free = s.free ∧ (s.bump a f).obs = s.obs ∧ (s.bump a f).pending = s.pending :=
  ⟨rfl, rfl, rfl, rfl, rfl, rfl, rfl, rfl, rfl, rfl, rfl, rfl, rfl, rfl, rfl, rfl, rfl, rfl, rfl, rfl, rfl, rfl, rfl, rfl, rfl, rfl, rfl⟩

@[simp] theorem setFldBit_keeps (a : Nat) (f : Field) (i : Nat) (b : Bool) :
    (s.setFldBit a f i b).time = s.time ∧ (s.setFldBit a f i b).profiles = s.profiles ∧ (s.setFldBit a f i b).sram = s.sram ∧ (s.setFldBit a f i b).gen = s.gen ∧
    (s.setFldBit a f i b).pwr = s.pwr ∧ (s.setFldBit a f i b).tmr = s.tmr ∧ (s.setFldBit a f i b).que = s.que ∧ (s.setFldBit a f i b).crc = s.crc ∧
    (s.setFldBit a f i b).cfg = s.cfg ∧ (s.setFldBit a f i b).hif = s.hif ∧ (s.setFldBit a f i b).field = s.field ∧ (s.setFldBit a f i b).tun = s.tun ∧
    (s.setFldBit a f i b).rxe = s.rxe ∧ (s.setFldBit a f i b).pro = s.pro ∧ (s.setFldBit a f i b).sess = s.sess ∧ (s.setFldBit a f i b).overflow = s.overflow ∧
    (s.setFldBit a f i b).acd = s.acd ∧ (s.setFldBit a f i b).quar = s.quar ∧ (s.setFldBit a f i b).kpr = s.kpr ∧ (s.setFldBit a f i b).sto = s.sto ∧
    (s.setFldBit a f i b).emu = s.emu ∧ (s.setFldBit a f i b).cox = s.cox ∧ (s.setFldBit a f i b).saf = s.saf ∧ (s.setFldBit a f i b).pins = s.pins ∧
    (s.setFldBit a f i b).free = s.free ∧ (s.setFldBit a f i b).obs = s.obs ∧ (s.setFldBit a f i b).pending = s.pending :=
  ⟨rfl, rfl, rfl, rfl, rfl, rfl, rfl, rfl, rfl, rfl, rfl, rfl, rfl, rfl, rfl, rfl, rfl, rfl, rfl, rfl, rfl, rfl, rfl, rfl, rfl, rfl, rfl⟩

@[simp] theorem sramWrite_keeps (a : Nat) (l : List Byte) :
    (s.sramWrite a l).time = s.time ∧ (s.sramWrite a l).regs = s.regs ∧ (s.sramWrite a l).profiles = s.profiles ∧ (s.sramWrite a l).gen = s.gen ∧
    (s.sramWrite a l).pwr = s.pwr ∧ (s.sramWrite a l).tmr = s.tmr ∧ (s.sramWrite a l).que = s.que ∧ (s.sramWrite a l).crc = s.crc ∧
    (s.sramWrite a l).cfg = s.cfg ∧ (s.sramWrite a l).hif = s.hif ∧ (s.sramWrite a l).field = s.field ∧ (s.sramWrite a l).tun = s.tun ∧
    (s.sramWrite a l).rxe = s.rxe ∧ (s.sramWrite a l).pro = s.pro ∧ (s.sramWrite a l).sess = s.sess ∧ (s.sramWrite a l).overflow = s.overflow ∧
    (s.sramWrite a l).acd = s.acd ∧ (s.sramWrite a l).quar = s.quar ∧ (s.sramWrite a l).kpr = s.kpr ∧ (s.sramWrite a l).sto = s.sto ∧
    (s.sramWrite a l).emu = s.emu ∧ (s.sramWrite a l).cox = s.cox ∧ (s.sramWrite a l).saf = s.saf ∧ (s.sramWrite a l).pins = s.pins ∧
    (s.sramWrite a l).free = s.free ∧ (s.sramWrite a l).obs = s.obs ∧ (s.sramWrite a l).pending = s.pending :=
  ⟨rfl, rfl, rfl, rfl, rfl, rfl, rfl, rfl, rfl, rfl, rfl, rfl, rfl, rfl, rfl, rfl, rfl, rfl, rfl, rfl, rfl, rfl, rfl, rfl, rfl, rfl, rfl⟩

@[simp] theorem countBy_keeps (i n : Nat) :
    (s.countBy i n).time = s.time ∧ (s.countBy i n).regs = s.regs ∧ (s.countBy i n).profiles = s.profiles ∧ (s.countBy i n).sram = s.sram ∧
    (s.countBy i n).gen = s.gen ∧ (s.countBy i n).pwr = s.pwr ∧ (s.countBy i n).tmr = s.tmr ∧ (s.countBy i n).que = s.que ∧
    (s.countBy i n).crc = s.crc ∧ (s.countBy i n).cfg = s.cfg ∧ (s.countBy i n).hif = s.hif ∧ (s.countBy i n).field = s.field ∧
    (s.countBy i n).tun = s.tun ∧ (s.countBy i n).rxe = s.rxe ∧ (s.countBy i n).pro = s.pro ∧ (s.countBy i n).sess = s.sess ∧
    (s.countBy i n).overflow = s.overflow ∧ (s.countBy i n).acd = s.acd ∧ (s.countBy i n).quar = s.quar ∧ (s.countBy i n).kpr = s.kpr ∧
    (s.countBy i n).sto = s.sto ∧ (s.countBy i n).emu = s.emu ∧ (s.countBy i n).cox = s.cox ∧ (s.countBy i n).saf = s.saf ∧
    (s.countBy i n).pins = s.pins ∧ (s.countBy i n).free = s.free ∧ (s.countBy i n).pending = s.pending :=
  ⟨rfl, rfl, rfl, rfl, rfl, rfl, rfl, rfl, rfl, rfl, rfl, rfl, rfl, rfl, rfl, rfl, rfl, rfl, rfl, rfl, rfl, rfl, rfl, rfl, rfl, rfl, rfl⟩

@[simp] theorem count_keeps (i : Nat) :
    (s.count i).time = s.time ∧ (s.count i).regs = s.regs ∧ (s.count i).profiles = s.profiles ∧ (s.count i).sram = s.sram ∧
    (s.count i).gen = s.gen ∧ (s.count i).pwr = s.pwr ∧ (s.count i).tmr = s.tmr ∧ (s.count i).que = s.que ∧
    (s.count i).crc = s.crc ∧ (s.count i).cfg = s.cfg ∧ (s.count i).hif = s.hif ∧ (s.count i).field = s.field ∧
    (s.count i).tun = s.tun ∧ (s.count i).rxe = s.rxe ∧ (s.count i).pro = s.pro ∧ (s.count i).sess = s.sess ∧
    (s.count i).overflow = s.overflow ∧ (s.count i).acd = s.acd ∧ (s.count i).quar = s.quar ∧ (s.count i).kpr = s.kpr ∧
    (s.count i).sto = s.sto ∧ (s.count i).emu = s.emu ∧ (s.count i).cox = s.cox ∧ (s.count i).saf = s.saf ∧
    (s.count i).pins = s.pins ∧ (s.count i).free = s.free ∧ (s.count i).pending = s.pending :=
  ⟨rfl, rfl, rfl, rfl, rfl, rfl, rfl, rfl, rfl, rfl, rfl, rfl, rfl, rfl, rfl, rfl, rfl, rfl, rfl, rfl, rfl, rfl, rfl, rfl, rfl, rfl, rfl⟩

@[simp] theorem refuse_keeps (b : Nat) :
    (s.refuse b).time = s.time ∧ (s.refuse b).regs = s.regs ∧ (s.refuse b).profiles = s.profiles ∧ (s.refuse b).sram = s.sram ∧
    (s.refuse b).gen = s.gen ∧ (s.refuse b).pwr = s.pwr ∧ (s.refuse b).tmr = s.tmr ∧ (s.refuse b).que = s.que ∧
    (s.refuse b).crc = s.crc ∧ (s.refuse b).cfg = s.cfg ∧ (s.refuse b).hif = s.hif ∧ (s.refuse b).field = s.field ∧
    (s.refuse b).tun = s.tun ∧ (s.refuse b).rxe = s.rxe ∧ (s.refuse b).pro = s.pro ∧ (s.refuse b).sess = s.sess ∧
    (s.refuse b).overflow = s.overflow ∧ (s.refuse b).acd = s.acd ∧ (s.refuse b).quar = s.quar ∧ (s.refuse b).kpr = s.kpr ∧
    (s.refuse b).sto = s.sto ∧ (s.refuse b).emu = s.emu ∧ (s.refuse b).cox = s.cox ∧ (s.refuse b).saf = s.saf ∧
    (s.refuse b).pins = s.pins ∧ (s.refuse b).free = s.free ∧ (s.refuse b).pending = s.pending :=
  ⟨rfl, rfl, rfl, rfl, rfl, rfl, rfl, rfl, rfl, rfl, rfl, rfl, rfl, rfl, rfl, rfl, rfl, rfl, rfl, rfl, rfl, rfl, rfl, rfl, rfl, rfl, rfl⟩

@[simp] theorem postEvent_keeps (e : Event) :
    (s.postEvent e).time = s.time ∧ (s.postEvent e).regs = s.regs ∧ (s.postEvent e).profiles = s.profiles ∧ (s.postEvent e).sram = s.sram ∧
    (s.postEvent e).gen = s.gen ∧ (s.postEvent e).pwr = s.pwr ∧ (s.postEvent e).tmr = s.tmr ∧ (s.postEvent e).que = s.que ∧
    (s.postEvent e).crc = s.crc ∧ (s.postEvent e).cfg = s.cfg ∧ (s.postEvent e).hif = s.hif ∧ (s.postEvent e).field = s.field ∧
    (s.postEvent e).tun = s.tun ∧ (s.postEvent e).rxe = s.rxe ∧ (s.postEvent e).pro = s.pro ∧ (s.postEvent e).sess = s.sess ∧
    (s.postEvent e).overflow = s.overflow ∧ (s.postEvent e).acd = s.acd ∧ (s.postEvent e).quar = s.quar ∧ (s.postEvent e).kpr = s.kpr ∧
    (s.postEvent e).sto = s.sto ∧ (s.postEvent e).emu = s.emu ∧ (s.postEvent e).cox = s.cox ∧ (s.postEvent e).saf = s.saf ∧
    (s.postEvent e).pins = s.pins ∧ (s.postEvent e).free = s.free ∧ (s.postEvent e).pending = s.pending :=
  ⟨rfl, rfl, rfl, rfl, rfl, rfl, rfl, rfl, rfl, rfl, rfl, rfl, rfl, rfl, rfl, rfl, rfl, rfl, rfl, rfl, rfl, rfl, rfl, rfl, rfl, rfl, rfl⟩

@[simp] theorem post_keeps (c : Nat) (k : Note) (a : Nat) :
    (s.post c k a).time = s.time ∧ (s.post c k a).regs = s.regs ∧ (s.post c k a).profiles = s.profiles ∧ (s.post c k a).sram = s.sram ∧
    (s.post c k a).gen = s.gen ∧ (s.post c k a).pwr = s.pwr ∧ (s.post c k a).tmr = s.tmr ∧ (s.post c k a).que = s.que ∧
    (s.post c k a).crc = s.crc ∧ (s.post c k a).cfg = s.cfg ∧ (s.post c k a).hif = s.hif ∧ (s.post c k a).field = s.field ∧
    (s.post c k a).tun = s.tun ∧ (s.post c k a).rxe = s.rxe ∧ (s.post c k a).pro = s.pro ∧ (s.post c k a).sess = s.sess ∧
    (s.post c k a).overflow = s.overflow ∧ (s.post c k a).acd = s.acd ∧ (s.post c k a).quar = s.quar ∧ (s.post c k a).kpr = s.kpr ∧
    (s.post c k a).sto = s.sto ∧ (s.post c k a).emu = s.emu ∧ (s.post c k a).cox = s.cox ∧ (s.post c k a).saf = s.saf ∧
    (s.post c k a).pins = s.pins ∧ (s.post c k a).free = s.free ∧ (s.post c k a).pending = s.pending :=
  ⟨rfl, rfl, rfl, rfl, rfl, rfl, rfl, rfl, rfl, rfl, rfl, rfl, rfl, rfl, rfl, rfl, rfl, rfl, rfl, rfl, rfl, rfl, rfl, rfl, rfl, rfl, rfl⟩

@[simp] theorem postCount_keeps (w : Window) (n : Nat) :
    (s.postCount w n).time = s.time ∧ (s.postCount w n).regs = s.regs ∧ (s.postCount w n).profiles = s.profiles ∧ (s.postCount w n).sram = s.sram ∧
    (s.postCount w n).gen = s.gen ∧ (s.postCount w n).pwr = s.pwr ∧ (s.postCount w n).tmr = s.tmr ∧ (s.postCount w n).que = s.que ∧
    (s.postCount w n).crc = s.crc ∧ (s.postCount w n).cfg = s.cfg ∧ (s.postCount w n).hif = s.hif ∧ (s.postCount w n).field = s.field ∧
    (s.postCount w n).tun = s.tun ∧ (s.postCount w n).rxe = s.rxe ∧ (s.postCount w n).pro = s.pro ∧ (s.postCount w n).sess = s.sess ∧
    (s.postCount w n).overflow = s.overflow ∧ (s.postCount w n).acd = s.acd ∧ (s.postCount w n).quar = s.quar ∧ (s.postCount w n).kpr = s.kpr ∧
    (s.postCount w n).sto = s.sto ∧ (s.postCount w n).emu = s.emu ∧ (s.postCount w n).cox = s.cox ∧ (s.postCount w n).saf = s.saf ∧
    (s.postCount w n).pins = s.pins ∧ (s.postCount w n).free = s.free ∧ (s.postCount w n).pending = s.pending :=
  ⟨rfl, rfl, rfl, rfl, rfl, rfl, rfl, rfl, rfl, rfl, rfl, rfl, rfl, rfl, rfl, rfl, rfl, rfl, rfl, rfl, rfl, rfl, rfl, rfl, rfl, rfl, rfl⟩

@[simp] theorem setWins_keeps (l : List Window) :
    (s.setWins l).time = s.time ∧ (s.setWins l).regs = s.regs ∧ (s.setWins l).profiles = s.profiles ∧ (s.setWins l).sram = s.sram ∧
    (s.setWins l).gen = s.gen ∧ (s.setWins l).pwr = s.pwr ∧ (s.setWins l).tmr = s.tmr ∧ (s.setWins l).que = s.que ∧
    (s.setWins l).crc = s.crc ∧ (s.setWins l).cfg = s.cfg ∧ (s.setWins l).hif = s.hif ∧ (s.setWins l).field = s.field ∧
    (s.setWins l).tun = s.tun ∧ (s.setWins l).rxe = s.rxe ∧ (s.setWins l).pro = s.pro ∧ (s.setWins l).sess = s.sess ∧
    (s.setWins l).overflow = s.overflow ∧ (s.setWins l).acd = s.acd ∧ (s.setWins l).quar = s.quar ∧ (s.setWins l).kpr = s.kpr ∧
    (s.setWins l).sto = s.sto ∧ (s.setWins l).emu = s.emu ∧ (s.setWins l).cox = s.cox ∧ (s.setWins l).saf = s.saf ∧
    (s.setWins l).pins = s.pins ∧ (s.setWins l).free = s.free ∧ (s.setWins l).pending = s.pending :=
  ⟨rfl, rfl, rfl, rfl, rfl, rfl, rfl, rfl, rfl, rfl, rfl, rfl, rfl, rfl, rfl, rfl, rfl, rfl, rfl, rfl, rfl, rfl, rfl, rfl, rfl, rfl, rfl⟩

@[simp] theorem setSil_keeps (x : SilSt) :
    (s.setSil x).time = s.time ∧ (s.setSil x).regs = s.regs ∧ (s.setSil x).profiles = s.profiles ∧ (s.setSil x).sram = s.sram ∧
    (s.setSil x).gen = s.gen ∧ (s.setSil x).pwr = s.pwr ∧ (s.setSil x).tmr = s.tmr ∧ (s.setSil x).que = s.que ∧
    (s.setSil x).crc = s.crc ∧ (s.setSil x).cfg = s.cfg ∧ (s.setSil x).hif = s.hif ∧ (s.setSil x).field = s.field ∧
    (s.setSil x).tun = s.tun ∧ (s.setSil x).rxe = s.rxe ∧ (s.setSil x).pro = s.pro ∧ (s.setSil x).sess = s.sess ∧
    (s.setSil x).overflow = s.overflow ∧ (s.setSil x).acd = s.acd ∧ (s.setSil x).quar = s.quar ∧ (s.setSil x).kpr = s.kpr ∧
    (s.setSil x).sto = s.sto ∧ (s.setSil x).emu = s.emu ∧ (s.setSil x).cox = s.cox ∧ (s.setSil x).saf = s.saf ∧
    (s.setSil x).pins = s.pins ∧ (s.setSil x).free = s.free ∧ (s.setSil x).pending = s.pending :=
  ⟨rfl, rfl, rfl, rfl, rfl, rfl, rfl, rfl, rfl, rfl, rfl, rfl, rfl, rfl, rfl, rfl, rfl, rfl, rfl, rfl, rfl, rfl, rfl, rfl, rfl, rfl, rfl⟩

@[simp] theorem setEvq_keeps (x : EvqSt) :
    (s.setEvq x).time = s.time ∧ (s.setEvq x).regs = s.regs ∧ (s.setEvq x).profiles = s.profiles ∧ (s.setEvq x).sram = s.sram ∧
    (s.setEvq x).gen = s.gen ∧ (s.setEvq x).pwr = s.pwr ∧ (s.setEvq x).tmr = s.tmr ∧ (s.setEvq x).que = s.que ∧
    (s.setEvq x).crc = s.crc ∧ (s.setEvq x).cfg = s.cfg ∧ (s.setEvq x).hif = s.hif ∧ (s.setEvq x).field = s.field ∧
    (s.setEvq x).tun = s.tun ∧ (s.setEvq x).rxe = s.rxe ∧ (s.setEvq x).pro = s.pro ∧ (s.setEvq x).sess = s.sess ∧
    (s.setEvq x).overflow = s.overflow ∧ (s.setEvq x).acd = s.acd ∧ (s.setEvq x).quar = s.quar ∧ (s.setEvq x).kpr = s.kpr ∧
    (s.setEvq x).sto = s.sto ∧ (s.setEvq x).emu = s.emu ∧ (s.setEvq x).cox = s.cox ∧ (s.setEvq x).saf = s.saf ∧
    (s.setEvq x).pins = s.pins ∧ (s.setEvq x).free = s.free ∧ (s.setEvq x).pending = s.pending :=
  ⟨rfl, rfl, rfl, rfl, rfl, rfl, rfl, rfl, rfl, rfl, rfl, rfl, rfl, rfl, rfl, rfl, rfl, rfl, rfl, rfl, rfl, rfl, rfl, rfl, rfl, rfl, rfl⟩

@[simp] theorem setTrc_keeps (x : TrcSt) :
    (s.setTrc x).time = s.time ∧ (s.setTrc x).regs = s.regs ∧ (s.setTrc x).profiles = s.profiles ∧ (s.setTrc x).sram = s.sram ∧
    (s.setTrc x).gen = s.gen ∧ (s.setTrc x).pwr = s.pwr ∧ (s.setTrc x).tmr = s.tmr ∧ (s.setTrc x).que = s.que ∧
    (s.setTrc x).crc = s.crc ∧ (s.setTrc x).cfg = s.cfg ∧ (s.setTrc x).hif = s.hif ∧ (s.setTrc x).field = s.field ∧
    (s.setTrc x).tun = s.tun ∧ (s.setTrc x).rxe = s.rxe ∧ (s.setTrc x).pro = s.pro ∧ (s.setTrc x).sess = s.sess ∧
    (s.setTrc x).overflow = s.overflow ∧ (s.setTrc x).acd = s.acd ∧ (s.setTrc x).quar = s.quar ∧ (s.setTrc x).kpr = s.kpr ∧
    (s.setTrc x).sto = s.sto ∧ (s.setTrc x).emu = s.emu ∧ (s.setTrc x).cox = s.cox ∧ (s.setTrc x).saf = s.saf ∧
    (s.setTrc x).pins = s.pins ∧ (s.setTrc x).free = s.free ∧ (s.setTrc x).pending = s.pending :=
  ⟨rfl, rfl, rfl, rfl, rfl, rfl, rfl, rfl, rfl, rfl, rfl, rfl, rfl, rfl, rfl, rfl, rfl, rfl, rfl, rfl, rfl, rfl, rfl, rfl, rfl, rfl, rfl⟩

@[simp] theorem modWm_keeps (n : Nat) (f : PortWm → PortWm) :
    (s.modWm n f).time = s.time ∧ (s.modWm n f).regs = s.regs ∧ (s.modWm n f).profiles = s.profiles ∧ (s.modWm n f).sram = s.sram ∧
    (s.modWm n f).gen = s.gen ∧ (s.modWm n f).pwr = s.pwr ∧ (s.modWm n f).tmr = s.tmr ∧ (s.modWm n f).que = s.que ∧
    (s.modWm n f).crc = s.crc ∧ (s.modWm n f).cfg = s.cfg ∧ (s.modWm n f).hif = s.hif ∧ (s.modWm n f).field = s.field ∧
    (s.modWm n f).tun = s.tun ∧ (s.modWm n f).rxe = s.rxe ∧ (s.modWm n f).pro = s.pro ∧ (s.modWm n f).sess = s.sess ∧
    (s.modWm n f).overflow = s.overflow ∧ (s.modWm n f).acd = s.acd ∧ (s.modWm n f).quar = s.quar ∧ (s.modWm n f).kpr = s.kpr ∧
    (s.modWm n f).sto = s.sto ∧ (s.modWm n f).emu = s.emu ∧ (s.modWm n f).cox = s.cox ∧ (s.modWm n f).saf = s.saf ∧
    (s.modWm n f).pins = s.pins ∧ (s.modWm n f).free = s.free ∧ (s.modWm n f).pending = s.pending :=
  ⟨rfl, rfl, rfl, rfl, rfl, rfl, rfl, rfl, rfl, rfl, rfl, rfl, rfl, rfl, rfl, rfl, rfl, rfl, rfl, rfl, rfl, rfl, rfl, rfl, rfl, rfl, rfl⟩

@[simp] theorem modCapt_keeps (k : Nat) (f : Capt → Capt) :
    (s.modCapt k f).time = s.time ∧ (s.modCapt k f).regs = s.regs ∧ (s.modCapt k f).profiles = s.profiles ∧ (s.modCapt k f).sram = s.sram ∧
    (s.modCapt k f).gen = s.gen ∧ (s.modCapt k f).pwr = s.pwr ∧ (s.modCapt k f).tmr = s.tmr ∧ (s.modCapt k f).que = s.que ∧
    (s.modCapt k f).crc = s.crc ∧ (s.modCapt k f).cfg = s.cfg ∧ (s.modCapt k f).hif = s.hif ∧ (s.modCapt k f).field = s.field ∧
    (s.modCapt k f).tun = s.tun ∧ (s.modCapt k f).rxe = s.rxe ∧ (s.modCapt k f).pro = s.pro ∧ (s.modCapt k f).sess = s.sess ∧
    (s.modCapt k f).overflow = s.overflow ∧ (s.modCapt k f).acd = s.acd ∧ (s.modCapt k f).quar = s.quar ∧ (s.modCapt k f).kpr = s.kpr ∧
    (s.modCapt k f).sto = s.sto ∧ (s.modCapt k f).emu = s.emu ∧ (s.modCapt k f).cox = s.cox ∧ (s.modCapt k f).saf = s.saf ∧
    (s.modCapt k f).pins = s.pins ∧ (s.modCapt k f).free = s.free ∧ (s.modCapt k f).pending = s.pending :=
  ⟨rfl, rfl, rfl, rfl, rfl, rfl, rfl, rfl, rfl, rfl, rfl, rfl, rfl, rfl, rfl, rfl, rfl, rfl, rfl, rfl, rfl, rfl, rfl, rfl, rfl, rfl, rfl⟩

@[simp] theorem setPq_keeps (n : Nat) (q : PortQ) :
    (s.setPq n q).time = s.time ∧ (s.setPq n q).regs = s.regs ∧ (s.setPq n q).profiles = s.profiles ∧ (s.setPq n q).sram = s.sram ∧
    (s.setPq n q).gen = s.gen ∧ (s.setPq n q).pwr = s.pwr ∧ (s.setPq n q).tmr = s.tmr ∧ (s.setPq n q).crc = s.crc ∧
    (s.setPq n q).cfg = s.cfg ∧ (s.setPq n q).hif = s.hif ∧ (s.setPq n q).field = s.field ∧ (s.setPq n q).tun = s.tun ∧
    (s.setPq n q).rxe = s.rxe ∧ (s.setPq n q).pro = s.pro ∧ (s.setPq n q).sess = s.sess ∧ (s.setPq n q).overflow = s.overflow ∧
    (s.setPq n q).acd = s.acd ∧ (s.setPq n q).quar = s.quar ∧ (s.setPq n q).kpr = s.kpr ∧ (s.setPq n q).sto = s.sto ∧
    (s.setPq n q).emu = s.emu ∧ (s.setPq n q).cox = s.cox ∧ (s.setPq n q).saf = s.saf ∧ (s.setPq n q).pins = s.pins ∧
    (s.setPq n q).free = s.free ∧ (s.setPq n q).obs = s.obs ∧ (s.setPq n q).pending = s.pending :=
  ⟨rfl, rfl, rfl, rfl, rfl, rfl, rfl, rfl, rfl, rfl, rfl, rfl, rfl, rfl, rfl, rfl, rfl, rfl, rfl, rfl, rfl, rfl, rfl, rfl, rfl, rfl, rfl⟩

@[simp] theorem setChan_keeps (c : Nat) (x : CrcSt) :
    (s.setChan c x).time = s.time ∧ (s.setChan c x).regs = s.regs ∧ (s.setChan c x).profiles = s.profiles ∧ (s.setChan c x).sram = s.sram ∧
    (s.setChan c x).gen = s.gen ∧ (s.setChan c x).pwr = s.pwr ∧ (s.setChan c x).tmr = s.tmr ∧ (s.setChan c x).que = s.que ∧
    (s.setChan c x).cfg = s.cfg ∧ (s.setChan c x).hif = s.hif ∧ (s.setChan c x).field = s.field ∧ (s.setChan c x).tun = s.tun ∧
    (s.setChan c x).rxe = s.rxe ∧ (s.setChan c x).pro = s.pro ∧ (s.setChan c x).sess = s.sess ∧ (s.setChan c x).overflow = s.overflow ∧
    (s.setChan c x).acd = s.acd ∧ (s.setChan c x).quar = s.quar ∧ (s.setChan c x).kpr = s.kpr ∧ (s.setChan c x).sto = s.sto ∧
    (s.setChan c x).emu = s.emu ∧ (s.setChan c x).cox = s.cox ∧ (s.setChan c x).saf = s.saf ∧ (s.setChan c x).pins = s.pins ∧
    (s.setChan c x).free = s.free ∧ (s.setChan c x).obs = s.obs ∧ (s.setChan c x).pending = s.pending :=
  ⟨rfl, rfl, rfl, rfl, rfl, rfl, rfl, rfl, rfl, rfl, rfl, rfl, rfl, rfl, rfl, rfl, rfl, rfl, rfl, rfl, rfl, rfl, rfl, rfl, rfl, rfl, rfl⟩

@[simp] theorem setTimer_keeps (k : Nat) (x : TimerSt) :
    (s.setTimer k x).time = s.time ∧ (s.setTimer k x).regs = s.regs ∧ (s.setTimer k x).profiles = s.profiles ∧ (s.setTimer k x).sram = s.sram ∧
    (s.setTimer k x).gen = s.gen ∧ (s.setTimer k x).pwr = s.pwr ∧ (s.setTimer k x).que = s.que ∧ (s.setTimer k x).crc = s.crc ∧
    (s.setTimer k x).cfg = s.cfg ∧ (s.setTimer k x).hif = s.hif ∧ (s.setTimer k x).field = s.field ∧ (s.setTimer k x).tun = s.tun ∧
    (s.setTimer k x).rxe = s.rxe ∧ (s.setTimer k x).pro = s.pro ∧ (s.setTimer k x).sess = s.sess ∧ (s.setTimer k x).overflow = s.overflow ∧
    (s.setTimer k x).acd = s.acd ∧ (s.setTimer k x).quar = s.quar ∧ (s.setTimer k x).kpr = s.kpr ∧ (s.setTimer k x).sto = s.sto ∧
    (s.setTimer k x).emu = s.emu ∧ (s.setTimer k x).cox = s.cox ∧ (s.setTimer k x).saf = s.saf ∧ (s.setTimer k x).pins = s.pins ∧
    (s.setTimer k x).free = s.free ∧ (s.setTimer k x).obs = s.obs ∧ (s.setTimer k x).pending = s.pending :=
  ⟨rfl, rfl, rfl, rfl, rfl, rfl, rfl, rfl, rfl, rfl, rfl, rfl, rfl, rfl, rfl, rfl, rfl, rfl, rfl, rfl, rfl, rfl, rfl, rfl, rfl, rfl, rfl⟩

@[simp] theorem modF_keeps (n : Nat) (f : PortF → PortF) :
    (s.modF n f).time = s.time ∧ (s.modF n f).regs = s.regs ∧ (s.modF n f).profiles = s.profiles ∧ (s.modF n f).sram = s.sram ∧
    (s.modF n f).gen = s.gen ∧ (s.modF n f).pwr = s.pwr ∧ (s.modF n f).tmr = s.tmr ∧ (s.modF n f).que = s.que ∧
    (s.modF n f).crc = s.crc ∧ (s.modF n f).cfg = s.cfg ∧ (s.modF n f).hif = s.hif ∧ (s.modF n f).tun = s.tun ∧
    (s.modF n f).rxe = s.rxe ∧ (s.modF n f).pro = s.pro ∧ (s.modF n f).sess = s.sess ∧ (s.modF n f).overflow = s.overflow ∧
    (s.modF n f).acd = s.acd ∧ (s.modF n f).quar = s.quar ∧ (s.modF n f).kpr = s.kpr ∧ (s.modF n f).sto = s.sto ∧
    (s.modF n f).emu = s.emu ∧ (s.modF n f).cox = s.cox ∧ (s.modF n f).saf = s.saf ∧ (s.modF n f).pins = s.pins ∧
    (s.modF n f).free = s.free ∧ (s.modF n f).obs = s.obs ∧ (s.modF n f).pending = s.pending :=
  ⟨rfl, rfl, rfl, rfl, rfl, rfl, rfl, rfl, rfl, rfl, rfl, rfl, rfl, rfl, rfl, rfl, rfl, rfl, rfl, rfl, rfl, rfl, rfl, rfl, rfl, rfl, rfl⟩

@[simp] theorem modH_keeps (h : Nat) (f : HuddleSt → HuddleSt) :
    (s.modH h f).time = s.time ∧ (s.modH h f).regs = s.regs ∧ (s.modH h f).profiles = s.profiles ∧ (s.modH h f).sram = s.sram ∧
    (s.modH h f).gen = s.gen ∧ (s.modH h f).pwr = s.pwr ∧ (s.modH h f).tmr = s.tmr ∧ (s.modH h f).que = s.que ∧
    (s.modH h f).crc = s.crc ∧ (s.modH h f).cfg = s.cfg ∧ (s.modH h f).hif = s.hif ∧ (s.modH h f).tun = s.tun ∧
    (s.modH h f).rxe = s.rxe ∧ (s.modH h f).pro = s.pro ∧ (s.modH h f).sess = s.sess ∧ (s.modH h f).overflow = s.overflow ∧
    (s.modH h f).acd = s.acd ∧ (s.modH h f).quar = s.quar ∧ (s.modH h f).kpr = s.kpr ∧ (s.modH h f).sto = s.sto ∧
    (s.modH h f).emu = s.emu ∧ (s.modH h f).cox = s.cox ∧ (s.modH h f).saf = s.saf ∧ (s.modH h f).pins = s.pins ∧
    (s.modH h f).free = s.free ∧ (s.modH h f).obs = s.obs ∧ (s.modH h f).pending = s.pending :=
  ⟨rfl, rfl, rfl, rfl, rfl, rfl, rfl, rfl, rfl, rfl, rfl, rfl, rfl, rfl, rfl, rfl, rfl, rfl, rfl, rfl, rfl, rfl, rfl, rfl, rfl, rfl, rfl⟩

@[simp] theorem modR_keeps (n : Nat) (f : PortR → PortR) :
    (s.modR n f).time = s.time ∧ (s.modR n f).regs = s.regs ∧ (s.modR n f).profiles = s.profiles ∧ (s.modR n f).sram = s.sram ∧
    (s.modR n f).gen = s.gen ∧ (s.modR n f).pwr = s.pwr ∧ (s.modR n f).tmr = s.tmr ∧ (s.modR n f).que = s.que ∧
    (s.modR n f).crc = s.crc ∧ (s.modR n f).cfg = s.cfg ∧ (s.modR n f).hif = s.hif ∧ (s.modR n f).field = s.field ∧
    (s.modR n f).tun = s.tun ∧ (s.modR n f).pro = s.pro ∧ (s.modR n f).sess = s.sess ∧ (s.modR n f).overflow = s.overflow ∧
    (s.modR n f).acd = s.acd ∧ (s.modR n f).quar = s.quar ∧ (s.modR n f).kpr = s.kpr ∧ (s.modR n f).sto = s.sto ∧
    (s.modR n f).emu = s.emu ∧ (s.modR n f).cox = s.cox ∧ (s.modR n f).saf = s.saf ∧ (s.modR n f).pins = s.pins ∧
    (s.modR n f).free = s.free ∧ (s.modR n f).obs = s.obs ∧ (s.modR n f).pending = s.pending :=
  ⟨rfl, rfl, rfl, rfl, rfl, rfl, rfl, rfl, rfl, rfl, rfl, rfl, rfl, rfl, rfl, rfl, rfl, rfl, rfl, rfl, rfl, rfl, rfl, rfl, rfl, rfl, rfl⟩

@[simp] theorem modP_keeps (n : Nat) (f : PortP → PortP) :
    (s.modP n f).time = s.time ∧ (s.modP n f).regs = s.regs ∧ (s.modP n f).profiles = s.profiles ∧ (s.modP n f).sram = s.sram ∧
    (s.modP n f).gen = s.gen ∧ (s.modP n f).pwr = s.pwr ∧ (s.modP n f).tmr = s.tmr ∧ (s.modP n f).que = s.que ∧
    (s.modP n f).crc = s.crc ∧ (s.modP n f).cfg = s.cfg ∧ (s.modP n f).hif = s.hif ∧ (s.modP n f).field = s.field ∧
    (s.modP n f).tun = s.tun ∧ (s.modP n f).rxe = s.rxe ∧ (s.modP n f).sess = s.sess ∧ (s.modP n f).overflow = s.overflow ∧
    (s.modP n f).acd = s.acd ∧ (s.modP n f).quar = s.quar ∧ (s.modP n f).kpr = s.kpr ∧ (s.modP n f).sto = s.sto ∧
    (s.modP n f).emu = s.emu ∧ (s.modP n f).cox = s.cox ∧ (s.modP n f).saf = s.saf ∧ (s.modP n f).pins = s.pins ∧
    (s.modP n f).free = s.free ∧ (s.modP n f).obs = s.obs ∧ (s.modP n f).pending = s.pending :=
  ⟨rfl, rfl, rfl, rfl, rfl, rfl, rfl, rfl, rfl, rfl, rfl, rfl, rfl, rfl, rfl, rfl, rfl, rfl, rfl, rfl, rfl, rfl, rfl, rfl, rfl, rfl, rfl⟩

@[simp] theorem modA_keeps (n : Nat) (f : PortA → PortA) :
    (s.modA n f).time = s.time ∧ (s.modA n f).regs = s.regs ∧ (s.modA n f).profiles = s.profiles ∧ (s.modA n f).sram = s.sram ∧
    (s.modA n f).gen = s.gen ∧ (s.modA n f).pwr = s.pwr ∧ (s.modA n f).tmr = s.tmr ∧ (s.modA n f).que = s.que ∧
    (s.modA n f).crc = s.crc ∧ (s.modA n f).cfg = s.cfg ∧ (s.modA n f).hif = s.hif ∧ (s.modA n f).field = s.field ∧
    (s.modA n f).tun = s.tun ∧ (s.modA n f).rxe = s.rxe ∧ (s.modA n f).pro = s.pro ∧ (s.modA n f).sess = s.sess ∧
    (s.modA n f).overflow = s.overflow ∧ (s.modA n f).quar = s.quar ∧ (s.modA n f).kpr = s.kpr ∧ (s.modA n f).sto = s.sto ∧
    (s.modA n f).emu = s.emu ∧ (s.modA n f).cox = s.cox ∧ (s.modA n f).saf = s.saf ∧ (s.modA n f).pins = s.pins ∧
    (s.modA n f).free = s.free ∧ (s.modA n f).obs = s.obs ∧ (s.modA n f).pending = s.pending :=
  ⟨rfl, rfl, rfl, rfl, rfl, rfl, rfl, rfl, rfl, rfl, rfl, rfl, rfl, rfl, rfl, rfl, rfl, rfl, rfl, rfl, rfl, rfl, rfl, rfl, rfl, rfl, rfl⟩

@[simp] theorem modT_keeps (n : Nat) (f : PortT → PortT) :
    (s.modT n f).time = s.time ∧ (s.modT n f).regs = s.regs ∧ (s.modT n f).profiles = s.profiles ∧ (s.modT n f).sram = s.sram ∧
    (s.modT n f).gen = s.gen ∧ (s.modT n f).pwr = s.pwr ∧ (s.modT n f).tmr = s.tmr ∧ (s.modT n f).que = s.que ∧
    (s.modT n f).crc = s.crc ∧ (s.modT n f).cfg = s.cfg ∧ (s.modT n f).hif = s.hif ∧ (s.modT n f).field = s.field ∧
    (s.modT n f).rxe = s.rxe ∧ (s.modT n f).pro = s.pro ∧ (s.modT n f).sess = s.sess ∧ (s.modT n f).overflow = s.overflow ∧
    (s.modT n f).acd = s.acd ∧ (s.modT n f).quar = s.quar ∧ (s.modT n f).kpr = s.kpr ∧ (s.modT n f).sto = s.sto ∧
    (s.modT n f).emu = s.emu ∧ (s.modT n f).cox = s.cox ∧ (s.modT n f).saf = s.saf ∧ (s.modT n f).pins = s.pins ∧
    (s.modT n f).free = s.free ∧ (s.modT n f).obs = s.obs ∧ (s.modT n f).pending = s.pending :=
  ⟨rfl, rfl, rfl, rfl, rfl, rfl, rfl, rfl, rfl, rfl, rfl, rfl, rfl, rfl, rfl, rfl, rfl, rfl, rfl, rfl, rfl, rfl, rfl, rfl, rfl, rfl, rfl⟩

@[simp] theorem modX_keeps (n : Nat) (f : PortX → PortX) :
    (s.modX n f).time = s.time ∧ (s.modX n f).regs = s.regs ∧ (s.modX n f).profiles = s.profiles ∧ (s.modX n f).sram = s.sram ∧
    (s.modX n f).gen = s.gen ∧ (s.modX n f).pwr = s.pwr ∧ (s.modX n f).tmr = s.tmr ∧ (s.modX n f).que = s.que ∧
    (s.modX n f).crc = s.crc ∧ (s.modX n f).cfg = s.cfg ∧ (s.modX n f).hif = s.hif ∧ (s.modX n f).field = s.field ∧
    (s.modX n f).tun = s.tun ∧ (s.modX n f).rxe = s.rxe ∧ (s.modX n f).pro = s.pro ∧ (s.modX n f).sess = s.sess ∧
    (s.modX n f).overflow = s.overflow ∧ (s.modX n f).acd = s.acd ∧ (s.modX n f).quar = s.quar ∧ (s.modX n f).kpr = s.kpr ∧
    (s.modX n f).sto = s.sto ∧ (s.modX n f).emu = s.emu ∧ (s.modX n f).saf = s.saf ∧ (s.modX n f).pins = s.pins ∧
    (s.modX n f).free = s.free ∧ (s.modX n f).obs = s.obs ∧ (s.modX n f).pending = s.pending :=
  ⟨rfl, rfl, rfl, rfl, rfl, rfl, rfl, rfl, rfl, rfl, rfl, rfl, rfl, rfl, rfl, rfl, rfl, rfl, rfl, rfl, rfl, rfl, rfl, rfl, rfl, rfl, rfl⟩

@[simp] theorem modL_keeps (l : Nat) (f : LaneSt → LaneSt) :
    (s.modL l f).time = s.time ∧ (s.modL l f).regs = s.regs ∧ (s.modL l f).profiles = s.profiles ∧ (s.modL l f).sram = s.sram ∧
    (s.modL l f).gen = s.gen ∧ (s.modL l f).pwr = s.pwr ∧ (s.modL l f).tmr = s.tmr ∧ (s.modL l f).que = s.que ∧
    (s.modL l f).crc = s.crc ∧ (s.modL l f).cfg = s.cfg ∧ (s.modL l f).hif = s.hif ∧ (s.modL l f).field = s.field ∧
    (s.modL l f).tun = s.tun ∧ (s.modL l f).rxe = s.rxe ∧ (s.modL l f).pro = s.pro ∧ (s.modL l f).sess = s.sess ∧
    (s.modL l f).overflow = s.overflow ∧ (s.modL l f).acd = s.acd ∧ (s.modL l f).quar = s.quar ∧ (s.modL l f).sto = s.sto ∧
    (s.modL l f).emu = s.emu ∧ (s.modL l f).cox = s.cox ∧ (s.modL l f).saf = s.saf ∧ (s.modL l f).pins = s.pins ∧
    (s.modL l f).free = s.free ∧ (s.modL l f).obs = s.obs ∧ (s.modL l f).pending = s.pending :=
  ⟨rfl, rfl, rfl, rfl, rfl, rfl, rfl, rfl, rfl, rfl, rfl, rfl, rfl, rfl, rfl, rfl, rfl, rfl, rfl, rfl, rfl, rfl, rfl, rfl, rfl, rfl, rfl⟩

@[simp] theorem putSess_keeps (k : Nat) (x : Session) :
    (s.putSess k x).time = s.time ∧ (s.putSess k x).regs = s.regs ∧ (s.putSess k x).profiles = s.profiles ∧ (s.putSess k x).sram = s.sram ∧
    (s.putSess k x).gen = s.gen ∧ (s.putSess k x).pwr = s.pwr ∧ (s.putSess k x).tmr = s.tmr ∧ (s.putSess k x).que = s.que ∧
    (s.putSess k x).crc = s.crc ∧ (s.putSess k x).cfg = s.cfg ∧ (s.putSess k x).hif = s.hif ∧ (s.putSess k x).field = s.field ∧
    (s.putSess k x).tun = s.tun ∧ (s.putSess k x).rxe = s.rxe ∧ (s.putSess k x).pro = s.pro ∧ (s.putSess k x).overflow = s.overflow ∧
    (s.putSess k x).acd = s.acd ∧ (s.putSess k x).quar = s.quar ∧ (s.putSess k x).kpr = s.kpr ∧ (s.putSess k x).sto = s.sto ∧
    (s.putSess k x).emu = s.emu ∧ (s.putSess k x).cox = s.cox ∧ (s.putSess k x).saf = s.saf ∧ (s.putSess k x).pins = s.pins ∧
    (s.putSess k x).free = s.free ∧ (s.putSess k x).obs = s.obs ∧ (s.putSess k x).pending = s.pending :=
  ⟨rfl, rfl, rfl, rfl, rfl, rfl, rfl, rfl, rfl, rfl, rfl, rfl, rfl, rfl, rfl, rfl, rfl, rfl, rfl, rfl, rfl, rfl, rfl, rfl, rfl, rfl, rfl⟩

@[simp] theorem freeSess_keeps (k : Nat) :
    (s.freeSess k).time = s.time ∧ (s.freeSess k).regs = s.regs ∧ (s.freeSess k).profiles = s.profiles ∧ (s.freeSess k).sram = s.sram ∧
    (s.freeSess k).gen = s.gen ∧ (s.freeSess k).pwr = s.pwr ∧ (s.freeSess k).tmr = s.tmr ∧ (s.freeSess k).que = s.que ∧
    (s.freeSess k).crc = s.crc ∧ (s.freeSess k).cfg = s.cfg ∧ (s.freeSess k).hif = s.hif ∧ (s.freeSess k).field = s.field ∧
    (s.freeSess k).tun = s.tun ∧ (s.freeSess k).rxe = s.rxe ∧ (s.freeSess k).pro = s.pro ∧ (s.freeSess k).overflow = s.overflow ∧
    (s.freeSess k).acd = s.acd ∧ (s.freeSess k).quar = s.quar ∧ (s.freeSess k).kpr = s.kpr ∧ (s.freeSess k).sto = s.sto ∧
    (s.freeSess k).emu = s.emu ∧ (s.freeSess k).cox = s.cox ∧ (s.freeSess k).saf = s.saf ∧ (s.freeSess k).pins = s.pins ∧
    (s.freeSess k).free = s.free ∧ (s.freeSess k).obs = s.obs ∧ (s.freeSess k).pending = s.pending :=
  ⟨rfl, rfl, rfl, rfl, rfl, rfl, rfl, rfl, rfl, rfl, rfl, rfl, rfl, rfl, rfl, rfl, rfl, rfl, rfl, rfl, rfl, rfl, rfl, rfl, rfl, rfl, rfl⟩

@[simp] theorem setSto_keeps (x : StoSt) :
    (s.setSto x).time = s.time ∧ (s.setSto x).regs = s.regs ∧ (s.setSto x).profiles = s.profiles ∧ (s.setSto x).sram = s.sram ∧
    (s.setSto x).gen = s.gen ∧ (s.setSto x).pwr = s.pwr ∧ (s.setSto x).tmr = s.tmr ∧ (s.setSto x).que = s.que ∧
    (s.setSto x).crc = s.crc ∧ (s.setSto x).cfg = s.cfg ∧ (s.setSto x).hif = s.hif ∧ (s.setSto x).field = s.field ∧
    (s.setSto x).tun = s.tun ∧ (s.setSto x).rxe = s.rxe ∧ (s.setSto x).pro = s.pro ∧ (s.setSto x).sess = s.sess ∧
    (s.setSto x).overflow = s.overflow ∧ (s.setSto x).acd = s.acd ∧ (s.setSto x).quar = s.quar ∧ (s.setSto x).kpr = s.kpr ∧
    (s.setSto x).emu = s.emu ∧ (s.setSto x).cox = s.cox ∧ (s.setSto x).saf = s.saf ∧ (s.setSto x).pins = s.pins ∧
    (s.setSto x).free = s.free ∧ (s.setSto x).obs = s.obs ∧ (s.setSto x).pending = s.pending :=
  ⟨rfl, rfl, rfl, rfl, rfl, rfl, rfl, rfl, rfl, rfl, rfl, rfl, rfl, rfl, rfl, rfl, rfl, rfl, rfl, rfl, rfl, rfl, rfl, rfl, rfl, rfl, rfl⟩

@[simp] theorem setCox_keeps (x : CoxSt) :
    (s.setCox x).time = s.time ∧ (s.setCox x).regs = s.regs ∧ (s.setCox x).profiles = s.profiles ∧ (s.setCox x).sram = s.sram ∧
    (s.setCox x).gen = s.gen ∧ (s.setCox x).pwr = s.pwr ∧ (s.setCox x).tmr = s.tmr ∧ (s.setCox x).que = s.que ∧
    (s.setCox x).crc = s.crc ∧ (s.setCox x).cfg = s.cfg ∧ (s.setCox x).hif = s.hif ∧ (s.setCox x).field = s.field ∧
    (s.setCox x).tun = s.tun ∧ (s.setCox x).rxe = s.rxe ∧ (s.setCox x).pro = s.pro ∧ (s.setCox x).sess = s.sess ∧
    (s.setCox x).overflow = s.overflow ∧ (s.setCox x).acd = s.acd ∧ (s.setCox x).quar = s.quar ∧ (s.setCox x).kpr = s.kpr ∧
    (s.setCox x).sto = s.sto ∧ (s.setCox x).emu = s.emu ∧ (s.setCox x).saf = s.saf ∧ (s.setCox x).pins = s.pins ∧
    (s.setCox x).free = s.free ∧ (s.setCox x).obs = s.obs ∧ (s.setCox x).pending = s.pending :=
  ⟨rfl, rfl, rfl, rfl, rfl, rfl, rfl, rfl, rfl, rfl, rfl, rfl, rfl, rfl, rfl, rfl, rfl, rfl, rfl, rfl, rfl, rfl, rfl, rfl, rfl, rfl, rfl⟩

@[simp] theorem setSaf_keeps (x : SafSt) :
    (s.setSaf x).time = s.time ∧ (s.setSaf x).regs = s.regs ∧ (s.setSaf x).profiles = s.profiles ∧ (s.setSaf x).sram = s.sram ∧
    (s.setSaf x).gen = s.gen ∧ (s.setSaf x).pwr = s.pwr ∧ (s.setSaf x).tmr = s.tmr ∧ (s.setSaf x).que = s.que ∧
    (s.setSaf x).crc = s.crc ∧ (s.setSaf x).cfg = s.cfg ∧ (s.setSaf x).hif = s.hif ∧ (s.setSaf x).field = s.field ∧
    (s.setSaf x).tun = s.tun ∧ (s.setSaf x).rxe = s.rxe ∧ (s.setSaf x).pro = s.pro ∧ (s.setSaf x).sess = s.sess ∧
    (s.setSaf x).overflow = s.overflow ∧ (s.setSaf x).acd = s.acd ∧ (s.setSaf x).quar = s.quar ∧ (s.setSaf x).kpr = s.kpr ∧
    (s.setSaf x).sto = s.sto ∧ (s.setSaf x).emu = s.emu ∧ (s.setSaf x).cox = s.cox ∧ (s.setSaf x).pins = s.pins ∧
    (s.setSaf x).free = s.free ∧ (s.setSaf x).obs = s.obs ∧ (s.setSaf x).pending = s.pending :=
  ⟨rfl, rfl, rfl, rfl, rfl, rfl, rfl, rfl, rfl, rfl, rfl, rfl, rfl, rfl, rfl, rfl, rfl, rfl, rfl, rfl, rfl, rfl, rfl, rfl, rfl, rfl, rfl⟩

@[simp] theorem modE_keeps (f : EmuSt → EmuSt) :
    (s.modE f).time = s.time ∧ (s.modE f).regs = s.regs ∧ (s.modE f).profiles = s.profiles ∧ (s.modE f).sram = s.sram ∧
    (s.modE f).gen = s.gen ∧ (s.modE f).pwr = s.pwr ∧ (s.modE f).tmr = s.tmr ∧ (s.modE f).que = s.que ∧
    (s.modE f).crc = s.crc ∧ (s.modE f).cfg = s.cfg ∧ (s.modE f).hif = s.hif ∧ (s.modE f).field = s.field ∧
    (s.modE f).tun = s.tun ∧ (s.modE f).rxe = s.rxe ∧ (s.modE f).pro = s.pro ∧ (s.modE f).sess = s.sess ∧
    (s.modE f).overflow = s.overflow ∧ (s.modE f).acd = s.acd ∧ (s.modE f).quar = s.quar ∧ (s.modE f).kpr = s.kpr ∧
    (s.modE f).sto = s.sto ∧ (s.modE f).cox = s.cox ∧ (s.modE f).saf = s.saf ∧ (s.modE f).pins = s.pins ∧
    (s.modE f).free = s.free ∧ (s.modE f).obs = s.obs ∧ (s.modE f).pending = s.pending :=
  ⟨rfl, rfl, rfl, rfl, rfl, rfl, rfl, rfl, rfl, rfl, rfl, rfl, rfl, rfl, rfl, rfl, rfl, rfl, rfl, rfl, rfl, rfl, rfl, rfl, rfl, rfl, rfl⟩

@[simp] theorem setOut_keeps (l : List Word) :
    (s.setOut l).time = s.time ∧ (s.setOut l).regs = s.regs ∧ (s.setOut l).profiles = s.profiles ∧ (s.setOut l).sram = s.sram ∧
    (s.setOut l).gen = s.gen ∧ (s.setOut l).pwr = s.pwr ∧ (s.setOut l).tmr = s.tmr ∧ (s.setOut l).que = s.que ∧
    (s.setOut l).crc = s.crc ∧ (s.setOut l).cfg = s.cfg ∧ (s.setOut l).field = s.field ∧ (s.setOut l).tun = s.tun ∧
    (s.setOut l).rxe = s.rxe ∧ (s.setOut l).pro = s.pro ∧ (s.setOut l).sess = s.sess ∧ (s.setOut l).overflow = s.overflow ∧
    (s.setOut l).acd = s.acd ∧ (s.setOut l).quar = s.quar ∧ (s.setOut l).kpr = s.kpr ∧ (s.setOut l).sto = s.sto ∧
    (s.setOut l).emu = s.emu ∧ (s.setOut l).cox = s.cox ∧ (s.setOut l).saf = s.saf ∧ (s.setOut l).pins = s.pins ∧
    (s.setOut l).free = s.free ∧ (s.setOut l).obs = s.obs ∧ (s.setOut l).pending = s.pending :=
  ⟨rfl, rfl, rfl, rfl, rfl, rfl, rfl, rfl, rfl, rfl, rfl, rfl, rfl, rfl, rfl, rfl, rfl, rfl, rfl, rfl, rfl, rfl, rfl, rfl, rfl, rfl, rfl⟩

@[simp] theorem takeFreeWord_keeps :
    (s.takeFreeWord.1).time = s.time ∧ (s.takeFreeWord.1).regs = s.regs ∧ (s.takeFreeWord.1).profiles = s.profiles ∧ (s.takeFreeWord.1).sram = s.sram ∧
    (s.takeFreeWord.1).gen = s.gen ∧ (s.takeFreeWord.1).pwr = s.pwr ∧ (s.takeFreeWord.1).tmr = s.tmr ∧ (s.takeFreeWord.1).que = s.que ∧
    (s.takeFreeWord.1).crc = s.crc ∧ (s.takeFreeWord.1).cfg = s.cfg ∧ (s.takeFreeWord.1).hif = s.hif ∧ (s.takeFreeWord.1).field = s.field ∧
    (s.takeFreeWord.1).tun = s.tun ∧ (s.takeFreeWord.1).rxe = s.rxe ∧ (s.takeFreeWord.1).pro = s.pro ∧ (s.takeFreeWord.1).sess = s.sess ∧
    (s.takeFreeWord.1).overflow = s.overflow ∧ (s.takeFreeWord.1).acd = s.acd ∧ (s.takeFreeWord.1).quar = s.quar ∧ (s.takeFreeWord.1).kpr = s.kpr ∧
    (s.takeFreeWord.1).sto = s.sto ∧ (s.takeFreeWord.1).emu = s.emu ∧ (s.takeFreeWord.1).cox = s.cox ∧ (s.takeFreeWord.1).saf = s.saf ∧
    (s.takeFreeWord.1).pins = s.pins ∧ (s.takeFreeWord.1).obs = s.obs ∧ (s.takeFreeWord.1).pending = s.pending :=
  ⟨rfl, rfl, rfl, rfl, rfl, rfl, rfl, rfl, rfl, rfl, rfl, rfl, rfl, rfl, rfl, rfl, rfl, rfl, rfl, rfl, rfl, rfl, rfl, rfl, rfl, rfl, rfl⟩

@[simp] theorem takeFreeBit_keeps :
    (s.takeFreeBit.1).time = s.time ∧ (s.takeFreeBit.1).regs = s.regs ∧ (s.takeFreeBit.1).profiles = s.profiles ∧ (s.takeFreeBit.1).sram = s.sram ∧
    (s.takeFreeBit.1).gen = s.gen ∧ (s.takeFreeBit.1).pwr = s.pwr ∧ (s.takeFreeBit.1).tmr = s.tmr ∧ (s.takeFreeBit.1).que = s.que ∧
    (s.takeFreeBit.1).crc = s.crc ∧ (s.takeFreeBit.1).cfg = s.cfg ∧ (s.takeFreeBit.1).hif = s.hif ∧ (s.takeFreeBit.1).field = s.field ∧
    (s.takeFreeBit.1).tun = s.tun ∧ (s.takeFreeBit.1).rxe = s.rxe ∧ (s.takeFreeBit.1).pro = s.pro ∧ (s.takeFreeBit.1).sess = s.sess ∧
    (s.takeFreeBit.1).overflow = s.overflow ∧ (s.takeFreeBit.1).acd = s.acd ∧ (s.takeFreeBit.1).quar = s.quar ∧ (s.takeFreeBit.1).kpr = s.kpr ∧
    (s.takeFreeBit.1).sto = s.sto ∧ (s.takeFreeBit.1).emu = s.emu ∧ (s.takeFreeBit.1).cox = s.cox ∧ (s.takeFreeBit.1).saf = s.saf ∧
    (s.takeFreeBit.1).pins = s.pins ∧ (s.takeFreeBit.1).obs = s.obs ∧ (s.takeFreeBit.1).pending = s.pending :=
  ⟨rfl, rfl, rfl, rfl, rfl, rfl, rfl, rfl, rfl, rfl, rfl, rfl, rfl, rfl, rfl, rfl, rfl, rfl, rfl, rfl, rfl, rfl, rfl, rfl, rfl, rfl, rfl⟩

end Sys2Proof.Machine
end

