-- ==== Sys2Proof/Laws/Registers.lean ====
section
/-! SUPPORT. Registers and their fields: reading after writing. -/

namespace Sys2Proof.Machine

variable (s : State)

/-! ### Whole registers -/

@[simp] theorem reg_setReg_same (a : Nat) (w : Word) : (s.setReg a w).reg a = w := Sparse.get_put_same s.regs _ a w

theorem reg_setReg_ne (a b : Nat) (w : Word) (h : b ≠ a) : (s.setReg a w).reg b = s.reg b := Sparse.get_put_ne s.regs _ _ a b w h

theorem reg_of_regs {s t : State} (h : t.regs = s.regs) (a : Nat) : t.reg a = s.reg a := by simp [State.reg, h]

theorem fld_of_regs {s t : State} (h : t.regs = s.regs) (a : Nat) (f : Field) : t.fld a f = s.fld a f := by
  simp [State.fld, reg_of_regs h]

@[simp] theorem reg_setFld_same (a : Nat) (f : Field) (v : Nat) : (s.setFld a f v).reg a = f.set (s.reg a) v := reg_setReg_same s a _

theorem reg_setFld_ne (a b : Nat) (f : Field) (v : Nat) (h : b ≠ a) : (s.setFld a f v).reg b = s.reg b := reg_setReg_ne s a b _ h

/-! ### Fields of a word -/

theorem Field.getLsbD_mask (f : Field) (i : Nat) (h : i < 32) :
    f.mask.getLsbD i = (decide (f.lo ≤ i) && decide (i - f.lo < f.width)) := by
  rw [Field.mask, BitVec.getLsbD_ofNat, Nat.testBit_shiftLeft, Nat.testBit_two_pow_sub_one]
  simp [h]

theorem Field.testBit_get (f : Field) (w : Word) (i : Nat) :
    (f.get w).testBit i = (decide (i < f.width) && w.getLsbD (f.lo + i)) := by
  simp [Field.get, Nat.testBit_mod_two_pow, Nat.testBit_shiftRight, BitVec.getLsbD]

theorem Field.getLsbD_set (f : Field) (w : Word) (v i : Nat) (h : i < 32) :
    (f.set w v).getLsbD i = if f.lo ≤ i ∧ i - f.lo < f.width then v.testBit (i - f.lo) else w.getLsbD i := by
  simp only [Field.set, BitVec.getLsbD_or, BitVec.getLsbD_and, BitVec.getLsbD_not, Field.getLsbD_mask f i h, BitVec.getLsbD_ofNat, h,
    decide_true, Bool.true_and, Nat.testBit_shiftLeft, Nat.testBit_mod_two_pow]
  by_cases h1 : f.lo ≤ i <;> by_cases h2 : i - f.lo < f.width <;> simp [h1, h2]

/-- A field that has been set reads as its value modulo its width. -/
theorem Field.get_set_same (f : Field) (w : Word) (v : Nat) (h : f.lo + f.width ≤ 32) : f.get (f.set w v) = v % 2 ^ f.width := by
  apply Nat.eq_of_testBit_eq
  intro i
  rw [Field.testBit_get, Nat.testBit_mod_two_pow]
  by_cases hi : i < f.width
  · rw [Field.getLsbD_set f w v _ (by omega)]
    simp [hi]
  · simp [hi]

/-- A field beside the one that has been set reads as before. -/
theorem Field.get_set_other (f g : Field) (w : Word) (v : Nat) (h : g.lo + g.width ≤ 32)
    (hd : g.lo + g.width ≤ f.lo ∨ f.lo + f.width ≤ g.lo) : g.get (f.set w v) = g.get w := by
  apply Nat.eq_of_testBit_eq
  intro i
  rw [Field.testBit_get, Field.testBit_get]
  by_cases hi : i < g.width
  · rw [Field.getLsbD_set f w v _ (by omega)]
    split
    · omega
    · rfl
  · simp [hi]

theorem Field.get_lt (f : Field) (w : Word) : f.get w < 2 ^ f.width := Nat.mod_lt _ (Nat.two_pow_pos _)

/-- The bits outside a field are not changed by setting it. -/
theorem Field.set_others (f : Field) (w : Word) (v : Nat) : f.set w v &&& ~~~f.mask = w &&& ~~~f.mask := by
  apply BitVec.eq_of_getLsbD_eq
  intro i hi
  simp only [BitVec.getLsbD_and, BitVec.getLsbD_not, Field.getLsbD_mask f i hi, Field.getLsbD_set f w v i hi]
  by_cases h1 : f.lo ≤ i <;> by_cases h2 : i - f.lo < f.width <;> simp [h1, h2]

/-! ### Fields of registers -/

theorem fld_setFld_same (a : Nat) (f : Field) (v : Nat) (h : f.lo + f.width ≤ 32) : (s.setFld a f v).fld a f = v % 2 ^ f.width := by
  rw [State.fld, reg_setFld_same, Field.get_set_same f _ v h]

theorem fld_setFld_other (a : Nat) (f g : Field) (v : Nat) (h : g.lo + g.width ≤ 32)
    (hd : g.lo + g.width ≤ f.lo ∨ f.lo + f.width ≤ g.lo) : (s.setFld a f v).fld a g = s.fld a g := by
  rw [State.fld, State.fld, reg_setFld_same, Field.get_set_other f g _ v h hd]

theorem fld_setFld_ne (a b : Nat) (f g : Field) (v : Nat) (h : b ≠ a) : (s.setFld a f v).fld b g = s.fld b g := by
  rw [State.fld, State.fld, reg_setFld_ne s a b f v h]

theorem fld_setReg_ne (a b : Nat) (w : Word) (g : Field) (h : b ≠ a) : (s.setReg a w).fld b g = s.fld b g := by
  rw [State.fld, State.fld, reg_setReg_ne s a b w h]

end Sys2Proof.Machine
end

