-- ==== Sys2Proof/Laws/Frame.lean ====
section
/-! SUPPORT. What closing a command and the passing of time leave alone: `finish` changes only `obs`, `advance` only device time, `obs`
and the ring lines in the SRAM window. -/

namespace Sys2Proof.Machine

/-! ### Only `obs` differs -/

/-- `t` differs from `s` in `obs` at most. -/
def OnlyObs (s t : State) : Prop := t = { s with obs := t.obs }

theorem OnlyObs.refl (s : State) : OnlyObs s s := rfl

theorem OnlyObs.trans {s t u : State} (h : OnlyObs s t) (k : OnlyObs t u) : OnlyObs s u := by
  unfold OnlyObs at *
  rw [k, h]

theorem OnlyObs.ite {s t u : State} {c : Prop} [Decidable c] (h : OnlyObs s t) (k : OnlyObs s u) : OnlyObs s (if c then t else u) := by
  split
  · exact h
  · exact k

theorem OnlyObs.foldl {α : Type} (f : State → α → State) (h : ∀ s a, OnlyObs s (f s a)) (l : List α) (s : State) :
    OnlyObs s (l.foldl f s) := by
  induction l generalizing s with
  | nil => rfl
  | cons a t ih => exact (h s a).trans (ih (f s a))

section
variable (s : State)

theorem onlyObs_obs (o : Obs) : OnlyObs s { s with obs := o } := rfl
theorem onlyObs_setSil (x : SilSt) : OnlyObs s (s.setSil x) := rfl
theorem onlyObs_setEvq (x : EvqSt) : OnlyObs s (s.setEvq x) := rfl
theorem onlyObs_setTrc (x : TrcSt) : OnlyObs s (s.setTrc x) := rfl
theorem onlyObs_countBy (i n : Nat) : OnlyObs s (s.countBy i n) := rfl
theorem onlyObs_count (i : Nat) : OnlyObs s (s.count i) := rfl
theorem onlyObs_post (c : Nat) (k : Note) (a : Nat) : OnlyObs s (s.post c k a) := rfl
theorem onlyObs_noteSet (a : Nat) (w : Word) : OnlyObs s (s.noteSet a w) := rfl

theorem onlyObs_closeWin (w : Window) : OnlyObs s (s.closeWin w) := by
  unfold State.closeWin
  exact OnlyObs.ite rfl rfl

theorem onlyObs_postLimited (c sc : Nat) (k : Note) (f : ArgForm) (a : Word) (n : Nat) : OnlyObs s (s.postLimited c sc k f a n) := by
  have rest : ∀ u : State, OnlyObs s u → ∀ o p q : State, OnlyObs u o → OnlyObs u p → OnlyObs u q → OnlyObs s
      (match findWin u.obs.windows c sc with
        | some w => if s.time < w.ends then o else p
        | none => q) := by
    intro u h o p q ho hp hq
    refine h.trans ?_
    split
    · exact OnlyObs.ite ho hp
    · exact hq
  unfold State.postLimited
  cases findWin s.obs.windows c sc with
  | none => exact rest s rfl _ _ _ rfl rfl rfl
  | some w =>
    dsimp only
    by_cases hw : w.ends ≤ s.time
    · rw [if_pos hw]
      exact rest _ (onlyObs_closeWin s w) _ _ _ rfl rfl rfl
    · rw [if_neg hw]
      exact rest s rfl _ _ _ rfl rfl rfl

theorem onlyObs_postSec (c sc : Nat) (k : Note) (a : Nat) : OnlyObs s (s.postSec c sc k a) := onlyObs_postLimited s c sc k _ _ _

theorem onlyObs_postSecCount (c sc : Nat) (k : Note) : OnlyObs s (s.postSecCount c sc k) := onlyObs_postLimited s c sc k _ _ _

theorem onlyObs_silDrop (k : Note) : OnlyObs s (s.silDrop k) := by
  cases k
  · rfl
  · exact (onlyObs_setSil s _).trans (onlyObs_postSec _ _ _ _ _)
  · exact (onlyObs_setSil s _).trans (onlyObs_postSec _ _ _ _ _)

theorem onlyObs_vaultPut (r : Rec) : OnlyObs s (s.vaultPut r) := by
  unfold State.vaultPut
  refine OnlyObs.ite rfl ?_
  split
  · rfl
  · exact (onlyObs_silDrop s _).trans (onlyObs_count _ _)

theorem onlyObs_spillLose : OnlyObs s s.spillLose := (onlyObs_setSil s _).trans (onlyObs_postSec _ _ _ _ _)

theorem onlyObs_stage (r : Rec) : OnlyObs s (s.stage r) := by
  unfold State.stage
  dsimp only
  split
  · exact OnlyObs.ite (OnlyObs.ite rfl (onlyObs_spillLose s)) rfl
  · rfl

theorem onlyObs_takeSeq : OnlyObs s s.takeSeq := rfl

theorem onlyObs_silOffer (e : Event) : OnlyObs s (s.silOffer e) := by
  unfold State.silOffer
  dsimp only
  split
  · rfl
  · exact OnlyObs.ite (onlyObs_spillLose s) ((onlyObs_takeSeq s).trans (onlyObs_stage _ _))
  · refine OnlyObs.ite (onlyObs_silDrop s _) ?_
    have h : OnlyObs s (if s.flag Reg.SIL_CTRL Fld.SIL_CTRL_SPILL_EN
          && decide (e.note.rank ≤ s.fld Reg.SIL_CTRL Fld.SIL_CTRL_SPILL_MIN) then s.takeSeq.stage (s.makeRec e (s.trigger e.code))
        else s.takeSeq) :=
      OnlyObs.ite ((onlyObs_takeSeq s).trans (onlyObs_stage _ _)) (onlyObs_takeSeq s)
    exact h.trans (OnlyObs.ite (onlyObs_vaultPut _ _) rfl)

theorem onlyObs_evqLose (p : Nat) : OnlyObs s (s.evqLose p) := by
  unfold State.evqLose
  have h (x : EvqSt) : OnlyObs s ((s.setEvq x).count 20) := (onlyObs_setEvq s x).trans (onlyObs_count _ _)
  exact OnlyObs.ite (((h _).trans (onlyObs_noteSet _ _ _)).trans (onlyObs_post _ _ _ _)) (h _)

theorem onlyObs_evqOffer (e : Event) : OnlyObs s (s.evqOffer e) := by
  unfold State.evqOffer
  exact OnlyObs.ite (OnlyObs.ite rfl (onlyObs_evqLose s _)) rfl

theorem onlyObs_trace (k : Nat) (l : List Byte) : OnlyObs s (s.trace k l) := by
  unfold State.trace
  exact OnlyObs.ite (OnlyObs.ite rfl rfl) rfl

theorem onlyObs_traceEvent (e : Event) : OnlyObs s (s.traceEvent e) := by
  unfold State.traceEvent
  exact OnlyObs.ite (onlyObs_trace s _ _) rfl

theorem onlyObs_traceState (k i a b : Nat) : OnlyObs s (State.traceState k i a b s) := by
  unfold State.traceState
  exact OnlyObs.ite (onlyObs_trace s _ _) rfl

theorem onlyObs_traceDecisions : OnlyObs s s.traceDecisions := by
  unfold State.traceDecisions
  exact OnlyObs.ite ((onlyObs_setTrc s _).trans (OnlyObs.foldl _ (fun t _ => onlyObs_trace t _ _) _ _)) rfl

theorem onlyObs_flush : OnlyObs s s.flush := by
  unfold State.flush
  refine OnlyObs.trans ?_ (onlyObs_countBy _ _ _)
  refine OnlyObs.trans ?_ (OnlyObs.foldl _ (fun t _ => onlyObs_traceEvent t _) _ _)
  refine OnlyObs.trans ?_ (onlyObs_traceDecisions _)
  refine OnlyObs.trans ?_ (OnlyObs.foldl _ (fun t _ => onlyObs_evqOffer t _) _ _)
  exact (onlyObs_obs s _).trans (OnlyObs.foldl _ (fun t _ => onlyObs_silOffer t _) _ _)

theorem onlyObs_traceChanges (s0 : State) : OnlyObs s (State.traceChanges s0 s) := by
  unfold State.traceChanges
  refine OnlyObs.trans ?_ (OnlyObs.foldl _ (fun t _ => onlyObs_traceState t _ _ _ _) _ _)
  refine OnlyObs.trans ?_ (onlyObs_traceState _ _ _ _ _)
  refine OnlyObs.trans ?_ (OnlyObs.foldl _ (fun t _ => onlyObs_traceState t _ _ _ _) _ _)
  refine OnlyObs.trans ?_ (OnlyObs.foldl _ (fun t _ => onlyObs_traceState t _ _ _ _) _ _)
  refine OnlyObs.trans ?_ (OnlyObs.foldl _ (fun t _ => onlyObs_traceState t _ _ _ _) _ _)
  exact onlyObs_traceState s _ _ _ _

theorem onlyObs_offer (s0 : State) : OnlyObs s (State.offer s0 s) := by
  unfold State.offer
  exact ((onlyObs_obs s _).trans (onlyObs_flush _)).trans (onlyObs_obs _ _)

/-- What closes a command changes only `obs`. -/
theorem onlyObs_finish (s0 : State) : OnlyObs s (finish s0 s) := by
  unfold finish
  dsimp only
  refine OnlyObs.trans ?_ (onlyObs_obs _ _)
  refine OnlyObs.trans ?_ (onlyObs_obs _ _)
  refine OnlyObs.trans ?_ (onlyObs_obs _ _)
  refine OnlyObs.trans ?_ (onlyObs_offer _ s0)
  exact OnlyObs.ite (onlyObs_traceChanges s s0) (OnlyObs.refl s)

/-! ### Device time, `obs` and the SRAM window differ -/

/-- `t` differs from `s` in device time, `obs` and the SRAM window at most. -/
def OnlyTime (s t : State) : Prop := t = { s with time := t.time, obs := t.obs, sram := t.sram }

theorem OnlyTime.trans {s t u : State} (h : OnlyTime s t) (k : OnlyTime t u) : OnlyTime s u := by
  unfold OnlyTime at *
  rw [k, h]

theorem OnlyTime.ite {s t u : State} {c : Prop} [Decidable c] (h : OnlyTime s t) (k : OnlyTime s u) : OnlyTime s (if c then t else u) := by
  split
  · exact h
  · exact k

theorem OnlyObs.later {s t : State} (h : OnlyObs s t) : OnlyTime s t := by
  unfold OnlyObs at h
  unfold OnlyTime
  rw [h]

theorem onlyTime_ringPut (r : Rec) : OnlyTime s (s.ringPut r) := by
  unfold State.ringPut
  split
  · rfl
  · exact ((onlyObs_silDrop s _).trans (onlyObs_count _ _)).later

theorem onlyObs_holdPut (r : Rec) : OnlyObs s (s.holdPut r) := by
  unfold State.holdPut
  dsimp only
  split
  · rfl
  · split
    · exact onlyObs_vaultPut s r
    · exact ((onlyObs_setSil s _).trans (onlyObs_postSec _ _ _ _ _)).trans (onlyObs_count _ _)
    · exact ((onlyObs_setSil s _).trans (onlyObs_postSec _ _ _ _ _)).trans (onlyObs_count _ _)

theorem onlyTime_ringMove : OnlyTime s s.ringMove := by
  unfold State.ringMove
  dsimp only
  split
  · split
    · exact ((onlyObs_setSil s _).trans (onlyObs_holdPut _ _)).later
    · rfl
  · split
    · exact OnlyTime.ite ((onlyObs_setSil s _).trans (onlyObs_vaultPut _ _)).later ((onlyObs_setSil s _).later.trans (onlyTime_ringPut _ _))
    · exact OnlyTime.ite ((onlyObs_setSil s _).trans (onlyObs_vaultPut _ _)).later ((onlyObs_setSil s _).later.trans (onlyTime_ringPut _ _))
    · rfl

theorem onlyObs_setEvqX (x : EvqSt) : OnlyObs s (s.setEvqX x) := by
  unfold State.setEvqX
  exact OnlyObs.ite rfl rfl

theorem onlyObs_evqMove : OnlyObs s s.evqMove := by
  unfold State.evqMove
  dsimp only
  split
  · rfl
  · refine OnlyObs.ite (onlyObs_setEvqX s _) (OnlyObs.ite ?_ rfl)
    split
    · exact (onlyObs_setEvqX s _).trans (onlyObs_evqLose _ _)
    · rfl

theorem onlyTime_moves (n : Nat) : OnlyTime s (State.moves n s) := by
  induction n generalizing s with
  | zero => rfl
  | succ n ih => exact ((onlyTime_ringMove s).trans (onlyObs_evqMove _).later).trans (ih _)

theorem onlyTime_settle : OnlyTime s s.settle := by
  unfold State.settle
  refine OnlyTime.ite rfl ?_
  refine OnlyTime.trans ?_ (onlyObs_flush _).later
  exact OnlyTime.trans (t := { s with time := s.time + cycle }) rfl (onlyTime_moves _ _)

/-- The passing of time changes only device time, `obs` and the SRAM window. -/
theorem onlyTime_advance (n : Nat) : OnlyTime s (s.advance n) := by
  unfold State.advance
  refine OnlyTime.ite rfl ?_
  dsimp only
  refine OnlyTime.trans ?_ (onlyObs_setTrc _ _).later
  have h : OnlyTime s (if s.time + cycle ≤ n then s.settle else s) := OnlyTime.ite (onlyTime_settle s) rfl
  generalize (if s.time + cycle ≤ n then s.settle else s) = u at h ⊢
  exact (h.trans (t := u) (u := { u with time := n }) rfl).trans (onlyTime_moves _ _)

theorem moves_time (n : Nat) : (State.moves n s).time = s.time := by
  induction n generalizing s with
  | zero => rfl
  | succ n ih =>
    rw [State.moves, ih]
    have h : ∀ u : State, (u.evqMove).time = u.time := fun u => by rw [onlyObs_evqMove u]
    rw [h]
    unfold State.ringMove State.ringPut
    dsimp only
    have hv : ∀ (u : State) (r : Rec), (u.vaultPut r).time = u.time := fun u r => by rw [onlyObs_vaultPut u r]
    have hh : ∀ (u : State) (r : Rec), (u.holdPut r).time = u.time := fun u r => by rw [onlyObs_holdPut u r]
    have hd : ∀ (u : State) (k : Note), (u.silDrop k).time = u.time := fun u r => by rw [onlyObs_silDrop u r]
    repeat' split
    all_goals simp [hv, hh, hd]

/-- Time moves on to the time given, never back. -/
@[simp] theorem advance_time (n : Nat) : (s.advance n).time = max s.time n := by
  unfold State.advance
  split
  · rename_i h
    exact (Nat.max_eq_left h).symm
  · rename_i h
    have hd : ∀ u : State, u.drainTrace.time = u.time := fun u => rfl
    dsimp only
    rw [hd, moves_time]
    exact (Nat.max_eq_right (Nat.le_of_lt (Nat.lt_of_not_le h))).symm

@[simp] theorem finish_keeps_all (s0 : State) :
    (finish s0 s).time = s.time ∧ (finish s0 s).regs = s.regs ∧ (finish s0 s).profiles = s.profiles ∧
    (finish s0 s).sram = s.sram ∧ (finish s0 s).gen = s.gen ∧ (finish s0 s).pwr = s.pwr ∧
    (finish s0 s).tmr = s.tmr ∧ (finish s0 s).que = s.que ∧ (finish s0 s).crc = s.crc ∧
    (finish s0 s).cfg = s.cfg ∧ (finish s0 s).hif = s.hif ∧ (finish s0 s).field = s.field ∧
    (finish s0 s).tun = s.tun ∧ (finish s0 s).rxe = s.rxe ∧ (finish s0 s).pro = s.pro ∧
    (finish s0 s).sess = s.sess ∧ (finish s0 s).overflow = s.overflow ∧ (finish s0 s).acd = s.acd ∧
    (finish s0 s).quar = s.quar ∧ (finish s0 s).kpr = s.kpr ∧ (finish s0 s).sto = s.sto ∧
    (finish s0 s).emu = s.emu ∧ (finish s0 s).cox = s.cox ∧ (finish s0 s).saf = s.saf ∧
    (finish s0 s).pins = s.pins ∧ (finish s0 s).free = s.free ∧ (finish s0 s).pending = s.pending := by
  rw [onlyObs_finish s s0]
  simp

@[simp] theorem advance_keeps_all (n : Nat) :
    (s.advance n).regs = s.regs ∧ (s.advance n).profiles = s.profiles ∧ (s.advance n).gen = s.gen ∧
    (s.advance n).pwr = s.pwr ∧ (s.advance n).tmr = s.tmr ∧ (s.advance n).que = s.que ∧
    (s.advance n).crc = s.crc ∧ (s.advance n).cfg = s.cfg ∧ (s.advance n).hif = s.hif ∧
    (s.advance n).field = s.field ∧ (s.advance n).tun = s.tun ∧ (s.advance n).rxe = s.rxe ∧
    (s.advance n).pro = s.pro ∧ (s.advance n).sess = s.sess ∧ (s.advance n).overflow = s.overflow ∧
    (s.advance n).acd = s.acd ∧ (s.advance n).quar = s.quar ∧ (s.advance n).kpr = s.kpr ∧
    (s.advance n).sto = s.sto ∧ (s.advance n).emu = s.emu ∧ (s.advance n).cox = s.cox ∧
    (s.advance n).saf = s.saf ∧ (s.advance n).pins = s.pins ∧ (s.advance n).free = s.free ∧
    (s.advance n).pending = s.pending := by
  rw [onlyTime_advance s n]
  simp

end

end Sys2Proof.Machine
end

