-- ==== Sys2Proof/Laws/Reads.lean ====
section
/-! SUPPORT. Reading a register, a port, a session after an update of another part of the state gives what it gave before. -/

namespace Sys2Proof.Machine

variable (s : State)

theorem vget_vmod_same {α : Type} {k : Nat} (v : Vector α k) (d : α) (n : Nat) (f : α → α) (h : n < k) :
    vget (vmod v d n f) d n = f (vget v d n) := by
  simp [vget, vmod, h]

theorem vget_vmod_ne {α : Type} {k : Nat} (v : Vector α k) (d : α) (n m : Nat) (f : α → α) (h : m ≠ n) :
    vget (vmod v d n f) d m = vget v d m := by
  simp [vget, vmod, Ne.symm h]

@[simp] theorem setReg_reads (a : Nat) (w : Word) :
    (∀ (m : Nat), (s.setReg a w).pf m = s.pf m) ∧ (∀ (m : Nat), (s.setReg a w).hud m = s.hud m) ∧ (∀ (m : Nat), (s.setReg a w).pr m = s.pr m) ∧
    (∀ (m : Nat), (s.setReg a w).pp m = s.pp m) ∧ (∀ (m : Nat), (s.setReg a w).pa m = s.pa m) ∧ (∀ (m : Nat), (s.setReg a w).pt m = s.pt m) ∧
    (∀ (m : Nat), (s.setReg a w).px m = s.px m) ∧ (∀ (m : Nat), (s.setReg a w).lane m = s.lane m) ∧ (∀ (m : Nat), (s.setReg a w).timer m = s.timer m) ∧
    (∀ (m : Nat), (s.setReg a w).chan m = s.chan m) ∧ (∀ (m : Nat), (s.setReg a w).pq m = s.pq m) ∧ (∀ (m : Nat), (s.setReg a w).session m = s.session m) ∧
    (∀ (a' : Nat), (s.setReg a w).sramByte a' = s.sramByte a') :=
  ⟨fun _ => rfl, fun _ => rfl, fun _ => rfl, fun _ => rfl, fun _ => rfl, fun _ => rfl, fun _ => rfl, fun _ => rfl, fun _ => rfl,
   fun _ => rfl, fun _ => rfl, fun _ => rfl, fun _ => rfl⟩

@[simp] theorem setFld_reads (a : Nat) (f : Field) (v : Nat) :
    (∀ (m : Nat), (s.setFld a f v).pf m = s.pf m) ∧ (∀ (m : Nat), (s.setFld a f v).hud m = s.hud m) ∧ (∀ (m : Nat), (s.setFld a f v).pr m = s.pr m) ∧
    (∀ (m : Nat), (s.setFld a f v).pp m = s.pp m) ∧ (∀ (m : Nat), (s.setFld a f v).pa m = s.pa m) ∧ (∀ (m : Nat), (s.setFld a f v).pt m = s.pt m) ∧
    (∀ (m : Nat), (s.setFld a f v).px m = s.px m) ∧ (∀ (m : Nat), (s.setFld a f v).lane m = s.lane m) ∧ (∀ (m : Nat), (s.setFld a f v).timer m = s.timer m) ∧
    (∀ (m : Nat), (s.setFld a f v).chan m = s.chan m) ∧ (∀ (m : Nat), (s.setFld a f v).pq m = s.pq m) ∧ (∀ (m : Nat), (s.setFld a f v).session m = s.session m) ∧
    (∀ (a' : Nat), (s.setFld a f v).sramByte a' = s.sramByte a') :=
  ⟨fun _ => rfl, fun _ => rfl, fun _ => rfl, fun _ => rfl, fun _ => rfl, fun _ => rfl, fun _ => rfl, fun _ => rfl, fun _ => rfl,
   fun _ => rfl, fun _ => rfl, fun _ => rfl, fun _ => rfl⟩

@[simp] theorem stick_reads (a : Nat) (f : Field) :
    (∀ (m : Nat), (s.stick a f).pf m = s.pf m) ∧ (∀ (m : Nat), (s.stick a f).hud m = s.hud m) ∧ (∀ (m : Nat), (s.stick a f).pr m = s.pr m) ∧
    (∀ (m : Nat), (s.stick a f).pp m = s.pp m) ∧ (∀ (m : Nat), (s.stick a f).pa m = s.pa m) ∧ (∀ (m : Nat), (s.stick a f).pt m = s.pt m) ∧
    (∀ (m : Nat), (s.stick a f).px m = s.px m) ∧ (∀ (m : Nat), (s.stick a f).lane m = s.lane m) ∧ (∀ (m : Nat), (s.stick a f).timer m = s.timer m) ∧
    (∀ (m : Nat), (s.stick a f).chan m = s.chan m) ∧ (∀ (m : Nat), (s.stick a f).pq m = s.pq m) ∧ (∀ (m : Nat), (s.stick a f).session m = s.session m) ∧
    (∀ (a' : Nat), (s.stick a f).sramByte a' = s.sramByte a') :=
  ⟨fun _ => rfl, fun _ => rfl, fun _ => rfl, fun _ => rfl, fun _ => rfl, fun _ => rfl, fun _ => rfl, fun _ => rfl, fun _ => rfl,
   fun _ => rfl, fun _ => rfl, fun _ => rfl, fun _ => rfl⟩

@[simp] theorem noteSet_reads (a : Nat) (w : Word) :
    (∀ (a' : Nat), (s.noteSet a w).reg a' = s.reg a') ∧ (∀ (a' : Nat) (f : Field), (s.noteSet a w).fld a' f = s.fld a' f) ∧ (∀ (a' : Nat) (f : Field), (s.noteSet a w).flag a' f = s.flag a' f) ∧
    (∀ (a' : Nat) (f : Field) (i : Nat), (s.noteSet a w).fldBit a' f i = s.fldBit a' f i) ∧ (∀ (m : Nat), (s.noteSet a w).role m = s.role m) ∧ (∀ (m : Nat), (s.noteSet a w).roleAsked m = s.roleAsked m) ∧
    (∀ (m : Nat), (s.noteSet a w).pf m = s.pf m) ∧ (∀ (m : Nat), (s.noteSet a w).hud m = s.hud m) ∧ (∀ (m : Nat), (s.noteSet a w).pr m = s.pr m) ∧
    (∀ (m : Nat), (s.noteSet a w).pp m = s.pp m) ∧ (∀ (m : Nat), (s.noteSet a w).pa m = s.pa m) ∧ (∀ (m : Nat), (s.noteSet a w).pt m = s.pt m) ∧
    (∀ (m : Nat), (s.noteSet a w).px m = s.px m) ∧ (∀ (m : Nat), (s.noteSet a w).lane m = s.lane m) ∧ (∀ (m : Nat), (s.noteSet a w).timer m = s.timer m) ∧
    (∀ (m : Nat), (s.noteSet a w).chan m = s.chan m) ∧ (∀ (m : Nat), (s.noteSet a w).pq m = s.pq m) ∧ (∀ (m : Nat), (s.noteSet a w).session m = s.session m) ∧
    (∀ (a' : Nat), (s.noteSet a w).sramByte a' = s.sramByte a') :=
  ⟨fun _ => rfl, fun _ _ => rfl, fun _ _ => rfl, fun _ _ _ => rfl, fun _ => rfl, fun _ => rfl, fun _ => rfl, fun _ => rfl, fun _ => rfl,
   fun _ => rfl, fun _ => rfl, fun _ => rfl, fun _ => rfl, fun _ => rfl, fun _ => rfl, fun _ => rfl, fun _ => rfl, fun _ => rfl,
   fun _ => rfl⟩

@[simp] theorem stickBit_reads (a : Nat) (f : Field) (i : Nat) :
    (∀ (m : Nat), (s.stickBit a f i).pf m = s.pf m) ∧ (∀ (m : Nat), (s.stickBit a f i).hud m = s.hud m) ∧ (∀ (m : Nat), (s.stickBit a f i).pr m = s.pr m) ∧
    (∀ (m : Nat), (s.stickBit a f i).pp m = s.pp m) ∧ (∀ (m : Nat), (s.stickBit a f i).pa m = s.pa m) ∧ (∀ (m : Nat), (s.stickBit a f i).pt m = s.pt m) ∧
    (∀ (m : Nat), (s.stickBit a f i).px m = s.px m) ∧ (∀ (m : Nat), (s.stickBit a f i).lane m = s.lane m) ∧ (∀ (m : Nat), (s.stickBit a f i).timer m = s.timer m) ∧
    (∀ (m : Nat), (s.stickBit a f i).chan m = s.chan m) ∧ (∀ (m : Nat), (s.stickBit a f i).pq m = s.pq m) ∧ (∀ (m : Nat), (s.stickBit a f i).session m = s.session m) ∧
    (∀ (a' : Nat), (s.stickBit a f i).sramByte a' = s.sramByte a') :=
  ⟨fun _ => rfl, fun _ => rfl, fun _ => rfl, fun _ => rfl, fun _ => rfl, fun _ => rfl, fun _ => rfl, fun _ => rfl, fun _ => rfl,
   fun _ => rfl, fun _ => rfl, fun _ => rfl, fun _ => rfl⟩

@[simp] theorem bumpBy_reads (a : Nat) (f : Field) (n : Nat) :
    (∀ (m : Nat), (s.bumpBy a f n).pf m = s.pf m) ∧ (∀ (m : Nat), (s.bumpBy a f n).hud m = s.hud m) ∧ (∀ (m : Nat), (s.bumpBy a f n).pr m = s.pr m) ∧
    (∀ (m : Nat), (s.bumpBy a f n).pp m = s.pp m) ∧ (∀ (m : Nat), (s.bumpBy a f n).pa m = s.pa m) ∧ (∀ (m : Nat), (s.bumpBy a f n).pt m = s.pt m) ∧
    (∀ (m : Nat), (s.bumpBy a f n).px m = s.px m) ∧ (∀ (m : Nat), (s.bumpBy a f n).lane m = s.lane m) ∧ (∀ (m : Nat), (s.bumpBy a f n).timer m = s.timer m) ∧
    (∀ (m : Nat), (s.bumpBy a f n).chan m = s.chan m) ∧ (∀ (m : Nat), (s.bumpBy a f n).pq m = s.pq m) ∧ (∀ (m : Nat), (s.bumpBy a f n).session m = s.session m) ∧
    (∀ (a' : Nat), (s.bumpBy a f n).sramByte a' = s.sramByte a') :=
  ⟨fun _ => rfl, fun _ => rfl, fun _ => rfl, fun _ => rfl, fun _ => rfl, fun _ => rfl, fun _ => rfl, fun _ => rfl, fun _ => rfl,
   fun _ => rfl, fun _ => rfl, fun _ => rfl, fun _ => rfl⟩

@[simp] theorem bump_reads (a : Nat) (f : Field) :
    (∀ (m : Nat), (s.bump a f).pf m = s.pf m) ∧ (∀ (m : Nat), (s.bump a f).hud m = s.hud m) ∧ (∀ (m : Nat), (s.bump a f).pr m = s.pr m) ∧
    (∀ (m : Nat), (s.bump a f).pp m = s.pp m) ∧ (∀ (m : Nat), (s.bump a f).pa m = s.pa m) ∧ (∀ (m : Nat), (s.bump a f).pt m = s.pt m) ∧
    (∀ (m : Nat), (s.bump a f).px m = s.px m) ∧ (∀ (m : Nat), (s.bump a f).lane m = s.lane m) ∧ (∀ (m : Nat), (s.bump a f).timer m = s.timer m) ∧
    (∀ (m : Nat), (s.bump a f).chan m = s.chan m) ∧ (∀ (m : Nat), (s.bump a f).pq m = s.pq m) ∧ (∀ (m : Nat), (s.bump a f).session m = s.session m) ∧
    (∀ (a' : Nat), (s.bump a f).sramByte a' = s.sramByte a') :=
  ⟨fun _ => rfl, fun _ => rfl, fun _ => rfl, fun _ => rfl, fun _ => rfl, fun _ => rfl, fun _ => rfl, fun _ => rfl, fun _ => rfl,
   fun _ => rfl, fun _ => rfl, fun _ => rfl, fun _ => rfl⟩

@[simp] theorem setFldBit_reads (a : Nat) (f : Field) (i : Nat) (b : Bool) :
    (∀ (m : Nat), (s.setFldBit a f i b).pf m = s.pf m) ∧ (∀ (m : Nat), (s.setFldBit a f i b).hud m = s.hud m) ∧ (∀ (m : Nat), (s.setFldBit a f i b).pr m = s.pr m) ∧
    (∀ (m : Nat), (s.setFldBit a f i b).pp m = s.pp m) ∧ (∀ (m : Nat), (s.setFldBit a f i b).pa m = s.pa m) ∧ (∀ (m : Nat), (s.setFldBit a f i b).pt m = s.pt m) ∧
    (∀ (m : Nat), (s.setFldBit a f i b).px m = s.px m) ∧ (∀ (m : Nat), (s.setFldBit a f i b).lane m = s.lane m) ∧ (∀ (m : Nat), (s.setFldBit a f i b).timer m = s.timer m) ∧
    (∀ (m : Nat), (s.setFldBit a f i b).chan m = s.chan m) ∧ (∀ (m : Nat), (s.setFldBit a f i b).pq m = s.pq m) ∧ (∀ (m : Nat), (s.setFldBit a f i b).session m = s.session m) ∧
    (∀ (a' : Nat), (s.setFldBit a f i b).sramByte a' = s.sramByte a') :=
  ⟨fun _ => rfl, fun _ => rfl, fun _ => rfl, fun _ => rfl, fun _ => rfl, fun _ => rfl, fun _ => rfl, fun _ => rfl, fun _ => rfl,
   fun _ => rfl, fun _ => rfl, fun _ => rfl, fun _ => rfl⟩

@[simp] theorem sramWrite_reads (a : Nat) (l : List Byte) :
    (∀ (a' : Nat), (s.sramWrite a l).reg a' = s.reg a') ∧ (∀ (a' : Nat) (f : Field), (s.sramWrite a l).fld a' f = s.fld a' f) ∧ (∀ (a' : Nat) (f : Field), (s.sramWrite a l).flag a' f = s.flag a' f) ∧
    (∀ (a' : Nat) (f : Field) (i : Nat), (s.sramWrite a l).fldBit a' f i = s.fldBit a' f i) ∧ (∀ (m : Nat), (s.sramWrite a l).role m = s.role m) ∧ (∀ (m : Nat), (s.sramWrite a l).roleAsked m = s.roleAsked m) ∧
    (∀ (m : Nat), (s.sramWrite a l).pf m = s.pf m) ∧ (∀ (m : Nat), (s.sramWrite a l).hud m = s.hud m) ∧ (∀ (m : Nat), (s.sramWrite a l).pr m = s.pr m) ∧
    (∀ (m : Nat), (s.sramWrite a l).pp m = s.pp m) ∧ (∀ (m : Nat), (s.sramWrite a l).pa m = s.pa m) ∧ (∀ (m : Nat), (s.sramWrite a l).pt m = s.pt m) ∧
    (∀ (m : Nat), (s.sramWrite a l).px m = s.px m) ∧ (∀ (m : Nat), (s.sramWrite a l).lane m = s.lane m) ∧ (∀ (m : Nat), (s.sramWrite a l).timer m = s.timer m) ∧
    (∀ (m : Nat), (s.sramWrite a l).chan m = s.chan m) ∧ (∀ (m : Nat), (s.sramWrite a l).pq m = s.pq m) ∧ (∀ (m : Nat), (s.sramWrite a l).session m = s.session m) :=
  ⟨fun _ => rfl, fun _ _ => rfl, fun _ _ => rfl, fun _ _ _ => rfl, fun _ => rfl, fun _ => rfl, fun _ => rfl, fun _ => rfl, fun _ => rfl,
   fun _ => rfl, fun _ => rfl, fun _ => rfl, fun _ => rfl, fun _ => rfl, fun _ => rfl, fun _ => rfl, fun _ => rfl, fun _ => rfl⟩

@[simp] theorem countBy_reads (i n : Nat) :
    (∀ (a : Nat), (s.countBy i n).reg a = s.reg a) ∧ (∀ (a : Nat) (f : Field), (s.countBy i n).fld a f = s.fld a f) ∧ (∀ (a : Nat) (f : Field), (s.countBy i n).flag a f = s.flag a f) ∧
    (∀ (a : Nat) (f : Field) (i' : Nat), (s.countBy i n).fldBit a f i' = s.fldBit a f i') ∧ (∀ (m : Nat), (s.countBy i n).role m = s.role m) ∧ (∀ (m : Nat), (s.countBy i n).roleAsked m = s.roleAsked m) ∧
    (∀ (m : Nat), (s.countBy i n).pf m = s.pf m) ∧ (∀ (m : Nat), (s.countBy i n).hud m = s.hud m) ∧ (∀ (m : Nat), (s.countBy i n).pr m = s.pr m) ∧
    (∀ (m : Nat), (s.countBy i n).pp m = s.pp m) ∧ (∀ (m : Nat), (s.countBy i n).pa m = s.pa m) ∧ (∀ (m : Nat), (s.countBy i n).pt m = s.pt m) ∧
    (∀ (m : Nat), (s.countBy i n).px m = s.px m) ∧ (∀ (m : Nat), (s.countBy i n).lane m = s.lane m) ∧ (∀ (m : Nat), (s.countBy i n).timer m = s.timer m) ∧
    (∀ (m : Nat), (s.countBy i n).chan m = s.chan m) ∧ (∀ (m : Nat), (s.countBy i n).pq m = s.pq m) ∧ (∀ (m : Nat), (s.countBy i n).session m = s.session m) ∧
    (∀ (a : Nat), (s.countBy i n).sramByte a = s.sramByte a) :=
  ⟨fun _ => rfl, fun _ _ => rfl, fun _ _ => rfl, fun _ _ _ => rfl, fun _ => rfl, fun _ => rfl, fun _ => rfl, fun _ => rfl, fun _ => rfl,
   fun _ => rfl, fun _ => rfl, fun _ => rfl, fun _ => rfl, fun _ => rfl, fun _ => rfl, fun _ => rfl, fun _ => rfl, fun _ => rfl,
   fun _ => rfl⟩

@[simp] theorem count_reads (i : Nat) :
    (∀ (a : Nat), (s.count i).reg a = s.reg a) ∧ (∀ (a : Nat) (f : Field), (s.count i).fld a f = s.fld a f) ∧ (∀ (a : Nat) (f : Field), (s.count i).flag a f = s.flag a f) ∧
    (∀ (a : Nat) (f : Field) (i' : Nat), (s.count i).fldBit a f i' = s.fldBit a f i') ∧ (∀ (m : Nat), (s.count i).role m = s.role m) ∧ (∀ (m : Nat), (s.count i).roleAsked m = s.roleAsked m) ∧
    (∀ (m : Nat), (s.count i).pf m = s.pf m) ∧ (∀ (m : Nat), (s.count i).hud m = s.hud m) ∧ (∀ (m : Nat), (s.count i).pr m = s.pr m) ∧
    (∀ (m : Nat), (s.count i).pp m = s.pp m) ∧ (∀ (m : Nat), (s.count i).pa m = s.pa m) ∧ (∀ (m : Nat), (s.count i).pt m = s.pt m) ∧
    (∀ (m : Nat), (s.count i).px m = s.px m) ∧ (∀ (m : Nat), (s.count i).lane m = s.lane m) ∧ (∀ (m : Nat), (s.count i).timer m = s.timer m) ∧
    (∀ (m : Nat), (s.count i).chan m = s.chan m) ∧ (∀ (m : Nat), (s.count i).pq m = s.pq m) ∧ (∀ (m : Nat), (s.count i).session m = s.session m) ∧
    (∀ (a : Nat), (s.count i).sramByte a = s.sramByte a) :=
  ⟨fun _ => rfl, fun _ _ => rfl, fun _ _ => rfl, fun _ _ _ => rfl, fun _ => rfl, fun _ => rfl, fun _ => rfl, fun _ => rfl, fun _ => rfl,
   fun _ => rfl, fun _ => rfl, fun _ => rfl, fun _ => rfl, fun _ => rfl, fun _ => rfl, fun _ => rfl, fun _ => rfl, fun _ => rfl,
   fun _ => rfl⟩

@[simp] theorem refuse_reads (b : Nat) :
    (∀ (a : Nat), (s.refuse b).reg a = s.reg a) ∧ (∀ (a : Nat) (f : Field), (s.refuse b).fld a f = s.fld a f) ∧ (∀ (a : Nat) (f : Field), (s.refuse b).flag a f = s.flag a f) ∧
    (∀ (a : Nat) (f : Field) (i : Nat), (s.refuse b).fldBit a f i = s.fldBit a f i) ∧ (∀ (m : Nat), (s.refuse b).role m = s.role m) ∧ (∀ (m : Nat), (s.refuse b).roleAsked m = s.roleAsked m) ∧
    (∀ (m : Nat), (s.refuse b).pf m = s.pf m) ∧ (∀ (m : Nat), (s.refuse b).hud m = s.hud m) ∧ (∀ (m : Nat), (s.refuse b).pr m = s.pr m) ∧
    (∀ (m : Nat), (s.refuse b).pp m = s.pp m) ∧ (∀ (m : Nat), (s.refuse b).pa m = s.pa m) ∧ (∀ (m : Nat), (s.refuse b).pt m = s.pt m) ∧
    (∀ (m : Nat), (s.refuse b).px m = s.px m) ∧ (∀ (m : Nat), (s.refuse b).lane m = s.lane m) ∧ (∀ (m : Nat), (s.refuse b).timer m = s.timer m) ∧
    (∀ (m : Nat), (s.refuse b).chan m = s.chan m) ∧ (∀ (m : Nat), (s.refuse b).pq m = s.pq m) ∧ (∀ (m : Nat), (s.refuse b).session m = s.session m) ∧
    (∀ (a : Nat), (s.refuse b).sramByte a = s.sramByte a) :=
  ⟨fun _ => rfl, fun _ _ => rfl, fun _ _ => rfl, fun _ _ _ => rfl, fun _ => rfl, fun _ => rfl, fun _ => rfl, fun _ => rfl, fun _ => rfl,
   fun _ => rfl, fun _ => rfl, fun _ => rfl, fun _ => rfl, fun _ => rfl, fun _ => rfl, fun _ => rfl, fun _ => rfl, fun _ => rfl,
   fun _ => rfl⟩

@[simp] theorem postEvent_reads (e : Event) :
    (∀ (a : Nat), (s.postEvent e).reg a = s.reg a) ∧ (∀ (a : Nat) (f : Field), (s.postEvent e).fld a f = s.fld a f) ∧ (∀ (a : Nat) (f : Field), (s.postEvent e).flag a f = s.flag a f) ∧
    (∀ (a : Nat) (f : Field) (i : Nat), (s.postEvent e).fldBit a f i = s.fldBit a f i) ∧ (∀ (m : Nat), (s.postEvent e).role m = s.role m) ∧ (∀ (m : Nat), (s.postEvent e).roleAsked m = s.roleAsked m) ∧
    (∀ (m : Nat), (s.postEvent e).pf m = s.pf m) ∧ (∀ (m : Nat), (s.postEvent e).hud m = s.hud m) ∧ (∀ (m : Nat), (s.postEvent e).pr m = s.pr m) ∧
    (∀ (m : Nat), (s.postEvent e).pp m = s.pp m) ∧ (∀ (m : Nat), (s.postEvent e).pa m = s.pa m) ∧ (∀ (m : Nat), (s.postEvent e).pt m = s.pt m) ∧
    (∀ (m : Nat), (s.postEvent e).px m = s.px m) ∧ (∀ (m : Nat), (s.postEvent e).lane m = s.lane m) ∧ (∀ (m : Nat), (s.postEvent e).timer m = s.timer m) ∧
    (∀ (m : Nat), (s.postEvent e).chan m = s.chan m) ∧ (∀ (m : Nat), (s.postEvent e).pq m = s.pq m) ∧ (∀ (m : Nat), (s.postEvent e).session m = s.session m) ∧
    (∀ (a : Nat), (s.postEvent e).sramByte a = s.sramByte a) :=
  ⟨fun _ => rfl, fun _ _ => rfl, fun _ _ => rfl, fun _ _ _ => rfl, fun _ => rfl, fun _ => rfl, fun _ => rfl, fun _ => rfl, fun _ => rfl,
   fun _ => rfl, fun _ => rfl, fun _ => rfl, fun _ => rfl, fun _ => rfl, fun _ => rfl, fun _ => rfl, fun _ => rfl, fun _ => rfl,
   fun _ => rfl⟩

@[simp] theorem post_reads (c : Nat) (k : Note) (a : Nat) :
    (∀ (a' : Nat), (s.post c k a).reg a' = s.reg a') ∧ (∀ (a' : Nat) (f : Field), (s.post c k a).fld a' f = s.fld a' f) ∧ (∀ (a' : Nat) (f : Field), (s.post c k a).flag a' f = s.flag a' f) ∧
    (∀ (a' : Nat) (f : Field) (i : Nat), (s.post c k a).fldBit a' f i = s.fldBit a' f i) ∧ (∀ (m : Nat), (s.post c k a).role m = s.role m) ∧ (∀ (m : Nat), (s.post c k a).roleAsked m = s.roleAsked m) ∧
    (∀ (m : Nat), (s.post c k a).pf m = s.pf m) ∧ (∀ (m : Nat), (s.post c k a).hud m = s.hud m) ∧ (∀ (m : Nat), (s.post c k a).pr m = s.pr m) ∧
    (∀ (m : Nat), (s.post c k a).pp m = s.pp m) ∧ (∀ (m : Nat), (s.post c k a).pa m = s.pa m) ∧ (∀ (m : Nat), (s.post c k a).pt m = s.pt m) ∧
    (∀ (m : Nat), (s.post c k a).px m = s.px m) ∧ (∀ (m : Nat), (s.post c k a).lane m = s.lane m) ∧ (∀ (m : Nat), (s.post c k a).timer m = s.timer m) ∧
    (∀ (m : Nat), (s.post c k a).chan m = s.chan m) ∧ (∀ (m : Nat), (s.post c k a).pq m = s.pq m) ∧ (∀ (m : Nat), (s.post c k a).session m = s.session m) ∧
    (∀ (a' : Nat), (s.post c k a).sramByte a' = s.sramByte a') :=
  ⟨fun _ => rfl, fun _ _ => rfl, fun _ _ => rfl, fun _ _ _ => rfl, fun _ => rfl, fun _ => rfl, fun _ => rfl, fun _ => rfl, fun _ => rfl,
   fun _ => rfl, fun _ => rfl, fun _ => rfl, fun _ => rfl, fun _ => rfl, fun _ => rfl, fun _ => rfl, fun _ => rfl, fun _ => rfl,
   fun _ => rfl⟩

@[simp] theorem postCount_reads (w : Window) (n : Nat) :
    (∀ (a : Nat), (s.postCount w n).reg a = s.reg a) ∧ (∀ (a : Nat) (f : Field), (s.postCount w n).fld a f = s.fld a f) ∧ (∀ (a : Nat) (f : Field), (s.postCount w n).flag a f = s.flag a f) ∧
    (∀ (a : Nat) (f : Field) (i : Nat), (s.postCount w n).fldBit a f i = s.fldBit a f i) ∧ (∀ (m : Nat), (s.postCount w n).role m = s.role m) ∧ (∀ (m : Nat), (s.postCount w n).roleAsked m = s.roleAsked m) ∧
    (∀ (m : Nat), (s.postCount w n).pf m = s.pf m) ∧ (∀ (m : Nat), (s.postCount w n).hud m = s.hud m) ∧ (∀ (m : Nat), (s.postCount w n).pr m = s.pr m) ∧
    (∀ (m : Nat), (s.postCount w n).pp m = s.pp m) ∧ (∀ (m : Nat), (s.postCount w n).pa m = s.pa m) ∧ (∀ (m : Nat), (s.postCount w n).pt m = s.pt m) ∧
    (∀ (m : Nat), (s.postCount w n).px m = s.px m) ∧ (∀ (m : Nat), (s.postCount w n).lane m = s.lane m) ∧ (∀ (m : Nat), (s.postCount w n).timer m = s.timer m) ∧
    (∀ (m : Nat), (s.postCount w n).chan m = s.chan m) ∧ (∀ (m : Nat), (s.postCount w n).pq m = s.pq m) ∧ (∀ (m : Nat), (s.postCount w n).session m = s.session m) ∧
    (∀ (a : Nat), (s.postCount w n).sramByte a = s.sramByte a) :=
  ⟨fun _ => rfl, fun _ _ => rfl, fun _ _ => rfl, fun _ _ _ => rfl, fun _ => rfl, fun _ => rfl, fun _ => rfl, fun _ => rfl, fun _ => rfl,
   fun _ => rfl, fun _ => rfl, fun _ => rfl, fun _ => rfl, fun _ => rfl, fun _ => rfl, fun _ => rfl, fun _ => rfl, fun _ => rfl,
   fun _ => rfl⟩

@[simp] theorem setWins_reads (l : List Window) :
    (∀ (a : Nat), (s.setWins l).reg a = s.reg a) ∧ (∀ (a : Nat) (f : Field), (s.setWins l).fld a f = s.fld a f) ∧ (∀ (a : Nat) (f : Field), (s.setWins l).flag a f = s.flag a f) ∧
    (∀ (a : Nat) (f : Field) (i : Nat), (s.setWins l).fldBit a f i = s.fldBit a f i) ∧ (∀ (m : Nat), (s.setWins l).role m = s.role m) ∧ (∀ (m : Nat), (s.setWins l).roleAsked m = s.roleAsked m) ∧
    (∀ (m : Nat), (s.setWins l).pf m = s.pf m) ∧ (∀ (m : Nat), (s.setWins l).hud m = s.hud m) ∧ (∀ (m : Nat), (s.setWins l).pr m = s.pr m) ∧
    (∀ (m : Nat), (s.setWins l).pp m = s.pp m) ∧ (∀ (m : Nat), (s.setWins l).pa m = s.pa m) ∧ (∀ (m : Nat), (s.setWins l).pt m = s.pt m) ∧
    (∀ (m : Nat), (s.setWins l).px m = s.px m) ∧ (∀ (m : Nat), (s.setWins l).lane m = s.lane m) ∧ (∀ (m : Nat), (s.setWins l).timer m = s.timer m) ∧
    (∀ (m : Nat), (s.setWins l).chan m = s.chan m) ∧ (∀ (m : Nat), (s.setWins l).pq m = s.pq m) ∧ (∀ (m : Nat), (s.setWins l).session m = s.session m) ∧
    (∀ (a : Nat), (s.setWins l).sramByte a = s.sramByte a) :=
  ⟨fun _ => rfl, fun _ _ => rfl, fun _ _ => rfl, fun _ _ _ => rfl, fun _ => rfl, fun _ => rfl, fun _ => rfl, fun _ => rfl, fun _ => rfl,
   fun _ => rfl, fun _ => rfl, fun _ => rfl, fun _ => rfl, fun _ => rfl, fun _ => rfl, fun _ => rfl, fun _ => rfl, fun _ => rfl,
   fun _ => rfl⟩

@[simp] theorem setSil_reads (x : SilSt) :
    (∀ (a : Nat), (s.setSil x).reg a = s.reg a) ∧ (∀ (a : Nat) (f : Field), (s.setSil x).fld a f = s.fld a f) ∧ (∀ (a : Nat) (f : Field), (s.setSil x).flag a f = s.flag a f) ∧
    (∀ (a : Nat) (f : Field) (i : Nat), (s.setSil x).fldBit a f i = s.fldBit a f i) ∧ (∀ (m : Nat), (s.setSil x).role m = s.role m) ∧ (∀ (m : Nat), (s.setSil x).roleAsked m = s.roleAsked m) ∧
    (∀ (m : Nat), (s.setSil x).pf m = s.pf m) ∧ (∀ (m : Nat), (s.setSil x).hud m = s.hud m) ∧ (∀ (m : Nat), (s.setSil x).pr m = s.pr m) ∧
    (∀ (m : Nat), (s.setSil x).pp m = s.pp m) ∧ (∀ (m : Nat), (s.setSil x).pa m = s.pa m) ∧ (∀ (m : Nat), (s.setSil x).pt m = s.pt m) ∧
    (∀ (m : Nat), (s.setSil x).px m = s.px m) ∧ (∀ (m : Nat), (s.setSil x).lane m = s.lane m) ∧ (∀ (m : Nat), (s.setSil x).timer m = s.timer m) ∧
    (∀ (m : Nat), (s.setSil x).chan m = s.chan m) ∧ (∀ (m : Nat), (s.setSil x).pq m = s.pq m) ∧ (∀ (m : Nat), (s.setSil x).session m = s.session m) ∧
    (∀ (a : Nat), (s.setSil x).sramByte a = s.sramByte a) :=
  ⟨fun _ => rfl, fun _ _ => rfl, fun _ _ => rfl, fun _ _ _ => rfl, fun _ => rfl, fun _ => rfl, fun _ => rfl, fun _ => rfl, fun _ => rfl,
   fun _ => rfl, fun _ => rfl, fun _ => rfl, fun _ => rfl, fun _ => rfl, fun _ => rfl, fun _ => rfl, fun _ => rfl, fun _ => rfl,
   fun _ => rfl⟩

@[simp] theorem setEvq_reads (x : EvqSt) :
    (∀ (a : Nat), (s.setEvq x).reg a = s.reg a) ∧ (∀ (a : Nat) (f : Field), (s.setEvq x).fld a f = s.fld a f) ∧ (∀ (a : Nat) (f : Field), (s.setEvq x).flag a f = s.flag a f) ∧
    (∀ (a : Nat) (f : Field) (i : Nat), (s.setEvq x).fldBit a f i = s.fldBit a f i) ∧ (∀ (m : Nat), (s.setEvq x).role m = s.role m) ∧ (∀ (m : Nat), (s.setEvq x).roleAsked m = s.roleAsked m) ∧
    (∀ (m : Nat), (s.setEvq x).pf m = s.pf m) ∧ (∀ (m : Nat), (s.setEvq x).hud m = s.hud m) ∧ (∀ (m : Nat), (s.setEvq x).pr m = s.pr m) ∧
    (∀ (m : Nat), (s.setEvq x).pp m = s.pp m) ∧ (∀ (m : Nat), (s.setEvq x).pa m = s.pa m) ∧ (∀ (m : Nat), (s.setEvq x).pt m = s.pt m) ∧
    (∀ (m : Nat), (s.setEvq x).px m = s.px m) ∧ (∀ (m : Nat), (s.setEvq x).lane m = s.lane m) ∧ (∀ (m : Nat), (s.setEvq x).timer m = s.timer m) ∧
    (∀ (m : Nat), (s.setEvq x).chan m = s.chan m) ∧ (∀ (m : Nat), (s.setEvq x).pq m = s.pq m) ∧ (∀ (m : Nat), (s.setEvq x).session m = s.session m) ∧
    (∀ (a : Nat), (s.setEvq x).sramByte a = s.sramByte a) :=
  ⟨fun _ => rfl, fun _ _ => rfl, fun _ _ => rfl, fun _ _ _ => rfl, fun _ => rfl, fun _ => rfl, fun _ => rfl, fun _ => rfl, fun _ => rfl,
   fun _ => rfl, fun _ => rfl, fun _ => rfl, fun _ => rfl, fun _ => rfl, fun _ => rfl, fun _ => rfl, fun _ => rfl, fun _ => rfl,
   fun _ => rfl⟩

@[simp] theorem setTrc_reads (x : TrcSt) :
    (∀ (a : Nat), (s.setTrc x).reg a = s.reg a) ∧ (∀ (a : Nat) (f : Field), (s.setTrc x).fld a f = s.fld a f) ∧ (∀ (a : Nat) (f : Field), (s.setTrc x).flag a f = s.flag a f) ∧
    (∀ (a : Nat) (f : Field) (i : Nat), (s.setTrc x).fldBit a f i = s.fldBit a f i) ∧ (∀ (m : Nat), (s.setTrc x).role m = s.role m) ∧ (∀ (m : Nat), (s.setTrc x).roleAsked m = s.roleAsked m) ∧
    (∀ (m : Nat), (s.setTrc x).pf m = s.pf m) ∧ (∀ (m : Nat), (s.setTrc x).hud m = s.hud m) ∧ (∀ (m : Nat), (s.setTrc x).pr m = s.pr m) ∧
    (∀ (m : Nat), (s.setTrc x).pp m = s.pp m) ∧ (∀ (m : Nat), (s.setTrc x).pa m = s.pa m) ∧ (∀ (m : Nat), (s.setTrc x).pt m = s.pt m) ∧
    (∀ (m : Nat), (s.setTrc x).px m = s.px m) ∧ (∀ (m : Nat), (s.setTrc x).lane m = s.lane m) ∧ (∀ (m : Nat), (s.setTrc x).timer m = s.timer m) ∧
    (∀ (m : Nat), (s.setTrc x).chan m = s.chan m) ∧ (∀ (m : Nat), (s.setTrc x).pq m = s.pq m) ∧ (∀ (m : Nat), (s.setTrc x).session m = s.session m) ∧
    (∀ (a : Nat), (s.setTrc x).sramByte a = s.sramByte a) :=
  ⟨fun _ => rfl, fun _ _ => rfl, fun _ _ => rfl, fun _ _ _ => rfl, fun _ => rfl, fun _ => rfl, fun _ => rfl, fun _ => rfl, fun _ => rfl,
   fun _ => rfl, fun _ => rfl, fun _ => rfl, fun _ => rfl, fun _ => rfl, fun _ => rfl, fun _ => rfl, fun _ => rfl, fun _ => rfl,
   fun _ => rfl⟩

@[simp] theorem modWm_reads (n : Nat) (f : PortWm → PortWm) :
    (∀ (a : Nat), (s.modWm n f).reg a = s.reg a) ∧ (∀ (a : Nat) (f' : Field), (s.modWm n f).fld a f' = s.fld a f') ∧ (∀ (a : Nat) (f' : Field), (s.modWm n f).flag a f' = s.flag a f') ∧
    (∀ (a : Nat) (f' : Field) (i : Nat), (s.modWm n f).fldBit a f' i = s.fldBit a f' i) ∧ (∀ (m : Nat), (s.modWm n f).role m = s.role m) ∧ (∀ (m : Nat), (s.modWm n f).roleAsked m = s.roleAsked m) ∧
    (∀ (m : Nat), (s.modWm n f).pf m = s.pf m) ∧ (∀ (m : Nat), (s.modWm n f).hud m = s.hud m) ∧ (∀ (m : Nat), (s.modWm n f).pr m = s.pr m) ∧
    (∀ (m : Nat), (s.modWm n f).pp m = s.pp m) ∧ (∀ (m : Nat), (s.modWm n f).pa m = s.pa m) ∧ (∀ (m : Nat), (s.modWm n f).pt m = s.pt m) ∧
    (∀ (m : Nat), (s.modWm n f).px m = s.px m) ∧ (∀ (m : Nat), (s.modWm n f).lane m = s.lane m) ∧ (∀ (m : Nat), (s.modWm n f).timer m = s.timer m) ∧
    (∀ (m : Nat), (s.modWm n f).chan m = s.chan m) ∧ (∀ (m : Nat), (s.modWm n f).pq m = s.pq m) ∧ (∀ (m : Nat), (s.modWm n f).session m = s.session m) ∧
    (∀ (a : Nat), (s.modWm n f).sramByte a = s.sramByte a) :=
  ⟨fun _ => rfl, fun _ _ => rfl, fun _ _ => rfl, fun _ _ _ => rfl, fun _ => rfl, fun _ => rfl, fun _ => rfl, fun _ => rfl, fun _ => rfl,
   fun _ => rfl, fun _ => rfl, fun _ => rfl, fun _ => rfl, fun _ => rfl, fun _ => rfl, fun _ => rfl, fun _ => rfl, fun _ => rfl,
   fun _ => rfl⟩

@[simp] theorem modCapt_reads (k : Nat) (f : Capt → Capt) :
    (∀ (a : Nat), (s.modCapt k f).reg a = s.reg a) ∧ (∀ (a : Nat) (f' : Field), (s.modCapt k f).fld a f' = s.fld a f') ∧ (∀ (a : Nat) (f' : Field), (s.modCapt k f).flag a f' = s.flag a f') ∧
    (∀ (a : Nat) (f' : Field) (i : Nat), (s.modCapt k f).fldBit a f' i = s.fldBit a f' i) ∧ (∀ (m : Nat), (s.modCapt k f).role m = s.role m) ∧ (∀ (m : Nat), (s.modCapt k f).roleAsked m = s.roleAsked m) ∧
    (∀ (m : Nat), (s.modCapt k f).pf m = s.pf m) ∧ (∀ (m : Nat), (s.modCapt k f).hud m = s.hud m) ∧ (∀ (m : Nat), (s.modCapt k f).pr m = s.pr m) ∧
    (∀ (m : Nat), (s.modCapt k f).pp m = s.pp m) ∧ (∀ (m : Nat), (s.modCapt k f).pa m = s.pa m) ∧ (∀ (m : Nat), (s.modCapt k f).pt m = s.pt m) ∧
    (∀ (m : Nat), (s.modCapt k f).px m = s.px m) ∧ (∀ (m : Nat), (s.modCapt k f).lane m = s.lane m) ∧ (∀ (m : Nat), (s.modCapt k f).timer m = s.timer m) ∧
    (∀ (m : Nat), (s.modCapt k f).chan m = s.chan m) ∧ (∀ (m : Nat), (s.modCapt k f).pq m = s.pq m) ∧ (∀ (m : Nat), (s.modCapt k f).session m = s.session m) ∧
    (∀ (a : Nat), (s.modCapt k f).sramByte a = s.sramByte a) :=
  ⟨fun _ => rfl, fun _ _ => rfl, fun _ _ => rfl, fun _ _ _ => rfl, fun _ => rfl, fun _ => rfl, fun _ => rfl, fun _ => rfl, fun _ => rfl,
   fun _ => rfl, fun _ => rfl, fun _ => rfl, fun _ => rfl, fun _ => rfl, fun _ => rfl, fun _ => rfl, fun _ => rfl, fun _ => rfl,
   fun _ => rfl⟩

@[simp] theorem setPq_reads (n : Nat) (q : PortQ) :
    (∀ (a : Nat), (s.setPq n q).reg a = s.reg a) ∧ (∀ (a : Nat) (f : Field), (s.setPq n q).fld a f = s.fld a f) ∧ (∀ (a : Nat) (f : Field), (s.setPq n q).flag a f = s.flag a f) ∧
    (∀ (a : Nat) (f : Field) (i : Nat), (s.setPq n q).fldBit a f i = s.fldBit a f i) ∧ (∀ (m : Nat), (s.setPq n q).role m = s.role m) ∧ (∀ (m : Nat), (s.setPq n q).roleAsked m = s.roleAsked m) ∧
    (∀ (m : Nat), (s.setPq n q).pf m = s.pf m) ∧ (∀ (m : Nat), (s.setPq n q).hud m = s.hud m) ∧ (∀ (m : Nat), (s.setPq n q).pr m = s.pr m) ∧
    (∀ (m : Nat), (s.setPq n q).pp m = s.pp m) ∧ (∀ (m : Nat), (s.setPq n q).pa m = s.pa m) ∧ (∀ (m : Nat), (s.setPq n q).pt m = s.pt m) ∧
    (∀ (m : Nat), (s.setPq n q).px m = s.px m) ∧ (∀ (m : Nat), (s.setPq n q).lane m = s.lane m) ∧ (∀ (m : Nat), (s.setPq n q).timer m = s.timer m) ∧
    (∀ (m : Nat), (s.setPq n q).chan m = s.chan m) ∧ (∀ (m : Nat), (s.setPq n q).session m = s.session m) ∧ (∀ (a : Nat), (s.setPq n q).sramByte a = s.sramByte a) :=
  ⟨fun _ => rfl, fun _ _ => rfl, fun _ _ => rfl, fun _ _ _ => rfl, fun _ => rfl, fun _ => rfl, fun _ => rfl, fun _ => rfl, fun _ => rfl,
   fun _ => rfl, fun _ => rfl, fun _ => rfl, fun _ => rfl, fun _ => rfl, fun _ => rfl, fun _ => rfl, fun _ => rfl, fun _ => rfl⟩

@[simp] theorem setChan_reads (c : Nat) (x : CrcSt) :
    (∀ (a : Nat), (s.setChan c x).reg a = s.reg a) ∧ (∀ (a : Nat) (f : Field), (s.setChan c x).fld a f = s.fld a f) ∧ (∀ (a : Nat) (f : Field), (s.setChan c x).flag a f = s.flag a f) ∧
    (∀ (a : Nat) (f : Field) (i : Nat), (s.setChan c x).fldBit a f i = s.fldBit a f i) ∧ (∀ (m : Nat), (s.setChan c x).role m = s.role m) ∧ (∀ (m : Nat), (s.setChan c x).roleAsked m = s.roleAsked m) ∧
    (∀ (m : Nat), (s.setChan c x).pf m = s.pf m) ∧ (∀ (m : Nat), (s.setChan c x).hud m = s.hud m) ∧ (∀ (m : Nat), (s.setChan c x).pr m = s.pr m) ∧
    (∀ (m : Nat), (s.setChan c x).pp m = s.pp m) ∧ (∀ (m : Nat), (s.setChan c x).pa m = s.pa m) ∧ (∀ (m : Nat), (s.setChan c x).pt m = s.pt m) ∧
    (∀ (m : Nat), (s.setChan c x).px m = s.px m) ∧ (∀ (m : Nat), (s.setChan c x).lane m = s.lane m) ∧ (∀ (m : Nat), (s.setChan c x).timer m = s.timer m) ∧
    (∀ (m : Nat), (s.setChan c x).pq m = s.pq m) ∧ (∀ (m : Nat), (s.setChan c x).session m = s.session m) ∧ (∀ (a : Nat), (s.setChan c x).sramByte a = s.sramByte a) :=
  ⟨fun _ => rfl, fun _ _ => rfl, fun _ _ => rfl, fun _ _ _ => rfl, fun _ => rfl, fun _ => rfl, fun _ => rfl, fun _ => rfl, fun _ => rfl,
   fun _ => rfl, fun _ => rfl, fun _ => rfl, fun _ => rfl, fun _ => rfl, fun _ => rfl, fun _ => rfl, fun _ => rfl, fun _ => rfl⟩

@[simp] theorem setTimer_reads (k : Nat) (x : TimerSt) :
    (∀ (a : Nat), (s.setTimer k x).reg a = s.reg a) ∧ (∀ (a : Nat) (f : Field), (s.setTimer k x).fld a f = s.fld a f) ∧ (∀ (a : Nat) (f : Field), (s.setTimer k x).flag a f = s.flag a f) ∧
    (∀ (a : Nat) (f : Field) (i : Nat), (s.setTimer k x).fldBit a f i = s.fldBit a f i) ∧ (∀ (m : Nat), (s.setTimer k x).role m = s.role m) ∧ (∀ (m : Nat), (s.setTimer k x).roleAsked m = s.roleAsked m) ∧
    (∀ (m : Nat), (s.setTimer k x).pf m = s.pf m) ∧ (∀ (m : Nat), (s.setTimer k x).hud m = s.hud m) ∧ (∀ (m : Nat), (s.setTimer k x).pr m = s.pr m) ∧
    (∀ (m : Nat), (s.setTimer k x).pp m = s.pp m) ∧ (∀ (m : Nat), (s.setTimer k x).pa m = s.pa m) ∧ (∀ (m : Nat), (s.setTimer k x).pt m = s.pt m) ∧
    (∀ (m : Nat), (s.setTimer k x).px m = s.px m) ∧ (∀ (m : Nat), (s.setTimer k x).lane m = s.lane m) ∧ (∀ (m : Nat), (s.setTimer k x).chan m = s.chan m) ∧
    (∀ (m : Nat), (s.setTimer k x).pq m = s.pq m) ∧ (∀ (m : Nat), (s.setTimer k x).session m = s.session m) ∧ (∀ (a : Nat), (s.setTimer k x).sramByte a = s.sramByte a) :=
  ⟨fun _ => rfl, fun _ _ => rfl, fun _ _ => rfl, fun _ _ _ => rfl, fun _ => rfl, fun _ => rfl, fun _ => rfl, fun _ => rfl, fun _ => rfl,
   fun _ => rfl, fun _ => rfl, fun _ => rfl, fun _ => rfl, fun _ => rfl, fun _ => rfl, fun _ => rfl, fun _ => rfl, fun _ => rfl⟩

@[simp] theorem modF_reads (n : Nat) (f : PortF → PortF) :
    (∀ (a : Nat), (s.modF n f).reg a = s.reg a) ∧ (∀ (a : Nat) (f' : Field), (s.modF n f).fld a f' = s.fld a f') ∧ (∀ (a : Nat) (f' : Field), (s.modF n f).flag a f' = s.flag a f') ∧
    (∀ (a : Nat) (f' : Field) (i : Nat), (s.modF n f).fldBit a f' i = s.fldBit a f' i) ∧ (∀ (m : Nat), (s.modF n f).role m = s.role m) ∧ (∀ (m : Nat), (s.modF n f).roleAsked m = s.roleAsked m) ∧
    (∀ (m : Nat), (s.modF n f).pr m = s.pr m) ∧ (∀ (m : Nat), (s.modF n f).pp m = s.pp m) ∧ (∀ (m : Nat), (s.modF n f).pa m = s.pa m) ∧
    (∀ (m : Nat), (s.modF n f).pt m = s.pt m) ∧ (∀ (m : Nat), (s.modF n f).px m = s.px m) ∧ (∀ (m : Nat), (s.modF n f).lane m = s.lane m) ∧
    (∀ (m : Nat), (s.modF n f).timer m = s.timer m) ∧ (∀ (m : Nat), (s.modF n f).chan m = s.chan m) ∧ (∀ (m : Nat), (s.modF n f).pq m = s.pq m) ∧
    (∀ (m : Nat), (s.modF n f).session m = s.session m) ∧ (∀ (a : Nat), (s.modF n f).sramByte a = s.sramByte a) :=
  ⟨fun _ => rfl, fun _ _ => rfl, fun _ _ => rfl, fun _ _ _ => rfl, fun _ => rfl, fun _ => rfl, fun _ => rfl, fun _ => rfl, fun _ => rfl,
   fun _ => rfl, fun _ => rfl, fun _ => rfl, fun _ => rfl, fun _ => rfl, fun _ => rfl, fun _ => rfl, fun _ => rfl⟩

@[simp] theorem modH_reads (h : Nat) (f : HuddleSt → HuddleSt) :
    (∀ (a : Nat), (s.modH h f).reg a = s.reg a) ∧ (∀ (a : Nat) (f' : Field), (s.modH h f).fld a f' = s.fld a f') ∧ (∀ (a : Nat) (f' : Field), (s.modH h f).flag a f' = s.flag a f') ∧
    (∀ (a : Nat) (f' : Field) (i : Nat), (s.modH h f).fldBit a f' i = s.fldBit a f' i) ∧ (∀ (m : Nat), (s.modH h f).role m = s.role m) ∧ (∀ (m : Nat), (s.modH h f).roleAsked m = s.roleAsked m) ∧
    (∀ (m : Nat), (s.modH h f).pr m = s.pr m) ∧ (∀ (m : Nat), (s.modH h f).pp m = s.pp m) ∧ (∀ (m : Nat), (s.modH h f).pa m = s.pa m) ∧
    (∀ (m : Nat), (s.modH h f).pt m = s.pt m) ∧ (∀ (m : Nat), (s.modH h f).px m = s.px m) ∧ (∀ (m : Nat), (s.modH h f).lane m = s.lane m) ∧
    (∀ (m : Nat), (s.modH h f).timer m = s.timer m) ∧ (∀ (m : Nat), (s.modH h f).chan m = s.chan m) ∧ (∀ (m : Nat), (s.modH h f).pq m = s.pq m) ∧
    (∀ (m : Nat), (s.modH h f).session m = s.session m) ∧ (∀ (a : Nat), (s.modH h f).sramByte a = s.sramByte a) :=
  ⟨fun _ => rfl, fun _ _ => rfl, fun _ _ => rfl, fun _ _ _ => rfl, fun _ => rfl, fun _ => rfl, fun _ => rfl, fun _ => rfl, fun _ => rfl,
   fun _ => rfl, fun _ => rfl, fun _ => rfl, fun _ => rfl, fun _ => rfl, fun _ => rfl, fun _ => rfl, fun _ => rfl⟩

@[simp] theorem modR_reads (n : Nat) (f : PortR → PortR) :
    (∀ (a : Nat), (s.modR n f).reg a = s.reg a) ∧ (∀ (a : Nat) (f' : Field), (s.modR n f).fld a f' = s.fld a f') ∧ (∀ (a : Nat) (f' : Field), (s.modR n f).flag a f' = s.flag a f') ∧
    (∀ (a : Nat) (f' : Field) (i : Nat), (s.modR n f).fldBit a f' i = s.fldBit a f' i) ∧ (∀ (m : Nat), (s.modR n f).role m = s.role m) ∧ (∀ (m : Nat), (s.modR n f).roleAsked m = s.roleAsked m) ∧
    (∀ (m : Nat), (s.modR n f).pf m = s.pf m) ∧ (∀ (m : Nat), (s.modR n f).hud m = s.hud m) ∧ (∀ (m : Nat), (s.modR n f).pp m = s.pp m) ∧
    (∀ (m : Nat), (s.modR n f).pa m = s.pa m) ∧ (∀ (m : Nat), (s.modR n f).pt m = s.pt m) ∧ (∀ (m : Nat), (s.modR n f).px m = s.px m) ∧
    (∀ (m : Nat), (s.modR n f).lane m = s.lane m) ∧ (∀ (m : Nat), (s.modR n f).timer m = s.timer m) ∧ (∀ (m : Nat), (s.modR n f).chan m = s.chan m) ∧
    (∀ (m : Nat), (s.modR n f).pq m = s.pq m) ∧ (∀ (m : Nat), (s.modR n f).session m = s.session m) ∧ (∀ (a : Nat), (s.modR n f).sramByte a = s.sramByte a) :=
  ⟨fun _ => rfl, fun _ _ => rfl, fun _ _ => rfl, fun _ _ _ => rfl, fun _ => rfl, fun _ => rfl, fun _ => rfl, fun _ => rfl, fun _ => rfl,
   fun _ => rfl, fun _ => rfl, fun _ => rfl, fun _ => rfl, fun _ => rfl, fun _ => rfl, fun _ => rfl, fun _ => rfl, fun _ => rfl⟩

@[simp] theorem modP_reads (n : Nat) (f : PortP → PortP) :
    (∀ (a : Nat), (s.modP n f).reg a = s.reg a) ∧ (∀ (a : Nat) (f' : Field), (s.modP n f).fld a f' = s.fld a f') ∧ (∀ (a : Nat) (f' : Field), (s.modP n f).flag a f' = s.flag a f') ∧
    (∀ (a : Nat) (f' : Field) (i : Nat), (s.modP n f).fldBit a f' i = s.fldBit a f' i) ∧ (∀ (m : Nat), (s.modP n f).role m = s.role m) ∧ (∀ (m : Nat), (s.modP n f).roleAsked m = s.roleAsked m) ∧
    (∀ (m : Nat), (s.modP n f).pf m = s.pf m) ∧ (∀ (m : Nat), (s.modP n f).hud m = s.hud m) ∧ (∀ (m : Nat), (s.modP n f).pr m = s.pr m) ∧
    (∀ (m : Nat), (s.modP n f).pa m = s.pa m) ∧ (∀ (m : Nat), (s.modP n f).pt m = s.pt m) ∧ (∀ (m : Nat), (s.modP n f).px m = s.px m) ∧
    (∀ (m : Nat), (s.modP n f).lane m = s.lane m) ∧ (∀ (m : Nat), (s.modP n f).timer m = s.timer m) ∧ (∀ (m : Nat), (s.modP n f).chan m = s.chan m) ∧
    (∀ (m : Nat), (s.modP n f).pq m = s.pq m) ∧ (∀ (m : Nat), (s.modP n f).session m = s.session m) ∧ (∀ (a : Nat), (s.modP n f).sramByte a = s.sramByte a) :=
  ⟨fun _ => rfl, fun _ _ => rfl, fun _ _ => rfl, fun _ _ _ => rfl, fun _ => rfl, fun _ => rfl, fun _ => rfl, fun _ => rfl, fun _ => rfl,
   fun _ => rfl, fun _ => rfl, fun _ => rfl, fun _ => rfl, fun _ => rfl, fun _ => rfl, fun _ => rfl, fun _ => rfl, fun _ => rfl⟩

@[simp] theorem modA_reads (n : Nat) (f : PortA → PortA) :
    (∀ (a : Nat), (s.modA n f).reg a = s.reg a) ∧ (∀ (a : Nat) (f' : Field), (s.modA n f).fld a f' = s.fld a f') ∧ (∀ (a : Nat) (f' : Field), (s.modA n f).flag a f' = s.flag a f') ∧
    (∀ (a : Nat) (f' : Field) (i : Nat), (s.modA n f).fldBit a f' i = s.fldBit a f' i) ∧ (∀ (m : Nat), (s.modA n f).role m = s.role m) ∧ (∀ (m : Nat), (s.modA n f).roleAsked m = s.roleAsked m) ∧
    (∀ (m : Nat), (s.modA n f).pf m = s.pf m) ∧ (∀ (m : Nat), (s.modA n f).hud m = s.hud m) ∧ (∀ (m : Nat), (s.modA n f).pr m = s.pr m) ∧
    (∀ (m : Nat), (s.modA n f).pp m = s.pp m) ∧ (∀ (m : Nat), (s.modA n f).pt m = s.pt m) ∧ (∀ (m : Nat), (s.modA n f).px m = s.px m) ∧
    (∀ (m : Nat), (s.modA n f).lane m = s.lane m) ∧ (∀ (m : Nat), (s.modA n f).timer m = s.timer m) ∧ (∀ (m : Nat), (s.modA n f).chan m = s.chan m) ∧
    (∀ (m : Nat), (s.modA n f).pq m = s.pq m) ∧ (∀ (m : Nat), (s.modA n f).session m = s.session m) ∧ (∀ (a : Nat), (s.modA n f).sramByte a = s.sramByte a) :=
  ⟨fun _ => rfl, fun _ _ => rfl, fun _ _ => rfl, fun _ _ _ => rfl, fun _ => rfl, fun _ => rfl, fun _ => rfl, fun _ => rfl, fun _ => rfl,
   fun _ => rfl, fun _ => rfl, fun _ => rfl, fun _ => rfl, fun _ => rfl, fun _ => rfl, fun _ => rfl, fun _ => rfl, fun _ => rfl⟩

@[simp] theorem modT_reads (n : Nat) (f : PortT → PortT) :
    (∀ (a : Nat), (s.modT n f).reg a = s.reg a) ∧ (∀ (a : Nat) (f' : Field), (s.modT n f).fld a f' = s.fld a f') ∧ (∀ (a : Nat) (f' : Field), (s.modT n f).flag a f' = s.flag a f') ∧
    (∀ (a : Nat) (f' : Field) (i : Nat), (s.modT n f).fldBit a f' i = s.fldBit a f' i) ∧ (∀ (m : Nat), (s.modT n f).role m = s.role m) ∧ (∀ (m : Nat), (s.modT n f).roleAsked m = s.roleAsked m) ∧
    (∀ (m : Nat), (s.modT n f).pf m = s.pf m) ∧ (∀ (m : Nat), (s.modT n f).hud m = s.hud m) ∧ (∀ (m : Nat), (s.modT n f).pr m = s.pr m) ∧
    (∀ (m : Nat), (s.modT n f).pp m = s.pp m) ∧ (∀ (m : Nat), (s.modT n f).pa m = s.pa m) ∧ (∀ (m : Nat), (s.modT n f).px m = s.px m) ∧
    (∀ (m : Nat), (s.modT n f).lane m = s.lane m) ∧ (∀ (m : Nat), (s.modT n f).timer m = s.timer m) ∧ (∀ (m : Nat), (s.modT n f).chan m = s.chan m) ∧
    (∀ (m : Nat), (s.modT n f).pq m = s.pq m) ∧ (∀ (m : Nat), (s.modT n f).session m = s.session m) ∧ (∀ (a : Nat), (s.modT n f).sramByte a = s.sramByte a) :=
  ⟨fun _ => rfl, fun _ _ => rfl, fun _ _ => rfl, fun _ _ _ => rfl, fun _ => rfl, fun _ => rfl, fun _ => rfl, fun _ => rfl, fun _ => rfl,
   fun _ => rfl, fun _ => rfl, fun _ => rfl, fun _ => rfl, fun _ => rfl, fun _ => rfl, fun _ => rfl, fun _ => rfl, fun _ => rfl⟩

@[simp] theorem modX_reads (n : Nat) (f : PortX → PortX) :
    (∀ (a : Nat), (s.modX n f).reg a = s.reg a) ∧ (∀ (a : Nat) (f' : Field), (s.modX n f).fld a f' = s.fld a f') ∧ (∀ (a : Nat) (f' : Field), (s.modX n f).flag a f' = s.flag a f') ∧
    (∀ (a : Nat) (f' : Field) (i : Nat), (s.modX n f).fldBit a f' i = s.fldBit a f' i) ∧ (∀ (m : Nat), (s.modX n f).role m = s.role m) ∧ (∀ (m : Nat), (s.modX n f).roleAsked m = s.roleAsked m) ∧
    (∀ (m : Nat), (s.modX n f).pf m = s.pf m) ∧ (∀ (m : Nat), (s.modX n f).hud m = s.hud m) ∧ (∀ (m : Nat), (s.modX n f).pr m = s.pr m) ∧
    (∀ (m : Nat), (s.modX n f).pp m = s.pp m) ∧ (∀ (m : Nat), (s.modX n f).pa m = s.pa m) ∧ (∀ (m : Nat), (s.modX n f).pt m = s.pt m) ∧
    (∀ (m : Nat), (s.modX n f).lane m = s.lane m) ∧ (∀ (m : Nat), (s.modX n f).timer m = s.timer m) ∧ (∀ (m : Nat), (s.modX n f).chan m = s.chan m) ∧
    (∀ (m : Nat), (s.modX n f).pq m = s.pq m) ∧ (∀ (m : Nat), (s.modX n f).session m = s.session m) ∧ (∀ (a : Nat), (s.modX n f).sramByte a = s.sramByte a) :=
  ⟨fun _ => rfl, fun _ _ => rfl, fun _ _ => rfl, fun _ _ _ => rfl, fun _ => rfl, fun _ => rfl, fun _ => rfl, fun _ => rfl, fun _ => rfl,
   fun _ => rfl, fun _ => rfl, fun _ => rfl, fun _ => rfl, fun _ => rfl, fun _ => rfl, fun _ => rfl, fun _ => rfl, fun _ => rfl⟩

@[simp] theorem modL_reads (l : Nat) (f : LaneSt → LaneSt) :
    (∀ (a : Nat), (s.modL l f).reg a = s.reg a) ∧ (∀ (a : Nat) (f' : Field), (s.modL l f).fld a f' = s.fld a f') ∧ (∀ (a : Nat) (f' : Field), (s.modL l f).flag a f' = s.flag a f') ∧
    (∀ (a : Nat) (f' : Field) (i : Nat), (s.modL l f).fldBit a f' i = s.fldBit a f' i) ∧ (∀ (m : Nat), (s.modL l f).role m = s.role m) ∧ (∀ (m : Nat), (s.modL l f).roleAsked m = s.roleAsked m) ∧
    (∀ (m : Nat), (s.modL l f).pf m = s.pf m) ∧ (∀ (m : Nat), (s.modL l f).hud m = s.hud m) ∧ (∀ (m : Nat), (s.modL l f).pr m = s.pr m) ∧
    (∀ (m : Nat), (s.modL l f).pp m = s.pp m) ∧ (∀ (m : Nat), (s.modL l f).pa m = s.pa m) ∧ (∀ (m : Nat), (s.modL l f).pt m = s.pt m) ∧
    (∀ (m : Nat), (s.modL l f).px m = s.px m) ∧ (∀ (m : Nat), (s.modL l f).timer m = s.timer m) ∧ (∀ (m : Nat), (s.modL l f).chan m = s.chan m) ∧
    (∀ (m : Nat), (s.modL l f).pq m = s.pq m) ∧ (∀ (m : Nat), (s.modL l f).session m = s.session m) ∧ (∀ (a : Nat), (s.modL l f).sramByte a = s.sramByte a) :=
  ⟨fun _ => rfl, fun _ _ => rfl, fun _ _ => rfl, fun _ _ _ => rfl, fun _ => rfl, fun _ => rfl, fun _ => rfl, fun _ => rfl, fun _ => rfl,
   fun _ => rfl, fun _ => rfl, fun _ => rfl, fun _ => rfl, fun _ => rfl, fun _ => rfl, fun _ => rfl, fun _ => rfl, fun _ => rfl⟩

@[simp] theorem putSess_reads (k : Nat) (x : Session) :
    (∀ (a : Nat), (s.putSess k x).reg a = s.reg a) ∧ (∀ (a : Nat) (f : Field), (s.putSess k x).fld a f = s.fld a f) ∧ (∀ (a : Nat) (f : Field), (s.putSess k x).flag a f = s.flag a f) ∧
    (∀ (a : Nat) (f : Field) (i : Nat), (s.putSess k x).fldBit a f i = s.fldBit a f i) ∧ (∀ (m : Nat), (s.putSess k x).role m = s.role m) ∧ (∀ (m : Nat), (s.putSess k x).roleAsked m = s.roleAsked m) ∧
    (∀ (m : Nat), (s.putSess k x).pf m = s.pf m) ∧ (∀ (m : Nat), (s.putSess k x).hud m = s.hud m) ∧ (∀ (m : Nat), (s.putSess k x).pr m = s.pr m) ∧
    (∀ (m : Nat), (s.putSess k x).pp m = s.pp m) ∧ (∀ (m : Nat), (s.putSess k x).pa m = s.pa m) ∧ (∀ (m : Nat), (s.putSess k x).pt m = s.pt m) ∧
    (∀ (m : Nat), (s.putSess k x).px m = s.px m) ∧ (∀ (m : Nat), (s.putSess k x).lane m = s.lane m) ∧ (∀ (m : Nat), (s.putSess k x).timer m = s.timer m) ∧
    (∀ (m : Nat), (s.putSess k x).chan m = s.chan m) ∧ (∀ (m : Nat), (s.putSess k x).pq m = s.pq m) ∧ (∀ (a : Nat), (s.putSess k x).sramByte a = s.sramByte a) :=
  ⟨fun _ => rfl, fun _ _ => rfl, fun _ _ => rfl, fun _ _ _ => rfl, fun _ => rfl, fun _ => rfl, fun _ => rfl, fun _ => rfl, fun _ => rfl,
   fun _ => rfl, fun _ => rfl, fun _ => rfl, fun _ => rfl, fun _ => rfl, fun _ => rfl, fun _ => rfl, fun _ => rfl, fun _ => rfl⟩

@[simp] theorem freeSess_reads (k : Nat) :
    (∀ (a : Nat), (s.freeSess k).reg a = s.reg a) ∧ (∀ (a : Nat) (f : Field), (s.freeSess k).fld a f = s.fld a f) ∧ (∀ (a : Nat) (f : Field), (s.freeSess k).flag a f = s.flag a f) ∧
    (∀ (a : Nat) (f : Field) (i : Nat), (s.freeSess k).fldBit a f i = s.fldBit a f i) ∧ (∀ (m : Nat), (s.freeSess k).role m = s.role m) ∧ (∀ (m : Nat), (s.freeSess k).roleAsked m = s.roleAsked m) ∧
    (∀ (m : Nat), (s.freeSess k).pf m = s.pf m) ∧ (∀ (m : Nat), (s.freeSess k).hud m = s.hud m) ∧ (∀ (m : Nat), (s.freeSess k).pr m = s.pr m) ∧
    (∀ (m : Nat), (s.freeSess k).pp m = s.pp m) ∧ (∀ (m : Nat), (s.freeSess k).pa m = s.pa m) ∧ (∀ (m : Nat), (s.freeSess k).pt m = s.pt m) ∧
    (∀ (m : Nat), (s.freeSess k).px m = s.px m) ∧ (∀ (m : Nat), (s.freeSess k).lane m = s.lane m) ∧ (∀ (m : Nat), (s.freeSess k).timer m = s.timer m) ∧
    (∀ (m : Nat), (s.freeSess k).chan m = s.chan m) ∧ (∀ (m : Nat), (s.freeSess k).pq m = s.pq m) ∧ (∀ (a : Nat), (s.freeSess k).sramByte a = s.sramByte a) :=
  ⟨fun _ => rfl, fun _ _ => rfl, fun _ _ => rfl, fun _ _ _ => rfl, fun _ => rfl, fun _ => rfl, fun _ => rfl, fun _ => rfl, fun _ => rfl,
   fun _ => rfl, fun _ => rfl, fun _ => rfl, fun _ => rfl, fun _ => rfl, fun _ => rfl, fun _ => rfl, fun _ => rfl, fun _ => rfl⟩

@[simp] theorem setSto_reads (x : StoSt) :
    (∀ (a : Nat), (s.setSto x).reg a = s.reg a) ∧ (∀ (a : Nat) (f : Field), (s.setSto x).fld a f = s.fld a f) ∧ (∀ (a : Nat) (f : Field), (s.setSto x).flag a f = s.flag a f) ∧
    (∀ (a : Nat) (f : Field) (i : Nat), (s.setSto x).fldBit a f i = s.fldBit a f i) ∧ (∀ (m : Nat), (s.setSto x).role m = s.role m) ∧ (∀ (m : Nat), (s.setSto x).roleAsked m = s.roleAsked m) ∧
    (∀ (m : Nat), (s.setSto x).pf m = s.pf m) ∧ (∀ (m : Nat), (s.setSto x).hud m = s.hud m) ∧ (∀ (m : Nat), (s.setSto x).pr m = s.pr m) ∧
    (∀ (m : Nat), (s.setSto x).pp m = s.pp m) ∧ (∀ (m : Nat), (s.setSto x).pa m = s.pa m) ∧ (∀ (m : Nat), (s.setSto x).pt m = s.pt m) ∧
    (∀ (m : Nat), (s.setSto x).px m = s.px m) ∧ (∀ (m : Nat), (s.setSto x).lane m = s.lane m) ∧ (∀ (m : Nat), (s.setSto x).timer m = s.timer m) ∧
    (∀ (m : Nat), (s.setSto x).chan m = s.chan m) ∧ (∀ (m : Nat), (s.setSto x).pq m = s.pq m) ∧ (∀ (m : Nat), (s.setSto x).session m = s.session m) ∧
    (∀ (a : Nat), (s.setSto x).sramByte a = s.sramByte a) :=
  ⟨fun _ => rfl, fun _ _ => rfl, fun _ _ => rfl, fun _ _ _ => rfl, fun _ => rfl, fun _ => rfl, fun _ => rfl, fun _ => rfl, fun _ => rfl,
   fun _ => rfl, fun _ => rfl, fun _ => rfl, fun _ => rfl, fun _ => rfl, fun _ => rfl, fun _ => rfl, fun _ => rfl, fun _ => rfl,
   fun _ => rfl⟩

@[simp] theorem setCox_reads (x : CoxSt) :
    (∀ (a : Nat), (s.setCox x).reg a = s.reg a) ∧ (∀ (a : Nat) (f : Field), (s.setCox x).fld a f = s.fld a f) ∧ (∀ (a : Nat) (f : Field), (s.setCox x).flag a f = s.flag a f) ∧
    (∀ (a : Nat) (f : Field) (i : Nat), (s.setCox x).fldBit a f i = s.fldBit a f i) ∧ (∀ (m : Nat), (s.setCox x).role m = s.role m) ∧ (∀ (m : Nat), (s.setCox x).roleAsked m = s.roleAsked m) ∧
    (∀ (m : Nat), (s.setCox x).pf m = s.pf m) ∧ (∀ (m : Nat), (s.setCox x).hud m = s.hud m) ∧ (∀ (m : Nat), (s.setCox x).pr m = s.pr m) ∧
    (∀ (m : Nat), (s.setCox x).pp m = s.pp m) ∧ (∀ (m : Nat), (s.setCox x).pa m = s.pa m) ∧ (∀ (m : Nat), (s.setCox x).pt m = s.pt m) ∧
    (∀ (m : Nat), (s.setCox x).lane m = s.lane m) ∧ (∀ (m : Nat), (s.setCox x).timer m = s.timer m) ∧ (∀ (m : Nat), (s.setCox x).chan m = s.chan m) ∧
    (∀ (m : Nat), (s.setCox x).pq m = s.pq m) ∧ (∀ (m : Nat), (s.setCox x).session m = s.session m) ∧ (∀ (a : Nat), (s.setCox x).sramByte a = s.sramByte a) :=
  ⟨fun _ => rfl, fun _ _ => rfl, fun _ _ => rfl, fun _ _ _ => rfl, fun _ => rfl, fun _ => rfl, fun _ => rfl, fun _ => rfl, fun _ => rfl,
   fun _ => rfl, fun _ => rfl, fun _ => rfl, fun _ => rfl, fun _ => rfl, fun _ => rfl, fun _ => rfl, fun _ => rfl, fun _ => rfl⟩

@[simp] theorem setSaf_reads (x : SafSt) :
    (∀ (a : Nat), (s.setSaf x).reg a = s.reg a) ∧ (∀ (a : Nat) (f : Field), (s.setSaf x).fld a f = s.fld a f) ∧ (∀ (a : Nat) (f : Field), (s.setSaf x).flag a f = s.flag a f) ∧
    (∀ (a : Nat) (f : Field) (i : Nat), (s.setSaf x).fldBit a f i = s.fldBit a f i) ∧ (∀ (m : Nat), (s.setSaf x).role m = s.role m) ∧ (∀ (m : Nat), (s.setSaf x).roleAsked m = s.roleAsked m) ∧
    (∀ (m : Nat), (s.setSaf x).pf m = s.pf m) ∧ (∀ (m : Nat), (s.setSaf x).hud m = s.hud m) ∧ (∀ (m : Nat), (s.setSaf x).pr m = s.pr m) ∧
    (∀ (m : Nat), (s.setSaf x).pp m = s.pp m) ∧ (∀ (m : Nat), (s.setSaf x).pa m = s.pa m) ∧ (∀ (m : Nat), (s.setSaf x).pt m = s.pt m) ∧
    (∀ (m : Nat), (s.setSaf x).px m = s.px m) ∧ (∀ (m : Nat), (s.setSaf x).lane m = s.lane m) ∧ (∀ (m : Nat), (s.setSaf x).timer m = s.timer m) ∧
    (∀ (m : Nat), (s.setSaf x).chan m = s.chan m) ∧ (∀ (m : Nat), (s.setSaf x).pq m = s.pq m) ∧ (∀ (m : Nat), (s.setSaf x).session m = s.session m) ∧
    (∀ (a : Nat), (s.setSaf x).sramByte a = s.sramByte a) :=
  ⟨fun _ => rfl, fun _ _ => rfl, fun _ _ => rfl, fun _ _ _ => rfl, fun _ => rfl, fun _ => rfl, fun _ => rfl, fun _ => rfl, fun _ => rfl,
   fun _ => rfl, fun _ => rfl, fun _ => rfl, fun _ => rfl, fun _ => rfl, fun _ => rfl, fun _ => rfl, fun _ => rfl, fun _ => rfl,
   fun _ => rfl⟩

@[simp] theorem modE_reads (f : EmuSt → EmuSt) :
    (∀ (a : Nat), (s.modE f).reg a = s.reg a) ∧ (∀ (a : Nat) (f' : Field), (s.modE f).fld a f' = s.fld a f') ∧ (∀ (a : Nat) (f' : Field), (s.modE f).flag a f' = s.flag a f') ∧
    (∀ (a : Nat) (f' : Field) (i : Nat), (s.modE f).fldBit a f' i = s.fldBit a f' i) ∧ (∀ (m : Nat), (s.modE f).role m = s.role m) ∧ (∀ (m : Nat), (s.modE f).roleAsked m = s.roleAsked m) ∧
    (∀ (m : Nat), (s.modE f).pf m = s.pf m) ∧ (∀ (m : Nat), (s.modE f).hud m = s.hud m) ∧ (∀ (m : Nat), (s.modE f).pr m = s.pr m) ∧
    (∀ (m : Nat), (s.modE f).pp m = s.pp m) ∧ (∀ (m : Nat), (s.modE f).pa m = s.pa m) ∧ (∀ (m : Nat), (s.modE f).pt m = s.pt m) ∧
    (∀ (m : Nat), (s.modE f).px m = s.px m) ∧ (∀ (m : Nat), (s.modE f).lane m = s.lane m) ∧ (∀ (m : Nat), (s.modE f).timer m = s.timer m) ∧
    (∀ (m : Nat), (s.modE f).chan m = s.chan m) ∧ (∀ (m : Nat), (s.modE f).pq m = s.pq m) ∧ (∀ (m : Nat), (s.modE f).session m = s.session m) ∧
    (∀ (a : Nat), (s.modE f).sramByte a = s.sramByte a) :=
  ⟨fun _ => rfl, fun _ _ => rfl, fun _ _ => rfl, fun _ _ _ => rfl, fun _ => rfl, fun _ => rfl, fun _ => rfl, fun _ => rfl, fun _ => rfl,
   fun _ => rfl, fun _ => rfl, fun _ => rfl, fun _ => rfl, fun _ => rfl, fun _ => rfl, fun _ => rfl, fun _ => rfl, fun _ => rfl,
   fun _ => rfl⟩

@[simp] theorem setOut_reads (l : List Word) :
    (∀ (a : Nat), (s.setOut l).reg a = s.reg a) ∧ (∀ (a : Nat) (f : Field), (s.setOut l).fld a f = s.fld a f) ∧ (∀ (a : Nat) (f : Field), (s.setOut l).flag a f = s.flag a f) ∧
    (∀ (a : Nat) (f : Field) (i : Nat), (s.setOut l).fldBit a f i = s.fldBit a f i) ∧ (∀ (m : Nat), (s.setOut l).role m = s.role m) ∧ (∀ (m : Nat), (s.setOut l).roleAsked m = s.roleAsked m) ∧
    (∀ (m : Nat), (s.setOut l).pf m = s.pf m) ∧ (∀ (m : Nat), (s.setOut l).hud m = s.hud m) ∧ (∀ (m : Nat), (s.setOut l).pr m = s.pr m) ∧
    (∀ (m : Nat), (s.setOut l).pp m = s.pp m) ∧ (∀ (m : Nat), (s.setOut l).pa m = s.pa m) ∧ (∀ (m : Nat), (s.setOut l).pt m = s.pt m) ∧
    (∀ (m : Nat), (s.setOut l).px m = s.px m) ∧ (∀ (m : Nat), (s.setOut l).lane m = s.lane m) ∧ (∀ (m : Nat), (s.setOut l).timer m = s.timer m) ∧
    (∀ (m : Nat), (s.setOut l).chan m = s.chan m) ∧ (∀ (m : Nat), (s.setOut l).pq m = s.pq m) ∧ (∀ (m : Nat), (s.setOut l).session m = s.session m) ∧
    (∀ (a : Nat), (s.setOut l).sramByte a = s.sramByte a) :=
  ⟨fun _ => rfl, fun _ _ => rfl, fun _ _ => rfl, fun _ _ _ => rfl, fun _ => rfl, fun _ => rfl, fun _ => rfl, fun _ => rfl, fun _ => rfl,
   fun _ => rfl, fun _ => rfl, fun _ => rfl, fun _ => rfl, fun _ => rfl, fun _ => rfl, fun _ => rfl, fun _ => rfl, fun _ => rfl,
   fun _ => rfl⟩

@[simp] theorem takeFreeWord_reads :
    (∀ (a : Nat), (s.takeFreeWord.1).reg a = s.reg a) ∧ (∀ (a : Nat) (f : Field), (s.takeFreeWord.1).fld a f = s.fld a f) ∧ (∀ (a : Nat) (f : Field), (s.takeFreeWord.1).flag a f = s.flag a f) ∧
    (∀ (a : Nat) (f : Field) (i : Nat), (s.takeFreeWord.1).fldBit a f i = s.fldBit a f i) ∧ (∀ (m : Nat), (s.takeFreeWord.1).role m = s.role m) ∧ (∀ (m : Nat), (s.takeFreeWord.1).roleAsked m = s.roleAsked m) ∧
    (∀ (m : Nat), (s.takeFreeWord.1).pf m = s.pf m) ∧ (∀ (m : Nat), (s.takeFreeWord.1).hud m = s.hud m) ∧ (∀ (m : Nat), (s.takeFreeWord.1).pr m = s.pr m) ∧
    (∀ (m : Nat), (s.takeFreeWord.1).pp m = s.pp m) ∧ (∀ (m : Nat), (s.takeFreeWord.1).pa m = s.pa m) ∧ (∀ (m : Nat), (s.takeFreeWord.1).pt m = s.pt m) ∧
    (∀ (m : Nat), (s.takeFreeWord.1).px m = s.px m) ∧ (∀ (m : Nat), (s.takeFreeWord.1).lane m = s.lane m) ∧ (∀ (m : Nat), (s.takeFreeWord.1).timer m = s.timer m) ∧
    (∀ (m : Nat), (s.takeFreeWord.1).chan m = s.chan m) ∧ (∀ (m : Nat), (s.takeFreeWord.1).pq m = s.pq m) ∧ (∀ (m : Nat), (s.takeFreeWord.1).session m = s.session m) ∧
    (∀ (a : Nat), (s.takeFreeWord.1).sramByte a = s.sramByte a) :=
  ⟨fun _ => rfl, fun _ _ => rfl, fun _ _ => rfl, fun _ _ _ => rfl, fun _ => rfl, fun _ => rfl, fun _ => rfl, fun _ => rfl, fun _ => rfl,
   fun _ => rfl, fun _ => rfl, fun _ => rfl, fun _ => rfl, fun _ => rfl, fun _ => rfl, fun _ => rfl, fun _ => rfl, fun _ => rfl,
   fun _ => rfl⟩

@[simp] theorem takeFreeBit_reads :
    (∀ (a : Nat), (s.takeFreeBit.1).reg a = s.reg a) ∧ (∀ (a : Nat) (f : Field), (s.takeFreeBit.1).fld a f = s.fld a f) ∧ (∀ (a : Nat) (f : Field), (s.takeFreeBit.1).flag a f = s.flag a f) ∧
    (∀ (a : Nat) (f : Field) (i : Nat), (s.takeFreeBit.1).fldBit a f i = s.fldBit a f i) ∧ (∀ (m : Nat), (s.takeFreeBit.1).role m = s.role m) ∧ (∀ (m : Nat), (s.takeFreeBit.1).roleAsked m = s.roleAsked m) ∧
    (∀ (m : Nat), (s.takeFreeBit.1).pf m = s.pf m) ∧ (∀ (m : Nat), (s.takeFreeBit.1).hud m = s.hud m) ∧ (∀ (m : Nat), (s.takeFreeBit.1).pr m = s.pr m) ∧
    (∀ (m : Nat), (s.takeFreeBit.1).pp m = s.pp m) ∧ (∀ (m : Nat), (s.takeFreeBit.1).pa m = s.pa m) ∧ (∀ (m : Nat), (s.takeFreeBit.1).pt m = s.pt m) ∧
    (∀ (m : Nat), (s.takeFreeBit.1).px m = s.px m) ∧ (∀ (m : Nat), (s.takeFreeBit.1).lane m = s.lane m) ∧ (∀ (m : Nat), (s.takeFreeBit.1).timer m = s.timer m) ∧
    (∀ (m : Nat), (s.takeFreeBit.1).chan m = s.chan m) ∧ (∀ (m : Nat), (s.takeFreeBit.1).pq m = s.pq m) ∧ (∀ (m : Nat), (s.takeFreeBit.1).session m = s.session m) ∧
    (∀ (a : Nat), (s.takeFreeBit.1).sramByte a = s.sramByte a) :=
  ⟨fun _ => rfl, fun _ _ => rfl, fun _ _ => rfl, fun _ _ _ => rfl, fun _ => rfl, fun _ => rfl, fun _ => rfl, fun _ => rfl, fun _ => rfl,
   fun _ => rfl, fun _ => rfl, fun _ => rfl, fun _ => rfl, fun _ => rfl, fun _ => rfl, fun _ => rfl, fun _ => rfl, fun _ => rfl,
   fun _ => rfl⟩

@[simp] theorem advance_reads (n : Nat) :
    (∀ (a : Nat), (s.advance n).reg a = s.reg a) ∧ (∀ (a : Nat) (f : Field), (s.advance n).fld a f = s.fld a f) ∧ (∀ (a : Nat) (f : Field), (s.advance n).flag a f = s.flag a f) ∧
    (∀ (a : Nat) (f : Field) (i : Nat), (s.advance n).fldBit a f i = s.fldBit a f i) ∧ (∀ (m : Nat), (s.advance n).role m = s.role m) ∧ (∀ (m : Nat), (s.advance n).roleAsked m = s.roleAsked m) ∧
    (∀ (m : Nat), (s.advance n).pf m = s.pf m) ∧ (∀ (m : Nat), (s.advance n).hud m = s.hud m) ∧ (∀ (m : Nat), (s.advance n).pr m = s.pr m) ∧
    (∀ (m : Nat), (s.advance n).pp m = s.pp m) ∧ (∀ (m : Nat), (s.advance n).pa m = s.pa m) ∧ (∀ (m : Nat), (s.advance n).pt m = s.pt m) ∧
    (∀ (m : Nat), (s.advance n).px m = s.px m) ∧ (∀ (m : Nat), (s.advance n).lane m = s.lane m) ∧ (∀ (m : Nat), (s.advance n).timer m = s.timer m) ∧
    (∀ (m : Nat), (s.advance n).chan m = s.chan m) ∧ (∀ (m : Nat), (s.advance n).pq m = s.pq m) ∧ (∀ (m : Nat), (s.advance n).session m = s.session m) := by
  refine ⟨?_, ?_, ?_, ?_, ?_, ?_, ?_, ?_, ?_, ?_, ?_, ?_, ?_, ?_, ?_, ?_, ?_, ?_⟩ <;> intros <;>
  simp only [State.role, State.roleAsked, State.fldBit, State.flag, State.fld, State.reg, State.pf, State.hud, State.pr, State.pp, State.pa,
    State.pt, State.px, State.lane, State.timer, State.chan, State.pq, State.session, advance_keeps_all]
  congr

@[simp] theorem postSec_keeps_all (c sc : Nat) (k : Note) (x : Nat) :
    (s.postSec c sc k x).time = s.time ∧ (s.postSec c sc k x).regs = s.regs ∧ (s.postSec c sc k x).profiles = s.profiles ∧
    (s.postSec c sc k x).sram = s.sram ∧ (s.postSec c sc k x).gen = s.gen ∧ (s.postSec c sc k x).pwr = s.pwr ∧
    (s.postSec c sc k x).tmr = s.tmr ∧ (s.postSec c sc k x).que = s.que ∧ (s.postSec c sc k x).crc = s.crc ∧
    (s.postSec c sc k x).cfg = s.cfg ∧ (s.postSec c sc k x).hif = s.hif ∧ (s.postSec c sc k x).field = s.field ∧
    (s.postSec c sc k x).tun = s.tun ∧ (s.postSec c sc k x).rxe = s.rxe ∧ (s.postSec c sc k x).pro = s.pro ∧
    (s.postSec c sc k x).sess = s.sess ∧ (s.postSec c sc k x).overflow = s.overflow ∧ (s.postSec c sc k x).acd = s.acd ∧
    (s.postSec c sc k x).quar = s.quar ∧ (s.postSec c sc k x).kpr = s.kpr ∧ (s.postSec c sc k x).sto = s.sto ∧
    (s.postSec c sc k x).emu = s.emu ∧ (s.postSec c sc k x).cox = s.cox ∧ (s.postSec c sc k x).saf = s.saf ∧
    (s.postSec c sc k x).pins = s.pins ∧ (s.postSec c sc k x).free = s.free ∧ (s.postSec c sc k x).pending = s.pending := by
  rw [onlyObs_postSec]
  simp

@[simp] theorem postSec_reads (c sc : Nat) (k : Note) (x : Nat) :
    (∀ (a : Nat), (s.postSec c sc k x).reg a = s.reg a) ∧ (∀ (a : Nat) (f : Field), (s.postSec c sc k x).fld a f = s.fld a f) ∧ (∀ (a : Nat) (f : Field), (s.postSec c sc k x).flag a f = s.flag a f) ∧
    (∀ (a : Nat) (f : Field) (i : Nat), (s.postSec c sc k x).fldBit a f i = s.fldBit a f i) ∧ (∀ (m : Nat), (s.postSec c sc k x).role m = s.role m) ∧ (∀ (m : Nat), (s.postSec c sc k x).roleAsked m = s.roleAsked m) ∧
    (∀ (m : Nat), (s.postSec c sc k x).pf m = s.pf m) ∧ (∀ (m : Nat), (s.postSec c sc k x).hud m = s.hud m) ∧ (∀ (m : Nat), (s.postSec c sc k x).pr m = s.pr m) ∧
    (∀ (m : Nat), (s.postSec c sc k x).pp m = s.pp m) ∧ (∀ (m : Nat), (s.postSec c sc k x).pa m = s.pa m) ∧ (∀ (m : Nat), (s.postSec c sc k x).pt m = s.pt m) ∧
    (∀ (m : Nat), (s.postSec c sc k x).px m = s.px m) ∧ (∀ (m : Nat), (s.postSec c sc k x).lane m = s.lane m) ∧ (∀ (m : Nat), (s.postSec c sc k x).timer m = s.timer m) ∧
    (∀ (m : Nat), (s.postSec c sc k x).chan m = s.chan m) ∧ (∀ (m : Nat), (s.postSec c sc k x).pq m = s.pq m) ∧ (∀ (m : Nat), (s.postSec c sc k x).session m = s.session m) ∧
    (∀ (a : Nat), (s.postSec c sc k x).sramByte a = s.sramByte a) := by
  rw [onlyObs_postSec]
  exact ⟨fun _ => rfl, fun _ _ => rfl, fun _ _ => rfl, fun _ _ _ => rfl, fun _ => rfl, fun _ => rfl, fun _ => rfl, fun _ => rfl, fun _ => rfl, fun _ => rfl, fun _ => rfl, fun _ => rfl, fun _ => rfl, fun _ => rfl, fun _ => rfl, fun _ => rfl, fun _ => rfl, fun _ => rfl, fun _ => rfl⟩

@[simp] theorem postSecCount_keeps_all (c sc : Nat) (k : Note) :
    (s.postSecCount c sc k).time = s.time ∧ (s.postSecCount c sc k).regs = s.regs ∧ (s.postSecCount c sc k).profiles = s.profiles ∧
    (s.postSecCount c sc k).sram = s.sram ∧ (s.postSecCount c sc k).gen = s.gen ∧ (s.postSecCount c sc k).pwr = s.pwr ∧
    (s.postSecCount c sc k).tmr = s.tmr ∧ (s.postSecCount c sc k).que = s.que ∧ (s.postSecCount c sc k).crc = s.crc ∧
    (s.postSecCount c sc k).cfg = s.cfg ∧ (s.postSecCount c sc k).hif = s.hif ∧ (s.postSecCount c sc k).field = s.field ∧
    (s.postSecCount c sc k).tun = s.tun ∧ (s.postSecCount c sc k).rxe = s.rxe ∧ (s.postSecCount c sc k).pro = s.pro ∧
    (s.postSecCount c sc k).sess = s.sess ∧ (s.postSecCount c sc k).overflow = s.overflow ∧ (s.postSecCount c sc k).acd = s.acd ∧
    (s.postSecCount c sc k).quar = s.quar ∧ (s.postSecCount c sc k).kpr = s.kpr ∧ (s.postSecCount c sc k).sto = s.sto ∧
    (s.postSecCount c sc k).emu = s.emu ∧ (s.postSecCount c sc k).cox = s.cox ∧ (s.postSecCount c sc k).saf = s.saf ∧
    (s.postSecCount c sc k).pins = s.pins ∧ (s.postSecCount c sc k).free = s.free ∧ (s.postSecCount c sc k).pending = s.pending := by
  rw [onlyObs_postSecCount]
  simp

@[simp] theorem postSecCount_reads (c sc : Nat) (k : Note) :
    (∀ (a : Nat), (s.postSecCount c sc k).reg a = s.reg a) ∧ (∀ (a : Nat) (f : Field), (s.postSecCount c sc k).fld a f = s.fld a f) ∧ (∀ (a : Nat) (f : Field), (s.postSecCount c sc k).flag a f = s.flag a f) ∧
    (∀ (a : Nat) (f : Field) (i : Nat), (s.postSecCount c sc k).fldBit a f i = s.fldBit a f i) ∧ (∀ (m : Nat), (s.postSecCount c sc k).role m = s.role m) ∧ (∀ (m : Nat), (s.postSecCount c sc k).roleAsked m = s.roleAsked m) ∧
    (∀ (m : Nat), (s.postSecCount c sc k).pf m = s.pf m) ∧ (∀ (m : Nat), (s.postSecCount c sc k).hud m = s.hud m) ∧ (∀ (m : Nat), (s.postSecCount c sc k).pr m = s.pr m) ∧
    (∀ (m : Nat), (s.postSecCount c sc k).pp m = s.pp m) ∧ (∀ (m : Nat), (s.postSecCount c sc k).pa m = s.pa m) ∧ (∀ (m : Nat), (s.postSecCount c sc k).pt m = s.pt m) ∧
    (∀ (m : Nat), (s.postSecCount c sc k).px m = s.px m) ∧ (∀ (m : Nat), (s.postSecCount c sc k).lane m = s.lane m) ∧ (∀ (m : Nat), (s.postSecCount c sc k).timer m = s.timer m) ∧
    (∀ (m : Nat), (s.postSecCount c sc k).chan m = s.chan m) ∧ (∀ (m : Nat), (s.postSecCount c sc k).pq m = s.pq m) ∧ (∀ (m : Nat), (s.postSecCount c sc k).session m = s.session m) ∧
    (∀ (a : Nat), (s.postSecCount c sc k).sramByte a = s.sramByte a) := by
  rw [onlyObs_postSecCount]
  exact ⟨fun _ => rfl, fun _ _ => rfl, fun _ _ => rfl, fun _ _ _ => rfl, fun _ => rfl, fun _ => rfl, fun _ => rfl, fun _ => rfl, fun _ => rfl, fun _ => rfl, fun _ => rfl, fun _ => rfl, fun _ => rfl, fun _ => rfl, fun _ => rfl, fun _ => rfl, fun _ => rfl, fun _ => rfl, fun _ => rfl⟩

@[simp] theorem postLimited_keeps_all (c sc : Nat) (k : Note) (g : ArgForm) (x : Word) (l : Nat) :
    (s.postLimited c sc k g x l).time = s.time ∧ (s.postLimited c sc k g x l).regs = s.regs ∧ (s.postLimited c sc k g x l).profiles = s.profiles ∧
    (s.postLimited c sc k g x l).sram = s.sram ∧ (s.postLimited c sc k g x l).gen = s.gen ∧ (s.postLimited c sc k g x l).pwr = s.pwr ∧
    (s.postLimited c sc k g x l).tmr = s.tmr ∧ (s.postLimited c sc k g x l).que = s.que ∧ (s.postLimited c sc k g x l).crc = s.crc ∧
    (s.postLimited c sc k g x l).cfg = s.cfg ∧ (s.postLimited c sc k g x l).hif = s.hif ∧ (s.postLimited c sc k g x l).field = s.field ∧
    (s.postLimited c sc k g x l).tun = s.tun ∧ (s.postLimited c sc k g x l).rxe = s.rxe ∧ (s.postLimited c sc k g x l).pro = s.pro ∧
    (s.postLimited c sc k g x l).sess = s.sess ∧ (s.postLimited c sc k g x l).overflow = s.overflow ∧ (s.postLimited c sc k g x l).acd = s.acd ∧
    (s.postLimited c sc k g x l).quar = s.quar ∧ (s.postLimited c sc k g x l).kpr = s.kpr ∧ (s.postLimited c sc k g x l).sto = s.sto ∧
    (s.postLimited c sc k g x l).emu = s.emu ∧ (s.postLimited c sc k g x l).cox = s.cox ∧ (s.postLimited c sc k g x l).saf = s.saf ∧
    (s.postLimited c sc k g x l).pins = s.pins ∧ (s.postLimited c sc k g x l).free = s.free ∧ (s.postLimited c sc k g x l).pending = s.pending := by
  rw [onlyObs_postLimited]
  simp

@[simp] theorem postLimited_reads (c sc : Nat) (k : Note) (g : ArgForm) (x : Word) (l : Nat) :
    (∀ (a : Nat), (s.postLimited c sc k g x l).reg a = s.reg a) ∧ (∀ (a : Nat) (f : Field), (s.postLimited c sc k g x l).fld a f = s.fld a f) ∧ (∀ (a : Nat) (f : Field), (s.postLimited c sc k g x l).flag a f = s.flag a f) ∧
    (∀ (a : Nat) (f : Field) (i : Nat), (s.postLimited c sc k g x l).fldBit a f i = s.fldBit a f i) ∧ (∀ (m : Nat), (s.postLimited c sc k g x l).role m = s.role m) ∧ (∀ (m : Nat), (s.postLimited c sc k g x l).roleAsked m = s.roleAsked m) ∧
    (∀ (m : Nat), (s.postLimited c sc k g x l).pf m = s.pf m) ∧ (∀ (m : Nat), (s.postLimited c sc k g x l).hud m = s.hud m) ∧ (∀ (m : Nat), (s.postLimited c sc k g x l).pr m = s.pr m) ∧
    (∀ (m : Nat), (s.postLimited c sc k g x l).pp m = s.pp m) ∧ (∀ (m : Nat), (s.postLimited c sc k g x l).pa m = s.pa m) ∧ (∀ (m : Nat), (s.postLimited c sc k g x l).pt m = s.pt m) ∧
    (∀ (m : Nat), (s.postLimited c sc k g x l).px m = s.px m) ∧ (∀ (m : Nat), (s.postLimited c sc k g x l).lane m = s.lane m) ∧ (∀ (m : Nat), (s.postLimited c sc k g x l).timer m = s.timer m) ∧
    (∀ (m : Nat), (s.postLimited c sc k g x l).chan m = s.chan m) ∧ (∀ (m : Nat), (s.postLimited c sc k g x l).pq m = s.pq m) ∧ (∀ (m : Nat), (s.postLimited c sc k g x l).session m = s.session m) ∧
    (∀ (a : Nat), (s.postLimited c sc k g x l).sramByte a = s.sramByte a) := by
  rw [onlyObs_postLimited]
  exact ⟨fun _ => rfl, fun _ _ => rfl, fun _ _ => rfl, fun _ _ _ => rfl, fun _ => rfl, fun _ => rfl, fun _ => rfl, fun _ => rfl, fun _ => rfl, fun _ => rfl, fun _ => rfl, fun _ => rfl, fun _ => rfl, fun _ => rfl, fun _ => rfl, fun _ => rfl, fun _ => rfl, fun _ => rfl, fun _ => rfl⟩

@[simp] theorem finish_reads (s0 : State) :
    (∀ (a : Nat), (finish s0 s).reg a = s.reg a) ∧ (∀ (a : Nat) (f : Field), (finish s0 s).fld a f = s.fld a f) ∧ (∀ (a : Nat) (f : Field), (finish s0 s).flag a f = s.flag a f) ∧
    (∀ (a : Nat) (f : Field) (i : Nat), (finish s0 s).fldBit a f i = s.fldBit a f i) ∧ (∀ (m : Nat), (finish s0 s).role m = s.role m) ∧ (∀ (m : Nat), (finish s0 s).roleAsked m = s.roleAsked m) ∧
    (∀ (m : Nat), (finish s0 s).pf m = s.pf m) ∧ (∀ (m : Nat), (finish s0 s).hud m = s.hud m) ∧ (∀ (m : Nat), (finish s0 s).pr m = s.pr m) ∧
    (∀ (m : Nat), (finish s0 s).pp m = s.pp m) ∧ (∀ (m : Nat), (finish s0 s).pa m = s.pa m) ∧ (∀ (m : Nat), (finish s0 s).pt m = s.pt m) ∧
    (∀ (m : Nat), (finish s0 s).px m = s.px m) ∧ (∀ (m : Nat), (finish s0 s).lane m = s.lane m) ∧ (∀ (m : Nat), (finish s0 s).timer m = s.timer m) ∧
    (∀ (m : Nat), (finish s0 s).chan m = s.chan m) ∧ (∀ (m : Nat), (finish s0 s).pq m = s.pq m) ∧ (∀ (m : Nat), (finish s0 s).session m = s.session m) ∧
    (∀ (a : Nat), (finish s0 s).sramByte a = s.sramByte a) := by
  rw [onlyObs_finish]
  exact ⟨fun _ => rfl, fun _ _ => rfl, fun _ _ => rfl, fun _ _ _ => rfl, fun _ => rfl, fun _ => rfl, fun _ => rfl, fun _ => rfl, fun _ => rfl, fun _ => rfl, fun _ => rfl, fun _ => rfl, fun _ => rfl, fun _ => rfl, fun _ => rfl, fun _ => rfl, fun _ => rfl, fun _ => rfl, fun _ => rfl⟩

@[simp] theorem pf_modF_same (n : Port) (f : PortF → PortF) : (s.modF n f).pf n = f (s.pf n) := vget_vmod_same _ _ _ _ n.isLt

theorem pf_modF_ne (n m : Nat) (f : PortF → PortF) (h : m ≠ n) : (s.modF n f).pf m = s.pf m := vget_vmod_ne _ _ _ _ _ h

@[simp] theorem pr_modR_same (n : Port) (f : PortR → PortR) : (s.modR n f).pr n = f (s.pr n) := vget_vmod_same _ _ _ _ n.isLt

theorem pr_modR_ne (n m : Nat) (f : PortR → PortR) (h : m ≠ n) : (s.modR n f).pr m = s.pr m := vget_vmod_ne _ _ _ _ _ h

@[simp] theorem pp_modP_same (n : Port) (f : PortP → PortP) : (s.modP n f).pp n = f (s.pp n) := vget_vmod_same _ _ _ _ n.isLt

theorem pp_modP_ne (n m : Nat) (f : PortP → PortP) (h : m ≠ n) : (s.modP n f).pp m = s.pp m := vget_vmod_ne _ _ _ _ _ h

@[simp] theorem pa_modA_same (n : Port) (f : PortA → PortA) : (s.modA n f).pa n = f (s.pa n) := vget_vmod_same _ _ _ _ n.isLt

theorem pa_modA_ne (n m : Nat) (f : PortA → PortA) (h : m ≠ n) : (s.modA n f).pa m = s.pa m := vget_vmod_ne _ _ _ _ _ h

@[simp] theorem pt_modT_same (n : Port) (f : PortT → PortT) : (s.modT n f).pt n = f (s.pt n) := vget_vmod_same _ _ _ _ n.isLt

theorem pt_modT_ne (n m : Nat) (f : PortT → PortT) (h : m ≠ n) : (s.modT n f).pt m = s.pt m := vget_vmod_ne _ _ _ _ _ h

@[simp] theorem px_modX_same (n : Port) (f : PortX → PortX) : (s.modX n f).px n = f (s.px n) := vget_vmod_same _ _ _ _ n.isLt

theorem px_modX_ne (n m : Nat) (f : PortX → PortX) (h : m ≠ n) : (s.modX n f).px m = s.px m := vget_vmod_ne _ _ _ _ _ h

@[simp] theorem hud_modH_same (h : Huddle) (f : HuddleSt → HuddleSt) : (s.modH h f).hud h = f (s.hud h) := vget_vmod_same _ _ _ _ h.isLt

theorem hud_modH_ne (h m : Nat) (f : HuddleSt → HuddleSt) (hm : m ≠ h) : (s.modH h f).hud m = s.hud m := vget_vmod_ne _ _ _ _ _ hm

@[simp] theorem pf_modH (h m : Nat) (f : HuddleSt → HuddleSt) : (s.modH h f).pf m = s.pf m := rfl

@[simp] theorem hud_modF (n m : Nat) (f : PortF → PortF) : (s.modF n f).hud m = s.hud m := rfl

@[simp] theorem lane_modL_same (l : Lane) (f : LaneSt → LaneSt) : (s.modL l f).lane l = f (s.lane l) := vget_vmod_same _ _ _ _ l.isLt

theorem lane_modL_ne (l m : Nat) (f : LaneSt → LaneSt) (h : m ≠ l) : (s.modL l f).lane m = s.lane m := vget_vmod_ne _ _ _ _ _ h

@[simp] theorem timer_setTimer_same (k : TimerId) (x : TimerSt) : (s.setTimer k x).timer k = x := by
  simp [State.timer, State.setTimer]

theorem timer_setTimer_ne (k m : Nat) (x : TimerSt) (h : m ≠ k) : (s.setTimer k x).timer m = s.timer m := by
  simp [State.timer, State.setTimer, Ne.symm h]

@[simp] theorem chan_setChan_same (c : Chan) (x : CrcSt) : (s.setChan c x).chan c = x := by
  simp [State.chan, State.setChan]

theorem chan_setChan_ne (c m : Nat) (x : CrcSt) (h : m ≠ c) : (s.setChan c x).chan m = s.chan m := by
  simp [State.chan, State.setChan, Ne.symm h]

@[simp] theorem pq_setPq_same (n : Port) (q : PortQ) : (s.setPq n q).pq n = q := by
  simp [State.pq, State.setPq]

theorem pq_setPq_ne (n m : Nat) (q : PortQ) (h : m ≠ n) : (s.setPq n q).pq m = s.pq m := by
  simp [State.pq, State.setPq, Ne.symm h]

end Sys2Proof.Machine
end

