-- ==== Sys2Proof/Laws/Passing.lean ====
section
/-! SUPPORT. What the passing of time changes: device time, the record of events, the lines of the Sillage ring. Frames compose. -/

namespace Sys2Proof.Machine

/-! ### Frames -/

theorem Keeps.refl (l : List StatePart) (s : State) : Keeps l s s := by
  intro p _
  cases p <;> rfl

theorem StatePart.Same.trans {p : StatePart} {s t u : State} (h : p.Same s t) (k : p.Same t u) : p.Same s u := by
  cases p <;> exact Eq.trans k h

theorem Keeps.trans {l : List StatePart} {s t u : State} (h : Keeps l s t) (k : Keeps l t u) : Keeps l s u :=
  fun p hp => (h p hp).trans (k p hp)

theorem Keeps.mono {l k : List StatePart} {s t : State} (h : Keeps l s t) (hk : ∀ p ∈ l, p ∈ k) : Keeps k s t :=
  fun p hp => h p (fun c => hp (hk p c))

theorem keeps_advance (s : State) (n : Nat) : Keeps [.time, .obs, .sram] s (s.advance n) := by
  intro p hp
  cases p <;> first | exact absurd (by decide) hp | simp [StatePart.Same]

/-! ### The ring -/

theorem RingOnly.refl (s : State) : RingOnly s s := fun _ _ => rfl

theorem RingOnly.trans {s t u : State} (h : RingOnly s t) (k : RingOnly t u) : RingOnly s u :=
  fun a ha => (k a ha).trans (h a ha)

theorem RingOnly.of_sram {s t : State} (h : t.sram = s.sram) : RingOnly s t := fun a _ => by rw [State.sramByte, State.sramByte, h]

theorem OnlyObs.ring {s t : State} (h : OnlyObs s t) : RingOnly s t := RingOnly.of_sram (by rw [h])

theorem RingOnly.ite {s t u : State} {c : Prop} [Decidable c] (h : RingOnly s t) (k : RingOnly s u) : RingOnly s (if c then t else u) := by
  split
  · exact h
  · exact k

theorem length_unpackWords (l : List Word) : (unpackWords l).length = 4 * l.length := by
  induction l with
  | nil => rfl
  | cons w t ih => simp [unpackWords, wordBytes, ih]; omega

theorem length_leBytes (n v : Nat) : (leBytes n v).length = n := by
  induction n generalizing v with
  | zero => rfl
  | succ n ih => simp [leBytes, ih]

/-- A record takes 64 bytes (R439). -/
theorem length_recBytes (r : Rec) : r.bytes.length = 64 := by
  simp [Rec.bytes, Rec.body, length_unpackWords, length_leBytes, wordBytes]
  omega

theorem ringOnly_ringPut (s : State) (r : Rec) : RingOnly s (s.ringPut r) := by
  unfold State.ringPut
  split
  · rename_i l _
    intro a ha
    refine Sparse.get_write_ne _ _ _ _ _ ?_
    rw [length_recBytes, lineAddr]
    omega
  · exact ((onlyObs_silDrop s _).trans (onlyObs_count _ _)).ring

theorem ringOnly_ringMove (s : State) : RingOnly s s.ringMove := by
  unfold State.ringMove
  dsimp only
  split
  · split
    · exact ((onlyObs_setSil s _).trans (onlyObs_holdPut _ _)).ring
    · exact RingOnly.refl s
  · split
    · exact RingOnly.ite ((onlyObs_setSil s _).trans (onlyObs_vaultPut _ _)).ring ((onlyObs_setSil s _).ring.trans (ringOnly_ringPut _ _))
    · exact RingOnly.ite ((onlyObs_setSil s _).trans (onlyObs_vaultPut _ _)).ring ((onlyObs_setSil s _).ring.trans (ringOnly_ringPut _ _))
    · exact RingOnly.refl s

theorem ringOnly_moves (n : Nat) (s : State) : RingOnly s (State.moves n s) := by
  induction n generalizing s with
  | zero => exact RingOnly.refl s
  | succ n ih => exact ((ringOnly_ringMove s).trans (onlyObs_evqMove _).ring).trans (ih _)

theorem ringOnly_settle (s : State) : RingOnly s s.settle := by
  unfold State.settle
  refine RingOnly.ite (RingOnly.refl s) (RingOnly.trans ?_ (onlyObs_flush _).ring)
  exact RingOnly.trans (t := { s with time := s.time + cycle }) (fun _ _ => rfl) (ringOnly_moves _ _)

theorem ringOnly_advance (s : State) (n : Nat) : RingOnly s (s.advance n) := by
  unfold State.advance
  refine RingOnly.ite (RingOnly.refl s) ?_
  dsimp only
  have h : RingOnly s (if s.time + cycle ≤ n then s.settle else s) := RingOnly.ite (ringOnly_settle s) (RingOnly.refl s)
  generalize (if s.time + cycle ≤ n then s.settle else s) = u at h ⊢
  exact ((h.trans (t := u) (u := { u with time := n }) (fun _ _ => rfl)).trans (ringOnly_moves _ _)).trans (RingOnly.of_sram rfl)

theorem passes_advance (s : State) (n : Nat) : Passes n [] s (s.advance n) :=
  ⟨advance_time s n, ringOnly_advance s n, keeps_advance s n⟩

/-- A change of other parts after time has passed. -/
theorem Passes.of_keeps {n : Nat} {l : List StatePart} {s t : State} (h : Keeps l (s.advance n) t) (ht : t.time = (s.advance n).time)
    (hs : t.sram = (s.advance n).sram) : Passes n l s t := by
  refine ⟨ht.trans (advance_time s n), (ringOnly_advance s n).trans (RingOnly.of_sram hs), ?_⟩
  exact ((keeps_advance s n).mono (by simp)).trans (h.mono (by simp +contextual))

end Sys2Proof.Machine
end

