-- ==== Sys2Proof/Laws/Answers.lean ====
section
/-! SUPPORT. How each class of commands answers: where its block works, with its own effect, closed. -/

namespace Sys2Proof.Machine

variable {c : Instr} {s : State} {f : State → State} {P : State → Prop}

theorem does_done {t : State} (h : exec c s = done s t) (hp : P t) : Does c s P := ⟨t, h, hp⟩

theorem does_core (h : exec c s = s.core f) (hr : Running s) (hp : P (f s)) : Does c s P :=
  ⟨f s, by rw [h, State.core, hr.1, hr.2]; rfl, hp⟩

theorem does_coreAll (h : exec c s = s.coreAll f) (hr : Clocked s) (hp : P (f s)) : Does c s P :=
  ⟨f s, by rw [h, State.coreAll, if_pos (show s.live = true from hr)]; rfl, hp⟩

theorem does_mon (h : exec c s = s.mon f) (hr : Monitored s) (hp : P (f s)) : Does c s P :=
  ⟨f s, by rw [h, State.mon, if_neg (by simp [hr.1, hr.2])]; rfl, hp⟩

theorem does_host (h : exec c s = s.host f) (hr : HostReady s) (hp : P (f s)) : Does c s P :=
  does_coreAll (f := fun s => if s.hostFree then f s else s) h hr.1 (by rw [if_pos hr.2]; exact hp)

/-- A command of CORE while CLK_CORE is stopped or in SAFE BOOT changes nothing. -/
theorem core_stopped (h : ¬ Running s) : s.core f = .next (finish s s) := by
  unfold State.core done
  rw [if_neg]
  intro k
  simp only [Bool.and_eq_true, Bool.not_eq_true'] at k
  exact h k

/-- From a command's own meaning: what its class answers. -/
theorem does_of {o : Out} (e : exec c s = o) (h : ∃ t, o = .next (finish s t) ∧ P t) : Does c s P := by
  rw [Does, e]; exact h

theorem done_does {t : State} (hp : P t) : ∃ u, done s t = .next (finish s u) ∧ P u := ⟨t, rfl, hp⟩

theorem core_does (hr : Running s) (hp : P (f s)) : ∃ t, s.core f = .next (finish s t) ∧ P t :=
  ⟨f s, by rw [State.core, hr.1, hr.2]; rfl, hp⟩

theorem coreAll_does (hr : Clocked s) (hp : P (f s)) : ∃ t, s.coreAll f = .next (finish s t) ∧ P t :=
  ⟨f s, by rw [State.coreAll, if_pos (show s.live = true from hr)]; rfl, hp⟩

theorem mon_does (hr : Monitored s) (hp : P (f s)) : ∃ t, s.mon f = .next (finish s t) ∧ P t :=
  ⟨f s, by rw [State.mon, if_neg (by simp [hr.1, hr.2])]; rfl, hp⟩

theorem host_does (hr : HostReady s) (hp : P (f s)) : ∃ t, s.host f = .next (finish s t) ∧ P t :=
  coreAll_does hr.1 (by rw [if_pos hr.2]; exact hp)

/-- A command that needs CLK_CORE changes nothing while it is stopped. -/
theorem coreAll_stopped (h : s.live = false) : s.coreAll f = .next (finish s s) := by
  unfold State.coreAll done
  rw [if_neg (by simp [h])]

end Sys2Proof.Machine
end

