-- ==== Sys2Proof/Laws/Within.lean ====
section
/-! SUPPORT. `Within`: the basic operations stay within a scope that names what they write. -/

namespace Sys2Proof.Machine

/-! ### Scopes -/

/-- One scope names no more than another. -/
structure Scope.Le (c d : Scope) : Prop where
  parts : ∀ p ∈ c.parts, p ∈ d.parts
  regs : ∀ r ∈ c.regs, r ∈ d.regs
  bytes : ∀ m ∈ c.bytes, m ∈ d.bytes

/-- Whether one scope names no more than another. -/
def Scope.le (c d : Scope) : Bool :=
  (c.parts.all fun p => decide (p ∈ d.parts)) && (c.regs.all fun r => decide (r ∈ d.regs)) && (c.bytes.all fun m => decide (m ∈ d.bytes))

theorem Scope.Le.of {c d : Scope} (h : c.le d = true) : c.Le d := by
  simp only [Scope.le, Bool.and_eq_true, List.all_eq_true, decide_eq_true_eq] at h
  exact ⟨h.1.1, h.1.2, h.2⟩

theorem Scope.Le.trans {c d e : Scope} (h : c.le d = true) (k : d.Le e) : c.Le e :=
  ⟨fun p hp => k.parts p ((Scope.Le.of h).parts p hp), fun r hr => k.regs r ((Scope.Le.of h).regs r hr),
   fun m hm => k.bytes m ((Scope.Le.of h).bytes m hm)⟩

theorem Scope.Le.refl (c : Scope) : c.Le c := ⟨fun _ h => h, fun _ h => h, fun _ h => h⟩

/-! ### Composition -/

theorem Within.refl (c : Scope) (s : State) : Within c s s := ⟨Keeps.refl _ s, fun _ _ => rfl, fun _ _ => rfl⟩

theorem Within.trans {c : Scope} {s t u : State} (h : Within c s t) (k : Within c t u) : Within c s u :=
  ⟨h.parts.trans k.parts, fun a ha => (k.regs a ha).trans (h.regs a ha), fun a ha => (k.bytes a ha).trans (h.bytes a ha)⟩

theorem Within.mono {c d : Scope} {s t : State} (hc : c.Le d) (h : Within c s t) : Within d s t :=
  ⟨h.parts.mono hc.parts, fun a ha => h.regs a fun r hr => ha r (hc.regs r hr), fun a ha => h.bytes a fun m hm => ha m (hc.bytes m hm)⟩

/-- A change within `c` after a change within a wider scope. -/
theorem Within.andThen {c d : Scope} {s t u : State} (hc : c.Le d) (h : Within d s t) (k : Within c t u) : Within d s u := h.trans (k.mono hc)

variable {c : Scope} {s0 s : State}

theorem within_ite {p : Prop} [Decidable p] {t : State} (h : Within c s0 s) (k : Within c s0 t) : Within c s0 (if p then s else t) := by
  split
  · exact h
  · exact k

theorem within_foldl {α : Type} (f : State → α → State) (h : ∀ t, Within c s0 t → ∀ a, Within c s0 (f t a)) (l : List α) (s : State)
    (hs : Within c s0 s) : Within c s0 (l.foldl f s) := by
  induction l generalizing s with
  | nil => exact hs
  | cons a t ih => exact ih _ (h s hs a)

theorem within_each (f : Nat → State → State) (h : ∀ n t, Within c s0 t → Within c s0 (f n t)) (n : Nat) (s : State) (hs : Within c s0 s) :
    Within c s0 (State.each f n s) := by
  induction n with
  | zero => exact hs
  | succ n ih => exact h n _ ih

/-! ### Registers -/

theorem within_reg (a : Nat) (w : Word) (x : Nat × Nat × Nat) (n : Nat) (hn : n < x.2.2) (ha : a = x.1 + n * x.2.1)
    (hc : Scope.Le ⟨[.regs], [x], []⟩ c) (h : Within c s0 s) : Within c s0 (s.setReg a w) := by
  refine Within.andThen hc h ⟨fun p hp => ?_, fun b hb => ?_, fun _ _ => rfl⟩
  · replace hp : p ∉ [StatePart.regs] := hp
    cases p <;> first | exact absurd (by decide) hp | rfl
  · exact reg_setReg_ne s a b w (fun e => hb x (by simp) n hn (e.trans ha))

section
variable (a : Nat) (fd : Field) (v i : Nat) (w : Word) (b : Bool) (hc : Scope.Le ⟨[.regs], [one a], []⟩ c) (h : Within c s0 s)
include hc h

theorem within_setReg : Within c s0 (s.setReg a w) := within_reg a w (one a) 0 Nat.one_pos (by simp [one]) hc h
theorem within_setFld : Within c s0 (s.setFld a fd v) := within_setReg a _ hc h
theorem within_bumpBy : Within c s0 (s.bumpBy a fd v) := within_setReg a _ hc h
theorem within_bump : Within c s0 (s.bump a fd) := within_setReg a _ hc h
theorem within_setFldBit : Within c s0 (s.setFldBit a fd i b) := within_setReg a _ hc h

end

section
variable (f : Nat → Nat) (k : Nat) (hk : 0 < k) (hf : ∀ n, f n = f 0 + n % k * (f 1 - f 0)) (n : Nat) (fd : Field) (v i : Nat) (w : Word)
  (b : Bool) (hc : Scope.Le ⟨[.regs], [each f k], []⟩ c) (h : Within c s0 s)
include hk hf hc h

theorem within_setReg_of : Within c s0 (s.setReg (f n) w) := within_reg _ w (each f k) (n % k) (Nat.mod_lt n hk) (hf n) hc h
theorem within_setFld_of : Within c s0 (s.setFld (f n) fd v) := within_setReg_of f k hk hf n _ hc h
theorem within_bumpBy_of : Within c s0 (s.bumpBy (f n) fd v) := within_setReg_of f k hk hf n _ hc h
theorem within_bump_of : Within c s0 (s.bump (f n) fd) := within_setReg_of f k hk hf n _ hc h
theorem within_setFldBit_of : Within c s0 (s.setFldBit (f n) fd i b) := within_setReg_of f k hk hf n _ hc h

end

/-! ### Parts -/

/-- A change of parts other than registers and the SRAM window. -/
theorem within_parts {t : State} (l : List StatePart) (hk : Keeps l s t) (hr : t.regs = s.regs) (hs : t.sram = s.sram)
    (hc : Scope.Le ⟨l, [], []⟩ c) (h : Within c s0 s) : Within c s0 t :=
  Within.andThen hc h ⟨hk, fun a _ => reg_of_regs hr a, fun a _ => by rw [State.sramByte, State.sramByte, hs]⟩

/-- A write of bytes in a range. -/
theorem within_sramWrite (a : Nat) (l : List Byte) (m : Nat × Nat) (h1 : m.1 ≤ a) (h2 : a + l.length ≤ m.2)
    (hc : Scope.Le ⟨[.sram], [], [m]⟩ c) (h : Within c s0 s) : Within c s0 (s.sramWrite a l) := by
  refine Within.andThen hc h ⟨fun p hp => ?_, fun _ _ => rfl, fun b hb => ?_⟩
  · replace hp : p ∉ [StatePart.sram] := hp
    cases p <;> first | exact absurd (by decide) hp | rfl
  · have := hb m (by simp)
    exact Sparse.get_write_ne _ _ _ _ _ (by omega)

theorem within_obs {t : State} (ho : OnlyObs s t) (hc : Scope.Le ⟨[.obs], [], []⟩ c) (h : Within c s0 s) : Within c s0 t := by
  refine within_parts [.obs] (fun p hp => ?_) (by rw [ho]) (by rw [ho]) hc h
  rw [ho]
  cases p <;> first | exact absurd (by decide) hp | rfl

theorem within_advance (n : Nat) (hc : Scope.Le ⟨[.time, .obs, .sram], [], [ringBytes]⟩ c) (h : Within c s0 s) : Within c s0 (s.advance n) := by
  refine Within.andThen hc h ⟨keeps_advance s n, fun a _ => reg_of_regs (by simp) a, fun a ha => ringOnly_advance s n a ?_⟩
  simpa [ringBytes] using ha ringBytes (by simp)

/-- The note of a sticky bit that a write of registers has set (R13). -/
theorem within_noted (a : Nat) (w : Word) (l : List (Nat × Nat × Nat)) (hc : Scope.Le ⟨[.regs, .obs], l, []⟩ c)
    (h : Scope.Le ⟨[.regs], l, []⟩ c → Within c s0 s) : Within c s0 (s.noteSet a w) :=
  within_obs (onlyObs_noteSet s a w) ⟨fun p hp => hc.parts p (List.mem_cons_of_mem _ hp), fun _ k => absurd k List.not_mem_nil, hc.bytes⟩
    (h ⟨fun p hp => hc.parts p (List.mem_cons.2 (.inl (List.mem_singleton.1 hp))), hc.regs, hc.bytes⟩)

theorem within_stick (a : Nat) (fd : Field) (hc : Scope.Le ⟨[.regs, .obs], [one a], []⟩ c) (h : Within c s0 s) :
    Within c s0 (s.stick a fd) :=
  within_noted a _ [one a] hc fun k => within_setFld a fd 1 k h

theorem within_stickBit (a : Nat) (fd : Field) (i : Nat) (hc : Scope.Le ⟨[.regs, .obs], [one a], []⟩ c) (h : Within c s0 s) :
    Within c s0 (s.stickBit a fd i) :=
  within_noted a _ [one a] hc fun k => within_setFldBit a fd i true k h

theorem within_stick_of (f : Nat → Nat) (k : Nat) (hk : 0 < k) (hf : ∀ n, f n = f 0 + n % k * (f 1 - f 0)) (n : Nat) (fd : Field)
    (hc : Scope.Le ⟨[.regs, .obs], [each f k], []⟩ c) (h : Within c s0 s) : Within c s0 (s.stick (f n) fd) :=
  within_noted (f n) _ [each f k] hc fun m => within_setFld_of f k hk hf n fd 1 m h

/-! ### Single operations -/

variable {cc : Scope} {ss : State}

section

variable (hc : Scope.Le ⟨[.obs], [], []⟩ cc) (h_s : Within cc ss s)
include hc h_s

theorem within_countBy (i n : Nat) : Within cc ss (s.countBy i n) := within_obs (onlyObs_countBy s i n) hc h_s
theorem within_count (i : Nat) : Within cc ss (s.count i) := within_obs (onlyObs_count s i) hc h_s
theorem within_post (c : Nat) (k : Note) (a : Nat) : Within cc ss (s.post c k a) := within_obs (onlyObs_post s c k a) hc h_s
theorem within_closeWin (w : Window) : Within cc ss (s.closeWin w) := within_obs (onlyObs_closeWin s w) hc h_s
theorem within_postLimited (c sc : Nat) (k : Note) (f : ArgForm) (a : Word) (n : Nat) :
    Within cc ss (s.postLimited c sc k f a n) := within_obs (onlyObs_postLimited s c sc k f a n) hc h_s
theorem within_postSec (c sc : Nat) (k : Note) (a : Nat) : Within cc ss (s.postSec c sc k a) := within_obs (onlyObs_postSec s c sc k a) hc h_s
theorem within_postSecCount (c sc : Nat) (k : Note) : Within cc ss (s.postSecCount c sc k) := within_obs (onlyObs_postSecCount s c sc k) hc h_s
theorem within_setSil (x : SilSt) : Within cc ss (s.setSil x) := within_obs (onlyObs_setSil s x) hc h_s
theorem within_setEvq (x : EvqSt) : Within cc ss (s.setEvq x) := within_obs (onlyObs_setEvq s x) hc h_s
theorem within_setTrc (x : TrcSt) : Within cc ss (s.setTrc x) := within_obs (onlyObs_setTrc s x) hc h_s
theorem within_noteSet (a : Nat) (w : Word) : Within cc ss (s.noteSet a w) := within_obs (onlyObs_noteSet s a w) hc h_s
theorem within_setWins (l : List Window) : Within cc ss (s.setWins l) := within_obs rfl hc h_s
theorem within_refuse (b : Nat) : Within cc ss (s.refuse b) := within_obs (onlyObs_count s b) hc h_s
theorem within_postEvent (e : Event) : Within cc ss (s.postEvent e) := within_obs rfl hc h_s

end

theorem within_with_time (x0 : Nat) (hc : Scope.Le ⟨[.time], [], []⟩ cc) (h_s : Within cc ss s) :
    Within cc ss { s with time := x0 } :=
  within_parts (s := s) [.time] (fun p hp => by cases p <;> first | exact absurd (by decide) hp | rfl) rfl rfl hc h_s

theorem within_with_profiles (x0 : List Profile) (hc : Scope.Le ⟨[.profiles], [], []⟩ cc) (h_s : Within cc ss s) :
    Within cc ss { s with profiles := x0 } :=
  within_parts (s := s) [.profiles] (fun p hp => by cases p <;> first | exact absurd (by decide) hp | rfl) rfl rfl hc h_s

theorem within_with_gen (x0 : GenSt) (hc : Scope.Le ⟨[.gen], [], []⟩ cc) (h_s : Within cc ss s) :
    Within cc ss { s with gen := x0 } :=
  within_parts (s := s) [.gen] (fun p hp => by cases p <;> first | exact absurd (by decide) hp | rfl) rfl rfl hc h_s

theorem within_with_pwr (x0 : PwrSt) (hc : Scope.Le ⟨[.pwr], [], []⟩ cc) (h_s : Within cc ss s) :
    Within cc ss { s with pwr := x0 } :=
  within_parts (s := s) [.pwr] (fun p hp => by cases p <;> first | exact absurd (by decide) hp | rfl) rfl rfl hc h_s

theorem within_with_tmr (x0 : Vector TimerSt 8) (hc : Scope.Le ⟨[.tmr], [], []⟩ cc) (h_s : Within cc ss s) :
    Within cc ss { s with tmr := x0 } :=
  within_parts (s := s) [.tmr] (fun p hp => by cases p <;> first | exact absurd (by decide) hp | rfl) rfl rfl hc h_s

theorem within_with_que (x0 : Vector PortQ 16) (hc : Scope.Le ⟨[.que], [], []⟩ cc) (h_s : Within cc ss s) :
    Within cc ss { s with que := x0 } :=
  within_parts (s := s) [.que] (fun p hp => by cases p <;> first | exact absurd (by decide) hp | rfl) rfl rfl hc h_s

theorem within_with_crc (x0 : Vector CrcSt 4) (hc : Scope.Le ⟨[.crc], [], []⟩ cc) (h_s : Within cc ss s) :
    Within cc ss { s with crc := x0 } :=
  within_parts (s := s) [.crc] (fun p hp => by cases p <;> first | exact absurd (by decide) hp | rfl) rfl rfl hc h_s

theorem within_with_cfg (x0 : CfgSt) (hc : Scope.Le ⟨[.cfg], [], []⟩ cc) (h_s : Within cc ss s) :
    Within cc ss { s with cfg := x0 } :=
  within_parts (s := s) [.cfg] (fun p hp => by cases p <;> first | exact absurd (by decide) hp | rfl) rfl rfl hc h_s

theorem within_with_hif (x0 : HifSt) (hc : Scope.Le ⟨[.hif], [], []⟩ cc) (h_s : Within cc ss s) :
    Within cc ss { s with hif := x0 } :=
  within_parts (s := s) [.hif] (fun p hp => by cases p <;> first | exact absurd (by decide) hp | rfl) rfl rfl hc h_s

theorem within_with_field (x0 : FldSt) (hc : Scope.Le ⟨[.field], [], []⟩ cc) (h_s : Within cc ss s) :
    Within cc ss { s with field := x0 } :=
  within_parts (s := s) [.field] (fun p hp => by cases p <;> first | exact absurd (by decide) hp | rfl) rfl rfl hc h_s

theorem within_with_tun (x0 : TunSt) (hc : Scope.Le ⟨[.tun], [], []⟩ cc) (h_s : Within cc ss s) :
    Within cc ss { s with tun := x0 } :=
  within_parts (s := s) [.tun] (fun p hp => by cases p <;> first | exact absurd (by decide) hp | rfl) rfl rfl hc h_s

theorem within_with_rxe (x0 : Vector PortR 16) (hc : Scope.Le ⟨[.rxe], [], []⟩ cc) (h_s : Within cc ss s) :
    Within cc ss { s with rxe := x0 } :=
  within_parts (s := s) [.rxe] (fun p hp => by cases p <;> first | exact absurd (by decide) hp | rfl) rfl rfl hc h_s

theorem within_with_pro (x0 : Vector PortP 16) (hc : Scope.Le ⟨[.pro], [], []⟩ cc) (h_s : Within cc ss s) :
    Within cc ss { s with pro := x0 } :=
  within_parts (s := s) [.pro] (fun p hp => by cases p <;> first | exact absurd (by decide) hp | rfl) rfl rfl hc h_s

theorem within_with_sess (x0 : List (Nat × Session)) (hc : Scope.Le ⟨[.sess], [], []⟩ cc) (h_s : Within cc ss s) :
    Within cc ss { s with sess := x0 } :=
  within_parts (s := s) [.sess] (fun p hp => by cases p <;> first | exact absurd (by decide) hp | rfl) rfl rfl hc h_s

theorem within_with_overflow (x0 : List OvfEntry) (hc : Scope.Le ⟨[.overflow], [], []⟩ cc) (h_s : Within cc ss s) :
    Within cc ss { s with overflow := x0 } :=
  within_parts (s := s) [.overflow] (fun p hp => by cases p <;> first | exact absurd (by decide) hp | rfl) rfl rfl hc h_s

theorem within_with_acd (x0 : Vector PortA 16) (hc : Scope.Le ⟨[.acd], [], []⟩ cc) (h_s : Within cc ss s) :
    Within cc ss { s with acd := x0 } :=
  within_parts (s := s) [.acd] (fun p hp => by cases p <;> first | exact absurd (by decide) hp | rfl) rfl rfl hc h_s

theorem within_with_quar (x0 : List Quar) (hc : Scope.Le ⟨[.quar], [], []⟩ cc) (h_s : Within cc ss s) :
    Within cc ss { s with quar := x0 } :=
  within_parts (s := s) [.quar] (fun p hp => by cases p <;> first | exact absurd (by decide) hp | rfl) rfl rfl hc h_s

theorem within_with_kpr (x0 : KprSt) (hc : Scope.Le ⟨[.kpr], [], []⟩ cc) (h_s : Within cc ss s) :
    Within cc ss { s with kpr := x0 } :=
  within_parts (s := s) [.kpr] (fun p hp => by cases p <;> first | exact absurd (by decide) hp | rfl) rfl rfl hc h_s

theorem within_with_sto (x0 : StoSt) (hc : Scope.Le ⟨[.sto], [], []⟩ cc) (h_s : Within cc ss s) :
    Within cc ss { s with sto := x0 } :=
  within_parts (s := s) [.sto] (fun p hp => by cases p <;> first | exact absurd (by decide) hp | rfl) rfl rfl hc h_s

theorem within_with_emu (x0 : EmuSt) (hc : Scope.Le ⟨[.emu], [], []⟩ cc) (h_s : Within cc ss s) :
    Within cc ss { s with emu := x0 } :=
  within_parts (s := s) [.emu] (fun p hp => by cases p <;> first | exact absurd (by decide) hp | rfl) rfl rfl hc h_s

theorem within_with_cox (x0 : CoxSt) (hc : Scope.Le ⟨[.cox], [], []⟩ cc) (h_s : Within cc ss s) :
    Within cc ss { s with cox := x0 } :=
  within_parts (s := s) [.cox] (fun p hp => by cases p <;> first | exact absurd (by decide) hp | rfl) rfl rfl hc h_s

theorem within_with_saf (x0 : SafSt) (hc : Scope.Le ⟨[.saf], [], []⟩ cc) (h_s : Within cc ss s) :
    Within cc ss { s with saf := x0 } :=
  within_parts (s := s) [.saf] (fun p hp => by cases p <;> first | exact absurd (by decide) hp | rfl) rfl rfl hc h_s

theorem within_with_pins (x0 : PinSt) (hc : Scope.Le ⟨[.pins], [], []⟩ cc) (h_s : Within cc ss s) :
    Within cc ss { s with pins := x0 } :=
  within_parts (s := s) [.pins] (fun p hp => by cases p <;> first | exact absurd (by decide) hp | rfl) rfl rfl hc h_s

theorem within_with_free (x0 : Nat) (hc : Scope.Le ⟨[.free], [], []⟩ cc) (h_s : Within cc ss s) :
    Within cc ss { s with free := x0 } :=
  within_parts (s := s) [.free] (fun p hp => by cases p <;> first | exact absurd (by decide) hp | rfl) rfl rfl hc h_s

theorem within_with_obs (x0 : Obs) (hc : Scope.Le ⟨[.obs], [], []⟩ cc) (h_s : Within cc ss s) :
    Within cc ss { s with obs := x0 } :=
  within_parts (s := s) [.obs] (fun p hp => by cases p <;> first | exact absurd (by decide) hp | rfl) rfl rfl hc h_s

theorem within_with_hif_emu (x0 : HifSt) (x1 : EmuSt) (hc : Scope.Le ⟨[.hif, .emu], [], []⟩ cc) (h_s : Within cc ss s) :
    Within cc ss { s with hif := x0, emu := x1 } :=
  within_parts (s := s) [.hif, .emu] (fun p hp => by cases p <;> first | exact absurd (by decide) hp | rfl) rfl rfl hc h_s

theorem within_with_time_pwr_pins (x0 : Nat) (x1 : PwrSt) (x2 : PinSt) (hc : Scope.Le ⟨[.time, .pwr, .pins], [], []⟩ cc) (h_s : Within cc ss s) :
    Within cc ss { s with time := x0, pwr := x1, pins := x2 } :=
  within_parts (s := s) [.time, .pwr, .pins] (fun p hp => by cases p <;> first | exact absurd (by decide) hp | rfl) rfl rfl hc h_s

theorem within_with_pwr_saf (x0 : PwrSt) (x1 : SafSt) (hc : Scope.Le ⟨[.pwr, .saf], [], []⟩ cc) (h_s : Within cc ss s) :
    Within cc ss { s with pwr := x0, saf := x1 } :=
  within_parts (s := s) [.pwr, .saf] (fun p hp => by cases p <;> first | exact absurd (by decide) hp | rfl) rfl rfl hc h_s

theorem within_with_field_tun (x0 : FldSt) (x1 : TunSt) (hc : Scope.Le ⟨[.field, .tun], [], []⟩ cc) (h_s : Within cc ss s) :
    Within cc ss { s with field := x0, tun := x1 } :=
  within_parts (s := s) [.field, .tun] (fun p hp => by cases p <;> first | exact absurd (by decide) hp | rfl) rfl rfl hc h_s

theorem within_with_time_tmr_tun (x0 : Nat) (x1 : Vector TimerSt 8) (x2 : TunSt) (hc : Scope.Le ⟨[.time, .tmr, .tun], [], []⟩ cc) (h_s : Within cc ss s) :
    Within cc ss { s with time := x0, tmr := x1, tun := x2 } :=
  within_parts (s := s) [.time, .tmr, .tun] (fun p hp => by cases p <;> first | exact absurd (by decide) hp | rfl) rfl rfl hc h_s

theorem within_with_pwr_field (x0 : PwrSt) (x1 : FldSt) (hc : Scope.Le ⟨[.pwr, .field], [], []⟩ cc) (h_s : Within cc ss s) :
    Within cc ss { s with pwr := x0, field := x1 } :=
  within_parts (s := s) [.pwr, .field] (fun p hp => by cases p <;> first | exact absurd (by decide) hp | rfl) rfl rfl hc h_s

theorem within_with_gen_kpr_saf (x0 : GenSt) (x1 : KprSt) (x2 : SafSt) (hc : Scope.Le ⟨[.gen, .kpr, .saf], [], []⟩ cc) (h_s : Within cc ss s) :
    Within cc ss { s with gen := x0, kpr := x1, saf := x2 } :=
  within_parts (s := s) [.gen, .kpr, .saf] (fun p hp => by cases p <;> first | exact absurd (by decide) hp | rfl) rfl rfl hc h_s

end Sys2Proof.Machine
end

