-- ==== Sys2Proof/Laws/WithinQueues.lean ====
section
/-! SUPPORT. The log, the queues, the monitors, the geometry tables, the roster keeper and the air model: each operation stays within a scope that names what it writes. -/

namespace Sys2Proof.Machine

variable {cc : Scope} {ss : State}
theorem within_setPq (s : State) (n : Nat) (q : PortQ) (hc : Scope.Le ⟨[.que], [], []⟩ cc) (h_s : Within cc ss s) : Within cc ss
    (State.setPq s n q) := by
  unfold State.setPq
  with_reducible repeat' first | assumption | intro _ | with_unfolding_all exact Scope.Le.trans rfl hc | apply within_with_que

theorem within_setChan (s : State) (c : Nat) (x : CrcSt) (hc : Scope.Le ⟨[.crc], [], []⟩ cc) (h_s : Within cc ss s) : Within cc ss
    (State.setChan s c x) := by
  unfold State.setChan
  with_reducible repeat' first | assumption | intro _ | with_unfolding_all exact Scope.Le.trans rfl hc | apply within_with_crc

theorem within_setTimer (s : State) (k : Nat) (x : TimerSt) (hc : Scope.Le ⟨[.tmr], [], []⟩ cc) (h_s : Within cc ss s) : Within cc ss
    (State.setTimer s k x) := by
  unfold State.setTimer
  with_reducible repeat' first | assumption | intro _ | with_unfolding_all exact Scope.Le.trans rfl hc | apply within_with_tmr

theorem within_modF (s : State) (n : Nat) (f : PortF → PortF) (hc : Scope.Le ⟨[.field], [], []⟩ cc) (h_s : Within cc ss s) : Within cc ss
    (State.modF s n f) := by
  unfold State.modF
  with_reducible repeat' first
    | assumption | intro _ | with_unfolding_all exact Scope.Le.trans rfl hc | apply within_reset | apply within_with_field

theorem within_modR (s : State) (n : Nat) (f : PortR → PortR) (hc : Scope.Le ⟨[.rxe], [], []⟩ cc) (h_s : Within cc ss s) : Within cc ss
    (State.modR s n f) := by
  unfold State.modR
  with_reducible repeat' first
    | assumption | intro _ | with_unfolding_all exact Scope.Le.trans rfl hc | apply within_reset | apply within_with_rxe

theorem within_modP (s : State) (n : Nat) (f : PortP → PortP) (hc : Scope.Le ⟨[.pro], [], []⟩ cc) (h_s : Within cc ss s) : Within cc ss
    (State.modP s n f) := by
  unfold State.modP
  with_reducible repeat' first
    | assumption | intro _ | with_unfolding_all exact Scope.Le.trans rfl hc | apply within_reset | apply within_with_pro

theorem within_modA (s : State) (n : Nat) (f : PortA → PortA) (hc : Scope.Le ⟨[.acd], [], []⟩ cc) (h_s : Within cc ss s) : Within cc ss
    (State.modA s n f) := by
  unfold State.modA
  with_reducible repeat' first
    | assumption | intro _ | with_unfolding_all exact Scope.Le.trans rfl hc | apply within_reset | apply within_with_acd

theorem within_modT (s : State) (n : Nat) (f : PortT → PortT) (hc : Scope.Le ⟨[.tun], [], []⟩ cc) (h_s : Within cc ss s) : Within cc ss
    (State.modT s n f) := by
  unfold State.modT
  with_reducible repeat' first
    | assumption | intro _ | with_unfolding_all exact Scope.Le.trans rfl hc | apply within_reset | apply within_with_tun

theorem within_modX (s : State) (n : Nat) (f : PortX → PortX) (hc : Scope.Le ⟨[.cox], [], []⟩ cc) (h_s : Within cc ss s) : Within cc ss
    (State.modX s n f) := by
  unfold State.modX
  with_reducible repeat' first
    | assumption | intro _ | with_unfolding_all exact Scope.Le.trans rfl hc | apply within_reset | apply within_with_cox

theorem within_modH (s : State) (h : Nat) (f : HuddleSt → HuddleSt) (hc : Scope.Le ⟨[.field], [], []⟩ cc) (h_s : Within cc ss s) : Within
    cc ss (State.modH s h f) := by
  unfold State.modH
  with_reducible repeat' first
    | assumption | intro _ | with_unfolding_all exact Scope.Le.trans rfl hc | apply within_reset | apply within_with_field

theorem within_modL (s : State) (l : Nat) (f : LaneSt → LaneSt) (hc : Scope.Le ⟨[.kpr], [], []⟩ cc) (h_s : Within cc ss s) : Within cc ss
    (State.modL s l f) := by
  unfold State.modL
  with_reducible repeat' first
    | assumption | intro _ | with_unfolding_all exact Scope.Le.trans rfl hc | apply within_reset | apply within_with_kpr

theorem within_putSess (s : State) (k : Nat) (x : Session) (hc : Scope.Le ⟨[.sess], [], []⟩ cc) (h_s : Within cc ss s) : Within cc ss
    (State.putSess s k x) := by
  unfold State.putSess
  with_reducible repeat' first | assumption | intro _ | with_unfolding_all exact Scope.Le.trans rfl hc | apply within_with_sess

theorem within_modSess (s : State) (k : Nat) (f : Session → Session) (hc : Scope.Le ⟨[.sess], [], []⟩ cc) (h_s : Within cc ss s) : Within
    cc ss (State.modSess s k f) := by
  unfold State.modSess
  with_reducible repeat' first
    | assumption | intro _ | with_unfolding_all exact Scope.Le.trans rfl hc | apply within_ite | apply within_putSess | split

theorem within_freeSess (s : State) (k : Nat) (hc : Scope.Le ⟨[.sess], [], []⟩ cc) (h_s : Within cc ss s) : Within cc ss (State.freeSess s
    k) := by
  unfold State.freeSess
  with_reducible repeat' first | assumption | intro _ | with_unfolding_all exact Scope.Le.trans rfl hc | apply within_with_sess

theorem within_modeConflict (s : State) (n : Nat) (hc : Scope.Le ⟨[.obs], [], []⟩ cc) (h_s : Within cc ss s) : Within cc ss
    (State.modeConflict s n) := by
  unfold State.modeConflict
  with_reducible repeat' first
    | assumption | intro _ | with_unfolding_all exact Scope.Le.trans rfl hc | apply within_count | apply within_post

theorem within_judgeHuddle (s : State) (n : Nat) (hc : Scope.Le ⟨[.regs, .obs], [each Reg.FLD_P_HUDDLE 16, each Reg.PRO_P_MODE_STATUS 16],
    []⟩ cc) (h_s : Within cc ss s) : Within cc ss (State.judgeHuddle s n) := by
  unfold State.judgeHuddle
  with_reducible repeat' first
    | assumption | intro _ | with_unfolding_all exact Scope.Le.trans rfl hc | apply within_ite
    | apply within_setFld_of Reg.FLD_P_HUDDLE 16 (Nat.succ_pos _) (by with_unfolding_all exact fun _ => rfl)
    | apply within_stick_of Reg.PRO_P_MODE_STATUS 16 (Nat.succ_pos _) (by with_unfolding_all exact fun _ => rfl)
    | apply within_modeConflict

theorem within_judgeRole (s : State) (n : Nat) (hc : Scope.Le ⟨[.regs, .obs], [each Reg.FLD_P_HUDDLE 16, each Reg.PRO_P_MODE_STATUS 16],
    []⟩ cc) (h_s : Within cc ss s) : Within cc ss (State.judgeRole s n) := by
  unfold State.judgeRole
  with_reducible repeat' first
    | assumption | intro _ | with_unfolding_all exact Scope.Le.trans rfl hc | apply within_ite
    | apply within_stick_of Reg.PRO_P_MODE_STATUS 16 (Nat.succ_pos _) (by with_unfolding_all exact fun _ => rfl)
    | apply within_modeConflict | apply within_judgeHuddle

theorem within_coreSafe (s : State) (hc : Scope.Le ⟨[.saf], [], []⟩ cc) (h_s : Within cc ss s) : Within cc ss (State.coreSafe s) := by
  unfold State.coreSafe
  with_reducible repeat' first
    | assumption | intro _ | with_unfolding_all exact Scope.Le.trans rfl hc | apply within_ite | apply within_with_saf

theorem within_trace (s : State) (type : Nat) (payload : List Byte) (hc : Scope.Le ⟨[.obs], [], []⟩ cc) (h_s : Within cc ss s) : Within cc
    ss (State.trace s type payload) := by
  unfold State.trace
  with_reducible repeat' first
    | assumption | intro _ | with_unfolding_all exact Scope.Le.trans rfl hc | apply within_ite | apply within_countBy | apply within_count
    | apply within_setTrc

theorem within_traceEvent (s : State) (e : Event) (hc : Scope.Le ⟨[.obs], [], []⟩ cc) (h_s : Within cc ss s) : Within cc ss
    (State.traceEvent s e) := by
  unfold State.traceEvent
  with_reducible repeat' first
    | assumption | intro _ | with_unfolding_all exact Scope.Le.trans rfl hc | apply within_ite | apply within_trace

theorem within_traceState (k index old new : Nat) (s : State) (hc : Scope.Le ⟨[.obs], [], []⟩ cc) (h_s : Within cc ss s) : Within cc ss
    (State.traceState k index old new s) := by
  unfold State.traceState
  with_reducible repeat' first
    | assumption | intro _ | with_unfolding_all exact Scope.Le.trans rfl hc | apply within_ite | apply within_trace

theorem within_traceDecisions (s : State) (hc : Scope.Le ⟨[.obs], [], []⟩ cc) (h_s : Within cc ss s) : Within cc ss (State.traceDecisions
    s) := by
  unfold State.traceDecisions
  with_reducible repeat' first
    | assumption | intro _ | with_unfolding_all exact Scope.Le.trans rfl hc | apply within_ite | apply within_setTrc | apply within_trace
    | apply within_foldl

theorem within_silDrop (s : State) (n : Note) (hc : Scope.Le ⟨[.obs], [], []⟩ cc) (h_s : Within cc ss s) : Within cc ss (State.silDrop s
    n) := by
  unfold State.silDrop
  with_reducible repeat' first
    | assumption | intro _ | with_unfolding_all exact Scope.Le.trans rfl hc | apply within_postSec | apply within_setSil | split

theorem within_vaultPut (s : State) (r0 : Rec) (hc : Scope.Le ⟨[.obs], [], []⟩ cc) (h_s : Within cc ss s) : Within cc ss (State.vaultPut s
    r0) := by
  unfold State.vaultPut
  with_reducible repeat' first
    | assumption | intro _ | with_unfolding_all exact Scope.Le.trans rfl hc | apply within_ite | apply within_count | apply within_setSil
    | apply within_silDrop | split

theorem within_spillLose (s : State) (hc : Scope.Le ⟨[.obs], [], []⟩ cc) (h_s : Within cc ss s) : Within cc ss (State.spillLose s) := by
  unfold State.spillLose
  with_reducible repeat' first
    | assumption | intro _ | with_unfolding_all exact Scope.Le.trans rfl hc | apply within_postSec | apply within_setSil

theorem within_stage (s : State) (r : Rec) (hc : Scope.Le ⟨[.obs], [], []⟩ cc) (h_s : Within cc ss s) : Within cc ss (State.stage s r) :=
    by
  unfold State.stage
  with_reducible repeat' first
    | assumption | intro _ | with_unfolding_all exact Scope.Le.trans rfl hc | apply within_ite | apply within_setSil
    | apply within_spillLose | split | dsimp only

theorem within_takeSeq (s : State) (hc : Scope.Le ⟨[.obs], [], []⟩ cc) (h_s : Within cc ss s) : Within cc ss (State.takeSeq s) := by
  unfold State.takeSeq
  with_reducible repeat' first
    | assumption | intro _ | with_unfolding_all exact Scope.Le.trans rfl hc | apply within_count | apply within_setSil

theorem within_silOffer (s : State) (e : Event) (hc : Scope.Le ⟨[.obs], [], []⟩ cc) (h_s : Within cc ss s) : Within cc ss (State.silOffer
    s e) := by
  unfold State.silOffer
  with_reducible repeat' first
    | assumption | intro _ | with_unfolding_all exact Scope.Le.trans rfl hc | apply within_ite | apply within_setSil
    | apply within_silDrop | apply within_vaultPut | apply within_spillLose | apply within_stage | apply within_takeSeq | split
    | dsimp only

theorem within_ringPut (s : State) (r : Rec) (hc : Scope.Le ⟨[.sram, .obs], [], [ringBytes]⟩ cc) (h_s : Within cc ss s) : Within cc ss (s.ringPut r) := by
  unfold State.ringPut
  split
  · refine within_sramWrite _ _ ringBytes ?_ ?_ (Scope.Le.trans rfl hc) (within_setSil (Scope.Le.trans rfl hc) h_s _)
    · exact Nat.le_add_right _ _
    · rw [length_recBytes]
      simp only [lineAddr, ringBytes]
      omega
  · exact within_count (Scope.Le.trans rfl hc) (within_silDrop _ _ (Scope.Le.trans rfl hc) h_s) _

theorem within_retireLine (s : State) (l : Nat) (hc : Scope.Le ⟨[.obs], [], []⟩ cc) (h_s : Within cc ss s) : Within cc ss
    (State.retireLine s l) := by
  unfold State.retireLine
  with_reducible repeat' first
    | assumption | intro _ | with_unfolding_all exact Scope.Le.trans rfl hc | apply within_ite | apply within_post | apply within_setWins
    | apply within_postSecCount | apply within_setSil

theorem within_holdPut (s : State) (r : Rec) (hc : Scope.Le ⟨[.obs], [], []⟩ cc) (h_s : Within cc ss s) : Within cc ss (State.holdPut s r)
    := by
  unfold State.holdPut
  with_reducible repeat' first
    | assumption | intro _ | with_unfolding_all exact Scope.Le.trans rfl hc | apply within_ite | apply within_count | apply within_postSec
    | apply within_setSil | apply within_vaultPut | split

theorem within_ringMove (s : State) (hc : Scope.Le ⟨[.sram, .obs], [], [ringBytes]⟩ cc) (h_s : Within cc ss s) : Within cc ss
    (State.ringMove s) := by
  unfold State.ringMove
  with_reducible repeat' first
    | assumption | intro _ | with_unfolding_all exact Scope.Le.trans rfl hc | apply within_ite | apply within_setSil
    | apply within_vaultPut | apply within_ringPut | apply within_holdPut | split

theorem within_evqLose (s : State) (p : Nat) (hc : Scope.Le ⟨[.obs], [], []⟩ cc) (h_s : Within cc ss s) : Within cc ss (State.evqLose s p)
    := by
  unfold State.evqLose
  with_reducible repeat' first
    | assumption | intro _ | with_unfolding_all exact Scope.Le.trans rfl hc | apply within_ite | apply within_count | apply within_noteSet
    | apply within_post | apply within_setEvq

theorem within_evqOffer (s : State) (e : Event) (hc : Scope.Le ⟨[.obs], [], []⟩ cc) (h_s : Within cc ss s) : Within cc ss (State.evqOffer
    s e) := by
  unfold State.evqOffer
  with_reducible repeat' first
    | assumption | intro _ | with_unfolding_all exact Scope.Le.trans rfl hc | apply within_ite | apply within_setEvq
    | apply within_evqLose

theorem within_setEvqX (s : State) (x : EvqSt) (hc : Scope.Le ⟨[.obs], [], []⟩ cc) (h_s : Within cc ss s) : Within cc ss (State.setEvqX s
    x) := by
  unfold State.setEvqX
  with_reducible repeat' first
    | assumption | intro _ | with_unfolding_all exact Scope.Le.trans rfl hc | apply within_ite | apply within_noteSet
    | apply within_setEvq

theorem within_evqMove (s : State) (hc : Scope.Le ⟨[.obs], [], []⟩ cc) (h_s : Within cc ss s) : Within cc ss (State.evqMove s) := by
  unfold State.evqMove
  with_reducible repeat' first
    | assumption | intro _ | with_unfolding_all exact Scope.Le.trans rfl hc | apply within_ite | apply within_evqLose
    | apply within_setEvqX | split | dsimp only

theorem within_evqPop (s : State) (hc : Scope.Le ⟨[.obs], [], []⟩ cc) (h_s : Within cc ss s) : Within cc ss (State.evqPop s).1 := by
  unfold State.evqPop
  with_reducible repeat' first | assumption | intro _ | with_unfolding_all exact Scope.Le.trans rfl hc | apply within_setEvqX | split

theorem within_flush (s : State) (hc : Scope.Le ⟨[.obs], [], []⟩ cc) (h_s : Within cc ss s) : Within cc ss (State.flush s) := by
  unfold State.flush
  with_reducible repeat' first
    | assumption | intro _ | with_unfolding_all exact Scope.Le.trans rfl hc | apply within_countBy | apply within_traceEvent
    | apply within_traceDecisions | apply within_silOffer | apply within_evqOffer | apply within_foldl | dsimp only
    | apply within_with_obs

theorem within_moves (n : Nat) (s : State) (hc : Scope.Le ⟨[.sram, .obs], [], [ringBytes]⟩ cc) (h_s : Within cc ss s) : Within cc ss (State.moves n s) := by
  induction n generalizing s with
  | zero => exact h_s
  | succ n ih =>
    exact ih _ (within_evqMove _ (Scope.Le.trans rfl hc) (within_ringMove _ (Scope.Le.trans rfl hc) h_s))

theorem within_drainTrace (s : State) (hc : Scope.Le ⟨[.obs], [], []⟩ cc) (h_s : Within cc ss s) : Within cc ss (State.drainTrace s) := by
  unfold State.drainTrace
  with_reducible repeat' first | assumption | intro _ | with_unfolding_all exact Scope.Le.trans rfl hc | apply within_setTrc

theorem within_settle (s : State) (hc : Scope.Le ⟨passing, [], [ringBytes]⟩ cc) (h_s : Within cc ss s) : Within cc ss (State.settle s) :=
    by
  unfold State.settle
  with_reducible repeat' first
    | assumption | intro _ | with_unfolding_all exact Scope.Le.trans rfl hc | apply within_ite | apply within_flush | apply within_moves
    | apply within_with_time

theorem within_traceChanges (s0 s : State) (hc : Scope.Le ⟨[.obs], [], []⟩ cc) (h_s0 : Within cc ss s0) (h_s : Within cc ss s) : Within cc
    ss (State.traceChanges s0 s) := by
  unfold State.traceChanges
  with_reducible repeat' first
    | assumption | intro _ | with_unfolding_all exact Scope.Le.trans rfl hc | apply within_traceState | apply within_foldl

theorem within_setIrq (s0 s : State) (hc : Scope.Le ⟨[.obs], [], []⟩ cc) (h_s0 : Within cc ss s0) (h_s : Within cc ss s) : Within cc ss
    (State.setIrq s0 s) := by
  unfold State.setIrq
  with_reducible repeat' first
    | assumption | intro _ | with_unfolding_all exact Scope.Le.trans rfl hc | apply within_ite | dsimp only | apply within_with_obs

theorem within_setLead (s : State) (hc : Scope.Le ⟨[.obs], [], []⟩ cc) (h_s : Within cc ss s) : Within cc ss (State.setLead s) := by
  unfold State.setLead
  with_reducible repeat' first
    | assumption | intro _ | with_unfolding_all exact Scope.Le.trans rfl hc | apply within_ite | apply within_with_obs

theorem within_setIdle (s : State) (hc : Scope.Le ⟨[.obs], [], []⟩ cc) (h_s : Within cc ss s) : Within cc ss (State.setIdle s) := by
  unfold State.setIdle
  with_reducible repeat' first
    | assumption | intro _ | with_unfolding_all exact Scope.Le.trans rfl hc | dsimp only | apply within_with_obs

theorem within_offer (s0 s : State) (hc : Scope.Le ⟨[.obs], [], []⟩ cc) (h_s0 : Within cc ss s0) (h_s : Within cc ss s) : Within cc ss
    (State.offer s0 s) := by
  unfold State.offer
  with_reducible repeat' first
    | assumption | intro _ | with_unfolding_all exact Scope.Le.trans rfl hc | apply within_ite | apply within_flush | dsimp only
    | apply within_with_obs

theorem within_finish (s0 s : State) (hc : Scope.Le ⟨[.obs], [], []⟩ cc) (h_s0 : Within cc ss s0) (h_s : Within cc ss s) : Within cc ss
    (finish s0 s) := by
  unfold finish
  with_reducible repeat' first
    | assumption | intro _ | with_unfolding_all exact Scope.Le.trans rfl hc | apply within_ite | apply within_traceChanges
    | apply within_setIrq | apply within_setLead | apply within_setIdle | apply within_offer

theorem within_modWm (s : State) (n : Nat) (f : PortWm → PortWm) (hc : Scope.Le ⟨[.obs], [], []⟩ cc) (h_s : Within cc ss s) : Within cc ss
    (State.modWm s n f) := by
  unfold State.modWm
  with_reducible repeat' first | assumption | intro _ | with_unfolding_all exact Scope.Le.trans rfl hc | apply within_with_obs

theorem within_crossWm (s0 s : State) (n : Nat) (hc : Scope.Le ⟨[.obs], [], []⟩ cc) (h_s0 : Within cc ss s0) (h_s : Within cc ss s) :
    Within cc ss (State.crossWm s0 s n) := by
  unfold State.crossWm
  with_reducible repeat' first
    | assumption | intro _ | with_unfolding_all exact Scope.Le.trans rfl hc | apply within_ite | apply within_noteSet | apply within_modWm

theorem within_setPqX (s : State) (n : Nat) (q : PortQ) (hc : Scope.Le ⟨[.que, .obs], [], []⟩ cc) (h_s : Within cc ss s) : Within cc ss
    (State.setPqX s n q) := by
  unfold State.setPqX
  with_reducible repeat' first
    | assumption | intro _ | with_unfolding_all exact Scope.Le.trans rfl hc | apply within_setPq | apply within_crossWm

theorem within_pushTx (s : State) (n : Nat) (w : Word) (hc : Scope.Le ⟨[.que, .obs], [], []⟩ cc) (h_s : Within cc ss s) : Within cc ss
    (State.pushTx s n w) := by
  unfold State.pushTx
  with_reducible repeat' first
    | assumption | intro _ | with_unfolding_all exact Scope.Le.trans rfl hc | apply within_ite | apply within_setPqX

theorem within_pushTxs (s : State) (n : Nat) (l : List Word) (hc : Scope.Le ⟨[.que, .hif, .obs], [], []⟩ cc) (h_s : Within cc ss s) :
    Within cc ss (State.pushTxs s n l) := by
  induction l generalizing s with
  | nil => exact h_s
  | cons w t ih =>
    exact within_ite (ih _ (within_pushTx _ _ _ (Scope.Le.trans rfl hc) h_s))
      (within_with_hif _ (Scope.Le.trans rfl hc) h_s)

theorem within_resumePush (s : State) (n : Nat) (hc : Scope.Le ⟨[.que, .hif, .obs], [], []⟩ cc) (h_s : Within cc ss s) : Within cc ss
    (State.resumePush s n) := by
  unfold State.resumePush
  with_reducible repeat' first
    | assumption | intro _ | with_unfolding_all exact Scope.Le.trans rfl hc | apply within_ite | apply within_pushTxs | split | dsimp only
    | apply within_with_hif

theorem within_pushRxs (s : State) (n : Nat) (l : List Word) (hc : Scope.Le ⟨[.que, .obs], [], []⟩ cc) (h_s : Within cc ss s) :
    Within cc ss (State.pushRxs s n l).1 := by
  induction l generalizing s with
  | nil => exact h_s
  | cons w t ih =>
    unfold State.pushRxs
    split
    · exact ih _ (within_setPqX _ _ _ (Scope.Le.trans rfl hc) h_s)
    · exact h_s

theorem within_poisoned (s : State) (n scope : Nat) (hc : Scope.Le ⟨[.regs, .obs], queueRegs, []⟩ cc) (h_s : Within cc ss s) : Within cc
    ss (State.poisoned s n scope) := by
  unfold State.poisoned
  with_reducible repeat' first
    | assumption | intro _ | with_unfolding_all exact Scope.Le.trans rfl hc | apply within_bump Reg.QUE_POISONS
    | apply within_bump_of Reg.QUE_P_COUNTS 16 (Nat.succ_pos _) (by with_unfolding_all exact fun _ => rfl) | apply within_postSecCount

theorem within_popRx (s : State) (n : Nat) (bad : Bool) (hc : Scope.Le ⟨[.regs, .que, .obs], [each Reg.QUE_P_RX_TAG 16, each
    Reg.QUE_P_WM_STATUS 16] ++ queueRegs, []⟩ cc) (h_s : Within cc ss s) : Within cc ss (State.popRx s n bad).1 := by
  unfold State.popRx
  with_reducible repeat' first
    | assumption | intro _ | with_unfolding_all exact Scope.Le.trans rfl hc | apply within_ite
    | apply within_setFld_of Reg.QUE_P_RX_TAG 16 (Nat.succ_pos _) (by with_unfolding_all exact fun _ => rfl)
    | apply within_stick_of Reg.QUE_P_WM_STATUS 16 (Nat.succ_pos _) (by with_unfolding_all exact fun _ => rfl)
    | apply within_bump_of Reg.QUE_P_COUNTS 16 (Nat.succ_pos _) (by with_unfolding_all exact fun _ => rfl) | apply within_setPqX
    | apply within_poisoned | split

theorem within_flushRx (s : State) (n : Nat) (hc : Scope.Le ⟨[.que, .pro, .obs], [], []⟩ cc) (h_s : Within cc ss s) : Within cc ss
    (State.flushRx s n) := by
  unfold State.flushRx
  with_reducible repeat' first
    | assumption | intro _ | with_unfolding_all exact Scope.Le.trans rfl hc | apply within_ite | apply within_modP | apply within_setPqX

theorem within_popEvq (s : State) (bad0 bad1 : Bool) (hc : Scope.Le ⟨[.regs, .obs], [one Reg.QUE_EVQ_TAG, one Reg.QUE_POISONS], []⟩ cc)
    (h_s : Within cc ss s) : Within cc ss (State.popEvq s bad0 bad1).1 := by
  unfold State.popEvq
  with_reducible repeat' first
    | assumption | intro _ | with_unfolding_all exact Scope.Le.trans rfl hc | apply within_ite | apply within_setFld Reg.QUE_EVQ_TAG
    | apply within_bumpBy Reg.QUE_POISONS | apply within_setReg Reg.QUE_EVQ_TAG | apply within_postSecCount | apply within_evqPop | split

theorem within_setOut (s : State) (l : List Word) (hc : Scope.Le ⟨[.hif], [], []⟩ cc) (h_s : Within cc ss s) : Within cc ss (State.setOut
    s l) := by
  unfold State.setOut
  with_reducible repeat' first
    | assumption | intro _ | with_unfolding_all exact Scope.Le.trans rfl hc | apply within_ite | apply within_with_hif

theorem within_takeFreeWord (s : State) (hc : Scope.Le ⟨[.free], [], []⟩ cc) (h_s : Within cc ss s) : Within cc ss (State.takeFreeWord
    s).1 := by
  unfold State.takeFreeWord
  with_reducible repeat' first | assumption | intro _ | with_unfolding_all exact Scope.Le.trans rfl hc | apply within_with_free

theorem within_takeFreeBit (s : State) (hc : Scope.Le ⟨[.free], [], []⟩ cc) (h_s : Within cc ss s) : Within cc ss (State.takeFreeBit s).1
    := by
  unfold State.takeFreeBit
  with_reducible repeat' first | assumption | intro _ | with_unfolding_all exact Scope.Le.trans rfl hc | apply within_with_free

theorem within_trip (s : State) (code wher : Nat) (hc : Scope.Le ⟨[.regs, .saf], faultRegs, []⟩ cc) (h_s : Within cc ss s) : Within cc ss
    (State.trip s code wher) := by
  unfold State.trip
  with_reducible repeat' first
    | assumption | intro _ | with_unfolding_all exact Scope.Le.trans rfl hc | apply within_ite | apply within_setFld Reg.SAF_FAULT
    | apply within_setFldBit Reg.SAF_FAULT | apply within_setFldBit Reg.SAF_FAULT_WHERE | apply within_setReg Reg.SAF_FIRST
    | apply within_setFld Reg.SAF_STATUS | dsimp only | apply within_with_saf

theorem within_authResult (s : State) (r : Nat) (hc : Scope.Le ⟨[.regs, .obs], authRegs, []⟩ cc) (h_s : Within cc ss s) : Within cc ss
    (State.authResult s r) := by
  unfold State.authResult
  with_reducible repeat' first
    | assumption | intro _ | with_unfolding_all exact Scope.Le.trans rfl hc | apply within_setFld Reg.CFG_AUTH_STATUS
    | apply within_stick Reg.GEN_IRQ_STATUS

theorem within_authEnd (s : State) (hc : Scope.Le ⟨[.cfg], [], []⟩ cc) (h_s : Within cc ss s) : Within cc ss (State.authEnd s) := by
  unfold State.authEnd
  with_reducible repeat' first | assumption | intro _ | with_unfolding_all exact Scope.Le.trans rfl hc | apply within_with_cfg

theorem within_authRefused (s : State) (hc : Scope.Le ⟨[.regs, .cfg, .obs], authRegs, []⟩ cc) (h_s : Within cc ss s) : Within cc ss
    (State.authRefused s) := by
  unfold State.authRefused
  with_reducible repeat' first
    | assumption | intro _ | with_unfolding_all exact Scope.Le.trans rfl hc | apply within_authResult | apply within_authEnd

theorem within_authAccepted (s : State) (hc : Scope.Le ⟨[.regs, .obs], authRegs, []⟩ cc) (h_s : Within cc ss s) : Within cc ss
    (State.authAccepted s) := by
  unfold State.authAccepted
  with_reducible repeat' first
    | assumption | intro _ | with_unfolding_all exact Scope.Le.trans rfl hc | apply within_bump Reg.CFG_AUTH_STATUS | apply within_post
    | apply within_authResult

theorem within_setPages (s : State) (hc : Scope.Le ⟨[.regs], [each Reg.STO_PAGES 3], []⟩ cc) (h_s : Within cc ss s) : Within cc ss
    (State.setPages s) := by
  unfold State.setPages
  with_reducible repeat' first
    | assumption | intro _ | with_unfolding_all exact Scope.Le.trans rfl hc
    | apply within_setFld_of Reg.STO_PAGES 3 (Nat.succ_pos _) (by with_unfolding_all exact fun _ => rfl) | apply within_each

theorem length_wayBytes (w : Way) : w.toBytes.length = 16 := by simp [Way.toBytes, length_leBytes]

theorem within_putWay (s : State) (set w : Nat) (x : Way) (hc : Scope.Le ⟨[.sram], [], [tableBytes]⟩ cc) (h_s : Within cc ss s) :
    Within cc ss (s.putWay set w x) := by
  refine within_sramWrite _ _ tableBytes ?_ ?_ (Scope.Le.trans rfl hc) h_s
  · rw [wayAddr, Nat.add_assoc]
    exact Nat.le_add_right _ _
  · rw [length_wayBytes]
    simp only [wayAddr, tableBytes]
    omega

theorem within_driveLane (s : State) (l decision : Nat) (hc : Scope.Le ⟨[.regs, .kpr], [each Reg.KPR_L_STATUS 16], []⟩ cc) (h_s : Within
    cc ss s) : Within cc ss (State.driveLane s l decision) := by
  unfold State.driveLane
  with_reducible repeat' first
    | assumption | intro _ | with_unfolding_all exact Scope.Le.trans rfl hc | apply within_ite
    | apply within_bump_of Reg.KPR_L_STATUS 16 (Nat.succ_pos _) (by with_unfolding_all exact fun _ => rfl) | apply within_modL

theorem within_writeRecent (s : State) (h h2 lane : Nat) (v : Verdict4) (driven : Bool) (store : Option (Nat × Nat)) (hc : Scope.Le
    ⟨[.regs, .sram, .obs], [one Reg.KPR_COUNTS], [tableBytes]⟩ cc) (h_s : Within cc ss s) : Within cc ss (State.writeRecent s h h2 lane v
    driven store) := by
  unfold State.writeRecent
  with_reducible repeat' first
    | assumption | intro _ | with_unfolding_all exact Scope.Le.trans rfl hc | apply within_ite | apply within_bump Reg.KPR_COUNTS
    | apply within_count | apply within_postSec | apply within_putWay

theorem within_quarantine (s : State) (port group code : Nat) (benchEnd : Option Nat) (hc : Scope.Le ⟨[.quar], [], []⟩ cc) (h_s : Within
    cc ss s) : Within cc ss (State.quarantine s port group code benchEnd) := by
  unfold State.quarantine
  with_reducible repeat' first
    | assumption | intro _ | with_unfolding_all exact Scope.Le.trans rfl hc | dsimp only | apply within_with_quar

theorem within_dropSess (s : State) (k : Nat) (hc : Scope.Le ⟨[.sess, .quar], [], []⟩ cc) (h_s : Within cc ss s) : Within cc ss
    (State.dropSess s k) := by
  unfold State.dropSess
  with_reducible repeat' first
    | assumption | intro _ | with_unfolding_all exact Scope.Le.trans rfl hc | apply within_freeSess | apply within_quarantine | split

theorem within_settleSess (s : State) (k : Nat) (hc : Scope.Le ⟨[.sess, .quar], [], []⟩ cc) (h_s : Within cc ss s) : Within cc ss
    (State.settleSess s k) := by
  unfold State.settleSess
  with_reducible repeat' first
    | assumption | intro _ | with_unfolding_all exact Scope.Le.trans rfl hc | apply within_ite | apply within_dropSess | split

theorem within_decide4 (s : State) (k : Nat) (src : Source) (store : Bool) (stale : Bool) (bank since : Nat) (hw : HwFault) (hc : Scope.Le
    ⟨[.regs, .sram, .sess, .kpr, .saf, .obs], decisionRegs, [tableBytes]⟩ cc) (h_s : Within cc ss s) : Within cc ss (State.decide4 s k src
    store stale bank since hw) := by
  unfold State.decide4
  with_reducible repeat' first
    | assumption | intro _ | with_unfolding_all exact Scope.Le.trans rfl hc | apply within_ite
    | apply within_setFld_of Reg.KPR_L_STATUS 16 (Nat.succ_pos _) (by with_unfolding_all exact fun _ => rfl)
    | apply within_setReg Reg.KPR_LAST_DECISION | apply within_bump Reg.KPR_COUNTS | apply within_count | apply within_post
    | apply within_modSess | apply within_setTrc | apply within_trip | apply within_driveLane | apply within_writeRecent | split

theorem within_decideAll (s : State) (src : Source) (stale : Bool) (bank since : Nat) (hw : HwFault) (l : List Nat)
    (hc : Scope.Le ⟨[.regs, .sram, .sess, .kpr, .saf, .obs], decisionRegs, [tableBytes]⟩ cc) (h_s : Within cc ss s) :
    Within cc ss (State.decideAll s src stale bank since hw l) := by
  induction l generalizing s with
  | nil => exact h_s
  | cons k t ih => exact ih _ (within_decide4 _ _ _ _ _ _ _ _ (Scope.Le.trans rfl hc) h_s)

theorem within_queueOp (s : State) (k : StoKind) (region page : Nat) (hc : Scope.Le ⟨[.sto], [], []⟩ cc) (h_s : Within cc ss s) : Within
    cc ss (State.queueOp s k region page) := by
  unfold State.queueOp
  with_reducible repeat' first | assumption | intro _ | with_unfolding_all exact Scope.Le.trans rfl hc | apply within_with_sto

theorem within_takeSlot (s : State) (k h h2 since : Nat) (hc : Scope.Le ⟨[.kpr, .sto, .obs], [], []⟩ cc) (h_s : Within cc ss s) : Within
    cc ss (State.takeSlot s k h h2 since) := by
  unfold State.takeSlot
  with_reducible repeat' first
    | assumption | intro _ | with_unfolding_all exact Scope.Le.trans rfl hc | apply within_count | apply within_queueOp | dsimp only
    | apply within_with_kpr

theorem within_issue (s : State) (k h h2 since : Nat) (hc : Scope.Le ⟨[.kpr, .sto, .obs], [], []⟩ cc) (h_s : Within cc ss s) : Within cc
    ss (State.issue s k h h2 since) := by
  unfold State.issue
  with_reducible repeat' first
    | assumption | intro _ | with_unfolding_all exact Scope.Le.trans rfl hc | apply within_ite | apply within_postSec
    | apply within_takeSlot | apply within_with_kpr

theorem within_recentParity (s : State) (set w : Nat) (hc : Scope.Le ⟨[.sram, .obs], [], [tableBytes]⟩ cc) (h_s : Within cc ss s) : Within
    cc ss (State.recentParity s set w) := by
  unfold State.recentParity
  with_reducible repeat' first
    | assumption | intro _ | with_unfolding_all exact Scope.Le.trans rfl hc | apply within_post | apply within_putWay

theorem within_submit (s : State) (k : Nat) (hw : HwFault) (hc : Scope.Le ⟨[.regs, .sess, .kpr, .sto, .saf] ++ passing, decisionRegs,
    [ringBytes, tableBytes]⟩ cc) (h_s : Within cc ss s) : Within cc ss (State.submit s k hw) := by
  unfold State.submit
  with_reducible repeat' first
    | assumption | intro _ | with_unfolding_all exact Scope.Le.trans rfl hc | apply within_ite | apply within_modSess
    | apply within_advance | apply within_decide4 | apply within_issue | apply within_recentParity | split

theorem within_decideWaiting (l : List (Nat × Nat)) (s : State) (hc : Scope.Le ⟨[.regs, .sess, .kpr, .saf] ++ passing, decisionRegs, [ringBytes, tableBytes]⟩ cc) (h_s : Within cc ss s) :
    Within cc ss (State.decideWaiting l s) := by
  induction l generalizing s with
  | nil => exact h_s
  | cons x t ih =>
    unfold State.decideWaiting
    have k := within_advance (s.time + 23 * cycle) (Scope.Le.trans rfl hc) h_s
    exact ih _ (within_ite (within_decide4 _ _ _ _ _ _ _ _ (Scope.Le.trans rfl hc) k) k)

theorem within_freeSlot (s : State) (n : Nat) (hc : Scope.Le ⟨[.regs, .sess, .quar, .kpr, .sto, .saf] ++ passing, decisionRegs,
    [ringBytes, tableBytes]⟩ cc) (h_s : Within cc ss s) : Within cc ss (State.freeSlot s n) := by
  unfold State.freeSlot
  with_reducible repeat' first
    | assumption | intro _ | with_unfolding_all exact Scope.Le.trans rfl hc | apply within_ite | apply within_settleSess
    | apply within_issue | apply within_decideWaiting | apply within_foldl | split | dsimp only | apply within_with_kpr

theorem within_shelfDone (s : State) (n : Nat) (data : Option (List Byte)) (hw : HwFault) (hc : Scope.Le ⟨[.regs, .sess, .quar, .kpr,
    .sto, .saf] ++ passing, decisionRegs, [ringBytes, tableBytes]⟩ cc) (h_s : Within cc ss s) : Within cc ss (State.shelfDone s n data hw)
    := by
  unfold State.shelfDone
  with_reducible repeat' first
    | assumption | intro _ | with_unfolding_all exact Scope.Le.trans rfl hc | apply within_ite | apply within_count | apply within_advance
    | apply within_decideAll | apply within_queueOp | apply within_freeSlot | split | dsimp only | apply within_with_kpr

theorem within_abandonLookups (s : State) (hc : Scope.Le ⟨[.kpr], [], []⟩ cc) (h_s : Within cc ss s) : Within cc ss (State.abandonLookups
    s) := by
  unfold State.abandonLookups
  with_reducible repeat' first | assumption | intro _ | with_unfolding_all exact Scope.Le.trans rfl hc | apply within_with_kpr

theorem within_invalidate (s : State) (hc : Scope.Le ⟨[.kpr], [], []⟩ cc) (h_s : Within cc ss s) : Within cc ss (State.invalidate s) := by
  unfold State.invalidate
  with_reducible repeat' first | assumption | intro _ | with_unfolding_all exact Scope.Le.trans rfl hc | apply within_with_kpr

theorem within_setBank (s : State) (b : Nat) (v : BankVals) (hc : Scope.Le ⟨[.regs], [each Reg.KPR_BANK_ENTRIES 2, each Reg.KPR_BANK_PAGES
    2, each Reg.KPR_BANK_TOTAL 2, each Reg.KPR_BANK_VER 2], []⟩ cc) (h_s : Within cc ss s) : Within cc ss (State.setBank s b v) := by
  unfold State.setBank
  with_reducible repeat' first
    | assumption | intro _ | with_unfolding_all exact Scope.Le.trans rfl hc
    | apply within_setReg_of Reg.KPR_BANK_VER 2 (Nat.succ_pos _) (by with_unfolding_all exact fun _ => rfl)
    | apply within_setReg_of Reg.KPR_BANK_PAGES 2 (Nat.succ_pos _) (by with_unfolding_all exact fun _ => rfl)
    | apply within_setReg_of Reg.KPR_BANK_TOTAL 2 (Nat.succ_pos _) (by with_unfolding_all exact fun _ => rfl)
    | apply within_setReg_of Reg.KPR_BANK_ENTRIES 2 (Nat.succ_pos _) (by with_unfolding_all exact fun _ => rfl)

theorem within_adapt (s : State) (n : Nat) (warm : Bool) (l : List RxSample) (hc : Scope.Le ⟨[.rxe], [], []⟩ cc) (h_s : Within cc ss s) :
    Within cc ss (State.adapt s n warm l) := by
  unfold State.adapt
  with_reducible repeat' first
    | assumption | intro _ | with_unfolding_all exact Scope.Le.trans rfl hc | apply within_ite | apply within_modR

theorem within_firstWeights (s : State) (n : Nat) (hc : Scope.Le ⟨[.rxe], [], []⟩ cc) (h_s : Within cc ss s) : Within cc ss
    (State.firstWeights s n) := by
  unfold State.firstWeights
  with_reducible repeat' first | assumption | intro _ | with_unfolding_all exact Scope.Le.trans rfl hc | apply within_modR

theorem within_takeDiffs (s : State) (n : Nat) (hc : Scope.Le ⟨[.rxe], [], []⟩ cc) (h_s : Within cc ss s) : Within cc ss (State.takeDiffs
    s n) := by
  unfold State.takeDiffs
  with_reducible repeat' first | assumption | intro _ | with_unfolding_all exact Scope.Le.trans rfl hc | apply within_modR

theorem within_entryMoved (s : State) (n j : Nat) (d : Vec) (hc : Scope.Le ⟨[.rxe], [], []⟩ cc) (h_s : Within cc ss s) : Within cc ss
    (State.entryMoved s n j d) := by
  unfold State.entryMoved
  with_reducible repeat' first
    | assumption | intro _ | with_unfolding_all exact Scope.Le.trans rfl hc | apply within_ite | apply within_modR
    | apply within_takeDiffs

theorem within_setGain (s : State) (n g : Nat) (hc : Scope.Le ⟨[.regs, .rxe], [each Reg.RXE_P_FRONT 16], []⟩ cc) (h_s : Within cc ss s) :
    Within cc ss (State.setGain s n g) := by
  unfold State.setGain
  with_reducible repeat' first
    | assumption | intro _ | with_unfolding_all exact Scope.Le.trans rfl hc
    | apply within_setFld_of Reg.RXE_P_FRONT 16 (Nat.succ_pos _) (by with_unfolding_all exact fun _ => rfl) | apply within_modR

theorem within_noteResidual (s : State) (n v : Nat) (hc : Scope.Le ⟨[.regs, .field, .obs], [each Reg.RXE_P_CANCEL_STATUS 16], []⟩ cc) (h_s
    : Within cc ss s) : Within cc ss (State.noteResidual s n v) := by
  unfold State.noteResidual
  with_reducible repeat' first
    | assumption | intro _ | with_unfolding_all exact Scope.Le.trans rfl hc | apply within_ite
    | apply within_setFld_of Reg.RXE_P_CANCEL_STATUS 16 (Nat.succ_pos _) (by with_unfolding_all exact fun _ => rfl)
    | apply within_stick_of Reg.RXE_P_CANCEL_STATUS 16 (Nat.succ_pos _) (by with_unfolding_all exact fun _ => rfl) | apply within_post
    | apply within_modF

theorem within_armRx (s : State) (n : Nat) (x : RxOpen) (hc : Scope.Le ⟨[.regs, .field, .rxe, .obs], [each Reg.RXE_P_CANCEL_STATUS 16,
    each Reg.RXE_P_FRONT 16], []⟩ cc) (h_s : Within cc ss s) : Within cc ss (State.armRx s n x) := by
  unfold State.armRx
  with_reducible repeat' first
    | assumption | intro _ | with_unfolding_all exact Scope.Le.trans rfl hc | apply within_adapt | apply within_takeDiffs
    | apply within_setGain | apply within_noteResidual

theorem within_armListen (s : State) (n : Nat) (hc : Scope.Le ⟨[.regs, .field, .rxe, .free, .obs], [each Reg.RXE_P_CANCEL_STATUS 16, each
    Reg.RXE_P_FRONT 16], []⟩ cc) (h_s : Within cc ss s) : Within cc ss (State.armListen s n) := by
  unfold State.armListen
  with_reducible repeat' first
    | assumption | intro _ | with_unfolding_all exact Scope.Le.trans rfl hc | apply within_takeFreeWord | apply within_takeDiffs
    | apply within_setGain | apply within_noteResidual

theorem within_drainStaged (s : State) (n : Nat) (part : Bool) (l : List (List Word)) (hc : Scope.Le ⟨[.que, .pro, .obs], [], []⟩ cc) (h_s : Within cc ss s) :
    Within cc ss (State.drainStaged s n part l) := by
  induction l generalizing s part with
  | nil => exact within_modP _ _ _ (Scope.Le.trans rfl hc) h_s
  | cons ws t ih =>
    have k := within_pushRxs s n ws (Scope.Le.trans rfl hc) h_s
    exact within_ite (ih _ _ k) (within_modP _ _ _ (Scope.Le.trans rfl hc) k)

theorem within_pushStaged (s : State) (n : Nat) (hc : Scope.Le ⟨[.que, .pro, .obs], [], []⟩ cc) (h_s : Within cc ss s) : Within cc ss
    (State.pushStaged s n) := by
  unfold State.pushStaged
  with_reducible repeat' first | assumption | intro _ | with_unfolding_all exact Scope.Le.trans rfl hc | apply within_drainStaged

theorem within_complete (s : State) (n tag : Nat) (bytes : List Byte) (lastBits result : Nat) (prs rxs0 rxs1 rxs2 : Word) (hc : Scope.Le
    ⟨[.regs, .que, .pro, .obs], exchangeRegs, []⟩ cc) (h_s : Within cc ss s) : Within cc ss (State.complete s n tag bytes lastBits result
    prs rxs0 rxs1 rxs2) := by
  unfold State.complete
  with_reducible repeat' first
    | assumption | intro _ | with_unfolding_all exact Scope.Le.trans rfl hc | apply within_ite
    | apply within_bump_of Reg.PRO_P_COUNTS 16 (Nat.succ_pos _) (by with_unfolding_all exact fun _ => rfl)
    | apply within_setReg_of Reg.PRO_P_LAST_PRS 16 (Nat.succ_pos _) (by with_unfolding_all exact fun _ => rfl) | apply within_count
    | apply within_modP | apply within_pushStaged

theorem within_completeUnsent (s : State) (n tag result synWait : Nat) (heldSyn : Bool) (hc : Scope.Le ⟨[.regs, .que, .pro, .free, .obs],
    exchangeRegs, []⟩ cc) (h_s : Within cc ss s) : Within cc ss (State.completeUnsent s n tag result synWait heldSyn) := by
  unfold State.completeUnsent
  with_reducible repeat' first
    | assumption | intro _ | with_unfolding_all exact Scope.Le.trans rfl hc | apply within_takeFreeWord | apply within_complete

theorem within_endDeferral (s : State) (n : Nat) (hc : Scope.Le ⟨[.field, .obs], [], []⟩ cc) (h_s : Within cc ss s) : Within cc ss
    (State.endDeferral s n) := by
  unfold State.endDeferral
  with_reducible repeat' first
    | assumption | intro _ | with_unfolding_all exact Scope.Le.trans rfl hc | apply within_countBy | apply within_modF | split

theorem within_defer (s : State) (n : Nat) (hc : Scope.Le ⟨[.field], [], []⟩ cc) (h_s : Within cc ss s) : Within cc ss (State.defer s n)
    := by
  unfold State.defer
  with_reducible repeat' first
    | assumption | intro _ | with_unfolding_all exact Scope.Le.trans rfl hc | apply within_ite | apply within_modF

theorem within_undue (s : State) (n : Nat) (hc : Scope.Le ⟨[.field], [], []⟩ cc) (h_s : Within cc ss s) : Within cc ss (State.undue s n)
    := by
  unfold State.undue
  with_reducible repeat' first | assumption | intro _ | with_unfolding_all exact Scope.Le.trans rfl hc | apply within_modF

theorem within_startSyn (s : State) (hc : Scope.Le ⟨[.regs, .field], [one Reg.FLD_SYN_STATUS], []⟩ cc) (h_s : Within cc ss s) : Within cc
    ss (State.startSyn s) := by
  unfold State.startSyn
  with_reducible repeat' first
    | assumption | intro _ | with_unfolding_all exact Scope.Le.trans rfl hc | apply within_ite | apply within_setFld Reg.FLD_SYN_STATUS
    | apply within_with_field

theorem within_askOn (s : State) (n : Nat) (hc : Scope.Le ⟨[.regs, .field], [one Reg.FLD_SYN_STATUS], []⟩ cc) (h_s : Within cc ss s) :
    Within cc ss (State.askOn s n) := by
  unfold State.askOn
  with_reducible repeat' first
    | assumption | intro _ | with_unfolding_all exact Scope.Le.trans rfl hc | apply within_ite | apply within_modF | apply within_startSyn

theorem within_abortStep (s : State) (n : Nat) (hc : Scope.Le ⟨[.field], [], []⟩ cc) (h_s : Within cc ss s) : Within cc ss
    (State.abortStep s n) := by
  unfold State.abortStep
  with_reducible repeat' first
    | assumption | intro _ | with_unfolding_all exact Scope.Le.trans rfl hc | apply within_ite | apply within_modF | split

theorem within_startOff (s : State) (n : Nat) (slot : Bool) (hc : Scope.Le ⟨[.field, .obs], [], []⟩ cc) (h_s : Within cc ss s) : Within cc
    ss (State.startOff s n slot) := by
  unfold State.startOff
  with_reducible repeat' first
    | assumption | intro _ | with_unfolding_all exact Scope.Le.trans rfl hc | apply within_ite | apply within_modF
    | apply within_endDeferral | apply within_undue | apply within_abortStep

theorem within_askOff (s : State) (n : Nat) (hc : Scope.Le ⟨[.field, .obs], [], []⟩ cc) (h_s : Within cc ss s) : Within cc ss
    (State.askOff s n) := by
  unfold State.askOff
  with_reducible repeat' first
    | assumption | intro _ | with_unfolding_all exact Scope.Le.trans rfl hc | apply within_ite | apply within_modF | apply within_defer
    | apply within_startOff | split | dsimp only

theorem within_tryOffs (s : State) (hc : Scope.Le ⟨[.field, .obs], [], []⟩ cc) (h_s : Within cc ss s) : Within cc ss (State.tryOffs s) :=
    by
  unfold State.tryOffs
  with_reducible repeat' first
    | assumption | intro _ | with_unfolding_all exact Scope.Le.trans rfl hc | apply within_ite | apply within_defer
    | apply within_startOff | apply within_foldl

theorem within_applyPA (s : State) (n : Nat) (hc : Scope.Le ⟨[.field], [], []⟩ cc) (h_s : Within cc ss s) : Within cc ss (State.applyPA s
    n) := by
  unfold State.applyPA
  with_reducible repeat' first | assumption | intro _ | with_unfolding_all exact Scope.Le.trans rfl hc | apply within_modF

theorem within_rxIdle (s : State) (n : Nat) (hc : Scope.Le ⟨[.regs, .rxe], [each Reg.RXE_P_AFC 16], []⟩ cc) (h_s : Within cc ss s) :
    Within cc ss (State.rxIdle s n) := by
  unfold State.rxIdle
  with_reducible repeat' first
    | assumption | intro _ | with_unfolding_all exact Scope.Le.trans rfl hc
    | apply within_setFld_of Reg.RXE_P_AFC 16 (Nat.succ_pos _) (by with_unfolding_all exact fun _ => rfl) | apply within_modR

theorem within_rearm (s : State) (n : Nat) (isCapture : Bool) (hc : Scope.Le ⟨[.rxe], [], []⟩ cc) (h_s : Within cc ss s) : Within cc ss
    (State.rearm s n isCapture) := by
  unfold State.rearm
  with_reducible repeat' first | assumption | intro _ | with_unfolding_all exact Scope.Le.trans rfl hc | apply within_modR

theorem within_listen (s : State) (n tech rate : Nat) (hc : Scope.Le ⟨[.regs, .field, .rxe, .free, .obs], [each Reg.RXE_P_CANCEL_STATUS
    16, each Reg.RXE_P_FRONT 16], []⟩ cc) (h_s : Within cc ss s) : Within cc ss (State.listen s n tech rate) := by
  unfold State.listen
  with_reducible repeat' first
    | assumption | intro _ | with_unfolding_all exact Scope.Le.trans rfl hc | apply within_modR | apply within_armListen

theorem within_listenTarget (s : State) (n : Nat) (hc : Scope.Le ⟨[.regs, .field, .rxe, .free, .obs], [each Reg.RXE_P_CANCEL_STATUS 16,
    each Reg.RXE_P_FRONT 16], []⟩ cc) (h_s : Within cc ss s) : Within cc ss (State.listenTarget s n) := by
  unfold State.listenTarget
  with_reducible repeat' first
    | assumption | intro _ | with_unfolding_all exact Scope.Le.trans rfl hc | apply within_takeFreeWord | apply within_listen

theorem within_openWindow (s : State) (n e : Nat) (hc : Scope.Le ⟨[.field, .rxe], [], []⟩ cc) (h_s : Within cc ss s) : Within cc ss
    (State.openWindow s n e) := by
  unfold State.openWindow
  with_reducible repeat' first
    | assumption | intro _ | with_unfolding_all exact Scope.Le.trans rfl hc | apply within_modF | apply within_modR | split

end Sys2Proof.Machine
end

