-- ==== Sys2Proof/Laws/WithinPorts.lean ====
section
/-! SUPPORT. Sessions, access, the tag, phases, the store, the ring and the tuner: each operation stays within a scope that names what it writes. -/

namespace Sys2Proof.Machine

variable {cc : Scope} {ss : State}
theorem within_openSess (s : State) (k n tech : Nat) (ident : List Byte) (accord : Bool) (hc : Scope.Le ⟨[.sess, .obs], [], []⟩ cc) (h_s :
    Within cc ss s) : Within cc ss (State.openSess s k n tech ident accord) := by
  unfold State.openSess
  with_reducible repeat' first
    | assumption | intro _ | with_unfolding_all exact Scope.Le.trans rfl hc | apply within_count | apply within_post
    | apply within_putSess

theorem within_forgetSess (s : State) (n k : Nat) (x : Session) (hc : Scope.Le ⟨[.pro], [], []⟩ cc) (h_s : Within cc ss s) : Within cc ss
    (State.forgetSess s n k x) := by
  unfold State.forgetSess
  with_reducible repeat' first
    | assumption | intro _ | with_unfolding_all exact Scope.Le.trans rfl hc | apply within_ite | apply within_modP

theorem within_leaveSess (s : State) (k : Nat) (hc : Scope.Le ⟨[.pro, .sess, .acd, .quar, .obs], [], []⟩ cc) (h_s : Within cc ss s) :
    Within cc ss (State.leaveSess s k) := by
  unfold State.leaveSess
  with_reducible repeat' first
    | assumption | intro _ | with_unfolding_all exact Scope.Le.trans rfl hc | apply within_ite | apply within_count | apply within_post
    | apply within_modA | apply within_modSess | apply within_settleSess | apply within_forgetSess | split

theorem within_sessParity (s : State) (k : Nat) (hc : Scope.Le ⟨[.regs, .pro, .sess, .acd, .quar, .obs], [one Reg.SAF_NDF], []⟩ cc) (h_s :
    Within cc ss s) : Within cc ss (State.sessParity s k) := by
  unfold State.sessParity
  with_reducible repeat' first
    | assumption | intro _ | with_unfolding_all exact Scope.Le.trans rfl hc | apply within_stick Reg.SAF_NDF
    | apply within_bump Reg.SAF_NDF | apply within_post | apply within_modSess | apply within_leaveSess | split

theorem within_seen (s : State) (k : Nat) (hc : Scope.Le ⟨[.sess], [], []⟩ cc) (h_s : Within cc ss s) : Within cc ss (State.seen s k) :=
    by
  unfold State.seen
  with_reducible repeat' first | assumption | intro _ | with_unfolding_all exact Scope.Le.trans rfl hc | apply within_modSess

theorem within_quieted (s : State) (k : Nat) (bench : Option Nat) (hc : Scope.Le ⟨[.pro, .sess, .acd, .quar, .obs], [], []⟩ cc) (h_s :
    Within cc ss s) : Within cc ss (State.quieted s k bench) := by
  unfold State.quieted
  with_reducible repeat' first
    | assumption | intro _ | with_unfolding_all exact Scope.Le.trans rfl hc | apply within_ite | apply within_modSess
    | apply within_leaveSess | split

theorem within_missed (s : State) (k : Nat) (hc : Scope.Le ⟨[.pro, .sess, .acd, .quar, .obs], [], []⟩ cc) (h_s : Within cc ss s) : Within
    cc ss (State.missed s k) := by
  unfold State.missed
  with_reducible repeat' first
    | assumption | intro _ | with_unfolding_all exact Scope.Le.trans rfl hc | apply within_ite | apply within_modSess
    | apply within_leaveSess | split

theorem within_withdraw (s : State) (k : Nat) (hc : Scope.Le ⟨[.sess, .quar], [], []⟩ cc) (h_s : Within cc ss s) : Within cc ss
    (State.withdraw s k) := by
  unfold State.withdraw
  with_reducible repeat' first
    | assumption | intro _ | with_unfolding_all exact Scope.Le.trans rfl hc | apply within_modSess | apply within_quarantine | split

theorem within_setJob (s : State) (n : Nat) (j : Option Job) (hc : Scope.Le ⟨[.pro], [], []⟩ cc) (h_s : Within cc ss s) : Within cc ss
    (State.setJob s n j) := by
  unfold State.setJob
  with_reducible repeat' first | assumption | intro _ | with_unfolding_all exact Scope.Le.trans rfl hc | apply within_modP

theorem within_startCheck (s : State) (n k : Nat) (hc : Scope.Le ⟨[.pro, .sess], [], []⟩ cc) (h_s : Within cc ss s) : Within cc ss
    (State.startCheck s n k) := by
  unfold State.startCheck
  with_reducible repeat' first
    | assumption | intro _ | with_unfolding_all exact Scope.Le.trans rfl hc | apply within_ite | apply within_modSess
    | apply within_setJob | apply within_foldl | split

theorem within_newList (s : State) (n : Nat) (hc : Scope.Le ⟨[.pro], [], []⟩ cc) (h_s : Within cc ss s) : Within cc ss (State.newList s n)
    := by
  unfold State.newList
  with_reducible repeat' first | assumption | intro _ | with_unfolding_all exact Scope.Le.trans rfl hc | apply within_modP

theorem within_resumeJob (s : State) (n : Nat) (hc : Scope.Le ⟨[.pro, .sess], [], []⟩ cc) (h_s : Within cc ss s) : Within cc ss
    (State.resumeJob s n) := by
  unfold State.resumeJob
  with_reducible repeat' first
    | assumption | intro _ | with_unfolding_all exact Scope.Le.trans rfl hc | apply within_ite | apply within_modP | apply within_setJob
    | apply within_startCheck | apply within_newList | split

theorem within_endJob (s : State) (n : Nat) (hc : Scope.Le ⟨[.pro, .sess], [], []⟩ cc) (h_s : Within cc ss s) : Within cc ss (State.endJob
    s n) := by
  unfold State.endJob
  with_reducible repeat' first
    | assumption | intro _ | with_unfolding_all exact Scope.Le.trans rfl hc | apply within_ite | apply within_modP
    | apply within_resumeJob | split

theorem within_newRound (s : State) (n : Nat) (j : Job) (hc : Scope.Le ⟨[.pro, .sess], [], []⟩ cc) (h_s : Within cc ss s) : Within cc ss
    (State.newRound s n j) := by
  unfold State.newRound
  with_reducible repeat' first
    | assumption | intro _ | with_unfolding_all exact Scope.Le.trans rfl hc | apply within_ite | apply within_modP | apply within_setJob
    | apply within_startCheck | apply within_newList | split

theorem within_dropJob (s : State) (n : Nat) (skip : Bool) (hc : Scope.Le ⟨[.pro, .sess, .cox], [], []⟩ cc) (h_s : Within cc ss s) :
    Within cc ss (State.dropJob s n skip) := by
  unfold State.dropJob
  with_reducible repeat' first
    | assumption | intro _ | with_unfolding_all exact Scope.Le.trans rfl hc | apply within_ite | apply within_modP | apply within_modX
    | apply within_modSess | apply within_foldl | split

theorem within_surplusTag (s : State) (n tech : Nat) (ident : List Byte) (accord : Bool) (hc : Scope.Le ⟨[.regs, .overflow, .obs], [one
    Reg.PRO_SESS_COUNTS], []⟩ cc) (h_s : Within cc ss s) : Within cc ss (State.surplusTag s n tech ident accord) := by
  unfold State.surplusTag
  with_reducible repeat' first
    | assumption | intro _ | with_unfolding_all exact Scope.Le.trans rfl hc | apply within_ite | apply within_bump Reg.PRO_SESS_COUNTS
    | apply within_postSecCount | dsimp only | apply within_with_overflow

theorem within_identify (s : State) (n tech : Nat) (ident : List Byte) (accord : Bool) (hw : HwFault) (hc : Scope.Le ⟨[.regs, .pro, .sess,
    .overflow, .acd, .quar, .kpr, .sto, .saf] ++ passing, [one Reg.PRO_SESS_COUNTS, one Reg.SAF_NDF] ++ decisionRegs, [ringBytes,
    tableBytes]⟩ cc) (h_s : Within cc ss s) : Within cc ss (State.identify s n tech ident accord hw).1 := by
  unfold State.identify
  with_reducible repeat' first
    | assumption | intro _ | with_unfolding_all exact Scope.Le.trans rfl hc | apply within_submit | apply within_openSess
    | apply within_sessParity | apply within_seen | apply within_surplusTag | split | dsimp only

theorem within_afterSelect (s : State) (n : Nat) (j : Job) (k : Option Nat) (accord : Bool) (hc : Scope.Le ⟨[.pro, .sess, .acd, .quar,
    .obs], [], []⟩ cc) (h_s : Within cc ss s) : Within cc ss (State.afterSelect s n j k accord) := by
  unfold State.afterSelect
  with_reducible repeat' first
    | assumption | intro _ | with_unfolding_all exact Scope.Le.trans rfl hc | apply within_ite | apply within_postSec | apply within_modA
    | apply within_modSess | apply within_withdraw | apply within_setJob | split

theorem within_selected (s : State) (n : Nat) (j : Job) (ident : List Byte) (sak : Nat) (hw : HwFault) (hc : Scope.Le ⟨[.regs, .pro,
    .sess, .overflow, .acd, .quar, .kpr, .sto, .saf] ++ passing, [one Reg.PRO_SESS_COUNTS, one Reg.SAF_NDF] ++ decisionRegs, [ringBytes,
    tableBytes]⟩ cc) (h_s : Within cc ss s) : Within cc ss (State.selected s n j ident sak hw) := by
  unfold State.selected
  with_reducible repeat' first
    | assumption | intro _ | with_unfolding_all exact Scope.Le.trans rfl hc | apply within_ite | apply within_sessParity
    | apply within_seen | apply within_setJob | apply within_endJob | apply within_identify | apply within_afterSelect | split
    | dsimp only | apply within_with_overflow

theorem within_jobMissed (s : State) (n : Nat) (j : Job) (hc : Scope.Le ⟨[.pro, .sess, .overflow, .acd, .quar, .obs], [], []⟩ cc) (h_s :
    Within cc ss s) : Within cc ss (State.jobMissed s n j) := by
  unfold State.jobMissed
  with_reducible repeat' first
    | assumption | intro _ | with_unfolding_all exact Scope.Le.trans rfl hc | apply within_missed | apply within_endJob | split
    | dsimp only | apply within_with_overflow

theorem within_abandonRound (s : State) (n : Nat) (j : Job) (hc : Scope.Le ⟨[.pro, .sess, .overflow, .acd, .quar, .obs], [], []⟩ cc) (h_s
    : Within cc ss s) : Within cc ss (State.abandonRound s n j) := by
  unfold State.abandonRound
  with_reducible repeat' first
    | assumption | intro _ | with_unfolding_all exact Scope.Le.trans rfl hc | apply within_ite | apply within_postSec
    | apply within_endJob | apply within_newRound | apply within_jobMissed | split

theorem within_tagDone (s : State) (n : Nat) (j : Job) (hc : Scope.Le ⟨[.pro, .sess], [], []⟩ cc) (h_s : Within cc ss s) : Within cc ss
    (State.tagDone s n j) := by
  unfold State.tagDone
  with_reducible repeat' first
    | assumption | intro _ | with_unfolding_all exact Scope.Le.trans rfl hc | apply within_ite | apply within_endJob
    | apply within_newRound | split

theorem within_anticollReply (s : State) (n : Nat) (j : Job) (res : Nat) (d : Option Delivered) (coll : Option Nat) (hc : Scope.Le ⟨[.pro,
    .sess, .overflow, .acd, .quar, .obs], [], []⟩ cc) (h_s : Within cc ss s) : Within cc ss (State.anticollReply s n j res d coll) := by
  unfold State.anticollReply
  with_reducible repeat' first
    | assumption | intro _ | with_unfolding_all exact Scope.Le.trans rfl hc | apply within_ite | apply within_setJob
    | apply within_abandonRound | split

theorem within_sakReply (s : State) (n : Nat) (j : Job) (res : Nat) (d : Option Delivered) (hw : HwFault) (hc : Scope.Le ⟨[.regs, .pro,
    .sess, .overflow, .acd, .quar, .kpr, .sto, .saf] ++ passing, [one Reg.PRO_SESS_COUNTS, one Reg.SAF_NDF] ++ decisionRegs, [ringBytes,
    tableBytes]⟩ cc) (h_s : Within cc ss s) : Within cc ss (State.sakReply s n j res d hw) := by
  unfold State.sakReply
  with_reducible repeat' first
    | assumption | intro _ | with_unfolding_all exact Scope.Le.trans rfl hc | apply within_ite | apply within_setJob
    | apply within_selected | apply within_abandonRound | split

theorem within_enrolReply (s : State) (n : Nat) (j : Job) (offered res : Nat) (d : Option Delivered) (hc : Scope.Le ⟨[.pro, .sess, .acd,
    .quar, .obs], [], []⟩ cc) (h_s : Within cc ss s) : Within cc ss (State.enrolReply s n j offered res d) := by
  unfold State.enrolReply
  with_reducible repeat' first
    | assumption | intro _ | with_unfolding_all exact Scope.Le.trans rfl hc | apply within_ite | apply within_post | apply within_modA
    | apply within_modSess | apply within_withdraw | apply within_setJob | split

theorem within_foundTag (s : State) (n : Nat) (j : Job) (ident : List Byte) (quiet : Bool) (hw : HwFault) (hc : Scope.Le ⟨[.regs, .pro,
    .sess, .overflow, .acd, .quar, .kpr, .sto, .saf] ++ passing, [one Reg.PRO_SESS_COUNTS, one Reg.SAF_NDF] ++ decisionRegs, [ringBytes,
    tableBytes]⟩ cc) (h_s : Within cc ss s) : Within cc ss (State.foundTag s n j ident quiet hw).1 := by
  unfold State.foundTag
  with_reducible repeat' first
    | assumption | intro _ | with_unfolding_all exact Scope.Le.trans rfl hc | apply within_ite | apply within_quieted
    | apply within_identify | split | dsimp only | apply within_with_overflow

theorem within_quietNext (s : State) (n : Nat) (j : Job) (p : Purpose) (after : State → Job → State) (hc : Scope.Le ⟨[.pro], [], []⟩ cc)
    (h_s : Within cc ss s) (h_after : ∀ t j, Within cc ss t → Within cc ss (after t j)) :
    Within cc ss (State.quietNext s n j p after) := by
  unfold State.quietNext
  split
  · exact within_setJob _ _ _ (Scope.Le.trans rfl hc) h_s
  · exact h_after _ _ h_s

theorem within_endCheck (s : State) (n : Nat) (j : Job) (hc : Scope.Le ⟨[.pro, .sess, .overflow, .acd, .quar, .obs], [], []⟩ cc) (h_s :
    Within cc ss s) : Within cc ss (State.endCheck s n j) := by
  unfold State.endCheck
  with_reducible repeat' first
    | assumption | intro _ | with_unfolding_all exact Scope.Le.trans rfl hc | apply within_ite | apply within_missed | apply within_endJob
    | apply within_foldl | split | dsimp only | apply within_with_overflow

theorem within_roundDoneB (s : State) (n : Nat) (j : Job) (hc : Scope.Le ⟨[.pro, .sess, .overflow, .acd, .quar, .obs], [], []⟩ cc) (h_s :
    Within cc ss s) : Within cc ss (State.roundDoneB s n j) := by
  unfold State.roundDoneB
  with_reducible repeat' first
    | assumption | intro _ | with_unfolding_all exact Scope.Le.trans rfl hc | apply within_ite | apply within_endJob
    | apply within_newRound | apply within_endCheck | split

theorem within_slotReplyB (s : State) (n : Nat) (j : Job) (res : Nat) (d : Option Delivered) (hw : HwFault) (hc : Scope.Le ⟨[.regs, .pro,
    .sess, .overflow, .acd, .quar, .kpr, .sto, .saf] ++ passing, [one Reg.PRO_SESS_COUNTS, one Reg.SAF_NDF] ++ decisionRegs, [ringBytes,
    tableBytes]⟩ cc) (h_s : Within cc ss s) : Within cc ss (State.slotReplyB s n j res d hw) := by
  unfold State.slotReplyB
  with_reducible repeat' first
    | assumption | intro _ | with_unfolding_all exact Scope.Le.trans rfl hc | apply within_ite | apply within_setJob
    | apply within_foundTag | apply within_quietNext | apply within_roundDoneB | split

theorem within_replyF (s : State) (n : Nat) (j : Job) (res : Nat) (d : Option Delivered) (hw : HwFault) (hc : Scope.Le ⟨[.regs, .pro,
    .sess, .overflow, .acd, .quar, .kpr, .sto, .saf] ++ passing, [one Reg.PRO_SESS_COUNTS, one Reg.SAF_NDF] ++ decisionRegs, [ringBytes,
    tableBytes]⟩ cc) (h_s : Within cc ss s) : Within cc ss (State.replyF s n j res d hw) := by
  unfold State.replyF
  with_reducible repeat' first
    | assumption | intro _ | with_unfolding_all exact Scope.Le.trans rfl hc | apply within_ite | apply within_setJob
    | apply within_foundTag | split

theorem within_roundDoneF (s : State) (n : Nat) (j : Job) (hc : Scope.Le ⟨[.pro, .sess, .overflow, .acd, .quar, .obs], [], []⟩ cc) (h_s :
    Within cc ss s) : Within cc ss (State.roundDoneF s n j) := by
  unfold State.roundDoneF
  with_reducible repeat' first
    | assumption | intro _ | with_unfolding_all exact Scope.Le.trans rfl hc | apply within_ite | apply within_endJob
    | apply within_newRound | apply within_endCheck | split

theorem within_pushMasks (s : State) (n : Nat) (j : Job) (l : List (List Bool)) (hc : Scope.Le ⟨[.obs], [], []⟩ cc) (h_s : Within cc ss s) :
    Within cc ss (State.pushMasks s n j l).1 := by
  unfold State.pushMasks
  split
  · exact h_s
  · exact within_postSec (Scope.Le.trans rfl hc) h_s _ _ _ _

theorem within_nextMask (s : State) (n : Nat) (j : Job) (hc : Scope.Le ⟨[.pro, .sess, .overflow, .acd, .quar, .obs], [], []⟩ cc) (h_s :
    Within cc ss s) : Within cc ss (State.nextMask s n j) := by
  unfold State.nextMask
  with_reducible repeat' first
    | assumption | intro _ | with_unfolding_all exact Scope.Le.trans rfl hc | apply within_ite | apply within_endJob
    | apply within_newRound | apply within_endCheck | split

theorem within_slotReplyV (s : State) (n : Nat) (j : Job) (res : Nat) (d : Option Delivered) (hw : HwFault) (hc : Scope.Le ⟨[.regs, .pro,
    .sess, .overflow, .acd, .quar, .kpr, .sto, .saf] ++ passing, [one Reg.PRO_SESS_COUNTS, one Reg.SAF_NDF] ++ decisionRegs, [ringBytes,
    tableBytes]⟩ cc) (h_s : Within cc ss s) : Within cc ss (State.slotReplyV s n j res d hw) := by
  unfold State.slotReplyV
  with_reducible repeat' first
    | assumption | intro _ | with_unfolding_all exact Scope.Le.trans rfl hc | apply within_ite | apply within_setJob
    | apply within_foundTag | apply within_quietNext | apply within_pushMasks | apply within_nextMask | split

theorem within_jobReply (s : State) (n : Nat) (f : Frame) (res : Nat) (d : Option Delivered) (coll : Option Nat) (hw : HwFault) (hc :
    Scope.Le ⟨[.regs, .pro, .sess, .overflow, .acd, .quar, .kpr, .sto, .cox, .saf] ++ passing, [one Reg.PRO_SESS_COUNTS, one Reg.SAF_NDF]
    ++ decisionRegs, [ringBytes, tableBytes]⟩ cc) (h_s : Within cc ss s) : Within cc ss (State.jobReply s n f res d coll hw) := by
  unfold State.jobReply
  with_reducible repeat' first
    | assumption | intro _ | with_unfolding_all exact Scope.Le.trans rfl hc | apply within_ite | apply within_seen | apply within_quieted
    | apply within_setJob | apply within_endJob | apply within_dropJob | apply within_jobMissed | apply within_abandonRound
    | apply within_tagDone | apply within_anticollReply | apply within_sakReply | apply within_enrolReply | apply within_foundTag
    | apply within_quietNext | apply within_roundDoneB | apply within_slotReplyB | apply within_replyF | apply within_roundDoneF
    | apply within_nextMask | apply within_slotReplyV | apply within_foldl | split

theorem within_syncMember (s : State) (n : Nat) (at_ : Option Nat) (hc : Scope.Le ⟨[.field], [], []⟩ cc) (h_s : Within cc ss s) : Within
    cc ss (State.syncMember s n at_) := by
  unfold State.syncMember
  with_reducible repeat' first
    | assumption | intro _ | with_unfolding_all exact Scope.Le.trans rfl hc | apply within_ite | apply within_modH | split

theorem within_syncHuddles (s : State) (at_ : Option Nat) (hc : Scope.Le ⟨[.field], [], []⟩ cc) (h_s : Within cc ss s) : Within cc ss
    (State.syncHuddles s at_) := by
  unfold State.syncHuddles
  with_reducible repeat' first
    | assumption | intro _ | with_unfolding_all exact Scope.Le.trans rfl hc | apply within_syncMember | apply within_each

theorem within_endSlot (s : State) (h : Nat) (hc : Scope.Le ⟨[.field], [], []⟩ cc) (h_s : Within cc ss s) : Within cc ss (State.endSlot s
    h) := by
  unfold State.endSlot
  with_reducible repeat' first
    | assumption | intro _ | with_unfolding_all exact Scope.Le.trans rfl hc | apply within_ite | apply within_modH
    | apply within_syncHuddles

theorem within_endListen (s : State) (n : Nat) (hc : Scope.Le ⟨[.field], [], []⟩ cc) (h_s : Within cc ss s) : Within cc ss
    (State.endListen s n) := by
  unfold State.endListen
  with_reducible repeat' first | assumption | intro _ | with_unfolding_all exact Scope.Le.trans rfl hc | apply within_endSlot | split

theorem within_returnState (s : State) (n : Nat) (hc : Scope.Le ⟨[.field, .obs], [], []⟩ cc) (h_s : Within cc ss s) : Within cc ss
    (State.returnState s n) := by
  unfold State.returnState
  with_reducible repeat' first
    | assumption | intro _ | with_unfolding_all exact Scope.Le.trans rfl hc | apply within_ite | apply within_modF | apply within_startOff
    | apply within_askOff

theorem within_closeExchange (s : State) (n tech : Nat) (hc : Scope.Le ⟨[.regs, .field, .rxe, .pro, .cox], [each Reg.RXE_P_AFC 16], []⟩
    cc) (h_s : Within cc ss s) : Within cc ss (State.closeExchange s n tech) := by
  unfold State.closeExchange
  with_reducible repeat' first
    | assumption | intro _ | with_unfolding_all exact Scope.Le.trans rfl hc | apply within_ite | apply within_modF | apply within_modP
    | apply within_modX | apply within_rxIdle

theorem within_holdAfter (s : State) (n : Nat) (hold : Bool) (hc : Scope.Le ⟨[.pro], [], []⟩ cc) (h_s : Within cc ss s) : Within cc ss
    (State.holdAfter s n hold) := by
  unfold State.holdAfter
  with_reducible repeat' first
    | assumption | intro _ | with_unfolding_all exact Scope.Le.trans rfl hc | apply within_ite | apply within_modP

theorem within_released (s : State) (n : Nat) (f : Frame) (res : Nat) (hc : Scope.Le ⟨[.acd], [], []⟩ cc) (h_s : Within cc ss s) : Within
    cc ss (State.released s n f res) := by
  unfold State.released
  with_reducible repeat' first
    | assumption | intro _ | with_unfolding_all exact Scope.Le.trans rfl hc | apply within_ite | apply within_modA

theorem within_endExchange (s : State) (n result : Nat) (d : Option Delivered) (coll : Option Nat) (hw : HwFault) (hc : Scope.Le
    ⟨endingParts, endingRegs, [ringBytes, tableBytes]⟩ cc) (h_s : Within cc ss s) : Within cc ss (State.endExchange s n result d coll hw)
    := by
  unfold State.endExchange
  with_reducible repeat' first
    | assumption | intro _ | with_unfolding_all exact Scope.Le.trans rfl hc | apply within_ite | apply within_complete
    | apply within_tryOffs | apply within_jobReply | apply within_endListen | apply within_returnState | apply within_closeExchange
    | apply within_holdAfter | apply within_released | split

theorem within_skipHalt (s : State) (n : Nat) (hc : Scope.Le ⟨[.pro, .sess, .overflow, .acd, .quar, .obs], [], []⟩ cc) (h_s : Within cc ss
    s) : Within cc ss (State.skipHalt s n) := by
  unfold State.skipHalt
  with_reducible repeat' first
    | assumption | intro _ | with_unfolding_all exact Scope.Le.trans rfl hc | apply within_ite | apply within_tagDone
    | apply within_quietNext | apply within_roundDoneB | apply within_nextMask | split

theorem within_pickPlan (s0 : State) (n : Nat) (hc : Scope.Le ⟨[.pro, .sess, .overflow, .acd, .quar, .obs], [], []⟩ cc) (h_s0 : Within cc
    ss s0) : Within cc ss (State.pickPlan s0 n) := by
  unfold State.pickPlan
  with_reducible repeat' first
    | assumption | intro _ | with_unfolding_all exact Scope.Le.trans rfl hc | apply within_ite | apply within_modP | apply within_skipHalt
    | split | dsimp only

theorem within_clampMark (s : State) (a : Nat) (hc : Scope.Le ⟨[.regs, .obs], experts, []⟩ cc) (h_s : Within cc ss s) :
    Within cc ss (s.clampMark a) := by
  have le : ∀ x, x ∈ experts → Scope.Le ⟨[.regs, .obs], [x], []⟩ cc := fun x hx =>
    ⟨hc.parts, fun r hr => by rw [List.mem_singleton] at hr; rw [hr]; exact hc.regs x hx, fun m hm => absurd hm (by simp)⟩
  unfold State.clampMark
  unfold pageOf
  dsimp only
  split
  · rename_i h
    obtain ⟨hb, -, -⟩ := h
    have page : ∀ b : Nat, a / 0x10000 = b → each (fun n => expertAddr (b % 32) (some n)) 16 ∈ experts →
        Within cc ss (s.stick (expertAddr (a / 0x10000 % 32) (some ((a % 0x10000 - 0x1000) / 0x400))) Fld.EXPERT_CLAMPED) := by
      intro b hb hm
      rw [hb]
      exact within_stick_of (fun n => expertAddr (b % 32) (some n)) 16 (by decide) (fun n => by
          have : ∀ B k : Nat, expertAddr B (some k) = B * 0x10000 + 0x1000 + k % 16 * 0x400 + 4 := fun _ _ => rfl
          simp only [this]
          have h1 : 1 % 16 = 1 := rfl
          have h0 : 0 % 16 = 0 := rfl
          rw [h1, h0]
          have : b % 32 * 65536 + 4096 + 1 * 1024 + 4 - (b % 32 * 65536 + 4096 + 0 * 1024 + 4) = 1024 := by omega
          rw [this]
          omega)
        _ _ (le _ hm) h_s
    rcases hb with hb | hb | hb | hb | hb
    · exact page _ hb (by simp [experts])
    · exact page _ hb (by simp [experts])
    · exact page _ hb (by simp [experts])
    · exact page _ hb (by simp [experts])
    · exact page _ hb (by simp [experts])
  · exact within_stick_of (fun n => n % 32 * 0x10000 + 0xC) 32 (by decide)
      (fun n => by show n % 32 * 0x10000 + 0xC = 0 % 32 * 0x10000 + 0xC + n % 32 * 0x10000; omega) (a / 0x10000) _ (le _ (by simp [experts, each])) h_s

theorem within_clampCheck (s : State) (a : Nat) (hc : Scope.Le ⟨[.regs, .obs], experts, []⟩ cc) (h_s : Within cc ss s) :
    Within cc ss (s.clampCheck a) := by
  unfold State.clampCheck
  dsimp only
  exact within_ite (within_clampMark _ _ hc h_s) h_s

/-- A register whose write cannot set a CLAMPED bit (R48). -/
structure ClampFree (a : Nat) : Prop where
  trim : a ≠ Reg.FLD_FC_TRIM
  guard : a ≠ Reg.FLD_GUARD
  ampl : a / 0x10000 ≠ 0x02 ∨ a % 0x400 ≠ Reg.FLD_P_AMPL 0 % 0x400
  sniff : a / 0x10000 ≠ 0x11 ∨ a % 0x400 ≠ Reg.TUN_P_SNIFF 0 % 0x400
  relay : a / 0x10000 ≠ 0x02 ∨ a % 0x400 ≠ Reg.FLD_P_RELAY 0 % 0x400

/-- Whether `ClampFree` holds of an address. -/
def clampFree (a : Nat) : Bool :=
  decide (a ≠ Reg.FLD_FC_TRIM) && decide (a ≠ Reg.FLD_GUARD) && decide (a / 0x10000 ≠ 0x02 ∨ a % 0x400 ≠ Reg.FLD_P_AMPL 0 % 0x400)
    && decide (a / 0x10000 ≠ 0x11 ∨ a % 0x400 ≠ Reg.TUN_P_SNIFF 0 % 0x400)
    && decide (a / 0x10000 ≠ 0x02 ∨ a % 0x400 ≠ Reg.FLD_P_RELAY 0 % 0x400)

theorem ClampFree.of {a : Nat} (h : clampFree a = true) : ClampFree a := by
  simp only [clampFree, Bool.and_eq_true, decide_eq_true_eq] at h
  exact ⟨h.1.1.1.1, h.1.1.1.2, h.1.1.2, h.1.2, h.2⟩

/-- A register that every port or timer has one of. -/
theorem ClampFree.page (f : Nat → Nat) (m d : Nat) (hf : ∀ n, f n = f 0 + n % m * d) (h : ((List.range m).all fun i => clampFree (f 0 + i * d)) = true)
    (hm : 0 < m) (n : Nat) : ClampFree (f n) := by
  rw [hf n]
  exact ClampFree.of (List.all_eq_true.mp h _ (List.mem_range.mpr (Nat.mod_lt n hm)))

theorem clampCheck_free {a : Nat} (h : ClampFree a) (s : State) : s.clampCheck a = s := by
  obtain ⟨h1, h2, h3, h4, h5⟩ := h
  unfold State.clampCheck
  rw [if_neg h1, if_neg h2]
  refine if_neg ?_
  split
  · rename_i n _
    have e3 : a ≠ Reg.FLD_P_AMPL n := fun e => h3.elim (fun k => k (by rw [e]; simp only [Reg.FLD_P_AMPL]; omega))
      (fun k => k (by rw [e]; simp only [Reg.FLD_P_AMPL]; omega))
    have e4 : a ≠ Reg.TUN_P_SNIFF n := fun e => h4.elim (fun k => k (by rw [e]; simp only [Reg.TUN_P_SNIFF]; omega))
      (fun k => k (by rw [e]; simp only [Reg.TUN_P_SNIFF]; omega))
    have e5 : a ≠ Reg.FLD_P_RELAY n := fun e => h5.elim (fun k => k (by rw [e]; simp only [Reg.FLD_P_RELAY]; omega))
      (fun k => k (by rw [e]; simp only [Reg.FLD_P_RELAY]; omega))
    simp [e3, e4, e5]
  · simp

theorem within_writeReg_at (s : State) (a : Nat) (v : Word) (x : Nat × Nat × Nat) (n : Nat) (hn : n < x.2.2) (ha : a = x.1 + n * x.2.1)
    (hc : Scope.Le ⟨[.regs, .obs], [x], []⟩ cc) (he : ClampFree a ∨ Scope.Le ⟨[.regs, .obs], experts, []⟩ cc) (h_s : Within cc ss s) :
    Within cc ss (s.writeReg a v) := by
  have o : Scope.Le ⟨[.obs], [], []⟩ cc := ⟨fun p hp => hc.parts p (by simp_all), fun r hr => absurd hr (by simp), fun m hm => absurd hm (by simp)⟩
  have r1 : Scope.Le ⟨[.regs], [x], []⟩ cc := ⟨fun p hp => hc.parts p (by simp_all), fun r hr => hc.regs r (by simp_all), fun m hm => absurd hm (by simp)⟩
  unfold State.writeReg
  split
  · exact h_s
  · rename_i r _
    dsimp only
    have k := within_ite (p := r.refuses (s.lockedBlock (a / 0x10000)) = true) (within_refuse o h_s (a / 0x10000)) h_s
    refine within_ite k (within_ite (within_reg a _ x n hn ha r1 k) ?_)
    rcases he with he | he
    · rw [clampCheck_free he]
      exact within_reg a _ x n hn ha r1 k
    · exact within_clampCheck _ _ he (within_reg a _ x n hn ha r1 k)

theorem within_writeReg (a : Nat) (s : State) (v : Word) (he : ClampFree a ∨ Scope.Le ⟨[.regs, .obs], experts, []⟩ cc)
    (hc : Scope.Le ⟨[.regs, .obs], [one a], []⟩ cc) (h_s : Within cc ss s) : Within cc ss (s.writeReg a v) :=
  within_writeReg_at s a v (one a) 0 Nat.one_pos (by simp [one]) hc he h_s

theorem within_writeReg_of (f : Nat → Nat) (k : Nat) (hk : 0 < k) (hf : ∀ n, f n = f 0 + n % k * (f 1 - f 0)) (n : Nat) (s : State) (v : Word)
    (he : ClampFree (f n) ∨ Scope.Le ⟨[.regs, .obs], experts, []⟩ cc) (hc : Scope.Le ⟨[.regs, .obs], [each f k], []⟩ cc) (h_s : Within cc ss s) :
    Within cc ss (s.writeReg (f n) v) :=
  within_writeReg_at s (f n) v (each f k) (n % k) (Nat.mod_lt n hk) (hf n) hc he h_s

theorem within_modE (s : State) (f : EmuSt → EmuSt) (hc : Scope.Le ⟨[.emu], [], []⟩ cc) (h_s : Within cc ss s) : Within cc ss (State.modE
    s f) := by
  unfold State.modE
  with_reducible repeat' first | assumption | intro _ | with_unfolding_all exact Scope.Le.trans rfl hc | apply within_with_emu

theorem within_nvWrite (s : State) (a : Nat) (b : List Byte) (hc : Scope.Le ⟨[.emu], [], []⟩ cc) (h_s : Within cc ss s) : Within cc ss
    (State.nvWrite s a b) := by
  unfold State.nvWrite
  with_reducible repeat' first | assumption | intro _ | with_unfolding_all exact Scope.Le.trans rfl hc | apply within_modE

theorem within_beginSync (s : State) (hc : Scope.Le ⟨[.emu, .free], [], []⟩ cc) (h_s : Within cc ss s) : Within cc ss (State.beginSync s)
    := by
  unfold State.beginSync
  with_reducible repeat' first
    | assumption | intro _ | with_unfolding_all exact Scope.Le.trans rfl hc | apply within_takeFreeWord | apply within_modE | split

theorem within_askSync (s : State) (hc : Scope.Le ⟨[.emu, .free], [], []⟩ cc) (h_s : Within cc ss s) : Within cc ss (State.askSync s) :=
    by
  unfold State.askSync
  with_reducible repeat' first
    | assumption | intro _ | with_unfolding_all exact Scope.Le.trans rfl hc | apply within_ite | apply within_modE
    | apply within_beginSync

theorem within_autoSync (s : State) (hc : Scope.Le ⟨[.emu, .free], [], []⟩ cc) (h_s : Within cc ss s) : Within cc ss (State.autoSync s) :=
    by
  unfold State.autoSync
  with_reducible repeat' first
    | assumption | intro _ | with_unfolding_all exact Scope.Le.trans rfl hc | apply within_ite | apply within_askSync

theorem within_markSat (s : State) (c v : Nat) (hc : Scope.Le ⟨[.regs, .obs], [one Reg.EMU_CTR_STATUS], []⟩ cc) (h_s : Within cc ss s) :
    Within cc ss (State.markSat s c v) := by
  unfold State.markSat
  with_reducible repeat' first
    | assumption | intro _ | with_unfolding_all exact Scope.Le.trans rfl hc | apply within_ite | apply within_setFldBit Reg.EMU_CTR_STATUS
    | apply within_post

theorem within_recoverCtr (byCore : Bool) (c : Nat) (s : State) (hc : Scope.Le ⟨[.regs, .emu, .obs], [each Reg.EMU_CTR 8, one
    Reg.EMU_CTR_STATUS], []⟩ cc) (h_s : Within cc ss s) : Within cc ss (State.recoverCtr byCore c s) := by
  unfold State.recoverCtr
  with_reducible repeat' first
    | assumption | intro _ | with_unfolding_all exact Scope.Le.trans rfl hc | apply within_ite | apply within_setFldBit Reg.EMU_CTR_STATUS
    | apply within_setReg_of Reg.EMU_CTR 8 (Nat.succ_pos _) (by with_unfolding_all exact fun _ => rfl)
    | apply within_stickBit Reg.EMU_CTR_STATUS | apply within_post | apply within_nvWrite | apply within_markSat | split

theorem within_queueInc (s : State) (c : Nat) (hc : Scope.Le ⟨[.emu], [], []⟩ cc) (h_s : Within cc ss s) : Within cc ss (State.queueInc s
    c) := by
  unfold State.queueInc
  with_reducible repeat' first | assumption | intro _ | with_unfolding_all exact Scope.Le.trans rfl hc | apply within_modE

theorem within_putData (s : State) (i : Nat) (w : Word) (hc : Scope.Le ⟨[.emu], [], []⟩ cc) (h_s : Within cc ss s) : Within cc ss
    (State.putData s i w) := by
  unfold State.putData
  with_reducible repeat' first | assumption | intro _ | with_unfolding_all exact Scope.Le.trans rfl hc | apply within_modE

theorem within_putDatas (s : State) (i : Nat) (l : List Word) (hc : Scope.Le ⟨[.emu], [], []⟩ cc) (h_s : Within cc ss s) :
    Within cc ss (State.putDatas s i l) := by
  induction l generalizing s i with
  | nil => exact h_s
  | cons w t ih => exact ih _ _ (within_ite (within_putData _ _ _ (Scope.Le.trans rfl hc) h_s) h_s)

theorem within_releaseHeld (s : State) (hc : Scope.Le ⟨[.emu], [], []⟩ cc) (h_s : Within cc ss s) : Within cc ss (State.releaseHeld s) :=
    by
  unfold State.releaseHeld
  with_reducible repeat' first
    | assumption | intro _ | with_unfolding_all exact Scope.Le.trans rfl hc | apply within_modE | apply within_putDatas | split

theorem within_leaveActive (s : State) (t : TagState) (hc : Scope.Le ⟨[.emu, .free], [], []⟩ cc) (h_s : Within cc ss s) : Within cc ss
    (State.leaveActive s t) := by
  unfold State.leaveActive
  with_reducible repeat' first
    | assumption | intro _ | with_unfolding_all exact Scope.Le.trans rfl hc | apply within_ite | apply within_modE | apply within_autoSync
    | apply within_releaseHeld

theorem within_tagTo (s : State) (t : TagState) (hc : Scope.Le ⟨[.emu, .free], [], []⟩ cc) (h_s : Within cc ss s) : Within cc ss
    (State.tagTo s t) := by
  unfold State.tagTo
  with_reducible repeat' first
    | assumption | intro _ | with_unfolding_all exact Scope.Le.trans rfl hc | apply within_ite | apply within_modE
    | apply within_leaveActive

theorem within_emuStart (s : State) (hc : Scope.Le ⟨[.emu], [], []⟩ cc) (h_s : Within cc ss s) : Within cc ss (State.emuStart s) := by
  unfold State.emuStart
  with_reducible repeat' first
    | assumption | intro _ | with_unfolding_all exact Scope.Le.trans rfl hc | apply within_ite | apply within_modE

theorem within_emuLevel (s : State) (n : Nat) (hc : Scope.Le ⟨[.emu], [], []⟩ cc) (h_s : Within cc ss s) : Within cc ss (State.emuLevel s
    n) := by
  unfold State.emuLevel
  with_reducible repeat' first
    | assumption | intro _ | with_unfolding_all exact Scope.Le.trans rfl hc | apply within_ite | apply within_modE

theorem within_syncEmu (s : State) (hc : Scope.Le ⟨[.regs, .field, .rxe, .emu, .free, .obs], [each Reg.RXE_P_AFC 16, each
    Reg.RXE_P_CANCEL_STATUS 16, each Reg.RXE_P_FRONT 16], []⟩ cc) (h_s : Within cc ss s) : Within cc ss (State.syncEmu s) := by
  unfold State.syncEmu
  with_reducible repeat' first
    | assumption | intro _ | with_unfolding_all exact Scope.Le.trans rfl hc | apply within_ite | apply within_rxIdle | apply within_listen
    | apply within_tagTo | apply within_emuStart | apply within_emuLevel | apply within_foldl

theorem within_clearTest (s : State) (p : Phase) (hc : Scope.Le ⟨[.regs], [one Reg.GEN_TEST_CTRL, one Reg.GEN_TEST_LANE], []⟩ cc) (h_s :
    Within cc ss s) : Within cc ss (State.clearTest s p) := by
  unfold State.clearTest
  with_reducible repeat' first
    | assumption | intro _ | with_unfolding_all exact Scope.Le.trans rfl hc | apply within_ite | apply within_setReg Reg.GEN_TEST_CTRL
    | apply within_setReg Reg.GEN_TEST_LANE

theorem within_dropPower (s : State) (p : Phase) (hc : Scope.Le ⟨[.pwr], [], []⟩ cc) (h_s : Within cc ss s) : Within cc ss
    (State.dropPower s p) := by
  unfold State.dropPower
  with_reducible repeat' first
    | assumption | intro _ | with_unfolding_all exact Scope.Le.trans rfl hc | apply within_ite | apply within_with_pwr

theorem within_toPhase (s0 : State) (p : Phase) (hc : Scope.Le ⟨[.regs, .gen, .pwr, .field, .rxe, .emu, .free, .obs], [each
    Reg.RXE_P_CANCEL_STATUS 16, each Reg.RXE_P_FRONT 16] ++ phaseRegs, []⟩ cc) (h_s0 : Within cc ss s0) : Within cc ss (State.toPhase s0
    p) := by
  unfold State.toPhase
  with_reducible repeat' first
    | assumption | intro _ | with_unfolding_all exact Scope.Le.trans rfl hc | apply within_stick Reg.GEN_IRQ_STATUS | apply within_post
    | apply within_syncEmu | apply within_clearTest | apply within_dropPower | dsimp only | apply within_with_gen

theorem within_parkLists (s : State) (hc : Scope.Le ⟨[.pro, .sess, .cox], [], []⟩ cc) (h_s : Within cc ss s) : Within cc ss
    (State.parkLists s) := by
  unfold State.parkLists
  with_reducible repeat' first
    | assumption | intro _ | with_unfolding_all exact Scope.Le.trans rfl hc | apply within_modP | apply within_dropJob | apply within_each

theorem within_allOff (s : State) (hc : Scope.Le ⟨[.field, .obs], [], []⟩ cc) (h_s : Within cc ss s) : Within cc ss (State.allOff s) := by
  unfold State.allOff
  with_reducible repeat' first
    | assumption | intro _ | with_unfolding_all exact Scope.Le.trans rfl hc | apply within_ite | apply within_modF | apply within_askOff
    | apply within_each

theorem within_recover (s : State) (cause : Nat) (hc : Scope.Le ⟨[.regs, .gen, .pwr, .field, .rxe, .pro, .sess, .emu, .cox, .free, .obs],
    [each Reg.RXE_P_CANCEL_STATUS 16, each Reg.RXE_P_FRONT 16] ++ phaseRegs, []⟩ cc) (h_s : Within cc ss s) : Within cc ss (State.recover
    s cause) := by
  unfold State.recover
  with_reducible repeat' first
    | assumption | intro _ | with_unfolding_all exact Scope.Le.trans rfl hc | apply within_ite | apply within_toPhase
    | apply within_parkLists | apply within_allOff | dsimp only | apply within_with_gen

theorem within_toRun (s : State) (hc : Scope.Le ⟨[.regs, .gen, .pwr, .field, .rxe, .pro, .sess, .kpr, .emu, .cox, .saf, .free, .obs],
    [each Reg.RXE_P_CANCEL_STATUS 16, each Reg.RXE_P_FRONT 16, one Reg.SAF_LOCK, one Reg.SAF_STATUS] ++ phaseRegs, []⟩ cc) (h_s : Within
    cc ss s) : Within cc ss (State.toRun s) := by
  unfold State.toRun
  with_reducible repeat' first
    | assumption | intro _ | with_unfolding_all exact Scope.Le.trans rfl hc | apply within_ite | apply within_setFld Reg.SAF_STATUS
    | apply within_setFld Reg.SAF_LOCK | apply within_toPhase | apply within_parkLists | dsimp only | apply within_with_gen_kpr_saf

theorem within_toSafe (s : State) (cause : Nat) (hc : Scope.Le ⟨[.regs, .gen, .pwr, .field, .rxe, .emu, .free, .obs], [each
    Reg.RXE_P_CANCEL_STATUS 16, each Reg.RXE_P_FRONT 16] ++ phaseRegs, []⟩ cc) (h_s : Within cc ss s) : Within cc ss (State.toSafe s
    cause) := by
  unfold State.toSafe
  with_reducible repeat' first
    | assumption | intro _ | with_unfolding_all exact Scope.Le.trans rfl hc | apply within_toPhase | dsimp only | apply within_with_gen

theorem within_setSto (s : State) (x : StoSt) (hc : Scope.Le ⟨[.sto], [], []⟩ cc) (h_s : Within cc ss s) : Within cc ss (State.setSto s x)
    := by
  unfold State.setSto
  with_reducible repeat' first | assumption | intro _ | with_unfolding_all exact Scope.Le.trans rfl hc | apply within_with_sto

theorem within_placeItems (s : State) (l : List BusItem) (hc : Scope.Le ⟨[.sto], [], []⟩ cc) (h_s : Within cc ss s) : Within cc ss
    (State.placeItems s l) := by
  unfold State.placeItems
  with_reducible repeat' first | assumption | intro _ | with_unfolding_all exact Scope.Le.trans rfl hc | apply within_setSto

theorem within_writeBuf (s : State) (k o : Nat) (b : List Byte) (hc : Scope.Le ⟨[.sto], [], []⟩ cc) (h_s : Within cc ss s) : Within cc ss
    (State.writeBuf s k o b) := by
  unfold State.writeBuf
  with_reducible repeat' first
    | assumption | intro _ | with_unfolding_all exact Scope.Le.trans rfl hc | apply within_ite | apply within_setSto

theorem within_hostEnd (s : State) (k result : Nat) (hc : Scope.Le ⟨[.regs, .obs], [one Reg.STO_HSTATUS], []⟩ cc) (h_s : Within cc ss s) :
    Within cc ss (State.hostEnd s k result) := by
  unfold State.hostEnd
  with_reducible repeat' first
    | assumption | intro _ | with_unfolding_all exact Scope.Le.trans rfl hc | apply within_setFld Reg.STO_HSTATUS
    | apply within_stick Reg.STO_HSTATUS

theorem within_writeHcmd (s : State) (v : Word) (hc : Scope.Le ⟨[.regs, .sto, .obs], [one Reg.STO_HSTATUS], []⟩ cc) (h_s : Within cc ss s)
    : Within cc ss (State.writeHcmd s v) := by
  unfold State.writeHcmd
  with_reducible repeat' first
    | assumption | intro _ | with_unfolding_all exact Scope.Le.trans rfl hc | apply within_ite | apply within_setFld Reg.STO_HSTATUS
    | apply within_post | apply within_queueOp | apply within_hostEnd

theorem within_headFound (s : State) (head seq : Nat) (last : Option Nat) (hc : Scope.Le ⟨[.regs, .sto], [one Reg.STO_SPILL, one
    Reg.STO_SPILL_SEQ], []⟩ cc) (h_s : Within cc ss s) : Within cc ss (State.headFound s head seq last) := by
  unfold State.headFound
  with_reducible repeat' first
    | assumption | intro _ | with_unfolding_all exact Scope.Le.trans rfl hc | apply within_ite | apply within_setReg Reg.STO_SPILL
    | apply within_setReg Reg.STO_SPILL_SEQ | apply within_setSto | split

theorem within_headSettle (s : State) (hc : Scope.Le ⟨[.regs, .sto], [one Reg.STO_SPILL, one Reg.STO_SPILL_SEQ], []⟩ cc) (h_s : Within cc
    ss s) : Within cc ss (State.headSettle s) := by
  unfold State.headSettle
  with_reducible repeat' first
    | assumption | intro _ | with_unfolding_all exact Scope.Le.trans rfl hc | apply within_ite | apply within_setSto
    | apply within_headFound | split

theorem within_headSeen (s : State) (page : Nat) (found : Option Nat) (hc : Scope.Le ⟨[.regs, .sto], [one Reg.STO_SPILL, one
    Reg.STO_SPILL_SEQ], []⟩ cc) (h_s : Within cc ss s) : Within cc ss (State.headSeen s page found) := by
  unfold State.headSeen
  with_reducible repeat' first
    | assumption | intro _ | with_unfolding_all exact Scope.Le.trans rfl hc | apply within_ite | apply within_setSto
    | apply within_headFound | apply within_headSettle | split

theorem within_pumpSpill (s : State) (hc : Scope.Le ⟨[.sto], [], []⟩ cc) (h_s : Within cc ss s) : Within cc ss (State.pumpSpill s) := by
  unfold State.pumpSpill
  with_reducible repeat' first
    | assumption | intro _ | with_unfolding_all exact Scope.Le.trans rfl hc | apply within_ite | apply within_queueOp | split

theorem within_dropOp (s : State) (i : Nat) (hc : Scope.Le ⟨[.sto], [], []⟩ cc) (h_s : Within cc ss s) : Within cc ss (State.dropOp s i)
    := by
  unfold State.dropOp
  with_reducible repeat' first | assumption | intro _ | with_unfolding_all exact Scope.Le.trans rfl hc | apply within_setSto

theorem within_startOp (s : State) (i : Nat) (q : StoOp) (block : Nat) (hc : Scope.Le ⟨[.sto], [], []⟩ cc) (h_s : Within cc ss s) : Within
    cc ss (State.startOp s i q block) := by
  unfold State.startOp
  with_reducible repeat' first
    | assumption | intro _ | with_unfolding_all exact Scope.Le.trans rfl hc | apply within_ite | apply within_setSto
    | apply within_placeItems

theorem within_beginOp (s : State) (i : Nat) (q : StoOp) (hc : Scope.Le ⟨[.regs, .sess, .quar, .kpr, .sto, .saf] ++ passing, [one
    Reg.STO_HSTATUS] ++ decisionRegs, [ringBytes, tableBytes]⟩ cc) (h_s : Within cc ss s) : Within cc ss (State.beginOp s i q) := by
  unfold State.beginOp
  with_reducible repeat' first
    | assumption | intro _ | with_unfolding_all exact Scope.Le.trans rfl hc | apply within_ite | apply within_shelfDone
    | apply within_hostEnd | apply within_dropOp | apply within_startOp | split

theorem within_endOp (s : State) (i : Nat) (q : StoOp) (hc : Scope.Le ⟨[.sto], [], []⟩ cc) (h_s : Within cc ss s) : Within cc ss
    (State.endOp s i q) := by
  unfold State.endOp
  with_reducible repeat' first
    | assumption | intro _ | with_unfolding_all exact Scope.Le.trans rfl hc | apply within_ite | apply within_setSto
    | apply within_placeItems | apply within_dropOp

theorem within_countEcc (s : State) (e : Ecc) (hc : Scope.Le ⟨[.regs, .obs], [one Reg.STO_COUNTS], []⟩ cc) (h_s : Within cc ss s) : Within
    cc ss (State.countEcc s e) := by
  unfold State.countEcc
  with_reducible repeat' first
    | assumption | intro _ | with_unfolding_all exact Scope.Le.trans rfl hc | apply within_bump Reg.STO_COUNTS | apply within_postSec
    | split

theorem within_pollDie (s : State) (q : StoOp) (hc : Scope.Le ⟨[.sto] ++ passing, [], [ringBytes]⟩ cc) (h_s : Within cc ss s) : Within cc
    ss (State.pollDie s q) := by
  unfold State.pollDie
  with_reducible repeat' first
    | assumption | intro _ | with_unfolding_all exact Scope.Le.trans rfl hc | apply within_advance | apply within_placeItems

theorem within_blockFailed (s : State) (q : StoOp) (code : Nat) (hc : Scope.Le ⟨[.regs, .sto, .obs], [one Reg.STO_GROWN, each
    Reg.STO_PAGES 3], []⟩ cc) (h_s : Within cc ss s) : Within cc ss (State.blockFailed s q code) := by
  unfold State.blockFailed
  with_reducible repeat' first
    | assumption | intro _ | with_unfolding_all exact Scope.Le.trans rfl hc | apply within_ite | apply within_setReg Reg.STO_GROWN
    | apply within_post | apply within_setPages | apply within_queueOp | apply within_setSto

theorem within_setHead (s : State) (page : Nat) (hc : Scope.Le ⟨[.regs, .sto], [one Reg.STO_SPILL], []⟩ cc) (h_s : Within cc ss s) :
    Within cc ss (State.setHead s page) := by
  unfold State.setHead
  with_reducible repeat' first
    | assumption | intro _ | with_unfolding_all exact Scope.Le.trans rfl hc | apply within_ite | apply within_setFld Reg.STO_SPILL
    | apply within_setSto

theorem within_spillWritten (s : State) (hc : Scope.Le ⟨[.regs, .sto, .obs], [one Reg.STO_SPILL, one Reg.STO_SPILL_SEQ], []⟩ cc) (h_s :
    Within cc ss s) : Within cc ss (State.spillWritten s) := by
  unfold State.spillWritten
  with_reducible repeat' first
    | assumption | intro _ | with_unfolding_all exact Scope.Le.trans rfl hc | apply within_setReg Reg.STO_SPILL_SEQ | apply within_setSil
    | apply within_setSto | apply within_setHead

theorem within_spillMoved (s : State) (page : Nat) (hc : Scope.Le ⟨[.regs, .sto], [one Reg.STO_SPILL], []⟩ cc) (h_s : Within cc ss s) :
    Within cc ss (State.spillMoved s page) := by
  unfold State.spillMoved
  with_reducible repeat' first
    | assumption | intro _ | with_unfolding_all exact Scope.Le.trans rfl hc | apply within_setSto | apply within_setHead

theorem within_resetStore (s : State) (hc : Scope.Le ⟨[.regs, .sto, .obs], [one Reg.STO_HSTATUS], []⟩ cc) (h_s : Within cc ss s) : Within
    cc ss (State.resetStore s) := by
  unfold State.resetStore
  with_reducible repeat' first
    | assumption | intro _ | with_unfolding_all exact Scope.Le.trans rfl hc | apply within_setSto | apply within_placeItems
    | apply within_hostEnd | apply within_foldl | split

theorem within_mapCheck (s : State) (hc : Scope.Le ⟨[.regs, .obs], [each Reg.STO_PAGES 3], []⟩ cc) (h_s : Within cc ss s) : Within cc ss
    (State.mapCheck s) := by
  unfold State.mapCheck
  with_reducible repeat' first
    | assumption | intro _ | with_unfolding_all exact Scope.Le.trans rfl hc | apply within_ite
    | apply within_setFld_of Reg.STO_PAGES 3 (Nat.succ_pos _) (by with_unfolding_all exact fun _ => rfl) | apply within_post

theorem within_storeUp (s : State) (hc : Scope.Le ⟨[.regs, .sto, .obs], [one Reg.STO_GROWN, each Reg.STO_PAGES 3, one Reg.STO_STATUS], []⟩
    cc) (h_s : Within cc ss s) : Within cc ss (State.storeUp s) := by
  unfold State.storeUp
  with_reducible repeat' first
    | assumption | intro _ | with_unfolding_all exact Scope.Le.trans rfl hc | apply within_setFld Reg.STO_GROWN
    | apply within_setFld Reg.STO_STATUS | apply within_setPages | apply within_setSto | apply within_mapCheck

theorem within_storeStart (s : State) (ok : Bool) (hc : Scope.Le ⟨[.regs, .sto, .obs], [one Reg.STO_GROWN, each Reg.STO_PAGES 3, one
    Reg.STO_STATUS], []⟩ cc) (h_s : Within cc ss s) : Within cc ss (State.storeStart s ok) := by
  unfold State.storeStart
  with_reducible repeat' first
    | assumption | intro _ | with_unfolding_all exact Scope.Le.trans rfl hc | apply within_ite | apply within_setFld Reg.STO_STATUS
    | apply within_postSec | apply within_storeUp

theorem within_storeSafe (s : State) (hc : Scope.Le ⟨[.regs, .sto, .obs], [one Reg.STO_HSTATUS], []⟩ cc) (h_s : Within cc ss s) : Within
    cc ss (State.storeSafe s) := by
  unfold State.storeSafe
  with_reducible repeat' first
    | assumption | intro _ | with_unfolding_all exact Scope.Le.trans rfl hc | apply within_setSto | apply within_hostEnd
    | apply within_foldl | split

theorem within_spoilLine (s : State) (l : Nat) (hc : Scope.Le ⟨[.sram, .free], [], [ringBytes]⟩ cc) (h_s : Within cc ss s) : Within cc ss (State.spoilLine s l) := by
  unfold State.spoilLine
  refine within_sramWrite _ _ ringBytes (Nat.le_add_right _ _) ?_ (Scope.Le.trans rfl hc) (within_with_free _ (Scope.Le.trans rfl hc) h_s)
  simp only [length_unpackWords, List.length_map, List.length_range, lineAddr, ringBytes]
  omega

theorem within_putBack (s : State) (r : Rec) (fromHold : Bool) (hc : Scope.Le ⟨[.obs], [], []⟩ cc) (h_s : Within cc ss s) : Within cc ss
    (State.putBack s r fromHold) := by
  unfold State.putBack
  with_reducible repeat' first
    | assumption | intro _ | with_unfolding_all exact Scope.Le.trans rfl hc | apply within_ite | apply within_setSil

theorem within_writeFreeze (s : State) (v : Word) (hc : Scope.Le ⟨[.regs, .obs], [one Reg.SIL_FREEZE], []⟩ cc) (h_s : Within cc ss s) :
    Within cc ss (State.writeFreeze s v) := by
  unfold State.writeFreeze
  with_reducible repeat' first
    | assumption | intro _ | with_unfolding_all exact Scope.Le.trans rfl hc | apply within_ite
    | refine within_writeReg Reg.SIL_FREEZE _ _ (.inl (ClampFree.of (by with_unfolding_all exact rfl))) ?_ ?_ | apply within_setSil

theorem within_kickLink (s : State) (hc : Scope.Le ⟨[.field, .tun, .obs], [], []⟩ cc) (h_s : Within cc ss s) : Within cc ss
    (State.kickLink s) := by
  unfold State.kickLink
  with_reducible repeat' first
    | assumption | intro _ | with_unfolding_all exact Scope.Le.trans rfl hc | apply within_ite | apply within_modF | apply within_modT
    | apply within_endDeferral | split | dsimp only | apply within_with_tun

theorem within_yieldLink (s : State) (n : Nat) (hc : Scope.Le ⟨[.field, .tun], [], []⟩ cc) (h_s : Within cc ss s) : Within cc ss
    (State.yieldLink s n) := by
  unfold State.yieldLink
  with_reducible repeat' first
    | assumption | intro _ | with_unfolding_all exact Scope.Le.trans rfl hc | apply within_ite | apply within_modF | apply within_modT
    | split | dsimp only | apply within_with_tun

theorem within_sendCode (s : State) (n : Nat) (hc : Scope.Le ⟨[.field, .tun, .obs], [], []⟩ cc) (h_s : Within cc ss s) : Within cc ss
    (State.sendCode s n) := by
  unfold State.sendCode
  with_reducible repeat' first
    | assumption | intro _ | with_unfolding_all exact Scope.Le.trans rfl hc | apply within_ite | apply within_kickLink
    | apply within_yieldLink | dsimp only | apply within_with_tun

theorem within_linkDone (s : State) (n : Nat) (hc : Scope.Le ⟨[.field, .tun, .obs], [], []⟩ cc) (h_s : Within cc ss s) : Within cc ss
    (State.linkDone s n) := by
  unfold State.linkDone
  with_reducible repeat' first
    | assumption | intro _ | with_unfolding_all exact Scope.Le.trans rfl hc | apply within_modT | apply within_kickLink
    | apply within_with_tun

theorem within_putDev (s : State) (n : Nat) (v : Word) (hc : Scope.Le ⟨[.regs, .free], [each Reg.TUN_P_STATUS 16], []⟩ cc) (h_s : Within
    cc ss s) : Within cc ss (State.putDev s n v) := by
  unfold State.putDev
  with_reducible repeat' first
    | assumption | intro _ | with_unfolding_all exact Scope.Le.trans rfl hc | apply within_ite
    | apply within_setFld_of Reg.TUN_P_STATUS 16 (Nat.succ_pos _) (by with_unfolding_all exact fun _ => rfl) | apply within_takeFreeWord

theorem within_tryCode (s : State) (n axis c : Nat) (hc : Scope.Le ⟨[.regs, .field, .tun, .obs], [each Reg.TUN_P_CODE 16], []⟩ cc) (h_s :
    Within cc ss s) : Within cc ss (State.tryCode s n axis c) := by
  unfold State.tryCode
  with_reducible repeat' first
    | assumption | intro _ | with_unfolding_all exact Scope.Le.trans rfl hc
    | apply within_setFld_of Reg.TUN_P_CODE 16 (Nat.succ_pos _) (by with_unfolding_all exact fun _ => rfl) | apply within_sendCode

theorem within_beginSearch (s : State) (n : Nat) (hc : Scope.Le ⟨[.regs, .field, .tun, .obs], [each Reg.TUN_P_STATUS 16], []⟩ cc) (h_s :
    Within cc ss s) : Within cc ss (State.beginSearch s n) := by
  unfold State.beginSearch
  with_reducible repeat' first
    | assumption | intro _ | with_unfolding_all exact Scope.Le.trans rfl hc | apply within_ite
    | apply within_setFld_of Reg.TUN_P_STATUS 16 (Nat.succ_pos _) (by with_unfolding_all exact fun _ => rfl) | apply within_modT
    | apply within_sendCode

theorem within_closeSearch (s : State) (n : Nat) (x : Search) (hc : Scope.Le ⟨[.regs, .field, .tun, .obs], [each Reg.TUN_P_CODE 16, each
    Reg.TUN_P_STATUS 16], []⟩ cc) (h_s : Within cc ss s) : Within cc ss (State.closeSearch s n x) := by
  unfold State.closeSearch
  with_reducible repeat' first
    | assumption | intro _ | with_unfolding_all exact Scope.Le.trans rfl hc | apply within_ite
    | apply within_setFld_of Reg.TUN_P_STATUS 16 (Nat.succ_pos _) (by with_unfolding_all exact fun _ => rfl) | apply within_modT
    | apply within_tryCode

theorem within_abandonSearch (s : State) (n : Nat) (hc : Scope.Le ⟨[.regs, .field, .tun, .obs], [each Reg.TUN_P_CODE 16, each
    Reg.TUN_P_STATUS 16], []⟩ cc) (h_s : Within cc ss s) : Within cc ss (State.abandonSearch s n) := by
  unfold State.abandonSearch
  with_reducible repeat' first
    | assumption | intro _ | with_unfolding_all exact Scope.Le.trans rfl hc | apply within_post | apply within_closeSearch | split

theorem within_endSearch (t : State) (n : Nat) (z : Search) (hc : Scope.Le ⟨[.regs, .obs], [each Reg.TUN_P_STATUS 16], []⟩ cc) (h_t :
    Within cc ss t) : Within cc ss (State.endSearch t n z) := by
  unfold State.endSearch
  with_reducible repeat' first
    | assumption | intro _ | with_unfolding_all exact Scope.Le.trans rfl hc | apply within_ite
    | apply within_stick_of Reg.TUN_P_STATUS 16 (Nat.succ_pos _) (by with_unfolding_all exact fun _ => rfl) | apply within_post

theorem within_searchOn (s : State) (n : Nat) (x : Search) (hc : Scope.Le ⟨[.regs, .field, .tun, .obs], [each Reg.TUN_P_CODE 16, each
    Reg.TUN_P_STATUS 16], []⟩ cc) (h_s : Within cc ss s) : Within cc ss (State.searchOn s n x) := by
  unfold State.searchOn
  with_reducible repeat' first
    | assumption | intro _ | with_unfolding_all exact Scope.Le.trans rfl hc | apply within_ite
    | apply within_setFld_of Reg.TUN_P_CODE 16 (Nat.succ_pos _) (by with_unfolding_all exact fun _ => rfl) | apply within_modT
    | apply within_sendCode | apply within_tryCode | apply within_closeSearch | apply within_endSearch | split | dsimp only

theorem within_measuredVec (s : State) (n : Nat) (v : Word) (hc : Scope.Le ⟨[.regs, .field, .tun, .free, .obs], [one
    Reg.TUN_MISMATCH_STATUS, each Reg.TUN_P_REF 16, each Reg.TUN_P_STATUS 16, each Reg.TUN_P_VEC 16], []⟩ cc) (h_s : Within cc ss s) :
    Within cc ss (State.measuredVec s n v) := by
  unfold State.measuredVec
  with_reducible repeat' first
    | assumption | intro _ | with_unfolding_all exact Scope.Le.trans rfl hc | apply within_ite
    | apply within_setReg_of Reg.TUN_P_VEC 16 (Nat.succ_pos _) (by with_unfolding_all exact fun _ => rfl)
    | apply within_setReg_of Reg.TUN_P_REF 16 (Nat.succ_pos _) (by with_unfolding_all exact fun _ => rfl)
    | apply within_setFld_of Reg.TUN_P_STATUS 16 (Nat.succ_pos _) (by with_unfolding_all exact fun _ => rfl)
    | apply within_stickBit Reg.TUN_MISMATCH_STATUS | apply within_post | apply within_modT | apply within_putDev
    | apply within_beginSearch

end Sys2Proof.Machine
end

