-- ==== Sys2Proof/Laws/WithinBlocks.lean ====
section
/-! SUPPORT. Field, reception, frames, polling, Accord, power, coexistence, emulation, timers and resets: each operation stays within a scope that names what it writes. -/

namespace Sys2Proof.Machine

variable {cc : Scope} {ss : State}
theorem within_lockSyn (s : State) (hc : Scope.Le ⟨[.regs, .field, .pro], [one Reg.FLD_SYN_STATUS], []⟩ cc) (h_s : Within cc ss s) :
    Within cc ss (State.lockSyn s) := by
  unfold State.lockSyn
  with_reducible repeat' first
    | assumption | intro _ | with_unfolding_all exact Scope.Le.trans rfl hc | apply within_setFld Reg.FLD_SYN_STATUS | apply within_modP
    | apply within_each | dsimp only | apply within_with_field

theorem within_lockPast (s : State) (hc : Scope.Le ⟨[.regs, .field, .pro], [one Reg.FLD_SYN_STATUS], []⟩ cc) (h_s : Within cc ss s) :
    Within cc ss (State.lockPast s) := by
  unfold State.lockPast
  with_reducible repeat' first
    | assumption | intro _ | with_unfolding_all exact Scope.Le.trans rfl hc | apply within_ite | apply within_lockSyn

theorem within_retrim (s : State) (hc : Scope.Le ⟨[.regs, .field, .pro], [one Reg.FLD_SYN_STATUS], []⟩ cc) (h_s : Within cc ss s) : Within
    cc ss (State.retrim s) := by
  unfold State.retrim
  with_reducible repeat' first
    | assumption | intro _ | with_unfolding_all exact Scope.Le.trans rfl hc | apply within_ite | apply within_setFld Reg.FLD_SYN_STATUS
    | apply within_lockPast | dsimp only | apply within_with_field

theorem within_writeTrim (s : State) (v : Word) (hc : Scope.Le ⟨[.regs, .field, .pro, .obs], [one Reg.FLD_FC_TRIM, one Reg.FLD_SYN_STATUS]
    ++ experts, []⟩ cc) (h_s : Within cc ss s) : Within cc ss (State.writeTrim s v) := by
  unfold State.writeTrim
  with_reducible repeat' first
    | assumption | intro _ | with_unfolding_all exact Scope.Le.trans rfl hc
    | refine within_writeReg Reg.FLD_FC_TRIM _ _ (.inr (Scope.Le.trans rfl hc)) ?_ ?_ | apply within_retrim

theorem within_writePA (s : State) (n : Nat) (isAmpl : Bool) (v : Word) (hc : Scope.Le ⟨[.regs, .field, .obs], [each Reg.FLD_P_AMPL 16, each Reg.FLD_P_PHASE 16] ++ experts, []⟩ cc) (h_s : Within cc ss s) :
    Within cc ss (State.writePA s n isAmpl v) := by
  unfold State.writePA
  dsimp only
  have k : Within cc ss (s.writeReg (if isAmpl then Reg.FLD_P_AMPL n else Reg.FLD_P_PHASE n) v) := by
    split
    · exact within_writeReg_of Reg.FLD_P_AMPL 16 (Nat.succ_pos _) (by with_unfolding_all exact fun _ => rfl) _ _ _
        (.inr (Scope.Le.trans rfl hc)) (Scope.Le.trans rfl hc) h_s
    · exact within_writeReg_of Reg.FLD_P_PHASE 16 (Nat.succ_pos _) (by with_unfolding_all exact fun _ => rfl) _ _ _
        (.inr (Scope.Le.trans rfl hc)) (Scope.Le.trans rfl hc) h_s
  exact within_ite (within_modF _ _ _ (Scope.Le.trans rfl hc) k) k

theorem within_compensate (s : State) (n : Nat) (m : DriverMeas) (hc : Scope.Le ⟨[.regs, .obs], [each Reg.FLD_P_COMP 16], []⟩ cc) (h_s :
    Within cc ss s) : Within cc ss (State.compensate s n m) := by
  unfold State.compensate
  with_reducible repeat' first
    | assumption | intro _ | with_unfolding_all exact Scope.Le.trans rfl hc | apply within_ite
    | apply within_setFld_of Reg.FLD_P_COMP 16 (Nat.succ_pos _) (by with_unfolding_all exact fun _ => rfl)
    | apply within_stick_of Reg.FLD_P_COMP 16 (Nat.succ_pos _) (by with_unfolding_all exact fun _ => rfl) | apply within_post

theorem within_setLimit (s : State) (lim : Nat) (hc : Scope.Le ⟨[.regs, .field, .obs], [one Reg.PWR_THERM_STATUS], []⟩ cc) (h_s : Within
    cc ss s) : Within cc ss (State.setLimit s lim) := by
  unfold State.setLimit
  with_reducible repeat' first
    | assumption | intro _ | with_unfolding_all exact Scope.Le.trans rfl hc | apply within_ite | apply within_setFld Reg.PWR_THERM_STATUS
    | apply within_stick Reg.PWR_THERM_STATUS | apply within_postSec | apply within_modF | apply within_each

theorem within_thermal (s : State) (ms : List DriverMeas) (hc : Scope.Le ⟨[.regs, .field, .obs], [one Reg.PWR_THERM_DISS, one
    Reg.PWR_THERM_STATUS], []⟩ cc) (h_s : Within cc ss s) : Within cc ss (State.thermal s ms) := by
  unfold State.thermal
  with_reducible repeat' first
    | assumption | intro _ | with_unfolding_all exact Scope.Le.trans rfl hc | apply within_ite | apply within_setReg Reg.PWR_THERM_DISS
    | apply within_setFld Reg.PWR_THERM_STATUS | apply within_setLimit

theorem within_atLead (s : State) (from_ : Nat) (hc : Scope.Le ⟨passing, [], [ringBytes]⟩ cc) (h_s : Within cc ss s) : Within cc ss
    (State.atLead s from_) := by
  unfold State.atLead
  with_reducible repeat' first
    | assumption | intro _ | with_unfolding_all exact Scope.Le.trans rfl hc | apply within_ite | apply within_advance | dsimp only
    | apply within_with_obs

theorem within_beginOn (s : State) (n : Nat) (hc : Scope.Le ⟨[.field, .cox, .obs], [], []⟩ cc) (h_s : Within cc ss s) : Within cc ss
    (State.beginOn s n) := by
  unfold State.beginOn
  with_reducible repeat' first
    | assumption | intro _ | with_unfolding_all exact Scope.Le.trans rfl hc | apply within_ite | apply within_modF | apply within_modX
    | apply within_endDeferral | apply within_applyPA | dsimp only | apply within_with_field

theorem within_coxDefer (s : State) (n : Nat) (fail : State → State) (hc : Scope.Le ⟨[.regs, .cox, .obs], [one Reg.COX_COUNTS], []⟩ cc)
    (h_s : Within cc ss s) (h_fail : ∀ t, Within cc ss t → Within cc ss (fail t)) : Within cc ss (State.coxDefer s n fail) := by
  unfold State.coxDefer
  with_reducible repeat' first
    | assumption | intro _ | with_unfolding_all exact Scope.Le.trans rfl hc | apply within_ite | apply within_bump Reg.COX_COUNTS
    | apply within_count | apply within_post | apply within_modX | dsimp only | apply h_fail

theorem within_noGrant (s : State) (n : Nat) (fail : State → State) (hc : Scope.Le ⟨[.regs, .cox, .obs], [one Reg.COX_COUNTS], []⟩ cc)
    (h_s : Within cc ss s) (h_fail : ∀ t, Within cc ss t → Within cc ss (fail t)) : Within cc ss (State.noGrant s n fail) := by
  unfold State.noGrant
  with_reducible repeat' first
    | assumption | intro _ | with_unfolding_all exact Scope.Le.trans rfl hc | apply within_ite | apply within_modX | apply within_coxDefer

theorem within_memberOn (s : State) (n : Nat) (hc : Scope.Le ⟨[.regs, .field, .cox] ++ passing, [one Reg.COX_COUNTS], [ringBytes]⟩ cc)
    (h_s : Within cc ss s) : Within cc ss (State.memberOn s n) := by
  unfold State.memberOn
  with_reducible repeat' first
    | assumption | intro _ | with_unfolding_all exact Scope.Le.trans rfl hc | apply within_ite | apply within_modF
    | apply within_endListen | apply within_atLead | apply within_beginOn | apply within_noGrant | split | dsimp only

theorem within_tryOn (s : State) (n : Nat) (hc : Scope.Le ⟨[.regs, .field, .pro, .cox] ++ passing, [one Reg.COX_COUNTS, one
    Reg.FLD_SYN_STATUS], [ringBytes]⟩ cc) (h_s : Within cc ss s) : Within cc ss (State.tryOn s n) := by
  unfold State.tryOn
  with_reducible repeat' first
    | assumption | intro _ | with_unfolding_all exact Scope.Le.trans rfl hc | apply within_ite | apply within_modF | apply within_defer
    | apply within_startSyn | apply within_lockPast | apply within_atLead | apply within_beginOn | apply within_noGrant
    | apply within_memberOn | split | dsimp only

theorem within_fieldGone (s : State) (n : Nat) (hc : Scope.Le ⟨[.regs, .field, .rxe, .free, .obs], [each Reg.RXE_P_CANCEL_STATUS 16, each
    Reg.RXE_P_FRONT 16], []⟩ cc) (h_s : Within cc ss s) : Within cc ss (State.fieldGone s n) := by
  unfold State.fieldGone
  with_reducible repeat' first
    | assumption | intro _ | with_unfolding_all exact Scope.Le.trans rfl hc | apply within_ite | apply within_modF | apply within_tryOffs
    | apply within_listenTarget | apply within_endListen | dsimp only | apply within_with_field

theorem within_rampedOff (s : State) (n e : Nat) (before : RxOpen) (hc : Scope.Le ⟨[.regs, .field, .rxe, .free] ++ passing, [each
    Reg.RXE_P_CANCEL_STATUS 16, each Reg.RXE_P_FRONT 16], [ringBytes]⟩ cc) (h_s : Within cc ss s) : Within cc ss (State.rampedOff s n e
    before) := by
  unfold State.rampedOff
  with_reducible repeat' first
    | assumption | intro _ | with_unfolding_all exact Scope.Le.trans rfl hc | apply within_ite | apply within_modF | apply within_advance
    | apply within_armRx | apply within_openWindow | apply within_endListen | apply within_fieldGone

theorem within_memberOff (s : State) (n : Nat) (before : RxOpen) (hc : Scope.Le ⟨[.regs, .field, .rxe, .free] ++ passing, [each
    Reg.RXE_P_CANCEL_STATUS 16, each Reg.RXE_P_FRONT 16], [ringBytes]⟩ cc) (h_s : Within cc ss s) : Within cc ss (State.memberOff s n
    before) := by
  unfold State.memberOff
  with_reducible repeat' first
    | assumption | intro _ | with_unfolding_all exact Scope.Le.trans rfl hc | apply within_ite | apply within_modF | apply within_advance
    | apply within_startOff | apply within_endListen | apply within_rampedOff

theorem within_fieldReset (s : State) (n : Nat) (hc : Scope.Le ⟨[.field, .obs], [], []⟩ cc) (h_s : Within cc ss s) : Within cc ss
    (State.fieldReset s n) := by
  unfold State.fieldReset
  with_reducible repeat' first
    | assumption | intro _ | with_unfolding_all exact Scope.Le.trans rfl hc | apply within_ite | apply within_modF | apply within_askOff

theorem within_writeFldCtrl (s : State) (n : Nat) (v : Word) (hc : Scope.Le ⟨[.regs, .field, .obs], [each Reg.FLD_P_CTRL 16], []⟩ cc) (h_s
    : Within cc ss s) : Within cc ss (State.writeFldCtrl s n v) := by
  unfold State.writeFldCtrl
  with_reducible repeat' first
    | assumption | intro _ | with_unfolding_all exact Scope.Le.trans rfl hc | apply within_ite
    | refine within_writeReg_of Reg.FLD_P_CTRL 16 (Nat.succ_pos _) (by with_unfolding_all exact fun _ => rfl) _ _ _ (.inl (ClampFree.page Reg.FLD_P_CTRL 16 _ (by with_unfolding_all exact fun _ => rfl) (by with_unfolding_all exact rfl) (Nat.succ_pos _) _)) ?_ ?_
    | apply within_fieldReset

theorem within_cutPort (s : State) (n : Nat) (hc : Scope.Le ⟨[.regs, .field, .obs], [one Reg.FLD_DUTY_STATUS, one Reg.FLD_SYN_STATUS], []⟩
    cc) (h_s : Within cc ss s) : Within cc ss (State.cutPort s n) := by
  unfold State.cutPort
  with_reducible repeat' first
    | assumption | intro _ | with_unfolding_all exact Scope.Le.trans rfl hc | apply within_ite | apply within_stick Reg.FLD_DUTY_STATUS
    | apply within_count | apply within_post | apply within_askOn | apply within_startOff | apply within_endListen | dsimp only
    | apply within_with_field

theorem within_binsTo (s : State) (hc : Scope.Le ⟨[.field], [], []⟩ cc) (h_s : Within cc ss s) : Within cc ss (State.binsTo s) := by
  unfold State.binsTo
  with_reducible repeat' first
    | assumption | intro _ | with_unfolding_all exact Scope.Le.trans rfl hc | apply within_ite | dsimp only | apply within_with_field

theorem within_setColumn (s : State) (j : Nat) (col : List Word) (hc : Scope.Le ⟨[.regs, .rxe], [each Reg.FLD_COUPLE 256], []⟩ cc) (h_s :
    Within cc ss s) : Within cc ss (State.setColumn s j col) := by
  unfold State.setColumn
  with_reducible repeat' first
    | assumption | intro _ | with_unfolding_all exact Scope.Le.trans rfl hc | apply within_ite
    | apply within_setReg_of Reg.FLD_COUPLE 256 (Nat.succ_pos _) (by with_unfolding_all exact fun _ => rfl) | apply within_entryMoved
    | apply within_each | split

theorem within_deriveNeigh (s : State) (hc : Scope.Le ⟨[.regs], [each Reg.FLD_P_NEIGH 16], []⟩ cc) (h_s : Within cc ss s) : Within cc ss
    (State.deriveNeigh s) := by
  unfold State.deriveNeigh
  with_reducible repeat' first
    | assumption | intro _ | with_unfolding_all exact Scope.Le.trans rfl hc
    | apply within_setFld_of Reg.FLD_P_NEIGH 16 (Nat.succ_pos _) (by with_unfolding_all exact fun _ => rfl) | apply within_each

theorem within_judgeMeasured (s : State) (n : Nat) (hc : Scope.Le ⟨[.regs, .rxe, .obs], [one Reg.FLD_WARMUP_STATUS], []⟩ cc) (h_s : Within
    cc ss s) : Within cc ss (State.judgeMeasured s n) := by
  unfold State.judgeMeasured
  with_reducible repeat' first
    | assumption | intro _ | with_unfolding_all exact Scope.Le.trans rfl hc | apply within_ite
    | apply within_setFldBit Reg.FLD_WARMUP_STATUS | apply within_post | apply within_firstWeights

theorem within_noteRx (s : State) (n ending : Nat) (clip : Bool) (rxs0 rxs1 rxs2 : Word) (hc : Scope.Le ⟨[.regs, .obs], lastRegs, []⟩ cc)
    (h_s : Within cc ss s) : Within cc ss (State.noteRx s n ending clip rxs0 rxs1 rxs2) := by
  unfold State.noteRx
  with_reducible repeat' first
    | assumption | intro _ | with_unfolding_all exact Scope.Le.trans rfl hc | apply within_ite
    | apply within_setReg_of Reg.RXE_P_LAST0 16 (Nat.succ_pos _) (by with_unfolding_all exact fun _ => rfl)
    | apply within_setReg_of Reg.RXE_P_LAST1 16 (Nat.succ_pos _) (by with_unfolding_all exact fun _ => rfl)
    | apply within_setReg_of Reg.RXE_P_LAST2 16 (Nat.succ_pos _) (by with_unfolding_all exact fun _ => rfl) | apply within_count
    | apply within_postSec

theorem within_noteDelivered (s : State) (n ending : Nat) (rx : RxData) (d : Delivered) (hc : Scope.Le ⟨[.regs, .obs], lastRegs, []⟩ cc)
    (h_s : Within cc ss s) : Within cc ss (State.noteDelivered s n ending rx d) := by
  unfold State.noteDelivered
  with_reducible repeat' first | assumption | intro _ | with_unfolding_all exact Scope.Le.trans rfl hc | apply within_noteRx

theorem within_falseLock (s : State) (n : Nat) (hc : Scope.Le ⟨[.regs, .obs], [each Reg.RXE_P_COUNTS 16], []⟩ cc) (h_s : Within cc ss s) :
    Within cc ss (State.falseLock s n) := by
  unfold State.falseLock
  with_reducible repeat' first
    | assumption | intro _ | with_unfolding_all exact Scope.Le.trans rfl hc
    | apply within_bump_of Reg.RXE_P_COUNTS 16 (Nat.succ_pos _) (by with_unfolding_all exact fun _ => rfl) | apply within_postSecCount

theorem within_deliverListen (s : State) (n ending : Nat) (rx : RxData) (hc : Scope.Le ⟨[.regs, .que, .pro, .obs], lastRegs ++
    exchangeRegs, []⟩ cc) (h_s : Within cc ss s) : Within cc ss (State.deliverListen s n ending rx) := by
  unfold State.deliverListen
  with_reducible repeat' first
    | assumption | intro _ | with_unfolding_all exact Scope.Le.trans rfl hc | apply within_ite | apply within_complete
    | apply within_noteDelivered

theorem within_listenOn (s : State) (n : Nat) (hc : Scope.Le ⟨[.regs, .field, .rxe, .free, .obs], [each Reg.RXE_P_AFC 16, each
    Reg.RXE_P_CANCEL_STATUS 16, each Reg.RXE_P_FRONT 16], []⟩ cc) (h_s : Within cc ss s) : Within cc ss (State.listenOn s n) := by
  unfold State.listenOn
  with_reducible repeat' first
    | assumption | intro _ | with_unfolding_all exact Scope.Le.trans rfl hc | apply within_ite | apply within_rxIdle | apply within_listen
    | apply within_listenTarget

theorem within_modPoll (s : State) (n : Nat) (f : AccPoll → AccPoll) (hc : Scope.Le ⟨[.acd], [], []⟩ cc) (h_s : Within cc ss s) : Within
    cc ss (State.modPoll s n f) := by
  unfold State.modPoll
  with_reducible repeat' first | assumption | intro _ | with_unfolding_all exact Scope.Le.trans rfl hc | apply within_modA

theorem within_closeAccord (s : State) (n : Nat) (hc : Scope.Le ⟨[.regs, .field, .rxe, .acd, .obs], [each Reg.RXE_P_AFC 16, each
    Reg.RXE_P_COUNTS 16], []⟩ cc) (h_s : Within cc ss s) : Within cc ss (State.closeAccord s n) := by
  unfold State.closeAccord
  with_reducible repeat' first
    | assumption | intro _ | with_unfolding_all exact Scope.Le.trans rfl hc | apply within_ite | apply within_modF | apply within_tryOffs
    | apply within_rxIdle | apply within_endListen | apply within_returnState | apply within_falseLock | apply within_modPoll

theorem within_cutExchange (s : State) (n result ending : Nat) (rx : RxData) (hc : Scope.Le ⟨endingParts, [each Reg.RXE_P_COUNTS 16] ++
    endingRegs ++ lastRegs, [ringBytes, tableBytes]⟩ cc) (h_s : Within cc ss s) : Within cc ss (State.cutExchange s n result ending rx) :=
    by
  unfold State.cutExchange
  with_reducible repeat' first
    | assumption | intro _ | with_unfolding_all exact Scope.Le.trans rfl hc | apply within_ite | apply within_rxIdle
    | apply within_endExchange | apply within_noteDelivered | apply within_deliverListen | apply within_modPoll | apply within_closeAccord
    | split

theorem within_failPlan (n : Nat) (s : State) (hc : Scope.Le ⟨[.regs, .que, .field, .rxe, .pro, .sess, .cox, .free, .obs], [each
    Reg.RXE_P_AFC 16] ++ exchangeRegs, []⟩ cc) (h_s : Within cc ss s) : Within cc ss (State.failPlan n s) := by
  unfold State.failPlan
  with_reducible repeat' first
    | assumption | intro _ | with_unfolding_all exact Scope.Le.trans rfl hc | apply within_ite | apply within_modP
    | apply within_completeUnsent | apply within_undue | apply within_dropJob | apply within_endListen | apply within_returnState
    | apply within_closeExchange | apply within_holdAfter | split

theorem within_beginTx (s : State) (n : Nat) (p : Plan) (start te : Nat) (hc : Scope.Le ⟨[.field, .pro, .cox, .obs], [], []⟩ cc) (h_s :
    Within cc ss s) : Within cc ss (State.beginTx s n p start te) := by
  unfold State.beginTx
  with_reducible repeat' first
    | assumption | intro _ | with_unfolding_all exact Scope.Le.trans rfl hc | apply within_modF | apply within_modP | apply within_modX
    | apply within_endDeferral

theorem within_holdSyn (s : State) (n : Nat) (hc : Scope.Le ⟨[.pro], [], []⟩ cc) (h_s : Within cc ss s) : Within cc ss (State.holdSyn s n)
    := by
  unfold State.holdSyn
  with_reducible repeat' first | assumption | intro _ | with_unfolding_all exact Scope.Le.trans rfl hc | apply within_modP

theorem within_leaveCal (s : State) (l : List Nat) (hc : Scope.Le ⟨[.field, .free] ++ passing, [], [ringBytes]⟩ cc) (h_s : Within cc ss s)
    : Within cc ss (State.leaveCal s l) := by
  unfold State.leaveCal
  with_reducible repeat' first
    | assumption | intro _ | with_unfolding_all exact Scope.Le.trans rfl hc | apply within_advance | apply within_takeFreeWord
    | apply within_abortStep | apply within_foldl

theorem within_tryFrame (s : State) (n : Nat) (p : Plan) (hc : Scope.Le ⟨[.regs, .que, .field, .rxe, .pro, .sess, .cox, .free] ++ passing,
    [one Reg.COX_COUNTS, one Reg.FLD_SYN_STATUS, each Reg.RXE_P_AFC 16] ++ exchangeRegs, [ringBytes]⟩ cc) (h_s : Within cc ss s) : Within
    cc ss (State.tryFrame s n p) := by
  unfold State.tryFrame
  with_reducible repeat' first
    | assumption | intro _ | with_unfolding_all exact Scope.Le.trans rfl hc | apply within_ite | apply within_defer
    | apply within_lockPast | apply within_atLead | apply within_noGrant | apply within_failPlan | apply within_beginTx
    | apply within_holdSyn | apply within_leaveCal

theorem within_memberFrame (s : State) (n : Nat) (p : Plan) (e : Nat) (hc : Scope.Le ⟨[.regs, .que, .field, .rxe, .pro, .sess, .cox,
    .free] ++ passing, [one Reg.COX_COUNTS, each Reg.RXE_P_AFC 16] ++ exchangeRegs, [ringBytes]⟩ cc) (h_s : Within cc ss s) : Within cc ss
    (State.memberFrame s n p e) := by
  unfold State.memberFrame
  with_reducible repeat' first
    | assumption | intro _ | with_unfolding_all exact Scope.Le.trans rfl hc | apply within_ite | apply within_modF | apply within_advance
    | apply within_endListen | apply within_noGrant | apply within_failPlan | apply within_beginTx

theorem within_needField (s : State) (n : Nat) (hc : Scope.Le ⟨[.regs, .field, .pro], [one Reg.FLD_SYN_STATUS], []⟩ cc) (h_s : Within cc
    ss s) : Within cc ss (State.needField s n) := by
  unfold State.needField
  with_reducible repeat' first
    | assumption | intro _ | with_unfolding_all exact Scope.Le.trans rfl hc | apply within_ite | apply within_modP | apply within_askOn
    | split

theorem within_pollSent (s : State) (n : Nat) (f : Frame) (hc : Scope.Le ⟨[.regs, .acd], [one Reg.ACD_COUNTS, each Reg.ACD_P_LAST_POLL
    16], []⟩ cc) (h_s : Within cc ss s) : Within cc ss (State.pollSent s n f) := by
  unfold State.pollSent
  with_reducible repeat' first
    | assumption | intro _ | with_unfolding_all exact Scope.Le.trans rfl hc | apply within_ite | apply within_bump Reg.ACD_COUNTS
    | apply within_setReg_of Reg.ACD_P_LAST_POLL 16 (Nat.succ_pos _) (by with_unfolding_all exact fun _ => rfl) | apply within_modA

theorem within_beginListen (s : State) (n : Nat) (hc : Scope.Le ⟨[.field], [], []⟩ cc) (h_s : Within cc ss s) : Within cc ss
    (State.beginListen s n) := by
  unfold State.beginListen
  with_reducible repeat' first | assumption | intro _ | with_unfolding_all exact Scope.Le.trans rfl hc | apply within_modH | split

theorem within_writeRole (s : State) (n : Nat) (v : Word) (hc : Scope.Le ⟨[.regs, .obs], [each Reg.FLD_P_HUDDLE 16, each
    Reg.PRO_P_MODE_STATUS 16, each Reg.PRO_P_ROLE 16], []⟩ cc) (h_s : Within cc ss s) : Within cc ss (State.writeRole s n v) := by
  unfold State.writeRole
  with_reducible repeat' first
    | assumption | intro _ | with_unfolding_all exact Scope.Le.trans rfl hc | apply within_ite
    | refine within_writeReg_of Reg.PRO_P_ROLE 16 (Nat.succ_pos _) (by with_unfolding_all exact fun _ => rfl) _ _ _ (.inl (ClampFree.page Reg.PRO_P_ROLE 16 _ (by with_unfolding_all exact fun _ => rfl) (by with_unfolding_all exact rfl) (Nat.succ_pos _) _)) ?_ ?_
    | apply within_judgeRole

theorem within_rejudge (s : State) (n : Nat) (hc : Scope.Le ⟨[.regs, .que, .field, .pro, .cox, .free, .obs], exchangeRegs, []⟩ cc) (h_s :
    Within cc ss s) : Within cc ss (State.rejudge s n) := by
  unfold State.rejudge
  with_reducible repeat' first
    | assumption | intro _ | with_unfolding_all exact Scope.Le.trans rfl hc | apply within_ite | apply within_postSec | apply within_modP
    | apply within_modX | apply within_completeUnsent | apply within_undue | split

theorem within_leaveReader (s : State) (n : Nat) (hc : Scope.Le ⟨[.pro, .sess, .acd, .quar, .cox, .obs], [], []⟩ cc) (h_s : Within cc ss
    s) : Within cc ss (State.leaveReader s n) := by
  unfold State.leaveReader
  with_reducible repeat' first
    | assumption | intro _ | with_unfolding_all exact Scope.Le.trans rfl hc | apply within_ite | apply within_modP | apply within_modA
    | apply within_leaveSess | apply within_dropJob | apply within_foldl

theorem within_radioFollows (s : State) (n : Nat) (hc : Scope.Le ⟨[.regs, .field, .rxe, .free, .obs], [one Reg.FLD_SYN_STATUS, each
    Reg.RXE_P_CANCEL_STATUS 16, each Reg.RXE_P_FRONT 16], []⟩ cc) (h_s : Within cc ss s) : Within cc ss (State.radioFollows s n) := by
  unfold State.radioFollows
  with_reducible repeat' first
    | assumption | intro _ | with_unfolding_all exact Scope.Le.trans rfl hc | apply within_ite | apply within_modF | apply within_startSyn
    | apply within_askOff | apply within_listenTarget

theorem within_writeHuddle (s : State) (n : Nat) (v : Word) (hc : Scope.Le ⟨[.regs, .field, .obs], [each Reg.FLD_P_HUDDLE 16, each
    Reg.PRO_P_MODE_STATUS 16], []⟩ cc) (h_s : Within cc ss s) : Within cc ss (State.writeHuddle s n v) := by
  unfold State.writeHuddle
  with_reducible repeat' first
    | assumption | intro _ | with_unfolding_all exact Scope.Le.trans rfl hc
    | refine within_writeReg_of Reg.FLD_P_HUDDLE 16 (Nat.succ_pos _) (by with_unfolding_all exact fun _ => rfl) _ _ _ (.inl (ClampFree.page Reg.FLD_P_HUDDLE 16 _ (by with_unfolding_all exact fun _ => rfl) (by with_unfolding_all exact rfl) (Nat.succ_pos _) _)) ?_ ?_
    | apply within_judgeHuddle | apply within_syncMember

theorem within_commitPart (te : Nat) (s : State) (p : Part) (hc : Scope.Le ⟨[.field, .obs], [], []⟩ cc) (h_s : Within cc ss s) : Within cc
    ss (State.commitPart te s p) := by
  unfold State.commitPart
  with_reducible repeat' first
    | assumption | intro _ | with_unfolding_all exact Scope.Le.trans rfl hc | apply within_countBy | apply within_modF | split

theorem within_showAfc (s : State) (n fofs tofs frozen : Nat) (hc : Scope.Le ⟨[.regs], [each Reg.RXE_P_AFC 16], []⟩ cc) (h_s : Within cc
    ss s) : Within cc ss (State.showAfc s n fofs tofs frozen) := by
  unfold State.showAfc
  with_reducible repeat' first
    | assumption | intro _ | with_unfolding_all exact Scope.Le.trans rfl hc
    | apply within_setReg_of Reg.RXE_P_AFC 16 (Nat.succ_pos _) (by with_unfolding_all exact fun _ => rfl)

theorem within_deliverOpen (s : State) (n ending : Nat) (rx : RxData) (isCapture : Bool) (hc : Scope.Le ⟨[.regs, .que, .rxe, .pro, .obs],
    lastRegs ++ exchangeRegs, []⟩ cc) (h_s : Within cc ss s) : Within cc ss (State.deliverOpen s n ending rx isCapture) := by
  unfold State.deliverOpen
  with_reducible repeat' first
    | assumption | intro _ | with_unfolding_all exact Scope.Le.trans rfl hc | apply within_ite | apply within_modP | apply within_rearm
    | apply within_noteDelivered | apply within_deliverListen | split

theorem within_outOfRange (s : State) (n : Nat) (codes : Byte) (rx : RxData) (hc : Scope.Le ⟨[.regs, .que, .rxe, .pro, .acd, .obs],
    lastRegs ++ exchangeRegs, []⟩ cc) (h_s : Within cc ss s) : Within cc ss (State.outOfRange s n codes rx) := by
  unfold State.outOfRange
  with_reducible repeat' first
    | assumption | intro _ | with_unfolding_all exact Scope.Le.trans rfl hc | apply within_ite | apply within_post | apply within_modPoll
    | apply within_deliverOpen

theorem within_roundReply (s : State) (n ending : Nat) (x : Exchange) (rx : RxData) (hw : HwFault) (hc : Scope.Le ⟨[.regs, .que, .rxe,
    .pro, .sess, .overflow, .acd, .quar, .kpr, .sto, .cox, .saf] ++ passing, [one Reg.PRO_SESS_COUNTS, one Reg.SAF_NDF] ++ decisionRegs ++
    lastRegs ++ exchangeRegs, [ringBytes, tableBytes]⟩ cc) (h_s : Within cc ss s) : Within cc ss (State.roundReply s n ending x rx hw) :=
    by
  unfold State.roundReply
  with_reducible repeat' first
    | assumption | intro _ | with_unfolding_all exact Scope.Le.trans rfl hc | apply within_ite | apply within_modP | apply within_complete
    | apply within_rearm | apply within_jobReply | apply within_noteDelivered

theorem within_deliverClose (s : State) (n ending : Nat) (x : Exchange) (rx : RxData) (hw : HwFault) (hc : Scope.Le ⟨endingParts,
    endingRegs ++ lastRegs, [ringBytes, tableBytes]⟩ cc) (h_s : Within cc ss s) : Within cc ss (State.deliverClose s n ending x rx hw) :=
    by
  unfold State.deliverClose
  with_reducible repeat' first
    | assumption | intro _ | with_unfolding_all exact Scope.Le.trans rfl hc | apply within_endExchange | apply within_noteDelivered

theorem within_noiseStats (s : State) (n v v4 : Nat) (hc : Scope.Le ⟨[.regs, .rxe, .acd], [each Reg.ACD_P_NOISE4 16, each Reg.RXE_P_NOISE
    16, each Reg.RXE_P_NOISE_EXT 16], []⟩ cc) (h_s : Within cc ss s) : Within cc ss (State.noiseStats s n v v4) := by
  unfold State.noiseStats
  with_reducible repeat' first
    | assumption | intro _ | with_unfolding_all exact Scope.Le.trans rfl hc | apply within_ite
    | apply within_setReg_of Reg.RXE_P_NOISE 16 (Nat.succ_pos _) (by with_unfolding_all exact fun _ => rfl)
    | apply within_setReg_of Reg.RXE_P_NOISE_EXT 16 (Nat.succ_pos _) (by with_unfolding_all exact fun _ => rfl)
    | apply within_setReg_of Reg.ACD_P_NOISE4 16 (Nat.succ_pos _) (by with_unfolding_all exact fun _ => rfl) | apply within_modR
    | apply within_modA

theorem within_clearCounts (s : State) (n : Nat) (hc : Scope.Le ⟨[.regs], [each Reg.RXE_P_COUNTS 16], []⟩ cc) (h_s : Within cc ss s) :
    Within cc ss (State.clearCounts s n) := by
  unfold State.clearCounts
  with_reducible repeat' first
    | assumption | intro _ | with_unfolding_all exact Scope.Le.trans rfl hc
    | apply within_setReg_of Reg.RXE_P_COUNTS 16 (Nat.succ_pos _) (by with_unfolding_all exact fun _ => rfl)

theorem within_clearNoise (s : State) (n : Nat) (hc : Scope.Le ⟨[.regs], [each Reg.ACD_P_NOISE4 16, each Reg.RXE_P_NOISE 16, each
    Reg.RXE_P_NOISE_EXT 16], []⟩ cc) (h_s : Within cc ss s) : Within cc ss (State.clearNoise s n) := by
  unfold State.clearNoise
  with_reducible repeat' first
    | assumption | intro _ | with_unfolding_all exact Scope.Le.trans rfl hc
    | apply within_setFld_of Reg.RXE_P_NOISE 16 (Nat.succ_pos _) (by with_unfolding_all exact fun _ => rfl)
    | apply within_setFld_of Reg.RXE_P_NOISE_EXT 16 (Nat.succ_pos _) (by with_unfolding_all exact fun _ => rfl)
    | apply within_setFld_of Reg.ACD_P_NOISE4 16 (Nat.succ_pos _) (by with_unfolding_all exact fun _ => rfl)

theorem within_popDesc (s : State) (n : Nat) (bad : Bool) (hc : Scope.Le ⟨[.regs, .que, .obs], queueRegs, []⟩ cc) (h_s : Within cc ss s) :
    Within cc ss (State.popDesc s n bad).1 := by
  unfold State.popDesc
  with_reducible repeat' first
    | assumption | intro _ | with_unfolding_all exact Scope.Le.trans rfl hc | apply within_setPqX | apply within_poisoned
    | apply within_foldl

theorem within_poisonDesc (s : State) (n : Nat) (hc : Scope.Le ⟨[.regs, .que, .pro, .free, .obs], exchangeRegs, []⟩ cc) (h_s : Within cc
    ss s) : Within cc ss (State.poisonDesc s n) := by
  unfold State.poisonDesc
  with_reducible repeat' first
    | assumption | intro _ | with_unfolding_all exact Scope.Le.trans rfl hc | apply within_post | apply within_completeUnsent

theorem within_takeDesc (s : State) (n : Nat) (bad : Bool) (hc : Scope.Le ⟨[.regs, .que, .hif, .field, .pro, .free, .obs], [one
    Reg.FLD_SYN_STATUS] ++ exchangeRegs ++ queueRegs, []⟩ cc) (h_s : Within cc ss s) : Within cc ss (State.takeDesc s n bad) := by
  unfold State.takeDesc
  with_reducible repeat' first
    | assumption | intro _ | with_unfolding_all exact Scope.Le.trans rfl hc | apply within_ite | apply within_post | apply within_postSec
    | apply within_modP | apply within_resumePush | apply within_completeUnsent | apply within_needField | apply within_popDesc
    | apply within_poisonDesc

theorem within_dropDesc (s : State) (n : Nat) (hc : Scope.Le ⟨[.regs, .que, .pro, .free, .obs], exchangeRegs ++ queueRegs, []⟩ cc) (h_s :
    Within cc ss s) : Within cc ss (State.dropDesc s n) := by
  unfold State.dropDesc
  with_reducible repeat' first
    | assumption | intro _ | with_unfolding_all exact Scope.Le.trans rfl hc | apply within_ite | apply within_completeUnsent
    | apply within_popDesc | apply within_poisonDesc

theorem within_flushDescs (n k : Nat) (s : State) (hc : Scope.Le ⟨[.regs, .que, .pro, .free, .obs], exchangeRegs ++ queueRegs, []⟩ cc) (h_s : Within cc ss s) : Within cc ss (State.flushDescs n k s) := by
  induction k generalizing s with
  | zero => exact h_s
  | succ k ih =>
    exact within_ite (ih _ (within_dropDesc _ _ (Scope.Le.trans rfl hc) h_s))
      (within_modP _ _ _ (Scope.Le.trans rfl hc) h_s)

theorem within_flushTx (s : State) (n : Nat) (hc : Scope.Le ⟨[.regs, .que, .hif, .pro, .free, .obs], exchangeRegs ++ queueRegs, []⟩ cc)
    (h_s : Within cc ss s) : Within cc ss (State.flushTx s n) := by
  unfold State.flushTx
  with_reducible repeat' first
    | assumption | intro _ | with_unfolding_all exact Scope.Le.trans rfl hc | apply within_modP | apply within_resumePush
    | apply within_flushDescs

theorem within_afterPush (s : State) (n : Nat) (hc : Scope.Le ⟨[.regs, .que, .hif, .pro, .free, .obs], exchangeRegs ++ queueRegs, []⟩ cc)
    (h_s : Within cc ss s) : Within cc ss (State.afterPush s n) := by
  unfold State.afterPush
  with_reducible repeat' first
    | assumption | intro _ | with_unfolding_all exact Scope.Le.trans rfl hc | apply within_ite | apply within_modP
    | apply within_resumePush | apply within_dropDesc

theorem within_hostPush (s : State) (n : Nat) (ws : List Word) (hc : Scope.Le ⟨[.regs, .que, .hif, .pro, .free, .obs], exchangeRegs ++
    queueRegs, []⟩ cc) (h_s : Within cc ss s) : Within cc ss (State.hostPush s n ws) := by
  unfold State.hostPush
  with_reducible repeat' first
    | assumption | intro _ | with_unfolding_all exact Scope.Le.trans rfl hc | apply within_ite | apply within_pushTxs
    | apply within_afterPush

theorem within_endHold (s : State) (n : Nat) (hc : Scope.Le ⟨[.pro], [], []⟩ cc) (h_s : Within cc ss s) : Within cc ss (State.endHold s n)
    := by
  unfold State.endHold
  with_reducible repeat' first | assumption | intro _ | with_unfolding_all exact Scope.Le.trans rfl hc | apply within_modP

theorem within_rfcaBusy (s : State) (n : Nat) (hc : Scope.Le ⟨[.regs, .que, .field, .pro, .free, .obs], exchangeRegs, []⟩ cc) (h_s :
    Within cc ss s) : Within cc ss (State.rfcaBusy s n) := by
  unfold State.rfcaBusy
  with_reducible repeat' first
    | assumption | intro _ | with_unfolding_all exact Scope.Le.trans rfl hc | apply within_modP | apply within_completeUnsent
    | apply within_undue | split

theorem within_extRose (s : State) (n : Nat) (hc : Scope.Le ⟨[.pro], [], []⟩ cc) (h_s : Within cc ss s) : Within cc ss (State.extRose s n)
    := by
  unfold State.extRose
  with_reducible repeat' first | assumption | intro _ | with_unfolding_all exact Scope.Le.trans rfl hc | apply within_modP

theorem within_extDropped (s : State) (n : Nat) (hc : Scope.Le ⟨[.regs, .que, .hif, .field, .pro, .free, .obs], [one Reg.FLD_SYN_STATUS]
    ++ exchangeRegs ++ queueRegs, []⟩ cc) (h_s : Within cc ss s) : Within cc ss (State.extDropped s n) := by
  unfold State.extDropped
  with_reducible repeat' first
    | assumption | intro _ | with_unfolding_all exact Scope.Le.trans rfl hc | apply within_ite | apply within_post | apply within_modP
    | apply within_takeDesc | apply within_rfcaBusy | split

theorem within_beginJob (s : State) (n : Nat) (j : Job) (hc : Scope.Le ⟨[.regs, .field, .pro], [one Reg.FLD_SYN_STATUS], []⟩ cc) (h_s :
    Within cc ss s) : Within cc ss (State.beginJob s n j) := by
  unfold State.beginJob
  with_reducible repeat' first
    | assumption | intro _ | with_unfolding_all exact Scope.Le.trans rfl hc | apply within_ite | apply within_askOn | apply within_setJob

theorem within_owedJob (s : State) (n k : Nat) (hc : Scope.Le ⟨[.regs, .field, .pro], [one Reg.FLD_SYN_STATUS], []⟩ cc) (h_s : Within cc
    ss s) : Within cc ss (State.owedJob s n k) := by
  unfold State.owedJob
  with_reducible repeat' first
    | assumption | intro _ | with_unfolding_all exact Scope.Le.trans rfl hc | apply within_ite | apply within_modP | apply within_beginJob
    | split | dsimp only

theorem within_releaseJob (s : State) (n g : Nat) (hc : Scope.Le ⟨[.regs, .field, .pro, .acd], [one Reg.FLD_SYN_STATUS], []⟩ cc) (h_s :
    Within cc ss s) : Within cc ss (State.releaseJob s n g) := by
  unfold State.releaseJob
  with_reducible repeat' first
    | assumption | intro _ | with_unfolding_all exact Scope.Le.trans rfl hc | apply within_modA | apply within_beginJob

theorem within_entryAfter (s : State) (n : Nat) (hc : Scope.Le ⟨[.pro], [], []⟩ cc) (h_s : Within cc ss s) : Within cc ss
    (State.entryAfter s n) := by
  unfold State.entryAfter
  with_reducible repeat' first | assumption | intro _ | with_unfolding_all exact Scope.Le.trans rfl hc | apply within_modP

theorem within_runEntry (s : State) (n w : Nat) (hc : Scope.Le ⟨[.regs, .field, .pro, .obs], [one Reg.ACD_COUNTS, one Reg.FLD_SYN_STATUS],
    []⟩ cc) (h_s : Within cc ss s) : Within cc ss (State.runEntry s n w) := by
  unfold State.runEntry
  with_reducible repeat' first
    | assumption | intro _ | with_unfolding_all exact Scope.Le.trans rfl hc | apply within_ite | apply within_bump Reg.ACD_COUNTS
    | apply within_postSec | apply within_modP | apply within_askOff | apply within_beginJob | apply within_entryAfter | split

theorem within_writeSessCmd (s : State) (v : Word) (hc : Scope.Le ⟨[.pro, .sess, .acd, .quar, .obs], [], []⟩ cc) (h_s : Within cc ss s) :
    Within cc ss (State.writeSessCmd s v) := by
  unfold State.writeSessCmd
  with_reducible repeat' first
    | assumption | intro _ | with_unfolding_all exact Scope.Le.trans rfl hc | apply within_ite | apply within_leaveSess

theorem within_freeNone (s : State) (l : List ChanRes) (hc : Scope.Le ⟨[.free], [], []⟩ cc) (h_s : Within cc ss s) :
    Within cc ss (State.freeNone s l).1 := by
  induction l generalizing s with
  | nil => exact h_s
  | cons r t ih =>
    unfold State.freeNone
    split
    · exact ih _ (within_takeFreeWord _ (Scope.Le.trans rfl hc) h_s)
    · exact ih _ h_s

theorem within_matchChan (s : State) (n : Nat) (p : AccPoll) (r : ChanRes) (hc : Scope.Le ⟨[.pro, .sess, .acd, .quar, .obs], [], []⟩ cc)
    (h_s : Within cc ss s) : Within cc ss (State.matchChan s n p r).1 := by
  unfold State.matchChan
  with_reducible repeat' first
    | assumption | intro _ | with_unfolding_all exact Scope.Le.trans rfl hc | apply within_ite | apply within_post | apply within_modA
    | apply within_seen | apply within_missed | apply within_withdraw | split

theorem within_matchChans (s : State) (n : Nat) (p : AccPoll) (l : List ChanRes) (hc : Scope.Le ⟨[.pro, .sess, .acd, .quar, .obs], [], []⟩ cc) (h_s : Within cc ss s) :
    Within cc ss (State.matchChans s n p l).1 := by
  induction l generalizing s with
  | nil => exact h_s
  | cons r t ih => exact ih _ (within_matchChan _ _ _ _ (Scope.Le.trans rfl hc) h_s)

theorem within_missChans (s : State) (n : Nat) (p : AccPoll) (start : Nat) (l : List ChanRes) (hc : Scope.Le ⟨[.pro, .sess, .acd, .quar,
    .obs], [], []⟩ cc) (h_s : Within cc ss s) : Within cc ss (State.missChans s n p start l) := by
  unfold State.missChans
  with_reducible repeat' first
    | assumption | intro _ | with_unfolding_all exact Scope.Le.trans rfl hc | apply within_ite | apply within_missed | apply within_foldl
    | split

theorem indexed_each (b n m d q : Nat) (hm : 1 < m) :
    b + n % m * d + q = b + 0 % m * d + q + n % m * (b + 1 % m * d + q - (b + 0 % m * d + q)) := by
  have : b + 1 * d + q - (b + 0 * d + q) = d := by omega
  rw [Nat.mod_eq_of_lt hm, Nat.zero_mod, this]
  omega

theorem within_reportChans (s : State) (n : Nat) (l : List ChanRes) (hc : Scope.Le ⟨[.regs, .obs], [each (fun n => Reg.ACD_P_CH_STAT0 n 0) 16, each (fun n => Reg.ACD_P_CH_STAT0 n 1) 16, each (fun n => Reg.ACD_P_CH_STAT0 n 2) 16, each (fun n => Reg.ACD_P_CH_STAT0 n 3) 16, each (fun n => Reg.ACD_P_CH_STAT0 n 4) 16, each (fun n => Reg.ACD_P_CH_STAT0 n 5) 16, each (fun n => Reg.ACD_P_CH_STAT0 n 6) 16, each (fun n => Reg.ACD_P_CH_STAT0 n 7) 16, each (fun n => Reg.ACD_P_CH_STAT1 n 0) 16, each (fun n => Reg.ACD_P_CH_STAT1 n 1) 16, each (fun n => Reg.ACD_P_CH_STAT1 n 2) 16, each (fun n => Reg.ACD_P_CH_STAT1 n 3) 16, each (fun n => Reg.ACD_P_CH_STAT1 n 4) 16, each (fun n => Reg.ACD_P_CH_STAT1 n 5) 16, each (fun n => Reg.ACD_P_CH_STAT1 n 6) 16, each (fun n => Reg.ACD_P_CH_STAT1 n 7) 16, each Reg.ACD_P_LAST_POLL 16], []⟩ cc) (h_s : Within cc ss s) :
    Within cc ss (State.reportChans s n l) := by
  have stat0 : ∀ (t : State) (c : Nat) (w : Word), Within cc ss t → Within cc ss (t.setReg (Reg.ACD_P_CH_STAT0 n c) w) := by
    intro t c w h
    have key : ∀ i, i < 8 → Scope.Le ⟨[.regs], [each (fun n => Reg.ACD_P_CH_STAT0 n i) 16], []⟩ cc := by
      intro i hi
      have : i = 0 ∨ i = 1 ∨ i = 2 ∨ i = 3 ∨ i = 4 ∨ i = 5 ∨ i = 6 ∨ i = 7 := by omega
      rcases this with rfl | rfl | rfl | rfl | rfl | rfl | rfl | rfl <;> exact Scope.Le.trans rfl hc
    have e : Reg.ACD_P_CH_STAT0 n c = Reg.ACD_P_CH_STAT0 n (c % 8) := by simp only [Reg.ACD_P_CH_STAT0, Nat.mod_mod]
    rw [e]
    exact within_setReg_of (fun n => Reg.ACD_P_CH_STAT0 n (c % 8)) 16 (by decide) (fun n => indexed_each 0x51040 n 16 0x400 (c % 8 % 8 * 0x8) (by decide)) n w
      (key _ (Nat.mod_lt _ (by decide))) h
  have stat1 : ∀ (t : State) (c : Nat) (w : Word), Within cc ss t → Within cc ss (t.setReg (Reg.ACD_P_CH_STAT1 n c) w) := by
    intro t c w h
    have key : ∀ i, i < 8 → Scope.Le ⟨[.regs], [each (fun n => Reg.ACD_P_CH_STAT1 n i) 16], []⟩ cc := by
      intro i hi
      have : i = 0 ∨ i = 1 ∨ i = 2 ∨ i = 3 ∨ i = 4 ∨ i = 5 ∨ i = 6 ∨ i = 7 := by omega
      rcases this with rfl | rfl | rfl | rfl | rfl | rfl | rfl | rfl <;> exact Scope.Le.trans rfl hc
    have e : Reg.ACD_P_CH_STAT1 n c = Reg.ACD_P_CH_STAT1 n (c % 8) := by simp only [Reg.ACD_P_CH_STAT1, Nat.mod_mod]
    rw [e]
    exact within_setReg_of (fun n => Reg.ACD_P_CH_STAT1 n (c % 8)) 16 (by decide) (fun n => indexed_each 0x51044 n 16 0x400 (c % 8 % 8 * 0x8) (by decide)) n w
      (key _ (Nat.mod_lt _ (by decide))) h
  unfold State.reportChans
  dsimp only
  refine within_countBy (Scope.Le.trans rfl hc) (within_setFld_of Reg.ACD_P_LAST_POLL 16 (Nat.succ_pos _)
    (by with_unfolding_all exact fun _ => rfl) _ _ _ (Scope.Le.trans rfl hc) ?_) _ _
  exact within_foldl _ (fun t h c => stat1 _ _ _ (stat0 _ _ _ h)) _ _ h_s

theorem within_afterPoll (s : State) (n : Nat) (l : List ChanRes) (hc : Scope.Le ⟨[.pro, .sess], [], []⟩ cc) (h_s : Within cc ss s) :
    Within cc ss (State.afterPoll s n l) := by
  unfold State.afterPoll
  with_reducible repeat' first
    | assumption | intro _ | with_unfolding_all exact Scope.Le.trans rfl hc | apply within_ite | apply within_setJob | apply within_endJob
    | split

theorem within_setSaf (s : State) (x : SafSt) (hc : Scope.Le ⟨[.saf], [], []⟩ cc) (h_s : Within cc ss s) : Within cc ss (State.setSaf s x)
    := by
  unfold State.setSaf
  with_reducible repeat' first | assumption | intro _ | with_unfolding_all exact Scope.Le.trans rfl hc | apply within_with_saf

theorem within_seeInjected (s : State) (x : Inject) (code wher : Nat) (hc : Scope.Le ⟨[.regs, .saf], [one Reg.SAF_INJ_STATUS] ++
    faultRegs, []⟩ cc) (h_s : Within cc ss s) : Within cc ss (State.seeInjected s x code wher) := by
  unfold State.seeInjected
  with_reducible repeat' first
    | assumption | intro _ | with_unfolding_all exact Scope.Le.trans rfl hc | apply within_ite | apply within_setReg Reg.SAF_INJ_STATUS
    | apply within_trip | apply within_setSaf

theorem within_detect (s : State) (code wher : Nat) (genuine : Bool) (hc : Scope.Le ⟨[.regs, .saf] ++ passing, [one Reg.SAF_INJ_STATUS] ++
    faultRegs, [ringBytes]⟩ cc) (h_s : Within cc ss s) : Within cc ss (State.detect s code wher genuine) := by
  unfold State.detect
  with_reducible repeat' first
    | assumption | intro _ | with_unfolding_all exact Scope.Le.trans rfl hc | apply within_ite | apply within_advance | apply within_trip
    | apply within_seeInjected | split

theorem within_setFb (s : State) (l : Nat) (fb : Bool) (hc : Scope.Le ⟨[.pins], [], []⟩ cc) (h_s : Within cc ss s) : Within cc ss
    (State.setFb s l fb) := by
  unfold State.setFb
  with_reducible repeat' first | assumption | intro _ | with_unfolding_all exact Scope.Le.trans rfl hc | apply within_with_pins

theorem within_refreshMon (s : State) (hc : Scope.Le ⟨[.kpr, .saf], [], []⟩ cc) (h_s : Within cc ss s) : Within cc ss (State.refreshMon s)
    := by
  unfold State.refreshMon
  with_reducible repeat' first
    | assumption | intro _ | with_unfolding_all exact Scope.Le.trans rfl hc | apply within_ite | apply within_reset | apply within_modL
    | apply within_setSaf | apply within_each

theorem within_portSafe (s : State) (n : Nat) (hc : Scope.Le ⟨[.regs, .field, .tun, .rxe, .pro, .cox, .obs], [each Reg.RXE_P_AFC 16], []⟩
    cc) (h_s : Within cc ss s) : Within cc ss (State.portSafe s n) := by
  unfold State.portSafe
  with_reducible repeat' first
    | assumption | intro _ | with_unfolding_all exact Scope.Le.trans rfl hc | apply within_reset | apply within_modF | apply within_modP
    | apply within_modT | apply within_modX | apply within_endDeferral | apply within_rxIdle

theorem within_endPulses (s : State) (hc : Scope.Le ⟨[.kpr], [], []⟩ cc) (h_s : Within cc ss s) : Within cc ss (State.endPulses s) := by
  unfold State.endPulses
  with_reducible repeat' first
    | assumption | intro _ | with_unfolding_all exact Scope.Le.trans rfl hc | apply within_reset | apply within_modL | apply within_each

theorem within_cutAll (s : State) (rxs : List RxData) (hc : Scope.Le ⟨endingParts, [each Reg.RXE_P_COUNTS 16] ++ endingRegs ++ lastRegs,
    [ringBytes, tableBytes]⟩ cc) (h_s : Within cc ss s) : Within cc ss (State.cutAll s rxs) := by
  unfold State.cutAll
  with_reducible repeat' first
    | assumption | intro _ | with_unfolding_all exact Scope.Le.trans rfl hc | apply within_cutExchange | apply within_foldl

theorem within_shutDown (s : State) (rxs : List RxData) (hc : Scope.Le ⟨[.tun] ++ endingParts, [each Reg.RXE_P_COUNTS 16, one
    Reg.STO_HSTATUS] ++ endingRegs ++ lastRegs, [ringBytes, tableBytes]⟩ cc) (h_s : Within cc ss s) : Within cc ss (State.shutDown s rxs)
    := by
  unfold State.shutDown
  with_reducible repeat' first
    | assumption | intro _ | with_unfolding_all exact Scope.Le.trans rfl hc | apply within_reset | apply within_modH
    | apply within_abandonLookups | apply within_parkLists | apply within_storeSafe | apply within_portSafe | apply within_endPulses
    | apply within_cutAll | apply within_each | dsimp only | apply within_with_tun

theorem within_coreSees (s : State) (code wher : Nat) (rxs : List RxData) (hc : Scope.Le ⟨[.gen, .pwr, .tun, .emu, .free] ++ endingParts,
    [one Reg.GEN_IRQ_STATUS, one Reg.GEN_TEST_CTRL, one Reg.GEN_TEST_LANE, each Reg.RXE_P_CANCEL_STATUS 16, each Reg.RXE_P_COUNTS 16, each
    Reg.RXE_P_FRONT 16, one Reg.STO_HSTATUS] ++ endingRegs ++ lastRegs, [ringBytes, tableBytes]⟩ cc) (h_s : Within cc ss s) : Within cc ss
    (State.coreSees s code wher rxs) := by
  unfold State.coreSees
  with_reducible repeat' first
    | assumption | intro _ | with_unfolding_all exact Scope.Le.trans rfl hc | apply within_ite | apply within_setFld Reg.SAF_STATUS
    | apply within_post | apply within_toSafe | apply within_setSaf | apply within_shutDown

theorem within_firstSelfTest (s : State) (hc : Scope.Le ⟨[.regs], [one Reg.SAF_FIRST], []⟩ cc) (h_s : Within cc ss s) : Within cc ss
    (State.firstSelfTest s) := by
  unfold State.firstSelfTest
  with_reducible repeat' first
    | assumption | intro _ | with_unfolding_all exact Scope.Le.trans rfl hc | apply within_ite | apply within_setReg Reg.SAF_FIRST

theorem within_enterSafe (s : State) (cause : Nat) (hc : Scope.Le ⟨[.gen, .pwr, .tun, .emu, .free] ++ endingParts, [one
    Reg.GEN_IRQ_STATUS, one Reg.GEN_TEST_CTRL, one Reg.GEN_TEST_LANE, each Reg.RXE_P_CANCEL_STATUS 16, each Reg.RXE_P_COUNTS 16, each
    Reg.RXE_P_FRONT 16, one Reg.STO_HSTATUS] ++ endingRegs ++ lastRegs, [ringBytes, tableBytes]⟩ cc) (h_s : Within cc ss s) : Within cc ss
    (State.enterSafe s cause) := by
  unfold State.enterSafe
  with_reducible repeat' first
    | assumption | intro _ | with_unfolding_all exact Scope.Le.trans rfl hc | apply within_ite | apply within_setFld Reg.SAF_STATUS
    | apply within_toSafe | apply within_setSaf | apply within_shutDown

theorem within_writeInject (s : State) (v : Word) (hc : Scope.Le ⟨[.regs, .saf] ++ passing, [one Reg.SAF_INJ_STATUS] ++ faultRegs,
    [ringBytes]⟩ cc) (h_s : Within cc ss s) : Within cc ss (State.writeInject s v) := by
  unfold State.writeInject
  with_reducible repeat' first
    | assumption | intro _ | with_unfolding_all exact Scope.Le.trans rfl hc | apply within_ite | apply within_refuse | apply within_setSaf
    | apply within_detect

theorem within_enterTest (s : State) (hc : Scope.Le ⟨[.regs, .gen, .pwr, .field, .rxe, .pro, .sess, .kpr, .emu, .cox, .free, .obs], [each
    Reg.RXE_P_CANCEL_STATUS 16, each Reg.RXE_P_FRONT 16] ++ phaseRegs, []⟩ cc) (h_s : Within cc ss s) : Within cc ss (State.enterTest s)
    := by
  unfold State.enterTest
  with_reducible repeat' first
    | assumption | intro _ | with_unfolding_all exact Scope.Le.trans rfl hc | apply within_toPhase | apply within_parkLists
    | apply within_allOff | apply within_endPulses

theorem within_setClocks (s : State) (on : Bool) (hc : Scope.Le ⟨[.regs], [one Reg.PWR_CLK_STATUS], []⟩ cc) (h_s : Within cc ss s) :
    Within cc ss (State.setClocks s on) := by
  unfold State.setClocks
  with_reducible repeat' first
    | assumption | intro _ | with_unfolding_all exact Scope.Le.trans rfl hc | apply within_setFld Reg.PWR_CLK_STATUS

theorem within_askPower (s : State) (r : PwrReq) (hc : Scope.Le ⟨[.pwr, .obs], [], []⟩ cc) (h_s : Within cc ss s) : Within cc ss
    (State.askPower s r) := by
  unfold State.askPower
  with_reducible repeat' first
    | assumption | intro _ | with_unfolding_all exact Scope.Le.trans rfl hc | apply within_ite | apply within_post | apply within_with_pwr

theorem within_cancelPower (s : State) (hc : Scope.Le ⟨[.pwr], [], []⟩ cc) (h_s : Within cc ss s) : Within cc ss (State.cancelPower s) :=
    by
  unfold State.cancelPower
  with_reducible repeat' first | assumption | intro _ | with_unfolding_all exact Scope.Le.trans rfl hc | apply within_with_pwr

theorem within_writePwrCmd (s : State) (v : Word) (hc : Scope.Le ⟨[.pwr, .obs], [], []⟩ cc) (h_s : Within cc ss s) : Within cc ss
    (State.writePwrCmd s v) := by
  unfold State.writePwrCmd
  with_reducible repeat' first
    | assumption | intro _ | with_unfolding_all exact Scope.Le.trans rfl hc | apply within_askPower | apply within_cancelPower | split

theorem within_handStages (s : State) (hc : Scope.Le ⟨[.obs], [], []⟩ cc) (h_s : Within cc ss s) : Within cc ss (State.handStages s) := by
  unfold State.handStages
  with_reducible repeat' first | assumption | intro _ | with_unfolding_all exact Scope.Le.trans rfl hc | apply within_setSil

theorem within_fallAsleep (s : State) (r : PwrReq) (hc : Scope.Le ⟨[.regs, .pwr, .field] ++ passing, [one Reg.FLD_SYN_STATUS, one
    Reg.PWR_CLK_STATUS], [ringBytes]⟩ cc) (h_s : Within cc ss s) : Within cc ss (State.fallAsleep s r) := by
  unfold State.fallAsleep
  with_reducible repeat' first
    | assumption | intro _ | with_unfolding_all exact Scope.Le.trans rfl hc | apply within_ite | apply within_setFld Reg.FLD_SYN_STATUS
    | apply within_advance | apply within_setClocks | dsimp only | apply within_with_pwr_field

theorem within_catchUp (s : State) (hc : Scope.Le ⟨[.time, .regs, .tmr, .field, .tun], [one Reg.TMR_SLEEP_LAST], []⟩ cc) (h_s : Within cc
    ss s) : Within cc ss (State.catchUp s) := by
  unfold State.catchUp
  with_reducible repeat' first
    | assumption | intro _ | with_unfolding_all exact Scope.Le.trans rfl hc | apply within_setReg Reg.TMR_SLEEP_LAST | apply within_binsTo
    | dsimp only | apply within_with_time_tmr_tun

theorem within_wakeInto (s : State) (hc : Scope.Le ⟨[.gen, .pwr, .tun, .emu, .free] ++ endingParts, [one Reg.FLD_SYN_STATUS, one
    Reg.GEN_IRQ_STATUS, one Reg.GEN_TEST_CTRL, one Reg.GEN_TEST_LANE, each Reg.RXE_P_CANCEL_STATUS 16, each Reg.RXE_P_COUNTS 16, each
    Reg.RXE_P_FRONT 16, one Reg.STO_HSTATUS] ++ endingRegs ++ lastRegs, [ringBytes, tableBytes]⟩ cc) (h_s : Within cc ss s) : Within cc ss
    (State.wakeInto s) := by
  unfold State.wakeInto
  with_reducible repeat' first
    | assumption | intro _ | with_unfolding_all exact Scope.Le.trans rfl hc | apply within_startSyn | apply within_recover
    | apply within_coreSees | split

theorem within_alsoTimer (s : State) (edge : Nat) (hc : Scope.Le ⟨[.regs, .obs], [one Reg.PWR_WAKE_STATUS], []⟩ cc) (h_s : Within cc ss s)
    : Within cc ss (State.alsoTimer s edge) := by
  unfold State.alsoTimer
  with_reducible repeat' first
    | assumption | intro _ | with_unfolding_all exact Scope.Le.trans rfl hc | apply within_ite | apply within_stick Reg.PWR_WAKE_STATUS

theorem within_slowPost (s : State) (hc : Scope.Le ⟨[.pwr, .obs], [], []⟩ cc) (h_s : Within cc ss s) : Within cc ss (State.slowPost s) :=
    by
  unfold State.slowPost
  with_reducible repeat' first
    | assumption | intro _ | with_unfolding_all exact Scope.Le.trans rfl hc | apply within_ite | apply within_post | apply within_with_pwr

theorem within_wake (s : State) (f : Field) (hc : Scope.Le ⟨wakingParts, [one Reg.FLD_SYN_STATUS, one Reg.GEN_IRQ_STATUS, one
    Reg.GEN_TEST_CTRL, one Reg.GEN_TEST_LANE, one Reg.PWR_CLK_STATUS, one Reg.PWR_WAKE_STATUS, each Reg.RXE_P_CANCEL_STATUS 16, each
    Reg.RXE_P_COUNTS 16, each Reg.RXE_P_FRONT 16, one Reg.STO_HSTATUS, one Reg.TMR_SLEEP_LAST] ++ endingRegs ++ lastRegs, [ringBytes,
    tableBytes]⟩ cc) (h_s : Within cc ss s) : Within cc ss (State.wake s f) := by
  unfold State.wake
  with_reducible repeat' first
    | assumption | intro _ | with_unfolding_all exact Scope.Le.trans rfl hc | apply within_stick Reg.PWR_WAKE_STATUS
    | apply within_bump Reg.PWR_WAKE_STATUS | apply within_advance | apply within_setClocks | apply within_catchUp | apply within_wakeInto
    | apply within_alsoTimer | apply within_slowPost | dsimp only | apply within_with_pwr_saf

theorem within_fieldDrop (s : State) (n : Nat) (hc : Scope.Le ⟨[.regs, .field, .rxe, .free, .obs], [one Reg.FLD_SYN_STATUS, each
    Reg.RXE_P_AFC 16, each Reg.RXE_P_CANCEL_STATUS 16, each Reg.RXE_P_FRONT 16], []⟩ cc) (h_s : Within cc ss s) : Within cc ss
    (State.fieldDrop s n) := by
  unfold State.fieldDrop
  with_reducible repeat' first
    | assumption | intro _ | with_unfolding_all exact Scope.Le.trans rfl hc | apply within_modF | apply within_endDeferral
    | apply within_askOn | apply within_abortStep | apply within_rxIdle | apply within_fieldGone

theorem within_writePwrClk (s : State) (v : Word) (hc : Scope.Le ⟨[.regs, .obs], [one Reg.PWR_CLK, one Reg.PWR_CLK_STATUS], []⟩ cc) (h_s :
    Within cc ss s) : Within cc ss (State.writePwrClk s v) := by
  unfold State.writePwrClk
  with_reducible repeat' first
    | assumption | intro _ | with_unfolding_all exact Scope.Le.trans rfl hc | apply within_ite | apply within_setFld Reg.PWR_CLK_STATUS
    | refine within_writeReg Reg.PWR_CLK _ _ (.inl (ClampFree.of (by with_unfolding_all exact rfl))) ?_ ?_

theorem within_loadedVec (s : State) (n : Nat) (raw : Word) (hc : Scope.Le ⟨[.free], [], []⟩ cc) (h_s : Within cc ss s) : Within cc ss
    (State.loadedVec s n raw).1 := by
  unfold State.loadedVec
  with_reducible repeat' first
    | assumption | intro _ | with_unfolding_all exact Scope.Le.trans rfl hc | apply within_ite | apply within_takeFreeWord | split

theorem within_measureVec (s : State) (n : Nat) (raw : Word) (hc : Scope.Le ⟨[.regs, .field, .tun, .free, .obs], [one
    Reg.TUN_MISMATCH_STATUS, each Reg.TUN_P_REF 16, each Reg.TUN_P_STATUS 16, each Reg.TUN_P_VEC 16], []⟩ cc) (h_s : Within cc ss s) :
    Within cc ss (State.measureVec s n raw) := by
  unfold State.measureVec
  with_reducible repeat' first
    | assumption | intro _ | with_unfolding_all exact Scope.Le.trans rfl hc | apply within_measuredVec | apply within_loadedVec

theorem within_captureRef (s : State) (n : Nat) (hc : Scope.Le ⟨[.tun, .obs], [], []⟩ cc) (h_s : Within cc ss s) : Within cc ss
    (State.captureRef s n) := by
  unfold State.captureRef
  with_reducible repeat' first
    | assumption | intro _ | with_unfolding_all exact Scope.Le.trans rfl hc | apply within_ite | apply within_refuse | apply within_modT

theorem within_retune (s : State) (n : Nat) (hc : Scope.Le ⟨[.regs, .field, .tun, .obs], [each Reg.TUN_P_STATUS 16], []⟩ cc) (h_s : Within
    cc ss s) : Within cc ss (State.retune s n) := by
  unfold State.retune
  with_reducible repeat' first
    | assumption | intro _ | with_unfolding_all exact Scope.Le.trans rfl hc | apply within_ite | apply within_beginSearch

theorem within_askMeasure (s : State) (n : Nat) (hc : Scope.Le ⟨[.tun], [], []⟩ cc) (h_s : Within cc ss s) : Within cc ss
    (State.askMeasure s n) := by
  unfold State.askMeasure
  with_reducible repeat' first | assumption | intro _ | with_unfolding_all exact Scope.Le.trans rfl hc | apply within_modT

theorem within_writeTunCmd (s : State) (n : Nat) (v : Word) (hc : Scope.Le ⟨[.regs, .field, .tun, .obs], [each Reg.TUN_P_STATUS 16], []⟩
    cc) (h_s : Within cc ss s) : Within cc ss (State.writeTunCmd s n v) := by
  unfold State.writeTunCmd
  with_reducible repeat' first
    | assumption | intro _ | with_unfolding_all exact Scope.Le.trans rfl hc | apply within_ite | apply within_captureRef
    | apply within_retune | apply within_askMeasure

theorem within_writeTunCode (s : State) (n : Nat) (v : Word) (hc : Scope.Le ⟨[.regs, .field, .tun, .obs], [each Reg.TUN_P_CODE 16, each
    Reg.TUN_P_STATUS 16], []⟩ cc) (h_s : Within cc ss s) : Within cc ss (State.writeTunCode s n v) := by
  unfold State.writeTunCode
  with_reducible repeat' first
    | assumption | intro _ | with_unfolding_all exact Scope.Le.trans rfl hc | apply within_ite
    | apply within_setFld_of Reg.TUN_P_STATUS 16 (Nat.succ_pos _) (by with_unfolding_all exact fun _ => rfl)
    | refine within_writeReg_of Reg.TUN_P_CODE 16 (Nat.succ_pos _) (by with_unfolding_all exact fun _ => rfl) _ _ _ (.inl (ClampFree.page Reg.TUN_P_CODE 16 _ (by with_unfolding_all exact fun _ => rfl) (by with_unfolding_all exact rfl) (Nat.succ_pos _) _)) ?_ ?_
    | apply within_post | apply within_modT | apply within_sendCode

theorem within_linkNext (s : State) (q : LinkReq) (hc : Scope.Le ⟨[.field, .tun, .obs], [], []⟩ cc) (h_s : Within cc ss s) : Within cc ss
    (State.linkNext s q) := by
  unfold State.linkNext
  with_reducible repeat' first
    | assumption | intro _ | with_unfolding_all exact Scope.Le.trans rfl hc | apply within_kickLink | apply within_with_tun

theorem within_roundSyn (s : State) (hc : Scope.Le ⟨[.regs, .field, .free], [one Reg.FLD_SYN_STATUS], []⟩ cc) (h_s : Within cc ss s) :
    Within cc ss (State.roundSyn s) := by
  unfold State.roundSyn
  with_reducible repeat' first
    | assumption | intro _ | with_unfolding_all exact Scope.Le.trans rfl hc | apply within_ite | apply within_takeFreeWord
    | apply within_startSyn | dsimp only | apply within_with_field

theorem within_roundOver (s : State) (hc : Scope.Le ⟨[.regs, .field, .tun], [one Reg.FLD_SYN_STATUS], []⟩ cc) (h_s : Within cc ss s) :
    Within cc ss (State.roundOver s) := by
  unfold State.roundOver
  with_reducible repeat' first
    | assumption | intro _ | with_unfolding_all exact Scope.Le.trans rfl hc | apply within_ite | apply within_setFld Reg.FLD_SYN_STATUS
    | dsimp only | apply within_with_field_tun

theorem within_skipPing (s : State) (hc : Scope.Le ⟨[.regs, .obs], [one Reg.TUN_SNIFF_STATUS], []⟩ cc) (h_s : Within cc ss s) : Within cc
    ss (State.skipPing s) := by
  unfold State.skipPing
  with_reducible repeat' first
    | assumption | intro _ | with_unfolding_all exact Scope.Le.trans rfl hc | apply within_bump Reg.TUN_SNIFF_STATUS
    | apply within_postSec

theorem within_pinged (s : State) (n : Nat) (hc : Scope.Le ⟨[.tun], [], []⟩ cc) (h_s : Within cc ss s) : Within cc ss (State.pinged s n)
    := by
  unfold State.pinged
  with_reducible repeat' first | assumption | intro _ | with_unfolding_all exact Scope.Le.trans rfl hc | apply within_with_tun

theorem within_ping (s : State) (n : Nat) (vec : Word) (hc : Scope.Le ⟨[.regs, .field, .tun] ++ passing, [each Reg.TUN_P_SNIFF_LAST 16],
    [ringBytes]⟩ cc) (h_s : Within cc ss s) : Within cc ss (State.ping s n vec) := by
  unfold State.ping
  with_reducible repeat' first
    | assumption | intro _ | with_unfolding_all exact Scope.Le.trans rfl hc
    | apply within_setReg_of Reg.TUN_P_SNIFF_LAST 16 (Nat.succ_pos _) (by with_unfolding_all exact fun _ => rfl) | apply within_count
    | apply within_modF | apply within_modT | apply within_advance | apply within_binsTo | dsimp only | apply within_with_field

theorem within_showBase (s : State) (n : Nat) (hc : Scope.Le ⟨[.regs], [each Reg.TUN_P_SNIFF_BASE 16], []⟩ cc) (h_s : Within cc ss s) :
    Within cc ss (State.showBase s n) := by
  unfold State.showBase
  with_reducible repeat' first
    | assumption | intro _ | with_unfolding_all exact Scope.Le.trans rfl hc
    | apply within_setReg_of Reg.TUN_P_SNIFF_BASE 16 (Nat.succ_pos _) (by with_unfolding_all exact fun _ => rfl)

theorem within_sumBase (s : State) (n : Nat) (vec : Word) (hc : Scope.Le ⟨[.regs, .tun], [each Reg.TUN_P_SNIFF_BASE 16], []⟩ cc) (h_s :
    Within cc ss s) : Within cc ss (State.sumBase s n vec) := by
  unfold State.sumBase
  with_reducible repeat' first
    | assumption | intro _ | with_unfolding_all exact Scope.Le.trans rfl hc | apply within_ite | apply within_modT | apply within_showBase

theorem within_trackBase (s : State) (n : Nat) (vec : Word) (hc : Scope.Le ⟨[.regs, .tun, .free], [each Reg.TUN_P_SNIFF_BASE 16], []⟩ cc)
    (h_s : Within cc ss s) : Within cc ss (State.trackBase s n vec) := by
  unfold State.trackBase
  with_reducible repeat' first
    | assumption | intro _ | with_unfolding_all exact Scope.Le.trans rfl hc | apply within_modT | apply within_takeFreeBit
    | apply within_showBase

theorem within_toReader (s : State) (n : Nat) (hc : Scope.Le ⟨[.regs, .obs], [each Reg.FLD_P_HUDDLE 16, each Reg.PRO_P_MODE_STATUS 16,
    each Reg.PRO_P_ROLE 16], []⟩ cc) (h_s : Within cc ss s) : Within cc ss (State.toReader s n) := by
  unfold State.toReader
  with_reducible repeat' first
    | assumption | intro _ | with_unfolding_all exact Scope.Le.trans rfl hc
    | apply within_setFld_of Reg.PRO_P_ROLE 16 (Nat.succ_pos _) (by with_unfolding_all exact fun _ => rfl) | apply within_judgeRole

theorem within_sniffWake (s : State) (n : Nat) (hc : Scope.Le ⟨wakingParts, [each Reg.FLD_P_HUDDLE 16, one Reg.FLD_SYN_STATUS, one
    Reg.GEN_IRQ_STATUS, one Reg.GEN_TEST_CTRL, one Reg.GEN_TEST_LANE, each Reg.PRO_P_MODE_STATUS 16, each Reg.PRO_P_ROLE 16, one
    Reg.PWR_CLK_STATUS, one Reg.PWR_WAKE_STATUS, each Reg.RXE_P_CANCEL_STATUS 16, each Reg.RXE_P_COUNTS 16, each Reg.RXE_P_FRONT 16, one
    Reg.STO_HSTATUS, one Reg.TMR_SLEEP_LAST, one Reg.TUN_SNIFF_STATUS] ++ endingRegs ++ lastRegs, [ringBytes, tableBytes]⟩ cc) (h_s :
    Within cc ss s) : Within cc ss (State.sniffWake s n) := by
  unfold State.sniffWake
  with_reducible repeat' first
    | assumption | intro _ | with_unfolding_all exact Scope.Le.trans rfl hc | apply within_ite
    | apply within_stickBit Reg.TUN_SNIFF_STATUS | apply within_count | apply within_post | apply within_modT | apply within_wake
    | apply within_toReader | apply within_foldl | split

theorem within_roundReady (s : State) (hc : Scope.Le ⟨[.regs, .field, .pro] ++ passing, [one Reg.FLD_SYN_STATUS], [ringBytes]⟩ cc) (h_s :
    Within cc ss s) : Within cc ss (State.roundReady s) := by
  unfold State.roundReady
  with_reducible repeat' first
    | assumption | intro _ | with_unfolding_all exact Scope.Le.trans rfl hc | apply within_ite | apply within_advance
    | apply within_lockPast

theorem within_setCox (s : State) (x : CoxSt) (hc : Scope.Le ⟨[.cox], [], []⟩ cc) (h_s : Within cc ss s) : Within cc ss (State.setCox s x)
    := by
  unfold State.setCox
  with_reducible repeat' first | assumption | intro _ | with_unfolding_all exact Scope.Le.trans rfl hc | apply within_with_cox

theorem within_attempt (s : State) (n : Nat) (hc : Scope.Le ⟨[.regs, .que, .field, .rxe, .pro, .sess, .cox, .free] ++ passing, [one
    Reg.COX_COUNTS, one Reg.FLD_SYN_STATUS, each Reg.RXE_P_AFC 16] ++ exchangeRegs, [ringBytes]⟩ cc) (h_s : Within cc ss s) : Within cc ss
    (State.attempt s n) := by
  unfold State.attempt
  with_reducible repeat' first
    | assumption | intro _ | with_unfolding_all exact Scope.Le.trans rfl hc | apply within_ite | apply within_tryOn
    | apply within_tryFrame | split

theorem within_unwait (s : State) (n : Nat) (hc : Scope.Le ⟨[.cox], [], []⟩ cc) (h_s : Within cc ss s) : Within cc ss (State.unwait s n)
    := by
  unfold State.unwait
  with_reducible repeat' first | assumption | intro _ | with_unfolding_all exact Scope.Le.trans rfl hc | apply within_modX

theorem within_seenLater (s : State) (hc : Scope.Le ⟨[.free] ++ passing, [], [ringBytes]⟩ cc) (h_s : Within cc ss s) : Within cc ss
    (State.seenLater s) := by
  unfold State.seenLater
  with_reducible repeat' first
    | assumption | intro _ | with_unfolding_all exact Scope.Le.trans rfl hc | apply within_advance | apply within_takeFreeBit

theorem within_toRfCycle (s : State) (hc : Scope.Le ⟨[.free] ++ passing, [], [ringBytes]⟩ cc) (h_s : Within cc ss s) : Within cc ss
    (State.toRfCycle s) := by
  unfold State.toRfCycle
  with_reducible repeat' first
    | assumption | intro _ | with_unfolding_all exact Scope.Le.trans rfl hc | apply within_advance | apply within_takeFreeWord

theorem within_grantSeen (s0 : State) (hc : Scope.Le ⟨[.regs, .que, .field, .rxe, .pro, .sess, .cox, .free] ++ passing, [one
    Reg.COX_COUNTS, one Reg.FLD_SYN_STATUS, each Reg.RXE_P_AFC 16] ++ exchangeRegs, [ringBytes]⟩ cc) (h_s0 : Within cc ss s0) : Within cc
    ss (State.grantSeen s0) := by
  unfold State.grantSeen
  with_reducible repeat' first
    | assumption | intro _ | with_unfolding_all exact Scope.Le.trans rfl hc | apply within_ite | apply within_tryOffs
    | apply within_attempt | apply within_unwait | apply within_toRfCycle | apply within_foldl

theorem within_noteCut (s : State) (n : Nat) (hc : Scope.Le ⟨[.regs, .obs], [one Reg.COX_COUNTS], []⟩ cc) (h_s : Within cc ss s) : Within
    cc ss (State.noteCut s n) := by
  unfold State.noteCut
  with_reducible repeat' first
    | assumption | intro _ | with_unfolding_all exact Scope.Le.trans rfl hc | apply within_bump Reg.COX_COUNTS | apply within_count
    | apply within_postLimited

theorem within_cutFrame (s : State) (n : Nat) (hc : Scope.Le ⟨endingParts, [one Reg.COX_COUNTS, each Reg.RXE_P_COUNTS 16] ++ endingRegs ++
    lastRegs, [ringBytes, tableBytes]⟩ cc) (h_s : Within cc ss s) : Within cc ss (State.cutFrame s n) := by
  unfold State.cutFrame
  with_reducible repeat' first
    | assumption | intro _ | with_unfolding_all exact Scope.Le.trans rfl hc | apply within_cutExchange | apply within_noteCut

theorem within_cutOn (s : State) (n : Nat) (hc : Scope.Le ⟨[.regs, .field, .obs], [one Reg.COX_COUNTS], []⟩ cc) (h_s : Within cc ss s) :
    Within cc ss (State.cutOn s n) := by
  unfold State.cutOn
  with_reducible repeat' first
    | assumption | intro _ | with_unfolding_all exact Scope.Le.trans rfl hc | apply within_ite | apply within_modF | apply within_startOff
    | apply within_noteCut | split | dsimp only

theorem within_grantLost (s : State) (hc : Scope.Le ⟨endingParts, [one Reg.COX_COUNTS, each Reg.RXE_P_COUNTS 16] ++ endingRegs ++
    lastRegs, [ringBytes, tableBytes]⟩ cc) (h_s : Within cc ss s) : Within cc ss (State.grantLost s) := by
  unfold State.grantLost
  with_reducible repeat' first
    | assumption | intro _ | with_unfolding_all exact Scope.Le.trans rfl hc | apply within_ite | apply within_advance
    | apply within_cutFrame | apply within_cutOn | apply within_foldl

theorem within_grantMoved (s0 s : State) (hc : Scope.Le ⟨[.free] ++ endingParts, [one Reg.COX_COUNTS, one Reg.FLD_SYN_STATUS, each
    Reg.RXE_P_COUNTS 16] ++ endingRegs ++ lastRegs, [ringBytes, tableBytes]⟩ cc) (h_s0 : Within cc ss s0) (h_s : Within cc ss s) : Within
    cc ss (State.grantMoved s0 s) := by
  unfold State.grantMoved
  with_reducible repeat' first
    | assumption | intro _ | with_unfolding_all exact Scope.Le.trans rfl hc | apply within_ite | apply within_grantSeen
    | apply within_grantLost

theorem within_markBlanked (s : State) (hc : Scope.Le ⟨[.rxe], [], []⟩ cc) (h_s : Within cc ss s) : Within cc ss (State.markBlanked s) :=
    by
  unfold State.markBlanked
  with_reducible repeat' first
    | assumption | intro _ | with_unfolding_all exact Scope.Le.trans rfl hc | apply within_ite | apply within_modR | apply within_each

theorem within_writeCoxCtrl (s : State) (v : Word) (hc : Scope.Le ⟨[.free] ++ endingParts, [one Reg.COX_COUNTS, one Reg.COX_CTRL, one
    Reg.FLD_SYN_STATUS, each Reg.RXE_P_COUNTS 16] ++ endingRegs ++ lastRegs, [ringBytes, tableBytes]⟩ cc) (h_s : Within cc ss s) : Within
    cc ss (State.writeCoxCtrl s v) := by
  unfold State.writeCoxCtrl
  with_reducible repeat' first
    | assumption | intro _ | with_unfolding_all exact Scope.Le.trans rfl hc
    | refine within_writeReg Reg.COX_CTRL _ _ (.inl (ClampFree.of (by with_unfolding_all exact rfl))) ?_ ?_ | apply within_tryOffs
    | apply within_setCox | apply within_grantMoved | apply within_markBlanked

theorem within_loadReg (s : State) (l : List Word) (hc : Scope.Le ⟨[.regs], [each Reg.COX_REG_CEIL 16, one Reg.COX_REG_GLOBAL, one
    Reg.COX_REG_TRIM], []⟩ cc) (h_s : Within cc ss s) : Within cc ss (State.loadReg s l) := by
  unfold State.loadReg
  with_reducible repeat' first
    | assumption | intro _ | with_unfolding_all exact Scope.Le.trans rfl hc | apply within_setReg Reg.COX_REG_GLOBAL
    | apply within_setReg Reg.COX_REG_TRIM
    | apply within_setReg_of Reg.COX_REG_CEIL 16 (Nat.succ_pos _) (by with_unfolding_all exact fun _ => rfl) | apply within_each

theorem within_lowerCeil (s : State) (n : Nat) (hc : Scope.Le ⟨[.field], [], []⟩ cc) (h_s : Within cc ss s) : Within cc ss
    (State.lowerCeil s n) := by
  unfold State.lowerCeil
  with_reducible repeat' first
    | assumption | intro _ | with_unfolding_all exact Scope.Le.trans rfl hc | apply within_ite | apply within_modF

theorem within_applyLower (s : State) (p : List Byte) (hc : Scope.Le ⟨[.regs, .field, .pro, .obs], [each Reg.COX_REG_CEIL 16, one
    Reg.COX_REG_GLOBAL, one Reg.COX_REG_TRIM, one Reg.FLD_DUTY, one Reg.FLD_FC_TRIM, one Reg.FLD_GUARD, each Reg.FLD_P_AMPL 16, each
    Reg.FLD_P_HUDDLE 16, each Reg.FLD_P_RELAY 16, one Reg.FLD_SYN_STATUS, each Reg.PRO_P_MODE_STATUS 16, each Reg.TUN_P_SNIFF 16] ++
    experts, []⟩ cc) (h_s : Within cc ss s) : Within cc ss (State.applyLower s p) := by
  unfold State.applyLower
  with_reducible repeat' first
    | assumption | intro _ | with_unfolding_all exact Scope.Le.trans rfl hc | apply within_ite
    | apply within_setFld_of Reg.COX_REG_CEIL 16 (Nat.succ_pos _) (by with_unfolding_all exact fun _ => rfl)
    | apply within_setFld Reg.COX_REG_GLOBAL | apply within_setFld Reg.FLD_DUTY | apply within_setFld Reg.COX_REG_TRIM
    | apply within_judgeRole | apply within_clampCheck | apply within_retrim | apply within_lowerCeil | apply within_each | split

theorem within_respond (s : State) (last : Bool) (b : List Byte) (bits : Nat) (air : List Bool) (hc : Scope.Le ⟨[.emu], [], []⟩ cc) (h_s :
    Within cc ss s) : Within cc ss (State.respond s last b bits air) := by
  unfold State.respond
  with_reducible repeat' first
    | assumption | intro _ | with_unfolding_all exact Scope.Le.trans rfl hc | apply within_ite | apply within_modE

theorem within_respondCrc (s : State) (last : Bool) (b : List Byte) (hc : Scope.Le ⟨[.emu], [], []⟩ cc) (h_s : Within cc ss s) : Within cc
    ss (State.respondCrc s last b) := by
  unfold State.respondCrc
  with_reducible repeat' first | assumption | intro _ | with_unfolding_all exact Scope.Le.trans rfl hc | apply within_respond

theorem within_respondNak (s : State) (last : Bool) (hc : Scope.Le ⟨[.emu], [], []⟩ cc) (h_s : Within cc ss s) : Within cc ss
    (State.respondNak s last) := by
  unfold State.respondNak
  with_reducible repeat' first | assumption | intro _ | with_unfolding_all exact Scope.Le.trans rfl hc | apply within_respond

theorem within_respondBusy (s : State) (last : Bool) (hc : Scope.Le ⟨[.emu], [], []⟩ cc) (h_s : Within cc ss s) : Within cc ss
    (State.respondBusy s last) := by
  unfold State.respondBusy
  with_reducible repeat' first | assumption | intro _ | with_unfolding_all exact Scope.Le.trans rfl hc | apply within_respond

theorem within_tagReject (s : State) (hc : Scope.Le ⟨[.emu, .free], [], []⟩ cc) (h_s : Within cc ss s) : Within cc ss (State.tagReject s)
    := by
  unfold State.tagReject
  with_reducible repeat' first
    | assumption | intro _ | with_unfolding_all exact Scope.Le.trans rfl hc | apply within_ite | apply within_tagTo

theorem within_tagWake (s : State) (last halted : Bool) (hc : Scope.Le ⟨[.emu], [], []⟩ cc) (h_s : Within cc ss s) : Within cc ss
    (State.tagWake s last halted) := by
  unfold State.tagWake
  with_reducible repeat' first
    | assumption | intro _ | with_unfolding_all exact Scope.Le.trans rfl hc | apply within_modE | apply within_respond

theorem within_tagSelect (s : State) (hc : Scope.Le ⟨[.regs, .emu], [one Reg.EMU_COUNTS], []⟩ cc) (h_s : Within cc ss s) : Within cc ss
    (State.tagSelect s) := by
  unfold State.tagSelect
  with_reducible repeat' first
    | assumption | intro _ | with_unfolding_all exact Scope.Le.trans rfl hc | apply within_ite | apply within_bump Reg.EMU_COUNTS
    | apply within_modE

theorem within_tagSel (s : State) (frame : List Byte) (lastBits : Nat) (hc : Scope.Le ⟨[.regs, .emu, .free], [one Reg.EMU_COUNTS], []⟩ cc)
    (h_s : Within cc ss s) : Within cc ss (State.tagSel s frame lastBits) := by
  unfold State.tagSel
  with_reducible repeat' first
    | assumption | intro _ | with_unfolding_all exact Scope.Le.trans rfl hc | apply within_ite | apply within_modE | apply within_respond
    | apply within_respondCrc | apply within_tagReject | apply within_tagSelect | split

theorem within_sendBusy (s : State) (last : Bool) (hc : Scope.Le ⟨[.regs, .emu, .obs], [one Reg.EMU_COUNTS], []⟩ cc) (h_s : Within cc ss
    s) : Within cc ss (State.sendBusy s last) := by
  unfold State.sendBusy
  with_reducible repeat' first
    | assumption | intro _ | with_unfolding_all exact Scope.Le.trans rfl hc | apply within_ite | apply within_bump Reg.EMU_COUNTS
    | apply within_postSec | apply within_respondBusy

theorem within_askInc (s : State) (c : Nat) (hc : Scope.Le ⟨[.emu], [], []⟩ cc) (h_s : Within cc ss s) : Within cc ss (State.askInc s c)
    := by
  unfold State.askInc
  with_reducible repeat' first
    | assumption | intro _ | with_unfolding_all exact Scope.Le.trans rfl hc | apply within_ite | apply within_queueInc

theorem within_sendBlock (s : State) (last : Bool) (b : Nat) (hc : Scope.Le ⟨[.emu], [], []⟩ cc) (h_s : Within cc ss s) : Within cc ss
    (State.sendBlock s last b) := by
  unfold State.sendBlock
  with_reducible repeat' first
    | assumption | intro _ | with_unfolding_all exact Scope.Le.trans rfl hc | apply within_ite | apply within_modE
    | apply within_respondCrc | apply within_askInc

theorem within_benchTag (s : State) (dur : Nat) (hc : Scope.Le ⟨[.emu, .free], [], []⟩ cc) (h_s : Within cc ss s) : Within cc ss
    (State.benchTag s dur) := by
  unfold State.benchTag
  with_reducible repeat' first
    | assumption | intro _ | with_unfolding_all exact Scope.Le.trans rfl hc | apply within_modE | apply within_leaveActive

theorem within_writeEmuData (s : State) (i : Nat) (ws : List Word) (hc : Scope.Le ⟨[.emu], [], []⟩ cc) (h_s : Within cc ss s) : Within cc
    ss (State.writeEmuData s i ws) := by
  unfold State.writeEmuData
  with_reducible repeat' first
    | assumption | intro _ | with_unfolding_all exact Scope.Le.trans rfl hc | apply within_ite | apply within_modE | apply within_putDatas

theorem within_writeWire (s : State) (v : Word) (hc : Scope.Le ⟨[.regs, .emu, .free, .obs], [one Reg.EMU_WIRE], []⟩ cc) (h_s : Within cc
    ss s) : Within cc ss (State.writeWire s v) := by
  unfold State.writeWire
  with_reducible repeat' first
    | assumption | intro _ | with_unfolding_all exact Scope.Le.trans rfl hc | apply within_ite
    | refine within_writeReg Reg.EMU_WIRE _ _ (.inl (ClampFree.of (by with_unfolding_all exact rfl))) ?_ ?_ | apply within_modE
    | apply within_autoSync | apply within_releaseHeld

theorem within_writeEmuCtrl (s : State) (v : Word) (hc : Scope.Le ⟨[.regs, .field, .rxe, .emu, .free, .obs], [one Reg.EMU_CTRL, each
    Reg.FLD_P_HUDDLE 16, each Reg.PRO_P_MODE_STATUS 16, each Reg.RXE_P_AFC 16, each Reg.RXE_P_CANCEL_STATUS 16, each Reg.RXE_P_FRONT 16],
    []⟩ cc) (h_s : Within cc ss s) : Within cc ss (State.writeEmuCtrl s v) := by
  unfold State.writeEmuCtrl
  with_reducible repeat' first
    | assumption | intro _ | with_unfolding_all exact Scope.Le.trans rfl hc | apply within_ite
    | refine within_writeReg Reg.EMU_CTRL _ _ (.inl (ClampFree.of (by with_unfolding_all exact rfl))) ?_ ?_ | apply within_judgeRole
    | apply within_syncEmu | apply within_each

theorem within_writeUidLo (s : State) (v : Word) (hc : Scope.Le ⟨[.regs, .obs], [one Reg.EMU_UID_LO], []⟩ cc) (h_s : Within cc ss s) :
    Within cc ss (State.writeUidLo s v) := by
  unfold State.writeUidLo
  with_reducible repeat' first
    | assumption | intro _ | with_unfolding_all exact Scope.Le.trans rfl hc | apply within_ite
    | refine within_writeReg Reg.EMU_UID_LO _ _ (.inl (ClampFree.of (by with_unfolding_all exact rfl))) ?_ ?_

theorem within_ctrInc (s : State) (c : Nat) (hc : Scope.Le ⟨[.emu], [], []⟩ cc) (h_s : Within cc ss s) : Within cc ss (State.ctrInc s c)
    := by
  unfold State.ctrInc
  with_reducible repeat' first
    | assumption | intro _ | with_unfolding_all exact Scope.Le.trans rfl hc | apply within_ite | apply within_askInc

theorem within_writeEmuCmd (s : State) (v : Word) (hc : Scope.Le ⟨[.emu, .free], [], []⟩ cc) (h_s : Within cc ss s) : Within cc ss
    (State.writeEmuCmd s v) := by
  unfold State.writeEmuCmd
  with_reducible repeat' first
    | assumption | intro _ | with_unfolding_all exact Scope.Le.trans rfl hc | apply within_ite | apply within_askSync
    | apply within_ctrInc

theorem within_spoilImage (s : State) (r : SyncRun) (hc : Scope.Le ⟨[.emu, .free], [], []⟩ cc) (h_s : Within cc ss s) : Within cc ss
    (State.spoilImage s r) := by
  unfold State.spoilImage
  with_reducible repeat' first
    | assumption | intro _ | with_unfolding_all exact Scope.Le.trans rfl hc | apply within_ite | apply within_takeFreeWord
    | apply within_nvWrite

theorem within_nextSync (s : State) (hc : Scope.Le ⟨[.emu, .free], [], []⟩ cc) (h_s : Within cc ss s) : Within cc ss (State.nextSync s) :=
    by
  unfold State.nextSync
  with_reducible repeat' first
    | assumption | intro _ | with_unfolding_all exact Scope.Le.trans rfl hc | apply within_ite | apply within_modE
    | apply within_beginSync

theorem within_dropStuck (k : Nat) (s : State) (hc : Scope.Le ⟨[.emu], [], []⟩ cc) (h_s : Within cc ss s) : Within cc ss (State.dropStuck k s) := by
  induction k generalizing s with
  | zero => exact h_s
  | succ k ih =>
    unfold State.dropStuck
    split
    · exact within_ite (ih _ (within_modE _ _ (Scope.Le.trans rfl hc) h_s)) h_s
    · exact h_s

theorem within_endUpdate (s : State) (hc : Scope.Le ⟨[.emu], [], []⟩ cc) (h_s : Within cc ss s) : Within cc ss (State.endUpdate s) := by
  unfold State.endUpdate
  with_reducible repeat' first
    | assumption | intro _ | with_unfolding_all exact Scope.Le.trans rfl hc | apply within_modE | apply within_dropStuck

theorem within_setUpdate (s : State) (u : CtrUpd) (hc : Scope.Le ⟨[.emu], [], []⟩ cc) (h_s : Within cc ss s) : Within cc ss
    (State.setUpdate s u) := by
  unfold State.setUpdate
  with_reducible repeat' first | assumption | intro _ | with_unfolding_all exact Scope.Le.trans rfl hc | apply within_modE

theorem within_spoilCell (s : State) (k : Nat) (cell : List Byte) (hc : Scope.Le ⟨[.emu, .free], [], []⟩ cc) (h_s : Within cc ss s) :
    Within cc ss (State.spoilCell s k cell) := by
  unfold State.spoilCell
  with_reducible repeat' first
    | assumption | intro _ | with_unfolding_all exact Scope.Le.trans rfl hc | apply within_ite | apply within_takeFreeWord
    | apply within_nvWrite

theorem within_showCtr (s : State) (c v : Nat) (hc : Scope.Le ⟨[.regs, .obs], [each Reg.EMU_CTR 8, one Reg.EMU_CTR_STATUS], []⟩ cc) (h_s :
    Within cc ss s) : Within cc ss (State.showCtr s c v) := by
  unfold State.showCtr
  with_reducible repeat' first
    | assumption | intro _ | with_unfolding_all exact Scope.Le.trans rfl hc | apply within_ite
    | apply within_setReg_of Reg.EMU_CTR 8 (Nat.succ_pos _) (by with_unfolding_all exact fun _ => rfl) | apply within_markSat

theorem within_ctrFail (s : State) (c : Nat) (hc : Scope.Le ⟨[.regs, .obs], [one Reg.EMU_CTR_STATUS], []⟩ cc) (h_s : Within cc ss s) :
    Within cc ss (State.ctrFail s c) := by
  unfold State.ctrFail
  with_reducible repeat' first
    | assumption | intro _ | with_unfolding_all exact Scope.Le.trans rfl hc | apply within_ite | apply within_stickBit Reg.EMU_CTR_STATUS
    | apply within_post

theorem within_runUpdate (s : State) (u : CtrUpd) (ok : Bool) (hc : Scope.Le ⟨[.regs, .emu, .free, .obs], [each Reg.EMU_CTR 8, one
    Reg.EMU_CTR_STATUS], []⟩ cc) (h_s : Within cc ss s) : Within cc ss (State.runUpdate s u ok) := by
  unfold State.runUpdate
  with_reducible repeat' first
    | assumption | intro _ | with_unfolding_all exact Scope.Le.trans rfl hc | apply within_ite | apply within_nvWrite
    | apply within_endUpdate | apply within_setUpdate | apply within_spoilCell | apply within_showCtr | apply within_ctrFail

theorem within_cellTime (s : State) (u : CtrUpd) (hc : Scope.Le ⟨[.free] ++ passing, [], [ringBytes]⟩ cc) (h_s : Within cc ss s) : Within
    cc ss (State.cellTime s u) := by
  unfold State.cellTime
  with_reducible repeat' first
    | assumption | intro _ | with_unfolding_all exact Scope.Le.trans rfl hc | apply within_ite | apply within_advance
    | apply within_takeFreeWord

theorem within_collapseUpdate (s : State) (hc : Scope.Le ⟨[.emu, .free], [], []⟩ cc) (h_s : Within cc ss s) : Within cc ss
    (State.collapseUpdate s) := by
  unfold State.collapseUpdate
  with_reducible repeat' first
    | assumption | intro _ | with_unfolding_all exact Scope.Le.trans rfl hc | apply within_takeFreeWord | apply within_modE
    | apply within_nvWrite | apply within_spoilCell | split

theorem within_collapseSync (s : State) (isReset : Bool) (hc : Scope.Le ⟨[.emu, .free], [], []⟩ cc) (h_s : Within cc ss s) : Within cc ss
    (State.collapseSync s isReset) := by
  unfold State.collapseSync
  with_reducible repeat' first
    | assumption | intro _ | with_unfolding_all exact Scope.Le.trans rfl hc | apply within_ite | apply within_takeFreeBit
    | apply within_modE | apply within_nvWrite | apply within_spoilImage | split

theorem within_retainBench (s : State) (hc : Scope.Le ⟨[.emu], [], []⟩ cc) (h_s : Within cc ss s) : Within cc ss (State.retainBench s) :=
    by
  unfold State.retainBench
  with_reducible repeat' first
    | assumption | intro _ | with_unfolding_all exact Scope.Le.trans rfl hc | apply within_ite | apply within_modE

theorem within_emuDown (s : State) (isReset : Bool) (hc : Scope.Le ⟨[.emu, .free], [], []⟩ cc) (h_s : Within cc ss s) : Within cc ss
    (State.emuDown s isReset) := by
  unfold State.emuDown
  with_reducible repeat' first
    | assumption | intro _ | with_unfolding_all exact Scope.Le.trans rfl hc | apply within_reset | apply within_modE
    | apply within_collapseUpdate | apply within_collapseSync | apply within_retainBench

theorem within_cellHolds (s : State) (away : Nat) (hc : Scope.Le ⟨[.free], [], []⟩ cc) (h_s : Within cc ss s) : Within cc ss
    (State.cellHolds s away).1 := by
  unfold State.cellHolds
  with_reducible repeat' first
    | assumption | intro _ | with_unfolding_all exact Scope.Le.trans rfl hc | apply within_ite | apply within_takeFreeBit | split

theorem within_takeCell (s : State) (away : Nat) (hc : Scope.Le ⟨[.emu, .free], [], []⟩ cc) (h_s : Within cc ss s) : Within cc ss
    (State.takeCell s away) := by
  unfold State.takeCell
  with_reducible repeat' first
    | assumption | intro _ | with_unfolding_all exact Scope.Le.trans rfl hc | apply within_ite | apply within_takeFreeWord
    | apply within_modE | apply within_cellHolds | split

theorem within_runTimer (s : State) (k : Nat) (hc : Scope.Le ⟨[.tmr], [], []⟩ cc) (h_s : Within cc ss s) : Within cc ss (State.runTimer s
    k) := by
  unfold State.runTimer
  with_reducible repeat' first | assumption | intro _ | with_unfolding_all exact Scope.Le.trans rfl hc | apply within_setTimer

theorem within_syncTimer (s : State) (k : Nat) (hc : Scope.Le ⟨[.tmr], [], []⟩ cc) (h_s : Within cc ss s) : Within cc ss (State.syncTimer
    s k) := by
  unfold State.syncTimer
  with_reducible repeat' first
    | assumption | intro _ | with_unfolding_all exact Scope.Le.trans rfl hc | apply within_ite | apply within_setTimer
    | apply within_runTimer

theorem within_enTimer (s : State) (k : Nat) (on : Bool) (hc : Scope.Le ⟨[.regs, .tmr], [each Reg.TMR_T_CTRL 8], []⟩ cc) (h_s : Within cc
    ss s) : Within cc ss (State.enTimer s k on) := by
  unfold State.enTimer
  with_reducible repeat' first
    | assumption | intro _ | with_unfolding_all exact Scope.Le.trans rfl hc
    | apply within_setFld_of Reg.TMR_T_CTRL 8 (Nat.succ_pos _) (by with_unfolding_all exact fun _ => rfl) | apply within_syncTimer

theorem within_writeGroup (s : State) (v : Word) (hc : Scope.Le ⟨[.regs, .tmr], [each Reg.TMR_T_CTRL 8], []⟩ cc) (h_s : Within cc ss s) :
    Within cc ss (State.writeGroup s v) := by
  unfold State.writeGroup
  with_reducible repeat' first
    | assumption | intro _ | with_unfolding_all exact Scope.Le.trans rfl hc | apply within_ite | apply within_enTimer | apply within_each

theorem within_writeCount (s : State) (k : Nat) (v : Word) (hc : Scope.Le ⟨[.regs, .obs], [each Reg.TMR_T_COUNT 8], []⟩ cc) (h_s : Within
    cc ss s) : Within cc ss (State.writeCount s k v) := by
  unfold State.writeCount
  with_reducible repeat' first
    | assumption | intro _ | with_unfolding_all exact Scope.Le.trans rfl hc | apply within_ite
    | refine within_writeReg_of Reg.TMR_T_COUNT 8 (Nat.succ_pos _) (by with_unfolding_all exact fun _ => rfl) _ _ _ (.inl (ClampFree.page Reg.TMR_T_COUNT 8 _ (by with_unfolding_all exact fun _ => rfl) (by with_unfolding_all exact rfl) (Nat.succ_pos _) _)) ?_ ?_

theorem within_writeTimerStatus (s : State) (k : Nat) (v : Word) (hc : Scope.Le ⟨[.regs, .obs], [each Reg.TMR_T_STATUS 8], []⟩ cc) (h_s :
    Within cc ss s) : Within cc ss (State.writeTimerStatus s k v) := by
  unfold State.writeTimerStatus
  with_reducible repeat' first
    | assumption | intro _ | with_unfolding_all exact Scope.Le.trans rfl hc | apply within_ite
    | refine within_writeReg_of Reg.TMR_T_STATUS 8 (Nat.succ_pos _) (by with_unfolding_all exact fun _ => rfl) _ _ _ (.inl (ClampFree.page Reg.TMR_T_STATUS 8 _ (by with_unfolding_all exact fun _ => rfl) (by with_unfolding_all exact rfl) (Nat.succ_pos _) _)) ?_ ?_
    | dsimp only | apply within_with_obs

theorem within_writeXtrig (s : State) (k : Nat) (v : Word) (hc : Scope.Le ⟨[.regs, .obs], [each Reg.TMR_T_XTRIG 8], []⟩ cc) (h_s : Within
    cc ss s) : Within cc ss (State.writeXtrig s k v) := by
  unfold State.writeXtrig
  with_reducible repeat' first
    | assumption | intro _ | with_unfolding_all exact Scope.Le.trans rfl hc | apply within_ite
    | apply within_setFld_of Reg.TMR_T_XTRIG 8 (Nat.succ_pos _) (by with_unfolding_all exact fun _ => rfl)
    | refine within_writeReg_of Reg.TMR_T_XTRIG 8 (Nat.succ_pos _) (by with_unfolding_all exact fun _ => rfl) _ _ _ (.inl (ClampFree.page Reg.TMR_T_XTRIG 8 _ (by with_unfolding_all exact fun _ => rfl) (by with_unfolding_all exact rfl) (Nat.succ_pos _) _)) ?_ ?_

theorem within_crossAct (s : State) (k : Nat) (hc : Scope.Le ⟨[.regs, .tmr, .field, .tun, .sto, .free, .obs], [one Reg.FLD_SYN_STATUS, one
    Reg.STO_HSTATUS, each Reg.TMR_T_CTRL 8], []⟩ cc) (h_s : Within cc ss s) : Within cc ss (State.crossAct s k) := by
  unfold State.crossAct
  with_reducible repeat' first
    | assumption | intro _ | with_unfolding_all exact Scope.Le.trans rfl hc | apply within_ite
    | apply within_setFld_of Reg.TMR_T_CTRL 8 (Nat.succ_pos _) (by with_unfolding_all exact fun _ => rfl) | apply within_modF
    | apply within_writeHcmd | apply within_askMeasure | apply within_roundSyn | apply within_runTimer | apply within_enTimer | split
    | dsimp only | apply within_with_tun

theorem within_crossTrigger (s : State) (k : Nat) (hc : Scope.Le ⟨[.regs, .tmr, .field, .tun, .sto, .free, .obs], [one Reg.FLD_SYN_STATUS,
    one Reg.STO_HSTATUS, one Reg.TMR_TRIG_STATUS, each Reg.TMR_T_CTRL 8], []⟩ cc) (h_s : Within cc ss s) : Within cc ss
    (State.crossTrigger s k) := by
  unfold State.crossTrigger
  with_reducible repeat' first
    | assumption | intro _ | with_unfolding_all exact Scope.Le.trans rfl hc | apply within_ite | apply within_bump Reg.TMR_TRIG_STATUS
    | apply within_postSec | apply within_crossAct

theorem within_timerHit (s : State) (k src : Nat) (hc : Scope.Le ⟨[.regs, .obs], [each Reg.TMR_T_STATUS 8], []⟩ cc) (h_s : Within cc ss s)
    : Within cc ss (State.timerHit s k src) := by
  unfold State.timerHit
  with_reducible repeat' first
    | assumption | intro _ | with_unfolding_all exact Scope.Le.trans rfl hc | apply within_ite
    | apply within_stick_of Reg.TMR_T_STATUS 8 (Nat.succ_pos _) (by with_unfolding_all exact fun _ => rfl) | apply within_postLimited

theorem within_compareHit (s : State) (k src : Nat) (f : Nat → Nat) (int : Nat) (hf : ∀ n, f n = f 0 + n % 8 * (f 1 - f 0))
    (hx : Scope.Le ⟨[.regs], [each f 8], []⟩ cc) (hc : Scope.Le ⟨[.regs, .obs], [each Reg.TMR_T_CMP0 8, each Reg.TMR_T_CMP1 8, each Reg.TMR_T_STATUS 8], []⟩ cc) (h_s : Within cc ss s) :
    Within cc ss (State.compareHit s k src (f k) int) := by
  unfold State.compareHit
  exact within_setReg_of f 8 (by decide) hf _ _ hx (within_timerHit _ _ _ (Scope.Le.trans rfl hc) h_s)

theorem within_tick (s : State) (k : Nat) (hc : Scope.Le ⟨[.regs, .tmr, .field, .tun, .sto, .free, .obs], [one Reg.FLD_SYN_STATUS, one
    Reg.STO_HSTATUS, one Reg.TMR_TRIG_STATUS, each Reg.TMR_T_CMP0 8, each Reg.TMR_T_CMP1 8, each Reg.TMR_T_COUNT 8, each Reg.TMR_T_CTRL 8,
    each Reg.TMR_T_STATUS 8], []⟩ cc) (h_s : Within cc ss s) : Within cc ss (State.tick s k) := by
  unfold State.tick
  with_reducible repeat' first
    | assumption | intro _ | with_unfolding_all exact Scope.Le.trans rfl hc | apply within_ite
    | apply within_setReg_of Reg.TMR_T_COUNT 8 (Nat.succ_pos _) (by with_unfolding_all exact fun _ => rfl) | apply within_crossTrigger
    | apply within_timerHit | dsimp only
    | refine within_compareHit _ _ _ Reg.TMR_T_CMP0 _ (by with_unfolding_all exact fun _ => rfl) ?_ ?_ ?_
    | refine within_compareHit _ _ _ Reg.TMR_T_CMP1 _ (by with_unfolding_all exact fun _ => rfl) ?_ ?_ ?_

theorem within_tickDue (s : State) (k : Nat) (hc : Scope.Le ⟨[.regs, .tmr, .field, .tun, .sto, .free] ++ passing, [one Reg.FLD_SYN_STATUS,
    one Reg.STO_HSTATUS, one Reg.TMR_TRIG_STATUS, each Reg.TMR_T_CMP0 8, each Reg.TMR_T_CMP1 8, each Reg.TMR_T_COUNT 8, each
    Reg.TMR_T_CTRL 8, each Reg.TMR_T_STATUS 8], [ringBytes]⟩ cc) (h_s : Within cc ss s) : Within cc ss (State.tickDue s k) := by
  unfold State.tickDue
  with_reducible repeat' first
    | assumption | intro _ | with_unfolding_all exact Scope.Le.trans rfl hc | apply within_setTimer | apply within_advance
    | apply within_tick | split

theorem within_modCapt (s : State) (k : Nat) (f : Capt → Capt) (hc : Scope.Le ⟨[.obs], [], []⟩ cc) (h_s : Within cc ss s) : Within cc ss
    (State.modCapt s k f) := by
  unfold State.modCapt
  with_reducible repeat' first | assumption | intro _ | with_unfolding_all exact Scope.Le.trans rfl hc | apply within_with_obs

theorem within_readCapt (s : State) (k : Nat) (hc : Scope.Le ⟨[.obs], [], []⟩ cc) (h_s : Within cc ss s) : Within cc ss (State.readCapt s
    k) := by
  unfold State.readCapt
  with_reducible repeat' first | assumption | intro _ | with_unfolding_all exact Scope.Le.trans rfl hc | apply within_modCapt

theorem within_setWall (s : State) (v : Nat) (hc : Scope.Le ⟨[.regs, .kpr, .obs], [one Reg.KPR_STATUS, one Reg.TMR_WALL_STATUS, one
    Reg.TMR_WT_OFS_HI, one Reg.TMR_WT_OFS_LO], []⟩ cc) (h_s : Within cc ss s) : Within cc ss (State.setWall s v) := by
  unfold State.setWall
  with_reducible repeat' first
    | assumption | intro _ | with_unfolding_all exact Scope.Le.trans rfl hc | apply within_setReg Reg.TMR_WT_OFS_LO
    | apply within_setReg Reg.TMR_WT_OFS_HI | apply within_setFld Reg.TMR_WALL_STATUS | apply within_setFld Reg.KPR_STATUS
    | apply within_bump Reg.TMR_WALL_STATUS | apply within_postEvent | apply within_invalidate

theorem within_crcStart (s : State) (c : Nat) (hc : Scope.Le ⟨[.crc], [], []⟩ cc) (h_s : Within cc ss s) : Within cc ss (State.crcStart s
    c) := by
  unfold State.crcStart
  with_reducible repeat' first
    | assumption | intro _ | with_unfolding_all exact Scope.Le.trans rfl hc | apply within_ite | apply within_setChan

theorem within_crcData (s : State) (c : Nat) (l : List Byte) (hc : Scope.Le ⟨[.crc], [], []⟩ cc) (h_s : Within cc ss s) : Within cc ss
    (State.crcData s c l) := by
  unfold State.crcData
  with_reducible repeat' first | assumption | intro _ | with_unfolding_all exact Scope.Le.trans rfl hc | apply within_setChan

theorem within_crcRange (s : State) (c : Nat) (bad : Bool) (hc : Scope.Le ⟨[.regs, .crc, .obs], [each Reg.CRC_CH_STATUS 4], []⟩ cc) (h_s :
    Within cc ss s) : Within cc ss (State.crcRange s c bad) := by
  unfold State.crcRange
  with_reducible repeat' first
    | assumption | intro _ | with_unfolding_all exact Scope.Le.trans rfl hc | apply within_ite
    | apply within_stick_of Reg.CRC_CH_STATUS 4 (Nat.succ_pos _) (by with_unfolding_all exact fun _ => rfl) | apply within_post
    | apply within_setChan

theorem within_writeCrcCmd (s : State) (c : Nat) (v : Word) (bad : Bool) (hc : Scope.Le ⟨[.regs, .crc, .obs], [each Reg.CRC_CH_STATUS 4],
    []⟩ cc) (h_s : Within cc ss s) : Within cc ss (State.writeCrcCmd s c v bad) := by
  unfold State.writeCrcCmd
  with_reducible repeat' first
    | assumption | intro _ | with_unfolding_all exact Scope.Le.trans rfl hc | apply within_ite | apply within_refuse
    | apply within_crcStart | apply within_crcRange

theorem within_writeCrcData (s : State) (c n : Nat) (v : Word) (hc : Scope.Le ⟨[.crc, .obs], [], []⟩ cc) (h_s : Within cc ss s) : Within
    cc ss (State.writeCrcData s c n v) := by
  unfold State.writeCrcData
  with_reducible repeat' first
    | assumption | intro _ | with_unfolding_all exact Scope.Le.trans rfl hc | apply within_ite | apply within_refuse
    | apply within_crcData

theorem within_takeFreeBytes (n : Nat) (s : State) (hc : Scope.Le ⟨[.free], [], []⟩ cc) (h_s : Within cc ss s) :
    Within cc ss (State.takeFreeBytes n s).1 := by
  induction n generalizing s with
  | zero => exact h_s
  | succ n ih => exact ih _ (within_takeFreeWord _ (Scope.Le.trans rfl hc) h_s)

theorem within_bootWrite (s : State) (a : Nat) (b : List Byte) (hc : Scope.Le ⟨[.cfg], [], []⟩ cc) (h_s : Within cc ss s) : Within cc ss
    (State.bootWrite s a b) := by
  unfold State.bootWrite
  with_reducible repeat' first | assumption | intro _ | with_unfolding_all exact Scope.Le.trans rfl hc | apply within_with_cfg

theorem within_bootSpoil (s : State) (op : BootOp) (a : Nat) (hc : Scope.Le ⟨[.cfg, .free], [], []⟩ cc) (h_s : Within cc ss s) : Within cc
    ss (State.bootSpoil s op a) := by
  unfold State.bootSpoil
  with_reducible repeat' first
    | assumption | intro _ | with_unfolding_all exact Scope.Le.trans rfl hc | apply within_takeFreeBytes | apply within_bootWrite | split

theorem within_cutBoot (s : State) (hc : Scope.Le ⟨[.cfg, .free], [], []⟩ cc) (h_s : Within cc ss s) : Within cc ss (State.cutBoot s) :=
    by
  unfold State.cutBoot
  with_reducible repeat' first | assumption | intro _ | with_unfolding_all exact Scope.Le.trans rfl hc | apply within_bootSpoil | split

theorem within_cutAuth (s : State) (hc : Scope.Le ⟨[.cfg, .free], [], []⟩ cc) (h_s : Within cc ss s) : Within cc ss (State.cutAuth s) :=
    by
  unfold State.cutAuth
  with_reducible repeat' first
    | assumption | intro _ | with_unfolding_all exact Scope.Le.trans rfl hc | apply within_ite | apply within_takeFreeBit | split
    | dsimp only | apply within_with_cfg

theorem within_cutCommit (s : State) (hc : Scope.Le ⟨[.kpr, .free], [], []⟩ cc) (h_s : Within cc ss s) : Within cc ss (State.cutCommit s)
    := by
  unfold State.cutCommit
  with_reducible repeat' first
    | assumption | intro _ | with_unfolding_all exact Scope.Le.trans rfl hc | apply within_ite | apply within_takeFreeBit | split
    | dsimp only | apply within_with_kpr

theorem within_cutLower (s : State) (hc : Scope.Le ⟨[.regs, .field, .pro, .cox, .free, .obs], [each Reg.COX_REG_CEIL 16, one
    Reg.COX_REG_GLOBAL, one Reg.COX_REG_TRIM, one Reg.FLD_DUTY, one Reg.FLD_FC_TRIM, one Reg.FLD_GUARD, each Reg.FLD_P_AMPL 16, each
    Reg.FLD_P_HUDDLE 16, each Reg.FLD_P_RELAY 16, one Reg.FLD_SYN_STATUS, each Reg.PRO_P_MODE_STATUS 16, each Reg.TUN_P_SNIFF 16] ++
    experts, []⟩ cc) (h_s : Within cc ss s) : Within cc ss (State.cutLower s) := by
  unfold State.cutLower
  with_reducible repeat' first
    | assumption | intro _ | with_unfolding_all exact Scope.Le.trans rfl hc | apply within_ite | apply within_takeFreeBit
    | apply within_setCox | apply within_applyLower | split

theorem within_cutNv (s : State) (hc : Scope.Le ⟨[.regs, .cfg, .field, .pro, .kpr, .cox, .free, .obs], [each Reg.COX_REG_CEIL 16, one
    Reg.COX_REG_GLOBAL, one Reg.COX_REG_TRIM, one Reg.FLD_DUTY, one Reg.FLD_FC_TRIM, one Reg.FLD_GUARD, each Reg.FLD_P_AMPL 16, each
    Reg.FLD_P_HUDDLE 16, each Reg.FLD_P_RELAY 16, one Reg.FLD_SYN_STATUS, each Reg.PRO_P_MODE_STATUS 16, each Reg.TUN_P_SNIFF 16] ++
    experts, []⟩ cc) (h_s : Within cc ss s) : Within cc ss (State.cutNv s) := by
  unfold State.cutNv
  with_reducible repeat' first
    | assumption | intro _ | with_unfolding_all exact Scope.Le.trans rfl hc | apply within_cutAuth | apply within_cutCommit
    | apply within_cutLower

end Sys2Proof.Machine
end

