-- ==== Sys2Proof/Laws/WithinWrites.lean ====
section
/-! SUPPORT. Host transactions, boot memory, authenticated commands and the start: each operation stays within a scope that names what it writes. -/

namespace Sys2Proof.Machine

variable {cc : Scope} {ss : State}
theorem within_traceSync (s : State) (hc : Scope.Le ⟨[.obs], [], []⟩ cc) (h_s : Within cc ss s) : Within cc ss (State.traceSync s) := by
  unfold State.traceSync
  with_reducible repeat' first | assumption | intro _ | with_unfolding_all exact Scope.Le.trans rfl hc | apply within_trace

theorem within_writeTraceCtrl (s : State) (v : Word) (hc : Scope.Le ⟨[.regs, .obs], [one Reg.TRC_TRACE_CTRL], []⟩ cc) (h_s : Within cc ss
    s) : Within cc ss (State.writeTraceCtrl s v) := by
  unfold State.writeTraceCtrl
  with_reducible repeat' first
    | assumption | intro _ | with_unfolding_all exact Scope.Le.trans rfl hc | apply within_ite
    | refine within_writeReg Reg.TRC_TRACE_CTRL _ _ (.inl (ClampFree.of (by with_unfolding_all exact rfl))) ?_ ?_ | apply within_setTrc
    | apply within_traceSync

theorem within_writeCntCmd (s : State) (v : Word) (hc : Scope.Le ⟨[.obs], [], []⟩ cc) (h_s : Within cc ss s) : Within cc ss
    (State.writeCntCmd s v) := by
  unfold State.writeCntCmd
  with_reducible repeat' first
    | assumption | intro _ | with_unfolding_all exact Scope.Le.trans rfl hc | apply within_ite | apply within_setTrc

theorem within_readCntLo (s : State) (i : Nat) (hc : Scope.Le ⟨[.obs], [], []⟩ cc) (h_s : Within cc ss s) : Within cc ss (State.readCntLo
    s i) := by
  unfold State.readCntLo
  with_reducible repeat' first | assumption | intro _ | with_unfolding_all exact Scope.Le.trans rfl hc | apply within_setTrc

theorem within_readCntHi (s : State) (i : Nat) (hc : Scope.Le ⟨[.obs], [], []⟩ cc) (h_s : Within cc ss s) : Within cc ss (State.readCntHi
    s i) := by
  unfold State.readCntHi
  with_reducible repeat' first | assumption | intro _ | with_unfolding_all exact Scope.Le.trans rfl hc | apply within_setTrc

theorem within_readCtxLow (s : State) (k : Nat) (isLast : Bool) (hc : Scope.Le ⟨[.hif], [], []⟩ cc) (h_s : Within cc ss s) : Within cc ss
    (State.readCtxLow s k isLast) := by
  unfold State.readCtxLow
  with_reducible repeat' first
    | assumption | intro _ | with_unfolding_all exact Scope.Le.trans rfl hc | apply within_ite | dsimp only | apply within_with_hif

theorem within_readCtxHigh (s : State) (a : Nat) (hc : Scope.Le ⟨[.hif], [], []⟩ cc) (h_s : Within cc ss s) : Within cc ss
    (State.readCtxHigh s a) := by
  unfold State.readCtxHigh
  with_reducible repeat' first
    | assumption | intro _ | with_unfolding_all exact Scope.Le.trans rfl hc | apply within_ite | apply within_with_hif

theorem within_setBootBuf (s : State) (ws : List Word) (hc : Scope.Le ⟨[.regs], [each Reg.CFG_BOOT_BUF 64], []⟩ cc) (h_s : Within cc ss s)
    : Within cc ss (State.setBootBuf s ws) := by
  unfold State.setBootBuf
  with_reducible repeat' first
    | assumption | intro _ | with_unfolding_all exact Scope.Le.trans rfl hc
    | apply within_setReg_of Reg.CFG_BOOT_BUF 64 (Nat.succ_pos _) (by with_unfolding_all exact fun _ => rfl) | apply within_each

theorem within_bootEnd (s : State) (result : Nat) (hc : Scope.Le ⟨[.regs, .obs], [one Reg.CFG_BOOT_BSTATUS], []⟩ cc) (h_s : Within cc ss
    s) : Within cc ss (State.bootEnd s result) := by
  unfold State.bootEnd
  with_reducible repeat' first
    | assumption | intro _ | with_unfolding_all exact Scope.Le.trans rfl hc | apply within_setFld Reg.CFG_BOOT_BSTATUS
    | apply within_stick Reg.CFG_BOOT_BSTATUS

theorem within_bootStart (s : State) (op : BootOp) (hc : Scope.Le ⟨[.regs, .cfg, .obs], [one Reg.CFG_BOOT_BSTATUS], []⟩ cc) (h_s : Within
    cc ss s) : Within cc ss (State.bootStart s op) := by
  unfold State.bootStart
  with_reducible repeat' first
    | assumption | intro _ | with_unfolding_all exact Scope.Le.trans rfl hc | apply within_ite | apply within_setFld Reg.CFG_BOOT_BSTATUS
    | apply within_bootEnd | dsimp only | apply within_with_cfg

theorem within_writeBootCmd (s : State) (v : Word) (hc : Scope.Le ⟨[.regs, .cfg, .obs], [one Reg.CFG_BOOT_BSTATUS], []⟩ cc) (h_s : Within
    cc ss s) : Within cc ss (State.writeBootCmd s v) := by
  unfold State.writeBootCmd
  with_reducible repeat' first | assumption | intro _ | with_unfolding_all exact Scope.Le.trans rfl hc | apply within_bootStart | split

theorem within_bootTake (s : State) (a : Nat) (hc : Scope.Le ⟨[.regs, .free], [each Reg.CFG_BOOT_BUF 64], []⟩ cc) (h_s : Within cc ss s) :
    Within cc ss (State.bootTake s a) := by
  unfold State.bootTake
  with_reducible repeat' first
    | assumption | intro _ | with_unfolding_all exact Scope.Le.trans rfl hc | apply within_ite | apply within_takeFreeBytes
    | apply within_setBootBuf

theorem within_bootProgram (s : State) (a : Nat) (l : List Byte) (hc : Scope.Le ⟨[.cfg], [], []⟩ cc) (h_s : Within cc ss s) : Within cc ss
    (State.bootProgram s a l).1 := by
  unfold State.bootProgram
  with_reducible repeat' first
    | assumption | intro _ | with_unfolding_all exact Scope.Le.trans rfl hc | apply within_ite | apply within_bootWrite

theorem within_writeCopy (s : State) (c gen : Nat) (bodies : List (List Byte)) (hc : Scope.Le ⟨[.cfg], [], []⟩ cc) (h_s : Within cc ss s)
    : Within cc ss (State.writeCopy s c gen bodies) := by
  unfold State.writeCopy
  with_reducible repeat' first | assumption | intro _ | with_unfolding_all exact Scope.Le.trans rfl hc | apply within_bootWrite

theorem within_compactCut (s : State) (hc : Scope.Le ⟨[.cfg, .free], [], []⟩ cc) (h_s : Within cc ss s) : Within cc ss (State.compactCut
    s) := by
  unfold State.compactCut
  with_reducible repeat' first
    | assumption | intro _ | with_unfolding_all exact Scope.Le.trans rfl hc | apply within_ite | apply within_takeFreeWord
    | apply within_bootWrite | apply within_writeCopy

theorem within_compact (s : State) (hc : Scope.Le ⟨[.cfg], [], []⟩ cc) (h_s : Within cc ss s) : Within cc ss (State.compact s) := by
  unfold State.compact
  with_reducible repeat' first | assumption | intro _ | with_unfolding_all exact Scope.Le.trans rfl hc | apply within_writeCopy

theorem within_retirePlace (s : State) (hc : Scope.Le ⟨[.cfg], [], []⟩ cc) (h_s : Within cc ss s) : Within cc ss (State.retirePlace s).1
    := by
  unfold State.retirePlace
  with_reducible repeat' first
    | assumption | intro _ | with_unfolding_all exact Scope.Le.trans rfl hc | apply within_ite | apply within_compact

theorem within_retireFirst (s : State) (k ver counter : Nat) (hc : Scope.Le ⟨[.cfg], [], []⟩ cc) (h_s : Within cc ss s) : Within cc ss
    (State.retireFirst s k ver counter) := by
  unfold State.retireFirst
  with_reducible repeat' first
    | assumption | intro _ | with_unfolding_all exact Scope.Le.trans rfl hc | apply within_bootWrite | apply within_retirePlace

theorem within_retire (s : State) (k ver counter : Nat) (good : Bool) (hc : Scope.Le ⟨[.regs, .cfg, .free, .obs], [one
    Reg.CFG_KEY_STATUS], []⟩ cc) (h_s : Within cc ss s) : Within cc ss (State.retire s k ver counter good) := by
  unfold State.retire
  with_reducible repeat' first
    | assumption | intro _ | with_unfolding_all exact Scope.Le.trans rfl hc | apply within_ite | apply within_setFld Reg.CFG_KEY_STATUS
    | apply within_post | apply within_takeFreeBytes | apply within_bootWrite | apply within_retirePlace | apply within_retireFirst

theorem within_authFail (s : State) (result : Nat) (hc : Scope.Le ⟨[.regs, .obs], [one Reg.CFG_AUTH_FAILS] ++ authRegs, []⟩ cc) (h_s :
    Within cc ss s) : Within cc ss (State.authFail s result) := by
  unfold State.authFail
  with_reducible repeat' first
    | assumption | intro _ | with_unfolding_all exact Scope.Le.trans rfl hc | apply within_bump Reg.CFG_AUTH_FAILS | apply within_count
    | apply within_postSecCount | apply within_authResult

theorem within_authCheck (s0 : State) (l : List Byte) (hc : Scope.Le ⟨[.regs, .cfg, .obs], [one Reg.CFG_AUTH_FAILS] ++ authRegs, []⟩ cc)
    (h_s0 : Within cc ss s0) : Within cc ss (State.authCheck s0 l) := by
  unfold State.authCheck
  with_reducible repeat' first
    | assumption | intro _ | with_unfolding_all exact Scope.Le.trans rfl hc | apply within_ite | apply within_setFld Reg.CFG_AUTH_STATUS
    | apply within_authResult | apply within_authFail | dsimp only | apply within_with_cfg

theorem within_setCounter (s : State) (n : Nat) (hc : Scope.Le ⟨[.regs, .cfg], [one Reg.CFG_AUTH_COUNTER], []⟩ cc) (h_s : Within cc ss s)
    : Within cc ss (State.setCounter s n) := by
  unfold State.setCounter
  with_reducible repeat' first
    | assumption | intro _ | with_unfolding_all exact Scope.Le.trans rfl hc | apply within_setReg Reg.CFG_AUTH_COUNTER
    | apply within_with_cfg

theorem within_zeroed (s : State) (ok : Bool) (hc : Scope.Le ⟨[.regs, .cfg, .free, .obs], [one Reg.CFG_AUTH_COUNTER, one
    Reg.CFG_KEY_STATUS], []⟩ cc) (h_s : Within cc ss s) : Within cc ss (State.zeroed s ok) := by
  unfold State.zeroed
  with_reducible repeat' first
    | assumption | intro _ | with_unfolding_all exact Scope.Le.trans rfl hc | apply within_ite | apply within_setFld Reg.CFG_KEY_STATUS
    | apply within_post | apply within_takeFreeBit | apply within_setCounter | split | dsimp only | apply within_with_cfg

theorem within_showKey (s : State) (hc : Scope.Le ⟨[.regs], [one Reg.CFG_KEY_STATUS], []⟩ cc) (h_s : Within cc ss s) : Within cc ss
    (State.showKey s) := by
  unfold State.showKey
  with_reducible repeat' first
    | assumption | intro _ | with_unfolding_all exact Scope.Le.trans rfl hc | apply within_setFld Reg.CFG_KEY_STATUS | split

theorem within_nvFail (s : State) (hc : Scope.Le ⟨[.regs, .obs], [one Reg.CFG_KEY_STATUS], []⟩ cc) (h_s : Within cc ss s) : Within cc ss
    (State.nvFail s) := by
  unfold State.nvFail
  with_reducible repeat' first
    | assumption | intro _ | with_unfolding_all exact Scope.Le.trans rfl hc | apply within_setFld Reg.CFG_KEY_STATUS | apply within_post

theorem within_setKeys (s : State) (primary backup : KeyCopy) (hc : Scope.Le ⟨[.cfg], [], []⟩ cc) (h_s : Within cc ss s) : Within cc ss
    (State.setKeys s primary backup) := by
  unfold State.setKeys
  with_reducible repeat' first | assumption | intro _ | with_unfolding_all exact Scope.Le.trans rfl hc | apply within_with_cfg

theorem within_writePhaseCtrl (s : State) (v : Word) (hc : Scope.Le ⟨[.regs, .gen, .pwr, .field, .rxe, .pro, .sess, .emu, .cox, .free,
    .obs], [one Reg.GEN_PHASE_CTRL, each Reg.RXE_P_CANCEL_STATUS 16, each Reg.RXE_P_FRONT 16] ++ phaseRegs, []⟩ cc) (h_s : Within cc ss s)
    : Within cc ss (State.writePhaseCtrl s v) := by
  unfold State.writePhaseCtrl
  with_reducible repeat' first
    | assumption | intro _ | with_unfolding_all exact Scope.Le.trans rfl hc | apply within_ite
    | refine within_writeReg Reg.GEN_PHASE_CTRL _ _ (.inl (ClampFree.of (by with_unfolding_all exact rfl))) ?_ ?_ | apply within_recover
    | split

theorem within_writeTestCtrl (s : State) (v : Word) (hc : Scope.Le ⟨[.regs, .field, .pro, .sess, .cox, .obs], [one Reg.GEN_TEST_CTRL], []⟩
    cc) (h_s : Within cc ss s) : Within cc ss (State.writeTestCtrl s v) := by
  unfold State.writeTestCtrl
  with_reducible repeat' first
    | assumption | intro _ | with_unfolding_all exact Scope.Le.trans rfl hc | apply within_ite
    | refine within_writeReg Reg.GEN_TEST_CTRL _ _ (.inl (ClampFree.of (by with_unfolding_all exact rfl))) ?_ ?_ | apply within_parkLists
    | apply within_allOff

theorem within_writeRxeCmd (s : State) (n : Nat) (v : Word) (hc : Scope.Le ⟨[.regs], [each Reg.ACD_P_NOISE4 16, each Reg.RXE_P_COUNTS 16,
    each Reg.RXE_P_NOISE 16, each Reg.RXE_P_NOISE_EXT 16], []⟩ cc) (h_s : Within cc ss s) : Within cc ss (State.writeRxeCmd s n v) := by
  unfold State.writeRxeCmd
  with_reducible repeat' first
    | assumption | intro _ | with_unfolding_all exact Scope.Le.trans rfl hc | apply within_ite | apply within_clearCounts
    | apply within_clearNoise

theorem within_writeProCmd (s : State) (n : Nat) (v : Word) (hc : Scope.Le ⟨[.regs, .que, .hif, .pro, .free, .obs], exchangeRegs ++
    queueRegs, []⟩ cc) (h_s : Within cc ss s) : Within cc ss (State.writeProCmd s n v) := by
  unfold State.writeProCmd
  with_reducible repeat' first
    | assumption | intro _ | with_unfolding_all exact Scope.Le.trans rfl hc | apply within_ite | apply within_flushTx
    | apply within_endHold

theorem within_writeEvqStatus (s : State) (v : Word) (hc : Scope.Le ⟨[.obs], [], []⟩ cc) (h_s : Within cc ss s) : Within cc ss
    (State.writeEvqStatus s v) := by
  unfold State.writeEvqStatus
  with_reducible repeat' first
    | assumption | intro _ | with_unfolding_all exact Scope.Le.trans rfl hc | apply within_ite | apply within_setEvq

theorem within_writeEvqWm (s : State) (v : Word) (hc : Scope.Le ⟨[.regs, .obs], [one Reg.QUE_EVQ_WM], []⟩ cc) (h_s : Within cc ss s) :
    Within cc ss (State.writeEvqWm s v) := by
  unfold State.writeEvqWm
  with_reducible repeat' first
    | assumption | intro _ | with_unfolding_all exact Scope.Le.trans rfl hc | apply within_ite
    | refine within_writeReg Reg.QUE_EVQ_WM _ _ (.inl (ClampFree.of (by with_unfolding_all exact rfl))) ?_ ?_ | apply within_setEvq

theorem within_writeWmStatus (s : State) (n : Nat) (v : Word) (hc : Scope.Le ⟨[.regs, .obs], [each Reg.QUE_P_WM_STATUS 16], []⟩ cc) (h_s :
    Within cc ss s) : Within cc ss (State.writeWmStatus s n v) := by
  unfold State.writeWmStatus
  with_reducible repeat' first
    | assumption | intro _ | with_unfolding_all exact Scope.Le.trans rfl hc | apply within_ite
    | refine within_writeReg_of Reg.QUE_P_WM_STATUS 16 (Nat.succ_pos _) (by with_unfolding_all exact fun _ => rfl) _ _ _ (.inl (ClampFree.page Reg.QUE_P_WM_STATUS 16 _ (by with_unfolding_all exact fun _ => rfl) (by with_unfolding_all exact rfl) (Nat.succ_pos _) _)) ?_ ?_
    | apply within_modWm

theorem within_mendTpl (s : State) (hc : Scope.Le ⟨[.regs], [each Reg.TUN_TPL_CTRL 4, each Reg.TUN_TPL_FMT 4], []⟩ cc) (h_s : Within cc ss
    s) : Within cc ss (State.mendTpl s) := by
  unfold State.mendTpl
  with_reducible repeat' first
    | assumption | intro _ | with_unfolding_all exact Scope.Le.trans rfl hc | apply within_ite
    | apply within_setReg_of Reg.TUN_TPL_FMT 4 (Nat.succ_pos _) (by with_unfolding_all exact fun _ => rfl)
    | apply within_setReg_of Reg.TUN_TPL_CTRL 4 (Nat.succ_pos _) (by with_unfolding_all exact fun _ => rfl) | apply within_each

theorem within_hifError (s : State) (bit cnt : Field) (code : Nat) (note : Note) (op addr : Nat) (hc : Scope.Le ⟨[.regs, .obs],
    hostErrRegs, []⟩ cc) (h_s : Within cc ss s) : Within cc ss (State.hifError s bit cnt code note op addr) := by
  unfold State.hifError
  with_reducible repeat' first
    | assumption | intro _ | with_unfolding_all exact Scope.Le.trans rfl hc | apply within_stick Reg.HIF_STATUS
    | apply within_bump Reg.HIF_ERR_COUNTS | apply within_setReg Reg.HIF_LAST_ERR | apply within_post

theorem within_hostEnded (s : State) (hc : Scope.Le ⟨[.pins, .obs], [], []⟩ cc) (h_s : Within cc ss s) : Within cc ss (State.hostEnded s)
    := by
  unfold State.hostEnded
  with_reducible repeat' first
    | assumption | intro _ | with_unfolding_all exact Scope.Le.trans rfl hc | apply within_count | apply within_with_pins

theorem within_badCmd (s : State) (op addr : Nat) (hc : Scope.Le ⟨[.regs, .pins, .obs], hostErrRegs, []⟩ cc) (h_s : Within cc ss s) :
    Within cc ss (State.badCmd s op addr) := by
  unfold State.badCmd
  with_reducible repeat' first
    | assumption | intro _ | with_unfolding_all exact Scope.Le.trans rfl hc | apply within_hifError | apply within_hostEnded

theorem within_dropWaiting (s : State) (hc : Scope.Le ⟨[.hif, .emu], [], []⟩ cc) (h_s : Within cc ss s) : Within cc ss (State.dropWaiting
    s) := by
  unfold State.dropWaiting
  with_reducible repeat' first
    | assumption | intro _ | with_unfolding_all exact Scope.Le.trans rfl hc | apply within_ite | apply within_with_hif_emu

theorem within_hostEnding (s : State) (ending : TxEnd) (op addr : Nat) (hc : Scope.Le ⟨[.regs, .hif, .emu, .pins, .obs], hostErrRegs, []⟩
    cc) (h_s : Within cc ss s) : Within cc ss (State.hostEnding s ending op addr) := by
  unfold State.hostEnding
  with_reducible repeat' first
    | assumption | intro _ | with_unfolding_all exact Scope.Le.trans rfl hc | apply within_ite | apply within_hifError
    | apply within_hostEnded | apply within_dropWaiting | split

theorem within_noteUnmapped (s : State) (n a : Nat) (hc : Scope.Le ⟨[.obs], [], []⟩ cc) (h_s : Within cc ss s) : Within cc ss
    (State.noteUnmapped s n a) := by
  unfold State.noteUnmapped
  with_reducible repeat' first
    | assumption | intro _ | with_unfolding_all exact Scope.Le.trans rfl hc | apply within_ite | apply within_post

theorem within_readSide (s : State) (a : Nat) (hc : Scope.Le ⟨[.hif, .obs], [], []⟩ cc) (h_s : Within cc ss s) : Within cc ss
    (State.readSide s a) := by
  unfold State.readSide
  with_reducible repeat' first
    | assumption | intro _ | with_unfolding_all exact Scope.Le.trans rfl hc | apply within_ite | apply within_readCapt
    | apply within_readCntLo | apply within_readCntHi | apply within_readCtxLow | apply within_readCtxHigh

theorem within_spoiltRead (s : State) (a : Nat) (hc : Scope.Le ⟨[.obs], [], []⟩ cc) (h_s : Within cc ss s) : Within cc ss
    (State.spoiltRead s a) := by
  unfold State.spoiltRead
  with_reducible repeat' first
    | assumption | intro _ | with_unfolding_all exact Scope.Le.trans rfl hc | apply within_ite | apply within_retireLine

theorem within_hostRead (bad : List Bool) (s : State) (a : Nat) (hc : Scope.Le ⟨[.regs, .que, .hif, .obs], [one Reg.QUE_EVQ_TAG, each Reg.QUE_P_RX_TAG 16, each Reg.QUE_P_WM_STATUS 16] ++ queueRegs, []⟩ cc) (h_s : Within cc ss s) :
    Within cc ss (State.hostRead bad s a).1 := by
  unfold State.hostRead
  split
  · exact within_popRx _ _ _ (Scope.Le.trans rfl hc) h_s
  · split
    · exact within_popEvq _ _ _ (Scope.Le.trans rfl hc) h_s
    · split
      · exact within_spoiltRead _ _ (Scope.Le.trans rfl hc) h_s
      · exact within_readSide _ _ (Scope.Le.trans rfl hc) h_s

theorem within_hostReads (k : Nat) (bad : List Bool) (a : Nat) (s : State) (hc : Scope.Le ⟨[.regs, .que, .hif, .obs], [one Reg.QUE_EVQ_TAG, each Reg.QUE_P_RX_TAG 16, each Reg.QUE_P_WM_STATUS 16] ++ queueRegs, []⟩ cc) (h_s : Within cc ss s) :
    Within cc ss (State.hostReads k bad a s).1 := by
  induction k generalizing bad a s with
  | zero => exact h_s
  | succ k ih => exact ih _ _ _ (within_hostRead _ _ _ (Scope.Le.trans rfl hc) h_s)

theorem within_returned (r : State × List Word) (ending : TxEnd) (n : Nat) (hc : Scope.Le ⟨[.hif, .obs], [], []⟩ cc) (h_r : Within cc ss r.1) :
    Within cc ss (State.returned r ending n) := by
  unfold State.returned
  exact within_setOut _ _ (Scope.Le.trans rfl hc) (within_countBy (Scope.Le.trans rfl hc) h_r _ _)

theorem within_popsRx (port k : Nat) (bad : List Bool) (s : State) (hc : Scope.Le ⟨[.regs, .que, .obs], [each Reg.QUE_P_RX_TAG 16, each Reg.QUE_P_WM_STATUS 16] ++ queueRegs, []⟩ cc) (h_s : Within cc ss s) :
    Within cc ss (State.popsRx port k bad s).1 := by
  induction k generalizing bad s with
  | zero => exact h_s
  | succ k ih => exact ih _ _ (within_popRx _ _ _ (Scope.Le.trans rfl hc) h_s)

theorem within_popsEvq (k : Nat) (bad : List Bool) (b : Bool) (s : State) (hc : Scope.Le ⟨[.regs, .obs], [one Reg.QUE_EVQ_TAG, one Reg.QUE_POISONS], []⟩ cc) (h_s : Within cc ss s) :
    Within cc ss (State.popsEvq k bad b s).1 := by
  induction k generalizing bad b s with
  | zero => exact h_s
  | succ k ih =>
    cases b with
    | false =>
      exact ih _ _ _ (within_evqMove _ (Scope.Le.trans rfl hc) (within_popEvq _ _ _ (Scope.Le.trans rfl hc) h_s))
    | true => exact ih _ _ _ h_s

theorem within_startPins (s : State) (env : StartEnv) (hc : Scope.Le ⟨[.time, .regs, .pwr, .emu, .cox, .pins, .free], [one
    Reg.PWR_CLK_STATUS, one Reg.PWR_SUPPLY, one Reg.SAF_STATUS], []⟩ cc) (h_s : Within cc ss s) : Within cc ss (State.startPins s env) :=
    by
  unfold State.startPins
  with_reducible repeat' first
    | assumption | intro _ | with_unfolding_all exact Scope.Le.trans rfl hc | apply within_ite | apply within_setFld Reg.SAF_STATUS
    | apply within_setFld Reg.PWR_SUPPLY | apply within_reset | apply within_setClocks | apply within_setCox | apply within_emuDown
    | dsimp only | apply within_with_time_pwr_pins

theorem within_loadCfg (s : State) (hc : Scope.Le ⟨[.regs, .cfg, .obs], [one Reg.CFG_AUTH_COUNTER, one Reg.CFG_BOOT_STATUS, one
    Reg.CFG_DEVICE_UID_HI, one Reg.CFG_DEVICE_UID_LO, one Reg.CFG_KEY_STATUS], []⟩ cc) (h_s : Within cc ss s) : Within cc ss
    (State.loadCfg s) := by
  unfold State.loadCfg
  with_reducible repeat' first
    | assumption | intro _ | with_unfolding_all exact Scope.Le.trans rfl hc | apply within_ite | apply within_setReg Reg.CFG_DEVICE_UID_LO
    | apply within_setReg Reg.CFG_DEVICE_UID_HI | apply within_setFld Reg.CFG_BOOT_STATUS | apply within_post | apply within_setCounter
    | apply within_showKey | dsimp only | apply within_with_cfg

theorem within_setReason (s : State) (k reason : Nat) (hc : Scope.Le ⟨[.regs], [one Reg.CFG_BOOT_STATUS], []⟩ cc) (h_s : Within cc ss s) :
    Within cc ss (State.setReason s k reason) := by
  unfold State.setReason
  with_reducible repeat' first
    | assumption | intro _ | with_unfolding_all exact Scope.Le.trans rfl hc | apply within_ite | apply within_setFld Reg.CFG_BOOT_STATUS

theorem within_trySlots (l : List Nat) (s : State) (hc : Scope.Le ⟨[.regs, .obs], [one Reg.CFG_BOOT_STATUS], []⟩ cc) (h_s : Within cc ss s) :
    Within cc ss (State.trySlots l s).1 := by
  induction l generalizing s with
  | nil => exact h_s
  | cons k t ih =>
    unfold State.trySlots
    dsimp only
    have a := within_setReason s k (s.slotRecords k).1 (Scope.Le.trans rfl hc) h_s
    split
    · exact a
    · have b := within_post (Scope.Le.trans rfl hc) a 0xE002 .heart (k + 0x100 * (s.slotRecords k).1)
      exact ih _ (within_ite b (within_post (Scope.Le.trans rfl hc)
        (within_setFld _ _ _ (Scope.Le.trans rfl hc) b) _ _ _))

theorem within_safeBootIn (s : State) (hc : Scope.Le ⟨[.regs, .gen, .obs], [one Reg.CFG_BOOT_STATUS], []⟩ cc) (h_s : Within cc ss s) :
    Within cc ss (State.safeBootIn s) := by
  unfold State.safeBootIn
  with_reducible repeat' first
    | assumption | intro _ | with_unfolding_all exact Scope.Le.trans rfl hc | apply within_setFld Reg.CFG_BOOT_STATUS | apply within_post
    | dsimp only | apply within_with_gen

theorem within_lockInForce (s : State) (l : List Word) (hc : Scope.Le ⟨[.regs, .field, .pro, .obs], [each Reg.COX_REG_CEIL 16, one
    Reg.COX_REG_GLOBAL, one Reg.COX_REG_STATUS, one Reg.COX_REG_TRIM, one Reg.FLD_DUTY, one Reg.FLD_FC_TRIM, one Reg.FLD_GUARD, each
    Reg.FLD_P_AMPL 16, each Reg.FLD_P_RELAY 16, one Reg.FLD_SYN_STATUS, each Reg.TUN_P_SNIFF 16] ++ experts, []⟩ cc) (h_s : Within cc ss
    s) : Within cc ss (State.lockInForce s l) := by
  unfold State.lockInForce
  with_reducible repeat' first
    | assumption | intro _ | with_unfolding_all exact Scope.Le.trans rfl hc | apply within_ite | apply within_setFld Reg.COX_REG_STATUS
    | apply within_setFld Reg.FLD_DUTY | apply within_modF | apply within_clampCheck | apply within_retrim | apply within_loadReg
    | apply within_each

theorem within_sealLock (s : State) (record : Option (List Byte)) (nvOk : Bool) (hc : Scope.Le ⟨[.regs, .field, .pro, .cox, .obs], [each
    Reg.COX_REG_CEIL 16, one Reg.COX_REG_GLOBAL, one Reg.COX_REG_STATUS, one Reg.COX_REG_TRIM, one Reg.FLD_DUTY, one Reg.FLD_FC_TRIM, one
    Reg.FLD_GUARD, each Reg.FLD_P_AMPL 16, each Reg.FLD_P_RELAY 16, one Reg.FLD_SYN_STATUS, each Reg.TUN_P_SNIFF 16] ++ experts, []⟩ cc)
    (h_s : Within cc ss s) : Within cc ss (State.sealLock s record nvOk) := by
  unfold State.sealLock
  with_reducible repeat' first
    | assumption | intro _ | with_unfolding_all exact Scope.Le.trans rfl hc | apply within_ite | apply within_post | apply within_setCox
    | apply within_lockInForce | split

theorem within_sendStart (s : State) (n : Nat) (back : Word × Word) (hc : Scope.Le ⟨[.regs, .tun, .obs], [one Reg.TUN_LINK_STATUS], []⟩
    cc) (h_s : Within cc ss s) : Within cc ss (State.sendStart s n back) := by
  unfold State.sendStart
  with_reducible repeat' first
    | assumption | intro _ | with_unfolding_all exact Scope.Le.trans rfl hc | apply within_ite | apply within_stick Reg.TUN_LINK_STATUS
    | apply within_post | dsimp only | apply within_with_tun

theorem within_sendCodes (s : State) (back : List (Word × Word)) (hc : Scope.Le ⟨[.regs, .tun, .obs], [one Reg.TUN_LINK_STATUS], []⟩ cc)
    (h_s : Within cc ss s) : Within cc ss (State.sendCodes s back) := by
  unfold State.sendCodes
  with_reducible repeat' first
    | assumption | intro _ | with_unfolding_all exact Scope.Le.trans rfl hc | apply within_sendStart | apply within_foldl

theorem within_meetNeighbours (s : State) (hc : Scope.Le ⟨[.field, .obs], [], []⟩ cc) (h_s : Within cc ss s) : Within cc ss
    (State.meetNeighbours s) := by
  unfold State.meetNeighbours
  with_reducible repeat' first
    | assumption | intro _ | with_unfolding_all exact Scope.Le.trans rfl hc | apply within_ite | apply within_post | apply within_each
    | dsimp only | apply within_with_field

theorem within_prepareAerials (s : State) (env : StartEnv) (hc : Scope.Le ⟨[.regs, .field, .tun, .rxe, .obs], [each Reg.FLD_COUPLE 256,
    each Reg.FLD_P_NEIGH 16, one Reg.FLD_SYN_STATUS, one Reg.FLD_WARMUP_STATUS, one Reg.TUN_LINK_STATUS], []⟩ cc) (h_s : Within cc ss s) :
    Within cc ss (State.prepareAerials s env) := by
  unfold State.prepareAerials
  with_reducible repeat' first
    | assumption | intro _ | with_unfolding_all exact Scope.Le.trans rfl hc | apply within_setFld Reg.FLD_SYN_STATUS | apply within_modF
    | apply within_setColumn | apply within_deriveNeigh | apply within_judgeMeasured | apply within_sendCodes
    | apply within_meetNeighbours | apply within_each | dsimp only | apply within_with_field

theorem within_selfTest (s : State) (env : StartEnv) (hc : Scope.Le ⟨[.regs], [one Reg.SAF_STATUS], []⟩ cc) (h_s : Within cc ss s) :
    Within cc ss (State.selfTest s env) := by
  unfold State.selfTest
  with_reducible repeat' first
    | assumption | intro _ | with_unfolding_all exact Scope.Le.trans rfl hc | apply within_setFld Reg.SAF_STATUS

theorem within_rolesIn (s : State) (hc : Scope.Le ⟨[.regs, .field, .saf], [each Reg.PRO_P_MODE_STATUS 16], []⟩ cc) (h_s : Within cc ss s)
    : Within cc ss (State.rolesIn s) := by
  unfold State.rolesIn
  with_reducible repeat' first
    | assumption | intro _ | with_unfolding_all exact Scope.Le.trans rfl hc | apply within_ite
    | apply within_setFld_of Reg.PRO_P_MODE_STATUS 16 (Nat.succ_pos _) (by with_unfolding_all exact fun _ => rfl) | apply within_modF
    | apply within_setSaf | apply within_each

theorem within_startRun (s : State) (env : StartEnv) (hc : Scope.Le ⟨[.regs, .gen, .pwr, .field, .rxe, .pro, .sess, .kpr, .emu, .cox,
    .saf, .free, .obs], [one Reg.CFG_BOOT_TIME, each Reg.RXE_P_CANCEL_STATUS 16, each Reg.RXE_P_FRONT 16, one Reg.SAF_LOCK, one
    Reg.SAF_STATUS] ++ phaseRegs, []⟩ cc) (h_s : Within cc ss s) : Within cc ss (State.startRun s env) := by
  unfold State.startRun
  with_reducible repeat' first
    | assumption | intro _ | with_unfolding_all exact Scope.Le.trans rfl hc | apply within_ite | apply within_setFld Reg.CFG_BOOT_TIME
    | apply within_listenTarget | apply within_toRun | apply within_each | dsimp only | apply within_with_field

theorem within_freeColumns (s : State) (hc : Scope.Le ⟨[.regs, .rxe, .free], [each Reg.FLD_COUPLE 256, each Reg.FLD_P_NEIGH 16], []⟩ cc)
    (h_s : Within cc ss s) : Within cc ss (State.freeColumns s) := by
  unfold State.freeColumns
  with_reducible repeat' first
    | assumption | intro _ | with_unfolding_all exact Scope.Le.trans rfl hc | apply within_ite | apply within_setColumn
    | apply within_deriveNeigh | apply within_takeFreeBytes | apply within_each

theorem within_freeVectors (s : State) (hc : Scope.Le ⟨[.regs, .field, .tun, .free, .obs], [one Reg.TUN_MISMATCH_STATUS, each
    Reg.TUN_P_REF 16, each Reg.TUN_P_STATUS 16, each Reg.TUN_P_VEC 16], []⟩ cc) (h_s : Within cc ss s) : Within cc ss (State.freeVectors
    s) := by
  unfold State.freeVectors
  with_reducible repeat' first
    | assumption | intro _ | with_unfolding_all exact Scope.Le.trans rfl hc | apply within_ite | apply within_takeFreeWord
    | apply within_measureVec | apply within_each

theorem within_freeWeights (s : State) (hc : Scope.Le ⟨[.rxe, .free], [], []⟩ cc) (h_s : Within cc ss s) : Within cc ss (State.freeWeights
    s) := by
  unfold State.freeWeights
  with_reducible repeat' first
    | assumption | intro _ | with_unfolding_all exact Scope.Le.trans rfl hc | apply within_ite | apply within_modR
    | apply within_takeFreeBytes | apply within_each

theorem within_warm (s : State) (n steps : Nat) (hc : Scope.Le ⟨[.field], [], []⟩ cc) (h_s : Within cc ss s) : Within cc ss (State.warm s
    n steps) := by
  unfold State.warm
  with_reducible repeat' first
    | assumption | intro _ | with_unfolding_all exact Scope.Le.trans rfl hc | apply within_ite | apply within_modF

theorem within_recovered (s0 : State) (hc : Scope.Le ⟨[.regs, .field, .tun, .rxe, .free] ++ passing, [each Reg.FLD_COUPLE 256, each
    Reg.FLD_P_NEIGH 16, one Reg.STO_STATUS, one Reg.TUN_MISMATCH_STATUS, each Reg.TUN_P_REF 16, each Reg.TUN_P_STATUS 16, each
    Reg.TUN_P_VEC 16], [ringBytes]⟩ cc) (h_s0 : Within cc ss s0) : Within cc ss (State.recovered s0) := by
  unfold State.recovered
  with_reducible repeat' first
    | assumption | intro _ | with_unfolding_all exact Scope.Le.trans rfl hc | apply within_ite | apply within_setFld Reg.STO_STATUS
    | apply within_advance | apply within_freeColumns | apply within_freeVectors | apply within_freeWeights | apply within_warm
    | apply within_each | split | dsimp only

end Sys2Proof.Machine
end

