-- ==== Sys2Proof/Laws/WithinExec.lean ====
section
/-! SUPPORT. Each command stays within the scope that the tables of `Machine/Touch` give it. -/

namespace Sys2Proof.Machine

/-- A command answers a next state, changed within a scope and closed. -/
def Stays (c : Scope) (s : State) (o : Out) : Prop := ∃ u, o = .next (finish s u) ∧ Within c s u

section
variable {i : Instr} {c : Scope} {s t : State} {f : State → State}

theorem does_stays {o : Out} (e : exec i s = o) (h : Stays c s o) : Does i s (Within c s) := by
  rw [Does, e]
  exact h

theorem stays_done (h : Scope.Le c c → Within c s s → Within c s t) : Stays c s (done s t) := ⟨t, rfl, h (Scope.Le.refl c) (Within.refl c s)⟩
theorem stays_coreAll (h : Scope.Le c c → Within c s s → Within c s (f s)) : Stays c s (s.coreAll f) := stays_done fun hc hs => within_ite (h hc hs) hs
theorem stays_core (h : Scope.Le c c → Within c s s → Within c s (f s)) : Stays c s (s.core f) := stays_done fun hc hs => within_ite (h hc hs) hs
theorem stays_slow (h : Scope.Le c c → Within c s s → Within c s (f s)) : Stays c s (s.slow f) := stays_done fun hc hs => within_ite (h hc hs) hs
theorem stays_mon (h : Scope.Le c c → Within c s s → Within c s (f s)) : Stays c s (s.mon f) := stays_done fun hc hs => within_ite hs (h hc hs)
theorem stays_host (h : Scope.Le c c → Within c s s → Within c s (f s)) : Stays c s (s.host f) := stays_coreAll fun hc hs => within_ite (h hc hs) hs
theorem stays_sniffing (h : Scope.Le c c → Within c s s → Within c s (f s)) : Stays c s (s.sniffing f) := stays_done fun hc hs => within_ite (h hc hs) hs
theorem stays_tagFrame (h : Scope.Le c c → Within c s s → Within c s (f s)) : Stays c s (s.tagFrame f) := stays_done fun hc hs => within_ite (h hc hs) hs

end

/-! ### touchHost -/

theorem touch_read (quad : Bool) (addr : BitVec 24) (words : Nat) (ending : TxEnd) (bad : List Bool) (s : State) (k : Scope) (hk :
    touchHost (.read quad addr words ending bad) = some k) : Does (.read quad addr words ending bad) s (Within k s) := by
  cases hk
  refine does_stays (o := execRead quad addr words ending bad s) rfl ?_
  unfold execRead
  refine stays_host fun hc h_s => ?_
  try dsimp only
  with_reducible repeat' first
    | assumption | intro _ | with_unfolding_all exact Scope.Le.trans rfl hc | apply within_ite | apply within_hostEnding
    | apply within_noteUnmapped | apply within_hostReads | apply within_returned

theorem touch_readStatus (quad : Bool) (words : Nat) (ending : TxEnd) (s : State) (k : Scope) (hk : touchHost (.readStatus quad words
    ending) = some k) : Does (.readStatus quad words ending) s (Within k s) := by
  cases hk
  refine does_stays (o := execReadStatus quad words ending s) rfl ?_
  unfold execReadStatus
  refine stays_host fun hc h_s => ?_
  try dsimp only
  with_reducible repeat' first
    | assumption | intro _ | with_unfolding_all exact Scope.Le.trans rfl hc | apply within_ite | apply within_countBy
    | apply within_setOut | apply within_hostEnding

theorem touch_framePush (quad : Bool) (addr : BitVec 24) (data : List Word) (ending : TxEnd) (s : State) (k : Scope) (hk : touchHost
    (.framePush quad addr data ending) = some k) : Does (.framePush quad addr data ending) s (Within k s) := by
  cases hk
  refine does_stays (o := execFramePush quad addr data ending s) rfl ?_
  unfold execFramePush
  refine stays_host fun hc h_s => ?_
  try dsimp only
  with_reducible repeat' first
    | assumption | intro _ | with_unfolding_all exact Scope.Le.trans rfl hc | apply within_ite | apply within_countBy
    | apply within_hostPush | apply within_badCmd | apply within_hostEnding

theorem touch_framePop (quad : Bool) (addr : BitVec 24) (words : Nat) (ending : TxEnd) (bad : List Bool) (s : State) (k : Scope) (hk :
    touchHost (.framePop quad addr words ending bad) = some k) : Does (.framePop quad addr words ending bad) s (Within k s) := by
  cases hk
  refine does_stays (o := execFramePop quad addr words ending bad s) rfl ?_
  unfold execFramePop
  refine stays_host fun hc h_s => ?_
  try dsimp only
  with_reducible repeat' first
    | assumption | intro _ | with_unfolding_all exact Scope.Le.trans rfl hc | apply within_ite | apply within_badCmd
    | apply within_hostEnding | apply within_returned | apply within_popsRx

theorem touch_eventPop (quad : Bool) (addr : BitVec 24) (words : Nat) (ending : TxEnd) (bad : List Bool) (s : State) (k : Scope) (hk :
    touchHost (.eventPop quad addr words ending bad) = some k) : Does (.eventPop quad addr words ending bad) s (Within k s) := by
  cases hk
  refine does_stays (o := execEventPop quad addr words ending bad s) rfl ?_
  unfold execEventPop
  refine stays_host fun hc h_s => ?_
  try dsimp only
  with_reducible repeat' first
    | assumption | intro _ | with_unfolding_all exact Scope.Le.trans rfl hc | apply within_ite | apply within_badCmd
    | apply within_hostEnding | apply within_returned | apply within_popsEvq

theorem touch_auth (quad : Bool) (addr : BitVec 24) (data : List Word) (ending : TxEnd) (s : State) (k : Scope) (hk : touchHost (.auth
    quad addr data ending) = some k) : Does (.auth quad addr data ending) s (Within k s) := by
  cases hk
  refine does_stays (o := execAuth quad addr data ending s) rfl ?_
  unfold execAuth
  refine stays_host fun hc h_s => ?_
  try dsimp only
  with_reducible repeat' first
    | assumption | intro _ | with_unfolding_all exact Scope.Le.trans rfl hc | apply within_ite | apply within_countBy
    | apply within_authCheck | apply within_badCmd | apply within_hostEnding

theorem touch_hifBadcmd (opcode : Byte) (addr : BitVec 24) (s : State) (k : Scope) (hk : touchHost (.hifBadcmd opcode addr) = some k) :
    Does (.hifBadcmd opcode addr) s (Within k s) := by
  cases hk
  refine does_stays (o := execHifBadcmd opcode addr s) rfl ?_
  unfold execHifBadcmd
  refine stays_host fun hc h_s => ?_
  try dsimp only
  with_reducible repeat' first
    | assumption | intro _ | with_unfolding_all exact Scope.Le.trans rfl hc | apply within_ite | apply within_badCmd | split
    | apply within_with_pins

theorem touch_hifStall (opcode : Byte) (addr : BitVec 24) (s : State) (k : Scope) (hk : touchHost (.hifStall opcode addr) = some k) : Does
    (.hifStall opcode addr) s (Within k s) := by
  cases hk
  refine does_stays (o := execHifStall opcode addr s) rfl ?_
  unfold execHifStall
  refine stays_coreAll fun hc h_s => ?_
  try dsimp only
  with_reducible repeat' first
    | assumption | intro _ | with_unfolding_all exact Scope.Le.trans rfl hc | apply within_advance | apply within_hifError
    | apply within_hostEnded | apply within_dropWaiting | split

theorem touch_hirqReedgeEnd (s : State) (k : Scope) (hk : touchHost .hirqReedgeEnd = some k) : Does .hirqReedgeEnd s (Within k s) := by
  cases hk
  refine does_stays (o := execHirqReedgeEnd s) rfl ?_
  unfold execHirqReedgeEnd
  refine stays_coreAll fun hc h_s => ?_
  try dsimp only
  with_reducible repeat' first
    | assumption | intro _ | with_unfolding_all exact Scope.Le.trans rfl hc | apply within_advance | split | dsimp only
    | apply within_with_obs

theorem touch_phaseReqRecovery (rlimit : BitVec 8) (s : State) (k : Scope) (hk : touchHost (.phaseReqRecovery rlimit) = some k) : Does
    (.phaseReqRecovery rlimit) s (Within k s) := by
  cases hk
  refine does_stays (o := execPhaseReqRecovery rlimit s) rfl ?_
  unfold execPhaseReqRecovery
  refine stays_coreAll fun hc h_s => ?_
  try dsimp only
  with_reducible repeat' first | assumption | intro _ | with_unfolding_all exact Scope.Le.trans rfl hc | apply within_writePhaseCtrl

theorem touch_phaseReqRun (rlimit : BitVec 8) (s : State) (k : Scope) (hk : touchHost (.phaseReqRun rlimit) = some k) : Does (.phaseReqRun
    rlimit) s (Within k s) := by
  cases hk
  refine does_stays (o := execPhaseReqRun rlimit s) rfl ?_
  unfold execPhaseReqRun
  refine stays_coreAll fun hc h_s => ?_
  try dsimp only
  with_reducible repeat' first | assumption | intro _ | with_unfolding_all exact Scope.Le.trans rfl hc | apply within_writePhaseCtrl

theorem touch_recoveryComplete (s : State) (k : Scope) (hk : touchHost .recoveryComplete = some k) : Does .recoveryComplete s (Within k s)
    := by
  cases hk
  refine does_stays (o := execRecoveryComplete s) rfl ?_
  unfold execRecoveryComplete
  refine stays_core fun hc h_s => ?_
  try dsimp only
  with_reducible repeat' first
    | assumption | intro _ | with_unfolding_all exact Scope.Le.trans rfl hc | apply within_ite | apply within_toRun
    | apply within_recovered

theorem touch_rlimitExpiry (s : State) (k : Scope) (hk : touchHost .rlimitExpiry = some k) : Does .rlimitExpiry s (Within k s) := by
  cases hk
  refine does_stays (o := execRlimitExpiry s) rfl ?_
  unfold execRlimitExpiry
  refine stays_core fun hc h_s => ?_
  try dsimp only
  with_reducible repeat' first
    | assumption | intro _ | with_unfolding_all exact Scope.Le.trans rfl hc | apply within_ite | apply within_advance
    | apply within_enterSafe | split

theorem touch_lockSet (block : BlockId) (s : State) (k : Scope) (hk : touchHost (.lockSet block) = some k) : Does (.lockSet block) s
    (Within k s) := by
  cases hk
  refine does_stays (o := execLockSet block s) rfl ?_
  unfold execLockSet
  refine stays_coreAll fun hc h_s => within_ite (within_writeReg _ _ _ (.inl ?_) hc h_s) h_s
  cases block <;> exact ClampFree.of rfl

theorem touch_cfgRollback (s : State) (k : Scope) (hk : touchHost .cfgRollback = some k) : Does .cfgRollback s (Within k s) := by
  cases hk
  refine does_stays (o := execCfgRollback s) rfl ?_
  unfold execCfgRollback
  refine stays_core fun hc h_s => ?_
  try dsimp only
  with_reducible repeat' first
    | assumption | intro _ | with_unfolding_all exact Scope.Le.trans rfl hc | apply within_ite | apply within_authRefused | split
    | dsimp only | apply within_with_cfg

theorem touch_cfgKeyRotate (backupOk : Bool) (primaryOk : Bool) (s : State) (k : Scope) (hk : touchHost (.cfgKeyRotate backupOk primaryOk)
    = some k) : Does (.cfgKeyRotate backupOk primaryOk) s (Within k s) := by
  cases hk
  refine does_stays (o := execCfgKeyRotate backupOk primaryOk s) rfl ?_
  unfold execCfgKeyRotate
  refine stays_core fun hc h_s => ?_
  try dsimp only
  with_reducible repeat' first
    | assumption | intro _ | with_unfolding_all exact Scope.Le.trans rfl hc | apply within_ite | apply within_post | apply within_authEnd
    | apply within_authRefused | apply within_authAccepted | apply within_setCounter | apply within_showKey | apply within_nvFail
    | apply within_setKeys | split | dsimp only | apply within_with_cfg

theorem touch_authCounterNvDone (ok : Bool) (s : State) (k : Scope) (hk : touchHost (.authCounterNvDone ok) = some k) : Does
    (.authCounterNvDone ok) s (Within k s) := by
  cases hk
  refine does_stays (o := execAuthCounterNvDone ok s) rfl ?_
  unfold execAuthCounterNvDone
  refine stays_core fun hc h_s => ?_
  try dsimp only
  with_reducible repeat' first
    | assumption | intro _ | with_unfolding_all exact Scope.Le.trans rfl hc | apply within_ite | apply within_post
    | apply within_takeFreeBit | apply within_authResult | apply within_authEnd | apply within_setCounter | apply within_zeroed | split
    | dsimp only | apply within_with_cfg

theorem touch_bootRead (s : State) (k : Scope) (hk : touchHost .bootRead = some k) : Does .bootRead s (Within k s) := by
  cases hk
  refine does_stays (o := execBootRead s) rfl ?_
  unfold execBootRead
  refine stays_coreAll fun hc h_s => ?_
  try dsimp only
  with_reducible repeat' first | assumption | intro _ | with_unfolding_all exact Scope.Le.trans rfl hc | apply within_writeBootCmd

theorem touch_bootProgram (s : State) (k : Scope) (hk : touchHost .bootProgram = some k) : Does .bootProgram s (Within k s) := by
  cases hk
  refine does_stays (o := execBootProgram s) rfl ?_
  unfold execBootProgram
  refine stays_coreAll fun hc h_s => ?_
  try dsimp only
  with_reducible repeat' first | assumption | intro _ | with_unfolding_all exact Scope.Le.trans rfl hc | apply within_writeBootCmd

theorem touch_bootErase (s : State) (k : Scope) (hk : touchHost .bootErase = some k) : Does .bootErase s (Within k s) := by
  cases hk
  refine does_stays (o := execBootErase s) rfl ?_
  unfold execBootErase
  refine stays_coreAll fun hc h_s => ?_
  try dsimp only
  with_reducible repeat' first | assumption | intro _ | with_unfolding_all exact Scope.Le.trans rfl hc | apply within_writeBootCmd

theorem touch_bootOpDone (us : Nat) (bad : Bool) (s : State) (k : Scope) (hk : touchHost (.bootOpDone us bad) = some k) : Does
    (.bootOpDone us bad) s (Within k s) := by
  cases hk
  refine does_stays (o := execBootOpDone us bad s) rfl ?_
  unfold execBootOpDone
  refine stays_coreAll fun hc h_s => ?_
  try dsimp only
  with_reducible repeat' first
    | assumption | intro _ | with_unfolding_all exact Scope.Le.trans rfl hc | apply within_ite | apply within_setFld Reg.CFG_BOOT_BSTATUS
    | apply within_bootWrite | apply within_bootSpoil | apply within_bootEnd | apply within_bootTake | apply within_bootProgram | split
    | dsimp only | apply within_with_cfg

/-! ### touchField -/

theorem touch_fcTrimWrite (value : Word) (s : State) (k : Scope) (hk : touchField (.fcTrimWrite value) = some k) : Does (.fcTrimWrite
    value) s (Within k s) := by
  cases hk
  refine does_stays (o := execFcTrimWrite value s) rfl ?_
  unfold execFcTrimWrite
  refine stays_core fun hc h_s => ?_
  try dsimp only
  with_reducible repeat' first | assumption | intro _ | with_unfolding_all exact Scope.Le.trans rfl hc | apply within_writeTrim

theorem touch_synthLocked (s : State) (k : Scope) (hk : touchField .synthLocked = some k) : Does .synthLocked s (Within k s) := by
  cases hk
  refine does_stays (o := execSynthLocked s) rfl ?_
  unfold execSynthLocked
  refine stays_core fun hc h_s => ?_
  try dsimp only
  with_reducible repeat' first
    | assumption | intro _ | with_unfolding_all exact Scope.Le.trans rfl hc | apply within_ite | apply within_lockSyn

theorem touch_synthLockLost (s : State) (k : Scope) (hk : touchField .synthLockLost = some k) : Does .synthLockLost s (Within k s) := by
  cases hk
  refine does_stays (o := execSynthLockLost s) rfl ?_
  unfold execSynthLockLost
  refine stays_core fun hc h_s => ?_
  try dsimp only
  with_reducible repeat' first
    | assumption | intro _ | with_unfolding_all exact Scope.Le.trans rfl hc | apply within_ite | apply within_setFld Reg.FLD_SYN_STATUS
    | apply within_stick Reg.FLD_SYN_STATUS | apply within_post | apply within_recover | apply within_lockPast | split

theorem touch_synthIdleStop (s : State) (k : Scope) (hk : touchField .synthIdleStop = some k) : Does .synthIdleStop s (Within k s) := by
  cases hk
  refine does_stays (o := execSynthIdleStop s) rfl ?_
  unfold execSynthIdleStop
  refine stays_core fun hc h_s => ?_
  try dsimp only
  with_reducible repeat' first
    | assumption | intro _ | with_unfolding_all exact Scope.Le.trans rfl hc | apply within_ite | apply within_setFld Reg.FLD_SYN_STATUS
    | apply within_advance | split | dsimp only | apply within_with_field

theorem touch_phaseAmplWrite (port : Port) (isAmpl : Bool) (value : Word) (s : State) (k : Scope) (hk : touchField (.phaseAmplWrite port
    isAmpl value) = some k) : Does (.phaseAmplWrite port isAmpl value) s (Within k s) := by
  cases hk
  refine does_stays (o := execPhaseAmplWrite port isAmpl value s) rfl ?_
  unfold execPhaseAmplWrite
  refine stays_core fun hc h_s => ?_
  try dsimp only
  with_reducible repeat' first | assumption | intro _ | with_unfolding_all exact Scope.Le.trans rfl hc | apply within_writePA

theorem touch_phaseAmplApply (port : Port) (s : State) (k : Scope) (hk : touchField (.phaseAmplApply port) = some k) : Does
    (.phaseAmplApply port) s (Within k s) := by
  cases hk
  refine does_stays (o := execPhaseAmplApply port s) rfl ?_
  unfold execPhaseAmplApply
  refine stays_core fun hc h_s => ?_
  try dsimp only
  with_reducible repeat' first
    | assumption | intro _ | with_unfolding_all exact Scope.Le.trans rfl hc | apply within_ite | apply within_modF
    | apply within_endDeferral | apply within_defer | apply within_abortStep | apply within_applyPA

theorem touch_compensationUpdate (drivers : List DriverMeas) (s : State) (k : Scope) (hk : touchField (.compensationUpdate drivers) = some
    k) : Does (.compensationUpdate drivers) s (Within k s) := by
  cases hk
  refine does_stays (o := execCompensationUpdate drivers s) rfl ?_
  unfold execCompensationUpdate
  refine stays_core fun hc h_s => ?_
  try dsimp only
  with_reducible repeat' first
    | assumption | intro _ | with_unfolding_all exact Scope.Le.trans rfl hc | apply within_advance | apply within_compensate
    | apply within_thermal | apply within_foldl | split

theorem touch_fieldOnRampStart (port : Port) (s : State) (k : Scope) (hk : touchField (.fieldOnRampStart port) = some k) : Does
    (.fieldOnRampStart port) s (Within k s) := by
  cases hk
  refine does_stays (o := execFieldOnRampStart port s) rfl ?_
  unfold execFieldOnRampStart
  refine stays_core fun hc h_s => ?_
  try dsimp only
  with_reducible repeat' first | assumption | intro _ | with_unfolding_all exact Scope.Le.trans rfl hc | apply within_tryOn

theorem touch_relayBiasExpiry (port : Port) (s : State) (k : Scope) (hk : touchField (.relayBiasExpiry port) = some k) : Does
    (.relayBiasExpiry port) s (Within k s) := by
  cases hk
  refine does_stays (o := execRelayBiasExpiry port s) rfl ?_
  unfold execRelayBiasExpiry
  refine stays_core fun hc h_s => ?_
  try dsimp only
  with_reducible repeat' first
    | assumption | intro _ | with_unfolding_all exact Scope.Le.trans rfl hc | apply within_modF | apply within_advance | split

theorem touch_fieldOnRampEnd (port : Port) (s : State) (k : Scope) (hk : touchField (.fieldOnRampEnd port) = some k) : Does
    (.fieldOnRampEnd port) s (Within k s) := by
  cases hk
  refine does_stays (o := execFieldOnRampEnd port s) rfl ?_
  unfold execFieldOnRampEnd
  refine stays_core fun hc h_s => ?_
  try dsimp only
  with_reducible repeat' first
    | assumption | intro _ | with_unfolding_all exact Scope.Le.trans rfl hc | apply within_ite | apply within_modF | apply within_modP
    | apply within_advance | apply within_startOff | apply within_askOff | apply within_tryOffs | apply within_endListen | split

theorem touch_guardExpiry (port : Port) (s : State) (k : Scope) (hk : touchField (.guardExpiry port) = some k) : Does (.guardExpiry port)
    s (Within k s) := by
  cases hk
  refine does_stays (o := execGuardExpiry port s) rfl ?_
  unfold execGuardExpiry
  refine stays_core fun hc h_s => ?_
  try dsimp only
  with_reducible repeat' first
    | assumption | intro _ | with_unfolding_all exact Scope.Le.trans rfl hc | apply within_modF | apply within_advance | split

theorem touch_fieldOffRampEnd (port : Port) (before : RxOpen) (s : State) (k : Scope) (hk : touchField (.fieldOffRampEnd port before) =
    some k) : Does (.fieldOffRampEnd port before) s (Within k s) := by
  cases hk
  refine does_stays (o := execFieldOffRampEnd port before s) rfl ?_
  unfold execFieldOffRampEnd
  refine stays_core fun hc h_s => ?_
  try dsimp only
  with_reducible repeat' first
    | assumption | intro _ | with_unfolding_all exact Scope.Le.trans rfl hc | apply within_ite | apply within_rampedOff
    | apply within_memberOff | split

theorem touch_relayBiasOffExpiry (port : Port) (s : State) (k : Scope) (hk : touchField (.relayBiasOffExpiry port) = some k) : Does
    (.relayBiasOffExpiry port) s (Within k s) := by
  cases hk
  refine does_stays (o := execRelayBiasOffExpiry port s) rfl ?_
  unfold execRelayBiasOffExpiry
  refine stays_core fun hc h_s => ?_
  try dsimp only
  with_reducible repeat' first
    | assumption | intro _ | with_unfolding_all exact Scope.Le.trans rfl hc | apply within_advance | apply within_fieldGone | split

theorem touch_fieldReset (port : Port) (value : Word) (s : State) (k : Scope) (hk : touchField (.fieldReset port value) = some k) : Does
    (.fieldReset port value) s (Within k s) := by
  cases hk
  refine does_stays (o := execFieldReset port value s) rfl ?_
  unfold execFieldReset
  refine stays_core fun hc h_s => ?_
  try dsimp only
  with_reducible repeat' first | assumption | intro _ | with_unfolding_all exact Scope.Le.trans rfl hc | apply within_writeFldCtrl

theorem touch_resetOffExpiry (port : Port) (s : State) (k : Scope) (hk : touchField (.resetOffExpiry port) = some k) : Does
    (.resetOffExpiry port) s (Within k s) := by
  cases hk
  refine does_stays (o := execResetOffExpiry port s) rfl ?_
  unfold execResetOffExpiry
  refine stays_core fun hc h_s => ?_
  try dsimp only
  with_reducible repeat' first
    | assumption | intro _ | with_unfolding_all exact Scope.Le.trans rfl hc | apply within_modF | apply within_advance
    | apply within_askOn | split

theorem touch_dutyBinStart (s : State) (k : Scope) (hk : touchField .dutyBinStart = some k) : Does .dutyBinStart s (Within k s) := by
  cases hk
  refine does_stays (o := execDutyBinStart s) rfl ?_
  unfold execDutyBinStart
  refine stays_core fun hc h_s => ?_
  try dsimp only
  with_reducible repeat' first
    | assumption | intro _ | with_unfolding_all exact Scope.Le.trans rfl hc | apply within_ite | apply within_setFld Reg.FLD_DUTY_STATUS
    | apply within_modF | apply within_advance | apply within_cutPort | apply within_each | apply within_foldl | split | dsimp only
    | apply within_with_field

theorem touch_matrixRetry (port : Port) (column : List Word) (s : State) (k : Scope) (hk : touchField (.matrixRetry port column) = some k)
    : Does (.matrixRetry port column) s (Within k s) := by
  cases hk
  refine does_stays (o := execMatrixRetry port column s) rfl ?_
  unfold execMatrixRetry
  refine stays_core fun hc h_s => ?_
  try dsimp only
  with_reducible repeat' first
    | assumption | intro _ | with_unfolding_all exact Scope.Le.trans rfl hc | apply within_ite | apply within_modF | apply within_advance
    | apply within_startSyn | apply within_setColumn | apply within_deriveNeigh | apply within_judgeMeasured | split | dsimp only
    | apply within_with_field

theorem touch_neighbourSetChange (port other : Port) (s : State) (k : Scope) (hk : touchField (.neighbourSetChange port other) = some k) :
    Does (.neighbourSetChange port other) s (Within k s) := by
  cases hk
  refine does_stays (o := execNeighbourSetChange port other s) rfl ?_
  unfold execNeighbourSetChange
  refine stays_core fun hc h_s => ?_
  try dsimp only
  with_reducible repeat' first
    | assumption | intro _ | with_unfolding_all exact Scope.Le.trans rfl hc | apply within_ite | apply within_post | split | dsimp only
    | apply within_with_field

theorem touch_fldStarve (side : TxUnit) (s : State) (k : Scope) (hk : touchField (.fldStarve side) = some k) : Does (.fldStarve side) s
    (Within k s) := by
  cases hk
  refine does_stays (o := execFldStarve side s) rfl ?_
  unfold execFldStarve
  refine stays_core fun hc h_s => ?_
  try dsimp only
  with_reducible repeat' first
    | assumption | intro _ | with_unfolding_all exact Scope.Le.trans rfl hc | apply within_ite | apply within_post | apply within_modF
    | apply within_modH | apply within_advance | split

theorem touch_huddleWrite (port : Port) (value : Word) (s : State) (k : Scope) (hk : touchField (.huddleWrite port value) = some k) : Does
    (.huddleWrite port value) s (Within k s) := by
  cases hk
  refine does_stays (o := execHuddleWrite port value s) rfl ?_
  unfold execHuddleWrite
  refine stays_core fun hc h_s => ?_
  try dsimp only
  with_reducible repeat' first | assumption | intro _ | with_unfolding_all exact Scope.Le.trans rfl hc | apply within_writeHuddle

theorem touch_huddleSlotStart (huddle : Huddle) (s : State) (k : Scope) (hk : touchField (.huddleSlotStart huddle) = some k) : Does
    (.huddleSlotStart huddle) s (Within k s) := by
  cases hk
  refine does_stays (o := execHuddleSlotStart huddle s) rfl ?_
  unfold execHuddleSlotStart
  refine stays_core fun hc h_s => ?_
  try dsimp only
  with_reducible repeat' first
    | assumption | intro _ | with_unfolding_all exact Scope.Le.trans rfl hc | apply within_ite | apply within_modH
    | apply within_syncHuddles | apply within_endSlot | apply within_pickPlan | apply within_lockPast | apply within_atLead
    | apply within_holdSyn | apply within_leaveCal | apply within_needField | apply within_commitPart | apply within_foldl | split

theorem touch_frameStart (port : Port) (s : State) (k : Scope) (hk : touchField (.frameStart port) = some k) : Does (.frameStart port) s
    (Within k s) := by
  cases hk
  refine does_stays (o := execFrameStart port s) rfl ?_
  unfold execFrameStart
  refine stays_core fun hc h_s => ?_
  try dsimp only
  with_reducible repeat' first
    | assumption | intro _ | with_unfolding_all exact Scope.Le.trans rfl hc | apply within_ite | apply within_pickPlan
    | apply within_tryFrame | apply within_memberFrame | apply within_needField | apply within_each | split

theorem touch_frameTxEnd (port : Port) (before : RxOpen) (s : State) (k : Scope) (hk : touchField (.frameTxEnd port before) = some k) :
    Does (.frameTxEnd port before) s (Within k s) := by
  cases hk
  refine does_stays (o := execFrameTxEnd port before s) rfl ?_
  unfold execFrameTxEnd
  refine stays_core fun hc h_s => ?_
  try dsimp only
  with_reducible repeat' first
    | assumption | intro _ | with_unfolding_all exact Scope.Le.trans rfl hc | apply within_ite | apply within_count | apply within_modF
    | apply within_modP | apply within_advance | apply within_armRx | apply within_askOff | apply within_applyPA | apply within_openWindow
    | apply within_endExchange | apply within_pollSent | apply within_beginListen | split

theorem touch_warmupStepStart (port : Port) (stepNo : Fin 6) (s : State) (k : Scope) (hk : touchField (.warmupStepStart port stepNo) =
    some k) : Does (.warmupStepStart port stepNo) s (Within k s) := by
  cases hk
  refine does_stays (o := execWarmupStepStart port stepNo s) rfl ?_
  unfold execWarmupStepStart
  refine stays_core fun hc h_s => ?_
  try dsimp only
  with_reducible repeat' first
    | assumption | intro _ | with_unfolding_all exact Scope.Le.trans rfl hc | apply within_ite | apply within_modF

theorem touch_warmupStepDone (port : Port) (column : List Word) (samples : List RxSample) (s : State) (k : Scope) (hk : touchField
    (.warmupStepDone port column samples) = some k) : Does (.warmupStepDone port column samples) s (Within k s) := by
  cases hk
  refine does_stays (o := execWarmupStepDone port column samples s) rfl ?_
  unfold execWarmupStepDone
  refine stays_core fun hc h_s => ?_
  try dsimp only
  with_reducible repeat' first
    | assumption | intro _ | with_unfolding_all exact Scope.Le.trans rfl hc | apply within_ite | apply within_modF | apply within_advance
    | apply within_adapt | apply within_setColumn | apply within_deriveNeigh | split

theorem touch_fldWarmLate (port : Port) (s : State) (k : Scope) (hk : touchField (.fldWarmLate port) = some k) : Does (.fldWarmLate port)
    s (Within k s) := by
  cases hk
  refine does_stays (o := execFldWarmLate port s) rfl ?_
  unfold execFldWarmLate
  refine stays_core fun hc h_s => ?_
  try dsimp only
  with_reducible repeat' first
    | assumption | intro _ | with_unfolding_all exact Scope.Le.trans rfl hc | apply within_ite
    | apply within_stickBit Reg.FLD_WARMUP_STATUS | apply within_post

theorem touch_transmitChainBiased (port : Port) (s : State) (k : Scope) (hk : touchField (.transmitChainBiased port) = some k) : Does
    (.transmitChainBiased port) s (Within k s) := by
  cases hk
  refine does_stays (o := execTransmitChainBiased port s) rfl ?_
  unfold execTransmitChainBiased
  refine stays_core fun hc h_s => ?_
  try dsimp only
  with_reducible repeat' first
    | assumption | intro _ | with_unfolding_all exact Scope.Le.trans rfl hc | apply within_ite | apply within_modF | apply within_advance
    | apply within_listenTarget | split

theorem touch_dutyCutDeadline (port : Port) (rx : RxData) (s : State) (k : Scope) (hk : touchField (.dutyCutDeadline port rx) = some k) :
    Does (.dutyCutDeadline port rx) s (Within k s) := by
  cases hk
  refine does_stays (o := execDutyCutDeadline port rx s) rfl ?_
  unfold execDutyCutDeadline
  refine stays_core fun hc h_s => ?_
  try dsimp only
  with_reducible repeat' first
    | assumption | intro _ | with_unfolding_all exact Scope.Le.trans rfl hc | apply within_ite | apply within_advance
    | apply within_cutExchange

/-! ### touchTuner -/

theorem touch_vectorMeasurement (port : Port) (vec : Word) (s : State) (k : Scope) (hk : touchTuner (.vectorMeasurement port vec) = some
    k) : Does (.vectorMeasurement port vec) s (Within k s) := by
  cases hk
  refine does_stays (o := execVectorMeasurement port vec s) rfl ?_
  unfold execVectorMeasurement
  refine stays_core fun hc h_s => ?_
  try dsimp only
  with_reducible repeat' first
    | assumption | intro _ | with_unfolding_all exact Scope.Le.trans rfl hc | apply within_ite | apply within_modF | apply within_advance
    | apply within_measureVec | split

theorem touch_captureRef (port : Port) (s : State) (k : Scope) (hk : touchTuner (.captureRef port) = some k) : Does (.captureRef port) s
    (Within k s) := by
  cases hk
  refine does_stays (o := execCaptureRef port s) rfl ?_
  unfold execCaptureRef
  refine stays_core fun hc h_s => ?_
  try dsimp only
  with_reducible repeat' first | assumption | intro _ | with_unfolding_all exact Scope.Le.trans rfl hc | apply within_captureRef

theorem touch_retune (port : Port) (s : State) (k : Scope) (hk : touchTuner (.retune port) = some k) : Does (.retune port) s (Within k s)
    := by
  cases hk
  refine does_stays (o := execRetune port s) rfl ?_
  unfold execRetune
  refine stays_core fun hc h_s => ?_
  try dsimp only
  with_reducible repeat' first | assumption | intro _ | with_unfolding_all exact Scope.Le.trans rfl hc | apply within_retune

theorem touch_measure (port : Port) (s : State) (k : Scope) (hk : touchTuner (.measure port) = some k) : Does (.measure port) s (Within k
    s) := by
  cases hk
  refine does_stays (o := execMeasure port s) rfl ?_
  unfold execMeasure
  refine stays_core fun hc h_s => ?_
  try dsimp only
  with_reducible repeat' first | assumption | intro _ | with_unfolding_all exact Scope.Le.trans rfl hc | apply within_askMeasure

theorem touch_searchMeasurement (port : Port) (vec : Word) (s : State) (k : Scope) (hk : touchTuner (.searchMeasurement port vec) = some
    k) : Does (.searchMeasurement port vec) s (Within k s) := by
  cases hk
  refine does_stays (o := execSearchMeasurement port vec s) rfl ?_
  unfold execSearchMeasurement
  refine stays_core fun hc h_s => ?_
  try dsimp only
  with_reducible repeat' first
    | assumption | intro _ | with_unfolding_all exact Scope.Le.trans rfl hc | apply within_ite | apply within_count | apply within_advance
    | apply within_searchOn | apply within_measureVec | split

theorem touch_tunerCodeWrite (port : Port) (value : Word) (s : State) (k : Scope) (hk : touchTuner (.tunerCodeWrite port value) = some k)
    : Does (.tunerCodeWrite port value) s (Within k s) := by
  cases hk
  refine does_stays (o := execTunerCodeWrite port value s) rfl ?_
  unfold execTunerCodeWrite
  refine stays_core fun hc h_s => ?_
  try dsimp only
  with_reducible repeat' first | assumption | intro _ | with_unfolding_all exact Scope.Le.trans rfl hc | apply within_writeTunCode

theorem touch_tunerFrameDone (sent : Word) (s : State) (k : Scope) (hk : touchTuner (.tunerFrameDone sent) = some k) : Does
    (.tunerFrameDone sent) s (Within k s) := by
  cases hk
  refine does_stays (o := execTunerFrameDone sent s) rfl ?_
  unfold execTunerFrameDone
  refine stays_core fun hc h_s => ?_
  try dsimp only
  with_reducible repeat' first
    | assumption | intro _ | with_unfolding_all exact Scope.Le.trans rfl hc | apply within_ite | apply within_stick Reg.TUN_LINK_STATUS
    | apply within_post | apply within_advance | apply within_kickLink | apply within_linkDone | apply within_linkNext | split

theorem touch_tunerSettleExpiry (port : Port) (samples : List RxSample) (s : State) (k : Scope) (hk : touchTuner (.tunerSettleExpiry port
    samples) = some k) : Does (.tunerSettleExpiry port samples) s (Within k s) := by
  cases hk
  refine does_stays (o := execTunerSettleExpiry port samples s) rfl ?_
  unfold execTunerSettleExpiry
  refine stays_core fun hc h_s => ?_
  try dsimp only
  with_reducible repeat' first
    | assumption | intro _ | with_unfolding_all exact Scope.Le.trans rfl hc | apply within_ite | apply within_modF | apply within_modT
    | apply within_advance | apply within_adapt | apply within_tryOffs | apply within_kickLink | split

theorem touch_sniffRoundStart (s : State) (k : Scope) (hk : touchTuner .sniffRoundStart = some k) : Does .sniffRoundStart s (Within k s)
    := by
  cases hk
  refine does_stays (o := execSniffRoundStart s) rfl ?_
  unfold execSniffRoundStart
  refine stays_sniffing fun hc h_s => ?_
  try dsimp only
  with_reducible repeat' first
    | assumption | intro _ | with_unfolding_all exact Scope.Le.trans rfl hc | apply within_ite | apply within_advance
    | apply within_roundSyn | apply within_skipPing | apply within_foldl | split | dsimp only | apply within_with_tun

theorem touch_sniffPing (port : Port) (vec : Word) (s : State) (k : Scope) (hk : touchTuner (.sniffPing port vec) = some k) : Does
    (.sniffPing port vec) s (Within k s) := by
  cases hk
  refine does_stays (o := execSniffPing port vec s) rfl ?_
  unfold execSniffPing
  refine stays_sniffing fun hc h_s => ?_
  try dsimp only
  with_reducible repeat' first
    | assumption | intro _ | with_unfolding_all exact Scope.Le.trans rfl hc | apply within_ite | apply within_modT
    | apply within_roundOver | apply within_skipPing | apply within_pinged | apply within_ping | apply within_sumBase
    | apply within_trackBase | apply within_sniffWake | apply within_roundReady | split

theorem touch_sniffConfirmPing (port : Port) (vec : Word) (s : State) (k : Scope) (hk : touchTuner (.sniffConfirmPing port vec) = some k)
    : Does (.sniffConfirmPing port vec) s (Within k s) := by
  cases hk
  refine does_stays (o := execSniffConfirmPing port vec s) rfl ?_
  unfold execSniffConfirmPing
  refine stays_sniffing fun hc h_s => ?_
  try dsimp only
  with_reducible repeat' first
    | assumption | intro _ | with_unfolding_all exact Scope.Le.trans rfl hc | apply within_ite | apply within_count | apply within_modT
    | apply within_advance | apply within_roundOver | apply within_skipPing | apply within_ping | apply within_sumBase
    | apply within_sniffWake | apply within_roundReady | split

/-! ### touchReceiver -/

theorem touch_preambleDetected (port : Port) (power length more : Nat) (fofs : BitVec 12) (tofs : Byte) (codes : Byte) (s : State) (k :
    Scope) (hk : touchReceiver (.preambleDetected port power length more fofs tofs codes) = some k) : Does (.preambleDetected port power
    length more fofs tofs codes) s (Within k s) := by
  cases hk
  refine does_stays (o := execPreambleDetected port power length more fofs tofs codes s) rfl ?_
  unfold execPreambleDetected
  refine stays_core fun hc h_s => ?_
  try dsimp only
  with_reducible repeat' first
    | assumption | intro _ | with_unfolding_all exact Scope.Le.trans rfl hc | apply within_ite | apply within_modR | apply within_modPoll
    | apply within_showAfc

theorem touch_sofDetected (port : Port) (sof : List Bool) (sofT : Nat) (fofs : BitVec 12) (tofs : Byte) (codes : Byte) (s : State) (k :
    Scope) (hk : touchReceiver (.sofDetected port sof sofT fofs tofs codes) = some k) : Does (.sofDetected port sof sofT fofs tofs codes)
    s (Within k s) := by
  cases hk
  refine does_stays (o := execSofDetected port sof sofT fofs tofs codes s) rfl ?_
  unfold execSofDetected
  refine stays_core fun hc h_s => ?_
  try dsimp only
  with_reducible repeat' first
    | assumption | intro _ | with_unfolding_all exact Scope.Le.trans rfl hc | apply within_ite | apply within_modR | apply within_rearm
    | apply within_falseLock | apply within_modPoll | apply within_showAfc | apply within_outOfRange

theorem touch_sofWindowExpiry (port : Port) (s : State) (k : Scope) (hk : touchReceiver (.sofWindowExpiry port) = some k) : Does
    (.sofWindowExpiry port) s (Within k s) := by
  cases hk
  refine does_stays (o := execSofWindowExpiry port s) rfl ?_
  unfold execSofWindowExpiry
  refine stays_core fun hc h_s => ?_
  try dsimp only
  with_reducible repeat' first
    | assumption | intro _ | with_unfolding_all exact Scope.Le.trans rfl hc | apply within_ite | apply within_advance | apply within_rearm
    | apply within_falseLock

theorem touch_energyStep (port : Port) (recent before : Nat) (rx : RxData) (s : State) (k : Scope) (hk : touchReceiver (.energyStep port
    recent before rx) = some k) : Does (.energyStep port recent before rx) s (Within k s) := by
  cases hk
  refine does_stays (o := execEnergyStep port recent before rx s) rfl ?_
  unfold execEnergyStep
  refine stays_core fun hc h_s => ?_
  try dsimp only
  with_reducible repeat' first
    | assumption | intro _ | with_unfolding_all exact Scope.Le.trans rfl hc | apply within_ite
    | apply within_bump_of Reg.RXE_P_COUNTS 16 (Nat.succ_pos _) (by with_unfolding_all exact fun _ => rfl) | apply within_post
    | apply within_rearm | apply within_deliverOpen | split

theorem touch_afcRange (port : Port) (codes : Byte) (rx : RxData) (s : State) (k : Scope) (hk : touchReceiver (.afcRange port codes rx) =
    some k) : Does (.afcRange port codes rx) s (Within k s) := by
  cases hk
  refine does_stays (o := execAfcRange port codes rx s) rfl ?_
  unfold execAfcRange
  refine stays_core fun hc h_s => ?_
  try dsimp only
  with_reducible repeat' first
    | assumption | intro _ | with_unfolding_all exact Scope.Le.trans rfl hc | apply within_ite | apply within_outOfRange

theorem touch_frameEnd (port : Port) (ending : RxEnd) (rx : RxData) (hw : HwFault) (s : State) (k : Scope) (hk : touchReceiver (.frameEnd
    port ending rx hw) = some k) : Does (.frameEnd port ending rx hw) s (Within k s) := by
  cases hk
  refine does_stays (o := execFrameEnd port ending rx hw s) rfl ?_
  unfold execFrameEnd
  refine stays_core fun hc h_s => ?_
  try dsimp only
  with_reducible repeat' first
    | assumption | intro _ | with_unfolding_all exact Scope.Le.trans rfl hc | apply within_ite | apply within_deliverListen
    | apply within_listenOn | apply within_roundReply | apply within_deliverClose | split

theorem touch_rxWindowLimit (port : Port) (rx : RxData) (s : State) (k : Scope) (hk : touchReceiver (.rxWindowLimit port rx) = some k) :
    Does (.rxWindowLimit port rx) s (Within k s) := by
  cases hk
  refine does_stays (o := execRxWindowLimit port rx s) rfl ?_
  unfold execRxWindowLimit
  refine stays_core fun hc h_s => ?_
  try dsimp only
  with_reducible repeat' first
    | assumption | intro _ | with_unfolding_all exact Scope.Le.trans rfl hc | apply within_ite | apply within_advance
    | apply within_endExchange | apply within_falseLock | apply within_closeAccord | apply within_roundReply | apply within_deliverClose
    | split

theorem touch_noiseWindowDone (port : Port) (powers : List Nat) (s : State) (k : Scope) (hk : touchReceiver (.noiseWindowDone port powers)
    = some k) : Does (.noiseWindowDone port powers) s (Within k s) := by
  cases hk
  refine does_stays (o := execNoiseWindowDone port powers s) rfl ?_
  unfold execNoiseWindowDone
  refine stays_core fun hc h_s => ?_
  try dsimp only
  with_reducible repeat' first
    | assumption | intro _ | with_unfolding_all exact Scope.Le.trans rfl hc | apply within_ite | apply within_modR | apply within_advance
    | apply within_noiseStats

theorem touch_clrCounts (port : Port) (s : State) (k : Scope) (hk : touchReceiver (.clrCounts port) = some k) : Does (.clrCounts port) s
    (Within k s) := by
  cases hk
  refine does_stays (o := execClrCounts port s) rfl ?_
  unfold execClrCounts
  refine stays_core fun hc h_s => ?_
  try dsimp only
  with_reducible repeat' first | assumption | intro _ | with_unfolding_all exact Scope.Le.trans rfl hc | apply within_clearCounts

theorem touch_clrNoise (port : Port) (s : State) (k : Scope) (hk : touchReceiver (.clrNoise port) = some k) : Does (.clrNoise port) s
    (Within k s) := by
  cases hk
  refine does_stays (o := execClrNoise port s) rfl ?_
  unfold execClrNoise
  refine stays_core fun hc h_s => ?_
  try dsimp only
  with_reducible repeat' first | assumption | intro _ | with_unfolding_all exact Scope.Le.trans rfl hc | apply within_clearNoise

/-! ### touchProtocol -/

theorem touch_txPush (port : Port) (value : Word) (s : State) (k : Scope) (hk : touchProtocol (.txPush port value) = some k) : Does
    (.txPush port value) s (Within k s) := by
  cases hk
  refine does_stays (o := execTxPush port value s) rfl ?_
  unfold execTxPush
  refine stays_coreAll fun hc h_s => ?_
  try dsimp only
  with_reducible repeat' first | assumption | intro _ | with_unfolding_all exact Scope.Le.trans rfl hc | apply within_hostPush

theorem touch_rxPop (port : Port) (bad : Bool) (s : State) (k : Scope) (hk : touchProtocol (.rxPop port bad) = some k) : Does (.rxPop port
    bad) s (Within k s) := by
  cases hk
  refine does_stays (o := execRxPop port bad s) rfl ?_
  unfold execRxPop
  refine stays_coreAll fun hc h_s => ?_
  try dsimp only
  with_reducible repeat' first
    | assumption | intro _ | with_unfolding_all exact Scope.Le.trans rfl hc | apply within_popRx | apply within_setOut

theorem touch_flushRx (port : Port) (s : State) (k : Scope) (hk : touchProtocol (.flushRx port) = some k) : Does (.flushRx port) s (Within
    k s) := by
  cases hk
  refine does_stays (o := execFlushRx port s) rfl ?_
  unfold execFlushRx
  refine stays_coreAll fun hc h_s => ?_
  try dsimp only
  with_reducible repeat' first | assumption | intro _ | with_unfolding_all exact Scope.Le.trans rfl hc | apply within_flushRx

theorem touch_descriptorTake (port : Port) (bad : Bool) (s : State) (k : Scope) (hk : touchProtocol (.descriptorTake port bad) = some k) :
    Does (.descriptorTake port bad) s (Within k s) := by
  cases hk
  refine does_stays (o := execDescriptorTake port bad s) rfl ?_
  unfold execDescriptorTake
  refine stays_core fun hc h_s => ?_
  try dsimp only
  with_reducible repeat' first
    | assumption | intro _ | with_unfolding_all exact Scope.Le.trans rfl hc | apply within_ite | apply within_advance
    | apply within_takeDesc

theorem touch_completionPush (port : Port) (s : State) (k : Scope) (hk : touchProtocol (.completionPush port) = some k) : Does
    (.completionPush port) s (Within k s) := by
  cases hk
  refine does_stays (o := execCompletionPush port s) rfl ?_
  unfold execCompletionPush
  refine stays_core fun hc h_s => ?_
  try dsimp only
  with_reducible repeat' first | assumption | intro _ | with_unfolding_all exact Scope.Le.trans rfl hc | apply within_pushStaged

theorem touch_flushTx (port : Port) (s : State) (k : Scope) (hk : touchProtocol (.flushTx port) = some k) : Does (.flushTx port) s (Within
    k s) := by
  cases hk
  refine does_stays (o := execFlushTx port s) rfl ?_
  unfold execFlushTx
  refine stays_core fun hc h_s => ?_
  try dsimp only
  with_reducible repeat' first | assumption | intro _ | with_unfolding_all exact Scope.Le.trans rfl hc | apply within_flushTx

theorem touch_endHold (port : Port) (s : State) (k : Scope) (hk : touchProtocol (.endHold port) = some k) : Does (.endHold port) s (Within
    k s) := by
  cases hk
  refine does_stays (o := execEndHold port s) rfl ?_
  unfold execEndHold
  refine stays_core fun hc h_s => ?_
  try dsimp only
  with_reducible repeat' first | assumption | intro _ | with_unfolding_all exact Scope.Le.trans rfl hc | apply within_endHold

theorem touch_proHoldExpired (port : Port) (s : State) (k : Scope) (hk : touchProtocol (.proHoldExpired port) = some k) : Does
    (.proHoldExpired port) s (Within k s) := by
  cases hk
  refine does_stays (o := execProHoldExpired port s) rfl ?_
  unfold execProHoldExpired
  refine stays_core fun hc h_s => ?_
  try dsimp only
  with_reducible repeat' first
    | assumption | intro _ | with_unfolding_all exact Scope.Le.trans rfl hc | apply within_ite | apply within_post | apply within_advance
    | apply within_takeDesc | apply within_endHold | split

theorem touch_rfcaExpiry (port : Port) (draw : Fin 4) (s : State) (k : Scope) (hk : touchProtocol (.rfcaExpiry port draw) = some k) : Does
    (.rfcaExpiry port draw) s (Within k s) := by
  cases hk
  refine does_stays (o := execRfcaExpiry port draw s) rfl ?_
  unfold execRfcaExpiry
  refine stays_core fun hc h_s => ?_
  try dsimp only
  with_reducible repeat' first
    | assumption | intro _ | with_unfolding_all exact Scope.Le.trans rfl hc | apply within_modP | apply within_advance
    | apply within_askOn | split

theorem touch_externalFieldChange (port : Port) (level : Nat) (s : State) (k : Scope) (hk : touchProtocol (.externalFieldChange port
    level) = some k) : Does (.externalFieldChange port level) s (Within k s) := by
  cases hk
  refine does_stays (o := execExternalFieldChange port level s) rfl ?_
  unfold execExternalFieldChange
  refine stays_core fun hc h_s => ?_
  try dsimp only
  with_reducible repeat' first
    | assumption | intro _ | with_unfolding_all exact Scope.Le.trans rfl hc | apply within_ite | apply within_modP | apply within_emuLevel
    | apply within_extRose | apply within_extDropped

theorem touch_responseRfcaExpiry (port : Port) (s : State) (k : Scope) (hk : touchProtocol (.responseRfcaExpiry port) = some k) : Does
    (.responseRfcaExpiry port) s (Within k s) := by
  cases hk
  refine does_stays (o := execResponseRfcaExpiry port s) rfl ?_
  unfold execResponseRfcaExpiry
  refine stays_core fun hc h_s => ?_
  try dsimp only
  with_reducible repeat' first
    | assumption | intro _ | with_unfolding_all exact Scope.Le.trans rfl hc | apply within_ite | apply within_post | apply within_modP
    | apply within_advance | apply within_askOn | apply within_rxIdle | apply within_rfcaBusy | split

theorem touch_arfgExpiry (port : Port) (s : State) (k : Scope) (hk : touchProtocol (.arfgExpiry port) = some k) : Does (.arfgExpiry port)
    s (Within k s) := by
  cases hk
  refine does_stays (o := execArfgExpiry port s) rfl ?_
  unfold execArfgExpiry
  refine stays_core fun hc h_s => ?_
  try dsimp only
  with_reducible repeat' first
    | assumption | intro _ | with_unfolding_all exact Scope.Le.trans rfl hc | apply within_ite | apply within_modP | apply within_advance
    | split

theorem touch_pollEntryStart (port : Port) (hw : HwFault) (s : State) (k : Scope) (hk : touchProtocol (.pollEntryStart port hw) = some k)
    : Does (.pollEntryStart port hw) s (Within k s) := by
  cases hk
  refine does_stays (o := execPollEntryStart port hw s) rfl ?_
  unfold execPollEntryStart
  refine stays_core fun hc h_s => ?_
  try dsimp only
  with_reducible repeat' first
    | assumption | intro _ | with_unfolding_all exact Scope.Le.trans rfl hc | apply within_ite | apply within_modP | apply within_askOn
    | apply within_sessParity | apply within_startCheck | apply within_owedJob | apply within_releaseJob | apply within_runEntry | split

theorem touch_pollWaitExpiry (port : Port) (s : State) (k : Scope) (hk : touchProtocol (.pollWaitExpiry port) = some k) : Does
    (.pollWaitExpiry port) s (Within k s) := by
  cases hk
  refine does_stays (o := execPollWaitExpiry port s) rfl ?_
  unfold execPollWaitExpiry
  refine stays_core fun hc h_s => ?_
  try dsimp only
  with_reducible repeat' first
    | assumption | intro _ | with_unfolding_all exact Scope.Le.trans rfl hc | apply within_ite | apply within_modP | apply within_advance
    | apply within_askOn | apply within_entryAfter | split

theorem touch_presenceCheckDue (sess : SessId) (s : State) (k : Scope) (hk : touchProtocol (.presenceCheckDue sess) = some k) : Does
    (.presenceCheckDue sess) s (Within k s) := by
  cases hk
  refine does_stays (o := execPresenceCheckDue sess s) rfl ?_
  unfold execPresenceCheckDue
  refine stays_core fun hc h_s => ?_
  try dsimp only
  with_reducible repeat' first
    | assumption | intro _ | with_unfolding_all exact Scope.Le.trans rfl hc | apply within_ite | apply within_advance | split

theorem touch_sessClose (value : Word) (s : State) (k : Scope) (hk : touchProtocol (.sessClose value) = some k) : Does (.sessClose value)
    s (Within k s) := by
  cases hk
  refine does_stays (o := execSessClose value s) rfl ?_
  unfold execSessClose
  refine stays_core fun hc h_s => ?_
  try dsimp only
  with_reducible repeat' first | assumption | intro _ | with_unfolding_all exact Scope.Le.trans rfl hc | apply within_writeSessCmd

theorem touch_overflowEntryDue (place : Nat) (s : State) (k : Scope) (hk : touchProtocol (.overflowEntryDue place) = some k) : Does
    (.overflowEntryDue place) s (Within k s) := by
  cases hk
  refine does_stays (o := execOverflowEntryDue place s) rfl ?_
  unfold execOverflowEntryDue
  refine stays_core fun hc h_s => ?_
  try dsimp only
  with_reducible repeat' first
    | assumption | intro _ | with_unfolding_all exact Scope.Le.trans rfl hc | apply within_ite | apply within_advance
    | apply within_beginJob | split

theorem touch_roleWrite (port : Port) (value : Word) (s : State) (k : Scope) (hk : touchProtocol (.roleWrite port value) = some k) : Does
    (.roleWrite port value) s (Within k s) := by
  cases hk
  refine does_stays (o := execRoleWrite port value s) rfl ?_
  unfold execRoleWrite
  refine stays_core fun hc h_s => ?_
  try dsimp only
  with_reducible repeat' first | assumption | intro _ | with_unfolding_all exact Scope.Le.trans rfl hc | apply within_writeRole

theorem touch_roleChangeApply (port : Port) (s : State) (k : Scope) (hk : touchProtocol (.roleChangeApply port) = some k) : Does
    (.roleChangeApply port) s (Within k s) := by
  cases hk
  refine does_stays (o := execRoleChangeApply port s) rfl ?_
  unfold execRoleChangeApply
  refine stays_core fun hc h_s => ?_
  try dsimp only
  with_reducible repeat' first
    | assumption | intro _ | with_unfolding_all exact Scope.Le.trans rfl hc | apply within_ite
    | apply within_setFld_of Reg.PRO_P_MODE_STATUS 16 (Nat.succ_pos _) (by with_unfolding_all exact fun _ => rfl) | apply within_modF
    | apply within_modP | apply within_modT | apply within_modX | apply within_tryOffs | apply within_rxIdle | apply within_endListen
    | apply within_syncEmu | apply within_abandonSearch | apply within_rejudge | apply within_leaveReader | apply within_radioFollows

/-! ### touchAccord -/

theorem touch_accordDetectDeadline (port : Port) (s : State) (k : Scope) (hk : touchAccord (.accordDetectDeadline port) = some k) : Does
    (.accordDetectDeadline port) s (Within k s) := by
  cases hk
  refine does_stays (o := execAccordDetectDeadline port s) rfl ?_
  unfold execAccordDetectDeadline
  refine stays_core fun hc h_s => ?_
  try dsimp only
  with_reducible repeat' first
    | assumption | intro _ | with_unfolding_all exact Scope.Le.trans rfl hc | apply within_ite | apply within_advance
    | apply within_closeAccord | split

theorem touch_accordOrderPoint (port : Port) (powers : List (List Nat)) (s : State) (k : Scope) (hk : touchAccord (.accordOrderPoint port
    powers) = some k) : Does (.accordOrderPoint port powers) s (Within k s) := by
  cases hk
  refine does_stays (o := execAccordOrderPoint port powers s) rfl ?_
  unfold execAccordOrderPoint
  refine stays_core fun hc h_s => ?_
  try dsimp only
  with_reducible repeat' first
    | assumption | intro _ | with_unfolding_all exact Scope.Le.trans rfl hc | apply within_ite | apply within_advance
    | apply within_modPoll | split

theorem touch_accordWindowClose (port : Port) (s : State) (k : Scope) (hk : touchAccord (.accordWindowClose port) = some k) : Does
    (.accordWindowClose port) s (Within k s) := by
  cases hk
  refine does_stays (o := execAccordWindowClose port s) rfl ?_
  unfold execAccordWindowClose
  refine stays_core fun hc h_s => ?_
  try dsimp only
  with_reducible repeat' first
    | assumption | intro _ | with_unfolding_all exact Scope.Le.trans rfl hc | apply within_ite | apply within_closeAccord

theorem touch_accordStagesDone (port : Port) (chans : List ChanData) (clip : Bool) (hw : HwFault) (s : State) (k : Scope) (hk :
    touchAccord (.accordStagesDone port chans clip hw) = some k) : Does (.accordStagesDone port chans clip hw) s (Within k s) := by
  cases hk
  refine does_stays (o := execAccordStagesDone port chans clip hw s) rfl ?_
  unfold execAccordStagesDone
  refine stays_core fun hc h_s => ?_
  try dsimp only
  with_reducible repeat' first
    | assumption | intro _ | with_unfolding_all exact Scope.Le.trans rfl hc | apply within_ite | apply within_modP | apply within_modA
    | apply within_advance | apply within_takeFreeWord | apply within_sessParity | apply within_endExchange | apply within_noteRx
    | apply within_freeNone | apply within_matchChans | apply within_missChans | apply within_reportChans | apply within_afterPoll | split

theorem touch_quarantineExpiry (port : Port) (group : Fin 16) (code : Fin 8) (s : State) (k : Scope) (hk : touchAccord (.quarantineExpiry
    port group code) = some k) : Does (.quarantineExpiry port group code) s (Within k s) := by
  cases hk
  refine does_stays (o := execQuarantineExpiry port group code s) rfl ?_
  unfold execQuarantineExpiry
  refine stays_core fun hc h_s => ?_
  try dsimp only
  with_reducible repeat' first
    | assumption | intro _ | with_unfolding_all exact Scope.Le.trans rfl hc | apply within_advance | split | dsimp only
    | apply within_with_quar

/-! ### touchKeeper -/

theorem touch_storeOpStart (s : State) (k : Scope) (hk : touchKeeper .storeOpStart = some k) : Does .storeOpStart s (Within k s) := by
  cases hk
  refine does_stays (o := execStoreOpStart s) rfl ?_
  unfold execStoreOpStart
  refine stays_core fun hc h_s => ?_
  try dsimp only
  with_reducible repeat' first
    | assumption | intro _ | with_unfolding_all exact Scope.Le.trans rfl hc | apply within_ite | apply within_pumpSpill
    | apply within_beginOp | split

theorem touch_storeStatusPoll (die : Fin 16) (s : State) (k : Scope) (hk : touchKeeper (.storeStatusPoll die) = some k) : Does
    (.storeStatusPoll die) s (Within k s) := by
  cases hk
  refine does_stays (o := execStoreStatusPoll die s) rfl ?_
  unfold execStoreStatusPoll
  refine stays_core fun hc h_s => ?_
  try dsimp only
  with_reducible repeat' first
    | assumption | intro _ | with_unfolding_all exact Scope.Le.trans rfl hc | apply within_advance | apply within_placeItems | split

theorem touch_storePageReadDone (die : Fin 16) (status : Byte) (data : List Byte) (hw : HwFault) (s : State) (k : Scope) (hk : touchKeeper
    (.storePageReadDone die status data hw) = some k) : Does (.storePageReadDone die status data hw) s (Within k s) := by
  cases hk
  refine does_stays (o := execStorePageReadDone die status data hw s) rfl ?_
  unfold execStorePageReadDone
  refine stays_core fun hc h_s => ?_
  try dsimp only
  with_reducible repeat' first
    | assumption | intro _ | with_unfolding_all exact Scope.Le.trans rfl hc | apply within_ite | apply within_advance
    | apply within_shelfDone | apply within_placeItems | apply within_writeBuf | apply within_hostEnd | apply within_headSeen
    | apply within_endOp | apply within_countEcc | apply within_pollDie | split

theorem touch_storeProgramDone (die : Fin 16) (status : Byte) (s : State) (k : Scope) (hk : touchKeeper (.storeProgramDone die status) =
    some k) : Does (.storeProgramDone die status) s (Within k s) := by
  cases hk
  refine does_stays (o := execStoreProgramDone die status s) rfl ?_
  unfold execStoreProgramDone
  refine stays_core fun hc h_s => ?_
  try dsimp only
  with_reducible repeat' first
    | assumption | intro _ | with_unfolding_all exact Scope.Le.trans rfl hc | apply within_ite | apply within_count | apply within_setSto
    | apply within_hostEnd | apply within_endOp | apply within_pollDie | apply within_blockFailed | apply within_spillWritten
    | apply within_spillMoved | split

theorem touch_storeEraseDone (die : Fin 16) (status : Byte) (s : State) (k : Scope) (hk : touchKeeper (.storeEraseDone die status) = some
    k) : Does (.storeEraseDone die status) s (Within k s) := by
  cases hk
  refine does_stays (o := execStoreEraseDone die status s) rfl ?_
  unfold execStoreEraseDone
  refine stays_core fun hc h_s => ?_
  try dsimp only
  with_reducible repeat' first
    | assumption | intro _ | with_unfolding_all exact Scope.Le.trans rfl hc | apply within_ite | apply within_count | apply within_setSto
    | apply within_hostEnd | apply within_endOp | apply within_pollDie | apply within_blockFailed | apply within_spillMoved | split

theorem touch_stoTimeout (die : Fin 16) (s : State) (k : Scope) (hk : touchKeeper (.stoTimeout die) = some k) : Does (.stoTimeout die) s
    (Within k s) := by
  cases hk
  refine does_stays (o := execStoTimeout die s) rfl ?_
  unfold execStoTimeout
  refine stays_core fun hc h_s => ?_
  try dsimp only
  with_reducible repeat' first
    | assumption | intro _ | with_unfolding_all exact Scope.Le.trans rfl hc | apply within_setFld Reg.STO_STATUS | apply within_post
    | apply within_advance | apply within_recover | apply within_resetStore | split

theorem touch_storeReinitRetry (ok : Bool) (s : State) (k : Scope) (hk : touchKeeper (.storeReinitRetry ok) = some k) : Does
    (.storeReinitRetry ok) s (Within k s) := by
  cases hk
  refine does_stays (o := execStoreReinitRetry ok s) rfl ?_
  unfold execStoreReinitRetry
  refine stays_core fun hc h_s => ?_
  try dsimp only
  with_reducible repeat' first
    | assumption | intro _ | with_unfolding_all exact Scope.Le.trans rfl hc | apply within_ite | apply within_postSec
    | apply within_advance | apply within_setSto | apply within_storeUp

theorem touch_stoRead (value : Word) (s : State) (k : Scope) (hk : touchKeeper (.stoRead value) = some k) : Does (.stoRead value) s
    (Within k s) := by
  cases hk
  refine does_stays (o := execStoRead value s) rfl ?_
  unfold execStoRead
  refine stays_core fun hc h_s => ?_
  try dsimp only
  with_reducible repeat' first
    | assumption | intro _ | with_unfolding_all exact Scope.Le.trans rfl hc | apply within_ite | apply within_writeHcmd

theorem touch_stoProgram (value : Word) (s : State) (k : Scope) (hk : touchKeeper (.stoProgram value) = some k) : Does (.stoProgram value)
    s (Within k s) := by
  cases hk
  refine does_stays (o := execStoProgram value s) rfl ?_
  unfold execStoProgram
  refine stays_core fun hc h_s => ?_
  try dsimp only
  with_reducible repeat' first
    | assumption | intro _ | with_unfolding_all exact Scope.Le.trans rfl hc | apply within_ite | apply within_writeHcmd

theorem touch_stoErase (value : Word) (s : State) (k : Scope) (hk : touchKeeper (.stoErase value) = some k) : Does (.stoErase value) s
    (Within k s) := by
  cases hk
  refine does_stays (o := execStoErase value s) rfl ?_
  unfold execStoErase
  refine stays_core fun hc h_s => ?_
  try dsimp only
  with_reducible repeat' first
    | assumption | intro _ | with_unfolding_all exact Scope.Le.trans rfl hc | apply within_ite | apply within_writeHcmd

theorem touch_kprCommit (s : State) (k : Scope) (hk : touchKeeper .kprCommit = some k) : Does .kprCommit s (Within k s) := by
  cases hk
  refine does_stays (o := execKprCommit s) rfl ?_
  unfold execKprCommit
  refine stays_core fun hc h_s => ?_
  try dsimp only
  with_reducible repeat' first
    | assumption | intro _ | with_unfolding_all exact Scope.Le.trans rfl hc | apply within_ite | apply within_post
    | apply within_authRefused | apply within_authAccepted | split | dsimp only | apply within_with_kpr

theorem touch_commitNvDone (ok : Bool) (s : State) (k : Scope) (hk : touchKeeper (.commitNvDone ok) = some k) : Does (.commitNvDone ok) s
    (Within k s) := by
  cases hk
  refine does_stays (o := execCommitNvDone ok s) rfl ?_
  unfold execCommitNvDone
  refine stays_core fun hc h_s => ?_
  try dsimp only
  with_reducible repeat' first
    | assumption | intro _ | with_unfolding_all exact Scope.Le.trans rfl hc | apply within_ite | apply within_setFld Reg.KPR_STATUS
    | apply within_post | apply within_authEnd | apply within_invalidate | apply within_setBank | split | dsimp only
    | apply within_with_kpr

theorem touch_recentSweepTick (s : State) (k : Scope) (hk : touchKeeper .recentSweepTick = some k) : Does .recentSweepTick s (Within k s)
    := by
  cases hk
  refine does_stays (o := execRecentSweepTick s) rfl ?_
  unfold execRecentSweepTick
  refine stays_core fun hc h_s => ?_
  try dsimp only
  with_reducible repeat' first
    | assumption | intro _ | with_unfolding_all exact Scope.Le.trans rfl hc | apply within_ite | apply within_advance
    | apply within_putWay | split | dsimp only | apply within_with_kpr

theorem touch_goPulseEnd (lane : Lane) (s : State) (k : Scope) (hk : touchKeeper (.goPulseEnd lane) = some k) : Does (.goPulseEnd lane) s
    (Within k s) := by
  cases hk
  refine does_stays (o := execGoPulseEnd lane s) rfl ?_
  unfold execGoPulseEnd
  refine stays_core fun hc h_s => ?_
  try dsimp only
  with_reducible repeat' first
    | assumption | intro _ | with_unfolding_all exact Scope.Le.trans rfl hc | apply within_modL | apply within_advance | split

theorem touch_alertPulseEnd (lane : Lane) (s : State) (k : Scope) (hk : touchKeeper (.alertPulseEnd lane) = some k) : Does (.alertPulseEnd
    lane) s (Within k s) := by
  cases hk
  refine does_stays (o := execAlertPulseEnd lane s) rfl ?_
  unfold execAlertPulseEnd
  refine stays_core fun hc h_s => ?_
  try dsimp only
  with_reducible repeat' first
    | assumption | intro _ | with_unfolding_all exact Scope.Le.trans rfl hc | apply within_modL | apply within_advance | split

/-! ### touchTag -/

theorem touch_emuReqa (s : State) (k : Scope) (hk : touchTag .emuReqa = some k) : Does .emuReqa s (Within k s) := by
  cases hk
  refine does_stays (o := execEmuReqa s) rfl ?_
  unfold execEmuReqa
  refine stays_tagFrame fun hc h_s => ?_
  try dsimp only
  with_reducible repeat' first
    | assumption | intro _ | with_unfolding_all exact Scope.Le.trans rfl hc | apply within_ite | apply within_tagReject
    | apply within_tagWake

theorem touch_emuWupa (s : State) (k : Scope) (hk : touchTag .emuWupa = some k) : Does .emuWupa s (Within k s) := by
  cases hk
  refine does_stays (o := execEmuWupa s) rfl ?_
  unfold execEmuWupa
  refine stays_tagFrame fun hc h_s => ?_
  try dsimp only
  with_reducible repeat' first
    | assumption | intro _ | with_unfolding_all exact Scope.Le.trans rfl hc | apply within_ite | apply within_tagReject
    | apply within_tagWake

theorem touch_emuSelect (frame : List Byte) (lastBits : Nat) (s : State) (k : Scope) (hk : touchTag (.emuSelect frame lastBits) = some k)
    : Does (.emuSelect frame lastBits) s (Within k s) := by
  cases hk
  refine does_stays (o := execEmuSelect frame lastBits s) rfl ?_
  unfold execEmuSelect
  refine stays_tagFrame fun hc h_s => ?_
  try dsimp only
  with_reducible repeat' first
    | assumption | intro _ | with_unfolding_all exact Scope.Le.trans rfl hc | apply within_ite | apply within_tagReject
    | apply within_tagSel

theorem touch_emuRead (block : Byte) (s : State) (k : Scope) (hk : touchTag (.emuRead block) = some k) : Does (.emuRead block) s (Within k
    s) := by
  cases hk
  refine does_stays (o := execEmuRead block s) rfl ?_
  unfold execEmuRead
  refine stays_tagFrame fun hc h_s => ?_
  try dsimp only
  with_reducible repeat' first
    | assumption | intro _ | with_unfolding_all exact Scope.Le.trans rfl hc | apply within_ite | apply within_respondNak
    | apply within_tagReject | apply within_sendBusy | apply within_sendBlock

theorem touch_readCtr (index : Byte) (s : State) (k : Scope) (hk : touchTag (.readCtr index) = some k) : Does (.readCtr index) s (Within k
    s) := by
  cases hk
  refine does_stays (o := execReadCtr index s) rfl ?_
  unfold execReadCtr
  refine stays_tagFrame fun hc h_s => ?_
  try dsimp only
  with_reducible repeat' first
    | assumption | intro _ | with_unfolding_all exact Scope.Le.trans rfl hc | apply within_ite | apply within_respondCrc
    | apply within_respondNak | apply within_tagReject

theorem touch_emuHlta (s : State) (k : Scope) (hk : touchTag .emuHlta = some k) : Does .emuHlta s (Within k s) := by
  cases hk
  refine does_stays (o := execEmuHlta s) rfl ?_
  unfold execEmuHlta
  refine stays_tagFrame fun hc h_s => ?_
  try dsimp only
  with_reducible repeat' first
    | assumption | intro _ | with_unfolding_all exact Scope.Le.trans rfl hc | apply within_ite | apply within_leaveActive
    | apply within_tagReject

theorem touch_emuAccBench (dur : Byte) (s : State) (k : Scope) (hk : touchTag (.emuAccBench dur) = some k) : Does (.emuAccBench dur) s
    (Within k s) := by
  cases hk
  refine does_stays (o := execEmuAccBench dur s) rfl ?_
  unfold execEmuAccBench
  refine stays_tagFrame fun hc h_s => ?_
  try dsimp only
  with_reducible repeat' first
    | assumption | intro _ | with_unfolding_all exact Scope.Le.trans rfl hc | apply within_ite | apply within_tagReject
    | apply within_benchTag

theorem touch_emuAccRelease (s : State) (k : Scope) (hk : touchTag .emuAccRelease = some k) : Does .emuAccRelease s (Within k s) := by
  cases hk
  refine does_stays (o := execEmuAccRelease s) rfl ?_
  unfold execEmuAccRelease
  refine stays_tagFrame fun hc h_s => ?_
  try dsimp only
  with_reducible repeat' first
    | assumption | intro _ | with_unfolding_all exact Scope.Le.trans rfl hc | apply within_ite | apply within_tagReject

theorem touch_emuAccEnrol (s : State) (k : Scope) (hk : touchTag .emuAccEnrol = some k) : Does .emuAccEnrol s (Within k s) := by
  cases hk
  refine does_stays (o := execEmuAccEnrol s) rfl ?_
  unfold execEmuAccEnrol
  refine stays_tagFrame fun hc h_s => ?_
  try dsimp only
  with_reducible repeat' first
    | assumption | intro _ | with_unfolding_all exact Scope.Le.trans rfl hc | apply within_ite | apply within_tagReject

theorem touch_emuOtherFrame (_frame : List Byte) (_lastBits : Nat) (s : State) (k : Scope) (hk : touchTag (.emuOtherFrame _frame
    _lastBits) = some k) : Does (.emuOtherFrame _frame _lastBits) s (Within k s) := by
  cases hk
  refine does_stays (o := execEmuOtherFrame _frame _lastBits s) rfl ?_
  unfold execEmuOtherFrame
  refine stays_tagFrame fun hc h_s => ?_
  try dsimp only
  with_reducible repeat' first | assumption | intro _ | with_unfolding_all exact Scope.Le.trans rfl hc | apply within_tagReject

theorem touch_emuFieldLossTimeout (s : State) (k : Scope) (hk : touchTag .emuFieldLossTimeout = some k) : Does .emuFieldLossTimeout s
    (Within k s) := by
  cases hk
  refine does_stays (o := execEmuFieldLossTimeout s) rfl ?_
  unfold execEmuFieldLossTimeout
  refine stays_core fun hc h_s => ?_
  try dsimp only
  with_reducible repeat' first
    | assumption | intro _ | with_unfolding_all exact Scope.Le.trans rfl hc | apply within_ite | apply within_advance | apply within_tagTo
    | split

theorem touch_emuBenchEnd (s : State) (k : Scope) (hk : touchTag .emuBenchEnd = some k) : Does .emuBenchEnd s (Within k s) := by
  cases hk
  refine does_stays (o := execEmuBenchEnd s) rfl ?_
  unfold execEmuBenchEnd
  refine stays_done fun hc h_s => ?_
  try dsimp only
  with_reducible repeat' first
    | assumption | intro _ | with_unfolding_all exact Scope.Le.trans rfl hc | apply within_ite | apply within_advance
    | apply within_takeFreeWord | apply within_modE | split

theorem touch_emuDataWrite (index : Fin 256) (value : Word) (s : State) (k : Scope) (hk : touchTag (.emuDataWrite index value) = some k) :
    Does (.emuDataWrite index value) s (Within k s) := by
  cases hk
  refine does_stays (o := execEmuDataWrite index value s) rfl ?_
  unfold execEmuDataWrite
  refine stays_core fun hc h_s => ?_
  try dsimp only
  with_reducible repeat' first
    | assumption | intro _ | with_unfolding_all exact Scope.Le.trans rfl hc | apply within_ite | apply within_writeEmuData

theorem touch_emuBusy (s : State) (k : Scope) (hk : touchTag .emuBusy = some k) : Does .emuBusy s (Within k s) := by
  cases hk
  refine does_stays (o := execEmuBusy s) rfl ?_
  unfold execEmuBusy
  refine stays_core fun hc h_s => ?_
  try dsimp only
  with_reducible repeat' first
    | assumption | intro _ | with_unfolding_all exact Scope.Le.trans rfl hc | apply within_stick Reg.EMU_STATUS | apply within_post
    | apply within_advance | apply within_modE | split

theorem touch_wireLockWrite (value : Word) (s : State) (k : Scope) (hk : touchTag (.wireLockWrite value) = some k) : Does (.wireLockWrite
    value) s (Within k s) := by
  cases hk
  refine does_stays (o := execWireLockWrite value s) rfl ?_
  unfold execWireLockWrite
  refine stays_core fun hc h_s => ?_
  try dsimp only
  with_reducible repeat' first | assumption | intro _ | with_unfolding_all exact Scope.Le.trans rfl hc | apply within_writeWire

theorem touch_sync (s : State) (k : Scope) (hk : touchTag .sync = some k) : Does .sync s (Within k s) := by
  cases hk
  refine does_stays (o := execSync s) rfl ?_
  unfold execSync
  refine stays_core fun hc h_s => ?_
  try dsimp only
  with_reducible repeat' first | assumption | intro _ | with_unfolding_all exact Scope.Le.trans rfl hc | apply within_writeEmuCmd

theorem touch_emuSyncDone (ok : Bool) (s : State) (k : Scope) (hk : touchTag (.emuSyncDone ok) = some k) : Does (.emuSyncDone ok) s
    (Within k s) := by
  cases hk
  refine does_stays (o := execEmuSyncDone ok s) rfl ?_
  unfold execEmuSyncDone
  refine stays_core fun hc h_s => ?_
  try dsimp only
  with_reducible repeat' first
    | assumption | intro _ | with_unfolding_all exact Scope.Le.trans rfl hc | apply within_ite | apply within_setFld Reg.EMU_STATUS
    | apply within_stick Reg.EMU_STATUS | apply within_post | apply within_nvWrite | apply within_spoilImage | apply within_nextSync
    | split

theorem touch_ctrInc (value : Word) (s : State) (k : Scope) (hk : touchTag (.ctrInc value) = some k) : Does (.ctrInc value) s (Within k s)
    := by
  cases hk
  refine does_stays (o := execCtrInc value s) rfl ?_
  unfold execCtrInc
  refine stays_core fun hc h_s => ?_
  try dsimp only
  with_reducible repeat' first | assumption | intro _ | with_unfolding_all exact Scope.Le.trans rfl hc | apply within_writeEmuCmd

theorem touch_counterUpdate (ok : Bool) (s : State) (k : Scope) (hk : touchTag (.counterUpdate ok) = some k) : Does (.counterUpdate ok) s
    (Within k s) := by
  cases hk
  refine does_stays (o := execCounterUpdate ok s) rfl ?_
  unfold execCounterUpdate
  refine stays_done fun hc h_s => ?_
  try dsimp only
  with_reducible repeat' first
    | assumption | intro _ | with_unfolding_all exact Scope.Le.trans rfl hc | apply within_ite | apply within_runUpdate
    | apply within_cellTime | split

theorem touch_harvestPowerUp (away : Nat) (s : State) (k : Scope) (hk : touchTag (.harvestPowerUp away) = some k) : Does (.harvestPowerUp
    away) s (Within k s) := by
  cases hk
  refine does_stays (o := execHarvestPowerUp away s) rfl ?_
  unfold execHarvestPowerUp
  refine stays_done fun hc h_s => ?_
  try dsimp only
  with_reducible repeat' first
    | assumption | intro _ | with_unfolding_all exact Scope.Le.trans rfl hc | apply within_ite | apply within_modE
    | apply within_recoverCtr | apply within_emuStart | apply within_takeCell | apply within_each | split

theorem touch_harvestPowerLoss (s : State) (k : Scope) (hk : touchTag .harvestPowerLoss = some k) : Does .harvestPowerLoss s (Within k s)
    := by
  cases hk
  refine does_stays (o := execHarvestPowerLoss s) rfl ?_
  unfold execHarvestPowerLoss
  refine stays_done fun hc h_s => ?_
  try dsimp only
  with_reducible repeat' first
    | assumption | intro _ | with_unfolding_all exact Scope.Le.trans rfl hc | apply within_ite | apply within_emuDown

/-! ### touchCoex -/

theorem touch_grantChange (high : Bool) (s : State) (k : Scope) (hk : touchCoex (.grantChange high) = some k) : Does (.grantChange high) s
    (Within k s) := by
  cases hk
  refine does_stays (o := execGrantChange high s) rfl ?_
  unfold execGrantChange
  refine stays_mon fun hc h_s => ?_
  try dsimp only
  with_reducible repeat' first
    | assumption | intro _ | with_unfolding_all exact Scope.Le.trans rfl hc | apply within_ite | apply within_setCox
    | apply within_seenLater | apply within_grantMoved

theorem touch_grantWaitExpiry (port : Port) (s : State) (k : Scope) (hk : touchCoex (.grantWaitExpiry port) = some k) : Does
    (.grantWaitExpiry port) s (Within k s) := by
  cases hk
  refine does_stays (o := execGrantWaitExpiry port s) rfl ?_
  unfold execGrantWaitExpiry
  refine stays_core fun hc h_s => ?_
  try dsimp only
  with_reducible repeat' first
    | assumption | intro _ | with_unfolding_all exact Scope.Le.trans rfl hc | apply within_ite | apply within_modF | apply within_advance
    | apply within_coxDefer | apply within_failPlan | split

theorem touch_retryExpiry (port : Port) (s : State) (k : Scope) (hk : touchCoex (.retryExpiry port) = some k) : Does (.retryExpiry port) s
    (Within k s) := by
  cases hk
  refine does_stays (o := execRetryExpiry port s) rfl ?_
  unfold execRetryExpiry
  refine stays_core fun hc h_s => ?_
  try dsimp only
  with_reducible repeat' first
    | assumption | intro _ | with_unfolding_all exact Scope.Le.trans rfl hc | apply within_advance | apply within_attempt
    | apply within_unwait | split

theorem touch_blankChange (second high : Bool) (s : State) (k : Scope) (hk : touchCoex (.blankChange second high) = some k) : Does
    (.blankChange second high) s (Within k s) := by
  cases hk
  refine does_stays (o := execBlankChange second high s) rfl ?_
  unfold execBlankChange
  refine stays_mon fun hc h_s => ?_
  try dsimp only
  with_reducible repeat' first
    | assumption | intro _ | with_unfolding_all exact Scope.Le.trans rfl hc | apply within_ite | apply within_tryOffs
    | apply within_setCox | apply within_seenLater | apply within_markBlanked

theorem touch_blankTailExpiry (port : Port) (s : State) (k : Scope) (hk : touchCoex (.blankTailExpiry port) = some k) : Does
    (.blankTailExpiry port) s (Within k s) := by
  cases hk
  refine does_stays (o := execBlankTailExpiry port s) rfl ?_
  unfold execBlankTailExpiry
  refine stays_core fun hc h_s => ?_
  try dsimp only
  with_reducible repeat' first
    | assumption | intro _ | with_unfolding_all exact Scope.Le.trans rfl hc | apply within_ite | apply within_advance
    | apply within_tryOffs | apply within_attempt

theorem touch_coxBlankStuck (second : Bool) (s : State) (k : Scope) (hk : touchCoex (.coxBlankStuck second) = some k) : Does
    (.coxBlankStuck second) s (Within k s) := by
  cases hk
  refine does_stays (o := execCoxBlankStuck second s) rfl ?_
  unfold execCoxBlankStuck
  refine stays_core fun hc h_s => ?_
  try dsimp only
  with_reducible repeat' first
    | assumption | intro _ | with_unfolding_all exact Scope.Le.trans rfl hc | apply within_ite | apply within_post | apply within_advance
    | apply within_tryOffs | apply within_setCox | split

theorem touch_coxRegLower (s : State) (k : Scope) (hk : touchCoex .coxRegLower = some k) : Does .coxRegLower s (Within k s) := by
  cases hk
  refine does_stays (o := execCoxRegLower s) rfl ?_
  unfold execCoxRegLower
  refine stays_core fun hc h_s => ?_
  try dsimp only
  with_reducible repeat' first
    | assumption | intro _ | with_unfolding_all exact Scope.Le.trans rfl hc | apply within_ite | apply within_setFld Reg.COX_REG_STATUS
    | apply within_post | apply within_authEnd | apply within_authRefused | apply within_authAccepted | apply within_setCox | split

theorem touch_regLowerNvDone (ok : Bool) (s : State) (k : Scope) (hk : touchCoex (.regLowerNvDone ok) = some k) : Does (.regLowerNvDone
    ok) s (Within k s) := by
  cases hk
  refine does_stays (o := execRegLowerNvDone ok s) rfl ?_
  unfold execRegLowerNvDone
  refine stays_core fun hc h_s => ?_
  try dsimp only
  with_reducible repeat' first
    | assumption | intro _ | with_unfolding_all exact Scope.Le.trans rfl hc | apply within_ite | apply within_setFld Reg.COX_REG_STATUS
    | apply within_bump Reg.COX_REG_STATUS | apply within_post | apply within_authEnd | apply within_setCox | apply within_applyLower
    | split

/-! ### touchMonitor -/

theorem touch_fieldCeilingFault (port : Port) (seen : FieldSight) (s : State) (k : Scope) (hk : touchMonitor (.fieldCeilingFault port
    seen) = some k) : Does (.fieldCeilingFault port seen) s (Within k s) := by
  cases hk
  refine does_stays (o := execFieldCeilingFault port seen s) rfl ?_
  unfold execFieldCeilingFault
  refine stays_mon fun hc h_s => ?_
  try dsimp only
  with_reducible repeat' first | assumption | intro _ | with_unfolding_all exact Scope.Le.trans rfl hc | apply within_detect

theorem touch_fieldOffFault (port : Port) (seen : FieldSight) (s : State) (k : Scope) (hk : touchMonitor (.fieldOffFault port seen) = some
    k) : Does (.fieldOffFault port seen) s (Within k s) := by
  cases hk
  refine does_stays (o := execFieldOffFault port seen s) rfl ?_
  unfold execFieldOffFault
  refine stays_mon fun hc h_s => ?_
  try dsimp only
  with_reducible repeat' first
    | assumption | intro _ | with_unfolding_all exact Scope.Le.trans rfl hc | apply within_advance | apply within_detect | split

theorem touch_laneReadbackFault (lane : Lane) (fb : Bool) (genuine : Bool) (s : State) (k : Scope) (hk : touchMonitor (.laneReadbackFault
    lane fb genuine) = some k) : Does (.laneReadbackFault lane fb genuine) s (Within k s) := by
  cases hk
  refine does_stays (o := execLaneReadbackFault lane fb genuine s) rfl ?_
  unfold execLaneReadbackFault
  refine stays_mon fun hc h_s => ?_
  try dsimp only
  with_reducible repeat' first
    | assumption | intro _ | with_unfolding_all exact Scope.Le.trans rfl hc | apply within_ite
    | apply within_setFldBit Reg.SAF_FAULT_WHERE | apply within_advance | apply within_detect | apply within_setFb

theorem touch_clkMonWindow (count : Byte) (genuine : Bool) (s : State) (k : Scope) (hk : touchMonitor (.clkMonWindow count genuine) = some
    k) : Does (.clkMonWindow count genuine) s (Within k s) := by
  cases hk
  refine does_stays (o := execClkMonWindow count genuine s) rfl ?_
  unfold execClkMonWindow
  refine stays_mon fun hc h_s => ?_
  try dsimp only
  with_reducible repeat' first
    | assumption | intro _ | with_unfolding_all exact Scope.Le.trans rfl hc | apply within_ite | apply within_setReg Reg.SAF_CLKMON
    | apply within_advance | apply within_setSaf | apply within_detect

theorem touch_heartbeatToggle (s : State) (k : Scope) (hk : touchMonitor .heartbeatToggle = some k) : Does .heartbeatToggle s (Within k s)
    := by
  cases hk
  refine does_stays (o := execHeartbeatToggle s) rfl ?_
  unfold execHeartbeatToggle
  refine stays_core fun hc h_s => ?_
  try dsimp only
  with_reducible repeat' first
    | assumption | intro _ | with_unfolding_all exact Scope.Le.trans rfl hc | apply within_advance | apply within_setSaf

theorem touch_heartbeatTimeout (genuine : Bool) (s : State) (k : Scope) (hk : touchMonitor (.heartbeatTimeout genuine) = some k) : Does
    (.heartbeatTimeout genuine) s (Within k s) := by
  cases hk
  refine does_stays (o := execHeartbeatTimeout genuine s) rfl ?_
  unfold execHeartbeatTimeout
  refine stays_mon fun hc h_s => ?_
  try dsimp only
  with_reducible repeat' first
    | assumption | intro _ | with_unfolding_all exact Scope.Le.trans rfl hc | apply within_ite | apply within_advance
    | apply within_detect

theorem touch_monClkWindow (count : Byte) (genuine : Bool) (s : State) (k : Scope) (hk : touchMonitor (.monClkWindow count genuine) = some
    k) : Does (.monClkWindow count genuine) s (Within k s) := by
  cases hk
  refine does_stays (o := execMonClkWindow count genuine s) rfl ?_
  unfold execMonClkWindow
  refine stays_core fun hc h_s => ?_
  try dsimp only
  with_reducible repeat' first
    | assumption | intro _ | with_unfolding_all exact Scope.Le.trans rfl hc | apply within_ite | apply within_setFld Reg.SAF_STATUS
    | apply within_advance | apply within_detect

theorem touch_overtempFault (genuine : Bool) (s : State) (k : Scope) (hk : touchMonitor (.overtempFault genuine) = some k) : Does
    (.overtempFault genuine) s (Within k s) := by
  cases hk
  refine does_stays (o := execOvertempFault genuine s) rfl ?_
  unfold execOvertempFault
  refine stays_mon fun hc h_s => ?_
  try dsimp only
  with_reducible repeat' first | assumption | intro _ | with_unfolding_all exact Scope.Le.trans rfl hc | apply within_detect

theorem touch_stopN (low : Bool) (s : State) (k : Scope) (hk : touchMonitor (.stopN low) = some k) : Does (.stopN low) s (Within k s) :=
    by
  cases hk
  refine does_stays (o := execStopN low s) rfl ?_
  unfold execStopN
  refine stays_mon fun hc h_s => ?_
  try dsimp only
  with_reducible repeat' first
    | assumption | intro _ | with_unfolding_all exact Scope.Le.trans rfl hc | apply within_ite | apply within_setFld Reg.SAF_STATUS
    | apply within_advance | apply within_trip

theorem touch_coreSeesSafeState (rxs : List RxData) (s : State) (k : Scope) (hk : touchMonitor (.coreSeesSafeState rxs) = some k) : Does
    (.coreSeesSafeState rxs) s (Within k s) := by
  cases hk
  refine does_stays (o := execCoreSeesSafeState rxs s) rfl ?_
  unfold execCoreSeesSafeState
  refine stays_core fun hc h_s => ?_
  try dsimp only
  with_reducible repeat' first | assumption | intro _ | with_unfolding_all exact Scope.Le.trans rfl hc | apply within_coreSees | split

theorem touch_safInject (value : Word) (s : State) (k : Scope) (hk : touchMonitor (.safInject value) = some k) : Does (.safInject value) s
    (Within k s) := by
  cases hk
  refine does_stays (o := execSafInject value s) rfl ?_
  unfold execSafInject
  refine stays_core fun hc h_s => ?_
  try dsimp only
  with_reducible repeat' first | assumption | intro _ | with_unfolding_all exact Scope.Le.trans rfl hc | apply within_writeInject

theorem touch_safTestEnter (s : State) (k : Scope) (hk : touchMonitor .safTestEnter = some k) : Does .safTestEnter s (Within k s) := by
  cases hk
  refine does_stays (o := execSafTestEnter s) rfl ?_
  unfold execSafTestEnter
  refine stays_core fun hc h_s => ?_
  try dsimp only
  with_reducible repeat' first
    | assumption | intro _ | with_unfolding_all exact Scope.Le.trans rfl hc | apply within_ite | apply within_authEnd
    | apply within_authRefused | apply within_authAccepted | apply within_enterTest | split

/-! ### touchRecords -/

theorem touch_ringWrite (good : Bool) (s : State) (k : Scope) (hk : touchRecords (.ringWrite good) = some k) : Does (.ringWrite good) s
    (Within k s) := by
  cases hk
  refine does_stays (o := execRingWrite good s) rfl ?_
  unfold execRingWrite
  refine stays_coreAll fun hc h_s => ?_
  try dsimp only
  with_reducible repeat' first
    | assumption | intro _ | with_unfolding_all exact Scope.Le.trans rfl hc | apply within_ite | apply within_retireLine
    | apply within_ringMove | apply within_spoilLine | apply within_putBack | split

theorem touch_freezeWrite (value : Word) (s : State) (k : Scope) (hk : touchRecords (.freezeWrite value) = some k) : Does (.freezeWrite
    value) s (Within k s) := by
  cases hk
  refine does_stays (o := execFreezeWrite value s) rfl ?_
  unfold execFreezeWrite
  refine stays_coreAll fun hc h_s => ?_
  try dsimp only
  with_reducible repeat' first | assumption | intro _ | with_unfolding_all exact Scope.Le.trans rfl hc | apply within_writeFreeze

theorem touch_silFreezeExpired (s : State) (k : Scope) (hk : touchRecords .silFreezeExpired = some k) : Does .silFreezeExpired s (Within k
    s) := by
  cases hk
  refine does_stays (o := execSilFreezeExpired s) rfl ?_
  unfold execSilFreezeExpired
  refine stays_coreAll fun hc h_s => ?_
  try dsimp only
  with_reducible repeat' first
    | assumption | intro _ | with_unfolding_all exact Scope.Le.trans rfl hc | apply within_setFld Reg.SIL_FREEZE
    | apply within_stick Reg.SIL_FREEZE | apply within_post | apply within_setSil | apply within_advance | split

theorem touch_clearPassDone (s : State) (k : Scope) (hk : touchRecords .clearPassDone = some k) : Does .clearPassDone s (Within k s) := by
  cases hk
  refine does_stays (o := execClearPassDone s) rfl ?_
  unfold execClearPassDone
  refine stays_coreAll fun hc h_s => ?_
  try dsimp only
  with_reducible repeat' first | assumption | intro _ | with_unfolding_all exact Scope.Le.trans rfl hc | apply within_setSil

theorem touch_ringInitDone (s : State) (k : Scope) (hk : touchRecords .ringInitDone = some k) : Does .ringInitDone s (Within k s) := by
  cases hk
  refine does_stays (o := execRingInitDone s) rfl ?_
  unfold execRingInitDone
  refine stays_coreAll fun hc h_s => ?_
  try dsimp only
  with_reducible repeat' first | assumption | intro _ | with_unfolding_all exact Scope.Le.trans rfl hc | apply within_setSil

theorem touch_spillFlushExpiry (s : State) (k : Scope) (hk : touchRecords .spillFlushExpiry = some k) : Does .spillFlushExpiry s (Within k
    s) := by
  cases hk
  refine does_stays (o := execSpillFlushExpiry s) rfl ?_
  unfold execSpillFlushExpiry
  refine stays_coreAll fun hc h_s => ?_
  try dsimp only
  with_reducible repeat' first
    | assumption | intro _ | with_unfolding_all exact Scope.Le.trans rfl hc | apply within_setSil | apply within_advance | split

theorem touch_rateWindowEnd (code scope : Nat) (s : State) (k : Scope) (hk : touchRecords (.rateWindowEnd code scope) = some k) : Does
    (.rateWindowEnd code scope) s (Within k s) := by
  cases hk
  refine does_stays (o := execRateWindowEnd code scope s) rfl ?_
  unfold execRateWindowEnd
  refine stays_coreAll fun hc h_s => ?_
  try dsimp only
  with_reducible repeat' first
    | assumption | intro _ | with_unfolding_all exact Scope.Le.trans rfl hc | apply within_ite | apply within_closeWin
    | apply within_advance | split

theorem touch_timerTick (timer : TimerId) (s : State) (k : Scope) (hk : touchRecords (.timerTick timer) = some k) : Does (.timerTick
    timer) s (Within k s) := by
  cases hk
  refine does_stays (o := execTimerTick timer s) rfl ?_
  unfold execTimerTick
  refine stays_core fun hc h_s => ?_
  try dsimp only
  with_reducible repeat' first | assumption | intro _ | with_unfolding_all exact Scope.Le.trans rfl hc | apply within_tickDue

theorem touch_capture (timer : TimerId) (rising : Bool) (s : State) (k : Scope) (hk : touchRecords (.capture timer rising) = some k) :
    Does (.capture timer rising) s (Within k s) := by
  cases hk
  refine does_stays (o := execCapture timer rising s) rfl ?_
  unfold execCapture
  refine stays_core fun hc h_s => ?_
  try dsimp only
  with_reducible repeat' first
    | assumption | intro _ | with_unfolding_all exact Scope.Le.trans rfl hc | apply within_ite | apply within_noteSet | apply within_post
    | apply within_modCapt

theorem touch_captRead (timer : TimerId) (s : State) (k : Scope) (hk : touchRecords (.captRead timer) = some k) : Does (.captRead timer) s
    (Within k s) := by
  cases hk
  refine does_stays (o := execCaptRead timer s) rfl ?_
  unfold execCaptRead
  refine stays_core fun hc h_s => ?_
  try dsimp only
  with_reducible repeat' first
    | assumption | intro _ | with_unfolding_all exact Scope.Le.trans rfl hc | apply within_setOut | apply within_readCapt

theorem touch_timerGroup (value : Word) (s : State) (k : Scope) (hk : touchRecords (.timerGroup value) = some k) : Does (.timerGroup
    value) s (Within k s) := by
  cases hk
  refine does_stays (o := execTimerGroup value s) rfl ?_
  unfold execTimerGroup
  refine stays_core fun hc h_s => ?_
  try dsimp only
  with_reducible repeat' first | assumption | intro _ | with_unfolding_all exact Scope.Le.trans rfl hc | apply within_writeGroup

theorem touch_wallSet (s : State) (k : Scope) (hk : touchRecords .wallSet = some k) : Does .wallSet s (Within k s) := by
  cases hk
  refine does_stays (o := execWallSet s) rfl ?_
  unfold execWallSet
  refine stays_core fun hc h_s => ?_
  try dsimp only
  with_reducible repeat' first
    | assumption | intro _ | with_unfolding_all exact Scope.Le.trans rfl hc | apply within_ite | apply within_post | apply within_authEnd
    | apply within_authRefused | apply within_authAccepted | apply within_setWall | split

theorem touch_slowRateMeasurement (cycles : Nat) (s : State) (k : Scope) (hk : touchRecords (.slowRateMeasurement cycles) = some k) : Does
    (.slowRateMeasurement cycles) s (Within k s) := by
  cases hk
  refine does_stays (o := execSlowRateMeasurement cycles s) rfl ?_
  unfold execSlowRateMeasurement
  refine stays_core fun hc h_s => ?_
  try dsimp only
  with_reducible repeat' first
    | assumption | intro _ | with_unfolding_all exact Scope.Le.trans rfl hc | apply within_ite | apply within_setFld Reg.TMR_SLOW_RATE
    | apply within_post

theorem touch_evqIntakeMove (s : State) (k : Scope) (hk : touchRecords .evqIntakeMove = some k) : Does .evqIntakeMove s (Within k s) := by
  cases hk
  refine does_stays (o := execEvqIntakeMove s) rfl ?_
  unfold execEvqIntakeMove
  refine stays_coreAll fun hc h_s => ?_
  try dsimp only
  with_reducible repeat' first | assumption | intro _ | with_unfolding_all exact Scope.Le.trans rfl hc | apply within_evqMove

theorem touch_evqPop0 (bad0 bad1 : Bool) (s : State) (k : Scope) (hk : touchRecords (.evqPop0 bad0 bad1) = some k) : Does (.evqPop0 bad0
    bad1) s (Within k s) := by
  cases hk
  refine does_stays (o := execEvqPop0 bad0 bad1 s) rfl ?_
  unfold execEvqPop0
  refine stays_coreAll fun hc h_s => ?_
  try dsimp only
  with_reducible repeat' first
    | assumption | intro _ | with_unfolding_all exact Scope.Le.trans rfl hc | apply within_popEvq | apply within_setOut

theorem touch_evqAgeTick (s : State) (k : Scope) (hk : touchRecords .evqAgeTick = some k) : Does .evqAgeTick s (Within k s) := by
  cases hk
  refine does_stays (o := execEvqAgeTick s) rfl ?_
  unfold execEvqAgeTick
  refine stays_coreAll fun hc h_s => ?_
  try dsimp only
  with_reducible repeat' first
    | assumption | intro _ | with_unfolding_all exact Scope.Le.trans rfl hc | apply within_setEvq | apply within_advance

theorem touch_start (chan : Chan) (s : State) (k : Scope) (hk : touchRecords (.start chan) = some k) : Does (.start chan) s (Within k s)
    := by
  cases hk
  refine does_stays (o := execStart chan s) rfl ?_
  unfold execStart
  refine stays_core fun hc h_s => ?_
  try dsimp only
  with_reducible repeat' first | assumption | intro _ | with_unfolding_all exact Scope.Le.trans rfl hc | apply within_writeCrcCmd

theorem touch_data8 (chan : Chan) (value : Word) (s : State) (k : Scope) (hk : touchRecords (.data8 chan value) = some k) : Does (.data8
    chan value) s (Within k s) := by
  cases hk
  refine does_stays (o := execData8 chan value s) rfl ?_
  unfold execData8
  refine stays_core fun hc h_s => ?_
  try dsimp only
  with_reducible repeat' first | assumption | intro _ | with_unfolding_all exact Scope.Le.trans rfl hc | apply within_writeCrcData

theorem touch_data16 (chan : Chan) (value : Word) (s : State) (k : Scope) (hk : touchRecords (.data16 chan value) = some k) : Does
    (.data16 chan value) s (Within k s) := by
  cases hk
  refine does_stays (o := execData16 chan value s) rfl ?_
  unfold execData16
  refine stays_core fun hc h_s => ?_
  try dsimp only
  with_reducible repeat' first | assumption | intro _ | with_unfolding_all exact Scope.Le.trans rfl hc | apply within_writeCrcData

theorem touch_data32 (chan : Chan) (value : Word) (s : State) (k : Scope) (hk : touchRecords (.data32 chan value) = some k) : Does
    (.data32 chan value) s (Within k s) := by
  cases hk
  refine does_stays (o := execData32 chan value s) rfl ?_
  unfold execData32
  refine stays_core fun hc h_s => ?_
  try dsimp only
  with_reducible repeat' first | assumption | intro _ | with_unfolding_all exact Scope.Le.trans rfl hc | apply within_writeCrcData

theorem touch_rangeGo (chan : Chan) (bad : Bool) (s : State) (k : Scope) (hk : touchRecords (.rangeGo chan bad) = some k) : Does (.rangeGo
    chan bad) s (Within k s) := by
  cases hk
  refine does_stays (o := execRangeGo chan bad s) rfl ?_
  unfold execRangeGo
  refine stays_core fun hc h_s => ?_
  try dsimp only
  with_reducible repeat' first | assumption | intro _ | with_unfolding_all exact Scope.Le.trans rfl hc | apply within_writeCrcCmd

theorem touch_crcRangeDone (chan : Chan) (s : State) (k : Scope) (hk : touchRecords (.crcRangeDone chan) = some k) : Does (.crcRangeDone
    chan) s (Within k s) := by
  cases hk
  refine does_stays (o := execCrcRangeDone chan s) rfl ?_
  unfold execCrcRangeDone
  refine stays_core fun hc h_s => ?_
  try dsimp only
  with_reducible repeat' first
    | assumption | intro _ | with_unfolding_all exact Scope.Le.trans rfl hc | apply within_setChan | apply within_advance
    | apply within_crcData | split

theorem touch_traceCtrlWrite (value : Word) (s : State) (k : Scope) (hk : touchRecords (.traceCtrlWrite value) = some k) : Does
    (.traceCtrlWrite value) s (Within k s) := by
  cases hk
  refine does_stays (o := execTraceCtrlWrite value s) rfl ?_
  unfold execTraceCtrlWrite
  refine stays_coreAll fun hc h_s => ?_
  try dsimp only
  with_reducible repeat' first | assumption | intro _ | with_unfolding_all exact Scope.Le.trans rfl hc | apply within_writeTraceCtrl

theorem touch_traceSyncTimer (s : State) (k : Scope) (hk : touchRecords .traceSyncTimer = some k) : Does .traceSyncTimer s (Within k s) :=
    by
  cases hk
  refine does_stays (o := execTraceSyncTimer s) rfl ?_
  unfold execTraceSyncTimer
  refine stays_coreAll fun hc h_s => ?_
  try dsimp only
  with_reducible repeat' first
    | assumption | intro _ | with_unfolding_all exact Scope.Le.trans rfl hc | apply within_setTrc | apply within_advance
    | apply within_traceSync | split

theorem touch_traceLevelTimer (s : State) (k : Scope) (hk : touchRecords .traceLevelTimer = some k) : Does .traceLevelTimer s (Within k s)
    := by
  cases hk
  refine does_stays (o := execTraceLevelTimer s) rfl ?_
  unfold execTraceLevelTimer
  refine stays_coreAll fun hc h_s => ?_
  try dsimp only
  with_reducible repeat' first
    | assumption | intro _ | with_unfolding_all exact Scope.Le.trans rfl hc | apply within_setTrc | apply within_trace
    | apply within_advance | apply within_foldl | split

theorem touch_snap (s : State) (k : Scope) (hk : touchRecords .snap = some k) : Does .snap s (Within k s) := by
  cases hk
  refine does_stays (o := execSnap s) rfl ?_
  unfold execSnap
  refine stays_coreAll fun hc h_s => ?_
  try dsimp only
  with_reducible repeat' first | assumption | intro _ | with_unfolding_all exact Scope.Le.trans rfl hc | apply within_writeCntCmd

theorem touch_release (s : State) (k : Scope) (hk : touchRecords .release = some k) : Does .release s (Within k s) := by
  cases hk
  refine does_stays (o := execRelease s) rfl ?_
  unfold execRelease
  refine stays_coreAll fun hc h_s => ?_
  try dsimp only
  with_reducible repeat' first | assumption | intro _ | with_unfolding_all exact Scope.Le.trans rfl hc | apply within_writeCntCmd

theorem touch_clear (s : State) (k : Scope) (hk : touchRecords .clear = some k) : Does .clear s (Within k s) := by
  cases hk
  refine does_stays (o := execClear s) rfl ?_
  unfold execClear
  refine stays_coreAll fun hc h_s => ?_
  try dsimp only
  with_reducible repeat' first | assumption | intro _ | with_unfolding_all exact Scope.Le.trans rfl hc | apply within_writeCntCmd

theorem touch_cntLoRead (index : Fin 128) (s : State) (k : Scope) (hk : touchRecords (.cntLoRead index) = some k) : Does (.cntLoRead
    index) s (Within k s) := by
  cases hk
  refine does_stays (o := execCntLoRead index s) rfl ?_
  unfold execCntLoRead
  refine stays_coreAll fun hc h_s => ?_
  try dsimp only
  with_reducible repeat' first
    | assumption | intro _ | with_unfolding_all exact Scope.Le.trans rfl hc | apply within_setOut | apply within_readCntLo

theorem touch_ctxLowRead (sess : SessId) (last : Bool) (s : State) (k : Scope) (hk : touchRecords (.ctxLowRead sess last) = some k) : Does
    (.ctxLowRead sess last) s (Within k s) := by
  cases hk
  refine does_stays (o := execCtxLowRead sess last s) rfl ?_
  unfold execCtxLowRead
  refine stays_coreAll fun hc h_s => ?_
  try dsimp only
  with_reducible repeat' first
    | assumption | intro _ | with_unfolding_all exact Scope.Le.trans rfl hc | apply within_ite | apply within_setOut
    | apply within_readCtxLow

/-! ### touchPower -/

theorem touch_sleepRequest (s : State) (k : Scope) (hk : touchPower .sleepRequest = some k) : Does .sleepRequest s (Within k s) := by
  cases hk
  refine does_stays (o := execSleepRequest s) rfl ?_
  unfold execSleepRequest
  refine stays_core fun hc h_s => ?_
  try dsimp only
  with_reducible repeat' first | assumption | intro _ | with_unfolding_all exact Scope.Le.trans rfl hc | apply within_askPower

theorem touch_sniffRequest (s : State) (k : Scope) (hk : touchPower .sniffRequest = some k) : Does .sniffRequest s (Within k s) := by
  cases hk
  refine does_stays (o := execSniffRequest s) rfl ?_
  unfold execSniffRequest
  refine stays_core fun hc h_s => ?_
  try dsimp only
  with_reducible repeat' first | assumption | intro _ | with_unfolding_all exact Scope.Le.trans rfl hc | apply within_askPower

theorem touch_cancelRequest (s : State) (k : Scope) (hk : touchPower .cancelRequest = some k) : Does .cancelRequest s (Within k s) := by
  cases hk
  refine does_stays (o := execCancelRequest s) rfl ?_
  unfold execCancelRequest
  refine stays_core fun hc h_s => ?_
  try dsimp only
  with_reducible repeat' first | assumption | intro _ | with_unfolding_all exact Scope.Le.trans rfl hc | apply within_cancelPower

theorem touch_autoIdleExpiry (s : State) (k : Scope) (hk : touchPower .autoIdleExpiry = some k) : Does .autoIdleExpiry s (Within k s) :=
    by
  cases hk
  refine does_stays (o := execAutoIdleExpiry s) rfl ?_
  unfold execAutoIdleExpiry
  refine stays_core fun hc h_s => ?_
  try dsimp only
  with_reducible repeat' first
    | assumption | intro _ | with_unfolding_all exact Scope.Le.trans rfl hc | apply within_ite | apply within_advance
    | apply within_askPower | split

theorem touch_pwrSleep (s : State) (k : Scope) (hk : touchPower .pwrSleep = some k) : Does .pwrSleep s (Within k s) := by
  cases hk
  refine does_stays (o := execPwrSleep s) rfl ?_
  unfold execPwrSleep
  refine stays_core fun hc h_s => ?_
  try dsimp only
  with_reducible repeat' first
    | assumption | intro _ | with_unfolding_all exact Scope.Le.trans rfl hc | apply within_ite | apply within_post
    | apply within_handStages | apply within_fallAsleep | split | dsimp only | apply within_with_pwr

theorem touch_hostWake (s : State) (k : Scope) (hk : touchPower .hostWake = some k) : Does .hostWake s (Within k s) := by
  cases hk
  refine does_stays (o := execHostWake s) rfl ?_
  unfold execHostWake
  refine stays_mon fun hc h_s => ?_
  have ht := within_with_pins { s.pins with hcsLow := true } (Scope.Le.trans rfl hc) h_s
  exact within_ite (within_ite (within_wake _ _ (Scope.Le.trans rfl hc) ht) ht)
    (within_with_pwr { s.pwr with entering := none } (Scope.Le.trans rfl hc) ht)

theorem touch_wakeTimerExpiry (s : State) (k : Scope) (hk : touchPower .wakeTimerExpiry = some k) : Does .wakeTimerExpiry s (Within k s)
    := by
  cases hk
  refine does_stays (o := execWakeTimerExpiry s) rfl ?_
  unfold execWakeTimerExpiry
  refine stays_mon fun hc h_s => ?_
  try dsimp only
  with_reducible repeat' first
    | assumption | intro _ | with_unfolding_all exact Scope.Le.trans rfl hc | apply within_ite | apply within_advance | apply within_wake

theorem touch_pwrVddtxLow (port : Fin 4) (rx : RxData) (s : State) (k : Scope) (hk : touchPower (.pwrVddtxLow port rx) = some k) : Does
    (.pwrVddtxLow port rx) s (Within k s) := by
  cases hk
  refine does_stays (o := execPwrVddtxLow port rx s) rfl ?_
  unfold execPwrVddtxLow
  refine stays_mon fun hc h_s => ?_
  try dsimp only
  with_reducible repeat' first
    | assumption | intro _ | with_unfolding_all exact Scope.Le.trans rfl hc | apply within_ite | apply within_setFldBit Reg.PWR_SUPPLY
    | apply within_stickBit Reg.PWR_SUPPLY | apply within_post | apply within_cutExchange | apply within_fieldDrop

theorem touch_vddtxRestored (port : Fin 4) (s : State) (k : Scope) (hk : touchPower (.vddtxRestored port) = some k) : Does (.vddtxRestored
    port) s (Within k s) := by
  cases hk
  refine does_stays (o := execVddtxRestored port s) rfl ?_
  unfold execVddtxRestored
  refine stays_mon fun hc h_s => ?_
  try dsimp only
  with_reducible repeat' first
    | assumption | intro _ | with_unfolding_all exact Scope.Le.trans rfl hc | apply within_setFldBit Reg.PWR_SUPPLY

theorem touch_slowXtalSwitch (s : State) (k : Scope) (hk : touchPower .slowXtalSwitch = some k) : Does .slowXtalSwitch s (Within k s) :=
    by
  cases hk
  refine does_stays (o := execSlowXtalSwitch s) rfl ?_
  unfold execSlowXtalSwitch
  refine stays_slow fun hc h_s => ?_
  try dsimp only
  with_reducible repeat' first
    | assumption | intro _ | with_unfolding_all exact Scope.Le.trans rfl hc | apply within_ite | apply within_setFld Reg.PWR_CLK_STATUS
    | apply within_advance

theorem touch_pwrSlowFail (s : State) (k : Scope) (hk : touchPower .pwrSlowFail = some k) : Does .pwrSlowFail s (Within k s) := by
  cases hk
  refine does_stays (o := execPwrSlowFail s) rfl ?_
  unfold execPwrSlowFail
  refine stays_slow fun hc h_s => ?_
  try dsimp only
  with_reducible repeat' first
    | assumption | intro _ | with_unfolding_all exact Scope.Le.trans rfl hc | apply within_ite | apply within_setFld Reg.PWR_CLK_STATUS
    | apply within_stick Reg.PWR_CLK_STATUS | apply within_setFld Reg.TMR_SLOW_RATE | apply within_post | split | dsimp only
    | apply within_with_pwr

end Sys2Proof.Machine
end

