-- ==== Sys2Proof/Laws/Pending.lean ====
section
/-! SUPPORT. The queue of commands stays as it was: the operations and commands that reach any register (those of `Machine/Touch` stay out
    of
the queue by their scopes). -/

namespace Sys2Proof.Machine

theorem pending_writeReg (s : State) (a : Nat) (v : Word) : (s.writeReg a v).pending = s.pending := by
  unfold State.writeReg State.clampCheck State.clampMark
  dsimp only
  repeat' split
  all_goals rfl

theorem pending_each (f : Nat → State → State) (h : ∀ n t, (f n t).pending = t.pending) (n : Nat) (s : State) :
    (State.each f n s).pending = s.pending := by
  induction n with
  | zero => rfl
  | succ n ih => exact (h n _).trans ih

theorem pending_foldl {α : Type} (f : State → α → State) (h : ∀ t a, (f t a).pending = t.pending) (l : List α) (s : State) :
    (l.foldl f s).pending = s.pending := by
  induction l generalizing s with
  | nil => rfl
  | cons a t ih => exact (ih _).trans (h s a)

theorem pending_clampMark (s : State) (a : Nat) : (s.clampMark a).pending = s.pending := rfl
theorem pending_clampCheck (s : State) (a : Nat) : (s.clampCheck a).pending = s.pending := by
  unfold State.clampCheck
  exact (apply_ite State.pending _ _ _).trans (ite_self _)
theorem pending_sramWrite (s : State) (a : Nat) (l : List Byte) : (s.sramWrite a l).pending = s.pending := rfl

theorem pending_advance (s : State) (n : Nat) : (s.advance n).pending = s.pending := keeps_advance s n .pending (by decide)

theorem pending_post (s : State) (code : Nat) (note : Note) (arg : Nat) : (State.post s code note arg).pending = s.pending :=
  (within_post (Scope.Le.refl _) (Within.refl _ s) _ _ _).parts .pending (by decide)

theorem pending_setSil (s : State) (x : SilSt) : (State.setSil s x).pending = s.pending :=
  (within_setSil (Scope.Le.refl _) (Within.refl _ s) _).parts .pending (by decide)

theorem pending_authEnd (s : State) : (State.authEnd s).pending = s.pending :=
  (within_authEnd s (Scope.Le.refl _) (Within.refl _ s)).parts .pending (by decide)

theorem pending_authRefused (s : State) : (State.authRefused s).pending = s.pending :=
  (within_authRefused s (Scope.Le.refl _) (Within.refl _ s)).parts .pending (by decide)

theorem pending_authAccepted (s : State) : (State.authAccepted s).pending = s.pending :=
  (within_authAccepted s (Scope.Le.refl _) (Within.refl _ s)).parts .pending (by decide)

theorem pending_modT (s : State) (n : Nat) (f : PortT → PortT) : (State.modT s n f).pending = s.pending :=
  (within_modT s n f (Scope.Le.refl _) (Within.refl _ s)).parts .pending (by decide)

theorem pending_emuDown (s : State) (isReset : Bool) : (State.emuDown s isReset).pending = s.pending :=
  (within_emuDown s isReset (Scope.Le.refl _) (Within.refl _ s)).parts .pending (by decide)

theorem pending_cutBoot (s : State) : (State.cutBoot s).pending = s.pending :=
  (within_cutBoot s (Scope.Le.refl _) (Within.refl _ s)).parts .pending (by decide)

theorem pending_cutNv (s : State) : (State.cutNv s).pending = s.pending :=
  (within_cutNv s (Scope.Le.refl _) (Within.refl _ s)).parts .pending (by decide)

theorem pending_modE (s : State) (f : EmuSt → EmuSt) : (State.modE s f).pending = s.pending :=
  (within_modE s f (Scope.Le.refl _) (Within.refl _ s)).parts .pending (by decide)

theorem pending_takeFreeBit (s : State) : (State.takeFreeBit s).1.pending = s.pending :=
  (within_takeFreeBit s (Scope.Le.refl _) (Within.refl _ s)).parts .pending (by decide)

theorem pending_refuse (s : State) (b : Nat) : (State.refuse s b).pending = s.pending :=
  (within_refuse (Scope.Le.refl _) (Within.refl _ s) _).parts .pending (by decide)

theorem pending_compactCut (s : State) : (State.compactCut s).pending = s.pending :=
  (within_compactCut s (Scope.Le.refl _) (Within.refl _ s)).parts .pending (by decide)

theorem pending_retireFirst (s : State) (k ver counter : Nat) : (State.retireFirst s k ver counter).pending = s.pending :=
  (within_retireFirst s k ver counter (Scope.Le.refl _) (Within.refl _ s)).parts .pending (by decide)

theorem pending_retire (s : State) (k ver counter : Nat) (good : Bool) : (State.retire s k ver counter good).pending = s.pending :=
  (within_retire s k ver counter good (Scope.Le.refl _) (Within.refl _ s)).parts .pending (by decide)

theorem pending_writePhaseCtrl (s : State) (v : Word) : (State.writePhaseCtrl s v).pending = s.pending :=
  (within_writePhaseCtrl s v (Scope.Le.refl _) (Within.refl _ s)).parts .pending (by decide)

theorem pending_writeTestCtrl (s : State) (v : Word) : (State.writeTestCtrl s v).pending = s.pending :=
  (within_writeTestCtrl s v (Scope.Le.refl _) (Within.refl _ s)).parts .pending (by decide)

theorem pending_writePwrCmd (s : State) (v : Word) : (State.writePwrCmd s v).pending = s.pending :=
  (within_writePwrCmd s v (Scope.Le.refl _) (Within.refl _ s)).parts .pending (by decide)

theorem pending_writePwrClk (s : State) (v : Word) : (State.writePwrClk s v).pending = s.pending :=
  (within_writePwrClk s v (Scope.Le.refl _) (Within.refl _ s)).parts .pending (by decide)

theorem pending_writeTrim (s : State) (v : Word) : (State.writeTrim s v).pending = s.pending :=
  (within_writeTrim s v (Scope.Le.refl _) (Within.refl _ s)).parts .pending (by decide)

theorem pending_writePA (s : State) (n : Nat) (isAmpl : Bool) (v : Word) : (State.writePA s n isAmpl v).pending = s.pending :=
  (within_writePA s n isAmpl v (Scope.Le.refl _) (Within.refl _ s)).parts .pending (by decide)

theorem pending_writeFldCtrl (s : State) (n : Nat) (v : Word) : (State.writeFldCtrl s n v).pending = s.pending :=
  (within_writeFldCtrl s n v (Scope.Le.refl _) (Within.refl _ s)).parts .pending (by decide)

theorem pending_deriveNeigh (s : State) : (State.deriveNeigh s).pending = s.pending :=
  (within_deriveNeigh s (Scope.Le.refl _) (Within.refl _ s)).parts .pending (by decide)

theorem pending_writeHuddle (s : State) (n : Nat) (v : Word) : (State.writeHuddle s n v).pending = s.pending :=
  (within_writeHuddle s n v (Scope.Le.refl _) (Within.refl _ s)).parts .pending (by decide)

theorem pending_modR (s : State) (n : Nat) (f : PortR → PortR) : (State.modR s n f).pending = s.pending :=
  (within_modR s n f (Scope.Le.refl _) (Within.refl _ s)).parts .pending (by decide)

theorem pending_writeRxeCmd (s : State) (n : Nat) (v : Word) : (State.writeRxeCmd s n v).pending = s.pending :=
  (within_writeRxeCmd s n v (Scope.Le.refl _) (Within.refl _ s)).parts .pending (by decide)

theorem pending_writeRole (s : State) (n : Nat) (v : Word) : (State.writeRole s n v).pending = s.pending :=
  (within_writeRole s n v (Scope.Le.refl _) (Within.refl _ s)).parts .pending (by decide)

theorem pending_writeSessCmd (s : State) (v : Word) : (State.writeSessCmd s v).pending = s.pending :=
  (within_writeSessCmd s v (Scope.Le.refl _) (Within.refl _ s)).parts .pending (by decide)

theorem pending_writeProCmd (s : State) (n : Nat) (v : Word) : (State.writeProCmd s n v).pending = s.pending :=
  (within_writeProCmd s n v (Scope.Le.refl _) (Within.refl _ s)).parts .pending (by decide)

theorem pending_refreshMon (s : State) : (State.refreshMon s).pending = s.pending :=
  (within_refreshMon s (Scope.Le.refl _) (Within.refl _ s)).parts .pending (by decide)

theorem pending_setPages (s : State) : (State.setPages s).pending = s.pending :=
  (within_setPages s (Scope.Le.refl _) (Within.refl _ s)).parts .pending (by decide)

theorem pending_writeBuf (s : State) (k o : Nat) (b : List Byte) : (State.writeBuf s k o b).pending = s.pending :=
  (within_writeBuf s k o b (Scope.Le.refl _) (Within.refl _ s)).parts .pending (by decide)

theorem pending_writeHcmd (s : State) (v : Word) : (State.writeHcmd s v).pending = s.pending :=
  (within_writeHcmd s v (Scope.Le.refl _) (Within.refl _ s)).parts .pending (by decide)

theorem pending_syncTimer (s : State) (k : Nat) : (State.syncTimer s k).pending = s.pending :=
  (within_syncTimer s k (Scope.Le.refl _) (Within.refl _ s)).parts .pending (by decide)

theorem pending_writeGroup (s : State) (v : Word) : (State.writeGroup s v).pending = s.pending :=
  (within_writeGroup s v (Scope.Le.refl _) (Within.refl _ s)).parts .pending (by decide)

theorem pending_writeCount (s : State) (k : Nat) (v : Word) : (State.writeCount s k v).pending = s.pending :=
  (within_writeCount s k v (Scope.Le.refl _) (Within.refl _ s)).parts .pending (by decide)

theorem pending_writeTimerStatus (s : State) (k : Nat) (v : Word) : (State.writeTimerStatus s k v).pending = s.pending :=
  (within_writeTimerStatus s k v (Scope.Le.refl _) (Within.refl _ s)).parts .pending (by decide)

theorem pending_writeXtrig (s : State) (k : Nat) (v : Word) : (State.writeXtrig s k v).pending = s.pending :=
  (within_writeXtrig s k v (Scope.Le.refl _) (Within.refl _ s)).parts .pending (by decide)

theorem pending_crossWm (s0 : State) (s : State) (n : Nat) : (State.crossWm s0 s n).pending = s.pending := by
  have mark : ∀ (u : State) (f : PortWm → PortWm) (a : Nat) (w : Word), ((u.modWm n f).noteSet a w).pending = u.pending := fun _ _ _ _ =>
      rfl
  unfold State.crossWm
  dsimp only
  refine (apply_ite State.pending _ _ _).trans ?_
  simp only [mark, apply_ite State.pending, ite_self]

theorem pending_flushRx (s : State) (n : Nat) : (State.flushRx s n).pending = s.pending :=
  (within_flushRx s n (Scope.Le.refl _) (Within.refl _ s)).parts .pending (by decide)

theorem pending_hostPush (s : State) (n : Nat) (ws : List Word) : (State.hostPush s n ws).pending = s.pending :=
  (within_hostPush s n ws (Scope.Le.refl _) (Within.refl _ s)).parts .pending (by decide)

theorem pending_writeEvqStatus (s : State) (v : Word) : (State.writeEvqStatus s v).pending = s.pending :=
  (within_writeEvqStatus s v (Scope.Le.refl _) (Within.refl _ s)).parts .pending (by decide)

theorem pending_writeEvqWm (s : State) (v : Word) : (State.writeEvqWm s v).pending = s.pending :=
  (within_writeEvqWm s v (Scope.Le.refl _) (Within.refl _ s)).parts .pending (by decide)

theorem pending_writeWmStatus (s : State) (n : Nat) (v : Word) : (State.writeWmStatus s n v).pending = s.pending :=
  (within_writeWmStatus s n v (Scope.Le.refl _) (Within.refl _ s)).parts .pending (by decide)

theorem pending_writeCrcCmd (s : State) (c : Nat) (v : Word) (bad : Bool) : (State.writeCrcCmd s c v bad).pending = s.pending :=
  (within_writeCrcCmd s c v bad (Scope.Le.refl _) (Within.refl _ s)).parts .pending (by decide)

theorem pending_writeCrcData (s : State) (c n : Nat) (v : Word) : (State.writeCrcData s c n v).pending = s.pending :=
  (within_writeCrcData s c n v (Scope.Le.refl _) (Within.refl _ s)).parts .pending (by decide)

theorem pending_writeEmuData (s : State) (i : Nat) (ws : List Word) : (State.writeEmuData s i ws).pending = s.pending :=
  (within_writeEmuData s i ws (Scope.Le.refl _) (Within.refl _ s)).parts .pending (by decide)

theorem pending_writeWire (s : State) (v : Word) : (State.writeWire s v).pending = s.pending :=
  (within_writeWire s v (Scope.Le.refl _) (Within.refl _ s)).parts .pending (by decide)

theorem pending_writeEmuCtrl (s : State) (v : Word) : (State.writeEmuCtrl s v).pending = s.pending :=
  (within_writeEmuCtrl s v (Scope.Le.refl _) (Within.refl _ s)).parts .pending (by decide)

theorem pending_writeUidLo (s : State) (v : Word) : (State.writeUidLo s v).pending = s.pending :=
  (within_writeUidLo s v (Scope.Le.refl _) (Within.refl _ s)).parts .pending (by decide)

theorem pending_writeEmuCmd (s : State) (v : Word) : (State.writeEmuCmd s v).pending = s.pending :=
  (within_writeEmuCmd s v (Scope.Le.refl _) (Within.refl _ s)).parts .pending (by decide)

theorem pending_writeTunCmd (s : State) (n : Nat) (v : Word) : (State.writeTunCmd s n v).pending = s.pending :=
  (within_writeTunCmd s n v (Scope.Le.refl _) (Within.refl _ s)).parts .pending (by decide)

theorem pending_writeTunCode (s : State) (n : Nat) (v : Word) : (State.writeTunCode s n v).pending = s.pending :=
  (within_writeTunCode s n v (Scope.Le.refl _) (Within.refl _ s)).parts .pending (by decide)

theorem pending_writeFreeze (s : State) (v : Word) : (State.writeFreeze s v).pending = s.pending :=
  (within_writeFreeze s v (Scope.Le.refl _) (Within.refl _ s)).parts .pending (by decide)

theorem pending_writeInject (s : State) (v : Word) : (State.writeInject s v).pending = s.pending :=
  (within_writeInject s v (Scope.Le.refl _) (Within.refl _ s)).parts .pending (by decide)

theorem pending_writeCoxCtrl (s : State) (v : Word) : (State.writeCoxCtrl s v).pending = s.pending :=
  (within_writeCoxCtrl s v (Scope.Le.refl _) (Within.refl _ s)).parts .pending (by decide)

theorem pending_writeTraceCtrl (s : State) (v : Word) : (State.writeTraceCtrl s v).pending = s.pending :=
  (within_writeTraceCtrl s v (Scope.Le.refl _) (Within.refl _ s)).parts .pending (by decide)

theorem pending_writeCntCmd (s : State) (v : Word) : (State.writeCntCmd s v).pending = s.pending :=
  (within_writeCntCmd s v (Scope.Le.refl _) (Within.refl _ s)).parts .pending (by decide)

theorem pending_writeBootCmd (s : State) (v : Word) : (State.writeBootCmd s v).pending = s.pending :=
  (within_writeBootCmd s v (Scope.Le.refl _) (Within.refl _ s)).parts .pending (by decide)

theorem pending_mendTpl (s : State) : (State.mendTpl s).pending = s.pending :=
  (within_mendTpl s (Scope.Le.refl _) (Within.refl _ s)).parts .pending (by decide)

theorem pending_countBy (s : State) (i n : Nat) : (State.countBy s i n).pending = s.pending :=
  (within_countBy (Scope.Le.refl _) (Within.refl _ s) _ _).parts .pending (by decide)

theorem pending_hostEnding (s : State) (ending : TxEnd) (op addr : Nat) : (State.hostEnding s ending op addr).pending = s.pending :=
  (within_hostEnding s ending op addr (Scope.Le.refl _) (Within.refl _ s)).parts .pending (by decide)

theorem pending_noteUnmapped (s : State) (n a : Nat) : (State.noteUnmapped s n a).pending = s.pending :=
  (within_noteUnmapped s n a (Scope.Le.refl _) (Within.refl _ s)).parts .pending (by decide)

theorem pending_setBank (s : State) (b : Nat) (v : BankVals) : (State.setBank s b v).pending = s.pending :=
  (within_setBank s b v (Scope.Le.refl _) (Within.refl _ s)).parts .pending (by decide)

theorem pending_recoverCtr (byCore : Bool) (c : Nat) (s : State) : (State.recoverCtr byCore c s).pending = s.pending :=
  (within_recoverCtr byCore c s (Scope.Le.refl _) (Within.refl _ s)).parts .pending (by decide)

theorem pending_setSto (s : State) (x : StoSt) : (State.setSto s x).pending = s.pending :=
  (within_setSto s x (Scope.Le.refl _) (Within.refl _ s)).parts .pending (by decide)

theorem pending_storeStart (s : State) (ok : Bool) : (State.storeStart s ok).pending = s.pending :=
  (within_storeStart s ok (Scope.Le.refl _) (Within.refl _ s)).parts .pending (by decide)

theorem pending_takeCell (s : State) (away : Nat) : (State.takeCell s away).pending = s.pending :=
  (within_takeCell s away (Scope.Le.refl _) (Within.refl _ s)).parts .pending (by decide)

theorem pending_tickDue (s : State) (k : Nat) : (State.tickDue s k).pending = s.pending :=
  (within_tickDue s k (Scope.Le.refl _) (Within.refl _ s)).parts .pending (by decide)

theorem pending_takeFreeWord (s : State) : (State.takeFreeWord s).1.pending = s.pending :=
  (within_takeFreeWord s (Scope.Le.refl _) (Within.refl _ s)).parts .pending (by decide)

theorem pending_trip (s : State) (code wher : Nat) : (State.trip s code wher).pending = s.pending :=
  (within_trip s code wher (Scope.Le.refl _) (Within.refl _ s)).parts .pending (by decide)

theorem pending_coreSees (s : State) (code wher : Nat) (rxs : List RxData) : (State.coreSees s code wher rxs).pending = s.pending :=
  (within_coreSees s code wher rxs (Scope.Le.refl _) (Within.refl _ s)).parts .pending (by decide)

theorem pending_firstSelfTest (s : State) : (State.firstSelfTest s).pending = s.pending :=
  (within_firstSelfTest s (Scope.Le.refl _) (Within.refl _ s)).parts .pending (by decide)

theorem pending_enterSafe (s : State) (cause : Nat) : (State.enterSafe s cause).pending = s.pending :=
  (within_enterSafe s cause (Scope.Le.refl _) (Within.refl _ s)).parts .pending (by decide)

theorem pending_sealLock (s : State) (record : Option (List Byte)) (nvOk : Bool) : (State.sealLock s record nvOk).pending = s.pending :=
  (within_sealLock s record nvOk (Scope.Le.refl _) (Within.refl _ s)).parts .pending (by decide)

theorem pending_prepareAerials (s : State) (env : StartEnv) : (State.prepareAerials s env).pending = s.pending :=
  (within_prepareAerials s env (Scope.Le.refl _) (Within.refl _ s)).parts .pending (by decide)

theorem pending_selfTest (s : State) (env : StartEnv) : (State.selfTest s env).pending = s.pending :=
  (within_selfTest s env (Scope.Le.refl _) (Within.refl _ s)).parts .pending (by decide)

theorem pending_rolesIn (s : State) : (State.rolesIn s).pending = s.pending :=
  (within_rolesIn s (Scope.Le.refl _) (Within.refl _ s)).parts .pending (by decide)

theorem pending_startRun (s : State) (env : StartEnv) : (State.startRun s env).pending = s.pending :=
  (within_startRun s env (Scope.Le.refl _) (Within.refl _ s)).parts .pending (by decide)

theorem pending_startPins (s : State) (env : StartEnv) : (State.startPins s env).pending = s.pending :=
  (within_startPins s env (Scope.Le.refl _) (Within.refl _ s)).parts .pending (by decide)

theorem pending_loadCfg (s : State) : (State.loadCfg s).pending = s.pending :=
  (within_loadCfg s (Scope.Le.refl _) (Within.refl _ s)).parts .pending (by decide)

theorem pending_setReason (s : State) (k reason : Nat) : (State.setReason s k reason).pending = s.pending :=
  (within_setReason s k reason (Scope.Le.refl _) (Within.refl _ s)).parts .pending (by decide)

theorem pending_trySlots (x0 : List Nat) (x1 : State) : (State.trySlots x0 x1).1.pending = x1.pending :=
  (within_trySlots x0 x1 (Scope.Le.refl _) (Within.refl _ x1)).parts .pending (by decide)

theorem pending_safeBootIn (s : State) : (State.safeBootIn s).pending = s.pending :=
  (within_safeBootIn s (Scope.Le.refl _) (Within.refl _ s)).parts .pending (by decide)

theorem pending_lockInForce (s : State) (l : List Word) : (State.lockInForce s l).pending = s.pending :=
  (within_lockInForce s l (Scope.Le.refl _) (Within.refl _ s)).parts .pending (by decide)

theorem pending_clearLog (s : State) (vault : Bool) (counter : Nat) : (State.clearLog s vault counter).pending = s.pending := by
  unfold State.clearLog
  try dsimp only
  repeat' split
  all_goals simp

theorem pending_writeSniff (s : State) (n a : Nat) (v : Word) : (State.writeSniff s n a v).pending = s.pending := by
  unfold State.writeSniff
  try dsimp only
  repeat' split
  all_goals simp [pending_writeReg]

theorem pending_afterReset (s : State) (keeps : Bool) (b : Nat) : (State.afterReset s keeps b).pending = s.pending := by
  unfold State.afterReset
  dsimp only
  split <;> rfl

theorem pending_restart (s : State) (b : Nat) : (State.restart s b).pending = s.pending := by
  unfold State.restart
  try dsimp only
  repeat' split
  all_goals simp [pending_emuDown, pending_cutBoot, pending_cutNv, pending_afterReset]

theorem pending_writeResetCmd (s : State) (v : Word) : (State.writeResetCmd s v).pending = s.pending := by
  unfold State.writeResetCmd
  try dsimp only
  repeat' split
  all_goals simp [pending_restart]

theorem pending_aonLost (s : State) : (State.aonLost s).pending = s.pending := by
  unfold State.aonLost
  try dsimp only
  repeat' split
  all_goals simp [pending_emuDown, pending_cutBoot, pending_cutNv, pending_afterReset]

theorem pending_writeGen (s : State) (a : Nat) (v : Word) : (State.writeGen s a v).pending = s.pending := by
  unfold State.writeGen
  try dsimp only
  repeat' split
  all_goals simp [pending_writePhaseCtrl, pending_writeTestCtrl, pending_writeReg]

theorem pending_writePwr (s : State) (a : Nat) (v : Word) : (State.writePwr s a v).pending = s.pending := by
  unfold State.writePwr
  try dsimp only
  repeat' split
  all_goals simp [pending_writePwrCmd, pending_writePwrClk, pending_writeResetCmd, pending_writeReg]

theorem pending_writeFld (s : State) (a : Nat) (v : Word) : (State.writeFld s a v).pending = s.pending := by
  unfold State.writeFld
  try dsimp only
  repeat' split
  all_goals simp [pending_writeTrim, pending_writePA, pending_writeFldCtrl, pending_deriveNeigh, pending_writeHuddle, pending_writeReg]

theorem pending_writeRxe (s : State) (a : Nat) (v : Word) : (State.writeRxe s a v).pending = s.pending := by
  unfold State.writeRxe
  try dsimp only
  repeat' split
  all_goals simp [pending_writeRxeCmd, pending_writeReg]

theorem pending_writePro (s : State) (a : Nat) (v : Word) : (State.writePro s a v).pending = s.pending := by
  unfold State.writePro
  try dsimp only
  repeat' split
  all_goals simp [pending_writeRole, pending_writeSessCmd, pending_writeProCmd, pending_writeReg]

theorem pending_writeKpr (s : State) (a : Nat) (v : Word) : (State.writeKpr s a v).pending = s.pending := by
  unfold State.writeKpr
  try dsimp only
  repeat' split
  all_goals simp [pending_refreshMon, pending_writeReg]

theorem pending_writeSto (s : State) (a : Nat) (v : Word) : (State.writeSto s a v).pending = s.pending := by
  unfold State.writeSto
  try dsimp only
  repeat' split
  all_goals simp [pending_setPages, pending_writeBuf, pending_writeHcmd, pending_writeReg]

theorem pending_writeTmr (s : State) (a : Nat) (v : Word) : (State.writeTmr s a v).pending = s.pending := by
  unfold State.writeTmr
  try dsimp only
  repeat' split
  all_goals simp [pending_syncTimer, pending_writeGroup, pending_writeCount, pending_writeTimerStatus, pending_writeXtrig, pending_writeReg]

theorem pending_writeQue (s : State) (a : Nat) (v : Word) : (State.writeQue s a v).pending = s.pending := by
  unfold State.writeQue
  try dsimp only
  repeat' split
  all_goals simp [pending_crossWm, pending_flushRx, pending_hostPush, pending_writeEvqStatus, pending_writeEvqWm, pending_writeWmStatus,
      pending_writeReg]

theorem pending_writeCrc (s : State) (a : Nat) (v : Word) : (State.writeCrc s a v).pending = s.pending := by
  unfold State.writeCrc
  try dsimp only
  repeat' split
  all_goals simp [pending_writeCrcCmd, pending_writeCrcData, pending_writeReg]

theorem pending_writeEmu (s : State) (a : Nat) (v : Word) : (State.writeEmu s a v).pending = s.pending := by
  unfold State.writeEmu
  try dsimp only
  repeat' split
  all_goals simp [pending_writeEmuData, pending_writeWire, pending_writeEmuCtrl, pending_writeUidLo, pending_writeEmuCmd, pending_writeReg]

theorem pending_writeTplCtrl (s : State) (a : Nat) (v : Word) : (State.writeTplCtrl s a v).pending = s.pending := by
  unfold State.writeTplCtrl
  try dsimp only
  repeat' split
  all_goals simp [pending_writeReg]

theorem pending_writeTun (s : State) (a : Nat) (v : Word) : (State.writeTun s a v).pending = s.pending := by
  unfold State.writeTun
  try dsimp only
  repeat' split
  all_goals simp [pending_writeTunCmd, pending_writeTunCode, pending_writeSniff, pending_writeTplCtrl, pending_writeReg]

theorem pending_writePlain (s : State) (a : Nat) (v : Word) : (State.writePlain s a v).pending = s.pending := by
  unfold State.writePlain
  try dsimp only
  repeat' split
  all_goals simp [pending_writeFreeze, pending_writeInject, pending_writeCoxCtrl, pending_writeTraceCtrl, pending_writeCntCmd,
      pending_writeBootCmd, pending_writeGen, pending_writePwr, pending_writeFld, pending_writeRxe, pending_writePro, pending_writeKpr,
      pending_writeSto, pending_writeTmr, pending_writeQue, pending_writeCrc, pending_writeEmu, pending_writeTun, pending_writeReg]

theorem pending_loadOne (b : Nat) (page : Option Nat) (s : State) (a : Nat) : (State.loadOne b page s a).pending = s.pending := by
  unfold State.loadOne
  try dsimp only
  repeat' split
  all_goals simp [pending_writePlain, pending_clampMark, pending_clampCheck]

theorem pending_loadGov (s : State) (b : Nat) (page : Option Nat) : (State.loadGov s b page).pending = s.pending := by
  unfold State.loadGov
  dsimp only
  have k := fun u => pending_foldl (State.loadOne b page) (fun t a => pending_loadOne b page t a) (govAddrs b page) u
  split
  · simp [pending_mendTpl, k]
  · simp [k]

theorem pending_applySel (s : State) (b : Nat) (page : Option Nat) : (State.applySel s b page).pending = s.pending := by
  unfold State.applySel
  try dsimp only
  repeat' split
  all_goals simp [pending_loadGov]

theorem pending_writeSel (s : State) (b : Nat) (page : Option Nat) (v : Word) : (State.writeSel s b page v).pending = s.pending := by
  unfold State.writeSel
  try dsimp only
  repeat' split
  all_goals simp [pending_applySel]

theorem pending_writeExpert (s : State) (b : Nat) (page : Option Nat) (v : Word) : (State.writeExpert s b page v).pending = s.pending := by
  unfold State.writeExpert
  try dsimp only
  repeat' split
  all_goals simp [pending_applySel, pending_writeReg]

theorem pending_writeWord (s : State) (a : Nat) (v : Word) : (State.writeWord s a v).pending = s.pending := by
  unfold State.writeWord
  try dsimp only
  repeat' split
  all_goals simp [pending_writePlain, pending_writeSel, pending_writeExpert]

theorem pending_hostWrite (s : State) (a : Nat) (v : Word) : (State.hostWrite s a v).pending = s.pending := by
  unfold State.hostWrite
  try dsimp only
  repeat' split
  all_goals simp [pending_writeWord]

theorem pending_hostWrites (l : List Word) (a : Nat) (s : State) : (State.hostWrites l a s).pending = s.pending := by
  induction l generalizing a s with
  | nil => rfl
  | cons v t ih => exact (ih _ _).trans (pending_hostWrite s a v)

theorem pending_takeSlot_ (s : State) (k : Nat) : (State.takeSlot_ s k).pending = s.pending := by
  unfold State.takeSlot_
  try dsimp only
  repeat' split
  all_goals simp

theorem pending_storeProfile (s : State) (p : Profile) : (State.storeProfile s p).pending = s.pending := by
  unfold State.storeProfile
  try dsimp only
  repeat' split
  all_goals simp [pending_loadGov]

theorem pending_applied (l : List ImgRec) (x : Applied) : (l.foldl Applied.record x).s.pending = x.s.pending := by
  have write : ∀ (l : List (Nat × Word)) (x : Applied), (l.foldl Applied.write x).s.pending = x.s.pending := by
    intro l
    induction l with
    | nil => exact fun _ => rfl
    | cons p t ih =>
      intro x
      refine (ih _).trans ?_
      unfold Applied.write
      split
      · rfl
      · exact (apply_ite (fun x : State => x.pending) _ _ _).trans (by simp [pending_writeWord])
  induction l generalizing x with
  | nil => rfl
  | cons r t ih =>
    refine (ih _).trans ?_
    unfold Applied.record
    split
    · rfl
    · split
      · exact write _ _
      · exact pending_foldl _ pending_storeProfile _ _
      · rfl
      · rfl
      · rfl

theorem pending_applyImage (s : State) (l : List ImgRec) : (State.applyImage s l).1.pending = s.pending := by
  have k := pending_applied l { s := s, refused := 0, first := 0, regulatory := none }
  unfold State.applyImage
  generalize l.foldl Applied.record { s := s, refused := 0, first := 0, regulatory := none } = x at k ⊢
  dsimp only
  split
  · split
    · exact k
    · exact (pending_post _ _ _ _).trans k
  · exact k

theorem pending_loadBlocks (s : State) (env : StartEnv) : (State.loadBlocks s env).pending = s.pending := by
  unfold State.loadBlocks
  have cells := fun t => pending_each _ (fun n u => pending_recoverCtr true n u) 8 t
  simp [pending_storeStart, pending_takeCell, cells]
  refine pending_foldl _ (fun u b => ?_) _ _
  split
  · exact pending_setBank _ _ _
  · rfl

theorem pending_startAct (limit : Nat) (s : State) (x0 : StartAct) : (State.startAct limit s x0).pending = s.pending := by
  unfold State.startAct
  try dsimp only
  repeat' split
  all_goals simp [pending_tickDue, pending_noteUnmapped, pending_hostWrites]

theorem pending_startActs (limit : Nat) (l : List StartAct) (s : State) : (l.foldl (State.startAct limit) s).pending = s.pending :=
  pending_foldl _ (pending_startAct limit) l s

theorem pending_startSlot (s : State) (env : StartEnv) (k : Nat) (l : List ImgRec) : (State.startSlot s env k l).pending = s.pending := by
  unfold State.startSlot
  try dsimp only
  repeat' split
  all_goals simp [pending_trip, pending_coreSees, pending_firstSelfTest, pending_enterSafe, pending_takeSlot_, pending_applyImage,
      pending_sealLock, pending_loadBlocks, pending_prepareAerials, pending_startActs, pending_selfTest, pending_rolesIn,
      pending_startRun]

theorem pending_startUp (s : State) (env : StartEnv) : (State.startUp s env).pending = s.pending := by
  unfold State.startUp
  try dsimp only
  repeat' split
  all_goals simp [pending_trip, pending_coreSees, pending_startPins, pending_loadCfg, pending_setReason, pending_trySlots,
      pending_safeBootIn, pending_lockInForce, pending_startSlot]

/-- A command answers a next state, changed otherwise than in its queue, and closed. -/
def KeepsQueue (s : State) (o : Out) : Prop := ∃ u, o = .next (finish s u) ∧ u.pending = s.pending

section
variable {s t : State} {f : State → State}

theorem queue_done (h : t.pending = s.pending) : KeepsQueue s (done s t) := ⟨t, rfl, h⟩
theorem queue_coreAll (h : (f s).pending = s.pending) : KeepsQueue s (s.coreAll f) :=
  queue_done ((apply_ite State.pending _ _ _).trans (by rw [h, ite_self]))
theorem queue_core (h : (f s).pending = s.pending) : KeepsQueue s (s.core f) :=
  queue_done ((apply_ite State.pending _ _ _).trans (by rw [h, ite_self]))
theorem queue_host (h : (f s).pending = s.pending) : KeepsQueue s (s.host f) :=
  queue_coreAll ((apply_ite State.pending _ _ _).trans (by rw [h, ite_self]))
theorem queue_onPlace {p : ProfAt} (h : (f s).pending = s.pending) : KeepsQueue s (s.onPlace p f) :=
  queue_coreAll ((apply_ite State.pending _ _ _).trans (by rw [h, ite_self]))

end

theorem queue_invalidationPassDone (s : State) : KeepsQueue s (execInvalidationPassDone s) := by
  have key : ∀ t : State, t.pending = s.pending →
      ({ t with sram := clearVerdicts t.sram, kpr := { t.kpr with pass := none } } : State).pending = s.pending := fun _ h => h
  unfold execInvalidationPassDone
  refine queue_core ?_
  split
  · rfl
  · exact key _ (pending_advance _ _)

theorem queue_silClear  (s : State) : KeepsQueue s (execSilClear  s) := by
  unfold execSilClear
  refine queue_coreAll ?_
  try dsimp only
  repeat' split
  all_goals simp [pending_authEnd, pending_authRefused, pending_authAccepted, pending_clearLog]

theorem queue_powerOnReset (s : State) : KeepsQueue s (execPowerOnReset s) := by
  refine queue_done ?_
  simp [pending_afterReset, apply_ite State.pending, pending_emuDown, pending_cutNv, pending_cutBoot]

theorem queue_pinReset (ns : Nat) (s : State) : KeepsQueue s (execPinReset ns s) := by
  unfold execPinReset
  refine queue_done ?_
  try dsimp only
  repeat' split
  all_goals simp [pending_restart]

theorem queue_coreBrownOut (ns : Nat) (s : State) : KeepsQueue s (execCoreBrownOut ns s) := by
  unfold execCoreBrownOut
  refine queue_done ?_
  try dsimp only
  repeat' split
  all_goals simp [pending_restart]

theorem queue_resetCmd (value : Word) (s : State) : KeepsQueue s (execResetCmd value s) := by
  unfold execResetCmd
  refine queue_coreAll ?_
  try dsimp only
  repeat' split
  all_goals simp [pending_writeResetCmd]

theorem queue_vddAonLoss (s : State) : KeepsQueue s (execVddAonLoss s) := by
  refine queue_done ?_
  simp [pending_aonLost]

theorem queue_rollbackCheckDone (fate : RetireEnd) (s : State) : KeepsQueue s (execRollbackCheckDone fate s) := by
  unfold execRollbackCheckDone
  refine queue_core ?_
  try dsimp only
  repeat' split
  all_goals simp [pending_authEnd, pending_authRefused, pending_authAccepted, pending_restart, pending_aonLost, pending_compactCut,
      pending_retireFirst, pending_retire]

theorem queue_profileSelect (place : ProfAt) (sel : Byte) (s : State) : KeepsQueue s (execProfileSelect place sel s) := by
  unfold execProfileSelect
  refine queue_onPlace ?_
  try dsimp only
  repeat' split
  all_goals simp [pending_writeSel]

theorem queue_profileApply (place : ProfAt) (s : State) : KeepsQueue s (execProfileApply place s) := by
  unfold execProfileApply
  refine queue_onPlace ?_
  try dsimp only
  repeat' split
  all_goals simp [pending_applySel]

theorem queue_expertWrite (place : ProfAt) (value : Word) (s : State) : KeepsQueue s (execExpertWrite place value s) := by
  unfold execExpertWrite
  refine queue_onPlace ?_
  try dsimp only
  repeat' split
  all_goals simp [pending_writeExpert]

theorem queue_write (quad : Bool) (addr : BitVec 24) (data : List Word) (ending : TxEnd) (same : Bool) (s : State) : KeepsQueue s
    (execWrite quad addr data ending same s) := by
  unfold execWrite
  refine queue_host ?_
  try dsimp only
  repeat' split
  all_goals simp [pending_hostEnding, pending_noteUnmapped, pending_hostWrites]

theorem queue_resetRelease (env : StartEnv) (s : State) : KeepsQueue s (execResetRelease env s) := by
  unfold execResetRelease
  refine queue_done ?_
  try dsimp only
  repeat' split
  all_goals simp [pending_startUp]

end Sys2Proof.Machine
end

