-- ==== Sys2Proof/Laws/Sound.lean ====
section
/-! SUPPORT. `Sound` (canonical tables, queues within their sizes): the basic operations keep it. -/

namespace Sys2Proof.Machine

/-- What `Sound` depends on is the same in two states. -/
theorem Sound.of_eq {s t : State} (h : Sound s) (h1 : t.regs = s.regs) (h2 : t.sram = s.sram) (h3 : t.cfg.boot = s.cfg.boot)
    (h4 : t.emu.data = s.emu.data) (h5 : t.emu.nv = s.emu.nv) (h6 : t.sto.buf0 = s.sto.buf0) (h7 : t.sto.buf1 = s.sto.buf1)
    (h8 : t.obs.trc.counters = s.obs.trc.counters) (h9 : t.que = s.que) (h10 : t.obs.evq.entries = s.obs.evq.entries)
    (h11 : t.obs.evq.intake = s.obs.evq.intake) (h12 : t.obs.sil.hold = s.obs.sil.hold) (h13 : t.obs.sil.vault = s.obs.sil.vault) :
    Sound t where
  canonical :=
    { regs := h1 ▸ h.canonical.regs, sram := h2 ▸ h.canonical.sram, boot := h3 ▸ h.canonical.boot, data := h4 ▸ h.canonical.data,
      nv := h5 ▸ h.canonical.nv, buf0 := h6 ▸ h.canonical.buf0, buf1 := h7 ▸ h.canonical.buf1, counters := h8 ▸ h.canonical.counters }
  bounded :=
    { tx := fun n => by rw [State.pq, h9]; exact h.bounded.tx n
      rx := fun n => by rw [State.pq, h9]; exact h.bounded.rx n
      evq := h10 ▸ h.bounded.evq, intake := h11 ▸ h.bounded.intake, hold := h12 ▸ h.bounded.hold, vault := h13 ▸ h.bounded.vault }

theorem sound_ite {c : Prop} [Decidable c] {s t : State} (h : Sound s) (k : Sound t) : Sound (if c then s else t) := by
  split
  · exact h
  · exact k

theorem sound_dite {c : Prop} [Decidable c] {s : c → State} {t : ¬c → State} (h : ∀ p, Sound (s p)) (k : ∀ p, Sound (t p)) :
    Sound (if p : c then s p else t p) := by
  split
  · exact h _
  · exact k _

theorem sound_foldl {α : Type} (f : State → α → State) (h : ∀ t, Sound t → ∀ a, Sound (f t a)) (l : List α) (s : State) (hs : Sound s) :
    Sound (l.foldl f s) := by
  induction l generalizing s with
  | nil => exact hs
  | cons a t ih => exact ih _ (h s hs a)

theorem sound_each (f : Nat → State → State) (h : ∀ n t, Sound t → Sound (f n t)) (n : Nat) (s : State) (hs : Sound s) :
    Sound (State.each f n s) := by
  induction n with
  | zero => exact hs
  | succ n ih => exact h n _ ih

section
variable {s : State} (h : Sound s)
include h

/-! ### Parts on which `Sound` does not depend -/

theorem sound_with_time (x : Nat) : Sound { s with time := x } := h.of_eq rfl rfl rfl rfl rfl rfl rfl rfl rfl rfl rfl rfl rfl
theorem sound_with_profiles (x : List Profile) : Sound { s with profiles := x } := h.of_eq rfl rfl rfl rfl rfl rfl rfl rfl rfl rfl rfl rfl rfl
theorem sound_with_gen (x : GenSt) : Sound { s with gen := x } := h.of_eq rfl rfl rfl rfl rfl rfl rfl rfl rfl rfl rfl rfl rfl
theorem sound_with_pwr (x : PwrSt) : Sound { s with pwr := x } := h.of_eq rfl rfl rfl rfl rfl rfl rfl rfl rfl rfl rfl rfl rfl
theorem sound_with_tmr (x : Vector TimerSt 8) : Sound { s with tmr := x } := h.of_eq rfl rfl rfl rfl rfl rfl rfl rfl rfl rfl rfl rfl rfl
theorem sound_with_crc (x : Vector CrcSt 4) : Sound { s with crc := x } := h.of_eq rfl rfl rfl rfl rfl rfl rfl rfl rfl rfl rfl rfl rfl
theorem sound_with_hif (x : HifSt) : Sound { s with hif := x } := h.of_eq rfl rfl rfl rfl rfl rfl rfl rfl rfl rfl rfl rfl rfl
theorem sound_with_field (x : FldSt) : Sound { s with field := x } := h.of_eq rfl rfl rfl rfl rfl rfl rfl rfl rfl rfl rfl rfl rfl
theorem sound_with_tun (x : TunSt) : Sound { s with tun := x } := h.of_eq rfl rfl rfl rfl rfl rfl rfl rfl rfl rfl rfl rfl rfl
theorem sound_with_rxe (x : Vector PortR 16) : Sound { s with rxe := x } := h.of_eq rfl rfl rfl rfl rfl rfl rfl rfl rfl rfl rfl rfl rfl
theorem sound_with_pro (x : Vector PortP 16) : Sound { s with pro := x } := h.of_eq rfl rfl rfl rfl rfl rfl rfl rfl rfl rfl rfl rfl rfl
theorem sound_with_sess (x : List (Nat × Session)) : Sound { s with sess := x } := h.of_eq rfl rfl rfl rfl rfl rfl rfl rfl rfl rfl rfl rfl rfl
theorem sound_with_overflow (x : List OvfEntry) : Sound { s with overflow := x } := h.of_eq rfl rfl rfl rfl rfl rfl rfl rfl rfl rfl rfl rfl rfl
theorem sound_with_acd (x : Vector PortA 16) : Sound { s with acd := x } := h.of_eq rfl rfl rfl rfl rfl rfl rfl rfl rfl rfl rfl rfl rfl
theorem sound_with_quar (x : List Quar) : Sound { s with quar := x } := h.of_eq rfl rfl rfl rfl rfl rfl rfl rfl rfl rfl rfl rfl rfl
theorem sound_with_kpr (x : KprSt) : Sound { s with kpr := x } := h.of_eq rfl rfl rfl rfl rfl rfl rfl rfl rfl rfl rfl rfl rfl
theorem sound_with_cox (x : CoxSt) : Sound { s with cox := x } := h.of_eq rfl rfl rfl rfl rfl rfl rfl rfl rfl rfl rfl rfl rfl
theorem sound_with_saf (x : SafSt) : Sound { s with saf := x } := h.of_eq rfl rfl rfl rfl rfl rfl rfl rfl rfl rfl rfl rfl rfl
theorem sound_with_pins (x : PinSt) : Sound { s with pins := x } := h.of_eq rfl rfl rfl rfl rfl rfl rfl rfl rfl rfl rfl rfl rfl
theorem sound_with_free (x : Nat) : Sound { s with free := x } := h.of_eq rfl rfl rfl rfl rfl rfl rfl rfl rfl rfl rfl rfl rfl
theorem sound_with_pending (x : List Instr) : Sound { s with pending := x } := h.of_eq rfl rfl rfl rfl rfl rfl rfl rfl rfl rfl rfl rfl rfl

/-! ### Registers and memories -/

theorem sound_setReg (a : Nat) (w : Word) : Sound (s.setReg a w) :=
  { canonical := { h.canonical with regs := Sparse.wf_put resetWord s.regs a w h.canonical.regs }, bounded := { h.bounded with } }

theorem sound_setFld (a : Nat) (f : Field) (v : Nat) : Sound (s.setFld a f v) := sound_setReg h a _
theorem sound_bumpBy (a : Nat) (f : Field) (n : Nat) : Sound (s.bumpBy a f n) := sound_setReg h a _
theorem sound_bump (a : Nat) (f : Field) : Sound (s.bump a f) := sound_setReg h a _
theorem sound_setFldBit (a : Nat) (f : Field) (i : Nat) (b : Bool) : Sound (s.setFldBit a f i b) := sound_setReg h a _
theorem sound_noteSet (a : Nat) (w : Word) : Sound (s.noteSet a w) := h.of_eq rfl rfl rfl rfl rfl rfl rfl rfl rfl rfl rfl rfl rfl
theorem sound_stick (a : Nat) (f : Field) : Sound (s.stick a f) := sound_noteSet (sound_setReg h a _) a _
theorem sound_stickBit (a : Nat) (f : Field) (i : Nat) : Sound (s.stickBit a f i) := sound_noteSet (sound_setReg h a _) a _

theorem sound_sramWrite (a : Nat) (l : List Byte) : Sound (s.sramWrite a l) :=
  { canonical := { h.canonical with sram := Sparse.wf_write 0 s.sram a l h.canonical.sram }, bounded := { h.bounded with } }

/-! ### Counters and events -/

theorem sound_countBy (i n : Nat) : Sound (s.countBy i n) :=
  { canonical := { h.canonical with counters := Sparse.wf_put (fun _ => 0) s.obs.trc.counters i _ h.canonical.counters },
    bounded := { h.bounded with } }

theorem sound_count (i : Nat) : Sound (s.count i) := sound_countBy h i 1
theorem sound_refuse (b : Nat) : Sound (s.refuse b) := sound_countBy h b 1

theorem sound_postEvent (e : Event) : Sound (s.postEvent e) := h.of_eq rfl rfl rfl rfl rfl rfl rfl rfl rfl rfl rfl rfl rfl
theorem sound_post (c : Nat) (k : Note) (a : Nat) : Sound (s.post c k a) := h.of_eq rfl rfl rfl rfl rfl rfl rfl rfl rfl rfl rfl rfl rfl
theorem sound_postCount (w : Window) (n : Nat) : Sound (s.postCount w n) := h.of_eq rfl rfl rfl rfl rfl rfl rfl rfl rfl rfl rfl rfl rfl
theorem sound_setWins (l : List Window) : Sound (s.setWins l) := h.of_eq rfl rfl rfl rfl rfl rfl rfl rfl rfl rfl rfl rfl rfl

theorem sound_closeWin (w : Window) : Sound (s.closeWin w) := by
  unfold State.closeWin
  exact sound_ite (sound_setWins h _) (sound_postCount (sound_setWins (sound_setWins h _) _) _ _)

theorem sound_postLimited (c sc : Nat) (k : Note) (f : ArgForm) (a : Word) (n : Nat) : Sound (s.postLimited c sc k f a n) := by
  unfold State.postLimited
  have rest : ∀ u : State, Sound u → ∀ o p q : State, (Sound u → Sound o) → (Sound u → Sound p) → (Sound u → Sound q) → Sound
      (match findWin u.obs.windows c sc with
        | some w => if s.time < w.ends then o else p
        | none => q) := by
    intro u hu o p q ho hp hq
    split
    · exact sound_ite (ho hu) (hp hu)
    · exact hq hu
  cases findWin s.obs.windows c sc with
  | none => exact rest s h _ _ _ (sound_setWins · _) (fun i => sound_postCount (sound_setWins i _) _ _) (fun i => sound_postCount (sound_setWins i _) _ _)
  | some w =>
    dsimp only
    by_cases hw : w.ends ≤ s.time
    · rw [if_pos hw]
      exact rest _ (sound_closeWin h w) _ _ _ (sound_setWins · _) (fun i => sound_postCount (sound_setWins i _) _ _)
        (fun i => sound_postCount (sound_setWins i _) _ _)
    · rw [if_neg hw]
      exact rest s h _ _ _ (sound_setWins · _) (fun i => sound_postCount (sound_setWins i _) _ _) (fun i => sound_postCount (sound_setWins i _) _ _)

theorem sound_postSec (c sc : Nat) (k : Note) (a : Nat) : Sound (s.postSec c sc k a) := sound_postLimited h c sc k _ _ _
theorem sound_postSecCount (c sc : Nat) (k : Note) : Sound (s.postSecCount c sc k) := sound_postLimited h c sc k _ _ _

end

end Sys2Proof.Machine
end

