-- ==== Sys2Proof/Laws/SoundLog.lean ====
section
/-! SUPPORT. The recorder, the event queue, the trace port, the passing of time and the closing of a command keep `Sound`. -/

namespace Sys2Proof.Machine

section
variable {s : State} (h : Sound s)
include h

theorem sound_setSil (x : SilSt) (hh : x.hold.length ≤ 64) (hv : x.vault.length ≤ 8) : Sound (s.setSil x) :=
  { canonical := { h.canonical with }, bounded := { h.bounded with hold := hh, vault := hv } }

theorem sound_setEvq (x : EvqSt) (he : x.entries.length ≤ 1024) (hi : x.intake.length ≤ 16) : Sound (s.setEvq x) :=
  { canonical := { h.canonical with }, bounded := { h.bounded with evq := he, intake := hi } }

theorem sound_setTrc (x : TrcSt) (hc : Sparse.wf (fun _ => 0) x.counters = true) : Sound (s.setTrc x) :=
  { canonical := { h.canonical with counters := hc }, bounded := { h.bounded with } }

theorem sound_setSilEq (x : SilSt) (hh : x.hold = s.obs.sil.hold) (hv : x.vault = s.obs.sil.vault) : Sound (s.setSil x) :=
  sound_setSil h x (hh ▸ h.bounded.hold) (hv ▸ h.bounded.vault)

theorem sound_setEvqEq (x : EvqSt) (he : x.entries = s.obs.evq.entries) (hi : x.intake = s.obs.evq.intake) : Sound (s.setEvq x) :=
  sound_setEvq h x (he ▸ h.bounded.evq) (hi ▸ h.bounded.intake)

theorem sound_setTrcEq (x : TrcSt) (hc : x.counters = s.obs.trc.counters) : Sound (s.setTrc x) :=
  sound_setTrc h x (hc ▸ h.canonical.counters)

/-! ### The trace port -/

theorem sound_trace (k : Nat) (l : List Byte) : Sound (s.trace k l) := by
  unfold State.trace
  refine sound_ite (sound_ite ?_ ?_) h
  · exact sound_countBy (sound_setTrcEq h _ (by rfl)) _ _
  · exact sound_count (sound_setTrcEq h _ (by rfl)) _

theorem sound_traceEvent (e : Event) : Sound (s.traceEvent e) := sound_ite (sound_trace h _ _) h

theorem sound_traceState (k i a b : Nat) : Sound (State.traceState k i a b s) := sound_ite (sound_trace h _ _) h

theorem sound_traceDecisions : Sound s.traceDecisions :=
  sound_ite (sound_foldl _ (fun _ ht _ => sound_trace ht _ _) _ _ (sound_setTrcEq h _ (by rfl))) (sound_setTrcEq h _ (by rfl))

/-! ### The recorder -/

theorem sound_silDrop (k : Note) : Sound (s.silDrop k) := by
  unfold State.silDrop
  cases k
  · exact h
  · exact sound_postSec (sound_setSilEq h _ (by rfl) (by rfl)) _ _ _ _
  · exact sound_postSec (sound_setSilEq h _ (by rfl) (by rfl)) _ _ _ _

theorem sound_vaultPut (r : Rec) : Sound (s.vaultPut r) := by
  unfold State.vaultPut
  dsimp only
  split
  · rename_i hl
    exact sound_setSil h _ h.bounded.hold (by simp only [List.length_append, List.length_cons, List.length_nil]; omega)
  · split
    · exact sound_setSil h _ h.bounded.hold (by simpa using h.bounded.vault)
    · exact sound_count (sound_silDrop h _) _

theorem sound_spillLose : Sound s.spillLose := by
  unfold State.spillLose
  exact sound_postSec (sound_setSilEq h _ (by rfl) (by rfl)) _ _ _ _

theorem sound_stage (r : Rec) : Sound (s.stage r) := by
  unfold State.stage
  dsimp only
  split
  · exact sound_ite (sound_ite (sound_setSilEq h _ (by rfl) (by rfl)) (sound_spillLose h)) (sound_setSilEq h _ (by rfl) (by rfl))
  · exact sound_setSilEq h _ (by rfl) (by rfl)

theorem sound_takeSeq : Sound s.takeSeq := by
  unfold State.takeSeq
  exact sound_count (sound_setSilEq h _ (by rfl) (by rfl)) _

theorem sound_silOffer (e : Event) : Sound (s.silOffer e) := by
  unfold State.silOffer
  dsimp only
  split
  · exact h
  · exact sound_ite (sound_spillLose h) (sound_stage (sound_takeSeq h) _)
  · refine sound_ite (sound_silDrop h _) ?_
    have k : Sound (if s.flag Reg.SIL_CTRL Fld.SIL_CTRL_SPILL_EN
          && decide (e.note.rank ≤ s.fld Reg.SIL_CTRL Fld.SIL_CTRL_SPILL_MIN) then s.takeSeq.stage (s.makeRec e (s.trigger e.code))
        else s.takeSeq) := sound_ite (sound_stage (sound_takeSeq h) _) (sound_takeSeq h)
    exact sound_ite (sound_vaultPut k _) (sound_setSilEq k _ (by rfl) (by rfl))

theorem sound_ringPut (r : Rec) : Sound (s.ringPut r) := by
  unfold State.ringPut
  dsimp only
  split
  · exact sound_sramWrite (sound_setSilEq h _ (by rfl) (by rfl)) _ _
  · exact sound_count (sound_silDrop h _) _

theorem sound_retireLine (l : Nat) : Sound (s.retireLine l) := by
  unfold State.retireLine
  repeat' first
    | assumption
    | with_reducible apply sound_ite
    | with_reducible apply sound_post
    | with_reducible apply sound_postSecCount
    | with_reducible apply sound_setWins
    | with_reducible apply sound_setSilEq
    | dsimp only

theorem sound_holdPut (r : Rec) : Sound (s.holdPut r) := by
  unfold State.holdPut
  dsimp only
  split
  · rename_i hl
    exact sound_setSil h _ (by simp only [List.length_append, List.length_cons, List.length_nil]; omega) h.bounded.vault
  · split
    · exact sound_vaultPut h r
    · exact sound_count (sound_postSec (sound_setSilEq h _ (by rfl) (by rfl)) _ _ _ _) _
    · exact sound_count (sound_postSec (sound_setSilEq h _ (by rfl) (by rfl)) _ _ _ _) _

theorem sound_ringMove : Sound s.ringMove := by
  unfold State.ringMove
  dsimp only
  split
  · split
    · refine sound_holdPut (sound_setSilEq h _ ?_ ?_) _ <;> rfl
    · exact h
  · split
    · rename_i rest e
      have k : ∀ x : SilSt, x.hold = rest → x.vault = s.obs.sil.vault → Sound (s.setSil x) := by
        intro x hx hv
        have := h.bounded.hold
        rw [e, List.length_cons] at this
        exact sound_setSil h x (by rw [hx]; omega) (hv ▸ h.bounded.vault)
      refine sound_ite (sound_vaultPut (k _ ?_ ?_) _) (sound_ringPut (k _ ?_ ?_) _) <;> rfl
    · refine sound_ite (sound_vaultPut (sound_setSilEq h _ ?_ ?_) _) (sound_ringPut (sound_setSilEq h _ ?_ ?_) _) <;> rfl
    · exact h

/-! ### The event queue -/

theorem sound_evqLose (p : Nat) : Sound (s.evqLose p) := by
  unfold State.evqLose
  have k := sound_count (sound_setEvq h { s.obs.evq with
      lost := s.obs.evq.lost.setIfInBounds p (satAdd 255 ((s.obs.evq.lost[p]?).getD 0) 1)
      ovf := s.obs.evq.ovf || s.obs.evq.lost.toList.all fun n => n = 0 } h.bounded.evq h.bounded.intake) 20
  exact sound_ite (sound_post (sound_noteSet k _ _) _ _ _) k

theorem sound_evqOffer (e : Event) : Sound (s.evqOffer e) := by
  unfold State.evqOffer
  dsimp only
  refine sound_ite ?_ h
  split
  · rename_i hl
    exact sound_setEvq h _ h.bounded.evq (by simp only [List.length_append, List.length_cons, List.length_nil]; omega)
  · exact sound_evqLose h _

theorem sound_setEvqX (x : EvqSt) (he : x.entries.length ≤ 1024) (hi : x.intake.length ≤ 16) : Sound (s.setEvqX x) :=
  sound_ite (sound_noteSet (sound_setEvq (x := { x with wmHit := true, wmCount := satAdd 255 x.wmCount 1 }) (sound_setEvq h _ he hi) he hi) _ _) (sound_setEvq h _ he hi)

omit h in
theorem length_dropFirstAt (p : Nat) (l : List EvqEntry) :
    (dropFirstAt p l).length = l.length - if l.any (fun e => e.prio = p) then 1 else 0 := by
  induction l with
  | nil => rfl
  | cons e t ih =>
    unfold dropFirstAt
    by_cases hp : e.prio = p
    · simp [hp]
    · rw [if_neg hp, List.length_cons, ih]
      simp only [List.any_cons, hp, decide_false, Bool.false_or, List.length_cons]
      split
      · rename_i ha
        have : t ≠ [] := by
          intro e
          subst e
          cases ha
        have := List.length_pos_of_ne_nil this
        omega
      · rfl

omit h in
theorem length_dropNewestAt (p : Nat) (l : List EvqEntry) :
    (dropNewestAt p l).length = l.length - if l.any (fun e => e.prio = p) then 1 else 0 := by
  rw [dropNewestAt, List.length_reverse, length_dropFirstAt, List.length_reverse, List.any_reverse]

omit h in
/-- The priority that makes room is that of an entry. -/
theorem evqVictim_mem {p : Nat} (hv : s.evqVictim = some p) : (s.obs.evq.entries.any fun e => e.prio = p) = true := by
  have key : ∀ q : Nat, s.evqAt q ≠ 0 → (s.obs.evq.entries.any fun e => e.prio = q) = true := by
    intro q hq
    unfold State.evqAt at hq
    have hne : (s.obs.evq.entries.filter fun e => e.prio = q) ≠ [] := fun e => hq (by rw [e]; rfl)
    obtain ⟨a, ha⟩ := List.exists_mem_of_ne_nil _ hne
    rw [List.mem_filter] at ha
    exact List.any_eq_true.mpr ⟨a, ha.1, ha.2⟩
  unfold State.evqVictim firstSome at hv
  by_cases h3 : s.evqAt 3 = 0
  · rw [if_pos h3] at hv
    unfold firstSome at hv
    by_cases h2 : s.evqAt 2 = 0
    · rw [if_pos h2] at hv
      unfold firstSome at hv
      by_cases h1 : s.evqAt 1 = 0
      · rw [if_pos h1] at hv
        simp [firstSome] at hv
      · rw [if_neg h1] at hv
        cases hv
        exact key 1 h1
    · rw [if_neg h2] at hv
      cases hv
      exact key 2 h2
  · rw [if_neg h3] at hv
    cases hv
    exact key 3 h3

theorem sound_evqMove : Sound s.evqMove := by
  unfold State.evqMove
  dsimp only
  split
  · exact h
  · rename_i a t e
    have ht : t.length ≤ 16 := by
      have := h.bounded.intake
      rw [e, List.length_cons] at this
      omega
    split
    · rename_i hl
      exact sound_setEvqX h _ (by simp only [List.length_append, List.length_cons, List.length_nil]; omega) ht
    · refine sound_ite ?_ h
      split
      · rename_i p hp
        have hm := length_dropNewestAt p s.obs.evq.entries
        rw [if_pos (evqVictim_mem hp)] at hm
        have hb := h.bounded.evq
        exact sound_evqLose (sound_setEvqX h _ (by simp only [List.length_append, List.length_cons, List.length_nil]; omega) ht) _
      · exact h

theorem sound_evqPop : Sound s.evqPop.1 := by
  unfold State.evqPop
  split
  · refine sound_setEvqX h _ ?_ h.bounded.intake
    dsimp only
    rw [length_dropFirstAt]
    have := h.bounded.evq
    omega
  · exact sound_setEvqX h _ h.bounded.evq h.bounded.intake

/-! ### Time and the end of a command -/

theorem sound_flush : Sound s.flush := by
  unfold State.flush
  dsimp only
  refine sound_countBy (sound_foldl _ (fun _ ht _ => sound_traceEvent ht _) _ _ (sound_traceDecisions (sound_foldl _ (fun _ ht _ => sound_evqOffer ht _) _ _
    (sound_foldl _ (fun _ ht _ => sound_silOffer ht _) _ _ ?_)))) _ _
  exact h.of_eq rfl rfl rfl rfl rfl rfl rfl rfl rfl rfl rfl rfl rfl

theorem sound_moves (n : Nat) : Sound (State.moves n s) := by
  induction n generalizing s with
  | zero => exact h
  | succ n ih => exact ih (sound_evqMove (sound_ringMove h))

theorem sound_drainTrace : Sound s.drainTrace := by
  unfold State.drainTrace
  exact sound_setTrcEq h _ (by rfl)

theorem sound_settle : Sound s.settle := by
  unfold State.settle
  exact sound_ite h (sound_flush (sound_moves (sound_with_time h _) _))

theorem sound_advance (n : Nat) : Sound (s.advance n) := by
  unfold State.advance
  dsimp only
  refine sound_ite h (sound_drainTrace (sound_moves (sound_with_time ?_ _) _))
  exact sound_ite (sound_settle h) h

theorem sound_traceChanges (s0 : State) : Sound (State.traceChanges s0 s) := by
  unfold State.traceChanges
  dsimp only
  refine sound_foldl _ (fun _ ht _ => sound_traceState ht _ _ _ _) _ _ (sound_traceState (sound_foldl _ (fun _ ht _ => sound_traceState ht _ _ _ _) _ _
    (sound_foldl _ (fun _ ht _ => sound_traceState ht _ _ _ _) _ _ (sound_foldl _ (fun _ ht _ => sound_traceState ht _ _ _ _) _ _
      (sound_traceState h _ _ _ _)))) _ _ _ _)

theorem sound_offer (s0 : State) : Sound (State.offer s0 s) := by
  unfold State.offer
  dsimp only
  refine Sound.of_eq (sound_flush (s := { s with obs := { s.obs with posted := _ } }) ?_) rfl rfl rfl rfl rfl rfl rfl rfl rfl rfl rfl rfl rfl
  exact h.of_eq rfl rfl rfl rfl rfl rfl rfl rfl rfl rfl rfl rfl rfl

/-- Closing a command keeps `Sound`. -/
theorem sound_finish (s0 : State) : Sound (finish s0 s) := by
  unfold finish
  dsimp only
  have k : Sound (State.offer s0 (if s.tracing then State.traceChanges s0 s else s)) :=
    sound_offer (sound_ite (sound_traceChanges h s0) h) s0
  generalize State.offer s0 (if s.tracing then State.traceChanges s0 s else s) = u at k ⊢
  exact k.of_eq rfl rfl rfl rfl rfl rfl rfl rfl rfl rfl rfl rfl rfl

end

end Sys2Proof.Machine
end

