-- ==== Sys2Proof/Laws/SoundParts.lean ====
section
/-! SUPPORT. Replacing a part on which `Sound` depends keeps it where the part's own condition holds. -/

namespace Sys2Proof.Machine

section
variable {s : State} (h : Sound s)
include h

theorem sound_with_cfg (x : CfgSt) (hb : x.boot = s.cfg.boot) : Sound { s with cfg := x } :=
  h.of_eq rfl rfl hb rfl rfl rfl rfl rfl rfl rfl rfl rfl rfl

theorem sound_with_obs (x : Obs) (h1 : x.trc.counters = s.obs.trc.counters) (h2 : x.evq.entries = s.obs.evq.entries)
    (h3 : x.evq.intake = s.obs.evq.intake) (h4 : x.sil.hold = s.obs.sil.hold) (h5 : x.sil.vault = s.obs.sil.vault) :
    Sound { s with obs := x } := h.of_eq rfl rfl rfl rfl rfl rfl rfl h1 rfl h2 h3 h4 h5

theorem sound_with_emu (x : EmuSt) (hd : x.data = s.emu.data) (hn : x.nv = s.emu.nv) : Sound { s with emu := x } :=
  h.of_eq rfl rfl rfl hd hn rfl rfl rfl rfl rfl rfl rfl rfl

theorem sound_with_sto (x : StoSt) (h0 : x.buf0 = s.sto.buf0) (h1 : x.buf1 = s.sto.buf1) : Sound { s with sto := x } :=
  h.of_eq rfl rfl rfl rfl rfl h0 h1 rfl rfl rfl rfl rfl rfl

theorem sound_setSto (x : StoSt) (h0 : x.buf0 = s.sto.buf0) (h1 : x.buf1 = s.sto.buf1) : Sound (s.setSto x) := sound_with_sto h x h0 h1

theorem sound_modE (f : EmuSt → EmuSt) (hd : (f s.emu).data = s.emu.data) (hn : (f s.emu).nv = s.emu.nv) : Sound (s.modE f) :=
  sound_with_emu h _ hd hn

theorem sound_modSil (x : SilSt) (hh : x.hold = s.obs.sil.hold) (hv : x.vault = s.obs.sil.vault) : Sound (s.setSil x) :=
  sound_setSilEq h x hh hv

theorem sound_setPq (n : Nat) (q : PortQ) (ht : q.tx.length ≤ 2048) (hr : q.rx.length ≤ 2048) : Sound (s.setPq n q) where
  canonical := { h.canonical with }
  bounded :=
    { h.bounded with
      tx := fun m => by
        show ((((s.que.setIfInBounds n q)[m]?).getD { tx := [], rx := [], pushedAt := 0, newWords := 0 }).tx).length ≤ 2048
        by_cases hm : m < 16
        · rw [Vector.getElem?_eq_getElem hm, Option.getD_some, Vector.getElem_setIfInBounds]
          split
          · exact ht
          · have := h.bounded.tx m
            rwa [State.pq, Vector.getElem?_eq_getElem hm, Option.getD_some] at this
        · rw [Vector.getElem?_eq_none (by omega)]
          exact Nat.zero_le _
      rx := fun m => by
        show ((((s.que.setIfInBounds n q)[m]?).getD { tx := [], rx := [], pushedAt := 0, newWords := 0 }).rx).length ≤ 2048
        by_cases hm : m < 16
        · rw [Vector.getElem?_eq_getElem hm, Option.getD_some, Vector.getElem_setIfInBounds]
          split
          · exact hr
          · have := h.bounded.rx m
            rwa [State.pq, Vector.getElem?_eq_getElem hm, Option.getD_some] at this
        · rw [Vector.getElem?_eq_none (by omega)]
          exact Nat.zero_le _ }

theorem sound_modWm (n : Nat) (f : PortWm → PortWm) : Sound (s.modWm n f) := sound_with_obs h _ rfl rfl rfl rfl rfl

theorem sound_crossWm (s0 : State) (n : Nat) : Sound (State.crossWm s0 s n) := by
  unfold State.crossWm
  dsimp only
  have mark : ∀ {u : State}, Sound u → ∀ (f : PortWm → PortWm) (a : Nat) (w : Word), Sound ((u.modWm n f).noteSet a w) :=
    fun k f a w => sound_noteSet (sound_modWm k n f) a w
  have k := sound_ite (c := crossing (s.fld (Reg.QUE_P_TX_WM n) Fld.QUE_P_TX_WM_DIR) (s0.txAbove n) (s.txAbove n) = true)
    (mark h (fun x => { x with txHit := true, txCount := satAdd 255 x.txCount 1 }) (Reg.QUE_P_WM_STATUS n)
      Fld.QUE_P_WM_STATUS_TX_WM_HIT.mask) h
  exact sound_ite (mark k _ _ _) k

theorem sound_setPqX (n : Nat) (q : PortQ) (ht : q.tx.length ≤ 2048) (hr : q.rx.length ≤ 2048) : Sound (s.setPqX n q) :=
  sound_crossWm (sound_setPq h n q ht hr) s n

theorem sound_pushTx (n : Nat) (w : Word) (hr : s.txRoom n = true) : Sound (s.pushTx n w) := by
  unfold State.txRoom at hr
  have := of_decide_eq_true hr
  exact sound_setPqX h n _ (by simpa using this) (h.bounded.rx n)

theorem sound_pushTxs (n : Nat) (l : List Word) : Sound (State.pushTxs s n l) := by
  induction l generalizing s with
  | nil => exact h
  | cons w t ih =>
    unfold State.pushTxs
    split
    · rename_i hr
      exact ih (sound_pushTx h n w hr)
    · exact sound_with_hif h _

theorem sound_resumePush (n : Nat) : Sound (s.resumePush n) := by
  unfold State.resumePush
  split
  · exact sound_ite (sound_pushTxs (sound_with_hif h _) _ _) h
  · exact h

theorem sound_pushRxs (n : Nat) (l : List Word) : Sound (State.pushRxs s n l).1 := by
  induction l generalizing s with
  | nil => exact h
  | cons w t ih =>
    unfold State.pushRxs
    split
    · rename_i hr
      have := of_decide_eq_true hr
      exact ih (sound_setPqX h n _ (h.bounded.tx n) (by simpa using this))
    · exact h

theorem sound_poisoned (n sc : Nat) : Sound (s.poisoned n sc) := sound_postSecCount (sound_bump (sound_bump h _ _) _ _) _ _ _

theorem sound_popRx (n : Nat) (bad : Bool) : Sound (s.popRx n bad).1 := by
  unfold State.popRx
  split
  · rename_i x t e
    have hl := h.bounded.rx n
    rw [e, List.length_cons] at hl
    have k := sound_setFld (sound_setPqX h n { s.pq n with rx := t } (h.bounded.tx n) (by dsimp only; omega))
      (Reg.QUE_P_RX_TAG n) Fld.QUE_P_RX_TAG_POISON (bnat (x.poison || bad))
    exact sound_ite (sound_poisoned k _ _) k
  · exact sound_bump (sound_stick h _ _) _ _

theorem sound_popEvq (b0 b1 : Bool) : Sound (s.popEvq b0 b1).1 := by
  unfold State.popEvq
  split
  · have k := sound_setFld (sound_setFld (sound_evqPop h) Reg.QUE_EVQ_TAG Fld.QUE_EVQ_TAG_POISON0 (bnat b0)) Reg.QUE_EVQ_TAG
      Fld.QUE_EVQ_TAG_POISON1 (bnat b1)
    have m := sound_bumpBy k Reg.QUE_POISONS Fld.QUE_POISONS_COUNT (bnat b0 + bnat b1)
    exact sound_ite k (sound_ite (sound_postSecCount m _ _ _) (sound_postSecCount (sound_postSecCount m _ _ _) _ _ _))
  · exact sound_setReg (sound_evqPop h) _ _

/-! ### Memories of EMU, STO and CFG -/

theorem sound_nvWrite (a : Nat) (l : List Byte) : Sound (s.nvWrite a l) :=
  { canonical := { h.canonical with nv := Sparse.wf_write 0xFF s.emu.nv a l h.canonical.nv }, bounded := { h.bounded with } }

theorem sound_putData (i : Nat) (w : Word) : Sound (s.putData i w) :=
  { canonical := { h.canonical with data := Sparse.wf_write 0 s.emu.data _ _ h.canonical.data }, bounded := { h.bounded with } }

theorem sound_putDatas (i : Nat) (l : List Word) : Sound (State.putDatas s i l) := by
  induction l generalizing s i with
  | nil => exact h
  | cons w t ih => exact ih (sound_ite (sound_putData h i w) h) _

theorem sound_bootWrite (a : Nat) (l : List Byte) : Sound (s.bootWrite a l) :=
  { canonical := { h.canonical with boot := Sparse.wf_write 0xFF s.cfg.boot a l h.canonical.boot }, bounded := { h.bounded with } }

theorem sound_takeFreeWord : Sound s.takeFreeWord.1 := sound_with_free h _
theorem sound_takeFreeBit : Sound s.takeFreeBit.1 := sound_with_free h _

end

end Sys2Proof.Machine
end

