-- ==== Sys2Proof/Laws/SoundQueues.lean ====
section
/-! SUPPORT. The log, the queues, the monitors, the geometry tables, the roster keeper and the air model keep `Sound`. -/

namespace Sys2Proof.Machine

theorem sound_setChan (s : State) (c : Nat) (x : CrcSt) (h_s : Sound s) : Sound (State.setChan s c x) := by
  unfold State.setChan
  with_reducible repeat' first | assumption | apply sound_with_crc

theorem sound_setTimer (s : State) (k : Nat) (x : TimerSt) (h_s : Sound s) : Sound (State.setTimer s k x) := by
  unfold State.setTimer
  with_reducible repeat' first | assumption | apply sound_with_tmr

theorem sound_modF (s : State) (n : Nat) (f : PortF → PortF) (h_s : Sound s) : Sound (State.modF s n f) := by
  unfold State.modF
  with_reducible repeat' first | assumption | intro _ | apply sound_with_field

theorem sound_modR (s : State) (n : Nat) (f : PortR → PortR) (h_s : Sound s) : Sound (State.modR s n f) := by
  unfold State.modR
  with_reducible repeat' first | assumption | intro _ | apply sound_with_rxe

theorem sound_modP (s : State) (n : Nat) (f : PortP → PortP) (h_s : Sound s) : Sound (State.modP s n f) := by
  unfold State.modP
  with_reducible repeat' first | assumption | intro _ | apply sound_with_pro

theorem sound_modA (s : State) (n : Nat) (f : PortA → PortA) (h_s : Sound s) : Sound (State.modA s n f) := by
  unfold State.modA
  with_reducible repeat' first | assumption | intro _ | apply sound_with_acd

theorem sound_modT (s : State) (n : Nat) (f : PortT → PortT) (h_s : Sound s) : Sound (State.modT s n f) := by
  unfold State.modT
  with_reducible repeat' first | assumption | intro _ | apply sound_with_tun

theorem sound_modX (s : State) (n : Nat) (f : PortX → PortX) (h_s : Sound s) : Sound (State.modX s n f) := by
  unfold State.modX
  with_reducible repeat' first | assumption | intro _ | apply sound_with_cox

theorem sound_modH (s : State) (h : Nat) (f : HuddleSt → HuddleSt) (h_s : Sound s) : Sound (State.modH s h f) := by
  unfold State.modH
  with_reducible repeat' first | assumption | intro _ | apply sound_with_field

theorem sound_modL (s : State) (l : Nat) (f : LaneSt → LaneSt) (h_s : Sound s) : Sound (State.modL s l f) := by
  unfold State.modL
  with_reducible repeat' first | assumption | intro _ | apply sound_with_kpr

theorem sound_putSess (s : State) (k : Nat) (x : Session) (h_s : Sound s) : Sound (State.putSess s k x) := by
  unfold State.putSess
  with_reducible repeat' first | assumption | apply sound_with_sess

theorem sound_modSess (s : State) (k : Nat) (f : Session → Session) (h_s : Sound s) : Sound (State.modSess s k f) := by
  unfold State.modSess
  with_reducible repeat' first | assumption | apply sound_ite | apply sound_putSess | split

theorem sound_freeSess (s : State) (k : Nat) (h_s : Sound s) : Sound (State.freeSess s k) := by
  unfold State.freeSess
  with_reducible repeat' first | assumption | apply sound_with_sess

theorem sound_modeConflict (s : State) (n : Nat) (h_s : Sound s) : Sound (State.modeConflict s n) := by
  unfold State.modeConflict
  with_reducible repeat' first | assumption | apply sound_count | apply sound_post

theorem sound_judgeHuddle (s : State) (n : Nat) (h_s : Sound s) : Sound (State.judgeHuddle s n) := by
  unfold State.judgeHuddle
  with_reducible repeat' first | assumption | apply sound_ite | apply sound_setFld | apply sound_stick | apply sound_modeConflict

theorem sound_judgeRole (s : State) (n : Nat) (h_s : Sound s) : Sound (State.judgeRole s n) := by
  unfold State.judgeRole
  with_reducible repeat' first | assumption | apply sound_ite | apply sound_stick | apply sound_modeConflict | apply sound_judgeHuddle

theorem sound_coreSafe (s : State) (h_s : Sound s) : Sound (State.coreSafe s) := by
  unfold State.coreSafe
  with_reducible repeat' first | assumption | apply sound_ite | apply sound_with_saf

theorem sound_setIrq (s0 s : State) (h_s0 : Sound s0) (h_s : Sound s) : Sound (State.setIrq s0 s) := by
  unfold State.setIrq
  repeat' first | with_reducible assumption | rfl | dsimp only | with_reducible apply sound_with_obs

theorem sound_setLead (s : State) (h_s : Sound s) : Sound (State.setLead s) := by
  unfold State.setLead
  repeat' first | with_reducible assumption | rfl | with_reducible apply sound_with_obs

theorem sound_setIdle (s : State) (h_s : Sound s) : Sound (State.setIdle s) := by
  unfold State.setIdle
  repeat' first | with_reducible assumption | rfl | dsimp only | with_reducible apply sound_with_obs

theorem sound_flushRx (s : State) (n : Nat) (h_s : Sound s) : Sound (State.flushRx s n) :=
  sound_modP _ _ _ (sound_setPqX h_s n _ (h_s.bounded.tx n) (Nat.zero_le _))

theorem sound_setOut (s : State) (l : List Word) (h_s : Sound s) : Sound (State.setOut s l) := by
  unfold State.setOut
  with_reducible repeat' first | assumption | apply sound_with_hif

theorem sound_trip (s : State) (code wher : Nat) (h_s : Sound s) : Sound (State.trip s code wher) := by
  unfold State.trip
  with_reducible repeat' first
    | assumption | apply sound_ite | apply sound_setReg | apply sound_setFld | apply sound_setFldBit | dsimp only | apply sound_with_saf

theorem sound_authResult (s : State) (r : Nat) (h_s : Sound s) : Sound (State.authResult s r) := by
  unfold State.authResult
  with_reducible repeat' first | assumption | apply sound_setFld | apply sound_stick

theorem sound_authEnd (s : State) (h_s : Sound s) : Sound (State.authEnd s) := by
  unfold State.authEnd
  repeat' first | with_reducible assumption | rfl | with_reducible apply sound_with_cfg

theorem sound_authRefused (s : State) (h_s : Sound s) : Sound (State.authRefused s) := by
  unfold State.authRefused
  with_reducible repeat' first | assumption | apply sound_authResult | apply sound_authEnd

theorem sound_authAccepted (s : State) (h_s : Sound s) : Sound (State.authAccepted s) := by
  unfold State.authAccepted
  with_reducible repeat' first | assumption | apply sound_post | apply sound_bump | apply sound_authResult

theorem sound_setPages (s : State) (h_s : Sound s) : Sound (State.setPages s) := by
  unfold State.setPages
  with_reducible repeat' first | assumption | apply sound_setFld | apply sound_each | dsimp only | intro _

theorem sound_putWay (s : State) (set w : Nat) (x : Way) (h_s : Sound s) : Sound (State.putWay s set w x) := by
  unfold State.putWay
  with_reducible repeat' first | assumption | apply sound_sramWrite

theorem sound_driveLane (s : State) (l decision : Nat) (h_s : Sound s) : Sound (State.driveLane s l decision) := by
  unfold State.driveLane
  with_reducible repeat' first | assumption | apply sound_ite | apply sound_bump | apply sound_modL

theorem sound_writeRecent (s : State) (h h2 lane : Nat) (v : Verdict4) (driven : Bool) (store : Option (Nat × Nat)) (h_s : Sound s) :
    Sound (State.writeRecent s h h2 lane v driven store) := by
  unfold State.writeRecent
  with_reducible repeat' first
    | assumption | apply sound_ite | apply sound_count | apply sound_postSec | apply sound_bump | apply sound_putWay

theorem sound_quarantine (s : State) (port group code : Nat) (benchEnd : Option Nat) (h_s : Sound s) : Sound (State.quarantine s port
    group code benchEnd) := by
  unfold State.quarantine
  with_reducible repeat' first | assumption | dsimp only | apply sound_with_quar

theorem sound_dropSess (s : State) (k : Nat) (h_s : Sound s) : Sound (State.dropSess s k) := by
  unfold State.dropSess
  with_reducible repeat' first | assumption | apply sound_freeSess | apply sound_quarantine | split

theorem sound_settleSess (s : State) (k : Nat) (h_s : Sound s) : Sound (State.settleSess s k) := by
  unfold State.settleSess
  with_reducible repeat' first | assumption | apply sound_ite | apply sound_dropSess | split

theorem sound_decide4 (s : State) (k : Nat) (src : Source) (store : Bool) (stale : Bool) (bank since : Nat) (hw : HwFault) (h_s : Sound s)
    : Sound (State.decide4 s k src store stale bank since hw) := by
  unfold State.decide4
  repeat' first
    | with_reducible assumption | with_reducible apply sound_ite | with_reducible apply sound_setReg | with_reducible apply sound_setFld
    | with_reducible apply sound_count | with_reducible apply sound_post | with_reducible apply sound_bump
    | with_reducible apply sound_modSess | with_reducible apply sound_trip | with_reducible apply sound_driveLane
    | with_reducible apply sound_writeRecent | with_reducible apply sound_setTrcEq | rfl | split

theorem sound_decideAll (s : State) (src : Source) (stale : Bool) (bank since : Nat) (hw : HwFault) (l : List Nat) (h_s : Sound s) : Sound
    (State.decideAll s src stale bank since hw l) := by
  induction l generalizing s with
  | nil => exact h_s
  | cons k t ih => exact ih _ (sound_decide4 _ _ _ _ _ _ _ _ h_s)

theorem sound_queueOp (s : State) (k : StoKind) (region page : Nat) (h_s : Sound s) : Sound (State.queueOp s k region page) := by
  unfold State.queueOp
  repeat' first | with_reducible assumption | rfl | with_reducible apply sound_with_sto

theorem sound_takeSlot (s : State) (k h h2 since : Nat) (h_s : Sound s) : Sound (State.takeSlot s k h h2 since) := by
  unfold State.takeSlot
  with_reducible repeat' first | assumption | apply sound_count | apply sound_queueOp | dsimp only | apply sound_with_kpr

theorem sound_issue (s : State) (k h h2 since : Nat) (h_s : Sound s) : Sound (State.issue s k h h2 since) := by
  unfold State.issue
  with_reducible repeat' first | assumption | apply sound_ite | apply sound_postSec | apply sound_takeSlot | apply sound_with_kpr

theorem sound_recentParity (s : State) (set w : Nat) (h_s : Sound s) : Sound (State.recentParity s set w) := by
  unfold State.recentParity
  with_reducible repeat' first | assumption | apply sound_post | apply sound_putWay

theorem sound_submit (s : State) (k : Nat) (hw : HwFault) (h_s : Sound s) : Sound (State.submit s k hw) := by
  unfold State.submit
  with_reducible repeat' first
    | assumption | apply sound_ite | apply sound_modSess | apply sound_advance | apply sound_decide4 | apply sound_issue
    | apply sound_recentParity | split

theorem sound_decideWaiting (l : List (Nat × Nat)) (s : State) (h_s : Sound s) : Sound (State.decideWaiting l s) := by
  induction l generalizing s with
  | nil => exact h_s
  | cons x t ih =>
    unfold State.decideWaiting
    exact ih _ (sound_ite (sound_decide4 _ _ _ _ _ _ _ _ (sound_advance h_s _)) (sound_advance h_s _))

theorem sound_freeSlot (s : State) (n : Nat) (h_s : Sound s) : Sound (State.freeSlot s n) := by
  unfold State.freeSlot
  dsimp only
  have k : Sound (List.foldl (fun t x => List.foldl (fun u k => u.settleSess k) t x.sess)
      { s with kpr := { s.kpr with slots := s.kpr.slots.filter fun x => x.slot ≠ n } } (s.kpr.slots.filter fun x => x.slot = n)) :=
    sound_foldl _ (fun t ht a => sound_foldl _ (fun u hu b => sound_settleSess _ _ hu) _ _ ht) _ _ (sound_with_kpr h_s _)
  generalize List.foldl (fun t x => List.foldl (fun u k => u.settleSess k) t x.sess)
      { s with kpr := { s.kpr with slots := s.kpr.slots.filter fun x => x.slot ≠ n } } (s.kpr.slots.filter fun x => x.slot = n) = u at k ⊢
  refine sound_ite (sound_decideWaiting _ _ (sound_with_kpr k _)) ?_
  split
  · split
    · exact sound_issue _ _ _ _ _ (sound_with_kpr k _)
    · exact sound_with_kpr k _
  · exact k

theorem sound_shelfDone (s : State) (n : Nat) (data : Option (List Byte)) (hw : HwFault) (h_s : Sound s) : Sound (State.shelfDone s n data
    hw) := by
  unfold State.shelfDone
  have c := sound_count h_s 92
  split
  · exact h_s
  · dsimp only
    generalize s.count 92 = u at c ⊢
    split
    · exact sound_freeSlot _ _ (sound_decideAll _ _ _ _ _ _ _ c)
    · split
      · exact sound_freeSlot _ _ (sound_decideAll _ _ _ _ _ _ _ (sound_advance c _))
      · exact sound_count (sound_queueOp _ _ _ _ (sound_advance (sound_with_kpr c _) _)) _
    · exact sound_freeSlot _ _ c

theorem sound_abandonLookups (s : State) (h_s : Sound s) : Sound (State.abandonLookups s) := by
  unfold State.abandonLookups
  with_reducible repeat' first | assumption | apply sound_with_kpr

theorem sound_invalidate (s : State) (h_s : Sound s) : Sound (State.invalidate s) := by
  unfold State.invalidate
  with_reducible repeat' first | assumption | apply sound_with_kpr

theorem sound_setBank (s : State) (b : Nat) (v : BankVals) (h_s : Sound s) : Sound (State.setBank s b v) := by
  unfold State.setBank
  with_reducible repeat' first | assumption | apply sound_setReg

theorem sound_adapt (s : State) (n : Nat) (warm : Bool) (l : List RxSample) (h_s : Sound s) : Sound (State.adapt s n warm l) := by
  unfold State.adapt
  with_reducible repeat' first | assumption | apply sound_ite | apply sound_modR

theorem sound_firstWeights (s : State) (n : Nat) (h_s : Sound s) : Sound (State.firstWeights s n) := by
  unfold State.firstWeights
  with_reducible repeat' first | assumption | apply sound_modR

theorem sound_takeDiffs (s : State) (n : Nat) (h_s : Sound s) : Sound (State.takeDiffs s n) := by
  unfold State.takeDiffs
  with_reducible repeat' first | assumption | apply sound_modR

theorem sound_entryMoved (s : State) (n j : Nat) (d : Vec) (h_s : Sound s) : Sound (State.entryMoved s n j d) := by
  unfold State.entryMoved
  with_reducible repeat' first | assumption | apply sound_ite | apply sound_modR | apply sound_takeDiffs

theorem sound_setGain (s : State) (n g : Nat) (h_s : Sound s) : Sound (State.setGain s n g) := by
  unfold State.setGain
  with_reducible repeat' first | assumption | apply sound_setFld | apply sound_modR

theorem sound_noteResidual (s : State) (n v : Nat) (h_s : Sound s) : Sound (State.noteResidual s n v) := by
  unfold State.noteResidual
  with_reducible repeat' first
    | assumption | apply sound_ite | apply sound_setFld | apply sound_post | apply sound_stick | apply sound_modF

theorem sound_armRx (s : State) (n : Nat) (x : RxOpen) (h_s : Sound s) : Sound (State.armRx s n x) := by
  unfold State.armRx
  with_reducible repeat' first
    | assumption | apply sound_adapt | apply sound_takeDiffs | apply sound_setGain | apply sound_noteResidual

theorem sound_armListen (s : State) (n : Nat) (h_s : Sound s) : Sound (State.armListen s n) := by
  unfold State.armListen
  with_reducible repeat' first
    | assumption | apply sound_takeFreeWord | apply sound_takeDiffs | apply sound_setGain | apply sound_noteResidual

theorem sound_drainStaged (s : State) (n : Nat) (part : Bool) (l : List (List Word)) (h_s : Sound s) : Sound (State.drainStaged s n part
    l) := by
  induction l generalizing s part with
  | nil => exact sound_modP _ _ _ h_s
  | cons ws t ih =>
    exact sound_ite (ih _ _ (sound_pushRxs h_s n ws)) (sound_modP _ _ _ (sound_pushRxs h_s n ws))

theorem sound_pushStaged (s : State) (n : Nat) (h_s : Sound s) : Sound (State.pushStaged s n) := by
  unfold State.pushStaged
  with_reducible repeat' first | assumption | apply sound_drainStaged

theorem sound_complete (s : State) (n tag : Nat) (bytes : List Byte) (lastBits result : Nat) (prs rxs0 rxs1 rxs2 : Word) (h_s : Sound s) :
    Sound (State.complete s n tag bytes lastBits result prs rxs0 rxs1 rxs2) := by
  unfold State.complete
  with_reducible repeat' first
    | assumption | apply sound_ite | apply sound_setReg | apply sound_count | apply sound_bump | apply sound_modP | apply sound_pushStaged

theorem sound_completeUnsent (s : State) (n tag result synWait : Nat) (heldSyn : Bool) (h_s : Sound s) : Sound (State.completeUnsent s n
    tag result synWait heldSyn) := by
  unfold State.completeUnsent
  with_reducible repeat' first | assumption | apply sound_takeFreeWord | apply sound_complete

theorem sound_endDeferral (s : State) (n : Nat) (h_s : Sound s) : Sound (State.endDeferral s n) := by
  unfold State.endDeferral
  with_reducible repeat' first | assumption | apply sound_countBy | apply sound_modF | split

theorem sound_defer (s : State) (n : Nat) (h_s : Sound s) : Sound (State.defer s n) := by
  unfold State.defer
  with_reducible repeat' first | assumption | apply sound_ite | apply sound_modF

theorem sound_undue (s : State) (n : Nat) (h_s : Sound s) : Sound (State.undue s n) := by
  unfold State.undue
  with_reducible repeat' first | assumption | apply sound_modF

theorem sound_startSyn (s : State) (h_s : Sound s) : Sound (State.startSyn s) := by
  unfold State.startSyn
  with_reducible repeat' first | assumption | apply sound_ite | apply sound_setFld | apply sound_with_field

theorem sound_askOn (s : State) (n : Nat) (h_s : Sound s) : Sound (State.askOn s n) := by
  unfold State.askOn
  with_reducible repeat' first | assumption | apply sound_ite | apply sound_modF | apply sound_startSyn

theorem sound_abortStep (s : State) (n : Nat) (h_s : Sound s) : Sound (State.abortStep s n) := by
  unfold State.abortStep
  with_reducible repeat' first | assumption | apply sound_modF | split

theorem sound_startOff (s : State) (n : Nat) (slot : Bool) (h_s : Sound s) : Sound (State.startOff s n slot) := by
  unfold State.startOff
  with_reducible repeat' first
    | assumption | apply sound_ite | apply sound_modF | apply sound_endDeferral | apply sound_undue | apply sound_abortStep

theorem sound_askOff (s : State) (n : Nat) (h_s : Sound s) : Sound (State.askOff s n) := by
  unfold State.askOff
  with_reducible repeat' first
    | assumption | apply sound_ite | apply sound_modF | apply sound_defer | apply sound_startOff | split | dsimp only

theorem sound_tryOffs (s : State) (h_s : Sound s) : Sound (State.tryOffs s) := by
  unfold State.tryOffs
  with_reducible repeat' first | assumption | apply sound_ite | apply sound_defer | apply sound_startOff | apply sound_foldl | intro _

theorem sound_applyPA (s : State) (n : Nat) (h_s : Sound s) : Sound (State.applyPA s n) := by
  unfold State.applyPA
  with_reducible repeat' first | assumption | apply sound_modF

theorem sound_rxIdle (s : State) (n : Nat) (h_s : Sound s) : Sound (State.rxIdle s n) := by
  unfold State.rxIdle
  with_reducible repeat' first | assumption | apply sound_setFld | apply sound_modR

theorem sound_rearm (s : State) (n : Nat) (isCapture : Bool) (h_s : Sound s) : Sound (State.rearm s n isCapture) := by
  unfold State.rearm
  with_reducible repeat' first | assumption | apply sound_modR

theorem sound_listen (s : State) (n tech rate : Nat) (h_s : Sound s) : Sound (State.listen s n tech rate) := by
  unfold State.listen
  with_reducible repeat' first | assumption | apply sound_modR | apply sound_armListen

theorem sound_listenTarget (s : State) (n : Nat) (h_s : Sound s) : Sound (State.listenTarget s n) := by
  unfold State.listenTarget
  with_reducible repeat' first | assumption | apply sound_takeFreeWord | apply sound_listen

theorem sound_openWindow (s : State) (n e : Nat) (h_s : Sound s) : Sound (State.openWindow s n e) := by
  unfold State.openWindow
  with_reducible repeat' first | assumption | apply sound_modF | apply sound_modR | split


end Sys2Proof.Machine
end

