-- ==== Sys2Proof/Laws/SoundPorts.lean ====
section
/-! SUPPORT. Sessions, access, the tag, phases, the store, the ring and the tuner keep `Sound`. -/

namespace Sys2Proof.Machine

theorem sound_openSess (s : State) (k n tech : Nat) (ident : List Byte) (accord : Bool) (h_s : Sound s) : Sound (State.openSess s k n tech
    ident accord) := by
  unfold State.openSess
  with_reducible repeat' first | assumption | apply sound_count | apply sound_post | apply sound_putSess

theorem sound_forgetSess (s : State) (n k : Nat) (x : Session) (h_s : Sound s) : Sound (State.forgetSess s n k x) := by
  unfold State.forgetSess
  with_reducible repeat' first | assumption | apply sound_modP

theorem sound_leaveSess (s : State) (k : Nat) (h_s : Sound s) : Sound (State.leaveSess s k) := by
  unfold State.leaveSess
  with_reducible repeat' first
    | assumption | apply sound_ite | apply sound_count | apply sound_post | apply sound_modA | apply sound_modSess
    | apply sound_settleSess | apply sound_forgetSess | split

theorem sound_sessParity (s : State) (k : Nat) (h_s : Sound s) : Sound (State.sessParity s k) := by
  unfold State.sessParity
  with_reducible repeat' first
    | assumption | apply sound_post | apply sound_stick | apply sound_bump | apply sound_modSess | apply sound_leaveSess | split

theorem sound_seen (s : State) (k : Nat) (h_s : Sound s) : Sound (State.seen s k) := by
  unfold State.seen
  with_reducible repeat' first | assumption | apply sound_modSess

theorem sound_quieted (s : State) (k : Nat) (bench : Option Nat) (h_s : Sound s) : Sound (State.quieted s k bench) := by
  unfold State.quieted
  with_reducible repeat' first | assumption | apply sound_ite | apply sound_modSess | apply sound_leaveSess | split

theorem sound_missed (s : State) (k : Nat) (h_s : Sound s) : Sound (State.missed s k) := by
  unfold State.missed
  with_reducible repeat' first | assumption | apply sound_ite | apply sound_modSess | apply sound_leaveSess | split

theorem sound_withdraw (s : State) (k : Nat) (h_s : Sound s) : Sound (State.withdraw s k) := by
  unfold State.withdraw
  with_reducible repeat' first | assumption | apply sound_modSess | apply sound_quarantine | split

theorem sound_setJob (s : State) (n : Nat) (j : Option Job) (h_s : Sound s) : Sound (State.setJob s n j) := by
  unfold State.setJob
  with_reducible repeat' first | assumption | apply sound_modP

theorem sound_startCheck (s : State) (n k : Nat) (h_s : Sound s) : Sound (State.startCheck s n k) := by
  unfold State.startCheck
  with_reducible repeat' first
    | assumption | apply sound_ite | apply sound_modSess | apply sound_setJob | apply sound_foldl | split | dsimp only | intro _

theorem sound_newList (s : State) (n : Nat) (h_s : Sound s) : Sound (State.newList s n) := by
  unfold State.newList
  with_reducible repeat' first | assumption | apply sound_modP

theorem sound_resumeJob (s : State) (n : Nat) (h_s : Sound s) : Sound (State.resumeJob s n) := by
  unfold State.resumeJob
  with_reducible repeat' first
    | assumption | apply sound_ite | apply sound_modP | apply sound_setJob | apply sound_startCheck | apply sound_newList | split

theorem sound_endJob (s : State) (n : Nat) (h_s : Sound s) : Sound (State.endJob s n) := by
  unfold State.endJob
  with_reducible repeat' first | assumption | apply sound_ite | apply sound_modP | apply sound_resumeJob | split

theorem sound_newRound (s : State) (n : Nat) (j : Job) (h_s : Sound s) : Sound (State.newRound s n j) := by
  unfold State.newRound
  with_reducible repeat' first
    | assumption | apply sound_ite | apply sound_modP | apply sound_setJob | apply sound_startCheck | apply sound_newList | split

theorem sound_dropJob (s : State) (n : Nat) (skip : Bool) (h_s : Sound s) : Sound (State.dropJob s n skip) := by
  unfold State.dropJob
  with_reducible repeat' first
    | assumption | apply sound_ite | apply sound_modP | apply sound_modX | apply sound_modSess | apply sound_foldl | split | dsimp only
    | intro _

theorem sound_surplusTag (s : State) (n tech : Nat) (ident : List Byte) (accord : Bool) (h_s : Sound s) : Sound (State.surplusTag s n tech
    ident accord) := by
  unfold State.surplusTag
  with_reducible repeat' first
    | assumption | apply sound_ite | apply sound_postSecCount | apply sound_bump | dsimp only | apply sound_with_overflow

theorem sound_identify (s : State) (n tech : Nat) (ident : List Byte) (accord : Bool) (hw : HwFault) (h_s : Sound s) : Sound
    (State.identify s n tech ident accord hw).1 := by
  unfold State.identify
  with_reducible repeat' first
    | assumption | apply sound_submit | apply sound_openSess | apply sound_sessParity | apply sound_seen | apply sound_surplusTag | split
    | dsimp only

theorem sound_afterSelect (s : State) (n : Nat) (j : Job) (k : Option Nat) (accord : Bool) (h_s : Sound s) : Sound (State.afterSelect s n
    j k accord) := by
  unfold State.afterSelect
  with_reducible repeat' first
    | assumption | apply sound_ite | apply sound_postSec | apply sound_modA | apply sound_modSess | apply sound_withdraw
    | apply sound_setJob | split

theorem sound_selected (s : State) (n : Nat) (j : Job) (ident : List Byte) (sak : Nat) (hw : HwFault) (h_s : Sound s) : Sound
    (State.selected s n j ident sak hw) := by
  unfold State.selected
  with_reducible repeat' first
    | assumption | apply sound_ite | apply sound_sessParity | apply sound_seen | apply sound_setJob | apply sound_endJob
    | apply sound_identify | apply sound_afterSelect | split | dsimp only | apply sound_with_overflow

theorem sound_jobMissed (s : State) (n : Nat) (j : Job) (h_s : Sound s) : Sound (State.jobMissed s n j) := by
  unfold State.jobMissed
  with_reducible repeat' first | assumption | apply sound_missed | apply sound_endJob | split | dsimp only | apply sound_with_overflow

theorem sound_abandonRound (s : State) (n : Nat) (j : Job) (h_s : Sound s) : Sound (State.abandonRound s n j) := by
  unfold State.abandonRound
  with_reducible repeat' first
    | assumption | apply sound_ite | apply sound_postSec | apply sound_endJob | apply sound_newRound | apply sound_jobMissed | split

theorem sound_tagDone (s : State) (n : Nat) (j : Job) (h_s : Sound s) : Sound (State.tagDone s n j) := by
  unfold State.tagDone
  with_reducible repeat' first | assumption | apply sound_ite | apply sound_endJob | apply sound_newRound | split

theorem sound_anticollReply (s : State) (n : Nat) (j : Job) (res : Nat) (d : Option Delivered) (coll : Option Nat) (h_s : Sound s) : Sound
    (State.anticollReply s n j res d coll) := by
  unfold State.anticollReply
  with_reducible repeat' first | assumption | apply sound_ite | apply sound_setJob | apply sound_abandonRound | split

theorem sound_sakReply (s : State) (n : Nat) (j : Job) (res : Nat) (d : Option Delivered) (hw : HwFault) (h_s : Sound s) : Sound
    (State.sakReply s n j res d hw) := by
  unfold State.sakReply
  with_reducible repeat' first
    | assumption | apply sound_ite | apply sound_setJob | apply sound_selected | apply sound_abandonRound | split

theorem sound_enrolReply (s : State) (n : Nat) (j : Job) (offered res : Nat) (d : Option Delivered) (h_s : Sound s) : Sound
    (State.enrolReply s n j offered res d) := by
  unfold State.enrolReply
  with_reducible repeat' first
    | assumption | apply sound_ite | apply sound_post | apply sound_modA | apply sound_modSess | apply sound_withdraw | apply sound_setJob
    | split

theorem sound_foundTag (s : State) (n : Nat) (j : Job) (ident : List Byte) (quiet : Bool) (hw : HwFault) (h_s : Sound s) : Sound
    (State.foundTag s n j ident quiet hw).1 := by
  unfold State.foundTag
  with_reducible repeat' first
    | assumption | apply sound_ite | apply sound_quieted | apply sound_identify | split | dsimp only | apply sound_with_overflow

theorem sound_quietNext (s : State) (n : Nat) (j : Job) (p : Purpose) (after : State → Job → State) (h_s : Sound s)
    (h_after : ∀ t j, Sound t → Sound (after t j)) : Sound (State.quietNext s n j p after) := by
  unfold State.quietNext
  split
  · exact sound_setJob _ _ _ h_s
  · exact h_after _ _ h_s

theorem sound_endCheck (s : State) (n : Nat) (j : Job) (h_s : Sound s) : Sound (State.endCheck s n j) := by
  unfold State.endCheck
  with_reducible repeat' first
    | assumption | apply sound_ite | apply sound_missed | apply sound_endJob | apply sound_foldl | split | dsimp only | intro _
    | apply sound_with_overflow

theorem sound_roundDoneB (s : State) (n : Nat) (j : Job) (h_s : Sound s) : Sound (State.roundDoneB s n j) := by
  unfold State.roundDoneB
  with_reducible repeat' first
    | assumption | apply sound_ite | apply sound_endJob | apply sound_newRound | apply sound_endCheck | split

theorem sound_slotReplyB (s : State) (n : Nat) (j : Job) (res : Nat) (d : Option Delivered) (hw : HwFault) (h_s : Sound s) : Sound
    (State.slotReplyB s n j res d hw) := by
  unfold State.slotReplyB
  with_reducible repeat' first
    | assumption | apply sound_ite | apply sound_setJob | apply sound_foundTag | apply sound_quietNext | apply sound_roundDoneB | split
    | dsimp only | intro _

theorem sound_replyF (s : State) (n : Nat) (j : Job) (res : Nat) (d : Option Delivered) (hw : HwFault) (h_s : Sound s) : Sound
    (State.replyF s n j res d hw) := by
  unfold State.replyF
  with_reducible repeat' first | assumption | apply sound_ite | apply sound_setJob | apply sound_foundTag | split

theorem sound_roundDoneF (s : State) (n : Nat) (j : Job) (h_s : Sound s) : Sound (State.roundDoneF s n j) := by
  unfold State.roundDoneF
  with_reducible repeat' first
    | assumption | apply sound_ite | apply sound_endJob | apply sound_newRound | apply sound_endCheck | split

theorem sound_pushMasks (s : State) (n : Nat) (j : Job) (l : List (List Bool)) (h_s : Sound s) : Sound (State.pushMasks s n j l).1 := by
  unfold State.pushMasks
  split
  · exact h_s
  · exact sound_postSec h_s _ _ _ _

theorem sound_nextMask (s : State) (n : Nat) (j : Job) (h_s : Sound s) : Sound (State.nextMask s n j) := by
  unfold State.nextMask
  with_reducible repeat' first
    | assumption | apply sound_ite | apply sound_endJob | apply sound_newRound | apply sound_endCheck | split

theorem sound_slotReplyV (s : State) (n : Nat) (j : Job) (res : Nat) (d : Option Delivered) (hw : HwFault) (h_s : Sound s) : Sound
    (State.slotReplyV s n j res d hw) := by
  unfold State.slotReplyV
  with_reducible repeat' first
    | assumption | apply sound_ite | apply sound_setJob | apply sound_foundTag | apply sound_quietNext | apply sound_pushMasks
    | apply sound_nextMask | split | dsimp only | intro _

theorem sound_jobReply (s : State) (n : Nat) (f : Frame) (res : Nat) (d : Option Delivered) (coll : Option Nat) (hw : HwFault) (h_s :
    Sound s) : Sound (State.jobReply s n f res d coll hw) := by
  unfold State.jobReply
  with_reducible repeat' first
    | assumption | apply sound_ite | apply sound_seen | apply sound_quieted | apply sound_setJob | apply sound_endJob
    | apply sound_dropJob | apply sound_jobMissed | apply sound_abandonRound | apply sound_tagDone | apply sound_anticollReply
    | apply sound_sakReply | apply sound_enrolReply | apply sound_foundTag | apply sound_quietNext | apply sound_roundDoneB
    | apply sound_slotReplyB | apply sound_replyF | apply sound_roundDoneF | apply sound_nextMask | apply sound_slotReplyV
    | apply sound_foldl | split | dsimp only | intro _

theorem sound_syncMember (s : State) (n : Nat) (at_ : Option Nat) (h_s : Sound s) : Sound (State.syncMember s n at_) := by
  unfold State.syncMember
  with_reducible repeat' first | assumption | apply sound_ite | apply sound_modH | split

theorem sound_syncHuddles (s : State) (at_ : Option Nat) (h_s : Sound s) : Sound (State.syncHuddles s at_) := by
  unfold State.syncHuddles
  with_reducible repeat' first | assumption | apply sound_syncMember | apply sound_each | intro _

theorem sound_endSlot (s : State) (h : Nat) (h_s : Sound s) : Sound (State.endSlot s h) := by
  unfold State.endSlot
  with_reducible repeat' first | assumption | apply sound_ite | apply sound_modH | apply sound_syncHuddles

theorem sound_endListen (s : State) (n : Nat) (h_s : Sound s) : Sound (State.endListen s n) := by
  unfold State.endListen
  with_reducible repeat' first | assumption | apply sound_endSlot | split

theorem sound_returnState (s : State) (n : Nat) (h_s : Sound s) : Sound (State.returnState s n) := by
  unfold State.returnState
  with_reducible repeat' first | assumption | apply sound_ite | apply sound_modF | apply sound_startOff | apply sound_askOff

theorem sound_closeExchange (s : State) (n tech : Nat) (h_s : Sound s) : Sound (State.closeExchange s n tech) := by
  unfold State.closeExchange
  with_reducible repeat' first | assumption | apply sound_modF | apply sound_modP | apply sound_modX | apply sound_rxIdle

theorem sound_holdAfter (s : State) (n : Nat) (hold : Bool) (h_s : Sound s) : Sound (State.holdAfter s n hold) := by
  unfold State.holdAfter
  with_reducible repeat' first | assumption | apply sound_modP

theorem sound_released (s : State) (n : Nat) (f : Frame) (res : Nat) (h_s : Sound s) : Sound (State.released s n f res) := by
  unfold State.released
  with_reducible repeat' first | assumption | apply sound_ite | apply sound_modA

theorem sound_endExchange (s : State) (n result : Nat) (d : Option Delivered) (coll : Option Nat) (hw : HwFault) (h_s : Sound s) : Sound
    (State.endExchange s n result d coll hw) := by
  unfold State.endExchange
  with_reducible repeat' first
    | assumption | apply sound_ite | apply sound_complete | apply sound_tryOffs | apply sound_jobReply | apply sound_endListen
    | apply sound_returnState | apply sound_closeExchange | apply sound_holdAfter | apply sound_released | split

theorem sound_skipHalt (s : State) (n : Nat) (h_s : Sound s) : Sound (State.skipHalt s n) := by
  unfold State.skipHalt
  with_reducible repeat' first
    | assumption | apply sound_ite | apply sound_tagDone | apply sound_quietNext | apply sound_roundDoneB | apply sound_nextMask | split
    | dsimp only | intro _

theorem sound_pickPlan (s0 : State) (n : Nat) (h_s0 : Sound s0) : Sound (State.pickPlan s0 n) := by
  unfold State.pickPlan
  with_reducible repeat' first | assumption | apply sound_ite | apply sound_modP | apply sound_skipHalt | split | dsimp only

theorem sound_clampMark (s : State) (a : Nat) (h_s : Sound s) : Sound (State.clampMark s a) := by
  unfold State.clampMark
  with_reducible repeat' first | assumption | apply sound_stick

theorem sound_clampCheck (s : State) (a : Nat) (h_s : Sound s) : Sound (State.clampCheck s a) := by
  unfold State.clampCheck
  with_reducible repeat' first | assumption | apply sound_ite | apply sound_clampMark

theorem sound_writeReg (s : State) (a : Nat) (v : Word) (h_s : Sound s) : Sound (State.writeReg s a v) := by
  unfold State.writeReg
  with_reducible repeat' first
    | assumption | apply sound_ite | apply sound_setReg | apply sound_refuse | apply sound_clampCheck | split

theorem sound_beginSync (s : State) (h_s : Sound s) : Sound (State.beginSync s) := by
  unfold State.beginSync
  repeat' first
    | with_reducible assumption | with_reducible apply sound_takeFreeWord | with_reducible apply sound_modE | rfl | split

theorem sound_askSync (s : State) (h_s : Sound s) : Sound (State.askSync s) := by
  unfold State.askSync
  repeat' first
    | with_reducible assumption | with_reducible apply sound_ite | with_reducible apply sound_modE | with_reducible apply sound_beginSync
    | rfl

theorem sound_autoSync (s : State) (h_s : Sound s) : Sound (State.autoSync s) := by
  unfold State.autoSync
  with_reducible repeat' first | assumption | apply sound_ite | apply sound_askSync

theorem sound_markSat (s : State) (c v : Nat) (h_s : Sound s) : Sound (State.markSat s c v) := by
  unfold State.markSat
  with_reducible repeat' first | assumption | apply sound_ite | apply sound_post | apply sound_setFldBit

theorem sound_recoverCtr (byCore : Bool) (c : Nat) (s : State) (h_s : Sound s) : Sound (State.recoverCtr byCore c s) := by
  unfold State.recoverCtr
  with_reducible repeat' first
    | assumption | apply sound_ite | apply sound_setReg | apply sound_post | apply sound_setFldBit | apply sound_stickBit
    | apply sound_nvWrite | apply sound_markSat | split

theorem sound_queueInc (s : State) (c : Nat) (h_s : Sound s) : Sound (State.queueInc s c) := by
  unfold State.queueInc
  repeat' first | with_reducible assumption | with_reducible apply sound_modE | rfl

theorem sound_releaseHeld (s : State) (h_s : Sound s) : Sound (State.releaseHeld s) := by
  unfold State.releaseHeld
  repeat' first
    | with_reducible assumption | with_reducible apply sound_modE | with_reducible apply sound_putDatas | rfl | split

theorem sound_leaveActive (s : State) (t : TagState) (h_s : Sound s) : Sound (State.leaveActive s t) := by
  unfold State.leaveActive
  repeat' first
    | with_reducible assumption | with_reducible apply sound_ite | with_reducible apply sound_modE | with_reducible apply sound_autoSync
    | with_reducible apply sound_releaseHeld | rfl

theorem sound_tagTo (s : State) (t : TagState) (h_s : Sound s) : Sound (State.tagTo s t) := by
  unfold State.tagTo
  repeat' first
    | with_reducible assumption | with_reducible apply sound_ite | with_reducible apply sound_modE
    | with_reducible apply sound_leaveActive | rfl

theorem sound_emuStart (s : State) (h_s : Sound s) : Sound (State.emuStart s) := by
  unfold State.emuStart
  repeat' first | with_reducible assumption | with_reducible apply sound_modE | rfl

theorem sound_emuLevel (s : State) (n : Nat) (h_s : Sound s) : Sound (State.emuLevel s n) := by
  unfold State.emuLevel
  repeat' first | with_reducible assumption | with_reducible apply sound_ite | with_reducible apply sound_modE | rfl

theorem sound_syncEmu (s : State) (h_s : Sound s) : Sound (State.syncEmu s) := by
  unfold State.syncEmu
  with_reducible repeat' first
    | assumption | apply sound_ite | apply sound_rxIdle | apply sound_listen | apply sound_tagTo | apply sound_emuStart
    | apply sound_emuLevel | apply sound_foldl | intro _

theorem sound_clearTest (s : State) (p : Phase) (h_s : Sound s) : Sound (State.clearTest s p) := by
  unfold State.clearTest
  with_reducible repeat' first | assumption | apply sound_ite | apply sound_setReg

theorem sound_dropPower (s : State) (p : Phase) (h_s : Sound s) : Sound (State.dropPower s p) := by
  unfold State.dropPower
  with_reducible repeat' first | assumption | apply sound_ite | apply sound_with_pwr

theorem sound_toPhase (s0 : State) (p : Phase) (h_s0 : Sound s0) : Sound (State.toPhase s0 p) := by
  unfold State.toPhase
  with_reducible repeat' first
    | assumption | apply sound_post | apply sound_stick | apply sound_syncEmu | apply sound_clearTest | apply sound_dropPower | dsimp only
    | apply sound_with_gen

theorem sound_parkLists (s : State) (h_s : Sound s) : Sound (State.parkLists s) := by
  unfold State.parkLists
  with_reducible repeat' first | assumption | apply sound_modP | apply sound_dropJob | apply sound_each | intro _

theorem sound_allOff (s : State) (h_s : Sound s) : Sound (State.allOff s) := by
  unfold State.allOff
  with_reducible repeat' first | assumption | apply sound_ite | apply sound_modF | apply sound_askOff | apply sound_each | intro _

theorem sound_recover (s : State) (cause : Nat) (h_s : Sound s) : Sound (State.recover s cause) := by
  unfold State.recover
  with_reducible repeat' first
    | assumption | apply sound_ite | apply sound_toPhase | apply sound_parkLists | apply sound_allOff | dsimp only | apply sound_with_gen

theorem sound_toRun (s : State) (h_s : Sound s) : Sound (State.toRun s) := by
  unfold State.toRun
  dsimp only
  have k := sound_toPhase s .run h_s
  generalize s.toPhase .run = u at k ⊢
  have m : Sound { u with gen := { u.gen with rlimitEnd := none, fieldsOff := false }, saf := { u.saf with hasRun := true },
                          kpr := { u.kpr with sweep := some (u.kpr.sweep.getD 0) } } :=
    k.of_eq rfl rfl rfl rfl rfl rfl rfl rfl rfl rfl rfl rfl rfl
  exact sound_parkLists _ (sound_ite m (sound_setFld (sound_setFld m _ _ _) _ _ _))

theorem sound_toSafe (s : State) (cause : Nat) (h_s : Sound s) : Sound (State.toSafe s cause) := by
  unfold State.toSafe
  with_reducible repeat' first | assumption | apply sound_toPhase | dsimp only | apply sound_with_gen

theorem sound_placeItems (s : State) (l : List BusItem) (h_s : Sound s) : Sound (State.placeItems s l) := by
  unfold State.placeItems
  repeat' first | with_reducible assumption | with_reducible apply sound_setSto | rfl

theorem sound_writeBuf (s : State) (k o : Nat) (b : List Byte) (h_s : Sound s) : Sound (State.writeBuf s k o b) := by
  unfold State.writeBuf State.stoBuf State.setSto
  have c := h_s.canonical
  dsimp only
  split
  · exact { canonical := { c with buf0 := Sparse.wf_write 0 s.sto.buf0 o b c.buf0 }, bounded := { h_s.bounded with } }
  · exact { canonical := { c with buf1 := Sparse.wf_write 0 s.sto.buf1 o b c.buf1 }, bounded := { h_s.bounded with } }

theorem sound_hostEnd (s : State) (k result : Nat) (h_s : Sound s) : Sound (State.hostEnd s k result) := by
  unfold State.hostEnd
  with_reducible repeat' first | assumption | apply sound_setFld | apply sound_stick

theorem sound_writeHcmd (s : State) (v : Word) (h_s : Sound s) : Sound (State.writeHcmd s v) := by
  unfold State.writeHcmd
  with_reducible repeat' first
    | assumption | apply sound_ite | apply sound_setFld | apply sound_post | apply sound_queueOp | apply sound_hostEnd

theorem sound_headFound (s : State) (head seq : Nat) (last : Option Nat) (h_s : Sound s) : Sound (State.headFound s head seq last) := by
  unfold State.headFound
  repeat' first
    | with_reducible assumption | with_reducible apply sound_setReg | with_reducible apply sound_setSto | rfl | split

theorem sound_headSettle (s : State) (h_s : Sound s) : Sound (State.headSettle s) := by
  unfold State.headSettle
  repeat' first
    | with_reducible assumption | with_reducible apply sound_ite | with_reducible apply sound_setSto
    | with_reducible apply sound_headFound | rfl | split

theorem sound_headSeen (s : State) (page : Nat) (found : Option Nat) (h_s : Sound s) : Sound (State.headSeen s page found) := by
  unfold State.headSeen
  repeat' first
    | with_reducible assumption | with_reducible apply sound_ite | with_reducible apply sound_setSto
    | with_reducible apply sound_headFound | with_reducible apply sound_headSettle | rfl | split

theorem sound_pumpSpill (s : State) (h_s : Sound s) : Sound (State.pumpSpill s) := by
  unfold State.pumpSpill
  with_reducible repeat' first | assumption | apply sound_ite | apply sound_queueOp | split

theorem sound_dropOp (s : State) (i : Nat) (h_s : Sound s) : Sound (State.dropOp s i) := by
  unfold State.dropOp
  repeat' first | with_reducible assumption | with_reducible apply sound_setSto | rfl

theorem sound_startOp (s : State) (i : Nat) (q : StoOp) (block : Nat) (h_s : Sound s) : Sound (State.startOp s i q block) := by
  unfold State.startOp
  repeat' first
    | with_reducible assumption | with_reducible apply sound_setSto | with_reducible apply sound_placeItems | rfl

theorem sound_beginOp (s : State) (i : Nat) (q : StoOp) (h_s : Sound s) : Sound (State.beginOp s i q) := by
  unfold State.beginOp
  with_reducible repeat' first
    | assumption | apply sound_ite | apply sound_shelfDone | apply sound_hostEnd | apply sound_dropOp | apply sound_startOp | split

theorem sound_endOp (s : State) (i : Nat) (q : StoOp) (h_s : Sound s) : Sound (State.endOp s i q) := by
  unfold State.endOp
  repeat' first
    | with_reducible assumption | with_reducible apply sound_ite | with_reducible apply sound_setSto
    | with_reducible apply sound_placeItems | with_reducible apply sound_dropOp | rfl

theorem sound_countEcc (s : State) (e : Ecc) (h_s : Sound s) : Sound (State.countEcc s e) := by
  unfold State.countEcc
  with_reducible repeat' first | assumption | apply sound_postSec | apply sound_bump | split

theorem sound_pollDie (s : State) (q : StoOp) (h_s : Sound s) : Sound (State.pollDie s q) := by
  unfold State.pollDie
  with_reducible repeat' first | assumption | apply sound_advance | apply sound_placeItems

theorem sound_blockFailed (s : State) (q : StoOp) (code : Nat) (h_s : Sound s) : Sound (State.blockFailed s q code) := by
  unfold State.blockFailed
  repeat' first
    | with_reducible assumption | with_reducible apply sound_ite | with_reducible apply sound_setReg | with_reducible apply sound_post
    | with_reducible apply sound_setPages | with_reducible apply sound_queueOp | with_reducible apply sound_setSto | rfl

theorem sound_setHead (s : State) (page : Nat) (h_s : Sound s) : Sound (State.setHead s page) := by
  unfold State.setHead
  repeat' first | with_reducible assumption | with_reducible apply sound_setFld | with_reducible apply sound_setSto | rfl

theorem sound_spillWritten (s : State) (h_s : Sound s) : Sound (State.spillWritten s) := by
  unfold State.spillWritten
  repeat' first
    | with_reducible assumption | with_reducible apply sound_setReg | with_reducible apply sound_setSto
    | with_reducible apply sound_setHead | with_reducible apply sound_setSilEq | rfl

theorem sound_spillMoved (s : State) (page : Nat) (h_s : Sound s) : Sound (State.spillMoved s page) := by
  unfold State.spillMoved
  repeat' first | with_reducible assumption | with_reducible apply sound_setSto | with_reducible apply sound_setHead | rfl

theorem sound_resetStore (s : State) (h_s : Sound s) : Sound (State.resetStore s) := by
  unfold State.resetStore
  repeat' first
    | with_reducible assumption | with_reducible apply sound_setSto | with_reducible apply sound_placeItems
    | with_reducible apply sound_hostEnd | with_reducible apply sound_foldl | rfl | split | dsimp only | intro _

theorem sound_mapCheck (s : State) (h_s : Sound s) : Sound (State.mapCheck s) := by
  unfold State.mapCheck
  with_reducible repeat' first | assumption | apply sound_ite | apply sound_setFld | apply sound_post

theorem sound_storeUp (s : State) (h_s : Sound s) : Sound (State.storeUp s) := by
  unfold State.storeUp
  repeat' first
    | with_reducible assumption | with_reducible apply sound_setFld | with_reducible apply sound_setPages
    | with_reducible apply sound_setSto | with_reducible apply sound_mapCheck | rfl

theorem sound_storeStart (s : State) (ok : Bool) (h_s : Sound s) : Sound (State.storeStart s ok) := by
  unfold State.storeStart
  with_reducible repeat' first | assumption | apply sound_ite | apply sound_setFld | apply sound_postSec | apply sound_storeUp

theorem sound_storeSafe (s : State) (h_s : Sound s) : Sound (State.storeSafe s) := by
  unfold State.storeSafe
  repeat' first
    | with_reducible assumption | with_reducible apply sound_setSto | with_reducible apply sound_hostEnd
    | with_reducible apply sound_foldl | rfl | split | dsimp only | intro _

theorem sound_spoilLine (s : State) (l : Nat) (h_s : Sound s) : Sound (State.spoilLine s l) := by
  unfold State.spoilLine
  with_reducible repeat' first | assumption | apply sound_sramWrite | dsimp only | apply sound_with_free

theorem sound_putBack (s : State) (r : Rec) (fromHold : Bool) (h_s : Sound s) (hl : fromHold = true → s.obs.sil.hold.length < 64) : Sound
    (State.putBack s r fromHold) := by
  unfold State.putBack
  dsimp only
  split
  · rename_i hf
    have := hl hf
    exact sound_setSil h_s _ (by simp only [List.length_cons]; omega) h_s.bounded.vault
  · exact sound_setSilEq h_s _ (by rfl) (by rfl)

theorem sound_writeFreeze (s : State) (v : Word) (h_s : Sound s) : Sound (State.writeFreeze s v) := by
  unfold State.writeFreeze
  repeat' first
    | with_reducible assumption | with_reducible apply sound_ite | with_reducible apply sound_writeReg
    | with_reducible apply sound_setSilEq | rfl

theorem clearLines_wf (retired : List Nat) (m : List (Nat × Byte)) (h : Sparse.wf (fun _ => (0 : Byte)) m = true) :
    Sparse.wf (fun _ => 0) (clearLines retired m) = true ∧ ∀ j, Sparse.above j m → Sparse.above j (clearLines retired m) := by
  induction m with
  | nil => exact ⟨rfl, fun _ h => h⟩
  | cons x t ih =>
    obtain ⟨a, v⟩ := x
    have w := (Sparse.wf_cons _ a v t).mp h
    have i := ih w.2.2
    unfold clearLines
    split
    · exact ⟨i.1, fun j hj => i.2 j (Sparse.above_mono _ _ _ (Nat.le_of_lt hj) w.2.1)⟩
    · exact ⟨(Sparse.wf_cons _ _ _ _).mpr ⟨w.1, i.2 a w.2.1, i.1⟩, fun j hj => hj⟩

theorem sound_clearLog (s : State) (vault : Bool) (counter : Nat) (h_s : Sound s) : Sound (State.clearLog s vault counter) := by
  unfold State.clearLog
  dsimp only
  refine sound_post ?_ _ _ _
  have k := sound_setReg h_s Reg.SIL_FREEZE (Fld.SIL_FREEZE_FREEZE.set (s.reg Reg.SIL_FREEZE) 0)
  have v : (if vault = true then ([] : List Rec) else s.obs.sil.vault).length ≤ 8 := by
    split
    · exact Nat.zero_le _
    · exact h_s.bounded.vault
  exact { canonical := { k.canonical with sram := (clearLines_wf _ _ h_s.canonical.sram).1 },
          bounded := { k.bounded with hold := Nat.zero_le _, vault := v } }

theorem sound_kickLink (s : State) (h_s : Sound s) : Sound (State.kickLink s) := by
  unfold State.kickLink
  with_reducible repeat' first
    | assumption | apply sound_ite | apply sound_modF | apply sound_modT | apply sound_endDeferral | split | dsimp only
    | apply sound_with_tun

theorem sound_yieldLink (s : State) (n : Nat) (h_s : Sound s) : Sound (State.yieldLink s n) := by
  unfold State.yieldLink
  with_reducible repeat' first
    | assumption | apply sound_ite | apply sound_modF | apply sound_modT | split | dsimp only | apply sound_with_tun

theorem sound_sendCode (s : State) (n : Nat) (h_s : Sound s) : Sound (State.sendCode s n) := by
  unfold State.sendCode
  with_reducible repeat' first
    | assumption | apply sound_ite | apply sound_kickLink | apply sound_yieldLink | dsimp only | apply sound_with_tun

theorem sound_linkDone (s : State) (n : Nat) (h_s : Sound s) : Sound (State.linkDone s n) := by
  unfold State.linkDone
  with_reducible repeat' first | assumption | apply sound_modT | apply sound_kickLink | apply sound_with_tun

theorem sound_putDev (s : State) (n : Nat) (v : Word) (h_s : Sound s) : Sound (State.putDev s n v) := by
  unfold State.putDev
  with_reducible repeat' first | assumption | apply sound_ite | apply sound_setFld | apply sound_takeFreeWord

theorem sound_tryCode (s : State) (n axis c : Nat) (h_s : Sound s) : Sound (State.tryCode s n axis c) := by
  unfold State.tryCode
  with_reducible repeat' first | assumption | apply sound_setFld | apply sound_sendCode

theorem sound_beginSearch (s : State) (n : Nat) (h_s : Sound s) : Sound (State.beginSearch s n) := by
  unfold State.beginSearch
  with_reducible repeat' first | assumption | apply sound_ite | apply sound_setFld | apply sound_modT | apply sound_sendCode

theorem sound_closeSearch (s : State) (n : Nat) (x : Search) (h_s : Sound s) : Sound (State.closeSearch s n x) := by
  unfold State.closeSearch
  with_reducible repeat' first | assumption | apply sound_ite | apply sound_setFld | apply sound_modT | apply sound_tryCode

theorem sound_abandonSearch (s : State) (n : Nat) (h_s : Sound s) : Sound (State.abandonSearch s n) := by
  unfold State.abandonSearch
  with_reducible repeat' first | assumption | apply sound_post | apply sound_closeSearch | split

theorem sound_endSearch (t : State) (n : Nat) (z : Search) (h_t : Sound t) : Sound (State.endSearch t n z) := by
  unfold State.endSearch
  with_reducible repeat' first | assumption | apply sound_ite | apply sound_post | apply sound_stick

theorem sound_searchOn (s : State) (n : Nat) (x : Search) (h_s : Sound s) : Sound (State.searchOn s n x) := by
  unfold State.searchOn
  with_reducible repeat' first
    | assumption | apply sound_ite | apply sound_setFld | apply sound_modT | apply sound_sendCode | apply sound_tryCode
    | apply sound_closeSearch | apply sound_endSearch | split | dsimp only

theorem sound_measuredVec (s : State) (n : Nat) (v : Word) (h_s : Sound s) : Sound (State.measuredVec s n v) := by
  unfold State.measuredVec
  with_reducible repeat' first
    | assumption | apply sound_ite | apply sound_setReg | apply sound_setFld | apply sound_post | apply sound_stickBit | apply sound_modT
    | apply sound_putDev | apply sound_beginSearch


end Sys2Proof.Machine
end

