-- ==== Sys2Proof/Laws/SoundBlocks.lean ====
section
/-! SUPPORT. Field, reception, frames, polling, Accord, power, coexistence, emulation, timers and resets keep `Sound`. -/

namespace Sys2Proof.Machine

theorem sound_lockSyn (s : State) (h_s : Sound s) : Sound (State.lockSyn s) := by
  unfold State.lockSyn
  with_reducible repeat' first
    | assumption | apply sound_setFld | apply sound_modP | apply sound_each | dsimp only | intro _ | apply sound_with_field

theorem sound_lockPast (s : State) (h_s : Sound s) : Sound (State.lockPast s) := by
  unfold State.lockPast
  with_reducible repeat' first | assumption | apply sound_ite | apply sound_lockSyn

theorem sound_retrim (s : State) (h_s : Sound s) : Sound (State.retrim s) := by
  unfold State.retrim
  with_reducible repeat' first
    | assumption | apply sound_ite | apply sound_setFld | apply sound_lockPast | dsimp only | apply sound_with_field

theorem sound_writeTrim (s : State) (v : Word) (h_s : Sound s) : Sound (State.writeTrim s v) := by
  unfold State.writeTrim
  with_reducible repeat' first | assumption | apply sound_writeReg | apply sound_retrim

theorem sound_writePA (s : State) (n : Nat) (isAmpl : Bool) (v : Word) (h_s : Sound s) : Sound (State.writePA s n isAmpl v) := by
  unfold State.writePA
  with_reducible repeat' first | assumption | apply sound_ite | apply sound_modF | apply sound_writeReg

theorem sound_compensate (s : State) (n : Nat) (m : DriverMeas) (h_s : Sound s) : Sound (State.compensate s n m) := by
  unfold State.compensate
  with_reducible repeat' first | assumption | apply sound_ite | apply sound_setFld | apply sound_post | apply sound_stick

theorem sound_setLimit (s : State) (lim : Nat) (h_s : Sound s) : Sound (State.setLimit s lim) := by
  unfold State.setLimit
  with_reducible repeat' first
    | assumption | apply sound_ite | apply sound_setFld | apply sound_postSec | apply sound_stick | apply sound_modF | apply sound_each
    | dsimp only | intro _

theorem sound_thermal (s : State) (ms : List DriverMeas) (h_s : Sound s) : Sound (State.thermal s ms) := by
  unfold State.thermal
  with_reducible repeat' first | assumption | apply sound_ite | apply sound_setReg | apply sound_setFld | apply sound_setLimit

theorem sound_atLead (s : State) (from_ : Nat) (h_s : Sound s) : Sound (State.atLead s from_) := by
  unfold State.atLead
  repeat' first
    | with_reducible assumption | with_reducible apply sound_ite | with_reducible apply sound_advance | rfl | dsimp only
    | with_reducible apply sound_with_obs

theorem sound_beginOn (s : State) (n : Nat) (h_s : Sound s) : Sound (State.beginOn s n) := by
  unfold State.beginOn
  with_reducible repeat' first
    | assumption | apply sound_modF | apply sound_modX | apply sound_endDeferral | apply sound_applyPA | dsimp only
    | apply sound_with_field

theorem sound_coxDefer (s : State) (n : Nat) (fail : State → State) (h_s : Sound s) (h_fail : ∀ t, Sound t → Sound (fail t)) : Sound
    (State.coxDefer s n fail) := by
  unfold State.coxDefer
  dsimp only
  have c := sound_count h_s 100
  exact sound_ite (h_fail _ (sound_modX _ _ _ (sound_post (sound_bump c _ _) _ _ _))) (sound_modX _ _ _ c)

theorem sound_noGrant (s : State) (n : Nat) (fail : State → State) (h_s : Sound s) (h_fail : ∀ t, Sound t → Sound (fail t)) : Sound
    (State.noGrant s n fail) := by
  unfold State.noGrant
  with_reducible repeat' first | assumption | apply sound_ite | apply sound_modX | apply sound_coxDefer

theorem sound_memberOn (s : State) (n : Nat) (h_s : Sound s) : Sound (State.memberOn s n) := by
  unfold State.memberOn
  with_reducible repeat' first
    | assumption | apply sound_ite | apply sound_modF | apply sound_endListen | apply sound_atLead | apply sound_beginOn
    | apply sound_noGrant | split | dsimp only | intro _

theorem sound_tryOn (s : State) (n : Nat) (h_s : Sound s) : Sound (State.tryOn s n) := by
  unfold State.tryOn
  with_reducible repeat' first
    | assumption | apply sound_ite | apply sound_modF | apply sound_defer | apply sound_startSyn | apply sound_lockPast
    | apply sound_atLead | apply sound_beginOn | apply sound_noGrant | apply sound_memberOn | split | dsimp only | intro _

theorem sound_fieldGone (s : State) (n : Nat) (h_s : Sound s) : Sound (State.fieldGone s n) := by
  unfold State.fieldGone
  with_reducible repeat' first
    | assumption | apply sound_ite | apply sound_modF | apply sound_tryOffs | apply sound_listenTarget | apply sound_endListen
    | dsimp only | apply sound_with_field

theorem sound_rampedOff (s : State) (n e : Nat) (before : RxOpen) (h_s : Sound s) : Sound (State.rampedOff s n e before) := by
  unfold State.rampedOff
  with_reducible repeat' first
    | assumption | apply sound_ite | apply sound_modF | apply sound_advance | apply sound_armRx | apply sound_openWindow
    | apply sound_endListen | apply sound_fieldGone

theorem sound_memberOff (s : State) (n : Nat) (before : RxOpen) (h_s : Sound s) : Sound (State.memberOff s n before) := by
  unfold State.memberOff
  with_reducible repeat' first
    | assumption | apply sound_ite | apply sound_modF | apply sound_advance | apply sound_startOff | apply sound_endListen
    | apply sound_rampedOff

theorem sound_fieldReset (s : State) (n : Nat) (h_s : Sound s) : Sound (State.fieldReset s n) := by
  unfold State.fieldReset
  with_reducible repeat' first | assumption | apply sound_ite | apply sound_modF | apply sound_askOff

theorem sound_writeFldCtrl (s : State) (n : Nat) (v : Word) (h_s : Sound s) : Sound (State.writeFldCtrl s n v) := by
  unfold State.writeFldCtrl
  with_reducible repeat' first | assumption | apply sound_ite | apply sound_writeReg | apply sound_fieldReset

theorem sound_cutPort (s : State) (n : Nat) (h_s : Sound s) : Sound (State.cutPort s n) := by
  unfold State.cutPort
  with_reducible repeat' first
    | assumption | apply sound_ite | apply sound_count | apply sound_post | apply sound_stick | apply sound_askOn | apply sound_startOff
    | apply sound_endListen | dsimp only | apply sound_with_field

theorem sound_binsTo (s : State) (h_s : Sound s) : Sound (State.binsTo s) := by
  unfold State.binsTo
  with_reducible repeat' first | assumption | apply sound_ite | dsimp only | apply sound_with_field

theorem sound_setColumn (s : State) (j : Nat) (col : List Word) (h_s : Sound s) : Sound (State.setColumn s j col) := by
  unfold State.setColumn
  with_reducible repeat' first
    | assumption | apply sound_setReg | apply sound_entryMoved | apply sound_each | split | dsimp only | intro _

theorem sound_deriveNeigh (s : State) (h_s : Sound s) : Sound (State.deriveNeigh s) := by
  unfold State.deriveNeigh
  with_reducible repeat' first | assumption | apply sound_setFld | apply sound_each | intro _

theorem sound_judgeMeasured (s : State) (n : Nat) (h_s : Sound s) : Sound (State.judgeMeasured s n) := by
  unfold State.judgeMeasured
  with_reducible repeat' first | assumption | apply sound_ite | apply sound_post | apply sound_setFldBit | apply sound_firstWeights

theorem sound_noteRx (s : State) (n ending : Nat) (clip : Bool) (rxs0 rxs1 rxs2 : Word) (h_s : Sound s) : Sound (State.noteRx s n ending
    clip rxs0 rxs1 rxs2) := by
  unfold State.noteRx
  with_reducible repeat' first | assumption | apply sound_ite | apply sound_setReg | apply sound_count | apply sound_postSec

theorem sound_noteDelivered (s : State) (n ending : Nat) (rx : RxData) (d : Delivered) (h_s : Sound s) : Sound (State.noteDelivered s n
    ending rx d) := by
  unfold State.noteDelivered
  with_reducible repeat' first | assumption | apply sound_noteRx

theorem sound_falseLock (s : State) (n : Nat) (h_s : Sound s) : Sound (State.falseLock s n) := by
  unfold State.falseLock
  with_reducible repeat' first | assumption | apply sound_postSecCount | apply sound_bump

theorem sound_deliverListen (s : State) (n ending : Nat) (rx : RxData) (h_s : Sound s) : Sound (State.deliverListen s n ending rx) := by
  unfold State.deliverListen
  with_reducible repeat' first | assumption | apply sound_ite | apply sound_complete | apply sound_noteDelivered

theorem sound_listenOn (s : State) (n : Nat) (h_s : Sound s) : Sound (State.listenOn s n) := by
  unfold State.listenOn
  with_reducible repeat' first | assumption | apply sound_ite | apply sound_rxIdle | apply sound_listen | apply sound_listenTarget

theorem sound_modPoll (s : State) (n : Nat) (f : AccPoll → AccPoll) (h_s : Sound s) : Sound (State.modPoll s n f) := by
  unfold State.modPoll
  with_reducible repeat' first | assumption | apply sound_modA

theorem sound_closeAccord (s : State) (n : Nat) (h_s : Sound s) : Sound (State.closeAccord s n) := by
  unfold State.closeAccord
  with_reducible repeat' first
    | assumption | apply sound_ite | apply sound_modF | apply sound_tryOffs | apply sound_rxIdle | apply sound_endListen
    | apply sound_returnState | apply sound_falseLock | apply sound_modPoll

theorem sound_cutExchange (s : State) (n result ending : Nat) (rx : RxData) (h_s : Sound s) : Sound (State.cutExchange s n result ending
    rx) := by
  unfold State.cutExchange
  with_reducible repeat' first
    | assumption | apply sound_ite | apply sound_rxIdle | apply sound_endExchange | apply sound_noteDelivered | apply sound_deliverListen
    | apply sound_modPoll | apply sound_closeAccord | split

theorem sound_failPlan (n : Nat) (s : State) (h_s : Sound s) : Sound (State.failPlan n s) := by
  unfold State.failPlan
  with_reducible repeat' first
    | assumption | apply sound_ite | apply sound_modP | apply sound_completeUnsent | apply sound_undue | apply sound_dropJob
    | apply sound_endListen | apply sound_returnState | apply sound_closeExchange | apply sound_holdAfter | split

theorem sound_beginTx (s : State) (n : Nat) (p : Plan) (start te : Nat) (h_s : Sound s) : Sound (State.beginTx s n p start te) := by
  unfold State.beginTx
  with_reducible repeat' first | assumption | apply sound_modF | apply sound_modP | apply sound_modX | apply sound_endDeferral

theorem sound_holdSyn (s : State) (n : Nat) (h_s : Sound s) : Sound (State.holdSyn s n) := by
  unfold State.holdSyn
  with_reducible repeat' first | assumption | apply sound_modP

theorem sound_leaveCal (s : State) (l : List Nat) (h_s : Sound s) : Sound (State.leaveCal s l) := by
  unfold State.leaveCal
  with_reducible repeat' first
    | assumption | apply sound_advance | apply sound_takeFreeWord | apply sound_abortStep | apply sound_foldl | dsimp only | intro _

theorem sound_tryFrame (s : State) (n : Nat) (p : Plan) (h_s : Sound s) : Sound (State.tryFrame s n p) := by
  unfold State.tryFrame
  with_reducible repeat' first
    | assumption | apply sound_ite | apply sound_defer | apply sound_lockPast | apply sound_atLead | apply sound_noGrant
    | apply sound_failPlan | apply sound_beginTx | apply sound_holdSyn | apply sound_leaveCal

theorem sound_memberFrame (s : State) (n : Nat) (p : Plan) (e : Nat) (h_s : Sound s) : Sound (State.memberFrame s n p e) := by
  unfold State.memberFrame
  with_reducible repeat' first
    | assumption | apply sound_ite | apply sound_modF | apply sound_advance | apply sound_endListen | apply sound_noGrant
    | apply sound_failPlan | apply sound_beginTx

theorem sound_needField (s : State) (n : Nat) (h_s : Sound s) : Sound (State.needField s n) := by
  unfold State.needField
  with_reducible repeat' first | assumption | apply sound_ite | apply sound_modP | apply sound_askOn | split

theorem sound_pollSent (s : State) (n : Nat) (f : Frame) (h_s : Sound s) : Sound (State.pollSent s n f) := by
  unfold State.pollSent
  with_reducible repeat' first | assumption | apply sound_ite | apply sound_setReg | apply sound_bump | apply sound_modA

theorem sound_beginListen (s : State) (n : Nat) (h_s : Sound s) : Sound (State.beginListen s n) := by
  unfold State.beginListen
  with_reducible repeat' first | assumption | apply sound_modH | split

theorem sound_writeRole (s : State) (n : Nat) (v : Word) (h_s : Sound s) : Sound (State.writeRole s n v) := by
  unfold State.writeRole
  with_reducible repeat' first | assumption | apply sound_ite | apply sound_judgeRole | apply sound_writeReg

theorem sound_rejudge (s : State) (n : Nat) (h_s : Sound s) : Sound (State.rejudge s n) := by
  unfold State.rejudge
  with_reducible repeat' first
    | assumption | apply sound_ite | apply sound_postSec | apply sound_modP | apply sound_modX | apply sound_completeUnsent
    | apply sound_undue | split

theorem sound_leaveReader (s : State) (n : Nat) (h_s : Sound s) : Sound (State.leaveReader s n) := by
  unfold State.leaveReader
  with_reducible repeat' first
    | assumption | apply sound_ite | apply sound_modP | apply sound_modA | apply sound_leaveSess | apply sound_dropJob | apply sound_foldl
    | dsimp only | intro _

theorem sound_radioFollows (s : State) (n : Nat) (h_s : Sound s) : Sound (State.radioFollows s n) := by
  unfold State.radioFollows
  with_reducible repeat' first
    | assumption | apply sound_ite | apply sound_modF | apply sound_startSyn | apply sound_askOff | apply sound_listenTarget

theorem sound_writeHuddle (s : State) (n : Nat) (v : Word) (h_s : Sound s) : Sound (State.writeHuddle s n v) := by
  unfold State.writeHuddle
  with_reducible repeat' first | assumption | apply sound_judgeHuddle | apply sound_syncMember | apply sound_writeReg

theorem sound_commitPart (te : Nat) (s : State) (p : Part) (h_s : Sound s) : Sound (State.commitPart te s p) := by
  unfold State.commitPart
  with_reducible repeat' first | assumption | apply sound_countBy | apply sound_modF | split

theorem sound_showAfc (s : State) (n fofs tofs frozen : Nat) (h_s : Sound s) : Sound (State.showAfc s n fofs tofs frozen) := by
  unfold State.showAfc
  with_reducible repeat' first | assumption | apply sound_setReg

theorem sound_deliverOpen (s : State) (n ending : Nat) (rx : RxData) (isCapture : Bool) (h_s : Sound s) : Sound (State.deliverOpen s n
    ending rx isCapture) := by
  unfold State.deliverOpen
  with_reducible repeat' first
    | assumption | apply sound_ite | apply sound_modP | apply sound_rearm | apply sound_noteDelivered | apply sound_deliverListen | split

theorem sound_outOfRange (s : State) (n : Nat) (codes : Byte) (rx : RxData) (h_s : Sound s) : Sound (State.outOfRange s n codes rx) := by
  unfold State.outOfRange
  with_reducible repeat' first | assumption | apply sound_ite | apply sound_post | apply sound_modPoll | apply sound_deliverOpen

theorem sound_roundReply (s : State) (n ending : Nat) (x : Exchange) (rx : RxData) (hw : HwFault) (h_s : Sound s) : Sound
    (State.roundReply s n ending x rx hw) := by
  unfold State.roundReply
  with_reducible repeat' first
    | assumption | apply sound_ite | apply sound_modP | apply sound_complete | apply sound_rearm | apply sound_jobReply
    | apply sound_noteDelivered

theorem sound_deliverClose (s : State) (n ending : Nat) (x : Exchange) (rx : RxData) (hw : HwFault) (h_s : Sound s) : Sound
    (State.deliverClose s n ending x rx hw) := by
  unfold State.deliverClose
  with_reducible repeat' first | assumption | apply sound_endExchange | apply sound_noteDelivered

theorem sound_noiseStats (s : State) (n v v4 : Nat) (h_s : Sound s) : Sound (State.noiseStats s n v v4) := by
  unfold State.noiseStats
  with_reducible repeat' first | assumption | apply sound_setReg | apply sound_modR | apply sound_modA

theorem sound_clearCounts (s : State) (n : Nat) (h_s : Sound s) : Sound (State.clearCounts s n) := by
  unfold State.clearCounts
  with_reducible repeat' first | assumption | apply sound_setReg

theorem sound_clearNoise (s : State) (n : Nat) (h_s : Sound s) : Sound (State.clearNoise s n) := by
  unfold State.clearNoise
  with_reducible repeat' first | assumption | apply sound_setFld

theorem sound_popDesc (s : State) (n : Nat) (bad : Bool) (h_s : Sound s) : Sound (State.popDesc s n bad).1 := by
  unfold State.popDesc
  dsimp only
  refine sound_foldl _ (fun t ht a => sound_poisoned ht n n) _ _ (sound_setPqX h_s n _ ?_ (h_s.bounded.rx n))
  have := h_s.bounded.tx n
  simp only [List.length_drop]
  omega

theorem sound_poisonDesc (s : State) (n : Nat) (h_s : Sound s) : Sound (State.poisonDesc s n) := by
  unfold State.poisonDesc
  with_reducible repeat' first | assumption | apply sound_post | apply sound_completeUnsent

theorem sound_takeDesc (s : State) (n : Nat) (bad : Bool) (h_s : Sound s) : Sound (State.takeDesc s n bad) := by
  unfold State.takeDesc
  with_reducible repeat' first
    | assumption | apply sound_ite | apply sound_post | apply sound_postSec | apply sound_modP | apply sound_resumePush
    | apply sound_completeUnsent | apply sound_needField | apply sound_popDesc | apply sound_poisonDesc

theorem sound_dropDesc (s : State) (n : Nat) (h_s : Sound s) : Sound (State.dropDesc s n) := by
  unfold State.dropDesc
  with_reducible repeat' first
    | assumption | apply sound_ite | apply sound_completeUnsent | apply sound_popDesc | apply sound_poisonDesc

theorem sound_flushDescs (n k : Nat) (s : State) (h_s : Sound s) : Sound (State.flushDescs n k s) := by
  induction k generalizing s with
  | zero => exact h_s
  | succ k ih => exact sound_ite (ih _ (sound_dropDesc _ _ h_s)) (sound_modP _ _ _ h_s)

theorem sound_flushTx (s : State) (n : Nat) (h_s : Sound s) : Sound (State.flushTx s n) := by
  unfold State.flushTx
  with_reducible repeat' first | assumption | apply sound_modP | apply sound_resumePush | apply sound_flushDescs

theorem sound_afterPush (s : State) (n : Nat) (h_s : Sound s) : Sound (State.afterPush s n) := by
  unfold State.afterPush
  with_reducible repeat' first | assumption | apply sound_ite | apply sound_modP | apply sound_resumePush | apply sound_dropDesc

theorem sound_hostPush (s : State) (n : Nat) (ws : List Word) (h_s : Sound s) : Sound (State.hostPush s n ws) := by
  unfold State.hostPush
  with_reducible repeat' first | assumption | apply sound_ite | apply sound_pushTxs | apply sound_afterPush

theorem sound_endHold (s : State) (n : Nat) (h_s : Sound s) : Sound (State.endHold s n) := by
  unfold State.endHold
  with_reducible repeat' first | assumption | apply sound_modP

theorem sound_rfcaBusy (s : State) (n : Nat) (h_s : Sound s) : Sound (State.rfcaBusy s n) := by
  unfold State.rfcaBusy
  with_reducible repeat' first | assumption | apply sound_modP | apply sound_completeUnsent | apply sound_undue | split

theorem sound_extRose (s : State) (n : Nat) (h_s : Sound s) : Sound (State.extRose s n) := by
  unfold State.extRose
  with_reducible repeat' first | assumption | apply sound_modP

theorem sound_extDropped (s : State) (n : Nat) (h_s : Sound s) : Sound (State.extDropped s n) := by
  unfold State.extDropped
  with_reducible repeat' first
    | assumption | apply sound_ite | apply sound_post | apply sound_modP | apply sound_takeDesc | apply sound_rfcaBusy | split

theorem sound_beginJob (s : State) (n : Nat) (j : Job) (h_s : Sound s) : Sound (State.beginJob s n j) := by
  unfold State.beginJob
  with_reducible repeat' first | assumption | apply sound_ite | apply sound_askOn | apply sound_setJob

theorem sound_owedJob (s : State) (n k : Nat) (h_s : Sound s) : Sound (State.owedJob s n k) := by
  unfold State.owedJob
  with_reducible repeat' first | assumption | apply sound_ite | apply sound_modP | apply sound_beginJob | split | dsimp only

theorem sound_releaseJob (s : State) (n g : Nat) (h_s : Sound s) : Sound (State.releaseJob s n g) := by
  unfold State.releaseJob
  with_reducible repeat' first | assumption | apply sound_modA | apply sound_beginJob

theorem sound_entryAfter (s : State) (n : Nat) (h_s : Sound s) : Sound (State.entryAfter s n) := by
  unfold State.entryAfter
  with_reducible repeat' first | assumption | apply sound_modP

theorem sound_runEntry (s : State) (n w : Nat) (h_s : Sound s) : Sound (State.runEntry s n w) := by
  unfold State.runEntry
  with_reducible repeat' first
    | assumption | apply sound_ite | apply sound_postSec | apply sound_bump | apply sound_modP | apply sound_askOff | apply sound_beginJob
    | apply sound_entryAfter | split

theorem sound_writeSessCmd (s : State) (v : Word) (h_s : Sound s) : Sound (State.writeSessCmd s v) := by
  unfold State.writeSessCmd
  with_reducible repeat' first | assumption | apply sound_ite | apply sound_leaveSess

theorem sound_freeNone (s : State) (l : List ChanRes) (h_s : Sound s) : Sound (State.freeNone s l).1 := by
  induction l generalizing s with
  | nil => exact h_s
  | cons r t ih =>
    unfold State.freeNone
    split
    · exact ih _ (sound_takeFreeWord h_s)
    · exact ih _ h_s

theorem sound_matchChan (s : State) (n : Nat) (p : AccPoll) (r : ChanRes) (h_s : Sound s) : Sound (State.matchChan s n p r).1 := by
  unfold State.matchChan
  with_reducible repeat' first
    | assumption | apply sound_post | apply sound_modA | apply sound_seen | apply sound_missed | apply sound_withdraw | split

theorem sound_matchChans (s : State) (n : Nat) (p : AccPoll) (l : List ChanRes) (h_s : Sound s) : Sound (State.matchChans s n p l).1 := by
  induction l generalizing s with
  | nil => exact h_s
  | cons r t ih => exact ih _ (sound_matchChan _ _ _ _ h_s)

theorem sound_missChans (s : State) (n : Nat) (p : AccPoll) (start : Nat) (l : List ChanRes) (h_s : Sound s) : Sound (State.missChans s n
    p start l) := by
  unfold State.missChans
  with_reducible repeat' first | assumption | apply sound_ite | apply sound_missed | apply sound_foldl | split | dsimp only | intro _

theorem sound_reportChans (s : State) (n : Nat) (l : List ChanRes) (h_s : Sound s) : Sound (State.reportChans s n l) := by
  unfold State.reportChans
  with_reducible repeat' first
    | assumption | apply sound_setReg | apply sound_setFld | apply sound_countBy | apply sound_foldl | dsimp only | intro _

theorem sound_afterPoll (s : State) (n : Nat) (l : List ChanRes) (h_s : Sound s) : Sound (State.afterPoll s n l) := by
  unfold State.afterPoll
  with_reducible repeat' first | assumption | apply sound_ite | apply sound_setJob | apply sound_endJob | split

theorem sound_setSaf (s : State) (x : SafSt) (h_s : Sound s) : Sound (State.setSaf s x) := by
  unfold State.setSaf
  with_reducible repeat' first | assumption | apply sound_with_saf

theorem sound_seeInjected (s : State) (x : Inject) (code wher : Nat) (h_s : Sound s) : Sound (State.seeInjected s x code wher) := by
  unfold State.seeInjected
  with_reducible repeat' first | assumption | apply sound_ite | apply sound_setReg | apply sound_trip | apply sound_setSaf

theorem sound_detect (s : State) (code wher : Nat) (genuine : Bool) (h_s : Sound s) : Sound (State.detect s code wher genuine) := by
  unfold State.detect
  with_reducible repeat' first
    | assumption | apply sound_ite | apply sound_advance | apply sound_trip | apply sound_seeInjected | split

theorem sound_setFb (s : State) (l : Nat) (fb : Bool) (h_s : Sound s) : Sound (State.setFb s l fb) := by
  unfold State.setFb
  with_reducible repeat' first | assumption | apply sound_with_pins

theorem sound_refreshMon (s : State) (h_s : Sound s) : Sound (State.refreshMon s) := by
  unfold State.refreshMon
  with_reducible repeat' first
    | assumption | apply sound_ite | apply sound_modL | apply sound_setSaf | apply sound_each | dsimp only | intro _

theorem sound_portSafe (s : State) (n : Nat) (h_s : Sound s) : Sound (State.portSafe s n) := by
  unfold State.portSafe
  with_reducible repeat' first
    | assumption | apply sound_modF | apply sound_modP | apply sound_modT | apply sound_modX | apply sound_endDeferral
    | apply sound_rxIdle

theorem sound_endPulses (s : State) (h_s : Sound s) : Sound (State.endPulses s) := by
  unfold State.endPulses
  with_reducible repeat' first | assumption | apply sound_modL | apply sound_each | intro _

theorem sound_cutAll (s : State) (rxs : List RxData) (h_s : Sound s) : Sound (State.cutAll s rxs) := by
  unfold State.cutAll
  with_reducible repeat' first | assumption | apply sound_cutExchange | apply sound_foldl | dsimp only | intro _

theorem sound_shutDown (s : State) (rxs : List RxData) (h_s : Sound s) : Sound (State.shutDown s rxs) := by
  unfold State.shutDown
  dsimp only
  have a := sound_each (fun n t => t.portSafe n) (fun n t ht => sound_portSafe _ _ ht) 16 _ (sound_cutAll _ rxs (sound_parkLists _ h_s))
  have b := sound_each (fun h t => t.modH h fun x => { HuddleSt.reset with members := x.members }) (fun n t ht => sound_modH _ _ _ ht) 4 _
    (sound_endPulses _ a)
  have c := sound_storeSafe _ (sound_abandonLookups _ b)
  generalize State.storeSafe _ = u at c
  exact sound_with_tun c _

theorem sound_coreSees (s : State) (code wher : Nat) (rxs : List RxData) (h_s : Sound s) : Sound (State.coreSees s code wher rxs) := by
  unfold State.coreSees
  with_reducible repeat' first
    | assumption | apply sound_setFld | apply sound_post | apply sound_toSafe | apply sound_setSaf | apply sound_shutDown

theorem sound_firstSelfTest (s : State) (h_s : Sound s) : Sound (State.firstSelfTest s) := by
  unfold State.firstSelfTest
  with_reducible repeat' first | assumption | apply sound_ite | apply sound_setReg

theorem sound_enterSafe (s : State) (cause : Nat) (h_s : Sound s) : Sound (State.enterSafe s cause) := by
  unfold State.enterSafe
  with_reducible repeat' first | assumption | apply sound_setFld | apply sound_toSafe | apply sound_setSaf | apply sound_shutDown

theorem sound_writeInject (s : State) (v : Word) (h_s : Sound s) : Sound (State.writeInject s v) := by
  unfold State.writeInject
  with_reducible repeat' first | assumption | apply sound_ite | apply sound_refuse | apply sound_setSaf | apply sound_detect

theorem sound_enterTest (s : State) (h_s : Sound s) : Sound (State.enterTest s) := by
  unfold State.enterTest
  with_reducible repeat' first | assumption | apply sound_toPhase | apply sound_parkLists | apply sound_allOff | apply sound_endPulses

theorem sound_setClocks (s : State) (on : Bool) (h_s : Sound s) : Sound (State.setClocks s on) := by
  unfold State.setClocks
  with_reducible repeat' first | assumption | apply sound_setFld

theorem sound_askPower (s : State) (r : PwrReq) (h_s : Sound s) : Sound (State.askPower s r) := by
  unfold State.askPower
  with_reducible repeat' first | assumption | apply sound_ite | apply sound_post | apply sound_with_pwr

theorem sound_cancelPower (s : State) (h_s : Sound s) : Sound (State.cancelPower s) := by
  unfold State.cancelPower
  with_reducible repeat' first | assumption | apply sound_with_pwr

theorem sound_writePwrCmd (s : State) (v : Word) (h_s : Sound s) : Sound (State.writePwrCmd s v) := by
  unfold State.writePwrCmd
  with_reducible repeat' first | assumption | apply sound_askPower | apply sound_cancelPower | split

theorem sound_handStages (s : State) (h_s : Sound s) : Sound (State.handStages s) := by
  unfold State.handStages
  repeat' first | with_reducible assumption | with_reducible apply sound_setSilEq | rfl

theorem sound_fallAsleep (s : State) (r : PwrReq) (h_s : Sound s) : Sound (State.fallAsleep s r) := by
  unfold State.fallAsleep
  dsimp only
  have c := sound_setClocks _ false (sound_setFld (sound_setFld (sound_advance h_s s.slowEdge) Reg.FLD_SYN_STATUS Fld.FLD_SYN_STATUS_LOCKED 0)
    Reg.FLD_SYN_STATUS Fld.FLD_SYN_STATUS_SETTLING 0)
  have key : ∀ (u : State) (x : PwrSt), Sound u → Sound { u with field := { u.field with synRun := false, settleEnd := none }, pwr := x } :=
    fun u x c => c.of_eq rfl rfl rfl rfl rfl rfl rfl rfl rfl rfl rfl rfl rfl
  exact key _ _ c

theorem sound_catchUp (s : State) (h_s : Sound s) : Sound (State.catchUp s) := by
  unfold State.catchUp
  dsimp only
  exact (sound_setReg (sound_binsTo _ h_s) Reg.TMR_SLEEP_LAST (word ((s.time - s.pwr.sleepAt) / slowCycle % 2 ^ 24))).of_eq rfl rfl rfl rfl
    rfl rfl rfl rfl rfl rfl rfl rfl rfl

theorem sound_wakeInto (s : State) (h_s : Sound s) : Sound (State.wakeInto s) := by
  unfold State.wakeInto
  with_reducible repeat' first | assumption | apply sound_startSyn | apply sound_recover | apply sound_coreSees | split

theorem sound_alsoTimer (s : State) (edge : Nat) (h_s : Sound s) : Sound (State.alsoTimer s edge) := by
  unfold State.alsoTimer
  with_reducible repeat' first | assumption | apply sound_ite | apply sound_stick

theorem sound_slowPost (s : State) (h_s : Sound s) : Sound (State.slowPost s) := by
  unfold State.slowPost
  with_reducible repeat' first | assumption | apply sound_ite | apply sound_post | apply sound_with_pwr

theorem sound_wake (s : State) (f : Field) (h_s : Sound s) : Sound (State.wake s f) := by
  have c := sound_setClocks (((((s.advance s.slowEdge).alsoTimer s.slowEdge).catchUp).stick Reg.PWR_WAKE_STATUS f).bump Reg.PWR_WAKE_STATUS
    Fld.PWR_WAKE_STATUS_WAKES) true (sound_bump (sound_stick (sound_catchUp _ (sound_alsoTimer _ _ (sound_advance h_s _))) _ _) _ _)
  have key : ∀ u : State, Sound u → Sound { u with pwr := { u.pwr with awake := .running }, saf := { u.saf with beatAt := u.time } } :=
    fun u c => c.of_eq rfl rfl rfl rfl rfl rfl rfl rfl rfl rfl rfl rfl rfl
  exact sound_wakeInto _ (sound_slowPost _ (key _ c))

theorem sound_fieldDrop (s : State) (n : Nat) (h_s : Sound s) : Sound (State.fieldDrop s n) := by
  unfold State.fieldDrop
  with_reducible repeat' first
    | assumption | apply sound_modF | apply sound_endDeferral | apply sound_askOn | apply sound_abortStep | apply sound_rxIdle
    | apply sound_fieldGone

theorem sound_writePwrClk (s : State) (v : Word) (h_s : Sound s) : Sound (State.writePwrClk s v) := by
  unfold State.writePwrClk
  with_reducible repeat' first | assumption | apply sound_ite | apply sound_setFld | apply sound_writeReg

theorem sound_loadedVec (s : State) (n : Nat) (raw : Word) (h_s : Sound s) : Sound (State.loadedVec s n raw).1 := by
  unfold State.loadedVec
  with_reducible repeat' first | assumption | apply sound_takeFreeWord | split

theorem sound_measureVec (s : State) (n : Nat) (raw : Word) (h_s : Sound s) : Sound (State.measureVec s n raw) := by
  unfold State.measureVec
  with_reducible repeat' first | assumption | apply sound_measuredVec | apply sound_loadedVec

theorem sound_captureRef (s : State) (n : Nat) (h_s : Sound s) : Sound (State.captureRef s n) := by
  unfold State.captureRef
  with_reducible repeat' first | assumption | apply sound_ite | apply sound_refuse | apply sound_modT

theorem sound_retune (s : State) (n : Nat) (h_s : Sound s) : Sound (State.retune s n) := by
  unfold State.retune
  with_reducible repeat' first | assumption | apply sound_ite | apply sound_beginSearch

theorem sound_askMeasure (s : State) (n : Nat) (h_s : Sound s) : Sound (State.askMeasure s n) := by
  unfold State.askMeasure
  with_reducible repeat' first | assumption | apply sound_modT

theorem sound_writeTunCmd (s : State) (n : Nat) (v : Word) (h_s : Sound s) : Sound (State.writeTunCmd s n v) := by
  unfold State.writeTunCmd
  with_reducible repeat' first | assumption | apply sound_ite | apply sound_captureRef | apply sound_retune | apply sound_askMeasure

theorem sound_writeTunCode (s : State) (n : Nat) (v : Word) (h_s : Sound s) : Sound (State.writeTunCode s n v) := by
  unfold State.writeTunCode
  with_reducible repeat' first
    | assumption | apply sound_ite | apply sound_setFld | apply sound_post | apply sound_modT | apply sound_writeReg
    | apply sound_sendCode

theorem sound_linkNext (s : State) (q : LinkReq) (h_s : Sound s) : Sound (State.linkNext s q) := by
  unfold State.linkNext
  with_reducible repeat' first | assumption | apply sound_kickLink | apply sound_with_tun

theorem sound_roundSyn (s : State) (h_s : Sound s) : Sound (State.roundSyn s) := by
  unfold State.roundSyn
  exact sound_ite h_s (sound_ite (sound_with_field (sound_startSyn _ (sound_takeFreeWord h_s)) _) (sound_startSyn _ h_s))

theorem sound_roundOver (s : State) (h_s : Sound s) : Sound (State.roundOver s) := by
  have key : ∀ u : State, Sound u →
      Sound { u with field := { u.field with synRun := false, settleEnd := none }, tun := { u.tun with crossed := false } } :=
    fun u c => c.of_eq rfl rfl rfl rfl rfl rfl rfl rfl rfl rfl rfl rfl rfl
  unfold State.roundOver
  exact sound_ite (key _ (sound_setFld (sound_setFld h_s _ _ _) _ _ _)) (sound_ite (sound_with_tun h_s _) h_s)

theorem sound_skipPing (s : State) (h_s : Sound s) : Sound (State.skipPing s) := by
  unfold State.skipPing
  with_reducible repeat' first | assumption | apply sound_postSec | apply sound_bump

theorem sound_pinged (s : State) (n : Nat) (h_s : Sound s) : Sound (State.pinged s n) := by
  unfold State.pinged
  with_reducible repeat' first | assumption | apply sound_with_tun

theorem sound_ping (s : State) (n : Nat) (vec : Word) (h_s : Sound s) : Sound (State.ping s n vec) := by
  unfold State.ping
  with_reducible repeat' first
    | assumption | apply sound_setReg | apply sound_count | apply sound_modF | apply sound_modT | apply sound_advance | apply sound_binsTo
    | dsimp only | apply sound_with_field

theorem sound_showBase (s : State) (n : Nat) (h_s : Sound s) : Sound (State.showBase s n) := by
  unfold State.showBase
  with_reducible repeat' first | assumption | apply sound_setReg

theorem sound_sumBase (s : State) (n : Nat) (vec : Word) (h_s : Sound s) : Sound (State.sumBase s n vec) := by
  unfold State.sumBase
  with_reducible repeat' first | assumption | apply sound_ite | apply sound_modT | apply sound_showBase

theorem sound_trackBase (s : State) (n : Nat) (vec : Word) (h_s : Sound s) : Sound (State.trackBase s n vec) := by
  unfold State.trackBase
  with_reducible repeat' first | assumption | apply sound_modT | apply sound_takeFreeBit | apply sound_showBase

theorem sound_toReader (s : State) (n : Nat) (h_s : Sound s) : Sound (State.toReader s n) := by
  unfold State.toReader
  with_reducible repeat' first | assumption | apply sound_setFld | apply sound_judgeRole

theorem sound_sniffWake (s : State) (n : Nat) (h_s : Sound s) : Sound (State.sniffWake s n) := by
  unfold State.sniffWake
  with_reducible repeat' first
    | assumption | apply sound_ite | apply sound_count | apply sound_post | apply sound_stickBit | apply sound_modT | apply sound_wake
    | apply sound_toReader | apply sound_foldl | split | dsimp only | intro _

theorem sound_roundReady (s : State) (h_s : Sound s) : Sound (State.roundReady s) := by
  unfold State.roundReady
  with_reducible repeat' first | assumption | apply sound_ite | apply sound_advance | apply sound_lockPast

theorem sound_writeSniff (s : State) (n a : Nat) (v : Word) (h_s : Sound s) : Sound (State.writeSniff s n a v) := by
  unfold State.writeSniff
  with_reducible repeat' first | assumption | apply sound_ite | apply sound_modT | apply sound_writeReg

theorem sound_setCox (s : State) (x : CoxSt) (h_s : Sound s) : Sound (State.setCox s x) := by
  unfold State.setCox
  with_reducible repeat' first | assumption | apply sound_with_cox

theorem sound_attempt (s : State) (n : Nat) (h_s : Sound s) : Sound (State.attempt s n) := by
  unfold State.attempt
  with_reducible repeat' first | assumption | apply sound_ite | apply sound_tryOn | apply sound_tryFrame | split

theorem sound_unwait (s : State) (n : Nat) (h_s : Sound s) : Sound (State.unwait s n) := by
  unfold State.unwait
  with_reducible repeat' first | assumption | apply sound_modX

theorem sound_seenLater (s : State) (h_s : Sound s) : Sound (State.seenLater s) := by
  unfold State.seenLater
  with_reducible repeat' first | assumption | apply sound_advance | apply sound_takeFreeBit

theorem sound_toRfCycle (s : State) (h_s : Sound s) : Sound (State.toRfCycle s) := by
  unfold State.toRfCycle
  with_reducible repeat' first | assumption | apply sound_advance | apply sound_takeFreeWord

theorem sound_grantSeen (s0 : State) (h_s0 : Sound s0) : Sound (State.grantSeen s0) := by
  unfold State.grantSeen
  with_reducible repeat' first
    | assumption | apply sound_ite | apply sound_tryOffs | apply sound_attempt | apply sound_unwait | apply sound_toRfCycle
    | apply sound_foldl | dsimp only | intro _

theorem sound_noteCut (s : State) (n : Nat) (h_s : Sound s) : Sound (State.noteCut s n) := by
  unfold State.noteCut
  with_reducible repeat' first | assumption | apply sound_count | apply sound_postLimited | apply sound_bump

theorem sound_cutFrame (s : State) (n : Nat) (h_s : Sound s) : Sound (State.cutFrame s n) := by
  unfold State.cutFrame
  with_reducible repeat' first | assumption | apply sound_cutExchange | apply sound_noteCut

theorem sound_cutOn (s : State) (n : Nat) (h_s : Sound s) : Sound (State.cutOn s n) := by
  unfold State.cutOn
  with_reducible repeat' first
    | assumption | apply sound_ite | apply sound_modF | apply sound_startOff | apply sound_noteCut | split | dsimp only

theorem sound_grantLost (s : State) (h_s : Sound s) : Sound (State.grantLost s) := by
  unfold State.grantLost
  with_reducible repeat' first
    | assumption | apply sound_ite | apply sound_advance | apply sound_cutFrame | apply sound_cutOn | apply sound_foldl | dsimp only
    | intro _

theorem sound_grantMoved (s0 s : State) (h_s0 : Sound s0) (h_s : Sound s) : Sound (State.grantMoved s0 s) := by
  unfold State.grantMoved
  with_reducible repeat' first | assumption | apply sound_ite | apply sound_grantSeen | apply sound_grantLost

theorem sound_markBlanked (s : State) (h_s : Sound s) : Sound (State.markBlanked s) := by
  unfold State.markBlanked
  exact sound_each _ (fun n t ht => sound_ite (sound_modR _ _ _ ht) ht) _ _ h_s

theorem sound_writeCoxCtrl (s : State) (v : Word) (h_s : Sound s) : Sound (State.writeCoxCtrl s v) := by
  unfold State.writeCoxCtrl
  with_reducible repeat' first
    | assumption | apply sound_tryOffs | apply sound_writeReg | apply sound_setCox | apply sound_grantMoved | apply sound_markBlanked

theorem sound_loadReg (s : State) (l : List Word) (h_s : Sound s) : Sound (State.loadReg s l) := by
  unfold State.loadReg
  with_reducible repeat' first | assumption | apply sound_setReg | apply sound_each | dsimp only | intro _

theorem sound_lowerCeil (s : State) (n : Nat) (h_s : Sound s) : Sound (State.lowerCeil s n) := by
  unfold State.lowerCeil
  with_reducible repeat' first | assumption | apply sound_ite | apply sound_modF

theorem sound_applyLower (s : State) (p : List Byte) (h_s : Sound s) : Sound (State.applyLower s p) := by
  unfold State.applyLower
  dsimp only
  split
  · exact sound_clampCheck _ _ (sound_clampCheck _ _ (sound_clampCheck _ _ (sound_lowerCeil _ _ (sound_setFld h_s _ _ _))))
  · exact sound_setFld (sound_setFld h_s _ _ _) _ _ _
  · exact sound_clampCheck _ _ (sound_retrim _ (sound_setFld (sound_setFld h_s _ _ _) _ _ _))
  · exact sound_clampCheck _ _ (sound_setFld h_s _ _ _)
  · exact sound_each _ (fun n t ht => sound_ite (sound_judgeRole _ _ ht) ht) _ _ (sound_setFld h_s _ _ _)

theorem sound_respond (s : State) (last : Bool) (b : List Byte) (bits : Nat) (air : List Bool) (h_s : Sound s) : Sound (State.respond s
    last b bits air) := by
  unfold State.respond
  repeat' first | with_reducible assumption | with_reducible apply sound_ite | with_reducible apply sound_modE | rfl

theorem sound_respondCrc (s : State) (last : Bool) (b : List Byte) (h_s : Sound s) : Sound (State.respondCrc s last b) := by
  unfold State.respondCrc
  with_reducible repeat' first | assumption | apply sound_respond

theorem sound_respondNak (s : State) (last : Bool) (h_s : Sound s) : Sound (State.respondNak s last) := by
  unfold State.respondNak
  with_reducible repeat' first | assumption | apply sound_respond

theorem sound_respondBusy (s : State) (last : Bool) (h_s : Sound s) : Sound (State.respondBusy s last) := by
  unfold State.respondBusy
  with_reducible repeat' first | assumption | apply sound_respond

theorem sound_tagReject (s : State) (h_s : Sound s) : Sound (State.tagReject s) := by
  unfold State.tagReject
  with_reducible repeat' first | assumption | apply sound_ite | apply sound_tagTo

theorem sound_tagWake (s : State) (last halted : Bool) (h_s : Sound s) : Sound (State.tagWake s last halted) := by
  unfold State.tagWake
  repeat' first | with_reducible assumption | with_reducible apply sound_modE | with_reducible apply sound_respond | rfl

theorem sound_tagSelect (s : State) (h_s : Sound s) : Sound (State.tagSelect s) := by
  unfold State.tagSelect
  repeat' first
    | with_reducible assumption | with_reducible apply sound_ite | with_reducible apply sound_bump | with_reducible apply sound_modE | rfl

theorem sound_tagSel (s : State) (frame : List Byte) (lastBits : Nat) (h_s : Sound s) : Sound (State.tagSel s frame lastBits) := by
  unfold State.tagSel
  repeat' first
    | with_reducible assumption | with_reducible apply sound_ite | with_reducible apply sound_modE | with_reducible apply sound_respond
    | with_reducible apply sound_respondCrc | with_reducible apply sound_tagReject | with_reducible apply sound_tagSelect | rfl | split

theorem sound_sendBusy (s : State) (last : Bool) (h_s : Sound s) : Sound (State.sendBusy s last) := by
  unfold State.sendBusy
  with_reducible repeat' first | assumption | apply sound_ite | apply sound_postSec | apply sound_bump | apply sound_respondBusy

theorem sound_askInc (s : State) (c : Nat) (h_s : Sound s) : Sound (State.askInc s c) := by
  unfold State.askInc
  with_reducible repeat' first | assumption | apply sound_ite | apply sound_queueInc

theorem sound_sendBlock (s : State) (last : Bool) (b : Nat) (h_s : Sound s) : Sound (State.sendBlock s last b) := by
  unfold State.sendBlock
  repeat' first
    | with_reducible assumption | with_reducible apply sound_ite | with_reducible apply sound_modE | with_reducible apply sound_respondCrc
    | with_reducible apply sound_askInc | rfl

theorem sound_benchTag (s : State) (dur : Nat) (h_s : Sound s) : Sound (State.benchTag s dur) := by
  unfold State.benchTag
  repeat' first | with_reducible assumption | with_reducible apply sound_modE | with_reducible apply sound_leaveActive | rfl

theorem sound_writeEmuData (s : State) (i : Nat) (ws : List Word) (h_s : Sound s) : Sound (State.writeEmuData s i ws) := by
  unfold State.writeEmuData
  repeat' first
    | with_reducible assumption | with_reducible apply sound_ite | with_reducible apply sound_modE | with_reducible apply sound_putDatas
    | rfl

theorem sound_writeWire (s : State) (v : Word) (h_s : Sound s) : Sound (State.writeWire s v) := by
  unfold State.writeWire
  repeat' first
    | with_reducible assumption | with_reducible apply sound_ite | with_reducible apply sound_writeReg | with_reducible apply sound_modE
    | with_reducible apply sound_autoSync | with_reducible apply sound_releaseHeld | rfl

theorem sound_writeEmuCtrl (s : State) (v : Word) (h_s : Sound s) : Sound (State.writeEmuCtrl s v) := by
  unfold State.writeEmuCtrl
  exact sound_syncEmu _ (sound_each _ (fun n t ht => sound_ite (sound_judgeRole _ _ ht) ht) _ _ (sound_writeReg _ _ _ h_s))

theorem sound_writeUidLo (s : State) (v : Word) (h_s : Sound s) : Sound (State.writeUidLo s v) := by
  unfold State.writeUidLo
  with_reducible repeat' first | assumption | apply sound_ite | apply sound_writeReg

theorem sound_ctrInc (s : State) (c : Nat) (h_s : Sound s) : Sound (State.ctrInc s c) := by
  unfold State.ctrInc
  with_reducible repeat' first | assumption | apply sound_ite | apply sound_askInc

theorem sound_writeEmuCmd (s : State) (v : Word) (h_s : Sound s) : Sound (State.writeEmuCmd s v) := by
  unfold State.writeEmuCmd
  with_reducible repeat' first | assumption | apply sound_ite | apply sound_askSync | apply sound_ctrInc

theorem sound_spoilImage (s : State) (r : SyncRun) (h_s : Sound s) : Sound (State.spoilImage s r) := by
  unfold State.spoilImage
  with_reducible repeat' first | assumption | apply sound_takeFreeWord | apply sound_nvWrite

theorem sound_nextSync (s : State) (h_s : Sound s) : Sound (State.nextSync s) := by
  unfold State.nextSync
  repeat' first
    | with_reducible assumption | with_reducible apply sound_ite | with_reducible apply sound_modE | with_reducible apply sound_beginSync
    | rfl

theorem sound_dropStuck (k : Nat) (s : State) (h_s : Sound s) : Sound (State.dropStuck k s) := by
  induction k generalizing s with
  | zero => exact h_s
  | succ k ih =>
    unfold State.dropStuck
    split
    · exact sound_ite (ih _ (sound_modE h_s _ (by rfl) (by rfl))) h_s
    · exact h_s

theorem sound_endUpdate (s : State) (h_s : Sound s) : Sound (State.endUpdate s) := by
  unfold State.endUpdate
  repeat' first | with_reducible assumption | with_reducible apply sound_modE | with_reducible apply sound_dropStuck | rfl

theorem sound_setUpdate (s : State) (u : CtrUpd) (h_s : Sound s) : Sound (State.setUpdate s u) := by
  unfold State.setUpdate
  repeat' first | with_reducible assumption | with_reducible apply sound_modE | rfl

theorem sound_spoilCell (s : State) (k : Nat) (cell : List Byte) (h_s : Sound s) : Sound (State.spoilCell s k cell) := by
  unfold State.spoilCell
  with_reducible repeat' first | assumption | apply sound_takeFreeWord | apply sound_nvWrite

theorem sound_showCtr (s : State) (c v : Nat) (h_s : Sound s) : Sound (State.showCtr s c v) := by
  unfold State.showCtr
  with_reducible repeat' first | assumption | apply sound_ite | apply sound_setReg | apply sound_markSat

theorem sound_ctrFail (s : State) (c : Nat) (h_s : Sound s) : Sound (State.ctrFail s c) := by
  unfold State.ctrFail
  with_reducible repeat' first | assumption | apply sound_ite | apply sound_post | apply sound_stickBit

theorem sound_runUpdate (s : State) (u : CtrUpd) (ok : Bool) (h_s : Sound s) : Sound (State.runUpdate s u ok) := by
  unfold State.runUpdate
  with_reducible repeat' first
    | assumption | apply sound_ite | apply sound_nvWrite | apply sound_endUpdate | apply sound_setUpdate | apply sound_spoilCell
    | apply sound_showCtr | apply sound_ctrFail

theorem sound_cellTime (s : State) (u : CtrUpd) (h_s : Sound s) : Sound (State.cellTime s u) := by
  unfold State.cellTime
  with_reducible repeat' first | assumption | apply sound_advance | apply sound_takeFreeWord

theorem sound_collapseUpdate (s : State) (h_s : Sound s) : Sound (State.collapseUpdate s) := by
  unfold State.collapseUpdate
  repeat' first
    | with_reducible assumption | with_reducible apply sound_takeFreeWord | with_reducible apply sound_modE
    | with_reducible apply sound_nvWrite | with_reducible apply sound_spoilCell | rfl | split

theorem sound_collapseSync (s : State) (isReset : Bool) (h_s : Sound s) : Sound (State.collapseSync s isReset) := by
  unfold State.collapseSync
  repeat' first
    | with_reducible assumption | with_reducible apply sound_ite | with_reducible apply sound_takeFreeBit
    | with_reducible apply sound_modE | with_reducible apply sound_nvWrite | with_reducible apply sound_spoilImage | rfl | split

theorem sound_retainBench (s : State) (h_s : Sound s) : Sound (State.retainBench s) := by
  unfold State.retainBench
  repeat' first | with_reducible assumption | with_reducible apply sound_modE | rfl

theorem sound_emuDown (s : State) (isReset : Bool) (h_s : Sound s) : Sound (State.emuDown s isReset) := by
  unfold State.emuDown
  have c := sound_retainBench _ (sound_collapseSync _ isReset (sound_collapseUpdate _ h_s))
  exact { canonical := { c.canonical with data := rfl }, bounded := { c.bounded with } }

theorem sound_cellHolds (s : State) (away : Nat) (h_s : Sound s) : Sound (State.cellHolds s away).1 := by
  unfold State.cellHolds
  with_reducible repeat' first | assumption | apply sound_takeFreeBit | split

theorem sound_takeCell (s : State) (away : Nat) (h_s : Sound s) : Sound (State.takeCell s away) := by
  unfold State.takeCell
  repeat' first
    | with_reducible assumption | with_reducible apply sound_takeFreeWord | with_reducible apply sound_modE
    | with_reducible apply sound_cellHolds | rfl | split

theorem sound_runTimer (s : State) (k : Nat) (h_s : Sound s) : Sound (State.runTimer s k) := by
  unfold State.runTimer
  with_reducible repeat' first | assumption | apply sound_setTimer

theorem sound_syncTimer (s : State) (k : Nat) (h_s : Sound s) : Sound (State.syncTimer s k) := by
  unfold State.syncTimer
  with_reducible repeat' first | assumption | apply sound_ite | apply sound_setTimer | apply sound_runTimer

theorem sound_enTimer (s : State) (k : Nat) (on : Bool) (h_s : Sound s) : Sound (State.enTimer s k on) := by
  unfold State.enTimer
  with_reducible repeat' first | assumption | apply sound_setFld | apply sound_syncTimer

theorem sound_writeGroup (s : State) (v : Word) (h_s : Sound s) : Sound (State.writeGroup s v) := by
  unfold State.writeGroup
  with_reducible repeat' first | assumption | apply sound_ite | apply sound_enTimer | apply sound_each | intro _

theorem sound_writeCount (s : State) (k : Nat) (v : Word) (h_s : Sound s) : Sound (State.writeCount s k v) := by
  unfold State.writeCount
  with_reducible repeat' first | assumption | apply sound_ite | apply sound_writeReg

theorem sound_writeTimerStatus (s : State) (k : Nat) (v : Word) (h_s : Sound s) : Sound (State.writeTimerStatus s k v) := by
  unfold State.writeTimerStatus
  repeat' first
    | with_reducible assumption | with_reducible apply sound_ite | with_reducible apply sound_writeReg | rfl | dsimp only
    | with_reducible apply sound_with_obs

theorem sound_writeXtrig (s : State) (k : Nat) (v : Word) (h_s : Sound s) : Sound (State.writeXtrig s k v) := by
  unfold State.writeXtrig
  with_reducible repeat' first | assumption | apply sound_ite | apply sound_setFld | apply sound_writeReg

theorem sound_crossAct (s : State) (k : Nat) (h_s : Sound s) : Sound (State.crossAct s k) := by
  unfold State.crossAct
  with_reducible repeat' first
    | assumption | apply sound_ite | apply sound_setFld | apply sound_modF | apply sound_writeHcmd | apply sound_askMeasure
    | apply sound_roundSyn | apply sound_runTimer | apply sound_enTimer | split | dsimp only | apply sound_with_tun

theorem sound_crossTrigger (s : State) (k : Nat) (h_s : Sound s) : Sound (State.crossTrigger s k) := by
  unfold State.crossTrigger
  with_reducible repeat' first | assumption | apply sound_ite | apply sound_postSec | apply sound_bump | apply sound_crossAct

theorem sound_timerHit (s : State) (k src : Nat) (h_s : Sound s) : Sound (State.timerHit s k src) := by
  unfold State.timerHit
  with_reducible repeat' first | assumption | apply sound_ite | apply sound_postLimited | apply sound_stick

theorem sound_compareHit (s : State) (k src cmp int : Nat) (h_s : Sound s) : Sound (State.compareHit s k src cmp int) := by
  unfold State.compareHit
  with_reducible repeat' first | assumption | apply sound_setReg | apply sound_timerHit

theorem sound_tick (s : State) (k : Nat) (h_s : Sound s) : Sound (State.tick s k) := by
  unfold State.tick
  with_reducible repeat' first
    | assumption | apply sound_ite | apply sound_setReg | apply sound_crossTrigger | apply sound_timerHit | apply sound_compareHit

theorem sound_tickDue (s : State) (k : Nat) (h_s : Sound s) : Sound (State.tickDue s k) := by
  unfold State.tickDue
  with_reducible repeat' first | assumption | apply sound_setTimer | apply sound_advance | apply sound_tick | split

theorem sound_modCapt (s : State) (k : Nat) (f : Capt → Capt) (h_s : Sound s) : Sound (State.modCapt s k f) := by
  unfold State.modCapt
  repeat' first | with_reducible assumption | rfl | intro _ | with_reducible apply sound_with_obs

theorem sound_readCapt (s : State) (k : Nat) (h_s : Sound s) : Sound (State.readCapt s k) := by
  unfold State.readCapt
  with_reducible repeat' first | assumption | apply sound_modCapt

theorem sound_setWall (s : State) (v : Nat) (h_s : Sound s) : Sound (State.setWall s v) := by
  unfold State.setWall
  with_reducible repeat' first
    | assumption | apply sound_setReg | apply sound_setFld | apply sound_postEvent | apply sound_bump | apply sound_invalidate

theorem sound_crcStart (s : State) (c : Nat) (h_s : Sound s) : Sound (State.crcStart s c) := by
  unfold State.crcStart
  with_reducible repeat' first | assumption | apply sound_setChan

theorem sound_crcData (s : State) (c : Nat) (l : List Byte) (h_s : Sound s) : Sound (State.crcData s c l) := by
  unfold State.crcData
  with_reducible repeat' first | assumption | apply sound_setChan

theorem sound_crcRange (s : State) (c : Nat) (bad : Bool) (h_s : Sound s) : Sound (State.crcRange s c bad) := by
  unfold State.crcRange
  with_reducible repeat' first | assumption | apply sound_ite | apply sound_post | apply sound_stick | apply sound_setChan

theorem sound_writeCrcCmd (s : State) (c : Nat) (v : Word) (bad : Bool) (h_s : Sound s) : Sound (State.writeCrcCmd s c v bad) := by
  unfold State.writeCrcCmd
  with_reducible repeat' first | assumption | apply sound_ite | apply sound_refuse | apply sound_crcStart | apply sound_crcRange

theorem sound_writeCrcData (s : State) (c n : Nat) (v : Word) (h_s : Sound s) : Sound (State.writeCrcData s c n v) := by
  unfold State.writeCrcData
  with_reducible repeat' first | assumption | apply sound_ite | apply sound_refuse | apply sound_crcData

theorem sound_takeFreeBytes (n : Nat) (s : State) (h_s : Sound s) : Sound (State.takeFreeBytes n s).1 := by
  induction n generalizing s with
  | zero => exact h_s
  | succ n ih => exact ih _ (sound_takeFreeWord h_s)

theorem sound_bootSpoil (s : State) (op : BootOp) (a : Nat) (h_s : Sound s) : Sound (State.bootSpoil s op a) := by
  unfold State.bootSpoil
  with_reducible repeat' first | assumption | apply sound_takeFreeBytes | apply sound_bootWrite | split

theorem sound_cutBoot (s : State) (h_s : Sound s) : Sound (State.cutBoot s) := by
  unfold State.cutBoot
  with_reducible repeat' first | assumption | apply sound_bootSpoil | split

theorem sound_cutAuth (s : State) (h_s : Sound s) : Sound (State.cutAuth s) := by
  unfold State.cutAuth
  repeat' first
    | with_reducible assumption | with_reducible apply sound_ite | with_reducible apply sound_takeFreeBit | rfl | split | dsimp only
    | with_reducible apply sound_with_cfg

theorem sound_cutCommit (s : State) (h_s : Sound s) : Sound (State.cutCommit s) := by
  unfold State.cutCommit
  with_reducible repeat' first | assumption | apply sound_ite | apply sound_takeFreeBit | split | dsimp only | apply sound_with_kpr

theorem sound_cutLower (s : State) (h_s : Sound s) : Sound (State.cutLower s) := by
  unfold State.cutLower
  with_reducible repeat' first | assumption | apply sound_ite | apply sound_takeFreeBit | apply sound_setCox | split

theorem sound_cutNv (s : State) (h_s : Sound s) : Sound (State.cutNv s) := by
  unfold State.cutNv
  with_reducible repeat' first | assumption | apply sound_cutAuth | apply sound_cutCommit | apply sound_cutLower

theorem sound_afterReset (s : State) (keeps : Bool) (b : Nat) (h_s : Sound s) : Sound (State.afterReset s keeps b) := by
  unfold State.afterReset
  dsimp only
  refine sound_ite (sound_setReg (sound_setReg ?_ _ _) _ _) (sound_setReg ?_ _ _) <;>
  exact
    { canonical := { regs := rfl, sram := rfl, boot := h_s.canonical.boot, data := h_s.canonical.data, nv := h_s.canonical.nv, buf0 := rfl,
                     buf1 := rfl, counters := rfl },
      bounded :=
        { tx := fun n => by
            show ((((Vector.replicate 16 ({ tx := [], rx := [], pushedAt := 0, newWords := 0 } : PortQ))[n]?).getD { tx := [], rx := [], pushedAt := 0, newWords := 0 }).tx).length ≤ 2048
            by_cases hn : n < 16 <;> simp [hn]
          rx := fun n => by
            show ((((Vector.replicate 16 ({ tx := [], rx := [], pushedAt := 0, newWords := 0 } : PortQ))[n]?).getD { tx := [], rx := [], pushedAt := 0, newWords := 0 }).rx).length ≤ 2048
            by_cases hn : n < 16 <;> simp [hn]
          evq := Nat.zero_le _, intake := Nat.zero_le _
          hold := by cases keeps <;> exact Nat.zero_le _
          vault := by
            cases keeps
            · exact Nat.zero_le _
            · exact h_s.bounded.vault } }

theorem sound_restart (s : State) (b : Nat) (h_s : Sound s) : Sound (State.restart s b) := by
  unfold State.restart
  with_reducible repeat' first | assumption | apply sound_emuDown | apply sound_cutBoot | apply sound_cutNv | apply sound_afterReset

theorem sound_writeResetCmd (s : State) (v : Word) (h_s : Sound s) : Sound (State.writeResetCmd s v) := by
  unfold State.writeResetCmd
  with_reducible repeat' first | assumption | apply sound_ite | apply sound_refuse | apply sound_restart

theorem sound_aonLost (s : State) (h_s : Sound s) : Sound (State.aonLost s) := by
  unfold State.aonLost
  with_reducible repeat' first
    | assumption | apply sound_emuDown | apply sound_cutBoot | apply sound_cutNv | apply sound_afterReset | dsimp only
    | apply sound_with_pins


end Sys2Proof.Machine
end

