-- ==== Sys2Proof/Laws/SoundWrites.lean ====
section
/-! SUPPORT. Register writes, host transactions, boot memory, authenticated commands and the start keep `Sound`. -/

namespace Sys2Proof.Machine

theorem sound_traceSync (s : State) (h_s : Sound s) : Sound (State.traceSync s) := by
  unfold State.traceSync
  with_reducible repeat' first | assumption | apply sound_trace

theorem sound_writeTraceCtrl (s : State) (v : Word) (h_s : Sound s) : Sound (State.writeTraceCtrl s v) := by
  unfold State.writeTraceCtrl
  repeat' first
    | with_reducible assumption | with_reducible apply sound_ite | with_reducible apply sound_writeReg
    | with_reducible apply sound_traceSync | with_reducible apply sound_setTrcEq | rfl

theorem sound_writeCntCmd (s : State) (v : Word) (h_s : Sound s) : Sound (State.writeCntCmd s v) := by
  unfold State.writeCntCmd
  dsimp only
  refine sound_setTrc h_s _ ?_
  split
  · rfl
  · split <;> split <;> exact h_s.canonical.counters

theorem sound_readCntLo (s : State) (i : Nat) (h_s : Sound s) : Sound (State.readCntLo s i) := by
  unfold State.readCntLo
  repeat' first | with_reducible assumption | with_reducible apply sound_setTrcEq | rfl

theorem sound_readCntHi (s : State) (i : Nat) (h_s : Sound s) : Sound (State.readCntHi s i) := by
  unfold State.readCntHi
  repeat' first | with_reducible assumption | with_reducible apply sound_setTrcEq | rfl

theorem sound_readCtxLow (s : State) (k : Nat) (isLast : Bool) (h_s : Sound s) : Sound (State.readCtxLow s k isLast) := by
  unfold State.readCtxLow
  with_reducible repeat' first | assumption | dsimp only | apply sound_with_hif

theorem sound_readCtxHigh (s : State) (a : Nat) (h_s : Sound s) : Sound (State.readCtxHigh s a) := by
  unfold State.readCtxHigh
  with_reducible repeat' first | assumption | apply sound_with_hif

theorem sound_setBootBuf (s : State) (ws : List Word) (h_s : Sound s) : Sound (State.setBootBuf s ws) := by
  unfold State.setBootBuf
  with_reducible repeat' first | assumption | apply sound_setReg | apply sound_each | intro _

theorem sound_bootEnd (s : State) (result : Nat) (h_s : Sound s) : Sound (State.bootEnd s result) := by
  unfold State.bootEnd
  with_reducible repeat' first | assumption | apply sound_setFld | apply sound_stick

theorem sound_bootStart (s : State) (op : BootOp) (h_s : Sound s) : Sound (State.bootStart s op) := by
  unfold State.bootStart
  repeat' first
    | with_reducible assumption | with_reducible apply sound_ite | with_reducible apply sound_setFld | with_reducible apply sound_bootEnd
    | rfl | dsimp only | with_reducible apply sound_with_cfg

theorem sound_writeBootCmd (s : State) (v : Word) (h_s : Sound s) : Sound (State.writeBootCmd s v) := by
  unfold State.writeBootCmd
  with_reducible repeat' first | assumption | apply sound_bootStart | split

theorem sound_bootTake (s : State) (a : Nat) (h_s : Sound s) : Sound (State.bootTake s a) := by
  unfold State.bootTake
  with_reducible repeat' first | assumption | apply sound_ite | apply sound_takeFreeBytes | apply sound_setBootBuf

theorem sound_bootProgram (s : State) (a : Nat) (l : List Byte) (h_s : Sound s) : Sound (State.bootProgram s a l).1 := by
  unfold State.bootProgram
  with_reducible repeat' first | assumption | apply sound_bootWrite

theorem sound_writeCopy (s : State) (c gen : Nat) (bodies : List (List Byte)) (h_s : Sound s) : Sound (State.writeCopy s c gen bodies) := by
  unfold State.writeCopy
  with_reducible repeat' first | assumption | apply sound_bootWrite

theorem sound_compactCut (s : State) (h_s : Sound s) : Sound (State.compactCut s) := by
  unfold State.compactCut
  with_reducible repeat' first
    | assumption | apply sound_ite | apply sound_takeFreeWord | apply sound_bootWrite | apply sound_writeCopy

theorem sound_compact (s : State) (h_s : Sound s) : Sound (State.compact s) := by
  unfold State.compact
  with_reducible repeat' first | assumption | apply sound_writeCopy

theorem sound_retirePlace (s : State) (h_s : Sound s) : Sound (State.retirePlace s).1 := by
  unfold State.retirePlace
  with_reducible repeat' first | assumption | apply sound_ite | apply sound_compact

theorem sound_retireFirst (s : State) (k ver counter : Nat) (h_s : Sound s) : Sound (State.retireFirst s k ver counter) := by
  unfold State.retireFirst
  with_reducible repeat' first | assumption | apply sound_bootWrite | apply sound_retirePlace

theorem sound_retire (s : State) (k ver counter : Nat) (good : Bool) (h_s : Sound s) : Sound (State.retire s k ver counter good) := by
  unfold State.retire
  with_reducible repeat' first
    | assumption | apply sound_ite | apply sound_setFld | apply sound_post | apply sound_takeFreeBytes | apply sound_bootWrite
    | apply sound_retirePlace | apply sound_retireFirst

theorem sound_authFail (s : State) (result : Nat) (h_s : Sound s) : Sound (State.authFail s result) := by
  unfold State.authFail
  with_reducible repeat' first | assumption | apply sound_count | apply sound_postSecCount | apply sound_bump | apply sound_authResult

theorem sound_authCheck (s0 : State) (l : List Byte) (h_s0 : Sound s0) : Sound (State.authCheck s0 l) := by
  unfold State.authCheck
  repeat' first
    | with_reducible assumption | with_reducible apply sound_ite | with_reducible apply sound_setFld
    | with_reducible apply sound_authResult | with_reducible apply sound_authFail | rfl | dsimp only | with_reducible apply sound_with_cfg

theorem sound_setCounter (s : State) (n : Nat) (h_s : Sound s) : Sound (State.setCounter s n) := by
  unfold State.setCounter
  repeat' first | with_reducible assumption | with_reducible apply sound_setReg | rfl | with_reducible apply sound_with_cfg

theorem sound_zeroed (s : State) (ok : Bool) (h_s : Sound s) : Sound (State.zeroed s ok) := by
  unfold State.zeroed
  repeat' first
    | with_reducible assumption | with_reducible apply sound_ite | with_reducible apply sound_setFld | with_reducible apply sound_post
    | with_reducible apply sound_takeFreeBit | with_reducible apply sound_setCounter | rfl | split | dsimp only
    | with_reducible apply sound_with_cfg

theorem sound_showKey (s : State) (h_s : Sound s) : Sound (State.showKey s) := by
  unfold State.showKey
  with_reducible repeat' first | assumption | apply sound_setFld | split

theorem sound_nvFail (s : State) (h_s : Sound s) : Sound (State.nvFail s) := by
  unfold State.nvFail
  with_reducible repeat' first | assumption | apply sound_setFld | apply sound_post

theorem sound_setKeys (s : State) (primary backup : KeyCopy) (h_s : Sound s) : Sound (State.setKeys s primary backup) := by
  unfold State.setKeys
  repeat' first | with_reducible assumption | rfl | with_reducible apply sound_with_cfg

theorem sound_writePhaseCtrl (s : State) (v : Word) (h_s : Sound s) : Sound (State.writePhaseCtrl s v) := by
  unfold State.writePhaseCtrl
  with_reducible repeat' first | assumption | apply sound_ite | apply sound_writeReg | apply sound_recover | split

theorem sound_writeTestCtrl (s : State) (v : Word) (h_s : Sound s) : Sound (State.writeTestCtrl s v) := by
  unfold State.writeTestCtrl
  with_reducible repeat' first | assumption | apply sound_ite | apply sound_writeReg | apply sound_parkLists | apply sound_allOff

theorem sound_writeGen (s : State) (a : Nat) (v : Word) (h_s : Sound s) : Sound (State.writeGen s a v) := by
  unfold State.writeGen
  with_reducible repeat' first
    | assumption | apply sound_ite | apply sound_refuse | apply sound_writeReg | apply sound_writePhaseCtrl | apply sound_writeTestCtrl

theorem sound_writePwr (s : State) (a : Nat) (v : Word) (h_s : Sound s) : Sound (State.writePwr s a v) := by
  unfold State.writePwr
  with_reducible repeat' first
    | assumption | apply sound_ite | apply sound_writeReg | apply sound_writePwrCmd | apply sound_writePwrClk | apply sound_writeResetCmd

theorem sound_writeFld (s : State) (a : Nat) (v : Word) (h_s : Sound s) : Sound (State.writeFld s a v) := by
  unfold State.writeFld
  with_reducible repeat' first
    | assumption | apply sound_ite | apply sound_writeReg | apply sound_writeTrim | apply sound_writePA | apply sound_writeFldCtrl
    | apply sound_deriveNeigh | apply sound_writeHuddle | split

theorem sound_writeRxeCmd (s : State) (n : Nat) (v : Word) (h_s : Sound s) : Sound (State.writeRxeCmd s n v) := by
  unfold State.writeRxeCmd
  with_reducible repeat' first | assumption | apply sound_ite | apply sound_clearCounts | apply sound_clearNoise

theorem sound_writeRxe (s : State) (a : Nat) (v : Word) (h_s : Sound s) : Sound (State.writeRxe s a v) := by
  unfold State.writeRxe
  with_reducible repeat' first
    | assumption | apply sound_ite | apply sound_modR | apply sound_writeReg | apply sound_writeRxeCmd | split

theorem sound_writeProCmd (s : State) (n : Nat) (v : Word) (h_s : Sound s) : Sound (State.writeProCmd s n v) := by
  unfold State.writeProCmd
  with_reducible repeat' first | assumption | apply sound_ite | apply sound_flushTx | apply sound_endHold

theorem sound_writePro (s : State) (a : Nat) (v : Word) (h_s : Sound s) : Sound (State.writePro s a v) := by
  unfold State.writePro
  with_reducible repeat' first
    | assumption | apply sound_ite | apply sound_writeReg | apply sound_writeRole | apply sound_writeSessCmd | apply sound_writeProCmd
    | split

theorem sound_writeKpr (s : State) (a : Nat) (v : Word) (h_s : Sound s) : Sound (State.writeKpr s a v) := by
  unfold State.writeKpr
  with_reducible repeat' first | assumption | apply sound_ite | apply sound_writeReg | apply sound_refreshMon

theorem sound_writeSto (s : State) (a : Nat) (v : Word) (h_s : Sound s) : Sound (State.writeSto s a v) := by
  unfold State.writeSto
  with_reducible repeat' first
    | assumption | apply sound_ite | apply sound_refuse | apply sound_setPages | apply sound_writeReg | apply sound_writeBuf
    | apply sound_writeHcmd

theorem sound_writeTmr (s : State) (a : Nat) (v : Word) (h_s : Sound s) : Sound (State.writeTmr s a v) := by
  unfold State.writeTmr
  with_reducible repeat' first
    | assumption | apply sound_ite | apply sound_writeReg | apply sound_syncTimer | apply sound_writeGroup | apply sound_writeCount
    | apply sound_writeTimerStatus | apply sound_writeXtrig | split

theorem sound_writeEvqStatus (s : State) (v : Word) (h_s : Sound s) : Sound (State.writeEvqStatus s v) := by
  unfold State.writeEvqStatus
  dsimp only
  refine sound_setEvq h_s _ ?_ ?_ <;> split <;> split <;> first | exact h_s.bounded.evq | exact h_s.bounded.intake

theorem sound_writeEvqWm (s : State) (v : Word) (h_s : Sound s) : Sound (State.writeEvqWm s v) := by
  unfold State.writeEvqWm
  repeat' first
    | with_reducible assumption | with_reducible apply sound_ite | with_reducible apply sound_writeReg
    | with_reducible apply sound_setEvqEq | rfl

theorem sound_writeWmStatus (s : State) (n : Nat) (v : Word) (h_s : Sound s) : Sound (State.writeWmStatus s n v) := by
  unfold State.writeWmStatus
  with_reducible repeat' first | assumption | apply sound_ite | apply sound_modWm | apply sound_writeReg

theorem sound_writeQue (s : State) (a : Nat) (v : Word) (h_s : Sound s) : Sound (State.writeQue s a v) := by
  unfold State.writeQue
  with_reducible repeat' first
    | assumption | apply sound_ite | apply sound_crossWm | apply sound_flushRx | apply sound_writeReg | apply sound_hostPush
    | apply sound_writeEvqStatus | apply sound_writeEvqWm | apply sound_writeWmStatus | split

theorem sound_writeCrc (s : State) (a : Nat) (v : Word) (h_s : Sound s) : Sound (State.writeCrc s a v) := by
  unfold State.writeCrc
  with_reducible repeat' first
    | assumption | apply sound_ite | apply sound_writeReg | apply sound_writeCrcCmd | apply sound_writeCrcData | split

theorem sound_writeEmu (s : State) (a : Nat) (v : Word) (h_s : Sound s) : Sound (State.writeEmu s a v) := by
  unfold State.writeEmu
  with_reducible repeat' first
    | assumption | apply sound_ite | apply sound_writeReg | apply sound_writeEmuData | apply sound_writeWire | apply sound_writeEmuCtrl
    | apply sound_writeUidLo | apply sound_writeEmuCmd

theorem sound_writeTplCtrl (s : State) (a : Nat) (v : Word) (h_s : Sound s) : Sound (State.writeTplCtrl s a v) := by
  unfold State.writeTplCtrl
  with_reducible repeat' first | assumption | apply sound_ite | apply sound_setFld | apply sound_writeReg

theorem sound_writeTun (s : State) (a : Nat) (v : Word) (h_s : Sound s) : Sound (State.writeTun s a v) := by
  unfold State.writeTun
  with_reducible repeat' first
    | assumption | apply sound_ite | apply sound_writeReg | apply sound_writeTunCmd | apply sound_writeTunCode | apply sound_writeSniff
    | apply sound_writeTplCtrl | split

theorem sound_writePlain (s : State) (a : Nat) (v : Word) (h_s : Sound s) : Sound (State.writePlain s a v) := by
  unfold State.writePlain
  with_reducible repeat' first
    | assumption | apply sound_ite | apply sound_refuse | apply sound_writeReg | apply sound_writeFreeze | apply sound_writeInject
    | apply sound_writeCoxCtrl | apply sound_writeTraceCtrl | apply sound_writeCntCmd | apply sound_writeBootCmd | apply sound_writeGen
    | apply sound_writePwr | apply sound_writeFld | apply sound_writeRxe | apply sound_writePro | apply sound_writeKpr
    | apply sound_writeSto | apply sound_writeTmr | apply sound_writeQue | apply sound_writeCrc | apply sound_writeEmu
    | apply sound_writeTun | split

theorem sound_loadOne (b : Nat) (page : Option Nat) (s : State) (a : Nat) (h_s : Sound s) : Sound (State.loadOne b page s a) := by
  unfold State.loadOne
  with_reducible repeat' first
    | assumption | apply sound_ite | apply sound_setReg | apply sound_clampMark | apply sound_clampCheck | apply sound_writePlain

theorem sound_mendTpl (s : State) (h_s : Sound s) : Sound (State.mendTpl s) := by
  unfold State.mendTpl
  with_reducible repeat' first | assumption | apply sound_ite | apply sound_setReg | apply sound_each | intro _

theorem sound_loadGov (s : State) (b : Nat) (page : Option Nat) (h_s : Sound s) : Sound (State.loadGov s b page) := by
  unfold State.loadGov
  with_reducible repeat' first
    | assumption | apply sound_ite | apply sound_setFld | apply sound_loadOne | apply sound_mendTpl | apply sound_foldl | dsimp only
    | intro _

theorem sound_applySel (s : State) (b : Nat) (page : Option Nat) (h_s : Sound s) : Sound (State.applySel s b page) := by
  unfold State.applySel
  with_reducible repeat' first | assumption | apply sound_ite | apply sound_setFld | apply sound_loadGov

theorem sound_writeSel (s : State) (b : Nat) (page : Option Nat) (v : Word) (h_s : Sound s) : Sound (State.writeSel s b page v) := by
  unfold State.writeSel
  with_reducible repeat' first | assumption | apply sound_ite | apply sound_setFld | apply sound_post | apply sound_applySel

theorem sound_writeExpert (s : State) (b : Nat) (page : Option Nat) (v : Word) (h_s : Sound s) : Sound (State.writeExpert s b page v) := by
  unfold State.writeExpert
  with_reducible repeat' first | assumption | apply sound_ite | apply sound_writeReg | apply sound_applySel

theorem sound_writeWord (s : State) (a : Nat) (v : Word) (h_s : Sound s) : Sound (State.writeWord s a v) := by
  unfold State.writeWord
  with_reducible repeat' first
    | assumption | apply sound_ite | apply sound_sramWrite | apply sound_refuse | apply sound_writePlain | apply sound_writeSel
    | apply sound_writeExpert | split

theorem sound_hifError (s : State) (bit cnt : Field) (code : Nat) (note : Note) (op addr : Nat) (h_s : Sound s) : Sound (State.hifError s
    bit cnt code note op addr) := by
  unfold State.hifError
  with_reducible repeat' first | assumption | apply sound_setReg | apply sound_post | apply sound_stick | apply sound_bump

theorem sound_hostEnded (s : State) (h_s : Sound s) : Sound (State.hostEnded s) := sound_with_pins (sound_count h_s 103) _

theorem sound_badCmd (s : State) (op addr : Nat) (h_s : Sound s) : Sound (State.badCmd s op addr) := by
  unfold State.badCmd
  with_reducible repeat' first | assumption | apply sound_hifError | apply sound_hostEnded

theorem sound_dropWaiting (s : State) (h_s : Sound s) : Sound (State.dropWaiting s) :=
  h_s.of_eq rfl rfl rfl rfl rfl rfl rfl rfl rfl rfl rfl rfl rfl

theorem sound_hostEnding (s : State) (ending : TxEnd) (op addr : Nat) (h_s : Sound s) : Sound (State.hostEnding s ending op addr) := by
  unfold State.hostEnding
  with_reducible repeat' first
    | assumption | apply sound_ite | apply sound_hifError | apply sound_hostEnded | apply sound_dropWaiting | split

theorem sound_noteUnmapped (s : State) (n a : Nat) (h_s : Sound s) : Sound (State.noteUnmapped s n a) := by
  unfold State.noteUnmapped
  with_reducible repeat' first | assumption | apply sound_ite | apply sound_post

theorem sound_hostWrite (s : State) (a : Nat) (v : Word) (h_s : Sound s) : Sound (State.hostWrite s a v) := by
  unfold State.hostWrite
  repeat' first
    | with_reducible assumption | with_reducible apply sound_ite | with_reducible apply sound_writeWord | rfl | split | dsimp only
    | with_reducible apply sound_with_emu

theorem sound_hostWrites (l : List Word) (a : Nat) (s : State) (h_s : Sound s) : Sound (State.hostWrites l a s) := by
  induction l generalizing a s with
  | nil => exact h_s
  | cons v t ih => exact ih _ _ (sound_hostWrite _ _ _ h_s)

theorem sound_readSide (s : State) (a : Nat) (h_s : Sound s) : Sound (State.readSide s a) := by
  unfold State.readSide
  with_reducible repeat' first
    | assumption | apply sound_ite | apply sound_readCapt | apply sound_readCntLo | apply sound_readCntHi | apply sound_readCtxLow
    | apply sound_readCtxHigh

theorem sound_spoiltRead (s : State) (a : Nat) (h_s : Sound s) : Sound (State.spoiltRead s a) := by
  unfold State.spoiltRead
  with_reducible repeat' first | assumption | apply sound_ite | apply sound_retireLine

theorem sound_hostRead (bad : List Bool) (s : State) (a : Nat) (h_s : Sound s) : Sound (State.hostRead bad s a).1 := by
  unfold State.hostRead
  split
  · exact sound_popRx h_s _ _
  · split
    · exact sound_popEvq h_s _ _
    · split
      · exact sound_spoiltRead _ _ h_s
      · exact sound_readSide _ _ h_s

theorem sound_hostReads (k : Nat) (bad : List Bool) (a : Nat) (s : State) (h_s : Sound s) : Sound (State.hostReads k bad a s).1 := by
  induction k generalizing bad a s with
  | zero => exact h_s
  | succ k ih => exact ih _ _ _ (sound_hostRead _ _ _ h_s)

theorem sound_returned (r : State × List Word) (ending : TxEnd) (n : Nat) (h : Sound r.1) : Sound (State.returned r ending n) :=
  sound_setOut _ _ (sound_countBy h _ _)

theorem sound_popsRx (port k : Nat) (bad : List Bool) (s : State) (h_s : Sound s) : Sound (State.popsRx port k bad s).1 := by
  induction k generalizing bad s with
  | zero => exact h_s
  | succ k ih => exact ih _ _ (sound_popRx h_s _ _)

theorem sound_popsEvq (k : Nat) (bad : List Bool) (b : Bool) (s : State) (h_s : Sound s) : Sound (State.popsEvq k bad b s).1 := by
  induction k generalizing bad b s with
  | zero => exact h_s
  | succ k ih =>
    cases b with
    | false => exact ih _ _ _ (sound_evqMove (sound_popEvq h_s _ _))
    | true => exact ih _ _ _ h_s

theorem sound_startPins (s : State) (env : StartEnv) (h_s : Sound s) : Sound (State.startPins s env) := by
  unfold State.startPins
  dsimp only
  have a : Sound (if s.emu.harvest = true then s.emuDown true else s) := sound_ite (sound_emuDown _ _ h_s) h_s
  generalize (if s.emu.harvest = true then s.emuDown true else s) = u at a ⊢
  have b : Sound { u with time := 0, pwr := { PwrSt.reset with awake := .running }, pins := { u.pins with testEn := env.testEn, rstLow := false } } :=
    a.of_eq rfl rfl rfl rfl rfl rfl rfl rfl rfl rfl rfl rfl rfl
  exact sound_setFld (sound_setCox _ _ (sound_setFld (sound_setFld (sound_setFld (sound_setClocks _ _ b) _ _ _) _ _ _) _ _ _)) _ _ _

theorem sound_loadCfg (s : State) (h_s : Sound s) : Sound (State.loadCfg s) := by
  unfold State.loadCfg
  repeat' first
    | with_reducible assumption | with_reducible apply sound_ite | with_reducible apply sound_setReg | with_reducible apply sound_setFld
    | with_reducible apply sound_post | with_reducible apply sound_setCounter | with_reducible apply sound_showKey | rfl | dsimp only
    | with_reducible apply sound_with_cfg

theorem sound_setReason (s : State) (k reason : Nat) (h_s : Sound s) : Sound (State.setReason s k reason) := by
  unfold State.setReason
  with_reducible repeat' first | assumption | apply sound_setFld

theorem sound_trySlots (l : List Nat) (s : State) (h_s : Sound s) : Sound (State.trySlots l s).1 := by
  induction l generalizing s with
  | nil => exact h_s
  | cons k t ih =>
    unfold State.trySlots
    dsimp only
    have a := sound_setReason s k (s.slotRecords k).1 h_s
    split
    · exact a
    · have b := sound_post a 0xE002 .heart (k + 0x100 * (s.slotRecords k).1)
      exact ih _ (sound_ite b (sound_post (sound_setFld b _ _ _) _ _ _))

theorem sound_safeBootIn (s : State) (h_s : Sound s) : Sound (State.safeBootIn s) := by
  unfold State.safeBootIn
  with_reducible repeat' first | assumption | apply sound_setFld | apply sound_post | dsimp only | apply sound_with_gen

theorem sound_takeSlot_ (s : State) (k : Nat) (h_s : Sound s) : Sound (State.takeSlot_ s k) := by
  unfold State.takeSlot_
  with_reducible repeat' first | assumption | apply sound_setReg | apply sound_setFld | apply sound_sramWrite

theorem sound_storeProfile (s : State) (p : Profile) (h_s : Sound s) : Sound (State.storeProfile s p) := by
  unfold State.storeProfile
  with_reducible repeat' first
    | assumption | apply sound_ite | apply sound_setFld | apply sound_loadGov | dsimp only | apply sound_with_profiles

theorem sound_appliedWrite (x : Applied) (p : Nat × Word) (h : Sound x.s) : Sound (Applied.write x p).s := by
  unfold Applied.write
  split
  · exact h
  · exact sound_ite h (sound_writeWord _ _ _ h)

theorem sound_appliedWrites (l : List (Nat × Word)) (x : Applied) (h : Sound x.s) : Sound (l.foldl Applied.write x).s := by
  induction l generalizing x with
  | nil => exact h
  | cons p t ih => exact ih _ (sound_appliedWrite _ _ h)

theorem sound_appliedRecord (x : Applied) (r : ImgRec) (h : Sound x.s) : Sound (Applied.record x r).s := by
  unfold Applied.record
  split
  · exact h
  · split
    · exact sound_appliedWrites _ _ h
    · exact sound_foldl _ (fun t ht a => sound_storeProfile _ _ ht) _ _ h
    · exact h
    · exact sound_setSto h _ (by rfl) (by rfl)
    · exact h

theorem sound_appliedRecords (l : List ImgRec) (x : Applied) (h : Sound x.s) : Sound (l.foldl Applied.record x).s := by
  induction l generalizing x with
  | nil => exact h
  | cons r t ih => exact ih _ (sound_appliedRecord _ _ h)

theorem sound_applyImage (s : State) (l : List ImgRec) (h_s : Sound s) : Sound (State.applyImage s l).1 := by
  unfold State.applyImage
  dsimp only
  have a := sound_appliedRecords l { s := s, refused := 0, first := 0, regulatory := none } h_s
  generalize l.foldl Applied.record { s := s, refused := 0, first := 0, regulatory := none } = x at a ⊢
  exact sound_ite (sound_ite (sound_setFld a _ _ _) (sound_post (sound_setFld a _ _ _) _ _ _)) a

theorem sound_lockInForce (s : State) (l : List Word) (h_s : Sound s) : Sound (State.lockInForce s l) := by
  unfold State.lockInForce
  with_reducible repeat' first
    | assumption | apply sound_ite | apply sound_setFld | apply sound_modF | apply sound_clampCheck | apply sound_retrim
    | apply sound_loadReg | apply sound_each | dsimp only | intro _

theorem sound_sealLock (s : State) (record : Option (List Byte)) (nvOk : Bool) (h_s : Sound s) : Sound (State.sealLock s record nvOk) := by
  unfold State.sealLock
  with_reducible repeat' first | assumption | apply sound_ite | apply sound_post | apply sound_setCox | apply sound_lockInForce | split

theorem clearValid_wf (m : List (Nat × Byte)) (h : Sparse.wf (fun _ => (0 : Byte)) m = true) :
    Sparse.wf (fun _ => 0) (clearValid m) = true ∧ ∀ j, Sparse.above j m → Sparse.above j (clearValid m) := by
  induction m with
  | nil => exact ⟨rfl, fun _ h => h⟩
  | cons x t ih =>
    obtain ⟨a, v⟩ := x
    have w := (Sparse.wf_cons _ a v t).mp h
    have i := ih w.2.2
    unfold clearValid
    split
    · split
      · exact ⟨i.1, fun j hj => i.2 j (Sparse.above_mono _ _ _ (Nat.le_of_lt hj) w.2.1)⟩
      · rename_i hv
        exact ⟨(Sparse.wf_cons _ _ _ _).mpr ⟨hv, i.2 a w.2.1, i.1⟩, fun j hj => hj⟩
    · exact ⟨(Sparse.wf_cons _ _ _ _).mpr ⟨w.1, i.2 a w.2.1, i.1⟩, fun j hj => hj⟩

theorem cellHolds_sto (s : State) (away : Nat) : (s.cellHolds away).1.sto = s.sto := by
  unfold State.cellHolds
  repeat' split
  all_goals rfl

theorem takeCell_sto (s : State) (away : Nat) : (State.takeCell s away).sto = s.sto := by
  unfold State.takeCell
  split
  · exact cellHolds_sto s _
  · rfl

theorem sound_loadBlocks (s : State) (env : StartEnv) (h_s : Sound s) : Sound (State.loadBlocks s env) := by
  unfold State.loadBlocks
  dsimp only
  have key : ∀ t : State, Sound t → Sound { t with sram := clearValid t.sram } := fun t c =>
    { canonical := { c.canonical with sram := (clearValid_wf _ c.canonical.sram).1 }, bounded := { c.bounded with } }
  refine key _ (sound_storeStart _ _ ?_)
  generalize hu : State.setFld (State.each _ _ _) _ _ _ = u
  have b : Sound u := by
    subst hu
    refine sound_setFld (sound_each _ (fun n t ht => sound_recoverCtr _ _ _ ht) 8 _ (sound_setFld ?_ _ _ _)) _ _ _
    refine sound_foldl _ (fun t ht b => ?_) _ _ h_s
    split
    · exact sound_setBank _ _ _ ht
    · exact ht
  refine sound_setSto (sound_takeCell _ _ b) _ ?_ ?_ <;> rw [takeCell_sto]

theorem sound_sendStart (s : State) (n : Nat) (back : Word × Word) (h_s : Sound s) : Sound (State.sendStart s n back) := by
  unfold State.sendStart
  with_reducible repeat' first | assumption | apply sound_ite | apply sound_post | apply sound_stick | dsimp only | apply sound_with_tun

theorem sound_sendCodes (s : State) (back : List (Word × Word)) (h_s : Sound s) : Sound (State.sendCodes s back) := by
  unfold State.sendCodes
  with_reducible repeat' first | assumption | apply sound_sendStart | apply sound_foldl | intro _

theorem sound_meetNeighbours (s : State) (h_s : Sound s) : Sound (State.meetNeighbours s) := by
  unfold State.meetNeighbours
  exact sound_each _ (fun i t ht => sound_each _ (fun j u hu => sound_ite (sound_post (sound_with_field hu _) _ _ _) hu) _ _ ht) _ _ h_s

theorem sound_prepareAerials (s : State) (env : StartEnv) (h_s : Sound s) : Sound (State.prepareAerials s env) := by
  unfold State.prepareAerials
  with_reducible repeat' first
    | assumption | apply sound_setFld | apply sound_modF | apply sound_setColumn | apply sound_deriveNeigh | apply sound_judgeMeasured
    | apply sound_sendCodes | apply sound_meetNeighbours | apply sound_each | dsimp only | intro _ | apply sound_with_field

theorem sound_startAct (limit : Nat) (s : State) (a : StartAct) (h_s : Sound s) : Sound (State.startAct limit s a) := by
  cases a with
  | write a v => exact sound_ite (sound_noteUnmapped _ _ _ (sound_hostWrites _ _ _ (sound_countBy h_s _ _))) h_s
  | tick k => exact sound_ite (sound_tickDue _ _ h_s) h_s

theorem sound_selfTest (s : State) (env : StartEnv) (h_s : Sound s) : Sound (State.selfTest s env) := by
  unfold State.selfTest
  with_reducible repeat' first | assumption | apply sound_setFld

theorem sound_rolesIn (s : State) (h_s : Sound s) : Sound (State.rolesIn s) := by
  unfold State.rolesIn
  with_reducible repeat' first
    | assumption | apply sound_ite | apply sound_setFld | apply sound_modF | apply sound_setSaf | apply sound_each | dsimp only | intro _

theorem sound_startRun (s : State) (env : StartEnv) (h_s : Sound s) : Sound (State.startRun s env) := by
  unfold State.startRun
  exact sound_each _ (fun i t ht => sound_ite (sound_listenTarget _ _ ht) ht) _ _ (sound_toRun _ (sound_setFld (sound_with_field h_s _) _ _ _))

theorem sound_startSlot (s : State) (env : StartEnv) (k : Nat) (l : List ImgRec) (h_s : Sound s) : Sound (State.startSlot s env k l) := by
  unfold State.startSlot
  with_reducible repeat' first
    | assumption | apply sound_ite | apply sound_post | apply sound_advance | apply sound_takeFreeWord | apply sound_trip
    | apply sound_coreSees | apply sound_firstSelfTest | apply sound_enterSafe | apply sound_takeSlot_ | apply sound_applyImage
    | apply sound_sealLock | apply sound_loadBlocks | apply sound_prepareAerials | apply sound_startAct | apply sound_selfTest
    | apply sound_rolesIn | apply sound_startRun | apply sound_foldl | split | dsimp only | intro _

theorem sound_startUp (s : State) (env : StartEnv) (h_s : Sound s) : Sound (State.startUp s env) := by
  unfold State.startUp
  with_reducible repeat' first
    | assumption | apply sound_advance | apply sound_trip | apply sound_coreSees | apply sound_startPins | apply sound_loadCfg
    | apply sound_setReason | apply sound_trySlots | apply sound_safeBootIn | apply sound_lockInForce | apply sound_startSlot | split
    | dsimp only

theorem sound_freeColumns (s : State) (h_s : Sound s) : Sound (State.freeColumns s) := by
  unfold State.freeColumns
  exact sound_deriveNeigh _ (sound_each _ (fun n t ht => sound_ite (sound_setColumn _ _ _ (sound_takeFreeBytes _ _ ht)) ht) _ _ h_s)

theorem sound_freeVectors (s : State) (h_s : Sound s) : Sound (State.freeVectors s) :=
  sound_each _ (fun _ _ ht => sound_ite (sound_measureVec _ _ _ (sound_takeFreeWord ht)) ht) _ _ h_s

theorem sound_freeWeights (s : State) (h_s : Sound s) : Sound (State.freeWeights s) :=
  sound_each _ (fun _ _ ht => sound_ite (sound_modR _ _ _ (sound_takeFreeBytes _ _ ht)) ht) _ _ h_s

theorem sound_warm (s : State) (n steps : Nat) (h_s : Sound s) : Sound (State.warm s n steps) := by
  unfold State.warm
  with_reducible repeat' first | assumption | apply sound_modF

theorem sound_recovered (s0 : State) (h_s0 : Sound s0) : Sound (State.recovered s0) := by
  unfold State.recovered
  with_reducible repeat' first
    | assumption | apply sound_ite | apply sound_setFld | apply sound_advance | apply sound_freeColumns | apply sound_freeVectors
    | apply sound_freeWeights | apply sound_warm | apply sound_each | split | dsimp only | intro _


end Sys2Proof.Machine
end

