-- ==== Sys2Proof/Laws/SoundExec.lean ====
section
/-! SUPPORT. Every command keeps `Sound`: one lemma for each meaning. -/

namespace Sys2Proof.Machine

/-- Whatever next state an outcome has is sound. -/
def SoundOut (o : Out) : Prop := ∀ t, o = .next t → Sound t

theorem soundOut_done {s t : State} (_ : Sound s) (h : Sound t) : SoundOut (done s t) := by
  intro u hu
  cases hu
  exact sound_finish h s

section
variable {s : State} (h : Sound s) {f : State → State} (hf : ∀ s, Sound s → Sound (f s))
include h hf

theorem soundOut_coreAll : SoundOut (s.coreAll f) := soundOut_done h (sound_ite (hf s h) h)
theorem soundOut_core : SoundOut (s.core f) := soundOut_done h (sound_ite (hf s h) h)
theorem soundOut_slow : SoundOut (s.slow f) := soundOut_done h (sound_ite (hf s h) h)
theorem soundOut_mon : SoundOut (s.mon f) := soundOut_done h (sound_ite h (hf s h))
theorem soundOut_host : SoundOut (s.host f) := soundOut_coreAll h (fun s h => sound_ite (hf s h) h)
theorem soundOut_sniffing : SoundOut (s.sniffing f) := soundOut_done h (sound_ite (hf s h) h)
theorem soundOut_tagFrame : SoundOut (s.tagFrame f) := soundOut_done h (sound_ite (hf s h) h)
theorem soundOut_onPlace (p : ProfAt) : SoundOut (s.onPlace p f) := soundOut_coreAll h (fun s h => sound_ite (hf s h) h)

end

theorem sound_execRxPop (port : Port) (bad : Bool) (s : State) (h_s : Sound s) : SoundOut (execRxPop port bad s) := by
  unfold execRxPop
  refine soundOut_coreAll h_s (fun s h_s => ?_)
  with_reducible repeat' first | assumption | apply sound_popRx | apply sound_setOut

theorem sound_execFlushRx (port : Port) (s : State) (h_s : Sound s) : SoundOut (execFlushRx port s) := by
  unfold execFlushRx
  refine soundOut_coreAll h_s (fun s h_s => ?_)
  with_reducible repeat' first | assumption | apply sound_flushRx

theorem sound_execEvqIntakeMove (s : State) (h_s : Sound s) : SoundOut (execEvqIntakeMove s) := by
  unfold execEvqIntakeMove
  refine soundOut_coreAll h_s (fun s h_s => ?_)
  with_reducible repeat' first | assumption | apply sound_evqMove

theorem sound_execEvqPop0 (bad0 bad1 : Bool) (s : State) (h_s : Sound s) : SoundOut (execEvqPop0 bad0 bad1 s) := by
  unfold execEvqPop0
  refine soundOut_coreAll h_s (fun s h_s => ?_)
  with_reducible repeat' first | assumption | apply sound_popEvq | apply sound_setOut

theorem sound_execEvqAgeTick (s : State) (h_s : Sound s) : SoundOut (execEvqAgeTick s) := by
  unfold execEvqAgeTick
  refine soundOut_coreAll h_s (fun s h_s => ?_)
  have key : ∀ (u : State) (f : EvqEntry → EvqEntry) (n : Nat), Sound u →
      Sound (u.setEvq { u.obs.evq with entries := u.obs.evq.entries.map f, promoted := satAdd 65535 u.obs.evq.promoted n }) :=
    fun u f n a => sound_setEvq a _ (by simpa using a.bounded.evq) a.bounded.intake
  exact key _ _ _ (sound_advance h_s _)

theorem sound_execKprCommit (s : State) (h_s : Sound s) : SoundOut (execKprCommit s) := by
  unfold execKprCommit
  refine soundOut_core h_s (fun s h_s => ?_)
  with_reducible repeat' first
    | assumption | apply sound_ite | apply sound_post | apply sound_authRefused | apply sound_authAccepted | split | dsimp only
    | apply sound_with_kpr

theorem sound_execCommitNvDone (ok : Bool) (s : State) (h_s : Sound s) : SoundOut (execCommitNvDone ok s) := by
  unfold execCommitNvDone
  refine soundOut_core h_s (fun s h_s => ?_)
  with_reducible repeat' first
    | assumption | apply sound_ite | apply sound_setFld | apply sound_post | apply sound_authEnd | apply sound_invalidate
    | apply sound_setBank | split | dsimp only | apply sound_with_kpr

theorem clearVerdicts_wf (m : List (Nat × Byte)) (h : Sparse.wf (fun _ => (0 : Byte)) m = true) :
    Sparse.wf (fun _ => 0) (clearVerdicts m) = true ∧ ∀ j, Sparse.above j m → Sparse.above j (clearVerdicts m) := by
  induction m with
  | nil => exact ⟨rfl, fun _ h => h⟩
  | cons x t ih =>
    obtain ⟨a, v⟩ := x
    have w := (Sparse.wf_cons _ a v t).mp h
    have i := ih w.2.2
    unfold clearVerdicts
    split
    · split
      · exact ⟨i.1, fun j hj => i.2 j (Sparse.above_mono _ _ _ (Nat.le_of_lt hj) w.2.1)⟩
      · rename_i hv
        exact ⟨(Sparse.wf_cons _ _ _ _).mpr ⟨hv, i.2 a w.2.1, i.1⟩, fun j hj => hj⟩
    · exact ⟨(Sparse.wf_cons _ _ _ _).mpr ⟨w.1, i.2 a w.2.1, i.1⟩, fun j hj => hj⟩

theorem sound_execInvalidationPassDone (s : State) (h_s : Sound s) : SoundOut (execInvalidationPassDone s) := by
  unfold execInvalidationPassDone
  refine soundOut_core h_s (fun s h_s => ?_)
  split
  · exact h_s
  · have key : ∀ u : State, Sound u → Sound { u with sram := clearVerdicts u.sram, kpr := { u.kpr with pass := none } } := fun u a =>
      { canonical := { a.canonical with sram := (clearVerdicts_wf _ a.canonical.sram).1 }, bounded := { a.bounded with } }
    exact key _ (sound_advance h_s _)

theorem sound_execRecentSweepTick (s : State) (h_s : Sound s) : SoundOut (execRecentSweepTick s) := by
  unfold execRecentSweepTick
  refine soundOut_core h_s (fun s h_s => ?_)
  with_reducible repeat' first
    | assumption | apply sound_ite | apply sound_advance | apply sound_putWay | split | dsimp only | apply sound_with_kpr

theorem sound_execGoPulseEnd (lane : Lane) (s : State) (h_s : Sound s) : SoundOut (execGoPulseEnd lane s) := by
  unfold execGoPulseEnd
  refine soundOut_core h_s (fun s h_s => ?_)
  with_reducible repeat' first | assumption | apply sound_modL | apply sound_advance | split

theorem sound_execAlertPulseEnd (lane : Lane) (s : State) (h_s : Sound s) : SoundOut (execAlertPulseEnd lane s) := by
  unfold execAlertPulseEnd
  refine soundOut_core h_s (fun s h_s => ?_)
  with_reducible repeat' first | assumption | apply sound_modL | apply sound_advance | split

theorem sound_execStoreOpStart (s : State) (h_s : Sound s) : SoundOut (execStoreOpStart s) := by
  unfold execStoreOpStart
  refine soundOut_core h_s (fun s h_s => ?_)
  with_reducible repeat' first | assumption | apply sound_ite | apply sound_pumpSpill | apply sound_beginOp | split | dsimp only

theorem sound_execStoreStatusPoll (die : Fin 16) (s : State) (h_s : Sound s) : SoundOut (execStoreStatusPoll die s) := by
  unfold execStoreStatusPoll
  refine soundOut_core h_s (fun s h_s => ?_)
  with_reducible repeat' first | assumption | apply sound_advance | apply sound_placeItems | split

theorem sound_execStorePageReadDone (die : Fin 16) (status : Byte) (data : List Byte) (hw : HwFault) (s : State) (h_s : Sound s) :
    SoundOut (execStorePageReadDone die status data hw s) := by
  unfold execStorePageReadDone
  refine soundOut_core h_s (fun s h_s => ?_)
  with_reducible repeat' first
    | assumption | apply sound_ite | apply sound_advance | apply sound_shelfDone | apply sound_placeItems | apply sound_writeBuf
    | apply sound_hostEnd | apply sound_headSeen | apply sound_endOp | apply sound_countEcc | apply sound_pollDie | split

theorem sound_execStoreProgramDone (die : Fin 16) (status : Byte) (s : State) (h_s : Sound s) : SoundOut (execStoreProgramDone die status
    s) := by
  unfold execStoreProgramDone
  refine soundOut_core h_s (fun s h_s => ?_)
  repeat' first
    | with_reducible assumption | with_reducible apply sound_ite | with_reducible apply sound_count | with_reducible apply sound_setSto
    | with_reducible apply sound_hostEnd | with_reducible apply sound_endOp | with_reducible apply sound_pollDie
    | with_reducible apply sound_blockFailed | with_reducible apply sound_spillWritten | with_reducible apply sound_spillMoved | rfl
    | split

theorem sound_execStoreEraseDone (die : Fin 16) (status : Byte) (s : State) (h_s : Sound s) : SoundOut (execStoreEraseDone die status s)
    := by
  unfold execStoreEraseDone
  refine soundOut_core h_s (fun s h_s => ?_)
  repeat' first
    | with_reducible assumption | with_reducible apply sound_ite | with_reducible apply sound_count | with_reducible apply sound_setSto
    | with_reducible apply sound_hostEnd | with_reducible apply sound_endOp | with_reducible apply sound_pollDie
    | with_reducible apply sound_blockFailed | with_reducible apply sound_spillMoved | rfl | split

theorem sound_execStoTimeout (die : Fin 16) (s : State) (h_s : Sound s) : SoundOut (execStoTimeout die s) := by
  unfold execStoTimeout
  refine soundOut_core h_s (fun s h_s => ?_)
  with_reducible repeat' first
    | assumption | apply sound_setFld | apply sound_post | apply sound_advance | apply sound_recover | apply sound_resetStore | split
    | dsimp only

theorem sound_execStoreReinitRetry (ok : Bool) (s : State) (h_s : Sound s) : SoundOut (execStoreReinitRetry ok s) := by
  unfold execStoreReinitRetry
  refine soundOut_core h_s (fun s h_s => ?_)
  repeat' first
    | with_reducible assumption | with_reducible apply sound_ite | with_reducible apply sound_postSec | with_reducible apply sound_advance
    | with_reducible apply sound_setSto | with_reducible apply sound_storeUp | rfl

theorem sound_execStoRead (value : Word) (s : State) (h_s : Sound s) : SoundOut (execStoRead value s) := by
  unfold execStoRead
  refine soundOut_core h_s (fun s h_s => ?_)
  with_reducible repeat' first | assumption | apply sound_ite | apply sound_writeHcmd

theorem sound_execStoProgram (value : Word) (s : State) (h_s : Sound s) : SoundOut (execStoProgram value s) := by
  unfold execStoProgram
  refine soundOut_core h_s (fun s h_s => ?_)
  with_reducible repeat' first | assumption | apply sound_ite | apply sound_writeHcmd

theorem sound_execStoErase (value : Word) (s : State) (h_s : Sound s) : SoundOut (execStoErase value s) := by
  unfold execStoErase
  refine soundOut_core h_s (fun s h_s => ?_)
  with_reducible repeat' first | assumption | apply sound_ite | apply sound_writeHcmd

theorem closeWin_sil (s : State) (w : Window) : (s.closeWin w).obs.sil = s.obs.sil := by
  unfold State.closeWin
  split <;> rfl

theorem postLimited_sil (s : State) (c sc : Nat) (k : Note) (f : ArgForm) (a : Word) (n : Nat) :
    (s.postLimited c sc k f a n).obs.sil = s.obs.sil := by
  have rest : ∀ u o p q : State, o.obs.sil = u.obs.sil → p.obs.sil = u.obs.sil → q.obs.sil = u.obs.sil →
      (match findWin u.obs.windows c sc with
        | some w => if s.time < w.ends then o else p
        | none => q).obs.sil = u.obs.sil := by
    intro u o p q ho hp hq
    split
    · split
      · exact ho
      · exact hp
    · exact hq
  unfold State.postLimited
  cases findWin s.obs.windows c sc with
  | none => exact rest s _ _ _ rfl rfl rfl
  | some w =>
    dsimp only
    by_cases hw : w.ends ≤ s.time
    · rw [if_pos hw, ← closeWin_sil s w]
      exact rest _ _ _ _ rfl rfl rfl
    · rw [if_neg hw]
      exact rest s _ _ _ rfl rfl rfl

theorem silDrop_hold (s : State) (k : Note) : (s.silDrop k).obs.sil.hold = s.obs.sil.hold := by
  cases k
  · rfl
  · exact (congrArg SilSt.hold (postLimited_sil _ _ _ _ _ _ _) :)
  · exact (congrArg SilSt.hold (postLimited_sil _ _ _ _ _ _ _) :)

theorem ringPut_hold (s : State) (r : Rec) : (s.ringPut r).obs.sil.hold = s.obs.sil.hold := by
  unfold State.ringPut
  split
  · rfl
  · exact silDrop_hold s _

theorem vaultPut_hold (s : State) (r : Rec) : (s.vaultPut r).obs.sil.hold = s.obs.sil.hold := by
  unfold State.vaultPut
  dsimp only
  split
  · rfl
  · split
    · rfl
    · exact silDrop_hold s _

theorem retireLine_hold (s : State) (l : Nat) : (s.retireLine l).obs.sil.hold = s.obs.sil.hold := by
  have sec : ∀ u : State, (u.postSecCount 0xC001 0 .base).obs.sil.hold = u.obs.sil.hold := fun u =>
    congrArg SilSt.hold (postLimited_sil u _ _ _ _ _ _)
  unfold State.retireLine
  dsimp only
  split
  · split
    · rfl
    · exact sec _
  · split
    · rfl
    · exact sec _

/-- The oldest held record, once it has moved on, leaves room in the holding queue. -/
theorem ringMove_hold (s : State) (r : Rec) (h : s.ringNext = some (r, true)) (hl : s.obs.sil.hold.length ≤ 64) :
    s.ringMove.obs.sil.hold.length < 64 := by
  unfold State.ringNext at h
  dsimp only at h
  split at h
  · cases h
  · rename_i hb
    unfold State.ringMove
    dsimp only
    rw [if_neg (fun c => hb (by rw [c]; rfl))]
    split at h
    · rename_i t e
      rw [e] at hl
      try rw [e]
      simp only [List.length_cons] at hl
      try dsimp only
      split
      · rw [vaultPut_hold]
        show t.length < 64
        omega
      · rw [ringPut_hold]
        show t.length < 64
        omega
    · cases h
    · cases h

theorem sound_execRingWrite (good : Bool) (s : State) (h_s : Sound s) : SoundOut (execRingWrite good s) := by
  unfold execRingWrite
  refine soundOut_coreAll h_s (fun s h_s => ?_)
  have m := sound_ringMove h_s
  split
  · rename_i r held hn
    split
    · rename_i l _
      refine sound_ite m (sound_putBack _ _ _ (sound_spoilLine _ _ (sound_retireLine m _)) ?_)
      rintro rfl
      show (s.ringMove.retireLine l).obs.sil.hold.length < 64
      rw [retireLine_hold]
      exact ringMove_hold s r hn h_s.bounded.hold
    · exact m
  · exact m

theorem sound_execFreezeWrite (value : Word) (s : State) (h_s : Sound s) : SoundOut (execFreezeWrite value s) := by
  unfold execFreezeWrite
  refine soundOut_coreAll h_s (fun s h_s => ?_)
  with_reducible repeat' first | assumption | apply sound_writeFreeze

theorem sound_execSilFreezeExpired (s : State) (h_s : Sound s) : SoundOut (execSilFreezeExpired s) := by
  unfold execSilFreezeExpired
  refine soundOut_coreAll h_s (fun s h_s => ?_)
  repeat' first
    | with_reducible assumption | with_reducible apply sound_setFld | with_reducible apply sound_post | with_reducible apply sound_stick
    | with_reducible apply sound_advance | with_reducible apply sound_setSilEq | rfl | split

theorem sound_execSilClear (s : State) (h_s : Sound s) : SoundOut (execSilClear s) := by
  unfold execSilClear
  refine soundOut_coreAll h_s (fun s h_s => ?_)
  with_reducible repeat' first
    | assumption | apply sound_ite | apply sound_post | apply sound_authEnd | apply sound_authRefused | apply sound_authAccepted
    | apply sound_clearLog | split

theorem sound_execClearPassDone (s : State) (h_s : Sound s) : SoundOut (execClearPassDone s) := by
  unfold execClearPassDone
  refine soundOut_coreAll h_s (fun s h_s => ?_)
  repeat' first | with_reducible assumption | with_reducible apply sound_setSilEq | rfl

theorem sound_execRingInitDone (s : State) (h_s : Sound s) : SoundOut (execRingInitDone s) := by
  unfold execRingInitDone
  refine soundOut_coreAll h_s (fun s h_s => ?_)
  repeat' first | with_reducible assumption | with_reducible apply sound_setSilEq | rfl

theorem sound_execSpillFlushExpiry (s : State) (h_s : Sound s) : SoundOut (execSpillFlushExpiry s) := by
  unfold execSpillFlushExpiry
  refine soundOut_coreAll h_s (fun s h_s => ?_)
  split
  · have key : ∀ u : State, Sound u →
        Sound (u.setSil { u.obs.sil with stages := u.obs.sil.stages.map fun (q : Stage) => { q with handed := true } }) :=
      fun u a => sound_setSilEq a _ rfl rfl
    exact key _ (sound_advance h_s _)
  · exact h_s

theorem sound_execRateWindowEnd (code scope : Nat) (s : State) (h_s : Sound s) : SoundOut (execRateWindowEnd code scope s) := by
  unfold execRateWindowEnd
  refine soundOut_coreAll h_s (fun s h_s => ?_)
  with_reducible repeat' first | assumption | apply sound_ite | apply sound_closeWin | apply sound_advance | split | dsimp only

theorem sound_execFcTrimWrite (value : Word) (s : State) (h_s : Sound s) : SoundOut (execFcTrimWrite value s) := by
  unfold execFcTrimWrite
  refine soundOut_core h_s (fun s h_s => ?_)
  with_reducible repeat' first | assumption | apply sound_writeTrim

theorem sound_execSynthLocked (s : State) (h_s : Sound s) : SoundOut (execSynthLocked s) := by
  unfold execSynthLocked
  refine soundOut_core h_s (fun s h_s => ?_)
  with_reducible repeat' first | assumption | apply sound_ite | apply sound_lockSyn

theorem sound_execSynthLockLost (s : State) (h_s : Sound s) : SoundOut (execSynthLockLost s) := by
  unfold execSynthLockLost
  refine soundOut_core h_s (fun s h_s => ?_)
  with_reducible repeat' first
    | assumption | apply sound_ite | apply sound_setFld | apply sound_post | apply sound_stick | apply sound_recover
    | apply sound_lockPast | split

theorem sound_execSynthIdleStop (s : State) (h_s : Sound s) : SoundOut (execSynthIdleStop s) := by
  unfold execSynthIdleStop
  refine soundOut_core h_s (fun s h_s => ?_)
  with_reducible repeat' first
    | assumption | apply sound_ite | apply sound_setFld | apply sound_advance | dsimp only | apply sound_with_field

theorem sound_execPhaseAmplWrite (port : Port) (isAmpl : Bool) (value : Word) (s : State) (h_s : Sound s) : SoundOut (execPhaseAmplWrite
    port isAmpl value s) := by
  unfold execPhaseAmplWrite
  refine soundOut_core h_s (fun s h_s => ?_)
  with_reducible repeat' first | assumption | apply sound_writePA

theorem sound_execPhaseAmplApply (port : Port) (s : State) (h_s : Sound s) : SoundOut (execPhaseAmplApply port s) := by
  unfold execPhaseAmplApply
  refine soundOut_core h_s (fun s h_s => ?_)
  with_reducible repeat' first
    | assumption | apply sound_ite | apply sound_modF | apply sound_endDeferral | apply sound_defer | apply sound_abortStep
    | apply sound_applyPA

theorem sound_execCompensationUpdate (drivers : List DriverMeas) (s : State) (h_s : Sound s) : SoundOut (execCompensationUpdate drivers s)
    := by
  unfold execCompensationUpdate
  refine soundOut_core h_s (fun s h_s => ?_)
  with_reducible repeat' first
    | assumption | apply sound_advance | apply sound_compensate | apply sound_thermal | apply sound_foldl | split | dsimp only | intro _

theorem sound_execFieldOnRampStart (port : Port) (s : State) (h_s : Sound s) : SoundOut (execFieldOnRampStart port s) := by
  unfold execFieldOnRampStart
  refine soundOut_core h_s (fun s h_s => ?_)
  with_reducible repeat' first | assumption | apply sound_tryOn

theorem sound_execRelayBiasExpiry (port : Port) (s : State) (h_s : Sound s) : SoundOut (execRelayBiasExpiry port s) := by
  unfold execRelayBiasExpiry
  refine soundOut_core h_s (fun s h_s => ?_)
  with_reducible repeat' first | assumption | apply sound_modF | apply sound_advance | split

theorem sound_execFieldOnRampEnd (port : Port) (s : State) (h_s : Sound s) : SoundOut (execFieldOnRampEnd port s) := by
  unfold execFieldOnRampEnd
  refine soundOut_core h_s (fun s h_s => ?_)
  with_reducible repeat' first
    | assumption | apply sound_ite | apply sound_modF | apply sound_modP | apply sound_advance | apply sound_startOff | apply sound_askOff
    | apply sound_tryOffs | apply sound_endListen | split

theorem sound_execGuardExpiry (port : Port) (s : State) (h_s : Sound s) : SoundOut (execGuardExpiry port s) := by
  unfold execGuardExpiry
  refine soundOut_core h_s (fun s h_s => ?_)
  with_reducible repeat' first | assumption | apply sound_modF | apply sound_advance | split

theorem sound_execFieldOffRampEnd (port : Port) (before : RxOpen) (s : State) (h_s : Sound s) : SoundOut (execFieldOffRampEnd port before
    s) := by
  unfold execFieldOffRampEnd
  refine soundOut_core h_s (fun s h_s => ?_)
  with_reducible repeat' first | assumption | apply sound_ite | apply sound_rampedOff | apply sound_memberOff | split | dsimp only

theorem sound_execRelayBiasOffExpiry (port : Port) (s : State) (h_s : Sound s) : SoundOut (execRelayBiasOffExpiry port s) := by
  unfold execRelayBiasOffExpiry
  refine soundOut_core h_s (fun s h_s => ?_)
  with_reducible repeat' first | assumption | apply sound_advance | apply sound_fieldGone | split

theorem sound_execFieldReset (port : Port) (value : Word) (s : State) (h_s : Sound s) : SoundOut (execFieldReset port value s) := by
  unfold execFieldReset
  refine soundOut_core h_s (fun s h_s => ?_)
  with_reducible repeat' first | assumption | apply sound_writeFldCtrl

theorem sound_execResetOffExpiry (port : Port) (s : State) (h_s : Sound s) : SoundOut (execResetOffExpiry port s) := by
  unfold execResetOffExpiry
  refine soundOut_core h_s (fun s h_s => ?_)
  with_reducible repeat' first | assumption | apply sound_modF | apply sound_advance | apply sound_askOn | split

theorem sound_execDutyBinStart (s : State) (h_s : Sound s) : SoundOut (execDutyBinStart s) := by
  unfold execDutyBinStart
  refine soundOut_core h_s (fun s h_s => ?_)
  with_reducible repeat' first
    | assumption | apply sound_ite | apply sound_setFld | apply sound_modF | apply sound_advance | apply sound_cutPort | apply sound_each
    | apply sound_foldl | dsimp only | intro _ | apply sound_with_field

theorem sound_execMatrixRetry (port : Port) (column : List Word) (s : State) (h_s : Sound s) : SoundOut (execMatrixRetry port column s) :=
    by
  unfold execMatrixRetry
  refine soundOut_core h_s (fun s h_s => ?_)
  with_reducible repeat' first
    | assumption | apply sound_ite | apply sound_modF | apply sound_advance | apply sound_startSyn | apply sound_setColumn
    | apply sound_deriveNeigh | apply sound_judgeMeasured | dsimp only | apply sound_with_field

theorem sound_execNeighbourSetChange (port other : Port) (s : State) (h_s : Sound s) : SoundOut (execNeighbourSetChange port other s) := by
  unfold execNeighbourSetChange
  refine soundOut_core h_s (fun s h_s => ?_)
  with_reducible repeat' first | assumption | apply sound_ite | apply sound_post | dsimp only | apply sound_with_field

theorem sound_execFldStarve (side : TxUnit) (s : State) (h_s : Sound s) : SoundOut (execFldStarve side s) := by
  unfold execFldStarve
  refine soundOut_core h_s (fun s h_s => ?_)
  with_reducible repeat' first
    | assumption | apply sound_ite | apply sound_post | apply sound_modF | apply sound_modH | apply sound_advance | split

theorem sound_execWarmupStepStart (port : Port) (stepNo : Fin 6) (s : State) (h_s : Sound s) : SoundOut (execWarmupStepStart port stepNo
    s) := by
  unfold execWarmupStepStart
  refine soundOut_core h_s (fun s h_s => ?_)
  with_reducible repeat' first | assumption | apply sound_ite | apply sound_modF

theorem sound_execWarmupStepDone (port : Port) (column : List Word) (samples : List RxSample) (s : State) (h_s : Sound s) : SoundOut
    (execWarmupStepDone port column samples s) := by
  unfold execWarmupStepDone
  refine soundOut_core h_s (fun s h_s => ?_)
  with_reducible repeat' first
    | assumption | apply sound_ite | apply sound_modF | apply sound_advance | apply sound_adapt | apply sound_setColumn
    | apply sound_deriveNeigh | split

theorem sound_execFldWarmLate (port : Port) (s : State) (h_s : Sound s) : SoundOut (execFldWarmLate port s) := by
  unfold execFldWarmLate
  refine soundOut_core h_s (fun s h_s => ?_)
  with_reducible repeat' first | assumption | apply sound_ite | apply sound_post | apply sound_stickBit

theorem sound_execFrameStart (port : Port) (s : State) (h_s : Sound s) : SoundOut (execFrameStart port s) := by
  unfold execFrameStart
  refine soundOut_core h_s (fun s h_s => ?_)
  with_reducible repeat' first
    | assumption | apply sound_ite | apply sound_pickPlan | apply sound_tryFrame | apply sound_memberFrame | apply sound_needField
    | apply sound_each | split | dsimp only | intro _

theorem sound_execFrameTxEnd (port : Port) (before : RxOpen) (s : State) (h_s : Sound s) : SoundOut (execFrameTxEnd port before s) := by
  unfold execFrameTxEnd
  refine soundOut_core h_s (fun s h_s => ?_)
  with_reducible repeat' first
    | assumption | apply sound_ite | apply sound_count | apply sound_modF | apply sound_modP | apply sound_advance | apply sound_armRx
    | apply sound_askOff | apply sound_applyPA | apply sound_openWindow | apply sound_endExchange | apply sound_pollSent
    | apply sound_beginListen | split

theorem sound_execDutyCutDeadline (port : Port) (rx : RxData) (s : State) (h_s : Sound s) : SoundOut (execDutyCutDeadline port rx s) := by
  unfold execDutyCutDeadline
  refine soundOut_core h_s (fun s h_s => ?_)
  with_reducible repeat' first | assumption | apply sound_ite | apply sound_advance | apply sound_cutExchange

theorem sound_execRoleWrite (port : Port) (value : Word) (s : State) (h_s : Sound s) : SoundOut (execRoleWrite port value s) := by
  unfold execRoleWrite
  refine soundOut_core h_s (fun s h_s => ?_)
  with_reducible repeat' first | assumption | apply sound_writeRole

theorem sound_execRoleChangeApply (port : Port) (s : State) (h_s : Sound s) : SoundOut (execRoleChangeApply port s) := by
  unfold execRoleChangeApply
  refine soundOut_core h_s (fun s h_s => ?_)
  with_reducible repeat' first
    | assumption | apply sound_ite | apply sound_setFld | apply sound_modF | apply sound_modP | apply sound_modT | apply sound_modX
    | apply sound_tryOffs | apply sound_rxIdle | apply sound_endListen | apply sound_syncEmu | apply sound_abandonSearch
    | apply sound_rejudge | apply sound_leaveReader | apply sound_radioFollows

theorem sound_execTransmitChainBiased (port : Port) (s : State) (h_s : Sound s) : SoundOut (execTransmitChainBiased port s) := by
  unfold execTransmitChainBiased
  refine soundOut_core h_s (fun s h_s => ?_)
  with_reducible repeat' first
    | assumption | apply sound_ite | apply sound_modF | apply sound_advance | apply sound_listenTarget | split

theorem sound_execHuddleWrite (port : Port) (value : Word) (s : State) (h_s : Sound s) : SoundOut (execHuddleWrite port value s) := by
  unfold execHuddleWrite
  refine soundOut_core h_s (fun s h_s => ?_)
  with_reducible repeat' first | assumption | apply sound_writeHuddle

theorem sound_execHuddleSlotStart (huddle : Huddle) (s : State) (h_s : Sound s) : SoundOut (execHuddleSlotStart huddle s) := by
  unfold execHuddleSlotStart
  refine soundOut_core h_s (fun s h_s => ?_)
  with_reducible repeat' first
    | assumption | apply sound_ite | apply sound_modH | apply sound_syncHuddles | apply sound_endSlot | apply sound_pickPlan
    | apply sound_lockPast | apply sound_atLead | apply sound_holdSyn | apply sound_leaveCal | apply sound_needField
    | apply sound_commitPart | apply sound_foldl | split | dsimp only | intro _

theorem sound_execPreambleDetected (port : Port) (power length more : Nat) (fofs : BitVec 12) (tofs : Byte) (codes : Byte) (s : State)
    (h_s : Sound s) : SoundOut (execPreambleDetected port power length more fofs tofs codes s) := by
  unfold execPreambleDetected
  refine soundOut_core h_s (fun s h_s => ?_)
  with_reducible repeat' first | assumption | apply sound_ite | apply sound_modR | apply sound_modPoll | apply sound_showAfc

theorem sound_execSofWindowExpiry (port : Port) (s : State) (h_s : Sound s) : SoundOut (execSofWindowExpiry port s) := by
  unfold execSofWindowExpiry
  refine soundOut_core h_s (fun s h_s => ?_)
  with_reducible repeat' first | assumption | apply sound_ite | apply sound_advance | apply sound_rearm | apply sound_falseLock

theorem sound_execSofDetected (port : Port) (sof : List Bool) (sofT : Nat) (fofs : BitVec 12) (tofs : Byte) (codes : Byte) (s : State)
    (h_s : Sound s) : SoundOut (execSofDetected port sof sofT fofs tofs codes s) := by
  unfold execSofDetected
  refine soundOut_core h_s (fun s h_s => ?_)
  with_reducible repeat' first
    | assumption | apply sound_ite | apply sound_modR | apply sound_rearm | apply sound_falseLock | apply sound_modPoll
    | apply sound_showAfc | apply sound_outOfRange

theorem sound_execEnergyStep (port : Port) (recent before : Nat) (rx : RxData) (s : State) (h_s : Sound s) : SoundOut (execEnergyStep port
    recent before rx s) := by
  unfold execEnergyStep
  refine soundOut_core h_s (fun s h_s => ?_)
  with_reducible repeat' first
    | assumption | apply sound_ite | apply sound_post | apply sound_bump | apply sound_rearm | apply sound_deliverOpen | split

theorem sound_execAfcRange (port : Port) (codes : Byte) (rx : RxData) (s : State) (h_s : Sound s) : SoundOut (execAfcRange port codes rx
    s) := by
  unfold execAfcRange
  refine soundOut_core h_s (fun s h_s => ?_)
  with_reducible repeat' first | assumption | apply sound_ite | apply sound_outOfRange

theorem sound_execFrameEnd (port : Port) (ending : RxEnd) (rx : RxData) (hw : HwFault) (s : State) (h_s : Sound s) : SoundOut
    (execFrameEnd port ending rx hw s) := by
  unfold execFrameEnd
  refine soundOut_core h_s (fun s h_s => ?_)
  with_reducible repeat' first
    | assumption | apply sound_ite | apply sound_deliverListen | apply sound_listenOn | apply sound_roundReply | apply sound_deliverClose
    | split

theorem sound_execRxWindowLimit (port : Port) (rx : RxData) (s : State) (h_s : Sound s) : SoundOut (execRxWindowLimit port rx s) := by
  unfold execRxWindowLimit
  refine soundOut_core h_s (fun s h_s => ?_)
  with_reducible repeat' first
    | assumption | apply sound_ite | apply sound_advance | apply sound_endExchange | apply sound_falseLock | apply sound_closeAccord
    | apply sound_roundReply | apply sound_deliverClose | split

theorem sound_execNoiseWindowDone (port : Port) (powers : List Nat) (s : State) (h_s : Sound s) : SoundOut (execNoiseWindowDone port
    powers s) := by
  unfold execNoiseWindowDone
  refine soundOut_core h_s (fun s h_s => ?_)
  with_reducible repeat' first | assumption | apply sound_ite | apply sound_modR | apply sound_advance | apply sound_noiseStats

theorem sound_execClrCounts (port : Port) (s : State) (h_s : Sound s) : SoundOut (execClrCounts port s) := by
  unfold execClrCounts
  refine soundOut_core h_s (fun s h_s => ?_)
  with_reducible repeat' first | assumption | apply sound_clearCounts

theorem sound_execClrNoise (port : Port) (s : State) (h_s : Sound s) : SoundOut (execClrNoise port s) := by
  unfold execClrNoise
  refine soundOut_core h_s (fun s h_s => ?_)
  with_reducible repeat' first | assumption | apply sound_clearNoise

theorem sound_execDescriptorTake (port : Port) (bad : Bool) (s : State) (h_s : Sound s) : SoundOut (execDescriptorTake port bad s) := by
  unfold execDescriptorTake
  refine soundOut_core h_s (fun s h_s => ?_)
  with_reducible repeat' first | assumption | apply sound_ite | apply sound_advance | apply sound_takeDesc

theorem sound_execCompletionPush (port : Port) (s : State) (h_s : Sound s) : SoundOut (execCompletionPush port s) := by
  unfold execCompletionPush
  refine soundOut_core h_s (fun s h_s => ?_)
  with_reducible repeat' first | assumption | apply sound_pushStaged

theorem sound_execTxPush (port : Port) (value : Word) (s : State) (h_s : Sound s) : SoundOut (execTxPush port value s) := by
  unfold execTxPush
  refine soundOut_coreAll h_s (fun s h_s => ?_)
  with_reducible repeat' first | assumption | apply sound_hostPush

theorem sound_execFlushTx (port : Port) (s : State) (h_s : Sound s) : SoundOut (execFlushTx port s) := by
  unfold execFlushTx
  refine soundOut_core h_s (fun s h_s => ?_)
  with_reducible repeat' first | assumption | apply sound_flushTx

theorem sound_execEndHold (port : Port) (s : State) (h_s : Sound s) : SoundOut (execEndHold port s) := by
  unfold execEndHold
  refine soundOut_core h_s (fun s h_s => ?_)
  with_reducible repeat' first | assumption | apply sound_endHold

theorem sound_execProHoldExpired (port : Port) (s : State) (h_s : Sound s) : SoundOut (execProHoldExpired port s) := by
  unfold execProHoldExpired
  refine soundOut_core h_s (fun s h_s => ?_)
  with_reducible repeat' first
    | assumption | apply sound_ite | apply sound_post | apply sound_advance | apply sound_takeDesc | apply sound_endHold | split

theorem sound_execRfcaExpiry (port : Port) (draw : Fin 4) (s : State) (h_s : Sound s) : SoundOut (execRfcaExpiry port draw s) := by
  unfold execRfcaExpiry
  refine soundOut_core h_s (fun s h_s => ?_)
  with_reducible repeat' first | assumption | apply sound_modP | apply sound_advance | apply sound_askOn | split

theorem sound_execExternalFieldChange (port : Port) (level : Nat) (s : State) (h_s : Sound s) : SoundOut (execExternalFieldChange port
    level s) := by
  unfold execExternalFieldChange
  refine soundOut_core h_s (fun s h_s => ?_)
  with_reducible repeat' first
    | assumption | apply sound_ite | apply sound_modP | apply sound_emuLevel | apply sound_extRose | apply sound_extDropped

theorem sound_execResponseRfcaExpiry (port : Port) (s : State) (h_s : Sound s) : SoundOut (execResponseRfcaExpiry port s) := by
  unfold execResponseRfcaExpiry
  refine soundOut_core h_s (fun s h_s => ?_)
  with_reducible repeat' first
    | assumption | apply sound_ite | apply sound_post | apply sound_modP | apply sound_advance | apply sound_askOn | apply sound_rxIdle
    | apply sound_rfcaBusy | split

theorem sound_execArfgExpiry (port : Port) (s : State) (h_s : Sound s) : SoundOut (execArfgExpiry port s) := by
  unfold execArfgExpiry
  refine soundOut_core h_s (fun s h_s => ?_)
  with_reducible repeat' first | assumption | apply sound_ite | apply sound_modP | apply sound_advance | split

theorem sound_execPollEntryStart (port : Port) (hw : HwFault) (s : State) (h_s : Sound s) : SoundOut (execPollEntryStart port hw s) := by
  unfold execPollEntryStart
  refine soundOut_core h_s (fun s h_s => ?_)
  with_reducible repeat' first
    | assumption | apply sound_ite | apply sound_modP | apply sound_askOn | apply sound_sessParity | apply sound_startCheck
    | apply sound_owedJob | apply sound_releaseJob | apply sound_runEntry | split | dsimp only

theorem sound_execPollWaitExpiry (port : Port) (s : State) (h_s : Sound s) : SoundOut (execPollWaitExpiry port s) := by
  unfold execPollWaitExpiry
  refine soundOut_core h_s (fun s h_s => ?_)
  with_reducible repeat' first
    | assumption | apply sound_ite | apply sound_modP | apply sound_advance | apply sound_askOn | apply sound_entryAfter | split

theorem sound_execPresenceCheckDue (sess : SessId) (s : State) (h_s : Sound s) : SoundOut (execPresenceCheckDue sess s) := by
  unfold execPresenceCheckDue
  refine soundOut_core h_s (fun s h_s => ?_)
  with_reducible repeat' first | assumption | apply sound_ite | apply sound_advance | split

theorem sound_execSessClose (value : Word) (s : State) (h_s : Sound s) : SoundOut (execSessClose value s) := by
  unfold execSessClose
  refine soundOut_core h_s (fun s h_s => ?_)
  with_reducible repeat' first | assumption | apply sound_writeSessCmd

theorem sound_execOverflowEntryDue (place : Nat) (s : State) (h_s : Sound s) : SoundOut (execOverflowEntryDue place s) := by
  unfold execOverflowEntryDue
  refine soundOut_core h_s (fun s h_s => ?_)
  with_reducible repeat' first | assumption | apply sound_ite | apply sound_advance | apply sound_beginJob | split

theorem sound_execAccordDetectDeadline (port : Port) (s : State) (h_s : Sound s) : SoundOut (execAccordDetectDeadline port s) := by
  unfold execAccordDetectDeadline
  refine soundOut_core h_s (fun s h_s => ?_)
  with_reducible repeat' first | assumption | apply sound_ite | apply sound_advance | apply sound_closeAccord | split

theorem sound_execAccordOrderPoint (port : Port) (powers : List (List Nat)) (s : State) (h_s : Sound s) : SoundOut (execAccordOrderPoint
    port powers s) := by
  unfold execAccordOrderPoint
  refine soundOut_core h_s (fun s h_s => ?_)
  with_reducible repeat' first | assumption | apply sound_ite | apply sound_advance | apply sound_modPoll | split

theorem sound_execAccordWindowClose (port : Port) (s : State) (h_s : Sound s) : SoundOut (execAccordWindowClose port s) := by
  unfold execAccordWindowClose
  refine soundOut_core h_s (fun s h_s => ?_)
  with_reducible repeat' first | assumption | apply sound_ite | apply sound_closeAccord

theorem sound_execAccordStagesDone (port : Port) (chans : List ChanData) (clip : Bool) (hw : HwFault) (s : State) (h_s : Sound s) :
    SoundOut (execAccordStagesDone port chans clip hw s) := by
  unfold execAccordStagesDone
  refine soundOut_core h_s (fun s h_s => ?_)
  with_reducible repeat' first
    | assumption | apply sound_ite | apply sound_modP | apply sound_modA | apply sound_advance | apply sound_takeFreeWord
    | apply sound_sessParity | apply sound_endExchange | apply sound_noteRx | apply sound_freeNone | apply sound_matchChans
    | apply sound_missChans | apply sound_reportChans | apply sound_afterPoll | split | dsimp only

theorem sound_execQuarantineExpiry (port : Port) (group : Fin 16) (code : Fin 8) (s : State) (h_s : Sound s) : SoundOut
    (execQuarantineExpiry port group code s) := by
  unfold execQuarantineExpiry
  refine soundOut_core h_s (fun s h_s => ?_)
  with_reducible repeat' first | assumption | apply sound_advance | split | dsimp only | apply sound_with_quar

theorem sound_execFieldCeilingFault (port : Port) (seen : FieldSight) (s : State) (h_s : Sound s) : SoundOut (execFieldCeilingFault port
    seen s) := by
  unfold execFieldCeilingFault
  refine soundOut_mon h_s (fun s h_s => ?_)
  with_reducible repeat' first | assumption | apply sound_detect

theorem sound_execFieldOffFault (port : Port) (seen : FieldSight) (s : State) (h_s : Sound s) : SoundOut (execFieldOffFault port seen s)
    := by
  unfold execFieldOffFault
  refine soundOut_mon h_s (fun s h_s => ?_)
  with_reducible repeat' first | assumption | apply sound_advance | apply sound_detect | split

theorem sound_execLaneReadbackFault (lane : Lane) (fb : Bool) (genuine : Bool) (s : State) (h_s : Sound s) : SoundOut
    (execLaneReadbackFault lane fb genuine s) := by
  unfold execLaneReadbackFault
  refine soundOut_mon h_s (fun s h_s => ?_)
  with_reducible repeat' first
    | assumption | apply sound_ite | apply sound_setFldBit | apply sound_advance | apply sound_detect | apply sound_setFb

theorem sound_execClkMonWindow (count : Byte) (genuine : Bool) (s : State) (h_s : Sound s) : SoundOut (execClkMonWindow count genuine s)
    := by
  unfold execClkMonWindow
  refine soundOut_mon h_s (fun s h_s => ?_)
  with_reducible repeat' first
    | assumption | apply sound_ite | apply sound_setReg | apply sound_advance | apply sound_setSaf | apply sound_detect

theorem sound_execHeartbeatToggle (s : State) (h_s : Sound s) : SoundOut (execHeartbeatToggle s) := by
  unfold execHeartbeatToggle
  refine soundOut_core h_s (fun s h_s => ?_)
  with_reducible repeat' first | assumption | apply sound_advance | apply sound_setSaf

theorem sound_execHeartbeatTimeout (genuine : Bool) (s : State) (h_s : Sound s) : SoundOut (execHeartbeatTimeout genuine s) := by
  unfold execHeartbeatTimeout
  refine soundOut_mon h_s (fun s h_s => ?_)
  with_reducible repeat' first | assumption | apply sound_ite | apply sound_advance | apply sound_detect

theorem sound_execMonClkWindow (count : Byte) (genuine : Bool) (s : State) (h_s : Sound s) : SoundOut (execMonClkWindow count genuine s)
    := by
  unfold execMonClkWindow
  refine soundOut_core h_s (fun s h_s => ?_)
  with_reducible repeat' first | assumption | apply sound_ite | apply sound_setFld | apply sound_advance | apply sound_detect

theorem sound_execOvertempFault (genuine : Bool) (s : State) (h_s : Sound s) : SoundOut (execOvertempFault genuine s) := by
  unfold execOvertempFault
  refine soundOut_mon h_s (fun s h_s => ?_)
  with_reducible repeat' first | assumption | apply sound_detect

theorem sound_execStopN (low : Bool) (s : State) (h_s : Sound s) : SoundOut (execStopN low s) := by
  unfold execStopN
  refine soundOut_mon h_s (fun s h_s => ?_)
  with_reducible repeat' first | assumption | apply sound_ite | apply sound_setFld | apply sound_advance | apply sound_trip

theorem sound_execCoreSeesSafeState (rxs : List RxData) (s : State) (h_s : Sound s) : SoundOut (execCoreSeesSafeState rxs s) := by
  unfold execCoreSeesSafeState
  refine soundOut_core h_s (fun s h_s => ?_)
  with_reducible repeat' first | assumption | apply sound_coreSees | split

theorem sound_execSafInject (value : Word) (s : State) (h_s : Sound s) : SoundOut (execSafInject value s) := by
  unfold execSafInject
  refine soundOut_core h_s (fun s h_s => ?_)
  with_reducible repeat' first | assumption | apply sound_writeInject

theorem sound_execSafTestEnter (s : State) (h_s : Sound s) : SoundOut (execSafTestEnter s) := by
  unfold execSafTestEnter
  refine soundOut_core h_s (fun s h_s => ?_)
  with_reducible repeat' first
    | assumption | apply sound_ite | apply sound_authEnd | apply sound_authRefused | apply sound_authAccepted | apply sound_enterTest
    | split

theorem sound_execSleepRequest (s : State) (h_s : Sound s) : SoundOut (execSleepRequest s) := by
  unfold execSleepRequest
  refine soundOut_core h_s (fun s h_s => ?_)
  with_reducible repeat' first | assumption | apply sound_askPower

theorem sound_execSniffRequest (s : State) (h_s : Sound s) : SoundOut (execSniffRequest s) := by
  unfold execSniffRequest
  refine soundOut_core h_s (fun s h_s => ?_)
  with_reducible repeat' first | assumption | apply sound_askPower

theorem sound_execCancelRequest (s : State) (h_s : Sound s) : SoundOut (execCancelRequest s) := by
  unfold execCancelRequest
  refine soundOut_core h_s (fun s h_s => ?_)
  with_reducible repeat' first | assumption | apply sound_cancelPower

theorem sound_execAutoIdleExpiry (s : State) (h_s : Sound s) : SoundOut (execAutoIdleExpiry s) := by
  unfold execAutoIdleExpiry
  refine soundOut_core h_s (fun s h_s => ?_)
  with_reducible repeat' first | assumption | apply sound_ite | apply sound_advance | apply sound_askPower | split

theorem sound_execPwrSleep (s : State) (h_s : Sound s) : SoundOut (execPwrSleep s) := by
  unfold execPwrSleep
  refine soundOut_core h_s (fun s h_s => ?_)
  with_reducible repeat' first
    | assumption | apply sound_ite | apply sound_post | apply sound_handStages | apply sound_fallAsleep | split | dsimp only
    | apply sound_with_pwr

theorem sound_execHostWake (s : State) (h_s : Sound s) : SoundOut (execHostWake s) := by
  unfold execHostWake
  refine soundOut_mon h_s (fun s h_s => ?_)
  have a := sound_with_pins h_s { s.pins with hcsLow := true }
  exact sound_ite (sound_ite (sound_wake _ _ a) a) (sound_with_pwr a _)

theorem sound_execWakeTimerExpiry (s : State) (h_s : Sound s) : SoundOut (execWakeTimerExpiry s) := by
  unfold execWakeTimerExpiry
  refine soundOut_mon h_s (fun s h_s => ?_)
  with_reducible repeat' first | assumption | apply sound_ite | apply sound_advance | apply sound_wake

theorem sound_execPwrVddtxLow (port : Fin 4) (rx : RxData) (s : State) (h_s : Sound s) : SoundOut (execPwrVddtxLow port rx s) := by
  unfold execPwrVddtxLow
  refine soundOut_mon h_s (fun s h_s => ?_)
  with_reducible repeat' first
    | assumption | apply sound_ite | apply sound_post | apply sound_setFldBit | apply sound_stickBit | apply sound_cutExchange
    | apply sound_fieldDrop

theorem sound_execVddtxRestored (port : Fin 4) (s : State) (h_s : Sound s) : SoundOut (execVddtxRestored port s) := by
  unfold execVddtxRestored
  refine soundOut_mon h_s (fun s h_s => ?_)
  with_reducible repeat' first | assumption | apply sound_setFldBit

theorem sound_execSlowXtalSwitch (s : State) (h_s : Sound s) : SoundOut (execSlowXtalSwitch s) := by
  unfold execSlowXtalSwitch
  refine soundOut_slow h_s (fun s h_s => ?_)
  with_reducible repeat' first | assumption | apply sound_ite | apply sound_setFld | apply sound_advance

theorem sound_execPwrSlowFail (s : State) (h_s : Sound s) : SoundOut (execPwrSlowFail s) := by
  unfold execPwrSlowFail
  refine soundOut_slow h_s (fun s h_s => ?_)
  with_reducible repeat' first
    | assumption | apply sound_ite | apply sound_setFld | apply sound_post | apply sound_stick | dsimp only | apply sound_with_pwr

theorem sound_execVectorMeasurement (port : Port) (vec : Word) (s : State) (h_s : Sound s) : SoundOut (execVectorMeasurement port vec s)
    := by
  unfold execVectorMeasurement
  refine soundOut_core h_s (fun s h_s => ?_)
  with_reducible repeat' first | assumption | apply sound_ite | apply sound_modF | apply sound_advance | apply sound_measureVec | split

theorem sound_execCaptureRef (port : Port) (s : State) (h_s : Sound s) : SoundOut (execCaptureRef port s) := by
  unfold execCaptureRef
  refine soundOut_core h_s (fun s h_s => ?_)
  with_reducible repeat' first | assumption | apply sound_captureRef

theorem sound_execRetune (port : Port) (s : State) (h_s : Sound s) : SoundOut (execRetune port s) := by
  unfold execRetune
  refine soundOut_core h_s (fun s h_s => ?_)
  with_reducible repeat' first | assumption | apply sound_retune

theorem sound_execMeasure (port : Port) (s : State) (h_s : Sound s) : SoundOut (execMeasure port s) := by
  unfold execMeasure
  refine soundOut_core h_s (fun s h_s => ?_)
  with_reducible repeat' first | assumption | apply sound_askMeasure

theorem sound_execSearchMeasurement (port : Port) (vec : Word) (s : State) (h_s : Sound s) : SoundOut (execSearchMeasurement port vec s)
    := by
  unfold execSearchMeasurement
  refine soundOut_core h_s (fun s h_s => ?_)
  with_reducible repeat' first
    | assumption | apply sound_ite | apply sound_advance | apply sound_searchOn | apply sound_measureVec | split

theorem sound_execTunerCodeWrite (port : Port) (value : Word) (s : State) (h_s : Sound s) : SoundOut (execTunerCodeWrite port value s) := by
  unfold execTunerCodeWrite
  refine soundOut_core h_s (fun s h_s => ?_)
  with_reducible repeat' first | assumption | apply sound_writeTunCode

theorem sound_execTunerFrameDone (sent : Word) (s : State) (h_s : Sound s) : SoundOut (execTunerFrameDone sent s) := by
  unfold execTunerFrameDone
  refine soundOut_core h_s (fun s h_s => ?_)
  with_reducible repeat' first
    | assumption | apply sound_ite | apply sound_post | apply sound_stick | apply sound_advance | apply sound_kickLink
    | apply sound_linkDone | apply sound_linkNext | split | dsimp only

theorem sound_execTunerSettleExpiry (port : Port) (samples : List RxSample) (s : State) (h_s : Sound s) : SoundOut (execTunerSettleExpiry
    port samples s) := by
  unfold execTunerSettleExpiry
  refine soundOut_core h_s (fun s h_s => ?_)
  with_reducible repeat' first
    | assumption | apply sound_ite | apply sound_modF | apply sound_modT | apply sound_advance | apply sound_adapt | apply sound_tryOffs
    | apply sound_kickLink | split

theorem sound_execSniffRoundStart (s : State) (h_s : Sound s) : SoundOut (execSniffRoundStart s) := by
  unfold execSniffRoundStart
  refine soundOut_sniffing h_s (fun s h_s => ?_)
  with_reducible repeat' first
    | assumption | apply sound_ite | apply sound_advance | apply sound_roundSyn | apply sound_skipPing | apply sound_foldl | dsimp only
    | intro _ | apply sound_with_tun

theorem sound_execSniffPing (port : Port) (vec : Word) (s : State) (h_s : Sound s) : SoundOut (execSniffPing port vec s) := by
  unfold execSniffPing
  refine soundOut_sniffing h_s (fun s h_s => ?_)
  with_reducible repeat' first
    | assumption | apply sound_ite | apply sound_modT | apply sound_roundOver | apply sound_skipPing | apply sound_pinged
    | apply sound_ping | apply sound_sumBase | apply sound_trackBase | apply sound_sniffWake | apply sound_roundReady | split

theorem sound_execSniffConfirmPing (port : Port) (vec : Word) (s : State) (h_s : Sound s) : SoundOut (execSniffConfirmPing port vec s) := by
  unfold execSniffConfirmPing
  refine soundOut_sniffing h_s (fun s h_s => ?_)
  with_reducible repeat' first
    | assumption | apply sound_ite | apply sound_count | apply sound_modT | apply sound_advance | apply sound_roundOver
    | apply sound_skipPing | apply sound_ping | apply sound_sumBase | apply sound_sniffWake | apply sound_roundReady | split

theorem sound_execGrantChange (high : Bool) (s : State) (h_s : Sound s) : SoundOut (execGrantChange high s) := by
  unfold execGrantChange
  refine soundOut_mon h_s (fun s h_s => ?_)
  with_reducible repeat' first | assumption | apply sound_ite | apply sound_setCox | apply sound_seenLater | apply sound_grantMoved

theorem sound_execGrantWaitExpiry (port : Port) (s : State) (h_s : Sound s) : SoundOut (execGrantWaitExpiry port s) := by
  unfold execGrantWaitExpiry
  refine soundOut_core h_s (fun s h_s => ?_)
  with_reducible repeat' first
    | assumption | apply sound_modF | apply sound_advance | apply sound_coxDefer | apply sound_failPlan | split | dsimp only | intro _

theorem sound_execRetryExpiry (port : Port) (s : State) (h_s : Sound s) : SoundOut (execRetryExpiry port s) := by
  unfold execRetryExpiry
  refine soundOut_core h_s (fun s h_s => ?_)
  with_reducible repeat' first | assumption | apply sound_advance | apply sound_attempt | apply sound_unwait | split

theorem sound_execBlankChange (second high : Bool) (s : State) (h_s : Sound s) : SoundOut (execBlankChange second high s) := by
  unfold execBlankChange
  refine soundOut_mon h_s (fun s h_s => ?_)
  with_reducible repeat' first
    | assumption | apply sound_ite | apply sound_tryOffs | apply sound_setCox | apply sound_seenLater | apply sound_markBlanked

theorem sound_execBlankTailExpiry (port : Port) (s : State) (h_s : Sound s) : SoundOut (execBlankTailExpiry port s) := by
  unfold execBlankTailExpiry
  refine soundOut_core h_s (fun s h_s => ?_)
  with_reducible repeat' first | assumption | apply sound_ite | apply sound_advance | apply sound_tryOffs | apply sound_attempt

theorem sound_execCoxBlankStuck (second : Bool) (s : State) (h_s : Sound s) : SoundOut (execCoxBlankStuck second s) := by
  unfold execCoxBlankStuck
  refine soundOut_core h_s (fun s h_s => ?_)
  with_reducible repeat' first
    | assumption | apply sound_ite | apply sound_post | apply sound_advance | apply sound_tryOffs | apply sound_setCox | split
    | dsimp only

theorem sound_execCoxRegLower (s : State) (h_s : Sound s) : SoundOut (execCoxRegLower s) := by
  unfold execCoxRegLower
  refine soundOut_core h_s (fun s h_s => ?_)
  with_reducible repeat' first
    | assumption | apply sound_ite | apply sound_setFld | apply sound_post | apply sound_authEnd | apply sound_authRefused
    | apply sound_authAccepted | apply sound_setCox | split

theorem sound_execRegLowerNvDone (ok : Bool) (s : State) (h_s : Sound s) : SoundOut (execRegLowerNvDone ok s) := by
  unfold execRegLowerNvDone
  refine soundOut_core h_s (fun s h_s => ?_)
  with_reducible repeat' first
    | assumption | apply sound_ite | apply sound_setFld | apply sound_post | apply sound_bump | apply sound_authEnd | apply sound_setCox
    | apply sound_applyLower | split

theorem sound_execEmuReqa (s : State) (h_s : Sound s) : SoundOut (execEmuReqa s) := by
  unfold execEmuReqa
  refine soundOut_tagFrame h_s (fun s h_s => ?_)
  with_reducible repeat' first | assumption | apply sound_ite | apply sound_tagReject | apply sound_tagWake

theorem sound_execEmuWupa (s : State) (h_s : Sound s) : SoundOut (execEmuWupa s) := by
  unfold execEmuWupa
  refine soundOut_tagFrame h_s (fun s h_s => ?_)
  with_reducible repeat' first | assumption | apply sound_ite | apply sound_tagReject | apply sound_tagWake

theorem sound_execEmuSelect (frame : List Byte) (lastBits : Nat) (s : State) (h_s : Sound s) : SoundOut (execEmuSelect frame lastBits s)
    := by
  unfold execEmuSelect
  refine soundOut_tagFrame h_s (fun s h_s => ?_)
  with_reducible repeat' first | assumption | apply sound_ite | apply sound_tagReject | apply sound_tagSel

theorem sound_execEmuRead (block : Byte) (s : State) (h_s : Sound s) : SoundOut (execEmuRead block s) := by
  unfold execEmuRead
  refine soundOut_tagFrame h_s (fun s h_s => ?_)
  with_reducible repeat' first
    | assumption | apply sound_ite | apply sound_respondNak | apply sound_tagReject | apply sound_sendBusy | apply sound_sendBlock

theorem sound_execReadCtr (index : Byte) (s : State) (h_s : Sound s) : SoundOut (execReadCtr index s) := by
  unfold execReadCtr
  refine soundOut_tagFrame h_s (fun s h_s => ?_)
  with_reducible repeat' first | assumption | apply sound_ite | apply sound_respondCrc | apply sound_respondNak | apply sound_tagReject

theorem sound_execEmuHlta (s : State) (h_s : Sound s) : SoundOut (execEmuHlta s) := by
  unfold execEmuHlta
  refine soundOut_tagFrame h_s (fun s h_s => ?_)
  with_reducible repeat' first | assumption | apply sound_ite | apply sound_leaveActive | apply sound_tagReject

theorem sound_execEmuAccBench (dur : Byte) (s : State) (h_s : Sound s) : SoundOut (execEmuAccBench dur s) := by
  unfold execEmuAccBench
  refine soundOut_tagFrame h_s (fun s h_s => ?_)
  with_reducible repeat' first | assumption | apply sound_ite | apply sound_tagReject | apply sound_benchTag

theorem sound_execEmuAccRelease (s : State) (h_s : Sound s) : SoundOut (execEmuAccRelease s) := by
  unfold execEmuAccRelease
  refine soundOut_tagFrame h_s (fun s h_s => ?_)
  with_reducible repeat' first | assumption | apply sound_ite | apply sound_tagReject

theorem sound_execEmuAccEnrol (s : State) (h_s : Sound s) : SoundOut (execEmuAccEnrol s) := by
  unfold execEmuAccEnrol
  refine soundOut_tagFrame h_s (fun s h_s => ?_)
  with_reducible repeat' first | assumption | apply sound_ite | apply sound_tagReject

theorem sound_execEmuOtherFrame (_frame : List Byte) (_lastBits : Nat) (s : State) (h_s : Sound s) : SoundOut (execEmuOtherFrame _frame
    _lastBits s) := by
  unfold execEmuOtherFrame
  refine soundOut_tagFrame h_s (fun s h_s => ?_)
  with_reducible repeat' first | assumption | apply sound_tagReject

theorem sound_execEmuFieldLossTimeout (s : State) (h_s : Sound s) : SoundOut (execEmuFieldLossTimeout s) := by
  unfold execEmuFieldLossTimeout
  refine soundOut_core h_s (fun s h_s => ?_)
  with_reducible repeat' first | assumption | apply sound_ite | apply sound_advance | apply sound_tagTo | split

theorem sound_execEmuBenchEnd (s : State) (h_s : Sound s) : SoundOut (execEmuBenchEnd s) := by
  unfold execEmuBenchEnd
  refine soundOut_done h_s ?_
  repeat' first
    | with_reducible assumption | with_reducible apply sound_ite | with_reducible apply sound_advance
    | with_reducible apply sound_takeFreeWord | with_reducible apply sound_modE | rfl | split

theorem sound_execEmuDataWrite (index : Fin 256) (value : Word) (s : State) (h_s : Sound s) : SoundOut (execEmuDataWrite index value s) :=
    by
  unfold execEmuDataWrite
  refine soundOut_core h_s (fun s h_s => ?_)
  with_reducible repeat' first | assumption | apply sound_ite | apply sound_writeEmuData

theorem sound_execEmuBusy (s : State) (h_s : Sound s) : SoundOut (execEmuBusy s) := by
  unfold execEmuBusy
  refine soundOut_core h_s (fun s h_s => ?_)
  split
  · have key : ∀ u : State, Sound u → Sound (u.modE fun x => { x with heldWrite := none }) := fun u a => sound_modE a _ rfl rfl
    exact sound_post (sound_stick (key _ (sound_advance h_s _)) _ _) _ _ _
  · exact h_s

theorem sound_execWireLockWrite (value : Word) (s : State) (h_s : Sound s) : SoundOut (execWireLockWrite value s) := by
  unfold execWireLockWrite
  refine soundOut_core h_s (fun s h_s => ?_)
  with_reducible repeat' first | assumption | apply sound_writeWire

theorem sound_execSync (s : State) (h_s : Sound s) : SoundOut (execSync s) := by
  unfold execSync
  refine soundOut_core h_s (fun s h_s => ?_)
  with_reducible repeat' first | assumption | apply sound_writeEmuCmd

theorem sound_execEmuSyncDone (ok : Bool) (s : State) (h_s : Sound s) : SoundOut (execEmuSyncDone ok s) := by
  unfold execEmuSyncDone
  refine soundOut_core h_s (fun s h_s => ?_)
  with_reducible repeat' first
    | assumption | apply sound_ite | apply sound_setFld | apply sound_post | apply sound_stick | apply sound_nvWrite
    | apply sound_spoilImage | apply sound_nextSync | split

theorem sound_execCtrInc (value : Word) (s : State) (h_s : Sound s) : SoundOut (execCtrInc value s) := by
  unfold execCtrInc
  refine soundOut_core h_s (fun s h_s => ?_)
  with_reducible repeat' first | assumption | apply sound_writeEmuCmd

theorem sound_execCounterUpdate (ok : Bool) (s : State) (h_s : Sound s) : SoundOut (execCounterUpdate ok s) := by
  unfold execCounterUpdate
  refine soundOut_done h_s ?_
  with_reducible repeat' first | assumption | apply sound_ite | apply sound_runUpdate | apply sound_cellTime | split

theorem sound_execHarvestPowerUp (away : Nat) (s : State) (h_s : Sound s) : SoundOut (execHarvestPowerUp away s) := by
  unfold execHarvestPowerUp
  refine soundOut_done h_s (sound_ite h_s ?_)
  split
  · refine sound_ite ?_ h_s
    have a := sound_emuStart _ (sound_takeCell _ away (sound_each (State.recoverCtr false) (fun n t ht => sound_recoverCtr _ _ _ ht) 8 s h_s))
    generalize State.emuStart _ = u at a ⊢
    exact sound_modE a _ rfl rfl
  · exact h_s

theorem sound_execHarvestPowerLoss (s : State) (h_s : Sound s) : SoundOut (execHarvestPowerLoss s) := by
  unfold execHarvestPowerLoss
  refine soundOut_done h_s ?_
  with_reducible repeat' first | assumption | apply sound_ite | apply sound_emuDown

theorem sound_execTimerGroup (value : Word) (s : State) (h_s : Sound s) : SoundOut (execTimerGroup value s) := by
  unfold execTimerGroup
  refine soundOut_core h_s (fun s h_s => ?_)
  with_reducible repeat' first | assumption | apply sound_writeGroup

theorem sound_execTimerTick (timer : TimerId) (s : State) (h_s : Sound s) : SoundOut (execTimerTick timer s) := by
  unfold execTimerTick
  refine soundOut_core h_s (fun s h_s => ?_)
  with_reducible repeat' first | assumption | apply sound_tickDue

theorem sound_execCapture (timer : TimerId) (rising : Bool) (s : State) (h_s : Sound s) : SoundOut (execCapture timer rising s) := by
  unfold execCapture
  refine soundOut_core h_s (fun s h_s => ?_)
  with_reducible repeat' first | assumption | apply sound_ite | apply sound_noteSet | apply sound_post | apply sound_modCapt

theorem sound_execCaptRead (timer : TimerId) (s : State) (h_s : Sound s) : SoundOut (execCaptRead timer s) := by
  unfold execCaptRead
  refine soundOut_core h_s (fun s h_s => ?_)
  with_reducible repeat' first | assumption | apply sound_setOut | apply sound_readCapt

theorem sound_execWallSet (s : State) (h_s : Sound s) : SoundOut (execWallSet s) := by
  unfold execWallSet
  refine soundOut_core h_s (fun s h_s => ?_)
  with_reducible repeat' first
    | assumption | apply sound_ite | apply sound_post | apply sound_authEnd | apply sound_authRefused | apply sound_authAccepted
    | apply sound_setWall | split

theorem sound_execSlowRateMeasurement (cycles : Nat) (s : State) (h_s : Sound s) : SoundOut (execSlowRateMeasurement cycles s) := by
  unfold execSlowRateMeasurement
  refine soundOut_core h_s (fun s h_s => ?_)
  with_reducible repeat' first | assumption | apply sound_ite | apply sound_setFld | apply sound_post

theorem sound_execStart (chan : Chan) (s : State) (h_s : Sound s) : SoundOut (execStart chan s) := by
  unfold execStart
  refine soundOut_core h_s (fun s h_s => ?_)
  with_reducible repeat' first | assumption | apply sound_writeCrcCmd

theorem sound_execData8 (chan : Chan) (value : Word) (s : State) (h_s : Sound s) : SoundOut (execData8 chan value s) := by
  unfold execData8
  refine soundOut_core h_s (fun s h_s => ?_)
  with_reducible repeat' first | assumption | apply sound_writeCrcData

theorem sound_execData16 (chan : Chan) (value : Word) (s : State) (h_s : Sound s) : SoundOut (execData16 chan value s) := by
  unfold execData16
  refine soundOut_core h_s (fun s h_s => ?_)
  with_reducible repeat' first | assumption | apply sound_writeCrcData

theorem sound_execData32 (chan : Chan) (value : Word) (s : State) (h_s : Sound s) : SoundOut (execData32 chan value s) := by
  unfold execData32
  refine soundOut_core h_s (fun s h_s => ?_)
  with_reducible repeat' first | assumption | apply sound_writeCrcData

theorem sound_execRangeGo (chan : Chan) (bad : Bool) (s : State) (h_s : Sound s) : SoundOut (execRangeGo chan bad s) := by
  unfold execRangeGo
  refine soundOut_core h_s (fun s h_s => ?_)
  with_reducible repeat' first | assumption | apply sound_writeCrcCmd

theorem sound_execCrcRangeDone (chan : Chan) (s : State) (h_s : Sound s) : SoundOut (execCrcRangeDone chan s) := by
  unfold execCrcRangeDone
  refine soundOut_core h_s (fun s h_s => ?_)
  with_reducible repeat' first | assumption | apply sound_setChan | apply sound_advance | apply sound_crcData | split

theorem sound_execPowerOnReset (s : State) (h_s : Sound s) : SoundOut (execPowerOnReset s) := by
  unfold execPowerOnReset
  have a := sound_cutNv _ (sound_cutBoot _ h_s)
  have e := sound_emuDown _ true a
  have d := sound_modE e (fun x => { x with dark := true }) rfl rfl
  exact soundOut_done h_s (sound_with_pins (sound_afterReset _ false 0 (sound_ite (c := s.emu.harvest = true) a d)) _)

theorem sound_execPinReset (ns : Nat) (s : State) (h_s : Sound s) : SoundOut (execPinReset ns s) := by
  unfold execPinReset
  refine soundOut_done h_s ?_
  with_reducible repeat' first | assumption | apply sound_ite | apply sound_takeFreeBit | apply sound_restart

theorem sound_execCoreBrownOut (ns : Nat) (s : State) (h_s : Sound s) : SoundOut (execCoreBrownOut ns s) := by
  unfold execCoreBrownOut
  refine soundOut_done h_s ?_
  with_reducible repeat' first | assumption | apply sound_ite | apply sound_restart

theorem sound_execResetCmd (value : Word) (s : State) (h_s : Sound s) : SoundOut (execResetCmd value s) := by
  unfold execResetCmd
  refine soundOut_coreAll h_s (fun s h_s => ?_)
  with_reducible repeat' first | assumption | apply sound_writeResetCmd

theorem sound_execVddAonLoss (s : State) (h_s : Sound s) : SoundOut (execVddAonLoss s) := soundOut_done h_s (sound_aonLost _ h_s)

theorem sound_execTraceCtrlWrite (value : Word) (s : State) (h_s : Sound s) : SoundOut (execTraceCtrlWrite value s) := by
  unfold execTraceCtrlWrite
  refine soundOut_coreAll h_s (fun s h_s => ?_)
  with_reducible repeat' first | assumption | apply sound_writeTraceCtrl

theorem sound_execTraceSyncTimer (s : State) (h_s : Sound s) : SoundOut (execTraceSyncTimer s) := by
  unfold execTraceSyncTimer
  refine soundOut_coreAll h_s (fun s h_s => ?_)
  repeat' first
    | with_reducible assumption | with_reducible apply sound_advance | with_reducible apply sound_traceSync
    | with_reducible apply sound_setTrcEq | rfl | split

theorem sound_execTraceLevelTimer (s : State) (h_s : Sound s) : SoundOut (execTraceLevelTimer s) := by
  unfold execTraceLevelTimer
  refine soundOut_coreAll h_s (fun s h_s => ?_)
  repeat' first
    | with_reducible assumption | with_reducible apply sound_trace | with_reducible apply sound_advance | with_reducible apply sound_foldl
    | with_reducible apply sound_setTrcEq | rfl | split | dsimp only | intro _

theorem sound_execSnap (s : State) (h_s : Sound s) : SoundOut (execSnap s) := by
  unfold execSnap
  refine soundOut_coreAll h_s (fun s h_s => ?_)
  with_reducible repeat' first | assumption | apply sound_writeCntCmd

theorem sound_execRelease (s : State) (h_s : Sound s) : SoundOut (execRelease s) := by
  unfold execRelease
  refine soundOut_coreAll h_s (fun s h_s => ?_)
  with_reducible repeat' first | assumption | apply sound_writeCntCmd

theorem sound_execClear (s : State) (h_s : Sound s) : SoundOut (execClear s) := by
  unfold execClear
  refine soundOut_coreAll h_s (fun s h_s => ?_)
  with_reducible repeat' first | assumption | apply sound_writeCntCmd

theorem sound_execCntLoRead (index : Fin 128) (s : State) (h_s : Sound s) : SoundOut (execCntLoRead index s) := by
  unfold execCntLoRead
  refine soundOut_coreAll h_s (fun s h_s => ?_)
  with_reducible repeat' first | assumption | apply sound_setOut | apply sound_readCntLo

theorem sound_execCtxLowRead (sess : SessId) (last : Bool) (s : State) (h_s : Sound s) : SoundOut (execCtxLowRead sess last s) := by
  unfold execCtxLowRead
  refine soundOut_coreAll h_s (fun s h_s => ?_)
  with_reducible repeat' first | assumption | apply sound_setOut | apply sound_readCtxLow

theorem sound_execBootRead (s : State) (h_s : Sound s) : SoundOut (execBootRead s) := by
  unfold execBootRead
  refine soundOut_coreAll h_s (fun s h_s => ?_)
  with_reducible repeat' first | assumption | apply sound_writeBootCmd

theorem sound_execBootProgram (s : State) (h_s : Sound s) : SoundOut (execBootProgram s) := by
  unfold execBootProgram
  refine soundOut_coreAll h_s (fun s h_s => ?_)
  with_reducible repeat' first | assumption | apply sound_writeBootCmd

theorem sound_execBootErase (s : State) (h_s : Sound s) : SoundOut (execBootErase s) := by
  unfold execBootErase
  refine soundOut_coreAll h_s (fun s h_s => ?_)
  with_reducible repeat' first | assumption | apply sound_writeBootCmd

theorem sound_execBootOpDone (us : Nat) (bad : Bool) (s : State) (h_s : Sound s) : SoundOut (execBootOpDone us bad s) := by
  unfold execBootOpDone
  refine soundOut_coreAll h_s (fun s h_s => ?_)
  repeat' first
    | with_reducible assumption | with_reducible apply sound_ite | with_reducible apply sound_setFld
    | with_reducible apply sound_bootWrite | with_reducible apply sound_bootSpoil | with_reducible apply sound_bootEnd
    | with_reducible apply sound_bootTake | with_reducible apply sound_bootProgram | rfl | split | dsimp only
    | with_reducible apply sound_with_cfg

theorem sound_execAuthCounterNvDone (ok : Bool) (s : State) (h_s : Sound s) : SoundOut (execAuthCounterNvDone ok s) := by
  unfold execAuthCounterNvDone
  refine soundOut_core h_s (fun s h_s => ?_)
  repeat' first
    | with_reducible assumption | with_reducible apply sound_ite | with_reducible apply sound_post
    | with_reducible apply sound_takeFreeBit | with_reducible apply sound_authResult | with_reducible apply sound_authEnd
    | with_reducible apply sound_setCounter | with_reducible apply sound_zeroed | rfl | split | dsimp only
    | with_reducible apply sound_with_cfg

theorem sound_execCfgRollback (s : State) (h_s : Sound s) : SoundOut (execCfgRollback s) := by
  unfold execCfgRollback
  refine soundOut_core h_s (fun s h_s => ?_)
  repeat' first
    | with_reducible assumption | with_reducible apply sound_ite | with_reducible apply sound_authRefused | rfl | split | dsimp only
    | with_reducible apply sound_with_cfg

theorem sound_execRollbackCheckDone (fate : RetireEnd) (s : State) (h_s : Sound s) : SoundOut (execRollbackCheckDone fate s) := by
  unfold execRollbackCheckDone
  refine soundOut_core h_s (fun s h_s => ?_)
  repeat' first
    | with_reducible assumption | with_reducible apply sound_ite | with_reducible apply sound_authEnd
    | with_reducible apply sound_authRefused | with_reducible apply sound_authAccepted | with_reducible apply sound_restart
    | with_reducible apply sound_aonLost | with_reducible apply sound_compactCut | with_reducible apply sound_retireFirst
    | with_reducible apply sound_retire | rfl | split | dsimp only | with_reducible apply sound_with_cfg

theorem sound_execCfgKeyRotate (backupOk : Bool) (primaryOk : Bool) (s : State) (h_s : Sound s) : SoundOut (execCfgKeyRotate backupOk
    primaryOk s) := by
  unfold execCfgKeyRotate
  refine soundOut_core h_s (fun s h_s => ?_)
  repeat' first
    | with_reducible assumption | with_reducible apply sound_ite | with_reducible apply sound_post | with_reducible apply sound_authEnd
    | with_reducible apply sound_authRefused | with_reducible apply sound_authAccepted | with_reducible apply sound_setCounter
    | with_reducible apply sound_showKey | with_reducible apply sound_nvFail | with_reducible apply sound_setKeys | rfl | split
    | dsimp only | with_reducible apply sound_with_cfg

theorem sound_execPhaseReqRecovery (rlimit : BitVec 8) (s : State) (h_s : Sound s) : SoundOut (execPhaseReqRecovery rlimit s) := by
  unfold execPhaseReqRecovery
  refine soundOut_coreAll h_s (fun s h_s => ?_)
  with_reducible repeat' first | assumption | apply sound_writePhaseCtrl

theorem sound_execPhaseReqRun (rlimit : BitVec 8) (s : State) (h_s : Sound s) : SoundOut (execPhaseReqRun rlimit s) := by
  unfold execPhaseReqRun
  refine soundOut_coreAll h_s (fun s h_s => ?_)
  with_reducible repeat' first | assumption | apply sound_writePhaseCtrl

theorem sound_execLockSet (block : BlockId) (s : State) (h_s : Sound s) : SoundOut (execLockSet block s) := by
  unfold execLockSet
  refine soundOut_coreAll h_s (fun s h_s => ?_)
  with_reducible repeat' first | assumption | apply sound_ite | apply sound_writeReg

theorem sound_execProfileSelect (place : ProfAt) (sel : Byte) (s : State) (h_s : Sound s) : SoundOut (execProfileSelect place sel s) := by
  unfold execProfileSelect
  refine soundOut_onPlace h_s (fun s h_s => ?_) _
  with_reducible repeat' first | assumption | apply sound_writeSel

theorem sound_execProfileApply (place : ProfAt) (s : State) (h_s : Sound s) : SoundOut (execProfileApply place s) := by
  unfold execProfileApply
  refine soundOut_onPlace h_s (fun s h_s => ?_) _
  with_reducible repeat' first | assumption | apply sound_applySel

theorem sound_execExpertWrite (place : ProfAt) (value : Word) (s : State) (h_s : Sound s) : SoundOut (execExpertWrite place value s) := by
  unfold execExpertWrite
  refine soundOut_onPlace h_s (fun s h_s => ?_) _
  with_reducible repeat' first | assumption | apply sound_writeExpert

theorem sound_execWrite (quad : Bool) (addr : BitVec 24) (data : List Word) (ending : TxEnd) (same : Bool) (s : State) (h_s : Sound s) :
    SoundOut (execWrite quad addr data ending same s) := by
  unfold execWrite
  refine soundOut_host h_s (fun s h_s => ?_)
  with_reducible repeat' first
    | assumption | apply sound_countBy | apply sound_hostEnding | apply sound_noteUnmapped | apply sound_hostWrites

theorem sound_execRead (quad : Bool) (addr : BitVec 24) (words : Nat) (ending : TxEnd) (bad : List Bool) (s : State) (h_s : Sound s) :
    SoundOut (execRead quad addr words ending bad s) := by
  unfold execRead
  refine soundOut_host h_s (fun s h_s => ?_)
  with_reducible repeat' first
    | assumption | apply sound_hostEnding | apply sound_noteUnmapped | apply sound_hostReads | apply sound_returned

theorem sound_execReadStatus (quad : Bool) (words : Nat) (ending : TxEnd) (s : State) (h_s : Sound s) : SoundOut (execReadStatus quad
    words ending s) := by
  unfold execReadStatus
  refine soundOut_host h_s (fun s h_s => ?_)
  with_reducible repeat' first | assumption | apply sound_countBy | apply sound_setOut | apply sound_hostEnding

theorem sound_execFramePush (quad : Bool) (addr : BitVec 24) (data : List Word) (ending : TxEnd) (s : State) (h_s : Sound s) : SoundOut
    (execFramePush quad addr data ending s) := by
  unfold execFramePush
  refine soundOut_host h_s (fun s h_s => ?_)
  with_reducible repeat' first
    | assumption | apply sound_ite | apply sound_countBy | apply sound_hostPush | apply sound_badCmd | apply sound_hostEnding

theorem sound_execFramePop (quad : Bool) (addr : BitVec 24) (words : Nat) (ending : TxEnd) (bad : List Bool) (s : State) (h_s : Sound s) :
    SoundOut (execFramePop quad addr words ending bad s) := by
  unfold execFramePop
  refine soundOut_host h_s (fun s h_s => ?_)
  with_reducible repeat' first
    | assumption | apply sound_ite | apply sound_badCmd | apply sound_hostEnding | apply sound_returned | apply sound_popsRx

theorem sound_execEventPop (quad : Bool) (addr : BitVec 24) (words : Nat) (ending : TxEnd) (bad : List Bool) (s : State) (h_s : Sound s) :
    SoundOut (execEventPop quad addr words ending bad s) := by
  unfold execEventPop
  refine soundOut_host h_s (fun s h_s => ?_)
  with_reducible repeat' first
    | assumption | apply sound_ite | apply sound_badCmd | apply sound_hostEnding | apply sound_returned | apply sound_popsEvq

theorem sound_execAuth (quad : Bool) (addr : BitVec 24) (data : List Word) (ending : TxEnd) (s : State) (h_s : Sound s) : SoundOut
    (execAuth quad addr data ending s) := by
  unfold execAuth
  refine soundOut_host h_s (fun s h_s => ?_)
  with_reducible repeat' first
    | assumption | apply sound_ite | apply sound_countBy | apply sound_authCheck | apply sound_badCmd | apply sound_hostEnding

theorem sound_execHifBadcmd (opcode : Byte) (addr : BitVec 24) (s : State) (h_s : Sound s) : SoundOut (execHifBadcmd opcode addr s) := by
  unfold execHifBadcmd
  refine soundOut_host h_s (fun s h_s => ?_)
  with_reducible repeat' first | assumption | apply sound_ite | apply sound_badCmd | apply sound_with_pins

theorem sound_execHifStall (opcode : Byte) (addr : BitVec 24) (s : State) (h_s : Sound s) : SoundOut (execHifStall opcode addr s) := by
  unfold execHifStall
  refine soundOut_coreAll h_s (fun s h_s => ?_)
  with_reducible repeat' first
    | assumption | apply sound_advance | apply sound_hifError | apply sound_hostEnded | apply sound_dropWaiting | split

theorem sound_execHirqReedgeEnd (s : State) (h_s : Sound s) : SoundOut (execHirqReedgeEnd s) := by
  unfold execHirqReedgeEnd
  refine soundOut_coreAll h_s (fun s h_s => ?_)
  repeat' first
    | with_reducible assumption | with_reducible apply sound_advance | rfl | split | dsimp only | with_reducible apply sound_with_obs

theorem sound_execResetRelease (env : StartEnv) (s : State) (h_s : Sound s) : SoundOut (execResetRelease env s) := by
  unfold execResetRelease
  refine soundOut_done h_s ?_
  with_reducible repeat' first | assumption | apply sound_ite | apply sound_startUp | apply sound_with_pins

theorem sound_execRecoveryComplete (s : State) (h_s : Sound s) : SoundOut (execRecoveryComplete s) := by
  unfold execRecoveryComplete
  refine soundOut_core h_s (fun s h_s => ?_)
  with_reducible repeat' first | assumption | apply sound_ite | apply sound_toRun | apply sound_recovered

theorem sound_execRlimitExpiry (s : State) (h_s : Sound s) : SoundOut (execRlimitExpiry s) := by
  unfold execRlimitExpiry
  refine soundOut_core h_s (fun s h_s => ?_)
  with_reducible repeat' first | assumption | apply sound_ite | apply sound_advance | apply sound_enterSafe | split


end Sys2Proof.Machine
end

