-- ==== Sys2Proof/Tests/Slice0.lean ====
section
/-! SUPPORT. Tests of single operations against figures of the manual and of published standards, the refusals of `WellFormed`, and for
each statement with hypotheses a state and operands that meet them. -/

namespace Sys2Proof.Tests

set_option Elab.async false

open Sys2Proof Sys2Proof.Machine

/-! ### Operations -/

/-- The check values of the table of R177: ASCII "123456789". -/
theorem test_crcA : crcA [0x31, 0x32, 0x33, 0x34, 0x35, 0x36, 0x37, 0x38, 0x39] = 0xBF05 := by decide +kernel

/-- The published check value of CRC-32C. -/
theorem test_crc32c : crc32c [0x31, 0x32, 0x33, 0x34, 0x35, 0x36, 0x37, 0x38, 0x39] = 0xE3069283 := by decide +kernel

/-- The block cipher's published vector (FIPS 197, appendix C.1). -/
theorem test_aes : aesEncrypt [0, 1, 2, 3, 4, 5, 6, 7, 8, 9, 10, 11, 12, 13, 14, 15]
    [0x00, 0x11, 0x22, 0x33, 0x44, 0x55, 0x66, 0x77, 0x88, 0x99, 0xAA, 0xBB, 0xCC, 0xDD, 0xEE, 0xFF]
    = [0x69, 0xC4, 0xE0, 0xD8, 0x6A, 0x7B, 0x04, 0x30, 0xD8, 0xCD, 0xB7, 0x80, 0x70, 0xB4, 0xC5, 0x5A] := by decide +kernel

/-- R530: the byte 0xA5 over four lines, high nibble first, `HIO0` first in each list. -/
theorem test_quad_edges :
    lineEdges true 0 [0xA5] = [[some false, some true, some false, some true], [some true, some false, some true, some false]] := by decide

/-- No table word spells a command. -/
theorem test_no_table_word : decodeTableWord 32 0 = none := rfl

/-! ### Well-formed and ill-formed commands -/

/-- A reception of nothing. -/
def noRx : RxData := { bits := [], halves := [], rssi := 0, clip := false }

/-- The chain at a window opening that supplies nothing. -/
def silence : RxOpen := { peak := 0, before := [], adapting := [] }

/-- A START that finds nothing amiss. -/
def startEnv : StartEnv :=
  { testEn := false, stopLow := false, us := 900, matrix := List.replicate 256 0, tuners := [], selfTest := List.replicate 9 true, failure := none,
    storeOk := true, grown := [], vddtx := 15, grantHigh := true, blank0High := false, blank1High := false, nvOk := true,
    away := 0, early := [], acts := [] }

theorem test_wf_start : (Instr.resetRelease startEnv).wf = true := by decide +kernel
theorem test_wf_rx : (Instr.energyStep 0 3 3 noRx).wf = true := by decide
theorem test_ill_rx_long (b : Bool) : (Instr.dutyCutDeadline 0 { noRx with bits := List.replicate 36946 b }).wf = false := by
  simp only [Instr.wf, RxData.wf, List.length_replicate]; rfl
theorem test_ill_rx_halves (h : Nat × Nat) : (Instr.rxWindowLimit 0 { noRx with halves := List.replicate 36946 h }).wf = false := by
  simp only [Instr.wf, RxData.wf, List.length_replicate]; rfl
theorem test_ill_peak : (Instr.frameTxEnd 0 { silence with peak := 2049 }).wf = false := by decide
theorem test_ill_before : (Instr.fieldOffRampEnd 0 { silence with before := List.replicate 56 { x := 0, keyed := [] } }).wf = false := by decide
theorem test_ill_noise_powers : (Instr.noiseWindowDone 0 [300, 300]).wf = false := by decide
theorem test_ill_start_matrix : (Instr.resetRelease { startEnv with matrix := [] }).wf = false := by decide +kernel
theorem test_ill_start_tests : (Instr.resetRelease { startEnv with selfTest := [true] }).wf = false := by decide +kernel
theorem test_ill_start_supplies : (Instr.resetRelease { startEnv with vddtx := 16 }).wf = false := by decide +kernel
theorem test_ill_start_code : (Instr.resetRelease { startEnv with failure := some (0, 0) }).wf = false := by decide +kernel
theorem test_ill_start_high_code : (Instr.resetRelease { startEnv with failure := some (10, 0) }).wf = false := by decide +kernel
theorem test_ill_start_where : (Instr.resetRelease { startEnv with failure := some (1, 16) }).wf = false := by decide +kernel
theorem test_ill_lock : (Instr.lockSet .TRC).wf = false := by decide
theorem test_ill_place_page : (Instr.profileSelect ⟨.CRC, some 0⟩ 0).wf = false := by decide
theorem test_ill_place_block : (Instr.profileApply ⟨.GEN, none⟩).wf = false := by decide
theorem test_ill_expert_place : (Instr.expertWrite ⟨.TRC, none⟩ 1).wf = false := by decide
theorem test_ill_drivers : (Instr.compensationUpdate []).wf = false := by decide
theorem test_ill_retry_column : (Instr.matrixRetry 0 [0]).wf = false := by decide
theorem test_ill_warm_column : (Instr.warmupStepDone 0 [0] []).wf = false := by decide
theorem test_ill_overflow_place : (Instr.overflowEntryDue 32).wf = false := by decide
theorem test_ill_powers : (Instr.accordOrderPoint 0 (List.replicate 9 [])).wf = false := by decide

/-- A code channel that heard nothing. -/
def noChan : ChanData :=
  { code := 0, ending := .none, len := 0, payload := [], check := 0, power := 0, fofs := 0, start := 0, sinr := 0 }

theorem test_wf_chan : (Instr.accordStagesDone 0 [noChan] false .none).wf = true := by decide
theorem test_ill_chan_len : (Instr.accordStagesDone 0 [{ noChan with ending := .done, len := 1 }] false .none).wf = false := by decide
theorem test_ill_chan_twice : (Instr.accordStagesDone 0 [noChan, noChan] false .none).wf = false := by decide
theorem test_ill_chan_count : (Instr.accordStagesDone 0 (List.replicate 9 noChan) false .none).wf = false := by decide
theorem test_ill_page (b : Byte) : (Instr.storePageReadDone 0 0 (List.replicate 4097 b) .none).wf = false := by
  simp only [Instr.wf, List.length_replicate]; rfl
theorem test_ill_select_bits : (Instr.emuSelect [0x93] 8).wf = false := by decide
theorem test_ill_frame_bits : (Instr.emuOtherFrame [] 8).wf = false := by decide
theorem test_ill_safe_rx : (Instr.coreSeesSafeState [{ noRx with bits := List.replicate 36946 false }]).wf = false := by
  simp only [Instr.wf, RxData.wf, List.all_cons, List.length_replicate]; rfl
theorem test_ill_safe_count : (Instr.coreSeesSafeState (List.replicate 17 noRx)).wf = false := by decide

/-! ### States and operands that meet the hypotheses of the statements -/

/-- The device in RUN with CLK_CORE running and nothing in progress. -/
def up : State :=
  { State.reset with pwr := { PwrSt.reset with awake := .running }, gen := { GenSt.reset with phase := .run } }

theorem up_runs : Running up := ⟨rfl, rfl⟩

/-- A host frame of no bytes that expects a reply, its plan, its exchange. -/
def hostFrame : Frame :=
  { tech := 0, rate := 0, rtech := 0, rrate := 0, crcTx := false, crcRx := false, resp := true, anticoll := false, hold := false, len := 0,
    lastBits := 0, tag := 7, win := 1, scale := 0, delay := 0, limit := 0, data := [], purpose := .host }
def hostPlan : Plan := { frame := hostFrame, takenAt := 0, notBefore := 0, synSince := none, synWait := 0, heldSyn := false }
def hostExchange : Exchange := { plan := hostPlan, startAt := 0, txDone := true, earlier := none }

/-- A state with port 2 asked for a role and in it. -/
def inRole (r : Nat) (s : State) : State :=
  (s.setFld (Reg.PRO_P_MODE_STATUS 2) Fld.PRO_P_MODE_STATUS_EFFECTIVE r).setFld (Reg.PRO_P_ROLE 2) Fld.PRO_P_ROLE_ROLE r

/-- Of `IdleStepPassesACycle`: nothing waiting, awake and in reset. -/
theorem witness_idle : (up.pending = [] ∧ up.pwr.awake ≠ .reset) ∧ (State.reset.pending = [] ∧ State.reset.pwr.awake = .reset) := by decide

/-- Of `StepKeepsSound`: the state after reset. -/
theorem witness_sound : Sound State.reset := by
  refine ⟨⟨rfl, rfl, rfl, rfl, rfl, rfl, rfl, rfl⟩, ⟨fun n => ?_, fun n => ?_, by decide, by decide, by decide, by decide⟩⟩ <;>
    by_cases h : n < 16 <;> simp [State.pq, State.reset, h]

/-- Of `StoppedBlocksDoNothing`: in reset CLK_CORE does not run. -/
theorem witness_stopped : (needsCore .kprCommit = true ∧ ¬ Running State.reset) ∧ (needsClock .snap = true ∧ ¬ Clocked State.reset) ∧
    (State.reset.live = false ∧ State.reset.asleep = false) := by
  refine ⟨⟨rfl, ?_⟩, ⟨rfl, ?_⟩, rfl, rfl⟩ <;> simp [Running, Clocked, State.live, State.reset, PwrSt.reset]

/-- Of the frames: each table names a command. -/
theorem witness_frames :
    (touchHost (.lockSet .CRC)).isSome ∧ (touchField .synthLocked).isSome ∧ (touchTuner (.captureRef 0)).isSome ∧
    (touchReceiver (.clrCounts 0)).isSome ∧ (touchProtocol (.endHold 0)).isSome ∧ (touchAccord (.accordWindowClose 0)).isSome ∧
    (touchKeeper .kprCommit).isSome ∧ (touchTag .emuReqa).isSome ∧ (touchCoex .coxRegLower).isSome ∧ (touchMonitor .heartbeatToggle).isSome ∧
    (touchRecords .snap).isSome ∧ (touchPower .cancelRequest).isSome := by decide

/-- A GO and an ALERT pulse on lane 3. -/
def pulsing : State := up.modL 3 fun _ => { goEnd := some 9, alertEnd := some 7 }

/-- A KPR_COMMIT of an empty bank, whose counter is stored. -/
def committing (bank : Byte) : State :=
  { up with cfg := { CfgSt.reset with auth := some { opcode := 3, counter := 5, payload := bank :: List.replicate 19 0, stored := true } } }

/-- The values of a commit, and the state in which they are on their way to NV. -/
def bankVals : BankVals := { ver := 2, p := 1, t := 1, entries := 100, sig := 0 }
def writing : State := { up with kpr := { KprSt.reset with commit := some (1, bankVals) } }

/-- The sweep of the recent table at a way, and an invalidation pass. -/
def sweeping (i : Nat) : State := { up with kpr := { KprSt.reset with sweep := some i, pass := some 0 } }

theorem sweeping_sound : Sound (sweeping 0) := by
  refine ⟨⟨rfl, rfl, rfl, rfl, rfl, rfl, rfl, rfl⟩, ⟨fun n => ?_, fun n => ?_, by decide, by decide, by decide, by decide⟩⟩ <;>
    by_cases h : n < 16 <;> simp [State.pq, sweeping, up, State.reset, h]

/-- States and operands for the clauses of `LanePulsesEnd`, in their order. -/
theorem witness_LanePulsesEnd :
    (∃ (s : State) (lane : Lane) (e : Nat), Running s ∧ (s.lane lane).goEnd = some e) ∧
    (∃ (s : State) (lane : Lane) (e : Nat), Running s ∧ (s.lane lane).alertEnd = some e) :=
  ⟨⟨pulsing, 3, 9, ⟨rfl, rfl⟩, by decide +kernel⟩,
   ⟨pulsing, 3, 7, ⟨rfl, rfl⟩, by decide +kernel⟩⟩

/-- States and operands for the clauses of `RosterCommit`, in their order. -/
theorem witness_RosterCommit :
    (∃ (s : State) (p : List Byte), Running s ∧ s.authActs 3 = some p ∧ s.commitBad p = false) ∧
    (∃ (s : State) (p : List Byte), Running s ∧ s.authActs 3 = some p ∧ s.commitBad p = true) ∧
    (∃ (s : State) (b : Nat) (v : BankVals), Running s ∧ s.kpr.commit = some (b, v) ∧ b < 2) ∧
    (∃ (s : State) (b : Nat) (v : BankVals), Running s ∧ s.kpr.commit = some (b, v)) :=
  ⟨⟨committing 1, 1 :: List.replicate 19 0, ⟨rfl, rfl⟩, by decide +kernel, by decide +kernel⟩,
   ⟨committing 2, 2 :: List.replicate 19 0, ⟨rfl, rfl⟩, by decide +kernel, by decide +kernel⟩,
   ⟨writing, 1, bankVals, ⟨rfl, rfl⟩, by decide +kernel, by decide +kernel⟩,
   ⟨writing, 1, bankVals, ⟨rfl, rfl⟩, by decide +kernel⟩⟩

/-- States and operands for the clauses of `InvalidationClearsVerdicts`, in their order. -/
theorem witness_InvalidationClearsVerdicts :
    ∃ (s : State) (since : Nat), Sound s ∧ Running s ∧ s.kpr.pass = some since :=
  ⟨sweeping 0, 0, sweeping_sound, ⟨rfl, rfl⟩, by decide +kernel⟩

/-- States and operands for the clauses of `RecentSweepAgesWays`, in their order. -/
theorem witness_RecentSweepAgesWays :
    (∃ (s : State) (i : Nat), Running s ∧ s.kpr.sweep = some i ∧ i < 262144 ∧ (s.gen.phase = .run ∨ s.gen.phase = .recovery ∨ s.gen.phase = .test)) ∧
    (∃ (s : State) (i : Nat), Running s ∧ s.kpr.sweep = some i ∧ i < 262144 ∧ (s.gen.phase = .run ∨ s.gen.phase = .recovery ∨ s.gen.phase = .test)) :=
  ⟨⟨sweeping 0, 0, ⟨rfl, rfl⟩, by decide +kernel, by decide +kernel, by decide +kernel⟩,
   ⟨sweeping 262143, 262143, ⟨rfl, rfl⟩, by decide +kernel, by decide +kernel, by decide +kernel⟩⟩

/-- Port 2's receiver in a state, with the default technology. -/
def receiving (x : RxState) : State := up.modR 2 fun y => { y with state := x }

/-- The same in active mode at 212 kbit/s, in an exchange, its search for the SoF running; and its sync word. -/
def active (x : RxState) : State :=
  (up.modR 2 fun y => { y with state := x, tech := 5, rate := 1, preEnd := 1000 }).modP 2 fun y => { y with xch := some hostExchange }
def syncWord : List Bool := (List.range 16).map fun i => (0xB24D : Nat).testBit (15 - i)

/-- After the search for the SoF has ended, and after 100 µs of signal. -/
def late : State := { receiving .sofWait with time := 100000000 }
def stepping (x : RxState) : State := { receiving x with time := 100000000 }

/-- States and operands for the clauses of `ReceiverFollowsTheSignal`, in their order. -/
theorem witness_ReceiverFollowsTheSignal :
    (∃ (s : State) (p : Port) (power : Nat) (length : Nat), Running s ∧ (s.pr p).tech ≠ 6 ∧ (s.pr p).state = .armed ∧ power + 4 * s.fld
      (Reg.RXE_P_CTRL p) Fld.RXE_P_CTRL_DET_MARGIN ≤ s.detectFloor p ∧ preambleMin (s.pr p).tech (s.pr p).rate ≤ length) ∧
    (∃ (s : State) (p : Port) (power : Nat) (length : Nat), Running s ∧ (s.pr p).tech ≠ 6 ∧ (s.pr p).state = .armed ∧ power + 4 * s.fld
      (Reg.RXE_P_CTRL p) Fld.RXE_P_CTRL_DET_MARGIN ≤ s.detectFloor p ∧ preambleMin (s.pr p).tech (s.pr p).rate ≤ length) ∧
    (∃ (s : State) (p : Port) (power : Nat) (length : Nat), Running s ∧ (s.detectFloor p < power + 4 * s.fld (Reg.RXE_P_CTRL p)
      Fld.RXE_P_CTRL_DET_MARGIN ∨ length < preambleMin (s.pr p).tech (s.pr p).rate)) ∧
    (∃ (s : State) (p : Port) (power : Nat) (length : Nat), Running s ∧ (s.detectFloor p < power + 4 * s.fld (Reg.RXE_P_CTRL p)
      Fld.RXE_P_CTRL_DET_MARGIN ∨ length < preambleMin (s.pr p).tech (s.pr p).rate)) ∧
    (∃ (s : State) (p : Port) (sof : List Bool) (fofs : BitVec 12), Running s ∧ (s.pr p).tech ≠ 6 ∧ (s.pr p).state = .sofWait ∧ s.time ≤ s.sofEnd p ∧
      (sofWord (s.pr p).tech (s.pr p).rate).all (fun w => decide (sof = w)) = true ∧ ((s.pr p).hasAfc = true → beyondAfc fofs = false)) ∧
    (∃ (s : State) (p : Port) (sof : List Bool) (fofs : BitVec 12), Running s ∧ (s.pr p).tech ≠ 6 ∧ (s.pr p).state = .sofWait ∧ s.time ≤ s.sofEnd p ∧
      (sofWord (s.pr p).tech (s.pr p).rate).all (fun w => decide (sof = w)) = true ∧ ((s.pr p).hasAfc = true → beyondAfc fofs = false)) ∧
    (∃ (s : State) (p : Port) (sof : List Bool) (fofs : BitVec 12), Running s ∧ (s.pr p).tech ≠ 6 ∧ (s.pr p).state = .sofWait ∧ s.time ≤ s.sofEnd p ∧
      (sofWord (s.pr p).tech (s.pr p).rate).all (fun w => decide (sof = w)) = true ∧ (s.pr p).hasAfc = true ∧ beyondAfc fofs = true) ∧
    (∃ (s : State) (p : Port), Running s ∧ (s.pr p).tech ≠ 6 ∧ (s.pr p).state = .sofWait ∧ s.sofEnd p < s.time) ∧
    (∃ (s : State) (p : Port), Running s ∧ (s.pr p).state = .sofWait) ∧
    (∃ (s : State) (p : Port) (recent : Nat) (before : Nat), Running s ∧ (s.pr p).tech ≠ 6 ∧ (s.pr p).state = .sofWait ∧ s.stepped p recent before =
      true) :=
  ⟨⟨receiving .armed, 2, 40, 64, ⟨rfl, rfl⟩, by decide +kernel, by decide +kernel, by decide +kernel, by decide +kernel⟩,
   ⟨active .armed, 2, 40, 4000, ⟨rfl, rfl⟩, by decide +kernel, by decide +kernel, by decide +kernel, by decide +kernel⟩,
   ⟨receiving .armed, 2, 400, 64, ⟨rfl, rfl⟩, by decide +kernel⟩,
   ⟨receiving .armed, 2, 40, 63, ⟨rfl, rfl⟩, by decide +kernel⟩,
   ⟨receiving .sofWait, 2, [], 5, ⟨rfl, rfl⟩, by decide +kernel, by decide +kernel, by decide +kernel, by decide +kernel, by decide +kernel⟩,
   ⟨active .sofWait, 2, syncWord, 5, ⟨rfl, rfl⟩, by decide +kernel, by decide +kernel, by decide +kernel, by decide +kernel, by decide +kernel⟩,
   ⟨active .sofWait, 2, syncWord, 2001, ⟨rfl, rfl⟩, by decide +kernel, by decide +kernel, by decide +kernel, by decide +kernel, by decide +kernel,
      by decide +kernel⟩,
   ⟨late, 2, ⟨rfl, rfl⟩, by decide +kernel, by decide +kernel, by decide +kernel⟩,
   ⟨receiving .sofWait, 2, ⟨rfl, rfl⟩, by decide +kernel⟩,
   ⟨stepping .sofWait, 2, 100, 1, ⟨rfl, rfl⟩, by decide +kernel, by decide +kernel, by decide +kernel⟩⟩

/-- Port 2 in the exchange of a host frame, its receiver in a state, with technology `tech`. -/
def exchanging (x : RxState) (tech : Nat) : State :=
  ((up.modR 2 fun y => { y with state := x, tech := tech, rate := 1 }).modP 2 fun y => { y with xch := some hostExchange }).setFld
    (Reg.RXE_P_CTRL 2) Fld.RXE_P_CTRL_CAPTURE_EN 1

/-- The same after 100 µs of signal. -/
def longExchange : State := { exchanging .frame 0 with time := 100000000 }

/-- An Accord poll in progress on port 2. -/
def accordPoll : AccPoll :=
  { group := 0, mask := 3, selector := 0, detected := 3, synced := 0, order := none, ranged := 0, stages := 4, closed := none, cut := none, blanked := false }
def polling (x : RxState) : State := (exchanging x 6).modA 2 fun y => { y with poll := some accordPoll }

/-- Port 2 in the open receive window of a host frame. -/
def windowed : State := (exchanging .armed 0).modF 2 fun y => { y with window := some 100000 }

/-- Port 2 in FIELD with nothing that disturbs a noise window, and the statistics of an earlier one. -/
def quiet : State := up.modF 2 fun y => { y with radio := .field }
def measured : State := (quiet.setFld (Reg.RXE_P_NOISE 2) Fld.RXE_P_NOISE_VALID 1).setFld (Reg.RXE_P_NOISE_EXT 2) Fld.RXE_P_NOISE_EXT_VALID 1
/-- The same with a frame of a neighbour that goes on past the window. -/
def busy : State :=
  let q := quiet.modF 3 fun y => { y with txFrom := 1000, txEnd := some 1000000000 }
  { q with field := { q.field with neigh := q.field.neigh.map fun _ => 8 } }

/-- States and operands for the clauses of `ReceptionsEnd`, in their order. -/
theorem witness_ReceptionsEnd :
    (∃ (s : State) (p : Port) (recent : Nat) (before : Nat) (x : Exchange), Running s ∧ (s.pr p).tech ≠ 6 ∧ (s.pr p).state = .frame ∧ (s.pp p).xch =
      some x ∧ s.flag (Reg.RXE_P_CTRL p) Fld.RXE_P_CTRL_CAPTURE_EN = true ∧ s.stepped p recent before = true) ∧
    (∃ (s : State) (p : Port) (x : Exchange), Running s ∧ (s.pr p).tech = 5 ∧ (s.pr p).rate ≠ 0 ∧ ((s.pr p).state = .sofWait ∨ (s.pr p).state =
      .frame) ∧ (s.pp p).xch = some x) ∧
    (∃ (s : State) (p : Port) (q : AccPoll), Running s ∧ (s.pr p).tech = 6 ∧ ((s.pr p).state = .sofWait ∨ (s.pr p).state = .frame) ∧ (s.pa p).poll =
      some q) ∧
    (∃ (s : State) (p : Port) (x : Exchange), Running s ∧ (s.pr p).tech ≠ 6 ∧ (s.pr p).state = .frame ∧ (s.pp p).xch = some x ∧ x.plan.frame.purpose
      = .host) ∧
    (∃ (s : State) (p : Port) (x : Exchange) (w : Nat), Running s ∧ (s.pf p).window = some w ∧ (s.pp p).xch = some x ∧ (s.pa p).poll = none ∧ (s.pr
      p).state = .armed ∧ x.earlier = none ∧ x.plan.frame.purpose = .host) :=
  ⟨⟨longExchange, 2, 100, 1, hostExchange, ⟨rfl, rfl⟩, by decide +kernel, by decide +kernel, by decide +kernel, by decide +kernel, by decide +kernel⟩,
   ⟨exchanging .sofWait 5, 2, hostExchange, ⟨rfl, rfl⟩, by decide +kernel, by decide +kernel, by decide +kernel, by decide +kernel⟩,
   ⟨polling .frame, 2, accordPoll, ⟨rfl, rfl⟩, by decide +kernel, by decide +kernel, by decide +kernel⟩,
   ⟨exchanging .frame 0, 2, hostExchange, ⟨rfl, rfl⟩, by decide +kernel, by decide +kernel, by decide +kernel, by decide +kernel⟩,
   ⟨windowed, 2, hostExchange, 100000, ⟨rfl, rfl⟩, by decide +kernel, by decide +kernel, by decide +kernel, by decide +kernel, by decide +kernel,
      by decide +kernel⟩⟩

/-- States and operands for the clauses of `NoiseStatisticsFollowWindows`, in their order. -/
theorem witness_NoiseStatisticsFollowWindows :
    (∃ (s : State) (p : Port), Running s ∧ s.noiseOk p = true ∧ (s.advance (s.noiseFrom p + 64 * usec)).noiseOk p = true) ∧
    (∃ (s : State) (p : Port), Running s ∧ s.noiseOk p = true ∧ (s.advance (s.noiseFrom p + 64 * usec)).noiseOk p = true) ∧
    (∃ (s : State) (p : Port), Running s ∧ (s.noiseOk p = false ∨ (s.advance (s.noiseFrom p + 64 * usec)).noiseOk p = false)) ∧
    (∃ (s : State) (p : Port), Running s ∧ (s.noiseOk p = false ∨ (s.advance (s.noiseFrom p + 64 * usec)).noiseOk p = false)) ∧
    (∃ (s : State), Running s) ∧
    (∃ (s : State), Running s) :=
  ⟨⟨quiet, 2, ⟨rfl, rfl⟩, by decide +kernel, by decide +kernel⟩,
   ⟨measured, 2, ⟨rfl, rfl⟩, by decide +kernel, by decide +kernel⟩,
   ⟨exchanging .frame 0, 2, ⟨rfl, rfl⟩, by decide +kernel⟩,
   ⟨busy, 2, ⟨rfl, rfl⟩, by decide +kernel⟩,
   ⟨measured, ⟨rfl, rfl⟩⟩,
   ⟨measured, ⟨rfl, rfl⟩⟩⟩

/-- Words in the queues of port 2, its host frames on, its completions staged. -/
def queued (tx rx : List QWord) (staged : List (List Word)) : State :=
  inRole 2 ((({ up with time := 640 }.setPq 2 { tx := tx, rx := rx, pushedAt := 0, newWords := 0 }).modP 2 fun y => { y with staged := staged }).setFld (Reg.PRO_P_HOSTQ 2) Fld.PRO_P_HOSTQ_HOST_EN 1)
def qword (w : Word) : QWord := { w := w, poison := false }

/-- A descriptor of one byte. -/
def descriptor : List QWord := [qword 0x10000, qword 0, qword 0, qword 0x26]
def holding : State := up.modP 2 fun y => { y with holdEnd := some 500 }

/-- States and operands for the clauses of `FrameQueuesMove`, in their order. -/
theorem witness_FrameQueuesMove :
    (∃ (s : State) (p : Port), Clocked s ∧ s.hif.waiting = none ∧ (s.pp p).flushing = false ∧ (s.pq p).tx.length < 2048) ∧
    (∃ (s : State) (p : Port), Clocked s ∧ s.hif.waiting = none ∧ (s.pp p).flushing = false ∧ (s.pq p).tx.length < 2048) ∧
    (∃ (s : State) (p : Port), Clocked s ∧ s.hif.waiting = none ∧ (s.pp p).flushing = false ∧ 2048 ≤ (s.pq p).tx.length) ∧
    (∃ (s : State) (p : Port) (x : QWord) (l : List QWord), Clocked s ∧ (s.pq p).rx = x :: l) ∧
    (∃ (s : State) (p : Port), Clocked s ∧ (s.pq p).rx = []) ∧
    (∃ (s : State), Clocked s) :=
  ⟨⟨queued (descriptor.take 2) [] [], 2, rfl, by decide +kernel, by decide +kernel, by decide +kernel⟩,
   ⟨queued (List.replicate 2047 (qword 1)) [] [], 2, rfl, by decide +kernel, by decide +kernel, by decide +kernel⟩,
   ⟨queued (List.replicate 2048 (qword 1)) [] [], 2, rfl, by decide +kernel, by decide +kernel, by decide +kernel⟩,
   ⟨queued [] [qword 8] [], 2, qword 8, [], rfl, by decide +kernel⟩,
   ⟨queued [] [] [], 2, rfl, by decide +kernel⟩,
   ⟨queued [] [qword 8] [], rfl⟩⟩

/-- States and operands for the clauses of `DescriptorsAndCompletions`, in their order. -/
theorem witness_DescriptorsAndCompletions :
    (∃ (s : State) (p : Port) (f : Frame), Running s ∧ s.hif.waiting = none ∧ s.hostNext p = true ∧ (s.headWords p).all (fun x => !x.poison) = true ∧
      f = descFrame ((s.headWords p).map fun x => x.w) ∧ descRefused (s.role p) f = false ∧ (f.len ≠ 0 ∨ f.lastBits ≠ 0 ∨ f.tech = 3)) ∧
    (∃ (s : State) (p : Port), Running s ∧ s.hif.waiting = none ∧ s.hostNext p = true) ∧
    (∃ (s : State) (p : Port) (l : List Word), Running s ∧ (s.pp p).staged = [l] ∧ (s.pq p).rx.length + l.length ≤ 2048) ∧
    (∃ (s : State) (p : Port) (l : List Word) (r : List (List Word)) (k : Nat), Running s ∧ (s.pp p).staged = l :: r ∧ k < l.length ∧ (s.pq
      p).rx.length + k = 2048) ∧
    (∃ (s : State), Running s ∧ s.hif.waiting = none) ∧
    (∃ (s : State), Running s) ∧
    (∃ (s : State) (p : Port) (e : Nat), Running s ∧ (s.pp p).holdEnd = some e ∧ (s.pp p).xch = none ∧ (s.pp p).plan = none ∧ (s.advance e).hostNext
      p = false) :=
  ⟨⟨queued descriptor [] [], 2, descFrame (((queued descriptor [] []).headWords 2).map fun x => x.w), ⟨rfl, rfl⟩, by decide +kernel,
      by decide +kernel, by decide +kernel, by decide +kernel, by decide +kernel, by decide +kernel⟩,
   ⟨queued descriptor [] [], 2, ⟨rfl, rfl⟩, by decide +kernel, by decide +kernel⟩,
   ⟨queued [] [] [[1, 2, 3]], 2, [1, 2, 3], ⟨rfl, rfl⟩, by decide +kernel, by decide +kernel⟩,
   ⟨queued [] (List.replicate 2046 (qword 1)) [[1, 2, 3]], 2, [1, 2, 3], [], 2, ⟨rfl, rfl⟩, by decide +kernel, by decide +kernel, by decide +kernel⟩,
   ⟨queued (descriptor ++ [qword 0]) [] [], ⟨rfl, rfl⟩, by decide +kernel⟩,
   ⟨holding, ⟨rfl, rfl⟩⟩,
   ⟨holding, 2, 500, ⟨rfl, rfl⟩, by decide +kernel, by decide +kernel, by decide +kernel, by decide +kernel⟩⟩

/-- Port 2 in a role, its collision avoidance at a step, the external field as given. -/
def avoiding (role : Nat) (x : Rfca) (ext : Bool) : State :=
  inRole role ((up.modF 2 fun y => { y with radio := .standby }).modP 2 fun y => { y with rfca := x, extLevel := if ext then 0 else 255 })
def ramped (x : Rfca) : State := (avoiding 3 x false).modF 2 fun y => { y with radio := .field }

/-- States and operands for the clauses of `CollisionAvoidance`, in their order. -/
theorem witness_CollisionAvoidance :
    (∃ (s : State) (p : Port) (t0 : Nat) (r : Nat), Running s ∧ (s.pp p).rfca = .initial (some t0) r ∧ s.role p = 3 ∧ (s.pf p).wantOn = none ∧ (s.pf
      p).ramp = .none ∧ (s.pf p).carrier = false) ∧
    (∃ (s : State) (p : Port), Running s ∧ s.role p ≠ 3 ∧ s.role p ≠ 4 ∧ p.val ≠ s.emuPort) ∧
    (∃ (s : State) (p : Port) (level : Nat) (t0 : Nat) (r : Nat), Running s ∧ s.role p = 3 ∧ (s.pp p).rfca = .initial (some t0) r ∧ s.extField p =
      false ∧ level ≤ s.fld Reg.PRO_ACTIVE Fld.PRO_ACTIVE_RFCA_THR) ∧
    (∃ (s : State) (p : Port) (level : Nat) (r : Nat), Running s ∧ s.role p = 3 ∧ (s.pp p).rfca = .initial none r ∧ s.extField p = true ∧ s.fld
      Reg.PRO_ACTIVE Fld.PRO_ACTIVE_RFCA_THR < level ∧ r + 1 < s.rfcaMax) ∧
    (∃ (s : State) (p : Port), Running s ∧ p.val = s.emuPort ∧ s.role p ≠ 3 ∧ s.role p ≠ 4) ∧
    (∃ (s : State) (p : Port) (t0 : Nat) (r : Nat), Running s ∧ (s.pp p).rfca = .response (some t0) r ∧ s.extField p = false) ∧
    (∃ (s : State) (p : Port) (t0 : Nat) (r : Nat), Running s ∧ (s.pp p).rfca = .response (some t0) r ∧ s.extField p = true ∧ s.role p = 3 ∧ r <
      s.rfcaMax) ∧
    (∃ (s : State) (p : Port) (e : Nat), Running s ∧ (s.pp p).rfca = .arfg e ∧ (s.pf p).radio = .field ∧ (s.pf p).ramp = .none) :=
  ⟨⟨avoiding 3 (.initial (some 50) 1) false, 2, 50, 1, ⟨rfl, rfl⟩, by decide +kernel, by decide +kernel, by decide +kernel, by decide +kernel,
      by decide +kernel⟩,
   ⟨avoiding 2 .none false, 2, ⟨rfl, rfl⟩, by decide +kernel, by decide +kernel, by decide +kernel⟩,
   ⟨avoiding 3 (.initial (some 50) 1) false, 2, 0, 50, 1, ⟨rfl, rfl⟩, by decide +kernel, by decide +kernel, by decide +kernel, by decide +kernel⟩,
   ⟨avoiding 3 (.initial none 0) true, 2, 255, 0, ⟨rfl, rfl⟩, by decide +kernel, by decide +kernel, by decide +kernel, by decide +kernel,
      by decide +kernel⟩,
   ⟨up, 0, ⟨rfl, rfl⟩, by decide +kernel, by decide +kernel, by decide +kernel⟩,
   ⟨avoiding 3 (.response (some 50) 1) false, 2, 50, 1, ⟨rfl, rfl⟩, by decide +kernel, by decide +kernel⟩,
   ⟨avoiding 3 (.response (some 50) 0) true, 2, 50, 0, ⟨rfl, rfl⟩, by decide +kernel, by decide +kernel, by decide +kernel, by decide +kernel⟩,
   ⟨ramped (.arfg 70), 2, 70, ⟨rfl, rfl⟩, by decide +kernel, by decide +kernel, by decide +kernel⟩⟩

/-- Port 2 a reader in STANDBY, a word at entry 0 of its list. -/
def listed (w : Nat) : State :=
  (inRole 2 (up.modF 2 fun y => { y with radio := .standby })).setReg (Reg.PRO_POLLLIST 0 0) (word w)

/-- Session 7 of port 2 in a state, its presence check due at 900. -/
def sess7 (x : SessState) : Session :=
  { state := x, port := 2, tech := 0, ident := [1, 2, 3, 4], accord := false, enrol := none, assigned := none, firstSeen := 0, lastSeen := 0,
    misses := 0, benchEnd := none, dueAt := some 900, decision := 0, replyLen := 0, undriven := false }
def withSess (x : SessState) : State := { listed 6 with sess := [(7, sess7 x)] }
def owing : State := (withSess .open_).modP 2 fun y => { y with owed := [7] }
def overflown : OvfEntry := { port := 2, tech := 0, ident := [1, 2, 3, 4], dueAt := 500 }

/-- States and operands for the clauses of `PollingRunsItsList`, in their order. -/
theorem witness_PollingRunsItsList :
    (∃ (s : State) (p : Port) (w : Nat), Running s ∧ s.atEntry p = true ∧ (s.pp p).owed = [] ∧ (s.pa p).releases = [] ∧ s.dueChecks p = [] ∧
      s.pollEntry p (s.nextEntry p) = w ∧ w % 16 = 6 ∧ w.testBit 28 = false) ∧
    (∃ (s : State) (p : Port) (w : Nat), Running s ∧ s.atEntry p = true ∧ (s.pp p).owed = [] ∧ (s.pa p).releases = [] ∧ s.dueChecks p = [] ∧
      s.pollEntry p (s.nextEntry p) = w ∧ w % 16 = 1) ∧
    (∃ (s : State) (p : Port) (w : Nat), Running s ∧ s.atEntry p = true ∧ (s.pp p).owed = [] ∧ (s.pa p).releases = [] ∧ s.dueChecks p = [] ∧
      s.pollEntry p (s.nextEntry p) = w ∧ w % 16 = 5 ∧ s.pollMask p (w / 16 % 16) = 0) ∧
    (∃ (s : State) (p : Port) (k : Nat) (l : List Nat) (x : Session), Running s ∧ s.atEntry p = true ∧ (s.pp p).owed = k :: l ∧ s.session k = some x
      ∧ x.state = .open_ ∧ x.accord = false ∧ x.tech = 0) ∧
    (∃ (s : State) (p : Port) (e : Nat), Running s ∧ (s.pp p).waitEnd = some e ∧ (s.pp p).offWait = false) ∧
    (∃ (s : State) (p : Port) (e : Nat), Running s ∧ (s.pp p).waitEnd = some e ∧ (s.pp p).offWait = true) ∧
    (∃ (s : State) (k : SessId) (x : Session) (e : Nat), Running s ∧ s.session k = some x ∧ x.dueAt = some e ∧ x.state = .quiet) ∧
    (∃ (s : State) (k : SessId) (x : Session), Running s ∧ s.session k = some x ∧ x.live = true ∧ s.gen.phase ≠ .safe ∧ s.inFlight k = false) ∧
    (∃ (s : State) (i : Nat) (x : OvfEntry), Running s ∧ s.overflow[i]? = some x ∧ s.atEntry x.port = true ∧ x.tech = 0 ∧ x.port < 16) :=
  ⟨⟨listed 0x56, 2, 0x56, ⟨rfl, rfl⟩, by decide +kernel, by decide +kernel, by decide +kernel, by decide +kernel, by decide +kernel,
      by decide +kernel, by decide +kernel⟩,
   ⟨listed 0x11, 2, 0x11, ⟨rfl, rfl⟩, by decide +kernel, by decide +kernel, by decide +kernel, by decide +kernel, by decide +kernel,
      by decide +kernel⟩,
   ⟨listed 0x35, 2, 0x35, ⟨rfl, rfl⟩, by decide +kernel, by decide +kernel, by decide +kernel, by decide +kernel, by decide +kernel,
      by decide +kernel, by decide +kernel⟩,
   ⟨owing, 2, 7, [], sess7 .open_, ⟨rfl, rfl⟩, by decide +kernel, by decide +kernel, by decide +kernel, by decide +kernel, by decide +kernel,
      by decide +kernel⟩,
   ⟨up.modP 2 fun y => { y with waitEnd := some 800 }, 2, 800, ⟨rfl, rfl⟩, by decide +kernel, by decide +kernel⟩,
   ⟨(listed 6).modP 2 fun y => { y with waitEnd := some 800, offWait := true }, 2, 800, ⟨rfl, rfl⟩, by decide +kernel, by decide +kernel⟩,
   ⟨withSess .quiet, 7, sess7 .quiet, 900, ⟨rfl, rfl⟩, by decide +kernel, by decide +kernel, by decide +kernel⟩,
   ⟨withSess .open_, 7, sess7 .open_, ⟨rfl, rfl⟩, by decide +kernel, by decide +kernel, by decide +kernel, by decide +kernel⟩,
   ⟨{ listed 6 with overflow := [overflown] }, 0, overflown, ⟨rfl, rfl⟩, by decide +kernel, by decide +kernel, by decide +kernel, by decide +kernel⟩⟩

/-- Port 2 in the window of an Accord poll, with codes detected, closed or not. -/
def accordOf (detected : Nat) (closed : Option Nat) : AccPoll := { accordPoll with detected := detected, closed := closed }
def according (detected : Nat) (closed : Option Nat) : State :=
  ((polling .armed).modF 2 fun y => { y with window := some 90000 }).modA 2 fun y => { y with poll := some (accordOf detected closed) }
def held : Quar := { port := 2, group := 1, code := 3, ends := 700 }

/-- States and operands for the clauses of `AccordPollEnds`, in their order. -/
theorem witness_AccordPollEnds :
    (∃ (s : State) (p : Port) (q : AccPoll) (w : Nat), Running s ∧ (s.pa p).poll = some q ∧ q.closed = none ∧ (s.pf p).window = some w ∧ q.detected =
      0) ∧
    (∃ (s : State) (p : Port) (q : AccPoll) (w : Nat), Running s ∧ (s.pa p).poll = some q ∧ q.closed = none ∧ (s.pf p).window = some w ∧ q.detected ≠
      0) ∧
    (∃ (s : State) (p : Port) (q : AccPoll) (w : Nat), Running s ∧ (s.pa p).poll = some q ∧ q.closed = none ∧ q.order = none ∧ (s.pf p).window = some
      w) ∧
    (∃ (s : State) (p : Port) (q : AccPoll) (w : Nat), Running s ∧ (s.pa p).poll = some q ∧ q.closed = none ∧ (s.pf p).window = some w) ∧
    (∃ (s : State) (p : Port) (q : AccPoll) (x : Exchange) (e : Nat), Running s ∧ (s.pa p).poll = some q ∧ (s.pp p).xch = some x ∧ q.closed = some e) ∧
    (∃ (s : State) (p : Port) (q : AccPoll) (x : Exchange) (e : Nat), Running s ∧ (s.pa p).poll = some q ∧ (s.pp p).xch = some x ∧ q.closed = some e) ∧
    (∃ (s : State) (p : Port) (g : Fin 16) (c : Fin 8) (q : Quar), Running s ∧ s.quar.find? (fun y => decide (y.port = p.val) && decide (y.group =
      g.val) && decide (y.code = c.val)) = some q) :=
  ⟨⟨according 0 none, 2, accordOf 0 none, 90000, ⟨rfl, rfl⟩, by decide +kernel, by decide +kernel, by decide +kernel, by decide +kernel⟩,
   ⟨according 5 none, 2, accordOf 5 none, 90000, ⟨rfl, rfl⟩, by decide +kernel, by decide +kernel, by decide +kernel, by decide +kernel⟩,
   ⟨according 5 none, 2, accordOf 5 none, 90000, ⟨rfl, rfl⟩, by decide +kernel, by decide +kernel, by decide +kernel, by decide +kernel⟩,
   ⟨according 5 none, 2, accordOf 5 none, 90000, ⟨rfl, rfl⟩, by decide +kernel, by decide +kernel, by decide +kernel⟩,
   ⟨according 5 (some 300), 2, accordOf 5 (some 300), hostExchange, 300, ⟨rfl, rfl⟩, by decide +kernel, by decide +kernel, by decide +kernel⟩,
   ⟨according 5 (some 300), 2, accordOf 5 (some 300), hostExchange, 300, ⟨rfl, rfl⟩, by decide +kernel, by decide +kernel, by decide +kernel⟩,
   ⟨{ up with quar := [held] }, 2, 1, 3, held, ⟨rfl, rfl⟩, by decide +kernel⟩⟩

/-- Huddle 1 with its slot in progress on port 2. -/
def slotted : State :=
  (((inRole 2 up).setFld (Reg.FLD_P_HUDDLE 2) Fld.FLD_P_HUDDLE_EN 1).setFld (Reg.FLD_P_HUDDLE 2) Fld.FLD_P_HUDDLE_ID 1).modH 1 fun y =>
    { y with members := 4, txEnd := some 50 }
def synLocked : State := up.setFld Reg.FLD_SYN_STATUS Fld.FLD_SYN_STATUS_LOCKED 1

/-- Port 2 the only member of huddle 1, in FIELD with a host frame due. -/
def slotDue : State :=
  ((((((inRole 2 synLocked).setFld (Reg.FLD_P_HUDDLE 2) Fld.FLD_P_HUDDLE_EN 1).setFld (Reg.FLD_P_HUDDLE 2) Fld.FLD_P_HUDDLE_ID 1).setFld
    Reg.COX_CTRL Fld.COX_CTRL_REQ_EN 0).modH 1 fun y => { y with members := 4 }).modF 2 fun y => { y with radio := .field, carrier := true }).modP
    2 fun y => { y with plan := some hostPlan }

/-- States and operands for the clauses of `RolesTakeEffect`, in their order. -/
theorem witness_RolesTakeEffect :
    (∃ (s : State), Running s ∧ s.lockedBlock 0x04 = false) ∧
    (∃ (s : State) (p : Port), Running s ∧ s.lockedBlock 0x04 = false ∧ 4 ≤ p.val) ∧
    (∃ (s : State) (p : Port), Running s ∧ s.role p ≠ s.roleDue p ∧ (s.pp p).xch = none) ∧
    (∃ (s : State) (p : Port), Running s ∧ (s.role p = s.roleDue p ∨ (s.pp p).xch ≠ none)) ∧
    (∃ (s : State) (p : Port), Running s ∧ s.lockedBlock 0x02 = false ∧ s.roleAsked p ≠ 5) ∧
    (∃ (s : State) (h : Huddle), Running s ∧ s.slotOpen h = true ∧ s.slotBusy h = true) ∧
    (∃ (s : State) (h : Huddle), Running s ∧ s.slotOpen h = false) ∧
    (∃ (s : State) (h : Huddle) (p : Port) (f : Plan), Running s ∧ s.slotOpen h = false ∧ s.syncHuddles (some h.val) = s ∧ (List.range 16).filter
      (fun n => decide (s.huddled n = some h.val)) = [p.val] ∧ (s.pp p).plan = some f ∧ (s.pf p).carrier = true ∧ (s.pf p).radio = .field ∧ s.flag
      Reg.COX_CTRL Fld.COX_CTRL_REQ_EN = false ∧ s.locked = true ∧ s.settlePast = false ∧ s.partOf p = some
      { port := p, due := s.frameDue p f, span := s.frameSpan f.frame, win := s.frameWin f.frame, ramp := false } ∧ s.frameDue p f ≤ s.time ∧
      s.keepClear p (s.time + s.frameSpan f.frame) (s.frameWin f.frame) = true) ∧
    (∃ (s : State) (p : Port) (b : Nat), Running s ∧ (s.pf p).biasFrom = some b ∧ s.locked = true ∧ s.role p ≠ 4) :=
  ⟨⟨up, ⟨rfl, rfl⟩, by decide +kernel⟩,
   ⟨up, 15, ⟨rfl, rfl⟩, by decide +kernel, by decide +kernel⟩,
   ⟨up.setFld (Reg.PRO_P_MODE_STATUS 2) Fld.PRO_P_MODE_STATUS_EFFECTIVE 2, 2, ⟨rfl, rfl⟩, by decide +kernel, by decide +kernel⟩,
   ⟨up, 2, ⟨rfl, rfl⟩, by decide +kernel⟩,
   ⟨up, 2, ⟨rfl, rfl⟩, by decide +kernel, by decide +kernel⟩,
   ⟨(slotted.modF 2 fun y => { y with txEnd := some 60 }), 1, ⟨rfl, rfl⟩, by decide +kernel, by decide +kernel⟩,
   ⟨up, 1, ⟨rfl, rfl⟩, by decide +kernel⟩,
   ⟨slotDue, 1, 2, hostPlan, ⟨rfl, rfl⟩, by decide +kernel, by decide +kernel, by decide +kernel, by decide +kernel, by decide +kernel,
      by decide +kernel, by decide +kernel, by decide +kernel, by decide +kernel, by decide +kernel, by decide +kernel, by decide +kernel⟩,
   ⟨synLocked.modF 2 fun y => { y with biasFrom := some 30 }, 2, 30, ⟨rfl, rfl⟩, by decide +kernel, by decide +kernel, by decide +kernel⟩⟩

/-- The synthesiser running and settling, and running and locked. -/
def settling : State :=
  { (up.setFld Reg.FLD_SYN_STATUS Fld.FLD_SYN_STATUS_SETTLING 1).modP 2 fun y => { y with plan := some hostPlan } with
    field := { FldSt.reset with synRun := true, settleEnd := some 900 } }
def lockedSyn : State :=
  { (synLocked.setFld Reg.PWR_CLK Fld.PWR_CLK_SYN_IDLE_MS 2) with field := { FldSt.reset with synRun := true } }

/-- States and operands for the clauses of `SynthesiserSettlesAndStops`, in their order. -/
theorem witness_SynthesiserSettlesAndStops :
    (∃ (s : State), Running s) ∧
    (∃ (s : State), Running s ∧ s.field.synRun = true ∧ s.flag Reg.FLD_SYN_STATUS Fld.FLD_SYN_STATUS_SETTLING = true) ∧
    (∃ (s : State), Running s ∧ s.locked = true ∧ s.gen.phase = .run) ∧
    (∃ (s : State), Running s ∧ s.field.synRun = true ∧ s.synIdle = true ∧ 0 < s.fld Reg.PWR_CLK Fld.PWR_CLK_SYN_IDLE_MS) :=
  ⟨⟨lockedSyn, ⟨rfl, rfl⟩⟩,
   ⟨settling, ⟨rfl, rfl⟩, by decide +kernel, by decide +kernel⟩,
   ⟨lockedSyn, ⟨rfl, rfl⟩, by decide +kernel, by decide +kernel⟩,
   ⟨lockedSyn, ⟨rfl, rfl⟩, by decide +kernel, by decide +kernel, by decide +kernel⟩⟩

/-- Port `p` a measured reader in STANDBY with a field-on asked for, and what its ramps do. -/
def asking (p : Nat) : State :=
  { ((((((lockedSyn.setFld Reg.PWR_SUPPLY Fld.PWR_SUPPLY_VDDTX_OK 15).setFld Reg.PWR_THERM_STATUS Fld.PWR_THERM_STATUS_LIMIT 1023).setFld (Reg.PRO_P_MODE_STATUS p) Fld.PRO_P_MODE_STATUS_EFFECTIVE 2).setFld Reg.FLD_DUTY Fld.FLD_DUTY_CEIL_EFF 256).setFld
    (Reg.FLD_P_AMPL p) Fld.FLD_P_AMPL_AMPL 500).modF p fun y => { y with radio := .standby, wantOn := some 0, ampl := 500 }) with time := 12800000 }
def ramping (p : Nat) (x : Ramp) : State := inRole 2 (up.modF p fun y => { y with ramp := x, carrier := true, radio := .field })
def arfgAt (x : Ramp) : State := (ramping 2 x).modP 2 fun y => { y with rfca := .arfg 0 }
def readyAt (x : Ramp) : State := (ramping 2 x).modP 2 fun y => { y with rfca := .ready }
def resetting (x : Radio) (on : Bool) : State := up.modF 2 fun y => { y with radio := x, carrier := on }

/-- States and operands for the clauses of `FieldRamps`, in their order. -/
theorem witness_FieldRamps :
    (∃ (s : State) (p : Port) (since : Nat), Running s ∧ (s.pf p).wantOn = some since ∧ s.huddled p = none ∧ s.onDue p = true ∧ (s.px p).waitEnd =
      none ∧ (s.px p).retryAt = none ∧ s.flag Reg.COX_CTRL Fld.COX_CTRL_REQ_EN = false ∧ (s.pf p).notBefore ≤ s.time ∧ s.leadEnd ≤ s.time ∧
      s.field.synRun = true ∧ s.settlePast = false ∧ s.slotFor p since = true ∧ s.blanked p = false ∧ s.mayModulate p (s.time + s.rampSpan p) 0 = true
      ∧ s.granted = true) ∧
    (∃ (s : State) (p : Port) (since : Nat), Running s ∧ (s.pf p).wantOn = some since ∧ s.huddled p = none ∧ s.onDue p = true ∧ (s.px p).waitEnd =
      none ∧ (s.px p).retryAt = none ∧ s.flag Reg.COX_CTRL Fld.COX_CTRL_REQ_EN = false ∧ (s.pf p).notBefore ≤ s.time ∧ s.leadEnd ≤ s.time ∧
      s.field.synRun = true ∧ s.settlePast = false ∧ s.slotFor p since = true ∧ s.blanked p = false ∧ s.mayModulate p (s.time + s.rampSpan p) 0 = true
      ∧ s.granted = true) ∧
    (∃ (s : State) (p : Port) (e : Nat), Running s ∧ (s.pf p).ramp = .biasOn e) ∧
    (∃ (s : State) (p : Port) (e : Nat), Running s ∧ (s.pf p).ramp = .up e ∧ (s.pp p).rfca = .ready ∧ s.cutField = false ∧ s.field.victims.testBit p
      = false ∧ (s.pf p).resetAsked = false ∧ (s.pf p).wantOff = none) ∧
    (∃ (s : State) (p : Port) (e : Nat) (r : Nat), Running s ∧ (s.pf p).ramp = .up e ∧ (s.pp p).rfca = .arfg r) ∧
    (∃ (s : State) (p : Port) (e : Nat), Running s ∧ (s.pf p).guardEnd = some e) ∧
    (∃ (s : State) (p : Port) (e : Nat) (b : Bool), Running s ∧ (s.pf p).ramp = .down e b ∧ p.val < 4 ∧ s.role p ≠ 3 ∧ s.role p ≠ 4 ∧ (s.pf p).window
      = none ∧ (s.pf p).resetAsked = false) ∧
    (∃ (s : State) (p : Port) (e : Nat) (b : Bool), Running s ∧ (s.pf p).ramp = .down e b ∧ 4 ≤ p.val ∧ s.role p ≠ 3) ∧
    (∃ (s : State) (p : Port) (e : Nat), Running s ∧ (s.pf p).ramp = .biasOff e ∧ s.role p ≠ 0 ∧ s.role p ≠ 4 ∧ (s.pf p).resetAsked = true) ∧
    (∃ (s : State) (p : Port), Running s ∧ (s.pf p).radio = .tx ∧ (s.pf p).resetEnd = none ∧ (s.pf p).carrier = true ∧ (s.pf p).ramp = .none) ∧
    (∃ (s : State) (p : Port), Running s ∧ (s.pf p).radio = .standby ∧ (s.pf p).resetEnd = none ∧ (s.pf p).carrier = false ∧ (s.pf p).ramp = .none) ∧
    (∃ (s : State) (p : Port) (e : Nat), Running s ∧ (s.pf p).resetEnd = some e ∧ s.role p = 2 ∧ (s.pf p).wantOn = none ∧ (s.pf p).ramp = .none ∧
      (s.pf p).carrier = false) :=
  ⟨⟨asking 2, 2, 0, ⟨rfl, rfl⟩, by decide +kernel, by decide +kernel, by decide +kernel, by decide +kernel, by decide +kernel, by decide +kernel,
      by decide +kernel, by decide +kernel, by decide +kernel, by decide +kernel, by decide +kernel, by decide +kernel, by decide +kernel,
      by decide +kernel⟩,
   ⟨asking 9, 9, 0, ⟨rfl, rfl⟩, by decide +kernel, by decide +kernel, by decide +kernel, by decide +kernel, by decide +kernel, by decide +kernel,
      by decide +kernel, by decide +kernel, by decide +kernel, by decide +kernel, by decide +kernel, by decide +kernel, by decide +kernel,
      by decide +kernel⟩,
   ⟨ramping 5 (.biasOn 70), 5, 70, ⟨rfl, rfl⟩, by decide +kernel⟩,
   ⟨readyAt (.up 70), 2, 70, ⟨rfl, rfl⟩, by decide +kernel, by decide +kernel, by decide +kernel, by decide +kernel, by decide +kernel,
      by decide +kernel⟩,
   ⟨arfgAt (.up 70), 2, 70, 0, ⟨rfl, rfl⟩, by decide +kernel, by decide +kernel⟩,
   ⟨up.modF 2 fun y => { y with guardEnd := some 70 }, 2, 70, ⟨rfl, rfl⟩, by decide +kernel⟩,
   ⟨ramping 2 (.down 70 true), 2, 70, true, ⟨rfl, rfl⟩, by decide +kernel, by decide +kernel, by decide +kernel, by decide +kernel,
      by decide +kernel, by decide +kernel⟩,
   ⟨ramping 5 (.down 70 true), 5, 70, true, ⟨rfl, rfl⟩, by decide +kernel, by decide +kernel, by decide +kernel⟩,
   ⟨(ramping 2 (.biasOff 70)).modF 2 fun y => { y with resetAsked := true }, 2, 70, ⟨rfl, rfl⟩, by decide +kernel, by decide +kernel,
      by decide +kernel, by decide +kernel⟩,
   ⟨resetting .tx true, 2, ⟨rfl, rfl⟩, by decide +kernel, by decide +kernel, by decide +kernel, by decide +kernel⟩,
   ⟨resetting .standby false, 2, ⟨rfl, rfl⟩, by decide +kernel, by decide +kernel, by decide +kernel, by decide +kernel⟩,
   ⟨inRole 2 (up.modF 2 fun y => { y with resetEnd := some 70 }), 2, 70, ⟨rfl, rfl⟩, by decide +kernel, by decide +kernel, by decide +kernel,
      by decide +kernel, by decide +kernel⟩⟩

/-- Port 2 in FIELD with a change of its codes to apply, with blank 0 asserted or not. -/
def pending2 : State := up.modF 2 fun y => { y with radio := .field, pend := true, carrier := true }
def blanked2 : State :=
  { (pending2.setFld Reg.COX_CTRL Fld.COX_CTRL_BLANK0_EN 1).setFld Reg.COX_PORT_CFG Fld.COX_PORT_CFG_B0_MASK 0xFFFF with
    cox := { CoxSt.reset with blank0 := true, since0 := some 0 } }
def drivers : List DriverMeas := List.replicate 4 { temp := 40, headroom := false, missed := true, diss := 30000 }
def limited : State := pending2.setFld Reg.PWR_THERM_STATUS Fld.PWR_THERM_STATUS_LIMIT 1023
def binned (l : List Nat) : State := { up with field := { FldSt.reset with bins := l, bin := 4, onInBin := 5 } }
/-- The same with the synthesiser locked and the supplies in order. -/
def changing2 : State := (asking 3).modF 2 fun y => { y with radio := .field, pend := true, carrier := true }

/-- States and operands for the clauses of `PhaseAmplitudeAndLimits`, in their order. -/
theorem witness_PhaseAmplitudeAndLimits :
    (∃ (s : State) (p : Port), Running s ∧ s.fieldOn p = true) ∧
    (∃ (s : State) (p : Port), Running s ∧ s.fieldOn p = true) ∧
    (∃ (s : State) (p : Port), Running s ∧ s.fieldOn p = false) ∧
    (∃ (s : State) (p : Port), Running s ∧ (s.pf p).pend = true ∧ (s.pf p).radio = .field ∧ (s.pf p).ramp = .none ∧ (s.pf p).txEnd = none ∧ (s.pf
      p).guardEnd = none ∧ (s.pf p).paEnd = none ∧ s.airFree p (s.time + s.fld Reg.FLD_RAMP Fld.FLD_RAMP_ASK_EDGE * 3200) 0 = true) ∧
    (∃ (s : State) (p : Port), Running s ∧ (s.pf p).pend = true ∧ (s.pf p).radio = .field ∧ (s.pf p).ramp = .none ∧ (s.pf p).txEnd = none ∧ (s.pf
      p).guardEnd = none ∧ (s.pf p).paEnd = none ∧ s.blanked p = true) ∧
    (∃ (s : State) (l : List DriverMeas) (n : Fin 4) (m : DriverMeas), Running s ∧ l[n.val]? = some m) ∧
    (∃ (s : State) (l : List DriverMeas), Running s ∧ 5 * s.fld Reg.PWR_THERM Fld.PWR_THERM_BUDGET < ((List.range 4).map (s.dissOf (l.take 4))).sum ∧
      16 ≤ s.fld Reg.PWR_THERM_STATUS Fld.PWR_THERM_STATUS_LIMIT) :=
  ⟨⟨pending2, 2, ⟨rfl, rfl⟩, by decide +kernel⟩,
   ⟨pending2, 2, ⟨rfl, rfl⟩, by decide +kernel⟩,
   ⟨up, 2, ⟨rfl, rfl⟩, by decide +kernel⟩,
   ⟨changing2, 2, ⟨rfl, rfl⟩, by decide +kernel, by decide +kernel, by decide +kernel, by decide +kernel, by decide +kernel, by decide +kernel,
      by decide +kernel⟩,
   ⟨blanked2, 2, ⟨rfl, rfl⟩, by decide +kernel, by decide +kernel, by decide +kernel, by decide +kernel, by decide +kernel, by decide +kernel,
      by decide +kernel⟩,
   ⟨pending2, drivers, 3, { temp := 40, headroom := false, missed := true, diss := 30000 }, ⟨rfl, rfl⟩, by decide +kernel⟩,
   ⟨limited, drivers, ⟨rfl, rfl⟩, by decide +kernel, by decide +kernel⟩⟩

/-- States and operands for the clauses of `DutyBinsMoveOn`, in their order. -/
theorem witness_DutyBinsMoveOn :
    (∃ (s : State), Running s) ∧
    (∃ (s : State), Running s ∧ s.onMask = 0) ∧
    (∃ (s : State), Running s ∧ s.fld Reg.FLD_DUTY Fld.FLD_DUTY_CEIL_EFF = 256 ∧ s.onMask = 0) ∧
    (∃ (s : State), Running s ∧ s.field.bins.length = 999 ∧ (s.field.bins.sum + popCount s.field.onInBin) < 16384) :=
  ⟨⟨{ up with field := { FldSt.reset with bin := 4, onInBin := 5 } }.modF 3 fun y => { y with carrier := true }, ⟨rfl, rfl⟩⟩,
   ⟨binned [1, 2], ⟨rfl, rfl⟩, by decide +kernel⟩,
   ⟨(binned []).setFld Reg.FLD_DUTY Fld.FLD_DUTY_CEIL_EFF 256, ⟨rfl, rfl⟩, by decide +kernel, by decide +kernel⟩,
   ⟨binned (List.replicate 999 3), ⟨rfl, rfl⟩, by decide +kernel, by decide +kernel⟩⟩

/-- A device of one port on air whose registers name ports 2 and 3 neighbours, and the columns of its matrix. -/
def forced : State := up.setFld (Reg.FLD_P_NEIGH_FORCE 2) Fld.FLD_P_NEIGH_FORCE_ADD 8
def column : List Word := (List.range 16).map fun i => word (7 * i)
def due : State := (up.modF 2 fun y => { y with dueSince := some 40 }).modH 1 fun y => { y with dueSince := some 40 }
def warming (x : Option (Nat × Nat)) : State :=
  { ((up.setFld Reg.FLD_WARMUP Fld.FLD_WARMUP_STEP_EN 63).modF 2 fun y => { y with radio := .field, step := x }) with time := 10 * 1000 * 12800000000 }
/-- Port 2 in OFF, not measured yet, its retry due, the air idle. -/
def unmeasured : State := ((asking 3).modF 3 fun y => { y with wantOn := none }).setFld Reg.FLD_WARMUP Fld.FLD_WARMUP_REFRESH_S 10

/-- States and operands for the clauses of `CouplingIsKeptUpToDate`, in their order. -/
theorem witness_CouplingIsKeptUpToDate :
    (∃ (s : State) (p : Port) (e : Nat), Running s ∧ s.gen.phase = .run ∧ s.measured p = false ∧ (s.pf p).carrier = false ∧ (s.pf p).ramp = .none ∧
      s.field.synRun = true ∧ e = max s.time (s.retryFrom p) + (if (s.pf p).radio = .off then 15 * usec else 0) ∧ (s.advance e).airIdle p (e + 20 *
      usec) = true ∧ (s.advance e).airFree p (e + 20 * usec) 0 = true ∧ e + 20 * usec ≤ s.retryFrom p + s.refreshTime) ∧
    (∃ (s : State) (p : Port), Running s ∧ s.gen.phase = .run ∧ s.measured p = false ∧ (s.pf p).carrier = false ∧ (s.pf p).ramp = .none ∧
      s.field.synRun = false) ∧
    (∃ (s : State) (p : Port) (q : Port), Running s ∧ p ≠ q ∧ (s.neighDue p).testBit q ≠ s.areNeigh p q ∧ s.outOfAir p = true ∧ s.outOfAir q = true) ∧
    (∃ (s : State) (p : Port), Running s ∧ s.outOfAir p = false) :=
  ⟨⟨unmeasured, 2, 12992000, ⟨rfl, rfl⟩, by decide +kernel, by decide +kernel, by decide +kernel, by decide +kernel, by decide +kernel,
      by decide +kernel, by decide +kernel, by decide +kernel, by decide +kernel⟩,
   ⟨up, 2, ⟨rfl, rfl⟩, by decide +kernel, by decide +kernel, by decide +kernel, by decide +kernel, by decide +kernel⟩,
   ⟨forced, 2, 3, ⟨rfl, rfl⟩, by decide +kernel, by decide +kernel, by decide +kernel, by decide +kernel⟩,
   ⟨up.modF 2 fun y => { y with radio := .tx }, 2, ⟨rfl, rfl⟩, by decide +kernel⟩⟩

/-- States and operands for the clauses of `StarvedAndWarm`, in their order. -/
theorem witness_StarvedAndWarm :
    (∃ (s : State) (p : Port) (d : Nat), Running s ∧ (s.pf p).dueSince = some d ∧ (s.pf p).starved = false) ∧
    (∃ (s : State) (h : Huddle) (d : Nat), Running s ∧ (s.hud h).dueSince = some d ∧ (s.hud h).starved = false) ∧
    (∃ (s : State) (p : Port) (i : Fin 6), Running s ∧ s.fldBit Reg.FLD_WARMUP Fld.FLD_WARMUP_STEP_EN i = true ∧ (i.val ≠ 3 ∨ p.val < 4) ∧ (s.pf
      p).step = none ∧ (s.pf p).radio = .field ∧ s.stepPhase p i = true ∧ s.stepAir p i (s.time + stepUs i * usec) = true) ∧
    (∃ (s : State) (p : Port) (i : Nat) (e : Nat), Running s ∧ (s.pf p).step = some (i, e) ∧ i ≠ 5) ∧
    (∃ (s : State) (p : Port) (i : Nat) (e : Nat), Running s ∧ (s.pf p).step = some (i, e) ∧ i ≠ 5) ∧
    (∃ (s : State) (p : Port) (e : Nat), Running s ∧ (s.pf p).step = some (5, e)) ∧
    (∃ (s : State) (p : Port), Running s ∧ s.fldBit Reg.FLD_WARMUP_STATUS Fld.FLD_WARMUP_STATUS_LATE p = false ∧ s.stepLate p = true ∧ (s.pf p).radio
      ≠ .off) :=
  ⟨⟨due, 2, 40, ⟨rfl, rfl⟩, by decide +kernel, by decide +kernel⟩,
   ⟨due, 1, 40, ⟨rfl, rfl⟩, by decide +kernel, by decide +kernel⟩,
   ⟨warming none, 2, 0, ⟨rfl, rfl⟩, by decide +kernel, by decide +kernel, by decide +kernel, by decide +kernel, by decide +kernel, by decide +kernel⟩,
   ⟨warming (some (3, 90)), 2, 3, 90, ⟨rfl, rfl⟩, by decide +kernel, by decide +kernel⟩,
   ⟨warming (some (1, 90)), 2, 1, 90, ⟨rfl, rfl⟩, by decide +kernel, by decide +kernel⟩,
   ⟨warming (some (5, 90)), 2, 90, ⟨rfl, rfl⟩, by decide +kernel⟩,
   ⟨warming none, 2, ⟨rfl, rfl⟩, by decide +kernel, by decide +kernel, by decide +kernel⟩⟩

/-- Port 2 ready for a planned host frame, with and without lock. -/
def readyToSend (x : State) : State :=
  inRole 2 ((({ x with time := 12800000 }).modF 2 fun y => { y with radio := .field, carrier := true }).modP 2 fun y => { y with plan := some hostPlan })

/-- Port 2 sending a host frame. -/
def silentExchange : Exchange := { hostExchange with plan := { hostPlan with frame := { hostFrame with resp := false } } }
def sending (x : Exchange) : State :=
  inRole 2 ((up.modF 2 fun y => { y with radio := .tx, carrier := true, txEnd := some 900, winLen := 70 }).modP 2 fun y => { y with xch := some x })
def surplus : State := { sending hostExchange with field := { (sending hostExchange).field with victims := 4 } }

/-- States and operands for the clauses of `FramesOnAir`, in their order. -/
theorem witness_FramesOnAir :
    (∃ (s : State) (p : Port) (x : Plan), Running s ∧ (s.pp p).plan = some x ∧ s.huddled p = none ∧ s.frameReady p x = true ∧ (s.pf p).radio = .field
      ∧ s.flag Reg.COX_CTRL Fld.COX_CTRL_REQ_EN = false ∧ s.frameDue p x ≤ s.time ∧ s.locked = true ∧ s.settlePast = false ∧ s.blanked p = false ∧
      s.granted = true ∧ (State.each (fun m u => if m = p.val ∨ s.keepOut p m then u.pickPlan m else u) 16 s).mayModulate p (s.time + s.frameSpan
      x.frame) (s.frameWin x.frame) = true) ∧
    (∃ (s : State) (p : Port) (x : Plan), Running s ∧ (s.pp p).plan = some x ∧ s.huddled p = none ∧ s.frameReady p x = true ∧ (s.pf p).radio = .field
      ∧ s.flag Reg.COX_CTRL Fld.COX_CTRL_REQ_EN = false ∧ s.frameDue p x ≤ s.time ∧ s.locked = false) ∧
    (∃ (s : State) (p : Port) (e : Nat) (x : Exchange), Running s ∧ (s.pp p).xch = some x ∧ (s.pf p).txEnd = some e ∧ x.plan.frame.purpose = .host ∧
      x.plan.frame.resp = false ∧ x.plan.frame.tech ≠ 6) ∧
    (∃ (s : State) (p : Port) (e : Nat) (x : Exchange), Running s ∧ (s.pp p).xch = some x ∧ (s.pf p).txEnd = some e ∧ x.plan.frame.resp = true ∧
      s.role p = 2 ∧ x.plan.frame.tech ≠ 6) ∧
    (∃ (s : State) (p : Port) (x : Exchange), Running s ∧ s.field.victims.testBit p = true ∧ (s.pp p).xch = some x ∧ (s.pa p).poll = none ∧ s.inFrame
      p = false ∧ x.plan.frame.purpose = .host) :=
  ⟨⟨readyToSend lockedSyn, 2, hostPlan, ⟨rfl, rfl⟩, by decide +kernel, by decide +kernel, by decide +kernel, by decide +kernel, by decide +kernel,
      by decide +kernel, by decide +kernel, by decide +kernel, by decide +kernel, by decide +kernel, by decide +kernel⟩,
   ⟨readyToSend up, 2, hostPlan, ⟨rfl, rfl⟩, by decide +kernel, by decide +kernel, by decide +kernel, by decide +kernel, by decide +kernel,
      by decide +kernel, by decide +kernel⟩,
   ⟨sending silentExchange, 2, 900, silentExchange, ⟨rfl, rfl⟩, by decide +kernel, by decide +kernel, by decide +kernel, by decide +kernel,
      by decide +kernel⟩,
   ⟨sending hostExchange, 2, 900, hostExchange, ⟨rfl, rfl⟩, by decide +kernel, by decide +kernel, by decide +kernel, by decide +kernel,
      by decide +kernel⟩,
   ⟨surplus, 2, hostExchange, ⟨rfl, rfl⟩, by decide +kernel, by decide +kernel, by decide +kernel, by decide +kernel, by decide +kernel⟩⟩

/-- Port 2 in FIELD with its tuner at a point of its work, and requests on the link. -/
def tuning (f : PortT → PortT) : State := (up.modF 2 fun y => { y with radio := .field, carrier := true }).modT 2 f
def linkReq (isRead again : Bool) (ends : Option Nat) : LinkReq := { asked := 0, port := 2, code := 5, isRead := isRead, again := again, ends := ends }
def linking (q : LinkReq) : State := { up with tun := { up.tun with link := [q] } }
def search2 : Search :=
  { axis := 0, both := false, step := 8, code := 100, known := [], count := 0, trying := some 100, mid := false, lastI := 0, lastQ := 0 }
/-- The same in warm-up step 4. -/
def tuning4 : State := (tuning id).modF 2 fun y => { y with radio := .cal, step := some (4, 90), ampl := 500 }

/-- States and operands for the clauses of `TunerMeasuresAndSends`, in their order. -/
theorem witness_TunerMeasuresAndSends :
    (∃ (s : State) (p : Port), Running s ∧ s.gen.phase = .run ∧ s.mayMeasure p = true ∧ (s.pf p).step = none ∧ (s.pt p).measNext = true ∧ s.gapAhead
      p (30 * usec) = true) ∧
    (∃ (s : State) (p : Port), Running s ∧ s.gen.phase = .run ∧ s.mayMeasure p = true ∧ (s.pf p).step = none ∧ (s.pt p).measNext = true ∧ s.gapAhead
      p (30 * usec) = true) ∧
    (∃ (s : State) (p : Port) (e : Nat), Running s ∧ (s.pf p).step = some (4, e)) ∧
    (∃ (s : State), Running s ∧ s.lockedBlock 0x11 = false) ∧
    (∃ (s : State) (p : Port), Running s ∧ (s.pf p).radio = .field ∧ (s.pt p).search = none) ∧
    (∃ (s : State), Running s) ∧
    (∃ (s : State) (p : Port) (x : Search) (c : Nat), Running s ∧ (s.pt p).search = some x ∧ x.trying = some c ∧ s.codeSettled p = true ∧
      s.mayMeasure p = true ∧ (s.flag (Reg.TUN_P_TUNER p) Fld.TUN_P_TUNER_NONE = false ∨ s.searchGap p s.time = true)) ∧
    (∃ (s : State) (p : Port), Running s ∧ (s.pt p).search = none ∧ s.flag (Reg.TUN_P_TUNER p) Fld.TUN_P_TUNER_NONE = false ∧ s.tun.link.head?.any
      (fun q => q.ends.isSome) = true) ∧
    (∃ (s : State) (q : LinkReq) (e : Nat), Running s ∧ s.tun.link = [q] ∧ q.ends = some e ∧ q.port < 16 ∧ q.isRead = false ∧ s.verifies q.port =
      false) ∧
    (∃ (s : State) (v : Word) (q : LinkReq) (e : Nat), Running s ∧ s.tun.link = [q] ∧ q.ends = some e ∧ q.port < 16 ∧ q.isRead = true ∧ s.codesAgree
      q.port q.code v = false ∧ q.again = true) ∧
    (∃ (s : State) (v : Word) (q : LinkReq) (e : Nat), Running s ∧ s.tun.link = [q] ∧ q.ends = some e ∧ q.port < 16 ∧ q.isRead = true ∧ s.codesAgree
      q.port q.code v = false ∧ q.again = false) ∧
    (∃ (s : State) (p : Port) (e : Nat), Running s ∧ (s.pt p).settleEnd = some e ∧ (s.pt p).opEnd = none ∧ s.tun.link = []) ∧
    (∃ (s : State) (p : Port) (e : Nat) (o : Nat), Running s ∧ (s.pt p).settleEnd = some e ∧ (s.pt p).opEnd = some o ∧ s.tun.link = []) :=
  ⟨⟨tuning fun y => { y with measNext := true }, 2, ⟨rfl, rfl⟩, by decide +kernel, by decide +kernel, by decide +kernel, by decide +kernel,
      by decide +kernel⟩,
   ⟨tuning fun y => { y with measNext := true, refNext := true }, 2, ⟨rfl, rfl⟩, by decide +kernel, by decide +kernel, by decide +kernel,
      by decide +kernel, by decide +kernel⟩,
   ⟨tuning4, 2, 90, ⟨rfl, rfl⟩, by decide +kernel⟩,
   ⟨up, ⟨rfl, rfl⟩, by decide +kernel⟩,
   ⟨tuning id, 2, ⟨rfl, rfl⟩, by decide +kernel, by decide +kernel⟩,
   ⟨up, ⟨rfl, rfl⟩⟩,
   ⟨tuning fun y => { y with search := some search2 }, 2, search2, 100, ⟨rfl, rfl⟩, by decide +kernel, by decide +kernel, by decide +kernel,
      by decide +kernel, by decide +kernel⟩,
   ⟨(linking (linkReq false false (some 70))).setFld (Reg.TUN_P_TUNER 2) Fld.TUN_P_TUNER_NONE 0, 2, ⟨rfl, rfl⟩, by decide +kernel,
      by decide +kernel, by decide +kernel⟩,
   ⟨linking (linkReq false false (some 70)), linkReq false false (some 70), 70, ⟨rfl, rfl⟩, by decide +kernel, by decide +kernel, by decide +kernel,
      by decide +kernel, by decide +kernel⟩,
   ⟨(linking (linkReq true true (some 70))).setReg (Reg.TUN_TPL_FMT 0) 0x1111111, 3, linkReq true true (some 70), 70, ⟨rfl, rfl⟩, by decide +kernel,
      by decide +kernel, by decide +kernel, by decide +kernel, by decide +kernel, by decide +kernel⟩,
   ⟨(linking (linkReq true false (some 70))).setReg (Reg.TUN_TPL_FMT 0) 0x1111111, 3, linkReq true false (some 70), 70, ⟨rfl, rfl⟩,
      by decide +kernel, by decide +kernel, by decide +kernel, by decide +kernel, by decide +kernel, by decide +kernel⟩,
   ⟨tuning fun y => { y with settleEnd := some 70 }, 2, 70, ⟨rfl, rfl⟩, by decide +kernel, by decide +kernel, by decide +kernel⟩,
   ⟨tuning fun y => { y with settleEnd := some 70, opEnd := some 90 }, 2, 70, 90, ⟨rfl, rfl⟩, by decide +kernel, by decide +kernel,
      by decide +kernel⟩⟩

/-- Port 9 in sniff with the ping of its round to come, its baseline at a count, with or without confirmation. -/
def sniffing9 (n : Nat) (confirm : Nat) : State :=
  let x := ((lockedSyn.setFld (Reg.PRO_P_MODE_STATUS 9) Fld.PRO_P_MODE_STATUS_EFFECTIVE 1).setFld Reg.FLD_DUTY Fld.FLD_DUTY_CEIL_EFF 256).setFld
    (Reg.TUN_P_SNIFF 9) Fld.TUN_P_SNIFF_CONFIRM confirm
  ({ x with tun := { x.tun with todo := [9] } }).modT 9 fun y => { y with baseCount := n, confirmAt := some 0 }
def idle9 : State := { sniffing9 0 0 with tun := { (sniffing9 0 0).tun with todo := [] } }
def asleep9 : State := { idle9 with pwr := { idle9.pwr with awake := .sniff }, field := FldSt.reset }
def held9 : State := (sniffing9 4 0).modT 9 fun y => { y with confirmAt := some 0, settleEnd := some 5 }
def heldLong9 : State := { held9 with time := 100000000000 }

/-- States and operands for the clauses of `SniffRounds`, in their order. -/
theorem witness_SniffRounds :
    (∃ (s : State), Running s ∧ s.pingsRun = true ∧ ((List.range 16).filter s.inRound) ≠ [] ∧ s.tun.todo = []) ∧
    (∃ (s : State), Running s ∧ s.pingsRun = true ∧ ((List.range 16).filter s.inRound) ≠ [] ∧ s.tun.todo = []) ∧
    (∃ (s : State), s.pwr.awake = .sniff ∧ s.pingsRun = true ∧ ((List.range 16).filter s.inRound) ≠ [] ∧ s.tun.todo = []) ∧
    (∃ (s : State), Running s ∧ s.pingsRun = true ∧ ((List.range 16).filter s.inRound) ≠ []) ∧
    (∃ (s : State) (p : Port) (l : List Nat), Running s ∧ s.tun.todo = p.val :: l ∧ s.pingsRun = true ∧ s.inRound p = true ∧ s.vddtxOk p = true ∧
      s.settlePast = false ∧ s.pingHeld p = false ∧ s.pingAllowed p = true ∧ (s.pt p).baseCount = 0) ∧
    (∃ (s : State) (p : Port) (v : Word) (l : List Nat), Running s ∧ s.tun.todo = p.val :: l ∧ s.pingsRun = true ∧ s.inRound p = true ∧ s.vddtxOk p =
      true ∧ s.settlePast = false ∧ s.pingHeld p = false ∧ s.pingAllowed p = true ∧ (s.pt p).baseCount = 4 ∧ s.steps p v = true ∧ s.flag
      (Reg.TUN_P_SNIFF p) Fld.TUN_P_SNIFF_CONFIRM = true) ∧
    (∃ (s : State) (p : Port) (v : Word) (l : List Nat), Running s ∧ s.tun.todo = p.val :: l ∧ s.pingsRun = true ∧ s.inRound p = true ∧ s.vddtxOk p =
      true ∧ s.settlePast = false ∧ s.pingHeld p = false ∧ s.pingAllowed p = true ∧ (s.pt p).baseCount = 4 ∧ s.steps p v = true ∧ s.flag
      (Reg.TUN_P_SNIFF p) Fld.TUN_P_SNIFF_CONFIRM = false) ∧
    (∃ (s : State) (p : Port) (e : Nat), Running s ∧ (s.pt p).confirmAt = some e ∧ s.pingsRun = true ∧ s.inRound p = true ∧ s.vddtxOk p = true ∧
      s.settlePast = false ∧ s.pingHeld p = true ∧ e ≤ s.time ∧ s.time < e + s.roundTime) ∧
    (∃ (s : State) (p : Port) (e : Nat), Running s ∧ (s.pt p).confirmAt = some e ∧ s.pingsRun = true ∧ s.inRound p = true ∧ s.vddtxOk p = true ∧
      s.settlePast = false ∧ s.pingHeld p = true ∧ e + s.roundTime ≤ s.time) ∧
    (∃ (s : State) (p : Port) (e : Nat), Running s ∧ (s.pt p).confirmAt = some e ∧ s.pingsRun = true ∧ s.inRound p = true ∧ s.vddtxOk p = true ∧
      s.settlePast = false ∧ s.pingHeld p = false ∧ s.pingAllowed p = true ∧ e ≤ s.time) ∧
    (∃ (s : State) (p : Port) (e : Nat), Running s ∧ (s.pt p).confirmAt = some e ∧ s.pingsRun = true ∧ s.inRound p = true ∧ s.vddtxOk p = true ∧
      s.settlePast = false ∧ s.pingHeld p = false ∧ s.pingAllowed p = true ∧ e ≤ s.time) ∧
    (∃ (s : State) (p : Port) (e : Nat), Running s ∧ (s.pt p).confirmAt = some e ∧ s.pingsRun = true ∧ s.inRound p = true ∧ s.vddtxOk p = true ∧
      s.settlePast = false ∧ s.pingHeld p = false ∧ s.pingAllowed p = true ∧ e ≤ s.time) :=
  ⟨⟨idle9, ⟨rfl, rfl⟩, by decide +kernel, by decide +kernel, by decide +kernel⟩,
   ⟨{ idle9 with field := FldSt.reset }, ⟨rfl, rfl⟩, by decide +kernel, by decide +kernel, by decide +kernel⟩,
   ⟨asleep9, by decide +kernel, by decide +kernel, by decide +kernel, by decide +kernel⟩,
   ⟨sniffing9 0 0, ⟨rfl, rfl⟩, by decide +kernel, by decide +kernel⟩,
   ⟨sniffing9 0 0, 9, [], ⟨rfl, rfl⟩, by decide +kernel, by decide +kernel, by decide +kernel, by decide +kernel, by decide +kernel,
      by decide +kernel, by decide +kernel, by decide +kernel⟩,
   ⟨sniffing9 4 1, 9, 0x70007000, [], ⟨rfl, rfl⟩, by decide +kernel, by decide +kernel, by decide +kernel, by decide +kernel, by decide +kernel,
      by decide +kernel, by decide +kernel, by decide +kernel, by decide +kernel, by decide +kernel⟩,
   ⟨sniffing9 4 0, 9, 0x70007000, [], ⟨rfl, rfl⟩, by decide +kernel, by decide +kernel, by decide +kernel, by decide +kernel, by decide +kernel,
      by decide +kernel, by decide +kernel, by decide +kernel, by decide +kernel, by decide +kernel⟩,
   ⟨held9, 9, 0, ⟨rfl, rfl⟩, by decide +kernel, by decide +kernel, by decide +kernel, by decide +kernel, by decide +kernel, by decide +kernel,
      by decide +kernel, by decide +kernel⟩,
   ⟨heldLong9, 9, 0, ⟨rfl, rfl⟩, by decide +kernel, by decide +kernel, by decide +kernel, by decide +kernel, by decide +kernel, by decide +kernel,
      by decide +kernel⟩,
   ⟨sniffing9 4 0, 9, 0, ⟨rfl, rfl⟩, by decide +kernel, by decide +kernel, by decide +kernel, by decide +kernel, by decide +kernel,
      by decide +kernel, by decide +kernel, by decide +kernel⟩,
   ⟨sniffing9 3 0, 9, 0, ⟨rfl, rfl⟩, by decide +kernel, by decide +kernel, by decide +kernel, by decide +kernel, by decide +kernel,
      by decide +kernel, by decide +kernel, by decide +kernel⟩,
   ⟨sniffing9 4 0, 9, 0, ⟨rfl, rfl⟩, by decide +kernel, by decide +kernel, by decide +kernel, by decide +kernel, by decide +kernel,
      by decide +kernel, by decide +kernel, by decide +kernel⟩⟩

/-- The store ready with pages in region 1, host columns set, and operations on it. -/
def stored (l : List StoOp) : State :=
  { (((up.setFld Reg.STO_STATUS Fld.STO_STATUS_READY 1).setFld Reg.STO_HCOL Fld.STO_HCOL_LEN 4).setFld (Reg.STO_PAGES 1) Fld.STO_PAGES_PAGES
      1000).setReg Reg.STO_GEOM 0x11 with sto := { StoSt.reset with queue := l, retryAt := 900 } }
def stoOp (k : StoKind) (started : Option Nat) : StoOp :=
  { kind := k, region := 1, page := 3, die := 0, block := 5, started := started, suspends := 0, suspended := false }
def unready : State := { up.setReg Reg.STO_GEOM 0x11 with sto := { StoSt.reset with retryAt := 900 }, saf := { SafSt.reset with hasRun := true } }

/-- States and operands for the clauses of `StoreOperations`, in their order. -/
theorem witness_StoreOperations :
    (∃ (s : State) (v : Word), Running s ∧ Fld.STO_HCMD_OP.get v = 1 ∧ s.stoReady = true ∧ s.gen.phase ≠ .safe ∧ s.fld Reg.STO_HCOL Fld.STO_HCOL_LEN
      ≠ 0 ∧ s.hcmdBad 1 (Fld.STO_HCMD_REGION.get v) (Fld.STO_HCMD_PAGE.get v) (s.fld Reg.STO_HCOL Fld.STO_HCOL_COL) (s.fld Reg.STO_HCOL
      Fld.STO_HCOL_LEN) (Fld.STO_HCMD_BUF.get v) = false) ∧
    (∃ (s : State) (v : Word), Running s ∧ Fld.STO_HCMD_OP.get v = 2 ∧ s.stoReady = true ∧ s.gen.phase ≠ .safe ∧ s.hcmdBad 2 (Fld.STO_HCMD_REGION.get
      v) (Fld.STO_HCMD_PAGE.get v) (s.fld Reg.STO_HCOL Fld.STO_HCOL_COL) (s.fld Reg.STO_HCOL Fld.STO_HCOL_LEN) (Fld.STO_HCMD_BUF.get v) = false) ∧
    (∃ (s : State) (v : Word), Running s ∧ Fld.STO_HCMD_OP.get v = 3 ∧ s.stoReady = true ∧ s.gen.phase ≠ .safe ∧ s.hcmdBad 3 (Fld.STO_HCMD_REGION.get
      v) (Fld.STO_HCMD_PAGE.get v) (s.fld Reg.STO_HCOL Fld.STO_HCOL_COL) (s.fld Reg.STO_HCOL Fld.STO_HCOL_LEN) (Fld.STO_HCMD_BUF.get v) = false) ∧
    (∃ (s : State) (v : Word), Running s ∧ Fld.STO_HCMD_OP.get v = 3 ∧ s.stoReady = true ∧ s.flag Reg.STO_HSTATUS (hBusy (Fld.STO_HCMD_BUF.get v)) =
      false ∧ s.hcmdBad 3 (Fld.STO_HCMD_REGION.get v) (Fld.STO_HCMD_PAGE.get v) (s.fld Reg.STO_HCOL Fld.STO_HCOL_COL) (s.fld Reg.STO_HCOL
      Fld.STO_HCOL_LEN) (Fld.STO_HCMD_BUF.get v) = true) ∧
    (∃ (s : State) (i : Nat) (k : Nat) (b : Nat) (q : StoOp), Running s ∧ s.gen.phase = .run ∧ s.saf.hasRun = false ∧ s.flag Reg.STO_STATUS
      Fld.STO_STATUS_FAIL = false ∧ s.nextOp = some i ∧ s.sto.queue[i]? = some q ∧ q.kind = .hostProgram k ∧ s.opBlock q = some b) ∧
    (∃ (s : State) (d : Fin 16) (i : Nat) (q : StoOp) (t0 : Nat), Running s ∧ s.running d (fun _ => true) = some (i, q) ∧ q.started = some t0) ∧
    (∃ (s : State) (d : Fin 16) (status : Byte) (q : StoOp) (col : Nat) (len : Nat), Running s ∧ s.sto.queue = [q] ∧ q.runsOn d = true ∧ q.kind =
      .hostRead 0 col len ∧ s.stillBusy status = false) ∧
    (∃ (s : State) (d : Fin 16) (status : Byte) (q : StoOp), Running s ∧ s.sto.queue = [q] ∧ q.runsOn d = true ∧ q.kind = .hostProgram 1 ∧
      s.stillBusy status = false ∧ status.toNat.testBit 3 = false) ∧
    (∃ (s : State) (d : Fin 16) (status : Byte) (q : StoOp), Running s ∧ s.sto.queue = [q] ∧ q.runsOn d = true ∧ q.kind = .hostErase 0 ∧ s.stillBusy
      status = false ∧ status.toNat.testBit 2 = true) ∧
    (∃ (s : State) (d : Fin 16) (i : Nat) (q : StoOp) (t0 : Nat), Running s ∧ s.running d (fun _ => true) = some (i, q) ∧ q.started = some t0 ∧
      s.gen.phase = .run) ∧
    (∃ (s : State), Running s ∧ s.saf.hasRun = true ∧ s.stoReady = false ∧ s.stoThere = true ∧ s.gen.phase ≠ .safe) :=
  ⟨⟨stored [], 0x10100003, ⟨rfl, rfl⟩, by decide +kernel, by decide +kernel, by decide +kernel, by decide +kernel, by decide +kernel⟩,
   ⟨stored [], 0x20100003, ⟨rfl, rfl⟩, by decide +kernel, by decide +kernel, by decide +kernel, by decide +kernel⟩,
   ⟨stored [], 0x31100003, ⟨rfl, rfl⟩, by decide +kernel, by decide +kernel, by decide +kernel, by decide +kernel⟩,
   ⟨stored [], 0x30000003, ⟨rfl, rfl⟩, by decide +kernel, by decide +kernel, by decide +kernel, by decide +kernel⟩,
   ⟨stored [stoOp (.hostProgram 1) none], 0, 1, 1024, stoOp (.hostProgram 1) none, ⟨rfl, rfl⟩, by decide +kernel, by decide +kernel,
      by decide +kernel, by decide +kernel, by decide +kernel, by decide +kernel, by decide +kernel⟩,
   ⟨stored [stoOp (.hostProgram 1) (some 40)], 0, 0, stoOp (.hostProgram 1) (some 40), 40, ⟨rfl, rfl⟩, by decide +kernel, by decide +kernel⟩,
   ⟨stored [stoOp (.hostRead 0 3 2) (some 40)], 0, 0, stoOp (.hostRead 0 3 2) (some 40), 3, 2, ⟨rfl, rfl⟩, by decide +kernel, by decide +kernel,
      by decide +kernel, by decide +kernel⟩,
   ⟨stored [stoOp (.hostProgram 1) (some 40)], 0, 0, stoOp (.hostProgram 1) (some 40), ⟨rfl, rfl⟩, by decide +kernel, by decide +kernel,
      by decide +kernel, by decide +kernel, by decide +kernel⟩,
   ⟨stored [stoOp (.hostErase 0) (some 40)], 0, 4, stoOp (.hostErase 0) (some 40), ⟨rfl, rfl⟩, by decide +kernel, by decide +kernel,
      by decide +kernel, by decide +kernel, by decide +kernel⟩,
   ⟨stored [stoOp (.hostErase 0) (some 40)], 0, 0, stoOp (.hostErase 0) (some 40), 40, ⟨rfl, rfl⟩, by decide +kernel, by decide +kernel,
      by decide +kernel⟩,
   ⟨unready, ⟨rfl, rfl⟩, by decide +kernel, by decide +kernel, by decide +kernel, by decide +kernel⟩⟩

/-- The emulated tag in a state, speaking from port 0. -/
def tagged (x : TagState) : State :=
  { (up.setFld (Reg.PRO_P_MODE_STATUS 0) Fld.PRO_P_MODE_STATUS_EFFECTIVE 5).setFld Reg.EMU_CTRL Fld.EMU_CTRL_BENCH_EN 1 with
    emu := { EmuSt.reset with tag := x, field := true } }
def atLevel2 : State := (tagged .ready).modE fun x => { x with level := 2 }
def lockedTag : State := (tagged .active).modE fun x => { x with lockedSel := true }

/-- States and operands for the clauses of `TagAnswersReaders`, in their order. -/
theorem witness_TagAnswersReaders :
    (∃ (s : State), Running s ∧ s.saf.safe = false ∧ s.emu.updates = [] ∧ s.tagSpeaks = true ∧ s.emu.tag = .idle) ∧
    (∃ (s : State), Running s ∧ s.saf.safe = false ∧ s.emu.updates = [] ∧ s.emu.tag = .halt) ∧
    (∃ (s : State), Running s ∧ s.saf.safe = false ∧ s.emu.updates = [] ∧ s.tagSpeaks = true ∧ (s.emu.tag = .idle ∨ s.emu.tag = .halt)) ∧
    (∃ (s : State) (l : List Byte), Running s ∧ s.saf.safe = false ∧ s.emu.updates = [] ∧ s.tagSpeaks = true ∧ s.emu.tag = .ready ∧ s.emu.level = 1 ∧
      s.tagLevel 1 = l ∧ l.length = 5) ∧
    (∃ (s : State) (l : List Byte), Running s ∧ s.saf.safe = false ∧ s.emu.updates = [] ∧ s.tagSpeaks = true ∧ s.emu.tag = .ready ∧ s.emu.level = 2 ∧
      s.emu.harvest = false ∧ s.tagLevel 2 = l ∧ l.length = 5) ∧
    (∃ (s : State) (b : Byte), Running s ∧ s.saf.safe = false ∧ s.emu.updates = [] ∧ s.tagSpeaks = true ∧ s.emu.tag = .active ∧ s.emu.lockedSel =
      false ∧ b.toNat ≤ 63) ∧
    (∃ (s : State) (b : Byte), Running s ∧ s.saf.safe = false ∧ s.emu.updates = [] ∧ s.tagSpeaks = true ∧ s.emu.tag = .active ∧ s.emu.lockedSel =
      false ∧ 63 < b.toNat) ∧
    (∃ (s : State), Running s ∧ s.saf.safe = false ∧ s.emu.updates = [] ∧ s.tagSpeaks = true ∧ s.emu.tag = .active ∧ s.emu.lockedSel = true) ∧
    (∃ (s : State) (i : Byte), Running s ∧ s.saf.safe = false ∧ s.emu.updates = [] ∧ s.tagSpeaks = true ∧ s.emu.tag = .active ∧ i.toNat ≤ 7 ∧
      s.ctrBad i.toNat = false) ∧
    (∃ (s : State), Running s ∧ s.saf.safe = false ∧ s.emu.updates = [] ∧ s.emu.tag = .active ∧ s.emu.heldWrite = none ∧ s.emu.publishing = false) :=
  ⟨⟨tagged .idle, ⟨rfl, rfl⟩, by decide +kernel, by decide +kernel, by decide +kernel, by decide +kernel⟩,
   ⟨tagged .halt, ⟨rfl, rfl⟩, by decide +kernel, by decide +kernel, by decide +kernel⟩,
   ⟨tagged .halt, ⟨rfl, rfl⟩, by decide +kernel, by decide +kernel, by decide +kernel, by decide +kernel⟩,
   ⟨(tagged .ready).modE fun x => { x with level := 1 }, [0x88, 0, 0, 0, 0x88], ⟨rfl, rfl⟩, by decide +kernel, by decide +kernel, by decide +kernel,
      by decide +kernel, by decide +kernel, by decide +kernel, by decide +kernel⟩,
   ⟨atLevel2, [0, 0, 0, 0, 0], ⟨rfl, rfl⟩, by decide +kernel, by decide +kernel, by decide +kernel, by decide +kernel, by decide +kernel,
      by decide +kernel, by decide +kernel, by decide +kernel⟩,
   ⟨tagged .active, 63, ⟨rfl, rfl⟩, by decide +kernel, by decide +kernel, by decide +kernel, by decide +kernel, by decide +kernel, by decide +kernel⟩,
   ⟨tagged .active, 64, ⟨rfl, rfl⟩, by decide +kernel, by decide +kernel, by decide +kernel, by decide +kernel, by decide +kernel, by decide +kernel⟩,
   ⟨lockedTag, ⟨rfl, rfl⟩, by decide +kernel, by decide +kernel, by decide +kernel, by decide +kernel, by decide +kernel⟩,
   ⟨tagged .active, 7, ⟨rfl, rfl⟩, by decide +kernel, by decide +kernel, by decide +kernel, by decide +kernel, by decide +kernel, by decide +kernel⟩,
   ⟨tagged .active, ⟨rfl, rfl⟩, by decide +kernel, by decide +kernel, by decide +kernel, by decide +kernel, by decide +kernel⟩⟩

/-- States and operands for the clauses of `TagBenchesAndFallsBack`, in their order. -/
theorem witness_TagBenchesAndFallsBack :
    (∃ (s : State) (dur : Byte), Running s ∧ s.saf.safe = false ∧ s.emu.updates = [] ∧ s.emu.tag = .active ∧ s.benchEn = true ∧ dur ≠ 0) ∧
    (∃ (s : State), Running s ∧ s.saf.safe = false ∧ s.emu.updates = [] ∧ s.emu.tag = .active ∧ s.benchEn = true) ∧
    (∃ (s : State), Running s ∧ s.saf.safe = false ∧ s.emu.updates = [] ∧ s.emu.tag = .active ∧ s.benchEn = true) ∧
    (∃ (s : State), Running s ∧ s.saf.safe = false ∧ s.emu.updates = [] ∧ s.emu.tag = .ready) ∧
    (∃ (s : State), Running s ∧ s.saf.safe = false ∧ s.emu.updates = [] ∧ s.emu.tag = .idle) ∧
    (∃ (s : State) (e : Nat), Running s ∧ s.emu.absentSince = some e ∧ s.emu.harvest = false ∧ s.emu.tag = .ready) ∧
    (∃ (s : State) (e : Nat), Running s ∧ s.emu.tag = .bench ∧ s.emu.benchEnd = some e) :=
  ⟨⟨tagged .active, 3, ⟨rfl, rfl⟩, by decide +kernel, by decide +kernel, by decide +kernel, by decide +kernel, by decide +kernel⟩,
   ⟨tagged .active, ⟨rfl, rfl⟩, by decide +kernel, by decide +kernel, by decide +kernel, by decide +kernel⟩,
   ⟨tagged .active, ⟨rfl, rfl⟩, by decide +kernel, by decide +kernel, by decide +kernel, by decide +kernel⟩,
   ⟨tagged .ready, ⟨rfl, rfl⟩, by decide +kernel, by decide +kernel, by decide +kernel⟩,
   ⟨tagged .idle, ⟨rfl, rfl⟩, by decide +kernel, by decide +kernel, by decide +kernel⟩,
   ⟨(tagged .ready).modE fun x => { x with absentSince := some 70 }, 70, ⟨rfl, rfl⟩, by decide +kernel, by decide +kernel, by decide +kernel⟩,
   ⟨(tagged .bench).modE fun x => { x with benchEnd := some 70 }, 70, ⟨rfl, rfl⟩, by decide +kernel, by decide +kernel⟩⟩

/-- The header of an image whose remaining bytes are 0: its reserved bytes bring the register of CHECK to 0 before them. -/
def imageHead : List Byte :=
  [0x4B, 0x59, 0x45, 0x4D, 5, 0, 0, 0, 1, 1, 1, 1, 1, 1, 1, 2] ++ List.replicate 40 0 ++ [39, 199, 25, 168, 255, 255, 255, 255]

/-- 1,024 bytes of 0. -/
@[irreducible] def zeros : List Byte := List.replicate 1024 0

/-- A device with that image in slot X. -/
def imaged : State := up.nvWrite (slotBase 0) (imageHead ++ zeros)

/-- Syncs and updates in progress, and the island that serves. -/
def syncRun : SyncRun := { slot := 1, bytes := [1, 2, 3] }
def syncing : State := up.modE fun x => { x with sync := some syncRun }
def ctrUpd (step : Nat) (again : Bool) : CtrUpd := { ctr := 3, value := 41, seq := 7, step := step, again := again }
def updating (u : CtrUpd) : State := up.modE fun x => { x with updates := [u] }
def wired (n : Nat) : State := ((tagged .active).setFld Reg.EMU_WIRE Fld.EMU_WIRE_WIRE_LOCK n).modE fun x => { x with snapshot := some [] }
def offGrid : State := { imaged with pins := { up.pins with aon := false } }
def harvesting : State := offGrid.modE fun x => { x with harvest := true, tag := .idle }

theorem zeros_length : zeros.length = 1024 := by unfold zeros; exact List.length_replicate

theorem read_write (m : List (Nat × Byte)) (d : Byte) (a : Nat) (l : List Byte) :
    Sparse.read (Sparse.write m d a l) d a l.length = l := by
  induction l generalizing m a with
  | nil => rfl
  | cons v t ih =>
    simp only [List.length_cons, Sparse.read, Sparse.write, ih]
    rw [Sparse.get_write_ne _ _ _ _ _ (by omega), Sparse.get_put_same]

theorem crc_append (w p : Nat) (b : Bool) (l m : List Byte) (r : Nat) :
    crcBytes w p b r (l ++ m) = crcBytes w p b (crcBytes w p b r l) m := by
  induction l generalizing r with
  | nil => rfl
  | cons v t ih => exact ih _

theorem crc_zeros (n : Nat) : crcBytes 32 0x1EDC6F41 true 0 (List.replicate n 0) = 0 := by
  induction n with
  | zero => rfl
  | succ n ih =>
    have h : crcByte 32 0x1EDC6F41 true 0 0 = 0 := by decide +kernel
    simpa only [List.replicate_succ, crcBytes, h] using ih

theorem image_length : (imageHead ++ zeros).length = 1088 := by rw [List.length_append, zeros_length]; rfl

theorem image_nv : imaged.emu.nv = Sparse.write up.emu.nv 0xFF 0x100 (imageHead ++ zeros) := by
  simp only [imaged, State.nvWrite, State.modE, slotBase, if_true]

theorem image_bytes : imaged.nvRead (slotBase 0) 1088 = imageHead ++ zeros := by
  rw [State.nvRead, image_nv, ← image_length]
  exact read_write _ _ _ _

theorem head_check (l : List Byte) : leAt (imageHead ++ l) 60 4 = 0xFFFFFFFF := by
  have h : ((imageHead ++ l).drop 60).take 4 = [255, 255, 255, 255] := by rfl
  rw [leAt, h]
  decide

theorem image_check : imageCheck 0 (imageHead ++ zeros) = 0xFFFFFFFF := by
  have h1 (l : List Byte) : (imageHead ++ l).take 60 = imageHead.take 60 := by rfl
  have h2 (l : List Byte) : (imageHead ++ l).drop 64 = l := by rfl
  have h4 : zeros.take 1024 = List.replicate 1024 0 := by rw [← zeros_length, List.take_length, zeros_length, zeros]
  have h3 : crcBytes 32 0x1EDC6F41 true 0xFFFFFFFF (leBytes 4 0 ++ imageHead.take 60) = 0 := by decide +kernel
  rw [imageCheck, h1, h2, h4, crc32cFold, crc32c, crcReflected, ← List.append_assoc, crc_append, h3, crc_zeros]
  decide

theorem read_take (m : List (Nat × Byte)) (d : Byte) (a n k : Nat) (h : k ≤ n) :
    (Sparse.read m d a n).take k = Sparse.read m d a k := by
  induction k generalizing a n with
  | zero => rfl
  | succ k ih =>
    obtain ⟨n, rfl⟩ : ∃ j, n = j + 1 := ⟨n - 1, by omega⟩
    simp only [Sparse.read, List.take_succ_cons, ih (a + 1) n (by omega)]

theorem other_slot : imaged.imageOk 1 = false := by
  have h : ∀ i : Nat, i < 4 → Sparse.get imaged.emu.nv 0xFF (0x600 + i) = 0xFF := by
    intro i hi
    rw [image_nv, Sparse.get_write_ne _ _ _ _ _ (by rw [image_length]; omega)]
    obtain rfl | rfl | rfl | rfl : i = 0 ∨ i = 1 ∨ i = 2 ∨ i = 3 := by omega
    all_goals decide +kernel
  have h4 : (imaged.nvRead (slotBase 1) 1088).take 4 = [0xFF, 0xFF, 0xFF, 0xFF] := by
    rw [State.nvRead, read_take _ _ _ 1088 4 (by decide)]
    simp only [Sparse.read, slotBase, Nat.reduceAdd, if_neg (show ¬ (1 = 0) by decide)]
    have h' := h 0 (by decide)
    rw [Nat.add_zero] at h'
    rw [h']
    simpa using ⟨h 1 (by decide), h 2 (by decide), h 3 (by decide)⟩
  simp only [State.imageOk, h4]
  decide

theorem imageOk_of (s : State) (k : Nat) (b : List Byte) (hb : s.nvRead (slotBase k) 1088 = b)
    (h1 : b.take 4 = [0x4B, 0x59, 0x45, 0x4D]) (h2 : leAt b 60 4 = imageCheck k b) : s.imageOk k = true := by
  subst hb
  simp only [State.imageOk, h1, h2, decide_true, Bool.and_self]

theorem image_in_force : imaged.imageInForce = some 0 := by
  have h (l : List Byte) : (imageHead ++ l).take 4 = [0x4B, 0x59, 0x45, 0x4D] := by rfl
  have h0 : imaged.imageOk 0 = true := imageOk_of _ _ _ image_bytes (h _) ((head_check _).trans image_check.symm)
  rw [State.imageInForce, h0, other_slot]

theorem image_flags : leAt (imaged.nvRead (slotBase 0) 16) 15 1 = 2 := by
  have h : imaged.nvRead (slotBase 0) 16 = (imaged.nvRead (slotBase 0) 1088).take 16 := (read_take _ _ _ 1088 16 (by decide)).symm
  rw [h, image_bytes]
  have h (l : List Byte) : (((imageHead ++ l).take 16).drop 15).take 1 = [2] := by rfl
  rw [leAt, h]
  decide

theorem pins_image (s : State) (p : PinSt) : ({ s with pins := p } : State).imageInForce = s.imageInForce := rfl

theorem off_grid_image : offGrid.imageInForce = some 0 :=
  (pins_image imaged { up.pins with aon := false }).trans image_in_force

theorem off_grid_flags : (leAt (offGrid.nvRead (slotBase 0) 16) 15 1).testBit 1 = true := by
  have h : offGrid.nvRead (slotBase 0) 16 = imaged.nvRead (slotBase 0) 16 := rfl
  rw [h, image_flags]
  decide

/-- States and operands for the clauses of `TagDataAndImages`, in their order. -/
theorem witness_TagDataAndImages :
    (∃ (s : State), Running s ∧ Sparse.wf (fun _ => (0 : Byte)) s.emu.data = true ∧ s.emu.heldWrite = none ∧ s.emu.tag ≠ .active) ∧
    (∃ (s : State), Running s ∧ s.emu.heldWrite = none ∧ s.emu.tag = .active ∧ s.flag Reg.EMU_WIRE Fld.EMU_WIRE_WIRE_LOCK = false) ∧
    (∃ (s : State) (i : Nat) (e : Nat) (l : List Word), Running s ∧ s.emu.heldWrite = some (i, l, e)) ∧
    (∃ (s : State), Running s ∧ s.lockedBlock 0x0F = false ∧ s.flag Reg.EMU_WIRE Fld.EMU_WIRE_WIRE_LOCK = false ∧ s.emu.tag = .active ∧
      s.emu.heldWrite = none) ∧
    (∃ (s : State) (m : List (Nat × Byte)), Running s ∧ s.lockedBlock 0x0F = false ∧ s.flag Reg.EMU_WIRE Fld.EMU_WIRE_WIRE_LOCK = true ∧
      s.emu.snapshot = some m) ∧
    (∃ (s : State) (k : Nat), Running s ∧ s.emu.sync = none ∧ s.imageInForce = some k) ∧
    (∃ (s : State) (r : SyncRun), Running s ∧ s.emu.sync = some r) ∧
    (∃ (s : State) (r : SyncRun), Running s ∧ s.emu.sync = some r ∧ s.emu.syncAgain = false) ∧
    (∃ (s : State) (r : SyncRun), Running s ∧ s.emu.sync = some r ∧ s.emu.syncAgain = false) :=
  ⟨⟨up, ⟨rfl, rfl⟩, rfl, rfl, by decide⟩,
   ⟨tagged .active, ⟨rfl, rfl⟩, rfl, rfl, rfl⟩,
   ⟨up.modE fun x => { x with heldWrite := some (3, [7], 50) }, 3, 50, [7], ⟨rfl, rfl⟩, rfl⟩,
   ⟨tagged .active, ⟨rfl, rfl⟩, rfl, rfl, rfl, rfl⟩,
   ⟨wired 1, [], ⟨rfl, rfl⟩, rfl, rfl, rfl⟩,
   ⟨imaged, 0, ⟨rfl, rfl⟩, rfl, image_in_force⟩,
   ⟨syncing, syncRun, ⟨rfl, rfl⟩, rfl⟩,
   ⟨syncing, syncRun, ⟨rfl, rfl⟩, rfl, rfl⟩,
   ⟨syncing, syncRun, ⟨rfl, rfl⟩, rfl, rfl⟩⟩

/-- States and operands for the clauses of `TagCountersAndHarvest`, in their order. -/
theorem witness_TagCountersAndHarvest :
    (∃ (s : State) (i : Fin 8), Running s ∧ i.val ≠ 0 ∧ s.emu.updates = [] ∧ s.ctrStuck i = false) ∧
    (∃ (s : State), Running s) ∧
    (∃ (s : State) (u : CtrUpd) (l : List CtrUpd), Running s ∧ s.emu.updates = u :: l ∧ u.step = 1) ∧
    (∃ (s : State) (u : CtrUpd), Running s ∧ s.emu.updates = [u] ∧ u.step = 3 ∧ s.emu.harvest = false) ∧
    (∃ (s : State) (u : CtrUpd) (l : List CtrUpd), Running s ∧ s.emu.updates = u :: l ∧ u.step = 1 ∧ u.again = false) ∧
    (∃ (s : State) (u : CtrUpd), Running s ∧ s.emu.updates = [u] ∧ u.step = 1 ∧ u.again = true ∧ s.emu.harvest = false ∧ u.ctr < 8) ∧
    (∃ (s : State) (k : Nat), s.pins.aon = false ∧ s.emu.harvest = false ∧ s.imageInForce = some k ∧ (leAt (s.nvRead (slotBase k) 16) 15 1).testBit 1
      = true ∧ s.emu.cell = none ∧ s.emu.benchEnd = none) ∧
    (∃ (s : State), s.emu.harvest = true ∧ s.emu.updates = [] ∧ s.emu.sync = none) :=
  ⟨⟨up, 7, ⟨rfl, rfl⟩, by decide, rfl, by decide +kernel⟩,
   ⟨up, ⟨rfl, rfl⟩⟩,
   ⟨updating (ctrUpd 1 false), ctrUpd 1 false, [], ⟨rfl, rfl⟩, rfl, rfl⟩,
   ⟨updating (ctrUpd 3 false), ctrUpd 3 false, ⟨rfl, rfl⟩, rfl, rfl, rfl⟩,
   ⟨updating (ctrUpd 1 false), ctrUpd 1 false, [], ⟨rfl, rfl⟩, rfl, rfl, rfl⟩,
   ⟨updating (ctrUpd 1 true), ctrUpd 1 true, ⟨rfl, rfl⟩, rfl, rfl, rfl, rfl, by decide⟩,
   ⟨offGrid, 0, rfl, rfl, off_grid_image, off_grid_flags, rfl, rfl⟩,
   ⟨harvesting, rfl, rfl, rfl⟩⟩

/-- Port `p` asking for its field, the grant waited for or its retry due; a lowering in progress, or at its NV write. -/
def waiting (p : Nat) : State := ((asking p).modX p fun x => { x with waitEnd := some 0 }).setFld Reg.COX_CTRL Fld.COX_CTRL_GRANT_EN 1
def toRetry (p : Nat) : State := (asking p).modX p fun x => { x with retryAt := some (asking p).time }
def denied (k : Nat) : State := up.modX 2 fun x => { x with waitEnd := some 70, deferrals := k }
def hearing : State := (up.setFld Reg.COX_CTRL Fld.COX_CTRL_BLANK0_EN 1).modR 2 fun y => { y with state := .frame }
def asleep : State := { State.reset with pwr := { PwrSt.reset with awake := .sleep } }
def lowerCmd (k port v : Nat) : List Byte := [byte k, byte port, 0, 0, byte v, byte (v / 256), 0, 0]
def lowering (k port v : Nat) : State :=
  { up.setFld Reg.COX_REG_STATUS Fld.COX_REG_STATUS_SEALED 1 with
    cfg := { CfgSt.reset with auth := some { opcode := 6, counter := 9, payload := lowerCmd k port v, stored := true } } }
def lowered (k port v : Nat) : State := { up with cox := { CoxSt.reset with lower := some (lowerCmd k port v) } }

/-- States and operands for the clauses of `CoexistenceInputs`, in their order. -/
theorem witness_CoexistenceInputs :
    (∃ (s : State), Monitored s ∧ s.live = false) ∧
    (∃ (s : State) (b : Bool) (p : Port) (since : Nat), Monitored s ∧ Running s ∧ s.flag Reg.COX_CTRL Fld.COX_CTRL_GRANT_EN = true ∧ b = !s.flag
      Reg.COX_CTRL Fld.COX_CTRL_GRANT_POL ∧ s.cox.grant = false ∧ (s.px p).waitEnd.isSome = true ∧ (s.pp p).plan = none ∧ (s.pf p).wantOn = some since
      ∧ s.huddled p = none ∧ s.onDue p = true ∧ s.flag Reg.COX_CTRL Fld.COX_CTRL_REQ_EN = false ∧ (s.pf p).notBefore ≤ s.time ∧ s.leadEnd ≤ s.time ∧
      s.field.synRun = true ∧ s.slotFor p since = true ∧ (∀ k : Fin 2, (s.advance (s.time + (2 + k.val) * cycle)).settlePast = false ∧ (s.advance
      (s.time + (2 + k.val) * cycle)).blanked p = false ∧ (s.advance (s.time + (2 + k.val) * cycle)).mayModulate p (s.time + (2 + k.val) * cycle +
      s.rampSpan p) 0 = true) ∧ (∀ m : Fin 16, m ≠ p → (s.px m).waitEnd.isSome = false ∧ (s.px m).retryAt.isSome = false) ∧ s.offWaiting = []) ∧
    (∃ (s : State) (b : Bool), Monitored s ∧ Running s ∧ s.flag Reg.COX_CTRL Fld.COX_CTRL_GRANT_EN = true ∧ s.flag Reg.COX_CTRL
      Fld.COX_CTRL_CUT_FIELD = false ∧ b = s.flag Reg.COX_CTRL Fld.COX_CTRL_GRANT_POL ∧ (∀ m : Fin 16, (s.pf m).txEnd = none)) ∧
    (∃ (s : State) (p : Port) (e : Nat), Running s ∧ (s.px p).waitEnd = some e ∧ (s.px p).deferrals < 7) ∧
    (∃ (s : State) (p : Port) (e : Nat), Running s ∧ (s.px p).waitEnd = some e ∧ 7 ≤ (s.px p).deferrals ∧ (s.pp p).plan = none) ∧
    (∃ (s : State) (p : Port) (since : Nat), Running s ∧ (s.px p).retryAt = some s.time ∧ (s.pp p).plan = none ∧ (s.pf p).wantOn = some since ∧
      s.huddled p = none ∧ s.onDue p = true ∧ s.flag Reg.COX_CTRL Fld.COX_CTRL_REQ_EN = false ∧ (s.pf p).notBefore ≤ s.time ∧ s.leadEnd ≤ s.time ∧
      s.field.synRun = true ∧ s.settlePast = false ∧ s.slotFor p since = true ∧ s.blanked p = false ∧ s.mayModulate p (s.time + s.rampSpan p) 0 = true
      ∧ s.granted = true) ∧
    (∃ (s : State) (b : Bool), Monitored s ∧ Running s ∧ s.cox.blank0 = false ∧ b = !s.flag Reg.COX_CTRL Fld.COX_CTRL_BLANK0_POL ∧ s.offWaiting = []) ∧
    (∃ (s : State) (b : Bool), Monitored s ∧ s.live = false ∧ s.cox.blank1 = true ∧ s.cox.stuck1 = false ∧ b = s.flag Reg.COX_CTRL
      Fld.COX_CTRL_BLANK1_POL) ∧
    (∃ (s : State) (p : Port) (since : Nat), Running s ∧ s.blankOn p = false ∧ s.blankTail p ≤ s.time ∧ (s.px p).retryAt = none ∧ (s.px p).waitEnd =
      none ∧ (s.pp p).plan = none ∧ (s.pf p).wantOn = some since ∧ s.huddled p = none ∧ s.onDue p = true ∧ s.flag Reg.COX_CTRL Fld.COX_CTRL_REQ_EN =
      false ∧ (s.pf p).notBefore ≤ s.time ∧ s.leadEnd ≤ s.time ∧ s.field.synRun = true ∧ s.settlePast = false ∧ s.slotFor p since = true ∧ s.blanked p
      = false ∧ s.mayModulate p (s.time + s.rampSpan p) 0 = true ∧ s.granted = true ∧ s.offWaiting = []) ∧
    (∃ (s : State) (t0 : Nat), Running s ∧ s.cox.since0 = some t0 ∧ s.flag Reg.COX_CTRL Fld.COX_CTRL_BLANK0_EN = true ∧ s.cox.stuck0 = false ∧
      s.offWaiting = []) :=
  ⟨⟨asleep, ⟨by decide, rfl⟩, by decide +kernel⟩,
   ⟨waiting 2, true, 2, 0, ⟨by decide, rfl⟩, ⟨rfl, rfl⟩, by decide +kernel, by decide +kernel, by decide +kernel, by decide +kernel,
      by decide +kernel, by decide +kernel, by decide +kernel, by decide +kernel, by decide +kernel, by decide +kernel, by decide +kernel,
      by decide +kernel, by decide +kernel, by decide +kernel, by decide +kernel, by decide +kernel⟩,
   ⟨(up.setFld Reg.COX_CTRL Fld.COX_CTRL_GRANT_EN 1), false, ⟨by decide, rfl⟩, ⟨rfl, rfl⟩, by decide +kernel, by decide +kernel, by decide +kernel,
      by decide +kernel⟩,
   ⟨denied 6, 2, 70, ⟨rfl, rfl⟩, by decide +kernel, by decide +kernel⟩,
   ⟨denied 7, 2, 70, ⟨rfl, rfl⟩, by decide +kernel, by decide +kernel, by decide +kernel⟩,
   ⟨toRetry 2, 2, 0, ⟨rfl, rfl⟩, by decide +kernel, by decide +kernel, by decide +kernel, by decide +kernel, by decide +kernel, by decide +kernel,
      by decide +kernel, by decide +kernel, by decide +kernel, by decide +kernel, by decide +kernel, by decide +kernel, by decide +kernel,
      by decide +kernel⟩,
   ⟨hearing, true, ⟨by decide, rfl⟩, ⟨rfl, rfl⟩, by decide +kernel, by decide +kernel, by decide +kernel⟩,
   ⟨{ asleep with cox := { CoxSt.reset with blank1 := true } }, false, ⟨by decide, rfl⟩, by decide +kernel, by decide +kernel, by decide +kernel,
      by decide +kernel⟩,
   ⟨asking 2, 2, 0, ⟨rfl, rfl⟩, by decide +kernel, by decide +kernel, by decide +kernel, by decide +kernel, by decide +kernel, by decide +kernel,
      by decide +kernel, by decide +kernel, by decide +kernel, by decide +kernel, by decide +kernel, by decide +kernel, by decide +kernel,
      by decide +kernel, by decide +kernel, by decide +kernel, by decide +kernel, by decide +kernel⟩,
   ⟨{ up.setFld Reg.COX_CTRL Fld.COX_CTRL_BLANK0_EN 1 with cox := { CoxSt.reset with blank0 := true, since0 := some 4 } }, 4, ⟨rfl, rfl⟩,
      by decide +kernel, by decide +kernel, by decide +kernel, by decide +kernel⟩⟩

/-- States and operands for the clauses of `RegulatoryLowerings`, in their order. -/
theorem witness_RegulatoryLowerings :
    (∃ (s : State) (p : List Byte), Running s ∧ s.authActs 6 = some p ∧ (s.flag Reg.COX_REG_STATUS Fld.COX_REG_STATUS_SEALED = false ∨ lowerBad p =
      true ∨ s.lowerLoosens p = true)) ∧
    (∃ (s : State) (p : List Byte), Running s ∧ s.authActs 6 = some p ∧ s.flag Reg.COX_REG_STATUS Fld.COX_REG_STATUS_SEALED = true ∧ lowerBad p =
      false ∧ s.lowerLoosens p = false ∧ s.lowerNow p = lowerValue p) ∧
    (∃ (s : State) (p : List Byte), Running s ∧ s.authActs 6 = some p ∧ s.flag Reg.COX_REG_STATUS Fld.COX_REG_STATUS_SEALED = true ∧ lowerBad p =
      false ∧ s.lowerLoosens p = false ∧ s.lowerNow p ≠ lowerValue p) ∧
    (∃ (s : State) (p : List Byte), Running s ∧ s.cox.lower = some p) ∧
    (∃ (s : State) (p : List Byte), Running s ∧ s.cox.lower = some p ∧ lowerKind p = 0 ∧ lowerBad p = false ∧ (s.pf (lowerPort p)).txEnd = none ∧
      (s.pf (lowerPort p)).ramp = .none) ∧
    (∃ (s : State) (p : List Byte), Running s ∧ s.cox.lower = some p ∧ lowerKind p = 1 ∧ lowerBad p = false) :=
  ⟨⟨lowering 9 0 0, lowerCmd 9 0 0, ⟨rfl, rfl⟩, by decide +kernel, by decide +kernel⟩,
   ⟨(lowering 1 0 200).setFld Reg.COX_REG_GLOBAL Fld.COX_REG_GLOBAL_DUTY_CEIL 200, lowerCmd 1 0 200, ⟨rfl, rfl⟩, by decide +kernel,
      by decide +kernel, by decide +kernel, by decide +kernel, by decide +kernel⟩,
   ⟨(lowering 1 0 200).setFld Reg.COX_REG_GLOBAL Fld.COX_REG_GLOBAL_DUTY_CEIL 250, lowerCmd 1 0 200, ⟨rfl, rfl⟩, by decide +kernel,
      by decide +kernel, by decide +kernel, by decide +kernel, by decide +kernel⟩,
   ⟨lowered 1 0 200, lowerCmd 1 0 200, ⟨rfl, rfl⟩, by decide +kernel⟩,
   ⟨lowered 0 5 200, lowerCmd 0 5 200, ⟨rfl, rfl⟩, by decide +kernel, by decide +kernel, by decide +kernel, by decide +kernel, by decide +kernel⟩,
   ⟨lowered 1 0 200, lowerCmd 1 0 200, ⟨rfl, rfl⟩, by decide +kernel, by decide +kernel, by decide +kernel⟩⟩

/-- An injection in progress, a lane enabled, TEST. -/
def injecting (c w : Nat) : State := { up with saf := { SafSt.reset with inject := some { code := c, target := w, trip := false, since := 0 } } }
def laneOn : State := { up with saf := { SafSt.reset with enCopy := 1 } }
def laneOnSafe : State := { up with saf := { SafSt.reset with enCopy := 1, safe := true } }
def testing : State := { up with gen := { up.gen with phase := .test } }
def unseen (c w : Nat) : State := { up with saf := { SafSt.reset with safe := true, unseen := some (c, w) } }
/-- An authenticated command about to act. -/
def acting (op : Nat) (p : List Byte) (s : State) : State :=
  { s with cfg := { CfgSt.reset with auth := some { opcode := op, counter := 9, payload := p, stored := true } } }
def sight : FieldSight := { drive := 0, load := 0, current := 0, pa := 0, en := false }
/-- A locked ceiling of 100 on port 2. -/
def lowCeil : State := up.modF 2 fun y => { y with ceil := 100 }

/-- States and operands for the clauses of `SafetyMonitors`, in their order. -/
theorem witness_SafetyMonitors :
    (∃ (s : State) (p : Port) (seen : FieldSight), Monitored s ∧ s.saf.safe = false ∧ s.fld Reg.SAF_FIRST Fld.SAF_FIRST_CODE = 0 ∧ s.injected 1 p =
      none ∧ s.aboveCeiling p seen = true) ∧
    (∃ (s : State) (p : Port) (seen : FieldSight), Monitored s ∧ s.injected 1 p = none ∧ s.aboveCeiling p seen = false) ∧
    (∃ (s : State) (p : Port) (seen : FieldSight) (e : Nat), Monitored s ∧ s.saf.safe = false ∧ s.fld Reg.SAF_FIRST Fld.SAF_FIRST_CODE = 0 ∧
      s.injected 2 p = none ∧ s.offFrom p = some e ∧ (s.advance (e + s.filterTime 2)).activeOff p seen = true) ∧
    (∃ (s : State) (p : Port) (seen : FieldSight) (x : Inject), Monitored s ∧ s.injected 2 p = some x ∧ x.trip = false ∧ s.offFrom p = none ∧
      s.activeOff p seen = false) ∧
    (∃ (s : State) (l : Lane) (b : Bool), Monitored s ∧ s.saf.safe = false ∧ s.fld Reg.SAF_FIRST Fld.SAF_FIRST_CODE = 0 ∧ s.injected 3 l = none ∧
      s.saf.enCopy.testBit l = true ∧ b = !s.goLevel l) ∧
    (∃ (s : State) (l : Lane) (b : Bool), Monitored s ∧ s.saf.safe = true ∧ s.saf.enCopy.testBit l = true ∧ b = true) ∧
    (∃ (s : State) (n : Byte), Monitored s ∧ s.pwr.awake = .running ∧ 94 ≤ n.toNat ∧ n.toNat ≤ 98) ∧
    (∃ (s : State) (n : Byte), Monitored s ∧ s.pwr.awake = .running ∧ 94 ≤ n.toNat ∧ n.toNat ≤ 98) ∧
    (∃ (s : State) (n : Byte), Monitored s ∧ s.pwr.awake = .running ∧ s.saf.safe = false ∧ s.fld Reg.SAF_FIRST Fld.SAF_FIRST_CODE = 0 ∧ s.injected 5
      0 = none ∧ (n.toNat < 94 ∨ 98 < n.toNat)) ∧
    (∃ (s : State) (n : Byte), Monitored s ∧ s.pwr.awake = .running ∧ s.saf.safe = false ∧ s.fld Reg.SAF_FIRST Fld.SAF_FIRST_CODE = 0 ∧ s.injected 5
      0 = none ∧ (n.toNat < 94 ∨ 98 < n.toNat)) ∧
    (∃ (s : State), Running s) ∧
    (∃ (s : State), Monitored s ∧ s.pwr.awake = .running ∧ s.saf.safe = false ∧ s.fld Reg.SAF_FIRST Fld.SAF_FIRST_CODE = 0 ∧ s.injected 6 0 = none) ∧
    (∃ (s : State) (n : Byte), Running s ∧ 72 ≤ n.toNat ∧ n.toNat ≤ 88) ∧
    (∃ (s : State) (n : Byte), Running s ∧ s.saf.safe = false ∧ s.fld Reg.SAF_FIRST Fld.SAF_FIRST_CODE = 0 ∧ s.injected 7 0 = none ∧ (n.toNat < 72 ∨
      88 < n.toNat)) ∧
    (∃ (s : State), Monitored s ∧ s.saf.safe = false ∧ s.fld Reg.SAF_FIRST Fld.SAF_FIRST_CODE = 0 ∧ s.injected 9 0 = none) ∧
    (∃ (s : State), Monitored s ∧ s.saf.safe = false ∧ s.fld Reg.SAF_FIRST Fld.SAF_FIRST_CODE = 0) ∧
    (∃ (s : State), Monitored s) ∧
    (∃ (s : State) (c : Nat) (w : Nat), Running s ∧ s.saf.unseen = some (c, w)) ∧
    (∃ (s : State) (v : Word), Running s ∧ s.gen.phase = .test ∧ 1 ≤ Fld.SAF_INJECT_CODE.get v ∧ Fld.SAF_INJECT_CODE.get v ≤ 9 ∧
      Fld.SAF_INJECT_CODE.get v ≠ 4 ∧ Fld.SAF_INJECT_CODE.get v ≠ 8) ∧
    (∃ (s : State) (v : Word), Running s ∧ s.gen.phase = .test ∧ (Fld.SAF_INJECT_CODE.get v = 4 ∨ Fld.SAF_INJECT_CODE.get v = 8) ∧
      Fld.SAF_INJECT_TRIP.get v = 0) ∧
    (∃ (s : State) (p : List Byte), Running s ∧ s.authActs 7 = some p ∧ s.gen.phase = .run) ∧
    (∃ (s : State) (p : List Byte), Running s ∧ s.authActs 7 = some p ∧ s.gen.phase ≠ .run) :=
  ⟨⟨lowCeil, 2, { sight with load := 1000000, drive := 0 }, ⟨by decide, rfl⟩, by decide +kernel, by decide +kernel, by decide +kernel,
      by decide +kernel⟩,
   ⟨up, 15, sight, ⟨by decide, rfl⟩, by decide +kernel, by decide +kernel⟩,
   ⟨up, 0, { sight with current := 1000000 }, 25600, ⟨by decide, rfl⟩, by decide +kernel, by decide +kernel, by decide +kernel, by decide +kernel,
      by decide +kernel⟩,
   ⟨(injecting 2 7).modF 7 fun y => { y with carrier := true }, 7, sight, { code := 2, target := 7, trip := false, since := 0 }, ⟨by decide, rfl⟩,
      by decide +kernel, by decide +kernel, by decide +kernel, by decide +kernel⟩,
   ⟨laneOn, 0, true, ⟨by decide, rfl⟩, by decide +kernel, by decide +kernel, by decide +kernel, by decide +kernel, by decide +kernel⟩,
   ⟨laneOnSafe, 0, true, ⟨by decide, rfl⟩, by decide +kernel, by decide +kernel, by decide +kernel⟩,
   ⟨up, 94, ⟨by decide, rfl⟩, by decide +kernel, by decide +kernel, by decide +kernel⟩,
   ⟨up, 98, ⟨by decide, rfl⟩, by decide +kernel, by decide +kernel, by decide +kernel⟩,
   ⟨up, 0, ⟨by decide, rfl⟩, by decide +kernel, by decide +kernel, by decide +kernel, by decide +kernel, by decide +kernel⟩,
   ⟨up, 99, ⟨by decide, rfl⟩, by decide +kernel, by decide +kernel, by decide +kernel, by decide +kernel, by decide +kernel⟩,
   ⟨up, ⟨rfl, rfl⟩⟩,
   ⟨up, ⟨by decide, rfl⟩, by decide +kernel, by decide +kernel, by decide +kernel, by decide +kernel⟩,
   ⟨up, 72, ⟨rfl, rfl⟩, by decide +kernel, by decide +kernel⟩,
   ⟨up, 71, ⟨rfl, rfl⟩, by decide +kernel, by decide +kernel, by decide +kernel, by decide +kernel⟩,
   ⟨up, ⟨by decide, rfl⟩, by decide +kernel, by decide +kernel, by decide +kernel⟩,
   ⟨up, ⟨by decide, rfl⟩, by decide +kernel, by decide +kernel⟩,
   ⟨up, ⟨by decide, rfl⟩⟩,
   ⟨unseen 10 0, 10, 0, ⟨rfl, rfl⟩, by decide +kernel⟩,
   ⟨testing, 0x201, ⟨rfl, rfl⟩, by decide +kernel, by decide +kernel, by decide +kernel, by decide +kernel, by decide +kernel⟩,
   ⟨testing, 0x208, ⟨rfl, rfl⟩, by decide +kernel, by decide +kernel, by decide +kernel⟩,
   ⟨acting 7 [] up, [], ⟨rfl, rfl⟩, by decide +kernel, by decide +kernel⟩,
   ⟨acting 7 [] testing, [], ⟨rfl, rfl⟩, by decide +kernel, by decide +kernel⟩⟩

/-- The recorder with a record to write, ready or not, a freeze in force, a staging page, a rate-limit window. -/
def aRecord : Rec :=
  { code := 0x1234, note := .top, snaps := 0, vault := false, trigger := 0, isMatched := false, held := false, seq := 3, dt := 5, wt := 6,
    arg := 7, snap := [] }
def recording (x : SilSt) : State := { up with obs := { up.obs with sil := { x with intake := [aRecord], ready := true } } }
def initialising : State := { up with obs := { up.obs with sil := { SilSt.reset with intake := [aRecord] } } }
def frozen : State := { up.setFld Reg.SIL_FREEZE Fld.SIL_FREEZE_FREEZE 1 with obs := { up.obs with sil := { SilSt.reset with freezeEnd := some 70 } } }
def aWindow (k : Nat) : Window :=
  { code := 0xC001, scope := 2, note := .top, form := .count, arg := 0, ends := 0, length := 100, held := k }
def rateLimited (k : Nat) : State := { up with obs := { up.obs with windows := [aWindow k] } }
def aStage : Stage := { recs := [aRecord], since := 5, handed := false }
def staged : State := { up with obs := { up.obs with sil := { SilSt.reset with stages := [aStage] } } }

/-- States and operands for the clauses of `RecorderRing`, in their order. -/
theorem witness_RecorderRing :
    (∃ (s : State) (r : Rec) (rest : List Rec) (l : Nat), Clocked s ∧ s.silBlocked = false ∧ s.obs.sil.stopped = false ∧ s.obs.sil.hold = [] ∧
      s.obs.sil.intake = r :: rest ∧ s.obs.sil.chooseLine r.note = some l) ∧
    (∃ (s : State) (r : Rec) (rest : List Rec), Clocked s ∧ s.silBlocked = true ∧ s.obs.sil.hold.length < 64 ∧ s.obs.sil.intake = r :: rest) ∧
    (∃ (s : State) (r : Rec) (rest : List Rec) (l : Nat), Clocked s ∧ s.silBlocked = false ∧ s.obs.sil.stopped = false ∧ s.obs.sil.hold = [] ∧
      s.obs.sil.intake = r :: rest ∧ s.obs.sil.chooseLine r.note = some l ∧ s.obs.sil.retired = []) ∧
    (∃ (s : State) (v : Word), Clocked s ∧ s.flag Reg.SIL_FREEZE Fld.SIL_FREEZE_FREEZE = false ∧ v = 1) ∧
    (∃ (s : State) (v : Word), Clocked s ∧ v = 0) ∧
    (∃ (s : State) (e : Nat), Clocked s ∧ s.obs.sil.freezeEnd = some e) ∧
    (∃ (s : State) (p : List Byte), Clocked s ∧ s.authActs 4 = some p ∧ 1 < leAt p 0 4) ∧
    (∃ (s : State) (p : List Byte), Clocked s ∧ s.authActs 4 = some p ∧ leAt p 0 4 ≤ 1) ∧
    (∃ (s : State), Clocked s) ∧
    (∃ (s : State), Clocked s) ∧
    (∃ (s : State) (g : Stage), Clocked s ∧ s.obs.sil.stages = [g] ∧ g.handed = false) ∧
    (∃ (s : State) (c : Nat) (k : Nat) (w : Window), Clocked s ∧ s.obs.windows = [w] ∧ w.code = c ∧ w.scope = k ∧ w.held = 0 ∧ w.ends ≤ s.time) ∧
    (∃ (s : State) (c : Nat) (k : Nat) (w : Window), Clocked s ∧ s.obs.windows = [w] ∧ w.code = c ∧ w.scope = k ∧ 0 < w.held ∧ w.ends ≤ s.time) :=
  ⟨⟨recording SilSt.reset, aRecord, [], 0, rfl, by decide +kernel, by decide +kernel, by decide +kernel, by decide +kernel, by decide +kernel⟩,
   ⟨initialising, aRecord, [], rfl, by decide +kernel, by decide +kernel, by decide +kernel⟩,
   ⟨recording SilSt.reset, aRecord, [], 0, rfl, by decide +kernel, by decide +kernel, by decide +kernel, by decide +kernel, by decide +kernel,
      by decide +kernel⟩,
   ⟨up, 1, rfl, by decide +kernel, by decide +kernel⟩,
   ⟨frozen, 0, rfl, by decide +kernel⟩,
   ⟨frozen, 70, rfl, by decide +kernel⟩,
   ⟨acting 4 [2, 0, 0, 0] up, [2, 0, 0, 0], rfl, by decide +kernel, by decide +kernel⟩,
   ⟨acting 4 [1, 0, 0, 0] up, [1, 0, 0, 0], rfl, by decide +kernel, by decide +kernel⟩,
   ⟨up, rfl⟩,
   ⟨up, rfl⟩,
   ⟨staged, aStage, rfl, by decide +kernel, by decide +kernel⟩,
   ⟨rateLimited 0, 0xC001, 2, aWindow 0, rfl, by decide +kernel, by decide +kernel, by decide +kernel, by decide +kernel, by decide +kernel⟩,
   ⟨rateLimited 3, 0xC001, 2, aWindow 3, rfl, by decide +kernel, by decide +kernel, by decide +kernel, by decide +kernel, by decide +kernel⟩⟩

/-- Timer 3 counting, and with a capture source. -/
def ticking : State := (up.setReg (Reg.TMR_T_CMP0 3) 1).setTimer 3 { nextTick := some 70 }
def capturing : State := up.setFld (Reg.TMR_T_CTRL 3) Fld.TMR_T_CTRL_CAPT_EDGE 3
def captured : State := capturing.modCapt 3 fun x => { x with isNew := true }

/-- States and operands for the clauses of `TimersAndWallTime`, in their order. -/
theorem witness_TimersAndWallTime :
    (∃ (s : State) (k : TimerId) (e : Nat) (n : Nat), Running s ∧ (s.timer k).nextTick = some e ∧ s.flag (Reg.TMR_T_XTRIG k) Fld.TMR_T_XTRIG_XEN =
      false ∧ s.flag (Reg.TMR_T_CTRL k) Fld.TMR_T_CTRL_EVT_CMP0 = false ∧ s.flag (Reg.TMR_T_CTRL k) Fld.TMR_T_CTRL_EVT_CMP1 = false ∧ s.flag
      (Reg.TMR_T_CTRL k) Fld.TMR_T_CTRL_EVT_WRAP = false ∧ n = (if (s.reg (Reg.TMR_T_RELOAD k)).toNat ≤ (s.reg (Reg.TMR_T_COUNT k)).toNat then 0 else
      (s.reg (Reg.TMR_T_COUNT k)).toNat + 1)) ∧
    (∃ (s : State) (k : TimerId) (b : Bool), Running s ∧ s.captures k b = true ∧ (s.captOf k).isNew = false) ∧
    (∃ (s : State) (k : TimerId) (b : Bool), Running s ∧ s.captures k b = true ∧ (s.captOf k).isNew = true) ∧
    (∃ (s : State), Running s) ∧
    (∃ (s : State), Running s) ∧
    (∃ (s : State) (p : List Byte), Running s ∧ s.authActs 5 = some p ∧ wallLimit ≤ leAt p 0 8) ∧
    (∃ (s : State) (p : List Byte), Running s ∧ s.authActs 5 = some p ∧ leAt p 0 8 < wallLimit ∧ s.dt < 2 ^ 63) ∧
    (∃ (s : State) (n : Nat), Running s ∧ s.flag Reg.TMR_SLOW_RATE Fld.TMR_SLOW_RATE_RATE_AUTO = true ∧ 15000 ≤ (n + 200) / 400 ∧ (n + 200) / 400 ≤
      16250) ∧
    (∃ (s : State) (n : Nat), Running s ∧ s.flag Reg.TMR_SLOW_RATE Fld.TMR_SLOW_RATE_RATE_AUTO = true ∧ ((n + 200) / 400 < 15000 ∨ 16250 < (n + 200)
      / 400)) ∧
    (∃ (s : State) (k : TimerId) (e : Nat) (n : Nat), Running s ∧ (s.timer k).nextTick = some e ∧ n = (if (s.reg (Reg.TMR_T_RELOAD k)).toNat ≤ (s.reg
      (Reg.TMR_T_COUNT k)).toNat then 0 else (s.reg (Reg.TMR_T_COUNT k)).toNat + 1)) ∧
    (∃ (s : State) (k : TimerId) (e : Nat) (n : Nat), Running s ∧ (s.timer k).nextTick = some e ∧ n = (if (s.reg (Reg.TMR_T_RELOAD k)).toNat ≤ (s.reg
      (Reg.TMR_T_COUNT k)).toNat then 0 else (s.reg (Reg.TMR_T_COUNT k)).toNat + 1)) :=
  ⟨⟨ticking, 3, 70, 1, ⟨rfl, rfl⟩, by decide +kernel, by decide +kernel, by decide +kernel, by decide +kernel, by decide +kernel, by decide +kernel⟩,
   ⟨capturing, 3, true, ⟨rfl, rfl⟩, by decide +kernel, by decide +kernel⟩,
   ⟨captured, 3, true, ⟨rfl, rfl⟩, by decide +kernel, by decide +kernel⟩,
   ⟨captured, ⟨rfl, rfl⟩⟩,
   ⟨ticking, ⟨rfl, rfl⟩⟩,
   ⟨acting 5 [0, 0, 0, 0, 0, 0, 0, 255] up, [0, 0, 0, 0, 0, 0, 0, 255], ⟨rfl, rfl⟩, by decide +kernel, by decide +kernel⟩,
   ⟨acting 5 [1, 0, 0, 0, 0, 0, 0, 0] up, [1, 0, 0, 0, 0, 0, 0, 0], ⟨rfl, rfl⟩, by decide +kernel, by decide +kernel, by decide +kernel⟩,
   ⟨up.setFld Reg.TMR_SLOW_RATE Fld.TMR_SLOW_RATE_RATE_AUTO 1, 6250000, ⟨rfl, rfl⟩, by decide +kernel, by decide +kernel, by decide +kernel⟩,
   ⟨up.setFld Reg.TMR_SLOW_RATE Fld.TMR_SLOW_RATE_RATE_AUTO 1, 1, ⟨rfl, rfl⟩, by decide +kernel, by decide +kernel⟩,
   ⟨ticking, 3, 70, 1, ⟨rfl, rfl⟩, by decide +kernel, by decide +kernel⟩,
   ⟨((ticking.setFld (Reg.TMR_T_XTRIG 3) Fld.TMR_T_XTRIG_XEN 1).setFld (Reg.TMR_T_XTRIG 3) Fld.TMR_T_XTRIG_ACTION 3).setFld (Reg.TMR_T_XTRIG 3)
      Fld.TMR_T_XTRIG_TARGET 3, 3, 70, 1, ⟨rfl, rfl⟩, by decide +kernel, by decide +kernel⟩⟩

/-- Entries of the event queue. -/
def entry (p : Nat) : EvqEntry := { code := 0x1001, note := .top, prio := p, prioIn := p, ms := 0, arg := 5, since := 0 }
def eventful (l m : List EvqEntry) : State := { up with obs := { up.obs with evq := { up.obs.evq with intake := l, entries := m } } }
def aging : State := (eventful [] [entry 0, entry 2]).setFld Reg.QUE_EVQ_CTRL Fld.QUE_EVQ_CTRL_AGE_LIMIT 0

/-- States and operands for the clauses of `EventQueueMoves`, in their order. -/
theorem witness_EventQueueMoves :
    (∃ (s : State) (h : EvqEntry) (rest : List EvqEntry), Clocked s ∧ s.obs.evq.intake = h :: rest ∧ s.obs.evq.entries.length < 1024) ∧
    (∃ (s : State) (h : EvqEntry) (rest : List EvqEntry), Clocked s ∧ s.obs.evq.intake = h :: rest ∧ 1024 ≤ s.obs.evq.entries.length ∧ h.prio ≠ 0) ∧
    (∃ (s : State) (h : EvqEntry) (rest : List EvqEntry) (p : Nat), Clocked s ∧ s.obs.evq.intake = h :: rest ∧ 1024 ≤ s.obs.evq.entries.length ∧
      h.prio = 0 ∧ p < 4 ∧ (p = 3 ∨ (p = 2 ∧ s.evqAt 3 = 0) ∨ (p = 1 ∧ s.evqAt 3 = 0 ∧ s.evqAt 2 = 0)) ∧ s.evqAt p ≠ 0) ∧
    (∃ (s : State) (e : EvqEntry), Clocked s ∧ s.evqHead = some e) ∧
    (∃ (s : State), Clocked s ∧ s.obs.evq.entries = []) ∧
    (∃ (s : State) (n : Nat), Clocked s ∧ s.obs.evq.intake = [] ∧ s.obs.sil.intake = [] ∧ s.obs.sil.hold = [] ∧ s.obs.posted = [] ∧ n =
      (s.obs.evq.entries.filter fun e => decide (0 < e.prio) && decide (s.fld Reg.QUE_EVQ_CTRL Fld.QUE_EVQ_CTRL_AGE_LIMIT * msec ≤ (s.time / (100 *
      usec) + 1) * (100 * usec) - e.since)).length) :=
  ⟨⟨eventful [entry 2] [entry 1], entry 2, [], rfl, by decide +kernel, by decide +kernel⟩,
   ⟨eventful [entry 2] (List.replicate 1024 (entry 1)), entry 2, [], rfl, by decide +kernel, by decide +kernel, by decide +kernel⟩,
   ⟨eventful [entry 0] (List.replicate 1024 (entry 1)), entry 0, [], 1, rfl, by decide +kernel, by decide +kernel, by decide +kernel,
      by decide +kernel, by decide +kernel, by decide +kernel⟩,
   ⟨eventful [] [entry 2, entry 1], entry 1, rfl, by decide +kernel⟩,
   ⟨up, rfl, by decide +kernel⟩,
   ⟨aging, 1, rfl, by decide +kernel, by decide +kernel, by decide +kernel, by decide +kernel, by decide +kernel⟩⟩

/-- Channel 1 running a range, and about to take one up. -/
def ranging : State := up.setChan 1 { CrcSt.reset with range := some (0x600000, 4), rangeEnd := 0 }
def rangeSet : State := (up.setReg (Reg.CRC_CH_RANGE_ADDR 1) 0x600000).setReg (Reg.CRC_CH_RANGE_LEN 1) 4

/-- States and operands for the clauses of `CheckChannels`, in their order. -/
theorem witness_CheckChannels :
    (∃ (s : State) (c : Chan), Running s ∧ s.crcBusy c = false ∧ s.fld (Reg.CRC_CH_CFG c) Fld.CRC_CH_CFG_FOLD_MODE ≠ 1) ∧
    (∃ (s : State) (c : Chan), Running s ∧ s.crcBusy c = false ∧ s.fld (Reg.CRC_CH_CFG c) Fld.CRC_CH_CFG_FOLD_MODE = 1) ∧
    (∃ (s : State) (c : Chan), Running s ∧ s.crcBusy c = false) ∧
    (∃ (s : State) (c : Chan), Running s ∧ s.crcBusy c = false) ∧
    (∃ (s : State) (c : Chan), Running s ∧ s.crcBusy c = false) ∧
    (∃ (s : State) (c : Chan) (v : Word) (b : Bool) (i : Instr), Running s ∧ s.crcBusy c = true ∧ i ∈ [.start c, .data8 c v, .data16 c v, .data32 c
      v, .rangeGo c b]) ∧
    (∃ (s : State) (c : Chan) (v : Word) (b : Bool) (i : Instr), Running s ∧ s.crcBusy c = true ∧ i ∈ [.start c, .data8 c v, .data16 c v, .data32 c
      v, .rangeGo c b]) ∧
    (∃ (s : State) (c : Chan) (v : Word) (b : Bool) (i : Instr), Running s ∧ s.crcBusy c = true ∧ i ∈ [.start c, .data8 c v, .data16 c v, .data32 c
      v, .rangeGo c b]) ∧
    (∃ (s : State) (c : Chan), Running s ∧ s.crcBusy c = false ∧ 0x600000 ≤ (s.reg (Reg.CRC_CH_RANGE_ADDR c)).toNat ∧ (s.reg (Reg.CRC_CH_RANGE_ADDR
      c)).toNat + (s.reg (Reg.CRC_CH_RANGE_LEN c)).toNat ≤ 0xA00000 ∧ 0 < (s.reg (Reg.CRC_CH_RANGE_LEN c)).toNat) ∧
    (∃ (s : State) (c : Chan) (a : Nat) (n : Nat), Running s ∧ (s.chan c).range = some (a, n) ∧ (s.chan c).rangeEnd ≤ s.time) ∧
    (∃ (s : State) (c : Chan) (a : Nat) (n : Nat), Running s ∧ (s.chan c).range = some (a, n)) :=
  ⟨⟨up, 1, ⟨rfl, rfl⟩, by decide +kernel, by decide +kernel⟩,
   ⟨up.setFld (Reg.CRC_CH_CFG 1) Fld.CRC_CH_CFG_FOLD_MODE 1, 1, ⟨rfl, rfl⟩, by decide +kernel, by decide +kernel⟩,
   ⟨up, 1, ⟨rfl, rfl⟩, by decide +kernel⟩,
   ⟨up, 1, ⟨rfl, rfl⟩, by decide +kernel⟩,
   ⟨up, 1, ⟨rfl, rfl⟩, by decide +kernel⟩,
   ⟨ranging, 1, 0x12345678, false, .start 1, ⟨rfl, rfl⟩, by decide +kernel, by decide +kernel⟩,
   ⟨ranging, 1, 0x12345678, false, .data8 1 0x12345678, ⟨rfl, rfl⟩, by decide +kernel, by decide +kernel⟩,
   ⟨ranging, 1, 0x12345678, true, .rangeGo 1 true, ⟨rfl, rfl⟩, by decide +kernel, by decide +kernel⟩,
   ⟨rangeSet, 1, ⟨rfl, rfl⟩, by decide +kernel, by decide +kernel, by decide +kernel, by decide +kernel⟩,
   ⟨ranging, 1, 0x600000, 4, ⟨rfl, rfl⟩, by decide +kernel, by decide +kernel⟩,
   ⟨ranging, 1, 0x600000, 4, ⟨rfl, rfl⟩, by decide +kernel⟩⟩

/-- A SIL_CLEAR under the all-zero key with COUNTER 1, its last word optional; the header of an empty image of version 7. -/
def clearWords (tag : Word) : List Word := [0x404, 1, 0, 0x5501CFAD, tag]
def emptyImage : List Byte :=
  [0x4B, 0x59, 0x43, 0x46, 1, 0, 0, 0, 7, 0, 0, 0, 64, 0, 0, 0, 0, 0, 0, 0, 0x80, 0x16, 0xB1, 0] ++ List.replicate 28 0 ++
    [215, 110, 56, 161, 154, 120, 140, 161, 39, 237, 100, 46]
def rollingBack (l : List Byte) : State :=
  let s := acting 1 [7, 0, 0, 0] up
  { s with cfg := { s.cfg with rollback := true, boot := Sparse.write [] 0xFF 0x410000 l } }
def newKey : List Byte := List.replicate 16 7 ++ [1, 0, 0, 0]
def storing : State := { up with cfg := { up.cfg with auth := some { opcode := 4, counter := 9, payload := [], stored := false } } }
def bootBusy : State := { acting 1 [7, 0, 0, 0] up with cfg := { (acting 1 [7, 0, 0, 0] up).cfg with bootOp := some (.read, 0) } }
def rotated : State := { up with cfg := { up.cfg with zeroing := some 5 } }

/-- States and operands for the clauses of `AuthenticatedCommands`, in their order. -/
theorem witness_AuthenticatedCommands :
    (∃ (s : State) (a : BitVec 24), HostReady s ∧ a ≠ 0) ∧
    (∃ (s : State), HostReady s) ∧
    (∃ (s : State) (l : List Word), HostReady s ∧ l ≠ [] ∧ s.cfg.auth.isSome = true) ∧
    (∃ (s : State) (l : List Word), HostReady s ∧ l ≠ [] ∧ s.cfg.auth = none ∧ s.gen.phase ≠ .run ∧ s.gen.phase ≠ .test ∧ s.gen.phase ≠ .recovery) ∧
    (∃ (s : State) (l : List Word) (r : Nat), HostReady s ∧ l ≠ [] ∧ s.cfg.auth = none ∧ (s.gen.phase = .run ∨ s.gen.phase = .test ∨ s.gen.phase =
      .recovery) ∧ r = (if authForm (unpackWords l) = false then 3 else if s.tagNow (s.authMessage (unpackWords l)) ≠ some ((unpackWords l).drop
      ((unpackWords l).length - 8)) then 4 else if leAt (unpackWords l) 4 4 ≤ s.cfg.counter then 5 else 0) ∧ r ≠ 0) ∧
    (∃ (s : State) (l : List Word) (r : Nat), HostReady s ∧ l ≠ [] ∧ s.cfg.auth = none ∧ (s.gen.phase = .run ∨ s.gen.phase = .test ∨ s.gen.phase =
      .recovery) ∧ r = (if authForm (unpackWords l) = false then 3 else if s.tagNow (s.authMessage (unpackWords l)) ≠ some ((unpackWords l).drop
      ((unpackWords l).length - 8)) then 4 else if leAt (unpackWords l) 4 4 ≤ s.cfg.counter then 5 else 0) ∧ r ≠ 0) ∧
    (∃ (s : State) (l : List Word) (r : Nat), HostReady s ∧ l ≠ [] ∧ s.cfg.auth = none ∧ (s.gen.phase = .run ∨ s.gen.phase = .test ∨ s.gen.phase =
      .recovery) ∧ r = (if authForm (unpackWords l) = false then 3 else if s.tagNow (s.authMessage (unpackWords l)) ≠ some ((unpackWords l).drop
      ((unpackWords l).length - 8)) then 4 else if leAt (unpackWords l) 4 4 ≤ s.cfg.counter then 5 else 0) ∧ r ≠ 0) ∧
    (∃ (s : State) (l : List Word), HostReady s ∧ l ≠ [] ∧ s.cfg.auth = none ∧ (s.gen.phase = .run ∨ s.gen.phase = .test ∨ s.gen.phase = .recovery) ∧
      authForm (unpackWords l) = true ∧ s.tagNow (s.authMessage (unpackWords l)) = some ((unpackWords l).drop ((unpackWords l).length - 8)) ∧
      s.cfg.counter < leAt (unpackWords l) 4 4) ∧
    (∃ (s : State) (a : AuthCmd), Running s ∧ s.cfg.auth = some a ∧ a.stored = false) ∧
    (∃ (s : State) (a : AuthCmd), Running s ∧ s.cfg.auth = some a ∧ a.stored = false) ∧
    (∃ (s : State) (p : List Byte), Running s ∧ s.authActs 1 = some p ∧ s.cfg.rollback = false ∧ s.cfg.bootOp = none) ∧
    (∃ (s : State) (p : List Byte), Running s ∧ s.authActs 1 = some p ∧ s.cfg.rollback = false ∧ s.cfg.bootOp.isSome = true) ∧
    (∃ (s : State) (p : List Byte), Running s ∧ s.authActs 1 = some p ∧ s.cfg.rollback = true ∧ (s.slotCheck s.slotOther ≠ 1 ∨ hdrVer (s.header
      s.slotOther) ≠ leAt p 0 4)) ∧
    (∃ (s : State) (p : List Byte) (e : RetireEnd), Running s ∧ s.authActs 1 = some p ∧ s.cfg.rollback = true ∧ s.cfg.zeroing = none ∧ s.slotCheck
      s.slotOther = 1 ∧ hdrVer (s.header s.slotOther) = leAt p 0 4 ∧ (e = .verified ∨ e = .unverified)) ∧
    (∃ (s : State) (p : List Byte) (e : RetireEnd), Running s ∧ s.authActs 1 = some p ∧ s.cfg.rollback = true ∧ s.cfg.zeroing = none ∧ s.slotCheck
      s.slotOther = 1 ∧ hdrVer (s.header s.slotOther) = leAt p 0 4 ∧ (e = .lostAfterCopy0 ∨ e = .lostCompacting)) ∧
    (∃ (s : State) (p : List Byte) (x : KeyCopy), Running s ∧ s.authActs 2 = some p ∧ s.keyNow = some x ∧ (leAt p 16 2 ≠ x.gen + 1 ∨ aesDecrypt x.key
      (p.take 16) = List.replicate 16 0)) ∧
    (∃ (s : State) (p : List Byte) (x : KeyCopy) (y : KeyCopy), Running s ∧ s.authActs 2 = some p ∧ s.keyNow = some x ∧ leAt p 16 2 = x.gen + 1 ∧
      aesDecrypt x.key (p.take 16) ≠ List.replicate 16 0 ∧ y = { key := aesDecrypt x.key (p.take 16), gen := x.gen + 1, valid := true }) ∧
    (∃ (s : State) (c : Nat), Running s ∧ s.cfg.auth = none ∧ s.cfg.zeroing = some c) ∧
    (∃ (s : State) (c : Nat), Running s ∧ s.cfg.auth = none ∧ s.cfg.zeroing = some c) :=
  ⟨⟨up, 4, ⟨rfl, rfl⟩, by decide +kernel⟩,
   ⟨up, ⟨rfl, rfl⟩⟩,
   ⟨storing, [1], ⟨rfl, rfl⟩, by decide +kernel, by decide +kernel⟩,
   ⟨{ up with gen := { up.gen with phase := .safe } }, [1], ⟨rfl, rfl⟩, by decide +kernel, by decide +kernel, by decide +kernel, by decide +kernel,
      by decide +kernel⟩,
   ⟨up, [1], 3, ⟨rfl, rfl⟩, by decide +kernel, by decide +kernel, by decide +kernel, by decide +kernel, by decide +kernel⟩,
   ⟨up, clearWords 1, 4, ⟨rfl, rfl⟩, by decide +kernel, by decide +kernel, by decide +kernel, by decide +kernel, by decide +kernel⟩,
   ⟨{ up with cfg := { up.cfg with counter := 1 } }, clearWords 0xB77FB62C, 5, ⟨rfl, rfl⟩, by decide +kernel, by decide +kernel, by decide +kernel,
      by decide +kernel, by decide +kernel⟩,
   ⟨up, clearWords 0xB77FB62C, ⟨rfl, rfl⟩, by decide +kernel, by decide +kernel, by decide +kernel, by decide +kernel, by decide +kernel,
      by decide +kernel⟩,
   ⟨storing, { opcode := 4, counter := 9, payload := [], stored := false }, ⟨rfl, rfl⟩, by decide +kernel, by decide +kernel⟩,
   ⟨storing, { opcode := 4, counter := 9, payload := [], stored := false }, ⟨rfl, rfl⟩, by decide +kernel, by decide +kernel⟩,
   ⟨acting 1 [7, 0, 0, 0] up, [7, 0, 0, 0], ⟨rfl, rfl⟩, by decide +kernel, by decide +kernel, by decide +kernel⟩,
   ⟨bootBusy, [7, 0, 0, 0], ⟨rfl, rfl⟩, by decide +kernel, by decide +kernel, by decide +kernel⟩,
   ⟨rollingBack [], [7, 0, 0, 0], ⟨rfl, rfl⟩, by decide +kernel, by decide +kernel, by decide +kernel⟩,
   ⟨rollingBack emptyImage, [7, 0, 0, 0], .verified, ⟨rfl, rfl⟩, by decide +kernel, by decide +kernel, by decide +kernel, by decide +kernel,
      by decide +kernel, by decide +kernel⟩,
   ⟨rollingBack emptyImage, [7, 0, 0, 0], .lostAfterCopy0, ⟨rfl, rfl⟩, by decide +kernel, by decide +kernel, by decide +kernel, by decide +kernel,
      by decide +kernel, by decide +kernel⟩,
   ⟨acting 2 (List.replicate 20 0) up, List.replicate 20 0, { key := List.replicate 16 0, gen := 0, valid := true }, ⟨rfl, rfl⟩, by decide +kernel,
      by decide +kernel, by decide +kernel⟩,
   ⟨acting 2 newKey up, newKey, { key := List.replicate 16 0, gen := 0, valid := true },
      { key := aesDecrypt (List.replicate 16 0) (newKey.take 16), gen := 1, valid := true }, ⟨rfl, rfl⟩, by decide +kernel, by decide +kernel,
      by decide +kernel, by decide +kernel, by decide +kernel⟩,
   ⟨rotated, 5, ⟨rfl, rfl⟩, by decide +kernel, by decide +kernel⟩,
   ⟨rotated, 5, ⟨rfl, rfl⟩, by decide +kernel, by decide +kernel⟩⟩

/-- Boot access at an address, and with a command in progress. -/
def bootAt (a : Word) : State := up.setReg Reg.CFG_BOOT_ADDR a
def booting (op : BootOp) (a : Nat) : State := { up with cfg := { up.cfg with bootOp := some (op, a), bootData := List.replicate 256 0x5A } }

/-- States and operands for the clauses of `BootAccess`, in their order. -/
theorem witness_BootAccess :
    (∃ (s : State) (a : Nat), Clocked s ∧ a = (s.reg Reg.CFG_BOOT_ADDR).toNat ∧ s.cfg.bootOp = none ∧ s.cfg.rollback = false ∧ a % 4 = 0) ∧
    (∃ (s : State), Clocked s ∧ ((s.reg Reg.CFG_BOOT_ADDR).toNat % 4 ≠ 0 ∨ s.cfg.bootOp.isSome = true ∨ s.cfg.rollback = true)) ∧
    (∃ (s : State) (a : Nat), Clocked s ∧ a = (s.reg Reg.CFG_BOOT_ADDR).toNat ∧ s.cfg.bootOp = none ∧ s.cfg.rollback = false ∧ a % 256 = 0 ∧
      ((0x10000 ≤ a ∧ a < 0x410000 ∧ (s.gen.safeBoot = true ∨ s.slotNow ≠ 0)) ∨ (0x410000 ≤ a ∧ a < 0x810000 ∧ (s.gen.safeBoot = true ∨ s.slotNow =
      0)))) ∧
    (∃ (s : State) (a : Nat), Clocked s ∧ a = (s.reg Reg.CFG_BOOT_ADDR).toNat ∧ s.cfg.bootOp = none ∧ s.cfg.rollback = false ∧ a % 256 = 0 ∧
      ((0x10000 ≤ a ∧ a < 0x410000 ∧ (s.gen.safeBoot = true ∨ s.slotNow ≠ 0)) ∨ (0x410000 ≤ a ∧ a < 0x810000 ∧ (s.gen.safeBoot = true ∨ s.slotNow =
      0)))) ∧
    (∃ (s : State) (a : Nat), Clocked s ∧ a = (s.reg Reg.CFG_BOOT_ADDR).toNat ∧ (a % 256 ≠ 0 ∨ a < 0x10000 ∨ 0x810000 ≤ a ∨ (s.gen.safeBoot = false ∧
      s.slotNow = 0 ∧ a < 0x410000) ∨ (s.gen.safeBoot = false ∧ s.slotNow = 1 ∧ 0x410000 ≤ a) ∨ s.cfg.bootOp.isSome = true ∨ s.cfg.rollback = true)) ∧
    (∃ (s : State) (a : Nat), Clocked s ∧ a = (s.reg Reg.CFG_BOOT_ADDR).toNat ∧ (a % 256 ≠ 0 ∨ a < 0x10000 ∨ 0x810000 ≤ a ∨ (s.gen.safeBoot = false ∧
      s.slotNow = 0 ∧ a < 0x410000) ∨ (s.gen.safeBoot = false ∧ s.slotNow = 1 ∧ 0x410000 ≤ a) ∨ s.cfg.bootOp.isSome = true ∨ s.cfg.rollback = true)) ∧
    (∃ (s : State) (a : Nat), Clocked s ∧ a = (s.reg Reg.CFG_BOOT_ADDR).toNat ∧ s.cfg.bootOp = none ∧ s.cfg.rollback = false ∧ a % 4096 = 0 ∧
      ((0x10000 ≤ a ∧ a < 0x410000 ∧ (s.gen.safeBoot = true ∨ s.slotNow ≠ 0)) ∨ (0x410000 ≤ a ∧ a < 0x810000 ∧ (s.gen.safeBoot = true ∨ s.slotNow =
      0)))) ∧
    (∃ (s : State) (a : Nat), Clocked s ∧ s.cfg.bootOp = some (.read, a) ∧ a + 256 ≤ 0x1000000) ∧
    (∃ (s : State) (n : Nat) (a : Nat), Clocked s ∧ s.cfg.bootOp = some (.program, a) ∧ n ≤ 5000 ∧ s.cfg.bootData.length = 256) ∧
    (∃ (s : State) (n : Nat) (a : Nat), Clocked s ∧ s.cfg.bootOp = some (.program, a) ∧ 5000 < n) ∧
    (∃ (s : State) (n : Nat) (a : Nat), Clocked s ∧ s.cfg.bootOp = some (.erase, a) ∧ n ≤ 400000) ∧
    (∃ (s : State) (n : Nat) (a : Nat), Clocked s ∧ s.cfg.bootOp = some (.erase, a) ∧ 400000 < n) ∧
    (∃ (s : State) (a : Nat), Clocked s ∧ a = (s.reg Reg.CFG_BOOT_ADDR).toNat ∧ (a % 4096 ≠ 0 ∨ a < 0x10000 ∨ 0x810000 ≤ a ∨ (s.gen.safeBoot = false
      ∧ s.slotNow = 0 ∧ a < 0x410000) ∨ (s.gen.safeBoot = false ∧ s.slotNow = 1 ∧ 0x410000 ≤ a) ∨ s.cfg.bootOp.isSome = true ∨ s.cfg.rollback = true)) ∧
    (∃ (s : State) (a : Nat), Clocked s ∧ a = (s.reg Reg.CFG_BOOT_ADDR).toNat ∧ (a % 4096 ≠ 0 ∨ a < 0x10000 ∨ 0x810000 ≤ a ∨ (s.gen.safeBoot = false
      ∧ s.slotNow = 0 ∧ a < 0x410000) ∨ (s.gen.safeBoot = false ∧ s.slotNow = 1 ∧ 0x410000 ≤ a) ∨ s.cfg.bootOp.isSome = true ∨ s.cfg.rollback = true)) :=
  ⟨⟨bootAt 0x410104, 0x410104, rfl, by decide +kernel, by decide +kernel, by decide +kernel, by decide +kernel⟩,
   ⟨bootAt 2, rfl, by decide +kernel⟩,
   ⟨bootAt 0x410100, 0x410100, rfl, by decide +kernel, by decide +kernel, by decide +kernel, by decide +kernel, by decide +kernel⟩,
   ⟨bootAt 0x80FF00, 0x80FF00, rfl, by decide +kernel, by decide +kernel, by decide +kernel, by decide +kernel, by decide +kernel⟩,
   ⟨bootAt 0x810000, 0x810000, rfl, by decide +kernel, by decide +kernel⟩,
   ⟨bootAt 0x40FF00, 0x40FF00, rfl, by decide +kernel, by decide +kernel⟩,
   ⟨bootAt 0x80F000, 0x80F000, rfl, by decide +kernel, by decide +kernel, by decide +kernel, by decide +kernel, by decide +kernel⟩,
   ⟨booting .read 0xFFFF00, 0xFFFF00, rfl, by decide +kernel, by decide +kernel⟩,
   ⟨booting .program 0x410100, 5000, 0x410100, rfl, by decide +kernel, by decide +kernel, by decide +kernel⟩,
   ⟨booting .program 0x410100, 5001, 0x410100, rfl, by decide +kernel, by decide +kernel⟩,
   ⟨booting .erase 0x410000, 400000, 0x410000, rfl, by decide +kernel, by decide +kernel⟩,
   ⟨booting .erase 0x410000, 400001, 0x410000, rfl, by decide +kernel, by decide +kernel⟩,
   ⟨bootAt 0x410100, 0x410100, rfl, by decide +kernel, by decide +kernel⟩,
   ⟨bootAt 0x810000, 0x810000, rfl, by decide +kernel, by decide +kernel⟩⟩

/-- The trace port on, its timers due. -/
def tracing : State :=
  { (up.setFld Reg.TRC_TRACE_CTRL Fld.TRC_TRACE_CTRL_EN 1) with
    obs := { up.obs with trc := { up.obs.trc with syncAt := some 0, levelAt := some 0, buf := [] } } }

/-- States and operands for the clauses of `TraceAndCounters`, in their order. -/
theorem witness_TraceAndCounters :
    (∃ (s : State) (v : Word), Clocked s ∧ v.toNat % 2 = 0) ∧
    (∃ (s : State) (v : Word), Clocked s ∧ v = 0x501 ∧ s.flag Reg.TRC_TRACE_CTRL Fld.TRC_TRACE_CTRL_EN = false ∧ s.obs.trc.buf = [] ∧
      s.obs.trc.syncAt = none ∧ s.obs.trc.lossRun = 0) ∧
    (∃ (s : State) (e : Nat), Clocked s ∧ s.obs.trc.syncAt = some e ∧ e ≤ s.time ∧ s.flag Reg.TRC_TRACE_CTRL Fld.TRC_TRACE_CTRL_EN = true ∧
      s.obs.trc.buf = [] ∧ s.obs.trc.lossRun = 0) ∧
    (∃ (s : State) (e : Nat), Clocked s ∧ s.obs.trc.levelAt = some e ∧ e ≤ s.time ∧ s.flag Reg.TRC_TRACE_CTRL Fld.TRC_TRACE_CTRL_EN = true ∧
      s.obs.trc.buf = [] ∧ s.obs.trc.lossRun = 0) ∧
    (∃ (s : State) (m : List (Nat × Nat)), Clocked s ∧ m = s.obs.trc.counters) ∧
    (∃ (s : State), Clocked s) ∧
    (∃ (s : State), Clocked s) ∧
    (∃ (s : State), Clocked s) ∧
    (∃ (s : State), Clocked s) :=
  ⟨⟨tracing, 0, rfl, by decide +kernel⟩,
   ⟨up, 0x501, rfl, by decide +kernel, by decide +kernel, by decide +kernel, by decide +kernel, by decide +kernel⟩,
   ⟨tracing, 0, rfl, by decide +kernel, by decide +kernel, by decide +kernel, by decide +kernel, by decide +kernel⟩,
   ⟨tracing, 0, rfl, by decide +kernel, by decide +kernel, by decide +kernel, by decide +kernel, by decide +kernel⟩,
   ⟨up, [], rfl, by decide +kernel⟩,
   ⟨up, rfl⟩,
   ⟨up, rfl⟩,
   ⟨up, rfl⟩,
   ⟨up, rfl⟩⟩

/-- A wake source enabled, an idle device, one about to sleep, one asleep, a direct port with its field on. -/
def wakes : State := up.setFld Reg.PWR_WAKE Fld.PWR_WAKE_HOST_EN 1
def noWake : State := (up.setFld Reg.PWR_WAKE Fld.PWR_WAKE_HOST_EN 0).setFld Reg.PWR_WAKE Fld.PWR_WAKE_TIMER_EN 0
def idling (sniff : Bool) : State :=
  { (wakes.setFld Reg.PWR_AUTO Fld.PWR_AUTO_AUTO_EN 1).setFld Reg.PWR_AUTO Fld.PWR_AUTO_ALLOW_SLEEP 1 with
    obs := { up.obs with idleSince := if sniff then some 70 else none, offSince := some 70 } }
def sleepy : State := { up with pwr := { up.pwr with pending := some .sleep } }
def sleeping : State :=
  { (wakes.setFld Reg.PWR_WAKE Fld.PWR_WAKE_TIMER_EN 1) with
    pwr := { up.pwr with awake := .sleep, sleepAt := slowCycle }, time := 3 * slowCycle }
def supplied : State :=
  inRole 2 ((up.setFld Reg.PWR_SUPPLY Fld.PWR_SUPPLY_VDDTX_OK 15).modF 2 fun y => { y with radio := .field, carrier := true })

/-- States and operands for the clauses of `PowerStates`, in their order. -/
theorem witness_PowerStates :
    (∃ (s : State), Running s ∧ s.wakeable .sleep = true ∧ s.pwr.entering = none) ∧
    (∃ (s : State), Running s ∧ s.wakeable .sleep = false) ∧
    (∃ (s : State), Running s ∧ s.wakeable .sniff = true ∧ s.pwr.entering = none) ∧
    (∃ (s : State), Running s) ∧
    (∃ (s : State) (t0 : Nat), Running s ∧ s.flag Reg.PWR_AUTO Fld.PWR_AUTO_AUTO_EN = true ∧ s.pwr.pending = none ∧ s.pwr.entering = none ∧
      s.obs.idleSince = some t0 ∧ s.wakeable .sniff = true) ∧
    (∃ (s : State) (t0 : Nat), Running s ∧ s.flag Reg.PWR_AUTO Fld.PWR_AUTO_AUTO_EN = true ∧ s.pwr.pending = none ∧ s.pwr.entering = none ∧
      s.obs.idleSince = none ∧ s.obs.offSince = some t0 ∧ s.flag Reg.PWR_AUTO Fld.PWR_AUTO_ALLOW_SLEEP = true ∧ s.wakeable .sleep = true) ∧
    (∃ (s : State) (r : PwrReq), Running s ∧ s.pwr.pending = some r ∧ s.pwrBlock r = 0 ∧ s.obs.sil.stages = []) ∧
    (∃ (s : State) (r : PwrReq), Running s ∧ s.pwr.pending = some r ∧ s.pwrBlock r ≠ 0) ∧
    (∃ (s : State), Monitored s ∧ s.asleep = false) ∧
    (∃ (s : State) (n : Nat), Monitored s ∧ s.asleep = true ∧ s.flag Reg.PWR_WAKE Fld.PWR_WAKE_HOST_EN = true ∧ s.saf.unseen = none ∧ s.gen.phase ≠
      .safe ∧ n = (s.slowEdge - s.pwr.sleepAt) / slowCycle ∧ s.obs.sil.intake = [] ∧ s.obs.sil.hold = []) ∧
    (∃ (s : State), Monitored s ∧ s.asleep = true ∧ s.flag Reg.PWR_WAKE Fld.PWR_WAKE_TIMER_EN = true ∧ s.saf.unseen = none ∧ s.gen.phase ≠ .safe) ∧
    (∃ (s : State), Monitored s ∧ s.live = false) ∧
    (∃ (s : State) (p : Fin 4), Monitored s ∧ Running s ∧ s.fldBit Reg.PWR_SUPPLY Fld.PWR_SUPPLY_VDDTX_OK p = true ∧ s.fieldOn p = true ∧ (s.pp
      p).xch = none) ∧
    (∃ (s : State), Monitored s) ∧
    (∃ (s : State), Running s ∧ s.flag Reg.PWR_CLK Fld.PWR_CLK_SLOW_SRC = true ∧ s.flag Reg.PWR_CLK_STATUS Fld.PWR_CLK_STATUS_SLOW_XTAL = false) ∧
    (∃ (s : State), Running s ∧ s.flag Reg.PWR_CLK_STATUS Fld.PWR_CLK_STATUS_SLOW_XTAL = true) ∧
    (∃ (s : State), s.asleep = true ∧ s.gen.safeBoot = false ∧ s.flag Reg.PWR_CLK_STATUS Fld.PWR_CLK_STATUS_SLOW_XTAL = true) :=
  ⟨⟨wakes, ⟨rfl, rfl⟩, by decide +kernel, by decide +kernel⟩,
   ⟨noWake, ⟨rfl, rfl⟩, by decide +kernel⟩,
   ⟨wakes, ⟨rfl, rfl⟩, by decide +kernel, by decide +kernel⟩,
   ⟨sleepy, ⟨rfl, rfl⟩⟩,
   ⟨idling true, 70, ⟨rfl, rfl⟩, by decide +kernel, by decide +kernel, by decide +kernel, by decide +kernel, by decide +kernel⟩,
   ⟨idling false, 70, ⟨rfl, rfl⟩, by decide +kernel, by decide +kernel, by decide +kernel, by decide +kernel, by decide +kernel, by decide +kernel,
      by decide +kernel⟩,
   ⟨sleepy, .sleep, ⟨rfl, rfl⟩, by decide +kernel, by decide +kernel, by decide +kernel⟩,
   ⟨{ sleepy with pins := { up.pins with hcsLow := true } }, .sleep, ⟨rfl, rfl⟩, by decide +kernel, by decide +kernel⟩,
   ⟨up, ⟨by decide, rfl⟩, by decide +kernel⟩,
   ⟨sleeping, 3, ⟨by decide, rfl⟩, by decide +kernel, by decide +kernel, by decide +kernel, by decide +kernel, by decide +kernel, by decide +kernel,
      by decide +kernel⟩,
   ⟨sleeping, ⟨by decide, rfl⟩, by decide +kernel, by decide +kernel, by decide +kernel, by decide +kernel⟩,
   ⟨sleeping, ⟨by decide, rfl⟩, by decide +kernel⟩,
   ⟨supplied, 2, ⟨by decide, rfl⟩, ⟨rfl, rfl⟩, by decide +kernel, by decide +kernel, by decide +kernel⟩,
   ⟨up, ⟨by decide, rfl⟩⟩,
   ⟨up.setFld Reg.PWR_CLK Fld.PWR_CLK_SLOW_SRC 1, ⟨rfl, rfl⟩, by decide +kernel, by decide +kernel⟩,
   ⟨up.setFld Reg.PWR_CLK_STATUS Fld.PWR_CLK_STATUS_SLOW_XTAL 1, ⟨rfl, rfl⟩, by decide +kernel⟩,
   ⟨sleeping.setFld Reg.PWR_CLK_STATUS Fld.PWR_CLK_STATUS_SLOW_XTAL 1, by decide +kernel, by decide +kernel, by decide +kernel⟩⟩

/-- A device in reset with supplies, without and with an empty image of version 7 in slot A, and a START with every self-test passed. -/
def inReset (l : List Byte) : State :=
  { State.reset with pins := { State.reset.pins with aon := true }, cfg := { State.reset.cfg with boot := Sparse.write [] 0xFF 0x10000 l } }
def powered : State := { up with pins := { up.pins with aon := true } }

/-- States and operands for the clauses of `ResetsAndStart`, in their order. -/
theorem witness_ResetsAndStart :
    (∃ (s : State), s.cfg.bootOp = none ∧ s.cfg.auth = none) ∧
    (∃ (s : State) (n : Nat), s.pins.aon = true ∧ n < 200) ∧
    (∃ (s : State) (n : Nat), s.pins.aon = true ∧ s.pwr.awake ≠ .reset ∧ 200 ≤ n ∧ n < 1000) ∧
    (∃ (s : State) (n : Nat), s.pins.aon = true ∧ s.pwr.awake ≠ .reset ∧ 1000 ≤ n) ∧
    (∃ (s : State) (n : Nat), s.pins.aon = true ∧ s.pwr.awake ≠ .reset ∧ 2000 ≤ n) ∧
    (∃ (n : Nat), n < 2000) ∧
    (∃ (s : State), Clocked s) ∧
    (∃ (s : State) (v : Word), Clocked s ∧ v ≠ 0x1680) ∧
    (∃ (s : State), s.cfg.bootOp = none ∧ s.cfg.auth = none) ∧
    (∃ (s : State) (v : StartEnv), s.pwr.awake = .reset ∧ s.pins.aon = true ∧ v.testEn = true) ∧
    (∃ (s : State) (v : StartEnv), s.pwr.awake = .reset ∧ s.pins.aon = true ∧ v.testEn = false ∧ v.stopLow = false ∧ v.failure = none ∧ s.cfg.boot =
      []) ∧
    (∃ (s : State) (v : StartEnv), s.pwr.awake = .reset ∧ s.pins.aon = true ∧ v.testEn = false ∧ v.stopLow = false ∧ v.failure = none ∧ v.early = []
      ∧ v.acts = [] ∧ s.gen.phase = .start ∧ s.saf.clkLost = false ∧ s.cox.sealed = none ∧ ((s.startPins v).loadCfg).candidates = [0] ∧ ((s.startPins
      v).loadCfg).slotRecords 0 = (1, some []) ∧ (∀ i : Fin 9, (v.selfTest[i.val]?).getD false = true) ∧ v.us < 65536) ∧
    (∃ (s : State) (n : Nat), s.pins.aon = true ∧ s.pwr.awake = .reset ∧ 1000 ≤ n) ∧
    (∃ (s : State) (n : Nat), s.pins.aon = true ∧ s.pwr.awake = .reset ∧ 2000 ≤ n) :=
  ⟨⟨up, by decide +kernel, by decide +kernel⟩,
   ⟨powered, 199, by decide +kernel, by decide +kernel⟩,
   ⟨powered, 200, by decide +kernel, by decide +kernel, by decide +kernel, by decide +kernel⟩,
   ⟨powered, 1000, by decide +kernel, by decide +kernel, by decide +kernel⟩,
   ⟨powered, 2000, by decide +kernel, by decide +kernel, by decide +kernel⟩,
   ⟨1999, by decide +kernel⟩,
   ⟨powered, rfl⟩,
   ⟨powered, 0x11680, rfl, by decide +kernel⟩,
   ⟨powered, by decide +kernel, by decide +kernel⟩,
   ⟨inReset [], { startEnv with testEn := true }, by decide +kernel, by decide +kernel, by decide +kernel⟩,
   ⟨inReset [], startEnv, by decide +kernel, by decide +kernel, by decide +kernel, by decide +kernel, by decide +kernel, by decide +kernel⟩,
   ⟨inReset emptyImage, startEnv, by decide +kernel, by decide +kernel, by decide +kernel, by decide +kernel, by decide +kernel, by decide +kernel,
      by decide +kernel, by decide +kernel, by decide +kernel, by decide +kernel, by decide +kernel, by decide +kernel, by decide +kernel,
      by decide +kernel⟩,
   ⟨{ powered with pwr := { up.pwr with awake := .reset } }, 1000, by decide +kernel, by decide +kernel, by decide +kernel⟩,
   ⟨{ powered with pwr := { up.pwr with awake := .reset } }, 2000, by decide +kernel, by decide +kernel, by decide +kernel⟩⟩

/-- A push that waits for room, and a pulse of HIRQ_N. -/
def pushWaits : State := { up with hif := { up.hif with waiting := some (2, [7], 5) } }
def pulsingIrq : State := { up with obs := { up.obs with irq := { up.obs.irq with pulseEnd := some 70 } } }

/-- States and operands for the clauses of `HostTransactions`, in their order. -/
theorem witness_HostTransactions :
    (∃ (s : State) (a : BitVec 24), HostReady s ∧ s.gen.phase = .test ∧ a.toNat % 4 = 0 ∧ 0x200000 ≤ a.toNat ∧ a.toNat + 8 ≤ 0xA00000) ∧
    (∃ (s : State) (a : BitVec 24) (l : List Word), HostReady s ∧ s.gen.phase ≠ .test ∧ 0x200000 ≤ a.toNat ∧ a.toNat + 4 * l.length ≤ 0xA00000) ∧
    (∃ (s : State) (k : TimerId) (a : BitVec 24), HostReady s ∧ s.gen.safeBoot = false ∧ a.toNat = Reg.TMR_T_RELOAD k) ∧
    (∃ (s : State) (a : BitVec 24), HostReady s ∧ 0xA00000 ≤ a.toNat) ∧
    (∃ (s : State) (a : BitVec 24), HostReady s ∧ 0x200000 ≤ a.toNat ∧ a.toNat < 0xA00000) ∧
    (∃ (s : State) (a : BitVec 24) (n : Nat) (g : List Bool), HostReady s ∧ g.any id = false ∧ a.toNat % 4 = 0 ∧ 0x200000 ≤ a.toNat ∧ a.toNat + 4 * n
      ≤ 0xA00000) ∧
    (∃ (s : State) (k : TimerId) (a : BitVec 24), HostReady s ∧ a.toNat = Reg.TMR_T_RELOAD k) ∧
    (∃ (s : State), HostReady s) ∧
    (∃ (s : State) (p : Port) (a : BitVec 24) (l : List Word), HostReady s ∧ a.toNat = p.val ∧ (s.pp p).flushing = false ∧ (s.pq p).tx.length +
      l.length ≤ 2048) ∧
    (∃ (s : State) (p : Port) (a : BitVec 24) (x : QWord) (y : QWord) (l : List QWord) (g : List Bool), HostReady s ∧ g.any id = false ∧ a.toNat =
      p.val ∧ (s.pq p).rx = x :: y :: l) ∧
    (∃ (s : State) (e : EvqEntry) (g : List Bool), HostReady s ∧ g.any id = false ∧ s.evqHead = some e ∧ s.obs.evq.intake = []) ∧
    (∃ (s : State), HostReady s ∧ s.obs.evq.entries = [] ∧ s.obs.evq.intake = []) ∧
    (∃ (s : State) (o : Byte), HostReady s ∧ hostOpcodes.contains o.toNat = false ∧ o ≠ 0x00 ∧ o ≠ 0xFF) ∧
    (∃ (s : State) (o : Byte), HostReady s ∧ (o = 0x00 ∨ o = 0xFF)) ∧
    (∃ (s : State) (n : Nat) (l : List Word) (t0 : Nat), Clocked s ∧ s.hif.waiting = some (n, l, t0) ∧ s.emu.heldWrite = none) ∧
    (∃ (s : State) (e : Nat), Clocked s ∧ s.obs.irq.pulseEnd = some e) :=
  ⟨⟨testing, 0x9FFFF8, ⟨rfl, rfl⟩, by decide +kernel, by decide +kernel, by decide +kernel, by decide +kernel⟩,
   ⟨up, 0x200000, [1, 2], ⟨rfl, rfl⟩, by decide +kernel, by decide +kernel, by decide +kernel⟩,
   ⟨up, 3, 0x901C8, ⟨rfl, rfl⟩, by decide +kernel, by decide +kernel⟩,
   ⟨up, 0xA00000, ⟨rfl, rfl⟩, by decide +kernel⟩,
   ⟨up, 0x200004, ⟨rfl, rfl⟩, by decide +kernel, by decide +kernel⟩,
   ⟨up, 0x9FFFF8, 2, [false], ⟨rfl, rfl⟩, by decide +kernel, by decide +kernel, by decide +kernel, by decide +kernel⟩,
   ⟨up, 3, 0x901C8, ⟨rfl, rfl⟩, by decide +kernel⟩,
   ⟨up, ⟨rfl, rfl⟩⟩,
   ⟨queued [] [] [], 2, 2, [1, 2], ⟨rfl, rfl⟩, by decide +kernel, by decide +kernel, by decide +kernel⟩,
   ⟨queued [] [qword 8, qword 9] [], 2, 2, qword 8, qword 9, [], [], ⟨rfl, rfl⟩, by decide +kernel, by decide +kernel, by decide +kernel⟩,
   ⟨eventful [] [entry 1], entry 1, [false, false], ⟨rfl, rfl⟩, by decide +kernel, by decide +kernel, by decide +kernel⟩,
   ⟨up, ⟨rfl, rfl⟩, by decide +kernel, by decide +kernel⟩,
   ⟨up, 0x77, ⟨rfl, rfl⟩, by decide +kernel, by decide +kernel, by decide +kernel⟩,
   ⟨up, 0xFF, ⟨rfl, rfl⟩, by decide +kernel⟩,
   ⟨pushWaits, 2, [7], 5, rfl, by decide +kernel, by decide +kernel⟩,
   ⟨pulsingIrq, 70, rfl, by decide +kernel⟩⟩

/-- A place with profiles, and RECOVERY with a cause. -/
def place : ProfAt := ⟨.FLD, some 3⟩
def profiled : State := up.setFld (profileAddr 2 (some 3)) Fld.PROFILE_COUNT 4
def expert : State := profiled.setFld (expertAddr 2 (some 3)) Fld.EXPERT_EN 1
def recovering (c : Nat) : State := { up with gen := { up.gen with phase := .recovery, cause := c, rlimitEnd := some 70 } }
def lockedGen (s : State) : State := s.setFld 4 Fld.LOCK 1

/-- States and operands for the clauses of `PhasesLocksAndProfiles`, in their order. -/
theorem witness_PhasesLocksAndProfiles :
    (∃ (s : State) (r : BitVec 8) (n : Nat), Clocked s ∧ s.gen.phase = .run ∧ (n = (if s.lockedBlock 0 = true ∨ r = 0 then s.fld Reg.GEN_PHASE_CTRL
      Fld.GEN_PHASE_CTRL_RLIMIT else r.toNat))) ∧
    (∃ (s : State) (r : BitVec 8) (n : Nat), Clocked s ∧ s.gen.phase = .run ∧ (n = (if s.lockedBlock 0 = true ∨ r = 0 then s.fld Reg.GEN_PHASE_CTRL
      Fld.GEN_PHASE_CTRL_RLIMIT else r.toNat))) ∧
    (∃ (s : State) (r : BitVec 8) (n : Nat), Clocked s ∧ s.gen.phase ≠ .run ∧ (n = (if s.lockedBlock 0 = true ∨ r = 0 then s.fld Reg.GEN_PHASE_CTRL
      Fld.GEN_PHASE_CTRL_RLIMIT else r.toNat))) ∧
    (∃ (s : State) (r : BitVec 8) (n : Nat), Clocked s ∧ s.gen.phase = .test ∧ (n = (if s.lockedBlock 0 = true ∨ r = 0 then s.fld Reg.GEN_PHASE_CTRL
      Fld.GEN_PHASE_CTRL_RLIMIT else r.toNat))) ∧
    (∃ (s : State) (r : BitVec 8) (n : Nat), Clocked s ∧ s.gen.phase = .test ∧ (n = (if s.lockedBlock 0 = true ∨ r = 0 then s.fld Reg.GEN_PHASE_CTRL
      Fld.GEN_PHASE_CTRL_RLIMIT else r.toNat))) ∧
    (∃ (s : State), Running s ∧ s.gen.phase = .recovery ∧ (s.gen.rlimitEnd.all fun x => decide (s.time ≤ x)) = true ∧ s.gen.cause = 2) ∧
    (∃ (s : State), Running s ∧ s.gen.phase = .recovery ∧ s.gen.cause = 1 ∧ s.locked = false) ∧
    (∃ (s : State) (e : Nat), Running s ∧ s.gen.phase = .recovery ∧ s.gen.rlimitEnd = some e) ∧
    (∃ (s : State) (b : BlockId), Clocked s ∧ b ≠ .TRC ∧ s.blockRuns (blockNum b) = true) ∧
    (∃ (s : State) (a : ProfAt) (n : Byte), Clocked s ∧ placeReal a = true ∧ s.blockRuns (blockNum a.block) = true ∧ n.toNat < s.fld (profileAddr
      (blockNum a.block) (placePage a)) Fld.PROFILE_COUNT ∧ s.flag (expertAddr (blockNum a.block) (placePage a)) Fld.EXPERT_EN = false ∧ s.safePoint
      (blockNum a.block) (placePage a) = true) ∧
    (∃ (s : State) (a : ProfAt) (n : Byte), Clocked s ∧ placeReal a = true ∧ s.blockRuns (blockNum a.block) = true ∧ s.fld (profileAddr (blockNum
      a.block) (placePage a)) Fld.PROFILE_COUNT ≤ n.toNat) ∧
    (∃ (s : State) (a : ProfAt), Clocked s ∧ placeReal a = true ∧ s.blockRuns (blockNum a.block) = true ∧ 0 < s.fld (profileAddr (blockNum a.block)
      (placePage a)) Fld.PROFILE_COUNT ∧ s.flag (expertAddr (blockNum a.block) (placePage a)) Fld.EXPERT_EN = false ∧ s.safePoint (blockNum a.block)
      (placePage a) = true) ∧
    (∃ (s : State) (a : ProfAt), Clocked s ∧ placeReal a = true ∧ s.blockRuns (blockNum a.block) = true ∧ (s.flag (expertAddr (blockNum a.block)
      (placePage a)) Fld.EXPERT_EN = true ∨ s.safePoint (blockNum a.block) (placePage a) = false)) ∧
    (∃ (s : State) (a : ProfAt), Clocked s ∧ placeReal a = true ∧ s.blockRuns (blockNum a.block) = true ∧ s.lockedBlock (blockNum a.block) = false) ∧
    (∃ (s : State) (a : ProfAt), Clocked s ∧ placeReal a = true ∧ s.blockRuns (blockNum a.block) = true ∧ s.lockedBlock (blockNum a.block) = false ∧
      s.flag (expertAddr (blockNum a.block) (placePage a)) Fld.EXPERT_EN = true ∧ 0 < s.fld (profileAddr (blockNum a.block) (placePage a))
      Fld.PROFILE_COUNT ∧ s.safePoint (blockNum a.block) (placePage a) = true) ∧
    (∃ (s : State) (r : BitVec 8) (n : Nat), Clocked s ∧ s.gen.phase ≠ .test ∧ (n = (if s.lockedBlock 0 = true ∨ r = 0 then s.fld Reg.GEN_PHASE_CTRL
      Fld.GEN_PHASE_CTRL_RLIMIT else r.toNat))) ∧
    (∃ (s : State), Running s ∧ s.gen.phase = .recovery ∧ (s.gen.rlimitEnd.all fun x => decide (s.time ≤ x)) = true ∧ (s.locked = true ∨ (s.gen.cause
      ≠ 1 ∧ s.gen.cause ≠ 3))) ∧
    (∃ (s : State), Running s ∧ s.gen.phase = .recovery ∧ (s.gen.rlimitEnd.all fun x => decide (s.time ≤ x)) = true ∧ (s.locked = true ∨ (s.gen.cause
      ≠ 1 ∧ s.gen.cause ≠ 3))) ∧
    (∃ (s : State), Clocked s ∧ s.gen.safeBoot = false) :=
  ⟨⟨up, 7, 7, rfl, by decide +kernel, by decide +kernel⟩,
   ⟨lockedGen up, 7, 20, rfl, by decide +kernel, by decide +kernel⟩,
   ⟨testing, 7, 7, rfl, by decide +kernel, by decide +kernel⟩,
   ⟨testing, 7, 7, rfl, by decide +kernel, by decide +kernel⟩,
   ⟨lockedGen testing, 0, 20, rfl, by decide +kernel, by decide +kernel⟩,
   ⟨recovering 2, ⟨rfl, rfl⟩, by decide +kernel, by decide +kernel, by decide +kernel⟩,
   ⟨recovering 1, ⟨rfl, rfl⟩, by decide +kernel, by decide +kernel, by decide +kernel⟩,
   ⟨recovering 2, 70, ⟨rfl, rfl⟩, by decide +kernel, by decide +kernel⟩,
   ⟨up, .KPR, rfl, by decide +kernel, by decide +kernel⟩,
   ⟨profiled, place, 3, rfl, by decide +kernel, by decide +kernel, by decide +kernel, by decide +kernel, by decide +kernel⟩,
   ⟨profiled, place, 4, rfl, by decide +kernel, by decide +kernel, by decide +kernel⟩,
   ⟨profiled, place, rfl, by decide +kernel, by decide +kernel, by decide +kernel, by decide +kernel, by decide +kernel⟩,
   ⟨expert, place, rfl, by decide +kernel, by decide +kernel, by decide +kernel⟩,
   ⟨profiled, place, rfl, by decide +kernel, by decide +kernel, by decide +kernel⟩,
   ⟨expert, place, rfl, by decide +kernel, by decide +kernel, by decide +kernel, by decide +kernel, by decide +kernel, by decide +kernel⟩,
   ⟨up, 7, 7, rfl, by decide +kernel, by decide +kernel⟩,
   ⟨recovering 9, ⟨rfl, rfl⟩, by decide +kernel, by decide +kernel, by decide +kernel⟩,
   ⟨(recovering 1).setFld Reg.FLD_SYN_STATUS Fld.FLD_SYN_STATUS_LOCKED 1, ⟨rfl, rfl⟩, by decide +kernel, by decide +kernel, by decide +kernel⟩,
   ⟨up, rfl, by decide +kernel⟩⟩

end Sys2Proof.Tests
end

/-! The synthesiser (O33): what lock, a retrim, the loss of lock and the idle stop do to `FLD.SYN_STATUS` and to the field engine, and what
RECOVERY leaves of the phases and of the events posted so far. -/

namespace Sys2Proof.Machine

/-! ### Flags -/

theorem flag_setFld_same (s : State) (a : Nat) (f : Field) (v : Nat) (h : f.lo + f.width ≤ 32) :
    (s.setFld a f v).flag a f = decide (v % 2 ^ f.width ≠ 0) := by
  rw [State.flag, fld_setFld_same s a f v h]

theorem flag_setFld_other (s : State) (a : Nat) (f g : Field) (v : Nat) (h : g.lo + g.width ≤ 32)
    (hd : g.lo + g.width ≤ f.lo ∨ f.lo + f.width ≤ g.lo) : (s.setFld a f v).flag a g = s.flag a g := by
  rw [State.flag, State.flag, fld_setFld_other s a f g v h hd]

theorem fld_of_reg {s t : State} {a : Nat} (h : t.reg a = s.reg a) (f : Field) : t.fld a f = s.fld a f := by
  rw [State.fld, State.fld, h]

theorem flag_of_reg {s t : State} {a : Nat} (h : t.reg a = s.reg a) (f : Field) : t.flag a f = s.flag a f := by
  rw [State.flag, State.flag, fld_of_reg h]

/-! ### The events posted so far stay posted -/

/-- Every event that is posted in `s` is posted in `t`. -/
def StaysPosted (s t : State) : Prop := s.obs.posted ⊆ t.obs.posted

namespace StaysPosted

variable {s t u : State}

theorem of_posted (h : t.obs.posted = s.obs.posted) : StaysPosted s t := by
  rw [StaysPosted, h]
  exact List.Subset.refl _

theorem of_obs (h : t.obs = s.obs) : StaysPosted s t := of_posted (congrArg Obs.posted h)

theorem trans (h : StaysPosted s t) (k : StaysPosted t u) : StaysPosted s u := List.Subset.trans h k

theorem ite {c : Prop} [Decidable c] (h : StaysPosted s t) (k : StaysPosted s u) : StaysPosted s (if c then t else u) := by
  split
  · exact h
  · exact k

theorem each {f : Nat → State → State} (h : ∀ n t, StaysPosted t (f n t)) (k : Nat) (s : State) : StaysPosted s (State.each f k s) := by
  induction k with
  | zero => exact of_obs rfl
  | succ k ih => exact ih.trans (h k _)

theorem foldl {α : Type} {f : State → α → State} (h : ∀ t a, StaysPosted t (f t a)) (l : List α) (s : State) : StaysPosted s (l.foldl f s) := by
  induction l generalizing s with
  | nil => exact of_obs rfl
  | cons a l ih => exact (h s a).trans (ih _)

theorem of_within {c : Scope} (h : Within c s t) (hc : .obs ∉ c.parts) : StaysPosted s t := of_obs (h.parts .obs hc)

end StaysPosted

section
variable (s : State)

theorem staysPosted_post (c : Nat) (k : Note) (a : Nat) : StaysPosted s (s.post c k a) := List.subset_append_left _ _

theorem posted_post (c : Nat) (k : Note) (a : Nat) : Posted c k a (s.post c k a) := by simp [Posted, State.post, State.postEvent]

theorem staysPosted_noteResidual (n v : Nat) : StaysPosted s (s.noteResidual n v) := by
  unfold State.noteResidual
  refine .ite (.ite (.of_obs rfl) ?_) (.of_obs rfl)
  exact StaysPosted.trans (.of_obs rfl) (staysPosted_post _ _ _ _)

theorem staysPosted_listen (n tech rate : Nat) : StaysPosted s (s.listen n tech rate) := by
  unfold State.listen State.armListen
  exact StaysPosted.trans (t := State.noteResidual _ _ _) (staysPosted_noteResidual s.takeFreeWord.1 _ _) (.of_obs rfl)

theorem staysPosted_syncEmu : StaysPosted s s.syncEmu := by
  unfold State.syncEmu
  refine .ite (.of_obs rfl) (.ite ?_ (.ite ?_ (.of_obs rfl)))
  · have start : Within _ s (s.emuStart.emuLevel s.emuPort) :=
      within_emuLevel _ _ (Scope.Le.refl _) (within_emuStart s (Scope.Le.refl _) (Within.refl _ s))
    exact StaysPosted.trans (.of_within start (by decide)) (staysPosted_listen _ _ _ _)
  · have stop : Within _ s (s.tagTo .off) := within_tagTo s .off (Scope.Le.refl _) (Within.refl _ s)
    have idle (u : State) (n : Nat) : StaysPosted u (u.rxIdle n) := .of_obs rfl
    exact StaysPosted.trans (.of_within stop (by decide)) (.foldl (fun u n => .ite (idle u n) (.of_obs rfl)) _ _)

theorem staysPosted_toPhase (p : Phase) : StaysPosted s (s.toPhase p) := by
  have left : StaysPosted s ((s.clearTest p).dropPower p) := by
    unfold State.dropPower State.clearTest
    split <;> split <;> exact .of_obs rfl
  have noted (u : State) (c : Nat) (k : Note) (a : Nat) (f : Field) : StaysPosted u ((u.post 0x0001 k a).stick c f) :=
    (staysPosted_post u _ _ _).trans (.of_posted rfl)
  have changed (u : State) : StaysPosted u { u with gen := { u.gen with phase := p } } := .of_obs rfl
  exact ((left.trans (changed _)).trans (noted _ _ _ _ _)).trans (staysPosted_syncEmu _)

theorem staysPosted_parkLists : StaysPosted s s.parkLists :=
  .of_within (within_parkLists s (Scope.Le.refl _) (Within.refl _ s)) (by decide)

theorem staysPosted_modF (n : Nat) (f : PortF → PortF) : StaysPosted s (s.modF n f) := .of_obs rfl

theorem staysPosted_startOff (n : Nat) (slot : Bool) : StaysPosted s (s.startOff n slot) := by
  have ended : StaysPosted s (s.endDeferral n) := by
    unfold State.endDeferral
    split <;> exact .of_posted rfl
  have aborted (u : State) : StaysPosted u (u.abortStep n) :=
    .of_within (within_abortStep u n (Scope.Le.refl _) (Within.refl _ u)) (by decide)
  exact ((StaysPosted.ite ended (staysPosted_modF s _ _)).trans (aborted _)).trans (staysPosted_modF _ _ _)

theorem staysPosted_askOff (n : Nat) : StaysPosted s (s.askOff n) := by
  have deferred (u : State) : StaysPosted u (u.defer n) := .ite (.of_obs rfl) (staysPosted_modF _ _ _)
  have asked (f g : PortF → PortF) : StaysPosted s ((s.modF n f).modF n g) := (staysPosted_modF _ _ _).trans (staysPosted_modF _ _ _)
  unfold State.askOff
  dsimp only
  split
  · exact staysPosted_modF _ _ _
  · exact staysPosted_modF _ _ _
  · refine .ite (.ite ?_ (.ite ?_ (asked _ _))) (staysPosted_modF _ _ _)
    · exact (asked _ _).trans (staysPosted_startOff _ _ _)
    · exact (asked _ _).trans (deferred _)

theorem staysPosted_allOff : StaysPosted s s.allOff := .each (fun _ _ => .ite (staysPosted_askOff _ _) (staysPosted_modF _ _ _)) _ _

theorem staysPosted_recover (c : Nat) : StaysPosted s (s.recover c) := by
  have entered : StaysPosted s (if s.gen.phase = .recovery then s else (s.toPhase .recovery).parkLists) :=
    .ite (.of_obs rfl) ((staysPosted_toPhase s _).trans (staysPosted_parkLists _))
  have caused (u : State) (g : GenSt) : StaysPosted u { u with gen := g } := .of_obs rfl
  exact .ite ((entered.trans (caused _ _)).trans (staysPosted_allOff _)) (entered.trans (caused _ _))

/-! ### RECOVERY -/

theorem syncEmu_gen : s.syncEmu.gen = s.gen := (within_syncEmu s (Scope.Le.refl _) (Within.refl _ s)).parts .gen (by decide)

theorem toPhase_gen (p : Phase) : (s.toPhase p).gen = { s.gen with phase := p } := by
  have left : ((s.clearTest p).dropPower p).gen = s.gen := by
    unfold State.dropPower State.clearTest
    split <;> split <;> rfl
  rw [State.toPhase, syncEmu_gen, ← left]
  rfl

/-- Whether an address is none of a scope's registers. -/
def missesRegs (l : List (Nat × Nat × Nat)) (a : Nat) : Bool := l.all fun r => (List.range r.2.2).all fun n => decide (a ≠ r.1 + n * r.2.1)

theorem Within.reg_of_misses {c : Scope} {s t : State} (h : Within c s t) (a : Nat) (ha : missesRegs c.regs a = true) : t.reg a = s.reg a := by
  simp only [missesRegs, List.all_eq_true, List.mem_range, decide_eq_true_eq] at ha
  exact h.regs a ha

/-- What RECOVERY with a cause leaves in the state of the phases (R37, R40, R623). -/
theorem recover_gen (c : Nat) : (s.recover c).gen = { s.gen with
    phase := .recovery, cause := c, rlimitEnd := some (s.time + s.rlimit), fieldsOff := s.gen.fieldsOff || (decide (c = 1) || decide (c = 3)) } := by
  have allOff_gen (u : State) : u.allOff.gen = u.gen := (within_allOff u (Scope.Le.refl _) (Within.refl _ u)).parts .gen (by decide)
  obtain ⟨u, hu⟩ : ∃ u, u = if s.gen.phase = .recovery then s else (s.toPhase .recovery).parkLists := ⟨_, rfl⟩
  have entered : u.gen = { s.gen with phase := .recovery } ∧ u.time = s.time ∧ u.reg Reg.GEN_PHASE_CTRL = s.reg Reg.GEN_PHASE_CTRL := by
    rw [hu]
    split
    · rename_i h
      exact ⟨by rw [← h], rfl, rfl⟩
    · have parked := within_parkLists (s.toPhase .recovery) (Scope.Le.refl _) (Within.refl _ _)
      have changed := within_toPhase s .recovery (Scope.Le.refl _) (Within.refl _ s)
      have hgen : (s.toPhase .recovery).parkLists.gen = (s.toPhase .recovery).gen := parked.parts .gen (by decide)
      exact ⟨hgen.trans (toPhase_gen s .recovery), (changed.parts .time (by decide)).trans (parked.parts .time (by decide)),
        (parked.reg_of_misses _ (by decide)).trans (changed.reg_of_misses _ (by decide +kernel))⟩
  obtain ⟨hg, ht, hr⟩ := entered
  have hl : u.rlimit = s.rlimit := by rw [State.rlimit, State.rlimit, fld_of_reg hr]
  unfold State.recover
  rw [← hu]
  dsimp only
  split
  · rename_i h
    rw [allOff_gen, hg, ht, hl]
  · rw [hg, ht, hl]

/-! ### Lock of the synthesiser (R55) -/

theorem each_modP_eq (f : PortP → PortP) (k : Nat) :
    State.each (fun n t => t.modP n f) k s = { s with pro := (State.each (fun n t => t.modP n f) k s).pro } := by
  induction k with
  | zero => rfl
  | succ k ih => rw [State.each, ih]; rfl

theorem pp_each_modP (f : PortP → PortP) (p : Port) (k : Nat) :
    (State.each (fun n t => t.modP n f) k s).pp p = if p.val < k then f (s.pp p) else s.pp p := by
  induction k with
  | zero => rfl
  | succ k ih =>
    rw [State.each]
    by_cases hk : p.val = k
    · subst hk
      rw [pp_modP_same, ih, if_neg (Nat.lt_irrefl _), if_pos (Nat.lt_succ_self _)]
    · rw [pp_modP_ne _ _ _ _ hk, ih]
      exact if_congr (by omega) rfl rfl

/-- What lock changes: SETTLING and LOCKED, the bound of the settling, the plans of the ports. -/
theorem lockSyn_eq : s.lockSyn =
    { (s.setFld Reg.FLD_SYN_STATUS Fld.FLD_SYN_STATUS_SETTLING 0).setFld Reg.FLD_SYN_STATUS Fld.FLD_SYN_STATUS_LOCKED 1 with
      field := { s.field with settleEnd := none }, pro := s.lockSyn.pro } := each_modP_eq _ _ _

theorem lockSyn_field : s.lockSyn.field = { s.field with settleEnd := none } := by rw [lockSyn_eq]

/-- A frame held for the synthesiser proceeds with its wait reported (R192). -/
theorem lockSyn_pp (p : Port) : s.lockSyn.pp p =
    { s.pp p with plan := (s.pp p).plan.map fun x => { x with synWait := x.synUs s.settledBy, synSince := none } } :=
  (pp_each_modP _ _ p 16).trans (if_pos p.isLt)

theorem lockSyn_reg : s.lockSyn.reg Reg.FLD_SYN_STATUS =
    ((s.setFld Reg.FLD_SYN_STATUS Fld.FLD_SYN_STATUS_SETTLING 0).setFld Reg.FLD_SYN_STATUS Fld.FLD_SYN_STATUS_LOCKED 1).reg Reg.FLD_SYN_STATUS := by
  rw [lockSyn_eq]
  rfl

theorem lockSyn_settling : s.lockSyn.flag Reg.FLD_SYN_STATUS Fld.FLD_SYN_STATUS_SETTLING = false := by
  rw [flag_of_reg (lockSyn_reg s), flag_setFld_other _ _ _ _ _ (by decide) (by decide), flag_setFld_same _ _ _ _ (by decide)]
  rfl

theorem lockSyn_locked : s.lockSyn.flag Reg.FLD_SYN_STATUS Fld.FLD_SYN_STATUS_LOCKED = true := by
  rw [flag_of_reg (lockSyn_reg s), flag_setFld_same _ _ _ _ (by decide)]
  rfl

theorem lockSyn_within : Within ⟨[.regs, .field, .pro], [one Reg.FLD_SYN_STATUS], []⟩ s s.lockSyn :=
  within_lockSyn s (Scope.Le.refl _) (Within.refl _ s)

/-- Of the field engine, lock that is taken note of changes the bound of the settling at most. -/
theorem lockPast_field (e : Option Nat) : { s.lockPast.field with settleEnd := e } = { s.field with settleEnd := e } := by
  unfold State.lockPast
  split
  · rw [lockSyn_field]
  · rfl

/-- Lock that is taken note of was reached before: the device is as locked as it was. -/
theorem lockPast_locked : s.lockPast.locked = s.locked := by
  unfold State.lockPast
  split
  · rename_i h
    rw [State.locked, State.locked, lockSyn_locked, lockSyn_settling, h, Bool.or_true]
    rfl
  · rfl

/-! ### The effective trim (R54, R55) -/

theorem trimDue_of_reg {s t : State} (ht : t.reg Reg.FLD_FC_TRIM = s.reg Reg.FLD_FC_TRIM) (hl : t.reg Reg.COX_REG_TRIM = s.reg Reg.COX_REG_TRIM) :
    t.trimDue = s.trimDue := by
  rw [State.trimDue, State.trimDue, fld_of_reg ht, fld_of_reg hl, fld_of_reg hl]

theorem retrim_within : Within ⟨[.regs, .field, .pro], [one Reg.FLD_SYN_STATUS], []⟩ s s.retrim :=
  within_retrim s (Scope.Le.refl _) (Within.refl _ s)

theorem unsigned_mod (w : Nat) (i : Int) : unsigned w i % 2 ^ w = unsigned w i := by
  refine Nat.mod_eq_of_lt ?_
  have : (0 : Int) < ((2 ^ w : Nat) : Int) := by exact_mod_cast Nat.two_pow_pos w
  have hlt := Int.emod_lt_of_pos i this
  have hge := Int.emod_nonneg i this.ne'
  unfold unsigned
  omega

/-- A standing synthesiser takes a change of the effective trim as it is. -/
theorem retrim_standing (hn : s.fld Reg.FLD_SYN_STATUS Fld.FLD_SYN_STATUS_EFF_OFFSET ≠ unsigned 15 s.trimDue) (hr : s.field.synRun ≠ true) :
    s.retrim = s.lockPast.setFld Reg.FLD_SYN_STATUS Fld.FLD_SYN_STATUS_EFF_OFFSET (unsigned 15 s.trimDue) := by
  rw [State.retrim, if_neg hn]
  exact if_neg hr

/-- A running synthesiser settles after a change of the effective trim. -/
theorem retrim_running (hn : s.fld Reg.FLD_SYN_STATUS Fld.FLD_SYN_STATUS_EFF_OFFSET ≠ unsigned 15 s.trimDue) (hr : s.field.synRun = true) :
    s.retrim = { ((s.lockPast.setFld Reg.FLD_SYN_STATUS Fld.FLD_SYN_STATUS_EFF_OFFSET (unsigned 15 s.trimDue)).setFld
        Reg.FLD_SYN_STATUS Fld.FLD_SYN_STATUS_SETTLING 1).setFld Reg.FLD_SYN_STATUS Fld.FLD_SYN_STATUS_LOCKED 0 with
      field := { s.lockPast.field with
        settleEnd := if s.lockPast.locked then some (s.time + 60 * usec) else s.lockPast.field.settleEnd.map (max (s.time + 60 * usec)) } } := by
  rw [State.retrim, if_neg hn]
  exact if_pos hr

theorem retrim_running_reg (hn : s.fld Reg.FLD_SYN_STATUS Fld.FLD_SYN_STATUS_EFF_OFFSET ≠ unsigned 15 s.trimDue) (hr : s.field.synRun = true) :
    s.retrim.reg Reg.FLD_SYN_STATUS = (((s.lockPast.setFld Reg.FLD_SYN_STATUS Fld.FLD_SYN_STATUS_EFF_OFFSET (unsigned 15 s.trimDue)).setFld
      Reg.FLD_SYN_STATUS Fld.FLD_SYN_STATUS_SETTLING 1).setFld Reg.FLD_SYN_STATUS Fld.FLD_SYN_STATUS_LOCKED 0).reg Reg.FLD_SYN_STATUS := by
  rw [retrim_running s hn hr]
  exact reg_of_regs rfl _

theorem retrim_offset : s.retrim.fld Reg.FLD_SYN_STATUS Fld.FLD_SYN_STATUS_EFF_OFFSET = unsigned 15 s.trimDue := by
  by_cases hn : s.fld Reg.FLD_SYN_STATUS Fld.FLD_SYN_STATUS_EFF_OFFSET = unsigned 15 s.trimDue
  · rw [State.retrim, if_pos hn, hn]
  by_cases hr : s.field.synRun = true
  · rw [fld_of_reg (retrim_running_reg s hn hr), fld_setFld_other _ _ _ _ _ (by decide) (by decide),
      fld_setFld_other _ _ _ _ _ (by decide) (by decide), fld_setFld_same _ _ _ _ (by decide)]
    exact unsigned_mod 15 _
  · rw [retrim_standing s hn hr, fld_setFld_same _ _ _ _ (by decide)]
    exact unsigned_mod 15 _

/-- A change of the effective trim settles the running synthesiser again, a locked one in 60 µs (R55). -/
theorem retrim_settles (hr : s.field.synRun = true) (hn : s.fld Reg.FLD_SYN_STATUS Fld.FLD_SYN_STATUS_EFF_OFFSET ≠ unsigned 15 s.trimDue) :
    s.retrim.field.synRun = true ∧ (s.locked = true → s.retrim.field = { s.field with settleEnd := some (s.time + 60 * usec) }) ∧
    s.retrim.flag Reg.FLD_SYN_STATUS Fld.FLD_SYN_STATUS_SETTLING = true ∧ s.retrim.flag Reg.FLD_SYN_STATUS Fld.FLD_SYN_STATUS_LOCKED = false := by
  have hfield := (congrArg State.field (retrim_running s hn hr)).trans (lockPast_field s _)
  have hreg := retrim_running_reg s hn hr
  refine ⟨by rw [hfield]; exact hr, fun hl => by rw [hfield, lockPast_locked, if_pos hl], ?_, ?_⟩
  · rw [flag_of_reg hreg, flag_setFld_other _ _ _ _ _ (by decide) (by decide), flag_setFld_same _ _ _ _ (by decide)]
    rfl
  · rw [flag_of_reg hreg, flag_setFld_same _ _ _ _ (by decide)]
    rfl

/-- A write of FC_TRIM itself, before the effective trim follows: the register, and the CLAMPED marks (R48). -/
theorem writeReg_trim_within (v : Word) :
    Within ⟨[.regs, .obs], [one Reg.FLD_FC_TRIM] ++ experts, []⟩ s (s.writeReg Reg.FLD_FC_TRIM v) :=
  within_writeReg Reg.FLD_FC_TRIM s v (.inr (.of (by decide))) (.of (by decide)) (Within.refl _ s)

theorem settlePast_of {s t : State} (hf : t.field = s.field) (ht : t.time = s.time) (hr : t.reg Reg.FLD_SYN_STATUS = s.reg Reg.FLD_SYN_STATUS) :
    t.settlePast = s.settlePast := by
  rw [State.settlePast, State.settlePast, hf, ht, flag_of_reg hr]

theorem locked_of {s t : State} (hf : t.field = s.field) (ht : t.time = s.time) (hr : t.reg Reg.FLD_SYN_STATUS = s.reg Reg.FLD_SYN_STATUS) :
    t.locked = s.locked := by
  rw [State.locked, State.locked, settlePast_of hf ht hr, flag_of_reg hr, flag_of_reg hr]

/-! ### A write of FC_TRIM (R54) -/

theorem writeTrim_trim (v : Word) : (s.writeTrim v).reg Reg.FLD_FC_TRIM = (s.writeReg Reg.FLD_FC_TRIM v).reg Reg.FLD_FC_TRIM :=
  (retrim_within _).reg_of_misses _ (by decide)

theorem writeTrim_offset (v : Word) :
    (s.writeTrim v).fld Reg.FLD_SYN_STATUS Fld.FLD_SYN_STATUS_EFF_OFFSET = unsigned 15 (s.writeTrim v).trimDue := by
  have hlimits : (s.writeTrim v).reg Reg.COX_REG_TRIM = (s.writeReg Reg.FLD_FC_TRIM v).reg Reg.COX_REG_TRIM :=
    (retrim_within _).reg_of_misses _ (by decide)
  rw [trimDue_of_reg (writeTrim_trim s v) hlimits, State.writeTrim, retrim_offset]

/-- A write that changes the effective trim settles the running synthesiser again, a locked one within 60 µs (R55). -/
theorem writeTrim_settles (v : Word) (hr : s.field.synRun = true)
    (hn : (s.writeTrim v).fld Reg.FLD_SYN_STATUS Fld.FLD_SYN_STATUS_EFF_OFFSET ≠ s.fld Reg.FLD_SYN_STATUS Fld.FLD_SYN_STATUS_EFF_OFFSET) :
    (s.writeTrim v).field.synRun = true ∧
    (s.locked = true → (s.writeTrim v).field = { s.field with settleEnd := some (s.time + 60 * usec) }) ∧
    (s.writeTrim v).flag Reg.FLD_SYN_STATUS Fld.FLD_SYN_STATUS_SETTLING = true ∧
    (s.writeTrim v).flag Reg.FLD_SYN_STATUS Fld.FLD_SYN_STATUS_LOCKED = false := by
  unfold State.writeTrim at hn ⊢
  have written := writeReg_trim_within s v
  generalize s.writeReg Reg.FLD_FC_TRIM v = u at hn written ⊢
  have hf : u.field = s.field := written.parts .field (by decide)
  have ht : u.time = s.time := written.parts .time (by decide)
  have hs : u.reg Reg.FLD_SYN_STATUS = s.reg Reg.FLD_SYN_STATUS := written.reg_of_misses _ (by decide +kernel)
  have settles := retrim_settles u (by rw [hf]; exact hr) (by rw [fld_of_reg hs, ← retrim_offset]; exact hn.symm)
  rwa [hf, ht, locked_of hf ht hs] at settles

/-! ### The loss of lock (R56) -/

/-- The loss of lock as it is seen, before the phase follows it (R56). -/
def State.dropLock (s : State) : State :=
  (((s.lockPast.setFld Reg.FLD_SYN_STATUS Fld.FLD_SYN_STATUS_LOCKED 0).setFld Reg.FLD_SYN_STATUS Fld.FLD_SYN_STATUS_SETTLING 1).stick
    Reg.FLD_SYN_STATUS Fld.FLD_SYN_STATUS_LOCK_LOST).post 0x2001 .heart 0

theorem dropLock_within : Within ⟨[.regs, .field, .pro, .obs], [one Reg.FLD_SYN_STATUS], []⟩ s s.dropLock := by
  have past : Within ⟨[.regs, .field, .pro, .obs], [one Reg.FLD_SYN_STATUS], []⟩ s s.lockPast :=
    within_lockPast s (.of (by decide)) (Within.refl _ s)
  have lost := within_setFld Reg.FLD_SYN_STATUS Fld.FLD_SYN_STATUS_SETTLING 1 (.of (by decide))
    (within_setFld Reg.FLD_SYN_STATUS Fld.FLD_SYN_STATUS_LOCKED 0 (.of (by decide)) past)
  exact within_post (.of (by decide)) (within_stick Reg.FLD_SYN_STATUS _ (.of (by decide)) lost) _ _ _

theorem dropLock_flags :
    s.dropLock.flag Reg.FLD_SYN_STATUS Fld.FLD_SYN_STATUS_LOCKED = false ∧ s.dropLock.flag Reg.FLD_SYN_STATUS Fld.FLD_SYN_STATUS_SETTLING = true ∧
    s.dropLock.flag Reg.FLD_SYN_STATUS Fld.FLD_SYN_STATUS_LOCK_LOST = true := by
  have hreg : s.dropLock.reg Reg.FLD_SYN_STATUS = (((s.lockPast.setFld Reg.FLD_SYN_STATUS Fld.FLD_SYN_STATUS_LOCKED 0).setFld Reg.FLD_SYN_STATUS
      Fld.FLD_SYN_STATUS_SETTLING 1).setFld Reg.FLD_SYN_STATUS Fld.FLD_SYN_STATUS_LOCK_LOST 1).reg Reg.FLD_SYN_STATUS := rfl
  refine ⟨?_, ?_, ?_⟩ <;> rw [flag_of_reg hreg]
  · rw [flag_setFld_other _ _ _ _ _ (by decide) (by decide), flag_setFld_other _ _ _ _ _ (by decide) (by decide), flag_setFld_same _ _ _ _ (by decide)]
    rfl
  · rw [flag_setFld_other _ _ _ _ _ (by decide) (by decide), flag_setFld_same _ _ _ _ (by decide)]
    rfl
  · rw [flag_setFld_same _ _ _ _ (by decide)]
    rfl

/-- The loss of lock in RUN is RECOVERY with CAUSE 1 after the loss itself: entering it leaves the flags of the synthesiser alone. -/
theorem lostInRun_reg : (s.dropLock.recover 1).reg Reg.FLD_SYN_STATUS = s.dropLock.reg Reg.FLD_SYN_STATUS :=
  (within_recover s.dropLock 1 (Scope.Le.refl _) (Within.refl _ _)).reg_of_misses _ (by decide +kernel)

theorem lostInRun_posted : Posted 0x2001 .heart 0 (s.dropLock.recover 1) := staysPosted_recover _ 1 (posted_post _ _ _ _)

theorem lostInRun_gen : (s.dropLock.recover 1).gen =
    { s.gen with phase := .recovery, cause := 1, rlimitEnd := some (s.time + s.rlimit), fieldsOff := true } := by
  have hgen : s.dropLock.gen = s.gen := (dropLock_within s).parts .gen (by decide)
  have htime : s.dropLock.time = s.time := (dropLock_within s).parts .time (by decide)
  have hlimit : s.dropLock.rlimit = s.rlimit := by
    rw [State.rlimit, State.rlimit, fld_of_reg ((dropLock_within s).reg_of_misses _ (by decide))]
  rw [recover_gen, hgen, htime, hlimit, decide_eq_true rfl, Bool.true_or, Bool.or_true]

/-! ### The stop of an idle synthesiser (R565) -/

/-- The synthesiser stopped (R565). -/
def State.stopSyn (s : State) : State :=
  let t := (s.setFld Reg.FLD_SYN_STATUS Fld.FLD_SYN_STATUS_LOCKED 0).setFld Reg.FLD_SYN_STATUS Fld.FLD_SYN_STATUS_SETTLING 0
  { t with field := { t.field with synRun := false, settleEnd := none } }

theorem stopSyn_field (u : State) : u.stopSyn.field = { u.field with synRun := false, settleEnd := none } := rfl

theorem stopSyn_time (u : State) : u.stopSyn.time = u.time := rfl

theorem stopSyn_sram (u : State) : u.stopSyn.sram = u.sram := rfl

theorem stopSyn_within (u : State) : Within ⟨[.regs, .field], [one Reg.FLD_SYN_STATUS], []⟩ u u.stopSyn :=
  within_with_field _ (.of (by decide)) (within_setFld Reg.FLD_SYN_STATUS Fld.FLD_SYN_STATUS_SETTLING 0 (.of (by decide))
    (within_setFld Reg.FLD_SYN_STATUS Fld.FLD_SYN_STATUS_LOCKED 0 (.of (by decide)) (Within.refl _ u)))

theorem stopSyn_flags (u : State) : u.stopSyn.flag Reg.FLD_SYN_STATUS Fld.FLD_SYN_STATUS_LOCKED = false ∧
    u.stopSyn.flag Reg.FLD_SYN_STATUS Fld.FLD_SYN_STATUS_SETTLING = false := by
  have hreg : u.stopSyn.reg Reg.FLD_SYN_STATUS = ((u.setFld Reg.FLD_SYN_STATUS Fld.FLD_SYN_STATUS_LOCKED 0).setFld Reg.FLD_SYN_STATUS
      Fld.FLD_SYN_STATUS_SETTLING 0).reg Reg.FLD_SYN_STATUS := rfl
  refine ⟨?_, ?_⟩ <;> rw [flag_of_reg hreg]
  · rw [flag_setFld_other _ _ _ _ _ (by decide) (by decide), flag_setFld_same _ _ _ _ (by decide)]
    rfl
  · rw [flag_setFld_same _ _ _ _ (by decide)]
    rfl

/-- A command of CORE whose effect in the state at hand is known. -/
theorem does_core_eq {s t : State} {c : Instr} {f : State → State} {P : State → Prop} (h : exec c s = s.core f) (hr : Running s) (ht : f s = t)
    (hp : P t) : Does c s P := does_core h hr (ht ▸ hp)

end

/-- Settles O33. Each command is its function on a running device: the write of the trim, lock, the loss of lock followed by RECOVERY, the
stop after the idle time; what the clause says of it are the laws of that function above. LOCKED is 0 while a settling after a trim lasts
(log 72), and lock is reached by the bound of its settling at the latest (log 86). -/
theorem synthesiserSettlesAndStops : Obligations.SynthesiserSettlesAndStops := by
  refine ⟨fun s v hr => ?_, fun s hr hrun hset => ?_, fun s hr hl hp => ?_, fun s hr hrun hidle hms => ?_⟩
  · exact does_core (f := fun s => s.writeTrim v) rfl hr ⟨writeTrim_trim s v, writeTrim_offset s v, writeTrim_settles s v⟩
  · have asked : (s.field.synRun && s.flag Reg.FLD_SYN_STATUS Fld.FLD_SYN_STATUS_SETTLING) = true := by rw [hrun, hset]; rfl
    refine does_core_eq (t := s.lockSyn) rfl hr (if_pos asked)
      ⟨lockSyn_settling s, lockSyn_locked s, lockSyn_field s, lockSyn_pp s, fun a ha => ?_, (lockSyn_within s).parts⟩
    exact (lockSyn_within s).regs a (by simpa [one] using ha)
  · obtain ⟨hlocked, hsettling, hlost⟩ := dropLock_flags s
    have hreg := lostInRun_reg s
    exact does_core_eq (t := s.dropLock.recover 1) rfl hr ((if_pos hl).trans (by rw [hp]; rfl))
      ⟨(flag_of_reg hreg _).trans hlocked, (flag_of_reg hreg _).trans hsettling, (flag_of_reg hreg _).trans hlost, lostInRun_posted s,
       lostInRun_gen s⟩
  · obtain ⟨e, he⟩ : ∃ e, e = s.obs.synIdleSince.getD s.time + s.fld Reg.PWR_CLK Fld.PWR_CLK_SYN_IDLE_MS * msec := ⟨_, rfl⟩
    have may : (s.field.synRun && s.synIdle && decide (0 < s.fld Reg.PWR_CLK Fld.PWR_CLK_SYN_IDLE_MS)) = true := by simp [hrun, hidle, hms]
    have hfield : (s.advance e).field = s.field := keeps_advance s e .field (by decide)
    obtain ⟨hlocked, hsettling⟩ := stopSyn_flags (s.advance e)
    rw [← he]
    refine does_core_eq (t := (s.advance e).stopSyn) rfl hr ((if_pos may).trans (by rw [he]; rfl))
      ⟨hlocked, hsettling, by rw [stopSyn_field, hfield], fun a ha => ?_,
       .of_keeps (stopSyn_within _).parts (stopSyn_time _) (stopSyn_sram _)⟩
    rw [(stopSyn_within _).regs a (by simpa [one] using ha), (advance_reads s e).1]

end Sys2Proof.Machine

/-! Timers and device time (O51): what a tick, a capture, `TMR.GROUP`, `WALL_SET` and a measurement of the slow clock do. -/

namespace Sys2Proof.Machine

section
variable (s : State) (k : TimerId)

/-! ### A timer's registers lie apart -/

/-- Two registers of one timer at different offsets. -/
theorem timerReg_ne {b c n : Nat} (h : b ≠ c := by decide) : b + n % 8 * 0x40 ≠ c + n % 8 * 0x40 := by omega

theorem timerCtrl_ne {k m : Nat} (hk : k < 8) (hm : m < 8) (h : k ≠ m) : Reg.TMR_T_CTRL k ≠ Reg.TMR_T_CTRL m := by
  unfold Reg.TMR_T_CTRL
  omega

/-! ### A step that is taken or not -/

section
variable {p : Prop} [Decidable p] {u v : State} {a : Nat} {f : Field}

theorem reg_ite (h : v.reg a = u.reg a) : (if p then v else u).reg a = u.reg a := by
  split
  · exact h
  · rfl

theorem flag_ite (h : v.flag a f = u.flag a f) : (if p then v else u).flag a f = u.flag a f := by
  split
  · exact h
  · rfl

/-- A flag that the step sets. -/
theorem flag_ite_set (h : v.flag a f = true) : (if p then v else u).flag a f = (u.flag a f || decide p) := by
  split
  · rename_i hp
    rw [h, decide_eq_true hp, Bool.or_true]
  · rename_i hp
    rw [decide_eq_false hp, Bool.or_false]

end

/-! ### A match or wrap (R473) -/

/-- The flag in `TMR.Tk_STATUS` of a match or wrap (source 0 CMP0, 1 CMP1, 2 WRAP). -/
def hitFlag (src : Nat) : Field :=
  if src = 0 then Fld.TMR_T_STATUS_HIT0 else if src = 1 then Fld.TMR_T_STATUS_HIT1 else Fld.TMR_T_STATUS_WRAP

/-- A hit sets its flag; whether or not it posts its event shows in `obs` alone. -/
theorem timerHit_onlyObs (src : Nat) : OnlyObs (s.setFld (Reg.TMR_T_STATUS k) (hitFlag src) 1) (s.timerHit k src) := by
  unfold State.timerHit
  exact .ite ((onlyObs_noteSet _ _ _).trans (onlyObs_postLimited _ _ _ _ _ _ _)) (onlyObs_noteSet _ _ _)

theorem timerHit_reg (src a : Nat) : (s.timerHit k src).reg a = (s.setFld (Reg.TMR_T_STATUS k) (hitFlag src) 1).reg a := by
  rw [timerHit_onlyObs s k src]
  rfl

theorem timerHit_reg_ne (src : Nat) {a : Nat} (h : a ≠ Reg.TMR_T_STATUS k) : (s.timerHit k src).reg a = s.reg a := by
  rw [timerHit_reg, reg_setFld_ne _ _ _ _ _ h]

/-- Each source has a bit of its own. -/
theorem hitFlag_bit {src : Nat} (hs : src < 3) : (hitFlag src).lo = src ∧ (hitFlag src).width = 1 := by
  interval_cases src <;> exact ⟨rfl, rfl⟩

theorem timerHit_flag_same {src : Nat} (hs : src < 3) : (s.timerHit k src).flag (Reg.TMR_T_STATUS k) (hitFlag src) = true := by
  obtain ⟨hlo, hwidth⟩ := hitFlag_bit hs
  rw [flag_of_reg (timerHit_reg s k src _), flag_setFld_same _ _ _ _ (by omega), hwidth]
  rfl

theorem timerHit_flag_other {src i : Nat} (hs : src < 3) (hi : i < 3) (h : i ≠ src) :
    (s.timerHit k src).flag (Reg.TMR_T_STATUS k) (hitFlag i) = s.flag (Reg.TMR_T_STATUS k) (hitFlag i) := by
  obtain ⟨hlo, hwidth⟩ := hitFlag_bit hs
  obtain ⟨hlo', hwidth'⟩ := hitFlag_bit hi
  rw [flag_of_reg (timerHit_reg s k src _), flag_setFld_other _ _ _ _ _ (by omega) (by omega)]

/-! ### A compare (R469) -/

section
variable (src cmp int : Nat)

theorem compareHit_reg_ne {a : Nat} (ha : a ≠ Reg.TMR_T_STATUS k) (hc : a ≠ cmp) : (s.compareHit k src cmp int).reg a = s.reg a := by
  rw [State.compareHit, reg_setReg_ne _ _ _ _ hc, timerHit_reg_ne _ _ _ ha]

theorem compareHit_flag (f : Field) (hc : Reg.TMR_T_STATUS k ≠ cmp) :
    (s.compareHit k src cmp int).flag (Reg.TMR_T_STATUS k) f = (s.timerHit k src).flag (Reg.TMR_T_STATUS k) f :=
  flag_of_reg (reg_setReg_ne _ _ _ _ hc) f

/-- The automatic addition. -/
theorem compareHit_cmp (hc : cmp ≠ Reg.TMR_T_STATUS k) (hi : int ≠ Reg.TMR_T_STATUS k) : (s.compareHit k src cmp int).reg cmp =
    word (((s.reg cmp).toNat + (s.reg int).toNat) % ((s.reg (Reg.TMR_T_RELOAD k)).toNat + 1)) := by
  rw [State.compareHit, reg_setReg_same, timerHit_reg_ne _ _ _ hc, timerHit_reg_ne _ _ _ hi,
    timerHit_reg_ne (a := Reg.TMR_T_RELOAD k) _ _ _ timerReg_ne]

end

/-! ### A tick, up to the cross-trigger (R467, R469) -/

/-- The count after the next tick of timer `k`. -/
def State.nextCount (s : State) (k : TimerId) : Nat :=
  if (s.reg (Reg.TMR_T_RELOAD k)).toNat ≤ (s.reg (Reg.TMR_T_COUNT k)).toNat then 0 else (s.reg (Reg.TMR_T_COUNT k)).toNat + 1

/-- A compare of the tick of timer `k` in `s`, whose earlier steps have led to `u`. -/
def State.tickCmp (s : State) (k : TimerId) (u : State) (src cmp int : Nat) : State :=
  if (s.reg cmp).toNat = s.nextCount k then u.compareHit k src cmp int else u

/-- The count and both compares. -/
def State.tickCmps (s : State) (k : TimerId) : State :=
  s.tickCmp k (s.tickCmp k (s.setReg (Reg.TMR_T_COUNT k) (word (s.nextCount k))) 0 (Reg.TMR_T_CMP0 k) (Reg.TMR_T_INT0 k))
    1 (Reg.TMR_T_CMP1 k) (Reg.TMR_T_INT1 k)

/-- Then the wrap: all of a tick but the cross-trigger. -/
def State.tickOwn (s : State) (k : TimerId) : State :=
  if (s.reg (Reg.TMR_T_RELOAD k)).toNat ≤ (s.reg (Reg.TMR_T_COUNT k)).toNat then (s.tickCmps k).timerHit k 2 else s.tickCmps k

/-- A tick ends with the cross-trigger of the timer, or without it. -/
theorem tick_cases : s.tick k = (s.tickOwn k).crossTrigger k ∨ s.tick k = s.tickOwn k := by
  unfold State.tick State.tickOwn State.tickCmps State.tickCmp State.nextCount
  simp only [decide_eq_true_eq]
  exact ite_eq_or_eq _ _ _

section
variable {u : State} {src cmp int : Nat}

theorem tickCmp_reg_ne {a : Nat} (ha : a ≠ Reg.TMR_T_STATUS k) (hc : a ≠ cmp) : (s.tickCmp k u src cmp int).reg a = u.reg a :=
  reg_ite (compareHit_reg_ne _ _ _ _ _ ha hc)

theorem tickCmp_cmp (hc : cmp ≠ Reg.TMR_T_STATUS k) (hi : int ≠ Reg.TMR_T_STATUS k) (huc : u.reg cmp = s.reg cmp) (hui : u.reg int = s.reg int)
    (hur : u.reg (Reg.TMR_T_RELOAD k) = s.reg (Reg.TMR_T_RELOAD k)) :
    (s.tickCmp k u src cmp int).reg cmp = (if (s.reg cmp).toNat = s.nextCount k then
      word ((s.nextCount k + (s.reg int).toNat) % ((s.reg (Reg.TMR_T_RELOAD k)).toNat + 1)) else s.reg cmp) := by
  unfold State.tickCmp
  split
  · rename_i hit
    rw [compareHit_cmp _ _ _ _ _ hc hi, huc, hui, hur, hit]
  · exact huc

/-- The flag of the compare. -/
theorem tickCmp_flag (hc : Reg.TMR_T_STATUS k ≠ cmp) (hs : src < 3) : (s.tickCmp k u src cmp int).flag (Reg.TMR_T_STATUS k) (hitFlag src) =
    (u.flag (Reg.TMR_T_STATUS k) (hitFlag src) || decide ((s.reg cmp).toNat = s.nextCount k)) :=
  flag_ite_set ((compareHit_flag _ _ _ _ _ _ hc).trans (timerHit_flag_same _ _ hs))

/-- The flag of another source. -/
theorem tickCmp_flag_other {i : Nat} (hc : Reg.TMR_T_STATUS k ≠ cmp) (hs : src < 3) (hi : i < 3) (h : i ≠ src) :
    (s.tickCmp k u src cmp int).flag (Reg.TMR_T_STATUS k) (hitFlag i) = u.flag (Reg.TMR_T_STATUS k) (hitFlag i) :=
  flag_ite ((compareHit_flag _ _ _ _ _ _ hc).trans (timerHit_flag_other _ _ hs hi h))

end

theorem tickOwn_reg_ne {a : Nat} (ha : a ≠ Reg.TMR_T_STATUS k) : (s.tickOwn k).reg a = (s.tickCmps k).reg a :=
  reg_ite (timerHit_reg_ne _ _ _ ha)

theorem tickOwn_flag_other {i : Nat} (hi : i < 3) (h : i ≠ 2) :
    (s.tickOwn k).flag (Reg.TMR_T_STATUS k) (hitFlag i) = (s.tickCmps k).flag (Reg.TMR_T_STATUS k) (hitFlag i) :=
  flag_ite (timerHit_flag_other _ _ (by decide) hi h)

/-- The count moved on leaves the flags alone. -/
theorem tickCount_flag (w : Word) (f : Field) :
    (s.setReg (Reg.TMR_T_COUNT k) w).flag (Reg.TMR_T_STATUS k) f = s.flag (Reg.TMR_T_STATUS k) f :=
  flag_of_reg (reg_setReg_ne _ _ _ _ timerReg_ne) f

/-- What a tick of timer `k` to the count `n` makes of the registers of the timer (R467, R469). -/
structure Ticked (k : TimerId) (n : Nat) (s t : State) : Prop where
  count : t.reg (Reg.TMR_T_COUNT k) = word n
  cmp0 : t.reg (Reg.TMR_T_CMP0 k) = (if (s.reg (Reg.TMR_T_CMP0 k)).toNat = n then
    word ((n + (s.reg (Reg.TMR_T_INT0 k)).toNat) % ((s.reg (Reg.TMR_T_RELOAD k)).toNat + 1)) else s.reg (Reg.TMR_T_CMP0 k))
  cmp1 : t.reg (Reg.TMR_T_CMP1 k) = (if (s.reg (Reg.TMR_T_CMP1 k)).toNat = n then
    word ((n + (s.reg (Reg.TMR_T_INT1 k)).toNat) % ((s.reg (Reg.TMR_T_RELOAD k)).toNat + 1)) else s.reg (Reg.TMR_T_CMP1 k))
  hit0 : t.flag (Reg.TMR_T_STATUS k) Fld.TMR_T_STATUS_HIT0 =
    (s.flag (Reg.TMR_T_STATUS k) Fld.TMR_T_STATUS_HIT0 || decide ((s.reg (Reg.TMR_T_CMP0 k)).toNat = n))
  hit1 : t.flag (Reg.TMR_T_STATUS k) Fld.TMR_T_STATUS_HIT1 =
    (s.flag (Reg.TMR_T_STATUS k) Fld.TMR_T_STATUS_HIT1 || decide ((s.reg (Reg.TMR_T_CMP1 k)).toNat = n))
  wrap : t.flag (Reg.TMR_T_STATUS k) Fld.TMR_T_STATUS_WRAP =
    (s.flag (Reg.TMR_T_STATUS k) Fld.TMR_T_STATUS_WRAP ||
      decide ((s.reg (Reg.TMR_T_RELOAD k)).toNat ≤ (s.reg (Reg.TMR_T_COUNT k)).toNat))

theorem tickOwn_ticked : Ticked k (s.nextCount k) s (s.tickOwn k) where
  count := by
    rw [tickOwn_reg_ne _ _ timerReg_ne, State.tickCmps, tickCmp_reg_ne _ _ timerReg_ne timerReg_ne, tickCmp_reg_ne _ _ timerReg_ne timerReg_ne,
      reg_setReg_same]
  cmp0 := by
    rw [tickOwn_reg_ne _ _ timerReg_ne, State.tickCmps, tickCmp_reg_ne _ _ timerReg_ne timerReg_ne]
    exact tickCmp_cmp _ _ timerReg_ne timerReg_ne (reg_setReg_ne _ _ _ _ timerReg_ne) (reg_setReg_ne _ _ _ _ timerReg_ne)
      (reg_setReg_ne _ _ _ _ timerReg_ne)
  cmp1 := by
    rw [tickOwn_reg_ne _ _ timerReg_ne, State.tickCmps]
    have kept {a : Nat} (hs : a ≠ Reg.TMR_T_STATUS k) (hc : a ≠ Reg.TMR_T_CMP0 k) (hn : a ≠ Reg.TMR_T_COUNT k) :=
      (tickCmp_reg_ne s k (src := 0) (int := Reg.TMR_T_INT0 k) hs hc).trans (reg_setReg_ne s _ _ (word (s.nextCount k)) hn)
    exact tickCmp_cmp _ _ timerReg_ne timerReg_ne (kept timerReg_ne timerReg_ne timerReg_ne) (kept timerReg_ne timerReg_ne timerReg_ne)
      (kept timerReg_ne timerReg_ne timerReg_ne)
  hit0 := calc
    _ = (s.tickCmps k).flag (Reg.TMR_T_STATUS k) (hitFlag 0) := tickOwn_flag_other s k (i := 0) (by decide) (by decide)
    _ = _ := tickCmp_flag_other s k timerReg_ne (by decide) (by decide) (by decide)
    _ = _ := tickCmp_flag s k timerReg_ne (by decide)
    _ = _ := by rw [tickCount_flag]; rfl
  hit1 := calc
    _ = (s.tickCmps k).flag (Reg.TMR_T_STATUS k) (hitFlag 1) := tickOwn_flag_other s k (i := 1) (by decide) (by decide)
    _ = _ := tickCmp_flag s k timerReg_ne (by decide)
    _ = _ := by rw [tickCmp_flag_other s k timerReg_ne (by decide) (by decide) (by decide), tickCount_flag]; rfl
  wrap := calc
    _ = ((s.tickCmps k).flag (Reg.TMR_T_STATUS k) (hitFlag 2) || _) := flag_ite_set (timerHit_flag_same _ _ (by decide))
    _ = _ := by
      rw [State.tickCmps, tickCmp_flag_other s k timerReg_ne (by decide) (by decide) (by decide),
        tickCmp_flag_other s k timerReg_ne (by decide) (by decide) (by decide), tickCount_flag]
      rfl

/-! ### What a tick leaves alone -/

theorem keeps_setReg (a : Nat) (w : Word) : Keeps [.regs, .obs] s (s.setReg a w) :=
  (within_setReg a w (Scope.Le.refl _) (Within.refl _ s)).parts.mono (by simp)

theorem keeps_timerHit (src : Nat) : Keeps [.regs, .obs] s (s.timerHit k src) := (within_timerHit s k src (Scope.Le.refl _) (Within.refl _ s)).parts

theorem Keeps.ite {l : List StatePart} {s t u : State} {p : Prop} [Decidable p] (h : Keeps l s t) (h' : Keeps l s u) :
    Keeps l s (if p then t else u) := by
  split
  · exact h
  · exact h'

theorem keeps_tickCmp {u : State} (h : Keeps [.regs, .obs] s u) (src cmp int : Nat) : Keeps [.regs, .obs] s (s.tickCmp k u src cmp int) :=
  .ite (h.trans ((keeps_timerHit u k src).trans (keeps_setReg _ cmp _))) h

theorem keeps_tickOwn : Keeps [.regs, .obs] s (s.tickOwn k) := by
  have compared : Keeps [.regs, .obs] s (s.tickCmps k) := keeps_tickCmp s k (keeps_tickCmp s k (keeps_setReg s _ _) _ _ _) _ _ _
  exact .ite (compared.trans (keeps_timerHit _ k 2)) compared

/-- Up to the cross-trigger a tick writes the count, the compares and the flags of its timer alone. -/
theorem regsBut_tickOwn : RegsBut [Reg.TMR_T_COUNT k, Reg.TMR_T_CMP0 k, Reg.TMR_T_CMP1 k, Reg.TMR_T_STATUS k] s (s.tickOwn k) := by
  intro a ha
  simp only [List.mem_cons, List.not_mem_nil, or_false, not_or] at ha
  obtain ⟨hcount, hcmp0, hcmp1, hstatus⟩ := ha
  rw [tickOwn_reg_ne _ _ hstatus, State.tickCmps, tickCmp_reg_ne _ _ hstatus hcmp1, tickCmp_reg_ne _ _ hstatus hcmp0, reg_setReg_ne _ _ _ _ hcount]

/-! ### The cross-trigger (R474, R475) -/

/-- The cross-trigger writes no register that misses what its actions write. -/
theorem crossTrigger_reg (f : Nat → Nat) (hf : ∀ k : TimerId,
    missesRegs [one Reg.FLD_SYN_STATUS, one Reg.STO_HSTATUS, one Reg.TMR_TRIG_STATUS, each Reg.TMR_T_CTRL 8] (f k) = true) :
    (s.crossTrigger k).reg (f k) = s.reg (f k) :=
  (within_crossTrigger s k (Scope.Le.refl _) (Within.refl _ s)).reg_of_misses _ (hf k)

theorem Ticked.crossTrigger {k : TimerId} {n : Nat} {s t : State} (h : Ticked k n s t) : Ticked k n s (t.crossTrigger k) := by
  have hstatus := crossTrigger_reg t k Reg.TMR_T_STATUS (by decide +kernel)
  exact ⟨(crossTrigger_reg t k Reg.TMR_T_COUNT (by decide +kernel)).trans h.count,
    (crossTrigger_reg t k Reg.TMR_T_CMP0 (by decide +kernel)).trans h.cmp0, (crossTrigger_reg t k Reg.TMR_T_CMP1 (by decide +kernel)).trans h.cmp1,
    (flag_of_reg hstatus _).trans h.hit0, (flag_of_reg hstatus _).trans h.hit1, (flag_of_reg hstatus _).trans h.wrap⟩

theorem tick_ticked : Ticked k (s.nextCount k) s (s.tick k) := by
  obtain h | h := tick_cases s k
  · rw [h]
    exact (tickOwn_ticked s k).crossTrigger
  · rw [h]
    exact tickOwn_ticked s k

theorem crossTrigger_off (h : s.flag (Reg.TMR_T_XTRIG k) Fld.TMR_T_XTRIG_XEN = false) : s.crossTrigger k = s := by
  rw [State.crossTrigger, h, Bool.false_and]
  rfl

/-- Without XEN a tick has no cross-trigger. -/
theorem tick_of_xen_off (h : s.flag (Reg.TMR_T_XTRIG k) Fld.TMR_T_XTRIG_XEN = false) : s.tick k = s.tickOwn k := by
  have kept : (s.tickOwn k).reg (Reg.TMR_T_XTRIG k) = s.reg (Reg.TMR_T_XTRIG k) :=
    regsBut_tickOwn s k _ (by simp)
  obtain ht | ht := tick_cases s k
  · rw [ht, crossTrigger_off _ k ((flag_of_reg kept _).trans h)]
  · exact ht

/-! ### The tick as it falls due (R466) -/

/-- The state in which the tick of timer `k` due at `e` counts: the one after it is due PRESC + 1 cycles later. -/
def State.tickAt (s : State) (k : TimerId) (e : Nat) : State :=
  (s.advance e).setTimer k { nextTick := some (e + (s.fld (Reg.TMR_T_CTRL k) Fld.TMR_T_CTRL_PRESC + 1) * cycle) }

theorem tickDue_eq {e : Nat} (h : (s.timer k).nextTick = some e) : s.tickDue k = (s.tickAt k e).tick k := by rw [State.tickDue, h]; rfl

theorem tickAt_reg (e a : Nat) : (s.tickAt k e).reg a = s.reg a := (advance_reads s e).1 a

theorem tickAt_nextCount (e : Nat) : (s.tickAt k e).nextCount k = s.nextCount k := by simp only [State.nextCount, tickAt_reg]

theorem Ticked.of_reg {k : TimerId} {n : Nat} {s u t : State} (h : Ticked k n u t) (hu : ∀ a, u.reg a = s.reg a) : Ticked k n s t := by
  obtain ⟨hcount, hcmp0, hcmp1, hhit0, hhit1, hwrap⟩ := h
  simp only [hu, flag_of_reg (hu _)] at hcmp0 hcmp1 hhit0 hhit1 hwrap
  exact ⟨hcount, hcmp0, hcmp1, hhit0, hhit1, hwrap⟩

/-- What a tick due at `e` does, whatever the timer's cross-trigger does besides. -/
theorem tickDue_ticked {e : Nat} (h : (s.timer k).nextTick = some e) : Ticked k (s.nextCount k) s (s.tickDue k) := by
  rw [tickDue_eq s k h, ← tickAt_nextCount s k e]
  exact (tick_ticked (s.tickAt k e) k).of_reg (tickAt_reg s k e)

/-- A tick without a cross-trigger changes nothing else. -/
theorem tickDue_frame {e : Nat} (h : (s.timer k).nextTick = some e) (hx : s.flag (Reg.TMR_T_XTRIG k) Fld.TMR_T_XTRIG_XEN = false) :
    (s.tickDue k).timer k = { nextTick := some (e + (s.fld (Reg.TMR_T_CTRL k) Fld.TMR_T_CTRL_PRESC + 1) * cycle) } ∧
    TimerOf k s (s.tickDue k) ∧ RegsBut [Reg.TMR_T_COUNT k, Reg.TMR_T_CMP0 k, Reg.TMR_T_CMP1 k, Reg.TMR_T_STATUS k] s (s.tickDue k) ∧
    Passes e [.regs, .tmr] s (s.tickDue k) := by
  rw [tickDue_eq s k h, tick_of_xen_off _ k ((flag_of_reg (tickAt_reg s k e _) _).trans hx)]
  have own := keeps_tickOwn (s.tickAt k e) k
  have htimers : ((s.tickAt k e).tickOwn k).tmr = (s.tickAt k e).tmr := own .tmr (by decide)
  have htimer (m : Nat) : ((s.tickAt k e).tickOwn k).timer m = (s.tickAt k e).timer m := by rw [State.timer, State.timer, htimers]
  have set : Keeps [.tmr] (s.advance e) (s.tickAt k e) := (within_setTimer (s.advance e) k _ (Scope.Le.refl _) (Within.refl _ _)).parts
  have whole : Keeps [.regs, .tmr, .obs] (s.advance e) ((s.tickAt k e).tickOwn k) := (set.mono (by decide)).trans (own.mono (by decide))
  obtain ⟨htime, hring, hkeeps⟩ := Passes.of_keeps whole (whole .time (by decide)) (whole .sram (by decide))
  refine ⟨(htimer k).trans (timer_setTimer_same _ _ _), fun m hm => ?_, fun a ha => ?_, htime, hring, hkeeps.mono (by decide)⟩
  · have htmr : (s.advance e).tmr = s.tmr := keeps_advance s e .tmr (by decide)
    rw [htimer m, State.tickAt, timer_setTimer_ne _ _ _ _ hm, State.timer, State.timer, htmr]
  · exact (regsBut_tickOwn _ k a ha).trans (tickAt_reg s k e a)

/-! ### Capture (R472) -/

theorem captOf_modCapt_same (f : Capt → Capt) : (s.modCapt k f).captOf k = f (s.captOf k) := vget_vmod_same _ _ _ _ k.isLt

theorem captOf_modCapt_ne {m : Nat} (f : Capt → Capt) (h : m ≠ k) : (s.modCapt k f).captOf m = s.captOf m := vget_vmod_ne _ _ _ _ _ h

theorem keeps_modCapt (f : Capt → Capt) : Keeps [.obs] s (s.modCapt k f) := (within_modCapt s k f (Scope.Le.refl _) (Within.refl _ s)).parts

/-- The count captured, over an unread one or not. -/
def State.captured (s : State) (k : TimerId) : State :=
  s.modCapt k fun x => { value := s.reg (Reg.TMR_T_COUNT k), isNew := true, ovr := x.ovr || (s.captOf k).isNew }

theorem captured_captOf : (s.captured k).captOf k =
    { value := s.reg (Reg.TMR_T_COUNT k), isNew := true, ovr := (s.captOf k).ovr || (s.captOf k).isNew } := captOf_modCapt_same s k _

/-- A capture over an unread one is noted and posted. -/
def State.overrun (s : State) (k : TimerId) : State :=
  ((s.captured k).noteSet (Reg.TMR_T_STATUS k) Fld.TMR_T_STATUS_CAPT_OVR.mask).post 0xD002 .top 0

theorem overrun_captOf (m : Nat) : (s.overrun k).captOf m = (s.captured k).captOf m := rfl

theorem keeps_overrun : Keeps [.obs] s (s.overrun k) :=
  (within_post (Scope.Le.refl _) (within_noteSet (Scope.Le.refl _) (within_modCapt s k _ (Scope.Le.refl _) (Within.refl _ s)) _ _) _ _ _).parts

/-! ### TMR.GROUP (R478) -/

/-- Timer `k`, its control register and the time are the same in two states. -/
structure SameTimer (k : Nat) (s t : State) : Prop where
  ctrl : t.reg (Reg.TMR_T_CTRL k) = s.reg (Reg.TMR_T_CTRL k)
  timer : t.timer k = s.timer k
  time : t.time = s.time

theorem SameTimer.trans {k : Nat} {s t u : State} (h : SameTimer k s t) (h' : SameTimer k t u) : SameTimer k s u :=
  ⟨h'.ctrl.trans h.ctrl, h'.timer.trans h.timer, h'.time.trans h.time⟩

theorem syncTimer_regs (k : Nat) : (s.syncTimer k).regs = s.regs := (within_syncTimer s k (Scope.Le.refl _) (Within.refl _ s)).parts .regs (by decide)

theorem syncTimer_time (k : Nat) : (s.syncTimer k).time = s.time := (within_syncTimer s k (Scope.Le.refl _) (Within.refl _ s)).parts .time (by decide)

theorem syncTimer_timer_ne {k m : Nat} (h : m ≠ k) : (s.syncTimer k).timer m = s.timer m := by
  have set (x : TimerSt) : (s.setTimer k x).timer m = s.timer m := timer_setTimer_ne _ _ _ _ h
  unfold State.syncTimer State.runTimer
  split
  · split
    · rfl
    · exact set _
  · exact set _

theorem enTimer_time (k : Nat) (on : Bool) : (s.enTimer k on).time = s.time := by
  rw [State.enTimer, syncTimer_time]
  rfl

theorem enTimer_ctrl (on : Bool) : (s.enTimer k on).reg (Reg.TMR_T_CTRL k) = Fld.TMR_T_CTRL_EN.set (s.reg (Reg.TMR_T_CTRL k)) (bnat on) := by
  rw [State.enTimer, reg_of_regs (syncTimer_regs _ _), reg_setFld_same]

theorem enTimer_flag (on : Bool) : (s.enTimer k on).flag (Reg.TMR_T_CTRL k) Fld.TMR_T_CTRL_EN = on := by
  have hreg : (s.enTimer k on).reg (Reg.TMR_T_CTRL k) = (s.setFld (Reg.TMR_T_CTRL k) Fld.TMR_T_CTRL_EN (bnat on)).reg (Reg.TMR_T_CTRL k) :=
    reg_of_regs (syncTimer_regs _ _) _
  rw [flag_of_reg hreg, flag_setFld_same _ _ _ _ (by decide)]
  cases on <;> rfl

theorem enTimer_off : (s.enTimer k false).timer k = { nextTick := none } := by
  have hen := flag_setFld_same s (Reg.TMR_T_CTRL k) Fld.TMR_T_CTRL_EN (bnat false) (by decide)
  rw [State.enTimer, State.syncTimer, hen]
  exact timer_setTimer_same _ _ _

/-- A timer that runs goes on; one that stands starts. -/
theorem enTimer_on : (s.enTimer k true).timer k =
    { nextTick := some ((s.timer k).nextTick.getD (s.time + (s.fld (Reg.TMR_T_CTRL k) Fld.TMR_T_CTRL_PRESC + 1) * cycle)) } := by
  have hen : (s.setFld (Reg.TMR_T_CTRL k) Fld.TMR_T_CTRL_EN (bnat true)).flag (Reg.TMR_T_CTRL k) Fld.TMR_T_CTRL_EN = true :=
    flag_setFld_same _ _ _ _ (by decide)
  rw [State.enTimer, State.syncTimer, if_pos hen]
  cases hnext : (s.timer k).nextTick with
  | none =>
    rw [if_neg (by simp [hnext]), State.runTimer, timer_setTimer_same, fld_setFld_other _ _ _ _ _ (by decide) (by decide)]
    rfl
  | some e =>
    rw [if_pos (by simp [hnext])]
    exact congrArg TimerSt.mk hnext

theorem SameTimer.enTimer {k : TimerId} {s t : State} (h : SameTimer k s t) (on : Bool) : SameTimer k (s.enTimer k on) (t.enTimer k on) where
  ctrl := by rw [enTimer_ctrl, enTimer_ctrl, h.ctrl]
  timer := by
    cases on
    · rw [enTimer_off, enTimer_off]
    · rw [enTimer_on, enTimer_on, h.timer, h.time, fld_of_reg h.ctrl]
  time := by rw [enTimer_time, enTimer_time, h.time]

theorem sameTimer_enTimer_ne {m : Nat} (hm : m < 8) (h : m ≠ k) (on : Bool) : SameTimer k s (s.enTimer m on) where
  ctrl := (reg_of_regs (syncTimer_regs _ _) _).trans (reg_setFld_ne _ _ _ _ _ (timerCtrl_ne k.isLt hm h.symm))
  timer := syncTimer_timer_ne _ h.symm
  time := enTimer_time _ _ _

/-- What `TMR.GROUP` written with `v` does to timer `k`. -/
def State.groupStep (v : Word) (k : Nat) (s : State) : State :=
  if (Fld.TMR_GROUP_STOP.get v).testBit k then s.enTimer k false
  else if (Fld.TMR_GROUP_START.get v).testBit k then s.enTimer k true else s

variable (v : Word)

theorem SameTimer.groupStep {k : TimerId} {s t : State} (h : SameTimer k s t) : SameTimer k (s.groupStep v k) (t.groupStep v k) := by
  unfold State.groupStep
  split
  · exact h.enTimer _
  · split
    · exact h.enTimer _
    · exact h

theorem sameTimer_groupStep_ne {m : Nat} (hm : m < 8) (h : m ≠ k) : SameTimer k s (s.groupStep v m) := by
  unfold State.groupStep
  split
  · exact sameTimer_enTimer_ne s k hm h _
  · split
    · exact sameTimer_enTimer_ne s k hm h _
    · exact ⟨rfl, rfl, rfl⟩

/-- Of the first `n` steps, timer `k` sees its own alone. -/
theorem sameTimer_each_groupStep {n : Nat} (hn : n ≤ 8) :
    SameTimer k (if k.val < n then s.groupStep v k else s) (State.each (State.groupStep v) n s) := by
  induction n with
  | zero => exact ⟨rfl, rfl, rfl⟩
  | succ n ih =>
    specialize ih (by omega)
    rw [State.each]
    by_cases hk : n = k.val
    · subst hk
      rw [if_neg (Nat.lt_irrefl _)] at ih
      rw [if_pos (Nat.lt_succ_self _)]
      exact ih.groupStep _
    · rw [if_congr (show k.val < n + 1 ↔ k.val < n by omega) rfl rfl]
      exact ih.trans (sameTimer_groupStep_ne _ k v (by omega) hk)

theorem sameTimer_writeGroup : SameTimer k (s.groupStep v k) (s.writeGroup v) := by
  have h := sameTimer_each_groupStep s k v (n := 8) (Nat.le_refl _)
  rwa [if_pos k.isLt] at h

theorem writeGroup_stop (h : (Fld.TMR_GROUP_STOP.get v).testBit k = true) :
    (s.writeGroup v).flag (Reg.TMR_T_CTRL k) Fld.TMR_T_CTRL_EN = false ∧ ((s.writeGroup v).timer k).nextTick = none := by
  have same := sameTimer_writeGroup s k v
  rw [State.groupStep, if_pos h] at same
  rw [flag_of_reg same.ctrl, enTimer_flag, same.timer, enTimer_off]
  exact ⟨rfl, rfl⟩

theorem writeGroup_start (h : (Fld.TMR_GROUP_STOP.get v).testBit k = false) (hs : (Fld.TMR_GROUP_START.get v).testBit k = true) :
    (s.writeGroup v).flag (Reg.TMR_T_CTRL k) Fld.TMR_T_CTRL_EN = true ∧ ((s.writeGroup v).timer k).nextTick =
      some ((s.timer k).nextTick.getD (s.time + (s.fld (Reg.TMR_T_CTRL k) Fld.TMR_T_CTRL_PRESC + 1) * cycle)) := by
  have same := sameTimer_writeGroup s k v
  rw [State.groupStep, if_neg (by rw [h]; decide), if_pos hs] at same
  rw [flag_of_reg same.ctrl, enTimer_flag, same.timer, enTimer_on]
  exact ⟨rfl, rfl⟩

theorem writeGroup_unnamed (h : (Fld.TMR_GROUP_STOP.get v).testBit k = false) (hs : (Fld.TMR_GROUP_START.get v).testBit k = false) :
    (s.writeGroup v).reg (Reg.TMR_T_CTRL k) = s.reg (Reg.TMR_T_CTRL k) ∧ (s.writeGroup v).timer k = s.timer k := by
  have same := sameTimer_writeGroup s k v
  rw [State.groupStep, if_neg (by rw [h]; decide), if_neg (by rw [hs]; decide)] at same
  exact ⟨same.ctrl, same.timer⟩

end

section
variable (s : State)

/-! ### How an authenticated command ends (R523) -/

theorem authResult_reg (r a : Nat) : (s.authResult r).reg a =
    ((s.setFld Reg.CFG_AUTH_STATUS Fld.CFG_AUTH_STATUS_RESULT r).setFld Reg.GEN_IRQ_STATUS Fld.GEN_IRQ_STATUS_AUTH 1).reg a := rfl

theorem authResult_status (r : Nat) : (s.authResult r).reg Reg.CFG_AUTH_STATUS =
    (s.setFld Reg.CFG_AUTH_STATUS Fld.CFG_AUTH_STATUS_RESULT r).reg Reg.CFG_AUTH_STATUS := by
  rw [authResult_reg, reg_setFld_ne _ _ _ _ _ (by decide)]

theorem authResult_result (r : Nat) : (s.authResult r).fld Reg.CFG_AUTH_STATUS Fld.CFG_AUTH_STATUS_RESULT =
    r % 2 ^ Fld.CFG_AUTH_STATUS_RESULT.width := by
  rw [fld_of_reg (authResult_status s r), fld_setFld_same _ _ _ _ (by decide)]

theorem authResult_accepted (r : Nat) : (s.authResult r).fld Reg.CFG_AUTH_STATUS Fld.CFG_AUTH_STATUS_ACCEPTED =
    s.fld Reg.CFG_AUTH_STATUS Fld.CFG_AUTH_STATUS_ACCEPTED := by
  rw [fld_of_reg (authResult_status s r), fld_setFld_other _ _ _ _ _ (by decide) (by decide)]

theorem authResult_irq (r : Nat) : (s.authResult r).flag Reg.GEN_IRQ_STATUS Fld.GEN_IRQ_STATUS_AUTH = true := by
  rw [flag_of_reg (authResult_reg s r _), flag_setFld_same _ _ _ _ (by decide)]
  rfl

theorem authRefused_spec : AuthRefused s s.authRefused := ⟨authResult_result _ 6, authResult_accepted _ 6, authResult_irq _ 6, rfl⟩

/-- A count field of 16 bits advanced by one. -/
theorem fld_bump16 (a : Nat) (f : Field) (hw : f.width = 16) (h : f.lo + f.width ≤ 32) : (s.bump a f).fld a f = satAdd 65535 (s.fld a f) 1 := by
  have hle : satAdd 65535 (s.fld a f) 1 < 2 ^ 16 := by
    rw [satAdd]
    split <;> omega
  rw [State.bump, State.bumpBy, fld_setFld_same _ _ _ _ h, hw]
  exact Nat.mod_eq_of_lt hle

theorem authAccepted_spec : AuthAccepted s s.authAccepted := by
  have hreg (a : Nat) : s.authAccepted.reg a = ((s.authResult 1).bump Reg.CFG_AUTH_STATUS Fld.CFG_AUTH_STATUS_ACCEPTED).reg a := rfl
  refine ⟨?_, ?_, ?_⟩
  · rw [fld_of_reg (hreg _), State.bump, State.bumpBy, fld_setFld_other _ _ _ _ _ (by decide) (by decide), authResult_result]
    rfl
  · rw [fld_of_reg (hreg _), fld_bump16 _ _ _ rfl (by decide), authResult_accepted]
  · have hirq : s.authAccepted.reg Reg.GEN_IRQ_STATUS = (s.authResult 1).reg Reg.GEN_IRQ_STATUS := by
      rw [hreg, State.bump, State.bumpBy, reg_setFld_ne _ _ _ _ _ (by decide)]
    rw [flag_of_reg hirq, authResult_irq]

/-! ### Wall time (R464, R465) -/

theorem dt_of {s t : State} (ht : t.time = s.time) (hp : t.pwr = s.pwr) : t.dt = s.dt := by
  rw [State.dt, State.dt, State.devTime, State.devTime, ht, hp]

theorem wt_of {s t : State} (ht : t.time = s.time) (hp : t.pwr = s.pwr) (hlo : t.reg Reg.TMR_WT_OFS_LO = s.reg Reg.TMR_WT_OFS_LO)
    (hhi : t.reg Reg.TMR_WT_OFS_HI = s.reg Reg.TMR_WT_OFS_HI) : t.wt = s.wt := by
  rw [State.wt, State.wt, dt_of ht hp, hlo, hhi]

variable (v : Nat)

/-- The registers of wall time written: the offset, KNOWN, SETS. -/
def State.wallRegs (s : State) (ofs : Nat) : State :=
  ((((s.setReg Reg.TMR_WT_OFS_LO (word ofs)).setReg Reg.TMR_WT_OFS_HI (word (ofs / 2 ^ 32))).setFld
    Reg.TMR_WALL_STATUS Fld.TMR_WALL_STATUS_KNOWN 1).setFld Reg.KPR_STATUS Fld.KPR_STATUS_WALL_KNOWN 1).bump
    Reg.TMR_WALL_STATUS Fld.TMR_WALL_STATUS_SETS

theorem setWall_eq : s.setWall v = (s.wallRegs ((v + 2 ^ 64 - s.dt % 2 ^ 64) % 2 ^ 64)).invalidate.postEvent
    { code := 0xC003, note := .heart, arg := 0, own := [word s.wt, word (s.wt / 2 ^ 32), word v, word (v / 2 ^ 32)] } := rfl

theorem reg_invalidate_postEvent (e : Event) (a : Nat) : (s.invalidate.postEvent e).reg a = s.reg a := rfl

theorem setWall_reg (a : Nat) : (s.setWall v).reg a = (s.wallRegs ((v + 2 ^ 64 - s.dt % 2 ^ 64) % 2 ^ 64)).reg a := by
  rw [setWall_eq, reg_invalidate_postEvent]

theorem setWall_within : Within ⟨[.regs, .kpr, .obs], [one Reg.KPR_STATUS, one Reg.TMR_WALL_STATUS, one Reg.TMR_WT_OFS_HI,
    one Reg.TMR_WT_OFS_LO], []⟩ s (s.setWall v) := within_setWall s v (Scope.Le.refl _) (Within.refl _ s)

theorem setWall_wt (hv : v < 2 ^ 64) : (s.setWall v).wt = v := by
  have hlo : (s.setWall v).reg Reg.TMR_WT_OFS_LO = word ((v + 2 ^ 64 - s.dt % 2 ^ 64) % 2 ^ 64) := by
    rw [setWall_reg, State.wallRegs, State.bump, State.bumpBy, reg_setFld_ne _ _ _ _ _ (by decide), reg_setFld_ne _ _ _ _ _ (by decide),
      reg_setFld_ne _ _ _ _ _ (by decide), reg_setReg_ne _ _ _ _ (by decide), reg_setReg_same]
  have hhi : (s.setWall v).reg Reg.TMR_WT_OFS_HI = word ((v + 2 ^ 64 - s.dt % 2 ^ 64) % 2 ^ 64 / 2 ^ 32) := by
    rw [setWall_reg, State.wallRegs, State.bump, State.bumpBy, reg_setFld_ne _ _ _ _ _ (by decide), reg_setFld_ne _ _ _ _ _ (by decide),
      reg_setFld_ne _ _ _ _ _ (by decide), reg_setReg_same]
  have hdt : (s.setWall v).dt = s.dt := dt_of ((setWall_within s v).parts .time (by decide)) ((setWall_within s v).parts .pwr (by decide))
  rw [State.wt, hlo, hhi, hdt]
  simp only [word, BitVec.toNat_ofNat]
  omega

theorem setWall_known : (s.setWall v).flag Reg.TMR_WALL_STATUS Fld.TMR_WALL_STATUS_KNOWN = true ∧
    (s.setWall v).flag Reg.KPR_STATUS Fld.KPR_STATUS_WALL_KNOWN = true := by
  constructor
  · rw [flag_of_reg (setWall_reg s v _), State.wallRegs, State.bump, State.bumpBy, flag_setFld_other _ _ _ _ _ (by decide) (by decide),
      flag_of_reg (reg_setFld_ne _ _ _ _ _ (by decide)), flag_setFld_same _ _ _ _ (by decide)]
    rfl
  · rw [flag_of_reg (setWall_reg s v _), State.wallRegs, State.bump, State.bumpBy, flag_of_reg (reg_setFld_ne _ _ _ _ _ (by decide)),
      flag_setFld_same _ _ _ _ (by decide)]
    rfl

theorem setWall_sets : (s.setWall v).fld Reg.TMR_WALL_STATUS Fld.TMR_WALL_STATUS_SETS =
    satAdd 65535 (s.fld Reg.TMR_WALL_STATUS Fld.TMR_WALL_STATUS_SETS) 1 := by
  rw [fld_of_reg (setWall_reg s v _), State.wallRegs, fld_bump16 _ _ _ rfl (by decide), fld_setFld_ne _ _ _ _ _ _ (by decide),
    fld_setFld_other _ _ _ _ _ (by decide) (by decide), fld_setReg_ne _ _ _ _ _ (by decide), fld_setReg_ne _ _ _ _ _ (by decide)]

theorem setWall_kpr : (s.setWall v).kpr = { s.kpr with pass := some s.time, slots := s.kpr.slots.map fun x => { x with stale := true } } := by
  have hkpr : (s.wallRegs ((v + 2 ^ 64 - s.dt % 2 ^ 64) % 2 ^ 64)).kpr = s.kpr := by simp [State.wallRegs]
  have htime : (s.wallRegs ((v + 2 ^ 64 - s.dt % 2 ^ 64) % 2 ^ 64)).time = s.time := by simp [State.wallRegs]
  rw [setWall_eq, ← hkpr, ← htime]
  rfl

theorem setWall_posted :
    ({ code := 0xC003, note := .heart, arg := 0, own := [word s.wt, word (s.wt / 2 ^ 32), word v, word (v / 2 ^ 32)] } : Event) ∈
    (s.setWall v).obs.posted := by
  rw [setWall_eq]
  exact List.mem_append_right _ (List.mem_singleton_self _)

/-- `WALL_SET` refused (R464). -/
theorem wallRefused_within : Within ⟨[.regs, .cfg, .obs], authRegs, []⟩ s (s.authRefused.post 0xD004 .heart 0) :=
  within_post (.of (by decide)) (within_authRefused s (.of (by decide)) (Within.refl _ s)) _ _ _

/-- The command accepted and over, before wall time is set. -/
theorem authOver_within : Within ⟨[.regs, .cfg, .obs], authRegs, []⟩ s s.authAccepted.authEnd :=
  within_authEnd _ (.of (by decide)) (within_authAccepted s (.of (by decide)) (Within.refl _ s))

/-- `WALL_SET` accepted (R465). -/
theorem wallAccepted_within : Within ⟨[.regs, .cfg, .kpr, .obs], authRegs ++ [one Reg.TMR_WT_OFS_LO, one Reg.TMR_WT_OFS_HI, one Reg.TMR_WALL_STATUS,
    one Reg.KPR_STATUS], []⟩ s (s.authAccepted.authEnd.setWall v) :=
  within_setWall _ v (.of (by decide)) ((authOver_within s).mono (.of (by decide)))

theorem does_wallSet {p : List Byte} {P : State → Prop} (hr : Running s) (ha : s.authActs 5 = some p)
    (hp : P (if wallLimit ≤ leAt p 0 8 then s.authRefused.post 0xD004 .heart 0 else s.authAccepted.authEnd.setWall (leAt p 0 8))) :
    Does .wallSet s P := by
  refine does_of (o := execWallSet s) rfl (core_does hr ?_)
  simp only [ha]
  exact hp

theorem AuthAccepted.of_reg {s t u : State} (h : AuthAccepted s t) (hs : u.reg Reg.CFG_AUTH_STATUS = t.reg Reg.CFG_AUTH_STATUS)
    (hi : u.reg Reg.GEN_IRQ_STATUS = t.reg Reg.GEN_IRQ_STATUS) : AuthAccepted s u := by
  obtain ⟨hresult, haccepted, hirq⟩ := h
  exact ⟨(fld_of_reg hs _).trans hresult, (fld_of_reg hs _).trans haccepted, (flag_of_reg hi _).trans hirq⟩

theorem wallAccepted_auth : AuthAccepted s (s.authAccepted.authEnd.setWall v) :=
  (authAccepted_spec s).of_reg ((setWall_within _ v).reg_of_misses _ (by decide)) ((setWall_within _ v).reg_of_misses _ (by decide))

end

/-- Settles O51. A tick is the count, two compares and the wrap, with a cross-trigger after them or without: `tickDue_ticked` says what the
timer's own registers are after it, `tickDue_frame` what a tick without a cross-trigger leaves alone. The other commands are their functions
on a running device; what the clause says of each are the laws of that function above. -/
theorem timersAndWallTime : Obligations.TimersAndWallTime := by
  refine ⟨fun s k e n hr he hx _ _ _ hn => ?_, fun s k b hr hc hnew => ?_, fun s k b hr hc hnew => ?_, fun s k hr => ?_, fun s v hr => ?_,
    fun s p hr ha hp => ?_, fun s p hr ha hp _ => ?_, fun s n hr hauto hlo hhi => ?_, fun s n hr hauto hout => ?_, fun s k e n hr he hn => ?_⟩
  · subst hn
    obtain ⟨hcount, hcmp0, hcmp1, hhit0, hhit1, hwrap⟩ := tickDue_ticked s k he
    obtain ⟨htimer, hothers, hregs, hpasses⟩ := tickDue_frame s k he hx
    exact does_core (f := fun s => s.tickDue k) rfl hr ⟨htimer, hothers, hcount, hcmp0, hcmp1, hhit0, hhit1, hwrap, hregs, hpasses⟩
  · refine does_core_eq (t := s.captured k) rfl hr ((if_pos hc).trans (if_neg (by rw [hnew]; decide)))
      ⟨?_, fun m hm => captOf_modCapt_ne s k _ (Fin.val_ne_of_ne hm), rfl, keeps_modCapt s k _⟩
    rw [captured_captOf, hnew, Bool.or_false]
  · refine does_core_eq (t := s.overrun k) rfl hr ((if_pos hc).trans (if_pos hnew))
      ⟨?_, fun m hm => (overrun_captOf s k m).trans (captOf_modCapt_ne s k _ (Fin.val_ne_of_ne hm)), posted_post _ _ _ _, keeps_overrun s k⟩
    rw [overrun_captOf, captured_captOf, hnew, Bool.or_true]
  · exact does_core (f := fun s => (s.readCapt k).setOut [(s.captOf k).value]) rfl hr
      ⟨rfl, captOf_modCapt_same s k _, fun m hm => captOf_modCapt_ne s k _ (Fin.val_ne_of_ne hm),
        ((keeps_modCapt s k _).mono (by decide)).trans ((within_setOut _ _ (Scope.Le.refl _) (Within.refl _ _)).parts.mono (by decide))⟩
  · refine does_core (f := fun s => s.writeGroup v) rfl hr ⟨fun k => writeGroup_stop s k v, fun k => writeGroup_start s k v,
      fun k => writeGroup_unnamed s k v, (within_writeGroup s v (Scope.Le.refl _) (Within.refl _ s)).parts⟩
  · refine does_wallSet s hr ha ?_
    rw [if_pos hp]
    have within := wallRefused_within s
    exact ⟨authRefused_spec s, posted_post _ _ _ _, fun a h => within.regs a (by simpa [authRegs, one] using h), within.parts⟩
  · refine does_wallSet s hr ha ?_
    rw [if_neg (Nat.not_le.2 hp)]
    have within := wallAccepted_within s (leAt p 0 8)
    have ended := authOver_within s
    refine ⟨wallAccepted_auth s _, (setWall_within _ _).parts .cfg (by decide), setWall_wt _ _ (hp.trans (by decide)), (setWall_known _ _).1,
       (setWall_known _ _).2, ?_, setWall_kpr _ _, fun a h => within.regs a (by simpa [authRegs, one] using h), ?_, within.parts⟩
    · rw [setWall_sets, fld_of_reg (ended.reg_of_misses _ (by decide))]
    · rw [← wt_of (ended.parts .time (by decide)) (ended.parts .pwr (by decide)) (ended.reg_of_misses _ (by decide))
        (ended.reg_of_misses _ (by decide))]
      exact setWall_posted _ _
  · have inBand : ¬ ((n + 200) / 400 < 15000 ∨ 16250 < (n + 200) / 400) := by omega
    have written : Within ⟨[.regs], [one Reg.TMR_SLOW_RATE], []⟩ s (s.setFld Reg.TMR_SLOW_RATE Fld.TMR_SLOW_RATE_RATE ((n + 200) / 400)) :=
      within_setFld _ _ _ (Scope.Le.refl _) (Within.refl _ s)
    refine does_core_eq rfl hr ((if_pos hauto).trans (if_neg inBand)) ⟨?_, fun a h => written.regs a (by simpa [one] using h), written.parts⟩
    rw [fld_setFld_same _ _ _ _ (by decide)]
    exact Nat.mod_eq_of_lt (hhi.trans_lt (by decide))
  · exact does_core_eq (t := s.post 0xD005 .heart 0) rfl hr ((if_pos hauto).trans (if_pos hout))
      ⟨posted_post _ _ _ _, (within_post (Scope.Le.refl _) (Within.refl _ s) _ _ _).parts⟩
  · subst hn
    obtain ⟨hcount, hcmp0, hcmp1, hhit0, hhit1, hwrap⟩ := tickDue_ticked s k he
    exact does_core (f := fun s => s.tickDue k) rfl hr ⟨hcount, hwrap, hhit0, hhit1, hcmp0, hcmp1⟩

end Sys2Proof.Machine

/-! The step, the commands that do nothing, and the frames (O1 to O19): every command goes on from a sound state to a sound one, leaves the
queue of the waiting commands alone, and stays within its scope of `Machine/Touch`. -/

namespace Sys2Proof.Machine

/-! ### What each command may change at most -/

/-- Settles O7: each command of the host port, the phases, the locks, the boot memory and AUTH stays within the scope of the law about it. -/
theorem hostCommandsFrame : Obligations.HostCommandsFrame := by
  intro c s k hk
  cases c with
  | phaseReqRecovery a => exact touch_phaseReqRecovery a s k hk
  | phaseReqRun a => exact touch_phaseReqRun a s k hk
  | recoveryComplete => exact touch_recoveryComplete s k hk
  | rlimitExpiry => exact touch_rlimitExpiry s k hk
  | lockSet a => exact touch_lockSet a s k hk
  | read a b c d e => exact touch_read a b c d e s k hk
  | readStatus a b c => exact touch_readStatus a b c s k hk
  | framePush a b c d => exact touch_framePush a b c d s k hk
  | framePop a b c d e => exact touch_framePop a b c d e s k hk
  | eventPop a b c d e => exact touch_eventPop a b c d e s k hk
  | auth a b c d => exact touch_auth a b c d s k hk
  | hifBadcmd a b => exact touch_hifBadcmd a b s k hk
  | hifStall a b => exact touch_hifStall a b s k hk
  | hirqReedgeEnd => exact touch_hirqReedgeEnd s k hk
  | cfgRollback => exact touch_cfgRollback s k hk
  | cfgKeyRotate a b => exact touch_cfgKeyRotate a b s k hk
  | authCounterNvDone a => exact touch_authCounterNvDone a s k hk
  | bootRead => exact touch_bootRead s k hk
  | bootProgram => exact touch_bootProgram s k hk
  | bootErase => exact touch_bootErase s k hk
  | bootOpDone a b => exact touch_bootOpDone a b s k hk
  | _ => exact nomatch hk

/-- Settles O8: each command of the field engine stays within the scope of the law about it. -/
theorem fieldCommandsFrame : Obligations.FieldCommandsFrame := by
  intro c s k hk
  cases c with
  | huddleWrite a b => exact touch_huddleWrite a b s k hk
  | fcTrimWrite a => exact touch_fcTrimWrite a s k hk
  | synthLocked => exact touch_synthLocked s k hk
  | synthLockLost => exact touch_synthLockLost s k hk
  | synthIdleStop => exact touch_synthIdleStop s k hk
  | phaseAmplWrite a b c => exact touch_phaseAmplWrite a b c s k hk
  | phaseAmplApply a => exact touch_phaseAmplApply a s k hk
  | compensationUpdate a => exact touch_compensationUpdate a s k hk
  | fieldOnRampStart a => exact touch_fieldOnRampStart a s k hk
  | relayBiasExpiry a => exact touch_relayBiasExpiry a s k hk
  | fieldOnRampEnd a => exact touch_fieldOnRampEnd a s k hk
  | guardExpiry a => exact touch_guardExpiry a s k hk
  | fieldOffRampEnd a b => exact touch_fieldOffRampEnd a b s k hk
  | relayBiasOffExpiry a => exact touch_relayBiasOffExpiry a s k hk
  | fieldReset a b => exact touch_fieldReset a b s k hk
  | resetOffExpiry a => exact touch_resetOffExpiry a s k hk
  | dutyBinStart => exact touch_dutyBinStart s k hk
  | matrixRetry a b => exact touch_matrixRetry a b s k hk
  | neighbourSetChange a b => exact touch_neighbourSetChange a b s k hk
  | fldStarve a => exact touch_fldStarve a s k hk
  | huddleSlotStart a => exact touch_huddleSlotStart a s k hk
  | frameStart a => exact touch_frameStart a s k hk
  | frameTxEnd a b => exact touch_frameTxEnd a b s k hk
  | warmupStepStart a b => exact touch_warmupStepStart a b s k hk
  | warmupStepDone a b c => exact touch_warmupStepDone a b c s k hk
  | fldWarmLate a => exact touch_fldWarmLate a s k hk
  | dutyCutDeadline a b => exact touch_dutyCutDeadline a b s k hk
  | transmitChainBiased a => exact touch_transmitChainBiased a s k hk
  | _ => exact nomatch hk

/-- Settles O9: each command of the tuner and the sniff sequencer stays within the scope of the law about it. -/
theorem tunerCommandsFrame : Obligations.TunerCommandsFrame := by
  intro c s k hk
  cases c with
  | vectorMeasurement a b => exact touch_vectorMeasurement a b s k hk
  | captureRef a => exact touch_captureRef a s k hk
  | retune a => exact touch_retune a s k hk
  | measure a => exact touch_measure a s k hk
  | searchMeasurement a b => exact touch_searchMeasurement a b s k hk
  | tunerCodeWrite a b => exact touch_tunerCodeWrite a b s k hk
  | tunerFrameDone a => exact touch_tunerFrameDone a s k hk
  | tunerSettleExpiry a b => exact touch_tunerSettleExpiry a b s k hk
  | sniffRoundStart => exact touch_sniffRoundStart s k hk
  | sniffPing a b => exact touch_sniffPing a b s k hk
  | sniffConfirmPing a b => exact touch_sniffConfirmPing a b s k hk
  | _ => exact nomatch hk

/-- Settles O10: each command of the receivers stays within the scope of the law about it. -/
theorem receiverCommandsFrame : Obligations.ReceiverCommandsFrame := by
  intro c s k hk
  cases c with
  | preambleDetected a b c d e f g => exact touch_preambleDetected a b c d e f g s k hk
  | sofDetected a b c d e f => exact touch_sofDetected a b c d e f s k hk
  | sofWindowExpiry a => exact touch_sofWindowExpiry a s k hk
  | energyStep a b c d => exact touch_energyStep a b c d s k hk
  | afcRange a b c => exact touch_afcRange a b c s k hk
  | frameEnd a b c d => exact touch_frameEnd a b c d s k hk
  | rxWindowLimit a b => exact touch_rxWindowLimit a b s k hk
  | noiseWindowDone a b => exact touch_noiseWindowDone a b s k hk
  | clrCounts a => exact touch_clrCounts a s k hk
  | clrNoise a => exact touch_clrNoise a s k hk
  | _ => exact nomatch hk

/-- Settles O11: each command of the frame queues and the protocol engine stays within the scope of the law about it. -/
theorem protocolCommandsFrame : Obligations.ProtocolCommandsFrame := by
  intro c s k hk
  cases c with
  | roleWrite a b => exact touch_roleWrite a b s k hk
  | roleChangeApply a => exact touch_roleChangeApply a s k hk
  | txPush a b => exact touch_txPush a b s k hk
  | rxPop a b => exact touch_rxPop a b s k hk
  | flushRx a => exact touch_flushRx a s k hk
  | descriptorTake a b => exact touch_descriptorTake a b s k hk
  | completionPush a => exact touch_completionPush a s k hk
  | flushTx a => exact touch_flushTx a s k hk
  | endHold a => exact touch_endHold a s k hk
  | proHoldExpired a => exact touch_proHoldExpired a s k hk
  | rfcaExpiry a b => exact touch_rfcaExpiry a b s k hk
  | externalFieldChange a b => exact touch_externalFieldChange a b s k hk
  | responseRfcaExpiry a => exact touch_responseRfcaExpiry a s k hk
  | arfgExpiry a => exact touch_arfgExpiry a s k hk
  | pollEntryStart a b => exact touch_pollEntryStart a b s k hk
  | pollWaitExpiry a => exact touch_pollWaitExpiry a s k hk
  | presenceCheckDue a => exact touch_presenceCheckDue a s k hk
  | sessClose a => exact touch_sessClose a s k hk
  | overflowEntryDue a => exact touch_overflowEntryDue a s k hk
  | _ => exact nomatch hk

/-- Settles O12: each command of Accord and the quarantine stays within the scope of the law about it. -/
theorem accordCommandsFrame : Obligations.AccordCommandsFrame := by
  intro c s k hk
  cases c with
  | accordDetectDeadline a => exact touch_accordDetectDeadline a s k hk
  | accordOrderPoint a b => exact touch_accordOrderPoint a b s k hk
  | accordWindowClose a => exact touch_accordWindowClose a s k hk
  | accordStagesDone a b c d => exact touch_accordStagesDone a b c d s k hk
  | quarantineExpiry a b c => exact touch_quarantineExpiry a b c s k hk
  | _ => exact nomatch hk

/-- Settles O13: each command of the store port and the keeper stays within the scope of the law about it. -/
theorem keeperCommandsFrame : Obligations.KeeperCommandsFrame := by
  intro c s k hk
  cases c with
  | storeOpStart => exact touch_storeOpStart s k hk
  | storeStatusPoll a => exact touch_storeStatusPoll a s k hk
  | storePageReadDone a b c d => exact touch_storePageReadDone a b c d s k hk
  | storeProgramDone a b => exact touch_storeProgramDone a b s k hk
  | storeEraseDone a b => exact touch_storeEraseDone a b s k hk
  | stoTimeout a => exact touch_stoTimeout a s k hk
  | storeReinitRetry a => exact touch_storeReinitRetry a s k hk
  | stoRead a => exact touch_stoRead a s k hk
  | stoProgram a => exact touch_stoProgram a s k hk
  | stoErase a => exact touch_stoErase a s k hk
  | kprCommit => exact touch_kprCommit s k hk
  | commitNvDone a => exact touch_commitNvDone a s k hk
  | recentSweepTick => exact touch_recentSweepTick s k hk
  | goPulseEnd a => exact touch_goPulseEnd a s k hk
  | alertPulseEnd a => exact touch_alertPulseEnd a s k hk
  | _ => exact nomatch hk

/-- Settles O14: each command of the emulated tag stays within the scope of the law about it. -/
theorem tagCommandsFrame : Obligations.TagCommandsFrame := by
  intro c s k hk
  cases c with
  | emuReqa => exact touch_emuReqa s k hk
  | emuWupa => exact touch_emuWupa s k hk
  | emuSelect a b => exact touch_emuSelect a b s k hk
  | emuRead a => exact touch_emuRead a s k hk
  | readCtr a => exact touch_readCtr a s k hk
  | emuHlta => exact touch_emuHlta s k hk
  | emuAccBench a => exact touch_emuAccBench a s k hk
  | emuAccRelease => exact touch_emuAccRelease s k hk
  | emuAccEnrol => exact touch_emuAccEnrol s k hk
  | emuOtherFrame a b => exact touch_emuOtherFrame a b s k hk
  | emuFieldLossTimeout => exact touch_emuFieldLossTimeout s k hk
  | emuBenchEnd => exact touch_emuBenchEnd s k hk
  | emuDataWrite a b => exact touch_emuDataWrite a b s k hk
  | emuBusy => exact touch_emuBusy s k hk
  | wireLockWrite a => exact touch_wireLockWrite a s k hk
  | sync => exact touch_sync s k hk
  | emuSyncDone a => exact touch_emuSyncDone a s k hk
  | ctrInc a => exact touch_ctrInc a s k hk
  | counterUpdate a => exact touch_counterUpdate a s k hk
  | harvestPowerUp a => exact touch_harvestPowerUp a s k hk
  | harvestPowerLoss => exact touch_harvestPowerLoss s k hk
  | _ => exact nomatch hk

/-- Settles O15: each command of coexistence stays within the scope of the law about it. -/
theorem coexCommandsFrame : Obligations.CoexCommandsFrame := by
  intro c s k hk
  cases c with
  | grantChange a => exact touch_grantChange a s k hk
  | grantWaitExpiry a => exact touch_grantWaitExpiry a s k hk
  | retryExpiry a => exact touch_retryExpiry a s k hk
  | blankChange a b => exact touch_blankChange a b s k hk
  | blankTailExpiry a => exact touch_blankTailExpiry a s k hk
  | coxBlankStuck a => exact touch_coxBlankStuck a s k hk
  | coxRegLower => exact touch_coxRegLower s k hk
  | regLowerNvDone a => exact touch_regLowerNvDone a s k hk
  | _ => exact nomatch hk

/-- Settles O16: each command of the safety monitors stays within the scope of the law about it. -/
theorem monitorCommandsFrame : Obligations.MonitorCommandsFrame := by
  intro c s k hk
  cases c with
  | fieldCeilingFault a b => exact touch_fieldCeilingFault a b s k hk
  | fieldOffFault a b => exact touch_fieldOffFault a b s k hk
  | laneReadbackFault a b c => exact touch_laneReadbackFault a b c s k hk
  | clkMonWindow a b => exact touch_clkMonWindow a b s k hk
  | heartbeatToggle => exact touch_heartbeatToggle s k hk
  | heartbeatTimeout a => exact touch_heartbeatTimeout a s k hk
  | monClkWindow a b => exact touch_monClkWindow a b s k hk
  | overtempFault a => exact touch_overtempFault a s k hk
  | stopN a => exact touch_stopN a s k hk
  | coreSeesSafeState a => exact touch_coreSeesSafeState a s k hk
  | safInject a => exact touch_safInject a s k hk
  | safTestEnter => exact touch_safTestEnter s k hk
  | _ => exact nomatch hk

/-- Settles O17: each command of the recorder, the event queue, the timers, the check values and the trace port stays within the scope of the law about it. -/
theorem recordCommandsFrame : Obligations.RecordCommandsFrame := by
  intro c s k hk
  cases c with
  | ringWrite a => exact touch_ringWrite a s k hk
  | freezeWrite a => exact touch_freezeWrite a s k hk
  | silFreezeExpired => exact touch_silFreezeExpired s k hk
  | clearPassDone => exact touch_clearPassDone s k hk
  | ringInitDone => exact touch_ringInitDone s k hk
  | spillFlushExpiry => exact touch_spillFlushExpiry s k hk
  | rateWindowEnd a b => exact touch_rateWindowEnd a b s k hk
  | timerTick a => exact touch_timerTick a s k hk
  | capture a b => exact touch_capture a b s k hk
  | captRead a => exact touch_captRead a s k hk
  | timerGroup a => exact touch_timerGroup a s k hk
  | wallSet => exact touch_wallSet s k hk
  | slowRateMeasurement a => exact touch_slowRateMeasurement a s k hk
  | evqIntakeMove => exact touch_evqIntakeMove s k hk
  | evqPop0 a b => exact touch_evqPop0 a b s k hk
  | evqAgeTick => exact touch_evqAgeTick s k hk
  | start a => exact touch_start a s k hk
  | data8 a b => exact touch_data8 a b s k hk
  | data16 a b => exact touch_data16 a b s k hk
  | data32 a b => exact touch_data32 a b s k hk
  | rangeGo a b => exact touch_rangeGo a b s k hk
  | crcRangeDone a => exact touch_crcRangeDone a s k hk
  | traceCtrlWrite a => exact touch_traceCtrlWrite a s k hk
  | traceSyncTimer => exact touch_traceSyncTimer s k hk
  | traceLevelTimer => exact touch_traceLevelTimer s k hk
  | snap => exact touch_snap s k hk
  | release => exact touch_release s k hk
  | clear => exact touch_clear s k hk
  | cntLoRead a => exact touch_cntLoRead a s k hk
  | ctxLowRead a b => exact touch_ctxLowRead a b s k hk
  | _ => exact nomatch hk

/-- Settles O18: each command of power stays within the scope of the law about it. -/
theorem powerCommandsFrame : Obligations.PowerCommandsFrame := by
  intro c s k hk
  cases c with
  | sleepRequest => exact touch_sleepRequest s k hk
  | sniffRequest => exact touch_sniffRequest s k hk
  | cancelRequest => exact touch_cancelRequest s k hk
  | autoIdleExpiry => exact touch_autoIdleExpiry s k hk
  | pwrSleep => exact touch_pwrSleep s k hk
  | hostWake => exact touch_hostWake s k hk
  | wakeTimerExpiry => exact touch_wakeTimerExpiry s k hk
  | pwrVddtxLow a b => exact touch_pwrVddtxLow a b s k hk
  | vddtxRestored a => exact touch_vddtxRestored a s k hk
  | slowXtalSwitch => exact touch_slowXtalSwitch s k hk
  | pwrSlowFail => exact touch_pwrSlowFail s k hk
  | _ => exact nomatch hk

/-! ### The queue of the waiting commands -/

/-- A command that stays within a scope without the queue of the waiting commands leaves it as it was. -/
theorem Does.of_frame {touches : Instr → Option Scope} (frame : ∀ (c : Instr) (s : State) (k : Scope), touches c = some k → Does c s (Within k s))
    {c : Instr} {s : State} {k : Scope} (hk : touches c = some k) (hp : .pending ∉ k.parts) : Does c s fun t => t.pending = s.pending := by
  obtain ⟨t, ht, within⟩ := frame c s k hk
  exact ⟨t, ht, within.parts .pending hp⟩

theorem Does.of_queue {c : Instr} {s : State} (h : KeepsQueue s (exec c s)) : Does c s fun t => t.pending = s.pending := h

/-- Settles O2: a command with a scope of `Machine/Touch` keeps out of the queue by that scope, each of the others by its own law. -/
theorem everyCommandGoesOn : Obligations.EveryCommandGoesOn := by
  intro c s
  cases c with
  | powerOnReset => exact .of_queue (queue_powerOnReset s)
  | pinReset a => exact .of_queue (queue_pinReset a s)
  | coreBrownOut a => exact .of_queue (queue_coreBrownOut a s)
  | resetCmd a => exact .of_queue (queue_resetCmd a s)
  | resetRelease a => exact .of_queue (queue_resetRelease a s)
  | phaseReqRecovery a => exact .of_frame hostCommandsFrame rfl (by decide)
  | phaseReqRun a => exact .of_frame hostCommandsFrame rfl (by decide)
  | recoveryComplete => exact .of_frame hostCommandsFrame rfl (by decide)
  | rlimitExpiry => exact .of_frame hostCommandsFrame rfl (by decide)
  | lockSet a => exact .of_frame hostCommandsFrame rfl (by simp)
  | write a b c d e => exact .of_queue (queue_write a b c d e s)
  | read a b c d e => exact .of_frame hostCommandsFrame rfl (by decide)
  | readStatus a b c => exact .of_frame hostCommandsFrame rfl (by decide)
  | framePush a b c d => exact .of_frame hostCommandsFrame rfl (by decide)
  | framePop a b c d e => exact .of_frame hostCommandsFrame rfl (by decide)
  | eventPop a b c d e => exact .of_frame hostCommandsFrame rfl (by decide)
  | auth a b c d => exact .of_frame hostCommandsFrame rfl (by decide)
  | hifBadcmd a b => exact .of_frame hostCommandsFrame rfl (by decide)
  | hifStall a b => exact .of_frame hostCommandsFrame rfl (by decide)
  | hirqReedgeEnd => exact .of_frame hostCommandsFrame rfl (by decide)
  | profileSelect a b => exact .of_queue (queue_profileSelect a b s)
  | profileApply a => exact .of_queue (queue_profileApply a s)
  | expertWrite a b => exact .of_queue (queue_expertWrite a b s)
  | roleWrite a b => exact .of_frame protocolCommandsFrame rfl (by decide)
  | roleChangeApply a => exact .of_frame protocolCommandsFrame rfl (by decide)
  | huddleWrite a b => exact .of_frame fieldCommandsFrame rfl (by decide)
  | fcTrimWrite a => exact .of_frame fieldCommandsFrame rfl (by decide)
  | synthLocked => exact .of_frame fieldCommandsFrame rfl (by decide)
  | synthLockLost => exact .of_frame fieldCommandsFrame rfl (by decide)
  | synthIdleStop => exact .of_frame fieldCommandsFrame rfl (by decide)
  | phaseAmplWrite a b c => exact .of_frame fieldCommandsFrame rfl (by decide)
  | phaseAmplApply a => exact .of_frame fieldCommandsFrame rfl (by decide)
  | compensationUpdate a => exact .of_frame fieldCommandsFrame rfl (by decide)
  | fieldOnRampStart a => exact .of_frame fieldCommandsFrame rfl (by decide)
  | relayBiasExpiry a => exact .of_frame fieldCommandsFrame rfl (by decide)
  | fieldOnRampEnd a => exact .of_frame fieldCommandsFrame rfl (by decide)
  | guardExpiry a => exact .of_frame fieldCommandsFrame rfl (by decide)
  | fieldOffRampEnd a b => exact .of_frame fieldCommandsFrame rfl (by decide)
  | relayBiasOffExpiry a => exact .of_frame fieldCommandsFrame rfl (by decide)
  | fieldReset a b => exact .of_frame fieldCommandsFrame rfl (by decide)
  | resetOffExpiry a => exact .of_frame fieldCommandsFrame rfl (by decide)
  | dutyBinStart => exact .of_frame fieldCommandsFrame rfl (by decide)
  | matrixRetry a b => exact .of_frame fieldCommandsFrame rfl (by decide)
  | neighbourSetChange a b => exact .of_frame fieldCommandsFrame rfl (by decide)
  | fldStarve a => exact .of_frame fieldCommandsFrame rfl (by decide)
  | huddleSlotStart a => exact .of_frame fieldCommandsFrame rfl (by decide)
  | frameStart a => exact .of_frame fieldCommandsFrame rfl (by decide)
  | frameTxEnd a b => exact .of_frame fieldCommandsFrame rfl (by decide)
  | warmupStepStart a b => exact .of_frame fieldCommandsFrame rfl (by decide)
  | warmupStepDone a b c => exact .of_frame fieldCommandsFrame rfl (by decide)
  | fldWarmLate a => exact .of_frame fieldCommandsFrame rfl (by decide)
  | vectorMeasurement a b => exact .of_frame tunerCommandsFrame rfl (by decide)
  | captureRef a => exact .of_frame tunerCommandsFrame rfl (by decide)
  | retune a => exact .of_frame tunerCommandsFrame rfl (by decide)
  | measure a => exact .of_frame tunerCommandsFrame rfl (by decide)
  | searchMeasurement a b => exact .of_frame tunerCommandsFrame rfl (by decide)
  | tunerCodeWrite a b => exact .of_frame tunerCommandsFrame rfl (by decide)
  | tunerFrameDone a => exact .of_frame tunerCommandsFrame rfl (by decide)
  | tunerSettleExpiry a b => exact .of_frame tunerCommandsFrame rfl (by decide)
  | sniffRoundStart => exact .of_frame tunerCommandsFrame rfl (by decide)
  | sniffPing a b => exact .of_frame tunerCommandsFrame rfl (by decide)
  | sniffConfirmPing a b => exact .of_frame tunerCommandsFrame rfl (by decide)
  | preambleDetected a b c d e f g => exact .of_frame receiverCommandsFrame rfl (by decide)
  | sofDetected a b c d e f => exact .of_frame receiverCommandsFrame rfl (by decide)
  | sofWindowExpiry a => exact .of_frame receiverCommandsFrame rfl (by decide)
  | energyStep a b c d => exact .of_frame receiverCommandsFrame rfl (by decide)
  | afcRange a b c => exact .of_frame receiverCommandsFrame rfl (by decide)
  | frameEnd a b c d => exact .of_frame receiverCommandsFrame rfl (by decide)
  | rxWindowLimit a b => exact .of_frame receiverCommandsFrame rfl (by decide)
  | noiseWindowDone a b => exact .of_frame receiverCommandsFrame rfl (by decide)
  | clrCounts a => exact .of_frame receiverCommandsFrame rfl (by decide)
  | clrNoise a => exact .of_frame receiverCommandsFrame rfl (by decide)
  | txPush a b => exact .of_frame protocolCommandsFrame rfl (by decide)
  | rxPop a b => exact .of_frame protocolCommandsFrame rfl (by decide)
  | flushRx a => exact .of_frame protocolCommandsFrame rfl (by decide)
  | descriptorTake a b => exact .of_frame protocolCommandsFrame rfl (by decide)
  | completionPush a => exact .of_frame protocolCommandsFrame rfl (by decide)
  | flushTx a => exact .of_frame protocolCommandsFrame rfl (by decide)
  | endHold a => exact .of_frame protocolCommandsFrame rfl (by decide)
  | proHoldExpired a => exact .of_frame protocolCommandsFrame rfl (by decide)
  | rfcaExpiry a b => exact .of_frame protocolCommandsFrame rfl (by decide)
  | externalFieldChange a b => exact .of_frame protocolCommandsFrame rfl (by decide)
  | responseRfcaExpiry a => exact .of_frame protocolCommandsFrame rfl (by decide)
  | arfgExpiry a => exact .of_frame protocolCommandsFrame rfl (by decide)
  | pollEntryStart a b => exact .of_frame protocolCommandsFrame rfl (by decide)
  | pollWaitExpiry a => exact .of_frame protocolCommandsFrame rfl (by decide)
  | presenceCheckDue a => exact .of_frame protocolCommandsFrame rfl (by decide)
  | sessClose a => exact .of_frame protocolCommandsFrame rfl (by decide)
  | overflowEntryDue a => exact .of_frame protocolCommandsFrame rfl (by decide)
  | accordDetectDeadline a => exact .of_frame accordCommandsFrame rfl (by decide)
  | accordOrderPoint a b => exact .of_frame accordCommandsFrame rfl (by decide)
  | accordWindowClose a => exact .of_frame accordCommandsFrame rfl (by decide)
  | accordStagesDone a b c d => exact .of_frame accordCommandsFrame rfl (by decide)
  | quarantineExpiry a b c => exact .of_frame accordCommandsFrame rfl (by decide)
  | storeOpStart => exact .of_frame keeperCommandsFrame rfl (by decide)
  | storeStatusPoll a => exact .of_frame keeperCommandsFrame rfl (by decide)
  | storePageReadDone a b c d => exact .of_frame keeperCommandsFrame rfl (by decide)
  | storeProgramDone a b => exact .of_frame keeperCommandsFrame rfl (by decide)
  | storeEraseDone a b => exact .of_frame keeperCommandsFrame rfl (by decide)
  | stoTimeout a => exact .of_frame keeperCommandsFrame rfl (by decide)
  | storeReinitRetry a => exact .of_frame keeperCommandsFrame rfl (by decide)
  | stoRead a => exact .of_frame keeperCommandsFrame rfl (by decide)
  | stoProgram a => exact .of_frame keeperCommandsFrame rfl (by decide)
  | stoErase a => exact .of_frame keeperCommandsFrame rfl (by decide)
  | kprCommit => exact .of_frame keeperCommandsFrame rfl (by decide)
  | commitNvDone a => exact .of_frame keeperCommandsFrame rfl (by decide)
  | invalidationPassDone => exact .of_queue (queue_invalidationPassDone s)
  | recentSweepTick => exact .of_frame keeperCommandsFrame rfl (by decide)
  | goPulseEnd a => exact .of_frame keeperCommandsFrame rfl (by decide)
  | alertPulseEnd a => exact .of_frame keeperCommandsFrame rfl (by decide)
  | emuReqa => exact .of_frame tagCommandsFrame rfl (by decide)
  | emuWupa => exact .of_frame tagCommandsFrame rfl (by decide)
  | emuSelect a b => exact .of_frame tagCommandsFrame rfl (by decide)
  | emuRead a => exact .of_frame tagCommandsFrame rfl (by decide)
  | readCtr a => exact .of_frame tagCommandsFrame rfl (by decide)
  | emuHlta => exact .of_frame tagCommandsFrame rfl (by decide)
  | emuAccBench a => exact .of_frame tagCommandsFrame rfl (by decide)
  | emuAccRelease => exact .of_frame tagCommandsFrame rfl (by decide)
  | emuAccEnrol => exact .of_frame tagCommandsFrame rfl (by decide)
  | emuOtherFrame a b => exact .of_frame tagCommandsFrame rfl (by decide)
  | emuFieldLossTimeout => exact .of_frame tagCommandsFrame rfl (by decide)
  | emuBenchEnd => exact .of_frame tagCommandsFrame rfl (by decide)
  | emuDataWrite a b => exact .of_frame tagCommandsFrame rfl (by decide)
  | emuBusy => exact .of_frame tagCommandsFrame rfl (by decide)
  | wireLockWrite a => exact .of_frame tagCommandsFrame rfl (by decide)
  | sync => exact .of_frame tagCommandsFrame rfl (by decide)
  | emuSyncDone a => exact .of_frame tagCommandsFrame rfl (by decide)
  | ctrInc a => exact .of_frame tagCommandsFrame rfl (by decide)
  | counterUpdate a => exact .of_frame tagCommandsFrame rfl (by decide)
  | harvestPowerUp a => exact .of_frame tagCommandsFrame rfl (by decide)
  | harvestPowerLoss => exact .of_frame tagCommandsFrame rfl (by decide)
  | vddAonLoss => exact .of_queue (queue_vddAonLoss s)
  | grantChange a => exact .of_frame coexCommandsFrame rfl (by decide)
  | grantWaitExpiry a => exact .of_frame coexCommandsFrame rfl (by decide)
  | retryExpiry a => exact .of_frame coexCommandsFrame rfl (by decide)
  | blankChange a b => exact .of_frame coexCommandsFrame rfl (by decide)
  | blankTailExpiry a => exact .of_frame coexCommandsFrame rfl (by decide)
  | coxBlankStuck a => exact .of_frame coexCommandsFrame rfl (by decide)
  | coxRegLower => exact .of_frame coexCommandsFrame rfl (by decide)
  | regLowerNvDone a => exact .of_frame coexCommandsFrame rfl (by decide)
  | fieldCeilingFault a b => exact .of_frame monitorCommandsFrame rfl (by decide)
  | fieldOffFault a b => exact .of_frame monitorCommandsFrame rfl (by decide)
  | laneReadbackFault a b c => exact .of_frame monitorCommandsFrame rfl (by decide)
  | clkMonWindow a b => exact .of_frame monitorCommandsFrame rfl (by decide)
  | heartbeatToggle => exact .of_frame monitorCommandsFrame rfl (by decide)
  | heartbeatTimeout a => exact .of_frame monitorCommandsFrame rfl (by decide)
  | monClkWindow a b => exact .of_frame monitorCommandsFrame rfl (by decide)
  | overtempFault a => exact .of_frame monitorCommandsFrame rfl (by decide)
  | stopN a => exact .of_frame monitorCommandsFrame rfl (by decide)
  | coreSeesSafeState a => exact .of_frame monitorCommandsFrame rfl (by decide)
  | safInject a => exact .of_frame monitorCommandsFrame rfl (by decide)
  | safTestEnter => exact .of_frame monitorCommandsFrame rfl (by decide)
  | ringWrite a => exact .of_frame recordCommandsFrame rfl (by decide)
  | freezeWrite a => exact .of_frame recordCommandsFrame rfl (by decide)
  | silFreezeExpired => exact .of_frame recordCommandsFrame rfl (by decide)
  | silClear => exact .of_queue (queue_silClear s)
  | clearPassDone => exact .of_frame recordCommandsFrame rfl (by decide)
  | ringInitDone => exact .of_frame recordCommandsFrame rfl (by decide)
  | spillFlushExpiry => exact .of_frame recordCommandsFrame rfl (by decide)
  | rateWindowEnd a b => exact .of_frame recordCommandsFrame rfl (by decide)
  | timerTick a => exact .of_frame recordCommandsFrame rfl (by decide)
  | capture a b => exact .of_frame recordCommandsFrame rfl (by decide)
  | captRead a => exact .of_frame recordCommandsFrame rfl (by decide)
  | timerGroup a => exact .of_frame recordCommandsFrame rfl (by decide)
  | wallSet => exact .of_frame recordCommandsFrame rfl (by decide)
  | slowRateMeasurement a => exact .of_frame recordCommandsFrame rfl (by decide)
  | evqIntakeMove => exact .of_frame recordCommandsFrame rfl (by decide)
  | evqPop0 a b => exact .of_frame recordCommandsFrame rfl (by decide)
  | evqAgeTick => exact .of_frame recordCommandsFrame rfl (by decide)
  | start a => exact .of_frame recordCommandsFrame rfl (by decide)
  | data8 a b => exact .of_frame recordCommandsFrame rfl (by decide)
  | data16 a b => exact .of_frame recordCommandsFrame rfl (by decide)
  | data32 a b => exact .of_frame recordCommandsFrame rfl (by decide)
  | rangeGo a b => exact .of_frame recordCommandsFrame rfl (by decide)
  | crcRangeDone a => exact .of_frame recordCommandsFrame rfl (by decide)
  | cfgRollback => exact .of_frame hostCommandsFrame rfl (by decide)
  | rollbackCheckDone a => exact .of_queue (queue_rollbackCheckDone a s)
  | cfgKeyRotate a b => exact .of_frame hostCommandsFrame rfl (by decide)
  | authCounterNvDone a => exact .of_frame hostCommandsFrame rfl (by decide)
  | bootRead => exact .of_frame hostCommandsFrame rfl (by decide)
  | bootProgram => exact .of_frame hostCommandsFrame rfl (by decide)
  | bootErase => exact .of_frame hostCommandsFrame rfl (by decide)
  | bootOpDone a b => exact .of_frame hostCommandsFrame rfl (by decide)
  | traceCtrlWrite a => exact .of_frame recordCommandsFrame rfl (by decide)
  | traceSyncTimer => exact .of_frame recordCommandsFrame rfl (by decide)
  | traceLevelTimer => exact .of_frame recordCommandsFrame rfl (by decide)
  | snap => exact .of_frame recordCommandsFrame rfl (by decide)
  | release => exact .of_frame recordCommandsFrame rfl (by decide)
  | clear => exact .of_frame recordCommandsFrame rfl (by decide)
  | cntLoRead a => exact .of_frame recordCommandsFrame rfl (by decide)
  | ctxLowRead a b => exact .of_frame recordCommandsFrame rfl (by decide)
  | sleepRequest => exact .of_frame powerCommandsFrame rfl (by decide)
  | sniffRequest => exact .of_frame powerCommandsFrame rfl (by decide)
  | cancelRequest => exact .of_frame powerCommandsFrame rfl (by decide)
  | autoIdleExpiry => exact .of_frame powerCommandsFrame rfl (by decide)
  | pwrSleep => exact .of_frame powerCommandsFrame rfl (by decide)
  | hostWake => exact .of_frame powerCommandsFrame rfl (by decide)
  | wakeTimerExpiry => exact .of_frame powerCommandsFrame rfl (by decide)
  | pwrVddtxLow a b => exact .of_frame powerCommandsFrame rfl (by decide)
  | vddtxRestored a => exact .of_frame powerCommandsFrame rfl (by decide)
  | slowXtalSwitch => exact .of_frame powerCommandsFrame rfl (by decide)
  | pwrSlowFail => exact .of_frame powerCommandsFrame rfl (by decide)
  | dutyCutDeadline a b => exact .of_frame fieldCommandsFrame rfl (by decide)
  | transmitChainBiased a => exact .of_frame fieldCommandsFrame rfl (by decide)

/-! ### Sound states -/

/-- Every command's next state is sound where the state before it is. -/
theorem sound_exec (c : Instr) (s : State) (h : Sound s) : SoundOut (exec c s) := by
  cases c with
  | powerOnReset => exact sound_execPowerOnReset s h
  | pinReset a => exact sound_execPinReset a s h
  | coreBrownOut a => exact sound_execCoreBrownOut a s h
  | resetCmd a => exact sound_execResetCmd a s h
  | resetRelease a => exact sound_execResetRelease a s h
  | phaseReqRecovery a => exact sound_execPhaseReqRecovery a s h
  | phaseReqRun a => exact sound_execPhaseReqRun a s h
  | recoveryComplete => exact sound_execRecoveryComplete s h
  | rlimitExpiry => exact sound_execRlimitExpiry s h
  | lockSet a => exact sound_execLockSet a s h
  | write a b c d e => exact sound_execWrite a b c d e s h
  | read a b c d e => exact sound_execRead a b c d e s h
  | readStatus a b c => exact sound_execReadStatus a b c s h
  | framePush a b c d => exact sound_execFramePush a b c d s h
  | framePop a b c d e => exact sound_execFramePop a b c d e s h
  | eventPop a b c d e => exact sound_execEventPop a b c d e s h
  | auth a b c d => exact sound_execAuth a b c d s h
  | hifBadcmd a b => exact sound_execHifBadcmd a b s h
  | hifStall a b => exact sound_execHifStall a b s h
  | hirqReedgeEnd => exact sound_execHirqReedgeEnd s h
  | profileSelect a b => exact sound_execProfileSelect a b s h
  | profileApply a => exact sound_execProfileApply a s h
  | expertWrite a b => exact sound_execExpertWrite a b s h
  | roleWrite a b => exact sound_execRoleWrite a b s h
  | roleChangeApply a => exact sound_execRoleChangeApply a s h
  | huddleWrite a b => exact sound_execHuddleWrite a b s h
  | fcTrimWrite a => exact sound_execFcTrimWrite a s h
  | synthLocked => exact sound_execSynthLocked s h
  | synthLockLost => exact sound_execSynthLockLost s h
  | synthIdleStop => exact sound_execSynthIdleStop s h
  | phaseAmplWrite a b c => exact sound_execPhaseAmplWrite a b c s h
  | phaseAmplApply a => exact sound_execPhaseAmplApply a s h
  | compensationUpdate a => exact sound_execCompensationUpdate a s h
  | fieldOnRampStart a => exact sound_execFieldOnRampStart a s h
  | relayBiasExpiry a => exact sound_execRelayBiasExpiry a s h
  | fieldOnRampEnd a => exact sound_execFieldOnRampEnd a s h
  | guardExpiry a => exact sound_execGuardExpiry a s h
  | fieldOffRampEnd a b => exact sound_execFieldOffRampEnd a b s h
  | relayBiasOffExpiry a => exact sound_execRelayBiasOffExpiry a s h
  | fieldReset a b => exact sound_execFieldReset a b s h
  | resetOffExpiry a => exact sound_execResetOffExpiry a s h
  | dutyBinStart => exact sound_execDutyBinStart s h
  | matrixRetry a b => exact sound_execMatrixRetry a b s h
  | neighbourSetChange a b => exact sound_execNeighbourSetChange a b s h
  | fldStarve a => exact sound_execFldStarve a s h
  | huddleSlotStart a => exact sound_execHuddleSlotStart a s h
  | frameStart a => exact sound_execFrameStart a s h
  | frameTxEnd a b => exact sound_execFrameTxEnd a b s h
  | warmupStepStart a b => exact sound_execWarmupStepStart a b s h
  | warmupStepDone a b c => exact sound_execWarmupStepDone a b c s h
  | fldWarmLate a => exact sound_execFldWarmLate a s h
  | vectorMeasurement a b => exact sound_execVectorMeasurement a b s h
  | captureRef a => exact sound_execCaptureRef a s h
  | retune a => exact sound_execRetune a s h
  | measure a => exact sound_execMeasure a s h
  | searchMeasurement a b => exact sound_execSearchMeasurement a b s h
  | tunerCodeWrite a b => exact sound_execTunerCodeWrite a b s h
  | tunerFrameDone a => exact sound_execTunerFrameDone a s h
  | tunerSettleExpiry a b => exact sound_execTunerSettleExpiry a b s h
  | sniffRoundStart => exact sound_execSniffRoundStart s h
  | sniffPing a b => exact sound_execSniffPing a b s h
  | sniffConfirmPing a b => exact sound_execSniffConfirmPing a b s h
  | preambleDetected a b c d e f g => exact sound_execPreambleDetected a b c d e f g s h
  | sofDetected a b c d e f => exact sound_execSofDetected a b c d e f s h
  | sofWindowExpiry a => exact sound_execSofWindowExpiry a s h
  | energyStep a b c d => exact sound_execEnergyStep a b c d s h
  | afcRange a b c => exact sound_execAfcRange a b c s h
  | frameEnd a b c d => exact sound_execFrameEnd a b c d s h
  | rxWindowLimit a b => exact sound_execRxWindowLimit a b s h
  | noiseWindowDone a b => exact sound_execNoiseWindowDone a b s h
  | clrCounts a => exact sound_execClrCounts a s h
  | clrNoise a => exact sound_execClrNoise a s h
  | txPush a b => exact sound_execTxPush a b s h
  | rxPop a b => exact sound_execRxPop a b s h
  | flushRx a => exact sound_execFlushRx a s h
  | descriptorTake a b => exact sound_execDescriptorTake a b s h
  | completionPush a => exact sound_execCompletionPush a s h
  | flushTx a => exact sound_execFlushTx a s h
  | endHold a => exact sound_execEndHold a s h
  | proHoldExpired a => exact sound_execProHoldExpired a s h
  | rfcaExpiry a b => exact sound_execRfcaExpiry a b s h
  | externalFieldChange a b => exact sound_execExternalFieldChange a b s h
  | responseRfcaExpiry a => exact sound_execResponseRfcaExpiry a s h
  | arfgExpiry a => exact sound_execArfgExpiry a s h
  | pollEntryStart a b => exact sound_execPollEntryStart a b s h
  | pollWaitExpiry a => exact sound_execPollWaitExpiry a s h
  | presenceCheckDue a => exact sound_execPresenceCheckDue a s h
  | sessClose a => exact sound_execSessClose a s h
  | overflowEntryDue a => exact sound_execOverflowEntryDue a s h
  | accordDetectDeadline a => exact sound_execAccordDetectDeadline a s h
  | accordOrderPoint a b => exact sound_execAccordOrderPoint a b s h
  | accordWindowClose a => exact sound_execAccordWindowClose a s h
  | accordStagesDone a b c d => exact sound_execAccordStagesDone a b c d s h
  | quarantineExpiry a b c => exact sound_execQuarantineExpiry a b c s h
  | storeOpStart => exact sound_execStoreOpStart s h
  | storeStatusPoll a => exact sound_execStoreStatusPoll a s h
  | storePageReadDone a b c d => exact sound_execStorePageReadDone a b c d s h
  | storeProgramDone a b => exact sound_execStoreProgramDone a b s h
  | storeEraseDone a b => exact sound_execStoreEraseDone a b s h
  | stoTimeout a => exact sound_execStoTimeout a s h
  | storeReinitRetry a => exact sound_execStoreReinitRetry a s h
  | stoRead a => exact sound_execStoRead a s h
  | stoProgram a => exact sound_execStoProgram a s h
  | stoErase a => exact sound_execStoErase a s h
  | kprCommit => exact sound_execKprCommit s h
  | commitNvDone a => exact sound_execCommitNvDone a s h
  | invalidationPassDone => exact sound_execInvalidationPassDone s h
  | recentSweepTick => exact sound_execRecentSweepTick s h
  | goPulseEnd a => exact sound_execGoPulseEnd a s h
  | alertPulseEnd a => exact sound_execAlertPulseEnd a s h
  | emuReqa => exact sound_execEmuReqa s h
  | emuWupa => exact sound_execEmuWupa s h
  | emuSelect a b => exact sound_execEmuSelect a b s h
  | emuRead a => exact sound_execEmuRead a s h
  | readCtr a => exact sound_execReadCtr a s h
  | emuHlta => exact sound_execEmuHlta s h
  | emuAccBench a => exact sound_execEmuAccBench a s h
  | emuAccRelease => exact sound_execEmuAccRelease s h
  | emuAccEnrol => exact sound_execEmuAccEnrol s h
  | emuOtherFrame a b => exact sound_execEmuOtherFrame a b s h
  | emuFieldLossTimeout => exact sound_execEmuFieldLossTimeout s h
  | emuBenchEnd => exact sound_execEmuBenchEnd s h
  | emuDataWrite a b => exact sound_execEmuDataWrite a b s h
  | emuBusy => exact sound_execEmuBusy s h
  | wireLockWrite a => exact sound_execWireLockWrite a s h
  | sync => exact sound_execSync s h
  | emuSyncDone a => exact sound_execEmuSyncDone a s h
  | ctrInc a => exact sound_execCtrInc a s h
  | counterUpdate a => exact sound_execCounterUpdate a s h
  | harvestPowerUp a => exact sound_execHarvestPowerUp a s h
  | harvestPowerLoss => exact sound_execHarvestPowerLoss s h
  | vddAonLoss => exact sound_execVddAonLoss s h
  | grantChange a => exact sound_execGrantChange a s h
  | grantWaitExpiry a => exact sound_execGrantWaitExpiry a s h
  | retryExpiry a => exact sound_execRetryExpiry a s h
  | blankChange a b => exact sound_execBlankChange a b s h
  | blankTailExpiry a => exact sound_execBlankTailExpiry a s h
  | coxBlankStuck a => exact sound_execCoxBlankStuck a s h
  | coxRegLower => exact sound_execCoxRegLower s h
  | regLowerNvDone a => exact sound_execRegLowerNvDone a s h
  | fieldCeilingFault a b => exact sound_execFieldCeilingFault a b s h
  | fieldOffFault a b => exact sound_execFieldOffFault a b s h
  | laneReadbackFault a b c => exact sound_execLaneReadbackFault a b c s h
  | clkMonWindow a b => exact sound_execClkMonWindow a b s h
  | heartbeatToggle => exact sound_execHeartbeatToggle s h
  | heartbeatTimeout a => exact sound_execHeartbeatTimeout a s h
  | monClkWindow a b => exact sound_execMonClkWindow a b s h
  | overtempFault a => exact sound_execOvertempFault a s h
  | stopN a => exact sound_execStopN a s h
  | coreSeesSafeState a => exact sound_execCoreSeesSafeState a s h
  | safInject a => exact sound_execSafInject a s h
  | safTestEnter => exact sound_execSafTestEnter s h
  | ringWrite a => exact sound_execRingWrite a s h
  | freezeWrite a => exact sound_execFreezeWrite a s h
  | silFreezeExpired => exact sound_execSilFreezeExpired s h
  | silClear => exact sound_execSilClear s h
  | clearPassDone => exact sound_execClearPassDone s h
  | ringInitDone => exact sound_execRingInitDone s h
  | spillFlushExpiry => exact sound_execSpillFlushExpiry s h
  | rateWindowEnd a b => exact sound_execRateWindowEnd a b s h
  | timerTick a => exact sound_execTimerTick a s h
  | capture a b => exact sound_execCapture a b s h
  | captRead a => exact sound_execCaptRead a s h
  | timerGroup a => exact sound_execTimerGroup a s h
  | wallSet => exact sound_execWallSet s h
  | slowRateMeasurement a => exact sound_execSlowRateMeasurement a s h
  | evqIntakeMove => exact sound_execEvqIntakeMove s h
  | evqPop0 a b => exact sound_execEvqPop0 a b s h
  | evqAgeTick => exact sound_execEvqAgeTick s h
  | start a => exact sound_execStart a s h
  | data8 a b => exact sound_execData8 a b s h
  | data16 a b => exact sound_execData16 a b s h
  | data32 a b => exact sound_execData32 a b s h
  | rangeGo a b => exact sound_execRangeGo a b s h
  | crcRangeDone a => exact sound_execCrcRangeDone a s h
  | cfgRollback => exact sound_execCfgRollback s h
  | rollbackCheckDone a => exact sound_execRollbackCheckDone a s h
  | cfgKeyRotate a b => exact sound_execCfgKeyRotate a b s h
  | authCounterNvDone a => exact sound_execAuthCounterNvDone a s h
  | bootRead => exact sound_execBootRead s h
  | bootProgram => exact sound_execBootProgram s h
  | bootErase => exact sound_execBootErase s h
  | bootOpDone a b => exact sound_execBootOpDone a b s h
  | traceCtrlWrite a => exact sound_execTraceCtrlWrite a s h
  | traceSyncTimer => exact sound_execTraceSyncTimer s h
  | traceLevelTimer => exact sound_execTraceLevelTimer s h
  | snap => exact sound_execSnap s h
  | release => exact sound_execRelease s h
  | clear => exact sound_execClear s h
  | cntLoRead a => exact sound_execCntLoRead a s h
  | ctxLowRead a b => exact sound_execCtxLowRead a b s h
  | sleepRequest => exact sound_execSleepRequest s h
  | sniffRequest => exact sound_execSniffRequest s h
  | cancelRequest => exact sound_execCancelRequest s h
  | autoIdleExpiry => exact sound_execAutoIdleExpiry s h
  | pwrSleep => exact sound_execPwrSleep s h
  | hostWake => exact sound_execHostWake s h
  | wakeTimerExpiry => exact sound_execWakeTimerExpiry s h
  | pwrVddtxLow a b => exact sound_execPwrVddtxLow a b s h
  | vddtxRestored a => exact sound_execVddtxRestored a s h
  | slowXtalSwitch => exact sound_execSlowXtalSwitch s h
  | pwrSlowFail => exact sound_execPwrSlowFail s h
  | dutyCutDeadline a b => exact sound_execDutyCutDeadline a b s h
  | transmitChainBiased a => exact sound_execTransmitChainBiased a s h

theorem sound_idle (s : State) (h : Sound s) : Sound s.idle := by
  unfold State.idle
  exact sound_ite h (sound_finish (sound_advance h _) s)

/-- Settles O4: with a command waiting, the command goes on and keeps the state sound; with none, a cycle passes. -/
theorem stepKeepsSound : Obligations.StepKeepsSound := by
  intro s h
  unfold step
  cases s.pending with
  | nil => exact ⟨_, rfl, sound_idle s h⟩
  | cons c rest =>
    have waiting : Sound { s with pending := rest } := ⟨⟨h.1.1, h.1.2, h.1.3, h.1.4, h.1.5, h.1.6, h.1.7, h.1.8⟩, ⟨h.2.1, h.2.2, h.2.3, h.2.4, h.2.5, h.2.6⟩⟩
    obtain ⟨t, ht, -⟩ := everyCommandGoesOn c { s with pending := rest }
    exact ⟨_, ht, sound_exec c _ waiting _ ht⟩

/-- Settles O5. -/
theorem resetIsSound : Obligations.ResetIsSound := by
  have empty (n : Nat) : State.reset.pq n = { tx := [], rx := [], pushedAt := 0, newWords := 0 } := by
    by_cases h : n < 16 <;> simp [State.pq, State.reset, h]
  exact ⟨⟨rfl, rfl, rfl, rfl, rfl, rfl, rfl, rfl⟩,
    ⟨fun n => by rw [empty]; exact Nat.zero_le _, fun n => by rw [empty]; exact Nat.zero_le _, Nat.zero_le _, Nat.zero_le _, Nat.zero_le _, Nat.zero_le _⟩⟩

/-! ### The step -/

/-- Settles O1: it is the step itself. -/
theorem stepRunsTheFront : Obligations.StepRunsTheFront := fun _ _ _ => rfl

/-- Settles O3: with nothing waiting the step is the cycle that passes, by which nothing but the recorder and the trace port act. -/
theorem idleStepPassesACycle : Obligations.IdleStepPassesACycle := by
  have idles (s : State) (h : s.pending = []) : step s = .next s.idle := by rw [step, h]
  refine ⟨fun s h ha => ⟨s.advance (s.time + cycle), ?_, passes_advance s _⟩, fun s h ha => ?_⟩
  · rw [idles s h, State.idle, if_neg ha]
  · rw [idles s h, State.idle, if_pos ha]

/-! ### Stopped blocks -/

/-- The commands that need CORE outside SAFE BOOT are its commands. -/
theorem exec_of_needsCore (c : Instr) (s : State) (h : needsCore c = true) : ∃ f, exec c s = s.core f := by
  unfold exec
  cases c <;> first | exact absurd h Bool.false_ne_true | exact ⟨_, rfl⟩

/-- The commands that need CLK_CORE alone are those of the blocks that run in SAFE BOOT too. -/
theorem exec_of_needsClock (c : Instr) (s : State) (h : needsClock c = true) : ∃ f, exec c s = s.coreAll f := by
  unfold exec
  cases c <;> first | exact absurd h Bool.false_ne_true | exact ⟨_, rfl⟩

theorem slow_stopped {s : State} {f : State → State} (h : (s.live = false ∧ s.asleep = false) ∨ s.gen.safeBoot = true) :
    s.slow f = .next (finish s s) := by
  unfold State.slow done
  rw [if_neg]
  rcases h with ⟨hl, ha⟩ | hb
  · simp [hl, ha]
  · simp [hb]

/-- Settles O6: a command that needs a block is a command of that block, which does nothing while it is stopped. -/
theorem stoppedBlocksDoNothing : Obligations.StoppedBlocksDoNothing := by
  refine ⟨fun c s hc hr => ?_, fun c s hc hr => ?_, fun s h => ⟨slow_stopped h, slow_stopped h⟩⟩
  · obtain ⟨f, hf⟩ := exec_of_needsCore c s hc
    exact hf.trans (core_stopped hr)
  · obtain ⟨f, hf⟩ := exec_of_needsClock c s hc
    exact hf.trans (coreAll_stopped (Bool.not_eq_true _ ▸ hr))

/-! ### Closing -/

/-- Settles O19: closing changes `obs` alone. -/
theorem closingReportsOnly : Obligations.ClosingReportsOnly := fun s t =>
  (within_obs (onlyObs_finish t s) (Scope.Le.refl _) (Within.refl _ t)).parts

end Sys2Proof.Machine

/-! Frames in the form of the statements: from a scope of single registers to `RegsBut`, from a change after time has passed to `Passes`, and
one port, lane or queue at most. -/

namespace Sys2Proof.Machine

/-! ### Scopes of single registers -/

/-- A scope that names single registers leaves all others alone. -/
theorem Within.regsBut {ps : List StatePart} {l : List Nat} {bs : List (Nat × Nat)} {s t : State} (h : Within ⟨ps, l.map one, bs⟩ s t) :
    RegsBut l s t := by
  intro a ha
  refine h.regs a fun r hr n _ => ?_
  obtain ⟨b, hb, rfl⟩ := List.mem_map.1 hr
  rintro rfl
  exact ha (by simpa [one] using hb)

theorem RegsBut.of_regs {l : List Nat} {s t : State} (h : t.regs = s.regs) : RegsBut l s t := fun a _ => reg_of_regs h a

theorem RegsBut.refl (l : List Nat) (s : State) : RegsBut l s s := fun _ _ => rfl

theorem RegsBut.trans {l : List Nat} {s t u : State} (h : RegsBut l s t) (k : RegsBut l t u) : RegsBut l s u :=
  fun a ha => (k a ha).trans (h a ha)

theorem RegsBut.mono {l k : List Nat} {s t : State} (h : RegsBut l s t) (hl : ∀ a ∈ l, a ∈ k) : RegsBut k s t :=
  fun a ha => h a fun c => ha (hl a c)

theorem Within.regs_same {ps : List StatePart} {bs : List (Nat × Nat)} {s t : State} (h : Within ⟨ps, [], bs⟩ s t) (a : Nat) : t.reg a = s.reg a :=
  h.regs a fun _ hr => absurd hr List.not_mem_nil

/-! ### After time has passed -/

/-- A change of other parts, within a scope, after time has passed. -/
theorem Passes.of_within {c : Scope} {e : Nat} {l : List StatePart} {s t : State} (h : Within c (s.advance e) t)
    (hl : ∀ p ∈ c.parts, p ∈ .obs :: l) (ht : .time ∉ c.parts) (hs : .sram ∉ c.parts) : Passes e l s t :=
  ⟨Eq.trans (h.parts .time ht) (advance_time s e), (ringOnly_advance s e).trans (.of_sram (h.parts .sram hs)),
   ((keeps_advance s e).mono (by simp)).trans (h.parts.mono fun p hp => by
     have := hl p hp
     simp only [List.mem_cons] at this ⊢
     tauto)⟩

/-- The registers that a change after time has passed leaves alone. -/
theorem RegsBut.of_advance {l : List Nat} {e : Nat} {s t : State} (h : RegsBut l (s.advance e) t) : RegsBut l s t :=
  fun a ha => (h a ha).trans ((advance_reads s e).1 a)

/-- Two registers of one name's neighbours: the registers of one port, lane or timer at different offsets. -/
theorem ownReg_ne {b c n k d : Nat} (h : b ≠ c := by decide) : b + n % k * d ≠ c + n % k * d := by omega

/-! ### One port, lane or queue -/

theorem laneOf_modL (s : State) (l : Nat) (f : LaneSt → LaneSt) : LaneOf l s (s.modL l f) := ⟨rfl, fun m hm => lane_modL_ne s l m f hm⟩

theorem LaneOf.of_kpr {l : Nat} {s u t : State} (h : LaneOf l u t) (hk : u.kpr = s.kpr) : LaneOf l s t :=
  ⟨by rw [h.1, hk], fun m hm => (h.2 m hm).trans (by rw [State.lane, State.lane, hk])⟩

/-! ### A command of CORE whose effect in the state at hand is known -/

section
variable {c : Instr} {s t : State} {f : State → State} {o : Out} {P : State → Prop}

theorem does_running (e : exec c s = o) (h : o = s.core f) (hr : Running s) (ht : f s = t) (hp : P t) : Does c s P :=
  does_core (e.trans h) hr (ht ▸ hp)

theorem does_clocked (e : exec c s = o) (h : o = s.coreAll f) (hr : Clocked s) (ht : f s = t) (hp : P t) : Does c s P :=
  does_coreAll (e.trans h) hr (ht ▸ hp)

theorem does_monitored (e : exec c s = o) (h : o = s.mon f) (hr : Monitored s) (ht : f s = t) (hp : P t) : Does c s P :=
  does_mon (e.trans h) hr (ht ▸ hp)

theorem does_ready (e : exec c s = o) (h : o = s.host f) (hr : HostReady s) (ht : f s = t) (hp : P t) : Does c s P :=
  does_host (e.trans h) hr (ht ▸ hp)

end

end Sys2Proof.Machine

/-! The keeper (O20 to O23): the ends of pulses, KPR_COMMIT and its NV write, the invalidation pass, the sweep of the recent table. -/

namespace Sys2Proof.Machine

variable (s : State)

/-! ### Pulses (R329, R330) -/

/-- A lane changed after time has passed to the end of its pulse. -/
theorem laneOf_pulseEnd (l : Lane) (e : Nat) (f : LaneSt → LaneSt) :
    ((s.advance e).modL l f).lane l = f (s.lane l) ∧ LaneOf l s ((s.advance e).modL l f) ∧ Passes e [.kpr] s ((s.advance e).modL l f) := by
  have hkpr : (s.advance e).kpr = s.kpr := keeps_advance s e .kpr (by decide)
  have within : Within ⟨[.kpr], [], []⟩ (s.advance e) ((s.advance e).modL l f) := within_modL _ _ _ (Scope.Le.refl _) (Within.refl _ _)
  exact ⟨by simp, (laneOf_modL _ _ _).of_kpr hkpr, .of_within within (by decide) (by decide) (by decide)⟩

/-- Settles O20: at the end of its pulse time has passed to that end and the one field of the one lane is cleared. -/
theorem lanePulsesEnd : Obligations.LanePulsesEnd := by
  refine ⟨fun s l e hr he => ?_, fun s l e hr he => ?_⟩
  · exact does_running (o := execGoPulseEnd l s) rfl rfl hr (by simp only [he]; rfl) (laneOf_pulseEnd s l e _)
  · exact does_running (o := execAlertPulseEnd l s) rfl rfl hr (by simp only [he]; rfl) (laneOf_pulseEnd s l e _)

/-! ### KPR_COMMIT (R305, R306) -/

theorem authRefused_within : Within ⟨[.regs, .cfg, .obs], [Reg.CFG_AUTH_STATUS, Reg.GEN_IRQ_STATUS].map one, []⟩ s s.authRefused :=
  within_authRefused s (Scope.Le.refl _) (Within.refl _ s)

theorem authAccepted_within : Within ⟨[.regs, .obs], [Reg.CFG_AUTH_STATUS, Reg.GEN_IRQ_STATUS].map one, []⟩ s s.authAccepted :=
  within_authAccepted s (Scope.Le.refl _) (Within.refl _ s)

/-- The event of an accepted command carries its counter (R523). -/
theorem posted_authAccepted : Posted 0xE005 .top ((s.cfg.auth.map (·.counter)).getD 0) s.authAccepted := by
  have counter : (match s.cfg.auth with | some a => a.counter | none => 0) = (s.cfg.auth.map (·.counter)).getD 0 := by
    cases s.cfg.auth <;> rfl
  rw [← counter]
  exact posted_post _ _ _ _

/-- The state in which a commit that was accepted is on its way to NV. -/
def State.committing (s : State) (b : Nat) (v : BankVals) : State := { s.authAccepted with kpr := { s.kpr with commit := some (b, v) } }

theorem committing_within (b : Nat) (v : BankVals) :
    Within ⟨[.regs, .kpr, .obs], [Reg.CFG_AUTH_STATUS, Reg.GEN_IRQ_STATUS].map one, []⟩ s (s.committing b v) :=
  within_with_kpr _ (.of (by decide)) ((authAccepted_within s).mono (.of (by decide)))

/-! ### The NV write of a commit (R307, R314) -/

/-- The state after a verified commit of `v` to bank `b`. -/
def State.committed (s : State) (b : Nat) (v : BankVals) : State :=
  let u := { s.authEnd with kpr := { s.kpr with commit := none, nvBanks := s.kpr.nvBanks.set b v, nvActive := b } }
  (((u.setBank b v).setFld Reg.KPR_STATUS Fld.KPR_STATUS_ACTIVE_BANK b).post 0x7005 .top 0).invalidate

/-- The registers of a bank and the bank in force, written. -/
theorem committed_reg (b : Nat) (v : BankVals) (a : Nat) :
    (s.committed b v).reg a = ((s.setBank b v).setFld Reg.KPR_STATUS Fld.KPR_STATUS_ACTIVE_BANK b).reg a := rfl

theorem kprStatus_ne_bank {c b : Nat} (h : c ∈ [0x60020, 0x60024, 0x60028, 0x6002C]) : c + b % 2 * 0x10 ≠ Reg.KPR_STATUS := by
  have hstatus : Reg.KPR_STATUS = 0x60018 := rfl
  simp only [List.mem_cons, List.not_mem_nil, or_false] at h
  omega

theorem committed_bank (b : Nat) (v : BankVals) :
    (s.committed b v).reg (Reg.KPR_BANK_VER b) = word v.ver ∧ (s.committed b v).reg (Reg.KPR_BANK_PAGES b) = word v.p ∧
    (s.committed b v).reg (Reg.KPR_BANK_TOTAL b) = word v.t ∧ (s.committed b v).reg (Reg.KPR_BANK_ENTRIES b) = word v.entries := by
  refine ⟨?_, ?_, ?_, ?_⟩ <;> rw [committed_reg, reg_setFld_ne _ _ _ _ _ (kprStatus_ne_bank (by decide)), State.setBank]
  · rw [reg_setReg_ne _ _ _ _ ownReg_ne, reg_setReg_ne _ _ _ _ ownReg_ne, reg_setReg_ne _ _ _ _ ownReg_ne, reg_setReg_same]
  · rw [reg_setReg_ne _ _ _ _ ownReg_ne, reg_setReg_ne _ _ _ _ ownReg_ne, reg_setReg_same]
  · rw [reg_setReg_ne _ _ _ _ ownReg_ne, reg_setReg_same]
  · rw [reg_setReg_same]

theorem committed_active {b : Nat} (v : BankVals) (h : b < 2) : (s.committed b v).fld Reg.KPR_STATUS Fld.KPR_STATUS_ACTIVE_BANK = b := by
  rw [fld_of_reg (committed_reg s b v _), fld_setFld_same _ _ _ _ (by decide)]
  exact Nat.mod_eq_of_lt h

theorem committed_within (b : Nat) (v : BankVals) : Within ⟨[.regs, .cfg, .kpr, .obs], [Reg.KPR_BANK_VER b, Reg.KPR_BANK_PAGES b,
    Reg.KPR_BANK_TOTAL b, Reg.KPR_BANK_ENTRIES b, Reg.KPR_STATUS].map one, []⟩ s (s.committed b v) := by
  have named {a : Nat} (h : a ∈ [Reg.KPR_BANK_VER b, Reg.KPR_BANK_PAGES b, Reg.KPR_BANK_TOTAL b, Reg.KPR_BANK_ENTRIES b, Reg.KPR_STATUS]) :
      Scope.Le ⟨[.regs], [one a], []⟩ ⟨[.regs, .cfg, .kpr, .obs], [Reg.KPR_BANK_VER b, Reg.KPR_BANK_PAGES b, Reg.KPR_BANK_TOTAL b,
        Reg.KPR_BANK_ENTRIES b, Reg.KPR_STATUS].map one, []⟩ :=
    ⟨by simp, fun r hr => List.mem_map.2 ⟨a, h, (List.mem_singleton.1 hr).symm⟩, by simp⟩
  refine within_invalidate _ ⟨by simp, by simp, by simp⟩ (within_post ⟨by simp, by simp, by simp⟩ (within_setFld _ _ _ (named (by simp)) ?_) _ _ _)
  refine within_setReg _ _ (named (by simp)) (within_setReg _ _ (named (by simp)) (within_setReg _ _ (named (by simp))
    (within_setReg _ _ (named (by simp)) ?_)))
  exact within_with_kpr _ ⟨by simp, by simp, by simp⟩ (within_authEnd s ⟨by simp, by simp, by simp⟩ (Within.refl _ s))

theorem committed_posted (b : Nat) (v : BankVals) : Posted 0x7005 .top 0 (s.committed b v) := posted_post _ _ _ _

theorem does_kprCommit {p : List Byte} {P : State → Prop} (hr : Running s) (ha : s.authActs 3 = some p)
    (hp : P (if s.commitBad p then s.authRefused.post 0x7006 .heart 0
      else s.committing (leAt p 0 1) (commitVals p (s.geom.signature (leAt p 0 1))))) : Does .kprCommit s P :=
  does_running (o := execKprCommit s) rfl rfl hr (by simp only [ha]; rfl) hp

theorem does_commitNvDone {b : Nat} {v : BankVals} {ok : Bool} {P : State → Prop} (hr : Running s) (hc : s.kpr.commit = some (b, v))
    (hp : P (if ok then s.committed b v else { s.authEnd with kpr := { s.kpr with commit := none } })) : Does (.commitNvDone ok) s P :=
  does_running (o := execCommitNvDone ok s) rfl rfl hr (by simp only [hc]; rfl) hp

/-- Settles O21. Accepted, refused, verified and failed are one state each; what the clause says of it are the laws of that state above. -/
theorem rosterCommit : Obligations.RosterCommit := by
  refine ⟨fun s p hr ha hb => ?_, fun s p hr ha hb => ?_, fun s b v hr hc hb => ?_, fun s b v hr hc => ?_⟩
  · refine does_kprCommit s hr ha ?_
    rw [hb, if_neg Bool.false_ne_true]
    exact ⟨rfl, (authAccepted_spec s).of_reg rfl rfl, posted_authAccepted s, (committing_within s _ _).regsBut, (committing_within s _ _).parts⟩
  · refine does_kprCommit s hr ha ?_
    rw [hb, if_pos rfl]
    have within := within_post (.of (by decide)) (authRefused_within s) 0x7006 .heart 0
    exact ⟨authRefused_spec s, posted_post _ _ _ _, within.regsBut, within.parts⟩
  · refine does_commitNvDone s hr hc ?_
    rw [if_pos rfl]
    obtain ⟨hver, hpages, htotal, hentries⟩ := committed_bank s b v
    refine ⟨hver, hpages, htotal, hentries, committed_active s v hb, rfl, rfl, rfl, rfl, fun x hx => ?_, rfl, committed_posted s b v,
      (committed_within s b v).regsBut, (committed_within s b v).parts⟩
    obtain ⟨y, -, rfl⟩ := List.mem_map.1 hx
    rfl
  · refine does_commitNvDone s hr hc ?_
    rw [if_neg Bool.false_ne_true]
    have within : Within ⟨[.cfg, .kpr], [], []⟩ s { s.authEnd with kpr := { s.kpr with commit := none } } :=
      within_with_kpr _ (.of (by decide)) (within_authEnd s (.of (by decide)) (Within.refl _ s))
    exact ⟨rfl, rfl, within.parts⟩

end Sys2Proof.Machine

/-! The recent table: the invalidation pass (O22) and the sweep (O23). -/

namespace Sys2Proof.Machine

variable (s : State)

/-! ### The invalidation pass over a sparse memory (R314) -/

/-- A key below the first one of a canonical table is not listed. -/
theorem Sparse.get_of_above {α : Type} [DecidableEq α] (d : Nat → α) (e : α) (k : Nat) (m : List (Nat × α)) (hw : Sparse.wf d m = true)
    (h : Sparse.above k m) : Sparse.get m e k = e := by
  induction m generalizing k with
  | nil => rfl
  | cons x t ih =>
    obtain ⟨j, v⟩ := x
    obtain ⟨-, habove, hwf⟩ := (Sparse.wf_cons d j v t).mp hw
    have hlt : k < j := h
    rw [Sparse.get_cons, if_neg hlt.ne', ih k hwf (Sparse.above_mono _ _ _ hlt.le habove)]

/-- The pass clears the verdict bits of the bytes that hold verdicts, and changes no other byte. -/
theorem get_clearVerdicts (m : List (Nat × Byte)) (h : Sparse.wf (fun _ => (0 : Byte)) m = true) (a : Nat) :
    Sparse.get (clearVerdicts m) 0 a =
      if 0x200000 ≤ a ∧ a < 0x600000 ∧ a % 16 = 13 then Sparse.get m 0 a &&& 0xF8 else Sparse.get m 0 a := by
  induction m with
  | nil => simp [clearVerdicts, Sparse.get]
  | cons x t ih =>
    obtain ⟨k, v⟩ := x
    obtain ⟨-, habove, hwf⟩ := (Sparse.wf_cons _ k v t).mp h
    specialize ih hwf
    rw [clearVerdicts, Sparse.get_cons]
    by_cases hk : k = a
    · subst hk
      rw [Sparse.get_of_above _ 0 k t hwf habove] at ih
      split
      · split
        · rename_i hv
          rw [ih, if_pos (by assumption), if_pos rfl, hv]
          rfl
        · rw [Sparse.get_cons, if_pos rfl, if_pos rfl]
      · rw [Sparse.get_cons, if_pos rfl, if_pos rfl]
    · rw [if_neg hk]
      split
      · split
        · exact ih
        · rw [Sparse.get_cons, if_neg hk, ih]
      · rw [Sparse.get_cons, if_neg hk, ih]

/-- Settles O22: the pass ends a cycle for each set after its start, and then clears the verdicts. -/
theorem invalidationClearsVerdicts : Obligations.InvalidationClearsVerdicts := by
  intro s since hs hr hp
  refine does_running (o := execInvalidationPassDone s) rfl rfl hr (by simp only [hp]; rfl) ?_
  obtain ⟨t, ht⟩ : ∃ t, t = s.advance (since + 65536 * cycle) := ⟨_, rfl⟩
  have passes : Passes (since + 65536 * cycle) [] s t := ht ▸ passes_advance s _
  obtain ⟨htime, hring, hkeeps⟩ := passes
  have hkpr : t.kpr = s.kpr := hkeeps .kpr (by decide)
  have hwf : Sparse.wf (fun _ => (0 : Byte)) t.sram = true := (ht ▸ sound_advance hs _ : Sound t).canonical.sram
  rw [← ht]
  have byte (a : Nat) (h : a < 0x780000 ∨ 0x880000 ≤ a) : Sparse.get (clearVerdicts t.sram) 0 a =
      if 0x200000 ≤ a ∧ a < 0x600000 ∧ a % 16 = 13 then s.sramByte a &&& 0xF8 else s.sramByte a := by
    rw [get_clearVerdicts _ hwf, ← hring a h]
    rfl
  refine ⟨by rw [hkpr], htime, fun a hlo hhi => ?_, fun a ha => ?_, ?_⟩
  · rw [State.sramByte, byte a (by omega)]
    exact if_congr (by omega) rfl rfl
  · rw [State.sramByte, byte a (by omega), if_neg (by omega)]
  · have cleared : Keeps [.sram, .kpr] t { t with sram := clearVerdicts t.sram, kpr := { t.kpr with pass := none } } := by
      intro q hq
      cases q
      case sram | kpr => exact absurd (by decide) hq
      all_goals rfl
    exact (hkeeps.mono (by decide)).trans (cleared.mono (by decide))

/-! ### A way and its 16 bytes (R309) -/

theorem leNat_leBytes (n v : Nat) : leNat (leBytes n v) = v % 256 ^ n := by
  induction n generalizing v with
  | zero => simp [leBytes, leNat, Nat.mod_one]
  | succ n ih =>
    rw [leBytes, leNat, ih, BitVec.toNat_ofNat, Nat.pow_succ' (n := n), Nat.mod_mul (x := v) (a := 256)]

theorem leNat_lt (l : List Byte) : leNat l < 256 ^ l.length := by
  induction l with
  | nil => exact Nat.one_pos
  | cons b t ih =>
    have hb : b.toNat < 256 := b.isLt
    rw [leNat, List.length_cons, Nat.pow_succ']
    omega

theorem leAt_lt (l : List Byte) (i n : Nat) : leAt l i n < 256 ^ n :=
  (leNat_lt _).trans_le (Nat.pow_le_pow_right (by decide) (List.length_take_le n _))

/-- The values that the 16 bytes of a way can hold. -/
structure Way.Fits (x : Way) : Prop where
  h : x.h < 2 ^ 32
  h2 : x.h2 < 2 ^ 32
  last : x.last < 2 ^ 24
  count : x.count < 256
  limit : x.limit < 256
  verdict : x.verdict < 8
  zone : x.zone < 16
  lane : x.lane < 16

theorem Way.fits_ofBytes (b : List Byte) : (Way.ofBytes b).Fits where
  h := leAt_lt b 0 4
  h2 := leAt_lt b 4 4
  last := leAt_lt b 8 3
  count := leAt_lt b 11 1
  limit := leAt_lt b 12 1
  verdict := Nat.mod_lt _ (by decide)
  zone := Nat.mod_lt _ (by decide)
  lane := Nat.mod_lt _ (by decide)

theorem Way.length_toBytes (x : Way) : x.toBytes.length = 16 := by simp [Way.toBytes, length_leBytes]

/-- What a way's bytes hold is the way. -/
theorem Way.ofBytes_toBytes {x : Way} (hx : x.Fits) : Way.ofBytes x.toBytes = x := by
  obtain ⟨hh, hh2, hlast, hcount, hlimit, hverdict, hzone, hlane⟩ := hx
  obtain ⟨h, h2, last, count, limit, verdict, lastAdmit, zone, lane, valid⟩ := x
  dsimp only at *
  simp only [Way.ofBytes, Way.toBytes, leAt, leBytes, leNat, List.cons_append, List.nil_append, List.take_succ_cons,
    List.drop_succ_cons, List.drop_zero, List.take_zero, BitVec.toNat_ofNat, Way.mk.injEq, Nat.testBit_eq_decide_div_mod_eq]
  have bit (b : Bool) : bnat b < 2 ∧ ∀ n, n = bnat b → decide (n = 1) = b := by cases b <;> simp [bnat]
  obtain ⟨hlast, lastIs⟩ := bit lastAdmit
  obtain ⟨hvalid, isValid⟩ := bit valid
  exact ⟨by omega, by omega, by omega, by omega, by omega, by omega, lastIs _ (by omega), by omega, by omega, isValid _ (by omega)⟩

theorem Sparse.read_write {α : Type} [DecidableEq α] (m : List (Nat × α)) (d : α) (k : Nat) (l : List α) :
    Sparse.read (Sparse.write m d k l) d k l.length = l := by
  induction l generalizing m k with
  | nil => rfl
  | cons v t ih =>
    rw [List.length_cons, Sparse.read, Sparse.write, ih, Sparse.get_write_ne _ _ _ _ _ (.inl (Nat.lt_succ_self k)), Sparse.get_put_same]

/-- A way that has been written reads as written. -/
theorem way_putWay (set w : Nat) {x : Way} (hx : x.Fits) : (s.putWay set w x).way set w = x := by
  rw [State.way, State.putWay, State.sramRead, State.sramWrite, ← Way.length_toBytes x, Sparse.read_write, Way.ofBytes_toBytes hx]

theorem sramByte_putWay_ne (set w : Nat) (x : Way) {a : Nat} (h : a < wayAddr set w ∨ wayAddr set w + 16 ≤ a) :
    (s.putWay set w x).sramByte a = s.sramByte a :=
  Sparse.get_write_ne _ _ _ _ _ (by rwa [Way.length_toBytes])

/-- The way that the sweep visits is the one at its place in the table. -/
theorem wayAddr_sweep {i : Nat} (h : i < 262144) : wayAddr (i / 4) (i % 4) = 0x200000 + i * 16 := by
  unfold wayAddr
  omega

/-- What a visit of the sweep makes of a way. -/
def State.swept (s : State) (set w : Nat) : State :=
  if (s.way set w).valid && decide (s.countTtl < s.age (s.way set w)) then s.putWay set w { s.way set w with valid := false } else s

theorem way_swept_old (set w : Nat) (h : (s.way set w).valid = true ∧ s.countTtl < s.age (s.way set w)) :
    (s.swept set w).way set w = { s.way set w with valid := false } := by
  have fits := Way.fits_ofBytes (s.sramRead (wayAddr set w) 16)
  rw [State.swept, if_pos (by simp [h]), way_putWay]
  exact ⟨fits.h, fits.h2, fits.last, fits.count, fits.limit, fits.verdict, fits.zone, fits.lane⟩

theorem swept_young (set w : Nat) (h : ¬ ((s.way set w).valid = true ∧ s.countTtl < s.age (s.way set w))) : s.swept set w = s := by
  rw [State.swept, if_neg (by simpa using h)]

theorem sramByte_swept_ne (set w : Nat) {a : Nat} (h : a < wayAddr set w ∨ wayAddr set w + 16 ≤ a) : (s.swept set w).sramByte a = s.sramByte a := by
  unfold State.swept
  split
  · exact sramByte_putWay_ne s set w _ h
  · rfl

theorem swept_eq (set w : Nat) : s.swept set w = { s with sram := (s.swept set w).sram } := by
  unfold State.swept
  split <;> rfl

/-- The state after a visit of the sweep to the way at place `i`. -/
def State.sweptAt (s : State) (i : Nat) : State :=
  { s.swept (i / 4) (i % 4) with kpr := { (s.swept (i / 4) (i % 4)).kpr with sweep := some ((i + 1) % 262144) } }

theorem keeps_sweptAt (i : Nat) : Keeps [.sram, .kpr] s (s.sweptAt i) := by
  intro q hq
  unfold State.sweptAt
  rw [swept_eq]
  cases q
  case sram | kpr => exact absurd (by decide) hq
  all_goals rfl

theorem does_recentSweepTick {i : Nat} {P : State → Prop} (hr : Running s) (hsweep : s.kpr.sweep = some i)
    (hphase : s.gen.phase = .run ∨ s.gen.phase = .recovery ∨ s.gen.phase = .test)
    (hp : P ((s.advance ((s.time / usec + 1) * usec)).sweptAt i)) : Does .recentSweepTick s P := by
  have runs : (match s.gen.phase with | .run | .recovery | .test => true | _ => false) = true := by
    rcases hphase with h | h | h <;> rw [h]
  refine does_running (o := execRecentSweepTick s) rfl rfl hr ?_ hp
  simp only [hsweep]
  exact if_pos runs

/-- Settles O23: the visit is to the way at the sweep's place, on the next microsecond. -/
theorem recentSweepAgesWays : Obligations.RecentSweepAgesWays := by
  intro s i hr hsweep hi hphase
  refine does_recentSweepTick s hr hsweep hphase ?_
  obtain ⟨u, hu⟩ : ∃ u, u = s.advance ((s.time / usec + 1) * usec) := ⟨_, rfl⟩
  obtain ⟨htime, hring, hkeeps⟩ : Passes ((s.time / usec + 1) * usec) [] s u := hu ▸ passes_advance s _
  have hkpr : u.kpr = s.kpr := hkeeps .kpr (by decide)
  have swept := keeps_sweptAt u i
  have bytes (a : Nat) : (u.sweptAt i).sramByte a = (u.swept (i / 4) (i % 4)).sramByte a := rfl
  have ways (w v : Nat) : (u.sweptAt i).way w v = (u.swept (i / 4) (i % 4)).way w v := rfl
  rw [← hu]
  refine ⟨by rw [State.sweptAt, swept_eq, hkpr], ?_, ⟨fun h => ?_, fun h => ?_⟩, fun a ha hway => ?_, (hkeeps.mono (by decide)).trans (swept.mono (by decide))⟩
  · have later : s.time ≤ (s.time / usec + 1) * usec := (Nat.lt_div_mul_add (by decide)).le.trans_eq (Nat.succ_mul _ _).symm
    have kept : (u.sweptAt i).time = u.time := swept .time (by decide)
    rw [kept, htime, Nat.max_eq_right later]
  · rw [ways, way_swept_old u _ _ h]
  · rw [ways, swept_young u _ _ h]
  · rw [bytes, sramByte_swept_ne u _ _ (by rwa [wayAddr_sweep hi]), hring a ha]

end Sys2Proof.Machine

/-! One port, queue, channel or sequencer at most: what the changes of one leave of the others, and the counts and packed fields of a register. -/

namespace Sys2Proof.Machine

variable {s t u : State} {n : Nat}

/-! ### One port of a unit -/

theorem RxeOf.refl (n : Nat) (s : State) : RxeOf n s s := fun _ _ => rfl

theorem RxeOf.of_rxe (h : t.rxe = s.rxe) : RxeOf n s t := fun m _ => by rw [State.pr, State.pr, h]

theorem RxeOf.trans (h : RxeOf n s t) (k : RxeOf n t u) : RxeOf n s u := fun m hm => (k m hm).trans (h m hm)

theorem rxeOf_modR (s : State) (p : Port) (f : PortR → PortR) : RxeOf p s (s.modR p f) := fun m hm => pr_modR_ne s p m f hm

theorem FieldOf.refl (n : Nat) (s : State) : FieldOf n s s := ⟨rfl, fun _ _ => rfl⟩

theorem FieldOf.of_field (h : t.field = s.field) : FieldOf n s t := ⟨by rw [h], fun m _ => by rw [State.pf, State.pf, h]⟩

theorem FieldOf.trans (h : FieldOf n s t) (k : FieldOf n t u) : FieldOf n s u :=
  ⟨by rw [k.1, h.1], fun m hm => (k.2 m hm).trans (h.2 m hm)⟩

theorem fieldOf_modF (s : State) (p : Port) (f : PortF → PortF) : FieldOf p s (s.modF p f) := ⟨rfl, fun m hm => pf_modF_ne s p m f hm⟩

theorem ProOf.refl (n : Nat) (s : State) : ProOf n s s := fun _ _ => rfl

theorem ProOf.of_pro (h : t.pro = s.pro) : ProOf n s t := fun m _ => by rw [State.pp, State.pp, h]

theorem ProOf.trans (h : ProOf n s t) (k : ProOf n t u) : ProOf n s u := fun m hm => (k m hm).trans (h m hm)

theorem proOf_modP (s : State) (p : Port) (f : PortP → PortP) : ProOf p s (s.modP p f) := fun m hm => pp_modP_ne s p m f hm

theorem AcdOf.refl (n : Nat) (s : State) : AcdOf n s s := fun _ _ => rfl

theorem AcdOf.of_acd (h : t.acd = s.acd) : AcdOf n s t := fun m _ => by rw [State.pa, State.pa, h]

theorem AcdOf.trans (h : AcdOf n s t) (k : AcdOf n t u) : AcdOf n s u := fun m hm => (k m hm).trans (h m hm)

theorem acdOf_modA (s : State) (p : Port) (f : PortA → PortA) : AcdOf p s (s.modA p f) := fun m hm => pa_modA_ne s p m f hm

theorem TunOf.of_tun (h : t.tun = s.tun) : TunOf n s t := ⟨by rw [h], fun m _ => by rw [State.pt, State.pt, h]⟩

theorem TunOf.trans (h : TunOf n s t) (k : TunOf n t u) : TunOf n s u :=
  ⟨by rw [k.1, h.1], fun m hm => (k.2 m hm).trans (h.2 m hm)⟩

theorem tunOf_modT (s : State) (p : Port) (f : PortT → PortT) : TunOf p s (s.modT p f) := ⟨rfl, fun m hm => pt_modT_ne s p m f hm⟩

theorem CoxOf.of_cox (h : t.cox = s.cox) : CoxOf n s t := ⟨by rw [h], fun m _ => by rw [State.px, State.px, h]⟩

theorem CoxOf.trans (h : CoxOf n s t) (k : CoxOf n t u) : CoxOf n s u :=
  ⟨by rw [k.1, h.1], fun m hm => (k.2 m hm).trans (h.2 m hm)⟩

theorem coxOf_modX (s : State) (p : Port) (f : PortX → PortX) : CoxOf p s (s.modX p f) := ⟨rfl, fun m hm => px_modX_ne s p m f hm⟩

theorem QueuesOf.refl (n : Nat) (s : State) : QueuesOf n s s := fun _ _ => rfl

theorem QueuesOf.of_que (h : t.que = s.que) : QueuesOf n s t := fun m _ => by rw [State.pq, State.pq, h]

theorem QueuesOf.trans (h : QueuesOf n s t) (k : QueuesOf n t u) : QueuesOf n s u := fun m hm => (k m hm).trans (h m hm)

theorem queuesOf_setPq (s : State) (p : Port) (q : PortQ) : QueuesOf p s (s.setPq p q) := fun m hm => pq_setPq_ne s p m q hm

theorem ChanOf.refl (n : Nat) (s : State) : ChanOf n s s := fun _ _ => rfl

theorem ChanOf.of_crc (h : t.crc = s.crc) : ChanOf n s t := fun m _ => by rw [State.chan, State.chan, h]

theorem ChanOf.trans (h : ChanOf n s t) (k : ChanOf n t u) : ChanOf n s u := fun m hm => (k m hm).trans (h m hm)

theorem chanOf_setChan (s : State) (c : Chan) (x : CrcSt) : ChanOf c s (s.setChan c x) := fun m hm => chan_setChan_ne s c m x hm

/-! ### What a port reads of a part that stays -/

theorem pr_of_rxe (h : t.rxe = s.rxe) (m : Nat) : t.pr m = s.pr m := by rw [State.pr, State.pr, h]

theorem pp_of_pro (h : t.pro = s.pro) (m : Nat) : t.pp m = s.pp m := by rw [State.pp, State.pp, h]

theorem pf_of_field (h : t.field = s.field) (m : Nat) : t.pf m = s.pf m := by rw [State.pf, State.pf, h]

theorem pa_of_acd (h : t.acd = s.acd) (m : Nat) : t.pa m = s.pa m := by rw [State.pa, State.pa, h]

theorem pt_of_tun (h : t.tun = s.tun) (m : Nat) : t.pt m = s.pt m := by rw [State.pt, State.pt, h]

theorem px_of_cox (h : t.cox = s.cox) (m : Nat) : t.px m = s.px m := by rw [State.px, State.px, h]

theorem pq_of_que (h : t.que = s.que) (m : Nat) : t.pq m = s.pq m := by rw [State.pq, State.pq, h]

theorem chan_of_crc (h : t.crc = s.crc) (m : Nat) : t.chan m = s.chan m := by rw [State.chan, State.chan, h]

theorem hud_of_field (h : t.field = s.field) (m : Nat) : t.hud m = s.hud m := by rw [State.hud, State.hud, h]

/-! ### The parts that two changes leave alone -/

theorem Keeps.join {l k r : List StatePart} (h : Keeps l s t) (g : Keeps k t u) (hl : ∀ p ∈ l, p ∈ r := by decide)
    (hk : ∀ p ∈ k, p ∈ r := by decide) : Keeps r s u := (h.mono hl).trans (g.mono hk)

/-- A scope with the same registers and more parts. -/
theorem Scope.Le.of_parts {ps qs : List StatePart} {l : List (Nat × Nat × Nat)} {bs : List (Nat × Nat)} (h : ∀ p ∈ ps, p ∈ qs := by decide) :
    Scope.Le ⟨ps, l, []⟩ ⟨qs, l, bs⟩ := ⟨h, fun _ hr => hr, by simp⟩

/-- One register of those that a scope names. -/
theorem Scope.Le.of_named {ps qs : List StatePart} {a : Nat} {l : List Nat} {bs : List (Nat × Nat)} (ha : a ∈ l) (h : ∀ p ∈ ps, p ∈ qs := by decide) :
    Scope.Le ⟨ps, [one a], []⟩ ⟨qs, l.map one, bs⟩ :=
  ⟨h, fun _ hr => List.mem_map.2 ⟨a, ha, (List.mem_singleton.1 hr).symm⟩, by simp⟩

/-- No register of those that a scope names. -/
theorem Scope.Le.of_none {ps qs : List StatePart} {l : List (Nat × Nat × Nat)} {bs : List (Nat × Nat)} (h : ∀ p ∈ ps, p ∈ qs := by decide) :
    Scope.Le ⟨ps, [], []⟩ ⟨qs, l, bs⟩ := ⟨h, by simp, by simp⟩

/-- A change that keeps time and SRAM, after time has passed. -/
theorem Keeps.passes {k l : List StatePart} {e : Nat} (h : Keeps k (s.advance e) t) (hk : ∀ p ∈ k, p ∈ .obs :: l := by decide)
    (ht : .time ∉ k := by decide) (hs : .sram ∉ k := by decide) : Passes e l s t :=
  ⟨Eq.trans (h .time ht) (advance_time s e), (ringOnly_advance s e).trans (.of_sram (h .sram hs)),
   ((keeps_advance s e).mono (by simp)).trans (h.mono fun p hp => by
     have := hk p hp
     simp only [List.mem_cons] at this ⊢
     tauto)⟩

theorem keeps_modR (s : State) (n : Nat) (f : PortR → PortR) : Keeps [.rxe] s (s.modR n f) := (within_modR s n f (.refl _) (.refl _ s)).parts

theorem keeps_modP (s : State) (n : Nat) (f : PortP → PortP) : Keeps [.pro] s (s.modP n f) := (within_modP s n f (.refl _) (.refl _ s)).parts

theorem keeps_modF (s : State) (n : Nat) (f : PortF → PortF) : Keeps [.field] s (s.modF n f) := (within_modF s n f (.refl _) (.refl _ s)).parts

theorem keeps_modA (s : State) (n : Nat) (f : PortA → PortA) : Keeps [.acd] s (s.modA n f) := (within_modA s n f (.refl _) (.refl _ s)).parts

theorem keeps_modT (s : State) (n : Nat) (f : PortT → PortT) : Keeps [.tun] s (s.modT n f) := (within_modT s n f (.refl _) (.refl _ s)).parts

theorem keeps_modX (s : State) (n : Nat) (f : PortX → PortX) : Keeps [.cox] s (s.modX n f) := (within_modX s n f (.refl _) (.refl _ s)).parts

theorem keeps_post (s : State) (c : Nat) (k : Note) (a : Nat) : Keeps [.obs] s (s.post c k a) := (within_post (.refl _) (.refl _ s) c k a).parts

/-! ### Fields of one register -/

theorem BitsBut.refl (a : Nat) (f : Field) (s : State) : BitsBut a f s s := rfl

theorem BitsBut.of_reg {a : Nat} {f : Field} (h : t.reg a = s.reg a) : BitsBut a f s t := by rw [BitsBut, h]

theorem BitsBut.trans {a : Nat} {f : Field} (h : BitsBut a f s t) (k : BitsBut a f t u) : BitsBut a f s u := Eq.trans k h

theorem bitsBut_setFld (s : State) (a : Nat) (f : Field) (v : Nat) : BitsBut a f s (s.setFld a f v) := by
  rw [BitsBut, reg_setFld_same, Field.set_others]

/-- A count is bumped by setting its field. -/
theorem bump_eq (s : State) (a : Nat) (f : Field) : ∃ v, s.bump a f = s.setFld a f v := ⟨_, rfl⟩

theorem bitsBut_bump (s : State) (a : Nat) (f : Field) : BitsBut a f s (s.bump a f) := bitsBut_setFld s a f _

/-- Fields packed beside each other, each its own bits: the first. -/
theorem packF_head {f : Field} {v : Nat} {l : List (Field × Nat)} (h : f.lo + f.width ≤ 32 := by decide) :
    f.get (packF ((f, v) :: l)) = v % 2 ^ f.width := Field.get_set_same _ _ _ h

/-- Fields packed beside each other: one behind the first. -/
theorem packF_tail {f g : Field} {v : Nat} {l : List (Field × Nat)} (h : g.lo + g.width ≤ 32 := by decide)
    (hd : g.lo + g.width ≤ f.lo ∨ f.lo + f.width ≤ g.lo := by decide) : g.get (packF ((f, v) :: l)) = g.get (packF l) :=
  Field.get_set_other _ _ _ _ h hd

/-! ### Registers after reports, posts and time -/

theorem reg_post (s : State) (c : Nat) (k : Note) (a : Nat) (r : Nat) : (s.post c k a).reg r = s.reg r := rfl

theorem reg_postSecCount (s : State) (c k : Nat) (o : Note) (r : Nat) : (s.postSecCount c k o).reg r = s.reg r := by simp

theorem reg_postSec (s : State) (c k : Nat) (o : Note) (a r : Nat) : (s.postSec c k o a).reg r = s.reg r := by simp

end Sys2Proof.Machine

/-! The receivers of ports outside Accord (O24): preamble, start of frame, the end of the search for it, capture. -/

namespace Sys2Proof.Machine

variable (s : State) (p : Port)

/-! ### The estimates of AFC (R156, R157) -/

theorem showAfc_reg (fofs tofs frozen : Nat) : (s.showAfc p fofs tofs frozen).reg (Reg.RXE_P_AFC p) =
    packF [(Fld.RXE_P_AFC_FOFS, fofs), (Fld.RXE_P_AFC_TOFS, tofs), (Fld.RXE_P_AFC_FROZEN, frozen)] := reg_setReg_same _ _ _

theorem showAfc_fields (fofs : BitVec 12) (tofs : Byte) {frozen : Nat} (h : frozen < 2) :
    let t := s.showAfc p fofs.toNat tofs.toNat frozen
    t.fld (Reg.RXE_P_AFC p) Fld.RXE_P_AFC_FOFS = fofs.toNat ∧ t.fld (Reg.RXE_P_AFC p) Fld.RXE_P_AFC_TOFS = tofs.toNat ∧
    t.fld (Reg.RXE_P_AFC p) Fld.RXE_P_AFC_FROZEN = frozen := by
  refine ⟨?_, ?_, ?_⟩ <;> rw [State.fld, showAfc_reg]
  · exact Eq.trans packF_head (Nat.mod_eq_of_lt fofs.isLt)
  · exact Eq.trans packF_tail (Eq.trans packF_head (Nat.mod_eq_of_lt tofs.isLt))
  · exact Eq.trans packF_tail (Eq.trans packF_tail (Eq.trans packF_head (Nat.mod_eq_of_lt h)))

/-- The estimates are shown where the receiver has AFC. -/
def State.shownAfc (t : State) (p : Port) (afc : Bool) (fofs tofs frozen : Nat) : State := if afc then t.showAfc p fofs tofs frozen else t

theorem shownAfc_within (afc : Bool) (fofs tofs frozen : Nat) :
    Within ⟨[.regs], [Reg.RXE_P_AFC p].map one, []⟩ s (s.shownAfc p afc fofs tofs frozen) := by
  unfold State.shownAfc
  split
  · exact within_setReg _ _ (.refl _) (.refl _ _)
  · exact .refl _ _

theorem shownAfc_shows {afc : Bool} (h : afc = true) (fofs : BitVec 12) (tofs : Byte) {frozen : Nat} (hf : frozen < 2) :
    let t := s.shownAfc p afc fofs.toNat tofs.toNat frozen
    t.fld (Reg.RXE_P_AFC p) Fld.RXE_P_AFC_FOFS = fofs.toNat ∧ t.fld (Reg.RXE_P_AFC p) Fld.RXE_P_AFC_TOFS = tofs.toNat ∧
    t.fld (Reg.RXE_P_AFC p) Fld.RXE_P_AFC_FROZEN = frozen := by
  rw [State.shownAfc, if_pos h]
  exact showAfc_fields s p fofs tofs hf

theorem shownAfc_none {afc : Bool} (h : afc = false) (fofs tofs frozen : Nat) : s.shownAfc p afc fofs tofs frozen = s := by
  rw [State.shownAfc, if_neg (by simp [h])]

/-- A receiver changed and its estimates shown. -/
theorem modR_shownAfc (f : PortR → PortR) (afc : Bool) (fofs tofs frozen : Nat) :
    let t := (s.modR p f).shownAfc p afc fofs tofs frozen
    t.pr p = f (s.pr p) ∧ RegsBut [Reg.RXE_P_AFC p] s t ∧ RxeOf p s t ∧ Keeps [.regs, .rxe] s t := by
  have shown := shownAfc_within (s.modR p f) p afc fofs tofs frozen
  have hrxe : ((s.modR p f).shownAfc p afc fofs tofs frozen).rxe = (s.modR p f).rxe := shown.parts .rxe (by simp)
  refine ⟨?_, shown.regsBut, (rxeOf_modR s p f).trans (.of_rxe hrxe), (keeps_modR s p f).join shown.parts (by simp) (by simp)⟩
  rw [State.pr, hrxe]
  exact pr_modR_same s p f

/-! ### False locks (R151) -/

theorem falseLock_fld : (s.falseLock p).fld (Reg.RXE_P_COUNTS p) Fld.RXE_P_COUNTS_FALSE_LOCKS =
    satAdd 65535 (s.fld (Reg.RXE_P_COUNTS p) Fld.RXE_P_COUNTS_FALSE_LOCKS) 1 := by
  rw [State.falseLock, fld_of_reg (reg_postSecCount _ _ _ _ _)]
  exact fld_bump16 s _ _ rfl (by decide)

theorem falseLock_bits : BitsBut (Reg.RXE_P_COUNTS p) Fld.RXE_P_COUNTS_FALSE_LOCKS s (s.falseLock p) :=
  (bitsBut_bump s _ _).trans (.of_reg (reg_postSecCount _ _ _ _ _))

theorem falseLock_within : Within ⟨[.regs, .obs], [Reg.RXE_P_COUNTS p].map one, []⟩ s (s.falseLock p) :=
  within_postSecCount .of_none (within_bump _ _ .of_parts (.refl _ s)) _ _ _

/-- The search for a start of frame given up: the receiver is armed again and a false lock counted. -/
theorem rearm_falseLock (c : Bool) :
    let t := (s.rearm p c).falseLock p
    t.pr p = { s.pr p with state := .armed, captured := c, blanked := false, calmFrom := s.time } ∧
    t.fld (Reg.RXE_P_COUNTS p) Fld.RXE_P_COUNTS_FALSE_LOCKS = satAdd 65535 (s.fld (Reg.RXE_P_COUNTS p) Fld.RXE_P_COUNTS_FALSE_LOCKS) 1 ∧
    BitsBut (Reg.RXE_P_COUNTS p) Fld.RXE_P_COUNTS_FALSE_LOCKS s t ∧ RegsBut [Reg.RXE_P_COUNTS p] s t ∧ RxeOf p s t ∧
    Keeps [.regs, .rxe, .obs] s t := by
  have counted := falseLock_within (s.rearm p c) p
  have hrxe : ((s.rearm p c).falseLock p).rxe = (s.rearm p c).rxe := counted.parts .rxe (by simp)
  refine ⟨?_, falseLock_fld (s.rearm p c) p, falseLock_bits (s.rearm p c) p, counted.regsBut, (rxeOf_modR s p _).trans (.of_rxe hrxe),
    (keeps_modR s p _).join counted.parts (by simp) (by simp)⟩
  rw [State.pr, hrxe]
  exact pr_modR_same s p _

/-! ### The commands -/

section
variable {s p} {P : State → Prop}

theorem does_preamble {power length more : Nat} {fofs : BitVec 12} {tofs codes : Byte} (hr : Running s) (htech : (s.pr p).tech ≠ 6)
    (harmed : (s.pr p).state = .armed) (hpower : s.detects p power = true) (hlen : preambleMin (s.pr p).tech (s.pr p).rate ≤ length)
    (hp : P ((s.modR p fun y => { y with state := .sofWait, blanked := s.blankOn p, preEnd := s.time + s.fc more, refAt := s.time }).shownAfc p
      (s.pr p).hasAfc fofs.toNat tofs.toNat 0)) : Does (.preambleDetected p power length more fofs tofs codes) s P := by
  refine does_running (o := execPreambleDetected p power length more fofs tofs codes s) rfl rfl hr ?_ hp
  simp [hpower, hlen, htech, harmed, State.shownAfc]

theorem does_preamble_weak {power length more : Nat} {fofs : BitVec 12} {tofs codes : Byte} (hr : Running s)
    (h : s.detects p power = false ∨ length < preambleMin (s.pr p).tech (s.pr p).rate) (hp : P s) :
    Does (.preambleDetected p power length more fofs tofs codes) s P := by
  refine does_running (o := execPreambleDetected p power length more fofs tofs codes s) rfl rfl hr (if_neg ?_) hp
  rcases h with h | h
  · simp [h]
  · simp [Nat.not_le.2 h]

theorem does_sof_late {sof : List Bool} {sofT : Nat} {fofs : BitVec 12} {tofs codes : Byte} (hr : Running s) (htech : (s.pr p).tech ≠ 6)
    (hwait : (s.pr p).state = .sofWait) (hlate : s.sofEnd p < s.time) (hp : P ((s.rearm p (s.pr p).captured).falseLock p)) :
    Does (.sofDetected p sof sofT fofs tofs codes) s P :=
  does_running (o := execSofDetected p sof sofT fofs tofs codes s) rfl rfl hr (if_pos ⟨hwait, htech, hlate⟩) hp

/-- The receiver in the frame whose start it has seen. -/
def State.framed (s : State) (p : Port) (sofT : Nat) (fofs : BitVec 12) (tofs : Byte) : State :=
  let f := if (s.pr p).hasAfc then fofs.toNat else 0
  (s.modR p fun y => { y with state := .frame, sofT := sofT, fofs := f }).shownAfc p (s.pr p).hasAfc f tofs.toNat 1

theorem does_sof_good {sof : List Bool} {sofT : Nat} {fofs : BitVec 12} {tofs codes : Byte} (hr : Running s) (htech : (s.pr p).tech ≠ 6)
    (hwait : (s.pr p).state = .sofWait) (htime : s.time ≤ s.sofEnd p)
    (hword : (sofWord (s.pr p).tech (s.pr p).rate).all (fun w => decide (sof = w)) = true)
    (hp : P (if (s.pr p).hasAfc && beyondAfc fofs then (s.framed p sofT fofs tofs).outOfRange p codes RxData.none else s.framed p sofT fofs tofs)) :
    Does (.sofDetected p sof sofT fofs tofs codes) s P := by
  refine does_running (o := execSofDetected p sof sofT fofs tofs codes s) rfl rfl hr ?_ hp
  simp [hwait, htech, htime, hword, Nat.not_lt.2 htime, State.framed, State.shownAfc]

theorem does_sofExpiry (hr : Running s) (hwait : (s.pr p).state = .sofWait)
    (hp : P (((s.advance (s.sofEnd p)).rearm p (s.pr p).captured).falseLock p)) : Does (.sofWindowExpiry p) s P :=
  does_running (o := execSofWindowExpiry p s) rfl rfl hr (if_pos hwait) hp

theorem does_energyStep_waiting {recent before : Nat} {rx : RxData} (hr : Running s) (htech : (s.pr p).tech ≠ 6)
    (hwait : (s.pr p).state = .sofWait) (hstep : s.stepped p recent before = true) (hp : P (s.rearm p true)) :
    Does (.energyStep p recent before rx) s P := by
  refine does_running (o := execEnergyStep p recent before rx s) rfl rfl hr ?_ hp
  simp [htech, hstep, hwait]

end

/-! ### A reception kept as the exchange's earlier one (R152, R157) -/

theorem noteDelivered_within (n ending : Nat) (rx : RxData) (d : Delivered) : Within ⟨[.regs, .obs], lastRegs, []⟩ s (s.noteDelivered n ending rx d) :=
  within_noteDelivered s n ending rx d (.refl _) (.refl _ s)

theorem rxeOf_deliverOpen (e : Nat) (rx : RxData) (c : Bool) : RxeOf p s (s.deliverOpen p e rx c) := by
  unfold State.deliverOpen
  split
  · refine RxeOf.trans (RxeOf.of_rxe ?_) (rxeOf_modR _ p _)
    exact (noteDelivered_within s p e rx _).parts .rxe (by decide)
  · split
    · refine RxeOf.trans (RxeOf.of_rxe ?_) (rxeOf_modR _ p _)
      exact (within_deliverListen s p e rx (.refl _) (.refl _ s)).parts .rxe (by decide)
    · exact .refl _ _

/-- With an exchange in progress the receiver is armed again. -/
theorem deliverOpen_armed {x : Exchange} (e : Nat) (rx : RxData) (c : Bool) (hx : (s.pp p).xch = some x) :
    ((s.deliverOpen p e rx c).pr p).state = .armed := by
  simp only [State.deliverOpen, hx]
  rw [State.rearm, pr_modR_same]

theorem pp_modR_shownAfc (f : PortR → PortR) (afc : Bool) (fofs tofs frozen : Nat) (m : Nat) :
    ((s.modR p f).shownAfc p afc fofs tofs frozen).pp m = s.pp m := by
  have hpro : ((s.modR p f).shownAfc p afc fofs tofs frozen).pro = s.pro := (modR_shownAfc s p f afc fofs tofs frozen).2.2.2 .pro (by decide)
  rw [State.pp, hpro, State.pp]

theorem framed_pr (sofT : Nat) (fofs : BitVec 12) (tofs : Byte) : (s.framed p sofT fofs tofs).pr p =
    { s.pr p with state := .frame, sofT := sofT, fofs := if (s.pr p).hasAfc then fofs.toNat else 0 } := (modR_shownAfc s p _ _ _ _ _).1

theorem framed_others (sofT : Nat) (fofs : BitVec 12) (tofs : Byte) :
    RegsBut [Reg.RXE_P_AFC p] s (s.framed p sofT fofs tofs) ∧ RxeOf p s (s.framed p sofT fofs tofs) ∧ Keeps [.regs, .rxe] s (s.framed p sofT fofs tofs) :=
  (modR_shownAfc s p _ _ _ _ _).2

theorem framed_shows (h : (s.pr p).hasAfc = true) (sofT : Nat) (fofs : BitVec 12) (tofs : Byte) :
    (s.framed p sofT fofs tofs).fld (Reg.RXE_P_AFC p) Fld.RXE_P_AFC_FOFS = fofs.toNat ∧
    (s.framed p sofT fofs tofs).fld (Reg.RXE_P_AFC p) Fld.RXE_P_AFC_TOFS = tofs.toNat ∧
    (s.framed p sofT fofs tofs).fld (Reg.RXE_P_AFC p) Fld.RXE_P_AFC_FROZEN = 1 := by
  simp only [State.framed, if_pos h]
  exact shownAfc_shows _ p h fofs tofs (by decide)

theorem framed_hides (h : (s.pr p).hasAfc = false) (sofT : Nat) (fofs : BitVec 12) (tofs : Byte) :
    (s.framed p sofT fofs tofs).reg (Reg.RXE_P_AFC p) = s.reg (Reg.RXE_P_AFC p) := by
  rw [State.framed, shownAfc_none _ _ h]
  rfl

/-- Beyond the range of AFC the reception is given up. -/
theorem framed_outOfRange (htech : (s.pr p).tech ≠ 6) (sofT : Nat) (fofs : BitVec 12) (tofs codes : Byte) :
    let t := (s.framed p sofT fofs tofs).outOfRange p codes RxData.none
    (∀ x, (s.pp p).xch = some x → (t.pr p).state = .armed) ∧ RxeOf p s t ∧ Posted 0x4003 .top 0 t := by
  have tech : ((s.framed p sofT fofs tofs).pr p).tech ≠ 6 := by rwa [framed_pr]
  simp only [State.outOfRange, if_neg tech]
  refine ⟨fun x hx => ?_, (framed_others s p sofT fofs tofs).2.1.trans (rxeOf_deliverOpen _ p 2 _ _), posted_post _ _ _ _⟩
  exact deliverOpen_armed _ p 2 _ _ ((congrArg PortP.xch (pp_modR_shownAfc s p _ _ _ _ _ p)).trans hx)

/-- Settles O24, a state after each of the four commands at a time. -/
theorem receiverFollowsTheSignal : Obligations.ReceiverFollowsTheSignal := by
  refine ⟨?_, ?_, ?_, ?_, ?_, ?_, ?_⟩
  · intro s p power length more fofs tofs codes hr htech harmed hpower hlen
    refine does_preamble hr htech harmed (decide_eq_true hpower) hlen ?_
    obtain ⟨hpr, hregs, hrxe, hkeeps⟩ := modR_shownAfc s p (fun y => { y with state := .sofWait, blanked := s.blankOn p, preEnd := s.time + s.fc more, refAt := s.time })
      (s.pr p).hasAfc fofs.toNat tofs.toNat 0
    refine ⟨hpr, fun h => shownAfc_shows _ p h fofs tofs (by decide), fun h => ?_, hregs, hrxe, hkeeps⟩
    rw [shownAfc_none _ _ h]
    rfl
  · intro s p power length more fofs tofs codes hr h
    exact does_preamble_weak hr (h.imp (fun h => decide_eq_false (Nat.not_le.2 h)) id) rfl
  · intro s p sof sofT fofs tofs codes hr htech hwait htime hword hafc
    refine does_sof_good hr htech hwait htime hword ?_
    have inRange : ¬ ((s.pr p).hasAfc && beyondAfc fofs) = true := by
      cases h : (s.pr p).hasAfc
      · simp
      · simp [hafc h]
    rw [if_neg inRange]
    obtain ⟨hregs, hrxe, hkeeps⟩ := framed_others s p sofT fofs tofs
    rw [framed_pr]
    exact ⟨rfl, rfl, rfl, fun h => framed_shows s p h sofT fofs tofs, fun h => framed_hides s p h sofT fofs tofs, hregs, hrxe, hkeeps⟩
  · intro s p sof sofT fofs tofs codes hr htech hwait htime hword hafc hbeyond
    refine does_sof_good hr htech hwait htime hword ?_
    rw [hafc, hbeyond, Bool.and_self, if_pos rfl]
    exact framed_outOfRange s p htech sofT fofs tofs codes
  · intro s p sof sofT fofs tofs codes hr htech hwait hlate
    exact does_sof_late hr htech hwait hlate (rearm_falseLock s p (s.pr p).captured)
  · intro s p hr hwait
    refine does_sofExpiry hr hwait ?_
    obtain ⟨hpr, hcount, hbits, hregs, hrxe, hkeeps⟩ := rearm_falseLock (s.advance (s.sofEnd p)) p (s.pr p).captured
    obtain ⟨hsame, -⟩ := advance_reads s (s.sofEnd p)
    have receivers (m : Nat) : (s.advance (s.sofEnd p)).pr m = s.pr m := by simp
    rw [receivers, advance_time] at hpr
    rw [fld_of_reg (hsame _)] at hcount
    refine ⟨hpr, hcount, (BitsBut.of_reg (hsame _)).trans hbits, hregs.of_advance, (RxeOf.of_rxe (by simp)).trans hrxe, ?_⟩
    exact hkeeps.passes
  · intro s p recent before rx hr htech hwait hstep
    exact does_energyStep_waiting hr htech hwait hstep ⟨pr_modR_same s p _, rxeOf_modR s p _, keeps_modR s p _⟩

end Sys2Proof.Machine

/-! What the end of a host frame's exchange leaves (R184, R190, R193): its completion, its result, the receiver. -/

namespace Sys2Proof.Machine

variable (s : State) (p : Port)

/-! ### A completion (R193, R195) -/

/-- Nothing of the protocol engine changes but what is staged at one port. -/
def StagedOnly (p : Nat) (s t : State) : Prop :=
  t.pp p = { s.pp p with staged := (t.pp p).staged, pushing := (t.pp p).pushing } ∧ ProOf p s t

theorem StagedOnly.of_pro {p : Nat} {s t : State} (h : t.pro = s.pro) : StagedOnly p s t := ⟨by rw [pp_of_pro h], .of_pro h⟩

theorem StagedOnly.trans {p : Nat} {s t u : State} (h : StagedOnly p s t) (k : StagedOnly p t u) : StagedOnly p s u :=
  ⟨by rw [k.1, h.1], h.2.trans k.2⟩

theorem stagedOnly_modP (st : PortP → List (List Word)) : StagedOnly p s (s.modP p fun x => { x with staged := st x }) :=
  ⟨by rw [pp_modP_same], proOf_modP s p _⟩

theorem stagedOnly_drainStaged (part : Bool) (l : List (List Word)) : StagedOnly p s (s.drainStaged p part l) := by
  induction l generalizing s part with
  | nil => exact ⟨by rw [State.drainStaged, pp_modP_same], proOf_modP s p _⟩
  | cons ws t ih =>
    have pushed : StagedOnly p s (s.pushRxs p ws).1 :=
      .of_pro ((within_pushRxs s p ws (.refl _) (.refl _ s)).parts .pro (by decide))
    rw [State.drainStaged]
    split
    · exact pushed.trans (ih _ _)
    · exact pushed.trans ⟨by rw [pp_modP_same], proOf_modP _ p _⟩

/-- The registers that a completion writes: its counts and the word of its result. -/
def State.completed (s : State) (p : Port) (result : Nat) (prs : Word) : State :=
  let u := s.bump (Reg.PRO_P_COUNTS p) Fld.PRO_P_COUNTS_DONE
  (if result = 0 then u else u.bump (Reg.PRO_P_COUNTS p) Fld.PRO_P_COUNTS_NOT_OK).setReg (Reg.PRO_P_LAST_PRS p) prs

theorem lastPrs_ne_counts : Reg.PRO_P_COUNTS p ≠ Reg.PRO_P_LAST_PRS p := ownReg_ne

theorem completed_within (result : Nat) (prs : Word) :
    Within ⟨[.regs], [Reg.PRO_P_COUNTS p, Reg.PRO_P_LAST_PRS p].map one, []⟩ s (s.completed p result prs) := by
  unfold State.completed
  refine within_setReg _ _ (.of_named (by simp)) ?_
  split
  · exact within_bump _ _ (.of_named (by simp)) (.refl _ s)
  · exact within_bump _ _ (.of_named (by simp)) (within_bump _ _ (.of_named (by simp)) (.refl _ s))

theorem completed_prs (result : Nat) (prs : Word) : (s.completed p result prs).reg (Reg.PRO_P_LAST_PRS p) = prs := reg_setReg_same _ _ _

theorem completed_done (result : Nat) (prs : Word) : (s.completed p result prs).fld (Reg.PRO_P_COUNTS p) Fld.PRO_P_COUNTS_DONE =
    satAdd 65535 (s.fld (Reg.PRO_P_COUNTS p) Fld.PRO_P_COUNTS_DONE) 1 := by
  have done := fld_bump16 s (Reg.PRO_P_COUNTS p) Fld.PRO_P_COUNTS_DONE rfl (by decide)
  rw [State.completed, fld_setReg_ne _ _ _ _ _ (lastPrs_ne_counts p)]
  split
  · exact done
  · exact (fld_setFld_other _ _ _ _ _ (by decide) (by decide)).trans done

theorem completed_notOk {result : Nat} (prs : Word) (h : result ≠ 0) : (s.completed p result prs).fld (Reg.PRO_P_COUNTS p) Fld.PRO_P_COUNTS_NOT_OK =
    satAdd 65535 (s.fld (Reg.PRO_P_COUNTS p) Fld.PRO_P_COUNTS_NOT_OK) 1 := by
  have kept : (s.bump (Reg.PRO_P_COUNTS p) Fld.PRO_P_COUNTS_DONE).fld (Reg.PRO_P_COUNTS p) Fld.PRO_P_COUNTS_NOT_OK =
      s.fld (Reg.PRO_P_COUNTS p) Fld.PRO_P_COUNTS_NOT_OK := fld_setFld_other _ _ _ _ _ (by decide) (by decide)
  rw [State.completed, fld_setReg_ne _ _ _ _ _ (lastPrs_ne_counts p), if_neg h, fld_bump16 _ _ _ rfl (by decide), kept]

section
variable (tag : Nat) (bytes : List Byte) (lastBits result : Nat) (prs r0 r1 r2 : Word)

/-- The state with a completion staged, before words of it are pushed. -/
def State.stagedCompletion (s : State) (p : Port) (tag : Nat) (bytes : List Byte) (lastBits result : Nat) (prs r0 r1 r2 : Word) : State :=
  let s1 := s.bump (Reg.PRO_P_COUNTS p) Fld.PRO_P_COUNTS_DONE
  let s2 := if result = 0 then s1 else s1.bump (Reg.PRO_P_COUNTS p) Fld.PRO_P_COUNTS_NOT_OK
  let s3 := if 2 ≤ result ∧ result ≤ 4 then s2.count (56 + p) else s2
  (s3.setReg (Reg.PRO_P_LAST_PRS p) prs).modP p fun x => { x with staged := x.staged ++ [complWords tag bytes lastBits prs r0 r1 r2] }

theorem complete_eq : s.complete p tag bytes lastBits result prs r0 r1 r2 =
    (s.stagedCompletion p tag bytes lastBits result prs r0 r1 r2).pushStaged p := rfl

theorem stagedCompletion_regs : (s.stagedCompletion p tag bytes lastBits result prs r0 r1 r2).regs = (s.completed p result prs).regs := by
  unfold State.stagedCompletion State.completed
  dsimp only
  split_ifs <;> rfl

theorem complete_reg (a : Nat) : (s.complete p tag bytes lastBits result prs r0 r1 r2).reg a = (s.completed p result prs).reg a := by
  rw [complete_eq, (within_pushStaged _ p (.refl _) (.refl _ _)).regs_same]
  exact reg_of_regs (stagedCompletion_regs s p tag bytes lastBits result prs r0 r1 r2) a

theorem keeps_complete : Keeps [.regs, .que, .pro, .obs] s (s.complete p tag bytes lastBits result prs r0 r1 r2) :=
  (within_complete s p tag bytes lastBits result prs r0 r1 r2 (.refl _) (.refl _ s)).parts

theorem stagedOnly_complete : StagedOnly p s (s.complete p tag bytes lastBits result prs r0 r1 r2) := by
  rw [complete_eq]
  refine .trans (.trans (.of_pro ?_) (stagedOnly_modP _ p _)) (stagedOnly_drainStaged _ p _ _)
  split_ifs <;> rfl

end

/-! ### An exchange that ends (R193) -/

/-- The registers that the end of a reception shows: the freeze of AFC's estimates ends. -/
theorem rxIdle_within : Within ⟨[.regs, .rxe], [Reg.RXE_P_AFC p].map one, []⟩ s (s.rxIdle p) :=
  within_setFld _ _ _ (.of_named (by simp)) (within_modR s p _ .of_none (.refl _ s))

theorem rxIdle_pr : (s.rxIdle p).pr p = { s.pr p with state := .idle, captured := false, blanked := false, listening := false, calmFrom := s.time } :=
  pr_modR_same s p _

theorem rxeOf_rxIdle : RxeOf p s (s.rxIdle p) := rxeOf_modR s p _

/-- What closing an exchange leaves of the port: no exchange, no window, the receiver at rest. -/
structure Closed (p : Port) (s t : State) : Prop where
  receiver : (t.pr p).state = .idle
  exchange : (t.pp p).xch = none
  rxe : RxeOf p s t
  pro : ProOf p s t

theorem closeExchange_closed (tech : Nat) : Closed p s (s.closeExchange p tech) where
  receiver := by
    have idle := rxIdle_pr s p
    exact congrArg PortR.state idle
  exchange := congrArg PortP.xch (pp_modP_same _ p _)
  rxe := rxeOf_rxIdle s p
  pro := proOf_modP s p _

theorem closeExchange_within (tech : Nat) :
    Within ⟨[.regs, .field, .rxe, .pro, .cox], [Reg.RXE_P_AFC p].map one, []⟩ s (s.closeExchange p tech) :=
  within_modX _ p _ .of_none (within_modP _ p _ .of_none (within_modF _ p _ .of_none ((rxIdle_within s p).mono .of_parts)))

theorem Closed.of_parts {s t u : State} (h : Closed p s t) (hr : u.rxe = t.rxe) (hp : u.pro = t.pro) : Closed p s u where
  receiver := by rw [pr_of_rxe hr]; exact h.receiver
  exchange := by rw [pp_of_pro hp]; exact h.exchange
  rxe := h.rxe.trans (.of_rxe hr)
  pro := h.pro.trans (.of_pro hp)

theorem Closed.complete {s t : State} (h : Closed p s t) (tag : Nat) (bytes : List Byte) (lastBits result : Nat) (prs r0 r1 r2 : Word) :
    Closed p s (t.complete p tag bytes lastBits result prs r0 r1 r2) := by
  obtain ⟨same, others⟩ := stagedOnly_complete t p tag bytes lastBits result prs r0 r1 r2
  have rxe : (t.complete p tag bytes lastBits result prs r0 r1 r2).rxe = t.rxe := keeps_complete t p tag bytes lastBits result prs r0 r1 r2 .rxe (by decide)
  exact ⟨by rw [pr_of_rxe rxe]; exact h.receiver, by rw [same]; exact h.exchange, h.rxe.trans (.of_rxe rxe), h.pro.trans others⟩

theorem Closed.holdAfter {s t : State} (h : Closed p s t) (hold : Bool) : Closed p s (t.holdAfter p hold) where
  receiver := h.receiver
  exchange := by rw [State.holdAfter, pp_modP_same]; exact h.exchange
  rxe := h.rxe
  pro := h.pro.trans (proOf_modP t p _)

/-- What the end of a host frame's exchange with `result` leaves. -/
structure HostOver (p : Port) (result : Nat) (prs : Word) (s t : State) : Prop where
  closed : Closed p s t
  prs : t.reg (Reg.PRO_P_LAST_PRS p) = prs
  done : t.fld (Reg.PRO_P_COUNTS p) Fld.PRO_P_COUNTS_DONE = satAdd 65535 (s.fld (Reg.PRO_P_COUNTS p) Fld.PRO_P_COUNTS_DONE) 1
  notOk : result ≠ 0 → t.fld (Reg.PRO_P_COUNTS p) Fld.PRO_P_COUNTS_NOT_OK = satAdd 65535 (s.fld (Reg.PRO_P_COUNTS p) Fld.PRO_P_COUNTS_NOT_OK) 1
  regs : RegsBut [Reg.RXE_P_AFC p, Reg.PRO_P_COUNTS p, Reg.PRO_P_LAST_PRS p] s t
  keeps : Keeps [.regs, .que, .field, .rxe, .pro, .cox, .obs] s t

/-- Closing, completing and holding, before the port's radio goes on. -/
theorem hostOver_held (tech tag : Nat) (bytes : List Byte) (lastBits result : Nat) (prs r0 r1 r2 : Word) (hold : Bool) :
    HostOver p result prs s (((s.closeExchange p tech).complete p tag bytes lastBits result prs r0 r1 r2).holdAfter p hold) := by
  obtain ⟨u, hu⟩ : ∃ u, u = s.closeExchange p tech := ⟨_, rfl⟩
  have closing : Within _ s u := hu ▸ closeExchange_within s p tech
  have completing := (completed_within u p result prs).regsBut
  have regs (a : Nat) : ((u.complete p tag bytes lastBits result prs r0 r1 r2).holdAfter p hold).reg a = (u.completed p result prs).reg a :=
    complete_reg u p tag bytes lastBits result prs r0 r1 r2 a
  have counts (f : Field) : u.fld (Reg.PRO_P_COUNTS p) f = s.fld (Reg.PRO_P_COUNTS p) f :=
    fld_of_reg (closing.regsBut _ (by simp)) f
  rw [← hu]
  refine ⟨((hu ▸ closeExchange_closed s p tech : Closed p s u).complete p tag bytes lastBits result prs r0 r1 r2).holdAfter p hold, ?_, ?_, ?_, ?_, ?_⟩
  · rw [regs, completed_prs]
  · rw [fld_of_reg (regs _), completed_done, counts]
  · intro h
    rw [fld_of_reg (regs _), completed_notOk _ _ _ h, counts]
  · intro a ha
    rw [regs, completing a (by aesop), closing.regsBut a (by aesop)]
  · exact (closing.parts.join (keeps_complete u p tag bytes lastBits result prs r0 r1 r2) (by simp)).trans ((keeps_modP _ p _).mono (by decide))

theorem HostOver.of_field {result : Nat} {prs : Word} {s t u : State} (h : HostOver p result prs s t) (k : Within ⟨[.field, .obs], [], []⟩ t u) :
    HostOver p result prs s u where
  closed := h.closed.of_parts p (k.parts .rxe (by decide)) (k.parts .pro (by decide))
  prs := (k.regs_same _).trans h.prs
  done := (fld_of_reg (k.regs_same _) _).trans h.done
  notOk hr := (fld_of_reg (k.regs_same _) _).trans (h.notOk hr)
  regs := h.regs.trans fun a _ => k.regs_same a
  keeps := h.keeps.join k.parts

theorem radioGoesOn_within : Within ⟨[.field, .obs], [], []⟩ s (((s.returnState p).endListen p).tryOffs) := by
  have returned := within_returnState s p (.refl _) (.refl _ s)
  exact within_tryOffs _ (.refl _) (within_endListen _ p .of_none returned)

theorem HostOver.goesOn {p : Port} {result : Nat} {prs : Word} {s u : State} (h : HostOver p result prs s u) :
    HostOver p result prs s (((u.returnState p).endListen p).tryOffs) := by
  have field := radioGoesOn_within u p
  exact HostOver.of_field (p := p) h field

theorem endExchange_host {x : Exchange} (hx : (s.pp p).xch = some x) (hf : x.plan.frame.purpose = .host) (result : Nat) (d : Option Delivered)
    (coll : Option Nat) (hw : HwFault) :
    HostOver p result (x.prs result ((d.map (·.early)).getD false)) s (s.endExchange p result d coll hw) := by
  simp only [State.endExchange, hx, if_pos hf]
  cases d <;> exact (hostOver_held s p _ _ _ _ _ _ _ _ _ _).goesOn

end Sys2Proof.Machine

/-! Receptions that end (O25): overtaken, out of range of AFC, ended, cut off by the window's limit. -/

namespace Sys2Proof.Machine

variable (s : State) (p : Port)

/-! ### The status words of a reception (R190) -/

/-- The registers that show a reception. -/
def lastOf (p : Port) : List Nat := [Reg.RXE_P_LAST0 p, Reg.RXE_P_LAST1 p, Reg.RXE_P_LAST2 p]

theorem noteRx_regs (n ending : Nat) (clip : Bool) (r0 r1 r2 : Word) (a : Nat) : (s.noteRx n ending clip r0 r1 r2).reg a =
    (((s.setReg (Reg.RXE_P_LAST0 n) r0).setReg (Reg.RXE_P_LAST1 n) r1).setReg (Reg.RXE_P_LAST2 n) r2).reg a := by
  unfold State.noteRx
  dsimp only
  split_ifs <;> simp

/-- What noting a reception changes at most. -/
theorem noteDelivered_lasts (ending : Nat) (rx : RxData) (d : Delivered) : RegsBut (lastOf p) s (s.noteDelivered p ending rx d) := by
  intro a ha
  simp only [lastOf, List.mem_cons, List.not_mem_nil, or_false, not_or] at ha
  obtain ⟨h0, h1, h2⟩ := ha
  rw [State.noteDelivered, noteRx_regs, reg_setReg_ne _ _ _ _ h2, reg_setReg_ne _ _ _ _ h1, reg_setReg_ne _ _ _ _ h0]

theorem noteDelivered_shows (ending : Nat) (rx : RxData) (d : Delivered) :
    (s.noteDelivered p ending rx d).reg (Reg.RXE_P_LAST0 p) = d.rxs0 ∧ (s.noteDelivered p ending rx d).reg (Reg.RXE_P_LAST1 p) = d.rxs1 ∧
    (s.noteDelivered p ending rx d).reg (Reg.RXE_P_LAST2 p) = d.rxs2 := by
  refine ⟨?_, ?_, ?_⟩ <;> rw [State.noteDelivered, noteRx_regs]
  · rw [reg_setReg_ne _ _ _ _ ownReg_ne, reg_setReg_ne _ _ _ _ ownReg_ne, reg_setReg_same]
  · rw [reg_setReg_ne _ _ _ _ ownReg_ne, reg_setReg_same]
  · rw [reg_setReg_same]

/-- A reception of the exchange `x` kept as its earlier one, the receiver armed again. -/
structure Kept (p : Port) (x : Exchange) (d : Delivered) (c : Bool) (l : List Nat) (s t : State) : Prop where
  exchange : (t.pp p).xch = some { x with earlier := some d }
  armed : (t.pr p).state = .armed
  captured : (t.pr p).captured = c
  last0 : t.reg (Reg.RXE_P_LAST0 p) = d.rxs0
  last1 : t.reg (Reg.RXE_P_LAST1 p) = d.rxs1
  last2 : t.reg (Reg.RXE_P_LAST2 p) = d.rxs2
  regs : RegsBut l s t
  rxe : RxeOf p s t
  pro : ProOf p s t
  keeps : Keeps [.regs, .rxe, .pro, .obs] s t

theorem deliverOpen_kept {x : Exchange} (hx : (s.pp p).xch = some x) (e : Nat) (rx : RxData) (c : Bool) :
    Kept p x (s.deliver p x.plan.frame e rx) c (lastOf p) s (s.deliverOpen p e rx c) := by
  simp only [State.deliverOpen, hx]
  obtain ⟨d, hd⟩ : ∃ d, d = s.deliver p x.plan.frame e rx := ⟨_, rfl⟩
  obtain ⟨u, hu⟩ : ∃ u, u = s.noteDelivered p e rx d := ⟨_, rfl⟩
  obtain ⟨h0, h1, h2⟩ := noteDelivered_shows s p e rx d
  have keeps := (noteDelivered_within s p e rx d).parts
  have regs := noteDelivered_lasts s p e rx d
  rw [← hu] at h0 h1 h2 keeps regs
  rw [← hd, ← hu]
  refine ⟨?_, ?_, ?_, h0, h1, h2, regs, (RxeOf.of_rxe (keeps .rxe (by decide))).trans (rxeOf_modR _ p _),
    (ProOf.of_pro (keeps .pro (by decide))).trans (proOf_modP u p _), ?_⟩
  · exact congrArg PortP.xch (pp_modP_same u p _)
  · exact congrArg PortR.state (pr_modR_same _ p _)
  · exact congrArg PortR.captured (pr_modR_same _ p _)
  · exact (keeps.join (keeps_modP u p _) (r := [.regs, .rxe, .pro, .obs])).trans ((keeps_modR _ p _).mono (by decide))

theorem counts_not_last : Reg.RXE_P_COUNTS p ∉ lastOf p := by
  have h0 : Reg.RXE_P_COUNTS p ≠ Reg.RXE_P_LAST0 p := ownReg_ne
  have h1 : Reg.RXE_P_COUNTS p ≠ Reg.RXE_P_LAST1 p := ownReg_ne
  have h2 : Reg.RXE_P_COUNTS p ≠ Reg.RXE_P_LAST2 p := ownReg_ne
  simp only [lastOf, List.mem_cons, List.not_mem_nil, not_or]
  exact ⟨h0, h1, h2, not_false⟩

/-- A reception overtaken is kept and counted. -/
theorem Kept.overtaken {p : Port} {x : Exchange} {d : Delivered} {c : Bool} {s u : State} (h : Kept p x d c (lastOf p) s u) :
    let t := (u.bump (Reg.RXE_P_COUNTS p) Fld.RXE_P_COUNTS_OVERTAKES).post 0x4002 .top 0
    Kept p x d c [Reg.RXE_P_LAST0 p, Reg.RXE_P_LAST1 p, Reg.RXE_P_LAST2 p, Reg.RXE_P_COUNTS p] s t ∧
    t.fld (Reg.RXE_P_COUNTS p) Fld.RXE_P_COUNTS_OVERTAKES = satAdd 65535 (s.fld (Reg.RXE_P_COUNTS p) Fld.RXE_P_COUNTS_OVERTAKES) 1 := by
  obtain ⟨hxch, harmed, hcapt, h0, h1, h2, hregs, hrxe, hpro, hkeeps⟩ := h
  have bumped : RegsBut [Reg.RXE_P_COUNTS p] u (u.bump (Reg.RXE_P_COUNTS p) Fld.RXE_P_COUNTS_OVERTAKES) :=
    (within_bump (Reg.RXE_P_COUNTS p) Fld.RXE_P_COUNTS_OVERTAKES (.refl _) (.refl _ u)).regsBut (l := [Reg.RXE_P_COUNTS p])
  have last (a : Nat) (ha : a ∈ lastOf p) : (u.bump (Reg.RXE_P_COUNTS p) Fld.RXE_P_COUNTS_OVERTAKES).reg a = u.reg a :=
    bumped a fun h => counts_not_last p (List.mem_singleton.1 h ▸ ha)
  have counted : Within ⟨[.regs, .obs], [one (Reg.RXE_P_COUNTS p)], []⟩ u
      ((u.bump (Reg.RXE_P_COUNTS p) Fld.RXE_P_COUNTS_OVERTAKES).post 0x4002 .top 0) :=
    within_post .of_none (within_bump _ _ .of_parts (.refl _ u)) _ _ _
  refine ⟨⟨hxch, harmed, hcapt, (last _ (by simp [lastOf])).trans h0, (last _ (by simp [lastOf])).trans h1, (last _ (by simp [lastOf])).trans h2,
    ?_, hrxe, hpro, hkeeps.trans (counted.parts.mono (by simp))⟩, ?_⟩
  · exact (hregs.mono (by simp +contextual [lastOf])).trans (bumped.mono (by simp))
  · refine (fld_bump16 u (Reg.RXE_P_COUNTS p) Fld.RXE_P_COUNTS_OVERTAKES rfl (by decide)).trans ?_
    rw [fld_of_reg (hregs _ (counts_not_last p))]

/-! ### The commands -/

section
variable {s p} {P : State → Prop} {rx : RxData} {x : Exchange}

theorem does_energyStep_overtaken {recent before : Nat} (hr : Running s) (htech : (s.pr p).tech ≠ 6) (hframe : (s.pr p).state = .frame)
    (hen : s.flag (Reg.RXE_P_CTRL p) Fld.RXE_P_CTRL_CAPTURE_EN = true) (hstep : s.stepped p recent before = true)
    (hp : P (((s.deliverOpen p 1 rx true).bump (Reg.RXE_P_COUNTS p) Fld.RXE_P_COUNTS_OVERTAKES).post 0x4002 .top 0)) :
    Does (.energyStep p recent before rx) s P := by
  refine does_running (o := execEnergyStep p recent before rx s) rfl rfl hr ?_ hp
  simp [htech, hstep, hframe, hen]

theorem does_afcRange {codes : Byte} (hr : Running s) (hafc : (s.pr p).hasAfc = true) (hstate : (s.pr p).state = .sofWait ∨ (s.pr p).state = .frame)
    (hp : P (s.outOfRange p codes rx)) : Does (.afcRange p codes rx) s P := by
  refine does_running (o := execAfcRange p codes rx s) rfl rfl hr (if_neg ?_) hp
  rcases hstate with h | h <;> simp [hafc, h]

theorem does_frameEnd {ending : RxEnd} {hw : HwFault} (hr : Running s) (htech : (s.pr p).tech ≠ 6) (hframe : (s.pr p).state = .frame)
    (hx : (s.pp p).xch = some x) (hpurpose : x.plan.frame.purpose = .host)
    (hp : P (s.deliverClose p (s.rxEnding p x.plan.frame.splitBits ending rx) x rx hw)) : Does (.frameEnd p ending rx hw) s P := by
  refine does_running (o := execFrameEnd p ending rx hw s) rfl rfl hr ?_ hp
  simp [htech, hframe, hx, hpurpose]

theorem does_windowLimit {w : Nat} (hr : Running s) (hw : (s.pf p).window = some w) (hx : (s.pp p).xch = some x) (hpoll : (s.pa p).poll = none)
    (harmed : (s.pr p).state = .armed) (hearlier : x.earlier = none) (hp : P ((s.advance w).endExchange p 1 none none .none)) :
    Does (.rxWindowLimit p rx) s P := by
  refine does_running (o := execRxWindowLimit p rx s) rfl rfl hr ?_ hp
  have hpa : (s.advance w).pa p = s.pa p := by simp
  have hpr : (s.advance w).pr p = s.pr p := by simp
  simp [hw, hx, hpa, hpr, hpoll, harmed, hearlier]

end

theorem last_not_over (a : Nat) (ha : a ∈ lastOf p) : a ∉ [Reg.RXE_P_AFC p, Reg.PRO_P_COUNTS p, Reg.PRO_P_LAST_PRS p] := by
  simp only [lastOf, List.mem_cons, List.not_mem_nil, or_false] at ha
  rcases ha with rfl | rfl | rfl <;> simp

/-- A frame that ends is shown and completes its exchange. -/
theorem deliverClose_over {x : Exchange} (hx : (s.pp p).xch = some x) (hpurpose : x.plan.frame.purpose = .host) (e : Nat) (rx : RxData) (hw : HwFault) :
    let d := s.deliver p x.plan.frame e rx
    let t := s.deliverClose p e x rx hw
    (t.pp p).xch = none ∧ (t.pr p).state = .idle ∧ t.reg (Reg.RXE_P_LAST0 p) = d.rxs0 ∧ t.reg (Reg.RXE_P_LAST1 p) = d.rxs1 ∧
    t.reg (Reg.RXE_P_LAST2 p) = d.rxs2 ∧ t.reg (Reg.PRO_P_LAST_PRS p) = x.prs d.result d.early ∧
    t.fld (Reg.PRO_P_COUNTS p) Fld.PRO_P_COUNTS_DONE = satAdd 65535 (s.fld (Reg.PRO_P_COUNTS p) Fld.PRO_P_COUNTS_DONE) 1 ∧
    RxeOf p s t ∧ ProOf p s t ∧ Keeps [.regs, .que, .field, .rxe, .pro, .cox, .obs] s t := by
  obtain ⟨d, hd⟩ : ∃ d, d = s.deliver p x.plan.frame e rx := ⟨_, rfl⟩
  obtain ⟨u, hu⟩ : ∃ u, u = s.noteDelivered p e rx d := ⟨_, rfl⟩
  obtain ⟨h0, h1, h2⟩ := noteDelivered_shows s p e rx d
  have noted := noteDelivered_lasts s p e rx d
  have keeps := (noteDelivered_within s p e rx d).parts
  simp only [State.deliverClose, ← hd, ← hu] at h0 h1 h2 noted keeps ⊢
  have hx' : (u.pp p).xch = some x := by rwa [pp_of_pro (keeps .pro (by decide))]
  obtain ⟨⟨hidle, hxch, hrxe, hpro⟩, hprs, hdone, -, hregs, hkeeps⟩ := endExchange_host u p hx' hpurpose d.result (some d)
    (((s.assemble p x.plan.frame.splitBits rx).coll).map fun c => x.plan.frame.splitBits + c) hw
  have last (a : Nat) (ha : a ∈ lastOf p) : (u.endExchange p d.result (some d)
      (((s.assemble p x.plan.frame.splitBits rx).coll).map fun c => x.plan.frame.splitBits + c) hw).reg a = u.reg a :=
    hregs a fun h => (last_not_over p a ha) h
  refine ⟨hxch, hidle, ?_, ?_, ?_, hprs, ?_, (RxeOf.of_rxe (keeps .rxe (by decide))).trans hrxe, (ProOf.of_pro (keeps .pro (by decide))).trans hpro, ?_⟩
  · exact (last _ (by simp [lastOf])).trans h0
  · exact (last _ (by simp [lastOf])).trans h1
  · exact (last _ (by simp [lastOf])).trans h2
  · rw [hdone, fld_of_reg (noted _ (by simp [lastOf]))]
  · exact keeps.join hkeeps

/-- Settles O25. What is kept, and what the end of a host frame's exchange leaves, are the laws above. -/
theorem receptionsEnd : Obligations.ReceptionsEnd := by
  refine ⟨?_, ?_, ?_, ?_, ?_⟩
  · intro s p recent before rx x hr htech hframe hx hen hstep
    refine does_energyStep_overtaken hr htech hframe hen hstep ?_
    obtain ⟨⟨hxch, harmed, hcapt, h0, h1, h2, hregs, hrxe, hpro, hkeeps⟩, hcount⟩ := (deliverOpen_kept s p hx 1 rx true).overtaken
    exact ⟨hxch, harmed, hcapt, h0, h1, h2, hcount, posted_post _ _ _ _, hregs, hrxe, hpro, hkeeps⟩
  · intro s p codes rx x hr htech hrate hstate hx
    refine does_afcRange hr (by simp [PortR.hasAfc, htech, hrate]) hstate ?_
    obtain ⟨hxch, harmed, hcapt, h0, h1, h2, hregs, hrxe, hpro, hkeeps⟩ := deliverOpen_kept s p hx 2 rx false
    rw [State.outOfRange, if_neg (by rw [htech]; decide)]
    exact ⟨hxch, harmed, hcapt, h0, posted_post _ _ _ _, hregs, hrxe, hpro, hkeeps.trans ((keeps_post _ _ _ _).mono (by decide))⟩
  · intro s p codes rx q hr htech hstate hq
    refine does_afcRange hr (by simp [PortR.hasAfc, htech]) hstate ?_
    rw [State.outOfRange, if_pos htech]
    refine ⟨?_, posted_post _ _ _ _, acdOf_modA s p _, (keeps_modA s p _).join (keeps_post _ _ _ _)⟩
    refine (congrArg PortA.poll (pa_modA_same s p _)).trans ?_
    rw [hq]
    rfl
  · intro s p ending rx hw x hr htech hframe hx hpurpose
    refine does_frameEnd hr htech hframe hx hpurpose ?_
    exact deliverClose_over s p hx hpurpose _ rx hw
  · intro s p rx x w hr hw hx hpoll harmed hearlier hpurpose
    refine does_windowLimit hr hw hx hpoll harmed hearlier ?_
    have hx' : ((s.advance w).pp p).xch = some x := by simpa using hx
    obtain ⟨⟨hidle, hxch, hrxe, hpro⟩, hprs, hdone, hnotOk, -, hkeeps⟩ := endExchange_host (s.advance w) p hx' hpurpose 1 none none .none
    obtain ⟨hsame, -⟩ := advance_reads s w
    rw [fld_of_reg (hsame _)] at hdone hnotOk
    refine ⟨?_, hxch, hidle, hprs, hdone, hnotOk (by decide), (RxeOf.of_rxe (by simp)).trans hrxe, (ProOf.of_pro (by simp)).trans hpro, ?_, ?_⟩
    · exact Eq.trans (hkeeps .time (by decide)) (advance_time s w)
    · exact (ringOnly_advance s w).trans (.of_sram (hkeeps .sram (by decide)))
    · exact (keeps_advance s w).join hkeeps

end Sys2Proof.Machine

/-! Noise statistics (O26): the windows of R160, their statistics, CLR_NOISE and CLR_COUNTS. -/

namespace Sys2Proof.Machine

variable (s : State) (p : Port)

/-! ### The registers of the statistics (R161 to R163, R281) -/

/-- The registers of the statistics of a port. -/
def noiseRegs (p : Port) : List Nat := [Reg.RXE_P_NOISE p, Reg.RXE_P_NOISE_EXT p, Reg.ACD_P_NOISE4 p]

/-- The word of a register that shows two power values and that they are valid. -/
def powersWord (a b : Nat) : Word := packF [(⟨0, 9⟩, a), (⟨16, 9⟩, b), (⟨31, 1⟩, 1)]

theorem powersWord_low (a b : Nat) : Field.get ⟨0, 9⟩ (powersWord a b) = a % 512 := packF_head

theorem powersWord_high (a b : Nat) : Field.get ⟨16, 9⟩ (powersWord a b) = b % 512 := Eq.trans packF_tail packF_head

theorem powersWord_valid (a b : Nat) : Field.get ⟨31, 1⟩ (powersWord a b) = 1 := Eq.trans packF_tail (Eq.trans packF_tail packF_head)

/-- The weakest of the windows so far, where there is one, and the power at hand. -/
def State.noiseMin (s : State) (p : Port) (v : Nat) : Nat :=
  if s.flag (Reg.RXE_P_NOISE_EXT p) Fld.RXE_P_NOISE_EXT_VALID then max v (s.fld (Reg.RXE_P_NOISE_EXT p) Fld.RXE_P_NOISE_EXT_MIN) else v

/-- The strongest of the windows so far, where there is one, and the power at hand. -/
def State.noiseMax (s : State) (p : Port) (v : Nat) : Nat :=
  if s.flag (Reg.RXE_P_NOISE_EXT p) Fld.RXE_P_NOISE_EXT_VALID then min v (s.fld (Reg.RXE_P_NOISE_EXT p) Fld.RXE_P_NOISE_EXT_MAX) else v

/-- The three registers written. -/
def State.noiseShown (s : State) (p : Port) (w e w4 : Word) : State :=
  ((s.setReg (Reg.RXE_P_NOISE p) w).setReg (Reg.RXE_P_NOISE_EXT p) e).setReg (Reg.ACD_P_NOISE4 p) w4

theorem noiseShown_regs (w e w4 : Word) : (s.noiseShown p w e w4).reg (Reg.RXE_P_NOISE p) = w ∧
    (s.noiseShown p w e w4).reg (Reg.RXE_P_NOISE_EXT p) = e ∧ (s.noiseShown p w e w4).reg (Reg.ACD_P_NOISE4 p) = w4 := by
  have apart : Reg.RXE_P_NOISE p ≠ Reg.ACD_P_NOISE4 p := ownReg_ne
  have apart' : Reg.RXE_P_NOISE_EXT p ≠ Reg.ACD_P_NOISE4 p := ownReg_ne
  have beside : Reg.RXE_P_NOISE p ≠ Reg.RXE_P_NOISE_EXT p := ownReg_ne
  refine ⟨?_, ?_, reg_setReg_same _ _ _⟩
  · rw [State.noiseShown, reg_setReg_ne _ _ _ _ apart, reg_setReg_ne _ _ _ _ beside, reg_setReg_same]
  · rw [State.noiseShown, reg_setReg_ne _ _ _ _ apart', reg_setReg_same]

theorem noiseShown_within (w e w4 : Word) : Within ⟨[.regs], (noiseRegs p).map one, []⟩ s (s.noiseShown p w e w4) := by
  have first := within_setReg (Reg.RXE_P_NOISE p) w (Scope.Le.of_named (qs := [.regs]) (l := noiseRegs p) (bs := []) (by simp [noiseRegs])) (Within.refl _ s)
  have second := within_setReg (Reg.RXE_P_NOISE_EXT p) e (Scope.Le.of_named (qs := [.regs]) (l := noiseRegs p) (bs := []) (by simp [noiseRegs])) first
  exact within_setReg (Reg.ACD_P_NOISE4 p) w4 (Scope.Le.of_named (by simp [noiseRegs])) second

/-- The next averages of the two filters, in sixteenths. -/
def State.avgNext (s : State) (p : Port) (v : Nat) : Nat := nextAvg (s.flag (Reg.RXE_P_NOISE p) Fld.RXE_P_NOISE_VALID) (s.pr p).avg v

def State.avg4Next (s : State) (p : Port) (v : Nat) : Nat := nextAvg (s.flag (Reg.ACD_P_NOISE4 p) Fld.ACD_P_NOISE4_VALID) (s.pa p).avg v

theorem noiseStats_eq (v v4 : Nat) : s.noiseStats p v v4 =
    ((s.noiseShown p (powersWord v (s.avgNext p v / 16)) (powersWord (s.noiseMin p v) (s.noiseMax p v)) (powersWord v4 (s.avg4Next p v4 / 16))).modR p
      fun x => { x with avg := s.avgNext p v }).modA p fun x => { x with avg := s.avg4Next p v4 } := rfl

/-- The state after a noise window with power `v` in the port's filter and `v4` in that of ACD. -/
def State.noised (s : State) (p : Port) (v v4 : Nat) : State := (s.noiseStats p v v4).modR p fun x => { x with calmFrom := s.time }

theorem noised_reg (v v4 a : Nat) : (s.noised p v v4).reg a = (s.noiseShown p (powersWord v (s.avgNext p v / 16))
    (powersWord (s.noiseMin p v) (s.noiseMax p v)) (powersWord v4 (s.avg4Next p v4 / 16))).reg a := rfl

theorem noised_pr (v v4 : Nat) : (s.noised p v v4).pr p = { s.pr p with avg := s.avgNext p v, calmFrom := s.time } := by
  have kept (u : State) (g : PortA → PortA) : (u.modA p g).pr p = u.pr p := rfl
  rw [State.noised, pr_modR_same, noiseStats_eq, kept, pr_modR_same, pr_of_rxe ((noiseShown_within s p _ _ _).parts .rxe (by simp))]

theorem noised_others (v v4 : Nat) :
    RegsBut (noiseRegs p) s (s.noised p v v4) ∧ RxeOf p s (s.noised p v v4) ∧ AcdOf p s (s.noised p v v4) ∧ Keeps [.regs, .rxe, .acd] s (s.noised p v v4) := by
  obtain ⟨u, hu⟩ : ∃ u, u = s.noiseShown p (powersWord v (s.avgNext p v / 16)) (powersWord (s.noiseMin p v) (s.noiseMax p v))
    (powersWord v4 (s.avg4Next p v4 / 16)) := ⟨_, rfl⟩
  have shown : Within _ s u := hu ▸ noiseShown_within s p _ _ _
  rw [State.noised, noiseStats_eq, ← hu]
  refine ⟨shown.regsBut, ?_, ?_, ?_⟩
  · exact (RxeOf.of_rxe (shown.parts .rxe (by simp))).trans ((rxeOf_modR u p _).trans (RxeOf.trans (.of_rxe rfl) (rxeOf_modR _ p _)))
  · exact (AcdOf.of_acd (shown.parts .acd (by simp))).trans (AcdOf.trans (.of_acd rfl) (acdOf_modA (u.modR p _) p _))
  · exact (shown.parts.mono (by simp)).trans (((keeps_modR u p _).join (keeps_modA _ p _)).trans ((keeps_modR _ p _).mono (by decide)))

theorem avgNext_first (h : s.flag (Reg.RXE_P_NOISE p) Fld.RXE_P_NOISE_VALID = false) (v : Nat) : s.avgNext p v / 16 = v := by
  rw [State.avgNext, h, nextAvg, if_neg Bool.false_ne_true, Nat.mul_div_cancel_left _ (by decide)]

theorem avg4Next_first (h : s.flag (Reg.ACD_P_NOISE4 p) Fld.ACD_P_NOISE4_VALID = false) (v : Nat) : s.avg4Next p v / 16 = v := by
  rw [State.avg4Next, h, nextAvg, if_neg Bool.false_ne_true, Nat.mul_div_cancel_left _ (by decide)]

theorem noiseMin_lt {v : Nat} (h : v < 512) : s.noiseMin p v < 512 := by
  have old : s.fld (Reg.RXE_P_NOISE_EXT p) Fld.RXE_P_NOISE_EXT_MIN < 512 := Field.get_lt _ _
  unfold State.noiseMin
  split <;> omega

theorem noiseMax_lt {v : Nat} (h : v < 512) : s.noiseMax p v < 512 := by
  unfold State.noiseMax
  split <;> omega

/-- What the three registers show after a window (R161 to R163, R281). -/
theorem noised_shows {v v4 : Nat} (hv : v < 512) (hv4 : v4 < 512) :
    let t := s.noised p v v4
    t.fld (Reg.RXE_P_NOISE p) Fld.RXE_P_NOISE_LAST = v ∧ t.flag (Reg.RXE_P_NOISE p) Fld.RXE_P_NOISE_VALID = true ∧
    (s.flag (Reg.RXE_P_NOISE p) Fld.RXE_P_NOISE_VALID = false → t.fld (Reg.RXE_P_NOISE p) Fld.RXE_P_NOISE_AVG = v) ∧
    t.fld (Reg.RXE_P_NOISE_EXT p) Fld.RXE_P_NOISE_EXT_MIN = s.noiseMin p v ∧ t.fld (Reg.RXE_P_NOISE_EXT p) Fld.RXE_P_NOISE_EXT_MAX = s.noiseMax p v ∧
    t.fld (Reg.ACD_P_NOISE4 p) Fld.ACD_P_NOISE4_LAST = v4 ∧ t.flag (Reg.ACD_P_NOISE4 p) Fld.ACD_P_NOISE4_VALID = true ∧
    (s.flag (Reg.ACD_P_NOISE4 p) Fld.ACD_P_NOISE4_VALID = false → t.fld (Reg.ACD_P_NOISE4 p) Fld.ACD_P_NOISE4_AVG = v4) := by
  obtain ⟨h0, h1, h2⟩ := noiseShown_regs s p (powersWord v (s.avgNext p v / 16)) (powersWord (s.noiseMin p v) (s.noiseMax p v))
    (powersWord v4 (s.avg4Next p v4 / 16))
  refine ⟨?_, ?_, fun h => ?_, ?_, ?_, ?_, ?_, fun h => ?_⟩ <;> simp only [State.flag, State.fld, noised_reg, h0, h1, h2]
  · rw [powersWord_low, Nat.mod_eq_of_lt hv]
  · rw [powersWord_valid]; rfl
  · rw [powersWord_high, avgNext_first s p h, Nat.mod_eq_of_lt hv]
  · rw [powersWord_low, Nat.mod_eq_of_lt (noiseMin_lt s p hv)]
  · rw [powersWord_high, Nat.mod_eq_of_lt (noiseMax_lt s p hv)]
  · rw [powersWord_low, Nat.mod_eq_of_lt hv4]
  · rw [powersWord_valid]; rfl
  · rw [powersWord_high, avg4Next_first s p h, Nat.mod_eq_of_lt hv4]

/-! ### CLR_NOISE (R163) -/

theorem clearNoise_within : Within ⟨[.regs], (noiseRegs p).map one, []⟩ s (s.clearNoise p) := by
  have named {a : Nat} (h : a ∈ noiseRegs p) : Scope.Le ⟨[.regs], [one a], []⟩ ⟨[.regs], (noiseRegs p).map one, []⟩ := .of_named h
  have first := within_setFld (Reg.RXE_P_NOISE p) Fld.RXE_P_NOISE_VALID 0 (named (by simp [noiseRegs])) (Within.refl _ s)
  have second := within_setFld (Reg.RXE_P_NOISE_EXT p) Fld.RXE_P_NOISE_EXT_VALID 0 (named (by simp [noiseRegs])) first
  exact within_setFld (Reg.ACD_P_NOISE4 p) Fld.ACD_P_NOISE4_VALID 0 (named (by simp [noiseRegs])) second

theorem clearNoise_flags : (s.clearNoise p).flag (Reg.RXE_P_NOISE p) Fld.RXE_P_NOISE_VALID = false ∧
    (s.clearNoise p).flag (Reg.RXE_P_NOISE_EXT p) Fld.RXE_P_NOISE_EXT_VALID = false ∧
    (s.clearNoise p).flag (Reg.ACD_P_NOISE4 p) Fld.ACD_P_NOISE4_VALID = false := by
  have apart : Reg.RXE_P_NOISE p ≠ Reg.ACD_P_NOISE4 p := ownReg_ne
  have apart' : Reg.RXE_P_NOISE_EXT p ≠ Reg.ACD_P_NOISE4 p := ownReg_ne
  have beside : Reg.RXE_P_NOISE p ≠ Reg.RXE_P_NOISE_EXT p := ownReg_ne
  refine ⟨?_, ?_, flag_setFld_same _ _ _ _ (by decide)⟩
  · rw [State.clearNoise, flag_of_reg (reg_setFld_ne _ _ _ _ _ apart), flag_of_reg (reg_setFld_ne _ _ _ _ _ beside)]
    exact flag_setFld_same _ _ _ _ (by decide)
  · rw [State.clearNoise, flag_of_reg (reg_setFld_ne _ _ _ _ _ apart')]
    exact flag_setFld_same _ _ _ _ (by decide)

/-! ### The commands -/

theorem noiseFilter_advance (e : Nat) : (s.advance e).noiseFilter p = s.noiseFilter p := by
  have hpr : (s.advance e).pr p = s.pr p := by simp
  have hfld (a : Nat) (f : Field) : (s.advance e).fld a f = s.fld a f := by simp
  rw [State.noiseFilter, State.noiseFilter, hpr, hfld]

theorem does_noiseWindow {powers : List Nat} {P : State → Prop} (hr : Running s) (h : s.noiseOk p = true)
    (he : (s.advance (s.noiseFrom p + 64 * usec)).noiseOk p = true)
    (hp : P ((s.advance (s.noiseFrom p + 64 * usec)).noised p (min ((powers[s.noiseFilter p]?).getD 511) 511) (min ((powers[2]?).getD 511) 511))) :
    Does (.noiseWindowDone p powers) s P := by
  refine does_running (o := execNoiseWindowDone p powers s) rfl rfl hr ?_ hp
  simp only [if_pos h, if_pos he, noiseFilter_advance, State.noised]

theorem does_noiseWindow_not {powers : List Nat} {P : State → Prop} (hr : Running s)
    (h : s.noiseOk p = false ∨ (s.advance (s.noiseFrom p + 64 * usec)).noiseOk p = false) (hp : P s) : Does (.noiseWindowDone p powers) s P := by
  refine does_running (o := execNoiseWindowDone p powers s) rfl rfl hr ?_ hp
  rcases h with h | h
  · exact if_neg (by simp [h])
  · simp [h]

/-- Settles O26: one state after a window, and the laws of its registers. -/
theorem noiseStatisticsFollowWindows : Obligations.NoiseStatisticsFollowWindows := by
  refine ⟨?_, fun s p powers hr h => does_noiseWindow_not s p hr h rfl, fun s p hr => ?_, fun s p hr => ?_⟩
  · intro s p powers hr h he
    refine does_noiseWindow s p hr h he ?_
    have bound (i : Nat) : min ((powers[i]?).getD 511) 511 < 512 := by omega
    obtain ⟨u, hu⟩ : ∃ u, u = s.advance (s.noiseFrom p + 64 * usec) := ⟨_, rfl⟩
    obtain ⟨hlast, hvalid, havg, hmin, hmax, hlast4, hvalid4, havg4⟩ := noised_shows u p (bound (s.noiseFilter p)) (bound 2)
    obtain ⟨hregs, hrxe, hacd, hkeeps⟩ := noised_others u p (min ((powers[s.noiseFilter p]?).getD 511) 511) (min ((powers[2]?).getD 511) 511)
    have hpr := noised_pr u p (min ((powers[s.noiseFilter p]?).getD 511) 511) (min ((powers[2]?).getD 511) 511)
    have flags (a : Nat) (f : Field) : u.flag a f = s.flag a f := by rw [hu]; simp
    have fields (a : Nat) (f : Field) : u.fld a f = s.fld a f := by rw [hu]; simp
    have receiver : u.pr p = s.pr p := by rw [hu]; simp
    have time : u.time = max s.time (s.noiseFrom p + 64 * usec) := by rw [hu, advance_time]
    rw [flags] at havg havg4
    simp only [State.noiseMin, State.noiseMax, flags, fields] at hmin hmax
    rw [State.avgNext, flags, receiver, time] at hpr
    rw [← hu]
    refine ⟨hlast, hvalid, havg, by rw [hpr], fun hno => ?_, fun hyes => ?_, hlast4, hvalid4, havg4, by rw [hpr], ?_, ?_, ?_, ?_⟩
    · rw [hmin, hmax, hno]
      exact ⟨rfl, rfl⟩
    · rw [hmin, hmax, if_pos hyes, if_pos hyes]
      exact ⟨rfl, rfl⟩
    · subst hu
      exact hregs.of_advance
    · exact (RxeOf.of_rxe (by rw [hu]; simp)).trans hrxe
    · exact (AcdOf.of_acd (by rw [hu]; simp)).trans hacd
    · subst hu
      exact hkeeps.passes
  · refine does_running (o := execClrNoise p s) rfl rfl hr rfl ?_
    obtain ⟨h0, h1, h2⟩ := clearNoise_flags s p
    exact ⟨h0, h1, h2, (clearNoise_within s p).regsBut, (clearNoise_within s p).parts⟩
  · refine does_running (o := execClrCounts p s) rfl rfl hr rfl ?_
    have cleared : Within ⟨[.regs], [Reg.RXE_P_COUNTS p].map one, []⟩ s (s.clearCounts p) := within_setReg _ _ (.refl _) (.refl _ s)
    exact ⟨reg_setReg_same _ _ _, cleared.regsBut, cleared.parts⟩

end Sys2Proof.Machine

/-! The host's side of the frame queues (O27). -/

namespace Sys2Proof.Machine

variable (s : State) (p : Port)

/-! ### Writing one port's queues (R480 to R482) -/

/-- Watermark crossings are noted outside the queues. -/
theorem onlyObs_crossWm (u : State) : OnlyObs s (State.crossWm u s p) := by
  have hit (t : State) (f : PortWm → PortWm) (a : Nat) (w : Word) : OnlyObs t ((t.modWm p f).noteSet a w) := rfl
  have first (b : Bool) (f : PortWm → PortWm) (a : Nat) (w : Word) : OnlyObs s (if b then (s.modWm p f).noteSet a w else s) :=
    .ite (hit s f a w) (.refl s)
  exact .ite ((first _ _ _ _).trans (hit _ _ _ _)) (first _ _ _ _)

theorem setPqX_que (q : PortQ) : (s.setPqX p q).que = (s.setPq p q).que := by
  rw [State.setPqX, onlyObs_crossWm (s.setPq p q) p s]

theorem setPqX_pq (q : PortQ) : (s.setPqX p q).pq p = q := by rw [pq_of_que (setPqX_que s p q), pq_setPq_same]

theorem queuesOf_setPqX (q : PortQ) : QueuesOf p s (s.setPqX p q) := (queuesOf_setPq s p q).trans (.of_que (setPqX_que s p q))

theorem setPqX_within (q : PortQ) : Within ⟨[.que, .obs], [], []⟩ s (s.setPqX p q) := within_setPqX s p q (.refl _) (.refl _ s)

theorem pushTx_pq (w : Word) :
    (s.pushTx p w).pq p = { s.pq p with
      tx := (s.pq p).tx ++ [{ w := w, poison := false }], pushedAt := s.time,
      newWords := if (s.pq p).pushedAt / cycle = s.time / cycle then (s.pq p).newWords + 1 else 1 } := setPqX_pq s p _

/-! ### A word popped (R483, R484) -/

/-- The state in which the front of RXQn has been popped, its tag shown. -/
def State.popped (s : State) (p : Port) (l : List QWord) (b : Bool) : State :=
  let u := (s.setPqX p { s.pq p with rx := l }).setFld (Reg.QUE_P_RX_TAG p) Fld.QUE_P_RX_TAG_POISON (bnat b)
  if b then u.poisoned p (16 + p) else u

theorem popRx_cons {x : QWord} {l : List QWord} (h : (s.pq p).rx = x :: l) (bad : Bool) :
    s.popRx p bad = (s.popped p l (x.poison || bad), x.w) := by
  simp only [State.popRx, h]
  rfl

theorem bnat_odd (b : Bool) : decide (bnat b % 2 ^ 1 ≠ 0) = b := by cases b <;> rfl

theorem rxTag_ne_poisons : Reg.QUE_P_RX_TAG p ≠ Reg.QUE_POISONS := by
  have poisons : Reg.QUE_POISONS = 0xA003C := rfl
  have tag : Reg.QUE_P_RX_TAG p = 0xA1008 + p % 16 * 0x400 := rfl
  omega

theorem poisoned_rxTag (k : Nat) : (s.poisoned p k).reg (Reg.QUE_P_RX_TAG p) = s.reg (Reg.QUE_P_RX_TAG p) := by
  have apart : Reg.QUE_P_RX_TAG p ≠ Reg.QUE_P_COUNTS p := ownReg_ne
  have apart' := rxTag_ne_poisons p
  exact (reg_postSecCount _ _ _ _ _).trans ((reg_setFld_ne _ _ _ _ _ apart).trans (reg_setFld_ne _ _ _ _ _ apart'))

theorem popped_flag (l : List QWord) (b : Bool) : (s.popped p l b).flag (Reg.QUE_P_RX_TAG p) Fld.QUE_P_RX_TAG_POISON = b := by
  unfold State.popped
  have set := flag_setFld_same (s.setPqX p { s.pq p with rx := l }) (Reg.QUE_P_RX_TAG p) Fld.QUE_P_RX_TAG_POISON (bnat b) (by decide)
  rw [bnat_odd] at set
  dsimp only
  split
  · exact (flag_of_reg (poisoned_rxTag _ p _) _).trans set
  · exact set

theorem keeps_popped (l : List QWord) (b : Bool) : Keeps [.regs, .obs] (s.setPqX p { s.pq p with rx := l }) (s.popped p l b) := by
  have shown := (within_setFld (Reg.QUE_P_RX_TAG p) Fld.QUE_P_RX_TAG_POISON (bnat b) (.refl _) (.refl _ (s.setPqX p { s.pq p with rx := l }))).parts
  unfold State.popped
  dsimp only
  split
  · exact Keeps.join shown (within_poisoned _ p _ (.refl _) (.refl _ _)).parts (by simp)
  · exact shown.mono (by simp)

/-! ### The commands -/

section
variable {s p} {P : State → Prop} {w : Word} {bad : Bool}

theorem does_txPush (hr : Clocked s) (hw : s.hif.waiting = none) (hroom : (s.pq p).tx.length < 2048) (hfl : (s.pp p).flushing = false)
    (hp : P (s.pushTx p w)) : Does (.txPush p w) s P := by
  refine does_clocked (o := execTxPush p w s) rfl rfl hr ?_ hp
  have room : s.txRoom p = true := decide_eq_true hroom
  have kept : ((s.pushTx p w).pp p).flushing = false := by
    rw [pp_of_pro ((within_pushTx s p w (.refl _) (.refl _ s)).parts .pro (by decide)), hfl]
  simp [State.hostPush, hw, State.pushTxs, room, State.afterPush, kept]

theorem does_txPush_full (hr : Clocked s) (hw : s.hif.waiting = none) (hfull : 2048 ≤ (s.pq p).tx.length) (hfl : (s.pp p).flushing = false)
    (hp : P { s with hif := { s.hif with waiting := some (p.val, [w], s.time) } }) : Does (.txPush p w) s P := by
  refine does_clocked (o := execTxPush p w s) rfl rfl hr ?_ hp
  have full : s.txRoom p = false := decide_eq_false (Nat.not_lt.2 hfull)
  have kept (x : HifSt) : ({ s with hif := x }.pp p).flushing = false := hfl
  simp [State.hostPush, hw, State.pushTxs, full, State.afterPush, kept]

theorem does_rxPop {x : QWord} {l : List QWord} (hr : Clocked s) (hrx : (s.pq p).rx = x :: l)
    (hp : P ((s.popped p l (x.poison || bad)).setOut [x.w])) : Does (.rxPop p bad) s P :=
  does_clocked (o := execRxPop p bad s) rfl rfl hr (by simp only [popRx_cons s p hrx]) hp

theorem does_rxPop_empty (hr : Clocked s) (hrx : (s.pq p).rx = [])
    (hp : P (((s.stick (Reg.QUE_P_WM_STATUS p) Fld.QUE_P_WM_STATUS_UNDERRUN).bump (Reg.QUE_P_COUNTS p) Fld.QUE_P_COUNTS_UNDERRUNS).setOut [0])) :
    Does (.rxPop p bad) s P :=
  does_clocked (o := execRxPop p bad s) rfl rfl hr (by simp only [State.popRx, hrx]) hp

end

theorem flushRx_pp : (s.flushRx p).pp p = { s.pp p with
    pushing := false, staged := if (s.pp p).pushing then (s.pp p).staged.tail else (s.pp p).staged } := by
  have kept := pp_of_pro ((setPqX_within s p { s.pq p with rx := [] }).parts .pro (by decide)) p
  rw [State.flushRx, pp_modP_same, kept]
  split_ifs with h
  · rfl
  · have idle : (s.pp p).pushing = false := by simpa using h
    rw [← idle]

theorem flushRx_que : (s.flushRx p).que = (s.setPqX p { s.pq p with rx := [] }).que := rfl

theorem underrun_within : Within ⟨[.regs, .obs], [Reg.QUE_P_WM_STATUS p, Reg.QUE_P_COUNTS p].map one, []⟩ s
    ((s.stick (Reg.QUE_P_WM_STATUS p) Fld.QUE_P_WM_STATUS_UNDERRUN).bump (Reg.QUE_P_COUNTS p) Fld.QUE_P_COUNTS_UNDERRUNS) :=
  within_bump _ _ (.of_named (by simp)) (within_stick _ _ (.of_named (by simp)) (.refl _ s))

theorem underrun_flag : ((s.stick (Reg.QUE_P_WM_STATUS p) Fld.QUE_P_WM_STATUS_UNDERRUN).bump (Reg.QUE_P_COUNTS p)
    Fld.QUE_P_COUNTS_UNDERRUNS).flag (Reg.QUE_P_WM_STATUS p) Fld.QUE_P_WM_STATUS_UNDERRUN = true := by
  have apart : Reg.QUE_P_WM_STATUS p ≠ Reg.QUE_P_COUNTS p := ownReg_ne
  exact (flag_of_reg (reg_setFld_ne _ _ _ _ _ apart) _).trans (flag_setFld_same s _ _ _ (by decide))

/-- Settles O27: a push into room or into a full queue, a pop of a word or of none, and the flush, by what each leaves of the port's queues. -/
theorem frameQueuesMove : Obligations.FrameQueuesMove := by
  refine ⟨?_, ?_, ?_, ?_, ?_⟩
  · intro s p w hr hw hfl hroom
    refine does_txPush hr hw hroom hfl ?_
    rw [pushTx_pq]
    exact ⟨rfl, rfl, rfl, queuesOf_setPqX s p _, (setPqX_within s p _).parts⟩
  · intro s p w hr hw hfl hfull
    exact does_txPush_full hr hw hfull hfl ⟨rfl, (within_with_hif _ (.refl _) (.refl _ s)).parts⟩
  · intro s p bad x l hr hrx
    refine does_rxPop hr hrx ?_
    have shown := keeps_popped s p l (x.poison || bad)
    have que : ((s.popped p l (x.poison || bad)).setOut [x.w]).que = (s.setPqX p { s.pq p with rx := l }).que := shown .que (by decide)
    refine ⟨rfl, ?_, popped_flag s p l _, (queuesOf_setPqX s p _).trans (.of_que que), ?_⟩
    · rw [pq_of_que que, setPqX_pq]
    · exact ((setPqX_within s p _).parts.join shown (r := [.regs, .que, .hif, .obs])).trans
        ((within_setOut _ [x.w] (.refl _) (.refl _ _)).parts.mono (by decide))
  · intro s p bad hr hrx
    refine does_rxPop_empty hr hrx ⟨rfl, underrun_flag s p, (underrun_within s p).regsBut, ?_⟩
    exact (underrun_within s p).parts.join (within_setOut _ [0] (.refl _) (.refl _ _)).parts (by simp)
  · intro s p hr
    refine does_clocked (o := execFlushRx p s) rfl rfl hr rfl ?_
    rw [flushRx_pp]
    refine ⟨?_, rfl, rfl, (queuesOf_setPqX s p _).trans (.of_que (flushRx_que s p)), ?_, ?_⟩
    · rw [pq_of_que (flushRx_que s p), setPqX_pq]
    · exact (ProOf.of_pro ((setPqX_within s p _).parts .pro (by decide))).trans (proOf_modP _ p _)
    · exact (setPqX_within s p _).parts.join (keeps_modP _ p _)

end Sys2Proof.Machine

/-! Descriptors and completions (O28). -/

namespace Sys2Proof.Machine

variable (s : State) (p : Port)

/-! ### Completions on their way into RXQn (R195) -/

/-- A word of a completion in RXQn. -/
def cleanWord (w : Word) : QWord := { w := w, poison := false }

/-- Of a completion's words as many are pushed as there is room for. -/
theorem pushRxs_room (l : List Word) :
    (s.pushRxs p l).1.pq p = { s.pq p with rx := (s.pq p).rx ++ (l.take (2048 - (s.pq p).rx.length)).map cleanWord } ∧
    (s.pushRxs p l).2 = l.drop (2048 - (s.pq p).rx.length) ∧ QueuesOf p s (s.pushRxs p l).1 := by
  induction l generalizing s with
  | nil => exact ⟨by simp [State.pushRxs], by simp [State.pushRxs], .refl _ _⟩
  | cons w l ih =>
    rw [State.pushRxs]
    by_cases room : (s.pq p).rx.length < 2048
    · obtain ⟨hpq, hrest, hothers⟩ := ih (s.setPqX p { s.pq p with rx := (s.pq p).rx ++ [cleanWord w] })
      obtain ⟨k, hk⟩ : ∃ k, 2048 - (s.pq p).rx.length = k + 1 := ⟨2047 - (s.pq p).rx.length, by omega⟩
      have left : 2048 - ((s.pq p).rx ++ [cleanWord w]).length = k := by
        rw [List.length_append, List.length_singleton]
        omega
      rw [setPqX_pq] at hpq hrest
      dsimp only at hpq hrest
      rw [left] at hpq hrest
      rw [if_pos (show s.rxRoom p = true from decide_eq_true room), hk]
      refine ⟨?_, hrest, (queuesOf_setPqX s p _).trans hothers⟩
      rw [List.take_succ_cons, List.map_cons]
      exact hpq.trans (by rw [List.append_assoc]; rfl)
    · rw [if_neg (show ¬ s.rxRoom p = true by simpa [State.rxRoom, queueDepth] using room), Nat.sub_eq_zero_of_le (by omega)]
      simp [QueuesOf.refl]

theorem keeps_pushRxs (l : List Word) : Keeps [.que, .obs] s (s.pushRxs p l).1 := (within_pushRxs s p l (.refl _) (.refl _ s)).parts

theorem keeps_pushStaged : Keeps [.que, .pro, .obs] s (s.pushStaged p) := (within_pushStaged s p (.refl _) (.refl _ s)).parts

/-- An only completion for which there is room is pushed whole. -/
theorem pushStaged_whole {l : List Word} (h : (s.pp p).staged = [l]) (room : (s.pq p).rx.length + l.length ≤ 2048) :
    (s.pushStaged p).pq p = { s.pq p with rx := (s.pq p).rx ++ l.map cleanWord } ∧
    (s.pushStaged p).pp p = { s.pp p with staged := [], pushing := false } ∧ QueuesOf p s (s.pushStaged p) ∧ ProOf p s (s.pushStaged p) := by
  obtain ⟨hpq, hrest, hothers⟩ := pushRxs_room s p l
  have pro : (s.pushRxs p l).1.pro = s.pro := keeps_pushRxs s p l .pro (by decide)
  rw [List.take_of_length_le (by omega)] at hpq
  rw [List.drop_eq_nil_of_le (by omega)] at hrest
  have eq : s.pushStaged p = (s.pushRxs p l).1.modP p fun x => { x with staged := [], pushing := false } := by
    simp only [State.pushStaged, h, State.drainStaged, if_pos hrest]
  rw [eq]
  refine ⟨hpq, ?_, hothers, (ProOf.of_pro pro).trans (proOf_modP _ p _)⟩
  rw [pp_modP_same, pp_of_pro pro]

/-- Of a completion for which there is not room enough as much is pushed as there is room for. -/
theorem pushStaged_part {l : List Word} {r : List (List Word)} {k : Nat} (h : (s.pp p).staged = l :: r) (hk : k < l.length)
    (room : (s.pq p).rx.length + k = 2048) :
    (s.pushStaged p).pq p = { s.pq p with rx := (s.pq p).rx ++ (l.take k).map cleanWord } ∧
    (s.pushStaged p).pp p = { s.pp p with staged := l.drop k :: r, pushing := (s.pp p).pushing || decide (0 < k) } ∧
    QueuesOf p s (s.pushStaged p) ∧ ProOf p s (s.pushStaged p) := by
  obtain ⟨hpq, hrest, hothers⟩ := pushRxs_room s p l
  have pro : (s.pushRxs p l).1.pro = s.pro := keeps_pushRxs s p l .pro (by decide)
  rw [show 2048 - (s.pq p).rx.length = k by omega] at hpq hrest
  have left : ¬ l.drop k = [] := by
    rw [List.drop_eq_nil_iff]
    omega
  have begun : decide ((l.drop k).length < l.length) = decide (0 < k) := by
    rw [List.length_drop]
    exact decide_eq_decide.2 (by omega)
  have eq : s.pushStaged p = (s.pushRxs p l).1.modP p fun x => { x with staged := l.drop k :: r, pushing := (s.pp p).pushing || decide (0 < k) } := by
    simp only [State.pushStaged, h, State.drainStaged, hrest, if_neg left, begun]
  rw [eq]
  refine ⟨hpq, ?_, hothers, (ProOf.of_pro pro).trans (proOf_modP _ p _)⟩
  rw [pp_modP_same, pp_of_pro pro]

/-! ### What completions leave of TXQn -/

/-- Nothing of the frame queues changes but RXQn of one port. -/
structure RxqOnly (p : Nat) (s t : State) : Prop where
  tx : (t.pq p).tx = (s.pq p).tx
  others : QueuesOf p s t

theorem RxqOnly.of_que {p : Nat} {s t : State} (h : t.que = s.que) : RxqOnly p s t := ⟨by rw [pq_of_que h], .of_que h⟩

theorem RxqOnly.trans {p : Nat} {s t u : State} (h : RxqOnly p s t) (k : RxqOnly p t u) : RxqOnly p s u := ⟨k.tx.trans h.tx, h.others.trans k.others⟩

theorem rxqOnly_drainStaged (part : Bool) (l : List (List Word)) : RxqOnly p s (s.drainStaged p part l) := by
  induction l generalizing s part with
  | nil => exact .of_que rfl
  | cons ws t ih =>
    obtain ⟨hpq, -, hothers⟩ := pushRxs_room s p ws
    have pushed : RxqOnly p s (s.pushRxs p ws).1 := ⟨by rw [hpq], hothers⟩
    rw [State.drainStaged]
    split
    · exact pushed.trans (ih _ _)
    · exact pushed.trans (.of_que rfl)

theorem rxqOnly_complete (tag : Nat) (bytes : List Byte) (lastBits result : Nat) (prs r0 r1 r2 : Word) :
    RxqOnly p s (s.complete p tag bytes lastBits result prs r0 r1 r2) := by
  rw [complete_eq]
  refine RxqOnly.trans (.of_que ?_) (rxqOnly_drainStaged _ p _ _)
  unfold State.stagedCompletion
  dsimp only
  split_ifs <;> rfl

/-- What completing a frame that was not sent leaves of the port: its queue TXQn, and all of its protocol engine but what is staged. -/
theorem completeUnsent_leaves (tag result synWait : Nat) (held : Bool) :
    RxqOnly p s (s.completeUnsent p tag result synWait held) ∧ StagedOnly p s (s.completeUnsent p tag result synWait held) := by
  obtain ⟨u, hu⟩ : ∃ u, u = s.takeFreeWord.1 := ⟨_, rfl⟩
  have que : u.que = s.que := by rw [hu]; rfl
  have pro : u.pro = s.pro := by rw [hu]; rfl
  simp only [State.completeUnsent, ← hu]
  exact ⟨(RxqOnly.of_que que).trans (rxqOnly_complete u p _ _ _ _ _ _ _ _), (StagedOnly.of_pro pro).trans (stagedOnly_complete u p _ _ _ _ _ _ _ _)⟩

/-! ### A descriptor leaves TXQn (R187, R194) -/

/-- How many words of the head descriptor are poisoned, the one that the command says so included. -/
def State.headPoison (s : State) (p : Port) (bad : Bool) : Nat := ((s.headWords p).filter fun w => w.poison).length + bnat bad

theorem keeps_poisons (l : List Nat) : Keeps [.regs, .obs] s (l.foldl (fun (t : State) _ => t.poisoned p p) s) := by
  induction l generalizing s with
  | nil => exact .refl _ s
  | cons k l ih => exact Keeps.trans (within_poisoned s p p (.refl _) (.refl _ s)).parts (ih _)

/-- The words of the head descriptor leave TXQn. -/
theorem popDesc_leaves (bad : Bool) :
    (s.popDesc p bad).1.pq p = { s.pq p with tx := (s.pq p).tx.drop (s.headWords p).length } ∧ QueuesOf p s (s.popDesc p bad).1 ∧
    Keeps [.regs, .que, .obs] s (s.popDesc p bad).1 := by
  have poisons := keeps_poisons (s.setPqX p { s.pq p with tx := (s.pq p).tx.drop (s.headWords p).length }) p
    (List.range (s.headPoison p bad))
  have que := poisons .que (by decide)
  refine ⟨?_, (queuesOf_setPqX s p _).trans (.of_que que), ?_⟩
  · exact (pq_of_que que p).trans (setPqX_pq s p _)
  · exact (setPqX_within s p _).parts.join poisons

theorem poisonDesc_leaves : RxqOnly p s (s.poisonDesc p) ∧ StagedOnly p s (s.poisonDesc p) := by
  obtain ⟨hque, hpro⟩ := completeUnsent_leaves s p 0 8 0 false
  exact ⟨hque.trans (.of_que rfl), hpro.trans (.of_pro rfl)⟩

/-- Discarding the head descriptor takes its words from TXQn and leaves nothing of the protocol engine but a completion. -/
theorem dropDesc_leaves : ((s.dropDesc p).pq p).tx = (s.pq p).tx.drop (s.headWords p).length ∧ QueuesOf p s (s.dropDesc p) ∧
    StagedOnly p s (s.dropDesc p) := by
  obtain ⟨hpq, hothers, hkeeps⟩ := popDesc_leaves s p false
  have pro : StagedOnly p s (s.popDesc p false).1 := .of_pro (hkeeps .pro (by decide))
  obtain ⟨u, hu⟩ : ∃ u, u = (s.popDesc p false).1 := ⟨_, rfl⟩
  have after {t : State} (h : RxqOnly p u t ∧ StagedOnly p u t) : (t.pq p).tx = (s.pq p).tx.drop (s.headWords p).length ∧ QueuesOf p s t ∧ StagedOnly p s t := by
    obtain ⟨⟨htx, hq⟩, hp⟩ := h
    rw [hu] at htx hq hp
    exact ⟨by rw [htx, hpq], hothers.trans hq, pro.trans hp⟩
  simp only [State.dropDesc, ← hu]
  split
  · exact after (poisonDesc_leaves u p)
  · exact after (completeUnsent_leaves u p _ _ _ _)

/-! ### FLUSH_TX (R200) -/

theorem headWords_length (h : s.headFull p = true) : 3 ≤ (s.headWords p).length := by
  unfold State.headFull State.headWithin at h
  unfold State.headWords
  cases htx : (s.pq p).tx with
  | nil => simp [htx] at h
  | cons w l =>
    simp only [htx, decide_eq_true_eq] at h
    rw [List.length_take, Nat.min_eq_left h, descWords]
    split <;> omega

/-- Discarding goes on until no whole descriptor is at the head. -/
theorem flushDescs_leaves (k : Nat) (h : (s.pq p).tx.length < k) :
    (State.flushDescs p k s).headFull p = false ∧
    ((State.flushDescs p k s).pp p).flushing = decide (((State.flushDescs p k s).pq p).tx ≠ []) ∧
    QueuesOf p s (State.flushDescs p k s) ∧ ProOf p s (State.flushDescs p k s) := by
  induction k generalizing s with
  | zero => exact absurd h (Nat.not_lt_zero _)
  | succ k ih =>
    rw [State.flushDescs]
    by_cases hfull : s.headFull p = true
    · obtain ⟨htx, hq, -, hpro⟩ := dropDesc_leaves s p
      have long := headWords_length s p hfull
      have shorter : ((s.dropDesc p).pq p).tx.length < k := by
        have : (s.headWords p).length ≤ (s.pq p).tx.length := by
          unfold State.headWords
          split <;> simp [*]
        rw [htx, List.length_drop]
        omega
      obtain ⟨hhead, hflush, hq', hpro'⟩ := ih (s.dropDesc p) shorter
      rw [if_pos hfull]
      exact ⟨hhead, hflush, hq.trans hq', hpro.trans hpro'⟩
    · rw [if_neg hfull]
      refine ⟨?_, congrArg PortP.flushing (pp_modP_same s p _), .of_que rfl, proOf_modP s p _⟩
      exact (Bool.not_eq_true _).mp hfull

theorem resumePush_idle (h : s.hif.waiting = none) : s.resumePush p = s := by simp only [State.resumePush, h]

theorem flushDescs_hif (k : Nat) : (State.flushDescs p k s).hif = s.hif :=
  (within_flushDescs p k s (.refl _) (.refl _ s)).parts .hif (by decide)

/-- The state after FLUSH_TX with no push waiting. -/
theorem flushTx_leaves (h : s.hif.waiting = none) :
    (s.flushTx p).headFull p = false ∧ ((s.flushTx p).pp p).holdEnd = none ∧
    ((s.flushTx p).pp p).flushing = decide (((s.flushTx p).pq p).tx ≠ []) ∧ QueuesOf p s (s.flushTx p) ∧ ProOf p s (s.flushTx p) := by
  obtain ⟨u, hu⟩ : ∃ u, u = State.flushDescs p ((s.pq p).tx.length + 1) s := ⟨_, rfl⟩
  obtain ⟨hhead, hflush, hq, hpro⟩ := flushDescs_leaves s p ((s.pq p).tx.length + 1) (Nat.lt_succ_self _)
  have idle : (u.modP p fun x => { x with holdEnd := none }).hif.waiting = none := by
    rw [hu]
    exact (congrArg HifSt.waiting (flushDescs_hif s p _)).trans h
  rw [← hu] at hhead hflush hq hpro
  rw [State.flushTx, ← hu, resumePush_idle _ p idle]
  refine ⟨hhead, congrArg PortP.holdEnd (pp_modP_same u p _), ?_, hq, hpro.trans (proOf_modP u p _)⟩
  exact (congrArg PortP.flushing (pp_modP_same u p _)).trans hflush

/-! ### A frame planned (R187, R195) -/

theorem askOn_pro (n : Nat) : (s.askOn n).pro = s.pro := (within_askOn s n (.refl _) (.refl _ s)).parts .pro (by decide)

theorem needField_plan : ((s.needField p).pp p).plan = (s.pp p).plan ∧ ProOf p s (s.needField p) := by
  have asked : ((s.askOn p).pp p).plan = (s.pp p).plan ∧ ProOf p s (s.askOn p) :=
    ⟨by rw [pp_of_pro (askOn_pro s p)], .of_pro (askOn_pro s p)⟩
  unfold State.needField
  dsimp only
  split
  · split
    · exact asked
    · split
      · split
        · exact ⟨by rw [pp_modP_same], proOf_modP s p _⟩
        · exact asked
        · exact asked
        · exact ⟨rfl, .refl _ _⟩
      · exact ⟨rfl, .refl _ _⟩
  · exact ⟨rfl, .refl _ _⟩

theorem needField_que : (s.needField p).que = s.que := (within_needField s p (.refl _) (.refl _ s)).parts .que (by decide)

theorem hif_of_keeps {l : List StatePart} {s t : State} (h : Keeps l s t) (hl : .hif ∉ l := by decide) : t.hif = s.hif := h .hif hl

/-- A frame planned, and the field asked for. -/
def State.planned (s : State) (p : Port) (pl : Plan) (e : PortP → Option Nat) : State :=
  ((s.modP p fun x => { x with holdEnd := e x }).modP p fun x => { x with plan := some pl }).needField p

theorem planned_leaves (pl : Plan) (e : PortP → Option Nat) :
    ((s.planned p pl e).pp p).plan = some pl ∧ ProOf p s (s.planned p pl e) ∧ (s.planned p pl e).que = s.que ∧ (s.planned p pl e).hif = s.hif := by
  obtain ⟨u, hu⟩ : ∃ u, u = (s.modP p fun x => { x with holdEnd := e x }).modP p fun x => { x with plan := some pl } := ⟨_, rfl⟩
  obtain ⟨hplan, hpro⟩ := needField_plan u p
  have plan : (u.pp p).plan = some pl := by rw [hu, pp_modP_same]
  have pro : ProOf p s u := hu ▸ (proOf_modP s p _).trans (proOf_modP _ p _)
  have que : u.que = s.que := by rw [hu]; rfl
  have hif : u.hif = s.hif := by rw [hu]; rfl
  have asked := (within_needField u p (.refl _) (.refl _ u)).parts
  rw [State.planned, ← hu]
  exact ⟨hplan.trans plan, pro.trans hpro, (needField_que u p).trans que, Eq.trans (asked .hif (by decide)) hif⟩

/-- The frame that a descriptor without fault describes is planned. -/
theorem takeDesc_plans {f : Frame} (hw : s.hif.waiting = none) (hclean : (s.headWords p).all (fun x => !x.poison) = true)
    (hf : f = descFrame ((s.headWords p).map fun x => x.w)) (hrole : descRefused (s.role p) f = false)
    (hlen : f.len ≠ 0 ∨ f.lastBits ≠ 0 ∨ f.tech = 3) :
    let t := s.takeDesc p false
    (t.pp p).plan = some { frame := f, takenAt := s.time, notBefore := 0, synSince := none, synWait := 0, heldSyn := false } ∧
    t.pq p = { s.pq p with tx := (s.pq p).tx.drop (s.headWords p).length } ∧ QueuesOf p s t ∧ ProOf p s t := by
  obtain ⟨u, hu⟩ : ∃ u, u = (s.popDesc p false).1 := ⟨_, rfl⟩
  obtain ⟨hpq, hq, hkeeps⟩ : u.pq p = _ ∧ QueuesOf p s u ∧ Keeps _ s u := hu ▸ popDesc_leaves s p false
  have clean : (s.popDesc p false).2.2 = 0 := by simpa [State.popDesc, bnat] using hclean
  have frame : descFrame (s.popDesc p false).2.1 = f := hf.symm
  have sent : ¬ (f.len = 0 ∧ f.lastBits = 0 ∧ f.tech ≠ 3) := by tauto
  obtain ⟨e, he⟩ : ∃ e : PortP → Option Nat,
    e = fun x => x.holdEnd.map fun _ => s.time + s.fld (Reg.PRO_P_HOSTQ p) Fld.PRO_P_HOSTQ_HOLD_MAX * msec := ⟨_, rfl⟩
  obtain ⟨pl, hpl⟩ : ∃ pl : Plan,
    pl = { frame := f, takenAt := s.time, notBefore := 0, synSince := none, synWait := 0, heldSyn := false } := ⟨_, rfl⟩
  have taken : s.takeDesc p false = (u.planned p pl e).resumePush p := by
    simp only [State.takeDesc, clean, frame, hrole, if_neg sent, State.planned, he, hu, hpl]
    rfl
  obtain ⟨hplan, hpro, hque, hhif⟩ := planned_leaves u p pl e
  have idle : (u.planned p pl e).hif.waiting = none := by
    rw [hhif, hkeeps .hif (by decide)]
    exact hw
  dsimp only
  rw [taken, resumePush_idle _ p idle, ← hpl]
  exact ⟨hplan, by rw [pq_of_que hque, hpq], hq.trans (.of_que hque), (ProOf.of_pro (hkeeps .pro (by decide))).trans hpro⟩

/-- A poisoned descriptor is discarded. -/
theorem takeDesc_poisoned (hw : s.hif.waiting = none) (hplan : (s.pp p).plan = none) :
    let t := s.takeDesc p true
    (t.pq p).tx = (s.pq p).tx.drop (s.headWords p).length ∧ (t.pp p).plan = none ∧ Posted 0x5003 .heart 0 t ∧ QueuesOf p s t ∧ ProOf p s t := by
  obtain ⟨u, hu⟩ : ∃ u, u = (s.popDesc p true).1 := ⟨_, rfl⟩
  obtain ⟨hpq, hq, hkeeps⟩ : u.pq p = _ ∧ QueuesOf p s u ∧ Keeps _ s u := hu ▸ popDesc_leaves s p true
  have poisoned : (s.popDesc p true).2.2 ≠ 0 := by simp [State.popDesc, bnat]
  obtain ⟨v, hv⟩ : ∃ v, v = u.modP p fun x =>
    { x with holdEnd := x.holdEnd.map fun _ => s.time + s.fld (Reg.PRO_P_HOSTQ p) Fld.PRO_P_HOSTQ_HOLD_MAX * msec } := ⟨_, rfl⟩
  have taken : s.takeDesc p true = (v.poisonDesc p).resumePush p := by
    simp only [State.takeDesc, if_pos poisoned, hv, hu]
  obtain ⟨⟨htx, hq'⟩, hstaged, hpro'⟩ := poisonDesc_leaves v p
  have que : v.que = u.que := by rw [hv]; rfl
  have pro : ProOf p s v := by
    rw [hv]
    exact (ProOf.of_pro (hkeeps .pro (by decide))).trans (proOf_modP u p _)
  have plan : (v.pp p).plan = none := by
    rw [hv, pp_modP_same, pp_of_pro (hkeeps .pro (by decide))]
    exact hplan
  have hif : (v.poisonDesc p).hif = s.hif := by
    refine Eq.trans ((within_poisonDesc v p (.refl _) (.refl _ v)).parts .hif (by decide)) (Eq.trans ?_ (hkeeps .hif (by decide)))
    rw [hv]
    rfl
  dsimp only
  rw [taken, resumePush_idle _ p (by rw [hif]; exact hw)]
  refine ⟨?_, ?_, posted_post _ _ _ _, hq.trans ((QueuesOf.of_que que).trans hq'), pro.trans hpro'⟩
  · rw [htx, pq_of_que que, hpq]
  · rw [hstaged]
    exact plan

/-! ### The commands -/

section
variable {s p} {P : State → Prop}

theorem hostNext_cases (h : s.hostNext p = true) : s.headWhole p = true ∧ (s.pp p).plan = none := by
  simp only [State.hostNext, State.hostReady, Bool.and_eq_true, Option.isNone_iff_eq_none] at h
  tauto

theorem does_descriptorTake {bad : Bool} (hr : Running s) (h : s.hostNext p = true) (hp : P (s.takeDesc p bad)) : Does (.descriptorTake p bad) s P := by
  refine does_running (o := execDescriptorTake p bad s) rfl rfl hr ?_ hp
  simp [(hostNext_cases h).1, h]

theorem does_holdExpired {e : Nat} (hr : Running s) (he : (s.pp p).holdEnd = some e) (hx : (s.pp p).xch = none) (hplan : (s.pp p).plan = none)
    (hnext : (s.advance e).hostNext p = false) (hp : P (((s.advance e).endHold p).post 0x5005 .top 0)) : Does (.proHoldExpired p) s P := by
  refine does_running (o := execProHoldExpired p s) rfl rfl hr ?_ hp
  simp [he, hx, hplan, hnext]

end

/-- Settles O28: a descriptor planned or discarded, a completion pushed whole or in part, FLUSH_TX, and the two ends of a hold. -/
theorem descriptorsAndCompletions : Obligations.DescriptorsAndCompletions := by
  refine ⟨?_, ?_, ?_, ?_, ?_, ?_, ?_⟩
  · intro s p f hr hw hnext hclean hf hrole hlen
    exact does_descriptorTake hr hnext (takeDesc_plans s p hw hclean hf hrole hlen)
  · intro s p hr hw hnext
    exact does_descriptorTake hr hnext (takeDesc_poisoned s p hw (hostNext_cases hnext).2)
  · intro s p l hr hl room
    obtain ⟨hpq, hpp, hq, hpro⟩ := pushStaged_whole s p hl room
    exact does_running (o := execCompletionPush p s) rfl rfl hr rfl ⟨hpq, hpp, hq, hpro, keeps_pushStaged s p⟩
  · intro s p l r k hr hl hk room
    obtain ⟨hpq, hpp, hq, hpro⟩ := pushStaged_part s p hl hk room
    exact does_running (o := execCompletionPush p s) rfl rfl hr rfl ⟨hpq, hpp, hq, hpro, keeps_pushStaged s p⟩
  · intro s p hr hw
    exact does_running (o := execFlushTx p s) rfl rfl hr rfl (flushTx_leaves s p hw)
  · intro s p hr
    exact does_running (o := execEndHold p s) rfl rfl hr rfl ⟨pp_modP_same s p _, proOf_modP s p _, keeps_modP s p _⟩
  · intro s p e hr he hx hplan hnext
    refine does_holdExpired hr he hx hplan hnext ⟨?_, posted_post _ _ _ _, ?_, ?_⟩
    · refine (pp_modP_same (s.advance e) p _).trans ?_
      simp
    · exact (ProOf.of_pro (by simp)).trans (proOf_modP _ p _)
    · exact Keeps.passes ((keeps_modP (s.advance e) p _).join (keeps_post _ _ _ _) (r := [.pro, .obs]))

end Sys2Proof.Machine

/-! What a command leaves, read back from `Does`: the one state that a refutation has to look at. -/

namespace Sys2Proof.Machine

variable {c : Instr} {s u : State} {f : State → State} {P : State → Prop}

/-- Closing keeps all parts but what the device records of itself. -/
theorem keeps_finish (s t : State) : Keeps [.obs] t (finish s t) := by
  intro q hq
  cases q
  case obs => exact absurd (by decide) hq
  all_goals simp only [StatePart.Same]; simp

/-- A state of which a command says something has the parts of the state that the command answers. -/
theorem Does.same (h : Does c s P) (e : exec c s = .next (finish s u)) : ∃ t, P t ∧ Keeps [.obs] u t := by
  obtain ⟨t, ht, hp⟩ := h
  have eq : finish s t = finish s u := by injection ht.symm.trans e
  refine ⟨t, hp, fun q hq => ?_⟩
  have there := keeps_finish s t q hq
  have here := keeps_finish s u q hq
  rw [eq] at there
  cases q
  case obs => exact absurd (by decide) hq
  all_goals exact Eq.trans (Eq.symm there) here

theorem Does.same_running {o : Out} (h : Does c s P) (e : exec c s = o) (e' : o = s.core f) (hr : Running s) (hu : f s = u) :
    ∃ t, P t ∧ Keeps [.obs] u t := h.same (by rw [e, e', State.core, hr.1, hr.2, ← hu]; rfl)

end Sys2Proof.Machine

/-! RF collision avoidance (O29). -/

namespace Sys2Proof.Machine

/-- An initiator's port in OFF whose initial avoidance counts T_IDT, CLK_CORE running. -/
def avoidingInOff : State :=
  (({ State.reset with pwr := { State.reset.pwr with awake := .running } }).setFld (Reg.PRO_P_MODE_STATUS 0) Fld.PRO_P_MODE_STATUS_EFFECTIVE 3).modP 0
    fun x => { x with rfca := .initial (some 0) 0 }

theorem avoidingInOff_running : Running avoidingInOff := ⟨rfl, rfl⟩

theorem avoidingInOff_role : avoidingInOff.role 0 = 3 :=
  fld_setFld_same { State.reset with pwr := { State.reset.pwr with awake := .running } } (Reg.PRO_P_MODE_STATUS 0) Fld.PRO_P_MODE_STATUS_EFFECTIVE 3
    (by decide)

theorem avoidingInOff_rfca : (avoidingInOff.pp 0).rfca = .initial (some 0) 0 := congrArg PortP.rfca (pp_modP_same _ (0 : Port) _)

/-- The port with the level of the external field at 0 dBFS. -/
def seenInOff : State := (avoidingInOff.modP 0 fun x => { x with extLevel := 0 }).emuLevel 0

theorem extField_off {s : State} {n : Nat} (h : (s.pf n).radio = .off) : s.extField n = false := by
  simp only [State.extField, State.chainOn, h, Bool.false_and]

theorem extField_inOff : avoidingInOff.extField 0 = false ∧ seenInOff.extField 0 = false := by
  have field : seenInOff.field = avoidingInOff.field := (within_emuLevel _ 0 (.refl _) (.refl _ _)).parts .field (by decide)
  have off : (avoidingInOff.pf 0).radio = .off := rfl
  exact ⟨extField_off off, extField_off (by rw [pf_of_field field]; exact off)⟩

theorem seenInOff_rfca : (seenInOff.pp 0).rfca = .initial (some 0) 0 := by
  have pro : seenInOff.pro = (avoidingInOff.modP 0 fun x => { x with extLevel := 0 }).pro :=
    (within_emuLevel _ 0 (.refl _) (.refl _ _)).parts .pro (by decide)
  rw [pp_of_pro pro]
  exact (congrArg PortP.rfca (pp_modP_same _ (0 : Port) _)).trans avoidingInOff_rfca

/-- Refutes O29, in its third clause: the port's chain is off, so that the strong field is not seen and T_IDT goes on. -/
theorem not_collisionAvoidance : ¬ Obligations.CollisionAvoidance := by
  rintro ⟨-, -, h, -⟩
  obtain ⟨off, seen⟩ := extField_inOff
  have does := h avoidingInOff 0 0 0 0 avoidingInOff_running avoidingInOff_role avoidingInOff_rfca off (Nat.zero_le _)
  have unseen : (if seenInOff.extField 0 && !avoidingInOff.extField 0 then seenInOff.extRose 0
      else if avoidingInOff.extField 0 && !seenInOff.extField 0 then seenInOff.extDropped 0 else seenInOff) = seenInOff := by
    rw [off, seen]
    rfl
  obtain ⟨t, ⟨ht, -⟩, keeps⟩ := does.same_running (u := seenInOff) (o := execExternalFieldChange 0 0 avoidingInOff) rfl rfl avoidingInOff_running
    ((if_pos (.inl avoidingInOff_role)).trans unseen)
  have pro : t.pro = seenInOff.pro := keeps .pro (by decide)
  rw [pp_of_pro pro] at ht
  have stopped := congrArg PortP.rfca ht
  exact absurd (seenInOff_rfca.symm.trans stopped) (by decide)

end Sys2Proof.Machine

/-! Sessions: what writing and freeing one leaves of it, and SESS_CMD with CLOSE. -/

namespace Sys2Proof.Machine

variable (s : State) (k : Nat)

/-! ### The table of sessions -/

theorem find_insert_same {α : Type} (l : List (Nat × α)) (x : α) : (Sparse.insert l k x).find? (fun y => y.1 = k) = some (k, x) := by
  induction l with
  | nil => simp [Sparse.insert]
  | cons y t ih =>
    obtain ⟨j, v⟩ := y
    rw [Sparse.insert]
    split_ifs with below here
    · simp
    · simp
    · rw [List.find?_cons_of_neg (by simpa using fun h : j = k => here h.symm), ih]

theorem find_erase_same {α : Type} (l : List (Nat × α)) : (Sparse.erase l k).find? (fun y => y.1 = k) = none := by
  induction l with
  | nil => rfl
  | cons y t ih =>
    obtain ⟨j, v⟩ := y
    rw [Sparse.erase]
    split_ifs with here
    · exact ih
    · rw [List.find?_cons_of_neg (by simpa using here), ih]

theorem session_putSess (x : Session) : (s.putSess k x).session k = some x := by
  rw [State.session, State.putSess, find_insert_same]
  rfl

theorem session_freeSess : (s.freeSess k).session k = none := by
  rw [State.session, State.freeSess, find_erase_same]
  rfl

theorem session_of_sess {s t : State} (h : t.sess = s.sess) (k : Nat) : t.session k = s.session k := by rw [State.session, State.session, h]

/-! ### A session that closes (R238, R247) -/

theorem session_modSess {x : Session} (f : Session → Session) (h : s.session k = some x) (hp : s.gen.phase ≠ .safe) :
    (s.modSess k f).session k = some (f x) := by
  simp only [State.modSess, h, if_neg hp]
  exact session_putSess s k (f x)

theorem session_dropSess : (s.dropSess k).session k = none := by
  unfold State.dropSess
  cases h : s.session k with
  | none => exact h
  | some x => exact session_freeSess _ k

/-- A closing session without a lookup in flight is freed. -/
theorem session_settleSess {x : Session} (h : s.session k = some x) (hx : x.state = .closing) (hf : s.inFlight k = false) (hp : s.gen.phase ≠ .safe) :
    (s.settleSess k).session k = none := by
  simp only [State.settleSess, h, if_pos (show x.state = .closing ∧ ¬ s.inFlight k = true ∧ s.gen.phase ≠ .safe from ⟨hx, by simp [hf], hp⟩)]
  exact session_dropSess s k

theorem inFlight_of_kpr {s t : State} (h : t.kpr = s.kpr) : t.inFlight k = s.inFlight k := by rw [State.inFlight, State.inFlight, h]

/-- The state of a session that is closing, its event posted. -/
def State.closing (s : State) (k : Nat) (x : Session) : State :=
  ((((s.forgetSess x.port k x).modSess k fun y => { y with state := .closing }).count 99).post 0x5011 .top 0)

/-- The releases that a session's enrolment leaves to send. -/
def State.releasing (t : State) (x : Session) (role : Nat) : State :=
  match x.enrol with
  | some (g, c) => if role = 2 then t.modA x.port fun a => { a with releases := a.releases ++ [(g, c)] } else t
  | none => t

theorem leaveSess_eq {x : Session} (h : s.session k = some x) (hl : x.live = true) (hp : s.gen.phase ≠ .safe) :
    s.leaveSess k = ((s.closing k x).releasing x (s.role x.port)).settleSess k := by
  simp only [State.leaveSess, h]
  rw [if_pos (by simp [hl, hp])]
  rfl

theorem keeps_releasing (x : Session) (role : Nat) : Keeps [.acd] s (s.releasing x role) := by
  unfold State.releasing
  split
  · split
    · exact keeps_modA s _ _
    · exact .refl _ s
  · exact .refl _ s

theorem keeps_closing (x : Session) : Keeps [.pro, .sess, .obs] s (s.closing k x) := by
  have forgot := (within_forgetSess s x.port k x (.refl _) (.refl _ s)).parts
  have closed := (within_modSess (s.forgetSess x.port k x) k (fun y => { y with state := .closing }) (.refl _) (.refl _ _)).parts
  have counted (u : State) : Keeps [.obs] u (u.count 99) := (within_count (.refl _) (.refl _ u) 99).parts
  obtain ⟨u, hu⟩ : ∃ u, u = (s.forgetSess x.port k x).modSess k fun y => { y with state := .closing } := ⟨_, rfl⟩
  have left : Keeps [.pro, .sess, .obs] s u := hu ▸ forgot.join closed
  have posted : Keeps [.obs] u ((u.count 99).post 0x5011 .top 0) := (counted u).trans (keeps_post (u.count 99) 0x5011 .top 0)
  rw [State.closing, ← hu]
  exact left.trans (posted.mono (by decide))

/-- A live session that is left, with no lookup in flight, is freed, and its event is posted. -/
theorem leaveSess_frees {x : Session} (h : s.session k = some x) (hl : x.live = true) (hp : s.gen.phase ≠ .safe) (hf : s.inFlight k = false) :
    (s.leaveSess k).session k = none ∧ Posted 0x5011 .top 0 (s.leaveSess k) := by
  obtain ⟨u, hu⟩ : ∃ u, u = (s.closing k x).releasing x (s.role x.port) := ⟨_, rfl⟩
  have released : Keeps [.acd] (s.closing k x) u := hu ▸ keeps_releasing _ x _
  have closing := keeps_closing s k x
  have session : u.session k = some { x with state := .closing } := by
    rw [session_of_sess (released .sess (by decide))]
    have forgot := (within_forgetSess s x.port k x (.refl _) (.refl _ s)).parts
    have there : (s.forgetSess x.port k x).session k = some x := by rw [session_of_sess (forgot .sess (by decide)), h]
    have phase : (s.forgetSess x.port k x).gen.phase ≠ .safe := by rwa [forgot .gen (by decide)]
    have closed := session_modSess (s.forgetSess x.port k x) k (fun y => { y with state := .closing }) there phase
    have sess : (s.closing k x).sess = ((s.forgetSess x.port k x).modSess k fun y => { y with state := .closing }).sess := rfl
    rw [session_of_sess sess, closed]
  have flight : u.inFlight k = false := by
    rw [inFlight_of_kpr k (released .kpr (by decide)), inFlight_of_kpr k (closing .kpr (by decide)), hf]
  have gen : u.gen = s.gen := Eq.trans (released .gen (by decide)) (closing .gen (by decide))
  have settled := (within_settleSess u k (.refl _) (.refl _ u)).parts
  rw [leaveSess_eq s k h hl hp, ← hu]
  have phase : u.gen.phase ≠ .safe := by rwa [gen]
  have freed := session_settleSess u k session rfl flight phase
  refine ⟨freed, ?_⟩
  have obs : (u.settleSess k).obs = (s.closing k x).obs := Eq.trans (settled .obs (by decide)) (released .obs (by decide))
  rw [Posted, obs]
  exact posted_post _ _ _ _

end Sys2Proof.Machine

/-! Polling (O30): the entries of a list, a halt that is owed, the ends of a WAIT, an overflow entry. -/

namespace Sys2Proof.Machine

variable (s : State) (p : Port)

/-! ### The field asked for (R63, R95) -/

theorem startSyn_within : Within ⟨[.regs, .field], [Reg.FLD_SYN_STATUS].map one, []⟩ s s.startSyn := within_startSyn s (.refl _) (.refl _ s)

theorem askOn_within (n : Nat) : Within ⟨[.regs, .field], [Reg.FLD_SYN_STATUS].map one, []⟩ s (s.askOn n) := within_askOn s n (.refl _) (.refl _ s)

theorem startSyn_pf (m : Nat) : s.startSyn.pf m = s.pf m := by
  unfold State.startSyn
  split <;> rfl

theorem startSyn_synRun : s.startSyn.field.synRun = true := by
  unfold State.startSyn
  split
  · assumption
  · rfl

theorem askOn_pf_ne (n m : Nat) (h : m ≠ n) : (s.askOn n).pf m = s.pf m := by
  unfold State.askOn
  dsimp only
  split
  · rw [pf_modF_ne _ _ _ _ h, startSyn_pf]
  · rfl

/-- A port that carries a field, has none, and none asked for, asks for it now. -/
theorem askOn_asks (hrole : carriesField (s.role p) = true) (hon : (s.pf p).wantOn = none) (hramp : (s.pf p).ramp = .none)
    (hoff : (s.pf p).carrier = false) :
    ((s.askOn p).pf p).wantOn = some (s.askOn p).time ∧ (s.askOn p).field.synRun = true := by
  have asks : (carriesField (s.role p) && (s.pf p).wantOn.isNone && !(s.pf p).ramp.goesOn && !((s.pf p).carrier && !(s.pf p).ramp.goesOff)) = true := by
    simp [hrole, hon, hramp, hoff, Ramp.goesOn]
  have time : (s.askOn p).time = s.time := (askOn_within s p).parts .time (by decide)
  rw [time, State.askOn, if_pos asks, pf_modF_same]
  exact ⟨rfl, startSyn_synRun s⟩

/-! ### A job begun (R215) -/

/-- What asking for the field, where it is off, changes. -/
theorem beginJob_begins (j : Job) :
    (s.beginJob p j).pp p = { s.pp p with job := some j } ∧ ProOf p s (s.beginJob p j) ∧ (∀ m, m ≠ p.val → (s.beginJob p j).pf m = s.pf m) ∧
    RegsBut [Reg.FLD_SYN_STATUS] s (s.beginJob p j) ∧ Keeps [.regs, .field, .pro] s (s.beginJob p j) := by
  have set := pp_modP_same s p fun x => { x with job := some j }
  have others := proOf_modP s p fun x => { x with job := some j }
  have keeps := keeps_modP s p fun x => { x with job := some j }
  obtain ⟨u, hu⟩ : ∃ u, u = s.setJob p (some j) := ⟨_, rfl⟩
  rw [← State.setJob, ← hu] at set others keeps
  have field : u.field = s.field := keeps .field (by decide)
  simp only [State.beginJob, ← hu]
  split
  · exact ⟨set, others, fun m _ => pf_of_field field m, .of_regs (keeps .regs (by decide)), keeps.mono (by decide)⟩
  · have asked := askOn_within u p
    have pro : (u.askOn p).pro = u.pro := askOn_pro u p
    refine ⟨by rw [pp_of_pro pro, set], others.trans (.of_pro pro), fun m hm => ?_, ?_, keeps.join asked.parts⟩
    · rw [askOn_pf_ne u p m hm, pf_of_field field]
    · exact (RegsBut.of_regs (keeps .regs (by decide))).trans asked.regsBut

/-! ### The commands -/

/-- The port at a list-entry boundary, the wait for its field over. -/
def State.atBoundary (s : State) (p : Port) : State := s.modP p fun x => { x with offWait := false }

theorem atBoundary_pp : (s.atBoundary p).pp p = { s.pp p with offWait := false } := pp_modP_same s p _

theorem atBoundary_next : (s.atBoundary p).nextEntry p = s.nextEntry p := by
  have polls (e : Nat) : (s.atBoundary p).pollEntry p e = s.pollEntry p e := rfl
  have list : (s.atBoundary p).listAsked p = s.listAsked p := rfl
  rw [State.nextEntry, State.nextEntry, atBoundary_pp, polls, list]

/-- The port at the entry of its list that runs next. -/
def State.toEntry (s : State) (p : Port) : State :=
  (s.atBoundary p).modP p fun x => { x with entry := s.nextEntry p, list := s.listAsked p }

theorem toEntry_pp : (s.toEntry p).pp p = { s.pp p with offWait := false, entry := s.nextEntry p, list := s.listAsked p } := by
  rw [State.toEntry, pp_modP_same, atBoundary_pp]

theorem toEntry_leaves : ProOf p s (s.toEntry p) ∧ Keeps [.pro] s (s.toEntry p) :=
  ⟨(proOf_modP s p _).trans (proOf_modP _ p _), (keeps_modP s p _).trans (keeps_modP _ p _)⟩

/-! ### The entries of a list (R215, R220, R236) -/

theorem runEntry_wait {w : Nat} (h : w % 16 = 6) (hstay : w.testBit 28 = false) :
    s.runEntry p w = s.modP p fun x => { x with waitEnd := some (s.time + w / 16 % 2 ^ 24 * usec), offWait := false } := by
  simp only [State.runEntry, h, hstay]
  rfl

theorem runEntry_nfcA {w : Nat} (h : w % 16 = 1) :
    s.runEntry p w = s.beginJob p { Job.fresh0 .discover 0 with entry := w, next := some .reqa, wake := w.testBit 4, slots := 1 } := by
  simp only [State.runEntry, h]

theorem runEntry_skipped {w : Nat} (h : w % 16 = 5) (hnone : s.pollMask p (w / 16 % 16) = 0) :
    s.runEntry p w = ((s.entryAfter p).bump Reg.ACD_COUNTS Fld.ACD_COUNTS_SKIPS).postSec 0x6004 p .top 0 := by
  simp only [State.runEntry, h, hnone, if_true]

/-- An entry skipped: the next one is due, and the skip is counted. -/
theorem skipped_leaves :
    let t := ((s.entryAfter p).bump Reg.ACD_COUNTS Fld.ACD_COUNTS_SKIPS).postSec 0x6004 p .top 0
    t.pp p = { s.pp p with entry := ((s.pp p).entry + 1) % 16 } ∧
    t.fld Reg.ACD_COUNTS Fld.ACD_COUNTS_SKIPS = satAdd 65535 (s.fld Reg.ACD_COUNTS Fld.ACD_COUNTS_SKIPS) 1 ∧
    RegsBut [Reg.ACD_COUNTS] s t ∧ ProOf p s t ∧ Keeps [.regs, .pro, .obs] s t := by
  obtain ⟨u, hu⟩ : ∃ u, u = s.entryAfter p := ⟨_, rfl⟩
  have counted : Within ⟨[.regs, .obs], [Reg.ACD_COUNTS].map one, []⟩ u ((u.bump Reg.ACD_COUNTS Fld.ACD_COUNTS_SKIPS).postSec 0x6004 p .top 0) :=
    within_postSec .of_none (within_bump _ _ .of_parts (.refl _ u)) _ _ _ _
  have moved : Keeps [.pro] s u := hu ▸ keeps_modP s p _
  have pp : u.pp p = { s.pp p with entry := ((s.pp p).entry + 1) % 16 } := by rw [hu]; exact pp_modP_same s p _
  have others : ProOf p s u := hu ▸ proOf_modP s p _
  rw [← hu]
  refine ⟨?_, ?_, ?_, others.trans (.of_pro (counted.parts .pro (by decide))), moved.join counted.parts⟩
  · rw [pp_of_pro (counted.parts .pro (by decide)), pp]
  · rw [fld_of_reg (reg_postSec _ _ _ _ _ _), fld_bump16 _ _ _ rfl (by decide), fld_of_regs (moved .regs (by decide))]
  · exact (RegsBut.of_regs (moved .regs (by decide))).trans counted.regsBut

/-! ### What is owed to a session (R233) -/

/-- A halt that is owed to an open NFC-A session begins with HLTA. -/
theorem owedJob_halts {k : Nat} {x : Session} (hx : s.session k = some x) (hopen : x.state = .open_) (hacc : x.accord = false) (htech : x.tech = 0) :
    let t := s.owedJob p k
    (t.pp p).owed = (s.pp p).owed.filter (fun i => i ≠ k) ∧
    (t.pp p).job = some { Job.fresh0 .owed 0 with sess := some k, ident := x.ident, quiet := [x.ident], next := some .hlta } ∧
    ProOf p s t ∧ (∀ m, m ≠ p.val → t.pf m = s.pf m) ∧ RegsBut [Reg.FLD_SYN_STATUS] s t ∧ Keeps [.regs, .field, .pro] s t := by
  obtain ⟨u, hu⟩ : ∃ u, u = s.modP p fun x => { x with owed := x.owed.filter fun i => i ≠ k } := ⟨_, rfl⟩
  have session : u.session k = some x := by rw [hu]; exact hx
  have keeps : Keeps [.pro] s u := hu ▸ keeps_modP s p _
  have pp : u.pp p = { s.pp p with owed := (s.pp p).owed.filter fun i => i ≠ k } := by rw [hu]; exact pp_modP_same s p _
  have others : ProOf p s u := hu ▸ proOf_modP s p _
  have job : s.owedJob p k = u.beginJob p { Job.fresh0 .owed 0 with sess := some k, ident := x.ident, quiet := [x.ident], next := some .hlta } := by
    simp only [State.owedJob, ← hu, session, if_pos hopen, hacc, htech]
    rfl
  obtain ⟨hpp, hpro, hpf, hregs, hkeeps⟩ := beginJob_begins u p { Job.fresh0 .owed 0 with sess := some k, ident := x.ident, quiet := [x.ident], next := some .hlta }
  dsimp only
  rw [job]
  refine ⟨?_, ?_, others.trans hpro, fun m hm => ?_, ?_, (keeps.mono (by decide)).trans hkeeps⟩
  · rw [hpp, pp]
  · rw [hpp]
  · rw [hpf m hm, pf_of_field (keeps .field (by decide))]
  · exact (RegsBut.of_regs (keeps .regs (by decide))).trans hregs

/-! ### The end of a WAIT (R220) -/

/-- The port after the end of its WAIT. -/
def State.waited (s : State) (p : Port) (e : Nat) : State := ((s.advance e).modP p fun x => { x with waitEnd := none }).entryAfter p

theorem waited_leaves (e : Nat) : (s.waited p e).pp p = { s.pp p with waitEnd := none, entry := ((s.pp p).entry + 1) % 16 } ∧
    ProOf p s (s.waited p e) ∧ Keeps [.pro] (s.advance e) (s.waited p e) := by
  obtain ⟨u, hu⟩ : ∃ u, u = s.advance e := ⟨_, rfl⟩
  have pro : u.pro = s.pro := by rw [hu]; simp
  rw [State.waited, State.entryAfter, ← hu]
  refine ⟨?_, (ProOf.of_pro pro).trans ((proOf_modP u p _).trans (proOf_modP _ p _)), (keeps_modP u p _).trans (keeps_modP _ p _)⟩
  rw [pp_modP_same, pp_modP_same, pp_of_pro pro]

/-- The end of a WAIT that took the field off asks for it again. -/
theorem waited_asks (e : Nat) :
    let t := (s.waited p e).askOn p
    t.pp p = { s.pp p with waitEnd := none, entry := ((s.pp p).entry + 1) % 16 } ∧
    (s.role p = 2 → (s.pf p).wantOn = none → (s.pf p).ramp = .none → (s.pf p).carrier = false → (t.pf p).wantOn = some t.time) ∧
    ProOf p s t ∧ (∀ m, m ≠ p.val → t.pf m = s.pf m) ∧ RegsBut [Reg.FLD_SYN_STATUS] s t ∧ Passes e [.regs, .field, .pro] s t := by
  obtain ⟨hpp, hpro, hkeeps⟩ := waited_leaves s p e
  obtain ⟨u, hu⟩ : ∃ u, u = s.waited p e := ⟨_, rfl⟩
  rw [← hu] at hpp hpro hkeeps ⊢
  have asked := askOn_within u p
  have pro : (u.askOn p).pro = u.pro := askOn_pro u p
  have regs (a : Nat) : u.reg a = s.reg a := (reg_of_regs (hkeeps .regs (by decide)) a).trans ((advance_reads s e).1 a)
  have pf (m : Nat) : u.pf m = s.pf m := (pf_of_field (hkeeps .field (by decide)) m).trans (by simp)
  have role : u.role p = s.role p := fld_of_reg (regs _) _
  refine ⟨by rw [pp_of_pro pro, hpp], fun h2 hon hramp hoff => ?_, hpro.trans (.of_pro pro), fun m hm => ?_, ?_, ?_⟩
  · exact (askOn_asks u p (by rw [role, h2]; rfl) (by rw [pf, hon]) (by rw [pf, hramp]) (by rw [pf, hoff])).1
  · rw [askOn_pf_ne u p m hm, pf]
  · exact RegsBut.trans (fun a _ => regs a) asked.regsBut
  · exact Keeps.passes (hkeeps.join asked.parts (r := [.regs, .field, .pro]))

section
variable {s p} {P : State → Prop}

theorem does_pollEntry (hr : Running s) (hat : s.atEntry p = true) (howed : (s.pp p).owed = []) (hrel : (s.pa p).releases = [])
    (hdue : s.dueChecks p = []) (hp : P ((s.toEntry p).runEntry p (s.pollEntry p (s.nextEntry p)))) : Does (.pollEntryStart p .none) s P := by
  refine does_running (o := execPollEntryStart p .none s) rfl rfl hr ?_ hp
  have owed : ((s.atBoundary p).pp p).owed = [] := by rw [atBoundary_pp]; exact howed
  have rel : ((s.atBoundary p).pa p).releases = [] := hrel
  have due : (s.atBoundary p).dueChecks p = [] := hdue
  have next := atBoundary_next s p
  simp only [hat, Bool.not_true, Bool.false_eq_true, if_false]
  rw [← State.atBoundary, owed, rel, due, next]
  rfl

theorem does_pollEntry_owed {k : Nat} {l : List Nat} (hr : Running s) (hat : s.atEntry p = true) (howed : (s.pp p).owed = k :: l)
    (hp : P ((s.atBoundary p).owedJob p k)) : Does (.pollEntryStart p .none) s P := by
  refine does_running (o := execPollEntryStart p .none s) rfl rfl hr ?_ hp
  have owed : ((s.atBoundary p).pp p).owed = k :: l := by rw [atBoundary_pp]; exact howed
  simp only [hat, Bool.not_true, Bool.false_eq_true, if_false]
  rw [← State.atBoundary, owed]

theorem does_pollWait {e : Nat} (hr : Running s) (he : (s.pp p).waitEnd = some e)
    (hp : P (if (s.pp p).offWait then (s.waited p e).askOn p else s.waited p e)) : Does (.pollWaitExpiry p) s P :=
  does_running (o := execPollWaitExpiry p s) rfl rfl hr (by simp only [he]; rfl) hp

theorem does_sessClose (k : SessId) (hr : Running s) (hphase : s.gen.phase ≠ .safe) (hp : P (s.leaveSess k)) :
    Does (.sessClose (word (k.val + 0x100))) s P := by
  refine does_running (o := execSessClose (word (k.val + 0x100)) s) rfl rfl hr ?_ hp
  have value : (word (k.val + 0x100)).toNat = k.val + 0x100 := by
    rw [word, BitVec.toNat_ofNat]
    omega
  have number : (k.val + 0x100) % 256 = k := by omega
  have close : (k.val + 0x100).testBit 8 = true := by
    rw [Nat.testBit_eq_decide_div_mod_eq]
    simp only [decide_eq_true_eq]
    omega
  simp [State.writeSessCmd, value, number, close, hphase]

theorem does_overflowDue {i : Nat} {x : OvfEntry} (hr : Running s) (hx : s.overflow[i]? = some x) (hat : s.atEntry x.port = true) (htech : x.tech = 0)
    (hp : P ((s.advance x.dueAt).beginJob x.port
      { Job.fresh0 (.overflow i) 0 with wake := true, ident := x.ident, woken := x.ident, next := some .reqa })) : Does (.overflowEntryDue i) s P := by
  refine does_running (o := execOverflowEntryDue i s) rfl rfl hr ?_ hp
  simp only [hx, if_pos hat, htech]

end

/-- Settles O30: each kind of entry, the halt that is owed, the ends of a WAIT, a presence check, CLOSE, and an overflow entry. -/
theorem pollingRunsItsList : Obligations.PollingRunsItsList := by
  refine ⟨?_, ?_, ?_, ?_, ?_, ?_, ?_, ?_, ?_⟩
  · rintro s p w hr hat howed hrel hdue rfl hkind hstay
    refine does_pollEntry hr hat howed hrel hdue ?_
    obtain ⟨others, keeps⟩ := toEntry_leaves s p
    rw [runEntry_wait _ p hkind hstay]
    refine ⟨?_, others.trans (proOf_modP _ p _), keeps.trans (keeps_modP _ p _)⟩
    rw [pp_modP_same, toEntry_pp]
    rfl
  · rintro s p w hr hat howed hrel hdue rfl hkind
    refine does_pollEntry hr hat howed hrel hdue ?_
    obtain ⟨others, keeps⟩ := toEntry_leaves s p
    rw [runEntry_nfcA _ p hkind]
    obtain ⟨hpp, hpro, hpf, hregs, hkeeps⟩ := beginJob_begins (s.toEntry p) p { Job.fresh0 .discover 0 with
      entry := s.pollEntry p (s.nextEntry p), next := some .reqa, wake := (s.pollEntry p (s.nextEntry p)).testBit 4, slots := 1 }
    rw [toEntry_pp] at hpp
    exact ⟨hpp, others.trans hpro, fun m hm => hpf m hm, (RegsBut.of_regs (keeps .regs (by decide))).trans hregs, (keeps.mono (by decide)).trans hkeeps⟩
  · rintro s p w hr hat howed hrel hdue rfl hkind hnone
    refine does_pollEntry hr hat howed hrel hdue ?_
    obtain ⟨others, keeps⟩ := toEntry_leaves s p
    obtain ⟨hpp, hcount, hregs, hpro, hkeeps⟩ := skipped_leaves (s.toEntry p) p
    rw [toEntry_pp] at hpp
    have unenrolled : (s.toEntry p).pollMask p (s.pollEntry p (s.nextEntry p) / 16 % 16) = 0 := hnone
    rw [runEntry_skipped _ p hkind unenrolled]
    exact ⟨hpp, hcount, (RegsBut.of_regs (keeps .regs (by decide))).trans hregs, others.trans hpro, (keeps.mono (by decide)).trans hkeeps⟩
  · intro s p k l x hr hat howed hx hopen hacc htech
    refine does_pollEntry_owed hr hat howed ?_
    have there : (s.atBoundary p).session k = some x := hx
    obtain ⟨hlist, hjob, hpro, hpf, hregs, hkeeps⟩ := owedJob_halts (s.atBoundary p) p there hopen hacc htech
    rw [atBoundary_pp] at hlist
    exact ⟨hlist, hjob, (proOf_modP s p _).trans hpro, fun m hm => hpf m hm, hregs, ((keeps_modP s p _).mono (by decide)).trans hkeeps⟩
  · intro s p e hr he hstay
    refine does_pollWait hr he ?_
    obtain ⟨hpp, hpro, hkeeps⟩ := waited_leaves s p e
    rw [if_neg (by simp [hstay])]
    exact ⟨hpp, hpro, hkeeps.passes⟩
  · intro s p e hr he hoff
    refine does_pollWait hr he ?_
    rw [if_pos hoff]
    exact waited_asks s p e
  · intro s k x e hr hx he hquiet
    refine does_running (o := execPresenceCheckDue k s) rfl rfl hr ?_ (passes_advance s e)
    simp only [hx, he, if_pos hquiet]
  · intro s k x hr hx hlive hphase hflight
    exact does_sessClose k hr hphase (leaveSess_frees s k hx hlive hphase hflight)
  · intro s i x hr hx hat htech hport
    refine does_overflowDue hr hx hat htech ?_
    obtain ⟨hpp, hpro, hpf, hregs, hkeeps⟩ := beginJob_begins (s.advance x.dueAt) ⟨x.port, hport⟩
      { Job.fresh0 (.overflow i) 0 with wake := true, ident := x.ident, woken := x.ident, next := some .reqa }
    refine ⟨congrArg PortP.job hpp, (ProOf.of_pro (by simp)).trans hpro, fun m hm => ?_, hregs.of_advance, hkeeps.passes⟩
    refine (hpf m hm).trans ?_
    simp

end Sys2Proof.Machine

/-! The window of an Accord poll (O31). -/

namespace Sys2Proof.Machine

/-- The time of the state that an outcome goes on to. -/
def timeAfter : Out → Nat
  | .next s => s.time
  | _ => 0

/-- What a command says of a state it says of one with the time of its outcome. -/
theorem Does.time {c : Instr} {s : State} {P : State → Prop} (h : Does c s P) : ∃ t, P t ∧ t.time = timeAfter (exec c s) := by
  obtain ⟨t, ht, hp⟩ := h
  have kept : (finish s t).time = t.time := keeps_finish s t .time (by decide)
  exact ⟨t, hp, by rw [ht, timeAfter, kept]⟩

/-! ### An Accord poll and an NFC-V exchange on one port -/

/-- The frame RESET TO READY of a discovery. -/
def resetReadyFrame : Frame :=
  { tech := 3, rate := 0, rtech := 3, rrate := 0, crcTx := false, crcRx := false, resp := true, anticoll := false, hold := false, len := 0,
    lastBits := 0, tag := 0, win := 0, scale := 0, delay := 0, limit := 0, data := [], purpose := .resetReady }

/-- A poll of no codes whose window closed at time 0, cut with RESULT 0. -/
def closedPoll : AccPoll :=
  { group := 0, mask := 0, selector := 0, detected := 0, synced := 0, order := none, ranged := 0, stages := 0, closed := some 0, cut := some 0,
    blanked := false }

/-- An exchange of RESET TO READY. -/
def resetReadyExchange : Exchange :=
  { plan := { frame := resetReadyFrame, takenAt := 0, notBefore := 0, synSince := none, synWait := 0, heldSyn := false }
    startAt := 0, txDone := true, earlier := none }

/-- Port 0 in an NFC-V discovery, with an Accord poll beside its exchange. -/
def crossed : State :=
  (({ State.reset with pwr := { State.reset.pwr with awake := .running } }).modP 0 fun x =>
    { x with job := some (Job.fresh0 .discover 3), xch := some resetReadyExchange }).modA 0 fun a => { a with poll := some closedPoll }

/-- The exchange's end finds a tag, and its decision takes 23 cycles. -/
theorem crossed_takes_time : timeAfter (exec (.accordStagesDone 0 [] false .none) crossed) = 1472 := by decide +kernel

/-- Refutes O31, in its fifth clause, which leaves open what exchange the poll ends: one of NFC-V finds a tag, whose lookup with an empty roster
takes 23 cycles, so that the time is not that of the stages' end. -/
theorem not_accordPollEnds : ¬ Obligations.AccordPollEnds := by
  rintro ⟨-, -, -, -, h, -⟩
  obtain ⟨t, ⟨ht, -⟩, time⟩ := (h crossed 0 [] false closedPoll resetReadyExchange 0 ⟨rfl, rfl⟩
    (congrArg PortA.poll (pa_modA_same _ (0 : Port) _)) (congrArg PortP.xch (pp_modP_same _ (0 : Port) _)) rfl).time
  rw [time, crossed_takes_time] at ht
  exact absurd ht (by decide +kernel)

end Sys2Proof.Machine

/-! Writes of registers whose fields are free: what a write leaves in the register. -/

namespace Sys2Proof.Machine

variable (s : State)

/-- A write that neither a lock, a refused value nor a ceiling touches sets the fields of its row. -/
theorem writeReg_free {a : Nat} {r : RegRow} (v : Word) (hrow : findRow a = some r) (hfree : ClampFree a)
    (hopen : r.refuses (s.lockedBlock (a / 0x10000)) = false) :
    s.writeReg a v = s.setReg a (r.write (s.lockedBlock (a / 0x10000)) (r.gov && !s.expertOn a) (s.reg a) v) := by
  have taken : valueRefused a v = false := by rw [valueRefused, if_neg hfree.trim]
  simp only [State.writeReg, hrow, hopen, taken, Bool.false_eq_true, if_false]
  split
  · rfl
  · exact clampCheck_free hfree _

/-- The row of a register that every port has one of. -/
theorem findRow_roles (p : Port) : findRow (Reg.PRO_P_ROLE p) = some ⟨0x41008, 16, 0x400, 1, 4, 0, false, [⟨Fld.PRO_P_ROLE_ROLE, .rw, 0, 5⟩]⟩ := by
  revert p
  decide +kernel

theorem findRow_huddles (p : Port) : findRow (Reg.FLD_P_HUDDLE p) = some ⟨0x21018, 16, 0x400, 1, 4, 0, false,
    [⟨Fld.FLD_P_HUDDLE_EN, .rw, 0, 0xFFFFFFFF⟩, ⟨Fld.FLD_P_HUDDLE_ID, .rw, 0, 0xFFFFFFFF⟩]⟩ := by
  revert p
  decide +kernel

theorem clampFree_role (p : Port) : ClampFree (Reg.PRO_P_ROLE p) :=
  .of (by revert p; decide +kernel)

theorem clampFree_huddle (p : Port) : ClampFree (Reg.FLD_P_HUDDLE p) :=
  .of (by revert p; decide +kernel)

/-- A role of R49 as written. -/
theorem writeReg_role (p : Port) {v : Word} (h : Fld.PRO_P_ROLE_ROLE.get v ≤ 5) :
    s.writeReg (Reg.PRO_P_ROLE p) v = s.setFld (Reg.PRO_P_ROLE p) Fld.PRO_P_ROLE_ROLE (Fld.PRO_P_ROLE_ROLE.get v) := by
  rw [writeReg_free s v (findRow_roles p) (clampFree_role p) rfl, State.setFld]
  have inside : ¬ 5 < Fld.PRO_P_ROLE_ROLE.get v := by omega
  simp only [RegRow.write, List.foldl_cons, List.foldl_nil, FieldRow.write, Bool.false_and, Nat.not_lt_zero, decide_false, inside, Bool.or_self,
    Bool.false_eq_true, if_false]

theorem writeReg_huddle (p : Port) (v : Word) : s.writeReg (Reg.FLD_P_HUDDLE p) v =
    s.setReg (Reg.FLD_P_HUDDLE p) (Fld.FLD_P_HUDDLE_ID.set (Fld.FLD_P_HUDDLE_EN.set (s.reg (Reg.FLD_P_HUDDLE p)) (Fld.FLD_P_HUDDLE_EN.get v))
      (Fld.FLD_P_HUDDLE_ID.get v)) := by
  have small (f : Field) (hf : f.width ≤ 31) : ¬ 0xFFFFFFFF < f.get v := by
    have bound := f.get_lt v
    have pow : 2 ^ f.width ≤ 2 ^ 31 := Nat.pow_le_pow_right (by decide) hf
    omega
  rw [writeReg_free s v (findRow_huddles p) (clampFree_huddle p) rfl]
  simp only [RegRow.write, List.foldl_cons, List.foldl_nil, FieldRow.write, Bool.false_and, Nat.not_lt_zero, decide_false,
    small Fld.FLD_P_HUDDLE_EN (by decide), small Fld.FLD_P_HUDDLE_ID (by decide), Bool.or_self, Bool.false_eq_true, if_false]

end Sys2Proof.Machine

/-! Roles (O32): written, judged, in effect. -/

namespace Sys2Proof.Machine

variable (s : State) (p : Port)

/-! ### A role or a huddle judged (R49, R50) -/

theorem judgeHuddle_free (h : s.roleAsked p ≠ 5) : s.judgeHuddle p = s := by
  simp [State.judgeHuddle, h]

theorem judgeRole_free (h : s.roleAsked p < 3) : s.judgeRole p = s := by
  have three : s.roleAsked p ≠ 3 := by omega
  have four : s.roleAsked p ≠ 4 := by omega
  have five : s.roleAsked p ≠ 5 := by omega
  have kept : s.roleRefused p = false := by simp [State.roleRefused, three, four, five]
  simp only [State.judgeRole, kept, Bool.false_eq_true, if_false]
  exact judgeHuddle_free s p five

theorem modeStatus_ne_huddle : Reg.PRO_P_MODE_STATUS p ≠ Reg.FLD_P_HUDDLE p := ownReg_ne

theorem role_ne_huddle : Reg.PRO_P_ROLE p ≠ Reg.FLD_P_HUDDLE p := ownReg_ne

theorem role_ne_modeStatus : Reg.PRO_P_ROLE p ≠ Reg.PRO_P_MODE_STATUS p := ownReg_ne

theorem reg_stick (a : Nat) (f : Field) (b : Nat) : (s.stick a f).reg b = (s.setFld a f 1).reg b := rfl

theorem modeConflict_regs (n : Nat) : (s.modeConflict n).regs = s.regs := rfl

theorem judgeHuddle_role : (s.judgeHuddle p).reg (Reg.PRO_P_ROLE p) = s.reg (Reg.PRO_P_ROLE p) := by
  unfold State.judgeHuddle
  split
  · exact (reg_setFld_ne _ _ _ _ _ (role_ne_modeStatus p)).trans (reg_setFld_ne _ _ _ _ _ (role_ne_huddle p))
  · rfl

/-- Judging the huddle leaves the mark of a refused role. -/
theorem judgeHuddle_refused : (s.judgeHuddle p).flag (Reg.PRO_P_MODE_STATUS p) Fld.PRO_P_MODE_STATUS_ROLE_REFUSED =
    s.flag (Reg.PRO_P_MODE_STATUS p) Fld.PRO_P_MODE_STATUS_ROLE_REFUSED := by
  obtain ⟨u, hu⟩ : ∃ u, u = s.setFld (Reg.FLD_P_HUDDLE p) Fld.FLD_P_HUDDLE_EN 0 := ⟨_, rfl⟩
  have removed : u.reg (Reg.PRO_P_MODE_STATUS p) = s.reg (Reg.PRO_P_MODE_STATUS p) := by
    rw [hu, reg_setFld_ne _ _ _ _ _ (modeStatus_ne_huddle p)]
  unfold State.judgeHuddle
  rw [← hu]
  split
  · rw [flag_of_reg (reg_of_regs (modeConflict_regs _ p) _), flag_of_reg (reg_stick u _ _ _)]
    rw [flag_setFld_other u _ _ _ _ (by decide) (by decide), flag_of_reg removed]
  · rfl

theorem staysPosted_modeConflict (n : Nat) : StaysPosted s (s.modeConflict n) :=
  (staysPosted_post s 0x5006 .top (n + 0x100 * s.roleAsked n)).trans (.of_posted rfl)

theorem posted_modeConflict (n : Nat) : Posted 0x5006 .top (n + 0x100 * s.roleAsked n) (s.modeConflict n) := posted_post s _ _ _

theorem staysPosted_stick (a : Nat) (f : Field) : StaysPosted s (s.stick a f) := .of_posted rfl

theorem staysPosted_judgeHuddle : StaysPosted s (s.judgeHuddle p) := by
  have removed : StaysPosted s (s.setFld (Reg.FLD_P_HUDDLE p) Fld.FLD_P_HUDDLE_EN 0) := .of_obs rfl
  have marked := removed.trans (staysPosted_stick _ (Reg.PRO_P_MODE_STATUS p) Fld.PRO_P_MODE_STATUS_HUDDLE_REMOVED)
  exact .ite (marked.trans (staysPosted_modeConflict _ p)) (.of_obs rfl)

/-- A role that R50 refuses the port is marked and posted, and none is due. -/
theorem judgeRole_refuses (h : s.roleRefused p = true) :
    (s.judgeRole p).flag (Reg.PRO_P_MODE_STATUS p) Fld.PRO_P_MODE_STATUS_ROLE_REFUSED = true ∧
    Posted 0x5006 .top (p + 0x100 * s.roleAsked p) (s.judgeRole p) ∧
    (s.judgeRole p).roleAsked p = s.roleAsked p := by
  obtain ⟨u, hu⟩ : ∃ u, u = s.stick (Reg.PRO_P_MODE_STATUS p) Fld.PRO_P_MODE_STATUS_ROLE_REFUSED := ⟨_, rfl⟩
  have role : u.roleAsked p = s.roleAsked p := by
    rw [hu]
    exact fld_of_reg ((reg_stick s _ _ _).trans (reg_setFld_ne _ _ _ _ _ (role_ne_modeStatus p))) _
  have marked : u.flag (Reg.PRO_P_MODE_STATUS p) Fld.PRO_P_MODE_STATUS_ROLE_REFUSED = true := by
    rw [hu, flag_of_reg (reg_stick s _ _ _), flag_setFld_same _ _ _ _ (by decide)]
    rfl
  have judged : s.judgeRole p = (u.modeConflict p).judgeHuddle p := by simp only [State.judgeRole, if_pos h, ← hu]
  have noted (a : Nat) : (u.modeConflict p).reg a = u.reg a := reg_of_regs (modeConflict_regs u p) a
  rw [judged, judgeHuddle_refused, flag_of_reg (noted _), ← role]
  exact ⟨marked, staysPosted_judgeHuddle _ p (posted_modeConflict u p), fld_of_reg ((judgeHuddle_role _ p).trans (noted _)) _⟩

theorem roleDue_refused (h5 : s.roleAsked p = 5) (hp : 4 ≤ p.val) : s.roleDue p = 0 := by
  simp [State.roleDue, State.roleRefused, h5, hp]

/-! ### A reader that leaves its role (R52, R89) -/

theorem pp_modP (n : Nat) (f : PortP → PortP) : (s.modP n f).pp p = if p.val = n then f (s.pp p) else s.pp p := by
  split
  · rename_i h
    rw [← h, pp_modP_same]
  · rename_i h
    exact pp_modP_ne s n p f h

/-- The port has no job and owes nothing. -/
def Jobless (p : Port) (s : State) : Prop := (s.pp p).job = none ∧ (s.pp p).owed = []

theorem Jobless.of_pro {p : Port} {s t : State} (h : Jobless p s) (k : t.pro = s.pro) : Jobless p t := by rwa [Jobless, pp_of_pro k]

theorem dropJob_job (skip : Bool) : ((s.dropJob p skip).pp p).job = none := by
  unfold State.dropJob
  split
  · assumption
  · refine (congrArg PortP.job (pp_of_pro (modX_keeps _ p _).2.2.2.2.2.2.2.2.2.2.2.2.2.2.1 p)).trans ?_
    exact congrArg PortP.job (pp_modP_same _ p _)

theorem Jobless.forgetSess {p : Port} {s : State} (h : Jobless p s) (n k : Nat) (x : Session) : Jobless p (s.forgetSess n k x) := by
  obtain ⟨job, owed⟩ := h
  rw [Jobless, State.forgetSess, pp_modP]
  split
  · exact ⟨by dsimp only; rw [job]; rfl, owed⟩
  · exact ⟨job, owed⟩

theorem Jobless.leaveSess {p : Port} {s : State} (h : Jobless p s) (k : Nat) : Jobless p (s.leaveSess k) := by
  cases hx : s.session k with
  | none => simpa only [State.leaveSess, hx] using h
  | some x =>
    by_cases live : x.live = true ∧ s.gen.phase ≠ .safe
    · have forgot := h.forgetSess x.port k x
      have closing : (s.closing k x).pro = (s.forgetSess x.port k x).pro := by
        have closed := (within_modSess (s.forgetSess x.port k x) k (fun y => { y with state := .closing }) (.refl _) (.refl _ _)).parts .pro (by decide)
        exact closed
      have released := keeps_releasing (s.closing k x) x (s.role x.port) .pro (by decide)
      have settled := (within_settleSess ((s.closing k x).releasing x (s.role x.port)) k (.refl _) (.refl _ _)).parts .pro (by decide)
      rw [leaveSess_eq s k hx live.1 live.2]
      exact ((forgot.of_pro closing).of_pro released).of_pro settled
    · simp only [State.leaveSess, hx]
      rw [if_neg (by simpa using live)]
      exact h

theorem Jobless.leaveAll {p : Port} {s : State} (h : Jobless p s) (l : List (Nat × Session)) :
    Jobless p (l.foldl (fun (t : State) (x : Nat × Session) => if x.2.port = p then t.leaveSess x.1 else t) s) := by
  induction l generalizing s with
  | nil => exact h
  | cons x l ih =>
    rw [List.foldl_cons]
    split
    · exact ih (h.leaveSess _)
    · exact ih h

theorem leaveReader_jobless : Jobless p (s.leaveReader p) := by
  obtain ⟨u, hu⟩ : ∃ u, u = (s.dropJob p false).modP p fun x => { x with entry := 0, waitEnd := none, offWait := false, owed := [] } := ⟨_, rfl⟩
  have jobless : Jobless p u := by
    rw [Jobless, hu, pp_modP_same]
    exact ⟨dropJob_job s p false, rfl⟩
  simp only [State.leaveReader, ← hu]
  exact (jobless.leaveAll u.sess).of_pro rfl

/-! ### A role that takes effect (R52, R71) -/

/-- The register that shows the effective role keeps its word. -/
def SameMode (p : Port) (s t : State) : Prop := t.reg (Reg.PRO_P_MODE_STATUS p) = s.reg (Reg.PRO_P_MODE_STATUS p)

theorem SameMode.trans {p : Port} {s t u : State} (h : SameMode p s t) (k : SameMode p t u) : SameMode p s u := Eq.trans k h

theorem SameMode.of_within {p : Port} {s t : State} {c : Scope} (h : Within c s t)
    (hc : ∀ q : Port, missesRegs c.regs (Reg.PRO_P_MODE_STATUS q) = true := by decide +kernel) : SameMode p s t := h.reg_of_misses _ (hc p)

/-- The role given up, before the waits of the port end. -/
def State.roleLeft (s : State) (p : Port) : State :=
  let s1 := s.setFld (Reg.PRO_P_MODE_STATUS p) Fld.PRO_P_MODE_STATUS_EFFECTIVE (s.roleDue p)
  let s2 := if s.role p = 2 then (s1.leaveReader p).abandonSearch p else s1
  if s.roleDue p = 1 then s2.modT p fun x => { x with baseCount := 0 } else s2

/-- The waits of a port ended, its receiver at rest. -/
def State.waitsEnded (s : State) (p : Port) : State :=
  let s3 := (s.modP p fun x => { x with holdEnd := none, rfca := .none }).modX p fun x => { x with waitEnd := none, retryAt := none }
  let s4 := if (s3.pr p).listening then s3.rxIdle p else s3
  s4.modF p fun x => if (s4.pp p).xch.isNone then { x with txEnd := none } else x

theorem roleLeft_role : (s.roleLeft p).role p = s.roleDue p := by
  obtain ⟨u, hu⟩ : ∃ u, u = s.setFld (Reg.PRO_P_MODE_STATUS p) Fld.PRO_P_MODE_STATUS_EFFECTIVE (s.roleDue p) := ⟨_, rfl⟩
  have small : s.roleDue p < 8 := by
    unfold State.roleDue
    split
    · decide
    · exact Field.get_lt _ _
  have set : u.role p = s.roleDue p := by
    rw [hu]
    exact (fld_setFld_same s _ _ _ (by decide)).trans (Nat.mod_eq_of_lt small)
  have left : SameMode p u (if s.role p = 2 then (u.leaveReader p).abandonSearch p else u) := by
    split
    · have gone : SameMode p u (u.leaveReader p) := .of_within (within_leaveReader u p (.refl _) (.refl _ u))
      exact gone.trans (.of_within (within_abandonSearch _ p (.refl _) (.refl _ _)))
    · exact rfl
  have same : SameMode p u (s.roleLeft p) := by
    simp only [State.roleLeft, ← hu]
    split
    · exact left
    · exact left
  exact (fld_of_reg same _).trans set

theorem roleLeft_jobless (h : s.role p = 2) : Jobless p (s.roleLeft p) := by
  obtain ⟨u, hu⟩ : ∃ u, u = s.setFld (Reg.PRO_P_MODE_STATUS p) Fld.PRO_P_MODE_STATUS_EFFECTIVE (s.roleDue p) := ⟨_, rfl⟩
  have left : Jobless p ((u.leaveReader p).abandonSearch p) :=
    (leaveReader_jobless u p).of_pro ((within_abandonSearch _ p (.refl _) (.refl _ _)).parts .pro (by decide))
  simp only [State.roleLeft, if_pos h, ← hu]
  split
  · exact left
  · exact left

/-- The port's protocol engine has no hold and no collision avoidance. -/
structure Waitless (p : Port) (s t : State) : Prop where
  hold : (t.pp p).holdEnd = none
  rfca : (t.pp p).rfca = .none
  jobless : Jobless p s → Jobless p t

theorem Waitless.of_pro {p : Port} {s t u : State} (h : Waitless p s t) (k : u.pro = t.pro) : Waitless p s u := by
  obtain ⟨hold, rfca, jobless⟩ := h
  exact ⟨by rwa [pp_of_pro k], by rwa [pp_of_pro k], fun j => (jobless j).of_pro k⟩

theorem waitsEnded_waitless : Waitless p s (s.waitsEnded p) := by
  obtain ⟨u, hu⟩ : ∃ u, u = s.modP p fun x => { x with holdEnd := none, rfca := .none } := ⟨_, rfl⟩
  have pp : u.pp p = { s.pp p with holdEnd := none, rfca := .none } := by rw [hu, pp_modP_same]
  have ended : Waitless p s u := by
    refine ⟨by rw [pp], by rw [pp], fun j => ?_⟩
    rwa [Jobless, pp]
  simp only [State.waitsEnded, ← hu]
  split
  · exact ended.of_pro rfl
  · exact ended.of_pro rfl

theorem waitsEnded_mode : SameMode p s (s.waitsEnded p) := by
  obtain ⟨u, hu⟩ : ∃ u, u = (s.modP p fun x => { x with holdEnd := none, rfca := .none }).modX p fun x => { x with waitEnd := none, retryAt := none } :=
    ⟨_, rfl⟩
  have same : SameMode p s u := by rw [hu]; exact rfl
  simp only [State.waitsEnded, ← hu]
  split
  · have idle : SameMode p u (u.rxIdle p) := .of_within (within_rxIdle u p (.refl _) (.refl _ u))
    exact same.trans idle
  · exact same

theorem rejudge_waitless {t : State} (h : Waitless p s t) : Waitless p s (t.rejudge p) := by
  unfold State.rejudge
  split
  · split
    · rename_i f _ _
      obtain ⟨u, hu⟩ : ∃ u, u = ((t.modP p fun x => { x with plan := none }).undue p).modX p fun x => { x with deferrals := 0 } := ⟨_, rfl⟩
      have pp : u.pp p = { t.pp p with plan := none } := by
        rw [hu]
        exact pp_modP_same t p _
      obtain ⟨-, staged, -⟩ := completeUnsent_leaves u p f.frame.tag 7 (f.synUs t.settledBy) f.heldSyn
      rw [← hu]
      obtain ⟨hold, rfca, jobless⟩ := h
      refine Waitless.of_pro (t := u.completeUnsent p f.frame.tag 7 (f.synUs t.settledBy) f.heldSyn) ?_ (by simp)
      refine ⟨by rw [staged, pp]; exact hold, by rw [staged, pp]; exact rfca, fun j => ?_⟩
      rw [Jobless, staged, pp]
      exact jobless j
    · exact h
  · exact h

/-- The state after a role has taken effect. -/
def State.roleTaken (s : State) (p : Port) : State :=
  (((((((s.roleLeft p).waitsEnded p).rejudge p).radioFollows p).syncEmu).endListen p).tryOffs)

theorem roleTaken_spec : (s.roleTaken p).role p = s.roleDue p ∧ Waitless p (s.roleLeft p) (s.roleTaken p) := by
  obtain ⟨u, hu⟩ : ∃ u, u = (s.roleLeft p).waitsEnded p := ⟨_, rfl⟩
  have w1 := within_rejudge u p (.refl _) (.refl _ u)
  have w2 := within_radioFollows (u.rejudge p) p (.refl _) (.refl _ _)
  have w3 := within_syncEmu ((u.rejudge p).radioFollows p) (.refl _) (.refl _ _)
  have w4 := within_endListen ((u.rejudge p).radioFollows p).syncEmu p (.refl _) (.refl _ _)
  have w5 := within_tryOffs (((u.rejudge p).radioFollows p).syncEmu.endListen p) (.refl _) (.refl _ _)
  have same : SameMode p (s.roleLeft p) (s.roleTaken p) := by
    rw [State.roleTaken, ← hu]
    exact (hu ▸ waitsEnded_mode _ p : SameMode p (s.roleLeft p) u).trans ((SameMode.of_within w1).trans ((SameMode.of_within w2).trans
      ((SameMode.of_within w3).trans ((SameMode.of_within w4).trans (SameMode.of_within w5)))))
  refine ⟨(fld_of_reg same _).trans (roleLeft_role s p), ?_⟩
  have ended : Waitless p (s.roleLeft p) u := hu ▸ waitsEnded_waitless _ p
  rw [State.roleTaken, ← hu]
  exact ((((rejudge_waitless _ p ended).of_pro (w2.parts .pro (by decide))).of_pro (w3.parts .pro (by decide))).of_pro
    (w4.parts .pro (by decide))).of_pro (w5.parts .pro (by decide))

section
variable {s p} {P : State → Prop}

theorem does_roleChange (hr : Running s) (hrole : s.role p ≠ s.roleDue p) (hx : (s.pp p).xch = none) (hp : P (s.roleTaken p)) :
    Does (.roleChangeApply p) s P := by
  refine does_running (o := execRoleChangeApply p s) rfl rfl hr ?_ hp
  simp only [hrole, hx, decide_false, Option.isSome_none, Bool.or_self, Bool.false_eq_true, if_false]
  rfl

theorem does_roleChange_not (hr : Running s) (h : s.role p = s.roleDue p ∨ (s.pp p).xch ≠ none) (hp : P s) : Does (.roleChangeApply p) s P := by
  refine does_running (o := execRoleChangeApply p s) rfl rfl hr (if_pos ?_) hp
  rcases h with h | h
  · simp [h]
  · simp [Option.isSome_iff_ne_none.2 h]

end

end Sys2Proof.Machine

/-! Huddles (O32): the slots that no step of a start opens, and the slot of an only member. -/

namespace Sys2Proof.Machine

variable (s : State)

/-! ### Slots that stay closed -/

/-- No huddle's slot opens or closes. -/
def SameSlots (s t : State) : Prop := ∀ h : Huddle, (t.hud h).txEnd = (s.hud h).txEnd ∧ (t.hud h).listening = (s.hud h).listening

theorem SameSlots.refl (s : State) : SameSlots s s := fun _ => ⟨rfl, rfl⟩

theorem SameSlots.trans {s t u : State} (h : SameSlots s t) (k : SameSlots t u) : SameSlots s u := fun x =>
  ⟨(k x).1.trans (h x).1, (k x).2.trans (h x).2⟩

theorem SameSlots.of_field {s t : State} (h : t.field = s.field) : SameSlots s t := fun x => by rw [hud_of_field h]; exact ⟨rfl, rfl⟩

theorem SameSlots.ite {s t u : State} {c : Prop} [Decidable c] (h : SameSlots s t) (k : SameSlots s u) : SameSlots s (if c then t else u) := by
  split
  · exact h
  · exact k

theorem SameSlots.foldl {α : Type} {f : State → α → State} (h : ∀ t a, SameSlots t (f t a)) (l : List α) (s : State) :
    SameSlots s (l.foldl f s) := by
  induction l generalizing s with
  | nil => exact .refl s
  | cons a l ih => exact (h s a).trans (ih _)

theorem sameSlots_modF (n : Nat) (f : PortF → PortF) : SameSlots s (s.modF n f) := fun _ => ⟨rfl, rfl⟩

theorem sameSlots_modH (n : Nat) (f : HuddleSt → HuddleSt) (hf : ∀ x, (f x).txEnd = x.txEnd ∧ (f x).listening = x.listening) :
    SameSlots s (s.modH n f) := by
  intro h
  by_cases hn : h.val = n
  · rw [← hn, hud_modH_same]
    exact hf _
  · rw [hud_modH_ne _ _ _ _ hn]
    exact ⟨rfl, rfl⟩

theorem sameSlots_syncMember (n : Nat) (at_ : Option Nat) : SameSlots s (s.syncMember n at_) := by
  have member (t : State) (h : Nat) (b : Bool) : SameSlots t (t.modH h fun x => { x with members := setBit x.members n b }) :=
    sameSlots_modH t h _ fun _ => ⟨rfl, rfl⟩
  have left : SameSlots s (match s.huddleOf n with
      | some h => s.modH h fun x => { x with members := setBit x.members n false }
      | none => s) := by
    split
    · exact member s _ _
    · exact .refl s
  unfold State.syncMember
  dsimp only
  split
  · exact .refl s
  · split
    · exact left.trans (member _ _ _)
    · exact left

theorem sameSlots_syncHuddles (at_ : Option Nat) : SameSlots s (s.syncHuddles at_) := by
  unfold State.syncHuddles
  induction 16 with
  | zero => exact .refl s
  | succ n ih => exact ih.trans (sameSlots_syncMember _ n at_)

theorem sameSlots_askOn (n : Nat) : SameSlots s (s.askOn n) := by
  have started : SameSlots s s.startSyn := by
    unfold State.startSyn
    split
    · exact .refl s
    · exact fun _ => ⟨rfl, rfl⟩
  unfold State.askOn
  dsimp only
  split
  · exact started.trans (sameSlots_modF _ n _)
  · exact .refl s

theorem sameSlots_needField (n : Nat) : SameSlots s (s.needField n) := by
  unfold State.needField
  dsimp only
  refine .ite (.ite (sameSlots_askOn s n) (.ite ?_ (.refl s))) (.refl s)
  split
  · exact .of_field rfl
  · exact sameSlots_askOn s n
  · exact sameSlots_askOn s n
  · exact .refl s

theorem sameSlots_abortStep (n : Nat) : SameSlots s (s.abortStep n) := by
  unfold State.abortStep
  split
  · exact sameSlots_modF s n _
  · exact .refl s

theorem sameSlots_advance (e : Nat) : SameSlots s (s.advance e) := .of_field (by simp)

theorem sameSlots_leaveCal (l : List Nat) : SameSlots s (s.leaveCal l) := by
  have aborted : SameSlots s (l.foldl State.abortStep s.takeFreeWord.1) :=
    SameSlots.trans (t := s.takeFreeWord.1) (.of_field rfl) (.foldl (fun t n => sameSlots_abortStep t n) l _)
  exact aborted.trans (sameSlots_advance _ _)

theorem sameSlots_lockPast : SameSlots s s.lockPast := by
  unfold State.lockPast
  refine .ite ?_ (.refl s)
  intro h
  have huddles : s.lockSyn.field.huddles = s.field.huddles := by rw [lockSyn_field]
  rw [State.hud, State.hud, huddles]
  exact ⟨rfl, rfl⟩

theorem sameSlots_atLead (e : Nat) : SameSlots s (s.atLead e) :=
  .of_field ((within_atLead s e (.refl _) (.refl _ s)).parts .field (by decide))

theorem sameSlots_pickPlan (n : Nat) : SameSlots s (s.pickPlan n) :=
  .of_field ((within_pickPlan s n (.refl _) (.refl _ s)).parts .field (by decide))

theorem sameSlots_holdSyn (n : Nat) : SameSlots s (s.holdSyn n) := .of_field rfl

/-! ### A slot's start (R201) -/

/-- A slot that has not opened, or has opened and waits for nothing. -/
def SlotDone (h : Huddle) (t : State) : Prop :=
  (t.hud h).listening = false ∧ ((t.hud h).txEnd ≠ none → (t.hud h).dueSince = none ∧ (t.hud h).starved = false)

theorem slotClosed_iff (h : Nat) : s.slotOpen h = false ↔ (s.hud h).txEnd = none ∧ (s.hud h).listening = false := by
  simp [State.slotOpen]

theorem SlotDone.of_closed {h : Huddle} {t : State} (hc : s.slotOpen h = false) (k : SameSlots s t) : SlotDone h t := by
  obtain ⟨txEnd, listening⟩ := (slotClosed_iff s h).1 hc
  obtain ⟨same, same'⟩ := k h
  exact ⟨same'.trans listening, fun c => absurd (same.trans txEnd) c⟩

theorem SlotDone.ite {h : Huddle} {t u : State} {c : Prop} [Decidable c] (ht : SlotDone h t) (hu : SlotDone h u) : SlotDone h (if c then t else u) := by
  split
  · exact ht
  · exact hu

theorem slotDone_opened (h : Huddle) (te : Nat) :
    SlotDone h (s.modH h fun x => { x with txEnd := some te, listening := false, dueSince := none, starved := false }) := by
  rw [SlotDone, hud_modH_same]
  exact ⟨rfl, fun _ => ⟨rfl, rfl⟩⟩

theorem endSlot_closed {h : Nat} (hc : s.slotOpen h = false) : s.endSlot h = s := by simp [State.endSlot, hc]

theorem endSlot_busy {h : Nat} (hb : s.slotBusy h = true) : s.endSlot h = s := by simp [State.endSlot, hb]

/-- The members of a huddle's slot with their frames picked. -/
def State.slotPicked (s : State) (h : Nat) : State :=
  ((List.range 16).filter fun n => (s.syncHuddles (some h)).huddled n = some h).foldl (fun (t : State) n => (t.pickPlan n).needField n)
    (s.syncHuddles (some h))

theorem sameSlots_slotPicked (h : Nat) : SameSlots s (s.slotPicked h) :=
  (sameSlots_syncHuddles s _).trans (.foldl (fun t n => (sameSlots_pickPlan t n).trans (sameSlots_needField _ n)) _ _)

/-- A slot's start with the parts of its members. -/
def State.slotParts (s2 : State) (h : Nat) (members : List Nat) (parts : List Part) : State :=
  match parts with
  | [] => s2.modH h fun x => { x with dueSince := none, starved := false }
  | p0 :: rest =>
    let t := (s2.atLead (rest.foldl (fun m (p : Part) => min m p.due) p0.due)).lockPast
    let held := fun (u : State) => u.modH h fun x => { x with dueSince := some (x.dueSince.getD t.time) }
    if !t.locked && !t.gen.fieldsOff then members.foldl State.holdSyn (held t)
    else
      let due := parts.filter fun p => decide (p.due ≤ t.time)
      let mine := due.filter (t.partSlot due)
      let cals := (mine.map fun p => p.port).filter fun n => decide ((t.pf n).radio = .cal)
      let span := mine.foldl (fun m (p : Part) => max m p.span) 0
      let win := mine.foldl (fun m (p : Part) => max m p.win) 0
      if mine = [] then t
      else if t.keepClear p0.port (t.time + span + if cals = [] then 0 else usec) win then
        let u := if cals = [] then t else t.leaveCal cals
        let te := u.time + span
        (mine.foldl (State.commitPart te) u).modH h fun x => { x with txEnd := some te, listening := false, dueSince := none, starved := false }
      else held t

theorem slotParts_done (h : Huddle) (members : List Nat) (parts : List Part) (hc : s.slotOpen h = false) :
    SlotDone h (s.slotParts h members parts) := by
  cases parts with
  | nil => exact .of_closed s hc (sameSlots_modH s h _ fun _ => ⟨rfl, rfl⟩)
  | cons p0 rest =>
    unfold State.slotParts
    dsimp only
    generalize ht : (s.atLead (rest.foldl (fun m (p : Part) => min m p.due) p0.due)).lockPast = t
    have lead : SameSlots s t := ht ▸ (sameSlots_atLead s _).trans (sameSlots_lockPast _)
    have held : SameSlots s (t.modH h fun x => { x with dueSince := some (x.dueSince.getD t.time) }) :=
      lead.trans (sameSlots_modH t h _ fun _ => ⟨rfl, rfl⟩)
    exact .ite (.of_closed s hc (held.trans (.foldl (fun u n => sameSlots_holdSyn u n) _ _)))
      (.ite (.of_closed s hc lead) (.ite (slotDone_opened _ h _) (.of_closed s hc held)))

theorem does_slotStart {h : Huddle} {P : State → Prop} (hr : Running s) (hc : s.slotOpen h = false)
    (hp : P ((s.slotPicked h).slotParts h ((List.range 16).filter fun n => (s.syncHuddles (some h.val)).huddled n = some h.val)
      (((List.range 16).filter fun n => (s.syncHuddles (some h.val)).huddled n = some h.val).filterMap (s.slotPicked h).partOf))) :
    Does (.huddleSlotStart h) s P := by
  refine does_running (o := execHuddleSlotStart h s) rfl rfl hr ?_ hp
  simp only [endSlot_closed s hc, hc, Bool.false_eq_true, if_false]
  rfl

theorem does_slotStart_open {h : Huddle} {P : State → Prop} (hr : Running s) (ho : s.slotOpen h = true) (hb : s.slotBusy h = true) (hp : P s) :
    Does (.huddleSlotStart h) s P := by
  refine does_running (o := execHuddleSlotStart h s) rfl rfl hr ?_ hp
  simp only [endSlot_busy s hb, ho, if_true]

/-- A slot that starts, or does not, waits for nothing once open. -/
theorem slotStart_done {h : Huddle} (hc : s.slotOpen h = false) (members : List Nat) (parts : List Part) :
    SlotDone h ((s.slotPicked h).slotParts h members parts) := by
  have picked := sameSlots_slotPicked s h
  obtain ⟨txEnd, listening⟩ := (slotClosed_iff s h).1 hc
  have closed : (s.slotPicked h).slotOpen h = false := (slotClosed_iff _ h).2 ⟨(picked h).1.trans txEnd, (picked h).2.trans listening⟩
  exact slotParts_done _ h members parts closed

/-! ### The slot of an only member (R201) -/

theorem pickPlan_planned {n : Nat} {f : Plan} (h : (s.pp n).plan = some f) : s.pickPlan n = s := by
  simp [State.pickPlan, h]

theorem needField_on {n : Nat} (h : (s.pf n).carrier = true) : s.needField n = s := by
  simp [State.needField, h]

theorem atLead_past {e : Nat} (h : e ≤ s.time) (hreq : s.flag Reg.COX_CTRL Fld.COX_CTRL_REQ_EN = false) : s.atLead e = s := by
  have none_left : max e s.leadEnd ≤ s.time := by
    rw [State.leadEnd, hreq, if_neg Bool.false_ne_true, Nat.max_zero]
    exact h
  simp only [State.atLead, hreq, Bool.false_eq_true, if_false]
  rw [State.advance, if_pos none_left]

theorem lockPast_settled (h : s.settlePast = false) : s.lockPast = s := by simp [State.lockPast, h]

/-- The one part of a slot, committed. -/
def State.slotOpened (s : State) (h : Huddle) (p : Port) (span win : Nat) : State :=
  (State.commitPart (s.time + span) s { port := p, due := 0, span := span, win := win, ramp := false }).modH h fun x =>
    { x with txEnd := some (s.time + span), listening := false, dueSince := none, starved := false }

theorem slotParts_only {h : Huddle} {p : Port} {due span win : Nat} (hdue : due ≤ s.time)
    (hreq : s.flag Reg.COX_CTRL Fld.COX_CTRL_REQ_EN = false) (hlock : s.locked = true) (hpast : s.settlePast = false)
    (hradio : (s.pf p).radio = .field) (hclear : s.keepClear p (s.time + span) win = true) :
    s.slotParts h [p.val] [{ port := p, due := due, span := span, win := win, ramp := false }] = s.slotOpened h p span win := by
  simp only [State.slotParts, List.foldl_nil, atLead_past s hdue hreq, lockPast_settled s hpast, hlock, Bool.not_true, Bool.false_and,
    Bool.false_eq_true, if_false, List.filter_cons, decide_eq_true hdue, if_true, List.filter_nil, State.partSlot, Bool.not_false, Bool.true_or,
    List.map_cons, List.map_nil, hradio, reduceCtorEq, decide_false, List.foldl_cons, List.cons_ne_self, Nat.zero_max, Nat.add_zero, hclear]
  rfl

theorem commitPart_field (te : Nat) (q : Part) :
    ∃ u, OnlyObs s u ∧ State.commitPart te s q = u.modF q.port fun x => { x with txFrom := te - q.span, txEnd := some te, winLen := q.win, rampDue := q.ramp } := by
  unfold State.commitPart
  split
  · exact ⟨s.countBy _ _, onlyObs_countBy s _ _, rfl⟩
  · exact ⟨s, rfl, rfl⟩

/-- What the start of an only member's slot leaves. -/
theorem slotOpened_leaves (h : Huddle) (p : Port) (span win : Nat) :
    let t := s.slotOpened h p span win
    (t.hud h).txEnd = some (s.time + span) ∧ (t.hud h).listening = false ∧ (t.hud h).dueSince = none ∧ (t.hud h).starved = false ∧
    t.pf p = { s.pf p with txFrom := s.time, txEnd := some (s.time + span), winLen := win, rampDue := false } ∧
    (∀ m, m ≠ p.val → t.pf m = s.pf m) ∧ Keeps [.field, .obs] s t := by
  obtain ⟨u, hu, commit⟩ := commitPart_field s (s.time + span) { port := p, due := 0, span := span, win := win, ramp := false }
  have field : u.field = s.field := by rw [hu]
  have keeps : Keeps [.obs] s u := (within_obs hu (.refl _) (.refl _ s)).parts
  dsimp only
  rw [State.slotOpened, commit, hud_modH_same]
  refine ⟨rfl, rfl, rfl, rfl, ?_, fun m hm => ?_, ?_⟩
  · rw [pf_modH, pf_modF_same, pf_of_field field]
    simp only [Nat.add_sub_cancel]
  · rw [pf_modH, pf_modF_ne _ _ _ _ hm, pf_of_field field]
  · exact (keeps.join (keeps_modF u p _)).trans ((within_modH _ h _ (.refl _) (.refl _ _)).parts.mono (by decide))

theorem slotPicked_only {h : Huddle} {p : Port} {f : Plan} (hsync : s.syncHuddles (some h.val) = s)
    (honly : (List.range 16).filter (fun n => decide (s.huddled n = some h.val)) = [p.val]) (hplan : (s.pp p).plan = some f)
    (hon : (s.pf p).carrier = true) : s.slotPicked h = s := by
  rw [State.slotPicked, hsync, honly, List.foldl_cons, List.foldl_nil, pickPlan_planned s hplan, needField_on s hon]

/-! ### HUDDLE written (R201) -/

theorem writeHuddle_eq (p : Port) (v : Word) (h : s.roleAsked p ≠ 5) :
    s.writeHuddle p v = (s.writeReg (Reg.FLD_P_HUDDLE p) v).syncMember p none := by
  have asked : (s.writeReg (Reg.FLD_P_HUDDLE p) v).roleAsked p = s.roleAsked p := by
    rw [writeReg_huddle]
    exact fld_of_reg (reg_setReg_ne s _ _ _ (role_ne_huddle p)) _
  rw [State.writeHuddle, judgeHuddle_free _ p (by rwa [asked])]

theorem writeHuddle_en (p : Port) (v : Word) (h : s.roleAsked p ≠ 5) :
    (s.writeHuddle p v).fld (Reg.FLD_P_HUDDLE p) Fld.FLD_P_HUDDLE_EN = v.toNat % 2 ∧ Keeps [.regs, .field, .obs] s (s.writeHuddle p v) := by
  obtain ⟨u, hu⟩ : ∃ u, u = s.writeReg (Reg.FLD_P_HUDDLE p) v := ⟨_, rfl⟩
  have member := within_syncMember u p none (.refl _) (.refl _ u)
  have written : u.fld (Reg.FLD_P_HUDDLE p) Fld.FLD_P_HUDDLE_EN = v.toNat % 2 := by
    rw [hu, writeReg_huddle, State.fld, reg_setReg_same, Field.get_set_other _ _ _ _ (by decide) (by decide), Field.get_set_same _ _ _ (by decide)]
    rw [Nat.mod_eq_of_lt (Field.get_lt _ _)]
    rfl
  have keeps : Keeps [.regs, .obs] s u := by
    rw [hu, writeReg_huddle]
    exact keeps_setReg s _ _
  rw [writeHuddle_eq s p v h, ← hu]
  exact ⟨(fld_of_reg (member.regs_same _) _).trans written, keeps.join member.parts⟩

/-! ### The transmit chain biased (R71) -/

theorem does_biased {p : Port} {b : Nat} {P : State → Prop} (hr : Running s) (hb : (s.pf p).biasFrom = some b) (hlock : s.locked = true)
    (hrole : s.role p ≠ 4) (hp : P ((s.advance (b + 15 * usec)).modF p fun x => { x with biasFrom := none, radio := .standby })) :
    Does (.transmitChainBiased p) s P := by
  refine does_running (o := execTransmitChainBiased p s) rfl rfl hr ?_ hp
  have role : (s.advance (b + 15 * usec)).role p ≠ 4 := by simpa using hrole
  simp only [hb, hlock, if_true, if_neg role]

theorem does_roleWrite {p : Port} {v : Word} {P : State → Prop} (hr : Running s) (h : Fld.PRO_P_ROLE_ROLE.get v ≤ 5)
    (hp : P ((s.setFld (Reg.PRO_P_ROLE p) Fld.PRO_P_ROLE_ROLE (Fld.PRO_P_ROLE_ROLE.get v)).judgeRole p)) : Does (.roleWrite p v) s P := by
  refine does_running (o := execRoleWrite p v s) rfl rfl hr ?_ hp
  rw [State.writeRole, if_pos (by omega), writeReg_role s p h]

/-- Settles O32: a role written and judged, taken over or not; a slot that is busy, that starts, that an only member starts; the bias of a chain. -/
theorem rolesTakeEffect : Obligations.RolesTakeEffect := by
  refine ⟨?_, ?_, ?_, ?_, ?_, ?_, ?_, ?_, ?_⟩
  · intro s p r hr _
    have value : Fld.PRO_P_ROLE_ROLE.get (word r.val) = r.val := by
      revert r
      decide
    refine does_roleWrite s hr (by rw [value]; omega) ?_
    rw [value]
    have asked : (s.setFld (Reg.PRO_P_ROLE p) Fld.PRO_P_ROLE_ROLE r.val).roleAsked p = r.val :=
      (fld_setFld_same s _ _ _ (by decide)).trans (Nat.mod_eq_of_lt (by show r.val < 8; omega))
    rw [judgeRole_free _ p (by rw [asked]; exact r.isLt)]
    exact ⟨asked, keeps_setReg s _ _⟩
  · intro s p hr _ hp
    refine does_roleWrite s hr (by decide) ?_
    obtain ⟨u, hu⟩ : ∃ u, u = s.setFld (Reg.PRO_P_ROLE p) Fld.PRO_P_ROLE_ROLE (Fld.PRO_P_ROLE_ROLE.get 5) := ⟨_, rfl⟩
    have asked : u.roleAsked p = 5 := by
      rw [hu]
      exact fld_setFld_same s _ _ _ (by decide)
    have refused : u.roleRefused p = true := by simp [State.roleRefused, asked, hp]
    obtain ⟨marked, posted, role⟩ := judgeRole_refuses u p refused
    rw [← hu]
    rw [asked] at posted role
    exact ⟨marked, posted, roleDue_refused _ p role hp⟩
  · intro s p hr hrole hx
    obtain ⟨role, hold, rfca, jobless⟩ := roleTaken_spec s p
    exact does_roleChange hr hrole hx ⟨role, hold, rfca, fun h => jobless (roleLeft_jobless s p h)⟩
  · intro s p hr h
    exact does_roleChange_not hr h rfl
  · intro s p v hr _ hrole
    exact does_running (o := execHuddleWrite p v s) rfl rfl hr rfl (writeHuddle_en s p v hrole)
  · intro s h hr ho hb
    exact does_slotStart_open s hr ho hb rfl
  · intro s h hr hc
    exact does_slotStart s hr hc (slotStart_done s hc _ _)
  · intro s h p f hr hc hsync honly hplan hon hradio hreq hlock hpast hpart hdue hclear
    refine does_slotStart s hr hc ?_
    rw [hsync, honly, slotPicked_only s hsync honly hplan hon, List.filterMap_cons, hpart, List.filterMap_nil,
      slotParts_only s hdue hreq hlock hpast hradio hclear]
    exact slotOpened_leaves s h p _ _
  · intro s p b hr hb hlock hrole
    refine does_biased s hr hb hlock hrole ⟨?_, ?_, ?_⟩
    · rw [pf_modF_same]
      simp
    · exact (FieldOf.of_field (by simp)).trans (fieldOf_modF _ p _)
    · exact (keeps_modF (s.advance (b + 15 * usec)) p _).passes

end Sys2Proof.Machine

/-! The field of a port (O34): its seventh clause leaves out the port's huddle. -/

namespace Sys2Proof.Machine

/-- What is read of the state that an outcome goes on to. -/
def readAfter {α : Type} (g : State → α) (d : α) : Out → α
  | .next s => g s
  | _ => d

/-- What a command says of a state it says of one that reads as its outcome does. -/
theorem Does.read {α : Type} {c : Instr} {s : State} {P : State → Prop} (h : Does c s P) (g : State → α) (d : α)
    (hg : ∀ t, g (finish s t) = g t) : ∃ t, P t ∧ g t = readAfter g d (exec c s) := by
  obtain ⟨t, ht, hp⟩ := h
  exact ⟨t, hp, by rw [ht, readAfter, hg]⟩

/-- A relay port whose field-off ramp ends, in a huddle that listens. -/
def rampInHuddle : State :=
  (({ State.reset with pwr := { State.reset.pwr with awake := .running } }).modF 4 fun x => { x with ramp := .down 0 false }).modH 0 fun x =>
    { x with members := 16, listening := true }

theorem rampInHuddle_ramp : (rampInHuddle.pf 4).ramp = .down 0 false := congrArg PortF.ramp (pf_modF_same _ (4 : Port) _)

/-- Whether huddle 0 listens. -/
def firstListens (s : State) : Bool := (s.hud 0).listening

theorem rampInHuddle_listens : firstListens rampInHuddle = true := by decide +kernel

/-- The end of the ramp ends the huddle's slot. -/
theorem rampInHuddle_ends :
    readAfter firstListens true (exec (.fieldOffRampEnd 4 { peak := 0, before := [], adapting := [] }) rampInHuddle) = false := by decide +kernel

/-- Refutes O34, in its seventh clause: the port's huddle was listening for nothing else, and its slot ends with the ramp, so that more of the
field engine changes than the one port. -/
theorem not_fieldRamps : ¬ Obligations.FieldRamps := by
  rintro ⟨-, -, -, -, -, -, h, -⟩
  obtain ⟨t, ⟨-, -, -, -, field, -⟩, listens⟩ := (h rampInHuddle 4 0 false { peak := 0, before := [], adapting := [] } ⟨rfl, rfl⟩ rampInHuddle_ramp
    (by decide) (by decide +kernel)).read firstListens true (fun t => by
      have kept : (finish rampInHuddle t).field = t.field := keeps_finish _ t .field (by decide)
      rw [firstListens, firstListens, hud_of_field kept])
  have huddles : t.field.huddles = rampInHuddle.field.huddles := by rw [field.1]
  have same : firstListens t = firstListens rampInHuddle := by rw [firstListens, firstListens, State.hud, State.hud, huddles]
  rw [same, rampInHuddle_listens, rampInHuddle_ends] at listens
  exact absurd listens (by decide)

end Sys2Proof.Machine

/-! Phase, amplitude and the driver's compensation (O35). -/

namespace Sys2Proof.Machine

variable (s : State) (p : Port)

/-! ### A write of PHASE or AMPL (R60) -/

/-- The register that a write of AMPL or PHASE goes to. -/
abbrev paReg (isAmpl : Bool) : Nat := if isAmpl then Reg.FLD_P_AMPL p else Reg.FLD_P_PHASE p

theorem keeps_writeReg (a : Nat) (v : Word) : Keeps [.regs, .obs] s (s.writeReg a v) :=
  (within_writeReg (cc := ⟨[.regs, .obs], one a :: experts, []⟩) a s v (.inr ⟨by simp, fun r hr => List.mem_cons_of_mem _ hr, by simp⟩) ⟨by simp, by simp, by simp⟩
    (.refl _ s)).parts

theorem fieldOn_of_field {s t : State} (h : t.field = s.field) (n : Nat) : t.fieldOn n = s.fieldOn n := by
  rw [State.fieldOn, State.fieldOn, pf_of_field h]

theorem writePA_eq (isAmpl : Bool) (v : Word) : s.writePA p isAmpl v =
    if s.fieldOn p && decide ((s.writeReg (paReg p isAmpl) v).reg (paReg p isAmpl) ≠ s.reg (paReg p isAmpl)) then
      (s.writeReg (paReg p isAmpl) v).modF p fun x => { x with pend := true } else s.writeReg (paReg p isAmpl) v := by
  have field : (s.writeReg (paReg p isAmpl) v).field = s.field := keeps_writeReg s _ v .field (by decide)
  rw [← fieldOn_of_field field]
  rfl

/-- With the field on a change waits to be applied (R60). -/
theorem writePA_on (isAmpl : Bool) (v : Word) (hon : s.fieldOn p = true) :
    ((s.writePA p isAmpl v).reg (paReg p isAmpl) = (s.writeReg (paReg p isAmpl) v).reg (paReg p isAmpl) ∧
      ((s.writePA p isAmpl v).reg (paReg p isAmpl) ≠ s.reg (paReg p isAmpl) → (s.writePA p isAmpl v).pf p = { s.pf p with pend := true }) ∧
      ((s.writePA p isAmpl v).reg (paReg p isAmpl) = s.reg (paReg p isAmpl) → (s.writePA p isAmpl v).pf p = s.pf p)) ∧
      FieldOf p s (s.writePA p isAmpl v) := by
  have field : (s.writeReg (paReg p isAmpl) v).field = s.field := keeps_writeReg s _ v .field (by decide)
  rw [writePA_eq, hon, Bool.true_and]
  generalize s.writeReg (paReg p isAmpl) v = t at *
  by_cases changed : t.reg (paReg p isAmpl) = s.reg (paReg p isAmpl)
  · rw [if_neg (by simpa using changed)]
    exact ⟨⟨rfl, fun h => absurd changed h, fun _ => pf_of_field field p⟩, .of_field field⟩
  · rw [if_pos (by simpa using changed)]
    refine ⟨⟨rfl, fun _ => ?_, fun h => absurd h changed⟩, (FieldOf.of_field field).trans (fieldOf_modF t p _)⟩
    rw [pf_modF_same, pf_of_field field]

theorem writePA_off (isAmpl : Bool) (v : Word) (hoff : s.fieldOn p = false) : s.writePA p isAmpl v = s.writeReg (paReg p isAmpl) v := by
  rw [writePA_eq, hoff, Bool.false_and, if_neg Bool.false_ne_true]

/-! ### Applying a change (R61, R62) -/

theorem endDeferral_none : ((s.endDeferral p).pf p).dueSince = none := by
  unfold State.endDeferral
  split
  · rw [pf_modF_same]
  next h => exact h

theorem endDeferral_fieldOf : FieldOf p s (s.endDeferral p) := by
  unfold State.endDeferral
  split
  · exact (FieldOf.of_field rfl).trans (fieldOf_modF _ p _)
  · exact .refl _ s

theorem endDeferral_within : Within ⟨[.field, .obs], [], []⟩ s (s.endDeferral p) := within_endDeferral s p (.refl _) (.refl _ s)

theorem abortStep_dueSince : ((s.abortStep p).pf p).dueSince = (s.pf p).dueSince := by
  unfold State.abortStep
  split
  · rw [pf_modF_same]
  · rfl

theorem abortStep_fieldOf : FieldOf p s (s.abortStep p) := by
  unfold State.abortStep
  split
  · exact fieldOf_modF _ p _
  · exact .refl _ s

theorem abortStep_within : Within ⟨[.field], [], []⟩ s (s.abortStep p) := within_abortStep s p (.refl _) (.refl _ s)

/-- The state in which the values of the registers ramp in until `te`. -/
def State.applying (s : State) (n te : Nat) : State :=
  (((s.endDeferral n).abortStep n).applyPA n).modF n fun x => { x with paEnd := some te }

theorem applyPA_pf (te : Nat) : ((s.applyPA p).modF p fun x => { x with paEnd := some te }).pf p = { s.pf p with
    phase := s.fld (Reg.FLD_P_PHASE p) Fld.FLD_P_PHASE_OFFSET, ampl := s.fld (Reg.FLD_P_AMPL p) Fld.FLD_P_AMPL_AMPL, pend := false,
    limit := s.fld Reg.PWR_THERM_STATUS Fld.PWR_THERM_STATUS_LIMIT, ceil := s.ceil p, paEnd := some te } := by
  rw [pf_modF_same, State.applyPA, pf_modF_same]

theorem applying_spec (te : Nat) :
    ((s.applying p te).pf p).phase = s.fld (Reg.FLD_P_PHASE p) Fld.FLD_P_PHASE_OFFSET ∧
    ((s.applying p te).pf p).ampl = s.fld (Reg.FLD_P_AMPL p) Fld.FLD_P_AMPL_AMPL ∧
    ((s.applying p te).pf p).limit = s.fld Reg.PWR_THERM_STATUS Fld.PWR_THERM_STATUS_LIMIT ∧
    ((s.applying p te).pf p).ceil = s.ceil p ∧ ((s.applying p te).pf p).pend = false ∧ ((s.applying p te).pf p).paEnd = some te ∧
    ((s.applying p te).pf p).dueSince = none ∧ (∀ m, m ≠ p.val → (s.applying p te).pf m = s.pf m) ∧ Keeps [.field, .obs] s (s.applying p te) := by
  obtain ⟨u, hu⟩ : ∃ u, u = (s.endDeferral p).abortStep p := ⟨_, rfl⟩
  have early := endDeferral_within s p
  have within := abortStep_within (s.endDeferral p) p
  have due : (u.pf p).dueSince = none := by rw [hu, abortStep_dueSince, endDeferral_none]
  have others : FieldOf p s u := hu ▸ (endDeferral_fieldOf s p).trans (abortStep_fieldOf _ p)
  have keeps : Keeps [.field, .obs] s u := hu ▸ early.parts.join within.parts
  have reg (a : Nat) : u.reg a = s.reg a := hu ▸ (within.regs_same a).trans (early.regs_same a)
  have pf := applyPA_pf u p te
  rw [fld_of_reg (reg _), fld_of_reg (reg _), fld_of_reg (reg _), State.ceil, fld_of_reg (reg _)] at pf
  have applied : FieldOf p u ((u.applyPA p).modF p fun x => { x with paEnd := some te }) := (fieldOf_modF u p _).trans (fieldOf_modF _ p _)
  have keepsApplied : Keeps [.field] u ((u.applyPA p).modF p fun x => { x with paEnd := some te }) := (keeps_modF u p _).join (keeps_modF _ p _)
  rw [State.applying, ← hu, pf]
  exact ⟨rfl, rfl, rfl, rfl, rfl, rfl, due, (others.trans applied).2, keeps.join keepsApplied⟩

/-- A change that the air does not let in is due from then on. -/
theorem defer_spec : (s.defer p).pf p = { s.pf p with dueSince := some ((s.pf p).dueSince.getD s.time) } ∧ FieldOf p s (s.defer p) ∧
    Keeps [.field] s (s.defer p) := by
  have keeps : Keeps [.field] s (s.defer p) := (within_defer s p (.refl _) (.refl _ s)).parts
  cases h : (s.pf p).dueSince with
  | some since =>
    have same : s.defer p = s := by rw [State.defer, h]; rfl
    rw [same]
    exact ⟨by rw [Option.getD_some, ← h], .refl _ s, Keeps.refl _ s⟩
  | none =>
    have eq : s.defer p = s.modF p fun x => { x with dueSince := some s.time } := by rw [State.defer, h]; rfl
    refine ⟨by rw [eq, pf_modF_same]; rfl, by rw [eq]; exact fieldOf_modF s p _, keeps⟩

/-- A change is due in FIELD outside ramps, frames, guards and another change. -/
theorem changeDue_of (hpend : (s.pf p).pend = true) (hradio : (s.pf p).radio = .field) (hramp : (s.pf p).ramp = .none)
    (htx : (s.pf p).txEnd = none) (hguard : (s.pf p).guardEnd = none) (hpa : (s.pf p).paEnd = none) : s.changeDue p = true := by
  simp [State.changeDue, hpend, hradio, hramp, htx, hguard, hpa]

theorem airFree_blanked (te win : Nat) (h : s.blanked p = true) : s.airFree p te win = false := by
  rw [State.airFree, h, Bool.not_true, Bool.and_false]

/-! ### The driver's compensation (R575) and the thermal limit (R576) -/

theorem compensate_other (n a : Nat) (m : DriverMeas) (h : a ≠ Reg.FLD_P_COMP n) : (s.compensate n m).reg a = s.reg a := by
  unfold State.compensate
  extract_lets
  split
  · rw [reg_post, reg_stick, reg_setFld_ne _ _ _ _ _ h, reg_setFld_ne _ _ _ _ _ h, reg_setFld_ne _ _ _ _ _ h]
  · rw [reg_setFld_ne _ _ _ _ _ h, reg_setFld_ne _ _ _ _ _ h]

/-- What a port's compensation reports: TEMP, HEADROOM and COMP_FAIL. -/
def Reports (n : Nat) (m : DriverMeas) (t : State) : Prop :=
  t.fld (Reg.FLD_P_COMP n) Fld.FLD_P_COMP_TEMP = m.temp.toNat ∧ t.flag (Reg.FLD_P_COMP n) Fld.FLD_P_COMP_HEADROOM = m.headroom ∧
  (m.missed = true → m.headroom = false → t.flag (Reg.FLD_P_COMP n) Fld.FLD_P_COMP_COMP_FAIL = true)

theorem Reports.of_reg {n : Nat} {m : DriverMeas} {s t : State} (h : Reports n m s) (e : t.reg (Reg.FLD_P_COMP n) = s.reg (Reg.FLD_P_COMP n)) :
    Reports n m t := by
  rwa [Reports, fld_of_reg e, flag_of_reg e, flag_of_reg e]

theorem flag_bnat (a : Nat) (f : Field) (b : Bool) (h : f.lo + f.width ≤ 32) (hw : f.width = 1) : (s.setFld a f (bnat b)).flag a f = b := by
  rw [flag_setFld_same _ _ _ _ h, hw]
  exact bnat_odd b

theorem compensate_reports (n : Nat) (m : DriverMeas) : Reports n m (s.compensate n m) := by
  obtain ⟨u, hu⟩ : ∃ u, u = (s.setFld (Reg.FLD_P_COMP n) Fld.FLD_P_COMP_TEMP m.temp.toNat).setFld (Reg.FLD_P_COMP n)
    Fld.FLD_P_COMP_HEADROOM (bnat m.headroom) := ⟨_, rfl⟩
  have temp : u.fld (Reg.FLD_P_COMP n) Fld.FLD_P_COMP_TEMP = m.temp.toNat := by
    rw [hu, fld_setFld_other _ _ _ _ _ (by decide) (by decide), fld_setFld_same _ _ _ _ (by decide)]
    exact Nat.mod_eq_of_lt m.temp.isLt
  have head : u.flag (Reg.FLD_P_COMP n) Fld.FLD_P_COMP_HEADROOM = m.headroom := by rw [hu, flag_bnat _ _ _ _ (by decide) rfl]
  have fail : u.flag (Reg.FLD_P_COMP n) Fld.FLD_P_COMP_COMP_FAIL = s.flag (Reg.FLD_P_COMP n) Fld.FLD_P_COMP_COMP_FAIL := by
    rw [hu, flag_setFld_other _ _ _ _ _ (by decide) (by decide), flag_setFld_other _ _ _ _ _ (by decide) (by decide)]
  unfold State.compensate
  extract_lets a w
  rw [show w = u from hu.symm]
  split
  · have reg : ((u.stick (Reg.FLD_P_COMP n) Fld.FLD_P_COMP_COMP_FAIL).post 0x2005 .heart 0).reg (Reg.FLD_P_COMP n) =
      (u.setFld (Reg.FLD_P_COMP n) Fld.FLD_P_COMP_COMP_FAIL 1).reg (Reg.FLD_P_COMP n) := rfl
    rw [Reports, fld_of_reg reg, flag_of_reg reg, flag_of_reg reg, fld_setFld_other _ _ _ _ _ (by decide) (by decide),
      flag_setFld_other _ _ _ _ _ (by decide) (by decide)]
    exact ⟨temp, head, fun _ _ => by rw [flag_setFld_same _ _ _ _ (by decide)]; rfl⟩
  next quiet =>
    refine ⟨temp, head, fun hmissed hhead => ?_⟩
    rw [fail]
    simpa [hmissed, hhead] using quiet

/-- One port's compensation, where the drivers gave its measurement. -/
def State.compensateAt (l : List DriverMeas) (s : State) (n : Nat) : State :=
  match l[n]? with
  | some m => s.compensate n m
  | none => s

theorem compensateAt_within (l : List DriverMeas) (n : Nat) : Within ⟨[.regs, .obs], [each Reg.FLD_P_COMP 16], []⟩ s (s.compensateAt l n) := by
  unfold State.compensateAt
  split
  · exact within_compensate s n _ (.refl _) (.refl _ s)
  · exact .refl _ s

theorem compensateAt_other (l : List DriverMeas) (n a : Nat) (h : a ≠ Reg.FLD_P_COMP n) : (s.compensateAt l n).reg a = s.reg a := by
  unfold State.compensateAt
  split
  · exact compensate_other s n a _ h
  · rfl

theorem compensated_within (l : List DriverMeas) (ns : List Nat) :
    Within ⟨[.regs, .obs], [each Reg.FLD_P_COMP 16], []⟩ s (ns.foldl (State.compensateAt l) s) := by
  induction ns generalizing s with
  | nil => exact .refl _ s
  | cons n ns ih => exact (compensateAt_within s l n).trans (ih _)

theorem compensated_other (l : List DriverMeas) (ns : List Nat) (a : Nat) (h : ∀ n ∈ ns, a ≠ Reg.FLD_P_COMP n) :
    (ns.foldl (State.compensateAt l) s).reg a = s.reg a := by
  induction ns generalizing s with
  | nil => rfl
  | cons n ns ih =>
    exact (ih _ fun m hm => h m (List.mem_cons_of_mem n hm)).trans (compensateAt_other s l n a (h n List.mem_cons_self))

/-- Every port that was measured has its report, the ports after it adding nothing to that. -/
theorem compensated_reports {l : List DriverMeas} {n : Nat} {m : DriverMeas} (hm : l[n]? = some m) (hn : n < 4) :
    Reports n m ((List.range 4).foldl (State.compensateAt l) s) := by
  obtain ⟨before, after, split⟩ := List.append_of_mem (List.mem_range.2 hn)
  have unique : n ∉ after := by
    have nodup := split ▸ (List.nodup_range : (List.range 4).Nodup)
    exact (List.nodup_cons.1 (List.nodup_append.1 nodup).2.1).1
  have small (k : Nat) (hk : k ∈ after) : k < 4 := List.mem_range.1 (by rw [split]; simp [hk])
  rw [split, List.foldl_append, List.foldl_cons]
  have there : Reports n m ((before.foldl (State.compensateAt l) s).compensateAt l n) := by
    rw [State.compensateAt, hm]
    exact compensate_reports _ n m
  refine there.of_reg (compensated_other _ l after _ fun k hk => ?_)
  have apart : k ≠ n := fun h => unique (h ▸ hk)
  have below := small k hk
  rw [Reg.FLD_P_COMP, Reg.FLD_P_COMP]
  omega

/-- A limit below the one in force is kept as sticky LIMITED (R576). -/
theorem setLimit_lowers {lim : Nat} (h : lim < s.fld Reg.PWR_THERM_STATUS Fld.PWR_THERM_STATUS_LIMIT) (hw : lim < 1024) :
    (s.setLimit lim).fld Reg.PWR_THERM_STATUS Fld.PWR_THERM_STATUS_LIMIT = lim ∧
    (s.setLimit lim).flag Reg.PWR_THERM_STATUS Fld.PWR_THERM_STATUS_LIMITED = true := by
  obtain ⟨u, hu⟩ : ∃ u, u = (s.setFld Reg.PWR_THERM_STATUS Fld.PWR_THERM_STATUS_LIMIT lim).setFld Reg.PWR_THERM_STATUS
    Fld.PWR_THERM_STATUS_LIMITING (bnat (decide (lim < 1023))) := ⟨_, rfl⟩
  obtain ⟨v, hv⟩ : ∃ v, v = State.each (fun n t => if t.fieldOn n && decide ((t.pf n).limit < lim) then t.modF n fun x => { x with pend := true }
    else t.modF n fun x => { x with limit := lim }) 4 u := ⟨_, rfl⟩
  have ports : Within ⟨[.field], [], []⟩ u v := hv ▸ within_each _ (fun n t ht => within_ite (within_modF t n _ (.refl _) ht)
    (within_modF t n _ (.refl _) ht)) 4 u (.refl _ u)
  have eq : s.setLimit lim = (v.stick Reg.PWR_THERM_STATUS Fld.PWR_THERM_STATUS_LIMITED).postSec 0x1003 0 .heart 0 := by
    rw [hv, hu, State.setLimit]
    exact if_pos h
  have reg : (s.setLimit lim).reg Reg.PWR_THERM_STATUS = (v.setFld Reg.PWR_THERM_STATUS Fld.PWR_THERM_STATUS_LIMITED 1).reg Reg.PWR_THERM_STATUS := by
    rw [eq, reg_postSec, reg_stick]
  rw [fld_of_reg reg, flag_of_reg reg, fld_setFld_other _ _ _ _ _ (by decide) (by decide), fld_of_reg (ports.regs_same _), hu,
    fld_setFld_other _ _ _ _ _ (by decide) (by decide), fld_setFld_same _ _ _ _ (by decide), flag_setFld_same _ _ _ _ (by decide)]
  exact ⟨Nat.mod_eq_of_lt hw, rfl⟩

/-- Above the budget the limit goes down by 16. -/
theorem thermal_lowers {ms : List DriverMeas}
    (hover : 5 * s.fld Reg.PWR_THERM Fld.PWR_THERM_BUDGET < ((List.range 4).map (s.dissOf ms)).sum)
    (hlim : 16 ≤ s.fld Reg.PWR_THERM_STATUS Fld.PWR_THERM_STATUS_LIMIT) :
    (s.thermal ms).fld Reg.PWR_THERM_STATUS Fld.PWR_THERM_STATUS_LIMIT = s.fld Reg.PWR_THERM_STATUS Fld.PWR_THERM_STATUS_LIMIT - 16 ∧
    (s.thermal ms).flag Reg.PWR_THERM_STATUS Fld.PWR_THERM_STATUS_LIMITED = true := by
  have eq : ∃ u : State, s.thermal ms = u.setLimit (s.fld Reg.PWR_THERM_STATUS Fld.PWR_THERM_STATUS_LIMIT - 16) ∧
      u.fld Reg.PWR_THERM_STATUS Fld.PWR_THERM_STATUS_LIMIT = s.fld Reg.PWR_THERM_STATUS Fld.PWR_THERM_STATUS_LIMIT := by
    refine ⟨_, if_pos (by rw [decide_eq_true hover, Bool.true_or]), ?_⟩
    rw [fld_setFld_other _ _ _ _ _ (by decide) (by decide), fld_setReg_ne _ _ _ _ _ (by decide)]
  obtain ⟨u, eq, same⟩ := eq
  have small : s.fld Reg.PWR_THERM_STATUS Fld.PWR_THERM_STATUS_LIMIT < 1024 := Field.get_lt _ _
  rw [eq]
  exact setLimit_lowers u (by omega) (by omega)

theorem thermal_within (ms : List DriverMeas) :
    Within ⟨[.regs, .field, .obs], [one Reg.PWR_THERM_DISS, one Reg.PWR_THERM_STATUS], []⟩ s (s.thermal ms) :=
  within_thermal s ms (.refl _) (.refl _ s)

theorem comp_not_thermal (n : Fin 4) : missesRegs [one Reg.PWR_THERM_DISS, one Reg.PWR_THERM_STATUS] (Reg.FLD_P_COMP n) = true := by
  revert n
  decide

/-- The state after the measurements of a compensation update, before the thermal limit is judged. -/
def State.compensated (s : State) (l : List DriverMeas) : State :=
  (List.range 4).foldl (State.compensateAt l) (s.advance ((s.time / (100 * usec) + 1) * (100 * usec)))

theorem does_compensation {l : List DriverMeas} {P : State → Prop} (hr : Running s) (hp : P ((s.compensated l).thermal (l.take 4))) :
    Does (.compensationUpdate l) s P :=
  does_running (o := execCompensationUpdate l s) rfl rfl hr rfl hp

theorem compensated_time (l : List DriverMeas) : (s.compensated l).time = (s.time / (100 * usec) + 1) * (100 * usec) := by
  have within := compensated_within (s.advance ((s.time / (100 * usec) + 1) * (100 * usec))) l (List.range 4)
  refine Eq.trans (within.parts .time (by decide)) (Eq.trans (advance_time s _) (max_eq_right ?_))
  rw [Nat.succ_mul, Nat.mul_comm]
  exact (Nat.lt_mul_div_succ s.time (by decide : 0 < 100 * usec)).le

theorem compensated_reg (l : List DriverMeas) (a : Nat) (h : missesRegs [each Reg.FLD_P_COMP 16] a = true) :
    (s.compensated l).reg a = s.reg a :=
  ((compensated_within _ l (List.range 4)).reg_of_misses a h).trans ((advance_reads s _).1 a)

theorem compensated_dissOf (l ms : List DriverMeas) : (s.compensated l).dissOf ms = s.dissOf ms := by
  have field : (s.compensated l).field = s.field :=
    Eq.trans ((compensated_within _ l (List.range 4)).parts .field (by decide)) (keeps_advance s _ .field (by decide))
  funext n
  rw [State.dissOf, State.dissOf, fieldOn_of_field field]

theorem does_paApply {P : State → Prop} (hr : Running s) (hdue : s.changeDue p = true)
    (hp : P (if s.airFree p (s.time + s.fld Reg.FLD_RAMP Fld.FLD_RAMP_ASK_EDGE * 3200) 0 then
      s.applying p (s.time + s.fld Reg.FLD_RAMP Fld.FLD_RAMP_ASK_EDGE * 3200) else s.defer p)) : Does (.phaseAmplApply p) s P :=
  does_running (o := execPhaseAmplApply p s) rfl rfl hr (by simp only [hdue]; rfl) hp

/-- Settles O35: a write, its application or deferral, and the report of a compensation update with the limit that follows it. -/
theorem phaseAmplitudeAndLimits : Obligations.PhaseAmplitudeAndLimits := by
  refine ⟨fun s p isAmpl v hr hon => ?_, fun s p isAmpl v hr hoff => ?_, fun s p hr hpend hradio hramp htx hguard hpa hair => ?_,
    fun s p hr hpend hradio hramp htx hguard hpa hblank => ?_, fun s l n m hr hm => ?_, fun s l hr hover hlim => ?_⟩
  · refine does_running (o := execPhaseAmplWrite p isAmpl v s) rfl rfl hr rfl ?_
    obtain ⟨spec, field⟩ := writePA_on s p isAmpl v hon
    exact ⟨fun a ha => ha ▸ spec, field⟩
  · refine does_running (o := execPhaseAmplWrite p isAmpl v s) rfl rfl hr (writePA_off s p isAmpl v hoff) ?_
    exact ⟨fun a ha => ha ▸ rfl, keeps_writeReg s _ v⟩
  · refine does_paApply s p hr (changeDue_of s p hpend hradio hramp htx hguard hpa) ?_
    rw [hair, if_pos rfl]
    exact applying_spec s p _
  · refine does_paApply s p hr (changeDue_of s p hpend hradio hramp htx hguard hpa) ?_
    rw [airFree_blanked s p _ _ hblank, if_neg Bool.false_ne_true]
    exact defer_spec s p
  · have within := thermal_within (s.compensated l) (l.take 4)
    refine does_compensation s hr ⟨Eq.trans (within.parts .time (by decide)) (compensated_time s l), ?_⟩
    exact (compensated_reports _ hm n.isLt).of_reg (within.reg_of_misses _ (comp_not_thermal n))
  · have lim := fld_of_reg (compensated_reg s l Reg.PWR_THERM_STATUS (by decide)) Fld.PWR_THERM_STATUS_LIMIT
    have budget := fld_of_reg (compensated_reg s l Reg.PWR_THERM (by decide)) Fld.PWR_THERM_BUDGET
    refine does_compensation s hr ?_
    rw [← lim]
    exact thermal_lowers _ (by rw [budget, compensated_dissOf]; exact hover) (lim ▸ hlim)

end Sys2Proof.Machine

/-! The duty gate from bin to bin (O36). -/

namespace Sys2Proof.Machine

/-- The duty gate's history, the number of its bin and the number of ports allowed stay as they are. -/
structure SameBins (s t : State) : Prop where
  bin : t.field.bin = s.field.bin
  bins : t.field.bins = s.field.bins
  now : t.field.nNow = s.field.nNow

theorem SameBins.refl (s : State) : SameBins s s := ⟨rfl, rfl, rfl⟩

theorem SameBins.trans {s t u : State} (h : SameBins s t) (k : SameBins t u) : SameBins s u :=
  ⟨k.bin.trans h.bin, k.bins.trans h.bins, k.now.trans h.now⟩

theorem SameBins.ite {s t u : State} {c : Prop} [Decidable c] (h : SameBins s t) (k : SameBins s u) : SameBins s (if c then t else u) := by
  split
  · exact h
  · exact k

theorem SameBins.foldl {f : State → Nat → State} (h : ∀ t n, SameBins t (f t n)) (l : List Nat) (s : State) : SameBins s (l.foldl f s) := by
  induction l generalizing s with
  | nil => exact .refl s
  | cons n l ih => exact (h s n).trans (ih _)

theorem SameBins.each {f : Nat → State → State} (h : ∀ n t, SameBins t (f n t)) (k : Nat) (s : State) : SameBins s (State.each f k s) := by
  induction k with
  | zero => exact .refl s
  | succ k ih => exact ih.trans (h k _)

variable (s : State)

theorem sameBins_modF (n : Nat) (f : PortF → PortF) : SameBins s (s.modF n f) := ⟨rfl, rfl, rfl⟩

theorem sameBins_modH (n : Nat) (f : HuddleSt → HuddleSt) : SameBins s (s.modH n f) := ⟨rfl, rfl, rfl⟩

theorem sameBins_abortStep (n : Nat) : SameBins s (s.abortStep n) := by
  unfold State.abortStep
  split
  · exact sameBins_modF s n _
  · exact .refl s

theorem sameBins_startOff (n : Nat) : SameBins s (s.startOff n false) :=
  (sameBins_modF s n _).trans ((sameBins_abortStep _ n).trans (sameBins_modF _ n _))

theorem sameBins_askOn (n : Nat) : SameBins s (s.askOn n) := by
  have syn : SameBins s s.startSyn := .ite (.refl s) ⟨rfl, rfl, rfl⟩
  exact .ite (syn.trans (sameBins_modF _ n _)) (.refl s)

theorem sameBins_syncMember (n : Nat) (keep : Option Nat) : SameBins s (s.syncMember n keep) := by
  unfold State.syncMember
  extract_lets _ cur new left
  have leaves : SameBins s left := by
    cases h : cur with
    | none => simp only [left, h]; exact .refl s
    | some g => simp only [left, h]; exact sameBins_modH s _ _
  refine .ite (.refl s) ?_
  cases new with
  | none => exact leaves
  | some g => exact leaves.trans (sameBins_modH _ _ _)

theorem sameBins_endListen (n : Nat) : SameBins s (s.endListen n) := by
  unfold State.endListen
  split
  · exact .refl s
  next h _ => exact .ite ((sameBins_modH s h _).trans (.each (fun _ _ => sameBins_syncMember _ _ _) _ _)) (.refl s)

/-- The state in which a surplus port has been chosen and counted (R79). -/
def State.cutNoted (s : State) (n : Nat) : State :=
  let s1 := ((s.post 0x2002 .heart 0).count 102).stick Reg.FLD_DUTY_STATUS Fld.FLD_DUTY_STATUS_CUT
  { s1 with field := { s1.field with victims := setBit s1.field.victims n true } }

theorem cutPort_cases (n : Nat) :
    s.cutPort n = s.cutNoted n ∨ s.cutPort n = (((s.cutNoted n).startOff n false).askOn n).endListen n := by
  unfold State.cutPort
  extract_lets
  split
  · exact .inr rfl
  · exact .inl rfl

theorem sameBins_cutPort (n : Nat) : SameBins s (s.cutPort n) := by
  have noted : SameBins s (s.cutNoted n) := ⟨rfl, rfl, rfl⟩
  rcases cutPort_cases s n with h | h <;> rw [h]
  · exact noted
  · exact noted.trans ((sameBins_startOff _ n).trans ((sameBins_askOn _ n).trans (sameBins_endListen _ n)))

theorem cutPort_within (n : Nat) : Within ⟨[.regs, .field, .obs], [Reg.FLD_DUTY_STATUS, Reg.FLD_SYN_STATUS].map one, []⟩ s (s.cutPort n) :=
  within_cutPort s n (.refl _) (.refl _ s)

theorem cutNoted_used (n : Nat) : (s.cutNoted n).fld Reg.FLD_DUTY_STATUS Fld.FLD_DUTY_STATUS_USED =
    s.fld Reg.FLD_DUTY_STATUS Fld.FLD_DUTY_STATUS_USED := by
  have reg : (s.cutNoted n).reg Reg.FLD_DUTY_STATUS = (s.setFld Reg.FLD_DUTY_STATUS Fld.FLD_DUTY_STATUS_CUT 1).reg Reg.FLD_DUTY_STATUS := rfl
  rw [fld_of_reg reg, fld_setFld_other _ _ _ _ _ (by decide) (by decide)]

theorem cutPort_used (n : Nat) : (s.cutPort n).fld Reg.FLD_DUTY_STATUS Fld.FLD_DUTY_STATUS_USED =
    s.fld Reg.FLD_DUTY_STATUS Fld.FLD_DUTY_STATUS_USED := by
  rcases cutPort_cases s n with h | h <;> rw [h]
  · exact cutNoted_used s n
  · rw [← cutNoted_used s n]
    generalize s.cutNoted n = u
    have off : Within ⟨[.field, .obs], [], []⟩ u (u.startOff n false) := within_startOff u n false (.refl _) (.refl _ u)
    have ends (v : State) : Within ⟨[.field], [], []⟩ v (v.endListen n) := within_endListen v n (.refl _) (.refl _ v)
    refine fld_of_reg (((ends _).regs_same _).trans ?_) _
    exact ((askOn_within _ n).reg_of_misses _ (by decide)).trans (off.regs_same _)

/-! ### The bin that begins (R76 to R80) -/

/-- The history with the bin that ends. -/
def FldSt.history (f : FldSt) : List Nat := (popCount f.onInBin :: f.bins).take 1000

section
variable (f : FldSt)

/-- The number allowed in the bin after the one that begins, from the history and from the ports on or admitted. -/
def State.binAllowed (s : State) : Nat :=
  s.dutyN ((f.history.take 998).sum +
    (popCount s.onMask + popCount (maskOf (fun n => (s.pf n).admittedTo (f.bin + 1) && !s.fieldOn n) 16)))

/-- The state of a bin that has begun, before R79 takes victims and R80 admits: `f` is the field engine as the bin before left it. -/
def State.binBegun (s : State) : State :=
  (({ s with field := { s.field with
      bins := f.history, bin := f.bin + 1, onInBin := s.onMask, nNow := s.field.nNext, nNext := s.binAllowed f } }).setFld
    Reg.FLD_DUTY_STATUS Fld.FLD_DUTY_STATUS_USED f.history.sum).setFld Reg.FLD_DUTY_STATUS Fld.FLD_DUTY_STATUS_ALLOWED (s.binAllowed f)

/-- The ports that R79 takes. -/
def State.binVictims (s : State) : List Nat :=
  (sortBy (fun m => (s.binBegun f).victimKey m) ((List.range 16).filter fun m => s.onMask.testBit m)).take (popCount s.onMask - s.binAllowed f)

/-- A port admitted to the bin that begins and the one after it, or to neither (R80). -/
def State.admitTo (s : State) (m : Nat) (u : State) : State :=
  u.modF m fun x =>
    { x with admitted :=
        if (((s.binBegun f).admitOrder (f.bin + 1)).take (s.binAllowed f - popCount s.onMask)).contains m then
          some (if x.admittedTo (f.bin + 1) then f.bin + 1 else f.bin + 1 + 1, f.bin + 1 + 1)
        else if x.admittedTo (f.bin + 1) then some (f.bin + 1, f.bin + 1) else none }

/-- The state after the victims and before the admissions. -/
def State.binCut (s : State) : State := (s.binVictims f).foldl State.cutPort (s.binBegun f)

/-- A bin begun at the time of its start. -/
def State.binNext (s : State) : State :=
  if s.fld Reg.FLD_DUTY Fld.FLD_DUTY_CEIL_EFF = 256 then s.binCut f else State.each (s.admitTo f) 16 (s.binCut f)

end

theorem does_dutyBin {P : State → Prop} (hr : Running s) (hp : P ((s.advance ((s.field.bin + 1) * msec)).binNext s.field)) :
    Does .dutyBinStart s P := does_running (o := execDutyBinStart s) rfl rfl hr rfl hp

/-! ### What a bin's start leaves (R76 to R78) -/

section
variable (f : FldSt)

theorem binBegun_within : Within ⟨[.regs, .field], [Reg.FLD_DUTY_STATUS].map one, []⟩ s (s.binBegun f) :=
  within_setFld _ _ _ (.of (by decide)) (within_setFld _ _ _ (.of (by decide)) (within_with_field _ (.of (by decide)) (.refl _ s)))

theorem binBegun_pf (n : Nat) : (s.binBegun f).pf n = s.pf n := rfl

theorem binCut_within : Within ⟨[.regs, .field, .obs], [Reg.FLD_DUTY_STATUS, Reg.FLD_SYN_STATUS].map one, []⟩ s (s.binCut f) := by
  have cuts (l : List Nat) (u : State) :
      Within ⟨[.regs, .field, .obs], [Reg.FLD_DUTY_STATUS, Reg.FLD_SYN_STATUS].map one, []⟩ u (l.foldl State.cutPort u) := by
    induction l generalizing u with
    | nil => exact .refl _ u
    | cons n l ih => exact (cutPort_within u n).trans (ih _)
  exact ((binBegun_within s f).mono (.of (by decide))).trans (cuts _ _)

theorem admits_within (u : State) : Within ⟨[.field], [], []⟩ u (State.each (s.admitTo f) 16 u) :=
  within_each _ (fun n t ht => within_modF t n _ (.refl _) ht) 16 u (.refl _ u)

theorem binNext_within : Within ⟨[.regs, .field, .obs], [Reg.FLD_DUTY_STATUS, Reg.FLD_SYN_STATUS].map one, []⟩ s (s.binNext f) :=
  within_ite (binCut_within s f) ((binCut_within s f).trans ((admits_within s f _).mono (.of (by decide))))

theorem binNext_bins : SameBins (s.binBegun f) (s.binNext f) := by
  have cuts : SameBins (s.binBegun f) (s.binCut f) := .foldl sameBins_cutPort _ _
  exact .ite cuts (cuts.trans (.each (fun n t => sameBins_modF t n _) 16 _))

theorem binNext_used (h : f.history.sum < 16384) : (s.binNext f).fld Reg.FLD_DUTY_STATUS Fld.FLD_DUTY_STATUS_USED = f.history.sum := by
  have begun : (s.binBegun f).fld Reg.FLD_DUTY_STATUS Fld.FLD_DUTY_STATUS_USED = f.history.sum := by
    rw [State.binBegun, fld_setFld_other _ _ _ _ _ (by decide) (by decide), fld_setFld_same _ _ _ _ (by decide)]
    exact Nat.mod_eq_of_lt h
  have cuts (l : List Nat) (u : State) : (l.foldl State.cutPort u).fld Reg.FLD_DUTY_STATUS Fld.FLD_DUTY_STATUS_USED =
      u.fld Reg.FLD_DUTY_STATUS Fld.FLD_DUTY_STATUS_USED := by
    induction l generalizing u with
    | nil => rfl
    | cons n l ih => exact (ih _).trans (cutPort_used u n)
  have cut : (s.binCut f).fld Reg.FLD_DUTY_STATUS Fld.FLD_DUTY_STATUS_USED = f.history.sum := (cuts _ _).trans begun
  unfold State.binNext
  split
  · exact cut
  · exact (fld_of_reg ((admits_within s f _).regs_same _) _).trans cut

/-- With no field on there is no victim. -/
theorem binCut_idle (h : s.onMask = 0) : s.binCut f = s.binBegun f := by
  have none : s.binVictims f = [] := by rw [State.binVictims, h, show popCount 0 = 0 from rfl, Nat.zero_sub, List.take_zero]
  rw [State.binCut, none, List.foldl_nil]

theorem binNext_idle (h : s.onMask = 0) :
    (s.binNext f).field.onInBin = 0 ∧ (s.binNext f).field.victims = s.field.victims ∧
    RegsBut [Reg.FLD_DUTY_STATUS] s (s.binNext f) ∧ Keeps [.regs, .field] s (s.binNext f) := by
  have begun : (s.binBegun f).field.onInBin = 0 ∧ (s.binBegun f).field.victims = s.field.victims := ⟨h, rfl⟩
  have within := binBegun_within s f
  have admits := admits_within s f (s.binBegun f)
  have kept (k : Nat) : ((State.each (s.admitTo f) k (s.binBegun f)).field.onInBin = 0 ∧
      (State.each (s.admitTo f) k (s.binBegun f)).field.victims = s.field.victims) := by
    induction k with
    | zero => exact begun
    | succ k ih => exact ih
  rw [State.binNext, binCut_idle s f h]
  split
  · exact ⟨begun.1, begun.2, within.regsBut, within.parts⟩
  · exact ⟨(kept 16).1, (kept 16).2, fun a ha => (admits.regs_same a).trans (within.regsBut a ha), within.parts.join admits.parts⟩

end

/-! ### The start of a bin as the command gives it -/

/-- The history, the number in force and the time of a bin that has begun. -/
theorem binNext_moves : ((s.advance ((s.field.bin + 1) * msec)).binNext s.field).time = max s.time ((s.field.bin + 1) * msec) ∧
    ((s.advance ((s.field.bin + 1) * msec)).binNext s.field).field.bin = s.field.bin + 1 ∧
    ((s.advance ((s.field.bin + 1) * msec)).binNext s.field).field.bins = (popCount s.field.onInBin :: s.field.bins).take 1000 ∧
    ((s.advance ((s.field.bin + 1) * msec)).binNext s.field).field.nNow = s.field.nNext := by
  obtain ⟨u, hu⟩ : ∃ u, u = s.advance ((s.field.bin + 1) * msec) := ⟨_, rfl⟩
  have time : u.time = max s.time ((s.field.bin + 1) * msec) := hu ▸ advance_time s _
  have field : u.field = s.field := hu ▸ keeps_advance s _ .field (by decide)
  obtain ⟨bin, bins, now⟩ := binNext_bins u s.field
  rw [← hu, bin, bins, now]
  exact ⟨Eq.trans ((binNext_within u s.field).parts .time (by decide)) time, rfl, rfl, congrArg FldSt.nNext field⟩

theorem onMask_of_field {s t : State} (h : t.field = s.field) : t.onMask = s.onMask := by
  rw [State.onMask, State.onMask, funext fun n => fieldOn_of_field h n]

/-- Settles O36: the state that begins a bin is carried through the victims and the admissions. -/
theorem dutyBinsMoveOn : Obligations.DutyBinsMoveOn := by
  have field (s : State) : (s.advance ((s.field.bin + 1) * msec)).field = s.field := keeps_advance s _ .field (by decide)
  refine ⟨fun s hr => does_dutyBin s hr (binNext_moves s), fun s hr hoff => does_dutyBin s hr ?_, fun s hr hceil hoff => does_dutyBin s hr ?_,
    fun s hr hlen hsum => does_dutyBin s hr ?_⟩
  · obtain ⟨time, bin, bins, now⟩ := binNext_moves s
    obtain ⟨mask, victims, regs, keeps⟩ := binNext_idle (s.advance ((s.field.bin + 1) * msec)) s.field ((onMask_of_field (field s)).trans hoff)
    rw [field s] at victims
    exact ⟨time, bin, bins, mask, now, victims, regs.of_advance, (keeps_advance s _).join keeps⟩
  · have ceil := fld_of_reg ((advance_reads s ((s.field.bin + 1) * msec)).1 Reg.FLD_DUTY) Fld.FLD_DUTY_CEIL_EFF
    rw [State.binNext, ceil, hceil, if_pos rfl, binCut_idle _ _ ((onMask_of_field (field s)).trans hoff)]
    exact fun p => (binBegun_pf _ _ p).trans (pf_of_field (field s) p)
  · have history : s.field.history = popCount s.field.onInBin :: s.field.bins := List.take_of_length_le (by simp only [List.length_cons]; omega)
    have sum : s.field.history.sum = s.field.bins.sum + popCount s.field.onInBin := by rw [history, List.sum_cons, Nat.add_comm]
    rw [← sum] at hsum ⊢
    exact binNext_used _ _ hsum

end Sys2Proof.Machine

/-! The coupling matrix and the neighbour sets (O37). -/

namespace Sys2Proof.Machine

/-! ### Single bits of a mask -/

theorem testBit_add_two_pow_ne {n i j : Nat} (h : n.testBit i = false) (hj : j ≠ i) : (n + 2 ^ i).testBit j = n.testBit j := by
  induction i generalizing n j with
  | zero =>
    obtain ⟨k, rfl⟩ := Nat.exists_eq_succ_of_ne_zero hj
    have even : n % 2 = 0 := by simpa using h
    rw [Nat.succ_eq_add_one, Nat.testBit_succ, Nat.testBit_succ, show (n + 2 ^ 0) / 2 = n / 2 by omega]
  | succ i ih =>
    rw [Nat.testBit_succ] at h
    have twice : 2 ^ (i + 1) = 2 * 2 ^ i := by ring
    cases j with
    | zero => simp only [Nat.testBit_zero, show (n + 2 ^ (i + 1)) % 2 = n % 2 by omega]
    | succ k => rw [Nat.testBit_succ, Nat.testBit_succ, show (n + 2 ^ (i + 1)) / 2 = n / 2 + 2 ^ i by omega, ih h (by omega)]

/-- A bit that is set is a power of two beside a mask without it. -/
theorem exists_of_testBit {n i : Nat} (h : n.testBit i = true) : ∃ m, n = m + 2 ^ i ∧ m.testBit i = false := by
  have le : 2 ^ i ≤ n := Nat.ge_two_pow_of_testBit h
  refine ⟨n - 2 ^ i, by omega, ?_⟩
  have flipped := Nat.testBit_two_pow_add_eq (n - 2 ^ i) i
  rw [show 2 ^ i + (n - 2 ^ i) = n by omega, h] at flipped
  simpa using flipped.symm

theorem testBit_setBit_same (n i : Nat) (b : Bool) : (setBit n i b).testBit i = b := by
  unfold setBit
  split
  next h => exact h
  next h =>
    cases b with
    | true => rw [if_pos rfl, Nat.add_comm, Nat.testBit_two_pow_add_eq, Bool.eq_false_iff.2 h]; rfl
    | false =>
      obtain ⟨m, rfl, clear⟩ := exists_of_testBit (Bool.of_not_eq_false h)
      rw [if_neg Bool.false_ne_true, Nat.add_sub_cancel, clear]

theorem testBit_setBit_ne {n i j : Nat} (b : Bool) (hj : j ≠ i) : (setBit n i b).testBit j = n.testBit j := by
  unfold setBit
  split
  · rfl
  next h =>
    cases b with
    | true => rw [if_pos rfl, testBit_add_two_pow_ne (Bool.eq_false_iff.2 h) hj]
    | false =>
      obtain ⟨m, rfl, clear⟩ := exists_of_testBit (Bool.of_not_eq_false h)
      rw [if_neg Bool.false_ne_true, Nat.add_sub_cancel, testBit_add_two_pow_ne clear hj]

variable (s : State) (p : Port)

/-! ### Writing a column of the matrix (R81) -/

/-- One entry of a column. -/
def State.columnEntry (s : State) (j : Nat) (col : List Word) (i : Nat) : State :=
  match col[i]? with
  | some w =>
    if s.measured i then (s.setReg (Reg.FLD_COUPLE (16 * i + j)) w).entryMoved i j
      (((s.setReg (Reg.FLD_COUPLE (16 * i + j)) w).coupling i j).1 - (s.coupling i j).1,
        ((s.setReg (Reg.FLD_COUPLE (16 * i + j)) w).coupling i j).2 - (s.coupling i j).2)
    else s.setReg (Reg.FLD_COUPLE (16 * i + j)) w
  | none => s

theorem setColumn_eq (j : Nat) (col : List Word) : s.setColumn j col = State.each (fun i t => t.columnEntry j col i) 16 s := rfl

theorem columnEntry_reg {j i : Nat} {col : List Word} {w : Word} (hw : col[i]? = some w) (a : Nat) :
    (s.columnEntry j col i).reg a = (s.setReg (Reg.FLD_COUPLE (16 * i + j)) w).reg a := by
  have moved (t : State) (d : Vec) : Within ⟨[.rxe], [], []⟩ t (t.entryMoved i j d) := within_entryMoved t i j d (.refl _) (.refl _ t)
  unfold State.columnEntry
  rw [hw]
  dsimp only
  split
  · exact (moved _ _).regs_same a
  · rfl

/-- Every entry of a whole column is the word given for it. -/
theorem setColumn_reg {col : List Word} (h : col.length = 16) {i : Nat} (hi : i < 16) :
    (s.setColumn p col).reg (Reg.FLD_COUPLE (16 * i + p.val)) = (col[i]?).getD 0 := by
  have below (k : Nat) (hk : k ≤ 16) (i : Nat) (hi : i < k) :
      (State.each (fun i t => t.columnEntry p col i) k s).reg (Reg.FLD_COUPLE (16 * i + p.val)) = (col[i]?).getD 0 := by
    induction k with
    | zero => omega
    | succ k ih =>
      have there : col[k]? = some (col[k]'(by omega)) := List.getElem?_eq_getElem (by omega)
      refine (columnEntry_reg _ there _).trans ?_
      by_cases last : i = k
      · rw [last, reg_setReg_same, there, Option.getD_some]
      · have apart : Reg.FLD_COUPLE (16 * i + p.val) ≠ Reg.FLD_COUPLE (16 * k + p.val) := by
          have := p.isLt
          simp only [Reg.FLD_COUPLE]
          omega
        rw [reg_setReg_ne _ _ _ _ apart]
        exact ih (by omega) (by omega)
  exact below 16 le_rfl i hi

theorem keyedColumn_length (l : List Word) : (s.keyedColumn p l).length = 16 := by
  rw [State.keyedColumn, List.length_map, List.length_range]

/-! ### A port judged (R83) -/

theorem setColumn_within (col : List Word) : Within ⟨[.regs, .rxe], [each Reg.FLD_COUPLE 256], []⟩ s (s.setColumn p col) :=
  within_setColumn s p col (.refl _) (.refl _ s)

theorem judgeMeasured_within : Within ⟨[.regs, .rxe, .obs], [one Reg.FLD_WARMUP_STATUS], []⟩ s (s.judgeMeasured p) :=
  within_judgeMeasured s p (.refl _) (.refl _ s)

theorem deriveNeigh_within : Within ⟨[.regs], [each Reg.FLD_P_NEIGH 16], []⟩ s s.deriveNeigh := within_deriveNeigh s (.refl _) (.refl _ s)

theorem couple_misses (n : Nat) : missesRegs [one Reg.FLD_WARMUP_STATUS] (Reg.FLD_COUPLE n) = true ∧
    missesRegs [each Reg.FLD_P_NEIGH 16] (Reg.FLD_COUPLE n) = true := by
  simp only [missesRegs, List.all_cons, List.all_nil, Bool.and_true, List.all_eq_true, List.mem_range, decide_eq_true_eq, one, each, Reg.FLD_COUPLE,
    Reg.FLD_WARMUP_STATUS, Reg.FLD_P_NEIGH]
  exact ⟨fun k _ => by omega, fun k _ => by omega⟩

theorem ownEntryOk_of_reg {s t : State} {n : Nat} (h : ∀ k, t.reg (Reg.FLD_COUPLE k) = s.reg (Reg.FLD_COUPLE k)) : t.ownEntryOk n = s.ownEntryOk n := by
  have entry : t.coupling n n = s.coupling n n := by rw [State.coupling, State.coupling, h]
  rw [State.ownEntryOk, State.ownEntryOk, State.couplingSq, State.couplingSq, entry]

theorem measured_of_reg {s t : State} {n : Nat} (h : t.reg Reg.FLD_WARMUP_STATUS = s.reg Reg.FLD_WARMUP_STATUS) : t.measured n = s.measured n := by
  rw [State.measured, State.measured, State.fldBit, State.fldBit, fld_of_reg h]

theorem setMeasured_measured (b : Bool) :
    (s.setFldBit Reg.FLD_WARMUP_STATUS Fld.FLD_WARMUP_STATUS_MEASURED p b).measured p = b := by
  rw [State.measured, State.fldBit, State.setFldBit, fld_setFld_same _ _ _ _ (by decide), Nat.testBit_mod_two_pow, testBit_setBit_same,
    decide_eq_true p.isLt, Bool.true_and]

theorem judgeMeasured_measured : (s.judgeMeasured p).measured p = s.ownEntryOk p := by
  unfold State.judgeMeasured
  split
  next h => rw [h]; exact setMeasured_measured _ p true
  next h =>
    rw [Bool.not_eq_true] at h
    rw [h, measured_of_reg (reg_post _ _ _ _ _), setMeasured_measured]

/-- A column measured and judged, and the neighbour sets derived anew. -/
def State.columnTaken (s : State) (n : Nat) (col : List Word) : State := ((s.setColumn n col).judgeMeasured n).deriveNeigh

theorem columnTaken_spec {col : List Word} (h : col.length = 16) :
    (∀ i : Port, (s.columnTaken p col).reg (Reg.FLD_COUPLE (16 * i.val + p.val)) = (col[i.val]?).getD 0) ∧
    (s.columnTaken p col).measured p = (s.columnTaken p col).ownEntryOk p ∧ Keeps [.regs, .rxe, .obs] s (s.columnTaken p col) := by
  obtain ⟨u, hu⟩ : ∃ u, u = s.setColumn p col := ⟨_, rfl⟩
  obtain ⟨v, hv⟩ : ∃ v, v = u.judgeMeasured p := ⟨_, rfl⟩
  have taken : s.columnTaken p col = v.deriveNeigh := by rw [hv, hu]; rfl
  have set : Within ⟨[.regs, .rxe], [each Reg.FLD_COUPLE 256], []⟩ s u := hu ▸ setColumn_within s p col
  have judged : Within ⟨[.regs, .rxe, .obs], [one Reg.FLD_WARMUP_STATUS], []⟩ u v := hv ▸ judgeMeasured_within u p
  have derived := deriveNeigh_within v
  have entries (k : Nat) : v.deriveNeigh.reg (Reg.FLD_COUPLE k) = u.reg (Reg.FLD_COUPLE k) :=
    (derived.reg_of_misses _ (couple_misses k).2).trans (judged.reg_of_misses _ (couple_misses k).1)
  rw [taken]
  refine ⟨fun i => ?_, ?_, (set.parts.join (judged.parts.join derived.parts (r := [.regs, .rxe, .obs])))⟩
  · rw [entries, hu, setColumn_reg s p h i.isLt]
  · rw [measured_of_reg (derived.reg_of_misses _ (by decide)), ownEntryOk_of_reg entries, hv, judgeMeasured_measured]

/-! ### The refresh of an unmeasured port (R69, R81, R83) -/

/-- The state in which a port has been keyed alone until `te`, its bin marked. -/
def State.keyedAlone (s : State) (n te at_ : Nat) : State :=
  let u := (s.advance te).modF n fun y => { y with retryAt := at_, quietFrom := te }
  { u with field := { u.field with onInBin := setBit u.field.onInBin n true } }

theorem keyedAlone_spec (te at_ : Nat) : ((s.keyedAlone p te at_).pf p).retryAt = at_ ∧ (s.keyedAlone p te at_).time = max s.time te ∧
    (∀ m, m ≠ p.val → (s.keyedAlone p te at_).pf m = s.pf m) := by
  obtain ⟨u, hu⟩ : ∃ u, u = (s.advance te).modF p fun y => { y with retryAt := at_, quietFrom := te } := ⟨_, rfl⟩
  have pf (m : Nat) : (s.keyedAlone p te at_).pf m = u.pf m := by rw [hu]; rfl
  have time : (s.keyedAlone p te at_).time = (s.advance te).time := rfl
  have field : (s.advance te).field = s.field := keeps_advance s te .field (by decide)
  refine ⟨by rw [pf, hu, pf_modF_same], time.trans (advance_time s te), fun m hm => ?_⟩
  rw [pf, hu, pf_modF_ne _ _ _ _ hm, pf_of_field field]

/-- When the keying of an unmeasured port begins: 15 µs of biasing first where it was in OFF. -/
def State.keyFrom (s : State) (n : Nat) : Nat := max s.time (s.retryFrom n) + if (s.pf n).radio = .off then 15 * usec else 0

theorem does_matrixRetry {l : List Word} {P : State → Prop} (hr : Running s) (hrun : s.gen.phase = .run) (hm : s.measured p = false)
    (hcarrier : (s.pf p).carrier = false) (hramp : (s.pf p).ramp = .none) (hsyn : s.field.synRun = true)
    (hidle : (s.advance (s.keyFrom p)).airIdle p (s.keyFrom p + 20 * usec) = true)
    (hfree : (s.advance (s.keyFrom p)).airFree p (s.keyFrom p + 20 * usec) 0 = true) (hin : s.keyFrom p + 20 * usec ≤ s.retryFrom p + s.refreshTime)
    (hp : P (((s.advance (s.keyFrom p)).keyedAlone p (s.keyFrom p + 20 * usec) (s.retryFrom p + s.refreshTime)).columnTaken p
      ((s.advance (s.keyFrom p)).keyedColumn p l))) : Does (.matrixRetry p l) s P := by
  have time : (s.advance (s.keyFrom p)).time = s.keyFrom p := by
    rw [advance_time, State.keyFrom]
    omega
  refine does_running (o := execMatrixRetry p l s) rfl rfl hr ?_ hp
  simp only [hrun, hm, hcarrier, hramp, hsyn, decide_true, Bool.not_false, Bool.and_self, if_true, Bool.not_true, Bool.false_eq_true, if_false]
  rw [show max s.time (s.retryFrom p) + (if (s.pf p).radio = .off then 15 * usec else 0) = s.keyFrom p from rfl, time, hidle, hfree,
    decide_eq_true hin]
  rfl

/-! ### Neighbour sets (R85) -/

/-- The state in which a pair is or is not one of neighbours. -/
def State.pairSet (s : State) (n m : Nat) (want : Bool) : State :=
  ({ s with field := { s.field with
      neigh := vmod (vmod s.field.neigh 0 n (fun k => setBit k m want)) 0 m (fun k => setBit k n want) } }).post 0x2004 .top 0

theorem pairSet_within (n m : Nat) (want : Bool) : Within ⟨[.field, .obs], [], []⟩ s (s.pairSet n m want) :=
  within_post (.of_parts) (within_with_field _ (.of_parts) (.refl _ s)) _ _ _

theorem pairSet_neigh {q : Port} (h : p ≠ q) (want : Bool) (n : Nat) : (s.pairSet p q want).neigh n =
    if n = q.val then setBit (s.neigh q) p want else if n = p.val then setBit (s.neigh p) q want else s.neigh n := by
  have apart : q.val ≠ p.val := fun e => h (Fin.ext e.symm)
  have eq : (s.pairSet p q want).neigh n = vget (vmod (vmod s.field.neigh 0 p (fun k => setBit k q want)) 0 q (fun k => setBit k p want)) 0 n := rfl
  rw [eq]
  split
  next hn => rw [hn, vget_vmod_same _ _ _ _ q.isLt, vget_vmod_ne _ _ _ _ _ apart]; rfl
  next hn =>
    rw [vget_vmod_ne _ _ _ _ _ hn]
    split
    next hp => rw [hp, vget_vmod_same _ _ _ _ p.isLt]; rfl
    next hp => rw [vget_vmod_ne _ _ _ _ _ hp]; rfl

theorem pairSet_spec {q : Port} (h : p ≠ q) (want : Bool) :
    (s.pairSet p q want).areNeigh p q = want ∧ (s.pairSet p q want).areNeigh q p = want ∧
    ∀ n m : Port, (n ≠ p ∨ m ≠ q) → (n ≠ q ∨ m ≠ p) → (s.pairSet p q want).areNeigh n m = s.areNeigh n m := by
  have apart : p.val ≠ q.val := fun e => h (Fin.ext e)
  refine ⟨?_, ?_, fun n m hpq hqp => ?_⟩
  · rw [State.areNeigh, pairSet_neigh s p h, if_neg apart, if_pos rfl, testBit_setBit_same]
  · rw [State.areNeigh, pairSet_neigh s p h, if_pos rfl, testBit_setBit_same]
  · rw [State.areNeigh, State.areNeigh, pairSet_neigh s p h]
    split
    next hn =>
      have other : m.val ≠ p.val := fun e => hqp.elim (· (Fin.ext hn)) (· (Fin.ext e))
      rw [testBit_setBit_ne _ other, hn]
    next hn =>
      split
      next hn' =>
        have other : m.val ≠ q.val := fun e => hpq.elim (· (Fin.ext hn')) (· (Fin.ext e))
        rw [testBit_setBit_ne _ other, hn']
      · rfl

/-- Settles O37: the column of an unmeasured port once it has been keyed alone, and a pair of neighbours changed in both sets at once. -/
theorem couplingIsKeptUpToDate : Obligations.CouplingIsKeptUpToDate := by
  refine ⟨fun s p l e hr hrun hm hcarrier hramp hsyn he hidle hfree hin => ?_, fun s p l hr hrun hm hcarrier hramp hsyn => ?_,
    fun s p q hr hpq hwant houtp houtq => ?_, fun s p q hr hout => ?_⟩
  · have from_ : e = s.keyFrom p := he
    rw [from_] at hidle hfree hin ⊢
    refine does_matrixRetry s p hr hrun hm hcarrier hramp hsyn hidle hfree hin ?_
    obtain ⟨u, hu⟩ : ∃ u, u = s.advance (s.keyFrom p) := ⟨_, rfl⟩
    have time : u.time = s.keyFrom p := by rw [hu, advance_time, State.keyFrom]; omega
    have field : u.field = s.field := hu ▸ keeps_advance s _ .field (by decide)
    obtain ⟨retry, until_, others⟩ := keyedAlone_spec u p (s.keyFrom p + 20 * usec) (s.retryFrom p + s.refreshTime)
    rw [← hu]
    generalize u.keyedAlone p (s.keyFrom p + 20 * usec) (s.retryFrom p + s.refreshTime) = v at *
    obtain ⟨entries, measured, keeps⟩ := columnTaken_spec v p (keyedColumn_length u p l)
    have same (m : Nat) := pf_of_field (keeps .field (by decide)) m
    refine ⟨Eq.trans (keeps .time (by decide)) (until_.trans ?_), by rw [same, retry], entries, measured, fun m hm => ?_⟩
    · rw [time]
      omega
    · rw [same, others m hm, pf_of_field field]
  · refine does_running (t := s.startSyn) (o := execMatrixRetry p l s) rfl rfl hr ?_ ⟨rfl, startSyn_synRun s⟩
    simp only [hrun, hm, hcarrier, hramp, hsyn, decide_true, Bool.not_false, Bool.and_self, if_true]
  · refine does_running (t := s.pairSet p q ((s.neighDue p).testBit q)) (o := execNeighbourSetChange p q s) rfl rfl hr ?_ ?_
    · simp only [decide_eq_true hpq, decide_eq_true hwant, houtp, houtq, Bool.and_self, if_true]
      rfl
    · obtain ⟨there, back, others⟩ := pairSet_spec s p hpq ((s.neighDue p).testBit q)
      exact ⟨there, back, posted_post _ _ _ _, others, (pairSet_within s p q _).parts⟩
  · refine does_running (t := s) (o := execNeighbourSetChange p q s) rfl rfl hr ?_ rfl
    simp only [hout, Bool.and_false, Bool.false_and, Bool.false_eq_true, if_false]

end Sys2Proof.Machine

/-! Deferrals that starve and warm-up steps (O38). -/

namespace Sys2Proof.Machine

/-- The carrier and the amplitude that a port has in force, its phase, and the registers that they come from stay as they are. -/
structure SameDrive (n : Nat) (s t : State) : Prop where
  regs : ∀ a, t.reg a = s.reg a
  carrier : (t.pf n).carrier = (s.pf n).carrier
  phase : (t.pf n).phase = (s.pf n).phase
  ampl : (t.pf n).ampl = (s.pf n).ampl
  limit : (t.pf n).limit = (s.pf n).limit
  ceil : (t.pf n).ceil = (s.pf n).ceil

variable {s t : State} {p : Port}

theorem SameDrive.effAmpl {n : Nat} (h : SameDrive n s t) : t.effAmpl n = s.effAmpl n := by
  have eff (a l c : Nat) : t.effOf n a l c = s.effOf n a l c := by
    rw [State.effOf, State.effOf, State.vddtxOk, State.vddtxOk, State.fldBit, State.fldBit, fld_of_reg (h.regs _)]
  rw [State.effAmpl, State.effAmpl, h.carrier, h.ampl, h.limit, h.ceil, eff, eff, fld_of_reg (h.regs _), fld_of_reg (h.regs _), State.ceil,
    State.ceil, fld_of_reg (h.regs _)]

theorem SameDrive.dippedColumn {n : Nat} (h : SameDrive n s t) (l : List Word) : t.dippedColumn n l = s.dippedColumn n l := by
  rw [State.dippedColumn, State.dippedColumn, h.effAmpl, h.phase]

variable (s p)

/-! ### A warm-up step's end (R83, R93, R138) -/

/-- The state in which step `i` has ended at `e` and is done. -/
def State.stepEnded (s : State) (n i e : Nat) : State :=
  (s.advance e).modF n fun x =>
    { x with step := none, radio := if x.radio = .cal then .field else x.radio, stepDone := x.stepDone.set i (s.advance e).time,
             quietFrom := (s.advance e).time }

theorem stepEnded_pf (i e : Nat) : (s.stepEnded p i e).pf p = { s.pf p with
    step := none, radio := if (s.pf p).radio = .cal then .field else (s.pf p).radio, stepDone := (s.pf p).stepDone.set i (max s.time e),
    quietFrom := max s.time e } := by
  have pf := pf_of_field (keeps_advance s e .field (by decide)) p
  rw [State.stepEnded, pf_modF_same, pf, advance_time]

theorem stepEnded_leaves (i e : Nat) : FieldOf p s (s.stepEnded p i e) ∧ Passes e [.field] s (s.stepEnded p i e) := by
  have early : FieldOf p s (s.advance e) := .of_field (keeps_advance s e .field (by decide))
  exact ⟨early.trans (fieldOf_modF _ p _), (keeps_modF _ p _).passes⟩

theorem stepEnded_drive (i e : Nat) : SameDrive p s (s.stepEnded p i e) := by
  have pf := stepEnded_pf s p i e
  have reg (a : Nat) : (s.stepEnded p i e).reg a = s.reg a := (advance_reads s e).1 a
  constructor
  case regs => exact reg
  all_goals rw [pf]

/-- Step 1 adapts the weights of its own port. -/
theorem adapt_leaves (l : List RxSample) : RxeOf p s (s.adapt p true l) ∧ Keeps [.rxe] s (s.adapt p true l) := by
  refine ⟨?_, (within_adapt s p true l (.refl _) (.refl _ s)).parts⟩
  unfold State.adapt
  split
  · exact rxeOf_modR s p _
  · exact .refl p s

/-- The state after a step other than the coupling refresh. -/
def State.stepClosed (s : State) (n i e : Nat) (l : List RxSample) : State :=
  if i = 1 then (s.stepEnded n i e).adapt n true l else s.stepEnded n i e

theorem stepClosed_spec (i e : Nat) (l : List RxSample) :
    (s.stepClosed p i e l).pf p = (s.stepEnded p i e).pf p ∧ (i ≠ 1 → (s.stepClosed p i e l).pr p = s.pr p) ∧ RxeOf p s (s.stepClosed p i e l) ∧
    FieldOf p s (s.stepClosed p i e l) ∧ Passes e [.field, .rxe] s (s.stepClosed p i e l) := by
  obtain ⟨u, hu⟩ : ∃ u, u = s.stepEnded p i e := ⟨_, rfl⟩
  obtain ⟨field, time, ring, keeps⟩ : FieldOf p s u ∧ Passes e [.field] s u := hu ▸ stepEnded_leaves s p i e
  have rxe : u.rxe = s.rxe := keeps .rxe (by decide)
  have wide := keeps.mono (show ∀ q ∈ [.time, .obs, .sram, .field], q ∈ [StatePart.time, .obs, .sram, .field, .rxe] by decide)
  rw [State.stepClosed, ← hu]
  split
  next h =>
    obtain ⟨others, same⟩ := adapt_leaves u p l
    exact ⟨pf_of_field (same .field (by decide)) p, fun c => absurd h c, (RxeOf.of_rxe rxe).trans others,
      field.trans (.of_field (same .field (by decide))), Eq.trans (same .time (by decide)) time,
      ring.trans (.of_sram (same .sram (by decide))), keeps.join same⟩
  next => exact ⟨rfl, fun _ => pr_of_rxe rxe p, .of_rxe rxe, field, time, ring, wide⟩

theorem dippedColumn_length (l : List Word) : (s.dippedColumn p l).length = 16 := by
  rw [State.dippedColumn, List.length_map, List.length_range]

/-- The coupling refresh replaces its port's column (R83). -/
theorem refreshed_spec {col : List Word} (h : col.length = 16) :
    (∀ i : Port, ((s.setColumn p col).deriveNeigh).reg (Reg.FLD_COUPLE (16 * i.val + p.val)) = (col[i.val]?).getD 0) ∧
    Keeps [.regs, .rxe] s ((s.setColumn p col).deriveNeigh) := by
  have derived := deriveNeigh_within (s.setColumn p col)
  refine ⟨fun i => ?_, (setColumn_within s p col).parts.join derived.parts⟩
  rw [derived.reg_of_misses _ (couple_misses _).2, setColumn_reg s p h i.isLt]

theorem does_stepDone {i e : Nat} {l : List Word} {samples : List RxSample} {P : State → Prop} (hr : Running s) (hstep : (s.pf p).step = some (i, e))
    (hp : P (if i = 5 then ((s.stepEnded p i e).setColumn p ((s.stepEnded p i e).dippedColumn p l)).deriveNeigh else s.stepClosed p i e samples)) :
    Does (.warmupStepDone p l samples) s P :=
  does_running (o := execWarmupStepDone p l samples s) rfl rfl hr (by simp only [hstep]; rfl) hp

/-- Settles O38: the deferral noted, the step begun and ended, its column taken, the port late. -/
theorem starvedAndWarm : Obligations.StarvedAndWarm := by
  refine ⟨fun s p d hr hdue hnot => ?_, fun s h d hr hdue hnot => ?_, fun s p i hr hen hrelay hstep hradio hphase hair => ?_,
    fun s p i e l samples hr hstep hi => ?_, fun s p e l samples hr hstep => ?_, fun s p hr hnot hlate hradio => ?_⟩
  · have pf := pf_of_field (keeps_advance s (d + s.starveLimit) .field (by decide)) p
    have early : FieldOf p s (s.advance (d + s.starveLimit)) := .of_field (keeps_advance s _ .field (by decide))
    refine does_running (t := (((s.advance (d + s.starveLimit)).modF p fun x => { x with starved := true }).post 0x2003 .top 0))
      (o := execFldStarve (.port p) s) rfl rfl hr (by simp only [hdue, hnot]; rfl) ?_
    refine ⟨?_, posted_post _ _ _ _, (early.trans (fieldOf_modF _ p _)).trans (.of_field rfl), ((keeps_modF _ p _).join (keeps_post _ _ _ _) (r := [.field, .obs])).passes⟩
    rw [pf_of_field (keeps_post _ _ _ _ .field (by decide)), pf_modF_same, pf]
  · have field : (s.advance (d + s.starveLimit)).field = s.field := keeps_advance s _ .field (by decide)
    refine does_running (t := (((s.advance (d + s.starveLimit)).modH h fun x => { x with starved := true }).post 0x2003 .top 0))
      (o := execFldStarve (.huddle h) s) rfl rfl hr (by simp only [hdue, hnot]; rfl) ?_
    have modified : Keeps [.field] (s.advance (d + s.starveLimit)) ((s.advance (d + s.starveLimit)).modH h fun x => { x with starved := true }) :=
      (within_modH _ _ _ (.refl _) (.refl _ _)).parts
    refine ⟨?_, posted_post _ _ _ _, (modified.join (keeps_post _ _ _ _) (r := [.field, .obs])).passes⟩
    rw [hud_of_field (keeps_post _ _ _ _ .field (by decide)), hud_modH_same, hud_of_field field]
  · have relay : (decide (i.val ≠ 3) || !isRelay p) = true := by
      rw [isRelay, Bool.or_eq_true, decide_eq_true_iff, Bool.not_eq_true', decide_eq_false_iff_not]
      omega
    refine does_running (t := s.modF p fun y => { y with
      step := some (i.val, s.time + stepUs i * usec), radio := if y.radio = .field then .cal else y.radio,
      stepAsked := setBit y.stepAsked i false }) (o := execWarmupStepStart p i s) rfl rfl hr ?_ ⟨?_, fieldOf_modF s p _, keeps_modF s p _⟩
    · simp only [hen, relay, hstep, hradio, hphase, hair, Option.isNone_none, decide_true, Bool.true_or, Bool.and_self, if_true]
    · rw [pf_modF_same, hradio]
      rfl
  · refine does_stepDone s p hr hstep ?_
    rw [if_neg hi, ← stepEnded_pf]
    exact stepClosed_spec s p i e samples
  · refine does_stepDone s p hr hstep ?_
    rw [if_pos rfl, (stepEnded_drive s p 5 e).dippedColumn l, ← stepEnded_pf]
    obtain ⟨entries, keeps⟩ := refreshed_spec (s.stepEnded p 5 e) p (dippedColumn_length s p l)
    exact ⟨pf_of_field (keeps .field (by decide)) p, entries⟩
  · refine does_running (t := (s.stickBit Reg.FLD_WARMUP_STATUS Fld.FLD_WARMUP_STATUS_LATE p).post 0x2006 .heart 0)
      (o := execFldWarmLate p s) rfl rfl hr ?_ ?_
    · simp only [hnot, hlate, decide_eq_true hradio, Bool.not_false, Bool.and_self, if_true]
    · have within : Within ⟨[.regs, .obs], [Reg.FLD_WARMUP_STATUS].map one, []⟩ s
          ((s.stickBit Reg.FLD_WARMUP_STATUS Fld.FLD_WARMUP_STATUS_LATE p).post 0x2006 .heart 0) :=
        within_post (.of (by decide)) (within_stickBit _ _ _ (.refl _) (.refl _ s)) _ _ _
      refine ⟨?_, posted_post _ _ _ _, within.regsBut, within.parts⟩
      have reg : ((s.stickBit Reg.FLD_WARMUP_STATUS Fld.FLD_WARMUP_STATUS_LATE p).post 0x2006 .heart 0).reg Reg.FLD_WARMUP_STATUS =
        (s.setFldBit Reg.FLD_WARMUP_STATUS Fld.FLD_WARMUP_STATUS_LATE p true).reg Reg.FLD_WARMUP_STATUS := rfl
      rw [State.fldBit, fld_of_reg reg, State.setFldBit, fld_setFld_same _ _ _ _ (by decide), Nat.testBit_mod_two_pow, testBit_setBit_same,
        decide_eq_true p.isLt, Bool.true_and]

end Sys2Proof.Machine

/-! Frames on the air (O39): its fifth clause leaves out a reception kept from before the cut that came too early. -/

namespace Sys2Proof.Machine

/-- CLK_CORE runs in the state after reset. -/
def awakeReset : State := { State.reset with pwr := { State.reset.pwr with awake := .running } }

/-- A host frame of NFC-A. -/
def hostFrame : Frame :=
  { tech := 0, rate := 0, rtech := 0, rrate := 0, crcTx := false, crcRx := false, resp := true, anticoll := false, hold := false, len := 0,
    lastBits := 0, tag := 0, win := 0, scale := 0, delay := 0, limit := 0, data := [], purpose := .host }

/-- Its exchange, in which a reception that came too early was overtaken. -/
def overtakenExchange : Exchange :=
  { plan := { frame := hostFrame, takenAt := 0, notBefore := 0, synSince := none, synWait := 0, heldSyn := false }
    startAt := 0, txDone := true
    earlier := some { bytes := [], lastBits := 0, rxs0 := 0, rxs1 := 0, rxs2 := 0, result := 11, early := true } }

/-- Port 0 with that exchange, taken as a victim of the duty gate. -/
def victimExchanging : State :=
  let s := awakeReset.modP 0 fun x => { x with xch := some overtakenExchange }
  { s with field := { s.field with victims := 1 } }

/-- The status that its cut leaves shows EARLY. -/
theorem victimExchanging_cut :
    readAfter (fun t => t.reg (Reg.PRO_P_LAST_PRS 0)) 0 (exec (.dutyCutDeadline 0 { bits := [], halves := [], rssi := 0, clip := false }) victimExchanging) =
      overtakenExchange.prs 11 true := by decide +kernel

/-- Refutes O39, in its fifth clause: what the cut exchange delivers is the reception kept from before, and EARLY is that reception's. -/
theorem not_framesOnAir : ¬ Obligations.FramesOnAir := by
  rintro ⟨-, -, -, -, h⟩
  obtain ⟨t, ⟨-, -, prs, -⟩, cut⟩ := (h victimExchanging 0 { bits := [], halves := [], rssi := 0, clip := false } overtakenExchange ⟨rfl, rfl⟩
    (by decide) (congrArg PortP.xch (pp_modP_same awakeReset (0 : Port) _)) (by decide +kernel) (by decide +kernel) rfl).read
    (fun t => t.reg (Reg.PRO_P_LAST_PRS 0)) 0 (fun t => reg_of_regs (keeps_finish _ t .regs (by decide)) _)
  have shown : overtakenExchange.prs 11 false = overtakenExchange.prs 11 true := prs.symm.trans (cut.trans victimExchanging_cut)
  exact absurd shown (by decide)

end Sys2Proof.Machine

/-! The tuner: measurements, searches and the frames of its link (O40). -/

namespace Sys2Proof.Machine

/-! ### What a port's measurements leave -/

/-- No measurement has been made or asked for, and no warm-up step has been done. -/
structure SameMeas (s t : State) : Prop where
  at_ : ∀ n, (t.pt n).measAt = (s.pt n).measAt
  ref : ∀ n, (t.pt n).refNext = (s.pt n).refNext
  next : ∀ n, (t.pt n).measNext = (s.pt n).measNext
  done : ∀ n, (t.pf n).stepDone = (s.pf n).stepDone

/-- Nor has a search begun, gone on or ended. -/
structure SameProbe (s t : State) : Prop extends SameMeas s t where
  search : ∀ n, (t.pt n).search = (s.pt n).search

theorem SameMeas.trans {s t u : State} (h : SameMeas s t) (k : SameMeas t u) : SameMeas s u :=
  ⟨fun n => (k.at_ n).trans (h.at_ n), fun n => (k.ref n).trans (h.ref n), fun n => (k.next n).trans (h.next n),
    fun n => (k.done n).trans (h.done n)⟩

theorem SameProbe.trans {s t u : State} (h : SameProbe s t) (k : SameProbe t u) : SameProbe s u :=
  ⟨h.toSameMeas.trans k.toSameMeas, fun n => (k.search n).trans (h.search n)⟩

theorem SameProbe.of_same {s t : State} (h : t.tun = s.tun) (k : t.field = s.field) : SameProbe s t := by
  refine ⟨⟨fun n => ?_, fun n => ?_, fun n => ?_, fun n => ?_⟩, fun n => ?_⟩
  case refine_4 => rw [pf_of_field k]
  all_goals rw [pt_of_tun h]

theorem SameProbe.refl (s : State) : SameProbe s s := .of_same rfl rfl

theorem SameMeas.ite {s t u : State} {c : Prop} [Decidable c] (h : SameMeas s t) (k : SameMeas s u) : SameMeas s (if c then t else u) := by
  split
  · exact h
  · exact k

theorem SameProbe.ite {s t u : State} {c : Prop} [Decidable c] (h : SameProbe s t) (k : SameProbe s u) : SameProbe s (if c then t else u) := by
  split
  · exact h
  · exact k

variable (s : State) (p : Port)

/-- What a change of one entry leaves of every entry. -/
theorem vget_vmod_of {α β : Type} {k : Nat} (v : Vector α k) (d : α) (n m : Nat) (f : α → α) (g : α → β) (h : ∀ x, g (f x) = g x) :
    g (vget (vmod v d n f) d m) = g (vget v d m) := by
  by_cases hm : m = n
  · subst hm
    by_cases hk : m < k
    · rw [vget_vmod_same _ _ _ _ hk, h]
    · simp [vget, vmod, hk]
  · rw [vget_vmod_ne _ _ _ _ _ hm]

theorem sameMeas_modT (n : Nat) (f : PortT → PortT) (ha : ∀ x, (f x).measAt = x.measAt := by intro; rfl)
    (hr : ∀ x, (f x).refNext = x.refNext := by intro; rfl) (hn : ∀ x, (f x).measNext = x.measNext := by intro; rfl) : SameMeas s (s.modT n f) :=
  ⟨fun m => vget_vmod_of _ _ n m f _ ha, fun m => vget_vmod_of _ _ n m f _ hr, fun m => vget_vmod_of _ _ n m f _ hn, fun _ => rfl⟩

theorem sameProbe_modT (n : Nat) (f : PortT → PortT) (ha : ∀ x, (f x).measAt = x.measAt := by intro; rfl)
    (hr : ∀ x, (f x).refNext = x.refNext := by intro; rfl) (hn : ∀ x, (f x).measNext = x.measNext := by intro; rfl) (hs : ∀ x, (f x).search = x.search := by intro; rfl) : SameProbe s (s.modT n f) :=
  ⟨sameMeas_modT s n f ha hr hn, fun m => vget_vmod_of _ _ n m f _ hs⟩

theorem sameProbe_modF (n : Nat) (f : PortF → PortF) (hd : ∀ x, (f x).stepDone = x.stepDone := by intro; rfl) : SameProbe s (s.modF n f) :=
  ⟨⟨fun _ => rfl, fun _ => rfl, fun _ => rfl, fun m => vget_vmod_of _ _ n m f _ hd⟩, fun _ => rfl⟩

theorem sameProbe_setFld (a : Nat) (f : Field) (v : Nat) : SameProbe s (s.setFld a f v) := .of_same rfl rfl

theorem sameProbe_countBy (i n : Nat) : SameProbe s (s.countBy i n) := .of_same rfl rfl

theorem sameProbe_endDeferral (n : Nat) : SameProbe s (s.endDeferral n) := by
  unfold State.endDeferral
  split
  · exact (sameProbe_countBy s _ _).trans (sameProbe_modF _ n _)
  · exact .refl s

/-! ### The link (R105, R108) -/

theorem sameProbe_kickLink : SameProbe s s.kickLink := by
  unfold State.kickLink
  split
  · exact .refl s
  next q l h =>
    have begun : SameProbe s { s with tun := { s.tun with
        link := { q with ends := some (s.time + s.linkTime q.port) } :: l, sent := s.tunerFrame q.port q.isRead q.code } } :=
      ⟨⟨fun _ => rfl, fun _ => rfl, fun _ => rfl, fun _ => rfl⟩, fun _ => rfl⟩
    refine .ite (.refl s) (.ite ?_ begun)
    exact begun.trans ((sameProbe_endDeferral _ _).trans ((sameProbe_modF _ _ _).trans
      (sameProbe_modT _ _ _)))

theorem sameProbe_yieldLink (n : Nat) : SameProbe s (s.yieldLink n) := by
  unfold State.yieldLink
  split
  next q l h =>
    have back : SameProbe s { s with tun := { s.tun with link := { q with ends := none } :: l } } :=
      ⟨⟨fun _ => rfl, fun _ => rfl, fun _ => rfl, fun _ => rfl⟩, fun _ => rfl⟩
    refine .ite (.ite ?_ back) (.refl s)
    exact back.trans ((sameProbe_modT _ _ _).trans (sameProbe_modF _ _ _))
  · exact .refl s

theorem sameProbe_sendCode (n : Nat) : SameProbe s (s.sendCode n) := by
  have queued (u : State) (l : List LinkReq) : SameProbe u { u with tun := { u.tun with link := l } } :=
    ⟨⟨fun _ => rfl, fun _ => rfl, fun _ => rfl, fun _ => rfl⟩, fun _ => rfl⟩
  exact .ite (.refl s) ((sameProbe_yieldLink s n).trans ((queued _ _).trans (sameProbe_kickLink _)))

theorem sendCode_within (n : Nat) : Within ⟨[.field, .tun, .obs], [], []⟩ s (s.sendCode n) := within_sendCode s n (.refl _) (.refl _ s)

/-- A request as it was made: its frame's beginning left aside. -/
def LinkReq.asks (q : LinkReq) : Nat × Nat × Word × Bool × Bool := (q.asked, q.port, q.code, q.isRead, q.again)

theorem kickLink_asks : s.kickLink.tun.link.map LinkReq.asks = s.tun.link.map LinkReq.asks := by
  unfold State.kickLink
  split
  next h => rw [h]
  next q l h =>
    dsimp only
    have deferred (u : State) : (u.endDeferral q.port).tun = u.tun := (within_endDeferral u q.port (.refl _) (.refl _ u)).parts .tun (by decide)
    split
    · rfl
    · split
      · have link (u : State) (f : PortF → PortF) (g : PortT → PortT) :
            (((u.endDeferral q.port).modF q.port f).modT q.port g).tun.link = (u.endDeferral q.port).tun.link := rfl
        rw [link, deferred, h]
        rfl
      · rw [h]
        rfl

theorem yieldLink_asks (n : Nat) : (s.yieldLink n).tun.link.map LinkReq.asks = s.tun.link.map LinkReq.asks := by
  unfold State.yieldLink
  split
  next q l h =>
    dsimp only
    split
    · have back : ({ q with ends := none } :: l).map LinkReq.asks = s.tun.link.map LinkReq.asks := by rw [h]; rfl
      split
      · exact back
      · exact back
    · rfl
  · rfl

/-- A request put in its place joins the others. -/
theorem putReq_asks (q : LinkReq) (l : List LinkReq) :
    (putReq q l).length = l.length + 1 ∧ q ∈ putReq q l := by
  induction l with
  | nil => exact ⟨rfl, List.mem_singleton.2 rfl⟩
  | cons x l ih =>
    rw [putReq]
    split
    · exact ⟨rfl, List.mem_cons_self⟩
    · exact ⟨by rw [List.length_cons, ih.1, List.length_cons], List.mem_cons_of_mem x ih.2⟩

/-- A code sent joins the link's frames. -/
theorem sendCode_asks {n : Nat} (h : s.flag (Reg.TUN_P_TUNER n) Fld.TUN_P_TUNER_NONE = false) :
    (s.sendCode n).tun.link.length = s.tun.link.length + 1 ∧
    (s.time, n, s.reg (Reg.TUN_P_CODE n), false, false) ∈ (s.sendCode n).tun.link.map LinkReq.asks := by
  obtain ⟨q, hq⟩ : ∃ q : LinkReq, q = { asked := s.time, port := n, code := s.reg (Reg.TUN_P_CODE n), isRead := false, again := false, ends := none } :=
    ⟨_, rfl⟩
  obtain ⟨u, hu⟩ : ∃ u : State, u = { s.yieldLink n with tun := { (s.yieldLink n).tun with link := putReq q (s.yieldLink n).tun.link } } := ⟨_, rfl⟩
  have eq : s.sendCode n = u.kickLink := by
    rw [hu, hq]
    unfold State.sendCode
    rw [h, if_neg Bool.false_ne_true]
  have link : u.tun.link = putReq q (s.yieldLink n).tun.link := by rw [hu]
  obtain ⟨length, mem⟩ := putReq_asks q (s.yieldLink n).tun.link
  have same := congrArg List.length (yieldLink_asks s n)
  have all := congrArg List.length (kickLink_asks u)
  simp only [List.length_map] at same all
  rw [eq]
  refine ⟨by rw [all, link, length, same], ?_⟩
  rw [kickLink_asks, link]
  exact List.mem_map.2 ⟨q, mem, by rw [hq]; rfl⟩

/-! ### Searches (R115, R116) -/

/-- The state in which a search has been entered, before its first code is sent. -/
def State.searching (s : State) (n : Nat) (x : Search) : State :=
  (s.setFld (Reg.TUN_P_STATUS n) Fld.TUN_P_STATUS_SEARCHING 1).modT n fun y => { y with search := some x }

/-- The axis that a search begins with. -/
def State.firstAxis (s : State) (n : Nat) : Nat := if s.fld (Reg.TUN_P_SEARCH n) Fld.TUN_P_SEARCH_AXES = 2 then 1 else 0

/-- A search as it begins: the code in force is measured first. -/
def State.firstSearch (s : State) (n : Nat) : Search :=
  { axis := s.firstAxis n, both := decide (s.fld (Reg.TUN_P_SEARCH n) Fld.TUN_P_SEARCH_AXES = 3)
    step := s.fld (Reg.TUN_P_SEARCH n) Fld.TUN_P_SEARCH_STEP_INIT, code := s.fld (Reg.TUN_P_CODE n) (axisField (s.firstAxis n)), known := [], count := 0
    trying := some (s.fld (Reg.TUN_P_CODE n) (axisField (s.firstAxis n))), mid := false, lastI := 0, lastQ := 0 }

theorem beginSearch_cases (n : Nat) : s.beginSearch n = s ∨ s.beginSearch n = (s.searching n (s.firstSearch n)).sendCode n := by
  unfold State.beginSearch
  split
  · exact .inl rfl
  · exact .inr rfl

theorem searching_meas (n : Nat) (x : Search) : SameMeas s (s.searching n x) :=
  (sameProbe_setFld s _ _ _).toSameMeas.trans (sameMeas_modT _ n _)

theorem beginSearch_meas (n : Nat) : SameMeas s (s.beginSearch n) := by
  rcases beginSearch_cases s n with h | h <;> rw [h]
  · exact (SameProbe.refl s).toSameMeas
  · exact (searching_meas s n _).trans (sameProbe_sendCode _ n).toSameMeas

theorem searching_within (n : Nat) (x : Search) : Within ⟨[.regs, .tun], [one (Reg.TUN_P_STATUS n)], []⟩ s (s.searching n x) :=
  within_modT _ n _ .of_none (within_setFld _ _ _ (.of_parts) (.refl _ s))

/-- RETUNE on a port in FIELD that does not search begins a search with the code in force (R115). -/
theorem retune_spec (hradio : (s.pf p).radio = .field) (hsearch : (s.pt p).search = none) :
    (s.retune p).flag (Reg.TUN_P_STATUS p) Fld.TUN_P_STATUS_SEARCHING = true ∧ RegsBut [Reg.TUN_P_STATUS p] s (s.retune p) ∧
    ((s.retune p).pt p).search = some (s.firstSearch p) := by
  have eq : s.retune p = (s.searching p (s.firstSearch p)).sendCode p := by
    unfold State.retune State.beginSearch
    rw [if_pos hradio, hradio, hsearch]
    rfl
  have sent := sendCode_within (s.searching p (s.firstSearch p)) p
  have begun := searching_within s p (s.firstSearch p)
  have reg : (s.searching p (s.firstSearch p)).reg (Reg.TUN_P_STATUS p) =
    (s.setFld (Reg.TUN_P_STATUS p) Fld.TUN_P_STATUS_SEARCHING 1).reg (Reg.TUN_P_STATUS p) := rfl
  rw [eq]
  refine ⟨?_, fun a ha => (sent.regs_same a).trans (begun.regs a fun r hr n _ => ?_), ?_⟩
  · rw [flag_of_reg (sent.regs_same _), flag_of_reg reg, flag_setFld_same _ _ _ _ (by decide)]
    rfl
  · rw [List.mem_singleton.1 hr]
    simpa [one] using ha
  · rw [(sameProbe_sendCode _ p).search, State.searching, pt_modT_same]

theorem tryCode_probe (n axis c : Nat) : SameProbe s (s.tryCode n axis c) :=
  (sameProbe_setFld s _ _ _).trans (sameProbe_sendCode _ n)

theorem closeSearch_spec (x : Search) : SameMeas s (s.closeSearch p x) ∧ ((s.closeSearch p x).pt p).search = none := by
  obtain ⟨u, hu⟩ : ∃ u, u = (s.setFld (Reg.TUN_P_STATUS p) Fld.TUN_P_STATUS_SEARCHING 0).modT p fun y => { y with search := none } := ⟨_, rfl⟩
  have meas : SameMeas s u := hu ▸ (sameProbe_setFld s _ _ _).toSameMeas.trans
    (sameMeas_modT _ p _)
  have ended : (u.pt p).search = none := by rw [hu, pt_modT_same]
  simp only [State.closeSearch, ← hu]
  split
  · exact ⟨meas, ended⟩
  · exact ⟨meas.trans (tryCode_probe u p _ _).toSameMeas, ((tryCode_probe u p _ _).search p).trans ended⟩

theorem endSearch_probe (n : Nat) (x : Search) : SameProbe s (s.endSearch n x) := .ite (.of_same rfl rfl) (.of_same rfl rfl)

/-- A search that a measurement carries on tries a further code, or is over. -/
theorem searchOn_spec (x : Search) : SameMeas s (s.searchOn p x) ∧
    (((s.searchOn p x).pt p).search = none ∨ (((s.searchOn p x).pt p).search.any fun y => y.trying.isSome) = true) := by
  have tries (u : State) (hu : SameMeas s u) (y : Search) (c axis : Nat) (hy : y.trying = some c) :
      SameMeas s ((u.modT p fun t => { t with search := some y }).tryCode p axis c) ∧
      ((((u.modT p fun t => { t with search := some y }).tryCode p axis c).pt p).search = none ∨
        ((((u.modT p fun t => { t with search := some y }).tryCode p axis c).pt p).search.any fun y => y.trying.isSome) = true) := by
    have probe := tryCode_probe (u.modT p fun t => { t with search := some y }) p axis c
    refine ⟨(hu.trans (sameMeas_modT u p _)).trans probe.toSameMeas, .inr ?_⟩
    rw [probe.search, pt_modT_same]
    simp [hy]
  unfold State.searchOn
  extract_lets limit y b z u s1
  split
  next c hc => exact tries s (SameProbe.refl s).toSameMeas y c _ hc
  next =>
    split
    · have set : SameMeas s s1 := (sameProbe_setFld s _ _ _).toSameMeas
      split
      next c hc => exact tries s1 set u c _ hc
      next =>
        obtain ⟨meas, ended⟩ := closeSearch_spec s1 p u
        have rest := (sameProbe_sendCode (s1.closeSearch p u) p).trans (endSearch_probe _ p u)
        exact ⟨(set.trans meas).trans rest.toSameMeas, .inl ((rest.search p).trans ended)⟩
    · obtain ⟨meas, ended⟩ := closeSearch_spec s p y
      have rest := endSearch_probe (s.closeSearch p y) p y
      exact ⟨meas.trans rest.toSameMeas, .inl ((rest.search p).trans ended)⟩

theorem searchOn_within (x : Search) : Within ⟨[.regs, .field, .tun, .obs], [each Reg.TUN_P_CODE 16, each Reg.TUN_P_STATUS 16], []⟩ s
    (s.searchOn p x) := within_searchOn s p x (.refl _) (.refl _ s)

/-! ### Measurements (R102, R103, R113, R114) -/

/-- What a measurement is judged to: registers of the deviation and a search, no other measurement. -/
structure Judged (s t : State) : Prop where
  within : Within ⟨[.regs, .field, .tun, .free, .obs], [one Reg.TUN_MISMATCH_STATUS, each Reg.TUN_P_STATUS 16], []⟩ s t
  meas : SameMeas s t

theorem Judged.refl (s : State) : Judged s s := ⟨.refl _ s, (SameProbe.refl s).toSameMeas⟩

theorem Judged.trans {s t u : State} (h : Judged s t) (k : Judged t u) : Judged s u := ⟨h.within.trans k.within, h.meas.trans k.meas⟩

theorem Judged.ite {s t u : State} {c : Prop} [Decidable c] (h : Judged s t) (k : Judged s u) : Judged s (if c then t else u) := by
  split
  · exact h
  · exact k

theorem judged_setFld (n : Nat) (f : Field) (v : Nat) : Judged s (s.setFld (Reg.TUN_P_STATUS n) f v) :=
  ⟨within_setFld_of Reg.TUN_P_STATUS 16 (by decide) (fun _ => rfl) n f v ⟨by decide, by simp, by simp⟩ (.refl _ s),
    (sameProbe_setFld s _ _ _).toSameMeas⟩

theorem judged_putDev (n : Nat) (v : Word) : Judged s (s.putDev n v) := by
  have within : Within ⟨[.regs, .free], [each Reg.TUN_P_STATUS 16], []⟩ s (s.putDev n v) := within_putDev s n v (.refl _) (.refl _ s)
  exact ⟨within.mono ⟨by decide, by simp, by simp⟩,
    (SameProbe.of_same (within.parts .tun (by decide)) (within.parts .field (by decide))).toSameMeas⟩

theorem judged_mismatch (n : Nat) :
    Judged s ((s.stickBit Reg.TUN_MISMATCH_STATUS Fld.TUN_MISMATCH_STATUS_MISMATCH n).post 0x3001 .heart 0) :=
  ⟨within_post ⟨by decide, by simp, by simp⟩ (within_stickBit _ _ _ ⟨by decide, by simp, by simp⟩ (.refl _ s)) _ _ _,
    ⟨fun _ => rfl, fun _ => rfl, fun _ => rfl, fun _ => rfl⟩⟩

theorem judged_beginSearch (n : Nat) : Judged s (s.beginSearch n) :=
  ⟨within_beginSearch s n ⟨by decide, by simp, by simp⟩ (.refl _ s), beginSearch_meas s n⟩

/-- A vector taken as the measurement of a port, and as its reference where CAPTURE_REF asked for it. -/
def State.vecTaken (s : State) (n : Nat) (v : Word) : State :=
  let t := (s.setReg (Reg.TUN_P_VEC n) v).modT n fun x => { x with refNext := false, measNext := false, measAt := s.time }
  if (s.pt n).refNext then t.setReg (Reg.TUN_P_REF n) v else t

theorem measuredVec_judged (n : Nat) (v : Word) : Judged (s.vecTaken n v) (s.measuredVec n v) := by
  unfold State.measuredVec
  extract_lets ref s0 s1 a s2 k s3 s4
  have dev : Judged s1 s2 := judged_putDev s1 n v
  have run : Judged s1 s3 := dev.trans (judged_setFld s2 n _ k)
  have found : Judged s1 s4 := run.trans ((judged_setFld s3 n _ 1).trans (judged_mismatch _ n))
  have calm := (judged_setFld s2 n Fld.TUN_P_STATUS_MISS_RUN 0).trans (judged_setFld _ n Fld.TUN_P_STATUS_MISMATCH 0)
  show Judged s1 _
  exact .ite (.refl s1) (.ite (.ite (.ite (found.trans (judged_beginSearch s4 n)) found) run) (dev.trans calm))

theorem vec_not_judged : missesRegs [one Reg.TUN_MISMATCH_STATUS, each Reg.TUN_P_STATUS 16] (Reg.TUN_P_VEC p) = true ∧
    missesRegs [one Reg.TUN_MISMATCH_STATUS, each Reg.TUN_P_STATUS 16] (Reg.TUN_P_REF p) = true := by
  revert p
  decide +kernel

/-- What a measurement of a port leaves at its time. -/
structure Measured (p : Port) (w : Word) (s t : State) : Prop where
  time : t.time = s.time
  vec : t.reg (Reg.TUN_P_VEC p) = w
  ref : t.reg (Reg.TUN_P_REF p) = if (s.pt p).refNext then w else s.reg (Reg.TUN_P_REF p)
  asked : (t.pt p).refNext = false ∧ (t.pt p).measNext = false
  at_ : (t.pt p).measAt = s.time
  done : (t.pf p).stepDone = (s.pf p).stepDone

theorem vecTaken_measured (w : Word) : Measured p w s (s.vecTaken p w) := by
  obtain ⟨t, ht⟩ : ∃ t, t = (s.setReg (Reg.TUN_P_VEC p) w).modT p fun x => { x with refNext := false, measNext := false, measAt := s.time } := ⟨_, rfl⟩
  have apart : Reg.TUN_P_VEC p ≠ Reg.TUN_P_REF p := ownReg_ne
  have reg (a : Nat) : t.reg a = (s.setReg (Reg.TUN_P_VEC p) w).reg a := by rw [ht]; rfl
  have pt : t.pt p = { s.pt p with refNext := false, measNext := false, measAt := s.time } := by rw [ht, pt_modT_same]; rfl
  have time : t.time = s.time := by rw [ht]; rfl
  have pf : t.pf p = s.pf p := by rw [ht]; rfl
  have eq : s.vecTaken p w = if (s.pt p).refNext then t.setReg (Reg.TUN_P_REF p) w else t := by rw [ht]; rfl
  have vec : t.reg (Reg.TUN_P_VEC p) = w := by rw [reg, reg_setReg_same]
  rw [eq]
  split
  next h =>
    exact ⟨time, (reg_setReg_ne _ _ _ _ apart).trans vec, by rw [if_pos h, reg_setReg_same], by rw [show (t.setReg _ w).pt p = t.pt p from rfl, pt]; exact ⟨rfl, rfl⟩,
      by rw [show (t.setReg _ w).pt p = t.pt p from rfl, pt], congrArg PortF.stepDone pf⟩
  next h =>
    exact ⟨time, vec, by rw [if_neg h, reg, reg_setReg_ne _ _ _ _ apart.symm], by rw [pt]; exact ⟨rfl, rfl⟩, by rw [pt], congrArg PortF.stepDone pf⟩

theorem Measured.judged {w : Word} {t u : State} (h : Measured p w s t) (k : Judged t u) : Measured p w s u where
  time := Eq.trans (k.within.parts .time (by decide)) h.time
  vec := (k.within.reg_of_misses _ (vec_not_judged p).1).trans h.vec
  ref := (k.within.reg_of_misses _ (vec_not_judged p).2).trans h.ref
  asked := ⟨(k.meas.ref p).trans h.asked.1, (k.meas.next p).trans h.asked.2⟩
  at_ := (k.meas.at_ p).trans h.at_
  done := (k.meas.done p).trans h.done

/-- A measurement at its time, the vector referred to full scale. -/
theorem measureVec_measured (v : Word) : Measured p (s.loadedVec p v).2 s (s.measureVec p v) := by
  obtain ⟨u, hu⟩ : ∃ u, u = (s.loadedVec p v).1 := ⟨_, rfl⟩
  have within : Within ⟨[.free], [], []⟩ s u := hu ▸ within_loadedVec s p v (.refl _) (.refl _ s)
  have measured := (vecTaken_measured u p (s.loadedVec p v).2).judged _ _ (measuredVec_judged u p _)
  have eq : s.measureVec p v = u.measuredVec p (s.loadedVec p v).2 := by rw [hu]; rfl
  have pt := pt_of_tun (within.parts .tun (by decide)) p
  have pf := pf_of_field (within.parts .field (by decide)) p
  obtain ⟨time, vec, ref, asked, at_, done⟩ := measured
  rw [within.parts .time (by decide)] at time at_
  rw [pt, within.regs_same] at ref
  rw [pf] at done
  rw [eq]
  exact ⟨time, vec, ref, asked, at_, done⟩

/-- A measurement as a warm-up step 4 of its own, done at `e`. -/
def State.stepFour (s : State) (n e : Nat) : State := s.modF n fun y => { y with stepDone := y.stepDone.set 4 e }

theorem Measured.stepFour {w : Word} {t : State} (h : Measured p w s t) (e : Nat) :
    (t.stepFour p e).time = s.time ∧ (t.stepFour p e).reg (Reg.TUN_P_VEC p) = w ∧
    (t.stepFour p e).reg (Reg.TUN_P_REF p) = (if (s.pt p).refNext then w else s.reg (Reg.TUN_P_REF p)) ∧
    ((t.stepFour p e).pt p).refNext = false ∧ ((t.stepFour p e).pt p).measNext = false ∧ ((t.stepFour p e).pt p).measAt = s.time ∧
    ((t.stepFour p e).pf p).stepDone = (s.pf p).stepDone.set 4 e :=
  ⟨h.time, h.vec, h.ref, h.asked.1, h.asked.2, h.at_, by rw [State.stepFour, pf_modF_same, h.done]⟩

/-- A measurement `d` from now. -/
theorem measureVec_later (v : Word) (d : Nat) : Measured p ((s.advance (s.time + d)).loadedVec p v).2 (s.advance (s.time + d))
      ((s.advance (s.time + d)).measureVec p v) ∧ (s.advance (s.time + d)).time = s.time + d ∧
    (s.advance (s.time + d)).pt p = s.pt p ∧ (s.advance (s.time + d)).pf p = s.pf p ∧
    (s.advance (s.time + d)).reg (Reg.TUN_P_REF p) = s.reg (Reg.TUN_P_REF p) :=
  ⟨measureVec_measured _ p v, by rw [advance_time]; omega, pt_of_tun (keeps_advance s _ .tun (by decide)) p,
    pf_of_field (keeps_advance s _ .field (by decide)) p, (advance_reads s _).1 _⟩

/-! ### Frames done and codes settled (R107, R109, R138) -/

theorem kickLink_busy {q : LinkReq} {l : List LinkReq} (h : s.tun.link = q :: l) (he : q.ends.isSome = true) : s.kickLink = s := by
  unfold State.kickLink
  rw [h]
  simp only [he, Bool.true_or, if_true]

theorem kickLink_none (h : s.tun.link = []) : s.kickLink = s := by
  unfold State.kickLink
  rw [h]

/-- The last request served: the link stands empty and SETTLE_US runs. -/
theorem linkDone_last {q : LinkReq} (h : s.tun.link = [q]) :
    (s.linkDone p).tun.link = [] ∧ ((s.linkDone p).pt p).settleEnd = some (s.time + s.settleTime p) ∧ Keeps [.tun] s (s.linkDone p) := by
  obtain ⟨u, hu⟩ : ∃ u, u = ({ s with tun := { s.tun with link := s.tun.link.tail } }).modT p fun x => { x with settleEnd := some (s.time + s.settleTime p) } :=
    ⟨_, rfl⟩
  have link : u.tun.link = [] := by rw [hu]; exact congrArg List.tail h
  have within : Within ⟨[.tun], [], []⟩ s u := hu ▸ within_modT _ p _ (.refl _) (within_with_tun _ (.refl _) (.refl _ s))
  have eq : s.linkDone p = u := by rw [← kickLink_none u link, hu]; rfl
  rw [eq]
  exact ⟨link, by rw [hu, pt_modT_same], within.parts⟩

theorem settleTime_of_regs {s t : State} (h : t.regs = s.regs) (n : Nat) : t.settleTime n = s.settleTime n := by
  rw [State.settleTime, State.settleTime, fld_of_regs h]

theorem tplOf_of_regs {s t : State} (h : t.regs = s.regs) (n : Nat) : t.tplOf n = s.tplOf n := fld_of_regs h _ _

theorem verifies_of_regs {s t : State} (h : t.regs = s.regs) (n : Nat) : t.verifies n = s.verifies n := by
  rw [State.verifies, State.verifies, tplOf_of_regs h, flag_of_reg (reg_of_regs h _)]

theorem tplField_of_regs {s t : State} (h : t.regs = s.regs) (n : Nat) (pos width : Field) : t.tplField n pos width = s.tplField n pos width := by
  rw [State.tplField, State.tplField, fld_of_regs h, fld_of_regs h]

theorem tunerFrame_of_regs {s t : State} (h : t.regs = s.regs) (n : Nat) (isRead : Bool) (a : Word) : t.tunerFrame n isRead a = s.tunerFrame n isRead a := by
  simp only [State.tunerFrame, State.fieldA, State.fieldB, State.tplLength, tplOf_of_regs h, tplField_of_regs h, fld_of_regs h, reg_of_regs h]

theorem codesAgree_of_regs {s t : State} (h : t.regs = s.regs) (n : Nat) (code got : Word) : t.codesAgree n code got = s.codesAgree n code got := by
  rw [State.codesAgree, State.codesAgree, tplOf_of_regs h, tunerFrame_of_regs h, State.fieldA, State.fieldA, State.fieldB, State.fieldB,
    tplField_of_regs h, tplField_of_regs h]

/-- What the end of the frame at the link's head leads to, in the state in which it has ended. -/
def State.frameOver (s : State) (q : LinkReq) (sent : Word) : State :=
  if q.isRead then
    if s.codesAgree q.port q.code sent then s.linkDone q.port
    else if q.again then ((s.stick Reg.TUN_LINK_STATUS Fld.TUN_LINK_STATUS_LINK_FAIL).post 0x3007 .heart 0).linkDone q.port
    else s.linkNext { q with isRead := false, again := true, ends := none }
  else if s.verifies q.port then s.linkNext { q with isRead := true, ends := none }
  else s.linkDone q.port

theorem does_frameDone {v : Word} {q : LinkReq} {e : Nat} {P : State → Prop} (hr : Running s) (hlink : s.tun.link = [q]) (he : q.ends = some e)
    (hp : P ((s.advance e).frameOver q v)) : Does (.tunerFrameDone v) s P := by
  refine does_running (o := execTunerFrameDone v s) rfl rfl hr ?_ hp
  simp only [kickLink_busy s hlink (by rw [he]; rfl), hlink, he]
  rfl

/-- The last request's frames sent, once its frame has ended at `e`. -/
theorem frameDone_last {q : LinkReq} (hlink : s.tun.link = [q]) (e : Nat) (hport : p.val = q.port) :
    ((s.advance e).linkDone q.port).tun.link = [] ∧
    (((s.advance e).linkDone q.port).pt q.port).settleEnd = some (max s.time e + s.settleTime q.port) ∧
    Passes e [.tun] s ((s.advance e).linkDone q.port) := by
  have link : (s.advance e).tun.link = [q] := by rw [show (s.advance e).tun = s.tun from keeps_advance s e .tun (by decide), hlink]
  obtain ⟨last, settles, keeps⟩ := linkDone_last (s.advance e) p link
  rw [advance_time, settleTime_of_regs (keeps_advance s e .regs (by decide))] at settles
  rw [← hport]
  exact ⟨last, settles, keeps.passes⟩

theorem search_not_link : missesRegs [one Reg.TUN_LINK_STATUS] (Reg.TUN_P_SEARCH p) = true := by
  revert p
  decide +kernel

/-- The second disagreement (R107): a link failure, and the code taken as sent. -/
theorem frameDone_fails {q : LinkReq} (hlink : s.tun.link = [q]) (e : Nat) (hport : p.val = q.port) :
    let t := (((s.advance e).stick Reg.TUN_LINK_STATUS Fld.TUN_LINK_STATUS_LINK_FAIL).post 0x3007 .heart 0).linkDone q.port
    t.flag Reg.TUN_LINK_STATUS Fld.TUN_LINK_STATUS_LINK_FAIL = true ∧ Posted 0x3007 .heart 0 t ∧ t.tun.link = [] ∧
    (t.pt q.port).settleEnd = some (max s.time e + s.settleTime q.port) ∧ Passes e [.regs, .tun] s t := by
  obtain ⟨u, hu⟩ : ∃ u, u = ((s.advance e).stick Reg.TUN_LINK_STATUS Fld.TUN_LINK_STATUS_LINK_FAIL).post 0x3007 .heart 0 := ⟨_, rfl⟩
  have early : Within ⟨[.regs, .obs], [one Reg.TUN_LINK_STATUS], []⟩ (s.advance e) u :=
    hu ▸ within_post (.of (by decide)) (within_stick _ _ (.refl _) (.refl _ _)) _ _ _
  have tun : u.tun = s.tun := Eq.trans (early.parts .tun (by decide)) (keeps_advance s e .tun (by decide))
  have time : u.time = max s.time e := Eq.trans (early.parts .time (by decide)) (advance_time s e)
  have settle : u.settleTime q.port = s.settleTime q.port := by
    have reg : u.reg (Reg.TUN_P_SEARCH q.port) = s.reg (Reg.TUN_P_SEARCH q.port) :=
      (early.reg_of_misses _ (hport ▸ search_not_link p)).trans ((advance_reads s e).1 _)
    rw [State.settleTime, State.settleTime, fld_of_reg reg]
  have flag : u.flag Reg.TUN_LINK_STATUS Fld.TUN_LINK_STATUS_LINK_FAIL = true := by
    have reg : u.reg Reg.TUN_LINK_STATUS = ((s.advance e).setFld Reg.TUN_LINK_STATUS Fld.TUN_LINK_STATUS_LINK_FAIL 1).reg Reg.TUN_LINK_STATUS := by
      rw [hu]; rfl
    rw [flag_of_reg reg, flag_setFld_same _ _ _ _ (by decide)]
    rfl
  have posted : Posted 0x3007 .heart 0 u := hu ▸ posted_post _ _ _ _
  obtain ⟨last, settles, keeps⟩ := linkDone_last u p (by rw [tun, hlink])
  rw [time, hport, settle] at settles
  rw [hport] at last keeps
  rw [← hu]
  have regs : (u.linkDone q.port).regs = u.regs := keeps .regs (by decide)
  have obs : (u.linkDone q.port).obs = u.obs := keeps .obs (by decide)
  refine ⟨by rw [flag_of_reg (reg_of_regs regs _), flag], ?_, last, settles, (early.parts.join keeps (r := [.regs, .obs, .tun])).passes⟩
  rw [Posted, obs]
  exact posted

/-- The state in which a code has settled at `e`. -/
def State.settled (s : State) (n e : Nat) : State := (s.advance e).modT n fun x => { x with settleEnd := none }

theorem settled_spec (e : Nat) : (s.settled p e).pt p = { s.pt p with settleEnd := none } ∧ TunOf p s (s.settled p e) ∧
    Passes e [.tun] s (s.settled p e) ∧ (s.settled p e).tun.link = s.tun.link := by
  have tun : (s.advance e).tun = s.tun := keeps_advance s e .tun (by decide)
  exact ⟨by rw [State.settled, pt_modT_same, pt_of_tun tun], (TunOf.of_tun tun).trans (tunOf_modT _ p _), (keeps_modT _ p _).passes,
    show (s.advance e).tun.link = s.tun.link by rw [tun]⟩

/-- Port `n` has been asked for the coupling refresh. -/
def Asked5 (n : Nat) (s : State) : Prop := (s.pf n).stepAsked.testBit 5 = true

theorem asked5_modF {n m : Nat} {f : PortF → PortF} (h : Asked5 n s) (hf : ∀ x, x.stepAsked.testBit 5 = true → (f x).stepAsked.testBit 5 = true) :
    Asked5 n (s.modF m f) := by
  unfold Asked5 State.pf State.modF at *
  by_cases hm : n = m
  · subst hm
    by_cases hk : n < 16
    · rw [vget_vmod_same _ _ _ _ hk]
      exact hf _ h
    · simpa [vget, vmod, hk] using h
  · rwa [vget_vmod_ne _ _ _ _ _ hm]

theorem asked5_abortStep {n : Nat} (m : Nat) (h : Asked5 n s) : Asked5 n (s.abortStep m) := by
  unfold State.abortStep
  split
  next i _ _ =>
    refine asked5_modF s h fun x hx => ?_
    by_cases hi : 5 = i
    · rw [← hi]
      exact testBit_setBit_same _ _ _
    · exact (testBit_setBit_ne _ hi).trans hx
  · exact h

theorem asked5_endDeferral {n : Nat} (m : Nat) (h : Asked5 n s) : Asked5 n (s.endDeferral m) := by
  unfold State.endDeferral
  split
  next since _ =>
    have counted : Asked5 n (s.countBy (112 + m) ((s.time - since) / usec)) := h
    exact asked5_modF _ counted fun _ hx => hx
  · exact h

theorem asked5_startOff {n : Nat} (m : Nat) (h : Asked5 n s) : Asked5 n (s.startOff m true) :=
  asked5_modF _ (asked5_abortStep _ m (asked5_endDeferral s m h)) fun _ hx => hx

theorem asked5_tryOffs {n : Nat} (h : Asked5 n s) : Asked5 n s.tryOffs := by
  unfold State.tryOffs
  generalize s.offWaiting = l
  induction l generalizing s with
  | nil => exact h
  | cons x l ih =>
    rw [List.foldl_cons]
    refine ih _ ?_
    split
    · exact asked5_startOff s _ h
    · split
      · unfold State.defer
        split
        · exact h
        · exact asked5_modF s h fun _ hx => hx
      · exact h

/-- The state in which a port's operation has ended and the coupling refresh is due. -/
def State.operationEnded (s : State) (n : Nat) : State :=
  (s.modT n fun x => { x with opEnd := none }).modF n fun x =>
    { x with radio := if x.radio = .cal then .field else x.radio, stepDone := x.stepDone.set 1 s.time, stepAsked := setBit x.stepAsked 5 true,
             quietFrom := s.time }

theorem operationEnded_spec : (s.operationEnded p).time = s.time ∧ (s.operationEnded p).pt p = { s.pt p with opEnd := none } ∧
    (s.operationEnded p).tun.link = s.tun.link ∧ Asked5 p (s.operationEnded p) ∧ (s.operationEnded p).rxe = s.rxe := by
  have pt : (s.operationEnded p).pt p = (s.modT p fun x => { x with opEnd := none }).pt p := rfl
  refine ⟨rfl, by rw [pt, pt_modT_same], rfl, ?_, rfl⟩
  rw [Asked5, State.operationEnded, pf_modF_same]
  exact testBit_setBit_same _ _ _

/-- The state in which the cancellation update after a settled code has ended its operation, before the link and the ramps go on. -/
def State.operationOver (s : State) (n : Nat) (samples : List RxSample) : State :=
  ((s.advance (s.time + 20 * usec)).operationEnded n).adapt n true samples

theorem operationOver_spec (samples : List RxSample) :
    (s.operationOver p samples).time = s.time + 20 * usec ∧ (s.operationOver p samples).pt p = { s.pt p with opEnd := none } ∧
    (s.operationOver p samples).tun.link = s.tun.link ∧ Asked5 p (s.operationOver p samples) ∧ RxeOf p s (s.operationOver p samples) := by
  obtain ⟨u, hu⟩ : ∃ u, u = s.advance (s.time + 20 * usec) := ⟨_, rfl⟩
  have later : u.time = s.time + 20 * usec := by rw [hu, advance_time]; omega
  have tun : u.tun = s.tun := hu ▸ keeps_advance s _ .tun (by decide)
  have rxe : u.rxe = s.rxe := hu ▸ keeps_advance s _ .rxe (by decide)
  rw [State.operationOver, ← hu]
  obtain ⟨time', pt', link', asked', rxe'⟩ := operationEnded_spec u p
  generalize u.operationEnded p = w at *
  obtain ⟨others, keeps⟩ := adapt_leaves w p samples
  have same : (w.adapt p true samples).tun = w.tun := keeps .tun (by decide)
  have time : (w.adapt p true samples).time = w.time := keeps .time (by decide)
  refine ⟨time.trans (time'.trans later), by rw [pt_of_tun same, pt', pt_of_tun tun], by rw [same, link', tun], ?_,
    (RxeOf.of_rxe (rxe'.trans rxe)).trans others⟩
  rw [Asked5, pf_of_field (keeps .field (by decide))]
  exact asked'

theorem does_settle {e : Nat} {samples : List RxSample} {P : State → Prop} (hr : Running s) (he : (s.pt p).settleEnd = some e)
    (hp : P (if ((s.settled p e).pt p).opEnd.isSome then ((s.settled p e).operationOver p samples).kickLink.tryOffs else (s.settled p e).kickLink)) :
    Does (.tunerSettleExpiry p samples) s P :=
  does_running (o := execTunerSettleExpiry p samples s) rfl rfl hr (by simp only [he]; rfl) hp

/-! ### Codes written (R109) -/

theorem clampFree_code : ClampFree (Reg.TUN_P_CODE p) := .of (by revert p; decide +kernel)

/-- A search with the code measured last, from the state after that measurement. -/
def State.searchMeasured (s : State) (n : Nat) (x : Search) (c : Nat) : State :=
  s.searchOn n { x with
    known := x.known ++ [(c, distance (s.reg (Reg.TUN_P_VEC n)) (s.reg (Reg.TUN_P_REF n)))], count := x.count + 1, trying := none
    lastI := vecI (s.reg (Reg.TUN_P_VEC n)), lastQ := vecQ (s.reg (Reg.TUN_P_VEC n)) }

theorem searchMeasured_spec (x : Search) (c : Nat) : SameMeas s (s.searchMeasured p x c) ∧
    (((s.searchMeasured p x c).pt p).search = none ∨ (((s.searchMeasured p x c).pt p).search.any fun y => y.trying.isSome) = true) ∧
    Within ⟨[.regs, .field, .tun, .obs], [each Reg.TUN_P_CODE 16, each Reg.TUN_P_STATUS 16], []⟩ s (s.searchMeasured p x c) :=
  ⟨(searchOn_spec s p _).1, (searchOn_spec s p _).2, searchOn_within s p _⟩

/-- A code written where no search runs is sent behind the others. -/
theorem writeTunCode_spec (v : Word) (hsearch : (s.pt p).search = none)
    (hnone : s.flag (Reg.TUN_P_TUNER p) Fld.TUN_P_TUNER_NONE = false) :
    (s.writeTunCode p v).reg (Reg.TUN_P_CODE p) = (s.writeReg (Reg.TUN_P_CODE p) v).reg (Reg.TUN_P_CODE p) ∧
    (s.writeTunCode p v).tun.link.length = s.tun.link.length + 1 ∧
    (s.time, p.val, (s.writeTunCode p v).reg (Reg.TUN_P_CODE p), false, false) ∈ (s.writeTunCode p v).tun.link.map LinkReq.asks := by
  obtain ⟨u, hu⟩ : ∃ u, u = s.writeReg (Reg.TUN_P_CODE p) v := ⟨_, rfl⟩
  have eq : s.writeTunCode p v = u.sendCode p := by rw [State.writeTunCode, hsearch, hu]; rfl
  have within : Within ⟨[.regs, .obs], [Reg.TUN_P_CODE p].map one, []⟩ s u :=
    hu ▸ within_writeReg (Reg.TUN_P_CODE p) s v (.inl (clampFree_code p)) (.refl _) (.refl _ s)
  have none_ : u.flag (Reg.TUN_P_TUNER p) Fld.TUN_P_TUNER_NONE = false := by
    rw [flag_of_reg (within.regsBut _ (by simp)), hnone]
  obtain ⟨length, mem⟩ := sendCode_asks u none_
  have reg : (u.sendCode p).reg (Reg.TUN_P_CODE p) = u.reg (Reg.TUN_P_CODE p) := (sendCode_within u p).regs_same _
  have link : u.tun = s.tun := within.parts .tun (by simp)
  have time : u.time = s.time := within.parts .time (by simp)
  rw [eq, reg, ← hu, ← link, ← time]
  exact ⟨rfl, length, mem⟩

theorem does_searchMeasurement {v : Word} {x : Search} {c : Nat} {P : State → Prop} (hr : Running s) (hx : (s.pt p).search = some x)
    (hc : x.trying = some c) (hsettled : s.codeSettled p = true) (hmay : s.mayMeasure p = true)
    (hgap : s.flag (Reg.TUN_P_TUNER p) Fld.TUN_P_TUNER_NONE = false ∨ s.searchGap p s.time = true)
    (hp : P (((s.advance (s.time + 4 * usec)).measureVec p v).searchMeasured p x c)) : Does (.searchMeasurement p v) s P := by
  have gap : (!s.flag (Reg.TUN_P_TUNER p) Fld.TUN_P_TUNER_NONE || s.searchGap p s.time) = true := by
    rcases hgap with h | h <;> rw [h]
    · rfl
    · exact Bool.or_true _
  refine does_running (o := execSearchMeasurement p v s) rfl rfl hr ?_ hp
  simp only [hx, hc, hsettled, hmay, gap, Bool.and_self, if_true]
  rfl

theorem vec_not_searched : missesRegs [each Reg.TUN_P_CODE 16, each Reg.TUN_P_STATUS 16] (Reg.TUN_P_VEC p) = true := by
  revert p
  decide +kernel

/-- The request as which the last disagreement is sent again (R107). -/
theorem linkNext_asks {q : LinkReq} (h : s.tun.link = [q]) (r : LinkReq) : (s.linkNext r).tun.link.map LinkReq.asks = [r.asks] := by
  have link : ({ s with tun := { s.tun with link := r :: s.tun.link.tail } } : State).tun.link = [r] := by
    show r :: s.tun.link.tail = [r]
    rw [h, List.tail_cons]
  rw [State.linkNext, kickLink_asks, link]
  rfl

/-- Settles O40: a measurement's state, the search that goes on from it, the link's next frame, and the end of a code change. -/
theorem tunerMeasuresAndSends : Obligations.TunerMeasuresAndSends := by
  refine ⟨fun s p v hr hrun hmay hstep hnext hgap => ?_, fun s p v e hr hstep => ?_, fun s p hr hlock => ?_, fun s p hr hradio hsearch => ?_,
    fun s p hr => ?_, fun s p v x c hr hx hc hsettled hmay hgap => ?_, fun s p v hr hsearch hnone hbusy => ?_,
    fun s v q e hr hlink he hport hread hver => ?_, fun s v q e hr hlink he hport hread hagree hagain => ?_,
    fun s v q e hr hlink he hport hread hagree hagain => ?_, fun s p e samples hr he ho hlink => ?_, fun s p e o samples hr he ho hlink => ?_⟩
  · obtain ⟨measured, time, pt, pf, ref⟩ := measureVec_later s p v (12 * usec)
    have spec := measured.stepFour _ _ (s.time + 12 * usec)
    rw [time, pt, pf, ref] at spec
    refine does_running (t := ((s.advance (s.time + 12 * usec)).measureVec p v).stepFour p (s.time + 12 * usec))
      (o := execVectorMeasurement p v s) rfl rfl hr ?_ spec
    simp only [hstep, hnext, hrun, hmay, hgap, Bool.and_self, if_true]
    rfl
  · obtain ⟨measured, time, pt, pf, ref⟩ := measureVec_later s p v (4 * usec)
    refine does_running (t := (s.advance (s.time + 4 * usec)).measureVec p v) (o := execVectorMeasurement p v s) rfl rfl hr
      (by simp only [hstep]) ⟨measured.time.trans time, measured.vec, ?_, measured.asked.1, measured.at_.trans time⟩
    rw [← pt, ← ref]
    exact measured.ref
  · refine does_running (t := s.modT p fun x => { x with refNext := true }) (o := execCaptureRef p s) rfl rfl hr ?_
      ⟨pt_modT_same s p _, tunOf_modT s p _, keeps_modT s p _⟩
    rw [State.captureRef, hlock]
    rfl
  · obtain ⟨flag, regs, search⟩ := retune_spec s p hradio hsearch
    refine does_running (o := execRetune p s) rfl rfl hr rfl ⟨flag, regs, ?_⟩
    rw [search]
    simp [State.firstSearch]
  · exact does_running (o := execMeasure p s) rfl rfl hr rfl ⟨pt_modT_same s p _, tunOf_modT s p _, keeps_modT s p _⟩
  · refine does_searchMeasurement s p hr hx hc hsettled hmay hgap ?_
    obtain ⟨measured, time, -⟩ := measureVec_later s p v (4 * usec)
    obtain ⟨meas, goesOn, within⟩ := searchMeasured_spec ((s.advance (s.time + 4 * usec)).measureVec p v) p x c
    exact ⟨Eq.trans (within.parts .time (by decide)) (measured.time.trans time), (within.reg_of_misses _ (vec_not_searched p)).trans measured.vec,
      (meas.at_ p).trans (measured.at_.trans time), goesOn⟩
  · obtain ⟨reg, length, mem⟩ := writeTunCode_spec s p v hsearch hnone
    refine does_running (o := execTunerCodeWrite p v s) rfl rfl hr rfl ⟨reg, length, ?_⟩
    obtain ⟨q, hq, asks⟩ := List.mem_map.1 mem
    simp only [LinkReq.asks, Prod.mk.injEq] at asks
    obtain ⟨asked, port, code, read, -⟩ := asks
    exact List.any_eq_true.2 ⟨q, hq, decide_eq_true ⟨port, code, read, asked⟩⟩
  · refine does_frameDone s hr hlink he ?_
    rw [State.frameOver, hread, verifies_of_regs (keeps_advance s e .regs (by decide)), hver]
    exact frameDone_last s ⟨q.port, hport⟩ hlink e rfl
  · refine does_frameDone s hr hlink he ?_
    rw [State.frameOver, hread, codesAgree_of_regs (keeps_advance s e .regs (by decide)), hagree, hagain]
    exact frameDone_fails s ⟨q.port, hport⟩ hlink e rfl
  · refine does_frameDone s hr hlink he ?_
    rw [State.frameOver, hread, codesAgree_of_regs (keeps_advance s e .regs (by decide)), hagree, hagain]
    have link : (s.advance e).tun.link = [q] := by rw [show (s.advance e).tun = s.tun from keeps_advance s e .tun (by decide), hlink]
    have asks := congrArg (List.map fun x : Nat × Nat × Word × Bool × Bool => x.2)
      (linkNext_asks (s.advance e) link { q with isRead := false, again := true, ends := none })
    rw [List.map_map] at asks
    exact asks
  · obtain ⟨pt, others, passes, link⟩ := settled_spec s p e
    refine does_settle s p hr he ?_
    rw [pt, ho, kickLink_none _ (link.trans hlink)]
    exact ⟨pt, others, passes⟩
  · obtain ⟨pt, others, ⟨time, -, keeps⟩, link⟩ := settled_spec s p e
    obtain ⟨later, pt', link', asked, rxe⟩ := operationOver_spec (s.settled p e) p samples
    have offs : Within ⟨[.field, .obs], [], []⟩ ((s.settled p e).operationOver p samples) ((s.settled p e).operationOver p samples).tryOffs :=
      within_tryOffs _ (.refl _) (.refl _ _)
    refine does_settle s p hr he ?_
    rw [pt, ho, kickLink_none _ (link'.trans (link.trans hlink))]
    have tun := pt_of_tun (offs.parts .tun (by decide)) p
    refine ⟨Eq.trans (offs.parts .time (by decide)) (by rw [later, time]), ?_, ?_, asked5_tryOffs _ asked, ?_⟩
    · exact (congrArg PortT.settleEnd tun).trans (by rw [pt', pt])
    · exact (congrArg PortT.opEnd tun).trans (by rw [pt'])
    · exact ((RxeOf.of_rxe (keeps .rxe (by decide))).trans rxe).trans (.of_rxe (offs.parts .rxe (by decide)))

end Sys2Proof.Machine

/-! Sniff rounds and pings (O41). -/

namespace Sys2Proof.Machine

/-! ### Commands of the sniff sequencer -/

section
variable {c : Instr} {s t : State} {f : State → State} {o : Out} {P : State → Prop}

theorem does_sniffing (e : exec c s = o) (h : o = s.sniffing f) (hr : ((s.live && !s.gen.safeBoot) || decide (s.pwr.awake = .sniff)) = true)
    (ht : f s = t) (hp : P t) : Does c s P :=
  ⟨t, by rw [e, h, State.sniffing, if_pos hr, ht]; rfl, hp⟩

theorem Running.sniffs (hr : Running s) : ((s.live && !s.gen.safeBoot) || decide (s.pwr.awake = .sniff)) = true := by
  rw [hr.1, hr.2]
  rfl

theorem Running.awake (hr : Running s) : s.pwr.awake = .running := by
  obtain ⟨live, -⟩ := hr
  rw [State.live, Bool.and_eq_true, decide_eq_true_iff] at live
  exact live.1

end

variable (s : State) (p : Port)

/-! ### Rounds (R121, R122, R126) -/

theorem skipPing_fld : s.skipPing.fld Reg.TUN_SNIFF_STATUS Fld.TUN_SNIFF_STATUS_SKIPS =
    satAdd 65535 (s.fld Reg.TUN_SNIFF_STATUS Fld.TUN_SNIFF_STATUS_SKIPS) 1 := by
  have small := Field.get_lt Fld.TUN_SNIFF_STATUS_SKIPS (s.reg Reg.TUN_SNIFF_STATUS)
  rw [State.skipPing, fld_of_reg (reg_postSec _ _ _ _ _ _), State.bump, State.bumpBy, fld_setFld_same _ _ _ _ (by decide)]
  refine Nat.mod_eq_of_lt ?_
  unfold satAdd
  split <;> omega

theorem skipPing_within : Within ⟨[.regs, .obs], [Reg.TUN_SNIFF_STATUS].map one, []⟩ s s.skipPing :=
  within_postSec (.of (by decide)) (within_bump _ _ (.of (by decide)) (.refl _ s)) _ _ _ _

/-- The pings of a round still held are skipped and counted. -/
theorem skipped_spec (l : List Nat) :
    (l.foldl (fun v _ => v.skipPing) s).fld Reg.TUN_SNIFF_STATUS Fld.TUN_SNIFF_STATUS_SKIPS =
      min 65535 (s.fld Reg.TUN_SNIFF_STATUS Fld.TUN_SNIFF_STATUS_SKIPS + l.length) ∧
    Within ⟨[.regs, .obs], [Reg.TUN_SNIFF_STATUS].map one, []⟩ s (l.foldl (fun v _ => v.skipPing) s) := by
  induction l generalizing s with
  | nil =>
    have small : s.fld Reg.TUN_SNIFF_STATUS Fld.TUN_SNIFF_STATUS_SKIPS < 65536 := Field.get_lt _ _
    exact ⟨by simp only [List.foldl_nil, List.length_nil]; omega, .refl _ s⟩
  | cons n l ih =>
    obtain ⟨skips, within⟩ := ih s.skipPing
    refine ⟨?_, (skipPing_within s).trans within⟩
    rw [List.foldl_cons, skips, skipPing_fld, List.length_cons]
    unfold satAdd
    split <;> omega

/-- The members of a round. -/
def State.members (s : State) : List Nat := (List.range 16).filter s.inRound

/-- The state in which a round has begun, before its synthesiser is started. -/
def State.roundBegun (s : State) (from_ : Nat) (l : List Nat) : State :=
  let u := (s.advance from_).tun.todo.foldl (fun v _ => v.skipPing) (s.advance from_)
  { u with tun := { u.tun with lastRound := (s.advance from_).time, todo := l } }

theorem roundBegun_spec (e : Nat) (l : List Nat) :
    (s.roundBegun e l).tun = { s.tun with lastRound := max s.time e, todo := l } ∧
    (s.roundBegun e l).fld Reg.TUN_SNIFF_STATUS Fld.TUN_SNIFF_STATUS_SKIPS =
      min 65535 (s.fld Reg.TUN_SNIFF_STATUS Fld.TUN_SNIFF_STATUS_SKIPS + s.tun.todo.length) ∧
    Within ⟨[.regs, .tun, .obs], [Reg.TUN_SNIFF_STATUS].map one, []⟩ (s.advance e) (s.roundBegun e l) ∧
    (s.tun.todo = [] → Within ⟨[.tun], [], []⟩ (s.advance e) (s.roundBegun e l)) := by
  obtain ⟨t, ht⟩ : ∃ t, t = s.advance e := ⟨_, rfl⟩
  have tun : t.tun = s.tun := ht ▸ keeps_advance s e .tun (by decide)
  have time : t.time = max s.time e := ht ▸ advance_time s e
  obtain ⟨skips, within⟩ := skipped_spec t t.tun.todo
  have began (u : State) : Within ⟨[.tun], [], []⟩ u { u with tun := { u.tun with lastRound := t.time, todo := l } } :=
    within_with_tun _ (.refl _) (.refl _ u)
  have eq : s.roundBegun e l = { t.tun.todo.foldl (fun v _ => v.skipPing) t with
      tun := { (t.tun.todo.foldl (fun v _ => v.skipPing) t).tun with lastRound := t.time, todo := l } } := by rw [ht]; rfl
  rw [eq, ← ht]
  have same : (t.tun.todo.foldl (fun v _ => v.skipPing) t).tun = s.tun := Eq.trans (within.parts .tun (by decide)) tun
  refine ⟨by rw [same, time], ?_, (within.mono (.of (by decide))).trans ((began _).mono (.of (by decide))), fun h => ?_⟩
  · refine Eq.trans (fld_of_reg ((began _).regs_same _) _) ?_
    rw [skips, tun, fld_of_reg (ht ▸ (advance_reads s e).1 _)]
  · rw [tun, h, List.foldl_nil]
    exact began t

theorem roundSyn_running (h : s.pwr.awake ≠ .sniff) : s.roundSyn = s.startSyn := by
  have on (h : s.field.synRun = true) : s.startSyn = s := if_pos h
  cases syn : s.field.synRun with
  | true => rw [on syn, State.roundSyn, if_pos syn]
  | false =>
    rw [State.roundSyn, if_neg (by rw [syn]; decide), if_neg h]

/-- The synthesiser of a round in SNIFF, ready within 150 µs. -/
theorem roundSyn_sniff (h : s.pwr.awake = .sniff) : s.roundSyn.field.synRun = true ∧
    (s.field.synRun = false → s.roundSyn.field.settleEnd.any (fun e => decide (e ≤ s.time + 150 * usec)) = true) ∧
    Within ⟨[.regs, .field, .free], [Reg.FLD_SYN_STATUS].map one, []⟩ s s.roundSyn := by
  cases syn : s.field.synRun with
  | true =>
    rw [State.roundSyn, if_pos syn]
    exact ⟨syn, fun off => absurd off (by decide), .refl _ s⟩
  | false =>
    have started (f : State × Word) (hf : f = s.takeFreeWord) :
        s.roundSyn = { f.1.startSyn with field := { f.1.startSyn.field with settleEnd := some (s.time + f.2.toNat % (150 * usec + 1)) } } := by
      rw [State.roundSyn, if_neg (by rw [syn]; decide), if_pos h, hf]
    rw [started _ rfl]
    have taken : Within ⟨[.free], [], []⟩ s s.takeFreeWord.1 := within_takeFreeWord s (.refl _) (.refl _ s)
    have syn := startSyn_within s.takeFreeWord.1
    have within := (taken.mono (d := ⟨[.regs, .field, .free], [Reg.FLD_SYN_STATUS].map one, []⟩) (.of (by decide))).trans
      (syn.mono (.of (by decide)))
    refine ⟨startSyn_synRun _, fun _ => ?_, within_with_field _ (.of (by decide)) within⟩
    have inside := Nat.mod_lt s.takeFreeWord.2.toNat (show 0 < 150 * usec + 1 by decide)
    simp only [Option.any_some, decide_eq_true_eq]
    omega

theorem does_roundStart {P : State → Prop} (hr : ((s.live && !s.gen.safeBoot) || decide (s.pwr.awake = .sniff)) = true) (hrun : s.pingsRun = true)
    (hmem : s.members ≠ []) (hp : P (s.roundBegun (s.tun.lastRound + s.roundTime) s.members).roundSyn) : Does .sniffRoundStart s P := by
  refine does_sniffing (o := execSniffRoundStart s) rfl rfl hr ?_ hp
  simp only [hrun, Bool.true_and]
  exact if_pos (decide_eq_true hmem)

/-! ### Pings (R119, R120, R123) -/

theorem lockPast_not (h : s.settlePast = false) : s.lockPast = s := by
  rw [State.lockPast, h]
  rfl

theorem roundReady_running (h : s.pwr.awake = .running) (hpast : s.settlePast = false) : s.roundReady = s := by
  rw [State.roundReady, h, if_neg (by decide), lockPast_not s hpast]

theorem binsTo_running (h : s.pwr.awake = .running) : s.binsTo = s := by
  have now : s.binNow = s.field.bin := by rw [State.binNow, h]
  rw [State.binsTo, now]
  exact if_pos le_rfl

/-- The state in which a burst is noted with its vector. -/
def State.pingNoted (s : State) (n : Nat) (b : Burst) (v : Word) : State :=
  let t := (s.modT n fun x => { x with burst := some b }).modF n fun x => { x with quietFrom := b.ends }
  let t1 := (t.setReg (Reg.TUN_P_SNIFF_LAST n) v).count 95
  { t1 with field := { t1.field with onInBin := setBit t1.field.onInBin n true } }

/-- What a ping that began in `s` leaves at its end: `x` is what else has become of its port. -/
structure Pinged (p : Port) (v : Word) (s t : State) : Prop where
  time : t.time = max s.time (s.burstOf p).ends
  pt : t.pt p = { s.pt p with burst := some (s.burstOf p) }
  last : t.reg (Reg.TUN_P_SNIFF_LAST p) = v
  regs : RegsBut [Reg.TUN_P_SNIFF_LAST p] s t
  todo : t.tun.todo = s.tun.todo
  bin : t.field.onInBin.testBit p = true
  awake : t.pwr = s.pwr

theorem ping_pinged (h : s.pwr.awake = .running) (v : Word) : Pinged p v s (s.ping p v) := by
  obtain ⟨b, hb⟩ : ∃ b, b = s.burstOf p := ⟨_, rfl⟩
  obtain ⟨t, ht⟩ : ∃ t, t = s.advance b.ends := ⟨_, rfl⟩
  have pwr : t.pwr = s.pwr := ht ▸ keeps_advance s _ .pwr (by decide)
  have tun : t.tun = s.tun := ht ▸ keeps_advance s _ .tun (by decide)
  have reg (a : Nat) : t.reg a = s.reg a := ht ▸ (advance_reads s _).1 a
  have eq : s.ping p v = t.pingNoted p b v := by
    rw [← binsTo_running t (by rw [pwr, h]), ht, hb]
    rfl
  have noted (a : Nat) : (t.pingNoted p b v).reg a = (t.setReg (Reg.TUN_P_SNIFF_LAST p) v).reg a := rfl
  have pt : (t.pingNoted p b v).pt p = (t.modT p fun x => { x with burst := some b }).pt p := rfl
  have bin : (t.pingNoted p b v).field.onInBin = setBit t.field.onInBin p true := rfl
  have time : (t.pingNoted p b v).time = t.time := rfl
  have todo : (t.pingNoted p b v).tun.todo = t.tun.todo := rfl
  have pwr' : (t.pingNoted p b v).pwr = t.pwr := rfl
  rw [eq]
  constructor
  case time => rw [time, ht, advance_time, hb]
  case pt => rw [pt, pt_modT_same, pt_of_tun tun, hb]
  case last => rw [noted, reg_setReg_same]
  case regs => exact fun a ha => by rw [noted, reg_setReg_ne _ _ _ _ (by simpa using ha), reg]
  case todo => rw [todo, tun]
  case bin => rw [bin, testBit_setBit_same]
  case awake => rw [pwr', pwr]

theorem burstOf_ends : max s.time (s.burstOf p).ends = s.time + 8 * usec + if isRelay p then 2 * s.biasTime p else 0 := by
  unfold State.burstOf
  split <;> dsimp only <;> omega

/-- The port out of the round's list. -/
theorem Pinged.pinged {v : Word} {t : State} (h : Pinged p v s t) : (t.pinged p).time = t.time ∧ (t.pinged p).pt p = t.pt p ∧
    (∀ a, (t.pinged p).reg a = t.reg a) ∧ (t.pinged p).tun.todo = s.tun.todo.filter (fun m => m ≠ p.val) ∧
    (t.pinged p).field = t.field ∧ (t.pinged p).pwr = s.pwr := by
  have todo : (t.pinged p).tun.todo = t.tun.todo.filter (fun m => m ≠ p.val) := rfl
  exact ⟨rfl, rfl, fun _ => rfl, by rw [todo, h.todo], rfl, h.awake⟩

/-- With CORE awake the end of a round's pings ends at most what crossed from a trigger. -/
theorem roundOver_spec (h : s.pwr.awake = .running) : s.roundOver.time = s.time ∧ s.roundOver.pt p = s.pt p ∧ (∀ a, s.roundOver.reg a = s.reg a) ∧
    s.roundOver.tun.todo = s.tun.todo ∧ s.roundOver.field = s.field ∧ s.roundOver.obs = s.obs := by
  unfold State.roundOver
  rw [h, decide_eq_false (by decide), Bool.false_and, Bool.false_and, if_neg Bool.false_ne_true]
  split
  · exact ⟨rfl, rfl, fun _ => rfl, rfl, rfl, rfl⟩
  · exact ⟨rfl, rfl, fun _ => rfl, rfl, rfl, rfl⟩

/-! ### Baselines and wakes (R123 to R125) -/

/-- One of the four pings of a baseline counted. -/
theorem sumBase_spec (v : Word) : (s.sumBase p v).time = s.time ∧ ((s.sumBase p v).pt p).baseCount = (s.pt p).baseCount + 1 ∧
    ((s.sumBase p v).pt p).confirmAt = (s.pt p).confirmAt ∧
    ((s.pt p).baseCount = 0 → (s.sumBase p v).pt p = { s.pt p with baseCount := 1, baseI := vecI v, baseQ := vecQ v }) ∧
    RegsBut [Reg.TUN_P_SNIFF_BASE p] s (s.sumBase p v) ∧ ((s.pt p).baseCount ≠ 3 → RegsBut [] s (s.sumBase p v)) ∧
    (s.sumBase p v).tun.todo = s.tun.todo ∧ (s.sumBase p v).field = s.field ∧ (s.sumBase p v).pwr = s.pwr := by
  obtain ⟨t, ht⟩ : ∃ t, t = s.modT p fun x =>
    { x with baseCount := x.baseCount + 1
             baseI := if x.baseCount = 3 then 16 * ((if x.baseCount = 0 then 0 else x.baseI) + vecI v) else (if x.baseCount = 0 then 0 else x.baseI) + vecI v
             baseQ := if x.baseCount = 3 then 16 * ((if x.baseCount = 0 then 0 else x.baseQ) + vecQ v) else (if x.baseCount = 0 then 0 else x.baseQ) + vecQ v } :=
    ⟨_, rfl⟩
  have eq : s.sumBase p v = if (t.pt p).baseCount = 4 then t.showBase p else t := by rw [ht]; rfl
  have pt := pt_modT_same s p fun x =>
    { x with baseCount := x.baseCount + 1
             baseI := if x.baseCount = 3 then 16 * ((if x.baseCount = 0 then 0 else x.baseI) + vecI v) else (if x.baseCount = 0 then 0 else x.baseI) + vecI v
             baseQ := if x.baseCount = 3 then 16 * ((if x.baseCount = 0 then 0 else x.baseQ) + vecQ v) else (if x.baseCount = 0 then 0 else x.baseQ) + vecQ v }
  rw [← ht] at pt
  have rest : t.time = s.time ∧ t.tun.todo = s.tun.todo ∧ t.field = s.field ∧ t.pwr = s.pwr ∧ t.regs = s.regs := by rw [ht]; exact ⟨rfl, rfl, rfl, rfl, rfl⟩
  obtain ⟨time, todo, field, pwr, regs⟩ := rest
  have first (h : (s.pt p).baseCount = 0) : t.pt p = { s.pt p with baseCount := 1, baseI := vecI v, baseQ := vecQ v } := by
    rw [pt, h]
    simp
  rw [eq]
  split
  next four =>
    have shown : Within ⟨[.regs], [Reg.TUN_P_SNIFF_BASE p].map one, []⟩ t (t.showBase p) := within_setReg _ _ (.refl _) (.refl _ t)
    have tun : (t.showBase p).tun = t.tun := rfl
    rw [pt_of_tun tun]
    refine ⟨time, by rw [pt], by rw [pt], first, fun a ha => (shown.regsBut a ha).trans (reg_of_regs regs a), fun h => ?_, todo, field, pwr⟩
    rw [pt] at four
    exact absurd (Nat.succ.inj four) h
  next => exact ⟨time, by rw [pt], by rw [pt], first, .of_regs regs, fun _ => .of_regs regs, todo, field, pwr⟩

/-- A step away depends on the baseline and its thresholds alone. -/
theorem steps_of {s t : State} {n : Nat} (hi : (t.pt n).baseI = (s.pt n).baseI) (hq : (t.pt n).baseQ = (s.pt n).baseQ)
    (hr : t.reg (Reg.TUN_P_SNIFF_THR n) = s.reg (Reg.TUN_P_SNIFF_THR n)) (v : Word) : t.steps n v = s.steps n v := by
  rw [State.steps, State.steps, hi, hq, fld_of_reg hr, fld_of_reg hr]

theorem staysPosted_judgeRole (n : Nat) : StaysPosted s (s.judgeRole n) := by
  have conflict (u : State) : StaysPosted u (u.modeConflict n) := staysPosted_modeConflict u n
  have refused : StaysPosted s (if s.roleRefused n then
      (s.stick (Reg.PRO_P_MODE_STATUS n) Fld.PRO_P_MODE_STATUS_ROLE_REFUSED).modeConflict n else s) :=
    .ite ((staysPosted_stick s _ _).trans (conflict _)) (.of_obs rfl)
  have judged (u : State) : StaysPosted u (u.judgeHuddle n) := by
    have removed : StaysPosted u (u.setFld (Reg.FLD_P_HUDDLE n) Fld.FLD_P_HUDDLE_EN 0) := .of_obs rfl
    exact .ite ((removed.trans (staysPosted_stick _ _ _)).trans (conflict _)) (.of_obs rfl)
  exact refused.trans (judged _)

/-- What a port's return to the reader role, or that of its huddle, leaves of a wake. -/
structure ToReader (s t : State) : Prop where
  within : Within ⟨[.regs, .obs], [each Reg.FLD_P_HUDDLE 16, each Reg.PRO_P_MODE_STATUS 16, each Reg.PRO_P_ROLE 16], []⟩ s t
  posted : StaysPosted s t

theorem ToReader.refl (s : State) : ToReader s s := ⟨.refl _ s, .of_obs rfl⟩

theorem ToReader.trans {s t u : State} (h : ToReader s t) (k : ToReader t u) : ToReader s u := ⟨h.within.trans k.within, h.posted.trans k.posted⟩

theorem toReader_toReader (n : Nat) : ToReader s (s.toReader n) := by
  have written : StaysPosted s (s.setFld (Reg.PRO_P_ROLE n) Fld.PRO_P_ROLE_ROLE 2) := .of_obs rfl
  exact ⟨within_toReader s n (.refl _) (.refl _ s), written.trans (staysPosted_judgeRole _ n)⟩

/-- The state in which a port has woken, before its role is written. -/
def State.woken (s : State) (n : Nat) : State :=
  (((s.stickBit Reg.TUN_SNIFF_STATUS Fld.TUN_SNIFF_STATUS_WAKE n).post 0x3005 .top 0).count 96).modT n fun x => { x with baseCount := 0 }

theorem sniffWake_toReader (h : s.pwr.awake = .running) : ToReader (s.woken p) (s.sniffWake p) := by
  have fold (u : State) (l : List Nat) (k : Nat) :
      ToReader u (l.foldl (fun t m => if (t.hud k).members.testBit m then t.toReader m else t) u) := by
    induction l generalizing u with
    | nil => exact .refl u
    | cons m l ih =>
      refine ToReader.trans ?_ (ih _)
      beta_reduce
      split
      · exact toReader_toReader u m
      · exact .refl u
  have awake : (s.woken p).pwr.awake = .running := h
  unfold State.sniffWake
  extract_lets s1 s2
  have reader : ToReader s1 s2 := by
    show ToReader s1 (ite _ _ _)
    split
    · split
      · exact fold s1 _ _
      · exact toReader_toReader s1 p
    · exact .refl s1
  have stays : s2.pwr.awake = .running := by rw [show s2.pwr = s1.pwr from reader.within.parts .pwr (by decide)]; exact awake
  rw [if_neg (by rw [stays]; exact fun h => absurd h.1 (by decide))]
  exact reader

theorem sniff_not_reader : missesRegs [each Reg.FLD_P_HUDDLE 16, each Reg.PRO_P_MODE_STATUS 16, each Reg.PRO_P_ROLE 16] (Reg.TUN_P_SNIFF_LAST p) = true := by
  revert p
  decide +kernel

theorem sniffWake_spec (h : s.pwr.awake = .running) : (s.sniffWake p).reg (Reg.TUN_P_SNIFF_LAST p) = s.reg (Reg.TUN_P_SNIFF_LAST p) ∧
    (s.sniffWake p).fldBit Reg.TUN_SNIFF_STATUS Fld.TUN_SNIFF_STATUS_WAKE p = true ∧ (s.sniffWake p).pt p = { s.pt p with baseCount := 0 } ∧
    Posted 0x3005 .top 0 (s.sniffWake p) ∧ (s.sniffWake p).pwr = s.pwr := by
  obtain ⟨within, posted⟩ := sniffWake_toReader s p h
  obtain ⟨u, hu⟩ : ∃ u, u = (s.stickBit Reg.TUN_SNIFF_STATUS Fld.TUN_SNIFF_STATUS_WAKE p).post 0x3005 .top 0 := ⟨_, rfl⟩
  have woken : s.woken p = (u.count 96).modT p fun x => { x with baseCount := 0 } := by rw [hu]; rfl
  have counted : (s.woken p).regs = u.regs ∧ (s.woken p).obs.posted = u.obs.posted ∧ (s.woken p).pwr = u.pwr := by
    rw [woken]
    exact ⟨rfl, rfl, rfl⟩
  obtain ⟨regs, events, pwr⟩ := counted
  have stuck (a : Nat) : u.reg a = (s.setFldBit Reg.TUN_SNIFF_STATUS Fld.TUN_SNIFF_STATUS_WAKE p true).reg a := by rw [hu]; rfl
  have apart : Reg.TUN_P_SNIFF_LAST p ≠ Reg.TUN_SNIFF_STATUS := by simp only [Reg.TUN_P_SNIFF_LAST, Reg.TUN_SNIFF_STATUS]; omega
  have tun : u.tun = s.tun := by rw [hu]; rfl
  have pt : (s.woken p).pt p = { s.pt p with baseCount := 0 } := by
    rw [woken, pt_modT_same, pt_of_tun (show (u.count 96).tun = s.tun from tun)]
  refine ⟨?_, ?_, (pt_of_tun (within.parts .tun (by decide)) p).trans pt, ?_, Eq.trans (within.parts .pwr (by decide)) (by rw [pwr, hu]; rfl)⟩
  · rw [within.reg_of_misses _ (sniff_not_reader p), reg_of_regs regs, stuck, State.setFldBit, reg_setFld_ne _ _ _ _ _ apart]
  · rw [State.fldBit, fld_of_reg (within.reg_of_misses _ (by decide)), fld_of_reg (reg_of_regs regs _), fld_of_reg (stuck _), State.setFldBit,
      fld_setFld_same _ _ _ _ (by decide), Nat.testBit_mod_two_pow, testBit_setBit_same, decide_eq_true p.isLt, Bool.true_and]
  · refine posted ?_
    rw [events, hu]
    exact posted_post _ _ _ _

/-! ### The commands of a ping and of its repeat (R122 to R124) -/

/-- What follows a ping whose port's turn it was. -/
def State.pingJudged (s : State) (n : Nat) (v : Word) (from_ : Nat) : State :=
  if (s.pt n).baseCount < 4 then s.sumBase n v
  else if s.steps n v then
    if s.flag (Reg.TUN_P_SNIFF n) Fld.TUN_P_SNIFF_CONFIRM then s.modT n fun x => { x with confirmAt := some (from_ + 2 * msec) }
    else s.sniffWake n
  else s.trackBase n v

theorem does_sniffPing {v : Word} {l : List Nat} {P : State → Prop} (hr : Running s) (htodo : s.tun.todo = p.val :: l) (hrun : s.pingsRun = true)
    (hin : s.inRound p = true) (hvdd : s.vddtxOk p = true) (hpast : s.settlePast = false) (hheld : s.pingHeld p = false)
    (hallowed : s.pingAllowed p = true) (hp : P ((((s.ping p v).pinged p).pingJudged p v s.time).roundOver)) : Does (.sniffPing p v) s P := by
  refine does_sniffing (o := execSniffPing p v s) rfl rfl hr.sniffs ?_ hp
  simp only [htodo, roundReady_running s hr.awake hpast, hrun, hin, hvdd, hheld, hallowed, ne_eq, not_true, or_self, if_false,
    Bool.not_true, Bool.or_self, Bool.false_eq_true]
  rfl

/-- A ping in its turn, in the state before it is judged. -/
theorem pinged_spec (hr : Running s) (v : Word) {l : List Nat} (htodo : s.tun.todo = p.val :: l) :
    ((s.ping p v).pinged p).time = s.time + 8 * usec + (if isRelay p then 2 * s.biasTime p else 0) ∧
    ((s.ping p v).pinged p).pt p = { s.pt p with burst := some (s.burstOf p) } ∧
    ((s.ping p v).pinged p).reg (Reg.TUN_P_SNIFF_LAST p) = v ∧ RegsBut [Reg.TUN_P_SNIFF_LAST p] s ((s.ping p v).pinged p) ∧
    ((s.ping p v).pinged p).tun.todo = l.filter (fun m => m ≠ p.val) ∧ ((s.ping p v).pinged p).field.onInBin.testBit p = true ∧
    ((s.ping p v).pinged p).pwr.awake = .running := by
  have sent := ping_pinged s p hr.awake v
  obtain ⟨time, pt, reg, todo, field, pwr⟩ := sent.pinged
  refine ⟨by rw [time, sent.time, burstOf_ends], by rw [pt, sent.pt], by rw [reg, sent.last], fun a ha => (reg a).trans (sent.regs a ha), ?_,
    by rw [field, sent.bin], by rw [pwr, hr.awake]⟩
  rw [todo, htodo, List.filter_cons_of_neg (by simp)]

theorem last_ne_thr : Reg.TUN_P_SNIFF_THR p ∉ [Reg.TUN_P_SNIFF_LAST p] := by
  simp only [List.mem_singleton]
  exact ownReg_ne

theorem last_ne_sniff : Reg.TUN_P_SNIFF p ∉ [Reg.TUN_P_SNIFF_LAST p] := by
  simp only [List.mem_singleton]
  exact ownReg_ne

/-- Whether a ping is held depends on a port's tuner only where its code is sent or settles. -/
theorem pingHeld_modT (n m : Nat) (f : PortT → PortT) (he : ∀ x, (f x).settleEnd = x.settleEnd := by intro; rfl)
    (ho : ∀ x, (f x).opEnd = x.opEnd := by intro; rfl) : (s.modT n f).pingHeld m = s.pingHeld m := by
  have settle (k : Nat) : ((s.modT n f).pt k).settleEnd = (s.pt k).settleEnd := vget_vmod_of _ _ n k f PortT.settleEnd he
  have op (k : Nat) : ((s.modT n f).pt k).opEnd = (s.pt k).opEnd := vget_vmod_of _ _ n k f PortT.opEnd ho
  have settled : (s.modT n f).codeSettled m = s.codeSettled m := by
    rw [State.codeSettled, settle, op]
    rfl
  have mods (k : Nat) : (s.modT n f).modulations k = s.modulations k := by
    rw [State.modulations, op]
    rfl
  rw [State.pingHeld, settled]
  simp only [mods]
  rfl

/-- The state in which a repeat is no longer due. -/
def State.repeated (s : State) (n : Nat) : State := s.modT n fun x => { x with confirmAt := none }

/-- What a command on a due repeat finds. -/
structure RepeatDue (p : Port) (s : State) : Prop where
  run : s.pingsRun = true
  inRound : s.inRound p = true
  supply : s.vddtxOk p = true
  past : s.settlePast = false

theorem does_confirm {v : Word} {e : Nat} {P : State → Prop} (hr : Running s) (he : (s.pt p).confirmAt = some e) (hdue : RepeatDue p s) (hnow : e ≤ s.time)
    (hp : P (if s.pingHeld p then (if e + s.roundTime ≤ s.time then (s.repeated p).skipPing.roundOver else s)
      else if !s.pingAllowed p then (s.repeated p).skipPing.roundOver
      else if (((s.repeated p).ping p v).pt p).baseCount < 4 then (((s.repeated p).ping p v).sumBase p v).roundOver
      else if ((s.repeated p).ping p v).steps p v then (((s.repeated p).ping p v).sniffWake p).roundOver
      else (((s.repeated p).ping p v).count 19).roundOver)) : Does (.sniffConfirmPing p v) s P := by
  have still : s.advance e = s := if_pos hnow
  have held : (s.repeated p).pingHeld p = s.pingHeld p := pingHeld_modT s p p _
  have due : (!(s.repeated p).pingsRun || !(s.repeated p).inRound p || !(s.repeated p).vddtxOk p) = false := by
    rw [show (s.repeated p).pingsRun = s.pingsRun from rfl, show (s.repeated p).inRound p = s.inRound p from rfl,
      show (s.repeated p).vddtxOk p = s.vddtxOk p from rfl, hdue.run, hdue.inRound, hdue.supply]
    rfl
  refine does_sniffing (o := execSniffConfirmPing p v s) rfl rfl hr.sniffs ?_ hp
  simp only [he, still, roundReady_running s hr.awake hdue.past]
  rw [← State.repeated, due, if_neg Bool.false_ne_true, held]
  rfl

theorem repeated_spec : (s.repeated p).pt p = { s.pt p with confirmAt := none } ∧ (∀ a, (s.repeated p).reg a = s.reg a) ∧
    (s.repeated p).time = s.time ∧ (s.repeated p).pwr = s.pwr :=
  ⟨pt_modT_same s p _, fun _ => rfl, rfl, rfl⟩

/-- A repeat sent, in the state before it is judged. -/
theorem repeatSent_spec (hr : Running s) (v : Word) :
    ((s.repeated p).ping p v).time = s.time + 8 * usec + (if isRelay p then 2 * s.biasTime p else 0) ∧
    ((s.repeated p).ping p v).pt p = { s.pt p with confirmAt := none, burst := some (s.burstOf p) } ∧
    ((s.repeated p).ping p v).reg (Reg.TUN_P_SNIFF_LAST p) = v ∧ RegsBut [Reg.TUN_P_SNIFF_LAST p] s ((s.repeated p).ping p v) ∧
    ((s.repeated p).ping p v).pwr.awake = .running := by
  obtain ⟨pt, reg, time, pwr⟩ := repeated_spec s p
  have sent := ping_pinged (s.repeated p) p (by rw [pwr, hr.awake]) v
  have burst : (s.repeated p).burstOf p = s.burstOf p := rfl
  refine ⟨?_, by rw [sent.pt, pt, burst], sent.last, fun a ha => (sent.regs a ha).trans (reg a), by rw [sent.awake, pwr, hr.awake]⟩
  rw [sent.time, time, burst, burstOf_ends]

/-- Settles O41: the round as it begins, the ping's own effect, what its vector is judged to, and the repeat that is held or sent. -/
theorem sniffRounds : Obligations.SniffRounds := by
  refine ⟨fun s hr hrun hmem htodo => ?_, fun s hsniff hrun hmem htodo => ?_, fun s hr hrun hmem => ?_,
    fun s p v l hr htodo hrun hin hvdd hpast hheld hallowed hcount => ?_, fun s p v l hr htodo hrun hin hvdd hpast hheld hallowed hcount hsteps hconf => ?_,
    fun s p v l hr htodo hrun hin hvdd hpast hheld hallowed hcount hsteps hconf => ?_, fun s p v e hr he hrun hin hvdd hpast hheld hnow hlate => ?_,
    fun s p v e hr he hrun hin hvdd hpast hheld hlate => ?_, fun s p v e hr he hrun hin hvdd hpast hheld hallowed hnow => ?_⟩
  · obtain ⟨tun, -, -, quiet⟩ := roundBegun_spec s (s.tun.lastRound + s.roundTime) s.members
    have begun := quiet htodo
    have pwr : (s.roundBegun (s.tun.lastRound + s.roundTime) s.members).pwr = s.pwr :=
      Eq.trans (begun.parts .pwr (by decide)) (keeps_advance s _ .pwr (by decide))
    refine does_roundStart s hr.sniffs hrun hmem ?_
    rw [roundSyn_running _ (by rw [pwr, hr.awake]; decide)]
    have syn := startSyn_within (s.roundBegun (s.tun.lastRound + s.roundTime) s.members)
    refine ⟨Eq.trans (syn.parts .tun (by decide)) tun, startSyn_synRun _, RegsBut.of_advance fun a ha => (syn.regsBut a ha).trans (begun.regs_same a),
      (begun.parts.join syn.parts (r := [.tun, .regs, .field])).passes⟩
  · obtain ⟨tun, -, -, quiet⟩ := roundBegun_spec s (s.tun.lastRound + s.roundTime) s.members
    have begun := quiet htodo
    have pwr : (s.roundBegun (s.tun.lastRound + s.roundTime) s.members).pwr = s.pwr :=
      Eq.trans (begun.parts .pwr (by decide)) (keeps_advance s _ .pwr (by decide))
    have field : (s.roundBegun (s.tun.lastRound + s.roundTime) s.members).field = s.field :=
      Eq.trans (begun.parts .field (by decide)) (keeps_advance s _ .field (by decide))
    obtain ⟨on, ready, syn⟩ := roundSyn_sniff (s.roundBegun (s.tun.lastRound + s.roundTime) s.members) (by rw [pwr, hsniff])
    refine does_roundStart s (by rw [hsniff, Bool.or_eq_true]; exact .inr rfl) hrun hmem ?_
    refine ⟨Eq.trans (syn.parts .tun (by decide)) tun, on, fun off => ?_, RegsBut.of_advance fun a ha => (syn.regsBut a ha).trans (begun.regs_same a),
      (begun.parts.join syn.parts (r := [.tun, .regs, .field, .free])).passes⟩
    rw [syn.parts .time (by decide)]
    exact ready (by rw [field, off])
  · obtain ⟨-, skips, begun, -⟩ := roundBegun_spec s (s.tun.lastRound + s.roundTime) s.members
    have pwr : (s.roundBegun (s.tun.lastRound + s.roundTime) s.members).pwr = s.pwr :=
      Eq.trans (begun.parts .pwr (by decide)) (keeps_advance s _ .pwr (by decide))
    refine does_roundStart s hr.sniffs hrun hmem ?_
    rw [roundSyn_running _ (by rw [pwr, hr.awake]; decide)]
    have syn := startSyn_within (s.roundBegun (s.tun.lastRound + s.roundTime) s.members)
    refine ⟨by rw [fld_of_reg (syn.reg_of_misses _ (by decide)), skips], RegsBut.of_advance (e := s.tun.lastRound + s.roundTime) ?_⟩
    exact (begun.regsBut.mono (by simp)).trans (syn.regsBut.mono (by simp))
  · obtain ⟨time, pt, last, regs, todo, bin, awake⟩ := pinged_spec s p hr v htodo
    refine does_sniffPing s p hr htodo hrun hin hvdd hpast hheld hallowed ?_
    generalize (s.ping p v).pinged p = u at *
    have count : (u.pt p).baseCount = 0 := by rw [pt, ← hcount]
    obtain ⟨time', -, -, first, -, quiet, todo', field, pwr⟩ := sumBase_spec u p v
    have judged : u.pingJudged p v s.time = u.sumBase p v := if_pos (by rw [count]; decide)
    obtain ⟨time'', pt'', reg'', todo'', field'', -⟩ := roundOver_spec (u.sumBase p v) p (by rw [pwr, awake])
    rw [judged]
    refine ⟨by rw [time'', time', time], ?_, ?_, by rw [todo'', todo', todo], by rw [field'', field, bin], fun a ha => ?_⟩
    · rw [reg'', quiet (by rw [count]; decide) _ (by simp), last]
    · rw [pt'', first count, pt]
    · rw [reg'', quiet (by rw [count]; decide) _ (by simp), regs a ha]
  · obtain ⟨time, pt, last, regs, todo, bin, awake⟩ := pinged_spec s p hr v htodo
    refine does_sniffPing s p hr htodo hrun hin hvdd hpast hheld hallowed ?_
    generalize (s.ping p v).pinged p = u at *
    have count : (u.pt p).baseCount = 4 := by rw [pt, ← hcount]
    have away : u.steps p v = true := by rw [steps_of (by rw [pt]) (by rw [pt]) (regs _ (last_ne_thr p)), hsteps]
    have confirm : u.flag (Reg.TUN_P_SNIFF p) Fld.TUN_P_SNIFF_CONFIRM = true := by rw [flag_of_reg (regs _ (last_ne_sniff p)), hconf]
    have judged : u.pingJudged p v s.time = u.modT p fun x => { x with confirmAt := some (s.time + 2 * msec) } := by
      rw [State.pingJudged, count, if_neg (by decide), if_pos away, if_pos confirm]
    rw [judged]
    obtain ⟨-, pt'', reg'', -⟩ := roundOver_spec (u.modT p fun x => { x with confirmAt := some (s.time + 2 * msec) }) p awake
    exact ⟨by rw [reg'']; exact last, by rw [pt'', pt_modT_same, pt], fun a ha => by rw [reg'']; exact regs a ha⟩
  · obtain ⟨time, pt, last, regs, todo, bin, awake⟩ := pinged_spec s p hr v htodo
    refine does_sniffPing s p hr htodo hrun hin hvdd hpast hheld hallowed ?_
    generalize (s.ping p v).pinged p = u at *
    have count : (u.pt p).baseCount = 4 := by rw [pt, ← hcount]
    have away : u.steps p v = true := by rw [steps_of (by rw [pt]) (by rw [pt]) (regs _ (last_ne_thr p)), hsteps]
    have confirm : u.flag (Reg.TUN_P_SNIFF p) Fld.TUN_P_SNIFF_CONFIRM = false := by rw [flag_of_reg (regs _ (last_ne_sniff p)), hconf]
    have judged : u.pingJudged p v s.time = u.sniffWake p := by
      rw [State.pingJudged, count, if_neg (by decide), if_pos away, confirm, if_neg Bool.false_ne_true]
    obtain ⟨last', wake, pt', posted, pwr⟩ := sniffWake_spec u p awake
    obtain ⟨-, pt'', reg'', -, -, obs⟩ := roundOver_spec (u.sniffWake p) p (by rw [pwr, awake])
    rw [judged]
    refine ⟨by rw [reg'', last', last], by rw [State.fldBit, fld_of_reg (reg'' _)]; exact wake, by rw [pt'', pt'], ?_⟩
    rw [Posted, obs]
    exact posted
  · refine does_confirm s p hr he ⟨hrun, hin, hvdd, hpast⟩ hnow ?_
    rw [hheld, if_pos rfl, if_neg (by omega)]
  · refine does_confirm s p hr he ⟨hrun, hin, hvdd, hpast⟩ (by omega) ?_
    rw [hheld, if_pos rfl, if_pos hlate]
    obtain ⟨pt, reg, -, pwr⟩ := repeated_spec s p
    have skipped := skipPing_within (s.repeated p)
    obtain ⟨-, pt'', reg'', -⟩ := roundOver_spec (s.repeated p).skipPing p
      (by rw [show (s.repeated p).skipPing.pwr = (s.repeated p).pwr from skipped.parts .pwr (by decide), pwr, hr.awake])
    refine ⟨?_, ?_, fun a ha => ?_⟩
    · rw [pt'', pt_of_tun (skipped.parts .tun (by decide)), pt]
    · rw [fld_of_reg (reg'' _), skipPing_fld, fld_of_reg (reg _)]
    · rw [reg'', skipped.regsBut a ha, reg]
  · obtain ⟨time, pt, last, regs, awake⟩ := repeatSent_spec s p hr v
    refine does_confirm s p hr he ⟨hrun, hin, hvdd, hpast⟩ hnow ?_
    rw [hheld, hallowed, if_neg Bool.false_ne_true, Bool.not_true, if_neg Bool.false_ne_true]
    generalize (s.repeated p).ping p v = u at *
    have count : (u.pt p).baseCount = (s.pt p).baseCount := by rw [pt]
    have away : u.steps p v = s.steps p v := steps_of (by rw [pt]) (by rw [pt]) (regs _ (last_ne_thr p)) v
    rw [count, away]
    have confirm : (u.pt p).confirmAt = none := by rw [pt]
    by_cases few : (s.pt p).baseCount < 4
    · rw [if_pos few]
      obtain ⟨-, more, conf, -, shown, -, -, -, pwr⟩ := sumBase_spec u p v
      obtain ⟨-, pt'', reg'', -⟩ := roundOver_spec (u.sumBase p v) p (by rw [pwr, awake])
      have apart : Reg.TUN_P_SNIFF_LAST p ∉ [Reg.TUN_P_SNIFF_BASE p] := by
        simp only [List.mem_singleton]
        exact ownReg_ne
      rw [pt'', reg'']
      exact ⟨conf.trans confirm, (shown _ apart).trans last, fun _ => more.trans (by rw [count]), fun h => absurd few (by omega),
        fun h => absurd few (by omega)⟩
    · rw [if_neg few]
      cases hsteps : s.steps p v with
      | true =>
        rw [if_pos rfl]
        obtain ⟨last', -, pt', posted, pwr⟩ := sniffWake_spec u p awake
        obtain ⟨-, pt'', reg'', -, -, obs⟩ := roundOver_spec (u.sniffWake p) p (by rw [pwr, awake])
        rw [pt'', reg'', pt', last']
        refine ⟨confirm, last, fun h => absurd h few, fun _ _ => ⟨?_, rfl⟩, fun _ h => absurd h (by decide)⟩
        rw [Posted, obs]
        exact posted
      | false =>
        rw [if_neg Bool.false_ne_true]
        obtain ⟨time'', pt'', reg'', -⟩ := roundOver_spec (u.count 19) p awake
        have counted : (u.count 19).pt p = u.pt p := rfl
        have same : (u.count 19).reg (Reg.TUN_P_SNIFF_LAST p) = u.reg (Reg.TUN_P_SNIFF_LAST p) := rfl
        have now : (u.count 19).time = u.time := rfl
        rw [pt'', reg'', counted, same, time'', now]
        exact ⟨confirm, last, fun h => absurd h few, fun _ h => absurd h (by decide), fun _ _ => ⟨time, count⟩⟩

end Sys2Proof.Machine

/-! The store port (O42): its fifth clause has the operation that starts not suspended, of which an operation that waits says nothing. -/

namespace Sys2Proof.Machine

/-- A host program that waits for its die, and is marked as suspended. -/
def suspendedProgram : StoOp :=
  { kind := .hostProgram 0, region := 0, page := 0, die := 0, block := 0, started := none, suspends := 0, suspended := true }

/-- A store of one chip select in RUN, with that program alone in its queue. -/
def programWaits : State :=
  let s := (awakeReset.setReg Reg.STO_GEOM 0x11#32)
  { s with gen := { s.gen with phase := .run }, sto := { s.sto with queue := [suspendedProgram] } }

/-- The program has started and is still marked as suspended. -/
theorem programWaits_started :
    readAfter (fun t => (t.sto.queue[0]?).map fun r => r.suspended) none (exec .storeOpStart programWaits) = some true := by decide +kernel

/-- The queue of the answered state is that of the state before closing. -/
theorem sto_finish (s t : State) : (finish s t).sto = t.sto := keeps_finish s t .sto (by decide)

/-- Refutes O42, in its fifth clause: a start leaves the mark of suspension as it was. -/
theorem not_storeOperations : ¬ Obligations.StoreOperations := by
  rintro ⟨-, -, -, -, h, -⟩
  have block : programWaits.opBlock suspendedProgram = some 0 := by decide +kernel
  have next : programWaits.nextOp = some 0 := by decide +kernel
  have ready : programWaits.flag Reg.STO_STATUS Fld.STO_STATUS_FAIL = false := by decide +kernel
  obtain ⟨t, ⟨started, -⟩, shown⟩ := (h programWaits 0 0 0 suspendedProgram ⟨rfl, rfl⟩ rfl rfl ready next rfl rfl block).read
    (fun t => (t.sto.queue[0]?).map fun r => r.suspended) none fun t => by rw [sto_finish]
  rw [programWaits_started] at shown
  obtain ⟨r, hr, suspended⟩ := Option.map_eq_some_iff.1 shown
  simp [hr, suspended] at started

end Sys2Proof.Machine

/-! The emulated tag: what it answers to a reader (O43), its benches and the ends of a selection (O44). -/

namespace Sys2Proof.Machine

variable (s : State)

/-! ### What a frame does where the tag hears it -/

/-- The tag hears the frames of a reader: it runs main-powered, outside the safe state, with no counter update pending. -/
structure Hears (s : State) : Prop where
  running : Running s
  calm : s.saf.safe = false
  updates : s.emu.updates = []

variable {s}

theorem does_heard {c : Instr} {o : Out} {t : State} {f : State → State} {P : State → Prop} (e : exec c s = o) (h : o = s.tagFrame f) (hs : Hears s)
    (ht : f s = t) (hp : P t) : Does c s P := by
  obtain ⟨⟨hlive, hboot⟩, hsafe, hup⟩ := hs
  have hears : ((s.emu.harvest || (s.live && !s.gen.safeBoot && !s.saf.safe)) && decide (s.emu.updates = [])) = true := by
    simp [hlive, hboot, hsafe, hup]
  refine does_done (t := t) ?_ hp
  rw [e, h, State.tagFrame, if_pos hears, ht]

theorem keeps_modE (s : State) (f : EmuSt → EmuSt) : Keeps [.emu] s (s.modE f) := (within_modE s f (.refl _) (.refl _ s)).parts

/-- Whether the port is muted is a matter of the registers and of the other ports' fields. -/
theorem tagSpeaks_modE (f : EmuSt → EmuSt) (hf : ∀ x, (f x).harvest = x.harvest := by intro; rfl) : (s.modE f).tagSpeaks = s.tagSpeaks := by
  have harvest : (s.modE f).emu.harvest = s.emu.harvest := hf s.emu
  have muted : (s.modE f).emuMuted (s.modE f).emuPort = s.emuMuted s.emuPort := rfl
  rw [State.tagSpeaks, harvest, muted, State.tagSpeaks]

theorem tagSpeaks_bump (f : Field) : (s.bump Reg.EMU_COUNTS f).tagSpeaks = s.tagSpeaks := by
  have port : (s.bump Reg.EMU_COUNTS f).emuPort = s.emuPort := fld_setFld_ne _ _ _ _ _ _ (by decide)
  have role (n : Nat) : (s.bump Reg.EMU_COUNTS f).role n = s.role n := fld_setFld_ne _ _ _ _ _ _ (by simp only [Reg.PRO_P_MODE_STATUS, Reg.EMU_COUNTS]; omega)
  have muted (n : Nat) : (s.bump Reg.EMU_COUNTS f).emuMuted n = s.emuMuted n := by rw [State.emuMuted, role]; rfl
  rw [State.tagSpeaks, muted, port]
  rfl

theorem respond_spoken {last : Bool} {b : List Byte} {bits : Nat} {air : List Bool} (h : s.tagSpeaks = true) :
    s.respond last b bits air = s.modE fun x => { x with answer := b, answerBits := bits, answers := x.answers + 1, answerAir := air,
                                                         answerAt := s.time + s.fc (frameDelay last) } := by
  rw [State.respond, if_pos h]

theorem respondCrc_spoken {last : Bool} {b : List Byte} (h : s.tagSpeaks = true) :
    s.respondCrc last b = s.modE fun x => { x with answer := b ++ leBytes 2 (crcA b), answerBits := 8, answers := x.answers + 1,
                                                   answerAir := tagBits (b ++ leBytes 2 (crcA b)), answerAt := s.time + s.fc (frameDelay last) } :=
  respond_spoken h

/-! ### Waking (R362, R367) -/

theorem tagWake_spec {last halted : Bool} (h : s.tagSpeaks = true) :
    (s.tagWake last halted).emu = { s.emu with tag := .ready, level := 1, fromHalt := halted, answer := [0x44, 0x00], answerBits := 8,
                                               answers := s.emu.answers + 1, answerAir := (s.tagWake last halted).emu.answerAir,
                                               answerAt := s.time + s.fc (frameDelay last) } ∧
      Keeps [.emu] s (s.tagWake last halted) := by
  have woken : (s.modE fun x => { x with tag := .ready, level := 1, fromHalt := halted }).tagSpeaks = true := (tagSpeaks_modE _).trans h
  rw [State.tagWake, respond_spoken woken]
  exact ⟨rfl, (keeps_modE s _).trans (keeps_modE _ _)⟩

/-! ### Selection (R362, R367) -/

theorem crcBitR_lt {q r b : Nat} (hq : q < 2 ^ 16) (hr : r < 2 ^ 16) : crcBitR q r b < 2 ^ 16 := by
  have half : r / 2 < 2 ^ 16 := by omega
  rw [crcBitR]
  split
  · exact Nat.xor_lt_two_pow half hq
  · exact half

theorem crcStepsR_lt {q : Nat} (hq : q < 2 ^ 16) (k : Nat) : ∀ {r b : Nat}, r < 2 ^ 16 → crcStepsR q k r b < 2 ^ 16 := by
  induction k with
  | zero => exact fun hr => hr
  | succ k ih => exact fun hr => ih (crcBitR_lt hq hr)

theorem crcBytes_lt (l : List Byte) : ∀ {r : Nat}, r < 2 ^ 16 → crcBytes 16 0x1021 true r l < 2 ^ 16 := by
  induction l with
  | nil => exact fun hr => hr
  | cons b l ih => exact fun hr => ih (crcStepsR_lt (q := reflect 16 0x1021) (by decide) 8 hr)

theorem crcA_lt (l : List Byte) : crcA l < 2 ^ 16 :=
  Nat.xor_lt_two_pow (crcBytes_lt l (by decide)) (by decide)

/-- A whole SELECT frame of a level, with the five bytes that are the tag's own at it. -/
theorem tagSel_own {l : List Byte} (hown : s.tagLevel s.emu.level = l) (hl : l.length = 5) (c : Byte) (hc : c = if s.emu.level = 1 then 0x93 else 0x95)
    (bits : Nat) : ∃ last, s.tagSel (c :: 0x70 :: (l ++ leBytes 2 (crcA (c :: 0x70 :: l)))) bits =
      if s.emu.level = 1 then (s.modE fun x => { x with level := 2 }).respondCrc last [0x04] else s.tagSelect.respondCrc last [s.finalSak] := by
  have head : (c :: 0x70 :: (l ++ leBytes 2 (crcA (c :: 0x70 :: l)))).take 7 = c :: 0x70 :: l := by
    rw [List.take_succ_cons, List.take_succ_cons, List.take_left' hl]
  have check : leAt (l ++ leBytes 2 (crcA (c :: 0x70 :: l))) 5 2 = crcA (c :: 0x70 :: l) := by
    rw [leAt, List.drop_left' hl, List.take_of_length_le (by rw [length_leBytes]), leNat_leBytes]
    exact Nat.mod_eq_of_lt (crcA_lt _)
  have length : (l ++ leBytes 2 (crcA (c :: 0x70 :: l))).length = 7 := by rw [List.length_append, hl, length_leBytes]
  refine ⟨lastBit (c :: 0x70 :: (l ++ leBytes 2 (crcA (c :: 0x70 :: l)))) bits, ?_⟩
  unfold State.tagSel
  simp only [hown, ← hc, ne_eq, not_true_eq_false, ite_false, ite_true]
  rw [if_pos ⟨List.take_left' hl, by rw [head, check], length⟩]

theorem level2_spoken (h : s.tagSpeaks = true) : (s.modE fun x => { x with level := 2 }).tagSpeaks = true := (tagSpeaks_modE _).trans h

/-- The cascade's end: the state that answers the final SAK. -/
theorem tagSelect_main (h : s.emu.harvest = false) : s.tagSelect = (s.modE fun x =>
    { x with tag := .active, lockedSel := s.flag Reg.EMU_WIRE Fld.EMU_WIRE_WIRE_LOCK, snapshot := none, counted := false,
             publishing := false }).bump Reg.EMU_COUNTS Fld.EMU_COUNTS_SELECTIONS := by
  rw [State.tagSelect, h]
  rfl

theorem tagSelect_spec (h : s.emu.harvest = false) : s.tagSelect.tagSpeaks = s.tagSpeaks ∧
    s.tagSelect.emu = { s.emu with tag := .active, lockedSel := s.flag Reg.EMU_WIRE Fld.EMU_WIRE_WIRE_LOCK, snapshot := none,
                                   counted := false, publishing := false } ∧
    s.tagSelect.fld Reg.EMU_COUNTS Fld.EMU_COUNTS_SELECTIONS = satAdd 65535 (s.fld Reg.EMU_COUNTS Fld.EMU_COUNTS_SELECTIONS) 1 ∧
    Within ⟨[.regs, .emu], [one Reg.EMU_COUNTS], []⟩ s s.tagSelect := by
  refine ⟨?_, ?_, ?_, within_tagSelect s (.refl _) (.refl _ s)⟩
  · rw [tagSelect_main h, tagSpeaks_bump]
    exact tagSpeaks_modE _
  · rw [tagSelect_main h]
    rfl
  · rw [tagSelect_main h, fld_bump16 _ _ _ rfl (by decide)]
    rfl

/-! ### What ACTIVE serves (R366, R367, R370) -/

theorem sendBlock_spec {last : Bool} {b : Nat} (h : s.tagSpeaks = true) :
    (s.sendBlock last b).emu.answer = s.tagBlock b ++ leBytes 2 (crcA (s.tagBlock b)) ∧ (s.sendBlock last b).emu.answerBits = 8 ∧
      (s.sendBlock last b).emu.counted = true ∧ (s.sendBlock last b).emu.answerAt = s.time + s.fc (frameDelay last) ∧
      (s.sendBlock last b).emu.tag = s.emu.tag := by
  have asked (u : State) : (u.askInc 0).emu.answer = u.emu.answer ∧ (u.askInc 0).emu.answerBits = u.emu.answerBits ∧
      (u.askInc 0).emu.counted = u.emu.counted ∧ (u.askInc 0).emu.answerAt = u.emu.answerAt ∧ (u.askInc 0).emu.tag = u.emu.tag := by
    rw [State.askInc]
    split <;> exact ⟨rfl, rfl, rfl, rfl, rfl⟩
  rw [State.sendBlock, respondCrc_spoken h, h]
  cases hc : s.emu.counted with
  | true => exact ⟨rfl, rfl, hc, rfl, rfl⟩
  | false => exact asked _

theorem sendBusy_spec {last : Bool} (h : s.tagSpeaks = true) :
    (s.sendBusy last).emu = { s.emu with answer := [5], answerBits := 4, answers := s.emu.answers + 1,
                                         answerAir := (s.sendBusy last).emu.answerAir, answerAt := s.time + s.fc (frameDelay last) } ∧
      (s.sendBusy last).fld Reg.EMU_COUNTS Fld.EMU_COUNTS_BUSY_SENT = satAdd 65535 (s.fld Reg.EMU_COUNTS Fld.EMU_COUNTS_BUSY_SENT) 1 := by
  rw [State.sendBusy, if_pos h, State.respondBusy, respond_spoken h]
  constructor
  · simp only [postSec_keeps_all]
    rfl
  · rw [fld_of_reg (reg_postSec _ _ _ _ _ _), fld_bump16 _ _ _ rfl (by decide)]
    rfl

/-- A selection with nothing held and nothing to publish is left at once. -/
theorem leaveActive_plain {t : TagState} (hheld : s.emu.heldWrite = none) (hpub : s.emu.publishing = false) :
    s.leaveActive t = s.modE fun x => { x with tag := t, lockedSel := false, snapshot := none, counted := false, publishing := false } := by
  have held : (s.modE fun x => { x with tag := t, lockedSel := false, snapshot := none, counted := false, publishing := false }).emu.heldWrite =
      none := hheld
  rw [State.leaveActive, hpub, State.releaseHeld, held]
  rfl

/-- Settles O43. A frame that the tag hears is its function on the state; a response is the one that the port, not muted, begins. -/
theorem tagAnswersReaders : Obligations.TagAnswersReaders := by
  refine ⟨fun s hr hu hc hm ht => ?_, fun s hr hu hc ht => ?_, fun s hr hu hc hm ht => ?_, fun s l hr hu hc hm ht hlev hown hl => ?_,
    fun s l hr hu hc hm ht hlev hharv hown hl => ?_, fun s b hr hu hc hm ht hlock hb => ?_, fun s b hr hu hc hm ht hlock hb => ?_,
    fun s b hr hu hc hm ht hlock => ?_, fun s i hr hu hc hm ht hi hbad => ?_, fun s hr hu hc ht hheld hpub => ?_⟩
  · exact does_heard (o := execEmuReqa s) rfl rfl ⟨hr, hu, hc⟩ (if_pos ht) (tagWake_spec hm)
  · refine does_heard (o := execEmuReqa s) rfl rfl ⟨hr, hu, hc⟩ ?_ rfl
    rw [if_neg (by simp [ht]), State.tagReject, if_neg (by simp [ht])]
  · rcases ht with ht | ht
    · refine does_heard (o := execEmuWupa s) rfl rfl ⟨hr, hu, hc⟩ (if_pos ht) ?_
      rw [ht]
      exact tagWake_spec hm
    · refine does_heard (o := execEmuWupa s) rfl rfl ⟨hr, hu, hc⟩ ((if_neg (by simp [ht])).trans (if_pos ht)) ?_
      rw [ht]
      exact tagWake_spec hm
  · obtain ⟨last, whole⟩ := tagSel_own (s := s) (by rw [hlev, hown]) hl 0x93 (by rw [hlev]; rfl) 0
    refine does_heard (o := execEmuSelect _ 0 s) rfl rfl ⟨hr, hu, hc⟩ ((if_pos ht).trans (whole.trans (if_pos hlev))) ?_
    rw [respondCrc_spoken (level2_spoken hm)]
    exact ⟨rfl, (keeps_modE s _).trans (keeps_modE _ _)⟩
  · obtain ⟨last, whole⟩ := tagSel_own (s := s) (by rw [hlev, hown]) hl 0x95 (by rw [hlev]; rfl) 0
    refine does_heard (o := execEmuSelect _ 0 s) rfl rfl ⟨hr, hu, hc⟩ ((if_pos ht).trans (whole.trans (if_neg (by simp [hlev])))) ?_
    obtain ⟨speaks, emu, count, within⟩ := tagSelect_spec hharv
    rw [respondCrc_spoken (speaks.trans hm)]
    refine ⟨congrArg EmuSt.tag emu, congrArg EmuSt.lockedSel emu, congrArg EmuSt.snapshot emu, congrArg EmuSt.counted emu, rfl, count, ?_, ?_⟩
    · exact fun a ha => within.regsBut (l := [Reg.EMU_COUNTS]) a ha
    · exact within.parts.trans ((keeps_modE _ _).mono (by decide))
  · refine does_heard (o := execEmuRead b s) (t := s.sendBlock (lastBitCrc [0x30, b]) b.toNat) rfl rfl ⟨hr, hu, hc⟩ ?_ ?_
    · simp only [State.tagActive, ht, hlock, decide_true, ite_true, Bool.false_eq_true, ite_false, if_neg (Nat.not_lt.2 hb)]
    · obtain ⟨answer, bits, counted, at_, tag⟩ := sendBlock_spec (last := lastBitCrc [0x30, b]) (b := b.toNat) hm
      exact ⟨answer, bits, counted, at_, tag.trans ht⟩
  · refine does_heard (o := execEmuRead b s) (t := s.respondNak (lastBitCrc [0x30, b])) rfl rfl ⟨hr, hu, hc⟩ ?_ ?_
    · simp only [State.tagActive, ht, hlock, decide_true, ite_true, Bool.false_eq_true, ite_false, if_pos hb]
    · rw [State.respondNak, respond_spoken hm]
      exact ⟨rfl, keeps_modE s _⟩
  · refine does_heard (o := execEmuRead b s) rfl rfl ⟨hr, hu, hc⟩ ?_ (sendBusy_spec (last := lastBitCrc [0x30, b]) hm)
    simp only [State.tagActive, ht, hlock, decide_true, ite_true]
  · refine does_heard (o := execReadCtr i s) (t := s.respondCrc (lastBitCrc [0x39, i]) (s.ctrBytes i.toNat)) rfl rfl ⟨hr, hu, hc⟩ ?_ ?_
    · simp only [State.tagActive, ht, hbad, decide_true, ite_true, Nat.not_lt.2 hi, decide_false, Bool.or_self, Bool.false_eq_true, ite_false]
    · rw [respondCrc_spoken hm]
      exact ⟨rfl, keeps_modE s _⟩
  · refine does_heard (o := execEmuHlta s) (t := s.leaveActive .halt) rfl rfl ⟨hr, hu, hc⟩ ?_ ?_
    · simp only [State.tagActive, ht, decide_true, ite_true]
    · rw [leaveActive_plain hheld hpub]
      refine ⟨?_, keeps_modE s _⟩
      rw [← hpub]
      rfl

/-! ### The bench and the ends of a selection (R255, R365, R367, R380) -/

theorem putDatas_tag (l : List Word) : ∀ (s : State) (i : Nat), (s.putDatas i l).emu.tag = s.emu.tag := by
  induction l with
  | nil => exact fun _ _ => rfl
  | cons w l ih =>
    intro s i
    refine (ih _ _).trans ?_
    split <;> rfl

theorem releaseHeld_tag (s : State) : s.releaseHeld.emu.tag = s.emu.tag := by
  rw [State.releaseHeld]
  split
  · exact putDatas_tag _ _ _
  · rfl

theorem autoSync_tag (s : State) : s.autoSync.emu.tag = s.emu.tag := by
  have begun : s.beginSync.emu.tag = s.emu.tag := by
    rw [State.beginSync]
    split <;> rfl
  rw [State.autoSync]
  split
  · rw [State.askSync]
    split
    · rfl
    · exact begun
  · rfl

theorem leaveActive_tag (s : State) (t : TagState) : (s.leaveActive t).emu.tag = t := by
  rw [State.leaveActive]
  split
  · exact (autoSync_tag _).trans (releaseHeld_tag _)
  · exact releaseHeld_tag _

/-- A frame that READY does not serve. -/
theorem tagReject_ready (h : s.emu.tag = .ready) : s.tagReject = s.modE fun x => { x with tag := if s.emu.fromHalt then .halt else .idle } := by
  rw [State.tagReject, if_pos (.inl h), State.tagTo, if_neg (by simp [h])]

/-- The end of a bench, at a free time within a millisecond of the time that the command gave. -/
def State.benchOver (s : State) (e : Nat) : State :=
  (s.takeFreeWord.1.advance (e + s.takeFreeWord.2.toNat % (msec + 1))).modE fun x => { x with tag := .idle, benchEnd := none, cell := none }

theorem benchOver_spec (e : Nat) : (s.benchOver e).emu = { s.emu with tag := .idle, benchEnd := none, cell := none } ∧
    max s.time e ≤ (s.benchOver e).time ∧ (s.benchOver e).time ≤ max s.time (e + msec) ∧ RingOnly s (s.benchOver e) ∧
    Keeps [.time, .sram, .emu, .free, .obs] s (s.benchOver e) := by
  obtain ⟨d, hd⟩ : ∃ d, d = s.takeFreeWord.2.toNat % (msec + 1) := ⟨_, rfl⟩
  obtain ⟨u, hu⟩ : ∃ u, u = s.takeFreeWord.1.advance (e + d) := ⟨_, rfl⟩
  have free : Keeps [.free] s s.takeFreeWord.1 := (within_takeFreeWord s (.refl _) (.refl _ s)).parts
  obtain ⟨time, ring, keeps⟩ : Passes (e + d) [] s.takeFreeWord.1 u := hu ▸ passes_advance _ _
  have ends : s.benchOver e = u.modE fun x => { x with tag := .idle, benchEnd := none, cell := none } := by rw [hu, hd, State.benchOver]
  have emu : u.emu = s.emu := keeps .emu (by decide)
  have bound : d < msec + 1 := hd ▸ Nat.mod_lt _ (by decide)
  have start : s.takeFreeWord.1.time = s.time := free .time (by decide)
  rw [ends]
  refine ⟨?_, ?_, ?_, (RingOnly.of_sram (free .sram (by decide))).trans ring, ?_⟩
  · show EmuSt.mk .. = _
    rw [emu]
  · show _ ≤ u.time
    omega
  · show u.time ≤ _
    omega
  · exact (free.mono (by decide)).trans ((keeps.mono (by decide)).trans ((keeps_modE u _).mono (by decide)))

/-- Settles O44. Each frame and each end is its function on the state; a bench ends at a free time within its millisecond. -/
theorem tagBenchesAndFallsBack : Obligations.TagBenchesAndFallsBack := by
  refine ⟨fun s dur hr hu hc ht hb hd => ?_, fun s hr hu hc ht hb => ?_, fun s hr hu hc ht hb => ?_, fun s l b hr hu hc ht => ?_,
    fun s l b hr hu hc ht => ?_, fun s e hr ha hh ht => ?_, fun s e hr ht he => ?_⟩
  · refine does_heard (o := execEmuAccBench dur s) (t := s.benchTag dur.toNat) rfl rfl ⟨hr, hu, hc⟩ ?_
      ⟨leaveActive_tag s .bench, rfl, rfl, (within_benchTag s _ (.refl _) (.refl _ s)).parts⟩
    simp only [State.tagActive, ht, hb, hd, ne_eq, not_false_eq_true, decide_true, Bool.and_self, ite_true]
  · refine does_heard (o := execEmuAccRelease s) rfl rfl ⟨hr, hu, hc⟩ ?_ rfl
    simp only [State.tagActive, ht, hb, decide_true, Bool.and_self, ite_true]
  · refine does_heard (o := execEmuAccEnrol s) rfl rfl ⟨hr, hu, hc⟩ ?_ rfl
    simp only [State.tagActive, ht, hb, decide_true, Bool.and_self, ite_true]
  · exact does_heard (o := execEmuOtherFrame l b s) rfl rfl ⟨hr, hu, hc⟩ (tagReject_ready ht) ⟨rfl, keeps_modE s _⟩
  · exact does_heard (o := execEmuOtherFrame l b s) rfl rfl ⟨hr, hu, hc⟩ (if_neg (by simp [ht])) rfl
  · have emu : (s.advance (e + 2 * msec)).emu = s.emu := keeps_advance s _ .emu (by decide)
    refine does_running (o := execEmuFieldLossTimeout s) (t := (s.advance (e + 2 * msec)).modE fun x => { x with tag := .idle }) rfl rfl hr ?_
      ⟨?_, (keeps_modE _ _).passes⟩
    · simp only [ha, hh, ht, State.tagTo, emu]
      rfl
    · show EmuSt.mk .. = _
      rw [emu]
  · refine does_done (t := s.benchOver e) ?_ (benchOver_spec e)
    show execEmuBenchEnd s = _
    rw [execEmuBenchEnd, hr.1, hr.2, ht, he]
    simp only [Bool.not_false, Bool.and_self, Bool.or_true, ite_true]
    rfl

end Sys2Proof.Machine

/-! The emulated tag's data area and images (O45), its counters and the harvest island (O46). -/

namespace Sys2Proof.Machine

variable {s : State}

/-! ### WIRE_LOCK (R370, R371) -/

/-- A write of WIRE_LOCK where EMU's block is not locked. -/
theorem writeReg_wire (v : Word) : s.writeReg Reg.EMU_WIRE v = s.setFld Reg.EMU_WIRE Fld.EMU_WIRE_WIRE_LOCK (Fld.EMU_WIRE_WIRE_LOCK.get v) := by
  have row : findRow Reg.EMU_WIRE = some ⟨0xF0020, 1, 4, 1, 4, 0, false, [⟨Fld.EMU_WIRE_WIRE_LOCK, .rw, 0, 0xFFFFFFFF⟩]⟩ := by decide +kernel
  have small : ¬ 0xFFFFFFFF < Fld.EMU_WIRE_WIRE_LOCK.get v := by
    have bound := Fld.EMU_WIRE_WIRE_LOCK.get_lt v
    have pow : 2 ^ Fld.EMU_WIRE_WIRE_LOCK.width = 2 := rfl
    omega
  rw [writeReg_free s v row (.of (by decide +kernel)) rfl]
  simp only [RegRow.write, List.foldl_cons, List.foldl_nil, FieldRow.write, Bool.false_and, Nat.not_lt_zero, decide_false, small, Bool.or_self,
    Bool.false_eq_true, if_false]
  rfl

/-- What setting WIRE_LOCK in a selection leaves: the snapshot of the data area, or the one it has. -/
theorem wireSet_spec (hlock : s.flag Reg.EMU_WIRE Fld.EMU_WIRE_WIRE_LOCK = false) (htag : s.emu.tag = .active) (hheld : s.emu.heldWrite = none) :
    s.writeWire 1 = (s.setFld Reg.EMU_WIRE Fld.EMU_WIRE_WIRE_LOCK 1).modE fun x => { x with snapshot := some (x.snapshot.getD x.data) } := by
  have set : (s.setFld Reg.EMU_WIRE Fld.EMU_WIRE_WIRE_LOCK 1).flag Reg.EMU_WIRE Fld.EMU_WIRE_WIRE_LOCK = true := flag_setFld_same _ _ _ _ (by decide)
  have written : s.writeReg Reg.EMU_WIRE 1 = s.setFld Reg.EMU_WIRE Fld.EMU_WIRE_WIRE_LOCK 1 := writeReg_wire 1
  have held : ((s.setFld Reg.EMU_WIRE Fld.EMU_WIRE_WIRE_LOCK 1).modE fun x => { x with snapshot := some (x.snapshot.getD x.data) }).emu.heldWrite =
      none := hheld
  unfold State.writeWire
  simp only [written, set, hlock, State.tagActive, htag, Bool.not_false, Bool.and_self, decide_true, if_true]
  rw [State.releaseHeld, held]

/-- What clearing WIRE_LOCK leaves where the selection has its snapshot. -/
theorem wireCleared_spec {m : List (Nat × Byte)} (hlock : s.flag Reg.EMU_WIRE Fld.EMU_WIRE_WIRE_LOCK = true) (hsnap : s.emu.snapshot = some m) :
    s.writeWire 0 = ((s.setFld Reg.EMU_WIRE Fld.EMU_WIRE_WIRE_LOCK 0).modE fun x => { x with lockedSel := false }).modE fun x =>
      { x with publishing := true } := by
  have clear : (s.setFld Reg.EMU_WIRE Fld.EMU_WIRE_WIRE_LOCK 0).flag Reg.EMU_WIRE Fld.EMU_WIRE_WIRE_LOCK = false := flag_setFld_same _ _ _ _ (by decide)
  have written : s.writeReg Reg.EMU_WIRE 0 = s.setFld Reg.EMU_WIRE Fld.EMU_WIRE_WIRE_LOCK 0 := writeReg_wire 0
  have taken : ((s.setFld Reg.EMU_WIRE Fld.EMU_WIRE_WIRE_LOCK 0).modE fun x => { x with lockedSel := false }).emu.snapshot = some m := hsnap
  unfold State.writeWire
  simp only [written, clear, hlock, taken, Bool.false_and, Bool.not_false, Bool.and_self, Bool.false_eq_true, Option.isSome_some, if_true, if_false]

/-! ### Held writes (R369) -/

/-- A held write given up. -/
def State.heldGivenUp (s : State) : State :=
  ((s.modE fun x => { x with heldWrite := none }).stick Reg.EMU_STATUS Fld.EMU_STATUS_WR_FAIL).post 0x9001 .heart 0

theorem heldGivenUp_within : Within ⟨[.regs, .emu, .obs], [Reg.EMU_STATUS].map one, []⟩ s s.heldGivenUp :=
  within_post (.of (by decide)) (within_stick _ _ (.of (by decide)) (within_modE s _ (.of (by decide)) (.refl _ s))) 0x9001 .heart 0

theorem heldGivenUp_fail : s.heldGivenUp.flag Reg.EMU_STATUS Fld.EMU_STATUS_WR_FAIL = true := by
  rw [State.heldGivenUp, flag_of_reg (reg_post _ _ _ _ _), flag_of_reg (reg_stick _ _ _ _)]
  exact flag_setFld_same _ _ _ _ (by decide)

/-! ### Syncs (R375, R382) -/

theorem beginSync_next {k : Nat} (h : s.imageInForce = some k) : s.beginSync = s.modE fun x =>
    { x with sync := (some (SyncRun.mk (1 - k) (makeImage (1 - k) ((s.imageSeq k + 1) % 2 ^ 32) s.emuUid
        (bnat (s.flag Reg.EMU_CTRL Fld.EMU_CTRL_BENCH_EN) + 2 * bnat (s.flag Reg.EMU_CTRL Fld.EMU_CTRL_HARV))
        (Sparse.read s.emu.data 0 0 1024)))) } := by
  rw [State.beginSync, h]

/-- A write of EMU.CMD with SYNC alone. -/
theorem writeEmuCmd_sync : s.writeEmuCmd 1 = s.askSync := rfl

theorem nextSync_last (h : s.emu.syncAgain = false) : s.nextSync = s.modE fun x => { x with sync := none, syncAgain := false } := by
  rw [State.nextSync, h]
  rfl

/-- The image of a sync that does not verify, reported. -/
def State.syncFailed (s : State) (r : SyncRun) : State :=
  ((s.spoilImage r).stick Reg.EMU_STATUS Fld.EMU_STATUS_SYNC_FAIL).post 0x9006 .heart 0

theorem syncFailed_within (r : SyncRun) : Within ⟨[.regs, .emu, .free, .obs], [Reg.EMU_STATUS].map one, []⟩ s (s.syncFailed r) :=
  within_post (.of (by decide)) (within_stick _ _ (.of (by decide)) (within_spoilImage s r (.of (by decide)) (.refl _ s))) 0x9006 .heart 0

theorem syncFailed_fail (r : SyncRun) : (s.syncFailed r).flag Reg.EMU_STATUS Fld.EMU_STATUS_SYNC_FAIL = true := by
  rw [State.syncFailed, flag_of_reg (reg_post _ _ _ _ _), flag_of_reg (reg_stick _ _ _ _)]
  exact flag_setFld_same _ _ _ _ (by decide)

/-- Settles O45. The data area's writes, WIRE_LOCK and SYNC are one state each; a sync that fails spoils only the slot it wrote. -/
theorem tagDataAndImages : Obligations.TagDataAndImages := by
  refine ⟨fun s i v hr hwf hh ht => ?_, fun s i v hr hh ht hl => ?_, fun s i e l hr hh => ?_, fun s hr hb hl ht hh => ?_,
    fun s m hr hb hl hm => ?_, fun s k hr hs hk => ?_, fun s r hr hs => ?_, fun s r hr hs ha => ?_, fun s r hr hs ha => ?_⟩
  · refine does_running (o := execEmuDataWrite i v s) (t := s.putData i.val v) rfl rfl hr ?_ ⟨?_, keeps_modE s _⟩
    · simp only [hh, State.writeEmuData, State.tagActive, ht, decide_false, Bool.false_and, Option.isSome_none, Bool.false_eq_true, if_false,
        State.putDatas, i.isLt, if_true]
    · exact Sparse.read_write s.emu.data 0 (4 * i.val) (wordBytes v)
  · refine does_running (o := execEmuDataWrite i v s) (t := s.modE fun x => { x with heldWrite := some (i.val, [v], s.time) }) rfl rfl hr ?_
      ⟨rfl, keeps_modE s _⟩
    simp only [hh, State.writeEmuData, State.tagActive, ht, hl, decide_true, Bool.not_false, Bool.and_self, Option.isSome_none,
      Bool.false_eq_true, if_false, if_true]
  · obtain ⟨u, hu⟩ : ∃ u, u = s.advance (e + 50 * msec) := ⟨_, rfl⟩
    have emu : u.emu = s.emu := hu ▸ keeps_advance s _ .emu (by decide)
    have within : Within ⟨[.regs, .emu, .obs], [Reg.EMU_STATUS].map one, []⟩ u u.heldGivenUp := heldGivenUp_within
    refine does_running (o := execEmuBusy s) (t := u.heldGivenUp) rfl rfl hr (by rw [hu]; simp only [hh]; rfl) ⟨?_, ?_, posted_post _ _ _ _, ?_, ?_⟩
    · show EmuSt.mk .. = _
      rw [emu]
    · exact heldGivenUp_fail
    · rw [hu] at within
      exact hu ▸ within.regsBut.of_advance
    · rw [hu] at within
      exact hu ▸ Passes.of_within within (by decide) (by decide) (by decide)
  · refine does_running (o := execWireLockWrite 1 s) rfl rfl hr (wireSet_spec hl ht hh) ⟨?_, rfl⟩
    simp only [modE_reads]
    exact flag_setFld_same s Reg.EMU_WIRE Fld.EMU_WIRE_WIRE_LOCK 1 (by decide)
  · refine does_running (o := execWireLockWrite 0 s) rfl rfl hr (wireCleared_spec hl hm) ⟨?_, rfl⟩
    simp only [modE_reads]
    exact flag_setFld_same s Reg.EMU_WIRE Fld.EMU_WIRE_WIRE_LOCK 0 (by decide)
  · refine does_running (o := execSync s) rfl rfl hr (writeEmuCmd_sync.trans ?_) (P := _) ?_ (t := s.beginSync)
    · rw [State.askSync, hs]
      rfl
    · rw [beginSync_next hk]
      rfl
  · refine does_running (o := execSync s) rfl rfl hr (writeEmuCmd_sync.trans ?_) (t := s.modE fun x => { x with syncAgain := true })
      ⟨rfl, keeps_modE s _⟩
    rw [State.askSync, hs]
    rfl
  · obtain ⟨u, hu⟩ : ∃ u, u = (s.nvWrite (slotBase r.slot) r.bytes).setFld Reg.EMU_STATUS Fld.EMU_STATUS_IMAGE_VALID 1 := ⟨_, rfl⟩
    have again : u.emu.syncAgain = false := by rw [hu]; exact ha
    have within : Within ⟨[.regs, .emu], [Reg.EMU_STATUS].map one, []⟩ s (u.modE fun x => { x with sync := none, syncAgain := false }) := by
      rw [hu]
      exact within_modE _ _ (.of (by decide)) (within_setFld _ _ _ (.of (by decide)) (within_nvWrite s _ _ (.of (by decide)) (.refl _ s)))
    refine does_running (o := execEmuSyncDone true s) rfl rfl hr (by simp only [hs, if_true, ← hu]; exact nextSync_last again)
      ⟨?_, ?_, within.regsBut, within.parts⟩
    · rw [hu, ← ha]
      rfl
    · simp only [modE_reads, hu]
      exact flag_setFld_same (s.nvWrite (slotBase r.slot) r.bytes) Reg.EMU_STATUS Fld.EMU_STATUS_IMAGE_VALID 1 (by decide)
  · obtain ⟨u, hu⟩ : ∃ u, u = s.syncFailed r := ⟨_, rfl⟩
    have again : u.emu.syncAgain = false := by rw [hu]; exact ha
    have within : Within ⟨[.regs, .emu, .free, .obs], [Reg.EMU_STATUS].map one, []⟩ s (u.modE fun x => { x with sync := none, syncAgain := false }) := by
      rw [hu]
      exact within_modE _ _ (.of (by decide)) (syncFailed_within r)
    refine does_running (o := execEmuSyncDone false s) rfl rfl hr (t := u.modE fun x => { x with sync := none, syncAgain := false })
      (by rw [← nextSync_last again, hu]; simp only [hs]; rfl) ⟨rfl, ?_, ?_, within.regsBut, within.parts⟩
    · rw [hu]
      exact syncFailed_fail r
    · rw [hu]
      exact posted_post _ _ _ _

/-! ### Counters (R377, R378) -/

/-- The fields of EMU.CMD that ask for an increment of counter `i`. -/
theorem ctrInc_fields (i : Fin 8) : Fld.EMU_CMD_SYNC.get (Fld.EMU_CMD_SYNC.set (word (2 + 256 * i.val)) 0) = 0 ∧
    Fld.EMU_CMD_CTR_INC.get (Fld.EMU_CMD_SYNC.set (word (2 + 256 * i.val)) 0) = 1 ∧
    Fld.EMU_CMD_INDEX.get (Fld.EMU_CMD_SYNC.set (word (2 + 256 * i.val)) 0) = i.val := by
  revert i
  decide

theorem writeEmuCmd_inc (i : Fin 8) : s.writeEmuCmd (Fld.EMU_CMD_SYNC.set (word (2 + 256 * i.val)) 0) = s.ctrInc i.val := by
  obtain ⟨sync, inc, index⟩ := ctrInc_fields i
  rw [State.writeEmuCmd, sync, inc, index]
  rfl

/-- A cell's time has passed: the updates and the NV area are as they were. -/
structure CellTimed (s t : State) : Prop where
  emu : t.emu = s.emu
  after : s.time ≤ t.time
  before : t.time ≤ s.time + 1020 * usec
  keeps : Keeps [.time, .sram, .free, .obs] s t

theorem cellTime_timed {u : CtrUpd} (h : u.step ≠ 0) : CellTimed s (s.cellTime u) := by
  have free : Keeps [.free] s s.takeFreeWord.1 := (within_takeFreeWord s (.refl _) (.refl _ s)).parts
  have start : s.takeFreeWord.1.time = s.time := free .time (by decide)
  obtain ⟨d, hd⟩ : ∃ d, d = s.takeFreeWord.2.toNat % (1020 * usec + 1) := ⟨_, rfl⟩
  have bound : d < 1020 * usec + 1 := hd ▸ Nat.mod_lt _ (by decide)
  have timed : s.cellTime u = s.takeFreeWord.1.advance (s.time + d) := by
    unfold State.cellTime
    simp only [if_neg h, ← hd, start]
  obtain ⟨time, -, keeps⟩ := passes_advance s.takeFreeWord.1 (s.time + d)
  rw [start] at time
  rw [timed]
  exact ⟨Eq.trans (keeps .emu (by decide)) (free .emu (by decide)), by omega, by omega, (free.mono (by decide)).trans (keeps.mono (by decide))⟩

theorem latchUpdate_begun {u : CtrUpd} (h : u.step ≠ 0) : s.latchUpdate u = u := if_neg h

theorem endUpdate_last {u : CtrUpd} (h : s.emu.updates = [u]) : s.endUpdate = s.modE fun x => { x with updates := x.updates.tail } := by
  have rest : (s.modE fun x => { x with updates := x.updates.tail }).emu.updates = [] := congrArg List.tail h
  rw [State.endUpdate, h, List.length_singleton, State.dropStuck, rest]

theorem ctr_ne_status (n : Nat) : Reg.EMU_CTR n ≠ Reg.EMU_CTR_STATUS := by
  simp only [Reg.EMU_CTR, Reg.EMU_CTR_STATUS]
  omega

theorem markSat_ctr (c v n : Nat) : (s.markSat c v).reg (Reg.EMU_CTR n) = s.reg (Reg.EMU_CTR n) := by
  rw [State.markSat]
  split
  · rw [reg_post]
    exact reg_setReg_ne _ _ _ _ (ctr_ne_status n)
  · rfl

theorem markSat_emu (c v : Nat) : (s.markSat c v).emu = s.emu :=
  (within_markSat s c v (.refl _) (.refl _ s)).parts .emu (by decide)

/-- A counter shown outside harvest. -/
theorem showCtr_spec (h : s.emu.harvest = false) (c v : Nat) :
    (s.showCtr c v).reg (Reg.EMU_CTR c) = word v ∧ (s.showCtr c v).emu = s.emu := by
  have main : s.showCtr c v = (s.setReg (Reg.EMU_CTR c) (word v)).markSat c v := if_neg (by simp [h])
  rw [main, markSat_ctr, markSat_emu]
  exact ⟨reg_setReg_same _ _ _, rfl⟩

/-- A counter's failure recorded outside harvest. -/
theorem ctrFail_spec (h : s.emu.harvest = false) {c : Nat} (hc : c < 8) :
    (s.ctrFail c).fldBit Reg.EMU_CTR_STATUS Fld.EMU_CTR_STATUS_CTR_FAIL c = true ∧ Posted 0x9003 .heart 0 (s.ctrFail c) ∧ (s.ctrFail c).emu = s.emu := by
  have main : s.ctrFail c = (s.stickBit Reg.EMU_CTR_STATUS Fld.EMU_CTR_STATUS_CTR_FAIL c).post 0x9003 .heart 0 := if_neg (by simp [h])
  have kept : (s.ctrFail c).emu = s.emu := (within_ctrFail s c (.refl _) (.refl _ s)).parts .emu (by decide)
  refine ⟨?_, by rw [main]; exact posted_post _ _ _ _, kept⟩
  have marked : (s.stickBit Reg.EMU_CTR_STATUS Fld.EMU_CTR_STATUS_CTR_FAIL c).reg Reg.EMU_CTR_STATUS =
      (s.setFldBit Reg.EMU_CTR_STATUS Fld.EMU_CTR_STATUS_CTR_FAIL c true).reg Reg.EMU_CTR_STATUS := rfl
  rw [main, State.fldBit, fld_of_reg (reg_post _ _ _ _ _), fld_of_reg marked, State.setFldBit, fld_setFld_same _ _ _ _ (by decide),
    Nat.testBit_mod_two_pow, testBit_setBit_same]
  simp [hc]

theorem does_counterUpdate {ok : Bool} {u : CtrUpd} {l : List CtrUpd} {P : State → Prop} (hr : Running s) (hu : s.emu.updates = u :: l)
    (h : u.step ≠ 0) (hp : P ((s.cellTime u).runUpdate u ok)) : Does (.counterUpdate ok) s P := by
  refine does_done (t := (s.cellTime u).runUpdate u ok) ?_ hp
  show execCounterUpdate ok s = _
  rw [execCounterUpdate, hr.1, hr.2, hu]
  simp only [Bool.not_false, Bool.and_self, Bool.or_true, if_true, latchUpdate_begun h]

theorem spoilCell_emu (k : Nat) (cell : List Byte) : (s.spoilCell k cell).emu.updates = s.emu.updates ∧ (s.spoilCell k cell).emu.harvest = s.emu.harvest :=
  ⟨rfl, rfl⟩

/-! ### The harvest island (R373, R379) -/

theorem recoverCtrs_kept (n : Nat) : Keeps [.emu, .regs, .obs] s (State.each (State.recoverCtr false) n s) ∧
    (State.each (State.recoverCtr false) n s).emu.cell = s.emu.cell ∧ (State.each (State.recoverCtr false) n s).emu.benchEnd = s.emu.benchEnd := by
  induction n with
  | zero => exact ⟨.refl _ _, rfl, rfl⟩
  | succ n ih =>
    obtain ⟨keeps, cell, bench⟩ := ih
    have one (u : State) : Keeps [.emu, .regs, .obs] u (State.recoverCtr false n u) :=
      (within_recoverCtr false n u (.refl _) (.refl _ u)).parts.mono (by decide)
    have kept (u : State) : (State.recoverCtr false n u).emu.cell = u.emu.cell ∧ (State.recoverCtr false n u).emu.benchEnd = u.emu.benchEnd := by
      unfold State.recoverCtr
      split
      · exact ⟨rfl, rfl⟩
      · simp only [Bool.false_eq_true, if_false]
        split <;> split <;> exact ⟨rfl, rfl⟩
    exact ⟨keeps.trans (one _), (kept _).1.trans cell, (kept _).2.trans bench⟩

/-- The island started, with no bench retained. -/
def State.islandUp (s : State) (away : Nat) : State :=
  ((State.each (State.recoverCtr false) 8 s).takeCell away).emuStart.modE fun x => { x with harvest := true, field := true, absentSince := none }

theorem islandUp_spec (away : Nat) (hcell : s.emu.cell = none) (hbench : s.emu.benchEnd = none) :
    (s.islandUp away).emu.tag = .idle ∧ Keeps [.emu, .free, .regs, .obs] s (s.islandUp away) := by
  obtain ⟨u, hu⟩ : ∃ u, u = State.each (State.recoverCtr false) 8 s := ⟨_, rfl⟩
  obtain ⟨keeps, cell, bench⟩ := recoverCtrs_kept (s := s) 8
  rw [← hu, hcell] at cell
  rw [← hu, hbench] at bench
  rw [← hu] at keeps
  have taken : u.takeCell away = u.modE fun x => { x with dark := false } := by rw [State.takeCell, cell]
  have started : (u.modE fun x => { x with dark := false }).emuStart.emu.tag = .idle := by
    have held : (u.modE fun x => { x with dark := false }).emu.benchEnd = none := bench
    rw [State.emuStart, held]
    rfl
  rw [State.islandUp, ← hu, taken]
  refine ⟨started, ?_⟩
  exact (keeps.mono (by decide)).trans (((keeps_modE u _).mono (by decide)).trans
    (((within_emuStart _ (.refl _) (.refl _ _)).parts.mono (by decide)).trans ((keeps_modE _ _).mono (by decide))))

/-- Settles O46. Each command writes one cell, or starts or stops the island, in a state of its own. -/
theorem tagCountersAndHarvest : Obligations.TagCountersAndHarvest := by
  refine ⟨fun s i hr hi hu hs => ?_, fun s hr => ?_, fun s u l hr hu hs => ?_, fun s u hr hu hs hh => ?_, fun s u l hr hu hs ha => ?_,
    fun s u hr hu hs ha hh hc => ?_, fun s k away haon hh hk hb hc he => ?_, fun s hh hu hs => ?_⟩
  · refine does_running (o := execCtrInc (word (2 + 256 * i.val)) s) (t := s.queueInc i.val) rfl rfl hr ((writeEmuCmd_inc i).trans ?_) ⟨?_, ?_⟩
    · rw [State.ctrInc, if_neg hi, State.askInc, if_neg (by simp [hs])]
    · show (s.emu.updates ++ _).map _ = _
      rw [hu]
      rfl
    · exact (keeps_modE s _).mono (by decide)
  · exact does_running (o := execCtrInc 2 s) rfl rfl hr (writeEmuCmd_inc 0) rfl
  · have begun : u.step ≠ 0 := by omega
    obtain ⟨emu, after, before, keeps⟩ := cellTime_timed (s := s) begun
    refine does_counterUpdate hr hu begun ?_
    generalize s.cellTime u = t at emu after before keeps ⊢
    have written : t.runUpdate u true = (t.nvWrite (8 * (2 * u.ctr + 1)) (u.bytes (2 * u.ctr + 1))).setUpdate { u with step := 3, again := false } := by
      have cell : u.cell = 2 * u.ctr + 1 := if_neg (by omega)
      unfold State.runUpdate
      simp only [cell, if_true, if_neg (show u.step ≠ 3 by omega)]
    rw [written]
    refine ⟨?_, after, before, ?_⟩
    · have both : ((t.nvWrite (8 * (2 * u.ctr + 1)) (u.bytes (2 * u.ctr + 1))).setUpdate { u with step := 3, again := false }).emu =
          { t.emu with updates := { u with step := 3, again := false } :: t.emu.updates.tail,
                       nv := Sparse.write t.emu.nv 0xFF (8 * (2 * u.ctr + 1)) (u.bytes (2 * u.ctr + 1)) } := rfl
      rw [both, emu, hu]
      rfl
    · exact (keeps.mono (by decide)).trans ((within_setUpdate _ _ (.refl _) (within_nvWrite t _ _ (.refl _) (.refl _ t))).parts.mono (by decide))
  · have begun : u.step ≠ 0 := by omega
    obtain ⟨emu, -, -, -⟩ := cellTime_timed (s := s) begun
    refine does_counterUpdate hr hu begun ?_
    generalize s.cellTime u = t at emu ⊢
    obtain ⟨w, hw⟩ : ∃ w, w = t.nvWrite (8 * (2 * u.ctr)) (u.bytes (2 * u.ctr)) := ⟨_, rfl⟩
    have emuw : w.emu = { s.emu with nv := Sparse.write s.emu.nv 0xFF (8 * (2 * u.ctr)) (u.bytes (2 * u.ctr)) } := by
      rw [hw, ← emu]
      rfl
    obtain ⟨shown, kept⟩ := showCtr_spec (s := w) ((congrArg EmuSt.harvest emuw).trans hh) u.ctr (u.value + 1)
    have written : t.runUpdate u true = (w.showCtr u.ctr (u.value + 1)).modE fun x => { x with updates := x.updates.tail } := by
      have cell : u.cell = 2 * u.ctr := if_pos hs
      rw [← endUpdate_last (u := u) (by rw [kept, emuw]; exact hu), hw]
      unfold State.runUpdate
      simp only [cell, if_true, if_pos hs]
    rw [written]
    refine ⟨?_, shown, ?_⟩
    · show List.tail (w.showCtr u.ctr (u.value + 1)).emu.updates = []
      rw [kept, emuw]
      exact congrArg List.tail hu
    · show (w.showCtr u.ctr (u.value + 1)).emu.nv = _
      rw [kept, emuw]
      rfl
  · have begun : u.step ≠ 0 := by omega
    obtain ⟨emu, -, -, keeps⟩ := cellTime_timed (s := s) begun
    refine does_counterUpdate hr hu begun ?_
    generalize s.cellTime u = t at emu keeps ⊢
    have spoilt : t.runUpdate u false = (t.spoilCell u.cell (u.bytes u.cell)).setUpdate { u with again := true } := by
      unfold State.runUpdate
      simp only [ha, Bool.not_false, Bool.false_eq_true, if_true, if_false]
    rw [spoilt]
    refine ⟨?_, ?_⟩
    · show _ :: List.tail t.emu.updates = _
      rw [emu, hu]
      rfl
    · exact (keeps.mono (by decide)).trans ((within_setUpdate _ _ (.of (by decide)) (within_spoilCell t _ _ (.refl _) (.refl _ t))).parts.mono (by decide))
  · have begun : u.step ≠ 0 := by omega
    obtain ⟨emu, -, -, -⟩ := cellTime_timed (s := s) begun
    refine does_counterUpdate hr hu begun ?_
    generalize s.cellTime u = t at emu ⊢
    obtain ⟨w, hw⟩ : ∃ w, w = t.spoilCell u.cell (u.bytes u.cell) := ⟨_, rfl⟩
    have updates : w.emu.updates = [u] := by rw [hw, (spoilCell_emu _ _).1, emu, hu]
    have main : w.emu.harvest = false := by rw [hw, (spoilCell_emu _ _).2, emu, hh]
    obtain ⟨failed, posted, kept⟩ := ctrFail_spec main hc
    have given : t.runUpdate u false = (w.ctrFail u.ctr).modE fun x => { x with updates := x.updates.tail } := by
      rw [← endUpdate_last (u := u) (by rw [kept, updates]), hw]
      unfold State.runUpdate
      simp only [ha, Bool.not_true, Bool.false_eq_true, if_false, if_neg (show u.step ≠ 3 by omega)]
    rw [given]
    refine ⟨?_, failed, posted⟩
    show List.tail (w.ctrFail u.ctr).emu.updates = []
    rw [kept, updates]
    rfl
  · obtain ⟨idle, keeps⟩ := islandUp_spec away hc he
    refine does_done (t := s.islandUp away) ?_ ⟨rfl, idle, rfl, rfl, keeps⟩
    show execHarvestPowerUp away s = _
    unfold execHarvestPowerUp
    simp only [haon, hh, hk, hb, Bool.or_self, Bool.false_eq_true, if_false, if_true]
    rfl
  · have cut : (s.collapseUpdate).collapseSync false = s := by rw [State.collapseUpdate, hu, State.collapseSync, hs]
    refine does_done (t := s.emuDown false) ?_ ⟨?_, ?_⟩
    · show execHarvestPowerLoss s = _
      rw [execHarvestPowerLoss, if_pos hh]
    · rw [State.emuDown, cut]
      show EmuSt.mk .. = _
      simp only [Bool.not_false, Bool.or_true]
      rfl
    · rw [State.emuDown, cut]
      exact (keeps_modE s _).trans (keeps_modE _ _)

end Sys2Proof.Machine

/-! The coexistence inputs (O47): its second clause has a field-on start with the grant whatever else the grant lets start. A neighbour's frame
that has waited longer, with nothing but the grant in its way before, goes first. -/

namespace Sys2Proof.Machine

/-! ### Who goes first (R91, R92) -/

theorem allBelow_false {p : Nat → Bool} {m : Nat} (h : p m = false) : ∀ {n : Nat}, m < n → allBelow p n = false := by
  intro n hn
  induction n with
  | zero => omega
  | succ n ih =>
    rw [allBelow]
    rcases Nat.lt_succ_iff_lt_or_eq.1 hn with below | rfl
    · rw [ih below, Bool.false_and]
    · rw [h, Bool.and_false]

/-- A port whose modulation another one would make later. -/
structure Behind (s : State) (n m : Nat) (q : Part) (te : Nat) : Prop where
  keepOut : s.keepOut n m = true
  below : m < 16
  free : s.huddled m = none
  part : s.partNow m = some q
  waits : (s.pf m).dueSince = some 0
  fresh : s.isStarved m = false
  first : s.dueKey m 0 < s.dueKey n ((s.dueFrom n).getD s.time)
  alone : ∀ k, k < 16 → (decide (k ≠ n) && s.keepOut m k) = false
  window : 0 < q.win
  inside : s.time + q.span ≤ te
  startable : s.startable m = true

/-- It does not start then: what goes first has waited longer, and could start at once. -/
theorem Behind.not_turn {s : State} {n m te : Nat} {q : Part} (h : Behind s n m q te) :
    s.turnOf n te 0 ((s.dueFrom n).getD s.time) = false := by
  have due : s.dueOf m = some { since := 0, span := q.span, win := q.win } := by
    rw [State.dueOf, h.free]
    simp only [h.part, h.waits, Option.map_some, Option.getD_some]
  have none_near : (List.range 16).filter (fun k => decide (k ≠ n) && s.keepOut m k) = [] :=
    List.filter_eq_nil_iff.2 fun k hk => by simp only [h.alone k (List.mem_range.1 hk), Bool.false_eq_true, not_false_eq_true]
  have alone : s.earliest n m q.span q.win [] [] = s.time := by
    rw [State.earliest, none_near]
    rfl
  have after : s.earliest n m q.span q.win [] [(s.time, te)] = te + 1 - q.span := by
    have meets : (0 < q.win ∧ s.time ≤ s.time + q.span + q.win ∧ s.time + q.span ≤ te) := ⟨h.window, by omega, h.inside⟩
    rw [State.earliest, none_near]
    simp only [List.flatMap_nil, List.append_nil, List.length_nil, List.length_cons, earliestFrom, pushPast, List.find?_nil, List.find?_cons, meets,
      decide_true, Bool.and_self]
  have later : ¬ te + 1 - q.span ≤ s.time := by
    have := h.inside
    omega
  refine allBelow_false (m := m) ?_ h.below
  simp only [h.keepOut, due, alone, after, later, h.first, h.fresh, h.startable, Nat.le_refl, if_true, decide_true, decide_false, Bool.not_true,
    Bool.false_and, Bool.not_false, Bool.and_self, Bool.and_false, Bool.or_self]

/-! ### A state but for its time, its records of itself, its SRAM and its free values -/

/-- A state with other time, SRAM, free values and records. -/
def State.movedTo (s : State) (time : Nat) (sram : List (Nat × Byte)) (free : Nat) (obs : Obs) : State :=
  { s with time := time, sram := sram, free := free, obs := obs }

/-- Nothing but these differs. -/
def Moved (s t : State) : Prop := ∃ a b c d, t = s.movedTo a b c d

theorem Moved.of_keeps {s t : State} (h : Keeps [.time, .sram, .free, .obs] s t) : Moved s t := by
  refine ⟨t.time, t.sram, t.free, t.obs, ?_⟩
  have part (p : StatePart) (hp : p ∉ [StatePart.time, .sram, .free, .obs]) := h p hp
  cases s
  cases t
  simp only [State.movedTo, State.mk.injEq]
  exact ⟨trivial, part .regs (by decide), part .profiles (by decide), trivial, part .gen (by decide), part .pwr (by decide), part .tmr (by decide),
    part .que (by decide), part .crc (by decide), part .cfg (by decide), part .hif (by decide), part .field (by decide), part .tun (by decide),
    part .rxe (by decide), part .pro (by decide), part .sess (by decide), part .overflow (by decide), part .acd (by decide), part .quar (by decide),
    part .kpr (by decide), part .sto (by decide), part .emu (by decide), part .cox (by decide), part .saf (by decide), part .pins (by decide), trivial, trivial,
    part .pending (by decide)⟩

theorem Moved.trans {s t u : State} (h : Moved s t) (k : Moved t u) : Moved s u := by
  obtain ⟨a, b, c, d, rfl⟩ := h
  obtain ⟨a', b', c', d', rfl⟩ := k
  exact ⟨a', b', c', d', rfl⟩

theorem moved_advance (s : State) (e : Nat) : Moved s (s.advance e) := .of_keeps ((keeps_advance s e).mono (by decide))

theorem moved_free (s : State) : Moved s { s with free := s.free + 1 } := ⟨s.time, s.sram, s.free + 1, s.obs, rfl⟩

theorem moved_seenLater (s : State) : Moved s s.seenLater := (moved_free s).trans (moved_advance _ _)

theorem moved_toRfCycle (s : State) : Moved s s.toRfCycle := (moved_free s).trans (moved_advance _ _)

section
variable {s : State} {a : Nat} {b : List (Nat × Byte)} {c : Nat} {d : Obs}

/-- A frame that is due, with nothing but keep-out, grant and blanks in its way. -/
structure FrameDue (s : State) (n : Nat) (p : Plan) : Prop where
  noOff : (s.pf n).wantOff = none
  noOn : s.onDue n = false
  plan : (s.pp n).plan = some p
  ready : s.frameReady n p = true
  now : s.frameDue n p = 0

theorem FrameDue.movedTo {n : Nat} {p : Plan} (h : FrameDue s n p) : FrameDue (s.movedTo a b c d) n p := ⟨h.noOff, h.noOn, h.plan, h.ready, h.now⟩

/-- What a port starts next where that is a frame. -/
def State.framePart (s : State) (n : Nat) (f : Frame) : Part := { port := n, due := 0, span := s.frameSpan f, win := s.frameWin f, ramp := false }

theorem FrameDue.part {n : Nat} {p : Plan} (h : FrameDue s n p) : s.partNow n = some (s.framePart n p.frame) := by
  have next : s.partOf n = some (s.framePart n p.frame) := by
    unfold State.partOf
    simp only [h.noOff, h.noOn, h.plan, h.ready, h.now, Option.isSome_none, Bool.false_eq_true, if_false, if_true]
    rfl
  have idle : (s.pf n).txEnd.isNone = true ∧ (s.px n).waitEnd.isNone = true ∧ (s.px n).retryAt.isNone = true := by
    have ready := h.ready
    simp only [State.frameReady, Bool.and_eq_true] at ready
    tauto
  rw [State.partNow, next]
  simp only [State.framePart, Option.filter_some, Nat.zero_le, idle, decide_true, Bool.and_self, if_true]

/-- The synthesiser is locked, the grant there, and no blank. -/
structure Clear (s : State) (n : Nat) : Prop where
  lock : (s.flag Reg.FLD_SYN_STATUS Fld.FLD_SYN_STATUS_LOCKED && !s.flag Reg.FLD_SYN_STATUS Fld.FLD_SYN_STATUS_SETTLING) = true
  granted : s.granted = true
  noBlank : s.blankOn n = false
  noTail : s.blankTail n = 0

theorem Clear.movedTo {n : Nat} (h : Clear s n) : Clear (s.movedTo a b c d) n := ⟨h.lock, h.granted, h.noBlank, h.noTail⟩

theorem Clear.startable {n : Nat} (h : Clear s n) : s.startable n = true := by
  rw [State.startable, State.locked, h.lock, h.granted, State.blanked, h.noBlank, h.noTail]
  rfl

/-- A port that another one's frame precedes, but for the time. -/
structure Preceded (s : State) (n m : Nat) (p : Plan) : Prop where
  due : FrameDue s m p
  clear : Clear s m
  keepOut : s.keepOut n m = true
  below : m < 16
  free : s.huddled m = none
  waits : (s.pf m).dueSince = some 0
  fresh : s.isStarved m = false
  since : s.dueFrom n = some 0
  first : s.dueKey m 0 < s.dueKey n 0
  alone : ∀ k, k < 16 → (decide (k ≠ n) && s.keepOut m k) = false
  window : 0 < s.frameWin p.frame
  inside : s.frameSpan p.frame ≤ s.rampSpan n

theorem Preceded.movedTo {n m : Nat} {p : Plan} (h : Preceded s n m p) : Preceded (s.movedTo a b c d) n m p :=
  ⟨h.due.movedTo, h.clear.movedTo, h.keepOut, h.below, h.free, h.waits, h.fresh, h.since, h.first, h.alone, h.window, h.inside⟩

theorem Preceded.behind {n m : Nat} {p : Plan} (h : Preceded s n m p) : Behind s n m (s.framePart m p.frame) (s.time + s.rampSpan n) where
  keepOut := h.keepOut
  below := h.below
  free := h.free
  part := h.due.part
  waits := h.waits
  fresh := h.fresh
  first := by rw [h.since]; exact h.first
  alone := h.alone
  window := h.window
  inside := Nat.add_le_add_left h.inside _
  startable := h.clear.startable

/-- A field-on attempted behind another port's frame is left as it is. -/
theorem Preceded.tryOn {n m : Nat} {p : Plan} (h : Preceded s n m p) (hfree : s.huddled n = none) (hsyn : s.field.synRun = true)
    (hreq : s.flag Reg.COX_CTRL Fld.COX_CTRL_REQ_EN = false) (hbefore : (s.pf n).notBefore = 0) (hpast : s.settlePast = false) :
    s.tryOn n = s := by
  have start : s.startSyn = s := by rw [State.startSyn, if_pos hsyn]
  have lead : s.atLead 0 = s := by
    rw [State.atLead, State.leadEnd, hreq]
    exact if_pos (Nat.zero_le _)
  have not : s.mayModulate n (s.time + s.rampSpan n) 0 = false := by
    rw [State.mayModulate, State.keepClear, h.behind.not_turn, Bool.and_false, Bool.and_false]
  have deferred : s.defer n = s := by
    have since : (s.pf n).dueSince.isSome = true := by
      have since := h.since
      simp only [State.dueFrom, hfree] at since
      rw [since]
      rfl
    rw [State.defer, if_pos since]
  unfold State.tryOn
  simp only [hfree, Option.isSome_none, Bool.false_eq_true, if_false, hbefore, start, lead, lockPast_not s hpast, not, deferred, Bool.not_false,
    Bool.or_true, if_true, ite_self]
  split <;> rfl

end

/-! ### Two neighbours, one that waits for the grant -/

/-- A short host frame that expects an answer. -/
def askingFrame : Frame := { hostFrame with resp := true, rate := 3, win := 10, len := 1, lastBits := 7 }

/-- That frame, planned. -/
def askingPlan : Plan := { frame := askingFrame, takenAt := 0, notBefore := 0, synSince := none, synWait := 0, heldSyn := false }

/-- The registers of two readers, ports 0 and 4, with the synthesiser locked and the grant in use. -/
def readerRegs : State :=
  let s := (awakeReset.setFld Reg.COX_CTRL Fld.COX_CTRL_GRANT_EN 1).setFld (Reg.PRO_P_MODE_STATUS 0) Fld.PRO_P_MODE_STATUS_EFFECTIVE 2
  let t := (s.setFld (Reg.PRO_P_MODE_STATUS 4) Fld.PRO_P_MODE_STATUS_EFFECTIVE 2).setFld Reg.FLD_SYN_STATUS Fld.FLD_SYN_STATUS_LOCKED 1
  (t.setReg (Reg.FLD_P_AMPL 4) 100).setFld (Reg.COX_REG_CEIL 4) Fld.COX_REG_CEIL_DRIVE_CEIL 1023

/-- Port 4 is due to go on and waits for the grant; port 0, which its field would disturb, has its frame due. -/
def rivals : State :=
  let s := { readerRegs with
    gen := { readerRegs.gen with phase := .run }, field := { readerRegs.field with synRun := true, neigh := readerRegs.field.neigh.set 4 1 } }
  let t := (s.modF 0 fun x => { x with radio := .field, carrier := true, dueSince := some 0 }).modF 4 fun x =>
    { x with radio := .standby, wantOn := some 0, dueSince := some 0 }
  (t.modP 0 fun x => { x with plan := some askingPlan }).modX 4 fun x => { x with waitEnd := some 1000000 }

/-- The grant there, before it is seen. -/
def rivalsSeen : State := { rivals with cox := { rivals.cox with grant := true } }

/-- The same with the grant there, and port 4 no longer waiting for it. -/
def rivalsGranted : State := rivalsSeen.unwait 4

theorem rivals_due : FrameDue rivalsGranted 0 askingPlan := by constructor <;> decide +kernel

theorem rivals_clear : Clear rivalsGranted 0 := by constructor <;> decide +kernel

theorem rivals_preceded : Preceded rivalsGranted 4 0 askingPlan :=
  ⟨rivals_due, rivals_clear, by decide +kernel, by decide, by decide +kernel, by decide +kernel, by decide +kernel, by decide +kernel, by decide +kernel,
   by decide +kernel, by decide +kernel, by decide +kernel⟩

theorem foldl_idle {α β : Type} {f : α → β → α} {t : α} {l : List β} (h : ∀ n ∈ l, f t n = t) : l.foldl f t = t := by
  induction l with
  | nil => rfl
  | cons n l ih => rw [List.foldl_cons, h n List.mem_cons_self, ih fun m hm => h m (List.mem_cons_of_mem n hm)]

/-- Where the grant is seen with only port 4 waiting for it, and its attempt leaves things as they are. -/
theorem grantSeen_only (s : State) (hwaits : ∀ n < 16, n ≠ 4 → ((s.px n).waitEnd.isSome || (s.px n).retryAt.isSome) = false)
    (hasks : ((s.px 4).waitEnd.isSome || (s.px 4).retryAt.isSome) = true) (hoff : ∀ t, Moved (s.unwait 4) t → t.attempt 4 = t ∧ t.offWaiting = []) :
    Moved (s.unwait 4) s.grantSeen := by
  obtain ⟨u, hu, moved⟩ : ∃ u, u = (if anyBelow (fun n => (s.px n).waitEnd.isSome || (s.px n).retryAt.isSome) 16 then s.toRfCycle else s) ∧ Moved s u := by
    refine ⟨_, rfl, ?_⟩
    split
    · exact moved_toRfCycle s
    · exact .of_keeps (.refl _ s)
  obtain ⟨a, b, c, d, rfl⟩ := moved
  obtain ⟨attempted, noOff⟩ := hoff ((s.movedTo a b c d).unwait 4) ⟨a, b, c, d, rfl⟩
  have idle (t : State) (ht : ∀ n, n ≠ 4 → t.px n = s.px n) (l : List Nat) (hl : ∀ n ∈ l, n < 16 ∧ n ≠ 4) :
      l.foldl (fun t n => if (t.px n).waitEnd.isSome || (t.px n).retryAt.isSome then (t.unwait n).attempt n else t) t = t := by
    refine foldl_idle fun n hn => ?_
    obtain ⟨below, ne⟩ := hl n hn
    rw [ht n ne, hwaits n below ne]
    rfl
  have others (n : Nat) (hn : n ≠ 4) : ((s.movedTo a b c d).unwait 4).px n = s.px n := px_modX_ne _ _ _ _ hn
  refine ⟨a, b, c, d, ?_⟩
  have asks : (((s.movedTo a b c d).px 4).waitEnd.isSome || ((s.movedTo a b c d).px 4).retryAt.isSome) = true := hasks
  unfold State.grantSeen
  rw [← hu]
  dsimp only
  rw [show List.range 16 = [0, 1, 2, 3] ++ 4 :: [5, 6, 7, 8, 9, 10, 11, 12, 13, 14, 15] from rfl, List.foldl_append, List.foldl_cons,
    idle (s.movedTo a b c d) (fun _ _ => rfl) [0, 1, 2, 3] (by decide), if_pos asks, attempted,
    idle ((s.movedTo a b c d).unwait 4) others _ (by decide), State.tryOffs, noOff]
  rfl

theorem rivals_stay (t : State) (h : Moved (rivalsSeen.unwait 4) t) : t.attempt 4 = t ∧ t.offWaiting = [] := by
  obtain ⟨a, b, c, d, rfl⟩ := h
  have noPlan : (rivalsSeen.unwait 4).pp 4 = PortP.reset := by decide +kernel
  have noOff : (rivalsSeen.unwait 4).offWaiting = [] := by decide +kernel
  have free : (rivalsSeen.unwait 4).huddled 4 = none := by decide +kernel
  have syn : (rivalsSeen.unwait 4).field.synRun = true := rfl
  have req : (rivalsSeen.unwait 4).flag Reg.COX_CTRL Fld.COX_CTRL_REQ_EN = false := by decide +kernel
  have before : ((rivalsSeen.unwait 4).pf 4).notBefore = 0 := by decide +kernel
  have unsettled : (rivalsSeen.unwait 4).flag Reg.FLD_SYN_STATUS Fld.FLD_SYN_STATUS_SETTLING = false := by decide +kernel
  have preceded : Preceded (rivalsSeen.unwait 4) 4 0 askingPlan := rivals_preceded
  generalize rivalsSeen.unwait 4 = s at noPlan noOff free syn req before unsettled preceded ⊢
  have past : (s.movedTo a b c d).settlePast = false := by
    have settling : (s.movedTo a b c d).flag Reg.FLD_SYN_STATUS Fld.FLD_SYN_STATUS_SETTLING = false := unsettled
    rw [State.settlePast, settling, Bool.and_false, Bool.false_and]
  refine ⟨?_, noOff⟩
  have plan : (s.movedTo a b c d).pp 4 = PortP.reset := noPlan
  rw [State.attempt, plan]
  exact preceded.movedTo.tryOn free syn req before past

/-- The grant as it is seen: port 4's field-on waits behind port 0's frame. -/
theorem rivals_grantSeen {s : State} (h : Moved rivalsSeen s) : Moved rivalsGranted s.grantSeen := by
  have waits : ∀ n < 16, n ≠ 4 → ((rivalsSeen.px n).waitEnd.isSome || (rivalsSeen.px n).retryAt.isSome) = false := by decide +kernel
  have asks : ((rivalsSeen.px 4).waitEnd.isSome || (rivalsSeen.px 4).retryAt.isSome) = true := by decide +kernel
  have stay := rivals_stay
  rw [show rivalsGranted = rivalsSeen.unwait 4 from rfl]
  generalize rivalsSeen = g at h waits asks stay ⊢
  obtain ⟨a, b, c, d, rfl⟩ := h
  have unwaited : Moved (g.unwait 4) ((g.movedTo a b c d).unwait 4) := ⟨a, b, c, d, rfl⟩
  exact unwaited.trans (grantSeen_only _ waits asks fun t ht => stay t (unwaited.trans ht))

/-- What the change on the pin leaves, in the state before closing. -/
def State.grantTaken (s : State) : State := State.grantMoved s.seenLater (s.seenLater.setCox { s.seenLater.cox with grant := true })

theorem rivals_grantTaken : Moved rivalsGranted rivals.grantTaken := by
  have moved := moved_seenLater rivals
  have use : rivals.flag Reg.COX_CTRL Fld.COX_CTRL_GRANT_EN = true := by decide +kernel
  have away : rivals.cox.grant = false := by decide +kernel
  have seen : ∀ s, Moved { rivals with cox := { rivals.cox with grant := true } } s → Moved rivalsGranted s.grantSeen := fun s => rivals_grantSeen
  unfold State.grantTaken
  generalize rivals.seenLater = u at moved ⊢
  generalize rivals = g at moved use away seen
  obtain ⟨a, b, c, d, rfl⟩ := moved
  have before : (g.movedTo a b c d).granted = false := by
    have used : (g.movedTo a b c d).flag Reg.COX_CTRL Fld.COX_CTRL_GRANT_EN = true := use
    have gone : (g.movedTo a b c d).cox.grant = false := away
    rw [State.granted, used, gone]
    rfl
  have after : ((g.movedTo a b c d).setCox { (g.movedTo a b c d).cox with grant := true }).granted = true := Bool.or_true _
  rw [State.grantMoved, before, after]
  exact seen _ ⟨a, b, c, d, rfl⟩

theorem rivals_wants {t : State} (h : Moved rivalsGranted t) : (t.pf 4).wantOn = some 0 := by
  have wants : (rivalsGranted.pf 4).wantOn = some 0 := by decide +kernel
  generalize rivalsGranted = g at h wants
  obtain ⟨a, b, c, d, rfl⟩ := h
  exact wants

theorem exec_grantChange_rivals : exec (.grantChange true) rivals = .next (finish rivals rivals.grantTaken) := by
  have positive (t : State) (h : Moved rivals t) : t.flag Reg.COX_CTRL Fld.COX_CTRL_GRANT_POL = false := by
    have here : rivals.flag Reg.COX_CTRL Fld.COX_CTRL_GRANT_POL = false := by decide +kernel
    generalize rivals = g at h here
    obtain ⟨a, b, c, d, rfl⟩ := h
    exact here
  have running : (rivals.live && !rivals.gen.safeBoot) = true := rfl
  have mon : ¬ (rivals.pwr.awake = .reset ∨ rivals.gen.safeBoot = true) := by decide +kernel
  have late := positive _ (moved_seenLater rivals)
  show execGrantChange true rivals = _
  generalize rivals = g at running mon late ⊢
  unfold execGrantChange State.mon
  rw [if_neg mon]
  simp only [running, if_true, late]
  rfl

/-- Refutes O47, in its second clause: port 0's frame, due before, goes first once the grant is there, and port 4's field-on waits on. -/
theorem not_coexistenceInputs : ¬ Obligations.CoexistenceInputs := by
  rintro ⟨-, h, -⟩
  have said := h rivals true 4 0 ⟨by decide, rfl⟩ ⟨rfl, rfl⟩ (by decide +kernel) (by decide +kernel) (by decide +kernel) (by decide +kernel)
    (by decide +kernel) (by decide +kernel) (by decide +kernel) (by decide +kernel) (by decide +kernel) (by decide +kernel) (by decide +kernel)
    (by decide +kernel) (by decide +kernel) (by decide +kernel) (by decide +kernel) (by decide +kernel)
  obtain ⟨t, ⟨-, -, -, on, -⟩, same⟩ := said.same exec_grantChange_rivals
  have waits : (rivals.grantTaken.pf 4).wantOn = some 0 := rivals_wants rivals_grantTaken
  have kept : (t.pf 4).wantOn = (rivals.grantTaken.pf 4).wantOn := by rw [pf_of_field (same .field (by decide))]
  exact absurd (waits.symm.trans (kept.symm.trans on)) (by decide)

end Sys2Proof.Machine

/-! The regulatory lock (O48): COX_REG_LOWER and the NV write of what it lowers. -/

namespace Sys2Proof.Machine

variable (s : State)

/-- An authenticated lowering as COX has it. -/
theorem does_regLower {p : List Byte} {P : State → Prop} (hr : Running s) (ha : s.authActs 6 = some p)
    (hp : P (if !s.flag Reg.COX_REG_STATUS Fld.COX_REG_STATUS_SEALED || lowerBad p || s.lowerLoosens p then s.authRefused.post 0xA012 .heart 0
      else if s.lowerNow p = lowerValue p then s.authAccepted.authEnd
      else (s.authAccepted.setFld Reg.COX_REG_STATUS Fld.COX_REG_STATUS_NV_BUSY 1).setCox { s.cox with lower := some p })) :
    Does .coxRegLower s P :=
  does_running (o := execCoxRegLower s) rfl rfl hr (by simp only [ha]; rfl) hp

/-- A lowering on its way to NV. -/
def State.lowering (s : State) (p : List Byte) : State :=
  (s.authAccepted.setFld Reg.COX_REG_STATUS Fld.COX_REG_STATUS_NV_BUSY 1).setCox { s.cox with lower := some p }

theorem lowering_within (p : List Byte) : Within ⟨[.regs, .cox, .obs], [Reg.CFG_AUTH_STATUS, Reg.GEN_IRQ_STATUS, Reg.COX_REG_STATUS].map one, []⟩ s
    (s.lowering p) :=
  within_setCox _ _ (.of (by decide)) (within_setFld _ _ _ (.of (by decide)) ((authAccepted_within s).mono (.of (by decide))))

theorem lowering_accepted (p : List Byte) : AuthAccepted s (s.lowering p) := by
  have other (a : Nat) (ha : a ≠ Reg.COX_REG_STATUS) : (s.lowering p).reg a = s.authAccepted.reg a := by
    rw [State.lowering, (setCox_reads _ _).1]
    exact reg_setFld_ne _ _ _ _ _ ha
  exact (authAccepted_spec s).of_reg (other _ (by decide)) (other _ (by decide))

/-- The lowering's NV write over, the command with it. -/
def State.lowered (s : State) : State :=
  (s.authEnd.setFld Reg.COX_REG_STATUS Fld.COX_REG_STATUS_NV_BUSY 0).setCox { s.cox with lower := none }

theorem lowered_within : Within ⟨[.regs, .cox, .cfg], [Reg.COX_REG_STATUS].map one, []⟩ s s.lowered :=
  within_setCox _ _ (.of (by decide)) (within_setFld _ _ _ (.of (by decide)) (within_authEnd s (.of (by decide)) (.refl _ s)))

theorem lowered_busy : s.lowered.flag Reg.COX_REG_STATUS Fld.COX_REG_STATUS_NV_BUSY = false :=
  flag_setFld_same s.authEnd Reg.COX_REG_STATUS Fld.COX_REG_STATUS_NV_BUSY 0 (by decide)

/-- A lowered value in force is counted, sealed and reported. -/
def State.loweredTo (s : State) : State :=
  let t := s.bump Reg.COX_REG_STATUS Fld.COX_REG_STATUS_LOWERS
  (t.setCox { t.cox with sealed := some t.regWords }).post 0xA011 .top 0

theorem loweredTo_spec : s.loweredTo.regs = (s.bump Reg.COX_REG_STATUS Fld.COX_REG_STATUS_LOWERS).regs ∧ s.loweredTo.field = s.field ∧
    s.loweredTo.cox = { s.cox with sealed := some s.loweredTo.regWords } ∧ Posted 0xA011 .top 0 s.loweredTo :=
  ⟨rfl, rfl, rfl, posted_post _ _ _ _⟩

theorem does_regLowerNvDone {p : List Byte} {ok : Bool} {P : State → Prop} (hr : Running s) (hl : s.cox.lower = some p)
    (hp : P (if ok then (s.lowered.applyLower p).loweredTo else s.lowered)) : Does (.regLowerNvDone ok) s P :=
  does_running (o := execRegLowerNvDone ok s) rfl rfl hr (by simp only [hl]; rfl) hp

/-! ### What a lowering that R426 lets pass says -/

theorem lowerBad_ceil {p : List Byte} (hk : lowerKind p = 0) (hb : lowerBad p = false) : lowerPort p < 16 ∧ lowerValue p < 1024 := by
  simp only [lowerBad, hk, Bool.or_eq_false_iff, decide_eq_false_iff_not, if_true] at hb
  obtain ⟨⟨-, port⟩, value⟩ := hb
  omega

theorem lowerBad_duty {p : List Byte} (hk : lowerKind p = 1) (hb : lowerBad p = false) : lowerValue p < 512 := by
  simp only [lowerBad, hk, Bool.or_eq_false_iff, decide_eq_false_iff_not] at hb
  obtain ⟨-, -, value⟩ := hb
  omega

/-! ### A drive ceiling in force (R427) -/

/-- A drive ceiling in its register and on its port. -/
def State.ceiling (s : State) (n v : Nat) : State := (s.setFld (Reg.COX_REG_CEIL n) Fld.COX_REG_CEIL_DRIVE_CEIL v).lowerCeil n

/-- The codes above it marked as clamped. -/
def State.ceilingMarked (s : State) (n : Nat) : State :=
  ((s.clampCheck (Reg.FLD_P_AMPL n)).clampCheck (Reg.FLD_P_RELAY n)).clampCheck (Reg.TUN_P_SNIFF n)

theorem ceiling_marked_within (n : Nat) : Within ⟨[.regs, .obs], experts, []⟩ s (s.ceilingMarked n) :=
  within_clampCheck _ _ (.refl _) (within_clampCheck _ _ (.refl _) (within_clampCheck s _ (.refl _) (.refl _ s)))

/-- A ceiling that takes effect at once: nothing is modulated and no ramp goes on. -/
structure AtOnce (s : State) (n : Nat) : Prop where
  silent : (s.pf n).txEnd = none
  still : (s.pf n).ramp = .none

theorem AtOnce.ceiling {n v : Nat} (h : AtOnce s n) (hv : v < 1024) : s.ceiling n v =
    (s.setFld (Reg.COX_REG_CEIL n) Fld.COX_REG_CEIL_DRIVE_CEIL v).modF n fun y => { y with ceil := v } := by
  have shown : (s.setFld (Reg.COX_REG_CEIL n) Fld.COX_REG_CEIL_DRIVE_CEIL v).ceil n = v := by
    rw [State.ceil, fld_setFld_same _ _ _ _ (by decide)]
    exact Nat.mod_eq_of_lt hv
  have silent : ((s.setFld (Reg.COX_REG_CEIL n) Fld.COX_REG_CEIL_DRIVE_CEIL v).pf n).txEnd = none := h.silent
  have still : ((s.setFld (Reg.COX_REG_CEIL n) Fld.COX_REG_CEIL_DRIVE_CEIL v).pf n).ramp = .none := h.still
  unfold State.ceiling State.lowerCeil
  simp only [silent, still, shown, Ramp.goesOn, Option.isSome_none, Bool.or_self, Bool.false_eq_true, if_false]

/-- The registers of the ceilings and of the lock's status are no experts' registers. -/
theorem lock_not_expert (p : Port) : missesRegs experts (Reg.COX_REG_CEIL p) = true := by
  revert p
  decide +kernel

theorem status_not_expert : missesRegs experts Reg.COX_REG_STATUS = true := by decide +kernel

theorem ceil_ne_status (n : Nat) : Reg.COX_REG_CEIL n ≠ Reg.COX_REG_STATUS := by
  simp only [Reg.COX_REG_CEIL, Reg.COX_REG_STATUS]
  omega

/-- What a lowered ceiling leaves on its port, in its register, and in the lock's status. -/
theorem ceilingMarked_spec (p : Port) {v : Nat} (h : AtOnce s p) (hv : v < 1024) :
    ((s.ceiling p v).ceilingMarked p).fld (Reg.COX_REG_CEIL p) Fld.COX_REG_CEIL_DRIVE_CEIL = v ∧
      (((s.ceiling p v).ceilingMarked p).pf p).ceil = v ∧
      ((s.ceiling p v).ceilingMarked p).reg Reg.COX_REG_STATUS = s.reg Reg.COX_REG_STATUS ∧
      ((s.ceiling p v).ceilingMarked p).cox = s.cox ∧ FieldOf p s ((s.ceiling p v).ceilingMarked p) := by
  have within := ceiling_marked_within (s.ceiling p v) p
  obtain ⟨u, hu⟩ : ∃ u, u = s.setFld (Reg.COX_REG_CEIL p) Fld.COX_REG_CEIL_DRIVE_CEIL v := ⟨_, rfl⟩
  have value : u.fld (Reg.COX_REG_CEIL p) Fld.COX_REG_CEIL_DRIVE_CEIL = v := by
    rw [hu, fld_setFld_same _ _ _ _ (by decide)]
    exact Nat.mod_eq_of_lt hv
  have status : u.reg Reg.COX_REG_STATUS = s.reg Reg.COX_REG_STATUS := by
    rw [hu]
    exact reg_setFld_ne _ _ _ _ _ (ceil_ne_status p).symm
  have field : u.field = s.field := by rw [hu]; rfl
  have cox : u.cox = s.cox := by rw [hu]; rfl
  rw [AtOnce.ceiling s h hv, ← hu] at within ⊢
  generalize (u.modF p fun y => { y with ceil := v }).ceilingMarked p = t at within ⊢
  have fieldT : t.field = (u.modF p fun y => { y with ceil := v }).field := within.parts .field (by decide)
  refine ⟨?_, ?_, ?_, ?_, ?_⟩
  · rw [fld_of_reg (within.reg_of_misses _ (lock_not_expert p))]
    exact value
  · rw [pf_of_field fieldT, pf_modF_same]
  · rw [within.reg_of_misses _ status_not_expert]
    exact status
  · rw [show t.cox = (u.modF p fun y => { y with ceil := v }).cox from within.parts .cox (by decide)]
    exact cox
  · exact ((FieldOf.of_field field).trans (fieldOf_modF u p _)).trans (.of_field fieldT)

/-- The count of lowerings and NV_BUSY, which share a register. -/
theorem loweredTo_status {t : State} (h : t.reg Reg.COX_REG_STATUS = s.lowered.reg Reg.COX_REG_STATUS) :
    t.loweredTo.fld Reg.COX_REG_STATUS Fld.COX_REG_STATUS_LOWERS =
      satAdd 65535 (s.fld Reg.COX_REG_STATUS Fld.COX_REG_STATUS_LOWERS) 1 ∧
      t.loweredTo.flag Reg.COX_REG_STATUS Fld.COX_REG_STATUS_NV_BUSY = false := by
  have regs : t.loweredTo.regs = (t.bump Reg.COX_REG_STATUS Fld.COX_REG_STATUS_LOWERS).regs := (loweredTo_spec t).1
  have lowers : s.lowered.fld Reg.COX_REG_STATUS Fld.COX_REG_STATUS_LOWERS = s.fld Reg.COX_REG_STATUS Fld.COX_REG_STATUS_LOWERS :=
    fld_setFld_other s.authEnd _ _ _ _ (by decide) (by decide)
  constructor
  · rw [fld_of_regs regs, fld_bump16 _ _ _ rfl (by decide), fld_of_reg h, lowers]
  · have other : (t.bump Reg.COX_REG_STATUS Fld.COX_REG_STATUS_LOWERS).fld Reg.COX_REG_STATUS Fld.COX_REG_STATUS_NV_BUSY =
        t.fld Reg.COX_REG_STATUS Fld.COX_REG_STATUS_NV_BUSY := fld_setFld_other _ _ _ _ _ (by decide) (by decide)
    rw [State.flag, fld_of_regs regs, other, fld_of_reg h]
    exact lowered_busy s

/-! ### A duty ceiling in force -/

/-- A duty ceiling in its registers. -/
def State.dutyCeiling (s : State) (v : Nat) : State :=
  (s.setFld Reg.COX_REG_GLOBAL Fld.COX_REG_GLOBAL_DUTY_CEIL v).setFld Reg.FLD_DUTY Fld.FLD_DUTY_CEIL_EFF v

theorem dutyCeiling_spec {v : Nat} (hv : v < 512) : (s.dutyCeiling v).fld Reg.COX_REG_GLOBAL Fld.COX_REG_GLOBAL_DUTY_CEIL = v ∧
    (s.dutyCeiling v).fld Reg.FLD_DUTY Fld.FLD_DUTY_CEIL_EFF = v ∧
    Within ⟨[.regs], [Reg.COX_REG_GLOBAL, Reg.FLD_DUTY].map one, []⟩ s (s.dutyCeiling v) := by
  refine ⟨?_, ?_, within_setFld _ _ _ (.of (by decide)) (within_setFld _ _ _ (.of (by decide)) (.refl _ s))⟩
  · rw [State.dutyCeiling, fld_setFld_ne _ _ _ _ _ _ (by decide), fld_setFld_same _ _ _ _ (by decide)]
    exact Nat.mod_eq_of_lt hv
  · rw [State.dutyCeiling, fld_setFld_same _ _ _ _ (by decide)]
    exact Nat.mod_eq_of_lt hv

theorem loweredTo_within {c : Scope} (h : Scope.Le ⟨[.regs, .cox, .obs], [one Reg.COX_REG_STATUS], []⟩ c) {r : State} {t : State} (k : Within c r t) :
    Within c r t.loweredTo :=
  within_post (Scope.Le.trans (by decide) h) (within_setCox _ _ (Scope.Le.trans (by decide) h)
    (within_bump Reg.COX_REG_STATUS _ (Scope.Le.trans (by decide) h) k)) _ _ _

/-- Settles O48. Refused, accepted and over, on its way to NV, not verified and in force are one state each. -/
theorem regulatoryLowerings : Obligations.RegulatoryLowerings := by
  refine ⟨fun s p hr ha hb => ?_, fun s p hr ha hs hb hl hn => ?_, fun s p hr ha hs hb hl hn => ?_, fun s p hr hl => ?_,
    fun s p hr hl hk hb ht hramp => ?_, fun s p hr hl hk hb => ?_⟩
  · refine does_regLower s hr ha ?_
    have refused : (!s.flag Reg.COX_REG_STATUS Fld.COX_REG_STATUS_SEALED || lowerBad p || s.lowerLoosens p) = true := by
      rcases hb with h | h | h <;> simp [h]
    rw [if_pos refused]
    have within := within_post (.of (by decide)) (authRefused_within s) 0xA012 .heart 0
    exact ⟨authRefused_spec s, posted_post _ _ _ _, within.regsBut, within.parts⟩
  · refine does_regLower s hr ha ?_
    rw [hs, hb, hl, if_neg (by decide), if_pos hn]
    have within : Within ⟨[.regs, .cfg, .obs], [Reg.CFG_AUTH_STATUS, Reg.GEN_IRQ_STATUS].map one, []⟩ s s.authAccepted.authEnd :=
      within_authEnd _ (.of (by decide)) ((authAccepted_within s).mono (.of (by decide)))
    refine ⟨(authAccepted_spec s).of_reg rfl rfl, rfl, ?_, within.regsBut, within.parts⟩
    have counter : (match s.cfg.auth with | some a => a.counter | none => 0) = (s.cfg.auth.map (·.counter)).getD 0 := by
      cases s.cfg.auth <;> rfl
    rw [← counter]
    rfl
  · refine does_regLower s hr ha ?_
    rw [hs, hb, hl, if_neg (by decide), if_neg hn]
    refine ⟨lowering_accepted s p, ?_, rfl, (lowering_within s p).regsBut, (lowering_within s p).parts⟩
    exact flag_setFld_same s.authAccepted Reg.COX_REG_STATUS Fld.COX_REG_STATUS_NV_BUSY 1 (by decide)
  · exact does_regLowerNvDone s hr hl ⟨lowered_busy s, rfl, rfl, (lowered_within s).regsBut, (lowered_within s).parts⟩
  · refine does_regLowerNvDone s hr hl ?_
    obtain ⟨port, value⟩ := lowerBad_ceil hk hb
    have once : AtOnce s.lowered (lowerPort p) := ⟨ht, hramp⟩
    have applied : s.lowered.applyLower p = (s.lowered.ceiling (lowerPort p) (lowerValue p)).ceilingMarked (lowerPort p) := by
      rw [State.applyLower, hk]
      rfl
    obtain ⟨shown, force, status, cox, others⟩ := ceilingMarked_spec s.lowered ⟨lowerPort p, port⟩ once value
    rw [if_pos rfl, applied]
    generalize (s.lowered.ceiling (lowerPort p) (lowerValue p)).ceilingMarked (lowerPort p) = t at shown force status cox others ⊢
    obtain ⟨regs, field, sealed, posted⟩ := loweredTo_spec t
    obtain ⟨count, busy⟩ := loweredTo_status s status
    have ceil : (t.bump Reg.COX_REG_STATUS Fld.COX_REG_STATUS_LOWERS).fld (Reg.COX_REG_CEIL (lowerPort p)) Fld.COX_REG_CEIL_DRIVE_CEIL =
        t.fld (Reg.COX_REG_CEIL (lowerPort p)) Fld.COX_REG_CEIL_DRIVE_CEIL := fld_setFld_ne _ _ _ _ _ _ (ceil_ne_status _)
    refine ⟨?_, ?_, count, busy, sealed.trans (by rw [cox]; rfl), posted, ?_⟩
    · rw [fld_of_regs regs, ceil]
      exact shown
    · rw [pf_of_field field]
      exact force
    · exact ((FieldOf.of_field rfl).trans others).trans (.of_field field)
  · refine does_regLowerNvDone s hr hl ?_
    have value := lowerBad_duty hk hb
    have applied : s.lowered.applyLower p = s.lowered.dutyCeiling (lowerValue p) := by
      rw [State.applyLower, hk]
      rfl
    obtain ⟨duty, eff, within⟩ := dutyCeiling_spec s.lowered value
    have cox : (s.lowered.dutyCeiling (lowerValue p)).cox = { s.cox with lower := none } := rfl
    have whole : Within ⟨[.regs, .cox, .cfg, .obs], [Reg.COX_REG_STATUS, Reg.COX_REG_GLOBAL, Reg.FLD_DUTY].map one, []⟩ s
        (s.lowered.dutyCeiling (lowerValue p)).loweredTo :=
      loweredTo_within (.of (by decide)) (((lowered_within s).mono (.of (by decide))).trans (within.mono (.of (by decide))))
    rw [if_pos rfl, applied]
    generalize s.lowered.dutyCeiling (lowerValue p) = t at duty eff cox whole ⊢
    obtain ⟨regs, -, sealed, posted⟩ := loweredTo_spec t
    refine ⟨?_, ?_, sealed.trans (by rw [cox]), posted, whole.regsBut, whole.parts⟩
    · rw [fld_of_regs regs]
      exact (fld_setFld_ne t _ _ _ _ _ (by decide)).trans duty
    · rw [fld_of_regs regs]
      exact (fld_setFld_ne t _ _ _ _ _ (by decide)).trans eff

end Sys2Proof.Machine

/-! The safety monitors (O49): what a trip leaves, the detectors, an injection. -/

namespace Sys2Proof.Machine

variable (s : State)

/-! ### A trip (R414, R416, R418) -/

/-- Nothing has failed so far. -/
structure NotTripped (s : State) : Prop where
  safe : s.saf.safe = false
  first : s.fld Reg.SAF_FIRST Fld.SAF_FIRST_CODE = 0

variable {s}

theorem NotTripped.of_same {t : State} (h : NotTripped s) (hs : t.saf = s.saf) (hr : ∀ f, t.fld Reg.SAF_FIRST f = s.fld Reg.SAF_FIRST f) :
    NotTripped t := ⟨by rw [hs]; exact h.safe, (hr _).trans h.first⟩

/-- A code noted among the faults. -/
def State.codeNoted (s : State) (code : Nat) : State :=
  if code = 10 then s.setFld Reg.SAF_FAULT Fld.SAF_FAULT_STOP 1 else s.setFldBit Reg.SAF_FAULT Fld.SAF_FAULT_CODES (code - 1) true

/-- Its port or lane. -/
def State.placeNoted (s : State) (code w : Nat) : State :=
  if code = 1 ∨ code = 2 then s.setFldBit Reg.SAF_FAULT_WHERE Fld.SAF_FAULT_WHERE_PORTS w true
  else if code = 3 then s.setFldBit Reg.SAF_FAULT_WHERE Fld.SAF_FAULT_WHERE_LANES w true
  else s

/-- The place of a code that has one. -/
def placeOf (code w : Nat) : Nat := if code ≤ 3 then w else 0

/-- The registers of a first failure. -/
def State.firstNoted (s : State) (code w : Nat) : State :=
  (((s.codeNoted code).placeNoted code w).setReg Reg.SAF_FIRST (packF [(Fld.SAF_FIRST_CODE, code), (Fld.SAF_FIRST_WHERE, w)])).setFld
    Reg.SAF_STATUS Fld.SAF_STATUS_FAULT_OUT 1

theorem codeNoted_saf (code : Nat) : (s.codeNoted code).saf = s.saf := by
  rw [State.codeNoted]
  split <;> rfl

theorem placeNoted_saf (code w : Nat) : (s.placeNoted code w).saf = s.saf := by
  rw [State.placeNoted]
  split
  · rfl
  · split <;> rfl

theorem trip_eq (h : NotTripped s) (code wher : Nat) : s.trip code wher = (s.firstNoted code (placeOf code wher)).setSaf
    { s.saf with safe := true, unseen := some (code, placeOf code wher), tripAt := s.time } := by
  have rep : s.firstReplaced code (if code ≤ 3 then wher else 0) = true := by
    rw [State.firstReplaced, h.first]
    rfl
  have saf : (s.firstNoted code (placeOf code wher)).saf = s.saf :=
    (placeNoted_saf _ _).trans (codeNoted_saf _)
  have safe : s.saf.safe = false := h.safe
  rw [← saf]
  unfold State.trip
  simp only [rep, safe, if_true, Bool.false_eq_true, if_false]
  rfl

theorem codeNoted_reg (code : Nat) {a : Nat} (ha : a ≠ Reg.SAF_FAULT) : (s.codeNoted code).reg a = s.reg a := by
  rw [State.codeNoted]
  split <;> exact reg_setReg_ne _ _ _ _ ha

theorem placeNoted_reg (code w : Nat) {a : Nat} (ha : a ≠ Reg.SAF_FAULT_WHERE) : (s.placeNoted code w).reg a = s.reg a := by
  rw [State.placeNoted]
  split
  · exact reg_setReg_ne _ _ _ _ ha
  · split
    · exact reg_setReg_ne _ _ _ _ ha
    · rfl

/-- The registers that a first failure writes, each as it is left. -/
theorem firstNoted_reg (code w : Nat) :
    (s.firstNoted code w).reg Reg.SAF_FAULT = (s.codeNoted code).reg Reg.SAF_FAULT ∧
      (s.firstNoted code w).reg Reg.SAF_FAULT_WHERE = ((s.codeNoted code).placeNoted code w).reg Reg.SAF_FAULT_WHERE ∧
      (s.firstNoted code w).reg Reg.SAF_FIRST = packF [(Fld.SAF_FIRST_CODE, code), (Fld.SAF_FIRST_WHERE, w)] ∧
      (s.firstNoted code w).reg Reg.SAF_STATUS = Fld.SAF_STATUS_FAULT_OUT.set (s.reg Reg.SAF_STATUS) 1 := by
  unfold State.firstNoted State.setFld
  refine ⟨?_, ?_, ?_, ?_⟩
  · rw [reg_setReg_ne _ _ _ _ (by decide), reg_setReg_ne _ _ _ _ (by decide), placeNoted_reg _ _ (by decide)]
  · rw [reg_setReg_ne _ _ _ _ (by decide), reg_setReg_ne _ _ _ _ (by decide)]
  · rw [reg_setReg_ne _ _ _ _ (by decide), reg_setReg_same]
  · rw [reg_setReg_same, reg_setReg_ne _ _ _ _ (by decide), placeNoted_reg _ _ (by decide), codeNoted_reg _ (by decide)]

/-- A bit of a field set. -/
theorem fldBit_setFldBit_same (s : State) (a : Nat) (f : Field) {i : Nat} (h : f.lo + f.width ≤ 32) (hi : i < f.width) :
    (s.setFldBit a f i true).fldBit a f i = true := by
  rw [State.fldBit, State.setFldBit, fld_setFld_same _ _ _ _ h, Nat.testBit_mod_two_pow, testBit_setBit_same, decide_eq_true hi]
  rfl

theorem fldBit_of_reg {t : State} {a : Nat} (h : t.reg a = s.reg a) (f : Field) (i : Nat) : t.fldBit a f i = s.fldBit a f i := by
  rw [State.fldBit, State.fldBit, fld_of_reg h]

/-- What a first failure of a code up to 9 leaves. -/
structure Tripped (code w : Nat) (s t : State) : Prop where
  saf : t.saf = { s.saf with safe := true, unseen := some (code, placeOf code w), tripAt := s.time }
  fault : t.fldBit Reg.SAF_FAULT Fld.SAF_FAULT_CODES (code - 1) = true
  first : t.reg Reg.SAF_FIRST = packF [(Fld.SAF_FIRST_CODE, code), (Fld.SAF_FIRST_WHERE, placeOf code w)]
  status : t.reg Reg.SAF_STATUS = Fld.SAF_STATUS_FAULT_OUT.set (s.reg Reg.SAF_STATUS) 1
  within : Within ⟨[.regs, .saf], [Reg.SAF_FAULT, Reg.SAF_FAULT_WHERE, Reg.SAF_FIRST, Reg.SAF_STATUS].map one, []⟩ s t
  ports : (code = 1 ∨ code = 2) → w < 16 → t.fldBit Reg.SAF_FAULT_WHERE Fld.SAF_FAULT_WHERE_PORTS w = true
  lanes : code = 3 → w < 16 → t.fldBit Reg.SAF_FAULT_WHERE Fld.SAF_FAULT_WHERE_LANES w = true
  plain : 3 < code → Within ⟨[.regs, .saf], [Reg.SAF_FAULT, Reg.SAF_FIRST, Reg.SAF_STATUS].map one, []⟩ s t

theorem placeNoted_port {code w : Nat} (hc : code = 1 ∨ code = 2) (hw : w < 16) :
    (s.placeNoted code w).fldBit Reg.SAF_FAULT_WHERE Fld.SAF_FAULT_WHERE_PORTS w = true := by
  rw [State.placeNoted, if_pos hc]
  exact fldBit_setFldBit_same _ _ _ (by decide) hw

theorem placeNoted_lane {w : Nat} (hw : w < 16) : (s.placeNoted 3 w).fldBit Reg.SAF_FAULT_WHERE Fld.SAF_FAULT_WHERE_LANES w = true :=
  fldBit_setFldBit_same _ _ _ (by decide) hw

theorem codeNoted_code {code : Nat} (h1 : 1 ≤ code) (h9 : code ≤ 9) :
    (s.codeNoted code).fldBit Reg.SAF_FAULT Fld.SAF_FAULT_CODES (code - 1) = true := by
  rw [State.codeNoted, if_neg (by omega)]
  exact fldBit_setFldBit_same _ _ _ (by decide) (show code - 1 < 9 by omega)

theorem within_codeNoted (code : Nat) : Within ⟨[.regs], [one Reg.SAF_FAULT], []⟩ s (s.codeNoted code) := by
  rw [State.codeNoted]
  split
  · exact within_setFld _ _ _ (.refl _) (.refl _ s)
  · exact within_setFldBit _ _ _ _ (.refl _) (.refl _ s)

/-- A code that has no place leaves FAULT_WHERE alone. -/
theorem within_firstNoted (code w : Nat) (h : 3 < code) :
    Within ⟨[.regs], [Reg.SAF_FAULT, Reg.SAF_FIRST, Reg.SAF_STATUS].map one, []⟩ s (s.firstNoted code w) := by
  have place : (s.codeNoted code).placeNoted code w = s.codeNoted code := by rw [State.placeNoted, if_neg (by omega), if_neg (by omega)]
  rw [State.firstNoted, place]
  exact within_setFld _ _ _ (.of (by decide)) (within_setReg _ _ (.of (by decide)) ((within_codeNoted code).mono (.of (by decide))))

theorem trip_tripped (h : NotTripped s) {code : Nat} (h1 : 1 ≤ code) (h9 : code ≤ 9) (w : Nat) : Tripped code w s (s.trip code w) := by
  obtain ⟨fault, place, first, status⟩ := firstNoted_reg (s := s) code (placeOf code w)
  have whole : Within ⟨[.regs, .saf], faultRegs, []⟩ s (s.trip code w) := within_trip s code w (.refl _) (.refl _ s)
  have at3 (h3 : code ≤ 3) : placeOf code w = w := if_pos h3
  rw [trip_eq h] at whole ⊢
  refine ⟨rfl, ?_, first, status, whole, fun hc hw => ?_, fun hc hw => ?_, fun h3 => ?_⟩
  · exact (fldBit_of_reg fault _ _).trans (codeNoted_code h1 h9)
  · refine (fldBit_of_reg place _ _).trans ?_
    rw [at3 (by omega)]
    exact placeNoted_port hc hw
  · refine (fldBit_of_reg place _ _).trans ?_
    rw [at3 (by omega), hc]
    exact placeNoted_lane hw
  · exact within_setSaf _ _ (.of (by decide)) ((within_firstNoted code _ h3).mono (.of (by decide)))

section
variable {code w : Nat} {t : State}

theorem Tripped.out (h : Tripped code w s t) : t.flag Reg.SAF_STATUS Fld.SAF_STATUS_FAULT_OUT = true := by
  rw [State.flag, State.fld, h.status, Field.get_set_same _ _ _ (by decide)]
  rfl

theorem Tripped.status_other (h : Tripped code w s t) (f : Field) (hf : f.lo + f.width ≤ 32) (hd : f.lo + f.width ≤ 2 ∨ 3 ≤ f.lo) :
    t.flag Reg.SAF_STATUS f = s.flag Reg.SAF_STATUS f := by
  rw [State.flag, State.flag, State.fld, State.fld, h.status, Field.get_set_other _ _ _ _ hf hd]

/-- A trip after time has passed. -/
theorem Tripped.passes {u : State} {e : Nat} (h : Tripped code w (u.advance e) t) : Passes e [.regs, .saf] u t :=
  Passes.of_within h.within (by decide) (by decide) (by decide)

end

/-- What has not failed has not failed after a while. -/
theorem NotTripped.advance (h : NotTripped s) (e : Nat) : NotTripped (s.advance e) :=
  h.of_same (keeps_advance s e .saf (by decide)) fun f => (advance_reads s e).2.1 _ f

/-! ### Detectors (R404, R421) -/

theorem detect_genuine {code w : Nat} (h : s.injected code w = none) : s.detect code w true = s.trip code w := by
  unfold State.detect
  simp only [h, if_true]

theorem detect_nothing {code w : Nat} (h : s.injected code w = none) : s.detect code w false = s := by
  unfold State.detect
  simp only [h, Bool.false_eq_true, if_false]

theorem injected_of_saf {t : State} (h : t.saf = s.saf) (code w : Nat) : t.injected code w = s.injected code w := by
  rw [State.injected, State.injected, h]

theorem injected_advance (e code w : Nat) : (s.advance e).injected code w = s.injected code w :=
  injected_of_saf (keeps_advance s e .saf (by decide)) code w

/-- An injection without TRIP, seen. -/
def State.injectionSeen (s : State) (x : Inject) : State :=
  (s.setReg Reg.SAF_INJ_STATUS (packF [(Fld.SAF_INJ_STATUS_DET_US, min 65535 ((s.time - x.since) / usec)), (Fld.SAF_INJ_STATUS_SEEN, 1)])).setSaf
    { s.saf with inject := none }

theorem detect_injected {code w : Nat} {x : Inject} (h : s.injected code w = some x) (ht : x.trip = false) :
    s.detect code w false = (s.advance (x.since + s.filterTime code)).injectionSeen x := by
  unfold State.detect State.seeInjected
  simp only [h, ht, Bool.false_eq_true, if_false]
  rfl

theorem injectionSeen_spec (x : Inject) :
    (s.injectionSeen x).saf = { s.saf with inject := none } ∧
      (s.injectionSeen x).flag Reg.SAF_INJ_STATUS Fld.SAF_INJ_STATUS_SEEN = true ∧
      (s.injectionSeen x).fld Reg.SAF_INJ_STATUS Fld.SAF_INJ_STATUS_DET_US = min 65535 ((s.time - x.since) / usec) ∧
      Within ⟨[.regs, .saf], [Reg.SAF_INJ_STATUS].map one, []⟩ s (s.injectionSeen x) := by
  have reg : (s.injectionSeen x).reg Reg.SAF_INJ_STATUS =
      packF [(Fld.SAF_INJ_STATUS_DET_US, min 65535 ((s.time - x.since) / usec)), (Fld.SAF_INJ_STATUS_SEEN, 1)] := reg_setReg_same _ _ _
  refine ⟨rfl, ?_, ?_, within_setSaf _ _ (.of (by decide)) (within_setReg _ _ (.of (by decide)) (.refl _ s))⟩
  · rw [State.flag, State.fld, reg, packF_tail, packF_head]
    rfl
  · rw [State.fld, reg, packF_head]
    exact Nat.mod_eq_of_lt (show min 65535 _ < 65536 by omega)

end Sys2Proof.Machine

/-! The safety monitors (O49): what CORE ends as it takes up SAFE, and TEST entered. -/

namespace Sys2Proof.Machine

variable {s : State}

/-! ### Events posted so far stay posted -/

theorem staysPosted_postCount (w : Window) (n : Nat) : StaysPosted s (s.postCount w n) := List.subset_append_left _ _

theorem staysPosted_closeWin (w : Window) : StaysPosted s (s.closeWin w) := by
  unfold State.closeWin
  exact .ite (.of_posted rfl) (StaysPosted.trans (.of_posted rfl) (staysPosted_postCount _ _))

theorem staysPosted_postLimited (c sc : Nat) (k : Note) (f : ArgForm) (a : Word) (l : Nat) : StaysPosted s (s.postLimited c sc k f a l) := by
  have set (u : State) (ws : List Window) : StaysPosted u (u.setWins ws) := .of_posted rfl
  have fresh (u : State) (ws : List Window) (w : Window) : StaysPosted u ((u.setWins ws).postCount w 1) :=
    (set u ws).trans (staysPosted_postCount _ _)
  unfold State.postLimited
  extract_lets u w
  have closed : StaysPosted s u := by
    unfold u
    split
    · exact .ite (staysPosted_closeWin _) (.of_posted rfl)
    · exact .of_posted rfl
  refine closed.trans ?_
  split
  · exact .ite (set _ _) (fresh _ _ _)
  · exact fresh _ _ _

theorem staysPosted_setPqX (n : Nat) (q : PortQ) : StaysPosted s (s.setPqX n q) := by
  unfold State.setPqX State.crossWm
  refine .of_posted ?_
  dsimp only
  split <;> split <;> rfl

theorem staysPosted_pushRxs (n : Nat) (ws : List Word) : ∀ s : State, StaysPosted s (s.pushRxs n ws).1 := by
  induction ws with
  | nil => exact fun _ => .of_posted rfl
  | cons w ws ih =>
    intro s
    rw [State.pushRxs]
    split
    · exact (staysPosted_setPqX _ _).trans (ih _)
    · exact .of_posted rfl

theorem staysPosted_modP (n : Nat) (f : PortP → PortP) : StaysPosted s (s.modP n f) := .of_posted rfl

theorem staysPosted_drainStaged (n : Nat) (l : List (List Word)) : ∀ (s : State) (part : Bool), StaysPosted s (s.drainStaged n part l) := by
  induction l with
  | nil => exact fun _ _ => staysPosted_modP _ _
  | cons ws l ih =>
    intro s part
    rw [State.drainStaged]
    split
    · exact (staysPosted_pushRxs n ws s).trans (ih _ _)
    · exact (staysPosted_pushRxs n ws s).trans (staysPosted_modP _ _)

theorem staysPosted_defer (n : Nat) : StaysPosted s (s.defer n) := .ite (.of_obs rfl) (staysPosted_modF _ _ _)

theorem staysPosted_tryOffs : StaysPosted s s.tryOffs :=
  .foldl (fun _ _ => .ite (staysPosted_startOff _ _ _) (.ite (staysPosted_defer _) (.of_obs rfl))) _ _

theorem staysPosted_returnState (n : Nat) : StaysPosted s (s.returnState n) := by
  have off (f : PortF → PortF) : StaysPosted s ((s.modF n f).askOff n) := (staysPosted_modF _ _ _).trans (staysPosted_askOff _ _)
  unfold State.returnState
  refine .ite (staysPosted_modF _ _ _) (.ite (staysPosted_modF _ _ _) (.ite ?_ (.ite (off _) (.ite (off _) (.ite (off _) (staysPosted_modF _ _ _))))))
  exact (staysPosted_modF _ _ _).trans (staysPosted_startOff _ _ _)

/-! ### What is cut of the exchanges -/

/-- The registers and parts that the end of an exchange writes where no list runs. -/
def cutScope : Scope :=
  ⟨[.regs, .que, .field, .rxe, .pro, .acd, .cox, .obs], [each Reg.RXE_P_COUNTS 16, each Reg.RXE_P_AFC 16] ++ exchangeRegs ++ lastRegs, []⟩

/-- Exchanges cut: events stay posted, and no port takes a job. -/
structure CutAway (s t : State) : Prop where
  within : Within cutScope s t
  posted : StaysPosted s t
  jobs : ∀ n : Port, (t.pp n).job = (s.pp n).job

theorem CutAway.refl (s : State) : CutAway s s := ⟨.refl _ s, .of_obs rfl, fun _ => rfl⟩

theorem CutAway.trans {t u : State} (h : CutAway s t) (k : CutAway t u) : CutAway s u :=
  ⟨h.within.trans k.within, h.posted.trans k.posted, fun n => (k.jobs n).trans (h.jobs n)⟩

theorem CutAway.ite {t u : State} {c : Prop} [Decidable c] (h : CutAway s t) (k : CutAway s u) : CutAway s (if c then t else u) := by
  split
  · exact h
  · exact k

/-- A change of other parts than PRO's. -/
theorem CutAway.of_within {t : State} {c : Scope} (h : Within c s t) (hc : c.le cutScope = true) (hp : .pro ∉ c.parts) (posted : StaysPosted s t) :
    CutAway s t := ⟨h.mono (Scope.Le.of hc), posted, fun _ => by rw [pp_of_pro (h.parts .pro hp)]⟩

theorem CutAway.of_modP (n : Nat) (f : PortP → PortP) (hf : ∀ x, (f x).job = x.job := by intro; rfl) : CutAway s (s.modP n f) :=
  ⟨(within_modP s n f (.refl _) (.refl _ s)).mono (.of (by decide)), staysPosted_modP n f, fun m => vget_vmod_of s.pro PortP.reset n m f PortP.job hf⟩

theorem cutAway_rxIdle (n : Nat) : CutAway s (s.rxIdle n) :=
  .of_within (within_rxIdle s n (.refl _) (.refl _ s)) (by decide) (by decide) (.of_obs rfl)

theorem cutAway_returnState (n : Nat) : CutAway s (s.returnState n) :=
  .of_within (within_returnState s n (.refl _) (.refl _ s)) (by decide) (by decide) (staysPosted_returnState n)

theorem cutAway_endListen (n : Nat) : CutAway s (s.endListen n) :=
  have within := within_endListen s n (.refl _) (.refl _ s)
  .of_within within (by decide) (by decide) (.of_within within (by decide))

theorem cutAway_tryOffs : CutAway s s.tryOffs :=
  .of_within (within_tryOffs s (.refl _) (.refl _ s)) (by decide) (by decide) staysPosted_tryOffs

theorem cutAway_falseLock (n : Nat) : CutAway s (s.falseLock n) :=
  have bumped : StaysPosted s (s.bump (Reg.RXE_P_COUNTS n) Fld.RXE_P_COUNTS_FALSE_LOCKS) := .of_obs rfl
  .of_within (within_falseLock s n (.refl _) (.refl _ s)) (by decide) (by decide) (bumped.trans (staysPosted_postLimited _ _ _ _ _ _))

theorem cutAway_noteRx (n ending : Nat) (clip : Bool) (r0 r1 r2 : Word) : CutAway s (s.noteRx n ending clip r0 r1 r2) := by
  refine .of_within (within_noteRx s n ending clip r0 r1 r2 (.refl _) (.refl _ s)) (by decide) (by decide) ?_
  unfold State.noteRx
  extract_lets u v
  have counted : StaysPosted s v := .ite (.of_posted rfl) (.of_posted rfl)
  exact .ite (counted.trans (staysPosted_postLimited _ _ _ _ _ _)) counted

theorem cutAway_modPoll (n : Nat) (f : AccPoll → AccPoll) : CutAway s (s.modPoll n f) :=
  .of_within (within_modPoll s n f (.refl _) (.refl _ s)) (by decide) (by decide) (.of_obs rfl)

theorem cutAway_released (n : Nat) (f : Frame) (res : Nat) : CutAway s (s.released n f res) :=
  have within := within_released s n f res (.refl _) (.refl _ s)
  .of_within within (by decide) (by decide) (.of_within within (by decide))

theorem cutAway_modF (n : Nat) (f : PortF → PortF) : CutAway s (s.modF n f) :=
  .of_within (within_modF s n f (.refl _) (.refl _ s)) (by decide) (by decide) (.of_obs rfl)

theorem cutAway_modX (n : Nat) (f : PortX → PortX) : CutAway s (s.modX n f) :=
  .of_within (within_modX s n f (.refl _) (.refl _ s)) (by decide) (by decide) (.of_obs rfl)

theorem StagedOnly.job {p : Port} {t : State} (h : StagedOnly p s t) (m : Port) : (t.pp m).job = (s.pp m).job := by
  obtain ⟨own, others⟩ := h
  by_cases hm : m.val = p.val
  · rw [hm, own]
  · rw [others m hm]

theorem cutAway_complete (p : Port) (tag : Nat) (bytes : List Byte) (lastBits result : Nat) (prs r0 r1 r2 : Word) :
    CutAway s (s.complete p tag bytes lastBits result prs r0 r1 r2) := by
  have staged : StaysPosted s (s.stagedCompletion p tag bytes lastBits result prs r0 r1 r2) := by
    unfold State.stagedCompletion
    refine .of_posted ?_
    dsimp only
    split_ifs <;> rfl
  refine ⟨(within_complete s p tag bytes lastBits result prs r0 r1 r2 (.refl _) (.refl _ s)).mono (.of (by decide)), ?_,
    (stagedOnly_complete s p tag bytes lastBits result prs r0 r1 r2).job⟩
  rw [complete_eq]
  exact staged.trans (staysPosted_drainStaged p _ _ _)

theorem cutAway_closeExchange (n tech : Nat) : CutAway s (s.closeExchange n tech) :=
  (((cutAway_rxIdle n).trans (cutAway_modF n _)).trans (.of_modP n _)).trans (cutAway_modX n _)

/-- The completion that a cut delivers. -/
def State.delivered (s : State) (p : Port) (result : Nat) (prs : Word) (d : Option Delivered) (tag : Nat) : State :=
  match d with
  | some r => s.complete p tag r.bytes r.lastBits result prs r.rxs0 r.rxs1 r.rxs2
  | none => s.complete p tag [] 0 result prs 0 0 0

theorem cutAway_delivered (p : Port) (result : Nat) (prs : Word) (d : Option Delivered) (tag : Nat) :
    CutAway s (s.delivered p result prs d tag) := by
  unfold State.delivered
  split <;> exact cutAway_complete _ _ _ _ _ _ _ _ _

/-- A port without a job takes up no reply. -/
theorem jobReply_none {n : Nat} (h : (s.pp n).job = none) (f : Frame) (res : Nat) (d : Option Delivered) (coll : Option Nat) (hw : HwFault) :
    s.jobReply n f res d coll hw = s := by
  unfold State.jobReply
  rw [h]

/-- An exchange that ends on a port without a job. -/
theorem cutAway_endExchange (p : Port) (result : Nat) (d : Option Delivered) (coll : Option Nat) (hw : HwFault) (hj : (s.pp p).job = none) :
    CutAway s (s.endExchange p result d coll hw) := by
  cases hx : (s.pp p).xch with
  | none =>
    unfold State.endExchange
    rw [hx]
    exact .refl s
  | some x =>
    obtain ⟨prs, hprs⟩ : ∃ prs, prs = x.prs result (match d with | some r => r.early | none => false) := ⟨_, rfl⟩
    have closed : CutAway s (s.closeExchange p x.plan.frame.tech) := cutAway_closeExchange p _
    have ends (t : State) : CutAway t ((t.returnState p).endListen p).tryOffs :=
      ((cutAway_returnState p).trans (cutAway_endListen p)).trans cutAway_tryOffs
    have host : CutAway s (((s.closeExchange p x.plan.frame.tech).delivered p result prs d x.plan.frame.tag).holdAfter p x.plan.frame.hold) :=
      closed.trans ((cutAway_delivered p result prs d _).trans (.of_modP p _))
    have mirrored (b : Bool) : CutAway s (if b then (s.closeExchange p x.plan.frame.tech).delivered p result prs d 0xFFFF
        else s.closeExchange p x.plan.frame.tech) := .ite (closed.trans (cutAway_delivered p result prs d _)) closed
    have list (b : Bool) : CutAway s (((if b then (s.closeExchange p x.plan.frame.tech).delivered p result prs d 0xFFFF
        else s.closeExchange p x.plan.frame.tech).released p x.plan.frame result).jobReply p x.plan.frame result d coll hw) := by
      have released := (mirrored b).trans (cutAway_released p x.plan.frame result)
      rw [jobReply_none ((released.jobs p).trans hj)]
      exact released
    have eq : s.endExchange p result d coll hw = (((if x.plan.frame.purpose = .host then
        ((s.closeExchange p x.plan.frame.tech).delivered p result prs d x.plan.frame.tag).holdAfter p x.plan.frame.hold
      else (((if d.isSome && s.flag (Reg.PRO_P_HOSTQ p) Fld.PRO_P_HOSTQ_MIRROR then
          (s.closeExchange p x.plan.frame.tech).delivered p result prs d 0xFFFF else s.closeExchange p x.plan.frame.tech).released p
            x.plan.frame result).jobReply p x.plan.frame result d coll hw)).returnState p).endListen p).tryOffs := by
      unfold State.endExchange
      rw [hx, hprs]
      rfl
    rw [eq]
    exact (CutAway.ite host (list _)).trans (ends _)

theorem cutAway_deliverListen (p : Port) (ending : Nat) (rx : RxData) : CutAway s (s.deliverListen p ending rx) := by
  unfold State.deliverListen State.noteDelivered
  dsimp only
  exact .ite ((cutAway_noteRx _ _ _ _ _ _).trans (cutAway_complete p _ _ _ _ _ _ _ _)) (cutAway_noteRx _ _ _ _ _ _)

theorem cutAway_closeAccord (n : Nat) : CutAway s (s.closeAccord n) := by
  unfold State.closeAccord
  extract_lets wait u v
  have waited : CutAway s u := .ite (cutAway_falseLock n) (.refl s)
  have closed : CutAway s v := (waited.trans (cutAway_modPoll n _)).trans (cutAway_rxIdle n)
  exact (((closed.trans (cutAway_modF n _)).trans (cutAway_returnState n)).trans (cutAway_endListen n)).trans cutAway_tryOffs

theorem cutAway_cutExchange (p : Port) (result ending : Nat) (rx : RxData) (hj : (s.pp p).job = none) :
    CutAway s (s.cutExchange p result ending rx) := by
  unfold State.cutExchange
  split
  · exact .ite ((cutAway_deliverListen p _ _).trans (cutAway_rxIdle p)) (.refl s)
  · refine .ite ((cutAway_modPoll p _).trans (cutAway_closeAccord p)) (.ite ?_ (cutAway_endExchange p _ _ _ _ hj))
    have noted (d : Delivered) : CutAway s (s.noteDelivered p ending rx d) := cutAway_noteRx _ _ _ _ _ _
    exact (noted _).trans (cutAway_endExchange p _ _ _ _ (((noted _).jobs p).trans hj))

theorem cutAway_cutAll (rxs : List RxData) (h : ∀ p : Port, (s.pp p).job = none) : CutAway s (s.cutAll rxs) := by
  have cut (l : List Nat) (hl : ∀ n ∈ l, n < 16) (f : Nat → RxData) : ∀ t, CutAway s t →
      CutAway s (l.foldl (fun t n => t.cutExchange n 12 7 (f n)) t) := by
    induction l with
    | nil => exact fun t ht => ht
    | cons n l ih =>
      intro t ht
      have next : CutAway t (t.cutExchange n 12 7 (f n)) :=
        cutAway_cutExchange ⟨n, hl n List.mem_cons_self⟩ _ _ _ ((ht.jobs _).trans (h _))
      exact ih (fun m hm => hl m (List.mem_cons_of_mem n hm)) _ (ht.trans next)
  exact cut (List.range 16) (fun n hn => List.mem_range.1 hn) (fun n => (rxs[n]?).getD { bits := [], halves := [], rssi := 0, clip := false }) s (.refl s)

/-! ### Lists parked -/

theorem dropJob_proOf (n : Port) (skip : Bool) : ProOf n s (s.dropJob n skip) := by
  have back (g : Nat × Session → Prop) (_ : ∀ x, Decidable (g x)) (f : Nat × Session → Session → Session) (l : List (Nat × Session)) :
      ∀ t : State, (l.foldl (fun (t : State) x => if g x then t.modSess x.1 (f x) else t) t).pro = t.pro := by
    induction l with
    | nil => exact fun _ => rfl
    | cons x l ih =>
      intro t
      refine (ih _).trans ?_
      dsimp only
      split
      · exact (within_modSess t x.1 (f x) (.refl _) (.refl _ t)).parts .pro (by decide)
      · rfl
  unfold State.dropJob
  split
  · exact fun _ _ => rfl
  · extract_lets owes owed kept disc mine
    have pro : kept.pro = s.pro := back _ _ _ _ _
    exact fun m hm => (pp_modP_ne kept n m _ hm).trans (by rw [State.pp, State.pp, pro])

/-- Port `n`'s list parked. -/
def State.parkPort (s : State) (n : Nat) : State := (s.dropJob n false).modP n fun x => { x with entry := 0, waitEnd := none, offWait := false }

theorem parkLists_eq : s.parkLists = State.each (fun n t => t.parkPort n) 16 s := rfl

theorem parkPort_own (p : Port) : ((s.parkPort p).pp p).job = none ∧ ((s.parkPort p).pp p).entry = 0 := by
  rw [State.parkPort, pp_modP_same]
  exact ⟨dropJob_job s p false, rfl⟩

theorem parkPort_others (n : Port) : ProOf n s (s.parkPort n) := (dropJob_proOf n false).trans (proOf_modP _ n _)

theorem parkPorts (k : Nat) (p : Port) (h : p.val < k) (hk : k ≤ 16) :
    ((State.each (fun n (t : State) => t.parkPort n) k s).pp p).job = none ∧ ((State.each (fun n (t : State) => t.parkPort n) k s).pp p).entry = 0 := by
  induction k with
  | zero => omega
  | succ k ih =>
    rw [State.each]
    by_cases hp : p.val = k
    · rw [← hp]
      exact parkPort_own p
    · rw [parkPort_others ⟨k, by omega⟩ p hp]
      exact ih (by omega) (by omega)

theorem parkLists_idle (p : Port) : (s.parkLists.pp p).job = none ∧ (s.parkLists.pp p).entry = 0 := parkPorts 16 p p.isLt (Nat.le_refl _)

/-! ### Pulses ended -/

theorem endPulses_to (k : Nat) (l : Lane) (h : l.val < k) : (State.each (fun l (t : State) => t.modL l fun _ => LaneSt.reset) k s).lane l = LaneSt.reset := by
  induction k with
  | zero => omega
  | succ k ih =>
    rw [State.each]
    by_cases hl : l.val = k
    · rw [← hl, lane_modL_same]
    · rw [lane_modL_ne _ _ _ _ hl]
      exact ih (by omega)

theorem endPulses_lane (l : Lane) : s.endPulses.lane l = LaneSt.reset := endPulses_to 16 l l.isLt

/-! ### What CORE ends in the safe state (R415) -/

theorem staysPosted_portSafe (n : Nat) : StaysPosted s (s.portSafe n) := by
  have ended : StaysPosted s (s.endDeferral n) := by
    unfold State.endDeferral
    split <;> exact .of_posted rfl
  exact ended.trans (.of_obs rfl)

theorem staysPosted_storeSafe : StaysPosted s s.storeSafe := by
  unfold State.storeSafe
  extract_lets gone rest x u
  refine StaysPosted.trans (t := u) (.of_obs rfl) (.foldl (fun t q => ?_) _ _)
  split <;> exact .of_posted rfl

/-- The parts that CORE's shutting down changes: not the phase, not the monitor's latch. -/
def shutScope : Scope :=
  ⟨[.tun, .sess, .kpr, .sto] ++ cutScope.parts, [one Reg.STO_HSTATUS] ++ cutScope.regs, []⟩

/-- What shutting down leaves: the events posted before it, and every lane at rest. -/
structure Shut (s t : State) : Prop where
  within : Within shutScope s t
  posted : StaysPosted s t
  lanes : ∀ l : Lane, t.lane l = LaneSt.reset

theorem shutDown_shut (rxs : List RxData) : Shut s (s.shutDown rxs) := by
  obtain ⟨u, hu⟩ : ∃ u, u = State.each (fun n t => t.portSafe n) 16 (s.parkLists.cutAll rxs) := ⟨_, rfl⟩
  obtain ⟨v, hv⟩ : ∃ v, v = State.each (fun h t => t.modH h fun x => { HuddleSt.reset with members := x.members }) 4 u.endPulses := ⟨_, rfl⟩
  have cut : CutAway s.parkLists (s.parkLists.cutAll rxs) := cutAway_cutAll rxs fun p => (parkLists_idle p).1
  have withinU : Within shutScope s u := by
    rw [hu]
    refine within_each _ (fun n t h => within_portSafe t n (.of (by decide)) h) _ _ ?_
    exact (within_parkLists s (.of (by decide)) (.refl _ s)).trans (cut.within.mono (.of (by decide)))
  have postedU : StaysPosted s u := by
    rw [hu]
    exact ((staysPosted_parkLists s).trans cut.posted).trans (.each (fun _ _ => staysPosted_portSafe _) _ _)
  have withinV : Within ⟨[.field], [], []⟩ u.endPulses v := by
    rw [hv]
    exact within_each _ (fun n t h => within_modH t n _ (.refl _) h) _ _ (.refl _ _)
  have lanes (l : Lane) : v.lane l = LaneSt.reset := by
    rw [State.lane, withinV.parts .kpr (by decide)]
    exact endPulses_lane l
  have postedV : StaysPosted u v := (StaysPosted.of_within (within_endPulses u (.refl _) (.refl _ u)) (by decide)).trans (.of_within withinV (by decide))
  have stored : Within ⟨[.regs, .sto, .obs], [one Reg.STO_HSTATUS], []⟩ v.abandonLookups v.abandonLookups.storeSafe :=
    within_storeSafe _ (.refl _) (.refl _ _)
  have eq : s.shutDown rxs = { v.abandonLookups.storeSafe with tun := { v.tun with link := v.tun.link.filter fun q => q.ends.isSome, todo := [] } } := by
    rw [hv, hu]
    rfl
  rw [eq]
  refine ⟨?_, ?_, fun l => ?_⟩
  · have before : Within shutScope s v :=
      (within_endPulses u (.of (by decide)) withinU).trans (withinV.mono (.of (by decide)))
    exact within_with_tun _ (.of (by decide)) (within_storeSafe _ (.of (by decide)) (within_abandonLookups v (.of (by decide)) before))
  · exact ((postedU.trans postedV).trans (StaysPosted.trans (t := v.abandonLookups) (.of_obs rfl) staysPosted_storeSafe)).trans (.of_obs rfl)
  · have kept : v.abandonLookups.storeSafe.kpr = v.abandonLookups.kpr := stored.parts .kpr (by decide)
    show vget v.abandonLookups.storeSafe.kpr.lanes LaneSt.reset l = _
    rw [kept]
    exact lanes l

end Sys2Proof.Machine

/-! The safety monitors (O49): each detector, CORE in the safe state, injections, SAF_TEST_ENTER. -/

namespace Sys2Proof.Machine

variable {s : State}

/-! ### A trip by a detector -/

section
variable {code w : Nat} {t : State}

/-- A trip that leaves FAULT_WHERE alone: what of it the statement says. -/
theorem Tripped.plain_passes {u : State} {e : Nat} (h : Tripped code w (u.advance e) t) (hc : 3 < code) :
    t.saf = { u.saf with safe := true, unseen := some (code, 0), tripAt := t.time } ∧
      RegsBut [Reg.SAF_FAULT, Reg.SAF_FIRST, Reg.SAF_STATUS] u t ∧ Passes e [.regs, .saf] u t := by
  have time : t.time = (u.advance e).time := h.within.parts .time (by decide)
  have saf : (u.advance e).saf = u.saf := keeps_advance u e .saf (by decide)
  refine ⟨?_, .of_advance (h.plain hc).regsBut, h.passes⟩
  rw [h.saf, saf, placeOf, if_neg (by omega), time]

theorem Tripped.first_plain (h : Tripped code w s t) (hc : 3 < code) :
    t.reg Reg.SAF_FIRST = packF [(Fld.SAF_FIRST_CODE, code), (Fld.SAF_FIRST_WHERE, 0)] := by
  rw [h.first, placeOf, if_neg (by omega)]

end

/-- What trips after time has passed, where no injection is being made. -/
theorem tripped_advance (hn : NotTripped s) {code w : Nat} (hi : s.injected code w = none) (h1 : 1 ≤ code) (h9 : code ≤ 9) (e : Nat) :
    Tripped code w (s.advance e) ((s.advance e).detect code w true) := by
  rw [detect_genuine ((injected_advance e code w).trans hi)]
  exact trip_tripped (hn.advance e) h1 h9 w

/-! ### The field detectors (R404 to R406) -/

theorem fieldCeilingFault_trips {p : Port} {seen : FieldSight} (hn : NotTripped s) (hi : s.injected 1 p = none) (ha : s.aboveCeiling p seen = true) :
    Tripped 1 p.val s (s.detect 1 p (s.aboveCeiling p seen)) := by
  rw [ha, detect_genuine hi]
  exact trip_tripped hn (by decide) (by decide) p

theorem activeOff_advance (e : Nat) (p : Port) (seen : FieldSight) : (s.advance e).activeOff p seen = s.activeOff p seen := by
  have off : (s.advance e).offFrom p = s.offFrom p := by
    rw [State.offFrom, State.offFrom, pf_of_field (keeps_advance s e .field (by decide))]
  have en : (s.advance e).paEn p = s.paEn p := by
    have saf : (s.advance e).saf = s.saf := keeps_advance s e .saf (by decide)
    unfold State.paEn
    simp only [pf_of_field (keeps_advance s e .field (by decide)), saf]
  rw [State.activeOff, State.activeOff, off, en]

theorem fieldOffFault_trips {p : Port} {seen : FieldSight} {e : Nat} (hn : NotTripped s) (hi : s.injected 2 p = none)
    (ha : (s.advance e).activeOff p seen = true) : Tripped 2 p.val (s.advance e) ((s.advance e).detect 2 p (s.activeOff p seen)) := by
  rw [← activeOff_advance e, ha]
  exact tripped_advance hn hi (by decide) (by decide) e

/-- A trip with a place, after time has passed. -/
theorem Tripped.placed_passes {code w : Nat} {u t : State} {e : Nat} (h : Tripped code w (u.advance e) t) (hc : code ≤ 3) :
    t.saf = { u.saf with safe := true, unseen := some (code, w), tripAt := t.time } ∧
      RegsBut [Reg.SAF_FAULT, Reg.SAF_FAULT_WHERE, Reg.SAF_FIRST, Reg.SAF_STATUS] u t ∧ Passes e [.regs, .saf] u t := by
  have time : t.time = (u.advance e).time := h.within.parts .time (by decide)
  have saf : (u.advance e).saf = u.saf := keeps_advance u e .saf (by decide)
  refine ⟨?_, .of_advance h.within.regsBut, h.passes⟩
  rw [h.saf, saf, placeOf, if_pos hc, time]

/-! ### The read-back of a lane (R407, R408) -/

theorem goLevel_safe (l : Lane) (h : s.saf.safe = true) : s.goLevel l = false := by
  rw [State.goLevel, h, Bool.not_true, Bool.and_false, Bool.false_and]

/-- When a lane's read-back has disagreed for long enough. -/
def State.fbDue (s : State) (l : Lane) : Nat := max s.time (vget s.saf.fbFrom 0 l) + s.fld Reg.SAF_CFG Fld.SAF_CFG_FB_DELAY * usec

theorem passes_setFb {l : Lane} {b : Bool} {e : Nat} {t : State} (h : Passes e [.regs, .saf] (s.setFb l b) t) :
    t.pins = { s.pins with laneFb := setBit s.pins.laneFb l b } ∧ Passes e [.regs, .saf, .pins] s t := by
  obtain ⟨time, ring, kept⟩ := h
  have set : Keeps [.pins] s (s.setFb l b) := (within_setFb s l b (.refl _) (.refl _ s)).parts
  exact ⟨kept .pins (by decide), time, ring, (set.mono (by decide)).trans (kept.mono (by decide))⟩

/-! ### The clock monitors and the heartbeat (R409 to R411) -/

/-- The end of a clock monitor's window. -/
def State.nextWindow (s : State) (w : Nat) : Nat := (s.time / w + 1) * w

theorem clkMonWindow_trips (hn : NotTripped s) (hi : s.injected 5 0 = none) (e : Nat) (v : Word) :
    Tripped 5 0 ((s.advance e).setReg Reg.SAF_CLKMON v) (((s.advance e).setReg Reg.SAF_CLKMON v).detect 5 0 true) := by
  obtain ⟨u, hu⟩ : ∃ u, u = (s.advance e).setReg Reg.SAF_CLKMON v := ⟨_, rfl⟩
  have within : Within ⟨[.regs], [one Reg.SAF_CLKMON], []⟩ (s.advance e) u := hu ▸ within_setReg _ _ (.refl _) (.refl _ _)
  have saf : u.saf = (s.advance e).saf := within.parts .saf (by decide)
  have injected : u.injected 5 0 = none := (injected_of_saf saf 5 0).trans ((injected_advance e 5 0).trans hi)
  rw [← hu, detect_genuine injected]
  exact trip_tripped ((hn.advance e).of_same saf fun f => fld_of_reg (within.reg_of_misses _ (by decide)) f) (by decide) (by decide) 0

/-- A trip of the core clock's monitor, CLK_CORE lost where it counted none. -/
theorem Tripped.clkLost {t : State} (h : Tripped 5 0 s t) (c : Prop) [Decidable c] {u : State} (hu : u = if c then t.setSaf { t.saf with clkLost := true } else t) :
    u.saf.safe = true ∧ u.saf.unseen = some (5, 0) ∧ (c → u.saf.clkLost = true) ∧ u.regs = t.regs := by
  have safe : t.saf.safe = true := by rw [h.saf]
  have unseen : t.saf.unseen = some (5, 0) := by rw [h.saf]; rfl
  subst hu
  split
  · exact ⟨safe, unseen, fun _ => rfl, rfl⟩
  · next hc => exact ⟨safe, unseen, fun k => absurd k hc, rfl⟩

/-- The state at the end of a window of CORE's monitor. -/
def State.monWindow (s : State) (ok : Nat) : State := (s.advance (s.nextWindow (10 * usec))).setFld Reg.SAF_STATUS Fld.SAF_STATUS_MON_OK ok

theorem monWindow_within (ok : Nat) : Within ⟨[.regs], [one Reg.SAF_STATUS], []⟩ (s.advance (s.nextWindow (10 * usec))) (s.monWindow ok) :=
  within_setFld _ _ _ (.refl _) (.refl _ _)

theorem monWindow_trips (hn : NotTripped s) (hi : s.injected 7 0 = none) :
    Tripped 7 0 (s.monWindow 0) ((s.monWindow 0).detect 7 0 true) := by
  have within := monWindow_within (s := s) 0
  obtain ⟨u, hu⟩ : ∃ u, u = s.monWindow 0 := ⟨_, rfl⟩
  rw [← hu] at within ⊢
  have saf : u.saf = (s.advance (s.nextWindow (10 * usec))).saf := within.parts .saf (by decide)
  have injected : u.injected 7 0 = none := (injected_of_saf saf 7 0).trans ((injected_advance _ 7 0).trans hi)
  rw [detect_genuine injected]
  exact trip_tripped ((hn.advance _).of_same saf fun f => fld_of_reg (within.reg_of_misses _ (by decide)) f) (by decide) (by decide) 0

/-- What a bad window of CORE's monitor leaves. -/
theorem monWindow_passes {t : State} (h : Tripped 7 0 (s.monWindow 0) t) :
    t.flag Reg.SAF_STATUS Fld.SAF_STATUS_MON_OK = false ∧
      t.saf = { s.saf with safe := true, unseen := some (7, 0), tripAt := t.time } ∧
      RegsBut [Reg.SAF_FAULT, Reg.SAF_FIRST, Reg.SAF_STATUS] s t ∧ Passes (s.nextWindow (10 * usec)) [.regs, .saf] s t := by
  have before := monWindow_within (s := s) 0
  have flag : (s.monWindow 0).flag Reg.SAF_STATUS Fld.SAF_STATUS_MON_OK = false := flag_setFld_same _ _ _ _ (by decide)
  obtain ⟨u, hu⟩ : ∃ u, u = s.monWindow 0 := ⟨_, rfl⟩
  rw [← hu] at h before flag
  have all : Within ⟨[.regs, .saf], [Reg.SAF_FAULT, Reg.SAF_FIRST, Reg.SAF_STATUS].map one, []⟩ (s.advance (s.nextWindow (10 * usec))) t :=
    (before.mono (.of (by decide))).trans (h.plain (by decide))
  have saf : u.saf = s.saf := Eq.trans (before.parts .saf (by decide)) (keeps_advance s _ .saf (by decide))
  have time : t.time = u.time := h.within.parts .time (by decide)
  refine ⟨(h.status_other _ (by decide) (by decide)).trans flag, ?_, .of_advance all.regsBut, .of_within all (by decide) (by decide) (by decide)⟩
  rw [h.saf, saf, time]
  rfl

end Sys2Proof.Machine

/-! The safety monitors (O49): STOP_N, CORE in the safe state, injections, SAF_TEST_ENTER, and the statement. -/

namespace Sys2Proof.Machine

variable {s : State}

/-! ### STOP_N (R412) -/

theorem stopTrip_spec (hn : NotTripped s) :
    (s.trip 10 0).saf = { s.saf with safe := true, unseen := some (10, 0), tripAt := s.time } ∧
      (s.trip 10 0).flag Reg.SAF_FAULT Fld.SAF_FAULT_STOP = true ∧ (s.trip 10 0).fld Reg.SAF_FIRST Fld.SAF_FIRST_CODE = 10 ∧
      (s.trip 10 0).flag Reg.SAF_STATUS Fld.SAF_STATUS_STOP_IN = s.flag Reg.SAF_STATUS Fld.SAF_STATUS_STOP_IN ∧
      Within ⟨[.regs, .saf], faultRegs, []⟩ s (s.trip 10 0) := by
  obtain ⟨fault, -, first, status⟩ := firstNoted_reg (s := s) 10 0
  have whole : Within ⟨[.regs, .saf], faultRegs, []⟩ s (s.trip 10 0) := within_trip s 10 0 (.refl _) (.refl _ s)
  have place : placeOf 10 0 = 0 := rfl
  rw [trip_eq hn, place] at whole ⊢
  refine ⟨rfl, ?_, ?_, ?_, whole⟩
  · exact (flag_of_reg fault _).trans (flag_setFld_same s Reg.SAF_FAULT Fld.SAF_FAULT_STOP 1 (by decide))
  · exact (congrArg Fld.SAF_FIRST_CODE.get first).trans packF_head
  · exact congrArg (fun n => decide (n ≠ 0)) ((congrArg Fld.SAF_STATUS_STOP_IN.get status).trans (Field.get_set_other _ _ _ _ (by decide) (by decide)))

/-- The pin shown. -/
def State.stopShown (s : State) (low : Bool) : State := s.setFld Reg.SAF_STATUS Fld.SAF_STATUS_STOP_IN (bnat low)

theorem stopShown_within (low : Bool) : Within ⟨[.regs], [one Reg.SAF_STATUS], []⟩ s (s.stopShown low) :=
  within_setFld _ _ _ (.refl _) (.refl _ s)

theorem stopN_trips (hn : NotTripped s) {t : State} (ht : t = ((s.stopShown true).advance ((s.stopShown true).time + usec)).trip 10 0) :
    t.saf = { s.saf with safe := true, unseen := some (10, 0), tripAt := t.time } ∧ t.flag Reg.SAF_STATUS Fld.SAF_STATUS_STOP_IN = true ∧
      t.flag Reg.SAF_FAULT Fld.SAF_FAULT_STOP = true ∧ t.fld Reg.SAF_FIRST Fld.SAF_FIRST_CODE = 10 ∧
      Passes (s.time + usec) [.regs, .saf] s t := by
  have before := stopShown_within (s := s) true
  have low : (s.stopShown true).flag Reg.SAF_STATUS Fld.SAF_STATUS_STOP_IN = true := flag_setFld_same _ _ _ _ (by decide)
  obtain ⟨u, hu⟩ : ∃ u, u = s.stopShown true := ⟨_, rfl⟩
  rw [← hu] at before low ht
  have saf : u.saf = s.saf := before.parts .saf (by decide)
  have time : u.time = s.time := before.parts .time (by decide)
  rw [time] at ht
  obtain ⟨safT, fault, first, status, within⟩ := stopTrip_spec ((hn.of_same saf fun f => fld_of_reg (before.reg_of_misses _ (by decide)) f).advance (s.time + usec))
  rw [← ht] at safT fault first status within
  have timeT : t.time = (u.advance (s.time + usec)).time := within.parts .time (by decide)
  have passed : Passes (s.time + usec) [.regs, .saf] u t := .of_within within (by decide) (by decide) (by decide)
  obtain ⟨at_, ring, kept⟩ := passed
  refine ⟨?_, ?_, fault, first, ?_, ?_, ?_⟩
  · rw [safT, ← timeT, keeps_advance u _ .saf (by decide), saf]
  · rw [status, (advance_reads u _).2.2.1, low]
  · rw [at_, time]
  · exact RingOnly.trans (.of_sram (before.parts .sram (by decide))) ring
  · exact (before.parts.mono (by decide)).trans kept

/-! ### CORE in the safe state (R415) -/

/-- The state once CORE has seen the failure and posted it. -/
def State.safeSeen (s : State) (code w : Nat) : State :=
  (((s.setSaf { s.saf with unseen := none }).toSafe (if code = 10 then 6 else 5)).setFld Reg.SAF_STATUS Fld.SAF_STATUS_SAFE 1).post
    (if code = 10 then 0xB002 else 0xB001) .base (packF [(Fld.SAF_FIRST_CODE, code), (Fld.SAF_FIRST_WHERE, w)]).toNat

theorem toSafe_gen (cause : Nat) : (s.toSafe cause).gen = { s.gen with phase := .safe, cause := cause, rlimitEnd := none } := by
  have gen := toPhase_gen s .safe
  unfold State.toSafe
  dsimp only
  rw [gen]

theorem safeSeen_spec (code w : Nat) :
    (s.safeSeen code w).gen = { s.gen with phase := .safe, cause := if code = 10 then 6 else 5, rlimitEnd := none } ∧
      (s.safeSeen code w).saf.unseen = none ∧ (s.safeSeen code w).flag Reg.SAF_STATUS Fld.SAF_STATUS_SAFE = true ∧
      Posted (if code = 10 then 0xB002 else 0xB001) .base (packF [(Fld.SAF_FIRST_CODE, code), (Fld.SAF_FIRST_WHERE, w)]).toNat (s.safeSeen code w) := by
  obtain ⟨u, hu⟩ : ∃ u, u = (s.setSaf { s.saf with unseen := none }).toSafe (if code = 10 then 6 else 5) := ⟨_, rfl⟩
  have gen : u.gen = { s.gen with phase := .safe, cause := if code = 10 then 6 else 5, rlimitEnd := none } := hu ▸ toSafe_gen _
  have saf : u.saf = { s.saf with unseen := none } := hu ▸ (within_toSafe _ _ (.refl _) (.refl _ _)).parts .saf (by decide)
  rw [State.safeSeen, ← hu]
  refine ⟨gen, congrArg SafSt.unseen saf, ?_, posted_post _ _ _ _⟩
  exact (flag_of_reg (reg_post _ _ _ _ _) _).trans (flag_setFld_same u Reg.SAF_STATUS Fld.SAF_STATUS_SAFE 1 (by decide))

theorem coreSees_spec (code w : Nat) (rxs : List RxData) :
    (s.coreSees code w rxs).gen = { s.gen with phase := .safe, cause := if code = 10 then 6 else 5, rlimitEnd := none } ∧
      (s.coreSees code w rxs).saf.unseen = none ∧ (s.coreSees code w rxs).flag Reg.SAF_STATUS Fld.SAF_STATUS_SAFE = true ∧
      (∀ l : Lane, (s.coreSees code w rxs).lane l = LaneSt.reset) ∧
      Posted (if code = 10 then 0xB002 else 0xB001) .base (packF [(Fld.SAF_FIRST_CODE, code), (Fld.SAF_FIRST_WHERE, w)]).toNat
        (s.coreSees code w rxs) := by
  obtain ⟨gen, unseen, safe, posted⟩ := safeSeen_spec (s := s) code w
  have eq : s.coreSees code w rxs = (s.safeSeen code w).shutDown rxs := rfl
  obtain ⟨u, hu⟩ : ∃ u, u = s.safeSeen code w := ⟨_, rfl⟩
  rw [← hu] at gen unseen safe posted eq
  obtain ⟨within, stays, lanes⟩ := shutDown_shut (s := u) rxs
  have saf : (u.shutDown rxs).saf = u.saf := within.parts .saf (by decide)
  have genKept : (u.shutDown rxs).gen = u.gen := within.parts .gen (by decide)
  rw [eq]
  refine ⟨genKept.trans gen, (congrArg SafSt.unseen saf).trans unseen,
    (flag_of_reg (within.reg_of_misses _ (by decide +kernel)) _).trans safe, lanes, ?_⟩
  exact stays posted

/-! ### Injections (R421) -/

theorem advance_now : s.advance s.time = s := by rw [State.advance, if_pos (Nat.le_refl _)]

/-- The state with an injection asked for. -/
def State.injecting (s : State) (v : Word) : State :=
  s.setSaf { s.saf with inject := some { code := Fld.SAF_INJECT_CODE.get v, target := Fld.SAF_INJECT_TARGET.get v,
                                         trip := decide (Fld.SAF_INJECT_TRIP.get v = 1), since := s.time } }

theorem writeInject_eq {v : Word} (hp : s.gen.phase = .test) (h1 : 1 ≤ Fld.SAF_INJECT_CODE.get v) (h9 : Fld.SAF_INJECT_CODE.get v ≤ 9) :
    s.writeInject v = if Fld.SAF_INJECT_CODE.get v = 4 ∨ Fld.SAF_INJECT_CODE.get v = 8 then
      (s.injecting v).detect (Fld.SAF_INJECT_CODE.get v) 0 false else s.injecting v := by
  unfold State.writeInject
  dsimp only
  rw [if_neg (by rw [hp]; simp), if_neg (by omega)]
  rfl

theorem filterTime_none {code : Nat} (h : code = 4 ∨ code = 8) : s.filterTime code = 0 := by
  rw [State.filterTime, if_neg (by omega), if_neg (by omega), if_neg (by omega)]

/-- An injection of a detector without a filter is seen at once. -/
theorem injecting_seen {v : Word} {code : Nat} (hv : Fld.SAF_INJECT_CODE.get v = code) (hc : code = 4 ∨ code = 8) (ht : Fld.SAF_INJECT_TRIP.get v = 0)
    {t : State} (e : t = (s.injecting v).detect code 0 false) :
    t.saf = { s.saf with inject := none } ∧ t.reg Reg.SAF_INJ_STATUS = packF [(Fld.SAF_INJ_STATUS_SEEN, 1)] ∧
      RegsBut [Reg.SAF_INJ_STATUS] s t ∧ Keeps [.regs, .saf] s t := by
  let x : Inject := { code := Fld.SAF_INJECT_CODE.get v, target := Fld.SAF_INJECT_TARGET.get v,
                      trip := decide (Fld.SAF_INJECT_TRIP.get v = 1), since := s.time }
  have found : (s.injecting v).injected code 0 = some x := by
    have covers : x.covers code 0 = true := by
      rw [Inject.covers, decide_eq_true hv, decide_eq_true (show 3 < code by omega)]
      rfl
    show (if x.covers code 0 then some x else none) = some x
    rw [if_pos covers]
  have tripless : x.trip = false := decide_eq_false (by rw [ht]; decide)
  have now : (s.injecting v).advance (x.since + (s.injecting v).filterTime code) = s.injecting v := by
    rw [filterTime_none hc]
    exact advance_now
  rw [detect_injected found tripless, now] at e
  obtain ⟨saf, -, -, within⟩ := injectionSeen_spec (s := s.injecting v) x
  have delay : min 65535 (((s.injecting v).time - x.since) / usec) = 0 := by
    show min 65535 ((s.time - s.time) / usec) = 0
    rw [Nat.sub_self, Nat.zero_div]
    rfl
  have reg : t.reg Reg.SAF_INJ_STATUS = packF [(Fld.SAF_INJ_STATUS_DET_US, 0), (Fld.SAF_INJ_STATUS_SEEN, 1)] := by
    rw [e, ← delay]
    exact reg_setReg_same _ _ _
  rw [← e] at saf within
  have whole : Within ⟨[.regs, .saf], [Reg.SAF_INJ_STATUS].map one, []⟩ s t :=
    (within_setSaf s _ (.of (by decide)) (.refl _ s)).trans within
  exact ⟨saf, reg.trans (by decide), whole.regsBut, whole.parts⟩

/-! ### SAF_TEST_ENTER (R421) -/

/-- A change of phase adds to GEN_IRQ_STATUS: no bit of it falls. -/
theorem toPhase_irq (p : Phase) : (s.toPhase p).flag Reg.GEN_IRQ_STATUS Fld.GEN_IRQ_STATUS_AUTH = s.flag Reg.GEN_IRQ_STATUS Fld.GEN_IRQ_STATUS_AUTH := by
  obtain ⟨u, hu⟩ : ∃ u, u = (s.clearTest p).dropPower p := ⟨_, rfl⟩
  have cleared : ((s.setReg Reg.GEN_TEST_CTRL 0).setReg Reg.GEN_TEST_LANE 0).reg Reg.GEN_IRQ_STATUS = s.reg Reg.GEN_IRQ_STATUS := by
    rw [reg_setReg_ne _ _ _ _ (by decide), reg_setReg_ne _ _ _ _ (by decide)]
  have left : u.reg Reg.GEN_IRQ_STATUS = s.reg Reg.GEN_IRQ_STATUS := by
    rw [hu]
    unfold State.dropPower State.clearTest
    split <;> split
    · exact cleared
    · rfl
    · exact cleared
    · rfl
  rw [State.toPhase, ← hu]
  dsimp only
  rw [flag_of_reg ((within_syncEmu _ (.refl _) (.refl _ _)).reg_of_misses _ (by decide +kernel)), flag_of_reg (reg_stick _ _ _ _)]
  rw [flag_setFld_other _ _ _ _ _ (by decide) (by decide), flag_of_reg (reg_post _ _ _ _ _)]
  exact flag_of_reg left _

theorem enterTest_spec :
    s.enterTest.gen.phase = .test ∧ (∀ l : Lane, s.enterTest.lane l = LaneSt.reset) ∧ (∀ n : Port, (s.enterTest.pp n).entry = 0) ∧
      s.enterTest.cfg = s.cfg ∧ s.enterTest.reg Reg.CFG_AUTH_STATUS = s.reg Reg.CFG_AUTH_STATUS ∧
      s.enterTest.flag Reg.GEN_IRQ_STATUS Fld.GEN_IRQ_STATUS_AUTH = s.flag Reg.GEN_IRQ_STATUS Fld.GEN_IRQ_STATUS_AUTH := by
  have test : (s.toPhase .test).gen.phase = .test := congrArg GenSt.phase (toPhase_gen s .test)
  have irq := toPhase_irq (s := s) .test
  have entered := within_toPhase s .test (.refl _) (.refl _ s)
  obtain ⟨u, hu⟩ : ∃ u, u = s.toPhase .test := ⟨_, rfl⟩
  rw [← hu] at test irq entered
  have eq : s.enterTest = u.parkLists.endPulses.allOff := hu ▸ rfl
  have off : Within ⟨[.field, .obs], [], []⟩ u.parkLists.endPulses u.parkLists.endPulses.allOff := within_allOff _ (.refl _) (.refl _ _)
  have ended : Within ⟨[.kpr], [], []⟩ u.parkLists u.parkLists.endPulses := within_endPulses _ (.refl _) (.refl _ _)
  have after : Within ⟨[.pro, .sess, .cox, .kpr, .field, .obs], [], []⟩ u u.parkLists.endPulses.allOff :=
    (within_parkLists u (.of (by decide)) (.refl _ u)).trans ((ended.mono (.of (by decide))).trans (off.mono (.of (by decide))))
  have gen : u.parkLists.endPulses.allOff.gen = u.gen := after.parts .gen (by decide)
  have cfg : u.parkLists.endPulses.allOff.cfg = u.cfg := after.parts .cfg (by decide)
  have cfgU : u.cfg = s.cfg := entered.parts .cfg (by decide)
  rw [eq]
  refine ⟨(congrArg GenSt.phase gen).trans test, fun l => ?_, fun n => ?_, cfg.trans cfgU, ?_, ?_⟩
  · rw [State.lane, off.parts .kpr (by decide)]
    exact endPulses_lane l
  · rw [pp_of_pro (off.parts .pro (by decide)), pp_of_pro (ended.parts .pro (by decide))]
    exact (parkLists_idle n).2
  · exact (after.reg_of_misses _ (by decide)).trans (entered.reg_of_misses _ (by decide +kernel))
  · exact (flag_of_reg (after.reg_of_misses _ (by decide)) _).trans irq

theorem testEntered_spec :
    AuthAccepted s s.authAccepted.authEnd.enterTest ∧ s.authAccepted.authEnd.enterTest.cfg = { s.cfg with auth := none } ∧
      s.authAccepted.authEnd.enterTest.gen.phase = .test ∧ (∀ l : Lane, s.authAccepted.authEnd.enterTest.lane l = LaneSt.reset) ∧
      (∀ n : Port, (s.authAccepted.authEnd.enterTest.pp n).entry = 0) := by
  obtain ⟨phase, lanes, entries, cfg, status, irq⟩ := enterTest_spec (s := s.authAccepted.authEnd)
  obtain ⟨result, accepted, raised⟩ := authAccepted_spec s
  have ended : s.authAccepted.authEnd.cfg = { s.cfg with auth := none } :=
    congrArg (fun c : CfgSt => { c with auth := none }) ((authAccepted_within s).parts .cfg (by decide))
  exact ⟨⟨(fld_of_reg status _).trans result, (fld_of_reg status _).trans accepted, irq.trans raised⟩, cfg.trans ended, phase, lanes, entries⟩

/-! ### The statement -/

theorem laneReadbackFault_spec {l : Lane} {b : Bool} (hn : NotTripped s) (hi : s.injected 3 l = none) {t : State}
    (ht : t = ((s.setFb l b).advance (s.fbDue l)).detect 3 l true) :
    t.saf.safe = true ∧ t.saf.unseen = some (3, l.val) ∧ t.fldBit Reg.SAF_FAULT Fld.SAF_FAULT_CODES 2 = true ∧
      t.fldBit Reg.SAF_FAULT_WHERE Fld.SAF_FAULT_WHERE_LANES l = true ∧ t.flag Reg.SAF_STATUS Fld.SAF_STATUS_FAULT_OUT = true ∧
      t.pins = { s.pins with laneFb := setBit s.pins.laneFb l b } ∧ Passes (s.fbDue l) [.regs, .saf, .pins] s t := by
  have set : NotTripped (s.setFb l b) := hn.of_same rfl fun _ => rfl
  have injected : (s.setFb l b).injected 3 l = none := (injected_of_saf rfl 3 l).trans hi
  have passed (h : Passes (s.fbDue l) [.regs, .saf] (s.setFb l b) t) := passes_setFb h
  obtain ⟨u, hu⟩ : ∃ u, u = s.setFb l b := ⟨_, rfl⟩
  rw [← hu] at ht set injected passed
  have trip := ht ▸ tripped_advance set injected (by decide) (by decide) (s.fbDue l)
  obtain ⟨saf, -, kept⟩ := trip.placed_passes (by decide)
  obtain ⟨pins, whole⟩ := passed kept
  exact ⟨congrArg SafSt.safe saf, congrArg SafSt.unseen saf, trip.fault, trip.lanes rfl l.isLt, trip.out, pins, whole⟩

theorem laneNoted_spec {l : Lane} {b : Bool} {t : State}
    (ht : t = ((s.setFb l b).advance (s.fbDue l)).setFldBit Reg.SAF_FAULT_WHERE Fld.SAF_FAULT_WHERE_LANES l true) :
    t.saf = s.saf ∧ t.fldBit Reg.SAF_FAULT_WHERE Fld.SAF_FAULT_WHERE_LANES l = true ∧ RegsBut [Reg.SAF_FAULT_WHERE] s t := by
  obtain ⟨u, hu⟩ : ∃ u, u = s.setFb l b := ⟨_, rfl⟩
  have saf : u.saf = s.saf := hu ▸ rfl
  have regs (a : Nat) : u.reg a = s.reg a := hu ▸ rfl
  rw [← hu] at ht
  have noted : Within ⟨[.regs], [one Reg.SAF_FAULT_WHERE], []⟩ (u.advance (s.fbDue l)) t := ht ▸ within_setFldBit _ _ _ _ (.refl _) (.refl _ _)
  have kept : RegsBut [Reg.SAF_FAULT_WHERE] u t := .of_advance noted.regsBut
  have safT : t.saf = (u.advance (s.fbDue l)).saf := noted.parts .saf (by decide)
  refine ⟨?_, ?_, fun a ha => (kept a ha).trans (regs a)⟩
  · rw [safT, keeps_advance u _ .saf (by decide), saf]
  · rw [ht]
    exact fldBit_setFldBit_same _ _ _ (by decide) l.isLt

theorem clkMonWindow_spec (hn : NotTripped s) (hi : s.injected 5 0 = none) {n : Byte} {t u : State}
    (ht : t = ((s.advance (s.nextWindow (24 * usec))).setReg Reg.SAF_CLKMON (word n.toNat)).detect 5 0 true)
    (hu : u = if n = 0 then t.setSaf { t.saf with clkLost := true } else t) :
    u.reg Reg.SAF_CLKMON = word n.toNat ∧ u.saf.safe = true ∧ u.saf.unseen = some (5, 0) ∧ (n.toNat = 0 → u.saf.clkLost = true) ∧
      u.fldBit Reg.SAF_FAULT Fld.SAF_FAULT_CODES 4 = true ∧ u.fld Reg.SAF_FIRST Fld.SAF_FIRST_CODE = 5 := by
  have trip := clkMonWindow_trips hn hi (s.nextWindow (24 * usec)) (word n.toNat)
  have counted : ((s.advance (s.nextWindow (24 * usec))).setReg Reg.SAF_CLKMON (word n.toNat)).reg Reg.SAF_CLKMON = word n.toNat := reg_setReg_same _ _ _
  rw [← ht] at trip
  obtain ⟨safe, unseen, lost, regs⟩ := trip.clkLost (n = 0) hu
  have regsT : t.reg Reg.SAF_CLKMON = word n.toNat := (trip.within.reg_of_misses _ (by decide)).trans counted
  refine ⟨(reg_of_regs regs _).trans regsT, safe, unseen, fun h => lost (BitVec.eq_of_toNat_eq h), ?_, ?_⟩
  · exact (fldBit_of_reg (reg_of_regs regs _) _ _).trans trip.fault
  · rw [fld_of_reg (reg_of_regs regs _), State.fld, trip.first_plain (by decide), packF_head]
    rfl

/-- The heartbeat has toggled now. -/
def State.beaten (s : State) : State := s.setSaf { s.saf with beatAt := s.time }

theorem beaten_spec (e : Nat) :
    (s.advance e).beaten.saf = { s.saf with beatAt := (s.advance e).beaten.time } ∧ Passes e [.saf] s (s.advance e).beaten := by
  have saf : (s.advance e).saf = s.saf := keeps_advance s e .saf (by decide)
  have set (u : State) : Within ⟨[.saf], [], []⟩ u u.beaten ∧ u.beaten.saf = { u.saf with beatAt := u.beaten.time } :=
    ⟨within_setSaf _ _ (.refl _) (.refl _ _), rfl⟩
  obtain ⟨within, beat⟩ := set (s.advance e)
  exact ⟨by rw [beat, saf], .of_within within (by decide) (by decide) (by decide)⟩

/-- Settles O49, clause by clause: a detector's trip is that of `trip_tripped` after the time that its filter takes. -/
theorem safetyMonitors : Obligations.SafetyMonitors := by
  refine ⟨fun s p seen hm safe first hi ha => ?_, fun s p seen hm hi ha => ?_, fun s p seen e hm safe first hi ho ha => ?_,
    fun s p seen x hm hi hx ho ha => ?_, fun s l b hm safe first hi he hb => ?_, fun s l b hm safe he hb => ?_, fun s n b hm hw h1 h2 => ?_,
    fun s n hm hw safe first hi hn => ?_, fun s hr => ?_, fun s hm hw safe first hi => ?_, fun s n b hr h1 h2 => ?_,
    fun s n hr safe first hi hn => ?_, fun s hm safe first hi => ?_, fun s hm safe first => ?_, fun s hm => ?_, fun s rxs c w hr hu => ?_,
    fun s v hr hp h1 h9 h4 h8 => ?_, fun s v hr hp hc ht => ?_, fun s p hr ha hp => ?_, fun s p hr ha hp => ?_⟩
  · have trip := fieldCeilingFault_trips ⟨safe, first⟩ hi ha
    exact does_monitored (o := execFieldCeilingFault p seen s) rfl rfl hm rfl
      ⟨trip.saf, trip.fault, trip.ports (.inl rfl) p.isLt, trip.first, trip.out, trip.within.regsBut, trip.within.parts⟩
  · exact does_monitored (o := execFieldCeilingFault p seen s) rfl rfl hm ((congrArg _ ha).trans (detect_nothing hi)) rfl
  · have trip := fieldOffFault_trips (e := e + s.filterTime 2) ⟨safe, first⟩ hi ha
    obtain ⟨saf, regs, passes⟩ := trip.placed_passes (by decide)
    exact does_monitored (o := execFieldOffFault p seen s) rfl rfl hm (by simp only [ho])
      ⟨saf, trip.fault, trip.ports (.inr rfl) p.isLt, trip.first, trip.out, regs, passes⟩
  · obtain ⟨saf, seenFlag, det, within⟩ := injectionSeen_spec (s := s.advance (x.since + s.filterTime 2)) x
    refine does_monitored (o := execFieldOffFault p seen s) (t := (s.advance (x.since + s.filterTime 2)).injectionSeen x) rfl rfl hm
      (by simp only [ho, ha]; exact detect_injected hi hx) ⟨?_, seenFlag, ?_, .of_advance within.regsBut, .of_within within (by decide) (by decide) (by decide)⟩
    · rw [saf, keeps_advance s _ .saf (by decide)]
    · rw [det, advance_time]
  · refine does_monitored (o := execLaneReadbackFault l b true s) rfl rfl hm ?_ (laneReadbackFault_spec (b := b) ⟨safe, first⟩ hi rfl)
    have differs : (s.saf.enCopy.testBit l && decide (b ≠ s.goLevel l)) = true := by
      rw [he, hb]
      cases s.goLevel l <;> rfl
    simp only [if_true, differs, safe, Bool.false_eq_true, if_false]
    rfl
  · refine does_monitored (o := execLaneReadbackFault l b true s) rfl rfl hm ?_ (laneNoted_spec (b := b) rfl)
    have differs : (s.saf.enCopy.testBit l && decide (b ≠ s.goLevel l)) = true := by
      rw [he, hb, goLevel_safe l safe]
      rfl
    simp only [if_true, differs, safe]
    rfl
  · have within : Within ⟨[.regs], [one Reg.SAF_CLKMON], []⟩ (s.advance (s.nextWindow (24 * usec)))
        ((s.advance (s.nextWindow (24 * usec))).setReg Reg.SAF_CLKMON (word n.toNat)) := within_setReg _ _ (.refl _) (.refl _ _)
    refine does_monitored (o := execClkMonWindow n b s) rfl rfl hm ?_
      ⟨reg_setReg_same _ _ _, .of_advance within.regsBut, .of_within within (by decide) (by decide) (by decide)⟩
    dsimp only
    rw [if_pos hw, if_neg (by omega)]
    rfl
  · refine does_monitored (o := execClkMonWindow n true s) rfl rfl hm ?_ (clkMonWindow_spec (n := n) ⟨safe, first⟩ hi rfl rfl)
    dsimp only
    rw [if_pos hw, if_pos hn, Bool.true_and]
    simp only [decide_eq_true_eq]
    rfl
  · exact does_running (o := execHeartbeatToggle s) (t := (s.advance (s.saf.beatAt + 250 * usec)).beaten) rfl rfl hr rfl (beaten_spec _)
  · have trip := tripped_advance (s := s) (w := 0) ⟨safe, first⟩ hi (by decide) (by decide) (s.saf.beatAt + 750 * usec)
    obtain ⟨saf, regs, passes⟩ := trip.plain_passes (by decide)
    refine does_monitored (o := execHeartbeatTimeout true s) rfl rfl hm ?_
      ⟨saf, trip.fault, trip.first_plain (by decide), trip.out, regs, passes⟩
    rw [if_pos hw, if_pos rfl]
  · have within := monWindow_within (s := s) 1
    refine does_running (o := execMonClkWindow n b s) (t := s.monWindow 1) rfl rfl hr ?_
      ⟨flag_setFld_same _ _ _ _ (by decide), ?_, .of_advance within.regsBut, .of_within within (by decide) (by decide) (by decide)⟩
    · rw [decide_eq_false (show ¬ n.toNat < 72 by omega), decide_eq_false (show ¬ 88 < n.toNat by omega)]
      rfl
    · exact Eq.trans (within.parts .saf (by decide)) (keeps_advance s _ .saf (by decide))
  · have trip := monWindow_trips ⟨safe, first⟩ hi
    obtain ⟨ok, saf, regs, passes⟩ := monWindow_passes trip
    refine does_running (o := execMonClkWindow n true s) rfl rfl hr ?_
      ⟨ok, saf, trip.fault, trip.first_plain (by decide), trip.out, regs, passes⟩
    have bad : (decide (n.toNat < 72) || decide (88 < n.toNat)) = true := by
      rw [Bool.or_eq_true, decide_eq_true_eq, decide_eq_true_eq]
      exact hn
    simp only [bad, if_true]
    rfl
  · have trip := trip_tripped (s := s) (code := 9) ⟨safe, first⟩ (by decide) (by decide) 0
    exact does_monitored (o := execOvertempFault true s) rfl rfl hm (detect_genuine hi)
      ⟨trip.saf, trip.fault, trip.first_plain (by decide), trip.out, (trip.plain (by decide)).regsBut, trip.within.parts⟩
  · exact does_monitored (o := execStopN true s) rfl rfl hm rfl (stopN_trips ⟨safe, first⟩ rfl)
  · exact does_monitored (o := execStopN false s) (t := s.stopShown false) rfl rfl hm rfl
      ⟨flag_setFld_same _ _ _ _ (by decide), (stopShown_within false).regsBut, (stopShown_within false).parts⟩
  · obtain ⟨gen, unseen, flag, lanes, posted⟩ := coreSees_spec (s := s) c w rxs
    refine does_running (o := execCoreSeesSafeState rxs s) (t := s.coreSees c w rxs) rfl rfl hr (by simp only [hu])
      ⟨by rw [gen], by rw [gen], by rw [gen], unseen, flag, fun l => ?_, posted⟩
    rw [lanes l]
    exact ⟨rfl, rfl⟩
  · exact does_running (o := execSafInject v s) rfl rfl hr ((writeInject_eq hp h1 h9).trans (if_neg (by omega)))
      ⟨rfl, (within_setSaf s _ (.refl _) (.refl _ s)).parts⟩
  · exact does_running (o := execSafInject v s) rfl rfl hr ((writeInject_eq hp (by omega) (by omega)).trans (if_pos hc)) (injecting_seen rfl hc ht rfl)
  · exact does_running (o := execSafTestEnter s) (t := s.authAccepted.authEnd.enterTest) rfl rfl hr (by simp only [ha, hp, if_true]) testEntered_spec
  · exact does_running (o := execSafTestEnter s) (t := s.authRefused) rfl rfl hr (by simp only [ha, hp, if_false])
      ⟨authRefused_spec s, (authRefused_within s).regsBut, (authRefused_within s).parts⟩

end Sys2Proof.Machine

/-! The recorder (O50): ring lines, the holding queue, freeze, SIL_CLEAR, staging pages, rate-limit windows. -/

namespace Sys2Proof.Machine

variable {s : State}

/-! ### Ring writes (R441, R442, R444, R450) -/

theorem Sparse.get_write_in {α : Type} [DecidableEq α] (d : α) (l : List α) {i : Nat} (h : i < l.length) :
    ∀ (m : List (Nat × α)) (k : Nat), Sparse.get (Sparse.write m d k l) d (k + i) = (l[i]?).getD d := by
  induction l generalizing i with
  | nil => exact absurd h (Nat.not_lt_zero i)
  | cons v l ih =>
    intro m k
    rw [Sparse.write]
    match i with
    | 0 => exact (Sparse.get_write_ne _ _ _ _ _ (.inl (Nat.lt_succ_self k))).trans (Sparse.get_put_same _ _ _ _)
    | i + 1 =>
      rw [show k + (i + 1) = k + 1 + i by omega]
      exact ih (Nat.lt_of_succ_lt_succ h) _ _

/-- The recorder with record `r` in line `l`, the intake's rest behind it. -/
def SilSt.stored (x : SilSt) (r : Rec) (rest : List Rec) (l : Nat) : SilSt :=
  { x with intake := rest, lastLine := l, lines := (x.lines.filter fun y => y.line ≠ l) ++ [{ line := l, note := r.note, seq := r.seq }] }

/-- What the ring's writing needs to be: the head of the intake goes to line `l`. -/
structure Writes (s : State) (r : Rec) (rest : List Rec) (l : Nat) : Prop where
  blocked : s.silBlocked = false
  stopped : s.obs.sil.stopped = false
  hold : s.obs.sil.hold = []
  intake : s.obs.sil.intake = r :: rest
  line : s.obs.sil.chooseLine r.note = some l

section
variable {r : Rec} {rest : List Rec} {l : Nat}

theorem ringPut_eq (h : s.obs.sil.chooseLine r.note = some l) :
    s.ringPut r = (s.setSil (s.obs.sil.stored r s.obs.sil.intake l)).sramWrite (lineAddr l) r.bytes := by
  unfold State.ringPut
  rw [h]
  rfl

theorem Writes.ringMove (h : Writes s r rest l) : s.ringMove = (s.setSil (s.obs.sil.stored r rest l)).sramWrite (lineAddr l) r.bytes := by
  unfold State.ringMove
  dsimp only
  rw [if_neg (by rw [h.blocked]; exact Bool.false_ne_true)]
  split
  · next e => rw [h.hold] at e; cases e
  · next e =>
    rw [h.intake] at e
    cases e
    rw [if_neg (by rw [h.stopped]; exact Bool.false_ne_true)]
    exact ringPut_eq h.line
  · next e => rw [h.intake] at e; cases e

theorem Writes.ringNext (h : Writes s r rest l) : s.ringNext = some (r, false) := by
  unfold State.ringNext
  simp only [h.blocked, h.hold, h.intake, h.stopped, Bool.or_self, Bool.false_eq_true, if_false]

end

theorem sramByte_sramWrite_in {a : Nat} {b : List Byte} {i : Nat} (h : i < b.length) : (s.sramWrite a b).sramByte (a + i) = (b[i]?).getD 0 :=
  Sparse.get_write_in 0 b h _ _

theorem sramByte_sramWrite_out {a : Nat} {b : List Byte} {k : Nat} (h : k < a ∨ a + b.length ≤ k) : (s.sramWrite a b).sramByte k = s.sramByte k :=
  Sparse.get_write_ne _ _ _ _ _ h

/-- The window that the first retired line opens (R450). -/
def lineWindow (now : Nat) : Window :=
  { code := 0xC001, scope := 0, note := .base, form := .count, arg := 0, ends := now + second, length := second, held := 0 }

/-- The recorder with line `l` retired. -/
def SilSt.without (x : SilSt) (l : Nat) : SilSt := { x with retired := x.retired ++ [l], lines := x.lines.filter fun y => y.line ≠ l }

theorem retireLine_first {l : Nat} (h : s.obs.sil.retired = []) :
    s.retireLine l = ((s.setSil (s.obs.sil.without l)).setWins (s.obs.windows ++ [lineWindow s.time])).post 0xC001 .base l := by
  have one : (s.obs.sil.retired ++ [l]).length = 1 := by rw [h]; rfl
  unfold State.retireLine
  dsimp only
  rw [if_pos h, if_neg (by rw [one]; omega)]
  rfl

/-- What a lost line leaves of the rest of the recorder. -/
theorem putBack_lost (r : Rec) (l : Nat) (u v : State) (hv : v = (u.setSil (u.obs.sil.without l)).setWins (u.obs.windows ++ [lineWindow u.time])) {t : State}
    (ht : t = ((v.post 0xC001 .base l).spoilLine l).putBack r false) :
    t.obs.sil = { u.obs.sil.without l with intake := r :: u.obs.sil.intake } ∧ t.obs.windows = u.obs.windows ++ [lineWindow u.time] ∧
      Posted 0xC001 .base l t := by
  subst ht hv
  exact ⟨rfl, rfl, posted_post _ _ _ _⟩

/-- A record taken from the intake's head and put back, its line retired. -/
theorem stored_without {x : SilSt} {r : Rec} {rest : List Rec} (l : Nat) (hi : x.intake = r :: rest) (hr : x.retired = []) :
    { (x.stored r rest l).without l with intake := r :: (x.stored r rest l).intake } =
      { x with lastLine := l, lines := x.lines.filter fun y => y.line ≠ l, retired := [l] } := by
  have lines : ((x.stored r rest l).without l).lines = x.lines.filter fun y => y.line ≠ l := by simp [SilSt.without, SilSt.stored]
  have retired : x.retired ++ [l] = [l] := by rw [hr]; rfl
  show ({ x with intake := r :: rest, lastLine := l, lines := ((x.stored r rest l).without l).lines, retired := x.retired ++ [l] } : SilSt) = _
  rw [lines, retired, ← hi]

theorem lineOut_spoilLine (l : Nat) {a : Nat} (h : a < lineAddr l ∨ lineAddr l + 64 ≤ a) : (s.spoilLine l).sramByte a = s.sramByte a := by
  refine (sramByte_sramWrite_out ?_).trans rfl
  rw [length_unpackWords, List.length_map, List.length_range]
  exact h

/-- The line has not kept its record: it is retired, and the record waits again. -/
theorem lineLost_spec {r : Rec} {rest : List Rec} {l : Nat} (h : Writes s r rest l) (hr : s.obs.sil.retired = []) {t : State}
    (ht : t = ((s.ringMove.retireLine l).spoilLine l).putBack r false) :
    t.obs.sil = { s.obs.sil with lastLine := l, lines := s.obs.sil.lines.filter fun y => y.line ≠ l, retired := [l] } ∧
      t.obs.windows = s.obs.windows ++ [lineWindow s.time] ∧
      Posted 0xC001 .base l t ∧ (∀ a : Nat, (a < lineAddr l ∨ lineAddr l + 64 ≤ a) → t.sramByte a = s.sramByte a) ∧
      Keeps [.sram, .obs, .free] s t := by
  have within : Within ⟨[.sram, .obs, .free], [], [ringBytes]⟩ s t := by
    rw [ht]
    exact within_putBack _ _ _ (.of (by decide)) (within_spoilLine _ _ (.of (by decide)) (within_retireLine _ _ (.of (by decide))
      (within_ringMove s (.of (by decide)) (.refl _ s))))
  obtain ⟨u, hu⟩ : ∃ u, u = s.ringMove := ⟨_, rfl⟩
  have sil : u.obs.sil = s.obs.sil.stored r rest l := by rw [hu, h.ringMove]; rfl
  have windows : u.obs.windows = s.obs.windows := by rw [hu, h.ringMove]; rfl
  have time : u.time = s.time := by rw [hu, h.ringMove]; rfl
  have bytes (a : Nat) (ha : a < lineAddr l ∨ lineAddr l + 64 ≤ a) : u.sramByte a = s.sramByte a := by
    rw [hu, h.ringMove]
    exact sramByte_sramWrite_out (by rwa [length_recBytes])
  have first : u.obs.sil.retired = [] := by rw [sil]; exact hr
  obtain ⟨v, hv⟩ : ∃ v, v = (u.setSil (u.obs.sil.without l)).setWins (u.obs.windows ++ [lineWindow u.time]) := ⟨_, rfl⟩
  rw [← hu, retireLine_first first, ← hv] at ht
  obtain ⟨silT, windowsT, posted⟩ := putBack_lost r l u v hv ht
  refine ⟨?_, ?_, posted, fun a ha => ?_, within.parts⟩
  · rw [silT, sil]
    exact stored_without l h.intake hr
  · rw [windowsT, windows, time]
  · rw [ht]
    refine Eq.trans (lineOut_spoilLine l ha) ?_
    rw [hv]
    exact bytes a ha

/-! ### The holding queue -/

theorem ringMove_held {r : Rec} {rest : List Rec} (hb : s.silBlocked = true) (hl : s.obs.sil.hold.length < 64) (hi : s.obs.sil.intake = r :: rest) :
    s.ringMove = s.setSil { s.obs.sil with intake := rest, hold := s.obs.sil.hold ++ [{ r with held := true }] } := by
  unfold State.ringMove
  dsimp only
  rw [if_pos hb]
  split
  · next e =>
    rw [hi] at e
    cases e
    unfold State.holdPut
    dsimp only
    exact (if_pos hl).trans rfl
  · next e => rw [hi] at e; cases e

theorem ringNext_blocked (hb : s.silBlocked = true) : s.ringNext = none := by
  unfold State.ringNext
  dsimp only
  rw [hb, Bool.true_or, if_pos rfl]

/-! ### Freeze (R444, R445) -/

/-- What a write of FREEZE does to its register. -/
theorem writeFreeze_reg (v : Word) :
    s.writeReg Reg.SIL_FREEZE v = s.setReg Reg.SIL_FREEZE
      (Fld.SIL_FREEZE_FREEZE.set (s.reg Reg.SIL_FREEZE) (Fld.SIL_FREEZE_FREEZE.get v) &&& ~~~(v &&& Fld.SIL_FREEZE_EXPIRED.mask)) := by
  have row : findRow Reg.SIL_FREEZE = some ⟨0x80014, 1, 4, 1, 4, 0, false, [⟨Fld.SIL_FREEZE_FREEZE, .rw, 0, 0xFFFFFFFF⟩,
    ⟨Fld.SIL_FREEZE_EXPIRED, .w1c, 0, 0xFFFFFFFF⟩, ⟨Fld.SIL_FREEZE_HELD, .ro, 0, 0xFFFFFFFF⟩]⟩ := by decide +kernel
  have small : ¬ 0xFFFFFFFF < Fld.SIL_FREEZE_FREEZE.get v := by
    have bound := Fld.SIL_FREEZE_FREEZE.get_lt v
    have pow : 2 ^ Fld.SIL_FREEZE_FREEZE.width = 2 := rfl
    omega
  rw [writeReg_free s v row (.of (by decide +kernel)) rfl]
  simp only [RegRow.write, List.foldl_cons, List.foldl_nil, FieldRow.write, Bool.false_and, Nat.not_lt_zero, decide_false, small, Bool.or_self,
    Bool.false_eq_true, if_false]

/-- FREEZE itself becomes what is written, with EXPIRED left alone. -/
theorem writeFreeze_flag {v : Word} (he : v &&& Fld.SIL_FREEZE_EXPIRED.mask = 0) :
    (s.writeReg Reg.SIL_FREEZE v).flag Reg.SIL_FREEZE Fld.SIL_FREEZE_FREEZE = decide (Fld.SIL_FREEZE_FREEZE.get v ≠ 0) := by
  rw [writeFreeze_reg, he, State.flag, State.fld, reg_setReg_same]
  have all (w : Word) : w &&& ~~~(0 : Word) = w := by
    rw [show ~~~(0 : Word) = BitVec.allOnes 32 by decide, BitVec.and_allOnes]
  rw [all, Field.get_set_same _ _ _ (by decide), Nat.mod_eq_of_lt (Field.get_lt _ v)]

/-- A write of SIL.FREEZE that starts a freeze, or ends one. -/
theorem writeFreeze_spec {v : Word} (he : v &&& Fld.SIL_FREEZE_EXPIRED.mask = 0) {t : State} (ht : t = s.writeFreeze v) :
    t.flag Reg.SIL_FREEZE Fld.SIL_FREEZE_FREEZE = decide (Fld.SIL_FREEZE_FREEZE.get v ≠ 0) ∧
      (Fld.SIL_FREEZE_FREEZE.get v ≠ 0 → s.flag Reg.SIL_FREEZE Fld.SIL_FREEZE_FREEZE = false →
        t.obs.sil = { s.obs.sil with freezeEnd := some (s.time + s.fld Reg.SIL_CTRL Fld.SIL_CTRL_FREEZE_MAX * 10 * msec) }) ∧
      (Fld.SIL_FREEZE_FREEZE.get v = 0 → t.obs.sil = { s.obs.sil with freezeEnd := none }) ∧
      RegsBut [Reg.SIL_FREEZE] s t ∧ Keeps [.regs, .obs] s t := by
  have within : Within ⟨[.regs, .obs], [one Reg.SIL_FREEZE], []⟩ s t := ht ▸ within_writeFreeze s v (.refl _) (.refl _ s)
  have flag := writeFreeze_flag (s := s) he
  have same : (s.writeReg Reg.SIL_FREEZE v).obs.sil = s.obs.sil ∧ (s.writeReg Reg.SIL_FREEZE v).time = s.time ∧
      (s.writeReg Reg.SIL_FREEZE v).reg Reg.SIL_CTRL = s.reg Reg.SIL_CTRL := by
    rw [writeFreeze_reg]
    exact ⟨rfl, rfl, reg_setReg_ne _ _ _ _ (by decide)⟩
  obtain ⟨sil, time, ctrl⟩ := same
  obtain ⟨u, hu⟩ : ∃ u, u = s.writeReg Reg.SIL_FREEZE v := ⟨_, rfl⟩
  rw [← hu] at flag sil time ctrl
  have set (y : SilSt) : (u.setSil y).flag Reg.SIL_FREEZE Fld.SIL_FREEZE_FREEZE = decide (Fld.SIL_FREEZE_FREEZE.get v ≠ 0) := flag
  unfold State.writeFreeze at ht
  dsimp only at ht
  rw [← hu] at ht
  refine ⟨?_, fun hv hf => ?_, fun hv => ?_, within.regsBut, within.parts⟩
  · rw [ht]
    split
    · exact set _
    · split
      · exact flag
      · exact set _
  · have is : u.flag Reg.SIL_FREEZE Fld.SIL_FREEZE_FREEZE = true := flag.trans (decide_eq_true hv)
    rw [if_pos (by rw [is, hf]; rfl)] at ht
    rw [ht, ← sil, ← time, ← fld_of_reg ctrl]
    rfl
  · have is : u.flag Reg.SIL_FREEZE Fld.SIL_FREEZE_FREEZE = false := flag.trans (decide_eq_false (fun h => h hv))
    rw [if_neg (by rw [is]; exact Bool.false_ne_true), if_neg (by rw [is]; exact Bool.false_ne_true)] at ht
    rw [ht, ← sil]
    rfl

/-- The freeze is over. -/
def State.thawed (s : State) : State :=
  (((s.setFld Reg.SIL_FREEZE Fld.SIL_FREEZE_FREEZE 0).stick Reg.SIL_FREEZE Fld.SIL_FREEZE_EXPIRED).setSil { s.obs.sil with freezeEnd := none }).post
    0xC004 .top 0

theorem thawed_spec :
    s.thawed.flag Reg.SIL_FREEZE Fld.SIL_FREEZE_FREEZE = false ∧ s.thawed.flag Reg.SIL_FREEZE Fld.SIL_FREEZE_EXPIRED = true ∧
      s.thawed.obs.sil.freezeEnd = none ∧ Posted 0xC004 .top 0 s.thawed ∧ Within ⟨[.regs, .obs], [one Reg.SIL_FREEZE], []⟩ s s.thawed := by
  have reg : s.thawed.reg Reg.SIL_FREEZE = ((s.setFld Reg.SIL_FREEZE Fld.SIL_FREEZE_FREEZE 0).setFld Reg.SIL_FREEZE Fld.SIL_FREEZE_EXPIRED 1).reg
    Reg.SIL_FREEZE := rfl
  refine ⟨?_, ?_, rfl, posted_post _ _ _ _, ?_⟩
  · rw [flag_of_reg reg, flag_setFld_other _ _ _ _ _ (by decide) (by decide)]
    exact flag_setFld_same _ _ _ _ (by decide)
  · rw [flag_of_reg reg]
    exact flag_setFld_same _ _ _ _ (by decide)
  · exact within_post (.of (by decide)) (within_setSil (.of (by decide)) (within_stick _ _ (.of (by decide))
      (within_setFld _ _ _ (.of (by decide)) (.refl _ s))) _) _ _ _

/-! ### SIL_CLEAR (R446, R447) -/

/-- Clearing changes the ring's bytes alone. -/
theorem get_clearLines (retired : List Nat) {a : Nat} (h : a < 0x780000 ∨ 0x880000 ≤ a) (m : List (Nat × Byte)) :
    Sparse.get (clearLines retired m) 0 a = Sparse.get m 0 a := by
  induction m with
  | nil => rfl
  | cons x m ih =>
    obtain ⟨k, v⟩ := x
    rw [clearLines, Sparse.get_cons]
    split
    · next inRing =>
      rw [if_neg (by omega)]
      exact ih
    · rw [Sparse.get_cons, ih]

/-- The recorder as a clear leaves it. -/
def SilSt.cleared (x : SilSt) (vault : Bool) : SilSt :=
  { x with lines := [], hold := [], dropHeart := 0, dropTop := 0, holdHeart := 0, holdTop := 0, freezeEnd := none, clearing := true,
           vault := if vault then [] else x.vault, prior := if vault then [] else x.prior }

theorem keeps_with_sram (m : List (Nat × Byte)) : Keeps [.sram] s { s with sram := m } := by
  intro p hp
  cases p
  case sram => exact absurd (List.mem_singleton_self _) hp
  all_goals rfl

theorem clearLog_spec (vault : Bool) (c : Nat) :
    (s.clearLog vault c).obs.sil = s.obs.sil.cleared vault ∧ (s.clearLog vault c).flag Reg.SIL_FREEZE Fld.SIL_FREEZE_FREEZE = false ∧
      Posted 0xC002 .base c (s.clearLog vault c) ∧ RingOnly s (s.clearLog vault c) ∧
      RegsBut [Reg.SIL_FREEZE] s (s.clearLog vault c) ∧ Keeps [.regs, .sram, .obs] s (s.clearLog vault c) := by
  obtain ⟨u, hu⟩ : ∃ u, u = (s.setReg Reg.SIL_FREEZE (Fld.SIL_FREEZE_FREEZE.set (s.reg Reg.SIL_FREEZE) 0)).setSil (s.obs.sil.cleared vault) := ⟨_, rfl⟩
  have eq : s.clearLog vault c = { u with sram := clearLines s.obs.sil.retired u.sram }.post 0xC002 .base c := hu ▸ rfl
  have thawed : u.flag Reg.SIL_FREEZE Fld.SIL_FREEZE_FREEZE = false := hu ▸ flag_setFld_same s Reg.SIL_FREEZE Fld.SIL_FREEZE_FREEZE 0 (by decide)
  have within : Within ⟨[.regs, .obs], [one Reg.SIL_FREEZE], []⟩ s u :=
    hu ▸ within_setSil (.of (by decide)) (within_setReg _ _ (.of (by decide)) (.refl _ s)) _
  have sil : u.obs.sil = s.obs.sil.cleared vault := hu ▸ rfl
  have regs : RegsBut [Reg.SIL_FREEZE] s u := within.regsBut
  have sram : u.sram = s.sram := within.parts .sram (by decide)
  rw [eq]
  refine ⟨sil, thawed, posted_post _ _ _ _, fun a ha => ?_, regs, ?_⟩
  · refine (get_clearLines _ ha u.sram).trans ?_
    rw [sram]
    rfl
  · exact (within.parts.mono (by decide)).trans (((keeps_with_sram _).mono (by decide)).trans ((keeps_post _ _ _ _).mono (by decide)))

/-- `SIL_CLEAR` accepted. -/
theorem silCleared_spec (vault : Bool) (c : Nat) {t : State} (ht : t = s.authAccepted.authEnd.clearLog vault c) :
    AuthAccepted s t ∧ t.flag Reg.SIL_FREEZE Fld.SIL_FREEZE_FREEZE = false ∧ t.obs.sil = s.obs.sil.cleared vault ∧ Posted 0xC002 .base c t ∧
      RingOnly s t ∧ RegsBut [Reg.CFG_AUTH_STATUS, Reg.GEN_IRQ_STATUS, Reg.SIL_FREEZE] s t ∧ Keeps [.regs, .cfg, .sram, .obs] s t := by
  have accepted : AuthAccepted s s.authAccepted.authEnd := (authAccepted_spec s).of_reg rfl rfl
  have within : Within ⟨[.regs, .cfg, .obs], [Reg.CFG_AUTH_STATUS, Reg.GEN_IRQ_STATUS].map one, []⟩ s s.authAccepted.authEnd :=
    within_authEnd _ (.of (by decide)) ((authAccepted_within s).mono (.of (by decide)))
  have before : s.authAccepted.authEnd.obs.sil = s.obs.sil := rfl
  obtain ⟨u, hu⟩ : ∃ u, u = s.authAccepted.authEnd := ⟨_, rfl⟩
  rw [← hu] at accepted within before ht
  obtain ⟨sil, thawed, posted, ring, regs, kept⟩ := clearLog_spec (s := u) vault c
  rw [← ht] at sil thawed posted ring regs kept
  refine ⟨accepted.of_reg (regs _ (by decide)) (regs _ (by decide)), thawed, sil.trans (by rw [before]), posted, ?_, fun a ha => ?_, ?_⟩
  · exact RingOnly.trans (.of_sram (within.parts .sram (by decide))) ring
  · simp only [List.mem_cons, List.not_mem_nil, or_false, not_or] at ha
    obtain ⟨h1, h2, h3⟩ := ha
    exact (regs a (by simpa using h3)).trans (within.regsBut a (by simp [h1, h2]))
  · exact (within.parts.mono (by decide)).trans (kept.mono (by decide))

/-! ### Staging pages (R452) -/

/-- The first staging page keeps its time and its records, in their order, others behind them. -/
def Staging (a b : List Stage) : Prop :=
  ∀ g l, a = g :: l → ∃ p k, b = p :: k ∧ p.since = g.since ∧ g.recs <+: p.recs

theorem Staging.refl (a : List Stage) : Staging a a := fun g l h => ⟨g, l, h, rfl, List.prefix_rfl⟩

theorem Staging.trans {a b c : List Stage} (h : Staging a b) (k : Staging b c) : Staging a c := by
  intro g l e
  obtain ⟨p, m, eb, sp, rp⟩ := h g l e
  obtain ⟨q, n, ec, sq, rq⟩ := k p m eb
  exact ⟨q, n, ec, sq.trans sp, rp.trans rq⟩

/-- `t` has the staging pages of `s`, with records put behind theirs. -/
def Stages (s t : State) : Prop := Staging s.obs.sil.stages t.obs.sil.stages

theorem Stages.of_same {s t : State} (h : t.obs.sil.stages = s.obs.sil.stages) : Stages s t := by
  rw [Stages, h]
  exact .refl _

theorem Stages.of_sil {s t : State} (h : t.obs.sil = s.obs.sil) : Stages s t := .of_same (congrArg SilSt.stages h)

theorem Stages.trans {s t u : State} (h : Stages s t) (k : Stages t u) : Stages s u := Staging.trans h k

theorem Stages.ite {s t u : State} {c : Prop} [Decidable c] (h : Stages s t) (k : Stages s u) : Stages s (if c then t else u) := by
  split
  · exact h
  · exact k

theorem Stages.foldl {α : Type} (f : State → α → State) (hf : ∀ t x, Stages t (f t x)) (l : List α) : ∀ s : State, Stages s (l.foldl f s) := by
  induction l with
  | nil => exact fun _ => .of_same rfl
  | cons x l ih => exact fun s => (hf s x).trans (ih _)

theorem stages_postSec (c k : Nat) (n : Note) (a : Nat) : Stages s (s.postSec c k n a) := .of_sil (postLimited_sil _ _ _ _ _ _ _)

theorem stages_setSil {x : SilSt} (h : x.stages = s.obs.sil.stages) : Stages s (s.setSil x) := .of_same h

theorem stages_setSil_postSec {x : SilSt} (h : x.stages = s.obs.sil.stages) (c k : Nat) (n : Note) (a : Nat) :
    Stages s ((s.setSil x).postSec c k n a) := (stages_setSil h).trans (stages_postSec _ _ _ _)

theorem stages_silDrop (n : Note) : Stages s (s.silDrop n) := by
  unfold State.silDrop
  cases n with
  | base => exact .of_same rfl
  | heart =>
    refine stages_setSil_postSec ?_ _ _ _ _
    rfl
  | top =>
    refine stages_setSil_postSec ?_ _ _ _ _
    rfl

theorem stages_spillLose : Stages s s.spillLose := by
  refine stages_setSil_postSec ?_ _ _ _ _
  rfl

theorem stages_vaultPut (r : Rec) : Stages s (s.vaultPut r) := by
  unfold State.vaultPut
  refine .ite (.of_same rfl) ?_
  dsimp only
  split
  · exact .of_same rfl
  · exact (stages_silDrop _).trans (.of_same rfl)

/-- A page put behind the others. -/
theorem staging_append (a b : List Stage) : Staging a (a ++ b) := by
  intro g l e
  exact ⟨g, l ++ b, by rw [e]; rfl, rfl, List.prefix_rfl⟩

/-- A record put on the last page. -/
theorem staging_last (a : List Stage) {p q : Stage} (hs : q.since = p.since) (hr : p.recs <+: q.recs) : Staging (a ++ [p]) (a ++ [q]) := by
  intro g l e
  match a with
  | [] =>
    cases e
    exact ⟨q, [], rfl, hs, hr⟩
  | h :: a =>
    cases e
    exact ⟨_, _, rfl, rfl, List.prefix_rfl⟩

theorem stages_stage (r : Rec) : Stages s (s.stage r) := by
  unfold State.stage
  dsimp only
  split
  · next p rest e =>
    have eq : s.obs.sil.stages = rest.reverse ++ [p] := by rw [← List.reverse_reverse s.obs.sil.stages, e, List.reverse_cons]
    refine .ite (.ite ?_ stages_spillLose) ?_
    · exact staging_append _ _
    · show Staging s.obs.sil.stages _
      rw [eq]
      exact staging_last _ rfl (List.prefix_append _ _)
  · next e =>
    have eq : s.obs.sil.stages = [] := List.reverse_eq_nil_iff.1 e
    intro g l h
    rw [eq] at h
    cases h

theorem stages_silOffer (e : Event) : Stages s (s.silOffer e) := by
  unfold State.silOffer
  dsimp only
  split
  · exact .of_same rfl
  · exact .ite stages_spillLose (Stages.trans (t := s.takeSeq) (.of_same rfl) (stages_stage _))
  · refine .ite (stages_silDrop _) ?_
    have taken : Stages s s.takeSeq := .of_same rfl
    have staged : Stages s (if s.flag Reg.SIL_CTRL Fld.SIL_CTRL_SPILL_EN
          && decide (e.note.rank ≤ s.fld Reg.SIL_CTRL Fld.SIL_CTRL_SPILL_MIN) then s.takeSeq.stage (s.makeRec e (s.trigger e.code))
        else s.takeSeq) := .ite (taken.trans (stages_stage _)) taken
    exact staged.trans (.ite (stages_vaultPut _) (stages_setSil rfl))

theorem evqLose_sil (p : Nat) : (s.evqLose p).obs.sil = s.obs.sil := by
  unfold State.evqLose
  dsimp only
  split <;> rfl

theorem evqOffer_sil (e : Event) : (s.evqOffer e).obs.sil = s.obs.sil := by
  unfold State.evqOffer
  split
  · dsimp only
    split
    · rfl
    · exact evqLose_sil _
  · rfl

theorem trace_sil (k : Nat) (l : List Byte) : (s.trace k l).obs.sil = s.obs.sil := by
  have same {c : Prop} [Decidable c] {t u : State} (h : t.obs.sil = s.obs.sil) (k : u.obs.sil = s.obs.sil) : (if c then t else u).obs.sil = s.obs.sil := by
    split
    · exact h
    · exact k
  unfold State.trace
  exact same (same rfl rfl) rfl

theorem traceEvent_sil (e : Event) : (s.traceEvent e).obs.sil = s.obs.sil := by
  unfold State.traceEvent
  split
  · exact trace_sil _ _
  · rfl

theorem stages_traceDecisions : Stages s s.traceDecisions := by
  unfold State.traceDecisions
  refine .ite ?_ (.of_same rfl)
  exact Stages.trans (t := s.setTrc { s.obs.trc with decisions := [] }) (.of_same rfl) (.foldl _ (fun _ _ => .of_sil (trace_sil _ _)) _ _)

theorem stages_flush : Stages s s.flush := by
  unfold State.flush
  dsimp only
  refine Stages.trans ?_ (.of_same rfl)
  refine Stages.trans ?_ (.foldl _ (fun _ _ => .of_sil (traceEvent_sil _)) _ _)
  refine Stages.trans ?_ stages_traceDecisions
  refine Stages.trans ?_ (.foldl _ (fun _ _ => .of_sil (evqOffer_sil _)) _ _)
  exact Stages.trans (t := { s with obs := { s.obs with posted := [] } }) (.of_same rfl) (.foldl _ (fun _ _ => stages_silOffer _) _ _)

theorem stages_ringPut (r : Rec) : Stages s (s.ringPut r) := by
  unfold State.ringPut
  split
  · exact .of_same rfl
  · exact (stages_silDrop _).trans (.of_same rfl)

theorem stages_holdPut (r : Rec) : Stages s (s.holdPut r) := by
  have lost (x : SilSt) (h : x.stages = s.obs.sil.stages) : Stages s (((s.setSil x).postSec 0xC006 0 .top 0).count 21) :=
    (stages_setSil_postSec h _ _ _ _).trans (.of_same rfl)
  unfold State.holdPut
  refine .ite (.of_same rfl) ?_
  split
  · exact stages_vaultPut _
  · exact lost _ rfl
  · exact lost _ rfl

theorem stages_ringMove : Stages s s.ringMove := by
  have hold (x : SilSt) (h : x.stages = s.obs.sil.stages) (r : Rec) : Stages s ((s.setSil x).holdPut r) := (stages_setSil h).trans (stages_holdPut _)
  have put (x : SilSt) (h : x.stages = s.obs.sil.stages) (c : Prop) [Decidable c] (r : Rec) :
      Stages s (if c then (s.setSil x).vaultPut r else (s.setSil x).ringPut r) :=
    .ite ((stages_setSil h).trans (stages_vaultPut _)) ((stages_setSil h).trans (stages_ringPut _))
  unfold State.ringMove
  dsimp only
  split
  · split
    · refine hold _ ?_ _
      rfl
    · exact .of_same rfl
  · split
    · refine put _ ?_ _ _
      rfl
    · refine put _ ?_ _ _
      rfl
    · exact .of_same rfl

theorem setEvqX_sil (x : EvqSt) : (s.setEvqX x).obs.sil = s.obs.sil := by
  unfold State.setEvqX
  dsimp only
  split <;> rfl

theorem evqMove_sil : s.evqMove.obs.sil = s.obs.sil := by
  unfold State.evqMove
  dsimp only
  split
  · rfl
  · split
    · exact setEvqX_sil _
    · split
      · split
        · exact (evqLose_sil _).trans (setEvqX_sil _)
        · rfl
      · rfl

theorem stages_moves (n : Nat) : ∀ s : State, Stages s (State.moves n s) := by
  induction n with
  | zero => exact fun _ => .of_same rfl
  | succ n ih => exact fun s => (stages_ringMove.trans (.of_sil evqMove_sil)).trans (ih _)

theorem stages_settle : Stages s s.settle := by
  unfold State.settle
  refine .ite (.of_same rfl) (Stages.trans ?_ stages_flush)
  exact Stages.trans (t := { s with time := s.time + cycle }) (.of_same rfl) (stages_moves _ _)

theorem stages_advance (e : Nat) : Stages s (s.advance e) := by
  unfold State.advance
  refine .ite (.of_same rfl) ?_
  dsimp only
  have settled : Stages s (if s.time + cycle ≤ e then s.settle else s) := .ite stages_settle (.of_same rfl)
  generalize (if s.time + cycle ≤ e then s.settle else s) = u at settled ⊢
  exact settled.trans (Stages.trans (t := { u with time := e }) (.of_same rfl) (Stages.trans (stages_moves _ _) (.of_same rfl)))

/-- Every page handed over. -/
def State.handed (s : State) : State := s.setSil { s.obs.sil with stages := s.obs.sil.stages.map fun (q : Stage) => { q with handed := true } }

theorem handed_head {g : Stage} (hg : s.obs.sil.stages = [g]) (e : Nat) :
    (((s.advance e).handed.obs.sil.stages.head?).any fun p =>
      p.handed && decide (p.since = g.since) && decide (p.recs.take g.recs.length = g.recs)) = true := by
  obtain ⟨p, l, ep, since, recs⟩ := stages_advance (s := s) e g [] hg
  have head : (s.advance e).handed.obs.sil.stages.head? = some { p with handed := true } := by
    show ((s.advance e).obs.sil.stages.map _).head? = _
    rw [ep]
    rfl
  have start : p.recs.take g.recs.length = g.recs := (List.prefix_iff_eq_take.1 recs).symm
  rw [head, Option.any_some, decide_eq_true since, decide_eq_true start]
  rfl

/-! ### Rate-limit windows (R622) -/

theorem findWin_only {w : Window} {c k : Nat} (hw : s.obs.windows = [w]) (hc : w.code = c) (hk : w.scope = k) : findWin s.obs.windows c k = some w := by
  rw [hw, findWin, if_pos ⟨hc, hk⟩]

/-- The end of the only window. -/
theorem rateWindowEnd_only {w : Window} {c k : Nat} (hr : Clocked s) (hw : s.obs.windows = [w]) (hc : w.code = c) (hk : w.scope = k)
    (he : w.ends ≤ s.time) {P : State → Prop} (hp : P (s.closeWin w)) : Does (.rateWindowEnd c k) s P := by
  have found := findWin_only hw hc hk
  have now : s.advance w.ends = s := by rw [State.advance, if_pos he]
  refine does_clocked (o := execRateWindowEnd c k s) (t := s.closeWin w) rfl rfl hr ?_ hp
  simp only [found, now, he, if_true]

theorem dropWin_only {w : Window} (hw : s.obs.windows = [w]) : dropWin s.obs.windows w.code w.scope = [] := by
  rw [hw, dropWin, if_pos ⟨rfl, rfl⟩, dropWin]

/-! ### The statement -/

/-- Settles O50: the ring by `Writes.ringMove`, the rest by what each command leaves of the recorder. -/
theorem recorderRing : Obligations.RecorderRing := by
  refine ⟨fun s r rest l hr hb hs hh hi hl => ?_, fun s b r rest hr hb hl hi => ?_, fun s r rest l hr hb hs hh hi hl hn => ?_,
    fun s v hr hf hv => ?_, fun s v hr hv => ?_, fun s e hr he => ?_, fun s p hr ha hp => ?_, fun s p hr ha hp => ?_, fun s hr => ?_, fun s hr => ?_,
    fun s g hr hg hh => ?_, fun s c k w hr hw hc hk h0 he => ?_, fun s c k w hr hw hc hk h0 he => ?_⟩
  · have writes : Writes s r rest l := ⟨hb, hs, hh, hi, hl⟩
    refine does_clocked (o := execRingWrite true s) (t := s.ringMove) rfl rfl hr (by simp only [writes.ringNext, hl, if_true]) ?_
    have kept : Keeps [.sram, .obs] s s.ringMove := (within_ringMove s (.refl _) (.refl _ s)).parts
    refine ⟨?_, fun i => ?_, fun a ha => ?_, kept⟩
    · rw [writes.ringMove]
      rfl
    · rw [writes.ringMove]
      exact sramByte_sramWrite_in (by rw [length_recBytes]; exact i.isLt)
    · rw [writes.ringMove]
      exact sramByte_sramWrite_out (by rwa [length_recBytes])
  · refine does_clocked (o := execRingWrite b s) rfl rfl hr ?_ ⟨rfl, (within_setSil (.refl _) (.refl _ s) _).parts⟩
    simp only [ringNext_blocked hb]
    exact ringMove_held hb hl hi
  · have writes : Writes s r rest l := ⟨hb, hs, hh, hi, hl⟩
    exact does_clocked (o := execRingWrite false s) rfl rfl hr (by simp only [writes.ringNext, hl, Bool.false_eq_true, if_false])
      (lineLost_spec writes hn rfl)
  · obtain ⟨flag, starts, -, regs, kept⟩ := writeFreeze_spec (s := s) (v := 1) (by decide) rfl
    rw [hv]
    exact does_clocked (o := execFreezeWrite 1 s) rfl rfl hr rfl ⟨flag.trans (by decide), starts (by decide) hf, regs, kept⟩
  · obtain ⟨flag, -, ends, regs, kept⟩ := writeFreeze_spec (s := s) (v := 0) (by decide) rfl
    rw [hv]
    exact does_clocked (o := execFreezeWrite 0 s) rfl rfl hr rfl ⟨flag.trans (by decide), ends (by decide), regs, kept⟩
  · obtain ⟨freeze, expired, over_, posted, within⟩ := thawed_spec (s := s.advance e)
    exact does_clocked (o := execSilFreezeExpired s) (t := (s.advance e).thawed) rfl rfl hr (by simp only [he]; rfl)
      ⟨freeze, expired, over_, posted, .of_advance within.regsBut, .of_within within (by decide) (by decide) (by decide)⟩
  · have within := within_post (.of (by decide)) (authRefused_within s) 0xC007 .heart 0
    refine does_clocked (o := execSilClear s) (t := s.authRefused.post 0xC007 .heart 0) rfl rfl hr (by simp only [ha]; exact if_pos hp)
      ⟨authRefused_spec s, posted_post _ _ _ _, rfl, within.regsBut, within.parts⟩
  · obtain ⟨accepted, thawed, sil, posted, ring, regs, kept⟩ :=
      silCleared_spec (s := s) (decide (leAt p 0 4 = 1)) ((s.cfg.auth.map fun a => a.counter).getD 0) rfl
    refine does_clocked (o := execSilClear s) rfl rfl hr (by simp only [ha]; exact if_neg (by omega)) ?_
    refine ⟨accepted, thawed, congrArg SilSt.lines sil, congrArg SilSt.hold sil, congrArg SilSt.dropHeart sil, congrArg SilSt.dropTop sil,
      congrArg SilSt.holdHeart sil, congrArg SilSt.holdTop sil, congrArg SilSt.clearing sil, ?_, (congrArg SilSt.retired sil).trans rfl, (congrArg SilSt.seq sil).trans rfl,
      posted, ring, regs, kept⟩
    rw [sil, SilSt.cleared]
    simp only [decide_eq_true_eq]
  · exact does_clocked (o := execClearPassDone s) rfl rfl hr rfl ⟨rfl, (within_setSil (.refl _) (.refl _ s) _).parts⟩
  · exact does_clocked (o := execRingInitDone s) rfl rfl hr rfl ⟨rfl, (within_setSil (.refl _) (.refl _ s) _).parts⟩
  · have open_ : (s.obs.sil.stages.find? fun p => !p.handed) = some g := by
      rw [hg, List.find?_cons, hh]
      rfl
    have within (u : State) : Within ⟨[.obs], [], []⟩ u u.handed := within_setSil (.refl _) (.refl _ u) _
    exact does_clocked (o := execSpillFlushExpiry s) rfl rfl hr (by simp only [open_]; rfl)
      ⟨handed_head hg _, .of_within (within _) (by decide) (by decide) (by decide)⟩
  · refine rateWindowEnd_only hr hw hc hk he ⟨?_, (within_closeWin (.refl _) (.refl _ s) w).parts⟩
    rw [State.closeWin, if_pos h0]
    exact dropWin_only hw
  · have kept : Keeps [.obs] s (s.closeWin w) := (within_closeWin (.refl _) (.refl _ s) w).parts
    refine rateWindowEnd_only hr hw hc hk he ?_
    rw [State.closeWin, if_neg (by omega)] at kept ⊢
    refine ⟨?_, ?_, kept⟩
    · show dropWin s.obs.windows w.code w.scope ++ _ = _
      rw [dropWin_only hw]
      rfl
    · rw [← hc]
      rfl

end Sys2Proof.Machine

/-! The event queue (O52): the intake's head, displacement, pops, ageing. -/

namespace Sys2Proof.Machine

variable {s : State}

/-! ### What the watermark leaves alone -/

/-- Two states of the queue that differ in its watermark's marks and its overflow mark at most. -/
structure SameQueue (x y : EvqSt) : Prop where
  entries : y.entries = x.entries
  intake : y.intake = x.intake
  pop1 : y.pop1 = x.pop1
  lost : y.lost = x.lost
  promoted : y.promoted = x.promoted

theorem setEvqX_same (x : EvqSt) : SameQueue x (s.setEvqX x).obs.evq := by
  unfold State.setEvqX
  dsimp only
  split <;> exact ⟨rfl, rfl, rfl, rfl, rfl⟩

theorem within_setEvqX' (x : EvqSt) : Within ⟨[.obs], [], []⟩ s (s.setEvqX x) := within_obs (onlyObs_setEvqX s x) (.refl _) (.refl _ s)

/-! ### The intake (R490) -/

/-- An entry as it enters the queue now. -/
def EvqEntry.entered (h : EvqEntry) (s : State) : EvqEntry := { h with ms := s.dt / 1000 % 1024, since := s.time }

section
variable {h : EvqEntry} {rest : List EvqEntry}

theorem evqMove_room (hi : s.obs.evq.intake = h :: rest) (hl : s.obs.evq.entries.length < 1024) :
    s.evqMove = s.setEvqX { s.obs.evq with intake := rest, entries := s.obs.evq.entries ++ [h.entered s] } := by
  unfold State.evqMove
  dsimp only
  split
  · next e => rw [hi] at e; cases e
  · next e =>
    rw [hi] at e
    cases e
    exact if_pos hl

theorem evqMove_waits (hi : s.obs.evq.intake = h :: rest) (hl : 1024 ≤ s.obs.evq.entries.length) (hp : h.prio ≠ 0) : s.evqMove = s := by
  unfold State.evqMove
  dsimp only
  split
  · rfl
  · next e =>
    rw [hi] at e
    cases e
    rw [if_neg (by omega), if_neg hp]

theorem evqMove_displaces {p : Nat} (hi : s.obs.evq.intake = h :: rest) (hl : 1024 ≤ s.obs.evq.entries.length) (hp : h.prio = 0)
    (hv : s.evqVictim = some p) :
    s.evqMove = (s.setEvqX { s.obs.evq with intake := rest, entries := dropNewestAt p s.obs.evq.entries ++ [h.entered s] }).evqLose p := by
  unfold State.evqMove
  dsimp only
  split
  · next e => rw [hi] at e; cases e
  · next e =>
    rw [hi] at e
    cases e
    rw [if_neg (by omega), if_pos hp, hv]
    rfl

end

/-- The lowest priority held, below priority 0, gives way. -/
theorem evqVictim_eq {p : Nat} (h : p = 3 ∨ (p = 2 ∧ s.evqAt 3 = 0) ∨ (p = 1 ∧ s.evqAt 3 = 0 ∧ s.evqAt 2 = 0)) (hp : s.evqAt p ≠ 0) :
    s.evqVictim = some p := by
  unfold State.evqVictim
  rcases h with rfl | ⟨rfl, h3⟩ | ⟨rfl, h3, h2⟩
  · simp only [firstSome, hp, if_false]
  · simp only [firstSome, h3, hp, if_true, if_false]
  · simp only [firstSome, h3, h2, hp, if_true, if_false]

theorem evqLose_queue {p : Nat} (hp : p < 4) :
    (s.evqLose p).obs.evq.entries = s.obs.evq.entries ∧ (s.evqLose p).obs.evq.intake = s.obs.evq.intake ∧
      ((s.evqLose p).obs.evq.lost[p]?).getD 0 = satAdd 255 ((s.obs.evq.lost[p]?).getD 0) 1 := by
  have lost : (s.evqLose p).obs.evq.lost = s.obs.evq.lost.setIfInBounds p (satAdd 255 ((s.obs.evq.lost[p]?).getD 0) 1) := by
    unfold State.evqLose
    dsimp only
    split <;> rfl
  refine ⟨?_, ?_, ?_⟩
  · unfold State.evqLose
    dsimp only
    split <;> rfl
  · unfold State.evqLose
    dsimp only
    split <;> rfl
  · rw [lost, Vector.getElem?_setIfInBounds_self, if_pos hp]
    rfl

/-! ### Pops (R484, R491) -/

theorem minPrio_none {l : List EvqEntry} (h : minPrio l = none) : l = [] := by
  cases l with
  | nil => rfl
  | cons x l =>
    rw [minPrio] at h
    split at h <;> cases h

theorem minPrio_least {l : List EvqEntry} {p : Nat} (h : minPrio l = some p) : ∀ e ∈ l, p ≤ e.prio := by
  induction l generalizing p with
  | nil => exact fun _ he => absurd he (List.not_mem_nil)
  | cons x l ih =>
    intro e he
    rw [minPrio] at h
    split at h
    · next none_ =>
      cases h
      rcases List.mem_cons.1 he with rfl | he
      · exact Nat.le_refl _
      · rw [minPrio_none none_] at he
        cases he
    · next q hq =>
      cases h
      rcases List.mem_cons.1 he with rfl | he
      · exact Nat.min_le_left _ _
      · exact Nat.le_trans (Nat.min_le_right _ _) (ih hq e he)

theorem firstAt_prio {l : List EvqEntry} {p : Nat} {e : EvqEntry} (h : firstAt p l = some e) : e.prio = p := by
  induction l with
  | nil => cases h
  | cons x l ih =>
    rw [firstAt] at h
    split at h
    · next hx =>
      cases h
      exact hx
    · exact ih h

/-- The entry popped is of the lowest priority number. -/
theorem evqHead_least {e : EvqEntry} (h : s.evqHead = some e) : ∀ x ∈ s.obs.evq.entries, e.prio ≤ x.prio := by
  unfold State.evqHead at h
  split at h
  · cases h
  · next p hp =>
    rw [firstAt_prio h]
    exact minPrio_least hp

/-- What a pop leaves of the entries. -/
def State.evqPopped (s : State) (e : EvqEntry) : State :=
  s.setEvqX { s.obs.evq with entries := dropFirstAt e.prio s.obs.evq.entries, pop1 := e.arg }

/-- The tags of the two words. -/
def State.tagged (s : State) (b0 b1 : Bool) : State :=
  (s.setFld Reg.QUE_EVQ_TAG Fld.QUE_EVQ_TAG_POISON0 (bnat b0)).setFld Reg.QUE_EVQ_TAG Fld.QUE_EVQ_TAG_POISON1 (bnat b1)

/-- `k` poisoned words counted and reported. -/
def State.poisonCounted (s : State) (k : Nat) : State :=
  if k = 0 then s else
    let u := s.bumpBy Reg.QUE_POISONS Fld.QUE_POISONS_COUNT k
    if k = 1 then u.postSecCount 0xD401 32 .heart else (u.postSecCount 0xD401 32 .heart).postSecCount 0xD401 32 .heart

theorem popEvq_some {e : EvqEntry} (h : s.evqHead = some e) (b0 b1 : Bool) :
    s.popEvq b0 b1 = (((s.evqPopped e).tagged b0 b1).poisonCounted (bnat b0 + bnat b1), e.word0) := by
  have pop : s.evqPop.1 = s.evqPopped e := by rw [State.evqPop, h]; rfl
  unfold State.popEvq
  rw [h, ← pop]
  rfl

theorem popEvq_none (h : s.obs.evq.entries = []) (b0 b1 : Bool) :
    s.popEvq b0 b1 = ((s.setEvqX { s.obs.evq with pop1 := 0 }).setReg Reg.QUE_EVQ_TAG 0, 0) := by
  have head : s.evqHead = none := by rw [State.evqHead, h]; rfl
  unfold State.popEvq State.evqPop
  rw [head]

theorem tagged_spec (b0 b1 : Bool) :
    (s.tagged b0 b1).flag Reg.QUE_EVQ_TAG Fld.QUE_EVQ_TAG_POISON0 = b0 ∧ (s.tagged b0 b1).flag Reg.QUE_EVQ_TAG Fld.QUE_EVQ_TAG_POISON1 = b1 ∧
      (s.tagged b0 b1).obs = s.obs ∧ Within ⟨[.regs], [one Reg.QUE_EVQ_TAG], []⟩ s (s.tagged b0 b1) := by
  have bit (b : Bool) : decide (bnat b % 2 ^ 1 ≠ 0) = b := by cases b <;> rfl
  refine ⟨?_, ?_, rfl, within_setFld _ _ _ (.refl _) (within_setFld _ _ _ (.refl _) (.refl _ s))⟩
  · rw [State.tagged, flag_setFld_other _ _ _ _ _ (by decide) (by decide)]
    exact (flag_setFld_same _ _ _ _ (by decide)).trans (bit b0)
  · exact (flag_setFld_same _ _ _ _ (by decide)).trans (bit b1)

theorem postLimited_evq (c sc : Nat) (k : Note) (f : ArgForm) (a : Word) (n : Nat) : (s.postLimited c sc k f a n).obs.evq = s.obs.evq := by
  have closed (w : Window) : (s.closeWin w).obs.evq = s.obs.evq := by
    unfold State.closeWin
    dsimp only
    split <;> rfl
  unfold State.postLimited
  extract_lets u w
  have first : u.obs.evq = s.obs.evq := by
    unfold u
    split
    · split
      · exact closed _
      · rfl
    · rfl
  refine Eq.trans ?_ first
  split
  · split <;> rfl
  · rfl

theorem poisonCounted_spec (k : Nat) :
    (s.poisonCounted k).obs.evq = s.obs.evq ∧ Within ⟨[.regs, .obs], [one Reg.QUE_POISONS], []⟩ s (s.poisonCounted k) := by
  have counted : Within ⟨[.regs, .obs], [one Reg.QUE_POISONS], []⟩ s (s.bumpBy Reg.QUE_POISONS Fld.QUE_POISONS_COUNT k) :=
    within_bumpBy _ _ _ (.of (by decide)) (.refl _ s)
  unfold State.poisonCounted
  split
  · exact ⟨rfl, .refl _ s⟩
  · dsimp only
    split
    · exact ⟨postLimited_evq _ _ _ _ _ _, within_postSecCount (.of (by decide)) counted _ _ _⟩
    · exact ⟨(postLimited_evq _ _ _ _ _ _).trans (postLimited_evq _ _ _ _ _ _),
        within_postSecCount (.of (by decide)) (within_postSecCount (.of (by decide)) counted _ _ _) _ _ _⟩

theorem popEvq_spec {e : EvqEntry} (h : s.evqHead = some e) (b0 b1 : Bool) {t : State}
    (ht : t = (s.popEvq b0 b1).1.setOut [(s.popEvq b0 b1).2]) :
    t.hif.out = [e.word0] ∧ t.obs.evq.pop1 = e.arg ∧ t.obs.evq.entries = dropFirstAt e.prio s.obs.evq.entries ∧
      t.flag Reg.QUE_EVQ_TAG Fld.QUE_EVQ_TAG_POISON0 = b0 ∧ t.flag Reg.QUE_EVQ_TAG Fld.QUE_EVQ_TAG_POISON1 = b1 ∧
      RegsBut [Reg.QUE_EVQ_TAG, Reg.QUE_POISONS] s t ∧ Keeps [.regs, .obs, .hif] s t := by
  rw [popEvq_some h b0 b1] at ht
  have same : SameQueue _ (s.evqPopped e).obs.evq := setEvqX_same _
  have within : Within ⟨[.obs], [], []⟩ s (s.evqPopped e) := within_setEvqX' _
  obtain ⟨u, hu⟩ : ∃ u, u = s.evqPopped e := ⟨_, rfl⟩
  rw [← hu] at ht same within
  obtain ⟨tag0, tag1, obs, tagged⟩ := tagged_spec (s := u) b0 b1
  obtain ⟨v, hv⟩ : ∃ v, v = u.tagged b0 b1 := ⟨_, rfl⟩
  rw [← hv] at ht tag0 tag1 obs tagged
  obtain ⟨evq, counted⟩ := poisonCounted_spec (s := v) (bnat b0 + bnat b1)
  obtain ⟨w, hw⟩ : ∃ w, w = v.poisonCounted (bnat b0 + bnat b1) := ⟨_, rfl⟩
  rw [← hw] at ht evq counted
  have tag : w.reg Reg.QUE_EVQ_TAG = v.reg Reg.QUE_EVQ_TAG := counted.reg_of_misses _ (by decide)
  have queue : t.obs.evq = u.obs.evq := by rw [ht, ← obs, ← evq]; rfl
  have all : Within ⟨[.regs, .obs], [one Reg.QUE_EVQ_TAG, one Reg.QUE_POISONS], []⟩ s w :=
    (within.mono (.of (by decide))).trans ((tagged.mono (.of (by decide))).trans (counted.mono (.of (by decide))))
  have shown : Within ⟨[.regs, .obs, .hif], [Reg.QUE_EVQ_TAG, Reg.QUE_POISONS].map one, []⟩ s t :=
    ht ▸ within_setOut _ _ (.of (by decide)) (all.mono (.of (by decide)))
  refine ⟨by rw [ht]; rfl, by rw [queue, same.pop1], by rw [queue, same.entries], ?_, ?_, shown.regsBut, shown.parts⟩
  · rw [ht]
    exact (flag_of_reg tag _).trans tag0
  · rw [ht]
    exact (flag_of_reg tag _).trans tag1

/-- A pop of the empty queue. -/
theorem popEvq_empty (h : s.obs.evq.entries = []) (b0 b1 : Bool) {t : State} (ht : t = (s.popEvq b0 b1).1.setOut [(s.popEvq b0 b1).2]) :
    t.hif.out = [0] ∧ t.obs.evq.pop1 = 0 ∧ t.obs.evq.entries = [] ∧ t.reg Reg.QUE_EVQ_TAG = 0 ∧
      RegsBut [Reg.QUE_EVQ_TAG] s t ∧ Keeps [.regs, .obs, .hif] s t := by
  rw [popEvq_none h b0 b1] at ht
  have same := setEvqX_same (s := s) { s.obs.evq with pop1 := 0 }
  have within := within_setEvqX' (s := s) { s.obs.evq with pop1 := 0 }
  obtain ⟨u, hu⟩ : ∃ u, u = s.setEvqX { s.obs.evq with pop1 := 0 } := ⟨_, rfl⟩
  rw [← hu] at ht same within
  have shown : Within ⟨[.regs, .obs, .hif], [Reg.QUE_EVQ_TAG].map one, []⟩ s t :=
    ht ▸ within_setOut _ _ (.of (by decide)) (within_setReg _ _ (.of (by decide)) (within.mono (.of (by decide))))
  have queue : t.obs.evq = u.obs.evq := by rw [ht]; rfl
  refine ⟨by rw [ht]; rfl, by rw [queue, same.pop1], by rw [queue, same.entries]; exact h, ?_, shown.regsBut, shown.parts⟩
  rw [ht]
  exact reg_setReg_same u Reg.QUE_EVQ_TAG 0

/-! ### Ageing (R492) -/

/-- With nothing posted and nothing waiting, the passing of time leaves the event queue as it is. -/
theorem advance_evq (hp : s.obs.posted = []) (hw : s.waiting = 0) (e : Nat) : (s.advance e).obs.evq = s.obs.evq := by
  have settled : (if s.time + cycle ≤ e then s.settle else s) = s := by
    rw [State.settle, if_pos hp, ite_self]
  unfold State.advance
  split
  · rfl
  · dsimp only
    rw [settled, hw, Nat.min_zero]
    rfl

/-- The entries older than the limit promoted, and counted. -/
def State.aged (s : State) : State :=
  s.setEvq { s.obs.evq with
    entries := s.obs.evq.entries.map (EvqEntry.age (s.fld Reg.QUE_EVQ_CTRL Fld.QUE_EVQ_CTRL_AGE_LIMIT) s.time)
    promoted := satAdd 65535 s.obs.evq.promoted (s.obs.evq.entries.filter fun e => 0 < e.prio ∧
      s.fld Reg.QUE_EVQ_CTRL Fld.QUE_EVQ_CTRL_AGE_LIMIT * msec ≤ s.time - e.since).length }

theorem aged_spec {e n : Nat} (ht : s.time ≤ e) (hp : s.obs.posted = []) (hw : s.waiting = 0)
    (hn : n = (s.obs.evq.entries.filter fun x => decide (0 < x.prio) &&
      decide (s.fld Reg.QUE_EVQ_CTRL Fld.QUE_EVQ_CTRL_AGE_LIMIT * msec ≤ e - x.since)).length) :
    (s.advance e).aged.obs.evq.entries = s.obs.evq.entries.map (fun x =>
        if 0 < x.prio ∧ s.fld Reg.QUE_EVQ_CTRL Fld.QUE_EVQ_CTRL_AGE_LIMIT * msec ≤ (s.advance e).aged.time - x.since
        then { x with prio := x.prio - 1, since := (s.advance e).aged.time } else x) ∧
      (s.advance e).aged.obs.evq.promoted = satAdd 65535 s.obs.evq.promoted n ∧ Passes e [] s (s.advance e).aged := by
  have evq := advance_evq hp hw e
  have limit : (s.advance e).fld Reg.QUE_EVQ_CTRL Fld.QUE_EVQ_CTRL_AGE_LIMIT = s.fld Reg.QUE_EVQ_CTRL Fld.QUE_EVQ_CTRL_AGE_LIMIT :=
    (advance_reads s e).2.1 _ _
  have time : (s.advance e).time = e := (advance_time s e).trans (Nat.max_eq_right ht)
  have within (u : State) : Within ⟨[.obs], [], []⟩ u u.aged := within_setEvq (.refl _) (.refl _ u) _
  refine ⟨?_, ?_, .of_within (within _) (by decide) (by decide) (by decide)⟩
  · rw [← evq, ← limit]
    rfl
  · obtain ⟨u, hu⟩ : ∃ u, u = s.advance e := ⟨_, rfl⟩
    rw [← hu] at evq limit time ⊢
    rw [hn, ← evq, ← limit, ← time]
    simp only [← Bool.decide_and]
    rfl

/-! ### The statement -/

/-- Settles O52: the intake's head by the three cases of `evqMove`, a pop by `popEvq_spec`, the tick by `aged_spec`. -/
theorem eventQueueMoves : Obligations.EventQueueMoves := by
  refine ⟨fun s h rest hr hi hl => ?_, fun s h rest hr hi hl hp => ?_, fun s h rest p hr hi hl hp h4 hv ha => ?_, fun s b0 b1 e hr he => ?_,
    fun s b0 b1 hr he => ?_, fun s n hr hi hs hh hp hn => ?_⟩
  · obtain ⟨entries, intake, pop1, lost, promoted⟩ :=
      setEvqX_same (s := s) { s.obs.evq with intake := rest, entries := s.obs.evq.entries ++ [h.entered s] }
    exact does_clocked (o := execEvqIntakeMove s) rfl rfl hr (evqMove_room hi hl)
      ⟨intake, entries, lost, promoted, pop1, (within_setEvqX' _).parts⟩
  · exact does_clocked (o := execEvqIntakeMove s) rfl rfl hr (evqMove_waits hi hl hp) rfl
  · have kept : Keeps [.obs] s s.evqMove := (within_evqMove s (.refl _) (.refl _ s)).parts
    rw [evqMove_displaces hi hl hp (evqVictim_eq hv ha)] at kept
    obtain ⟨u, hu⟩ : ∃ u, u = s.setEvqX { s.obs.evq with intake := rest, entries := dropNewestAt p s.obs.evq.entries ++ [h.entered s] } := ⟨_, rfl⟩
    have same := hu ▸ setEvqX_same (s := s) { s.obs.evq with intake := rest, entries := dropNewestAt p s.obs.evq.entries ++ [h.entered s] }
    rw [← hu] at kept
    obtain ⟨entries, intake, lost⟩ := evqLose_queue (s := u) h4
    exact does_clocked (o := execEvqIntakeMove s) rfl rfl hr ((evqMove_displaces hi hl hp (evqVictim_eq hv ha)).trans (by rw [← hu]))
      ⟨intake.trans same.intake, entries.trans same.entries, lost.trans (by rw [same.lost]), kept⟩
  · obtain ⟨out, pop1, entries, tag0, tag1, regs, kept⟩ := popEvq_spec he b0 b1 rfl
    exact does_clocked (o := execEvqPop0 b0 b1 s) rfl rfl hr rfl
      ⟨out, pop1, entries, fun x => evqHead_least he _ (List.getElem_mem _), tag0, tag1, regs, kept⟩
  · exact does_clocked (o := execEvqPop0 b0 b1 s) rfl rfl hr rfl (popEvq_empty he b0 b1 rfl)
  · have later : s.time ≤ (s.time / (100 * usec) + 1) * (100 * usec) := by
      have split := Nat.div_add_mod s.time (100 * usec)
      have small := Nat.mod_lt s.time (show 0 < 100 * usec by decide)
      rw [Nat.add_mul, Nat.one_mul, Nat.mul_comm]
      omega
    have still : s.waiting = 0 := by rw [State.waiting, hi, hs, hh]; rfl
    exact does_clocked (o := execEvqAgeTick s) rfl rfl hr rfl (aged_spec later hp still hn)

end Sys2Proof.Machine

/-! The check-value channels (O53): START, data writes, ranges. -/

namespace Sys2Proof.Machine

variable {s : State}

/-! ### What a channel's commands do (R493, R495) -/

/-- What one channel's commands leave of the others. -/
structure OneChannel (c : Nat) (s t : State) : Prop where
  others : ChanOf c s t
  kept : Keeps [.crc] s t

theorem keeps_setChan (c : Nat) (x : CrcSt) : Keeps [.crc] s (s.setChan c x) := (within_setChan s c x (.refl _) (.refl _ s)).parts

theorem oneChannel_setChan (c : Nat) (x : CrcSt) : OneChannel c s (s.setChan c x) :=
  ⟨fun m h => chan_setChan_ne s c m x h, keeps_setChan c x⟩

/-- A channel's parameters as its registers hold them, its register loaded. -/
def State.latched (s : State) (c : Nat) : CrcSt :=
  { width := s.fld (Reg.CRC_CH_CFG c) Fld.CRC_CH_CFG_WIDTH, poly := (s.reg (Reg.CRC_CH_POLY c)).toNat,
    xorOut := (s.reg (Reg.CRC_CH_XOROUT c)).toNat, refIn := s.flag (Reg.CRC_CH_CFG c) Fld.CRC_CH_CFG_REFIN,
    refOut := s.flag (Reg.CRC_CH_CFG c) Fld.CRC_CH_CFG_REFOUT,
    foldMode := s.fld (Reg.CRC_CH_CFG c) Fld.CRC_CH_CFG_FOLD_MODE, fold := s.reg (Reg.CRC_CH_FOLD c),
    reg := (s.reg (Reg.CRC_CH_INIT c)).toNat % 2 ^ s.fld (Reg.CRC_CH_CFG c) Fld.CRC_CH_CFG_WIDTH,
    bytes := 0, range := none, rangeEnd := 0 }

section
variable {c : Chan}

theorem writeCrcCmd_start (hb : s.crcBusy c = false) : s.writeCrcCmd c 1 false =
    s.setChan c (if (s.latched c).foldMode = 1 then { s.latched c with reg := (s.latched c).run (wordBytes (s.latched c).fold) } else s.latched c) := by
  have starts : Fld.CRC_CH_CMD_START.get 1 = 1 := by decide
  have stays : ¬ Fld.CRC_CH_CMD_RANGE_GO.get 1 = 1 := by decide
  unfold State.writeCrcCmd
  dsimp only
  rw [if_neg (by rw [hb]; exact Bool.false_ne_true), if_pos starts, if_neg stays]
  rfl

theorem writeCrcCmd_go (hb : s.crcBusy c = false) (bad : Bool) : s.writeCrcCmd c 2 bad = s.crcRange c bad := by
  have starts : ¬ Fld.CRC_CH_CMD_START.get 2 = 1 := by decide
  have goes : Fld.CRC_CH_CMD_RANGE_GO.get 2 = 1 := by decide
  unfold State.writeCrcCmd
  dsimp only
  rw [if_neg (by rw [hb]; exact Bool.false_ne_true), if_neg starts, if_pos goes]

theorem writeCrcData_free (hb : s.crcBusy c = false) (n : Nat) (v : Word) : s.writeCrcData c n v = s.crcData c ((wordBytes v).take n) := by
  rw [State.writeCrcData, if_neg (by rw [hb]; exact Bool.false_ne_true)]

/-- Bytes run by a channel. -/
theorem crcData_spec (l : List Byte) :
    (s.crcData c l).chan c = { s.chan c with reg := (s.chan c).run l, bytes := satAdd 16777215 (s.chan c).bytes l.length } ∧
      OneChannel c s (s.crcData c l) := ⟨chan_setChan_same s c _, oneChannel_setChan _ _⟩

theorem wordBytes_eq (v : Word) :
    wordBytes v = [byte v.toNat, byte (v.toNat / 256), byte (v.toNat / 65536), byte (v.toNat / 16777216)] := by
  have part (k : Nat) (i : Nat) (h : 2 ^ (8 * i) = k) : wbyte v i = byte (v.toNat / k) := by
    rw [wbyte, Nat.shiftRight_eq_div_pow, h]
  rw [wordBytes, part 1 0 rfl, part 256 1 rfl, part 65536 2 rfl, part 16777216 3 rfl, Nat.div_one]

/-- A range with a byte that fails its check. -/
theorem rangePoisoned_spec {t : State} (ht : t = (s.stick (Reg.CRC_CH_STATUS c) Fld.CRC_CH_STATUS_POISON).post 0xD801 .heart 0) :
    t.crc = s.crc ∧ t.flag (Reg.CRC_CH_STATUS c) Fld.CRC_CH_STATUS_POISON = true ∧ Posted 0xD801 .heart 0 t ∧ RegsBut [Reg.CRC_CH_STATUS c] s t ∧
      Keeps [.regs, .obs] s t := by
  have marked : Within ⟨[.regs, .obs], [Reg.CRC_CH_STATUS c].map one, []⟩ s t :=
    ht ▸ within_post .of_none (within_stick _ _ (.of_named (by simp)) (.refl _ s)) _ _ _
  have crc : t.crc = s.crc := by rw [ht]; rfl
  have reg : t.reg (Reg.CRC_CH_STATUS c) = (s.setFld (Reg.CRC_CH_STATUS c) Fld.CRC_CH_STATUS_POISON 1).reg (Reg.CRC_CH_STATUS c) := by rw [ht]; rfl
  refine ⟨crc, ?_, ht ▸ posted_post _ _ _ _, marked.regsBut, marked.parts⟩
  exact (flag_of_reg reg _).trans (flag_setFld_same s _ _ 1 (by decide))

/-- A range taken up. -/
theorem crcRange_spec (bad : Bool) {a n : Nat} (ha : (s.reg (Reg.CRC_CH_RANGE_ADDR c)).toNat = a) (hn : (s.reg (Reg.CRC_CH_RANGE_LEN c)).toNat = n)
    (low : 0x200000 ≤ a) (high : a + n ≤ 0xA00000) (nonempty : 0 < n) {t : State} (ht : t = s.crcRange c bad) :
    t.chan c = { s.chan c with range := some (a, n), rangeEnd := s.time + (n + 3) / 4 * cycle } ∧ ChanOf c s t ∧
      (bad = true → t.flag (Reg.CRC_CH_STATUS c) Fld.CRC_CH_STATUS_POISON = true ∧ Posted 0xD801 .heart 0 t) ∧
      RegsBut [Reg.CRC_CH_STATUS c] s t ∧ Keeps [.regs, .crc, .obs] s t := by
  have inside : rangeOk a n = true := by
    rw [rangeOk, inSram, decide_eq_true high, Bool.and_true, decide_eq_true low, Bool.true_and]
    exact decide_eq_true (by omega)
  obtain ⟨x, hx⟩ : ∃ x, x = { s.chan c with range := some (a, n), rangeEnd := s.time + (n + 3) / 4 * cycle } := ⟨_, rfl⟩
  unfold State.crcRange at ht
  dsimp only at ht
  rw [ha, hn, inside, ← hx, Bool.not_true, if_neg Bool.false_ne_true, if_neg (by omega)] at ht
  obtain ⟨others, kept⟩ := oneChannel_setChan (s := s) c x
  have same : (s.setChan c x).chan c = x := chan_setChan_same s c x
  obtain ⟨u, hu⟩ : ∃ u, u = s.setChan c x := ⟨_, rfl⟩
  have regs (b : Nat) : u.reg b = s.reg b := hu ▸ rfl
  rw [← hu] at others kept same ht
  rw [← hx]
  cases bad with
  | false =>
    rw [if_neg Bool.false_ne_true] at ht
    subst ht
    exact ⟨same, others, fun h => (nomatch h), fun b _ => regs b, kept.mono (by decide)⟩
  | true =>
    rw [if_pos rfl] at ht
    obtain ⟨crc, flag, posted, changed, marked⟩ := rangePoisoned_spec ht
    have chan (m : Nat) : t.chan m = u.chan m := by rw [State.chan, State.chan, crc]
    exact ⟨(chan c).trans same, fun m h => (chan m).trans (others m h), fun _ => ⟨flag, posted⟩, fun b hb => (changed b hb).trans (regs b),
      (kept.mono (by decide)).trans (marked.mono (by decide))⟩

theorem sramSeen_length (a n : Nat) : (s.sramSeen a n).length = n := by
  have read (m : List (Nat × Byte)) (k : Nat) : (Sparse.read m 0 a k).length = k := by
    induction k generalizing a with
    | zero => rfl
    | succ k ih => rw [Sparse.read, List.length_cons, ih]
  rw [State.sramSeen, List.length_mapIdx]
  exact read _ n

/-- The bytes of a range run, and the range over. -/
def State.ranged (s : State) (c : Nat) (l : List Byte) : State :=
  (s.crcData c l).setChan c { (s.crcData c l).chan c with range := none }

theorem ranged_spec (l : List Byte) :
    (s.ranged c l).chan c = { s.chan c with reg := (s.chan c).run l, bytes := satAdd 16777215 (s.chan c).bytes l.length, range := none } ∧
      OneChannel c s (s.ranged c l) := by
  obtain ⟨run, others, kept⟩ := crcData_spec (s := s) (c := c) l
  have ended := oneChannel_setChan (s := s.crcData c l) c { (s.crcData c l).chan c with range := none }
  refine ⟨?_, fun m h => (ended.others m h).trans (others m h), kept.trans ended.kept⟩
  rw [State.ranged, chan_setChan_same, run]

theorem does_crcRangeDone {a n : Nat} {P : State → Prop} (hr : Running s) (hg : (s.chan c).range = some (a, n))
    (hp : P ((s.advance (s.chan c).rangeEnd).ranged c (s.sramSeen a n))) : Does (.crcRangeDone c) s P :=
  does_running (o := execCrcRangeDone c s) (t := (s.advance (s.chan c).rangeEnd).ranged c (s.sramSeen a n)) rfl rfl hr (by simp only [hg]; rfl) hp

/-- While a range runs, what would start something or run bytes is refused. -/
theorem refused_busy {v : Word} {b : Bool} {i : Instr} (hr : Running s) (hb : s.crcBusy c = true)
    (hi : i ∈ [.start c, .data8 c v, .data16 c v, .data32 c v, .rangeGo c b]) : Does i s fun t => t.crc = s.crc ∧ Keeps [.obs] s t := by
  have refused : (s.refuse 0x0B).crc = s.crc ∧ Keeps [.obs] s (s.refuse 0x0B) := ⟨rfl, (within_count (.refl _) (.refl _ s) _).parts⟩
  have data (n : Nat) : s.writeCrcData c n v = s.refuse 0x0B := by rw [State.writeCrcData, if_pos hb]
  have cmd (w : Word) (bad : Bool) (h : Fld.CRC_CH_CMD_START.get w = 1 ∨ Fld.CRC_CH_CMD_RANGE_GO.get w = 1) :
      s.writeCrcCmd c w bad = s.refuse 0x0B := by
    unfold State.writeCrcCmd
    dsimp only
    rw [if_pos hb, if_pos h]
  simp only [List.mem_cons, List.not_mem_nil, or_false] at hi
  rcases hi with rfl | rfl | rfl | rfl | rfl
  · exact does_running (o := execStart c s) rfl rfl hr (cmd 1 false (by decide)) refused
  · exact does_running (o := execData8 c v s) rfl rfl hr (data 1) refused
  · exact does_running (o := execData16 c v s) rfl rfl hr (data 2) refused
  · exact does_running (o := execData32 c v s) rfl rfl hr (data 4) refused
  · exact does_running (o := execRangeGo c b s) rfl rfl hr (cmd 2 b (by decide)) refused

theorem written_spec (hb : s.crcBusy c = false) {v : Word} {n : Nat} {l : List Byte} (hl : (wordBytes v).take n = l) {t : State}
    (ht : t = s.writeCrcData c n v) :
    t.chan c = { s.chan c with reg := (s.chan c).run l, bytes := satAdd 16777215 (s.chan c).bytes l.length } ∧ ChanOf c s t ∧ Keeps [.crc] s t := by
  rw [writeCrcData_free hb, hl] at ht
  obtain ⟨run, others, kept⟩ := crcData_spec (s := s) (c := c) l
  rw [ht]
  exact ⟨run, others, kept⟩

end

/-! ### The statement -/

/-- Settles O53: each command by the one change of its channel that it makes. -/
theorem checkChannels : Obligations.CheckChannels := by
  refine ⟨fun s c hr hb hf => ?_, fun s c hr hb hf => ?_, fun s c v hr hb => ?_, fun s c v hr hb => ?_, fun s c v hr hb => ?_,
    fun s c v b i hr hb hi => refused_busy hr hb hi, fun s c b hr hb low high nonempty => ?_, fun s c a n hr hg he => ?_, fun s c a n hr hg => ?_⟩
  · have plain : ¬ (s.latched c).foldMode = 1 := hf
    refine does_running (o := execStart c s) rfl rfl hr (writeCrcCmd_start hb) ?_
    rw [if_neg plain]
    exact ⟨chan_setChan_same s c _, (oneChannel_setChan _ _).others, (oneChannel_setChan _ _).kept⟩
  · have folds : (s.latched c).foldMode = 1 := hf
    refine does_running (o := execStart c s) rfl rfl hr (writeCrcCmd_start hb) ?_
    rw [if_pos folds]
    refine ⟨?_, ?_, ?_, ?_, (oneChannel_setChan _ _).others, (oneChannel_setChan _ _).kept⟩
    all_goals
      rw [chan_setChan_same]
      rfl
  · exact does_running (o := execData8 c v s) rfl rfl hr rfl (written_spec hb (l := [byte v.toNat]) (by rw [wordBytes_eq]; rfl) rfl)
  · exact does_running (o := execData16 c v s) rfl rfl hr rfl
      (written_spec hb (l := [byte v.toNat, byte (v.toNat / 256)]) (by rw [wordBytes_eq]; rfl) rfl)
  · exact does_running (o := execData32 c v s) rfl rfl hr rfl
      (written_spec hb (l := [byte v.toNat, byte (v.toNat / 256), byte (v.toNat / 65536), byte (v.toNat / 16777216)]) (by rw [wordBytes_eq]; rfl) rfl)
  · exact does_running (o := execRangeGo c b s) rfl rfl hr (writeCrcCmd_go hb b) (crcRange_spec b rfl rfl (by omega) high nonempty rfl)
  · have now : s.advance (s.chan c).rangeEnd = s := by rw [State.advance, if_pos he]
    obtain ⟨run, others, kept⟩ := ranged_spec (s := s) (c := c) (s.sramSeen a n)
    rw [sramSeen_length] at run
    refine does_crcRangeDone hr hg ?_
    rw [now]
    exact ⟨run, others, kept⟩
  · refine does_crcRangeDone hr hg ?_
    have crc : (s.advance (s.chan c).rangeEnd).crc = s.crc := keeps_advance s _ .crc (by decide)
    obtain ⟨u, hu⟩ : ∃ u, u = s.advance (s.chan c).rangeEnd := ⟨_, rfl⟩
    obtain ⟨run, others, kept⟩ := ranged_spec (s := u) (c := c) (s.sramSeen a n)
    rw [← hu] at crc ⊢
    refine ⟨by rw [State.crcBusy, run]; rfl, fun m h => (others m h).trans (by rw [State.chan, State.chan, crc]), ?_⟩
    have time : (u.ranged c (s.sramSeen a n)).time = u.time := kept .time (by decide)
    have sram : (u.ranged c (s.sramSeen a n)).sram = u.sram := kept .sram (by decide)
    rw [hu] at time sram kept ⊢
    exact ⟨time.trans (advance_time s _), (ringOnly_advance s _).trans (.of_sram sram),
      ((keeps_advance s _).mono (by decide)).trans (kept.mono (by decide))⟩

end Sys2Proof.Machine

/-! Authenticated commands (O54): the AUTH transaction and the checks of R523, the counter's NV write, key rotation. -/

namespace Sys2Proof.Machine

variable {s : State}

/-! ### The AUTH transaction (R541) -/

/-- The opcode byte of an AUTH transaction. -/
def authOp (quad : Bool) : Nat := if quad then 0xAA else 0xA2

/-- The state once a whole AUTH transaction of some words has ended, before its checks. -/
def State.authSent (s : State) (b : Bool) (l : List Word) : State := (s.countBy 104 (4 * l.length)).hostEnding .whole (authOp b) 0

/-- What the end of a whole transaction leaves. -/
structure Sent (s t : State) : Prop where
  regs : t.regs = s.regs
  cfg : t.cfg = s.cfg
  kept : Keeps [.pins, .obs] s t

theorem hostEnding_whole (h : s.live = true) (op addr : Nat) : s.hostEnding .whole op addr = s.hostEnded := by
  unfold State.hostEnding
  rw [h, Bool.not_true, if_neg Bool.false_ne_true]

theorem authSent_eq (hr : HostReady s) (b : Bool) (l : List Word) : s.authSent b l = (s.countBy 104 (4 * l.length)).hostEnded :=
  hostEnding_whole (s := s.countBy 104 (4 * l.length)) hr.1 _ _

theorem sent_counted (i n : Nat) : Sent s (s.countBy i n).hostEnded := by
  have within := within_hostEnded (s.countBy i n) (.refl _) (within_countBy (.of (by decide)) (.refl _ s) i n)
  exact ⟨within.parts .regs (by decide), within.parts .cfg (by decide), within.parts⟩

theorem sent_authSent (hr : HostReady s) (b : Bool) (l : List Word) : Sent s (s.authSent b l) := by
  rw [authSent_eq hr]
  exact sent_counted _ _

theorem auth_taken (b : Bool) : badCommand (authOp b) (0 : BitVec 24).toNat = false := by cases b <;> decide

theorem does_auth {b : Bool} {l : List Word} {P : State → Prop} (hr : HostReady s)
    (hp : P (if l = [] then s.authSent b l else (s.authSent b l).authCheck (unpackWords l))) : Does (.auth b 0 l .whole) s P := by
  refine does_ready (o := execAuth b 0 l .whole s) rfl rfl hr ?_ hp
  dsimp only
  rw [show (if b then 0xAA else 0xA2) = authOp b from rfl, auth_taken, if_neg Bool.false_ne_true]
  simp only [and_true]
  rfl

/-- An opcode address other than 0. -/
theorem auth_misspelt (b : Bool) {a : BitVec 24} (h : a ≠ 0) : badCommand (authOp b) a.toNat = true := by
  have addr : a.toNat ≠ 0 := fun h0 => h (BitVec.eq_of_toNat_eq h0)
  have op : authOp b = 0x4D ∨ authOp b = 0xCD ∨ authOp b = 0xA2 ∨ authOp b = 0xAA := by cases b <;> decide
  rw [badCommand, decide_eq_true op, decide_eq_true addr, Bool.and_self, Bool.or_true]

theorem badCmd_spec (op addr : Nat) :
    (s.badCmd op addr).cfg = s.cfg ∧ (s.badCmd op addr).flag Reg.HIF_STATUS Fld.HIF_STATUS_BADCMD = true ∧
      (s.badCmd op addr).reg Reg.CFG_AUTH_STATUS = s.reg Reg.CFG_AUTH_STATUS := by
  have within := within_badCmd s op addr (.refl _) (.refl _ s)
  have reg : (s.badCmd op addr).reg Reg.HIF_STATUS = (s.setFld Reg.HIF_STATUS Fld.HIF_STATUS_BADCMD 1).reg Reg.HIF_STATUS := by
    have other (u : State) (w : Word) : ((u.bump Reg.HIF_ERR_COUNTS Fld.HIF_ERR_COUNTS_BADCMDS).setReg Reg.HIF_LAST_ERR w).reg Reg.HIF_STATUS =
        u.reg Reg.HIF_STATUS := by
      rw [reg_setReg_ne _ _ _ _ (by decide)]
      exact reg_setReg_ne _ _ _ _ (by decide)
    exact other _ _
  refine ⟨within.parts .cfg (by decide), ?_, within.reg_of_misses _ (by decide)⟩
  exact (flag_of_reg reg _).trans (flag_setFld_same s _ _ 1 (by decide))

/-! ### The checks of R523 -/

/-- The opcode noted. -/
def State.opcodeNoted (s : State) (l : List Byte) : State := s.setFld Reg.CFG_AUTH_STATUS Fld.CFG_AUTH_STATUS_OPCODE (leAt l 0 1)

theorem opcodeNoted_within (l : List Byte) : Within ⟨[.regs], [one Reg.CFG_AUTH_STATUS], []⟩ s (s.opcodeNoted l) :=
  within_setFld _ _ _ (.refl _) (.refl _ s)

section
variable {l : List Byte}

theorem authCheck_busy (h : s.cfg.auth.isSome = true) : s.authCheck l = (s.opcodeNoted l).authResult 2 := if_pos h

theorem authCheck_phase (h : s.cfg.auth = none) (hp : s.authPhase = false) : s.authCheck l = (s.opcodeNoted l).authResult 7 := by
  have free : ¬ (s.opcodeNoted l).cfg.auth.isSome = true := by
    rw [show (s.opcodeNoted l).cfg.auth = none from h]
    exact Bool.false_ne_true
  have away : (!(s.opcodeNoted l).authPhase) = true := by
    rw [show (s.opcodeNoted l).authPhase = false from hp]
    rfl
  exact (if_neg free).trans (if_pos away)

/-- The check that a byte sequence fails (R523 checks 3 to 5), 0 where it passes them. -/
def State.authFault (s : State) (l : List Byte) : Nat :=
  if authForm l = false then 3 else if s.tagNow (s.authMessage l) ≠ some (l.drop (l.length - 8)) then 4 else if leAt l 4 4 ≤ s.cfg.counter then 5 else 0

/-- A command that has passed the checks, and waits for its counter's NV write. -/
def CfgSt.taken (c : CfgSt) (l : List Byte) : CfgSt :=
  { c with zeroing := none,
           auth := some { opcode := leAt l 0 1, counter := leAt l 4 4, payload := (l.drop 8).take (leAt l 1 1), stored := false } }

/-- The state with it. -/
def State.authTaken (s : State) (l : List Byte) : State := { s with cfg := s.cfg.taken l }

theorem authCheck_checked (h : s.cfg.auth = none) (hp : s.authPhase = true) :
    s.authCheck l = if s.authFault l ≠ 0 then (s.opcodeNoted l).authFail (s.authFault l) else (s.opcodeNoted l).authTaken l := by
  have free : ¬ (s.opcodeNoted l).cfg.auth.isSome = true := by
    rw [show (s.opcodeNoted l).cfg.auth = none from h]
    exact Bool.false_ne_true
  have here : ¬ (!(s.opcodeNoted l).authPhase) = true := by
    rw [show (s.opcodeNoted l).authPhase = true from hp]
    exact Bool.false_ne_true
  refine (if_neg free).trans ((if_neg here).trans ?_)
  unfold State.authFault
  cases form : authForm l with
  | false => rfl
  | true =>
    simp only [Bool.not_true, Bool.false_eq_true, Bool.true_eq_false, if_false]
    by_cases tag : s.tagNow (s.authMessage l) ≠ some (l.drop (l.length - 8))
    · rw [if_pos tag]
      exact if_pos tag
    · rw [if_neg tag]
      refine (if_neg tag).trans ?_
      by_cases counter : leAt l 4 4 ≤ s.cfg.counter
      · rw [if_pos counter]
        exact if_pos counter
      · rw [if_neg counter]
        exact if_neg counter

end

/-! ### What an AUTH transaction leaves -/

section
variable {l : List Byte}

/-- A command that checks 1 and 2 answer. -/
theorem answered_spec {r : Nat} (h16 : r < 16) {u t : State} (hu : Sent s u) (ht : t = (u.opcodeNoted l).authResult r) :
    t.fld Reg.CFG_AUTH_STATUS Fld.CFG_AUTH_STATUS_RESULT = r ∧ t.cfg = s.cfg ∧ t.flag Reg.GEN_IRQ_STATUS Fld.GEN_IRQ_STATUS_AUTH = true ∧
      RegsBut [Reg.CFG_AUTH_STATUS, Reg.GEN_IRQ_STATUS] s t ∧ Keeps [.regs, .pins, .obs] s t := by
  have noted := opcodeNoted_within (s := u) l
  have result := authResult_result (u.opcodeNoted l) r
  have irq := authResult_irq (u.opcodeNoted l) r
  have within : Within ⟨[.regs, .obs], [Reg.CFG_AUTH_STATUS, Reg.GEN_IRQ_STATUS].map one, []⟩ u t :=
    ht ▸ within_authResult _ _ (.of (by decide)) (noted.mono (.of (by decide)))
  have cfg : t.cfg = u.cfg := within.parts .cfg (by decide)
  rw [← ht] at result irq
  refine ⟨result.trans (Nat.mod_eq_of_lt h16), cfg.trans hu.cfg, irq, fun a ha => ?_, ?_⟩
  · exact (within.regsBut a ha).trans (reg_of_regs hu.regs a)
  · exact (hu.kept.mono (by decide)).trans (within.parts.mono (by decide))

/-- A command that fails at checks 3 to 5. -/
theorem failed_spec {r : Nat} (h16 : r < 16) {u t : State} (hu : Sent s u) (ht : t = (u.opcodeNoted l).authFail r) :
    t.fld Reg.CFG_AUTH_STATUS Fld.CFG_AUTH_STATUS_RESULT = r ∧ t.cfg = s.cfg ∧
      t.fld Reg.CFG_AUTH_FAILS Fld.CFG_AUTH_FAILS_COUNT = satAdd 65535 (s.fld Reg.CFG_AUTH_FAILS Fld.CFG_AUTH_FAILS_COUNT) 1 ∧
      RegsBut [Reg.CFG_AUTH_STATUS, Reg.CFG_AUTH_FAILS, Reg.GEN_IRQ_STATUS] s t ∧ Keeps [.regs, .pins, .obs] s t := by
  obtain ⟨v, hv⟩ : ∃ v, v = (u.opcodeNoted l).authResult r := ⟨_, rfl⟩
  obtain ⟨result, cfg, irq, regs, kept⟩ := answered_spec h16 hu hv
  have counted : v.fld Reg.CFG_AUTH_FAILS Fld.CFG_AUTH_FAILS_COUNT = s.fld Reg.CFG_AUTH_FAILS Fld.CFG_AUTH_FAILS_COUNT :=
    fld_of_reg (regs _ (by decide)) _
  have eq : t = ((v.bump Reg.CFG_AUTH_FAILS Fld.CFG_AUTH_FAILS_COUNT).count 22).postSecCount 0xE006 0 .heart := by rw [ht, hv]; rfl
  obtain ⟨w, hw⟩ : ∃ w, w = v.bump Reg.CFG_AUTH_FAILS Fld.CFG_AUTH_FAILS_COUNT := ⟨_, rfl⟩
  have bumped : w.fld Reg.CFG_AUTH_FAILS Fld.CFG_AUTH_FAILS_COUNT = satAdd 65535 (v.fld Reg.CFG_AUTH_FAILS Fld.CFG_AUTH_FAILS_COUNT) 1 :=
    hw ▸ fld_bump16 _ _ _ rfl (by decide)
  have within : Within ⟨[.regs], [one Reg.CFG_AUTH_FAILS], []⟩ v w := hw ▸ within_bump _ _ (.refl _) (.refl _ v)
  rw [← hw] at eq
  have after : Within ⟨[.obs], [], []⟩ w t := eq ▸ within_postSecCount (.refl _) (within_count (.refl _) (.refl _ w) _) _ _ _
  have all : Within ⟨[.regs, .obs], [one Reg.CFG_AUTH_FAILS], []⟩ v t := (within.mono (.of (by decide))).trans (after.mono (.of (by decide)))
  have status : t.reg Reg.CFG_AUTH_STATUS = v.reg Reg.CFG_AUTH_STATUS := all.reg_of_misses _ (by decide)
  have fails : t.reg Reg.CFG_AUTH_FAILS = w.reg Reg.CFG_AUTH_FAILS := after.reg_of_misses _ (by decide)
  have cfgT : t.cfg = v.cfg := all.parts .cfg (by decide)
  refine ⟨(fld_of_reg status _).trans result, cfgT.trans cfg, ?_, fun a ha => ?_, kept.trans (all.parts.mono (by decide))⟩
  · rw [fld_of_reg fails, bumped, counted]
  · simp only [List.mem_cons, List.not_mem_nil, or_false, not_or] at ha
    obtain ⟨h1, h2, h3⟩ := ha
    have only : RegsBut [Reg.CFG_AUTH_FAILS] v t := all.regsBut
    exact (only a (by simpa using h2)).trans (regs a (by simp [h1, h3]))

/-- A command taken. -/
theorem taken_spec {u t : State} (hu : Sent s u) (ht : t = (u.opcodeNoted l).authTaken l) :
    t.cfg = s.cfg.taken l ∧ t.fld Reg.CFG_AUTH_STATUS Fld.CFG_AUTH_STATUS_OPCODE = leAt l 0 1 ∧
      RegsBut [Reg.CFG_AUTH_STATUS] s t ∧ Keeps [.regs, .cfg, .pins, .obs] s t := by
  have noted := opcodeNoted_within (s := u) l
  have opcode : (u.opcodeNoted l).fld Reg.CFG_AUTH_STATUS Fld.CFG_AUTH_STATUS_OPCODE = leAt l 0 1 % 2 ^ 8 := fld_setFld_same _ _ _ _ (by decide)
  have byte : leAt l 0 1 < 2 ^ 8 := leAt_lt l 0 1
  have cfgU : (u.opcodeNoted l).cfg = s.cfg := hu.cfg
  obtain ⟨v, hv⟩ : ∃ v, v = u.opcodeNoted l := ⟨_, rfl⟩
  rw [← hv] at noted opcode ht cfgU
  have taken : Within ⟨[.cfg], [], []⟩ v t := ht ▸ within_with_cfg _ (.refl _) (.refl _ v)
  have regs : RegsBut [Reg.CFG_AUTH_STATUS] u v := noted.regsBut
  have same (a : Nat) : t.reg a = v.reg a := taken.reg_of_misses a (by rfl)
  refine ⟨?_, ?_, fun a ha => ?_, ?_⟩
  · rw [ht]
    exact congrArg (fun c => c.taken l) cfgU
  · rw [fld_of_reg (same _), opcode, Nat.mod_eq_of_lt byte]
  · exact (same a).trans ((regs a ha).trans (reg_of_regs hu.regs a))
  · exact (hu.kept.mono (by decide)).trans ((noted.parts.mono (by decide)).trans (taken.parts.mono (by decide)))

end

/-! ### The counter's NV write (R524) -/

/-- The counter stored. -/
def State.counterStored (s : State) (a : AuthCmd) : State :=
  let t := s.setCounter a.counter
  { t with cfg := { t.cfg with auth := some { a with stored := true } } }

theorem counterStored_spec (a : AuthCmd) :
    (s.counterStored a).cfg = { s.cfg with counter := a.counter, auth := some { a with stored := true } } ∧
      (s.counterStored a).reg Reg.CFG_AUTH_COUNTER = word a.counter ∧
      RegsBut [Reg.CFG_AUTH_COUNTER] s (s.counterStored a) ∧ Keeps [.regs, .cfg] s (s.counterStored a) := by
  have within : Within ⟨[.regs, .cfg], [one Reg.CFG_AUTH_COUNTER], []⟩ s (s.counterStored a) :=
    within_with_cfg _ (.of (by decide)) (within_setCounter s _ (.refl _) (.refl _ s))
  exact ⟨rfl, reg_setReg_same _ _ _, within.regsBut, within.parts⟩

/-- The counter after a write that failed: the old or the new one. -/
def State.counterFree (s : State) (n : Nat) : State := if s.takeFreeBit.2 then s.takeFreeBit.1.setCounter n else s.takeFreeBit.1

theorem counterFree_spec (n : Nat) :
    ((s.counterFree n).cfg = s.cfg ∨ (s.counterFree n).cfg = { s.cfg with counter := n }) ∧
      Within ⟨[.regs, .cfg, .free], [one Reg.CFG_AUTH_COUNTER], []⟩ s (s.counterFree n) := by
  have free : Within ⟨[.free], [], []⟩ s s.takeFreeBit.1 := within_takeFreeBit s (.refl _) (.refl _ s)
  unfold State.counterFree
  split
  · exact ⟨.inr rfl, within_setCounter _ _ (.of (by decide)) (free.mono (.of (by decide)))⟩
  · exact ⟨.inl rfl, free.mono (.of (by decide))⟩

/-- The counter's write has failed. -/
theorem counterFailed_spec {a : AuthCmd} {t : State} (ht : t = ((s.counterFree a.counter).authEnd.authResult 8).post 0xE008 .heart 0) :
    t.fld Reg.CFG_AUTH_STATUS Fld.CFG_AUTH_STATUS_RESULT = 8 ∧ t.cfg.auth = none ∧
      (t.cfg.counter = s.cfg.counter ∨ t.cfg.counter = a.counter) ∧ t.cfg.keys = s.cfg.keys ∧ Posted 0xE008 .heart 0 t ∧
      RegsBut [Reg.CFG_AUTH_STATUS, Reg.CFG_AUTH_COUNTER, Reg.GEN_IRQ_STATUS] s t ∧ Keeps [.regs, .cfg, .free, .obs] s t := by
  obtain ⟨counter, within⟩ := counterFree_spec (s := s) a.counter
  obtain ⟨u, hu⟩ : ∃ u, u = s.counterFree a.counter := ⟨_, rfl⟩
  rw [← hu] at counter within ht
  have result := authResult_result u.authEnd 8
  have all : Within ⟨[.regs, .cfg, .free, .obs], [Reg.CFG_AUTH_STATUS, Reg.CFG_AUTH_COUNTER, Reg.GEN_IRQ_STATUS].map one, []⟩ s t :=
    ht ▸ within_post (.of (by decide)) (within_authResult _ _ (.of (by decide)) (within_authEnd _ (.of (by decide)) (within.mono (.of (by decide))))) _ _ _
  have cfg : t.cfg = { u.cfg with auth := none } := by rw [ht]; rfl
  refine ⟨?_, by rw [cfg], ?_, ?_, ht ▸ posted_post _ _ _ _, all.regsBut, all.parts⟩
  · rw [ht]
    exact (fld_of_reg (reg_post _ _ _ _ _) _).trans result
  · rw [cfg]
    exact counter.imp (fun h => by rw [h]) (fun h => by rw [h])
  · rw [cfg]
    rcases counter with h | h <;> rw [h]

/-- The zero of a rotation not stored. -/
theorem zeroFailed_spec {c : Nat} {t : State} (hz : s.cfg.zeroing = some c) (ht : t = s.zeroed false) :
    t.cfg.zeroing = none ∧ (t.cfg.counter = s.cfg.counter ∨ t.cfg.counter = c) ∧ t.cfg.keys = s.cfg.keys ∧
      t.flag Reg.CFG_KEY_STATUS Fld.CFG_KEY_STATUS_NV_FAIL = true ∧ Posted 0xE008 .heart 0 t ∧
      RegsBut [Reg.CFG_KEY_STATUS, Reg.CFG_AUTH_COUNTER] s t ∧ Keeps [.regs, .cfg, .free, .obs] s t := by
  obtain ⟨u, hu⟩ : ∃ u, u = { s with cfg := { s.cfg with zeroing := none } } := ⟨_, rfl⟩
  have ended : Within ⟨[.cfg], [], []⟩ s u := hu ▸ within_with_cfg _ (.refl _) (.refl _ s)
  have cfgU : u.cfg = { s.cfg with zeroing := none } := by rw [hu]
  have eq : t = ((u.counterFree c).setFld Reg.CFG_KEY_STATUS Fld.CFG_KEY_STATUS_NV_FAIL 1).post 0xE008 .heart 0 := by
    rw [ht, hu, State.zeroed, hz]
    rfl
  obtain ⟨counter, within⟩ := counterFree_spec (s := u) c
  obtain ⟨v, hv⟩ : ∃ v, v = u.counterFree c := ⟨_, rfl⟩
  rw [← hv] at counter within eq
  have all : Within ⟨[.regs, .cfg, .free, .obs], [Reg.CFG_KEY_STATUS, Reg.CFG_AUTH_COUNTER].map one, []⟩ s t :=
    eq ▸ within_post (.of (by decide)) (within_setFld _ _ _ (.of (by decide)) ((ended.mono (.of (by decide))).trans (within.mono (.of (by decide))))) _ _ _
  have cfg : t.cfg = v.cfg := by rw [eq]; rfl
  refine ⟨?_, ?_, ?_, ?_, eq ▸ posted_post _ _ _ _, all.regsBut, all.parts⟩
  · rw [cfg]
    rcases counter with h | h <;> rw [h, cfgU]
  · rw [cfg]
    exact counter.imp (fun h => by rw [h, cfgU]) (fun h => by rw [h])
  · rw [cfg]
    rcases counter with h | h <;> rw [h, cfgU]
  · rw [eq]
    exact (flag_of_reg (reg_post _ _ _ _ _) _).trans (flag_setFld_same v _ _ 1 (by decide))

/-! ### CFG_KEY_ROTATE (R525) -/

/-- Both copies of key `y` verified, before the counter shows 0. -/
theorem showKey_two {y : KeyCopy} (hk : s.cfg.keys = [y, y]) (hv : y.valid = true) :
    s.showKey = (s.setFld Reg.CFG_KEY_STATUS Fld.CFG_KEY_STATUS_KEY_GEN y.gen).setFld Reg.CFG_KEY_STATUS Fld.CFG_KEY_STATUS_BLANK
      (bnat (decide (y.key = List.replicate 16 0))) := by
  have now : s.keyNow = some y := by
    rw [State.keyNow, hk]
    simp only [List.filter_cons, hv, if_true, List.filter_nil, List.foldl_cons, List.foldl_nil, Nat.lt_irrefl, if_false]
  rw [State.showKey, now]

/-- The key `y` in force, its counter 0 on the way to NV. -/
def State.rotated (s : State) (y : KeyCopy) : State :=
  let u := (s.setKeys y y).showKey
  (({ u with cfg := { u.cfg with zeroing := some u.cfg.counter } }).setCounter 0).post 0xE007 .heart 0

theorem rotated_spec {y : KeyCopy} (hv : y.valid = true) (hg : y.gen < 65536) (hz : y.key ≠ List.replicate 16 0) :
    (s.rotated y).cfg = { s.cfg with keys := [y, y], counter := 0, zeroing := some s.cfg.counter } ∧
      (s.rotated y).fld Reg.CFG_KEY_STATUS Fld.CFG_KEY_STATUS_KEY_GEN = y.gen ∧
      (s.rotated y).flag Reg.CFG_KEY_STATUS Fld.CFG_KEY_STATUS_BLANK = false ∧ (s.rotated y).reg Reg.CFG_AUTH_COUNTER = 0 ∧
      Posted 0xE007 .heart 0 (s.rotated y) ∧
      Within ⟨[.regs, .cfg, .obs], [one Reg.CFG_AUTH_COUNTER, one Reg.CFG_KEY_STATUS], []⟩ s (s.rotated y) := by
  obtain ⟨k, hk⟩ : ∃ k, k = s.setKeys y y := ⟨_, rfl⟩
  have keyed : Within ⟨[.cfg], [], []⟩ s k := hk ▸ within_setKeys s _ _ (.refl _) (.refl _ s)
  have keys : k.cfg = { s.cfg with keys := [y, y] } := by rw [hk]; rfl
  have shown := showKey_two (s := k) (y := y) (by rw [keys]) hv
  have within : Within ⟨[.regs], [one Reg.CFG_KEY_STATUS], []⟩ k k.showKey := within_showKey k (.refl _) (.refl _ k)
  obtain ⟨u, hu⟩ : ∃ u, u = k.showKey := ⟨_, rfl⟩
  rw [← hu] at shown within
  have gen : u.fld Reg.CFG_KEY_STATUS Fld.CFG_KEY_STATUS_KEY_GEN = y.gen := by
    rw [shown, fld_setFld_other _ _ _ _ _ (by decide) (by decide), fld_setFld_same _ _ _ _ (by decide)]
    exact Nat.mod_eq_of_lt hg
  have blank : u.flag Reg.CFG_KEY_STATUS Fld.CFG_KEY_STATUS_BLANK = false := by
    rw [shown, flag_setFld_same _ _ _ _ (by decide), decide_eq_false hz]
    rfl
  have cfgU : u.cfg = { s.cfg with keys := [y, y] } := Eq.trans (within.parts .cfg (by decide)) keys
  have eq : s.rotated y = (({ u with cfg := { u.cfg with zeroing := some u.cfg.counter } }).setCounter 0).post 0xE007 .heart 0 := by
    rw [hu, hk]
    rfl
  have after : Within ⟨[.regs, .cfg, .obs], [one Reg.CFG_AUTH_COUNTER], []⟩ u (s.rotated y) :=
    eq ▸ within_post (.of (by decide)) (within_setCounter _ _ (.of (by decide)) (within_with_cfg _ (.of (by decide)) (.refl _ u))) _ _ _
  have status : (s.rotated y).reg Reg.CFG_KEY_STATUS = u.reg Reg.CFG_KEY_STATUS := after.reg_of_misses _ (by decide)
  refine ⟨?_, (fld_of_reg status _).trans gen, (flag_of_reg status _).trans blank, ?_, ?_, ?_⟩
  · rw [eq]
    exact congrArg (fun c : CfgSt => { c with zeroing := some c.counter, counter := 0 }) cfgU
  · rw [eq, reg_post]
    exact reg_setReg_same _ _ _
  · rw [eq]
    exact posted_post _ _ _ _
  · exact (keyed.mono (.of (by decide))).trans ((within.mono (.of (by decide))).trans (after.mono (.of (by decide))))

/-- A rotation accepted, both copies verified. -/
theorem keyRotated_spec {y : KeyCopy} (hv : y.valid = true) (hg : y.gen < 65536) (hz : y.key ≠ List.replicate 16 0) {t : State}
    (ht : t = s.authAccepted.authEnd.rotated y) :
    t.cfg = { s.cfg with keys := [y, y], counter := 0, auth := none, zeroing := some s.cfg.counter } ∧
      t.fld Reg.CFG_AUTH_STATUS Fld.CFG_AUTH_STATUS_RESULT = 1 ∧
      t.fld Reg.CFG_KEY_STATUS Fld.CFG_KEY_STATUS_KEY_GEN = y.gen ∧ t.flag Reg.CFG_KEY_STATUS Fld.CFG_KEY_STATUS_BLANK = false ∧
      t.reg Reg.CFG_AUTH_COUNTER = 0 ∧ Posted 0xE007 .heart 0 t ∧
      RegsBut [Reg.CFG_AUTH_STATUS, Reg.CFG_AUTH_COUNTER, Reg.CFG_KEY_STATUS, Reg.GEN_IRQ_STATUS] s t ∧ Keeps [.regs, .cfg, .obs] s t := by
  have result : s.authAccepted.authEnd.fld Reg.CFG_AUTH_STATUS Fld.CFG_AUTH_STATUS_RESULT = 1 := (authAccepted_spec s).1
  have within : Within ⟨[.regs, .cfg, .obs], [Reg.CFG_AUTH_STATUS, Reg.GEN_IRQ_STATUS].map one, []⟩ s s.authAccepted.authEnd :=
    within_authEnd _ (.of (by decide)) ((authAccepted_within s).mono (.of (by decide)))
  have cfgU : s.authAccepted.authEnd.cfg = { s.cfg with auth := none } :=
    congrArg (fun c : CfgSt => { c with auth := none }) ((authAccepted_within s).parts .cfg (by decide))
  obtain ⟨u, hu⟩ : ∃ u, u = s.authAccepted.authEnd := ⟨_, rfl⟩
  rw [← hu] at result within cfgU ht
  obtain ⟨cfg, gen, blank, counter, posted, after⟩ := rotated_spec (s := u) hv hg hz
  rw [← ht] at cfg gen blank counter posted after
  have all : Within ⟨[.regs, .cfg, .obs], [Reg.CFG_AUTH_STATUS, Reg.CFG_AUTH_COUNTER, Reg.CFG_KEY_STATUS, Reg.GEN_IRQ_STATUS].map one, []⟩ s t :=
    (within.mono (.of (by decide))).trans (after.mono (.of (by decide)))
  have status : t.reg Reg.CFG_AUTH_STATUS = u.reg Reg.CFG_AUTH_STATUS := after.reg_of_misses _ (by decide)
  refine ⟨?_, (fld_of_reg status _).trans result, gen, blank, counter, posted, all.regsBut, all.parts⟩
  rw [cfg, cfgU]

theorem does_keyRefused {p : List Byte} {x : KeyCopy} {b0 b1 : Bool} {P : State → Prop} (hr : Running s) (ha : s.authActs 2 = some p)
    (hx : s.keyNow = some x) (hf : leAt p 16 2 ≠ x.gen + 1 ∨ aesDecrypt x.key (p.take 16) = List.replicate 16 0) (hp : P s.authRefused) :
    Does (.cfgKeyRotate b0 b1) s P := by
  refine does_running (o := execCfgKeyRotate b0 b1 s) (t := s.authRefused) rfl rfl hr ?_ hp
  simp only [ha, hx, Option.getD_some]
  exact if_pos hf

theorem does_keyRotated {p : List Byte} {x : KeyCopy} {P : State → Prop} (hr : Running s) (ha : s.authActs 2 = some p)
    (hx : s.keyNow = some x) (hg : leAt p 16 2 = x.gen + 1) (hz : aesDecrypt x.key (p.take 16) ≠ List.replicate 16 0)
    (hp : P (s.authAccepted.authEnd.rotated { key := aesDecrypt x.key (p.take 16), gen := x.gen + 1, valid := true })) :
    Does (.cfgKeyRotate true true) s P := by
  refine does_running (o := execCfgKeyRotate true true s) rfl rfl hr ?_ hp
  simp only [ha, hx, Option.getD_some, hg]
  exact (if_neg (not_or.2 ⟨fun h => h rfl, hz⟩)).trans rfl

end Sys2Proof.Machine

/-! Authenticated commands (O54): CFG_ROLLBACK, its check and restart, and the statement. -/

namespace Sys2Proof.Machine

variable {s : State}

/-! ### What a restart leaves (R519, R560) -/

/-- Of CFG's state only the boot memory's bytes have changed. -/
structure BootOnly (s t : State) : Prop where
  cfg : t.cfg = { s.cfg with boot := t.cfg.boot }

theorem BootOnly.of_cfg {t : State} (h : t.cfg = s.cfg) : BootOnly s t := ⟨by rw [h]⟩

theorem BootOnly.trans {t u : State} (h : BootOnly s t) (k : BootOnly t u) : BootOnly s u := ⟨by rw [k.cfg, h.cfg]⟩

theorem BootOnly.ite {t u : State} {c : Prop} [Decidable c] (h : BootOnly s t) (k : BootOnly s u) : BootOnly s (if c then t else u) := by
  split
  · exact h
  · exact k

theorem bootOnly_bootWrite (a : Nat) (b : List Byte) : BootOnly s (s.bootWrite a b) := ⟨rfl⟩

theorem bootOnly_takeFreeBytes (n : Nat) : BootOnly s (State.takeFreeBytes n s).1 :=
  .of_cfg ((within_takeFreeBytes n s (.refl _) (.refl _ s)).parts .cfg (by decide))

theorem bootOnly_bootSpoil (op : BootOp) (a : Nat) : BootOnly s (s.bootSpoil op a) := by
  cases op with
  | read => exact .of_cfg rfl
  | program => exact (bootOnly_takeFreeBytes 64).trans (bootOnly_bootWrite _ _)
  | erase => exact (bootOnly_takeFreeBytes 1024).trans (bootOnly_bootWrite _ _)

theorem bootOnly_cutBoot : BootOnly s s.cutBoot := by
  unfold State.cutBoot
  split
  · exact bootOnly_bootSpoil _ _
  · exact .of_cfg rfl

theorem bootOnly_writeCopy (c g : Nat) (l : List (List Byte)) : BootOnly s (s.writeCopy c g l) := (bootOnly_bootWrite _ _).trans (bootOnly_bootWrite _ _)

theorem bootOnly_compact : BootOnly s s.compact := (bootOnly_writeCopy _ _ _).trans (bootOnly_writeCopy _ _ _)

theorem bootOnly_retirePlace : BootOnly s s.retirePlace.1 := .ite (.of_cfg rfl) bootOnly_compact

theorem bootOnly_retireFirst (k v c : Nat) : BootOnly s (s.retireFirst k v c) := bootOnly_retirePlace.trans (bootOnly_bootWrite _ _)

theorem bootOnly_retire (k v c : Nat) (good : Bool) : BootOnly s (s.retire k v c good) := by
  cases good with
  | true => exact (bootOnly_retireFirst k v c).trans (bootOnly_bootWrite _ _)
  | false =>
    have bytes : BootOnly s (State.takeFreeBytes 4 (State.takeFreeBytes 4 s.retirePlace.1).1).1 :=
      bootOnly_retirePlace.trans ((bootOnly_takeFreeBytes 4).trans (bootOnly_takeFreeBytes 4))
    have noted (u : State) : BootOnly u ((u.setFld Reg.CFG_KEY_STATUS Fld.CFG_KEY_STATUS_NV_FAIL 1).post 0xE008 .heart 0) := .of_cfg rfl
    exact (bytes.trans ((bootOnly_bootWrite _ _).trans (bootOnly_bootWrite _ _))).trans (noted _)

theorem bootOnly_compactCut : BootOnly s s.compactCut := by
  unfold State.compactCut
  extract_lets g l f c t whole
  have word : BootOnly s f.1 := .of_cfg rfl
  have copied : BootOnly s t := .ite word (word.trans (bootOnly_writeCopy _ _ _))
  exact copied.trans ((bootOnly_bootWrite _ _).trans (bootOnly_bootWrite _ _))

/-- What the writes that a reset cuts short leave alone, where no counter is being written. -/
structure Downed (s t : State) : Prop where
  keys : t.cfg.keys = s.cfg.keys
  counter : t.cfg.counter = s.cfg.counter
  pins : t.pins = s.pins
  pending : t.pending = s.pending
  first : t.reg Reg.SAF_FIRST = s.reg Reg.SAF_FIRST

theorem Downed.trans {t u : State} (h : Downed s t) (k : Downed t u) : Downed s u :=
  ⟨k.keys.trans h.keys, k.counter.trans h.counter, k.pins.trans h.pins, k.pending.trans h.pending, k.first.trans h.first⟩

theorem Downed.of_boot {t : State} {c : Scope} (h : BootOnly s t) (hw : Within c s t) (hp : .pins ∉ c.parts) (hq : .pending ∉ c.parts)
    (hr : missesRegs c.regs Reg.SAF_FIRST = true) : Downed s t :=
  ⟨by rw [h.cfg], by rw [h.cfg], hw.parts .pins hp, hw.parts .pending hq, hw.reg_of_misses _ hr⟩

theorem Downed.of_within {t : State} {c : Scope} (hw : Within c s t) (hc : .cfg ∉ c.parts) (hp : .pins ∉ c.parts) (hq : .pending ∉ c.parts)
    (hr : missesRegs c.regs Reg.SAF_FIRST = true) : Downed s t := .of_boot (.of_cfg (hw.parts .cfg hc)) hw hp hq hr

/-- Power or reset takes the device down. -/
def State.down (s : State) (isReset : Bool) : State := (s.cutBoot.cutNv).emuDown isReset

theorem cutAuth_none (ha : s.cfg.auth = none) (hz : s.cfg.zeroing = none) : s.cutAuth = s := by
  unfold State.cutAuth
  simp only [ha, hz]

theorem down_downed (isReset : Bool) (ha : s.cfg.auth = none) (hz : s.cfg.zeroing = none) : Downed s (s.down isReset) := by
  have boot : Downed s s.cutBoot := .of_boot bootOnly_cutBoot (within_cutBoot s (.refl _) (.refl _ s)) (by decide) (by decide) (by decide)
  have auth : s.cutBoot.cfg.auth = none := by rw [bootOnly_cutBoot.cfg]; exact ha
  have zeroing : s.cutBoot.cfg.zeroing = none := by rw [bootOnly_cutBoot.cfg]; exact hz
  obtain ⟨u, hu⟩ : ∃ u, u = s.cutBoot := ⟨_, rfl⟩
  rw [← hu] at boot auth zeroing
  have commit : Downed u u.cutCommit := .of_within (within_cutCommit u (.refl _) (.refl _ u)) (by decide) (by decide) (by decide) (by decide)
  have lower : Downed u.cutCommit u.cutCommit.cutLower :=
    .of_within (within_cutLower _ (.refl _) (.refl _ _)) (by decide) (by decide) (by decide) (by decide +kernel)
  have nv : Downed u u.cutNv := by
    rw [State.cutNv, cutAuth_none auth zeroing]
    exact commit.trans lower
  have emu : Downed u.cutNv (u.cutNv.emuDown isReset) :=
    .of_within (within_emuDown _ _ (.refl _) (.refl _ _)) (by decide) (by decide) (by decide) (by decide)
  rw [State.down, ← hu]
  exact boot.trans (nv.trans emu)

/-- What a reset leaves of what it does not clear. -/
structure Restarted (b : Nat) (s t : State) : Prop where
  awake : t.pwr.awake = .reset
  auth : t.cfg.auth = none
  rollback : t.cfg.rollback = false
  rolled : t.cfg.rolled = decide (b = 4)
  keys : t.cfg.keys = s.cfg.keys
  counter : t.cfg.counter = s.cfg.counter
  pins : t.pins = s.pins
  pending : t.pending = s.pending

theorem afterReset_restarted (keeps : Bool) (b : Nat) : Restarted b s (s.afterReset keeps b) := by
  cases keeps <;> exact ⟨rfl, rfl, rfl, rfl, rfl, rfl, rfl, rfl⟩

theorem Restarted.after {b : Nat} {u t : State} (h : Restarted b u t) (hd : Downed s u) : Restarted b s t :=
  ⟨h.awake, h.auth, h.rollback, h.rolled, h.keys.trans hd.keys, h.counter.trans hd.counter, h.pins.trans hd.pins, h.pending.trans hd.pending⟩

theorem afterReset_prev (b : Nat) : (s.afterReset true b).reg Reg.SAF_PREV = s.reg Reg.SAF_FIRST := reg_setReg_same _ _ _

theorem restart_restarted (b : Nat) (ha : s.cfg.auth = none) (hz : s.cfg.zeroing = none) :
    Restarted b s (s.restart b) ∧ (s.restart b).reg Reg.SAF_PREV = s.reg Reg.SAF_FIRST := by
  have down := down_downed true ha hz
  exact ⟨(afterReset_restarted true b).after down, (afterReset_prev b).trans down.first⟩

theorem aonLost_restarted (ha : s.cfg.auth = none) (hz : s.cfg.zeroing = none) :
    s.aonLost.pwr.awake = .reset ∧ s.aonLost.cfg.auth = none ∧ s.aonLost.cfg.rollback = false ∧ s.aonLost.cfg.keys = s.cfg.keys ∧
      s.aonLost.cfg.counter = s.cfg.counter ∧ s.aonLost.pins.aon = false ∧ s.aonLost.pending = s.pending := by
  obtain ⟨awake, auth, rollback, -, keys, counter, -, pending⟩ := (afterReset_restarted false 0).after (down_downed false ha hz)
  exact ⟨awake, auth, rollback, keys, counter, rfl, pending⟩

/-! ### The rollback's check (R519) -/

/-- The check over, and the command accepted. -/
def State.rolledBack (s : State) : State := ({ s with cfg := { s.cfg with rollback := false } }).authAccepted.authEnd

theorem rolledBack_spec : s.rolledBack.cfg = { s.cfg with rollback := false, auth := none } ∧ s.rolledBack.pins = s.pins ∧
    s.rolledBack.pending = s.pending ∧ s.rolledBack.reg Reg.SAF_FIRST = s.reg Reg.SAF_FIRST := by
  obtain ⟨u, hu⟩ : ∃ u, u = { s with cfg := { s.cfg with rollback := false } } := ⟨_, rfl⟩
  have over_ : Within ⟨[.cfg], [], []⟩ s u := hu ▸ within_with_cfg _ (.refl _) (.refl _ s)
  have cfg : u.cfg = { s.cfg with rollback := false } := by rw [hu]
  have accepted := authAccepted_within u
  have all : Within ⟨[.regs, .cfg, .obs], [Reg.CFG_AUTH_STATUS, Reg.GEN_IRQ_STATUS].map one, []⟩ s u.authAccepted.authEnd :=
    (over_.mono (.of (by decide))).trans (within_authEnd _ (.of (by decide)) (accepted.mono (.of (by decide))))
  have same : u.authAccepted.cfg = u.cfg := accepted.parts .cfg (by decide)
  rw [State.rolledBack, ← hu]
  refine ⟨?_, all.parts .pins (by decide), all.parts .pending (by decide), all.reg_of_misses _ (by decide)⟩
  show { u.authAccepted.cfg with auth := none } = _
  rw [same, cfg]

/-- The counter that an accepted command carries. -/
def State.authCounter (s : State) : Nat := match s.cfg.auth with
  | some a => a.counter
  | none => 0

/-- How the check ends that found the other slot fit (R519). -/
def State.rollbackEnds (s : State) (e : RetireEnd) : State :=
  let u := s.rolledBack
  let ver := (s.reg Reg.CFG_IMAGE_VER).toNat
  match e with
  | .verified => (u.retire s.slotNow ver s.authCounter true).restart 4
  | .unverified => (u.retire s.slotNow ver s.authCounter false).restart 4
  | .lostAfterCopy0 => (u.retireFirst s.slotNow ver s.authCounter).aonLost
  | .lostCompacting => (if u.freeEntry.isSome then u else u.compactCut).aonLost

/-- A write of the boot memory on the way leaves what the restart keeps. -/
theorem retire_downed (k v c : Nat) (good : Bool) : Downed s (s.retire k v c good) :=
  .of_boot (bootOnly_retire k v c good) (within_retire s k v c good (.refl _) (.refl _ s)) (by decide) (by decide) (by decide)

theorem retireFirst_downed (k v c : Nat) : Downed s (s.retireFirst k v c) :=
  .of_boot (bootOnly_retireFirst k v c) (within_retireFirst s k v c (.refl _) (.refl _ s)) (by decide) (by decide) (by decide)

theorem compactCut_downed : Downed s s.compactCut :=
  .of_boot bootOnly_compactCut (within_compactCut s (.refl _) (.refl _ s)) (by decide) (by decide) (by decide)

/-- The state from which the device restarts: the command over, the boot memory written or not. -/
structure Leaving (s u : State) : Prop where
  downed : Downed s u
  auth : u.cfg.auth = none
  zeroing : u.cfg.zeroing = none

theorem rolledBack_leaving (hz : s.cfg.zeroing = none) : Leaving s s.rolledBack := by
  obtain ⟨cfg, pins, pending, first⟩ := rolledBack_spec (s := s)
  exact ⟨⟨by rw [cfg], by rw [cfg], pins, pending, first⟩, by rw [cfg], by rw [cfg]; exact hz⟩

theorem Leaving.boot {u v : State} (h : Leaving s u) (hd : Downed u v) (hb : BootOnly u v) : Leaving s v :=
  ⟨h.downed.trans hd, by rw [hb.cfg]; exact h.auth, by rw [hb.cfg]; exact h.zeroing⟩

theorem rollback_restarts {u : State} (h : Leaving s u) :
    Restarted 4 s (u.restart 4) ∧ (u.restart 4).reg Reg.SAF_PREV = s.reg Reg.SAF_FIRST := by
  obtain ⟨restarted, prev⟩ := restart_restarted 4 h.auth h.zeroing
  exact ⟨restarted.after h.downed, prev.trans h.downed.first⟩

theorem rollback_lost {u : State} (h : Leaving s u) :
    u.aonLost.pwr.awake = .reset ∧ u.aonLost.cfg.auth = none ∧ u.aonLost.cfg.rollback = false ∧ u.aonLost.cfg.keys = s.cfg.keys ∧
      u.aonLost.cfg.counter = s.cfg.counter ∧ u.aonLost.pins.aon = false ∧ u.aonLost.pending = s.pending := by
  obtain ⟨awake, auth, rollback, keys, counter, aon, pending⟩ := aonLost_restarted h.auth h.zeroing
  exact ⟨awake, auth, rollback, keys.trans h.downed.keys, counter.trans h.downed.counter, aon, pending.trans h.downed.pending⟩

theorem does_rollback {p : List Byte} {e : RetireEnd} {P : State → Prop} (hr : Running s) (ha : s.authActs 1 = some p)
    (hb : s.cfg.rollback = true) (hc : s.slotCheck s.slotOther = 1) (hv : hdrVer (s.header s.slotOther) = leAt p 0 4)
    (hp : P (s.rollbackEnds e)) : Does (.rollbackCheckDone e) s P := by
  refine does_running (o := execRollbackCheckDone e s) (t := s.rollbackEnds e) rfl rfl hr ?_ hp
  simp only [ha, hb, Bool.not_true, Bool.false_eq_true, if_false]
  exact (if_neg (not_or.2 ⟨fun h => h hc, fun h => h hv⟩)).trans (by cases e <;> rfl)

/-- The check that refuses. -/
theorem rollbackRefused_spec {t : State} (ht : t = ({ s with cfg := { s.cfg with rollback := false } }).authRefused) :
    t.fld Reg.CFG_AUTH_STATUS Fld.CFG_AUTH_STATUS_RESULT = 6 ∧ t.cfg = { s.cfg with auth := none, rollback := false } ∧
      RegsBut [Reg.CFG_AUTH_STATUS, Reg.GEN_IRQ_STATUS] s t ∧ Keeps [.regs, .cfg, .obs] s t := by
  obtain ⟨u, hu⟩ : ∃ u, u = { s with cfg := { s.cfg with rollback := false } } := ⟨_, rfl⟩
  have over_ : Within ⟨[.cfg], [], []⟩ s u := hu ▸ within_with_cfg _ (.refl _) (.refl _ s)
  have cfgU : u.cfg = { s.cfg with rollback := false } := by rw [hu]
  rw [← hu] at ht
  obtain ⟨result, -, -, cfg⟩ := authRefused_spec u
  have within : Within ⟨[.regs, .cfg, .obs], [Reg.CFG_AUTH_STATUS, Reg.GEN_IRQ_STATUS].map one, []⟩ s t :=
    ht ▸ (over_.mono (.of (by decide))).trans (authRefused_within u)
  rw [← ht] at result cfg
  exact ⟨result, by rw [cfg, cfgU], within.regsBut, within.parts⟩

/-! ### The statement -/

theorem authPhase_in (h : s.gen.phase = .run ∨ s.gen.phase = .test ∨ s.gen.phase = .recovery) : s.authPhase = true := by
  rcases h with h | h | h <;> rw [State.authPhase, h] <;> rfl

theorem authPhase_out (h1 : s.gen.phase ≠ .run) (h2 : s.gen.phase ≠ .test) (h3 : s.gen.phase ≠ .recovery) : s.authPhase = false := by
  rw [State.authPhase, decide_eq_false h1, decide_eq_false h2, decide_eq_false h3]
  rfl

/-- What the checks read is not changed by the transaction's end. -/
theorem Sent.checks {u : State} (h : Sent s u) (hg : u.gen = s.gen) (l : List Byte) : u.authFault l = s.authFault l ∧ u.authPhase = s.authPhase := by
  have key : u.tagNow (u.authMessage l) = s.tagNow (s.authMessage l) := by
    rw [State.tagNow, State.tagNow, State.keyNow, State.keyNow, State.authMessage, State.authMessage, h.cfg]
  exact ⟨by rw [State.authFault, State.authFault, key, h.cfg], by rw [State.authPhase, State.authPhase, hg]⟩

/-- Settles O54: the transaction's checks, the counter's NV write, the rollback, the rotation, each by what it leaves. -/
theorem authenticatedCommands : Obligations.AuthenticatedCommands := by
  have words (s : State) (b : Bool) (l : List Word) (hr : HostReady s) (hl : l ≠ []) {P : State → Prop}
      (hp : ∀ u, Sent s u → u.gen = s.gen → P (u.authCheck (unpackWords l))) : Does (.auth b 0 l .whole) s P := by
    have sent := sent_authSent hr b l
    refine does_auth hr ?_
    rw [if_neg hl]
    exact hp _ sent (sent.kept .gen (by decide))
  refine ⟨fun s b a l e hr ha => ?_, fun s b hr => ?_, fun s b l hr hl ha => ?_, fun s b l hr hl ha h1 h2 h3 => ?_,
    fun s b l r hr hl ha hp hf h0 => ?_, fun s b l hr hl ha hp form tag counter => ?_, fun s a hr ha hs => ?_, fun s a hr ha hs => ?_,
    fun s p hr ha hb ho => ?_, fun s p hr ha hb ho => ?_, fun s p e hr ha hb hc => ?_, fun s p e hr ha hb hz hc hv he => ?_,
    fun s p e hr ha hb hz hc hv he => ?_, fun s p x b0 b1 hr ha hx hf => ?_, fun s p x y hr ha hx hg hz hy => ?_, fun s c hr ha hz => ?_,
    fun s c hr ha hz => ?_⟩
  · obtain ⟨cfg, flag, status⟩ := badCmd_spec (s := s) (authOp b) a.toNat
    refine does_ready (o := execAuth b a l e s) (t := s.badCmd (authOp b) a.toNat) rfl rfl hr ?_ ⟨cfg, flag, fld_of_reg status _⟩
    dsimp only
    rw [show (if b then 0xAA else 0xA2) = authOp b from rfl, auth_misspelt b ha, if_pos rfl]
  · have sent := sent_authSent hr b []
    exact does_auth hr ⟨sent.cfg, sent.regs, sent.kept⟩
  · refine words s b l hr hl fun u sent hg => answered_spec (r := 2) (by decide) sent (authCheck_busy ?_)
    rw [sent.cfg]
    exact ha
  · refine words s b l hr hl fun u sent hg => ?_
    have away : u.authPhase = false := (sent.checks hg []).2.trans (authPhase_out h1 h2 h3)
    obtain ⟨result, cfg, -, regs, kept⟩ := answered_spec (r := 7) (by decide) sent (authCheck_phase (l := unpackWords l) (by rw [sent.cfg]; exact ha) away)
    exact ⟨result, cfg, regs, kept⟩
  · refine words s b l hr hl fun u sent hg => ?_
    obtain ⟨fault, phase⟩ := sent.checks hg (unpackWords l)
    have found : u.authFault (unpackWords l) = r := fault.trans hf.symm
    have checked := authCheck_checked (s := u) (l := unpackWords l) (by rw [sent.cfg]; exact ha) (phase.trans (authPhase_in hp))
    rw [found, if_pos h0] at checked
    have small : r < 16 := by
      rw [hf]
      split
      · omega
      · split
        · omega
        · split <;> omega
    exact failed_spec small sent checked
  · refine words s b l hr hl fun u sent hg => ?_
    obtain ⟨fault, phase⟩ := sent.checks hg (unpackWords l)
    have none_ : s.authFault (unpackWords l) = 0 := by
      rw [State.authFault, form, if_neg Bool.true_eq_false.mp, if_neg (fun h => h tag), if_neg (by omega)]
    have checked := authCheck_checked (s := u) (l := unpackWords l) (by rw [sent.cfg]; exact ha) (phase.trans (authPhase_in hp))
    rw [fault, none_, if_neg (fun h => h rfl)] at checked
    exact taken_spec sent checked
  · exact does_running (o := execAuthCounterNvDone true s) (t := s.counterStored a) rfl rfl hr (by simp only [ha, hs]; rfl) (counterStored_spec a)
  · exact does_running (o := execAuthCounterNvDone false s) rfl rfl hr (by simp only [ha, hs]; rfl) (counterFailed_spec (a := a) rfl)
  · exact does_running (o := execCfgRollback s) (t := { s with cfg := { s.cfg with rollback := true } }) rfl rfl hr (by simp only [ha, hb, ho]; rfl)
      ⟨rfl, (within_with_cfg _ (.refl _) (.refl _ s)).parts⟩
  · exact does_running (o := execCfgRollback s) (t := s.authRefused) rfl rfl hr (by simp only [ha, hb, ho]; rfl)
      ⟨authRefused_spec s, (authRefused_within s).regsBut, (authRefused_within s).parts⟩
  · refine does_running (o := execRollbackCheckDone e s) rfl rfl hr ?_ (rollbackRefused_spec (s := s) rfl)
    simp only [ha, hb, Bool.not_true, Bool.false_eq_true, if_false]
    exact if_pos hc
  · refine does_rollback hr ha hb hc hv ?_
    have finish_ (u : State) (h : Leaving s u) : (u.restart 4).pwr.awake = .reset ∧ (u.restart 4).cfg.rolled = true ∧ (u.restart 4).cfg.auth = none ∧
        (u.restart 4).cfg.rollback = false ∧ (u.restart 4).cfg.keys = s.cfg.keys ∧ (u.restart 4).cfg.counter = s.cfg.counter ∧
        (u.restart 4).reg Reg.SAF_PREV = s.reg Reg.SAF_FIRST ∧ (u.restart 4).pins.aon = s.pins.aon ∧ (u.restart 4).pending = s.pending := by
      obtain ⟨restarted, prev⟩ := rollback_restarts h
      exact ⟨restarted.awake, restarted.rolled, restarted.auth, restarted.rollback, restarted.keys, restarted.counter, prev,
        congrArg PinSt.aon restarted.pins, restarted.pending⟩
    have retired (good : Bool) : Leaving s (s.rolledBack.retire s.slotNow (s.reg Reg.CFG_IMAGE_VER).toNat s.authCounter good) :=
      (rolledBack_leaving hz).boot (retire_downed _ _ _ _) (bootOnly_retire _ _ _ _)
    rcases he with rfl | rfl
    · exact finish_ _ (retired true)
    · exact finish_ _ (retired false)
  · refine does_rollback hr ha hb hc hv ?_
    have left := rolledBack_leaving hz
    rcases he with rfl | rfl
    · exact rollback_lost (left.boot (retireFirst_downed _ _ _) (bootOnly_retireFirst _ _ _))
    · refine rollback_lost (u := if s.rolledBack.freeEntry.isSome then s.rolledBack else s.rolledBack.compactCut) ?_
      split
      · exact left
      · exact left.boot compactCut_downed bootOnly_compactCut
  · exact does_keyRefused hr ha hx hf ⟨authRefused_spec s, (authRefused_within s).regsBut, (authRefused_within s).parts⟩
  · refine does_keyRotated hr ha hx hg hz ?_
    have small : x.gen + 1 < 65536 := hg ▸ leAt_lt p 16 2
    rw [hy]
    exact keyRotated_spec rfl small hz rfl
  · refine does_running (o := execAuthCounterNvDone true s) (t := s.zeroed true) rfl rfl hr (by simp only [ha]) ?_
    rw [State.zeroed, hz]
    exact ⟨rfl, (within_with_cfg _ (.refl _) (.refl _ s)).parts⟩
  · exact does_running (o := execAuthCounterNvDone false s) (t := s.zeroed false) rfl rfl hr (by simp only [ha]) (zeroFailed_spec hz rfl)

end Sys2Proof.Machine

/-! Boot access (O55): READ, PROGRAM and ERASE taken up, refused and ended. -/

namespace Sys2Proof.Machine

variable {s : State}

/-! ### Taken up or refused (R520) -/

/-- What a command needs to be taken up. -/
structure BootFree (s : State) : Prop where
  idle : s.cfg.bootOp = none
  rollback : s.cfg.rollback = false

/-- Whether an address may be programmed or erased: it lies in a slot that is not in force. -/
def State.bootWritable (s : State) (a : Nat) : Prop :=
  (0x10000 ≤ a ∧ a < 0x410000 ∧ (s.gen.safeBoot = true ∨ s.slotNow ≠ 0)) ∨
    (0x410000 ≤ a ∧ a < 0x810000 ∧ (s.gen.safeBoot = true ∨ s.slotNow = 0))

theorem inSlot_first (a : Nat) : inSlot 0 a = true ↔ 0x10000 ≤ a ∧ a < 0x410000 := by
  simp [inSlot, slotStart, slotSize]

theorem inSlot_other {k : Nat} (hk : k ≠ 0) (a : Nat) : inSlot k a = true ↔ 0x410000 ≤ a ∧ a < 0x810000 := by
  simp [inSlot, slotStart, slotSize, hk]

theorem inSlot_false {k a : Nat} (h : ¬ inSlot k a = true) : inSlot k a = false := Bool.eq_false_iff.2 h

theorem slotNow_lt : s.slotNow < 2 := Nat.mod_lt _ (by decide)

theorem bootBad_write {op : BootOp} {a : Nat} (hf : BootFree s) (ha : bootAligned op a = true) (hw : s.bootWritable a) :
    s.bootBad op a = false := by
  have either : (inSlot 0 a || inSlot 1 a) = true := by
    rw [Bool.or_eq_true, inSlot_first, inSlot_other (by decide)]
    rcases hw with ⟨h1, h2, -⟩ | ⟨h1, h2, -⟩
    · exact .inl ⟨h1, h2⟩
    · exact .inr ⟨h1, h2⟩
  have spare : (!s.gen.safeBoot && inSlot s.slotNow a) = false := by
    rcases hw with ⟨h1, h2, safe | other⟩ | ⟨h1, h2, safe | other⟩
    · rw [safe]; rfl
    · rw [inSlot_false (by rw [inSlot_other other]; omega), Bool.and_false]
    · rw [safe]; rfl
    · rw [other, inSlot_false (by rw [inSlot_first]; omega), Bool.and_false]
  rw [State.bootBad, hf.idle, hf.rollback, ha, either, spare]
  simp

theorem bootBad_refused {op : BootOp} {a : Nat} (hop : op ≠ .read)
    (h : bootAligned op a = false ∨ a < 0x10000 ∨ 0x810000 ≤ a ∨ (s.gen.safeBoot = false ∧ s.slotNow = 0 ∧ a < 0x410000) ∨
      (s.gen.safeBoot = false ∧ s.slotNow = 1 ∧ 0x410000 ≤ a) ∨ s.cfg.bootOp.isSome = true ∨ s.cfg.rollback = true) : s.bootBad op a = true := by
  have writes : decide (op ≠ .read) = true := decide_eq_true hop
  by_cases inside : (inSlot 0 a || inSlot 1 a) = true
  · rw [Bool.or_eq_true, inSlot_first, inSlot_other (by decide)] at inside
    rcases h with h | h | h | ⟨safe, slot, h⟩ | ⟨safe, slot, h⟩ | h | h
    · rw [State.bootBad, h]; simp
    · omega
    · omega
    · have here : inSlot s.slotNow a = true := by rw [slot, inSlot_first]; omega
      rw [State.bootBad, writes, safe, here]; simp
    · have here : inSlot s.slotNow a = true := by rw [slot, inSlot_other (by decide)]; omega
      rw [State.bootBad, writes, safe, here]; simp
    · rw [State.bootBad, h]; simp
    · rw [State.bootBad, h]; simp
  · rw [State.bootBad, writes, Bool.eq_false_iff.2 inside]
    simp

theorem bootBad_read {a : Nat} (hf : BootFree s) (ha : a % 4 = 0) : s.bootBad .read a = false := by
  rw [State.bootBad, hf.idle, hf.rollback, bootAligned, ha]
  rfl

theorem bootBad_read_refused {a : Nat} (h : a % 4 ≠ 0 ∨ s.cfg.bootOp.isSome = true ∨ s.cfg.rollback = true) : s.bootBad .read a = true := by
  rcases h with h | h | h
  · rw [State.bootBad, bootAligned, decide_eq_false h]; simp
  · rw [State.bootBad, h]; simp
  · rw [State.bootBad, h]; simp

/-- A command taken up. -/
theorem bootStarted_spec {op : BootOp} {a : Nat} (ha : a = (s.reg Reg.CFG_BOOT_ADDR).toNat) (hb : s.bootBad op a = false) {t : State}
    (ht : t = s.bootStart op) :
    t.cfg = { s.cfg with bootOp := some (op, a), bootData := s.bootBuf, wire := bootWire op a } ∧
      t.flag Reg.CFG_BOOT_BSTATUS Fld.CFG_BOOT_BSTATUS_BUSY = true ∧ RegsBut [Reg.CFG_BOOT_BSTATUS] s t ∧ Keeps [.regs, .cfg] s t := by
  have eq : t = { s.setFld Reg.CFG_BOOT_BSTATUS Fld.CFG_BOOT_BSTATUS_BUSY 1 with
      cfg := { s.cfg with bootOp := some (op, a), bootData := s.bootBuf, wire := bootWire op a } } := by
    rw [ht, State.bootStart, ← ha, if_neg (by rw [hb]; exact Bool.false_ne_true)]
    rfl
  have within : Within ⟨[.regs, .cfg], [one Reg.CFG_BOOT_BSTATUS], []⟩ s t :=
    eq ▸ within_with_cfg _ (.of (by decide)) (within_setFld _ _ _ (.of (by decide)) (.refl _ s))
  refine ⟨by rw [eq], ?_, within.regsBut, within.parts⟩
  rw [eq]
  exact flag_setFld_same s Reg.CFG_BOOT_BSTATUS Fld.CFG_BOOT_BSTATUS_BUSY 1 (by decide)

/-- A command's end. -/
theorem bootEnd_spec {r : Nat} (hr : r < 16) :
    (s.bootEnd r).fld Reg.CFG_BOOT_BSTATUS Fld.CFG_BOOT_BSTATUS_RESULT = r ∧
      (s.bootEnd r).flag Reg.CFG_BOOT_BSTATUS Fld.CFG_BOOT_BSTATUS_DONE = true ∧
      (s.bootEnd r).flag Reg.CFG_BOOT_BSTATUS Fld.CFG_BOOT_BSTATUS_BUSY = s.flag Reg.CFG_BOOT_BSTATUS Fld.CFG_BOOT_BSTATUS_BUSY ∧
      (s.bootEnd r).cfg = s.cfg ∧ Within ⟨[.regs, .obs], [one Reg.CFG_BOOT_BSTATUS], []⟩ s (s.bootEnd r) := by
  have reg : (s.bootEnd r).reg Reg.CFG_BOOT_BSTATUS = ((s.setFld Reg.CFG_BOOT_BSTATUS Fld.CFG_BOOT_BSTATUS_RESULT r).setFld
      Reg.CFG_BOOT_BSTATUS Fld.CFG_BOOT_BSTATUS_DONE 1).reg Reg.CFG_BOOT_BSTATUS := reg_stick _ _ _ _
  refine ⟨?_, ?_, ?_, rfl, within_bootEnd s r (.refl _) (.refl _ s)⟩
  · rw [fld_of_reg reg, fld_setFld_other _ _ _ _ _ (by decide) (by decide), fld_setFld_same _ _ _ _ (by decide)]
    exact Nat.mod_eq_of_lt hr
  · rw [flag_of_reg reg]
    exact flag_setFld_same _ _ _ _ (by decide)
  · rw [flag_of_reg reg, flag_setFld_other _ _ _ _ _ (by decide) (by decide), flag_setFld_other _ _ _ _ _ (by decide) (by decide)]

theorem bootRefused_spec {op : BootOp} {a : Nat} (ha : a = (s.reg Reg.CFG_BOOT_ADDR).toNat) (hb : s.bootBad op a = true) {t : State}
    (ht : t = s.bootStart op) :
    t.fld Reg.CFG_BOOT_BSTATUS Fld.CFG_BOOT_BSTATUS_RESULT = 1 ∧ RegsBut [Reg.CFG_BOOT_BSTATUS] s t ∧ Keeps [.regs, .obs] s t := by
  have eq : t = s.bootEnd 1 := by rw [ht, State.bootStart, ← ha, if_pos hb]
  obtain ⟨result, -, -, -, within⟩ := bootEnd_spec (s := s) (r := 1) (by decide)
  rw [eq]
  exact ⟨result, within.regsBut, within.parts⟩

/-! ### The buffer -/

theorem wordBytes_ofBytes (a b c d : Byte) : wordBytes (ofBytes [a, b, c, d]) = [a, b, c, d] := by
  have value : (ofBytes [a, b, c, d]).toNat = a.toNat + 256 * (b.toNat + 256 * (c.toNat + 256 * d.toNat)) := by
    rw [ofBytes, BitVec.toNat_ofNat]
    simp only [List.take, leNat, Nat.mul_zero, Nat.add_zero]
    omega
  have part (x : Byte) (n : Nat) (h : n % 256 = x.toNat) : byte n = x := BitVec.eq_of_toNat_eq (by rw [BitVec.toNat_ofNat]; exact h)
  have ha := a.isLt
  have hb := b.isLt
  have hc := c.isLt
  have hd := d.isLt
  rw [wordBytes_eq, value, part a _ (by omega), part b _ (by omega), part c _ (by omega), part d _ (by omega)]

theorem unpackWords_packWords (k : Nat) : ∀ l : List Byte, l.length = 4 * k → unpackWords (packWords l) = l ∧ (packWords l).length = k := by
  induction k with
  | zero =>
    intro l h
    rw [List.length_eq_zero_iff.1 (by omega : l.length = 0)]
    exact ⟨rfl, rfl⟩
  | succ k ih =>
    intro l h
    match l with
    | a :: b :: c :: d :: t =>
      obtain ⟨bytes, length⟩ := ih t (by simp only [List.length_cons] at h; omega)
      rw [packWords, unpackWords, wordBytes_ofBytes, bytes, List.length_cons, length]
      exact ⟨rfl, rfl⟩
    | [] => simp at h
    | [_] => simp at h; omega
    | [_, _] => simp at h; omega
    | [_, _, _] => simp at h; omega

theorem setBootBuf_reg (ws : List Word) (k : Nat) (hk : k ≤ 64) {i : Nat} (hi : i < k) :
    (State.each (fun i t => t.setReg (Reg.CFG_BOOT_BUF i) ((ws[i]?).getD 0)) k s).reg (Reg.CFG_BOOT_BUF i) = (ws[i]?).getD 0 := by
  induction k with
  | zero => omega
  | succ k ih =>
    rw [State.each]
    by_cases h : i = k
    · rw [h, reg_setReg_same]
    · rw [reg_setReg_ne _ _ _ _ (by unfold Reg.CFG_BOOT_BUF; omega)]
      exact ih (by omega) (by omega)

theorem bootBuf_setBootBuf {ws : List Word} (h : ws.length = 64) : (s.setBootBuf ws).bootBuf = unpackWords ws := by
  rw [State.bootBuf]
  congr 1
  refine List.ext_getElem (by simp [h]) fun i h1 h2 => ?_
  have bound : i < 64 := by simpa using h1
  rw [List.getElem_map, List.getElem_range, State.setBootBuf, setBootBuf_reg ws 64 (Nat.le_refl _) bound, List.getElem?_eq_getElem h2]
  rfl

theorem bootBytes_length (a n : Nat) : (s.bootBytes a n).length = n := by
  rw [State.bootBytes]
  induction n generalizing a with
  | zero => rfl
  | succ n ih => rw [Sparse.read, List.length_cons, ih]

theorem bootBuf_of_regs {t : State} (h : ∀ i, t.reg (Reg.CFG_BOOT_BUF i) = s.reg (Reg.CFG_BOOT_BUF i)) : t.bootBuf = s.bootBuf := by
  rw [State.bootBuf, State.bootBuf]
  simp only [h]

/-! ### Ends (R507, R520) -/

/-- The command over, before its memory is looked at. -/
def State.bootOver (s : State) : State :=
  ({ s with cfg := { s.cfg with bootOp := none, bootData := [] } }).setFld Reg.CFG_BOOT_BSTATUS Fld.CFG_BOOT_BSTATUS_BUSY 0

/-- What the ended command leaves so far: nothing is busy, the memory as it was. -/
structure Over (s u : State) : Prop where
  cfg : u.cfg = { s.cfg with bootOp := none, bootData := [] }
  busy : u.flag Reg.CFG_BOOT_BSTATUS Fld.CFG_BOOT_BSTATUS_BUSY = false
  within : Within ⟨[.regs, .cfg], [one Reg.CFG_BOOT_BSTATUS], []⟩ s u

theorem bootOver_over : Over s s.bootOver :=
  ⟨rfl, flag_setFld_same _ _ _ _ (by decide), within_setFld _ _ _ (.of (by decide)) (within_with_cfg _ (.of (by decide)) (.refl _ s))⟩

theorem Over.bytes {u : State} (h : Over s u) (a n : Nat) : u.bootBytes a n = s.bootBytes a n := by
  rw [State.bootBytes, State.bootBytes, h.cfg]

theorem bootBytes_bootWrite {a : Nat} {l : List Byte} {n : Nat} (h : l.length = n) : (s.bootWrite a l).bootBytes a n = l := by
  rw [← h]
  exact Sparse.read_write _ _ _ _

theorem bootByte_bootWrite_in {a : Nat} {l : List Byte} {i : Nat} (h : i < l.length) : (s.bootWrite a l).bootBytes (a + i) 1 = [(l[i]?).getD 0xFF] :=
  congrArg (fun b => [b]) (Sparse.get_write_in 0xFF l h _ _)

theorem bootByte_bootWrite_out {a : Nat} {l : List Byte} {x : Nat} (h : x < a ∨ a + l.length ≤ x) : (s.bootWrite a l).bootBytes x 1 = s.bootBytes x 1 :=
  congrArg (fun b => [b]) (Sparse.get_write_ne _ _ _ _ _ h)

/-- A READ ended. -/
theorem bootReadDone_spec {a : Nat} (ha : a + 256 ≤ 0x1000000) {t : State} (ht : t = (s.bootOver.bootTake a).bootEnd 0) :
    t.bootBuf = s.bootBytes a 256 ∧ t.cfg = { s.cfg with bootOp := none, bootData := [] } ∧
      t.flag Reg.CFG_BOOT_BSTATUS Fld.CFG_BOOT_BSTATUS_BUSY = false ∧ t.flag Reg.CFG_BOOT_BSTATUS Fld.CFG_BOOT_BSTATUS_DONE = true ∧
      t.fld Reg.CFG_BOOT_BSTATUS Fld.CFG_BOOT_BSTATUS_RESULT = 0 ∧ Keeps [.regs, .cfg, .obs] s t := by
  have ended := bootOver_over (s := s)
  obtain ⟨u, hu⟩ : ∃ u, u = s.bootOver := ⟨_, rfl⟩
  rw [← hu] at ended ht
  have take : u.bootTake a = u.setBootBuf (packWords (u.bootBytes a 256)) := if_pos ha
  obtain ⟨bytes, length⟩ := unpackWords_packWords 64 (u.bootBytes a 256) (bootBytes_length a 256)
  have buf := bootBuf_setBootBuf (s := u) length
  have within : Within ⟨[.regs], [each Reg.CFG_BOOT_BUF 64], []⟩ u (u.setBootBuf (packWords (u.bootBytes a 256))) :=
    within_setBootBuf u _ (.refl _) (.refl _ u)
  obtain ⟨v, hv⟩ : ∃ v, v = u.setBootBuf (packWords (u.bootBytes a 256)) := ⟨_, rfl⟩
  rw [take, ← hv] at ht
  rw [← hv, bytes] at buf
  rw [← hv] at within
  obtain ⟨result, done_, busy, cfg, after⟩ := bootEnd_spec (s := v) (r := 0) (by decide)
  rw [← ht] at result done_ busy cfg after
  have cfgV : v.cfg = u.cfg := within.parts .cfg (by decide)
  have status : v.reg Reg.CFG_BOOT_BSTATUS = u.reg Reg.CFG_BOOT_BSTATUS := within.reg_of_misses _ (by decide +kernel)
  refine ⟨?_, by rw [cfg, cfgV, ended.cfg], ?_, done_, result, ?_⟩
  · rw [← ended.bytes, ← buf]
    exact bootBuf_of_regs fun i => after.regs _ fun r hr n hn => by
      rw [List.mem_singleton.1 hr, show Reg.CFG_BOOT_BUF i = 0xE1000 + i % 64 * 0x4 from rfl]
      show _ ≠ Reg.CFG_BOOT_BSTATUS + n * 0
      rw [show Reg.CFG_BOOT_BSTATUS = 0xE0048 from rfl]
      omega
  · rw [busy, flag_of_reg status]
    exact ended.busy
  · exact ((ended.within.parts.mono (by decide)).trans (within.parts.mono (by decide))).trans (after.parts.mono (by decide))

/-- A page or sector written with `l`, and the command ended with `r`. -/
theorem bootWritten_spec {a r n : Nat} {l : List Byte} (hl : l.length = n) (hr : r < 16) {t : State} (ht : t = (s.bootOver.bootWrite a l).bootEnd r) :
    t.bootBytes a n = l ∧ (∀ x, (x < a ∨ a + n ≤ x) → t.bootBytes x 1 = s.bootBytes x 1) ∧
      (∀ i, i < n → t.bootBytes (a + i) 1 = [(l[i]?).getD 0xFF]) ∧ t.cfg.bootOp = none ∧
      t.fld Reg.CFG_BOOT_BSTATUS Fld.CFG_BOOT_BSTATUS_RESULT = r ∧ RegsBut [Reg.CFG_BOOT_BSTATUS] s t ∧ Keeps [.regs, .cfg, .obs] s t := by
  have ended := bootOver_over (s := s)
  obtain ⟨u, hu⟩ : ∃ u, u = s.bootOver := ⟨_, rfl⟩
  rw [← hu] at ended ht
  obtain ⟨result, -, -, cfg, after⟩ := bootEnd_spec (s := u.bootWrite a l) hr
  rw [← ht] at result cfg after
  have bytes (x k : Nat) : t.bootBytes x k = (u.bootWrite a l).bootBytes x k := by rw [State.bootBytes, State.bootBytes, cfg]
  have written : Within ⟨[.cfg], [], []⟩ u (u.bootWrite a l) := within_bootWrite u a l (.refl _) (.refl _ u)
  have op : t.cfg.bootOp = u.cfg.bootOp := by rw [cfg]; rfl
  have all : Within ⟨[.regs, .cfg, .obs], [one Reg.CFG_BOOT_BSTATUS], []⟩ s t :=
    (ended.within.mono (.of (by decide))).trans ((written.mono (.of (by decide))).trans (after.mono (.of (by decide))))
  refine ⟨?_, fun x hx => ?_, fun i hi => ?_, by rw [op, ended.cfg], result, all.regsBut, all.parts⟩
  · rw [bytes]
    exact bootBytes_bootWrite hl
  · rw [bytes, bootByte_bootWrite_out (by rwa [hl]), ended.bytes]
  · rw [bytes]
    exact bootByte_bootWrite_in (by rwa [hl])

theorem length_takeFreeBytes (k : Nat) : ∀ s : State, (State.takeFreeBytes k s).2.length = 4 * k := by
  induction k with
  | zero => exact fun _ => rfl
  | succ k ih =>
    intro s
    show (wordBytes _ ++ _).length = _
    rw [List.length_append, ih]
    simp only [wordBytes, List.length_cons, List.length_nil]
    omega

/-- A timeout: the page or sector is free, nothing else of the memory has changed. -/
theorem bootSpoiled_spec {op : BootOp} {a k n : Nat} (hop : ∀ u : State, u.bootSpoil op a = (State.takeFreeBytes k u).1.bootWrite a (State.takeFreeBytes k u).2)
    (hk : 4 * k = n) {t : State} (ht : t = (s.bootOver.bootSpoil op a).bootEnd 2) :
    t.fld Reg.CFG_BOOT_BSTATUS Fld.CFG_BOOT_BSTATUS_RESULT = 2 ∧ (∀ x, (x < a ∨ a + n ≤ x) → t.bootBytes x 1 = s.bootBytes x 1) ∧
      RegsBut [Reg.CFG_BOOT_BSTATUS] s t ∧ Keeps [.regs, .cfg, .free, .obs] s t := by
  have ended := bootOver_over (s := s)
  obtain ⟨u, hu⟩ : ∃ u, u = s.bootOver := ⟨_, rfl⟩
  rw [← hu] at ended ht
  have spoiled : Within ⟨[.cfg, .free], [], []⟩ u (u.bootSpoil op a) := within_bootSpoil u op a (.refl _) (.refl _ u)
  have out (x : Nat) (hx : x < a ∨ a + n ≤ x) : (u.bootSpoil op a).bootBytes x 1 = u.bootBytes x 1 := by
    have cfg : (State.takeFreeBytes k u).1.cfg = u.cfg := (within_takeFreeBytes k u (.refl _) (.refl _ u)).parts .cfg (by decide)
    rw [hop, bootByte_bootWrite_out (by rwa [length_takeFreeBytes, hk]), State.bootBytes, cfg]
    rfl
  obtain ⟨v, hv⟩ : ∃ v, v = u.bootSpoil op a := ⟨_, rfl⟩
  rw [← hv] at spoiled out ht
  obtain ⟨result, -, -, cfg, after⟩ := bootEnd_spec (s := v) (r := 2) (by decide)
  rw [← ht] at result cfg after
  have all : Within ⟨[.regs, .cfg, .free, .obs], [one Reg.CFG_BOOT_BSTATUS], []⟩ s t :=
    (ended.within.mono (.of (by decide))).trans ((spoiled.mono (.of (by decide))).trans (after.mono (.of (by decide))))
  refine ⟨result, fun x hx => ?_, all.regsBut, all.parts⟩
  rw [State.bootBytes, cfg]
  exact (out x hx).trans (ended.bytes x 1)

/-! ### The statement -/

theorem bootAligned_false {a : Nat} : (a % 256 ≠ 0 → bootAligned .program a = false) ∧ (a % 4096 ≠ 0 → bootAligned .erase a = false) :=
  ⟨fun h => decide_eq_false h, fun h => decide_eq_false h⟩

theorem does_bootDone {n : Nat} {b : Bool} {op : BootOp} {a : Nat} {P : State → Prop} (hr : Clocked s) (ho : s.cfg.bootOp = some (op, a))
    (hp : P (match op with
      | .read => (s.bootOver.bootTake a).bootEnd 0
      | .program =>
        if 5000 < n then (s.bootOver.bootSpoil op a).bootEnd 2
        else if b then (s.bootOver.bootSpoil op a).bootEnd 3
        else (s.bootOver.bootProgram a s.cfg.bootData).1.bootEnd (s.bootOver.bootProgram a s.cfg.bootData).2
      | .erase =>
        if 400000 < n then (s.bootOver.bootSpoil op a).bootEnd 2
        else if b then (s.bootOver.bootSpoil op a).bootEnd 0
        else (s.bootOver.bootWrite a (List.replicate 4096 0xFF)).bootEnd 0)) : Does (.bootOpDone n b) s P := by
  refine does_clocked (o := execBootOpDone n b s) rfl rfl hr ?_ hp
  simp only [ho]
  cases op <;> rfl

/-- Settles O55: a command is taken up where `bootBad` is false, and ends as its bytes in the memory say. -/
theorem bootAccess : Obligations.BootAccess := by
  refine ⟨fun s a hr ha hi hb h4 => ?_, fun s hr h => ?_, fun s a hr ha hi hb h256 hw => ?_, fun s a hr ha h => ?_, fun s a hr ha hi hb h4096 hw => ?_,
    fun s n a b hr ho ha => ?_, fun s n a hr ho hn hl => ?_, fun s n a b hr ho hn => ?_, fun s n a hr ho hn => ?_, fun s n a b hr ho hn => ?_,
    fun s a hr ha h => ?_⟩
  · exact does_clocked (o := execBootRead s) rfl rfl hr rfl (bootStarted_spec (op := .read) ha (bootBad_read ⟨hi, hb⟩ h4) rfl)
  · exact does_clocked (o := execBootRead s) rfl rfl hr rfl (bootRefused_spec (op := .read) rfl (bootBad_read_refused h) rfl)
  · exact does_clocked (o := execBootProgram s) rfl rfl hr rfl
      (bootStarted_spec (op := .program) ha (bootBad_write ⟨hi, hb⟩ (decide_eq_true h256) hw) rfl)
  · exact does_clocked (o := execBootProgram s) rfl rfl hr rfl
      (bootRefused_spec (op := .program) ha (bootBad_refused (by decide) (h.imp_left bootAligned_false.1)) rfl)
  · exact does_clocked (o := execBootErase s) rfl rfl hr rfl
      (bootStarted_spec (op := .erase) ha (bootBad_write ⟨hi, hb⟩ (decide_eq_true h4096) hw) rfl)
  · exact does_bootDone hr ho (bootReadDone_spec ha rfl)
  · obtain ⟨now, hnow⟩ : ∃ now, now = List.zipWith (fun x y => x &&& y) (s.bootBytes a 256) s.cfg.bootData := ⟨_, rfl⟩
    have over_ := bootOver_over (s := s)
    have length : now.length = 256 := by rw [hnow, List.length_zipWith, bootBytes_length, hl]; rfl
    have program : s.bootOver.bootProgram a s.cfg.bootData = (s.bootOver.bootWrite a now, if now = s.cfg.bootData then 0 else 3) := by
      rw [State.bootProgram, over_.bytes, ← hnow]
    refine does_bootDone hr ho ?_
    dsimp only
    rw [if_neg (by omega), if_neg Bool.false_ne_true, program]
    obtain ⟨page, out, -, op, result, regs, kept⟩ :=
      bootWritten_spec (s := s) (a := a) (r := if now = s.cfg.bootData then 0 else 3) length (by split <;> omega) rfl
    refine ⟨page.trans hnow, out, op, ?_, regs, kept⟩
    rw [page]
    exact result
  · refine does_bootDone hr ho ?_
    dsimp only
    rw [if_pos hn]
    exact bootSpoiled_spec (op := .program) (k := 64) (n := 256) (fun _ => rfl) rfl rfl
  · refine does_bootDone hr ho ?_
    dsimp only
    rw [if_neg (by omega), if_neg Bool.false_ne_true]
    obtain ⟨l, hl⟩ : ∃ l, l = List.replicate 4096 (0xFF : Byte) := ⟨_, rfl⟩
    have length : l.length = 4096 := by rw [hl, List.length_replicate]
    have erased (i : Nat) (hi : i < 4096) : l[i]? = some 0xFF := by rw [hl, List.getElem?_replicate_of_lt hi]
    rw [← hl]
    obtain ⟨-, out, inside, op, result, regs, kept⟩ := bootWritten_spec (s := s) (a := a) (r := 0) length (by decide) rfl
    refine ⟨fun x h1 h2 => ?_, out, op, result, regs, kept⟩
    have byte := inside (x - a) (by omega)
    rw [show a + (x - a) = x by omega, erased _ (by omega)] at byte
    exact byte
  · refine does_bootDone hr ho ?_
    dsimp only
    rw [if_pos hn]
    exact bootSpoiled_spec (op := .erase) (k := 1024) (n := 4096) (fun _ => rfl) rfl rfl
  · exact does_clocked (o := execBootErase s) rfl rfl hr rfl
      (bootRefused_spec (op := .erase) ha (bootBad_refused (by decide) (h.imp_left bootAligned_false.2)) rfl)

end Sys2Proof.Machine

/-! The trace port and the counters (O56): a session's context read while its own word is the one latched. -/

namespace Sys2Proof.Machine

/-- CLK_CORE runs, no session is there, and a value stands latched for CTX4 of session 0. -/
def heldLow : State :=
  { State.reset with
    pwr := { State.reset.pwr with awake := .running }
    hif := { State.reset.hif with ctxHeld := [(Reg.PRO_CTX 0 4, 1)] } }

/-- The model gives what stands latched for the very word that is read. -/
theorem heldLow_peek : heldLow.peek (0x48000 + (0 : SessId) * 0x20 + 4 * if false then 6 else 4) = 1 := by decide +kernel

theorem heldLow_read : exec (.ctxLowRead 0 false) heldLow =
    .next (finish heldLow ((heldLow.readCtxLow 0 false).setOut [heldLow.peek (0x48000 + (0 : SessId) * 0x20 + 4 * if false then 6 else 4)])) := rfl

/-- Refutes O56, of whose last clause the first part fails: a read of CTX4 gives what stands latched for CTX4 itself, where the statement has the
session's word, or 0 where there is no session. -/
theorem not_traceAndCounters : ¬ Obligations.TraceAndCounters := by
  intro h
  unfold Obligations.TraceAndCounters at h
  obtain ⟨-, -, -, -, -, -, -, -, context⟩ := h
  obtain ⟨t, ⟨out, -⟩, same⟩ := (context heldLow 0 false rfl).same heldLow_read
  have hif : t.hif = ((heldLow.readCtxLow 0 false).setOut [heldLow.peek (0x48000 + (0 : SessId) * 0x20 + 4 * if false then 6 else 4)]).hif :=
    same .hif (by decide)
  rw [hif, heldLow_peek] at out
  have none_ : ((heldLow.session (0 : SessId)).map fun x => x.ctx (if false then 6 else 4)).getD 0 = (0 : Word) := rfl
  have one : ([1] : List Word) = [0] := out.trans (congrArg (fun w => [w]) none_)
  exact absurd one (by decide)

end Sys2Proof.Machine

/-! The host port (O59): a RELOAD written in the cycle in which a bit of its address stands noted as set by hardware. -/

namespace Sys2Proof.Machine

/-- CLK_CORE runs, and bit 0 at the address of RELOAD 0 stands noted as set by hardware in the cycle in progress. -/
def notedReload : State :=
  { State.reset with
    pwr := { State.reset.pwr with awake := .running }
    obs := { State.reset.obs with fresh := { cyc := 0, bits := [(Reg.TMR_T_RELOAD 0, 1)] } } }

theorem notedReload_ready : HostReady notedReload := ⟨rfl, rfl⟩

/-- What a whole WRITE said to coincide with hardware leaves, before its end is closed. -/
def coincidentWrite (s : State) (addr : BitVec 24) (data : List Word) : State :=
  let a := wordAddr addr.toNat
  let l := s.coincident data a
  ((State.hostWrites l a (s.countBy 104 (4 * l.length))).noteUnmapped l.length a).hostEnding .whole 0x02 addr.toNat

theorem exec_coincidentWrite {s : State} (ready : HostReady s) (addr : BitVec 24) (data : List Word) :
    exec (.write false addr data .whole true) s = .next (finish s (coincidentWrite s addr data)) := by
  obtain ⟨live, free⟩ := ready
  show done s (if s.live then (if s.hostFree then coincidentWrite s addr data else s) else s) = _
  rw [if_pos live, if_pos free]
  rfl

/-- The noted bit is masked from the word that the host sends, and RELOAD takes 0. -/
theorem coincidentWrite_reload : (coincidentWrite notedReload 0x90108 [1]).reg (Reg.TMR_T_RELOAD 0) = 0 := by decide +kernel

/-- Refutes O59, whose third clause fails in a state in which a bit of RELOAD's own address is noted as set by hardware in the cycle of the
write: the model masks that bit from a word said to coincide with hardware (R13), here the only one written. The statement lets the marks of
`obs.fresh` be any; those that hardware makes are of status registers. -/
theorem not_hostTransactions : ¬ Obligations.HostTransactions := by
  intro h
  unfold Obligations.HostTransactions at h
  obtain ⟨-, -, reload, -⟩ := h
  obtain ⟨t, ⟨value, -⟩, same⟩ := (reload notedReload false 0 0x90108 1 true notedReload_ready rfl rfl).same (exec_coincidentWrite notedReload_ready _ _)
  have regs : t.regs = (coincidentWrite notedReload 0x90108 [1]).regs := same .regs (by decide)
  have zero : t.reg (Reg.TMR_T_RELOAD 0) = 0 := (reg_of_regs regs _).trans coincidentWrite_reload
  exact absurd (value.symm.trans zero) (by decide)

end Sys2Proof.Machine
